-- ==== Sys2Proof/Word.lean ====
section
/-! DEFINITION. The plain words of the model: bytes, words, and the sparse maps every table, memory and
register array of the device is held in. -/
namespace Sys2Proof

/-- One byte (R7: all multi-byte fields are little-endian sequences of these). -/
abbrev Byte := BitVec 8
/-- A 32-bit word: one cell of a tile register, one element in flight. -/
abbrev Word32 := BitVec 32
/-- A 64-bit word: one device register (R9), one mill time, one address. -/
abbrev Word64 := BitVec 64

/-- A map from numbers to `α` held as data: strictly rising keys, and no entry equal to what an absent key
reads as (`NatMap.wf` in `Machine/Maps.lean`), so that equal maps are equal lists. -/
abbrev NatMap (α : Type) := List (Nat × α)

end Sys2Proof
end

