-- ==== Sys2Proof/Types/Host.lean ====
section
/-! DEFINITION. Contexts, memory objects, queues, queue pairs, ports and packets: the state of chapter 11. -/
namespace Sys2Proof.Machine
open Sys2Proof

/-- Where an object lies (Table 09.2). -/
inductive Tier where
  | granary | hbm | pond
  deriving DecidableEq, Repr

/-- The states of a Pond object (Table 09.3), and those of the other placements. -/
inductive ObjState where
  /-- Granary and HBM objects, and MIRROR objects, have no state of Table 09.3 -/
  | plain
  | opened | sealed | held
  deriving DecidableEq, Repr

/-- An entry of an object table (R213, R292). -/
structure Obj where
  live : Bool := false
  gen : Nat := 0
  flags : Nat := 0
  tier : Tier := .hbm
  die : Nat := 0
  /-- byte offset in its heap -/
  base : Nat := 0
  /-- SIZE: the length for every check of R214 -/
  size : Nat := 0
  state : ObjState := .plain
  /-- an HBM object named by a loaded shard table (R210) -/
  heldHbm : Bool := false
  /-- the Pond key epoch of the object, or of slot 0 of a MIRROR object (R348) -/
  epoch : Nat := 0
  /-- the epoch of slot 1 of a MIRROR object -/
  epochB : Nat := 0
  deriving DecidableEq, Repr

/-- A freed range whose granules have not yet returned to the heap (R218). -/
structure PendingFree where
  ctx : Nat
  index : Nat
  /-- the generation of the freed object -/
  gen : Nat
  tier : Tier
  die : Nat
  base : Nat
  size : Nat
  /-- 0 MEM_FREE, 1 U_FREE, 2 a FREE command, 3 TOLL_FREE, 4 the context's end -/
  origin : Nat := 0
  deriving DecidableEq, Repr

/-- A context descriptor (Table 11.5). -/
structure CtxDesc where
  part : Nat := 0
  home : Bool := false
  queues : Nat := 0
  ringLog2 : Nat := 0
  eventLog2 : Nat := 0
  objMax : Nat := 0
  session : Nat := 0
  eventQp : Nat := 0xFFFF
  eventVa : Nat := 0
  eventRkey : Nat := 0
  hbmSets : Nat := 0
  hbmOff : Nat := 0
  hbmLen : Nat := 0
  pondOff : Nat := 0
  pondLen : Nat := 0
  /-- by die: (offset, length) -/
  granary : List (Nat × Nat) := []
  deriving DecidableEq, Repr

/-- The states of a context (Table 11.6). -/
inductive CtxState where
  | undefined | defined | resident | ended
  deriving DecidableEq, Repr

/-- An event record (Table 11.10). -/
structure EventRec where
  type : Nat
  fault : Nat := 0
  queue : Nat := 0xFF
  status : Nat := 0
  ctx : Nat := 0
  tag : Nat := 0
  index : Nat := 0
  result : Nat := 0
  mill : Nat := 0
  deriving DecidableEq, Repr

/-- A command queue of a context (R293 to R298). -/
structure HQueue where
  /-- index of the next command the device will fetch -/
  head : Nat := 0
  /-- commands fetched and not started: (index, 64 bytes) -/
  fetched : List (Nat × List Byte) := []
  /-- the command in progress: (index, 64 bytes) -/
  current : Option (Nat × List Byte) := none
  /-- mill time at which the command in progress started -/
  since : Nat := 0
  stopped : Bool := false
  failedIndex : Nat := 0
  deriving DecidableEq, Repr

/-- A context. -/
structure Ctx where
  state : CtxState := .undefined
  desc : CtxDesc := {}
  slot : Nat := 63
  cmdStatus : Nat := 0
  evicting : Bool := false
  /-- the context has ended and its work in flight is not yet complete (R291): 1 by END, 2 by ABORT_CTX, 3 by a rebinding -/
  ending : Nat := 0
  objects : NatMap Obj := []
  queues : NatMap HQueue := []
  /-- records written -/
  recCount : Nat := 0
  /-- EVENT_HEAD as the last scan read it (R293) -/
  eventHead : Nat := 0
  /-- records that wait for room in the ring, oldest first -/
  recWait : List EventRec := []
  faultIndex : Nat := 0
  faultQueue : Nat := 0
  faultCode : Nat := 0
  /-- U_FREE_STATUS -/
  uFreeBusy : Bool := false
  uFreeStatus : Nat := 0
  /-- event records are stopped by an EVENT_QP in ERROR (R300) -/
  qpError : Bool := false
  deriving DecidableEq, Repr

/-- A job of the control die's copy engine (R297, R337, R355). -/
structure CopyJob where
  ctx : Nat
  queue : Nat := 0
  index : Nat := 0
  tag : Nat := 0
  record : Bool := false
  /-- 0 COPY, 1 UNSEAL, 2 sealed release -/
  kind : Nat := 0
  srcIdx : Nat := 0
  srcOff : Nat := 0
  dstIdx : Nat := 0
  dstOff : Nat := 0
  len : Nat := 0
  /-- key slot of UNSEAL; charter slot of a release -/
  key : Nat := 0
  /-- the data key, or the output key, as the command took it up -/
  keyBytes : List Byte := []
  /-- UNSEAL: the header as it passed its checks (R355) -/
  header : List Byte := []
  /-- the objects as they stood when the command passed its checks -/
  srcObj : Obj := {}
  dstObj : Obj := {}
  deriving DecidableEq, Repr

/-- The states of a queue pair (Table 11.18). -/
inductive QpState where
  | reset | rts | error
  deriving DecidableEq, Repr

/-- A RoCEv2 queue pair (R283 to R286, R306). -/
structure Qp where
  state : QpState := .reset
  part : Nat := 0
  ctx : Nat := 0
  port : Nat := 0
  ipv6 : Bool := false
  remoteQpn : Nat := 0
  sqPsn : Nat := 0
  rqPsn : Nat := 0
  rmac : Nat := 0
  raddr0 : Word64 := 0
  raddr1 : Word64 := 0
  /-- next expected request packet sequence number -/
  expPsn : Nat := 0
  /-- next packet sequence number to send -/
  nextPsn : Nat := 0
  /-- PART, CTX and PORT as CONNECT latched them (R306, R432) -/
  onPart : Nat := 0
  onCtx : Nat := 0
  onPort : Nat := 0
  /-- a multi-packet WRITE in progress: the handle, the object as it passed its checks, next byte offset, bytes left -/
  write : Option (Nat × Obj × Nat × Nat) := none
  /-- the bytes of a WRITE of the queue object whose last packet is still to come: a scan sees none of them (R286) -/
  held : List Byte := []
  /-- packets sent and not acknowledged: (psn, virtual address, R_Key, record) -/
  unacked : List (Nat × Nat × Nat × List Byte) := []
  retries : Nat := 0
  /-- the rate as a fraction of line rate (R283) -/
  rate : Rat := 1
  lastCnp : Nat := 0
  deriving DecidableEq, Repr

/-- The MKA instance and secure channel of a sub-port (R356). -/
structure SubPort where
  /-- the secure channel is up -/
  up : Bool := false
  /-- the SAK in force, its key number and association number -/
  sak : List Byte := []
  sakKn : Nat := 0
  sakAn : Nat := 0
  nextPn : Nat := 0
  /-- the peer's key server priority -/
  peer : Option Nat := none
  keyServer : Bool := false
  deriving DecidableEq, Repr

/-- An Ethernet port, or the management port (index 8): chapters 11 and 13. -/
structure Port where
  v6 : Bool := false
  pfcEn : Nat := 0
  breakout : Nat := 0
  link : Bool := false
  lanes : Nat := 0
  quarantined : Bool := false
  /-- frames dropped while quarantined (R303) -/
  quarDrops : Nat := 0
  mac : Nat := 0
  ip4 : Nat := 0
  ip60 : Word64 := 0
  ip61 : Word64 := 0
  /-- priorities whose egress a pause frame stops (R279), with the mill time at which each pause ends -/
  pausedUntil : NatMap Nat := []
  /-- mill time of the last fault 0x0708 on this port (R302) -/
  lastRefusal : Option Nat := none
  macsecEn : Bool := false
  macsecRequire : Bool := false
  cakSlot : Nat := 0
  ksPriority : Nat := 0xFF
  ckn0 : Word64 := 0
  ckn1 : Word64 := 0
  /-- the CKN that a role 2 setup gave the port, in place of the registers' (R356) -/
  setupCkn : List Byte := []
  replayWindow : Nat := 0
  /-- MKA and the secure channel, by sub-port -/
  subs : NatMap SubPort := []
  /-- ETH_MACSEC_DROPS (R357) -/
  dropUnprotected : Nat := 0
  dropIcv : Nat := 0
  deriving DecidableEq, Repr

/-- An Ihlak packet as it arrives (Table 11.1), its payload in plaintext. `tagOk` is the verdict of the AES-256-GCM
check (R277), a fact about the packet that the environment supplies. -/
structure Pkt where
  port : Nat
  version : Nat
  type : Nat
  flags : Nat := 0
  part : Nat
  session : Nat
  sender : Nat
  /-- the LENGTH field -/
  length : Nat
  /-- the two reserved bytes of the header -/
  reserved : Nat := 0
  seq : Nat
  payload : List Byte
  tagOk : Bool
  /-- the 802.1Q priority of its frame (R279) -/
  prio : Nat := 5
  deriving DecidableEq, Repr

end Sys2Proof.Machine
end

