-- ==== Sys2Proof/Types/Io.lean ====
section
/-! DEFINITION. Who asks and what goes out: the requesters of chapter 17 with their selects, the verdicts of the hardware
checks that a command carries, and the messages the device sends. -/
namespace Sys2Proof.Machine
open Sys2Proof

/-- A requester of the register space (R424, R430). -/
inductive Req where
  /-- an Ihlak session, by its SESSION value -/
  | session (id : Nat)
  /-- factory access (R373) -/
  | factory
  /-- the board controller over I3C or SMBus -/
  | board
  deriving DecidableEq, Repr

/-- The select registers one requester holds (R429, R430). -/
structure Selects where
  ctx : Nat := 0
  part : Nat := 0
  partAll : Bool := false
  tile : Nat := 0
  die : Nat := 0
  hbm : Nat := 0
  port : Nat := 0
  key : Nat := 0
  dom : Nat := 0
  sync : Nat := 0
  leat : Nat := 0
  qp : Nat := 0
  keyid : Nat := 0
  charterSlot : Nat := 0
  charterPart : Nat := 0
  recSlot : Nat := 0
  repair : Nat := 0
  /-- U_SYNC_SEL of each context's window -/
  uSync : NatMap Nat := []
  deriving DecidableEq, Repr

/-- A word of a coded memory (Table 15.4): a cell of a tile's register file, accumulators, weight buffers or statistics block (MEMORY of
Table 15.7), a word of scratch, SRAM, Granary or of a core's memories, a sync object, a line. -/
inductive MemWord where
  | cell (tile memory row : Nat)
  | scratch (tile addr : Nat)
  | sram (cluster addr : Nat)
  | granary (slice addr : Nat)
  | ctrl (cluster addr : Nat)
  | sync (part index : Nat)
  | hbm (line : Nat)
  | pond (line : Nat)
  deriving DecidableEq, Repr

/-- The verdict of the hardware checks on the operation a command completes (R383 to R390): facts about the silicon that
the environment supplies. -/
inductive HwCheck where
  | ok
  /-- a memory code corrected a word: where, and the failing bit -/
  | corrected (w : MemWord) (bit : Nat)
  /-- a memory code found a word it cannot correct (R390): MEMORY of Table 15.7, address, syndrome, bit -/
  | uncorrectable (memory addr syndrome bit : Nat)
  /-- a row check mismatched twice (R384) -/
  | rowFail
  /-- a vector or drain residue check failed (R388); of a Quern unit, its first failure, after which the unit is redone (R198) -/
  | residue
  /-- a Quern unit's residue check failed again on the redone unit (R198) -/
  | residueAgain
  /-- a hallmark column check failed (R383): array B, vector v, column n, the adder's result and the check cells' R_n -/
  | column (arrB : Bool) (v n : Nat) (xo : Int) (rhoE : Nat)
  deriving DecidableEq, Repr

/-- The blocks that have a lock bit (R433). -/
inductive LockBlock where
  | gov | part | mem | mce | eth | sec | pwr | ras
  deriving DecidableEq, Repr

/-- What a Millrace packet is addressed to (R18). -/
inductive MillDest where
  | cluster (c : Nat)
  | granary (slice : Nat)
  | hbmSet (n : Nat)
  | pond (addr : Nat)
  | port (k : Nat)
  | control
  deriving DecidableEq, Repr

/-- Who sends a Millrace packet (R18, R359). -/
inductive MillSrc where
  /-- the control die's own traffic: partition number 0, identifier 0 -/
  | control
  /-- the P-view, the operator's copy engine and RDMA, and the debug path: identifier 1 -/
  | operator
  /-- a resource of a partition, for one of its contexts -/
  | part (p ctx : Nat)
  deriving DecidableEq, Repr

/-- A package link of the Millrace, as MCE_LINK_STATUS names them. -/
inductive PkgLink where
  | ring (d : Nat) | chord (d : Nat) | io (d : Nat) | ctrl (d : Nat)
  deriving DecidableEq, Repr

/-- What a received PTP timing message gives the engine (R41, R42): facts the environment measures. -/
structure PtpMeas where
  port : Nat
  /-- 0 one-step Sync (or a Follow_Up), 1 two-step Sync, 2 Delay_Resp -/
  kind : Nat
  /-- mill time minus the parent's time, ns -/
  offset : Int
  /-- measured path delay, ns -/
  delay : Nat
  /-- the measured frequency error, ppb -/
  freqPpb : Int
  deriving DecidableEq, Repr

/-- What signals a sync object. -/
inductive SignalSrc where
  | tile (t : Nat)
  | core (c : Nat)
  | leat (c k : Nat)
  | quern (part die : Nat)
  | host (ctx queue : Nat)
  | collective (part : Nat)
  deriving DecidableEq, Repr

/-- What waits on a sync object (R235). -/
inductive Waiter where
  | tile (t : Nat)
  | queue (ctx q : Nat)
  deriving DecidableEq, Repr

/-- The digests of one differing leaf that this device's twins sent (R398). -/
structure LeafVote where
  die : Nat
  shard : Nat
  leaf : Nat
  /-- the leaves of the shard that differ -/
  leaves : Nat
  /-- the twins' VERSIONs differ from this device's -/
  versionDiffers : Bool
  /-- per twin: stored digest s and recomputed digest c -/
  twins : List (Nat × Nat)
  deriving DecidableEq, Repr

/-- A RoCEv2 request packet (R283 to R285). -/
structure RoceReq where
  qp : Nat
  psn : Nat
  port : Nat
  /-- the packet opens a WRITE or READ: it carries the RETH -/
  first : Bool
  last : Bool
  /-- virtual address, remote key and length of the RETH -/
  va : Nat
  rkey : Nat
  len : Nat
  data : List Byte
  /-- the packet is marked congestion experienced (R283) -/
  ecn : Bool := false
  /-- the 802.1Q priority of its frame (R279) -/
  prio : Nat := 3
  deriving DecidableEq, Repr

/-- Why a MACsec frame is dropped (ETH_MACSEC_DROPS). -/
inductive MacsecDrop where
  | unprotected | icvFail
  deriving DecidableEq, Repr

/-- A sub-port of a port, with its own MKA instance and secure channel (R356). -/
structure SubId where
  port : Nat
  sub : Nat
  deriving DecidableEq, Repr

/-- What a received MKA frame of a sub-port carries (R356). -/
structure MkaMsg where
  /-- the sub-port whose MKA instance the frame belongs to -/
  sub : Nat := 0
  /-- the integrity check value verifies under the port's CAK -/
  icvOk : Bool
  /-- the peer's key server priority -/
  priority : Nat
  /-- the peer's SCI is lower than the device's (the tie-break of 802.1X) -/
  sciLower : Bool
  /-- an SAK the peer distributes: key number, association number and the key -/
  sak : Option (Nat × Nat × List Byte)
  /-- the sub-port's secure channel is up once this frame is taken -/
  up : Bool
  deriving DecidableEq, Repr

/-- Where a firmware container comes from (R364, R369, R371). -/
inductive ImageSrc where
  /-- what the flash delivered; `none` where it does not answer -/
  | flash (image : Option (List Byte))
  | network
  deriving DecidableEq, Repr

/-- What the code of a word says. -/
inductive WordCheck where
  | ok | corrected (bit : Nat) | uncorrectable
  deriving DecidableEq, Repr

/-- A failing cell that memory BIST found (R395): MEMORY, KIND, ADDR and BIT of Table 15.7. -/
structure CellFail where
  memory : Nat
  column : Bool
  addr : Nat
  bit : Nat
  deriving DecidableEq, Repr

/-- What a self-test found (R393 to R397). -/
structure BistResult where
  /-- the signature and the golden signature of the logic slice; they differ where it failed -/
  misr : Word64
  golden : Word64
  fails : List CellFail
  deriving DecidableEq, Repr

/-- Wake events (Table 16.1, R440). -/
inductive WakeCause where
  | sluice | pin | board | timer
  /-- any other activity: it wakes Idle only -/
  | other
  deriving DecidableEq, Repr

/-- One PMBus reading (R421): W of the device and of each partition, as means of the last completed 100 ms and 1 s. -/
structure PowerMeas where
  dev100 : Nat
  dev1000 : Nat
  parts100 : List Nat
  parts1000 : List Nat
  deriving DecidableEq, Repr

/-- An Ihlak header (Table 11.1). -/
structure PktHead where
  version : Nat
  type : Nat
  flags : Nat
  part : Nat
  session : Nat
  sender : Nat
  length : Nat
  reserved : Nat := 0
  seq : Nat
  deriving DecidableEq, Repr

/-- A Weir message. DESIGN CHOICE: the spec gives it 64 bytes and no layout. -/
structure WeirMsg where
  /-- 0 arrival, 1 release, 2 the outcome of an epoch is asked, 3 the answer, 4 node digests of a resolution, 5 a node error -/
  kind : Nat
  /-- ABORT of an arrival; the outcome of a release or answer: 0 PASS, 1 ABORT_STEP, 2 ABORT_ECC, 3 no longer held -/
  flags : Nat := 0
  index : Nat
  epoch : Nat
  replica : Nat := 0
  position : Nat := 0
  blame : Nat := 0xFF
  /-- the release of a quorum lost (R267) -/
  quorum : Bool := false
  members : Nat := 0
  deriving DecidableEq, Repr

/-- What an Ihlak packet of the device carries (Table 11.2). -/
inductive IhlakMsg where
  /-- REG_RESP (R280): TAG, STATUS, FAIL_INDEX, COUNT, MILL and the data words of a read -/
  | regResp (tag status failIndex count mill : Nat) (data : List Word64)
  /-- a SETUP message (Table 12.4): SUB, CODE and its body -/
  | setup (sub code : Nat) (body : List Byte)
  /-- an EVENT with a CPER record (R404) -/
  | event (record : List Byte)
  /-- a COLL_CHUNK -/
  | chunk (payload : List Byte)
  /-- returned credits (R282) -/
  | credit (count : Nat)
  /-- COLL_NACK and COLL_ACK (R282) -/
  | collNack (payload : List Byte)
  | collAck (payload : List Byte)
  /-- a Weir message (R261) -/
  | weir (m : WeirMsg)
  deriving DecidableEq, Repr

/-- A message of the device. -/
inductive OutMsg where
  /-- an Ihlak packet on a port -/
  | ihlak (head : PktHead) (port : Nat) (m : IhlakMsg)
  /-- what an access of the board controller returns over I3C (R445): the status and the word read -/
  | board (status mill : Nat) (data : List Word64)
  /-- an event record of a context sent by RDMA WRITE (R300) -/
  | recordWrite (qp va rkey : Nat) (record : List Byte)
  /-- a congestion notification for a marked packet received (R283) -/
  | cnp (qp : Nat)
  /-- a RoCEv2 acknowledgement: queue pair, packet sequence number, and the NAK code (0 for an ACK) -/
  | roceAck (qp psn nak : Nat)
  /-- the data of an RDMA READ response -/
  | roceData (qp psn : Nat) (data : List Byte)
  /-- a PTP message: its message type, the port, and the mill time it carries -/
  | ptp (type port mill : Nat)
  /-- a recovery REQ (Table 14.5) from the management port: its IPv6 source and destination addresses, UDP port and bytes -/
  | recoveryReq (src dst udpPort : Nat) (bytes : List Byte)
  /-- an MKA frame: the port and sub-port, the key number distributed, and the association number -/
  | mka (port sub kn an : Nat)
  /-- PPS_OUT rises, at this mill time -/
  | pps (mill : Nat)
  /-- an AVSBus command: the die's rail and the voltage in mV -/
  | avs (die mv : Nat)
  /-- a Millrace packet forwarded: its partition number, identifier and destination, and the links it crosses with their frame counters -/
  | millrace (src kid : Nat) (dst : MillDest) (frames : List (Nat × Nat))
  deriving DecidableEq, Repr

end Sys2Proof.Machine
end

