-- ==== Sys2Proof/Syntax.lean ====
section
/-! DEFINITION. The commands the block takes: one constructor per row of the operation table, with the row's operands. A
command is a register access by a requester, a message that arrives, an event on a pin, or one indivisible step of an engine
of the device (`spec/95_what_each_step_holds.md`). Measurements and the verdicts of hardware checks are operands: the
environment supplies them. -/
namespace Sys2Proof
open Sys2Proof.Machine

/-- A command. -/
inductive Instr where
  /-- REG_WRITE (R432): A register write to a register with no row of its own is applied field by field under the access codes, reserved-bit and lock rules. -/
  | regWrite (rq : Req) (addr : Nat) (v : Word64)
  /-- LOCK_SET (R433): Writing 1 to a block's W1S lock bit freezes the WL fields of that block until reset. -/
  | lockSet (rq : Req) (b : LockBlock)
  /-- COUNTER_READ (R340): An RC counter read returns the exact or quantized value and subtracts what it returned from the live counter. -/
  | counterRead (rq : Req) (addr : Nat)
  /-- REG_RD (R280): An Ihlak REG_RD request reads 1 to 16 registers in address order and answers with REG_RESP. -/
  | regRd (p : Pkt)
  /-- REG_WR (R280): An Ihlak REG_WR request writes 1 to 16 registers in address order, each checked on its own, and answers with REG_RESP. -/
  | regWr (p : Pkt)
  /-- IHLAK_INVALID_PACKET (R277): An Ihlak datagram with a bad length, failing tag, replayed SEQ, wrong PART or reserved type is dropped and counted. -/
  | ihlakInvalid (p : Pkt)
  /-- STAGE (R27): PART_CMD STAGE copies a container into the staging range and verifies it in the order of Table 01.9. -/
  | stage (rq : Req)
  /-- BIND (R30): PART_CMD BIND checks the staged stream against the device and loads a FREE partition, or every partition of a full stream. -/
  | bind (rq : Req)
  /-- UNBIND (R31): PART_CMD UNBIND drains, scrubs and retires a partition and leaves it FREE. -/
  | unbind (rq : Req)
  /-- REBIND (R31): PART_CMD REBIND checks the staged stream and moves a partition through drain, scrub, retire, load and start. -/
  | rebind (rq : Req)
  /-- DISCARD (R28): PART_CMD DISCARD removes the staged stream of the selected partition. -/
  | discard (rq : Req)
  /-- DRAIN_COMPLETE (R31): When a draining partition's work in flight has completed, its firewall entries are removed and it enters SCRUBBING. -/
  | drainComplete (part : Nat)
  /-- DRAIN_LIMIT_EXPIRY (R34): Reaching PART_DRAIN_LIMIT brakes the draining partition, abandons its work in flight and sets BRAKED_DRAIN. -/
  | drainLimitExpiry (part : Nat)
  /-- SCRUB_COMPLETE (R31): When the state scrub and the Granary zeroing have both ended, the partition enters RETIRING and key retirement begins. -/
  | scrubComplete (part : Nat)
  /-- RETIRE_COMPLETE (R31): When every engine has confirmed destruction and the key slots are erased, the identifiers are freed and the partition enters LOADING or FREE. -/
  | retireComplete (part : Nat)
  /-- KEY_DESTROY_TIMEOUT (R349): An engine that does not confirm key destruction within 50 µs makes the identifier DEAD and raises fault 0x0806. -/
  | keyDestroyTimeout (kid : Nat)
  /-- LOAD_COMPLETE (R31): When the staged stream has been applied, the partition enters ARMED, or BRAKED if a brake arrived, and T0 is fixed. -/
  | loadComplete (part : Nat)
  /-- MILLRACE_PACKET (R18): A router stop checks a Millrace packet against its firewall table before forwarding it. -/
  | millracePacket (src : MillSrc) (die : Nat) (dst : MillDest)
  /-- LINK_FRAME_AUTH_FAIL (R17): A package link frame that fails authentication is dropped and counted. -/
  | linkFrameAuthFail (link : PkgLink)
  /-- PTP_SYNC (R41): A received Sync or Delay_Resp updates the offset, steps or slews mill time, and moves the synchronization state. -/
  | ptpSync (m : PtpMeas)
  /-- PTP_UNSUPPORTED (R40): A PTP message that the engine does not support is discarded and counted. -/
  | ptpUnsupported (port : Nat)
  /-- PTP_HOLDOVER (R41): No valid Sync for 4 intervals while LOCKED enters HOLDOVER and raises fault 0x0109. -/
  | ptpHoldover
  /-- PPS_IN_EDGE (R40): A PPS_IN rising edge is timestamped and used to discipline free-running mill time. -/
  | ppsInEdge
  /-- PPS_OUT_EDGE (R40): PPS_OUT rises at every whole second of mill time while PPS_OUT_EN is 1. -/
  | ppsOutEdge
  /-- REVOLUTION_START (R43): At each lattice point a revolution of a partition starts, taking it from ARMED to RUNNING where due. -/
  | revolutionStart (part : Nat)
  /-- LEASE_EXPIRY (R58): Mill time reaching the lease expiry makes the lease lapse. -/
  | leaseExpiry (part : Nat)
  /-- PHASE_START (R51): A PHASE_START entry starts the cluster control cores at the kernel entry point, or is held or missed under the phase order. -/
  | phaseStart (part : Nat) (entry : Nat)
  /-- HELD_PHASE_START (R51): A held PHASE_START starts when the phase before it completes. -/
  | heldPhaseStart (part : Nat) (entry : Nat)
  /-- COLLECTIVE_WINDOW (R52): A COLLECTIVE_WINDOW entry opens and grants the partition its share of each named port. -/
  | collectiveWindow (part : Nat) (entry : Nat)
  /-- WINDOW_CLOSE (R52): At OFFSET + DEADLINE a collective window closes and the partition stops sending its collective traffic. -/
  | windowClose (part : Nat) (entry : Nat)
  /-- QUEUE_SCAN (R294): A QUEUE_SCAN entry reads the tails of the selected resident queues and fetches their new commands. -/
  | queueScan (part : Nat) (entry : Nat)
  /-- LEASE_CHECK (R58): A LEASE_CHECK entry compares the time to expiry with WARN_PCT. -/
  | leaseCheck (part : Nat) (entry : Nat)
  /-- DIGEST_COMPARE (R260): A DIGEST_COMPARE entry runs the digest exchange of shard roots with the twins. -/
  | digestCompare (part : Nat) (entry : Nat)
  /-- TEST_SLOT (R392): A TEST_SLOT entry takes the next idle tile of the partition and starts a BIST slice on it. -/
  | testSlot (part : Nat) (entry : Nat)
  /-- VERSION_RELEASE (R201): A VERSION_RELEASE entry frees every committed version slot of the named groups that is no longer live. -/
  | versionRelease (part : Nat) (entry : Nat)
  /-- POWER_HINT (R415): A POWER_HINT entry sets the partition's operating-point hint on its dies. -/
  | powerHint (part : Nat) (entry : Nat)
  /-- HINT_LAPSE (R415): A power hint lapses after HOLD beats. -/
  | hintLapse (part : Nat)
  /-- DEADLINE_MISS (R53): An entry not complete at its deadline is recorded as a miss and its policy takes effect. -/
  | deadlineMiss (part : Nat) (entry : Nat)
  /-- BRAKE_COMPLETE (R57): When TOPs in flight have ended, ports are silent and the Quern is idle, the braked partition becomes BRAKED. -/
  | brakeComplete (part : Nat)
  /-- BRAKE_N_FALL (R60): BRAKE_N low for 100 ns brakes every ARMED or RUNNING partition and abandons draining ones. -/
  | brakeNFall
  /-- RELEASE (R61): GOV_CMD RELEASE takes a BRAKED partition back to RUNNING at the next lattice point. -/
  | release (rq : Req)
  /-- HALT (R61): GOV_CMD HALT brakes the selected partition as HALT_PART does. -/
  | halt (rq : Req)
  /-- ABORT (R61): GOV_CMD ABORT abandons the selected partition's current step. -/
  | abort (rq : Req)
  /-- TOP_LO_STORE (R74): A control-core store to TOP_LO holds the low word of the next TOP. -/
  | topLoStore (cluster : Nat) (w : Word64)
  /-- TOP_HI_STORE (R74): A control-core store to TOP_HI sends the TOP to every tile in TMASK, stalling while a queue is full. -/
  | topHiStore (cluster : Nat) (w : Word64)
  /-- TOP_ENQUEUE (R74): Once every addressed queue has room, the stalled TOP is placed in the queues. -/
  | topEnqueue (cluster : Nat)
  /-- TOP_DISPATCH (R85): A tile takes the TOP at its queue head and passes it to its unit. -/
  | topDispatch (tile : Nat)
  /-- NOP (R75): The NOP TOP completes on dispatch. -/
  | nop (tile : Nat)
  /-- MMA (R76): The MMA TOP loads or reuses a weight block and streams input vectors into accumulation groups. -/
  | mma (tile : Nat) (hw : HwCheck)
  /-- WEIGHT_LOAD_DONE (R70): When an MMA's weight-block load completes, the array begins streaming its vectors. -/
  | weightLoadDone (tile : Nat) (hw : HwCheck)
  /-- MMA_COMPLETE (R71): An MMA completes when its last results are in the group, which is then closed if ACC_CLOSE is set. -/
  | mmaComplete (tile : Nat) (hw : HwCheck)
  /-- LOAD (R78): The LOAD TOP copies memory rows into a tile register. -/
  | load (tile : Nat)
  /-- STORE (R78): The STORE TOP copies register rows to memory. -/
  | store (tile : Nat)
  /-- TRANSFER_COMPLETE (R78): A LOAD or STORE completes when its last row has moved. -/
  | transferComplete (tile : Nat) (hw : HwCheck)
  /-- DRAIN_REG (R79): The DRAIN_REG TOP drains group rows through the stages into a register. -/
  | drainReg (tile : Nat)
  /-- DRAIN_MEM (R79): The DRAIN_MEM TOP drains group rows through the stages into scratch, cluster SRAM or Granary. -/
  | drainMem (tile : Nat)
  /-- DRAIN_TIN (R141): The DRAIN_TIN TOP converts group rows to Tin and adds them into Tin56 blocks. -/
  | drainTin (tile : Nat)
  /-- DRAIN_DISCARD (R79): The DRAIN_DISCARD TOP frees a group without output and rolls up its indicators. -/
  | drainDiscard (tile : Nat)
  /-- DRAIN_COMPLETE_TOP (R142): A drain completes when its last write or add is visible, freeing its group and halting the tile on an exponent mismatch. -/
  | drainCompleteTop (tile : Nat) (hw : HwCheck)
  /-- TIN_CVT (R81): The TIN_CVT TOP converts register rows between a floating format and Tin. -/
  | tinCvt (tile : Nat)
  /-- TOLL_ALLOC (R82): The TOLL_ALLOC TOP asks Toll for an object and holds the queue until the result word is written. -/
  | tollAlloc (tile : Nat)
  /-- TOLL_FREE (R82): The TOLL_FREE TOP asks Toll to free an object and holds the queue until the result word is written. -/
  | tollFree (tile : Nat)
  /-- TOLL_SERVE (R219): Toll takes up the next call in arrival order, allocates or frees, and writes the result word. -/
  | tollServe
  /-- WAIT (R83): The WAIT TOP holds its tile's queue until its sync object satisfies VALUE. -/
  | wait (tile : Nat)
  /-- SIGNAL (R83): The SIGNAL TOP writes VALUE to a sync object once every earlier TOP of its tile is complete and visible. -/
  | signal (tile : Nat)
  /-- FENCE (R84): The FENCE TOP holds its queue until earlier TOPs are complete and visible at its scope. -/
  | fence (tile : Nat)
  /-- FENCE_COMPLETE (R84): A FENCE completes when the earlier writes are visible at its scope, releasing the queue. -/
  | fenceComplete (tile : Nat)
  /-- ADD (R150): The vector ADD operation adds two sources element by element. -/
  | add (tile : Nat)
  /-- SUB (R150): The vector SUB operation subtracts two sources element by element. -/
  | sub (tile : Nat)
  /-- MUL (R150): The vector MUL operation multiplies two sources element by element. -/
  | mul (tile : Nat)
  /-- FMA (R150): The vector FMA operation computes a × b + c with one rounding. -/
  | fma (tile : Nat)
  /-- FNMA (R150): The vector FNMA operation computes c − a × b with one rounding. -/
  | fnma (tile : Nat)
  /-- AFF (R150): The vector AFF operation computes a × s + t with s and t from IMM. -/
  | aff (tile : Nat)
  /-- MULL (R150): The vector MULL operation multiplies a by one selected element of b's line. -/
  | mull (tile : Nat)
  /-- FMAL (R150): The vector FMAL operation computes a × b_p + c. -/
  | fmal (tile : Nat)
  /-- MIN (R150): The vector MIN operation takes the smaller of two elements. -/
  | vmin (tile : Nat)
  /-- MAX (R150): The vector MAX operation takes the larger of two elements. -/
  | vmax (tile : Nat)
  /-- ABS (R150): The vector ABS operation takes the magnitude of each element. -/
  | vabs (tile : Nat)
  /-- NEG (R150): The vector NEG operation negates each element. -/
  | vneg (tile : Nat)
  /-- CMPGT (R150): The vector CMPGT operation writes 1.0 where a > b and +0 elsewhere. -/
  | cmpgt (tile : Nat)
  /-- SEL (R150): The vector SEL operation copies b where a > 0 and c elsewhere. -/
  | vsel (tile : Nat)
  /-- MOV (R150): The vector MOV operation copies each cell. -/
  | mov (tile : Nat)
  /-- FILL (R150): The vector FILL operation writes IMM[31:0] into each cell. -/
  | fill (tile : Nat)
  /-- MOVT (R150): The vector MOVT operation transposes a register into another. -/
  | movt (tile : Nat)
  /-- RCP (R154): The vector RCP function computes reciprocals. -/
  | rcp (tile : Nat)
  /-- SQRT (R154): The vector SQRT function computes square roots. -/
  | sqrt (tile : Nat)
  /-- RSQRT (R154): The vector RSQRT function computes reciprocal square roots. -/
  | rsqrt (tile : Nat)
  /-- EXP (R154): The vector EXP function computes e to the x. -/
  | exp (tile : Nat)
  /-- EXP2 (R154): The vector EXP2 function computes 2 to the x. -/
  | exp2 (tile : Nat)
  /-- LOG (R154): The vector LOG function computes natural logarithms. -/
  | log (tile : Nat)
  /-- LOG2 (R154): The vector LOG2 function computes base-2 logarithms. -/
  | log2 (tile : Nat)
  /-- TANH (R154): The vector TANH function computes hyperbolic tangents. -/
  | tanh (tile : Nat)
  /-- SIGMOID (R154): The vector SIGMOID function computes logistic sigmoids. -/
  | sigmoid (tile : Nat)
  /-- ERF (R154): The vector ERF function computes the error function. -/
  | erf (tile : Nat)
  /-- RSUM (R155): The RSUM reduction sums the 64 elements of each line in the configured order. -/
  | rsum (tile : Nat)
  /-- RSUMSQ (R155): The RSUMSQ reduction sums the squares of each line. -/
  | rsumsq (tile : Nat)
  /-- RDOT (R155): The RDOT reduction sums the products of two lines. -/
  | rdot (tile : Nat)
  /-- RMAX (R155): The RMAX reduction takes the largest element of each line. -/
  | rmax (tile : Nat)
  /-- RMIN (R155): The RMIN reduction takes the smallest element of each line. -/
  | rmin (tile : Nat)
  /-- RAMAX (R155): The RAMAX reduction takes the largest magnitude of each line. -/
  | ramax (tile : Nat)
  /-- IADD (R150): The vector IADD operation adds integers modulo 2^32. -/
  | iadd (tile : Nat)
  /-- ISUB (R150): The vector ISUB operation subtracts integers modulo 2^32. -/
  | isub (tile : Nat)
  /-- IAND (R150): The vector IAND operation forms the bitwise and. -/
  | iand (tile : Nat)
  /-- IOR (R150): The vector IOR operation forms the bitwise or. -/
  | ior (tile : Nat)
  /-- IXOR (R150): The vector IXOR operation forms the bitwise exclusive or. -/
  | ixor (tile : Nat)
  /-- ISHL (R150): The vector ISHL operation shifts left by IMM[4:0]. -/
  | ishl (tile : Nat)
  /-- ISHR (R150): The vector ISHR operation shifts right arithmetically by IMM[4:0]. -/
  | ishr (tile : Nat)
  /-- ILSR (R150): The vector ILSR operation shifts right logically by IMM[4:0]. -/
  | ilsr (tile : Nat)
  /-- CVT (R157): The vector CVT operation converts 64 elements per row between formats with an optional scale. -/
  | cvt (tile : Nat)
  /-- SR_SET (R121): The SR_SET operation sets the tile's SR context and requests its key from the cluster key unit. -/
  | srSet (tile : Nat)
  /-- SR_KEY_READY (R121): The cluster key unit finishes deriving a key and the waiting SR_SET completes. -/
  | srKeyReady (cluster : Nat)
  /-- STAT_READ (R158): The STAT_READ operation copies the statistics block into a register and clears it. -/
  | statRead (tile : Nat)
  /-- VEC_COMPLETE (R161): A vector operation completes when its last line or result is written. -/
  | vecComplete (tile : Nat) (hw : HwCheck)
  /-- PHASE_DONE (R73): A control-core store to PHASE_DONE signals the end of its phase; the last cluster's store completes the phase. -/
  | phaseDone (cluster : Nat)
  /-- CORE_TRAP (R73): A control core that traps stops and raises fault 0x0206. -/
  | coreTrap (cluster : Nat) (cause : Nat) (pc : Word64)
  /-- RESUME_STORE (R88): A control-core store to RESUME takes the tiles named by its bits out of HALTED. -/
  | resumeStore (cluster : Nat) (mask : Nat)
  /-- CORE_HALT (R91): TILE_CORE_CTRL HALT halts the selected cluster's control core at the next instruction boundary. -/
  | coreHalt (rq : Req) (pc : Word64)
  /-- CORE_RESUME (R91): TILE_CORE_CTRL RESUME continues a halted control core from TILE_CORE_PC. -/
  | coreResume (rq : Req)
  /-- SYNC_SIGNAL (R237): A signal reaching the sync unit is applied to its fence or Weir counter, or refused as a regression. -/
  | syncSignal (src : SignalSrc) (idx : Nat) (v : Word64)
  /-- WAIT_RELEASE (R235): A waiter sees a satisfying value and proceeds. -/
  | waitRelease (w : Waiter)
  /-- QUERN_INGEST (R193): When GRAD_SYNC reaches its target, the Quern copies a shard's Tin56 gradient into the inactive half as Tin24. -/
  | quernIngest (part : Nat) (die : Nat) (shard : Nat) (hw : HwCheck)
  /-- INGEST_COMPLETE (R193): When a shard is wholly ingested, the Quern signals FREE_SYNC. -/
  | ingestComplete (part : Nat) (die : Nat) (shard : Nat)
  /-- RULE_LATCH (R188): When GO_SYNC reaches the step's target, the Quern latches the rule sets and checks them. -/
  | ruleLatch (part : Nat) (die : Nat)
  /-- QUERN_SWEEP (R194): Once the rules are latched and every sweep shard ingested, the Quern sweeps the shards into the inactive halves. -/
  | quernSweep (part : Nat) (die : Nat) (hw : HwCheck)
  /-- SWEEP_COMPLETE (R194): The end of the sweep signals SWEPT_SYNC. -/
  | sweepComplete (part : Nat) (die : Nat)
  /-- FLIP_PASS (R196): After the sweep and the commit point, the Quern writes every sweep shard's commit word. -/
  | flipPass (part : Nat) (die : Nat)
  /-- FLIP_COMPLETE (R194): The end of the flip pass signals DONE_SYNC. -/
  | flipComplete (part : Nat) (die : Nat)
  /-- LAGGED_SWEEP (R199): When a group's shards are ingested and a slot is free, its lagged sweep starts writing that slot. -/
  | laggedSweep (part : Nat) (die : Nat) (group : Nat) (hw : HwCheck)
  /-- LAGGED_COMMIT (R199): The end of a lagged sweep flips the group's shards and sets its slot COMMITTED, releasing waiting lookups. -/
  | laggedCommit (part : Nat) (die : Nat) (group : Nat)
  /-- QRN_LOAD (R202): QRN_CMD LOAD checks a shard table and seeds its forward copies, digests and slots. -/
  | qrnLoad (rq : Req)
  /-- QRN_UNLOAD (R202): QRN_CMD UNLOAD removes the loaded shard table and ends its holds. -/
  | qrnUnload (rq : Req)
  /-- MEM_FREE (R218): A write to MEM_FREE frees an object of the selected context at once. -/
  | memFree (rq : Req) (handle : Nat)
  /-- U_FREE (R426): A write to U_FREE frees an object of the window's context at once. -/
  | uFree (rq : Req) (ctx : Nat) (handle : Nat)
  /-- FREE_COMPLETE (R218): Once transfers that passed their checks under a freed handle complete, its granules return to the heap. -/
  | freeComplete (ctx : Nat) (index : Nat)
  /-- LEAT_PASS_START (R222): When GO_SYNC satisfies GO_TARGET, a Leat descriptor's pass starts and its descriptor is read. -/
  | leatPassStart (cluster : Nat) (k : Nat)
  /-- LEAT_SEGMENT_ISSUE (R222): A Leat segment is checked and issued once its window slot or release signal allows. -/
  | leatSegmentIssue (cluster : Nat) (k : Nat)
  /-- LEAT_SEGMENT_DONE (R222): When a segment's bytes are visible, the Leat signals READY_SYNC and, for COPY, writes its output offset. -/
  | leatSegmentDone (cluster : Nat) (k : Nat)
  /-- LEAT_PASS_END (R222): After the last segment the Leat writes back the descriptor and seals the Pond destination if SEAL is set. -/
  | leatPassEnd (cluster : Nat) (k : Nat)
  /-- WEIR_LOAD (R239): WEIR_CMD LOAD checks and loads the partition's collective table. -/
  | weirLoad (rq : Req)
  /-- WEIR_UNLOAD (R239): WEIR_CMD UNLOAD turns every Weir counter back into a fence. -/
  | weirUnload (rq : Req)
  /-- PROMOTE (R272): WEIR_CMD PROMOTE makes the newest matching slot of a MIRROR object a SEALED Pond object. -/
  | promote (rq : Req)
  /-- READMIT (R269): WEIR_CMD READMIT on the fleet root adds a domain to the membership at the next commit release. -/
  | readmit (rq : Req)
  /-- COLLECTIVE_START (R241): A collective starts sending when its window is open and its IN_SYNC is satisfied. -/
  | collectiveStart (part : Nat) (coll : Nat)
  /-- COLL_CHUNK (R256): A received collective chunk is verified by its digest and added, stored or discarded. -/
  | collChunk (p : Pkt)
  /-- COLL_CREDIT (R282): A received COLL_CREDIT adds credits to the session. -/
  | collCredit (p : Pkt)
  /-- COLL_NACK (R282): A received COLL_NACK makes the sender resend the chunk once if it still holds it. -/
  | collNack (p : Pkt)
  /-- COLL_ACK (R282): A received COLL_ACK acknowledges a data chunk for BROADCAST or a MIRROR trailer. -/
  | collAck (p : Pkt)
  /-- CREDIT_RETURN (R282): Every 8 credits or 2 µs the receiver sends its returned credits in a COLL_CREDIT. -/
  | creditReturn (session : Nat)
  /-- WEIR_MESSAGE (R263): A received Weir message carries an arrival to the root or a release down the tree. -/
  | weirMessage (p : Pkt)
  /-- ROOT_WAIT_EXPIRY (R264): ROOT_WAIT beats after an epoch's first arrival without every member, the root releases it ABORT_STEP. -/
  | rootWaitExpiry (part : Nat) (idx : Nat)
  /-- WEIR_NODE_ECC (R266): An uncorrectable error in a Weir node counter makes the root release the epoch ABORT_ECC. -/
  | weirNodeEcc (part : Nat) (idx : Nat)
  /-- LEAF_RECOMPUTE_DONE (R398): When a member has recomputed a differing leaf, members exchange digests and repair or brake by the vote. -/
  | leafRecomputeDone (part : Nat) (vote : LeafVote)
  /-- RDMA_WRITE (R285): An RDMA WRITE request is checked and placed in memory in packet order. -/
  | rdmaWrite (r : RoceReq)
  /-- RDMA_READ (R285): An RDMA READ request is checked and answered from an HBM or SEALED Pond object. -/
  | rdmaRead (r : RoceReq)
  /-- ROCE_UNSUPPORTED (R284): A RoCEv2 request using an unsupported feature is answered with NAK Invalid Request. -/
  | roceUnsupported (qp : Nat) (psn : Nat)
  /-- ROCE_ACK (R283): A received ACK or NAK for the device's completion-record writes is handled as the specification requires. -/
  | roceAck (qp : Nat) (psn : Nat) (nak : Nat)
  /-- ROCE_CNP (R283): A received CNP halves the queue pair's rate. -/
  | roceCnp (qp : Nat)
  /-- ROCE_RATE_RECOVER (R283): Every 55 µs without a CNP the queue pair's rate recovers by 1/8 of line rate. -/
  | roceRateRecover (qp : Nat)
  /-- ROCE_RETRANSMIT (R283): A retransmission timeout resends or puts the queue pair in ERROR. -/
  | roceRetransmit (qp : Nat)
  /-- CMD_NOP (R296): The host NOP command completes. -/
  | cmdNop (ctx : Nat) (queue : Nat)
  /-- ALLOC (R296): The host ALLOC command allocates an object as TOLL_ALLOC does. -/
  | cmdAlloc (ctx : Nat) (queue : Nat)
  /-- FREE (R292): The host FREE command frees an object in queue order. -/
  | cmdFree (ctx : Nat) (queue : Nat)
  /-- COPY (R296): The host COPY command copies bytes between objects on the copy engine. -/
  | cmdCopy (ctx : Nat) (queue : Nat)
  /-- CMD_WAIT (R296): The host WAIT command holds its queue until its sync object is satisfied. -/
  | cmdWait (ctx : Nat) (queue : Nat)
  /-- CMD_WAIT_TIMEOUT (R296): LIMIT_US passing first ends the WAIT with status TIMEOUT. -/
  | cmdWaitTimeout (ctx : Nat) (queue : Nat)
  /-- CMD_SIGNAL (R296): The host SIGNAL command signals a sync object once earlier commands are complete. -/
  | cmdSignal (ctx : Nat) (queue : Nat)
  /-- UNSEAL (R355): The UNSEAL command verifies a sealed input chunk by chunk and writes its plaintext. -/
  | unsealObj (ctx : Nat) (queue : Nat)
  /-- COPY_ENGINE_COMPLETE (R297): A COPY or UNSEAL completes on the copy engine and its record is written. -/
  | copyEngineComplete
  /-- EVENT_RECORD_WRITE (R300): A waiting event record is written once the ring has room. -/
  | eventRecordWrite (ctx : Nat)
  /-- CREATE (R289): CTX_CMD CREATE checks a context descriptor and defines the context with its heaps and queue object. -/
  | create (rq : Req)
  /-- CTX_LOAD (R290): CTX_CMD LOAD makes a DEFINED context resident in a slot. -/
  | ctxLoad (rq : Req)
  /-- EVICT (R290): CTX_CMD EVICT takes a resident context out of its slot. -/
  | evict (rq : Req)
  /-- EVICT_COMPLETE (R290): Once its fetched commands complete and their records are written, an evicted context becomes DEFINED. -/
  | evictComplete (ctx : Nat)
  /-- END (R291): CTX_CMD END ends a context, frees its objects and releases its heaps. -/
  | ctxEnd (rq : Req)
  /-- DESTROY (R290): CTX_CMD DESTROY returns a context to UNDEFINED. -/
  | destroy (rq : Req)
  /-- CONNECT (R306): ETH_QP_CMD CONNECT takes a queue pair from RESET to RTS. -/
  | connect (rq : Req)
  /-- QP_RESET (R306): ETH_QP_CMD RESET returns a queue pair to RESET and frees it from the quota. -/
  | qpReset (rq : Req)
  /-- SLUICE_REFUSED (R302): A Sluice packet that fails acceptance is dropped and counted, raising fault 0x0708. -/
  | sluiceRefused (p : Pkt)
  /-- BRAKE (R303): A Sluice BRAKE brakes every partition that is ARMED, RUNNING or DRAINING. -/
  | brake (p : Pkt)
  /-- LEASE (R58): A Sluice LEASE renews the leases of the named partitions. -/
  | lease (p : Pkt)
  /-- HALT_PART (R59): A Sluice HALT_PART brakes the named partitions with fault 0x0108. -/
  | haltPart (p : Pkt)
  /-- ABORT_CTX (R303): A Sluice ABORT_CTX ends a context with fault 0x0706. -/
  | abortCtx (p : Pkt)
  /-- QUARANTINE_PORT (R303): A Sluice QUARANTINE_PORT quarantines or restores an Ethernet port. -/
  | quarantinePort (p : Pkt)
  /-- HELLO (R317): A received HELLO starts a session setup of the requested role, or is refused. -/
  | hello (p : Pkt)
  /-- ATTEST (R316): The device sends ATTEST with a fresh encapsulation key, the boot certificate and a session statement. -/
  | attest (setup : Nat)
  /-- FINISH (R317): A received FINISH is checked and, if it passes, creates the session keys. -/
  | finish (setup : Nat) (p : Pkt)
  /-- DONE (R318): The device sends DONE with its key confirmation. -/
  | done (setup : Nat)
  /-- SETUP_TIMEOUT (R316): A setup with no FINISH within 1 s of its ATTEST is discarded. -/
  | setupTimeout (setup : Nat)
  /-- WRAPPED_KEY (R332): A WRAPPED_KEY message is unwrapped into a key slot or a seed share. -/
  | wrappedKey (p : Pkt)
  /-- APPROVE (R336): An APPROVE message records a party's approval of the waiting release request. -/
  | approve (p : Pkt)
  /-- CLOSE (R319): A CLOSE ends the Ihlak session and destroys its keys. -/
  | close (p : Pkt)
  /-- BC_CHALLENGE_READ (R320): A board-controller read of BC_CHALLENGE0 draws a new challenge and closes any open access. -/
  | bcChallengeRead
  /-- BC_RESPONSE_WRITE (R320): A board-controller write of BC_RESPONSE3 checks the response and opens the privileged set. -/
  | bcResponseWrite (w : Word64)
  /-- BC_AUTH_IDLE (R320): 10 s without access closes the board controller's privileged register set. -/
  | bcAuthIdle
  /-- FATAL_CLEAR (R447): Writing 1 to BC_ALERT.FATAL clears it. -/
  | fatalClear (v : Word64)
  /-- WRITE (R325): SEC_KEY_CMD WRITE installs an operator key into the selected slot. -/
  | keyWrite (rq : Req)
  /-- ERASE (R325): SEC_KEY_CMD ERASE erases an operator-owned key slot. -/
  | keyErase (rq : Req)
  /-- LOAD_PUBKEY (R326): SEC_KEY_CMD LOAD_PUBKEY stores a public key and writes its KEY_ID into a VERIFY slot. -/
  | loadPubkey (rq : Req)
  /-- KEY_CHECK_SWEEP (R323): Every 1 s the security die verifies the check of every key slot. -/
  | keyCheckSweep (disturbed : List Nat)
  /-- LOAD_CHARTER (R329): SEC_CMD LOAD_CHARTER verifies a charter and makes its slot PENDING. -/
  | loadCharter (rq : Req)
  /-- UNLOAD_CHARTER (R330): SEC_CMD UNLOAD_CHARTER empties a charter slot and erases its keys and sessions. -/
  | unloadCharter (rq : Req)
  /-- REL_REQUEST (R336): SEC_CMD REL_REQUEST records a release request and shows its digest. -/
  | relRequest (rq : Req)
  /-- REL_RUN (R337): SEC_CMD REL_RUN checks approvals and starts the sealed release on the copy engine. -/
  | relRun (rq : Req)
  /-- RELEASE_COMPLETE (R338): When the last sealed chunk is written, the header is written and the request becomes DONE. -/
  | releaseComplete (slot : Nat)
  /-- REL_CANCEL (R339): SEC_CMD REL_CANCEL stops a release in progress with fault 0x0805. -/
  | relCancel (rq : Req)
  /-- ROLLOVER (R311): SEC_CMD ROLLOVER starts generating a new attestation key. -/
  | rollover (rq : Req)
  /-- ATT_KEY_READY (R311): When an attestation key is generated, a new boot certificate is signed with one identity index. -/
  | attKeyReady
  /-- MACSEC_FRAME (R357): A received frame without a valid SecTAG on a port with REQUIRE set is dropped and counted. -/
  | macsecFrame (port : Nat) (cause : MacsecDrop)
  /-- MKA_FRAME (R356): A received MKA frame drives key agreement on the port. -/
  | mkaFrame (port : Nat) (m : MkaMsg)
  /-- SAK_REKEY (R356): A packet number nearing 0xC000_0000_0000_0000 distributes a new SAK. -/
  | sakRekey (ch : SubId) (pn : Nat)
  /-- MACSEC_LOST (R357): A port carrying charter RoCEv2 loses its secure channel and raises fault 0x080D. -/
  | macsecLost (ch : SubId)
  /-- TAMPER (R360): A tamper event destroys keys, brakes every partition and zeroes the Granary. -/
  | tamper (pin : Bool)
  /-- PWR_GOOD_LOW (R440): PWR_GOOD low for 1 µs holds the device in reset. -/
  | pwrGoodLow
  /-- RESET_N_LOW (R363): RESET_N low for 10 µs resets the device. -/
  | resetNLow
  /-- BOOT_START (R364): The rise of RESET_N starts the boot ROM, which completes any pending transition and reads the flash. -/
  | bootStart
  /-- FIRMWARE_ACCEPTED (R367): When a container passes every check, the ROM releases the loaded targets and starts mill time. -/
  | firmwareAccepted (src : ImageSrc)
  /-- FIRMWARE_REJECTED (R366): A container that fails a check has its targets zeroed and recovery starts. -/
  | firmwareRejected (src : ImageSrc)
  /-- MEMORY_TRAINED (R364): HBM stacks and Pond channels finish training and initialization. -/
  | memoryTrained (pondGib : Nat)
  /-- BOOT_READY (R364): The first boot certificate is signed and LC_BOOT.READY is set. -/
  | bootReady
  /-- REQ (R371): The recovery REQ timer sends a REQ giving NEXT. -/
  | recoveryReq
  /-- DATA (R371): A recovery DATA packet is accepted in order or discarded; a complete container is checked. -/
  | recoveryData (server : Nat) (bytes : List Byte)
  /-- RECOVERY_SOURCE_TIMEOUT (R371): 1 s with nothing accepted returns NEXT to 0. -/
  | recoverySourceTimeout
  /-- TRANSITION (R376): LC_CMD TRANSITION checks the token, burns intent, erases, advances the counter and resets. -/
  | transition (rq : Req)
  /-- RAISE_SVN (R368): LC_CMD RAISE_SVN burns SVN fuses up to the given value. -/
  | raiseSvn (rq : Req)
  /-- REVOKE_KEY (R368): LC_CMD REVOKE_KEY burns the revoke fuse of a vendor key. -/
  | revokeKey (rq : Req)
  /-- GEN_IDENTITY (R375): LC_CMD GEN_IDENTITY starts generating the identity key. -/
  | genIdentity (rq : Req)
  /-- IDENTITY_GENERATED (R375): Identity key generation completes, its index words are set and its public key is written. -/
  | identityGenerated
  /-- LC_RESET (R381): LC_CMD RESET resets the device 1 µs after its response. -/
  | lcReset (rq : Req)
  /-- FUSE_DIGEST (R375): LC_CMD FUSE_DIGEST fuses a transition token digest. -/
  | fuseDigest (rq : Req)
  /-- ARBITRATION_START (R385): When the spare tile is free, a hallmark failure's snapshot is copied to it for arbitration. -/
  | arbitrationStart (die : Nat)
  /-- ARBITRATION_DECISION (R385): The spare tile's result decides whether the checker or the array was wrong. -/
  | arbitrationDecision (die : Nat) (xs : Int) (x3 : Int)
  /-- PATROL_READ (R391): The patrol reads and corrects a word, mapping its row to a spare on repeated correction. -/
  | patrolRead (w : MemWord) (found : WordCheck)
  /-- TEST_SLOT_COMPLETE (R395): A BIST slice ends and the tile is scrubbed and returned or quarantined. -/
  | testSlotComplete (tile : Nat) (r : BistResult)
  /-- RETEST (R397): TEST_CMD RETEST runs every logic slice and memory tests on an unbound tile. -/
  | retest (rq : Req)
  /-- RETEST_COMPLETE (R397): A RETEST ends, returning or keeping the tile quarantined. -/
  | retestComplete (r : BistResult)
  /-- WFI_ALL (R408): The fourth supervisor core reaching WFI enters the power state in PWR_MODE, or refuses it. -/
  | wfiAll (cancelled : Bool)
  /-- WAKE_EVENT (R409): A wake event returns the device from Idle, Sleep or Deep sleep to Run. -/
  | wakeEvent (w : WakeCause)
  /-- DOMAIN_GATE (R411): A domain idle for its threshold is gated. -/
  | domainGate (dom : Nat)
  /-- DOMAIN_WAKE (R411): A gated domain becomes ready after an access woke it and the access proceeds. -/
  | domainWake (dom : Nat)
  /-- WAKE_TIMEOUT (R411): A domain not ready in four wake latencies raises fault 0x0B07. -/
  | wakeTimeout (dom : Nat)
  /-- VOLTAGE_SETTLED (R416): AVSBus confirms a rail settled, completing a move down or switching the frequency up. -/
  | voltageSettled (die : Nat)
  /-- VR_MISMATCH (R416): A rail found below the voltage in force moves the die to a slower point with fault 0x0B03. -/
  | vrMismatch (die : Nat) (mv : Nat)
  /-- AVS_TIMEOUT (R416): An AVSBus transaction unacknowledged in 100 µs is retried, then raises fault 0x0B06. -/
  | avsTimeout (die : Nat)
  /-- THERMAL_SAMPLE (R418): Each 1 ms or 10 ms of temperature above or below the threshold moves the thermal index, braking or stopping at the critical levels. -/
  | thermalSample (die : Nat) (dieQ : Nat) (hbmQ : Nat)
  /-- POWER_CAP_WINDOW (R419): At each 100 ms window the mean power against the cap moves the power-cap index. -/
  | powerCapWindow (watts : Nat)
  /-- PMBUS_POLL (R421): Every 1 ms the device reads VR telemetry and attributes power to partitions. -/
  | pmbusPoll (m : PowerMeas)
  /-- REF_LOST (R420): Loss of a reference clock brakes every partition or takes the ports down. -/
  | refLost (core : Bool)
  /-- OPERATOR_QUEUE_SCAN (R287): Every 16 µs the queues of context 0 are scanned and their new commands fetched, whatever the timetables do. -/
  | operatorQueueScan
  /-- BRAKE_N_RISE (R61): BRAKE_N returning high lifts the bar on RELEASE and lets partitions reaching ARMED stay ARMED. -/
  | brakeNRise
  /-- PWR_GOOD_RISE (R363): PWR_GOOD rising ends the hold in reset and is a cause of reset that runs the boot sequence. -/
  | pwrGoodRise
  /-- REFERENCE_RESTORED (R447): A lost reference clock returns, clearing BC_ALERT.REF_LOST and letting the ports come up again. -/
  | referenceRestored (core : Bool)
  /-- PORT_LINK_CHANGE (R306): An Ethernet or management port link goes up or down, changing ETH_PORT_STATUS.LINK and LANES. -/
  | portLinkChange (port : Nat) (up : Bool) (lanes : Nat)
  /-- PFC_PAUSE_FRAME (R279): A received 802.1Qbb pause frame stops egress on the paused priorities of a port, never on priority 7. -/
  | pfcPauseFrame (port : Nat) (mask : Nat) (ns : List Nat)
  /-- PTP_ANNOUNCE (R40): A received Announce message feeds the best master clock algorithm, which chooses the slave port shown in SLAVE_PORT. -/
  | ptpAnnounce (port : Nat) (slave : Nat)
  /-- PTP_FOLLOW_UP (R40): A received Follow_Up supplies the precise origin timestamp of a two-step Sync, which the engine accepts. -/
  | ptpFollowUp (m : PtpMeas)
  /-- PTP_DELAY_REQ (R40): A Delay_Req received on a master port of a boundary clock is timestamped and answered with Delay_Resp. -/
  | ptpDelayReq (port : Nat)
  /-- PTP_MASTER_SYNC (R40): At each Sync interval a boundary clock sends two-step Sync, Follow_Up and Announce on its master ports. -/
  | ptpMasterSync (port : Nat)
  /-- QUANTIZED_COUNTER_LATCH (R340): At each 1 ms boundary of mill time the value of every quantized counter is latched for later reads. -/
  | quantizedLatch
  /-- ENTDAA (R445): The I3C ENTDAA procedure gives the device its dynamic address on the board-controller bus. -/
  | entdaa (addr : Nat)
  /-- ATTEST_RECEIVED (R315): A Hyndi acting as role 4 peer receives ATTEST and answers FINISH with its HMAC under z. -/
  | attestReceived (hello : List Byte) (p : Pkt)
  /-- DONE_RECEIVED (R318): A Hyndi acting as role 4 peer receives DONE, checks CONFIRM and takes the session into use. -/
  | doneReceived (p : Pkt)
  deriving DecidableEq, Repr

end Sys2Proof
end

