-- ==== Sys2Proof/Decode.lean ====
section
/-! DEFINITION. The decoder of operation-table words. The table gives its rows no bits: commands reach the block as register
accesses, packets, pin events and engine steps, never as words of a numbered encoding. -/
namespace Sys2Proof

/-- The command that `nbits` bits of value `w` spell by the operation table: none, since no row of the table has bits. -/
def decodeTableWord (_nbits _w : Nat) : Option Instr := none

end Sys2Proof
end

