-- ==== Sys2Proof/Config.lean ====
section
/-! DEFINITION. What the spec leaves to the implementation, to standards it only names, or to chance: constants with
no body, so that a statement about the model holds whatever they are. Each is named in the assumption log. -/
namespace Sys2Proof.Config
open Sys2Proof

/-- R455: the functions of Table 06.2, drain stage 3 codes 3 to 9 and the exp of stage 4 are fixed functions of their
input known only within bounds. `fnDeviation unit fn x` says how far, within the bound, the result for input bits `x`
lies from the reference value (`Machine/Functions.lean`). -/
opaque fnDeviation : (unit fn : Nat) → Word64 → Nat

/-- A value that the spec leaves open, the `n`-th one taken. -/
opaque freeValue : (n : Nat) → Word64

/-- The Ihlak session on which a partition's device reaches the member at (replica, position) of its collective table: the spec does
not say how the device finds it. -/
opaque memberSession : (part replica position : Nat) → Nat

/-- The `n`-th draw of the security die's TRNG: 32 bytes. -/
opaque trng : (n : Nat) → List Byte

/-- What an MRAM index word (0 for A, 1 for B) reads back after it has been written and, where that was wrong, written once more
(R308): whether a write takes is a fact of the silicon. -/
opaque mramWord : (n word : Nat) → (written : Word64) → Word64

/-- The encoded XMSS-SHAKE256 public key of the key pair of a tree height generated from a draw (RFC 8391; R307, R310). -/
opaque xmssPublic : (height draw : Nat) → List Byte

/-- The XMSS signature of a message with an index of such a key pair. -/
opaque xmssSign : (height draw index : Nat) → List Byte → List Byte

/-- Whether a signature verifies under a public key, by ALG code (Table 01.7: XMSS and ML-DSA-87). -/
opaque sigVerify : (alg : Nat) → (pk msg sig : List Byte) → Bool

/-- The ML-KEM-1024 encapsulation key of the key pair generated from a draw (FIPS 203). -/
opaque kemPublic : (draw : Nat) → List Byte

/-- The shared secret that decapsulation of a ciphertext gives under the key pair of a draw. -/
opaque kemDecap : (draw : Nat) → (ct : List Byte) → List Byte

/-- Encapsulation to a key with a draw: the ciphertext and the shared secret. -/
opaque kemEncap : (ek : List Byte) → (draw : Nat) → List Byte × List Byte

/-- The four vendor key digests fused at wafer test (R366). -/
opaque vendorKeyDigest : (k : Nat) → List Byte

/-- The token digest fixed in the boot ROM for the transitions out of BLANK (Table 14.6). -/
opaque romTokenDigest : List Byte

/-- The boot ROM's version (R312, R366). -/
opaque romVersion : Nat

/-- Bytes each firmware target holds (R366: each section fits its target). -/
opaque firmwareRoom : (target : Nat) → Nat

/-- Whether the FIREWALL (2) or ROUTE (3) section of a stream names only resources of a PART_MAP section: the spec gives its entries no
layout (R26). -/
opaque entriesOwn : (type : Nat) → (section_ map : List Byte) → Bool

/-- The bank of a memory of Table 15.7 that holds a row or line: the spec gives spares per bank and not the banks' layout. -/
opaque memBank : (memory addr : Nat) → Nat

/-- The fused management MAC address (Table 14.1). -/
opaque managementMac : Nat

/-- The 24-bit CODE over a line's ciphertext, tag and byte 7 of its side word (R345): no agent needs its check matrix. -/
opaque lineCode : (ct : List Byte) → (tag top : Nat) → BitVec 24

/-- Whether CODE detects an error of three or more symbols (R345 promises one corrected and two detected). -/
opaque codeDetects : (error : Nat) → Bool

/-- What TIN_CVT gives for a register cell that is no sign-extended mantissa, by the kind of block, its exponent byte and the cell: the
spec states no value for such a cell (R102). -/
opaque tinOpen : (tin16 : Bool) → (e : Nat) → Word32 → Word32

end Sys2Proof.Config
end

