-- ==== Sys2Proof/Machine/Maps.lean ====
section
/-! DEFINITION. Reading and writing the sparse maps: every memory, register array, slot table and counter array of
the device goes through these operations, which keep the one canonical form. -/
namespace Sys2Proof.Machine
open Sys2Proof

variable {α : Type}

/-- What key `n` holds; `d` is what an absent key reads as. -/
def NatMap.get (d : α) : NatMap α → Nat → α
  | [], _ => d
  | (k, v) :: t, n => if n = k then v else if n < k then d else NatMap.get d t n

/-- Write key `n`; writing the value an absent key reads as removes the entry. -/
def NatMap.set [DecidableEq α] (d : α) : NatMap α → Nat → α → NatMap α
  | [], n, v => if v = d then [] else [(n, v)]
  | (k, w) :: t, n, v =>
    if n < k then (if v = d then (k, w) :: t else (n, v) :: (k, w) :: t)
    else if n = k then (if v = d then t else (k, v) :: t)
    else (k, w) :: NatMap.set d t n v

/-- Change what key `n` holds. -/
def NatMap.modify [DecidableEq α] (d : α) (m : NatMap α) (n : Nat) (f : α → α) : NatMap α :=
  NatMap.set d m n (f (NatMap.get d m n))

/-- Write consecutive keys from `n` upward. -/
def NatMap.setList [DecidableEq α] (d : α) : NatMap α → Nat → List α → NatMap α
  | m, _, [] => m
  | m, n, v :: t => NatMap.setList d (NatMap.set d m n v) (n + 1) t

/-- Read `len` consecutive keys from `n` upward. -/
def NatMap.getList (d : α) (m : NatMap α) (n len : Nat) : List α :=
  (List.range len).map fun i => NatMap.get d m (n + i)

/-- Remove every key of the range `[lo, lo + len)`: each reads as an absent key afterwards. -/
def NatMap.clearRange (m : NatMap α) (lo len : Nat) : NatMap α :=
  m.filter fun p => decide (p.1 < lo) || decide (lo + len ≤ p.1)

/-- Keep only the keys that satisfy `keep`. -/
def NatMap.restrict (m : NatMap α) (keep : Nat → Bool) : NatMap α :=
  m.filter fun p => keep p.1

/-- Change every listed entry; an entry that becomes the absent value is removed. -/
def NatMap.mapVals [DecidableEq α] (d : α) (f : Nat → α → α) : NatMap α → NatMap α
  | [] => []
  | (k, v) :: t =>
    let w := f k v
    if w = d then NatMap.mapVals d f t else (k, w) :: NatMap.mapVals d f t

/-- The listed keys whose value satisfies `p`, in rising order. -/
def NatMap.keysWhere (m : NatMap α) (p : Nat → α → Bool) : List Nat :=
  (m.filter fun e => p e.1 e.2).map (·.1)

/-- The smallest key of `[lo, lo + len)` whose value satisfies `p`. -/
def NatMap.findFrom (d : α) (m : NatMap α) (p : α → Bool) : (lo len : Nat) → Option Nat
  | _, 0 => none
  | lo, len + 1 => if p (NatMap.get d m lo) then some lo else NatMap.findFrom d m p (lo + 1) len

/-- The canonical form: strictly rising keys, and no entry that an absent key would read as. -/
def NatMap.wf [DecidableEq α] (d : α) : NatMap α → Bool
  | [] => true
  | [(_, v)] => decide (v ≠ d)
  | (k, v) :: (k', v') :: t => decide (v ≠ d) && decide (k < k') && NatMap.wf d ((k', v') :: t)

/-- A list with no repeats, rising: the form in which sets of numbers are held. -/
def NatSet.insert (n : Nat) : List Nat → List Nat
  | [] => [n]
  | k :: t => if n < k then n :: k :: t else if n = k then k :: t else k :: NatSet.insert n t

end Sys2Proof.Machine
end

