-- ==== Sys2Proof/Machine/Bytes.lean ====
section
/-! DEFINITION. Byte order and bit fields, said once (R7: little-endian throughout). -/
namespace Sys2Proof.Machine
open Sys2Proof

/-- The `n` bytes of `v`, least significant first (R7). -/
def leBytes : (n : Nat) → (v : Nat) → List Byte
  | 0, _ => []
  | n + 1, v => BitVec.ofNat 8 v :: leBytes n (v / 256)

/-- The number a little-endian byte string holds (R7). -/
def ofLe : List Byte → Nat
  | [] => 0
  | b :: t => b.toNat + 256 * ofLe t

/-- The `len` bytes of `bs` at offset `off`; bytes past the end are absent. -/
def slice (bs : List Byte) (off len : Nat) : List Byte := (bs.drop off).take len

/-- The little-endian number in the `len` bytes of `bs` at offset `off`. -/
def field (bs : List Byte) (off len : Nat) : Nat := ofLe (slice bs off len)

/-- Bits `[lo + w - 1 : lo]` of a number. -/
def bits (v lo w : Nat) : Nat := v / 2 ^ lo % 2 ^ w

/-- Bit `i` of a number. -/
def bit (v i : Nat) : Bool := v / 2 ^ i % 2 == 1

/-- The numbers of the set bits of `v` below `n`, in rising order. -/
def bitsOf (n v : Nat) : List Nat := (List.range n).filter (bit v)

/-- A number with the bits listed set. -/
def maskOf (l : List Nat) : Nat := l.foldl (fun a i => a ||| 2 ^ i) 0

/-- Bit fields laid side by side: (position, width, value). -/
def pack (l : List (Nat × Nat × Nat)) : Nat := l.foldl (fun a f => a ||| (f.2.2 % 2 ^ f.2.1) * 2 ^ f.1) 0

/-- A flag as a number. -/
def flag (b : Bool) : Nat := if b then 1 else 0

/-- The signed number an `n`-bit two's complement field holds. -/
def signed (n v : Nat) : Int := if v % 2 ^ n < 2 ^ (n - 1) then (v % 2 ^ n : Nat) else (v % 2 ^ n : Nat) - (2 ^ n : Nat)

/-- The `n`-bit two's complement field of a signed number. -/
def unsigned (n : Nat) (v : Int) : Nat := (v % (2 ^ n : Nat)).toNat

/-- Pad with zero bytes, or cut, to exactly `n` bytes. -/
def padTo (n : Nat) (bs : List Byte) : List Byte := (bs ++ List.replicate n 0).take n

/-- The ASCII bytes of a string. -/
def ascii (s : String) : List Byte := s.toList.map fun c => BitVec.ofNat 8 c.toNat

/-- All the bytes are zero. -/
def allZero (bs : List Byte) : Bool := bs.all (· == 0)

end Sys2Proof.Machine
end

