-- ==== Sys2Proof/Machine/Aes.lean ====
section
/-! DEFINITION. AES-256 and AES-256-GCM (FIPS 197, NIST SP 800-38D), which protect Ihlak, wrapped keys and sealed data. -/
namespace Sys2Proof.Machine
open Sys2Proof

/-- Doubling in GF(2⁸) with the AES polynomial, on numbers below 256. -/
def gfDouble (a : Nat) : Nat := if a < 128 then 2 * a else (2 * a - 256) ^^^ 0x1B

/-- Doubling of a byte. -/
def xtime (a : Byte) : Byte := BitVec.ofNat 8 (gfDouble a.toNat)

/-- The product in GF(2⁸). -/
def gfMul (a b : Nat) : Nat :=
  ((List.range 8).foldl (fun p i => (if b / 2 ^ i % 2 = 1 then p.1 ^^^ p.2 else p.1, gfDouble p.2)) (0, a)).1

/-- The inverse in GF(2⁸), a²⁵⁴; 0 for 0. -/
def gfInv (a : Nat) : Nat :=
  let sq := fun x => gfMul x x
  let a2 := sq a; let a4 := sq a2; let a8 := sq a4; let a16 := sq a8; let a32 := sq a16; let a64 := sq a32; let a128 := sq a64
  gfMul a2 (gfMul a4 (gfMul a8 (gfMul a16 (gfMul a32 (gfMul a64 a128)))))

/-- The AES S-box: the inverse plus its four rotations to the left, and 0x63. -/
def aesSbox (a : Byte) : Byte :=
  let b := gfInv a.toNat
  let x := b ^^^ 2 * b ^^^ 4 * b ^^^ 8 * b ^^^ 16 * b
  BitVec.ofNat 8 (x ^^^ x / 256 ^^^ 0x63)

/-- XOR of two byte strings. -/
def xorBytes (a b : List Byte) : List Byte := List.zipWith (· ^^^ ·) a b

/-- The AES-256 key schedule: sixty 4-byte words, each made from the one before and the one eight before. -/
def aesKeyWords : (n i : Nat) → (rcon : Byte) → (rev : List (List Byte)) → List (List Byte)
  | 0, _, _, rev => rev.reverse
  | n + 1, i, rcon, rev =>
    let prev := rev.getD 0 []
    let t := if i % 8 = 0 then
        match (prev.drop 1 ++ prev.take 1).map aesSbox with
        | [] => []
        | h :: r => (h ^^^ rcon) :: r
      else if i % 8 = 4 then prev.map aesSbox else prev
    aesKeyWords n (i + 1) (if i % 8 = 0 then xtime rcon else rcon) (xorBytes (rev.getD 7 []) t :: rev)

/-- The fifteen round keys of 16 bytes. -/
def aesRoundKeys (key : List Byte) : List (List Byte) :=
  let k := padTo 32 key
  let w := aesKeyWords 52 8 1 (((List.range 8).map fun i => slice k (4 * i) 4).reverse)
  (List.range 15).map fun r => ((List.range 4).map fun j => w.getD (4 * r + j) []).flatten

/-- ShiftRows over the column-major state. -/
def aesShiftRows (s : List Byte) : List Byte := (List.range 16).map fun i => s.getD ((i + 4 * (i % 4)) % 16) 0

/-- MixColumns. -/
def aesMixColumns (s : List Byte) : List Byte :=
  (List.range 16).map fun i =>
    let at' := fun k => s.getD (i / 4 * 4 + (i + k) % 4) 0
    xtime (at' 0) ^^^ (xtime (at' 1) ^^^ at' 1) ^^^ at' 2 ^^^ at' 3

/-- One AES-256 block encryption under expanded round keys. -/
def aesBlock (rk : List (List Byte)) (pt : List Byte) : List Byte :=
  let s := xorBytes (padTo 16 pt) (rk.getD 0 [])
  let s := (List.range 13).foldl (fun s r => xorBytes (aesMixColumns (aesShiftRows (s.map aesSbox))) (rk.getD (r + 1) [])) s
  xorBytes (aesShiftRows (s.map aesSbox)) (rk.getD 14 [])

/-- A 16-byte block as the big-endian number GCM takes it for. -/
def beNat (bs : List Byte) : Nat := bs.foldl (fun a b => 256 * a + b.toNat) 0
/-- The `n` bytes of a number, most significant first. -/
def beBytes (n v : Nat) : List Byte := (leBytes n v).reverse

/-- The GCM product in GF(2¹²⁸), bit 0 leftmost. -/
def gcmMul (x y : Nat) : Nat :=
  ((List.range 128).foldl (fun (p : Nat × Nat) i =>
    (if bit x (127 - i) then p.1 ^^^ p.2 else p.1,
     p.2 / 2 ^^^ (if p.2 % 2 = 1 then 0xE1 * 2 ^ 120 else 0))) (0, y)).1

/-- The 16-byte blocks of a string, the last padded with zeros; `n` bounds their number. -/
def blocks16 : (n : Nat) → List Byte → List (List Byte)
  | 0, _ => []
  | n + 1, bs => if bs.isEmpty then [] else padTo 16 (bs.take 16) :: blocks16 n (bs.drop 16)

/-- GHASH. -/
def ghash (h : Nat) (bs : List (List Byte)) : Nat := bs.foldl (fun g b => gcmMul (g ^^^ beNat b) h) 0

/-- CTR mode from counter block `iv ‖ ctr`. -/
def gcmCtr (rk : List (List Byte)) (iv : List Byte) (ctr : Nat) (m : List Byte) : List Byte :=
  xorBytes m (((List.range ((m.length + 15) / 16)).map fun i => aesBlock rk (iv ++ beBytes 4 (ctr + i))).flatten)

/-- The 16-byte tag of AES-256-GCM. -/
def gcmTag (rk : List (List Byte)) (iv aad ct : List Byte) : List Byte :=
  let h := beNat (aesBlock rk [])
  let g := ghash h (blocks16 (aad.length + 1) aad ++ blocks16 (ct.length + 1) ct
    ++ [beBytes 8 (8 * aad.length) ++ beBytes 8 (8 * ct.length)])
  xorBytes (aesBlock rk (iv ++ beBytes 4 1)) (beBytes 16 g)

/-- AES-256-GCM sealing: the ciphertext and the tag. -/
def gcmSeal (key iv aad pt : List Byte) : List Byte × List Byte :=
  let rk := aesRoundKeys key
  let ct := gcmCtr rk iv 2 pt
  (ct, gcmTag rk iv aad ct)

/-- AES-256-GCM opening: the plaintext where the tag verifies. -/
def gcmOpen (key iv aad ct tag : List Byte) : Option (List Byte) :=
  let rk := aesRoundKeys key
  if gcmTag rk iv aad ct = tag then some (gcmCtr rk iv 2 ct) else none

end Sys2Proof.Machine
end

