-- ==== Sys2Proof/Machine/Packets.lean ====
section
/-! DEFINITION. Ihlak packets on the wire (R275 to R280): header, payload, seal and priority. -/
namespace Sys2Proof.Machine
open Sys2Proof

/-- The 24 header bytes (Table 11.1), in network byte order (R7). -/
def PktHead.bytes (h : PktHead) : List Byte :=
  beBytes 1 h.version ++ beBytes 1 h.type ++ beBytes 1 h.flags ++ beBytes 1 h.part ++ beBytes 4 h.session ++ beBytes 4 h.sender
  ++ beBytes 2 h.length ++ beBytes 2 h.reserved ++ beBytes 8 h.seq

/-- The header that 24 bytes spell. -/
def pktHeadOf (b : List Byte) : PktHead :=
  let f := fun o n => beNat (slice b o n)
  { version := f 0 1, type := f 1 1, flags := f 2 1, part := f 3 1, session := f 4 4, sender := f 8 4, length := f 0xC 2
    reserved := f 0xE 2, seq := f 0x10 8 }

/-- The 64 bytes of a Weir message. -/
def WeirMsg.bytes (m : WeirMsg) : List Byte :=
  padTo 64 (leBytes 1 m.kind ++ leBytes 1 m.flags ++ leBytes 2 m.index ++ leBytes 4 m.epoch ++ leBytes 1 m.replica ++ leBytes 1 m.position
    ++ leBytes 1 m.blame ++ leBytes 1 (flag m.quorum) ++ leBytes 4 0 ++ leBytes 8 m.members)

/-- The Weir message that 64 bytes spell. -/
def weirMsgOf (b : List Byte) : WeirMsg :=
  { kind := field b 0 1, flags := field b 1 1, index := field b 2 2, epoch := field b 4 4, replica := field b 8 1
    position := field b 9 1, blame := field b 10 1, quorum := field b 11 1 == 1, members := field b 16 8 }

/-- TYPE of a packet (Table 11.2). -/
def IhlakMsg.type : IhlakMsg → Nat
  | .regResp .. => 0x03
  | .chunk _ => 0x20
  | .credit _ => 0x21
  | .collNack _ => 0x22
  | .collAck _ => 0x23
  | .weir _ => 0x28
  | .setup .. => 0x30
  | .event _ => 0x40

/-- FLAGS: RESP on the packet that answers a request. DEDUCED: the request of Table 11.1 is REG_RD or REG_WR. -/
def IhlakMsg.flags (m : IhlakMsg) : Nat := match m with | .regResp .. => 1 | _ => 0

/-- Collective traffic: what a partition's queue set sends for its collectives. -/
def IhlakMsg.collective (m : IhlakMsg) : Bool :=
  match m with | .chunk _ | .credit _ | .collNack _ | .collAck _ => true | _ => false

/-- The payload (R280, R282, R314, R404). -/
def IhlakMsg.payload : IhlakMsg → List Byte
  | .regResp tag status failIndex count mill data =>
    beBytes 4 tag ++ beBytes 1 status ++ beBytes 1 failIndex ++ beBytes 1 count ++ [0] ++ beBytes 8 mill
    ++ (data.map fun w => beBytes 8 w.toNat).flatten
  | .setup sub code body => leBytes 1 sub ++ leBytes 1 code ++ leBytes 2 0 ++ body
  | .event b | .chunk b | .collNack b | .collAck b => b
  | .credit n => leBytes 4 n
  | .weir m => m.bytes

/-- The priority of a packet of a TYPE (Table 11.3). -/
def typePrio (type : Nat) : Nat := if type = 0x10 then 7 else if type = 0x20 then 6 else 5

/-- The header of a packet. -/
def IhlakMsg.head (m : IhlakMsg) (part session sender seq : Nat) : PktHead :=
  { version := 1, type := m.type, flags := m.flags, part := part, session := session, sender := sender, length := m.payload.length
    seq := seq }

/-- The nonce: SENDER followed by SEQ (R277). -/
def PktHead.nonce (h : PktHead) : List Byte := beBytes 4 h.sender ++ beBytes 8 h.seq

/-- The datagram of a packet: the header, the payload sealed under `key` with the header as additional data, and the tag (R275, R277). -/
def sealPacket (key : List Byte) (h : PktHead) (payload : List Byte) : List Byte :=
  let c := gcmSeal key h.nonce h.bytes payload
  h.bytes ++ c.1 ++ c.2

/-- The datagram of an unsealed SETUP packet; its tag field is zero. -/
def plainPacket (h : PktHead) (payload : List Byte) : List Byte := h.bytes ++ payload ++ List.replicate 16 0

/-- A datagram as the receiver of a port takes it under a key: the header, the payload in plaintext where the tag verifies, and the verdict. -/
def openPacket (key : List Byte) (port prio : Nat) (d : List Byte) : Pkt :=
  let h := pktHeadOf d
  let n := d.length - 40
  let r := gcmOpen key h.nonce (d.take 24) (slice d 24 n) (slice d (24 + n) 16)
  { port := port, version := h.version, type := h.type, flags := h.flags, part := h.part, session := h.session, sender := h.sender
    length := h.length, reserved := h.reserved, seq := h.seq, payload := r.getD (slice d 24 n), tagOk := r.isSome, prio := prio }

/-- The priority a message leaves on, where it is an Ethernet frame of Table 11.3. -/
def OutMsg.prio : OutMsg → Option Nat
  | .ihlak h _ _ => some (typePrio h.type)
  | .recordWrite .. | .roceAck .. | .roceData .. | .cnp _ => some 3
  | .ptp .. => some 1
  | _ => none

end Sys2Proof.Machine
end

