-- ==== Sys2Proof/Machine/Shake.lean ====
section
/-! DEFINITION. SHAKE256 (FIPS 202), which the spec names as its hash and its key derivation, and HMAC-SHAKE256 (R315). -/
namespace Sys2Proof.Machine
open Sys2Proof

/-- The rotation of lane x + 5 y in ρ. -/
def keccakRho : List Nat :=
  [0, 1, 62, 28, 27, 36, 44, 6, 55, 20, 3, 10, 43, 25, 39, 41, 45, 15, 21, 8, 18, 2, 61, 56, 14]

/-- The round constants of ι. -/
def keccakRc : List Word64 :=
  [0x0000000000000001, 0x0000000000008082, 0x800000000000808A, 0x8000000080008000, 0x000000000000808B, 0x0000000080000001,
   0x8000000080008081, 0x8000000000008009, 0x000000000000008A, 0x0000000000000088, 0x0000000080008009, 0x000000008000000A]
  ++ [0x000000008000808B, 0x800000000000008B, 0x8000000000008089, 0x8000000000008003, 0x8000000000008002,
   0x8000000000000080, 0x000000000000800A, 0x800000008000000A, 0x8000000080008081, 0x8000000000008080,
   0x0000000080000001, 0x8000000080008008]

/-- Lane x + 5 y of a state. -/
def lane (a : List Word64) (i : Nat) : Word64 := a.getD i 0

/-- One round of Keccak-f[1600]. -/
def keccakRound (a : List Word64) (rc : Word64) : List Word64 :=
  let c := (List.range 5).map fun x => lane a x ^^^ lane a (x + 5) ^^^ lane a (x + 10) ^^^ lane a (x + 15) ^^^ lane a (x + 20)
  let d := (List.range 5).map fun x => lane c ((x + 4) % 5) ^^^ (lane c ((x + 1) % 5)).rotateLeft 1
  let t := (List.range 25).map fun i => (lane a i ^^^ lane d (i % 5)).rotateLeft (keccakRho.getD i 0)
  -- π: B[y, 2x + 3y] takes A[x, y], so lane (u, v) comes from x = (u + 3 v) mod 5, y = u
  let b := (List.range 25).map fun i => lane t ((i % 5 + 3 * (i / 5)) % 5 + 5 * (i % 5))
  let e := (List.range 25).map fun i =>
    lane b i ^^^ (~~~ lane b ((i % 5 + 1) % 5 + 5 * (i / 5)) &&& lane b ((i % 5 + 2) % 5 + 5 * (i / 5)))
  match e with
  | [] => []
  | h :: r => (h ^^^ rc) :: r

/-- Keccak-f[1600]. -/
def keccakF (a : List Word64) : List Word64 := keccakRc.foldl keccakRound a

/-- XOR a block of at most 136 bytes into the state. -/
def absorbBlock (a : List Word64) (bs : List Byte) : List Word64 :=
  (List.range 25).map fun i => lane a i ^^^ BitVec.ofNat 64 (field bs (8 * i) 8)

/-- Absorb a message, `n` blocks of 136 bytes at most, the last padded with the SHAKE suffix. -/
def absorb : (n : Nat) → List Word64 → List Byte → List Word64
  | 0, a, _ => a
  | n + 1, a, bs =>
    if bs.length < 136 then
      let p := padTo 136 (bs ++ [0x1F])
      keccakF (absorbBlock a (p.take 135 ++ [p.getD 135 0 ||| 0x80]))
    else absorb n (keccakF (absorbBlock a (bs.take 136))) (bs.drop 136)

/-- Squeeze `n` blocks of 136 bytes. -/
def squeeze : (n : Nat) → List Word64 → List Byte
  | 0, _ => []
  | n + 1, a => ((a.take 17).map fun w => leBytes 8 w.toNat).flatten ++ squeeze n (keccakF a)

/-- SHAKE256 with `n` bytes of output. -/
def shake (n : Nat) (m : List Byte) : List Byte :=
  (squeeze ((n + 135) / 136) (absorb (m.length / 136 + 1) (List.replicate 25 0) m)).take n

/-- SHAKE256 with a 256-bit output: the digest of the spec. -/
def shake32 (m : List Byte) : List Byte := shake 32 m

/-- HMAC-SHAKE256: RFC 2104 with SHAKE256 at 256 bits and a block length of 136 bytes (R315). -/
def hmacShake (key m : List Byte) : List Byte :=
  let k := padTo 136 (if 136 < key.length then shake32 key else key)
  shake32 (k.map (· ^^^ 0x5C) ++ shake32 (k.map (· ^^^ 0x36) ++ m))

end Sys2Proof.Machine
end

