-- ==== Sys2Proof/Types/Mem.lean ====
section
/-! DEFINITION. HBM, Pond and Leat state: chapter 09, with the line protection of chapter 13. -/
namespace Sys2Proof.Machine
open Sys2Proof

/-- What protects a 64-byte line (R345, R347, R351). The model keeps a line's plaintext and what its ciphertext and side word were
made with: the keys, the line address and the epoch. The tag passes exactly under these; `State.lineImage` gives the stored bits. -/
structure LineMeta where
  /-- the line has been written since power-on -/
  written : Bool := false
  kid : Nat := 0
  /-- the generation of the identifier's key: a destroyed key's lines never pass again (R350) -/
  keyGen : Nat := 0
  /-- the Pond key epoch (R348); 0 in HBM -/
  epoch : Nat := 0
  /-- the line address it was written at (R347) -/
  la : Nat := 0
  poisoned : Bool := false
  /-- which of the 576 stored bits (ciphertext, then side word) have flipped since they were written -/
  error : Nat := 0
  deriving DecidableEq, Repr

/-- HBM or Pond: its bytes and its lines' protection. -/
structure Dram where
  bytes : NatMap Byte := []
  lines : NatMap LineMeta := []
  deriving DecidableEq, Repr

/-- The run of a Leat descriptor (R222, R225, Table 09.10). -/
structure LeatRun where
  running : Bool := false
  faulted : Bool := false
  fault : Nat := 0
  /-- the descriptor as read at the pass start -/
  desc : List Byte := []
  /-- segments of the pass issued -/
  issued : Nat := 0
  /-- segments of the pass done -/
  done : Nat := 0
  /-- COPY: output bytes written so far -/
  outLen : Nat := 0
  /-- output offset of the segment in flight (COPY) -/
  segOff : Nat := 0
  /-- MEM_LEAT_NEXT: global number of the next segment to issue -/
  nextSeg : Nat := 0
  /-- the shard version tag taken at the pass start (TAG_AUTO) -/
  tag : Nat := 0
  /-- for each segment in flight, the objects it has passed its checks on: (context, handle) -/
  holds : List (List (Nat × Nat)) := []
  /-- the pass stops once its transfers in flight have completed (R225) -/
  stopping : Bool := false
  deriving DecidableEq, Repr

end Sys2Proof.Machine
end

