-- ==== Sys2Proof/Types/Part.lean ====
section
/-! DEFINITION. Partitions, Wright streams and the Governor: the state of chapters 01, 02, 04 (FORMAT), 05 (ACC_ALLOC,
REDUCE_ORDER) and 07 (PAIRING). -/
namespace Sys2Proof.Machine
open Sys2Proof

/-- The states of a partition (Table 01.5). -/
inductive PartState where
  | free | draining | scrubbing | retiring | loading | armed | running | braked
  deriving DecidableEq, Repr

/-- One section of a Wright stream (R25, R26). -/
structure Section where
  type : Nat
  part : Nat
  data : List Byte
  deriving DecidableEq, Repr

/-- A verified Wright stream in the staging range (R27, R28). -/
structure Stream where
  /-- TARGET: 0 to 15, or 0xFF for a full stream -/
  target : Nat
  build : Nat := 0
  /-- BODY_DIGEST: the digest of the stream (R24) -/
  digest : List Byte := []
  sections : List Section := []
  deriving DecidableEq, Repr

/-- The PART_MAP section (R26). -/
structure PartMap where
  clusters : Nat := 0
  hbmSets : Nat := 0
  granary : Nat := 0
  ports : Nat := 0
  keyCount : Nat := 0
  qpQuota : Nat := 0
  syncQuota : Nat := 0
  /-- Pond extents (BASE, COUNT) in 256 MiB units -/
  pond : List (Nat × Nat) := []
  deriving DecidableEq, Repr

/-- A timetable entry (Table 02.4). -/
structure TtEntry where
  offset : Nat
  kind : Nat
  deadline : Nat
  policy : Nat
  arg : Nat
  deriving DecidableEq, Repr

/-- The TIMETABLE section (Table 02.3). -/
structure Timetable where
  period : Nat := 0
  grid : Nat := 0
  absStart : Nat := 0
  leaseMs : Nat := 0
  abortLimit : Nat := 0
  entries : List TtEntry := []
  deriving DecidableEq, Repr

/-- How far an entry has come in its revolution. -/
inductive EntryStatus where
  /-- not started in the present revolution -/
  | idle
  /-- a PHASE_START held by R51 -/
  | held
  | running
  | complete
  /-- ended or skipped by an abandoned step (R54), or by a brake -/
  | ended
  deriving DecidableEq, Repr

/-- The run of one timetable entry. -/
structure EntryRun where
  status : EntryStatus := .idle
  /-- scheduled start in mill time, from which the deadline counts -/
  start : Nat := 0
  /-- the deadline has been missed and recorded -/
  missed : Bool := false
  /-- shares granted to a COLLECTIVE_WINDOW, by port (R52) -/
  grants : NatMap Nat := []
  /-- a COLLECTIVE_WINDOW that is open -/
  windowOpen : Bool := false
  deriving DecidableEq, Repr

/-- GOV_LAST_MISS (Table 02.14). -/
structure LastMiss where
  late : Nat := 0
  implicit : Bool := false
  demoted : Bool := false
  policy : Nat := 0
  kind : Nat := 0
  entry : Nat := 0
  deriving DecidableEq, Repr

/-- What the Governor keeps for one partition (chapter 02). -/
structure Gov where
  tt : Timetable := {}
  /-- the lattice origin T₀ (R43) -/
  t0 : Nat := 0
  /-- index n of the next revolution to start -/
  nextRev : Nat := 0
  /-- revolutions started since the partition entered RUNNING -/
  revCount : Nat := 0
  step : Word64 := 0
  /-- mill time at which the lease ends (R58) -/
  leaseExpiry : Nat := 0
  lapsed : Bool := false
  cmdStatus : Nat := 0
  aborted : Bool := false
  byDeadline : Bool := false
  byHalt : Bool := false
  byPin : Bool := false
  byLease : Bool := false
  missCount : Nat := 0
  lastMiss : LastMiss := {}
  /-- the run GOV_LAST_MISS tells of, while LATE_BEATS may still be set, and the instant of its deadline -/
  missRef : Option (Nat × Nat) := none
  /-- the misses of the latest beat that had one: the beat, their runs, and GOV_LAST_MISS before them; a brake on that beat takes them
  back (R56) -/
  missBeat : Nat := 0
  beatMisses : List Nat := []
  missBefore : LastMiss := {}
  /-- the run of entry i in revolution n at key 4096 n + i -/
  runs : NatMap EntryRun := []
  /-- the step latched at the last PHASE_START (R121) -/
  phaseStep : Nat := 0
  /-- consecutive abandoned revolutions (R56) -/
  abortStreak : Nat := 0
  /-- past the commit point of the U phase that is open or was last open in this revolution (R55) -/
  committed : Bool := false
  /-- a brake is in progress: entries and TOP issue have stopped (R57) -/
  braking : Bool := false
  /-- mill time at which the last brake began -/
  brakeAt : Nat := 0
  /-- a BRAKE miss after the commit point: brake when the commit completes (R55) -/
  brakeAfterCommit : Bool := false
  /-- after a release the next revolution start is awaited (R61) -/
  released : Bool := false
  /-- phases started in the present revolution, as bits F, B, U -/
  phasesStarted : Nat := 0
  deriving DecidableEq, Repr

/-- The part of PART_LOAD_STATUS and the rebinding in progress (R31, R37). -/
structure Rebind where
  inProgress : Bool := false
  /-- the command is a REBIND: after RETIRING comes LOADING -/
  toLoad : Bool := false
  /-- brakes that arrived during the rebinding (R37): bit 0 lease, 1 BRAKE_N, 2 HALT_PART -/
  causes : Nat := 0
  /-- mill time of the command -/
  start : Nat := 0
  /-- mill time at which DRAINING began -/
  drainStart : Nat := 0
  /-- the drain was cut short: work in flight is abandoned (R34) -/
  braked : Bool := false
  /-- the drain limit in µs, as the command found it (Table 01.18) -/
  limit : Nat := 2000
  /-- REBIND_NS counts until the first revolution starts (R36) -/
  timing : Bool := false
  deriving DecidableEq, Repr

/-- One partition. -/
structure Part where
  state : PartState := .free
  /-- the staged partial stream (R28) -/
  staged : Option Stream := none
  /-- the bound stream -/
  stream : Option Stream := none
  map : PartMap := {}
  /-- the key identifiers the partition holds (R19) -/
  keyIds : List Nat := []
  /-- the digest of the charter of CHARTER_BIND; empty for an operator partition -/
  charter : List Byte := []
  status : Nat := 0
  /-- PART_LOAD_STATUS.SECTION -/
  secNo : Nat := 0xFFFF
  brakedDrain : Bool := false
  drainLimit : Nat := 2000
  rebindNs : Nat := 0
  rebind : Rebind := {}
  gov : Gov := {}
  /-- Millrace firewall entries in force (R18); raw entries of the FIREWALL and ROUTE sections -/
  firewall : List Byte := []
  route : List Byte := []
  firewallOn : Bool := false
  firewallDrops : Nat := 0
  /-- group tags (R132): tile t, array a, group g at key 16 t + 8 a + g -/
  tags : NatMap Nat := []
  site0 : Nat := 0
  site1 : Nat := 0
  site2 : Nat := 0
  /-- the FORMAT section (R124): header and entries as bytes, and the seed rounding keys derive from -/
  format : List Byte := []
  seed : List Byte := []
  /-- the PAIRING section (R165) -/
  pairing : List Byte := []
  /-- the micro-batch quota (R49) -/
  mbQuota : Nat := 0
  /-- totals since the last binding behind the U-view (R427) -/
  topTotal : Nat := 0
  topTotalLatch : Nat := 0
  deriving DecidableEq, Repr

end Sys2Proof.Machine
end

