-- ==== Sys2Proof/Types/Counter.lean ====
section
/-! DEFINITION. A clearing counter with its quantized and total views (R340, R427). -/
namespace Sys2Proof.Machine

/-- An RC counter of a partition. -/
structure Counter where
  /-- events since the last clearing read -/
  live : Nat := 0
  /-- `live` at the latest 1 ms boundary of mill time, less what reads have taken since (R340) -/
  latch : Nat := 0
  /-- events since the partition's last binding: the U-view total (R427) -/
  total : Nat := 0
  /-- `total` at the latest 1 ms boundary -/
  totalLatch : Nat := 0
  deriving DecidableEq, Repr

end Sys2Proof.Machine
end

