-- ==== Sys2Proof/Types/Quern.lean ====
section
/-! DEFINITION. The Quern of one die as one partition sees it: the state of chapter 08. -/
namespace Sys2Proof.Machine
open Sys2Proof

/-- A shard descriptor (Table 08.2). -/
structure Shard where
  tensor : Nat
  ruleset : Nat
  lagged : Bool
  group : Nat
  rowLen : Nat
  first : Nat
  count : Nat
  obj : Nat
  gradSync : Nat
  freeSync : Nat
  offA : Nat
  offB : Nat
  offF : Nat
  gradOff : Nat
  /-- W_FMT and RND_Q of the FORMAT entry whose TENSOR_W is TENSOR (R185) -/
  wFmt : Nat
  rndQ : Nat
  deriving DecidableEq, Repr

/-- A rule set (Table 08.5). -/
structure RuleSet where
  rule : Nat := 0
  fwdShift : Int := 0
  lr : Word32 := 0
  wd : Word32 := 0
  b1 : Word32 := 0
  b2 : Word32 := 0
  eps : Word32 := 0
  gscale : Word32 := 0
  trust : Word32 := 0
  reservedZero : Bool := true
  deriving DecidableEq, Repr

/-- The state of a version slot (R199). -/
inductive SlotState where
  | free | writing | committed
  deriving DecidableEq, Repr

/-- A version slot of a lagged group. -/
structure VersionSlot where
  version : Nat := 0
  refs : Nat := 0
  state : SlotState := .free
  /-- the Pond epoch its copies were written under (R348) -/
  epoch : Nat := 0
  deriving DecidableEq, Repr

/-- A lagged group (R199). -/
structure LagGroup where
  d : Nat := 0
  nslot : Nat := 0
  slots : NatMap VersionSlot := []
  newest : Nat := 0
  /-- references waiting for a version that is not yet committed: (version, count) -/
  pendingRefs : List (Nat × Nat) := []
  /-- the references the present step has taken, as (version, count), to be dropped when its B phase completes (R199) -/
  taken : List (Nat × Nat) := []
  /-- those of an abandoned step, to be dropped once its TOPs in flight have completed -/
  dropping : List (Nat × Nat) := []
  /-- the lagged sweep that is running: (step, slot) -/
  sweeping : Option (Nat × Nat) := none
  /-- fault 0x0404 has been raised for the present wait -/
  slotWaitRaised : Bool := false
  /-- the next step whose lagged sweep is due -/
  nextStep : Nat := 0
  /-- the rule sets with which the group's last sweep ran -/
  sweptRules : NatMap RuleSet := []
  deriving DecidableEq, Repr

/-- How far a shard has come in the present step. -/
structure ShardRun where
  /-- an ingest is running -/
  ingesting : Bool := false
  ingested : Bool := false
  skipped : Bool := false
  /-- after an abandonment the ingest for this target waits for a new signal of it (R193); 0 for none -/
  await : Nat := 0
  deriving DecidableEq, Repr

/-- The Quern of a die, for one partition. -/
structure Quern where
  /-- QRN_TABLE -/
  table : Nat := 0
  /-- QRN_GROUP_SEL -/
  groupSel : Nat := 0
  /-- the handle of the loaded table -/
  loadedTable : Nat := 0
  loaded : Bool := false
  cmdStatus : Nat := 0
  cmdBusy : Bool := false
  goSync : Nat := 0
  sweptSync : Nat := 0
  commitSync : Nat := 0
  doneSync : Nat := 0
  shards : List Shard := []
  /-- the step whose work the sweep-class shards are at -/
  step : Nat := 0
  /-- the parts that the RULE of each used rule set gives at LOAD (R188), plus 1; 0 for an unused set -/
  loadRules : NatMap Nat := []
  /-- Pond epochs of the halves of shard k (R348): half h at key 4 k + 2 h, its retained gradient at 4 k + 2 h + 1 -/
  epochs : NatMap Nat := []
  /-- the rule sets as last latched, and the step they were latched for -/
  latched : NatMap RuleSet := []
  latchedFor : Option Nat := none
  /-- the latched rule sets break Table 08.5: the sweep of that step does not start (R188) -/
  latchBad : Bool := false
  /-- the rule sets with which the last sweep of the sweep class ran -/
  sweptRules : NatMap RuleSet := []
  /-- by step, the rule sets latched for a step whose lagged sweeps have not all ended (R188, R199) -/
  laggedRules : NatMap (NatMap RuleSet) := []
  /-- after an abandonment the latch for this target waits for a new signal of it (R193); 0 for none -/
  goAwait : Nat := 0
  ruleValid : Nat := 0
  version : Nat := 0
  skips : Counter := {}
  saturated : Counter := {}
  runs : NatMap ShardRun := []
  /-- shards whose GRAD_SYNC satisfies their target and that wait for their ingest, in the order of satisfaction (R193) -/
  ready : List Nat := []
  sweeping : Bool := false
  /-- the sweep of the present step has ended (order 3 done) -/
  swept : Bool := false
  flipping : Bool := false
  /-- stopped without a flip by a failing access or check (R198, R202, R236, R352) -/
  stopped : Bool := false
  groups : NatMap LagGroup := []
  deriving DecidableEq, Repr

end Sys2Proof.Machine
end

