-- ==== Sys2Proof/Types/Sec.lean ====
section
/-! DEFINITION. The security die: key slots, charters, sessions, identity, attestation and releases (chapter 12). -/
namespace Sys2Proof.Machine
open Sys2Proof

/-- A key slot (R321, Table 12.15). -/
structure KeySlot where
  valid : Bool := false
  key : List Byte := []
  handle : Nat := 0
  /-- PERM, the bits of Table 12.7 -/
  perm : Nat := 0
  /-- the owning charter slot -/
  charter : Nat := 0
  /-- OWNER: 0 free, 1 operator, 2 charter -/
  owner : Nat := 0
  life : Nat := 0
  uses : Nat := 0
  checkFail : Bool := false
  /-- the 32-bit check held with the slot (R323) -/
  check : Nat := 0
  deriving DecidableEq, Repr

/-- A party entry of a charter body (Table 12.8), with its public key. -/
structure PartyEntry where
  alg : Nat
  telemetry : Nat
  keyId : List Byte
  pk : List Byte
  deriving DecidableEq, Repr

/-- A KEYS entry of a charter body. -/
structure CharterKey where
  handle : Nat
  party : Nat
  purpose : Nat
  deriving DecidableEq, Repr

/-- A RULES entry of a charter body. -/
structure CharterRule where
  source : Nat
  k : Nat
  approvers : Nat
  recipients : Nat
  tensorLo : Nat
  tensorHi : Nat
  deriving DecidableEq, Repr

/-- A charter body (Table 12.8). -/
structure Charter where
  parties : List PartyEntry := []
  streams : List (List Byte) := []
  firmware : List (List Byte) := []
  keys : List CharterKey := []
  rules : List CharterRule := []
  deriving DecidableEq, Repr

/-- The states of a charter slot (Table 12.9). -/
inductive CharterState where
  | empty | pending | active | bound
  deriving DecidableEq, Repr

/-- The states of a release request (SEC_REL_STATE.STATE). -/
inductive RelState where
  | none | waiting | running | done
  deriving DecidableEq, Repr

/-- The release request of a charter slot (R336 to R339). -/
structure Release where
  state : RelState := .none
  reqId : Nat := 0
  approved : Nat := 0
  rule : Nat := 0
  recipient : Nat := 0
  ctx : Nat := 0
  handle : Nat := 0
  off : Nat := 0
  len : Nat := 0
  dst : Nat := 0
  dstOff : Nat := 0
  step : Nat := 0
  digest : List Byte := []
  deriving DecidableEq, Repr

/-- The release registers of a charter slot (Table 12.15): SEC_REL_SRC, OFF, LEN, DST and DST_OFF. -/
structure RelRegs where
  src : Nat := 0
  off : Nat := 0
  len : Nat := 0
  dst : Nat := 0
  dstOff : Nat := 0
  deriving DecidableEq, Repr

/-- A charter slot (R327 to R333). -/
structure CharterSlot where
  state : CharterState := .empty
  part : Nat := 0
  digest : List Byte := []
  charter : Charter := {}
  /-- SHARES: bit i, party i's share received or consumed into S -/
  sharesMask : Nat := 0
  shares : NatMap (List Byte) := []
  /-- the session secret S (R333) -/
  secret : Option (List Byte) := none
  release : Release := {}
  relRegs : RelRegs := {}
  deriving DecidableEq, Repr

/-- An Ihlak session (R277, R282, R315, R318). -/
structure Session where
  role : Nat := 0
  party : Nat := 0
  /-- the partition it is bound to; 0xFF the device -/
  part : Nat := 0xFF
  /-- role 1: the charter slot -/
  charter : Nat := 0
  /-- the port it was set up on, on which the device sends -/
  port : Nat := 0
  /-- the SESSION value the device sends to the peer -/
  peerSession : Nat := 0
  /-- the SENDER value the peer uses: 1, or 0 where this device is the role 4 peer -/
  peerSender : Nat := 1
  keyOut : List Byte := []
  keyIn : List Byte := []
  kek : List Byte := []
  /-- highest SEQ accepted, and the SEQs accepted within the window of 1,024 -/
  seqHigh : Option Nat := none
  seqSeen : List Nat := []
  seqOut : Nat := 0
  /-- credits to send COLL_CHUNKs -/
  credits : Nat := 16
  /-- chunks taken whose credit has not been returned, and the mill time of the oldest -/
  owed : Nat := 0
  owedSince : Nat := 0
  /-- mill time of the last fault 0x0709 on this session -/
  lastDrop : Option Nat := none
  /-- chunk payloads waiting for credit, oldest first -/
  waiting : List (List Byte) := []
  deriving DecidableEq, Repr

/-- How far a setup has come (R316). -/
inductive SetupPhase where
  /-- HELLO accepted, ATTEST not yet sent -/
  | hello
  /-- ATTEST sent, FINISH awaited -/
  | attested
  /-- FINISH accepted, DONE not yet sent -/
  | finished
  deriving DecidableEq, Repr

/-- A setup in progress, by its DEV_SESSION value. -/
structure Setup where
  phase : SetupPhase := .hello
  role : Nat := 0
  party : Nat := 0
  part : Nat := 0xFF
  /-- the port of its HELLO -/
  port : Nat := 0
  macsec : Nat := 0
  charter : Nat := 0
  /-- the charter digest of the HELLO -/
  charterDigest : List Byte := []
  nonce : List Byte := []
  hello : List Byte := []
  attest : List Byte := []
  /-- the draw from which the ML-KEM key pair of this setup was generated -/
  kemDraw : Nat := 0
  since : Nat := 0
  /-- CONFIRM of the DONE to send -/
  confirm : List Byte := []
  deriving DecidableEq, Repr

/-- A setup this device runs as the role 4 peer of another Hyndi (R315, R318). -/
structure PeerSetup where
  part : Nat := 0
  port : Nat := 0
  charter : Nat := 0
  remoteSession : Nat := 0
  keyOut : List Byte := []
  keyIn : List Byte := []
  confirm : List Byte := []
  deriving DecidableEq, Repr

/-- The security die. -/
structure Security where
  slots : NatMap KeySlot := []
  /-- the public-key store, by key slot (R326) -/
  pubKeys : NatMap (List Byte) := []
  charters : NatMap CharterSlot := []
  sessions : NatMap Session := []
  setups : NatMap Setup := []
  peerSetups : NatMap PeerSetup := []
  /-- the last SESSION value given out since reset (R319) -/
  lastSession : Nat := 0
  /-- SEQ of the next packet sent with SESSION 0 -/
  plainSeq : Nat := 0
  /-- mill times of the HELLOs of roles 1 to 3 processed (R316) -/
  hellos : List Nat := []
  /-- operand registers -/
  keyNew : Nat := 0
  keyData0 : Word64 := 0
  keyData1 : Word64 := 0
  keyData2 : Word64 := 0
  keyData3 : Word64 := 0
  obj : Nat := 0
  len : Nat := 0
  lock : Bool := false
  cmdStatus : Nat := 0
  busy : Bool := false
  /-- an attestation key is being generated (R311) -/
  attGen : Bool := false
  idDisabled : Bool := false
  certSeq : Nat := 0
  /-- attestation keys generated since boot: CERT_SEQ of the next certificate (Table 12.2) -/
  attKeys : Nat := 0
  /-- key slot 0 has become VALID since the last transition erased the slots: the installation window is closed (R374) -/
  windowShut : Bool := false
  /-- the attestation key: the draw it was generated from, while it exists (R310) -/
  attKey : Option Nat := none
  attIndex : Nat := 0
  /-- the current boot certificate (Table 12.2) -/
  bootCert : List Byte := []
  /-- the identity key: the draw it was generated from (R307) -/
  identity : Option Nat := none
  /-- the index words A and B (R308) -/
  wordA : Word64 := 0
  wordB : Word64 := 0
  /-- the next release request number (R336) -/
  nextReq : Nat := 1
  deriving DecidableEq, Repr

/-- The board-controller interface (R320, R445 to R447). -/
structure Board where
  challenge : Option (List Byte) := none
  resp0 : Word64 := 0
  resp1 : Word64 := 0
  resp2 : Word64 := 0
  resp3 : Word64 := 0
  isOpen : Bool := false
  lastAccess : Nat := 0
  fails : Nat := 0
  lastStatus : Nat := 0
  /-- the address register of the interface (R445) -/
  addr : Nat := 0
  /-- the dynamic address of ENTDAA -/
  dynAddr : Option Nat := none
  fatal : Bool := false
  thermal : Bool := false
  deriving DecidableEq, Repr

end Sys2Proof.Machine
end

