-- ==== Sys2Proof/Types/Tile.lean ====
section
/-! DEFINITION. The state of a tile and of a cluster: chapters 03 to 06 of the spec, with the checks of chapter 15
that belong to one tile. -/
namespace Sys2Proof.Machine
open Sys2Proof

/-- A tile operation: a 128-bit word (R75). -/
abbrev Top := BitVec 128

/-- The state of an accumulation group (R129). -/
inductive GroupState where
  | free | opened | closed
  deriving DecidableEq, Repr

/-- An accumulation group of 128 rows by 32 columns of Bronze pairs (R105, R126, R129). -/
structure Group where
  state : GroupState := .free
  /-- the pair of row r, column n at key 32 r + n: S in bits [31:0], C in bits [63:32] -/
  cells : NatMap Word64 := []
  ovf : Bool := false
  nan : Bool := false
  subn : Nat := 0
  deriving DecidableEq, Repr

/-- A weight block as a weight buffer holds it (R70): the copy, and the block scales held with it. -/
structure WeightBlock where
  /-- FMT_W with which the block was loaded -/
  fmt : Nat := 0
  /-- element k of output column n at key K·n + k -/
  elems : NatMap Nat := []
  /-- scale byte b of output column n at key 8 n + b -/
  scales : NatMap Byte := []
  deriving DecidableEq, Repr

/-- One matrix array of a tile (R63, R70). -/
structure MatrixArray where
  /-- the eight accumulation groups -/
  groups : NatMap Group := []
  /-- the two weight buffers -/
  buf0 : WeightBlock := {}
  buf1 : WeightBlock := {}
  /-- which buffer holds the last loaded block; `none` where the array has none -/
  last : Option Bool := none
  /-- the hallmark checker of the array is retired until reset (R385) -/
  checkerRetired : Bool := false
  deriving DecidableEq, Repr

/-- A record of the statistics block (R143, Table 05.6). -/
structure StatRec where
  valid : Bool := false
  tag : Nat := 0
  amax : Word32 := 0
  values : Nat := 0
  ovfElems : Nat := 0
  nanElems : Nat := 0
  infBlocks : Nat := 0
  ovfGroups : Nat := 0
  nanGroups : Nat := 0
  subn : Nat := 0
  bins : NatMap Nat := []
  deriving DecidableEq, Repr

/-- What one drain, roll-up or vector operation adds to a statistics record. -/
structure StatAdd where
  amax : Word32 := 0
  values : Nat := 0
  ovf : Nat := 0
  nan : Nat := 0
  inf : Nat := 0
  ovfG : Nat := 0
  nanG : Nat := 0
  subn : Nat := 0
  /-- one bin number for each value counted at stage 5 -/
  bins : List Nat := []
  deriving DecidableEq, Repr

/-- A statistics update that waits for those of earlier TOPs (R144): updates are applied in queue order. -/
structure StatOwed where
  /-- the place of its TOP in the queue order of the tile -/
  seq : Nat := 0
  tensor : Nat := 0
  top : Top := 0
  add : StatAdd := {}
  deriving DecidableEq, Repr

/-- The stochastic-rounding context of a tile (R121). -/
structure SrContext where
  tensor : Nat := 0
  base : Nat := 0
  k0 : Word64 := 0
  k1 : Word64 := 0
  deriving DecidableEq, Repr

/-- The units a TOP passes to (Table 03.7). -/
inductive TileUnit where
  | arrayA | arrayB | drainA | drainB | transfer | vector | sync
  deriving DecidableEq, Repr

/-- How far a TOP in flight has come. -/
inductive FlightPhase where
  /-- in its unit, not started -/
  | waiting
  /-- started: an MMA loads its weight block -/
  | loading
  /-- started -/
  | running
  /-- started: the streaming waits for an arbitration (R383, R385) -/
  | held
  /-- a Toll call that Toll has taken up (R219) -/
  | taken
  deriving DecidableEq, Repr

/-- A TOP that has left the queue and is not complete. -/
structure Flight where
  top : Top
  /-- the SR context as the TOPs before it in queue order leave it (R121, R122) -/
  sr : SrContext := {}
  phase : FlightPhase := .waiting
  /-- its place in the queue order of the tile -/
  seq : Nat := 0
  /-- a stage 7 add met R104 case 4 (R141) -/
  mismatch : Bool := false
  deriving DecidableEq, Repr

/-- Why a tile is quarantined (RAS_TILE.QUAR_CAUSE, Table 15.14). -/
inductive QuarCause where
  | none | array | noVote | operandPath | logicBist | memoryBist | vector | drain | ecc
  deriving DecidableEq, Repr

/-- A self-test running on a tile (R393, R397). -/
structure TileTest where
  /-- MODE of the TEST_SLOT entry; 3 for a RETEST -/
  mode : Nat := 0
  /-- mill time at which it started -/
  start : Nat := 0
  /-- the timetable entry that started it -/
  entry : Nat := 0
  deriving DecidableEq, Repr

/-- One tile. -/
structure Tile where
  /-- cell (register r, row i, cell j) at key 4096 r + 64 i + j (R66) -/
  regs : NatMap Word32 := []
  scratch : NatMap Byte := []
  queue : List Top := []
  flight : List Flight := []
  arrA : MatrixArray := {}
  arrB : MatrixArray := {}
  stats : NatMap StatRec := []
  /-- TOPs passed to the units so far: the place of the next one in queue order -/
  seq : Nat := 0
  /-- statistics updates not yet applied, in queue order (R144) -/
  owed : List StatOwed := []
  /-- the context the next TOP taken from the queue uses (R121) -/
  sr : SrContext := {}
  /-- the groups become FREE once the TOPs in flight are complete (R130) -/
  freeing : Bool := false
  halted : Bool := false
  scrubbing : Bool := false
  test : Option TileTest := none
  quarantined : Bool := false
  quarCause : QuarCause := .none
  /-- in arbitration: quarantined until the decision (R385) -/
  arbitrating : Bool := false
  faultCode : Nat := 0
  faultOpcode : Nat := 0
  faultTop : Top := 0
  /-- TILE_STATUS.DROPPED -/
  dropped : Nat := 0
  /-- fault 0x0207 has been raised in this halt (R88) -/
  dropRaised : Bool := false
  /-- TOPs completed since reset: TILE_TOP_COUNT and DONE_j -/
  topCount : Nat := 0
  /-- TILE_TOP_COUNT at the last 1 ms boundary (R340) -/
  topLatch : Nat := 0
  arbCount : Nat := 0
  nextSlice : Nat := 0
  coverLogic : Nat := 0
  coverMem : Bool := false
  deriving DecidableEq, Repr

/-- A cluster: its SRAM and its control core (R73, R74, R91). -/
structure Cluster where
  sram : NatMap Byte := []
  imem : NatMap Byte := []
  dmem : NatMap Byte := []
  /-- the integer registers x1 to x31 of the control core; a0 to a2 are x10 to x12 -/
  coreRegs : NatMap Word64 := []
  /-- the low word held by TOP_LO -/
  topLo : Word64 := 0
  /-- the TOP whose TOP_HI store is stalled (R74) -/
  stalled : Option Top := none
  /-- the core runs kernel code of a phase -/
  running : Bool := false
  halted : Bool := false
  /-- HALT was written while a TOP_HI store is stalled: it takes effect at the boundary behind that store, with this pc (R91) -/
  haltAt : Option Word64 := none
  trapped : Bool := false
  cause : Nat := 0
  pc : Word64 := 0
  /-- PHASE_DONE stored since the phase's start -/
  phaseDone : Bool := false
  /-- the core's machine external interrupt, raised by a halted tile (R88) -/
  extInt : Bool := false
  /-- the partition's membership record and director tables are in `sram` and `dmem`; the cluster key unit's queue
  of waiting SR_SETs, tile by tile (R121) -/
  keyQueue : List Nat := []
  deriving DecidableEq, Repr

/-- A call that has arrived at Toll (R219): of a tile, or of a host queue's ALLOC or FREE, with whether its free has taken effect. -/
inductive TollCall where
  | tile (t : Nat)
  | host (ctx queue : Nat) (freed : Bool)
  deriving DecidableEq, Repr

end Sys2Proof.Machine
end

