-- ==== Sys2Proof/Types/Sys.lean ====
section
/-! DEFINITION. Mill time, memory crypto and links, start-up and life cycle, reliability and power: the device-level state of
chapters 02, 13, 14, 15 and 16. -/
namespace Sys2Proof.Machine
open Sys2Proof

/-- The states of the PTP engine (Table 02.2). -/
inductive PtpState where
  | freerun | acquiring | locked | holdover
  deriving DecidableEq, Repr

/-- Mill time and PTP (R39 to R42). -/
structure Mill where
  /-- mill time, ns -/
  now : Nat := 0
  /-- GOV_PTP_CTRL; reset value of Table 17.5 -/
  ctrl : Nat := 0x84100_3E8
  state : PtpState := .freerun
  stepBlocked : Bool := false
  slavePort : Nat := 0xF
  /-- the last measured offset and path delay, ns -/
  offset : Int := 0
  delay : Nat := 0
  freqPpb : Int := 0
  lastSync : Nat := 0
  /-- consecutive Syncs with offsets in bounds (LOCKED) -/
  goodSyncs : Nat := 0
  /-- a two-step Sync awaiting its Follow_Up: the port and its receive time -/
  twoStep : Option (Nat × Nat) := none
  /-- a Sync and a Delay_Resp have come since ACQUIRING was entered -/
  gotSync : Bool := false
  gotDelay : Bool := false
  discards : Nat := 0
  ppsLast : Nat := 0
  /-- mill time of the last PPS_OUT edge -/
  ppsOutLast : Option Nat := none
  /-- BRAKE_N is low -/
  brakeLow : Bool := false
  /-- GOV_LOCK -/
  lock : Bool := false
  /-- the beat in which the Governor last started an entry, and how many it has started in it (R50) -/
  beat : Nat := 0
  beatStarts : Nat := 0
  deriving DecidableEq, Repr

/-- The states of a memory key identifier (Table 13.2). -/
inductive KeyIdState where
  | free | assigned | retiring | dead
  deriving DecidableEq, Repr

/-- A memory key identifier. Its keys are drawn afresh at every assignment; `gen` counts the assignments, and a line
written under an earlier one never passes its tag (R350). -/
structure KeyId where
  state : KeyIdState := .free
  part : Nat := 0
  gen : Nat := 0
  /-- the next Pond epoch (R348) -/
  epoch : Nat := 0
  /-- the XTS keys K1 and K2 and the tag key KT (R347); empty where they have been overwritten with zeros (R350) -/
  k1 : List Byte := []
  k2 : List Byte := []
  kt : List Byte := []
  /-- the engines that have confirmed the destruction of its keys: bit d of die d's, bits 8 and 9 of the Pond engines (R350) -/
  confirmed : Nat := 0
  deriving DecidableEq, Repr

/-- Memory crypto, package links and tamper (chapter 13). -/
structure Mce where
  lock : Bool := false
  keyIds : NatMap KeyId := []
  eccCorr : Nat := 0
  eccUncorr : Nat := 0
  tagFails : Nat := 0
  poisoned : Nat := 0
  /-- MCE_LINK_STATUS -/
  ring : Nat := 0
  chord : Nat := 0
  io : Nat := 0
  ctrl : Nat := 0
  /-- the links' keys, and the frames each has carried since power came (R17, R358) -/
  linkKeys : NatMap (List Byte) := []
  linkFrames : NatMap Nat := []
  /-- failed frames of each link: mill times of the failures within 1 ms (R17) -/
  linkFails : NatMap (List Nat) := []
  linkDrops : NatMap Nat := []
  /-- links taken down until reset -/
  linkDown : List Nat := []
  glitch : Bool := false
  pin : Bool := false
  tampered : Bool := false
  deriving DecidableEq, Repr

/-- How far the boot has come (Table 14.2). -/
inductive BootPhase where
  /-- held in reset, PWR_GOOD or RESET_N low -/
  | held
  /-- RESET_N is high and the ROM has started -/
  | rom
  /-- the ROM is in recovery (R369) -/
  | recovery
  /-- firmware runs -/
  | running
  /-- stopped: SCRAP, or a tamper event in the boot (R364) -/
  | stopped
  deriving DecidableEq, Repr

/-- OTP bits, by position: each is a pair of fuses (R377). -/
structure Fuses where
  a : Nat := 0
  b : Nat := 0
  deriving DecidableEq, Repr

/-- One-time programmable memory, never cleared (R377). -/
structure Otp where
  /-- fuses 1 to 5 of the life-cycle counter -/
  counter : Fuses := {}
  intent : Fuses := {}
  done : Fuses := {}
  /-- token digests by target state (R375), as the two fuses of each bit hold them -/
  digests : NatMap (List Byte × List Byte) := []
  revoked : Fuses := {}
  /-- the 64 SVN fuses (R368) -/
  svn : Fuses := {}
  deriving DecidableEq, Repr

/-- Start-up and life cycle (chapter 14). -/
structure Life where
  otp : Otp := {}
  phase : BootPhase := .held
  /-- PWR_GOOD is high -/
  powerGood : Bool := true
  bootCount : Nat := 0
  arg : Nat := 0
  token0 : Word64 := 0
  token1 : Word64 := 0
  token2 : Word64 := 0
  token3 : Word64 := 0
  cmdStatus : Nat := 0
  busy : Bool := false
  tokenFails : Nat := 0
  resumed : Bool := false
  ready : Bool := false
  source : Nat := 0
  attempts : Nat := 0
  flashReason : Nat := 0
  fwDigest : List Byte := []
  vendorKey : Nat := 0
  /-- the memory of each firmware target: what its sections loaded, (offset, bytes), in order (R367) -/
  targets : NatMap (List (Nat × List Byte)) := []
  /-- targets no longer held in reset, in the order of their release (R367) -/
  released : List Nat := []
  /-- SVN of the running image -/
  fwSvn : Nat := 0
  hbmTrained : Bool := false
  pondTrained : Bool := false
  /-- the network recovery (R371): container bytes received in order, TOTAL and source of the first accepted packet -/
  recvBytes : List Byte := []
  total : Nat := 0
  server : Option Nat := none
  /-- packets accepted since the last REQ; when the last packet was accepted, and when the last REQ was sent -/
  sinceReq : Nat := 0
  lastData : Nat := 0
  lastReq : Option Nat := none
  /-- REASON of the last rejection -/
  reason : Nat := 0
  /-- GEN_IDENTITY runs: the handle its public key is written to -/
  genObj : Option Nat := none
  /-- LC_CMD RESET has been written -/
  resetPending : Bool := false
  deriving DecidableEq, Repr

/-- Where a fault lies (Table 15.10). -/
structure FaultLoc where
  part : Nat := 0xFF
  die : Nat := 0xFF
  cluster : Nat := 0xFF
  tile : Nat := 0xFF
  unit : Nat := 0
  port : Nat := 0xFF
  deriving DecidableEq, Repr

/-- A fault to be recorded (R400 to R404). -/
structure FaultRec where
  code : Nat
  loc : FaultLoc := {}
  /-- severity of R402: 0 Recoverable, 1 Fatal, 2 Corrected, 3 Informational -/
  severity : Nat := 3
  ctx : Nat := 0xFFFF
  addr : Option Nat := none
  detail : List Byte := []
  /-- FLAGS.HOP and FLAGS.DEMOTED -/
  hop : Bool := false
  demoted : Bool := false
  deriving DecidableEq, Repr

/-- When a key last made a record, and how many faults it has suppressed since (R404). -/
structure FaultKey where
  code : Nat
  loc : FaultLoc
  last : Nat
  count : Nat
  deriving DecidableEq, Repr

/-- An arbitration (R385). -/
structure Arbitration where
  tile : Nat
  arrB : Bool
  v : Nat
  n : Nat
  xo : Int
  rhoE : Nat
  /-- the input vector and the weight block captured for the spare tile -/
  input : List Nat := []
  weights : WeightBlock := {}
  /-- the tile's state before: it was halted -/
  halted : Bool
  deriving DecidableEq, Repr

/-- A die's spare tile (R385, R386). -/
structure Spare where
  running : Option Arbitration := none
  queue : List Arbitration := []
  aFailed : Bool := false
  bFailed : Bool := false
  deriving DecidableEq, Repr

/-- Reliability and test (chapter 15). -/
structure Ras where
  lock : Bool := false
  /-- RAS_CTRL -/
  eventEn : Bool := true
  patrolEn : Bool := true
  recCount : Nat := 0
  ring : NatMap (List Byte) := []
  keys : List FaultKey := []
  /-- RAS_ECC_CORR and RAS_ECC_UNCORR by class: 0 TILE, 1 SRAM, 2 SYNC, 3 CTRL -/
  corr : NatMap Nat := []
  uncorr : NatMap Nat := []
  spares : NatMap Spare := []
  /-- addresses corrected in the last 24 h: (memory, instance, address, mill time) -/
  corrected : List (Nat × Nat × Nat × Nat) := []
  /-- spare rows and columns used, by instance (see `MemSite.key`) -/
  sparesUsed : NatMap Nat := []
  /-- repair reports, newest first, at most 256 (R396) -/
  reports : List (List Byte) := []
  testStatus : Nat := 0
  /-- a RETEST is running on this tile -/
  retest : Option Nat := none
  deriving DecidableEq, Repr

/-- The operating point of a compute die (R414 to R416). -/
structure DiePower where
  /-- PWR_OPP.CAP -/
  cap : Nat := 0
  thermal : Nat := 0
  power : Nat := 0
  vrLimit : Nat := 0
  /-- the point in force -/
  inForce : Nat := 0
  /-- the voltage of the rail, mV -/
  mv : Nat := 800
  /-- a move under way: its target index, and whether the frequency is still to be switched (up) -/
  move : Option (Nat × Bool) := none
  avsRetried : Bool := false
  /-- held at its present point by 0x0B06 -/
  avsHeld : Bool := false
  /-- temperatures, 0.25 °C units -/
  dieQ : Nat := 0
  hbmQ : Nat := 0
  /-- 0x0B02 has been raised in this excursion -/
  throttling : Bool := false
  critical : Bool := false
  deriving DecidableEq, Repr

/-- A power hint of a partition (R415). -/
structure PowerHint where
  index : Nat := 0
  /-- mill time at which it lapses; `none` holds until the next -/
  lapse : Option Nat := none
  deriving DecidableEq, Repr

/-- A power domain (R411). -/
structure PowerDomain where
  gated : Bool := false
  wakes : Nat := 0
  deriving DecidableEq, Repr

/-- Power states, domains and clocks (chapter 16). -/
structure Power where
  lock : Bool := false
  mode : Nat := 0
  state : Nat := 0
  entryStatus : Nat := 0
  wakeAt : Word64 := 0
  /-- PWR_GATE_CFG -/
  gateIdleUs : Nat := 50
  gateClasses : Nat := 0x1F
  throttleC : Nat := 95
  capWatts : Nat := 0
  overCap : Bool := false
  powerDev : Nat := 0
  /-- by partition: W as the operator and as a party reads it -/
  powerPart : NatMap Nat := []
  powerParty : NatMap Nat := []
  powerDevParty : Nat := 0
  dies : NatMap DiePower := []
  /-- the hint that each partition holds -/
  hints : NatMap (Option PowerHint) := []
  domains : NatMap PowerDomain := []
  /-- clocks stopped at 110 °C until RESET_N (R418) -/
  stopped : Bool := false
  ref100Lost : Bool := false
  ref156Lost : Bool := false
  deriving DecidableEq, Repr

end Sys2Proof.Machine
end

