-- ==== Sys2Proof/Machine/Num.lean ====
section
/-! DEFINITION. Numbers, formats and rounding: chapter 04 of the spec. A value is exact (a rational number with a
sign, an infinity, or NaN); every lossy step is one call of the rounding of R109. -/
namespace Sys2Proof.Machine
open Sys2Proof

/-- What the bits of a floating format stand for (R92). `fin neg m` is the finite value of magnitude `m` and sign
`neg`; zero has a sign. -/
inductive Num where
  | nan
  | inf (neg : Bool)
  | fin (neg : Bool) (mag : Rat)
  deriving DecidableEq, Repr

/-- 2^e for any integer e. -/
def pow2 (e : Int) : Rat :=
  if 0 ≤ e then ((2 ^ e.toNat : Nat) : Rat) else mkRat 1 (2 ^ (-e).toNat)

/-- ⌊log₂ q⌋ of a positive rational. -/
def floorLog2 (q : Rat) : Int :=
  let e : Int := (q.num.natAbs.log2 : Int) - (q.den.log2 : Int)
  if q < pow2 e then e - 1 else e

/-- The magnitude of a rational. -/
def ratAbs (q : Rat) : Rat := if q < 0 then -q else q

/-- ⌈log₂ q⌉ of a positive rational. -/
def ceilLog2 (q : Rat) : Int :=
  let e := floorLog2 q
  if q = pow2 e then e else e + 1

/-- The signed rational a finite value stands for (0 for the others). -/
def Num.toRat : Num → Rat
  | .fin true m => -m
  | .fin false m => m
  | _ => 0

/-- The finite value of a signed rational; a zero takes the sign given. -/
def Num.ofRat (zeroNeg : Bool) (q : Rat) : Num :=
  if q < 0 then .fin true (-q) else if q = 0 then .fin zeroNeg 0 else .fin false q

/-- Neither NaN nor infinite. -/
def Num.isFinite : Num → Bool
  | .fin _ _ => true
  | _ => false

def Num.isNan : Num → Bool
  | .nan => true
  | _ => false

def Num.isZero : Num → Bool
  | .fin _ m => decide (m = 0)
  | _ => false

/-- The sign of a value; NaN has none. -/
def Num.neg? : Num → Bool
  | .inf n => n
  | .fin n _ => n
  | .nan => false

/-- The magnitude of a finite value. -/
def Num.mag : Num → Rat
  | .fin _ m => m
  | _ => 0

/-- The value with its sign flipped. -/
def Num.negate : Num → Num
  | .nan => .nan
  | .inf n => .inf (!n)
  | .fin n m => .fin (!n) m

/-! ### Floating formats (R92, R93, Table 04.1) -/

/-- How a format uses its top exponent code. -/
inductive TopCode where
  /-- infinity and NaN -/
  | ieee
  /-- normal values, and one NaN pattern (E4M3) -/
  | oneNan
  /-- normal values only (MX elements) -/
  | normal
  deriving DecidableEq, Repr

/-- The layout of a floating format. -/
structure FloatFmt where
  eBits : Nat
  fBits : Nat
  bias : Nat
  top : TopCode
  /-- the canonical NaN pattern (R93), where the format has a NaN -/
  canonNan : Nat
  deriving DecidableEq, Repr

def fp32Fmt : FloatFmt := ⟨8, 23, 127, .ieee, 0x7FC00000⟩
def bf16Fmt : FloatFmt := ⟨8, 7, 127, .ieee, 0x7FC0⟩
def fp16Fmt : FloatFmt := ⟨5, 10, 15, .ieee, 0x7E00⟩
def e4m3Fmt : FloatFmt := ⟨4, 3, 7, .oneNan, 0x7F⟩
def e5m2Fmt : FloatFmt := ⟨5, 2, 15, .ieee, 0x7E⟩
def e3m2Fmt : FloatFmt := ⟨3, 2, 3, .normal, 0⟩
def e2m3Fmt : FloatFmt := ⟨2, 3, 1, .normal, 0⟩
def e2m1Fmt : FloatFmt := ⟨2, 1, 1, .normal, 0⟩

/-- The smallest exponent of a normal value. -/
def FloatFmt.eMin (f : FloatFmt) : Int := 1 - (f.bias : Int)

/-- The largest finite value of the format (Table 04.1). -/
def FloatFmt.maxFinite (f : FloatFmt) : Rat :=
  let topE := 2 ^ f.eBits - 1
  match f.top with
  | .ieee => ((2 ^ (f.fBits + 1) - 1 : Nat) : Rat) * pow2 ((topE - 1 : Nat) - (f.bias : Int) - f.fBits)
  | .oneNan => ((2 ^ (f.fBits + 1) - 2 : Nat) : Rat) * pow2 ((topE : Nat) - (f.bias : Int) - f.fBits)
  | .normal => ((2 ^ (f.fBits + 1) - 1 : Nat) : Rat) * pow2 ((topE : Nat) - (f.bias : Int) - f.fBits)

/-- The value of a format's bits (R92). -/
def FloatFmt.decode (f : FloatFmt) (v : Nat) : Num :=
  let s := bit v (f.eBits + f.fBits)
  let e := bits v f.fBits f.eBits
  let m := bits v 0 f.fBits
  let topE := 2 ^ f.eBits - 1
  if f.top = .ieee ∧ e = topE then (if m = 0 then .inf s else .nan)
  else if f.top = .oneNan ∧ e = topE ∧ m = 2 ^ f.fBits - 1 then .nan
  else if e = 0 then .fin s ((m : Rat) * pow2 (f.eMin - f.fBits))
  else .fin s (((2 ^ f.fBits + m : Nat) : Rat) * pow2 ((e : Int) - f.bias - f.fBits))

/-- The spacing of the format's grid at magnitude `m` (R118's ulp); 0 lies on the subnormal grid. -/
def FloatFmt.ulp (f : FloatFmt) (m : Rat) : Rat :=
  let e := if m = 0 then f.eMin else max (floorLog2 m) f.eMin
  pow2 (e - f.fBits)

/-- The bits of a magnitude that lies on the format's grid and does not exceed its largest finite value. -/
def FloatFmt.encodeMag (f : FloatFmt) (m : Rat) : Nat :=
  if m = 0 then 0 else
  let e := max (floorLog2 m) f.eMin
  let k := (m / pow2 (e - f.fBits)).floor.toNat
  if k < 2 ^ f.fBits then k else (e + f.bias).toNat * 2 ^ f.fBits + (k - 2 ^ f.fBits)

/-- The sign bit of the format. -/
def FloatFmt.signBit (f : FloatFmt) (neg : Bool) : Nat := flag neg * 2 ^ (f.eBits + f.fBits)

/-! ### Rounding (R109) -/

/-- A rounding mode with its draw (Table 03.10): the draw of a stochastic rounding is the 32-bit `u` of R122. -/
inductive Rnd where
  | nearest
  | stochastic (u : Word32)
  | zero
  deriving DecidableEq, Repr

/-- R109 on a grid of spacing `step`: the multiple of `step` that the magnitude `m` rounds to. -/
def roundMag (r : Rnd) (m step : Rat) : Nat :=
  let t := m / step
  let lo := t.floor.toNat
  let frac := t - (lo : Rat)
  if frac = 0 then lo else
  match r with
  | .zero => lo
  | .nearest =>
    if frac * 2 < 1 then lo else if 1 < frac * 2 then lo + 1
    else if lo % 2 = 0 then lo else lo + 1
  | .stochastic u => if u.toNat < (frac * 4294967296).floor.toNat then lo + 1 else lo

/-- What a conversion gives: the bits, and whether Table 04.4 counts the element as an overflow or as a NaN. -/
structure Conv where
  bits : Nat
  ovf : Bool := false
  nan : Bool := false
  deriving DecidableEq, Repr

/-- The infinity pattern of a format that has one. -/
def FloatFmt.infBits (f : FloatFmt) (neg : Bool) : Nat :=
  f.signBit neg + (2 ^ f.eBits - 1) * 2 ^ f.fBits

/-- R109 and R110: narrow a value to FP32, bf16, FP16, FP8 E4M3 or FP8 E5M2. An infinity counts as an overflow and
a NaN as a NaN. -/
def FloatFmt.narrow (f : FloatFmt) (r : Rnd) (x : Num) : Conv :=
  match x with
  | .nan => { bits := f.canonNan, nan := true }
  | .inf n => if f.top = .ieee then { bits := f.infBits n, ovf := true } else { bits := f.canonNan, ovf := true }
  | .fin n m =>
    let q := (roundMag r m (f.ulp m) : Rat) * f.ulp m
    if f.maxFinite < q then
      if f.top = .ieee ∧ r ≠ .zero then { bits := f.infBits n, ovf := true }
      else { bits := f.signBit n + f.encodeMag f.maxFinite, ovf := true }
    else { bits := f.signBit n + f.encodeMag q }

/-- R109 and Table 04.4, the MX and Pewter4 elements: a finite value, saturating. -/
def FloatFmt.narrowElem (f : FloatFmt) (r : Rnd) (neg : Bool) (m : Rat) : Conv :=
  let q := (roundMag r m (f.ulp m) : Rat) * f.ulp m
  if f.maxFinite < q then { bits := f.signBit neg + f.encodeMag f.maxFinite, ovf := true }
  else { bits := f.signBit neg + f.encodeMag q }

/-- R109 and Table 04.4: narrow to an `n`-bit two's complement integer (INT8, INT4). -/
def narrowInt (n : Nat) (r : Rnd) (x : Num) : Conv :=
  match x with
  | .nan => { bits := 0, nan := true }
  | .inf neg => { bits := if neg then 2 ^ (n - 1) else 2 ^ (n - 1) - 1, ovf := true }
  | .fin neg m =>
    let k := roundMag r m 1
    if neg then (if 2 ^ (n - 1) < k then { bits := 2 ^ (n - 1), ovf := true } else { bits := unsigned n (-(k : Int)) })
    else (if 2 ^ (n - 1) - 1 < k then { bits := 2 ^ (n - 1) - 1, ovf := true } else { bits := k })

/-! ### FP32 arithmetic (rn32 of the spec: one rounding to nearest even) -/

/-- The value of an FP32 word. -/
def num32 (w : Word32) : Num := fp32Fmt.decode w.toNat

/-- Round to nearest even to FP32. -/
def rn32 (x : Num) : Word32 := BitVec.ofNat 32 (fp32Fmt.narrow .nearest x).bits

/-- The canonical FP32 NaN (R93). -/
def nan32 : Word32 := 0x7FC00000#32

/-- The exact sum; an exact zero from operands of unlike sign is +0, of two zeros of like sign that sign. -/
def Num.add : Num → Num → Num
  | .nan, _ => .nan
  | _, .nan => .nan
  | .inf a, .inf b => if a = b then .inf a else .nan
  | .inf a, _ => .inf a
  | _, .inf b => .inf b
  | .fin a x, .fin b y =>
    Num.ofRat (a && b) ((Num.fin a x).toRat + (Num.fin b y).toRat)

def Num.sub (a b : Num) : Num := a.add b.negate

/-- The exact product; infinity times zero is NaN. -/
def Num.mul : Num → Num → Num
  | .nan, _ => .nan
  | _, .nan => .nan
  | .inf a, .inf b => .inf (a != b)
  | .inf a, .fin b m => if m = 0 then .nan else .inf (a != b)
  | .fin a m, .inf b => if m = 0 then .nan else .inf (a != b)
  | .fin a x, .fin b y => .fin (a != b) (x * y)

/-- `a < b` as real values; false where either is NaN. -/
def Num.lt : Num → Num → Bool
  | .nan, _ => false
  | _, .nan => false
  | .inf a, .inf b => a && !b
  | .inf a, _ => a
  | _, .inf b => !b
  | .fin a x, .fin b y => decide ((Num.fin a x).toRat < (Num.fin b y).toRat)

/-- The greatest magnitude of a list of finite values. -/
def amax (vs : List Num) : Rat := vs.foldl (fun a v => max a v.mag) 0

/-! ### Scales and block formats (R96 to R99, R111 to R113) -/

/-- The value of an E8M0 scale code (Table 04.2); `none` is NaN. -/
def e8m0 (x : Nat) : Option Rat := if x % 256 = 255 then none else some (pow2 ((x % 256 : Nat) - 127))

/-- The value of a UE5M3 code (Table 04.2); `none` is NaN. -/
def ue5m3 (x : Nat) : Option Rat :=
  let e := bits x 3 5
  let f := bits x 0 3
  if x % 256 = 255 then none
  else if e = 0 then some ((f : Rat) / 8 * pow2 (-14))
  else some (((8 + f : Nat) : Rat) / 8 * pow2 ((e : Int) - 15))

/-- The smallest UE5M3 code whose value is not below `q`, capped at 0xFE (R112). The codes rise with their values. -/
def ue5m3Ceil (q : Rat) : Nat :=
  ((List.range 255).find? fun c => match ue5m3 c with | some v => decide (q ≤ v) | none => false).getD 0xFE

/-- The MX element of an element format inside a block scaled by `s` (R97, R98): infinity and NaN read as NaN. -/
def scaledElem (f : FloatFmt) (s : Option Rat) (v : Nat) : Num :=
  match s, f.decode v with
  | none, _ => .nan
  | some q, .fin n m => .fin n (m * q)
  | some _, _ => .nan

/-- A converted block: its scale code, its elements and which of them Table 04.4 counts. -/
structure BlockConv where
  scale : Nat
  elems : List Conv
  deriving DecidableEq, Repr

/-- The block R110 gives when some inputs are NaN or infinite: scale 0xFF, elements 0, only those inputs counted. -/
def badBlock (vs : List Num) : BlockConv :=
  { scale := 0xFF
    elems := vs.map fun v => { bits := 0, ovf := (match v with | .inf _ => true | _ => false), nan := v.isNan } }

/-- The exponent of the largest element of an MX format (R111's emax). -/
def mxEmax (f : FloatFmt) : Int :=
  if f = e4m3Fmt then 8 else if f = e5m2Fmt then 15 else if f = e3m2Fmt then 4 else 2

/-- R111: convert 32 values to an MX block; `rnd i` is the rounding of element i. -/
def mxBlock (f : FloatFmt) (rnd : Nat → Rnd) (vs : List Num) : BlockConv :=
  if vs.any (fun v => !v.isFinite) then badBlock vs
  else
    let a := amax vs
    if a = 0 then { scale := 0, elems := vs.map fun v => { bits := f.signBit v.neg? } }
    else
      let x : Int := min 254 (max 0 (floorLog2 a - mxEmax f + 127))
      { scale := x.toNat
        elems := vs.mapIdx fun i v => f.narrowElem (rnd i) v.neg? (v.mag / pow2 (x - 127)) }

/-- R112: convert 32 values to a Pewter4 block with tensor scale `st`. -/
def pewterBlock (st : Num) (rnd : Nat → Rnd) (vs : List Num) : BlockConv :=
  if vs.any (fun v => !v.isFinite) || !(Num.lt (.fin false 0) st && st.isFinite) then badBlock vs
  else
    let a := amax vs
    if a = 0 then { scale := 0, elems := vs.map fun v => { bits := e2m1Fmt.signBit v.neg? } }
    else
      let sb := ue5m3Ceil (a / (6 * st.mag))
      let s := (ue5m3 sb).getD 0 * st.mag
      { scale := sb
        elems := vs.mapIdx fun i v => e2m1Fmt.narrowElem (rnd i) v.neg? (v.mag / s) }

/-- The UE5M3 grid seen as a floating format without a sign (its largest finite value is 0xFE). -/
def ue5m3Fmt : FloatFmt := ⟨5, 3, 15, .oneNan, 0xFF⟩

/-- R113: convert a block to Brass8. `second` tells a second-moment block (UE5M3 elements, no negatives). -/
def brassBlock (second : Bool) (rnd : Nat → Rnd) (vs : List Num) : BlockConv :=
  if vs.any (fun v => !v.isFinite || (second && v.neg? && !v.isZero)) then
    { badBlock vs with scale := 0xFF }
  else
    let a := amax vs
    let top : Rat := if second then 114688 else 448
    let f := if second then ue5m3Fmt else e4m3Fmt
    let x : Int := if a = 0 then 0 else max 0 (ceilLog2 (a / top) + 127)
    { scale := x.toNat
      elems := vs.mapIdx fun i v =>
        let c := f.narrowElem (rnd i) false (v.mag / pow2 (x - 127))
        if second then c else { c with bits := e4m3Fmt.signBit v.neg? + c.bits } }

/-- The value of a Brass8 element under scale code `x` (R99). -/
def brassElem (second : Bool) (x v : Nat) : Num :=
  match e8m0 x with
  | none => .nan
  | some q =>
    if second then (match ue5m3 v with | some m => .fin false (m * q) | none => .nan)
    else match e4m3Fmt.decode v with
      | .fin n m => .fin n (m * q)
      | _ => .nan

/-! ### Tin blocks (R100 to R104, R114, R115) -/

/-- The three fixed-point widths: Tin16, Tin24, and the accumulating Tin56. -/
inductive TinKind where
  | tin16 | tin24 | tin56
  deriving DecidableEq, Repr

/-- A Tin block: the shared exponent code and the signed mantissas. -/
structure TinBlock where
  e : Nat
  m : List Int
  deriving DecidableEq, Repr

/-- The exponent offset of a Tin kind (R100, R101). -/
def TinKind.offset : TinKind → Int
  | .tin16 => 142
  | _ => 150

/-- The largest mantissa the device produces (R100, R104). -/
def TinKind.maxMant : TinKind → Int
  | .tin16 => 2 ^ 15 - 1
  | .tin24 => 2 ^ 23 - 1
  | .tin56 => 2 ^ 55 - 1

/-- The infinite block of `n` elements. -/
def tinInf (n : Nat) : TinBlock := ⟨0xFF, List.replicate n 0⟩
/-- The zero block of `n` elements. -/
def tinZero (n : Nat) : TinBlock := ⟨0, List.replicate n 0⟩

/-- R100, R115: the value of element `i` of a Tin block; an infinite block gives +∞, a zero block +0. -/
def TinBlock.elem (k : TinKind) (b : TinBlock) (i : Nat) : Num :=
  if b.e = 0xFF then .inf false
  else if b.e = 0 then .fin false 0
  else Num.ofRat false (((b.m[i]?.getD 0 : Int) : Rat) * pow2 ((b.e : Int) - k.offset))

/-- R104: add a Tin16, Tin24 or Tin56 block into a Tin56 block; `none` is the refused add of case 4. -/
def tinAdd (b : TinBlock) (k : TinKind) (c : TinBlock) : Option TinBlock :=
  let n := b.m.length
  let f : Int := if k = .tin16 then 256 else 1
  if b.e = 0xFF ∨ c.e = 0xFF then some (tinInf n)
  else if c.e = 0 then some b
  else if b.e = 0 then some ⟨c.e, c.m.map (f * ·)⟩
  else if b.e ≠ c.e then none
  else
    let vs := List.zipWith (fun x y => x + f * y) b.m c.m
    if vs.any (fun v => decide (v < -(2 ^ 55)) || decide (2 ^ 55 - 1 < v)) then some (tinInf n)
    else some ⟨b.e, vs⟩

/-- R114: convert values to a Tin16 or Tin24 block with exponent code `e`. -/
def tinConvert (k : TinKind) (e : Nat) (rnd : Nat → Rnd) (vs : List Num) : TinBlock :=
  let n := vs.length
  if e = 0xFF then tinInf n
  else if e = 0 then (if vs.all Num.isZero then tinZero n else tinInf n)
  else if vs.any (fun v => !v.isFinite) then tinInf n
  else
    let ms := vs.mapIdx fun i v =>
      let r : Int := roundMag (rnd i) (v.mag * pow2 (k.offset - (e : Int))) 1
      if v.neg? then -r else r
    if ms.any (fun m => decide (k.maxMant < m) || decide (m < -k.maxMant)) then tinInf n else ⟨e, ms⟩

/-- R103: the bytes of a Tin24 (100 bytes) or Tin16 (68 bytes) block. -/
def tinPack (k : TinKind) (b : TinBlock) : List Byte :=
  let w := if k = .tin16 then 2 else 3
  leBytes 1 b.e ++ leBytes 3 0 ++ (b.m.map fun m => leBytes w (unsigned (8 * w) m)).flatten

/-- R103 read back: mantissas of a zero or infinite block are ignored (Table 04.3). -/
def tinUnpack (k : TinKind) (bs : List Byte) : TinBlock :=
  let w := if k = .tin16 then 2 else 3
  let e := field bs 0 1
  if e = 0 then tinZero 32 else if e = 0xFF then tinInf 32
  else ⟨e, (List.range 32).map fun i => signed (8 * w) (field bs (4 + w * i) w)⟩

/-- R101: the 256 bytes of a Tin56 block. -/
def tin56Pack (b : TinBlock) : List Byte :=
  let z := b.e = 0 ∨ b.e = 0xFF
  (b.m.map fun v => leBytes 7 (if z then 0 else unsigned 56 v) ++ leBytes 1 b.e).flatten

/-- R101 read back: E from word 0; V ignored where E is 0x00 or 0xFF. -/
def tin56Unpack (bs : List Byte) : TinBlock :=
  let e := field bs 7 1
  if e = 0 then tinZero 32 else if e = 0xFF then tinInf 32
  else ⟨e, (List.range 32).map fun i => signed 56 (field bs (8 * i) 7)⟩

/-! ### The stochastic-rounding generator (R120, R122) -/

/-- One 64-bit rotation to the left. -/
def rotl64 (v : Word64) (s : Nat) : Word64 := v.rotateLeft s

/-- The six rounds of `sr_draw`, from round `i`. -/
def srRounds : (left i : Nat) → (a b : Word64) → Word64 × Word64
  | 0, _, a, b => (a, b)
  | left + 1, i, a, b =>
    let a := a + b
    let b := rotl64 b 23 ^^^ a
    let a := rotl64 a 41 * 0x9e3779b97f4a7c15#64
    srRounds left (i + 1) a (b + BitVec.ofNat 64 i)

/-- R122: the 32-bit draw of counter `c` under key `(k0, k1)`. -/
def srDraw (k0 k1 c : Word64) : Word32 :=
  let r := srRounds 6 0 (c ^^^ k0) k1
  ((r.1 ^^^ r.2) >>> 32).setWidth 32

/-- R122: the counter of element `n` of stream class `cls`. -/
def srCounter (cls n : Nat) : Word64 := BitVec.ofNat 64 (cls % 4 * 2 ^ 62 + n % 2 ^ 40)

/-- R106: the high part of an FP32 operand: fraction bits [11:0] cleared. -/
def splitHigh (x : Word32) : Num :=
  match num32 x with
  | .fin _ _ => num32 (x &&& 0xFFFFF000#32)
  | v => v

/-- R106: the low part of an FP32 operand, truncated toward zero to a multiple of 2⁻¹³⁷. -/
def splitLow (x : Word32) : Num :=
  match num32 x with
  | .fin n m =>
    let d := m - (splitHigh x).mag
    .fin n ((roundMag .zero d (pow2 (-137)) : Rat) * pow2 (-137))
  | _ => .fin false 0

end Sys2Proof.Machine
end

