-- ==== Sys2Proof/Types/Weir.lean ====
section
/-! DEFINITION. Sync objects, the collective table, collectives and the Weir: the state of chapter 10. -/
namespace Sys2Proof.Machine
open Sys2Proof

/-- A counter entry of the collective table (Table 10.2). -/
structure CounterEntry where
  index : Nat
  scope : Nat
  commit : Bool
  tiles : Nat
  fences : List Nat
  rootWait : Nat
  deriving DecidableEq, Repr

/-- A collective descriptor (Table 10.3). -/
structure CollDesc where
  kind : Nat
  fmt : Nat
  headroom : Nat
  scope : Nat
  die : Nat
  rootPos : Nat
  inSync : Nat
  doneSync : Nat
  src : Nat
  dst : Nat
  expLen : Nat
  srcOff : Nat
  dstOff : Nat
  piece : Nat
  expOff : Nat
  deriving DecidableEq, Repr

/-- A loaded collective table (R238, R239). -/
structure CollTable where
  replica : Nat := 0
  position : Nat := 0
  replicas : Nat := 0
  domainSize : Nat := 0
  excludeAfter : Nat := 0
  minMembers : Nat := 0
  mirror : Bool := false
  counters : List CounterEntry := []
  colls : List CollDesc := []
  deriving DecidableEq, Repr

/-- How a Weir epoch was released (Table 10.7). -/
inductive Outcome3 where
  | pass | abortStep | abortEcc
  deriving DecidableEq, Repr

/-- A sync object (R234): a fence, or a Weir counter with its epoch (R262, R266). -/
structure SyncObj where
  value : Word64 := 0
  epoch : Nat := 0
  /-- leaf arrivals of the pending epoch, by cluster -/
  leaf : NatMap Nat := []
  /-- this device has arrived in the pending epoch -/
  arrived : Bool := false
  /-- its arrival carried ABORT -/
  abort : Bool := false
  /-- its arrival's BLAME domain; 0xFF for none -/
  blame : Nat := 0xFF
  /-- root only: members that have arrived, as (replica, position, abort, blame) -/
  arrivals : List (Nat × Nat × Bool × Nat) := []
  /-- root only: mill time of the epoch's first arrival -/
  firstArrival : Option Nat := none
  /-- an ABORT_ECC epoch is being retried -/
  retry : Bool := false
  failed : Bool := false
  /-- root only: the outcomes of the last 16 epochs -/
  outcomes : List (Nat × Outcome3) := []
  /-- the node has asked the root for an epoch's outcome (R265) -/
  asked : Bool := false
  /-- after an ABORT_ECC release: the epoch whose outcome the node has asked for, before it arrives again (R266) -/
  eccAsk : Option Nat := none
  /-- the conditions of the device's arrival are still to be looked at in the new epoch -/
  recheck : Bool := false
  /-- the sync unit's cycle in which signals were last applied (mill time plus 1; 0 for none), VALUE before them, and their values (R237) -/
  cycleAt : Nat := 0
  cycleBase : Word64 := 0
  cycleVals : List Word64 := []
  deriving DecidableEq, Repr

/-- What has arrived for one chunk range of a reduction. -/
structure RangeRun where
  /-- contributions added: (level, replica, position) -/
  added : List (Nat × Nat × Nat) := []
  /-- the expected digest of the range at the present level (R255) -/
  expect : Nat := 0
  /-- AEXP of each block, the largest so far (R249) -/
  aexp : NatMap Nat := []
  /-- the digest terms of each block that `expect` holds -/
  terms : NatMap Nat := []
  deriving DecidableEq, Repr

/-- A collective of a partition in the present revolution (R240 to R260). -/
structure CollRun where
  started : Bool := false
  complete : Bool := false
  /-- it cannot complete locally in this window -/
  failed : Bool := false
  /-- the step and the revolution it runs for -/
  step : Word64 := 0
  rev : Nat := 0
  /-- the ranges of level 1 at key 2 FIRST, those of level 2 at key 2 FIRST + 1 -/
  ranges : NatMap RangeRun := []
  /-- chunks received: (level, replica, position, first) -/
  received : List (Nat × Nat × Nat × Nat) := []
  /-- chunks requested again (R256): the same key -/
  nacked : List (Nat × Nat × Nat × Nat) := []
  /-- level 1 is complete and checked (R257), so level 2 may be sent and taken -/
  level1Done : Bool := false
  /-- the own piece holds the final sum -/
  final : Bool := false
  /-- chunks that arrived before they can be taken (R241): the session and the payload, oldest first -/
  early : List (Nat × List Byte) := []
  /-- chunks sent and still held: the session and the payload -/
  sent : List (Nat × List Byte) := []
  /-- sessions on which a broadcast or a mirror trailer has been acknowledged -/
  acks : List Nat := []
  /-- data chunks received: the source at 64 replica + position, FIRST, and the bytes -/
  data : List (Nat × Nat × List Byte) := []
  /-- sources whose piece has been delivered -/
  got : List Nat := []
  /-- a BARRIER's epoch when its window opened, plus 1 -/
  barrier : Nat := 0
  /-- DIGEST_EXCHANGE: a difference was found -/
  differs : Bool := false
  /-- the domain to blame if the window is missed (R267) -/
  blame : Nat := 0xFF
  /-- the next exponents formed so far: place in the exponent table, E_n, and 1 for an own block infinite at E = 254 (R250, R252) -/
  nextExps : List (Nat × Nat × Nat) := []
  /-- the staging table has been written for this step (R251): the places, and the 1 of R252 -/
  staged : List (Nat × Nat) := []
  deriving DecidableEq, Repr

/-- The Weir and sync state of one partition. -/
structure Weir where
  /-- WEIR_COLL_TABLE -/
  table : Nat := 0
  loaded : Bool := false
  tbl : CollTable := {}
  cmdStatus : Nat := 0
  cmdBusy : Bool := false
  argHandle : Nat := 0
  argDomain : Nat := 0
  members : Nat := 0
  excluded : Bool := false
  /-- WEIR_DIFF -/
  diffValid : Bool := false
  diffReplica : Nat := 0
  diffDie : Nat := 0
  diffShard : Nat := 0
  assayFails : Counter := {}
  late : Counter := {}
  eccAborts : Counter := {}
  regress : Counter := {}
  resignals : Counter := {}
  stale : Counter := {}
  /-- in a repeat window (R236) -/
  repeatWindow : Bool := false
  /-- a step abandoned by another counter's release still owes its ABORT arrival on the COMMIT counter (R264) -/
  abortDue : Bool := false
  /-- fleet root: blame tallies by domain (R267), and domains to readmit (R269) -/
  tallies : NatMap Nat := []
  readmit : List Nat := []
  sync : NatMap SyncObj := []
  colls : NatMap CollRun := []
  deriving DecidableEq, Repr

/-- A running resolution of a replica difference (R398, R399; RAS_RESOLVE). -/
structure Resolve where
  busy : Bool := false
  outcome : Nat := 0
  die : Nat := 0
  shard : Nat := 0
  leaf : Nat := 0
  /-- the differing shards not yet resolved, as (die, shard), and how many leaves of the first have been -/
  shards : List (Nat × Nat) := []
  leavesDone : Nat := 0
  deriving DecidableEq, Repr

end Sys2Proof.Machine
end

