-- ==== Sys2Proof/Machine/State.lean ====
section
/-! DEFINITION. The state of the device: everything the spec gives it, as plain data; its faults, its refusals, and the state
right after reset. -/
namespace Sys2Proof.Machine
open Sys2Proof

/-- Why a step would stop the block. The spec gives every command of the table an effect, if only to change nothing, so no
command stops the block and the type has no constructor. -/
inductive Fault where
  deriving DecidableEq, Repr

/-- Why the model would refuse a command. -/
inductive Refusal where
  /-- The command has no meaning yet; raised by an arm of `exec` only, and safe: the machine stops. -/
  | notModelled (mnemonic : String)
  deriving DecidableEq, Repr

/-- The last test slot of a partition (TEST_RESULT, Table 15.14). -/
structure TestResult where
  fault : Nat := 0
  tile : Nat := 0
  slice : Nat := 0
  mode : Nat := 0
  ns : Nat := 0
  deriving DecidableEq, Repr

/-- The CTX block's shared operand registers (Table 11.16). -/
structure CtxRegs where
  descObj : Nat := 0
  arg : Nat := 0
  /-- CTX_DESC0–19 -/
  desc : NatMap Word64 := []
  deriving DecidableEq, Repr

/-- The ETH block's device-wide registers (Table 11.18). -/
structure EthRegs where
  lock : Bool := false
  cmdStatus : Nat := 0
  dropAuth : Nat := 0
  dropReplay : Nat := 0
  sluiceOk : Nat := 0
  sluiceRefused : Nat := 0
  /-- highest Sluice SEQ accepted from each SENDER, plus 1 (R302) -/
  sluiceSeq : NatMap Nat := []
  /-- the µs in which the last Sluice packet was accepted, and how many have been in it (R302) -/
  sluiceUs : Nat := 0
  sluiceInUs : Nat := 0
  deriving DecidableEq, Repr

/-- The MEM block's registers (Table 09.10). -/
structure MemRegs where
  lock : Bool := false
  /-- usable Pond in 256 MiB units, and installed GiB -/
  extents : Nat := 0
  installed : Nat := 0
  freeBusy : Bool := false
  freeStatus : Nat := 0
  /-- MEM_BOLTER_ENC and MEM_BOLTER_DEC, in KiB; bytes not yet making a KiB stand beside them -/
  encIn : Counter := {}
  encOut : Counter := {}
  decIn : Counter := {}
  decOut : Counter := {}
  deriving DecidableEq, Repr

/-- The state of the device. -/
structure State where
  /-- the commands that wait, first in, first out -/
  pending : List Instr := []
  mill : Mill := {}
  /-- partitions 0 to 15 -/
  parts : NatMap Part := []
  /-- the staged full stream (R28) -/
  stagedFull : Option Stream := none
  /-- the DEVICE section of the bound full stream (R26) -/
  device : List Byte := []
  /-- PART_STAGE_OBJ and PART_STAGE_LEN, by partition window (R38) -/
  stageObj : NatMap Nat := []
  stageLen : NatMap Nat := []
  partLock : Bool := false
  weirs : NatMap Weir := []
  /-- the Quern of die d for partition p, at key 8 p + d -/
  querns : NatMap Quern := []
  resolves : NatMap Resolve := []
  tollFails : NatMap Counter := []
  testNext : NatMap Nat := []
  testResults : NatMap TestResult := []
  tiles : NatMap Tile := []
  clusters : NatMap Cluster := []
  /-- the Toll calls that wait, in order of arrival, the one being served first (R219) -/
  tollQueue : List TollCall := []
  /-- byte o of Granary slice s at key 100663296 s + o -/
  granary : NatMap Byte := []
  hbm : Dram := {}
  pond : Dram := {}
  /-- descriptor k of cluster c at key 16 c + k -/
  leats : NatMap LeatRun := []
  mem : MemRegs := {}
  ctxs : NatMap Ctx := []
  ctxRegs : CtxRegs := {}
  pendingFrees : List PendingFree := []
  copyJobs : List CopyJob := []
  qps : NatMap Qp := []
  ports : NatMap Port := []
  eth : EthRegs := {}
  sec : Security := {}
  board : Board := {}
  mce : Mce := {}
  life : Life := {}
  ras : Ras := {}
  pwr : Power := {}
  /-- the selects of each Ihlak session, of factory access and of the board controller (R430) -/
  selects : NatMap Selects := []
  selFactory : Selects := {}
  selBoard : Selects := {}
  /-- the messages the device has sent, newest first -/
  out : List OutMsg := []
  /-- the model's own: how many free values and random draws have been taken -/
  draws : Nat := 0
  deriving DecidableEq, Repr

/-- The fuses of a production part as shipped (R453): PROVISIONED, which the fuses of counters 1 and 2 say (R377), with both
transitions complete. -/
def Otp.shipped : Otp := { counter := ⟨0b110, 0b110⟩, intent := ⟨0b110, 0b110⟩, done := ⟨0b110, 0b110⟩ }

/-- The state right after reset: every register at its reset value (R435), every partition FREE, every context UNDEFINED,
every memory listing nothing, mill time 0, the boot not yet begun (R363). -/
def State.reset : State := { life := { otp := .shipped } }

end Sys2Proof.Machine
end

