-- ==== Sys2Proof/Machine/Status.lean ====
section
/-! DEFINITION. The status words that registers show and fault records carry, and the one way into each part of the state. -/
namespace Sys2Proof.Machine
open Sys2Proof

/-! ### One way into each part of the state -/

def State.now (s : State) : Nat := s.mill.now

def State.part (s : State) (p : Nat) : Part := NatMap.get {} s.parts p
def State.setPart (s : State) (p : Nat) (v : Part) : State := { s with parts := NatMap.set {} s.parts p v }
def State.modPart (s : State) (p : Nat) (f : Part → Part) : State := s.setPart p (f (s.part p))
def State.modGov (s : State) (p : Nat) (f : Gov → Gov) : State := s.modPart p fun v => { v with gov := f v.gov }

def State.weir (s : State) (p : Nat) : Weir := NatMap.get {} s.weirs p
def State.setWeir (s : State) (p : Nat) (v : Weir) : State := { s with weirs := NatMap.set {} s.weirs p v }
def State.modWeir (s : State) (p : Nat) (f : Weir → Weir) : State := s.setWeir p (f (s.weir p))

def State.quern (s : State) (p d : Nat) : Quern := NatMap.get {} s.querns (8 * p + d)
def State.setQuern (s : State) (p d : Nat) (v : Quern) : State := { s with querns := NatMap.set {} s.querns (8 * p + d) v }
def State.modQuern (s : State) (p d : Nat) (f : Quern → Quern) : State := s.setQuern p d (f (s.quern p d))

def State.tile (s : State) (t : Nat) : Tile := NatMap.get {} s.tiles t
def State.setTile (s : State) (t : Nat) (v : Tile) : State := { s with tiles := NatMap.set {} s.tiles t v }
def State.modTile (s : State) (t : Nat) (f : Tile → Tile) : State := s.setTile t (f (s.tile t))

def State.cluster (s : State) (c : Nat) : Cluster := NatMap.get {} s.clusters c
def State.setCluster (s : State) (c : Nat) (v : Cluster) : State := { s with clusters := NatMap.set {} s.clusters c v }
def State.modCluster (s : State) (c : Nat) (f : Cluster → Cluster) : State := s.setCluster c (f (s.cluster c))

def State.leat (s : State) (c k : Nat) : LeatRun := NatMap.get {} s.leats (16 * c + k)
def State.setLeat (s : State) (c k : Nat) (v : LeatRun) : State := { s with leats := NatMap.set {} s.leats (16 * c + k) v }
def State.modLeat (s : State) (c k : Nat) (f : LeatRun → LeatRun) : State := s.setLeat c k (f (s.leat c k))

/-- The state of a context; context 0, the operator's, exists from every boot (R287). -/
def State.ctx (s : State) (x : Nat) : Ctx := NatMap.get {} s.ctxs x
def State.setCtx (s : State) (x : Nat) (v : Ctx) : State := { s with ctxs := NatMap.set {} s.ctxs x v }
def State.modCtx (s : State) (x : Nat) (f : Ctx → Ctx) : State := s.setCtx x (f (s.ctx x))

def State.qp (s : State) (q : Nat) : Qp := NatMap.get {} s.qps q
def State.setQp (s : State) (q : Nat) (v : Qp) : State := { s with qps := NatMap.set {} s.qps q v }
def State.modQp (s : State) (q : Nat) (f : Qp → Qp) : State := s.setQp q (f (s.qp q))

def State.port (s : State) (k : Nat) : Port := NatMap.get {} s.ports k
def State.setPort (s : State) (k : Nat) (v : Port) : State := { s with ports := NatMap.set {} s.ports k v }
def State.modPort (s : State) (k : Nat) (f : Port → Port) : State := s.setPort k (f (s.port k))

/-- The active sub-ports (ETH_PORT_CFG.BREAKOUT); the management port has one. -/
def State.subPorts (s : State) (k : Nat) : Nat :=
  if k = 8 then 1 else match (s.port k).breakout with
    | 1 => 2 | 2 => 4 | 3 => 8 | _ => 1
def Port.sub (x : Port) (n : Nat) : SubPort := NatMap.get {} x.subs n
def Port.setSub (x : Port) (n : Nat) (v : SubPort) : Port := { x with subs := NatMap.set {} x.subs n v }
/-- SUB_UP: the sub-ports whose secure channel is up. -/
def Port.subUp (x : Port) : Nat := maskOf ((List.range 8).filter fun n => (x.sub n).up)
/-- UP: every active sub-port has its secure channel up. -/
def State.macsecUp (s : State) (k : Nat) : Bool := (List.range (s.subPorts k)).all fun n => ((s.port k).sub n).up
def State.modSec (s : State) (f : Security → Security) : State := { s with sec := f s.sec }
def State.modMce (s : State) (f : Mce → Mce) : State := { s with mce := f s.mce }
def State.modLife (s : State) (f : Life → Life) : State := { s with life := f s.life }
def State.modRas (s : State) (f : Ras → Ras) : State := { s with ras := f s.ras }
def State.modPwr (s : State) (f : Power → Power) : State := { s with pwr := f s.pwr }
def State.modBoard (s : State) (f : Board → Board) : State := { s with board := f s.board }
def State.modMill (s : State) (f : Mill → Mill) : State := { s with mill := f s.mill }
def State.modEth (s : State) (f : EthRegs → EthRegs) : State := { s with eth := f s.eth }
def State.modMem (s : State) (f : MemRegs → MemRegs) : State := { s with mem := f s.mem }

def Security.slot (x : Security) (n : Nat) : KeySlot := NatMap.get {} x.slots n
def Security.setSlot (x : Security) (n : Nat) (v : KeySlot) : Security := { x with slots := NatMap.set {} x.slots n v }
def Security.charter (x : Security) (n : Nat) : CharterSlot := NatMap.get {} x.charters n
def Security.setCharter (x : Security) (n : Nat) (v : CharterSlot) : Security := { x with charters := NatMap.set {} x.charters n v }

/-- A live session's entry; a session that has ended or never was has role 0. -/
def Security.session (x : Security) (n : Nat) : Session := NatMap.get {} x.sessions n
def Security.setSession (x : Security) (n : Nat) (v : Session) : Security := { x with sessions := NatMap.set {} x.sessions n v }
def Security.setup (x : Security) (n : Nat) : Setup := NatMap.get {} x.setups n
def Security.setSetup (x : Security) (n : Nat) (v : Setup) : Security := { x with setups := NatMap.set {} x.setups n v }

def Mce.keyId (x : Mce) (n : Nat) : KeyId := NatMap.get {} x.keyIds n
def Mce.setKeyId (x : Mce) (n : Nat) (v : KeyId) : Mce := { x with keyIds := NatMap.set {} x.keyIds n v }

def Power.die (x : Power) (d : Nat) : DiePower := NatMap.get {} x.dies d
def Power.setDie (x : Power) (d : Nat) (v : DiePower) : Power := { x with dies := NatMap.set {} x.dies d v }

/-! ### What the device is -/

/-- The die of a cluster (R14). -/
def clusterDie (c : Nat) : Nat := c / 8
/-- The cluster of a tile (R14). -/
def tileCluster (t : Nat) : Nat := t / 8

/-- The partition that a cluster is bound to; a partition that is FREE holds none. -/
def State.clusterPart (s : State) (c : Nat) : Option Nat :=
  (List.range 16).find? fun p => bit (s.part p).map.clusters c
def State.tilePart (s : State) (t : Nat) : Option Nat := s.clusterPart (tileCluster t)

/-- The clusters and the tiles of a partition. -/
def State.partClusters (s : State) (p : Nat) : List Nat := bitsOf 64 (s.part p).map.clusters
def State.partTiles (s : State) (p : Nat) : List Nat :=
  ((s.partClusters p).map fun c => (List.range 8).map (8 * c + ·)).flatten
def State.partDies (s : State) (p : Nat) : List Nat := (List.range 8).filter fun d => (s.partClusters p).any (clusterDie · == d)

/-- The partition has CHARTER_BIND. -/
def State.chartered (s : State) (p : Nat) : Bool := !(s.part p).charter.isEmpty

/-- The charter slot a partition is BOUND to. -/
def State.boundCharter (s : State) (p : Nat) : Option Nat :=
  if s.chartered p then
    (List.range 16).find? fun c =>
      (s.sec.charter c).state == .bound && (s.sec.charter c).part == p && (s.sec.charter c).digest == (s.part p).charter
  else none

/-- Count events in a clearing counter of 32 bits and in its total. -/
def Counter.add (c : Counter) (n : Nat) : Counter := { c with live := min (c.live + n) 0xFFFFFFFF, total := c.total + n }

/-! ### Status words -/

/-- The PTP engine enters ACQUIRING (Table 02.2). -/
def Mill.acquire (m : Mill) : Mill := { m with state := .acquiring, goodSyncs := 0, twoStep := none, gotSync := false, gotDelay := false }
def PartState.code : PartState → Nat
  | .free => 0 | .draining => 1 | .scrubbing => 2 | .retiring => 3 | .loading => 4 | .armed => 5 | .running => 6 | .braked => 7

/-- QRN_STATUS (chapter 08). -/
def Quern.statusWord (q : Quern) : Nat :=
  pack [(0, 8, q.cmdStatus), (8, 1, flag q.loaded), (9, 1, flag (q.runs.any fun e => e.2.ingesting)),
        (10, 1, flag q.sweeping), (11, 1, flag q.flipping), (12, 1, flag (q.groups.any fun e => e.2.sweeping.isSome))]

/-- MEM_STATUS (Table 09.10). -/
def MemRegs.statusWord (m : MemRegs) : Nat := pack [(0, 8, m.freeStatus), (8, 1, flag m.freeBusy)]

/-- Position 0 of a domain is its root; position 0 of the lowest-numbered member domain is the fleet root (R263). -/
def Weir.domainRoot (w : Weir) : Bool := w.loaded && w.tbl.position == 0
def Weir.fleetRoot (w : Weir) : Bool := w.domainRoot && (bitsOf 64 w.members).head? == some w.tbl.replica

/-- WEIR_STATUS (chapter 10). -/
def Weir.statusWord (w : Weir) : Nat :=
  pack [(0, 8, w.cmdStatus), (8, 1, flag w.loaded), (9, 1, flag w.domainRoot), (10, 1, flag w.fleetRoot),
        (11, 1, flag w.tbl.mirror), (12, 1, flag w.excluded)]

def CtxState.code : CtxState → Nat
  | .undefined => 0 | .defined => 1 | .resident => 2 | .ended => 3

/-- The ring is full when (records written − EVENT_HEAD) mod 2³² reaches its size (R300). -/
def Ctx.ringFull (c : Ctx) : Bool :=
  decide (2 ^ c.desc.eventLog2 ≤ (c.recCount + 2 ^ 32 - c.eventHead % 2 ^ 32) % 2 ^ 32)

/-- CTX_STATUS of context `x` (Table 11.16). -/
def Ctx.statusWord (c : Ctx) (x : Nat) : Nat :=
  pack [(0, 8, c.cmdStatus), (8, 3, c.state.code), (11, 1, flag c.desc.home), (12, 8, if x = 0 ∧ c.state ≠ .undefined then 0xFF else c.desc.part),
        (20, 6, c.slot), (32, 8, maskOf ((List.range 8).filter fun q => (NatMap.get {} c.queues q).stopped)),
        (40, 1, flag (c.desc.eventQp != 0xFFFF && c.ringFull))]

/-- The indices of the identity key: 2²⁰ (R307, R308). -/
def idLimit : Nat := 1048576

/-- An index word: the value with its complement. -/
def idWord (v : Nat) : Word64 := BitVec.ofNat 64 (v % 2 ^ 32 + 2 ^ 32 * (2 ^ 32 - 1 - v % 2 ^ 32))
/-- The value of a word whose halves are complements. -/
def idWordValue (w : Word64) : Option Nat := if w = idWord (w.toNat % 2 ^ 32) then some (w.toNat % 2 ^ 32) else none

/-- `id_value` of R308: the larger value among the valid words. -/
def Security.idValue (x : Security) : Option Nat :=
  match idWordValue x.wordA, idWordValue x.wordB with
  | some a, some b => some (max a b)
  | some a, none => some a
  | none, b => b

/-- Identity signing is off (R308, R311): switched off since reset, no index left, or no valid index word. -/
def Security.idOff (x : Security) : Bool := x.idDisabled || (x.identity.isSome && !x.idValue.any (· < idLimit))

/-- SEC_STATUS (Table 12.15). -/
def Security.statusWord (x : Security) : Nat :=
  pack [(0, 8, x.cmdStatus), (8, 1, flag x.busy), (9, 1, flag x.attGen), (10, 1, flag x.idOff)]

/-- LC_STATUS (Table 14.10). -/
def Life.statusWord (l : Life) : Nat := pack [(0, 8, l.cmdStatus), (8, 1, flag l.busy)]

/-- BC_ALERT (Table 18.6): THERMAL, TAMPER, FATAL, REF_LOST. -/
def State.alertWord (s : State) : Nat :=
  pack [(0, 1, flag s.board.thermal), (1, 1, flag s.mce.tampered), (2, 1, flag s.board.fatal), (3, 1, flag s.pwr.ref100Lost)]

/-- PWR_STATUS (Table 16.7): ALERT while any bit of BC_ALERT is 1 (R447). -/
def State.pwrStatusWord (s : State) : Nat :=
  pack [(0, 3, s.pwr.state), (4, 1, flag (s.alertWord != 0)), (8, 8, s.pwr.entryStatus)]

/-- TEST_STATUS (Table 15.14). -/
def Ras.testStatusWord (r : Ras) : Nat := pack [(0, 8, r.testStatus), (8, 1, flag r.retest.isSome)]

/-- The status word of the block that raised a fault (R401: DETAIL of the faults Table 15.11 does not list): the register
named <block>_STATUS of the instance the fault lies in. -/
def State.faultStatusWord (s : State) (f : FaultRec) : Nat :=
  match f.code / 256 with
  | 4 => if f.loc.part < 16 ∧ f.loc.die < 8 then (s.quern f.loc.part f.loc.die).statusWord else 0
  | 5 => s.mem.statusWord
  | 6 => if f.loc.part < 16 then (s.weir f.loc.part).statusWord else 0
  | 7 => if f.ctx < 4096 then (s.ctx f.ctx).statusWord f.ctx else s.eth.cmdStatus
  | 8 => s.sec.statusWord
  | 9 => s.life.statusWord
  | 10 => s.ras.testStatusWord
  | 11 => s.pwrStatusWord
  | _ => 0

end Sys2Proof.Machine
end

