-- ==== Sys2Proof/Machine/Ops.lean ====
section
/-! DEFINITION. The operations every family shares: sending a message, drawing from the TRNG, and making a fault record
(R400 to R404). -/
namespace Sys2Proof.Machine
open Sys2Proof

/-- A message leaves the device. -/
def State.send (s : State) (m : OutMsg) : State := { s with out := m :: s.out }
def State.sendAll (s : State) (l : List OutMsg) : State := l.foldl State.send s

/-- A quarantined port drops every frame but priority 7, PTP and MKA, and counts it (R303). -/
def State.portDrops (s : State) (k : Nat) : Bool := (s.port k).quarantined
def State.countPortDrop (s : State) (k : Nat) : State := s.modPort k fun x => { x with quarDrops := x.quarDrops + 1 }

/-- An Ihlak packet leaves on a port: a port whose ETH_PORT_MAC is 0 sends none (R306), a quarantined one drops and counts it (R303). -/
def State.sendPacket (s : State) (k : Nat) (h : PktHead) (m : IhlakMsg) : State :=
  if k < 8 ∧ (s.port k).mac = 0 then s
  else if s.portDrops k then s.countPortDrop k
  else s.send (.ihlak h k m)

/-- The partition's port queue sets have stopped: it brakes or is BRAKED (R57). -/
def State.portsStopped (s : State) (p : Nat) : Bool := decide (p < 16) && ((s.part p).gov.braking || (s.part p).state == .braked)

/-- A packet leaves on an Ihlak session: its SEQ counter goes up (R277). No collective packet leaves a partition that brakes (R57). -/
def State.sendOn (s : State) (n : Nat) (m : IhlakMsg) : State :=
  let c := s.sec.session n
  if m.collective && s.portsStopped c.part then s
  else (s.modSec fun x => x.setSession n { c with seqOut := c.seqOut + 1 }).sendPacket c.port
    (m.head c.part c.peerSession (1 - c.peerSender) c.seqOut) m

/-- A packet leaves unsealed, with SESSION 0, as device traffic (R314, R373). -/
def State.sendPlain (s : State) (k : Nat) (m : IhlakMsg) : State :=
  (s.modSec fun x => { x with plainSeq := x.plainSeq + 1 }).sendPacket k (m.head 0xFF 0 0 s.sec.plainSeq) m

/-- One draw of the TRNG has been taken. -/
def State.draw (s : State) : State := { s with draws := s.draws + 1 }
/-- The 32 bytes of the draw that `draw` takes. -/
def State.drawn (s : State) : List Byte := padTo 32 (Config.trng s.draws)

/-- The encoded identity public key, 68 bytes; empty before GEN_IDENTITY. -/
def Security.identityPk (x : Security) : List Byte :=
  match x.identity with
  | some d => padTo 68 (Config.xmssPublic 20 d)
  | none => []

/-- DEVICE_ID: SHAKE256 (256-bit) of the encoded identity public key (R312); zeros before there is one (R370). -/
def Security.deviceId (x : Security) : List Byte :=
  match x.identity with
  | some _ => shake32 x.identityPk
  | none => List.replicate 32 0

/-! ### Fault records -/

/-- A GUID as UEFI lays it in memory: the first three fields little-endian. -/
def guidBytes (a b c : Nat) (d : List Byte) : List Byte := leBytes 4 a ++ leBytes 2 b ++ leBytes 2 c ++ d

/-- Creator ID (Table 15.9). -/
def creatorGuid : List Byte := guidBytes 0x8c3e1f52 0x7a90 0x4c1d [0xb6, 0xe4, 0x2d, 0x05, 0xa9, 0xf3, 0x17, 0xc8]
/-- Section Type (Table 15.9). -/
def sectionGuid : List Byte := guidBytes 0x4e494c41 0x5300 0x4a15 [0x9c, 0x27, 0x0b, 0x7e, 0x3d, 0x51, 0xa6, 0xf2]
/-- The UEFI CMC notification type. PRESUMED: the UEFI specification's value. -/
def cmcGuid : List Byte := guidBytes 0x2DCE8BB1 0xBDD7 0x450e [0xB9, 0xAD, 0x9C, 0xF4, 0xEB, 0xD4, 0xF8, 0x90]
/-- The UEFI MCE notification type. PRESUMED: the UEFI specification's value. -/
def mceGuid : List Byte := guidBytes 0xE8F56FFE 0x919C 0x4cc5 [0xBA, 0x88, 0x65, 0xAB, 0xE1, 0x49, 0x13, 0xBB]

/-- What a record holds beside its fault: the instant, the step, and what is common to every record. -/
structure RecordEnv where
  mill : Nat
  step : Nat
  count : Nat
  bootCount : Nat
  recCount : Nat
  deviceId : List Byte
  status : Nat
  deriving DecidableEq, Repr

/-- DETAIL (24 bytes): as the fault gives it, else the block's status word (Table 15.11). -/
def recordDetail (f : FaultRec) (e : RecordEnv) : List Byte :=
  padTo 24 (if f.detail.isEmpty then leBytes 8 e.status else f.detail)

/-- The vendor section (Table 15.10); a reduced one hides ADDR, CTX and DETAIL and rounds MILL (R403). -/
def vendorSection (f : FaultRec) (e : RecordEnv) (reduced : Bool) : List Byte :=
  leBytes 2 1 ++ leBytes 2 f.code
  ++ leBytes 2 (pack [(0, 1, flag reduced), (1, 1, flag f.hop), (2, 1, flag f.demoted),
      (3, 1, flag (f.addr.isSome && !reduced)), (4, 1, flag !reduced), (5, 1, flag (f.loc.part != 0xFF))])
  ++ leBytes 1 f.loc.part ++ leBytes 1 f.loc.die
  ++ leBytes 8 (if reduced then e.mill / 1000000 * 1000000 else e.mill)
  ++ leBytes 8 (if f.loc.part = 0xFF then 0 else e.step)
  ++ leBytes 2 (if reduced then 0 else f.ctx) ++ leBytes 1 f.loc.cluster ++ leBytes 1 f.loc.tile ++ leBytes 1 f.loc.unit
  ++ leBytes 1 f.loc.port ++ leBytes 2 e.count
  ++ leBytes 8 (if reduced then 0 else f.addr.getD 0)
  ++ (if reduced then List.replicate 24 0 else recordDetail f e)

/-- A CPER record of 264 bytes: record header, section descriptor, vendor section (R400). PRESUMED: the offsets of the UEFI
record header and section descriptor. -/
def cperBytes (f : FaultRec) (e : RecordEnv) (reduced : Bool) : List Byte :=
  ascii "CPER" ++ leBytes 2 0x0101 ++ leBytes 4 0xFFFFFFFF ++ leBytes 2 1 ++ leBytes 4 f.severity
  ++ leBytes 4 (if f.loc.part = 0xFF then 1 else 5) ++ leBytes 4 264 ++ leBytes 8 0
  ++ padTo 16 e.deviceId ++ padTo 16 (if f.loc.part = 0xFF then [] else leBytes 1 f.loc.part)
  ++ creatorGuid ++ (if f.severity = 2 then cmcGuid else mceGuid)
  ++ leBytes 8 (e.bootCount * 2 ^ 32 + e.recCount % 2 ^ 32) ++ leBytes 4 0 ++ leBytes 8 0 ++ leBytes 12 0
  ++ leBytes 4 200 ++ leBytes 4 64 ++ leBytes 2 0x0100 ++ leBytes 1 0 ++ leBytes 1 0 ++ leBytes 4 1
  ++ sectionGuid ++ leBytes 16 0 ++ leBytes 4 f.severity ++ padTo 20 (ascii "CWN-7200")
  ++ vendorSection f e reduced

/-- The sessions that receive a record: every role 3 session, and with the full record the party sessions whose party holds
FAULTS for the partition its charter is BOUND to (R341, R403). -/
def State.faultParties (s : State) (p : Nat) : List Nat :=
  match s.boundCharter p with
  | none => []
  | some c => s.sec.sessions.filterMap fun e =>
      if e.2.role = 1 ∧ e.2.charter = c ∧
         ((s.sec.charter c).charter.parties[e.2.party]?.any fun y => bit y.telemetry 2) then some e.1 else none

def State.privSessions (s : State) : List Nat := s.sec.sessions.filterMap fun e => if e.2.role = 3 then some e.1 else none

/-- The entry of a key among those that have made a record (R404). -/
def faultKeyIs (f : FaultRec) (k : FaultKey) : Bool := k.code == f.code && k.loc == f.loc

/-- The faults of a key within 1 ms of the record it made are only counted. -/
def Ras.suppresses (r : Ras) (now : Nat) (f : FaultRec) : Bool :=
  r.keys.any fun k => faultKeyIs f k && decide (now < k.last + 1000000)

/-- Count a suppressed fault (COUNT saturates at 0xFFFF). -/
def Ras.countFault (r : Ras) (f : FaultRec) : Ras :=
  { r with keys := r.keys.map fun k => if faultKeyIs f k then { k with count := min (k.count + 1) 0xFFFF } else k }

/-- How many faults of the key were suppressed since its last record. -/
def Ras.suppressed (r : Ras) (f : FaultRec) : Nat := ((r.keys.find? (faultKeyIs f)).map (·.count)).getD 0

/-- A record is made: slot n mod 64 of the ring, and the key's 1 ms starts (R404). -/
def Ras.record (r : Ras) (now : Nat) (f : FaultRec) (bytes : List Byte) : Ras :=
  { r with
    ring := NatMap.set [] r.ring (r.recCount % 64) bytes
    recCount := r.recCount + 1
    keys := { code := f.code, loc := f.loc, last := now, count := 0 } :: r.keys.filter (!faultKeyIs f ·) }

/-- What a record made now would hold beside its fault. -/
def State.recordEnv (s : State) (f : FaultRec) : RecordEnv :=
  { mill := s.now, step := (s.part f.loc.part).gov.step.toNat, count := s.ras.suppressed f, bootCount := s.life.bootCount
    recCount := s.ras.recCount, deviceId := s.sec.deviceId, status := s.faultStatusWord f }

/-- Record a fault (R400 to R404): suppressed by its key, or made a record in the ring and sent as EVENT packets. The
operator's copy is reduced for a partition with CHARTER_BIND. A record of severity Fatal sets BC_ALERT.FATAL (R447). -/
def State.raise (s : State) (f : FaultRec) : State :=
  if s.ras.suppresses s.now f then { s with ras := s.ras.countFault f }
  else
    let e := s.recordEnv f
    let reduced := f.loc.part != 0xFF && s.chartered f.loc.part
    let events := if s.ras.eventEn then
        s.privSessions.map (fun n => (n, cperBytes f e reduced))
          ++ (if reduced then (s.faultParties f.loc.part).map fun n => (n, cperBytes f e false) else [])
      else []
    events.foldl (fun s m => s.sendOn m.1 (.event m.2))
      { s with
        ras := s.ras.record s.now f (cperBytes f e reduced)
        board := if f.severity = 1 then { s.board with fatal := true } else s.board }

def State.raiseAll (s : State) (l : List FaultRec) : State := l.foldl State.raise s

/-! ### Where faults lie (R401) -/

def locPart (p : Nat) : FaultLoc := { part := p }
/-- A unit of a tile: DIE, CLUSTER and TILE are all filled. -/
def State.locTile (s : State) (t unit : Nat) : FaultLoc :=
  { part := (s.tilePart t).getD 0xFF, die := clusterDie (tileCluster t), cluster := tileCluster t, tile := t % 8, unit := unit }
/-- A unit of a cluster: TILE is 0xFF. -/
def State.locCluster (s : State) (c unit : Nat) : FaultLoc :=
  { part := (s.clusterPart c).getD 0xFF, die := clusterDie c, cluster := c, unit := unit }
def locGov (p : Nat) : FaultLoc := { part := p, die := 10, unit := 12 }
def locQuern (p d : Nat) : FaultLoc := { part := p, die := d, unit := 8 }
def locWeir (p : Nat) : FaultLoc := { part := p, die := 10, unit := 13 }
def locSec (p : Nat) : FaultLoc := { part := p, die := 11, unit := 15 }
/-- DEDUCED: Ethernet port k lies on I/O die k / 4, the management port on the control die. -/
def locEth (p port : Nat) : FaultLoc :=
  { part := p, die := if port < 8 then 8 + port / 4 else if port = 8 then 10 else 0xFF, unit := 14, port := port }
/-- The host queues' part of the control die. -/
def locHost (p : Nat) : FaultLoc := { part := p, die := 10 }

end Sys2Proof.Machine
end

