-- ==== Sys2Proof/Machine/Access.lean ====
section
/-! DEFINITION. Who reaches which register: the requesters, their views (R424, R373, R446) and their selects (R429 to R431). -/
namespace Sys2Proof.Machine
open Sys2Proof

/-- A pair of fuses reads as its OR (R377). -/
def Fuses.value (f : Fuses) : Nat := f.a ||| f.b
/-- A burn writes both fuses of each bit (R377). -/
def Fuses.burn (f : Fuses) (mask : Nat) : Fuses := { a := f.a ||| mask, b := f.b ||| mask }

/-- The SVN floor: burned fuses among 64 (R368). -/
def Otp.floor (o : Otp) : Nat := (bitsOf 64 o.svn.value).length

/-- The token digest fused for a target; none before FUSE_DIGEST. -/
def Otp.digest (o : Otp) (n : Nat) : Option (List Byte) :=
  let d := NatMap.get ([], []) o.digests n
  if d.1.isEmpty then none else some (List.zipWith (· ||| ·) d.1 d.2)

/-- The life-cycle state: the largest k for which fuses 1 to k are all burned (R372, R377). -/
def Otp.value (o : Otp) : Nat := ((List.range 5).takeWhile fun k => bit o.counter.value (k + 1)).length
def State.lcState (s : State) : Nat := s.life.otp.value

/-- Priority 7 is heard: not after a tamper event (R360), nor in SCRAP (R372), nor in Deep sleep and Off (Table 16.1). -/
def State.sluiceOpen (s : State) : Bool := !s.mce.tampered && s.lcState != 5 && decide (s.pwr.state < 3)

/-- Every priority is heard: in Sleep only priority 7 is (Table 16.1). -/
def State.netOpen (s : State) : Bool := s.sluiceOpen && s.pwr.state != 2

/-- BLANK, TEST, PROVISIONED and SERVICE give factory access (R373). -/
def State.factoryOpen (s : State) : Bool := s.lcState != 3 && s.lcState != 5

/-- The installation window: MISSION, with key slot 0 not VALID since the transition into it erased the slots (R374). -/
def State.keyWindow (s : State) : Bool := s.lcState == 3 && !(s.sec.slot 0).valid && !s.sec.windowShut

/-- The auth registers of Table 18.5. -/
def boardAuthReg (a : Nat) : Bool :=
  a == 0x7FFFFF0048 || (decide (0xC0080 ≤ a) && decide (a ≤ 0xC0098)) || a == 0x18 || a == 0xD0010 || a == 0xD0030 || a == 0xD0038
  || a == 0xD0048 || a == 0x90048 || a == 0xE0010 || a == 0xE0018 || (decide (0xE0100 ≤ a) && decide (a ≤ 0xE0200))

/-- The open registers of Table 18.5. -/
def boardOpenReg (a : Nat) : Bool :=
  a == 0xC0000 || a == 0xC0040 || a == 0 || a == 0x30 || (decide (0x7FFFFF0000 ≤ a) && decide (a ≤ 0x7FFFFF0040))

/-- The key registers of the installation window (Table 18.5). -/
def boardKeyReg (a : Nat) : Bool :=
  a == 0xB0000 || a == 0xB0018 || (decide (0xB0020 ≤ a) && decide (a ≤ 0xB0040)) || a == 0xB0070

/-- What the board controller reaches (R446): the auth registers after R320 in MISSION and without challenge with factory access, after a
tamper event as before it; nothing in Off, where only the WAKE pin and the island are alive (Table 16.1). -/
def State.boardMay (s : State) (a : Nat) : Bool :=
  a % 8 == 0 && s.pwr.state != 4 &&
  if s.lcState = 5 then a == 0xC0000
  else
    boardOpenReg a
    || (boardAuthReg a && (s.factoryOpen || s.board.isOpen))
    || (boardKeyReg a && s.keyWindow)

/-- A requester reaches P-view address `a` (R424). After a tamper event only the board controller has access (R360). -/
def State.mayP (s : State) (rq : Req) (a : Nat) : Bool :=
  match rq with
  | .session n => (s.sec.session n).role == 3 && s.netOpen
  | .factory => s.factoryOpen && !s.mce.tampered && s.pwr.state != 4
  | .board => s.boardMay a

/-- A requester reaches the U-view window of context `x` (R424). -/
def State.mayU (s : State) (rq : Req) (x : Nat) : Bool :=
  match rq with
  | .session n =>
    let r := (s.sec.session n).role
    let c := s.ctx x
    s.netOpen && (r == 3
      || ((r == 1 || r == 2) && x != 0 && (c.state == .defined || c.state == .resident || c.state == .ended) && c.desc.session == n))
  | .factory => s.factoryOpen && !s.mce.tampered && s.pwr.state != 4
  | .board => false

/-- The selects that a requester holds (R430). -/
def State.sel (s : State) (rq : Req) : Selects :=
  match rq with
  | .session n => NatMap.get {} s.selects n
  | .factory => s.selFactory
  | .board => s.selBoard

def State.setSel (s : State) (rq : Req) (v : Selects) : State :=
  match rq with
  | .session n => { s with selects := NatMap.set {} s.selects n v }
  | .factory => { s with selFactory := v }
  | .board => { s with selBoard := v }

def Selects.part? (x : Selects) : Option Nat := if x.partAll ∨ 16 ≤ x.part then none else some x.part
def Selects.die? (x : Selects) : Option Nat := if x.die < 8 then some x.die else none
def Selects.port? (x : Selects) : Option Nat := if x.port < 9 then some x.port else none
def Selects.dom? (x : Selects) : Option Nat := if x.dom < 691 then some x.dom else none

/-- A command that acts on the partition selected by its requester, where the requester reaches the command's register and the
select is in range. -/
def State.onPart (s : State) (rq : Req) (a : Nat) (f : Nat → State → State) : State :=
  if s.mayP rq a then (match (s.sel rq).part? with | some p => f p s | none => s) else s

/-- The same for the selected partition and die. -/
def State.onPartDie (s : State) (rq : Req) (a : Nat) (f : Nat → Nat → State → State) : State :=
  s.onPart rq a fun p s => match (s.sel rq).die? with | some d => f p d s | none => s

end Sys2Proof.Machine
end

