-- ==== Sys2Proof/Machine/Operands.lean ====
section
/-! DEFINITION. The operand forms of the tile operations: the fields of every TOP layout (Tables 03.6 to 03.11, R81 to
R84), the format codes, and the cells of a tile register that each operand geometry names (R65 to R69, R148). -/
namespace Sys2Proof.Machine
open Sys2Proof

/-- Bits `[lo + w − 1 : lo]` of a TOP. -/
def topField (t : Top) (lo w : Nat) : Nat := (t.extractLsb' lo w).toNat
/-- Bit `i` of a TOP. -/
def topBit (t : Top) (i : Nat) : Bool := t.getLsbD i

/-- OPCODE (R75). -/
def topOpcode (t : Top) : Nat := topField t 0 8
/-- TMASK (R75). -/
def topMask (t : Top) : Nat := topField t 8 8

/-- The bits from `lo` up are all zero: a layout's reserved tail. -/
def topZeroFrom (t : Top) (lo : Nat) : Bool := topField t lo (128 - lo) == 0

/-! ### Format codes (Table 03.3) -/

/-- The classes of Table 03.2. -/
inductive FmtClass where
  | fp32 | w16 | w8 | w4
  deriving DecidableEq, Repr

/-- The class of a format code; `none` for a reserved code. -/
def fmtClass (c : Nat) : Option FmtClass :=
  match c with
  | 0 => some .fp32
  | 1 | 2 => some .w16
  | 3 | 4 | 5 | 6 | 7 | 8 | 10 => some .w8
  | 9 | 11 | 12 => some .w4
  | _ => none

/-- The element width in bits of a class, as it lies in a register (R65: MXFP6 in 8-bit containers). -/
def FmtClass.width : FmtClass → Nat
  | .fp32 => 32 | .w16 => 16 | .w8 => 8 | .w4 => 4

/-- K, the elements of an input vector (Table 03.2). -/
def FmtClass.k : FmtClass → Nat
  | .fp32 => 64 | .w16 => 64 | .w8 => 128 | .w4 => 256

/-- G of the operand geometry: the registers of a column-mode group. -/
def FmtClass.g : FmtClass → Nat
  | .fp32 => 1 | .w16 => 1 | .w8 => 2 | .w4 => 4

/-- Element columns of one register at a width. -/
def elemColumns (w : Nat) : Nat := 64 * (32 / w)

/-- The width of a format code's elements (32 for a reserved code, which every check refuses). -/
def fmtWidth (c : Nat) : Nat := ((fmtClass c).map FmtClass.width).getD 32

/-- The block-scaled codes (Table 03.3). -/
def blockScaled (c : Nat) : Bool := c == 5 || c == 6 || c == 7 || c == 8 || c == 9 || c == 12

/-- R65: FMT_X and FMT_W may meet in one MMA. -/
def fmtPairOk (x w : Nat) : Bool :=
  (fmtClass x).isSome && fmtClass x == fmtClass w
    && (decide (x = 10) == decide (w = 10))
    && (decide (x = 11) == decide (w = 11))
    && (decide (x ≠ 12) || w == 12 || w == 9)
    && (decide (w ≠ 12) || x == 12 || x == 9)

/-- The floating layout of a format code's elements; INT8 and INT4 have none. -/
def fmtFloat (c : Nat) : Option FloatFmt :=
  match c with
  | 0 => some fp32Fmt
  | 1 => some bf16Fmt
  | 2 => some fp16Fmt
  | 3 | 5 => some e4m3Fmt
  | 4 | 6 => some e5m2Fmt
  | 7 => some e3m2Fmt
  | 8 => some e2m3Fmt
  | 9 | 12 => some e2m1Fmt
  | _ => none

/-- The value of an element of format code `c` whose bits are `v`, under scale byte `s` where the format has a block
scale (R92 to R98). -/
def fmtElem (c : Nat) (s : Byte) (v : Nat) : Num :=
  match c with
  | 10 => Num.ofRat false (signed 8 v : Int)
  | 11 => Num.ofRat false (signed 4 v : Int)
  | 12 => scaledElem e2m1Fmt (ue5m3 s.toNat) v
  | _ =>
    match fmtFloat c with
    | none => .nan
    | some f =>
      let v := if c == 7 || c == 8 then v % 64 else v
      if blockScaled c then scaledElem f (e8m0 s.toNat) v else f.decode v

/-! ### Cells and elements of a tile register (R66, R148) -/

/-- The key of cell (register r, row i, cell j). -/
def cellKey (r i j : Nat) : Nat := 4096 * r + 64 * i + j
/-- A cell of the register file. -/
def Tile.cell (t : Tile) (r i j : Nat) : Word32 := NatMap.get 0 t.regs (cellKey r i j)
/-- Write a cell of the register file. -/
def Tile.setCell (t : Tile) (r i j : Nat) (v : Word32) : Tile := { t with regs := NatMap.set 0 t.regs (cellKey r i j) v }

/-- Element `j` of a row in the view of width `w`: bits [w·(j mod 32/w) + w − 1 : …] of cell j / (32/w). -/
def Tile.elem (t : Tile) (w r i j : Nat) : Nat := bits (t.cell r i (j / (32 / w))).toNat (w * (j % (32 / w))) w
/-- Write element `j` of a row in the view of width `w`. -/
def Tile.setElem (t : Tile) (w r i j v : Nat) : Tile :=
  let c := j / (32 / w)
  let lo := w * (j % (32 / w))
  let old := (t.cell r i c).toNat
  t.setCell r i c (BitVec.ofNat 32 (old - bits old lo w * 2 ^ lo + v % 2 ^ w * 2 ^ lo))

/-- Byte `b` of row `i` of a register: the layout of scale bytes (R69). -/
def Tile.byteAt (t : Tile) (r i b : Nat) : Byte := BitVec.ofNat 8 (t.elem 8 r i b)

/-- The 64 cells of line `l` of a register: a row (AXIS = 0) or a column (AXIS = 1). -/
def Tile.line (t : Tile) (axis r l : Nat) : List Word32 :=
  (List.range 64).map fun k => if axis = 0 then t.cell r l k else t.cell r k l
/-- Write the 64 cells of a line. -/
def Tile.setLine (t : Tile) (axis r l : Nat) (v : List Word32) : Tile :=
  (v.zipIdx).foldl (fun t p => if axis = 0 then t.setCell r l p.2 p.1 else t.setCell r p.2 l p.1) t

/-- The elements of a line in the view of width 32 or 16 (R148). -/
def lineElems (w : Nat) (cells : List Word32) : List Nat :=
  if w = 32 then cells.map (·.toNat) else (cells.map fun c => [bits c.toNat 0 16, bits c.toNat 16 16]).flatten
/-- The cells of a line from its elements. -/
def lineCells (w : Nat) : List Nat → List Word32
  | [] => []
  | [a] => [BitVec.ofNat 32 a]
  | a :: b :: t => if w = 32 then BitVec.ofNat 32 a :: lineCells w (b :: t)
                   else BitVec.ofNat 32 (a % 65536 + b % 65536 * 65536) :: lineCells w t

/-! ### The MMA (Table 03.8) -/

/-- The fields of one array's part of an MMA: in DUAL, array B takes the _B fields (R76). -/
structure MmaArm where
  wr : Nat
  wq : Nat
  wt : Bool
  wkeep : Bool
  group : Nat
  accRow : Nat
  accOpen : Bool
  accClose : Bool
  xcol : Bool
  xv : Nat
  rows : Nat
  deriving DecidableEq, Repr

/-- The fields of an MMA that both arrays share. -/
structure MmaTop where
  array : Nat
  fmtX : Nat
  fmtW : Nat
  xcol : Bool
  kh : Nat
  xr : Nat
  sx : Nat
  sw : Nat
  deriving DecidableEq, Repr

def mmaTop (t : Top) : MmaTop :=
  { array := topField t 16 2, fmtX := topField t 18 4, fmtW := topField t 22 4, xcol := topBit t 26
    kh := topField t 27 1, xr := topField t 28 5, sx := topField t 73 5, sw := topField t 78 5 }

/-- The fields without _B. -/
def mmaArmA (t : Top) : MmaArm :=
  let dual := topField t 16 2 == 3
  { wr := topField t 50 5, wq := topField t 55 4, wt := topBit t 59, wkeep := topBit t 60, group := topField t 61 3
    accRow := topField t 64 7, accOpen := topBit t 71, accClose := topBit t 72
    xcol := !dual && topBit t 26, xv := topField t 33 9, rows := topField t 42 8 }

/-- Array B's part: in BOTH the block after A's, in DUAL the _B fields, reading columns. -/
def mmaArmB (t : Top) : MmaArm :=
  match topField t 16 2 with
  | 3 =>
    { wr := topField t 83 5, wq := topField t 88 4, wt := topBit t 92, wkeep := topBit t 93, group := topField t 94 3
      accRow := topField t 97 7, accOpen := topBit t 104, accClose := topBit t 105
      xcol := true, xv := topField t 106 9, rows := topField t 115 8 }
  | 2 => let a := mmaArmA t; { a with wq := a.wq + 1 }
  | _ => mmaArmA t

/-- The arrays an MMA names, with each one's part: `false` is array A. -/
def mmaArms (t : Top) : List (Bool × MmaArm) :=
  match topField t 16 2 with
  | 0 => [(false, mmaArmA t)]
  | 1 => [(true, mmaArmB t)]
  | _ => [(false, mmaArmA t), (true, mmaArmB t)]

/-- Registers that input vectors `xv … xv + n − 1` read (R67), at least the first. -/
def mmaInputRegs (c : FmtClass) (xr : Nat) (a : MmaArm) : List Nat :=
  if a.xcol then (List.range c.g).map (xr + ·)
  else
    let n := max a.rows 1
    (List.range ((a.xv + n - 1) / 64 + 1)).filterMap fun i => if a.xv / 64 ≤ i then some (xr + i) else none

/-- Registers that input scales come from (R69). -/
def mmaScaleRegs (fmtX sx : Nat) (a : MmaArm) : List Nat :=
  if blockScaled fmtX then
    let n := max a.rows 1
    (List.range ((a.xv + n - 1) / 64 + 1)).filterMap fun i => if a.xv / 64 ≤ i then some (sx + i) else none
  else []

/-- Registers that the weight block is read from (R68). -/
def mmaWeightRegs (c : FmtClass) (a : MmaArm) : List Nat :=
  if a.wt then (List.range c.g).map (a.wr + ·) else [a.wr]

/-- Element k of input vector v (R67). -/
def mmaInput (t : Tile) (c : FmtClass) (xr kh : Nat) (a : MmaArm) (v k : Nat) : Nat :=
  if a.xcol then t.elem c.width (xr + k / 64) (k % 64) (a.xv + v)
  else
    let u := a.xv + v
    t.elem c.width (xr + u / 64) (u % 64) (if c = .fp32 then k else kh * c.k + k)

/-- The scale byte of element k of input vector v (R69). -/
def mmaInputScale (t : Tile) (sx kh : Nat) (a : MmaArm) (v k : Nat) : Byte :=
  let u := a.xv + v
  t.byteAt (sx + u / 64) (u % 64) (8 * kh + k / 32)

/-- Element k of output column n of the weight block (R68). -/
def mmaWeight (t : Tile) (c : FmtClass) (a : MmaArm) (n k : Nat) : Nat :=
  if a.wt then t.elem c.width (a.wr + k / 64) (k % 64) (32 * a.wq + n)
  else t.elem c.width a.wr (32 * (a.wq % 2) + n) (if c = .fp32 then k else (a.wq / 2 % 2) * c.k + k)

/-- The weight block that a load takes into a buffer: the elements with the scales of SW (R69, R70). -/
def mmaLoadBlock (t : Tile) (c : FmtClass) (fmtW sw : Nat) (a : MmaArm) : WeightBlock :=
  { fmt := fmtW
    elems := NatMap.setList 0 [] 0 ((List.range (32 * c.k)).map fun i => mmaWeight t c a (i / c.k) (i % c.k))
    scales := if blockScaled fmtW then
        NatMap.setList 0 [] 0 ((List.range 256).map fun i => t.byteAt sw (i / 8) (8 * a.wq + i % 8))
      else [] }

/-! ### LOAD and STORE (Table 03.9) -/

structure XferTop where
  space : Nat
  reg : Nat
  tr : Bool
  ew : Nat
  first : Nat
  count : Nat
  cell0 : Nat
  cells : Nat
  offset : Nat
  stride : Nat
  deriving DecidableEq, Repr

def xferTop (t : Top) : XferTop :=
  { space := topField t 16 2, reg := topField t 19 5, tr := topBit t 24, ew := topField t 25 2, first := topField t 27 9
    count := topField t 36 10, cell0 := topField t 46 6, cells := topField t 52 7, offset := topField t 60 32
    stride := topField t 92 20 }

/-- The element width EW names. -/
def XferTop.width (x : XferTop) : Nat := match x.ew with | 0 => 32 | 1 => 16 | 2 => 8 | _ => 4
/-- Bytes of one memory row. -/
def XferTop.rowBytes (x : XferTop) : Nat := if x.tr then 8 * x.width else 4 * x.cells
/-- The extent of R78 for `n` rows. -/
def extent (count stride row : Nat) : Nat := (count - 1) * stride + row

/-! ### The drain family (Table 03.10) -/

structure DrainTop where
  array : Bool
  group : Nat
  accOpen : Bool
  accClose : Bool
  rowOff : Nat
  rows : Nat
  stageEn : Nat
  act : Nat
  deriv : Bool
  aux : Nat
  der : Nat
  outFmt : Nat
  rnd : Nat
  dreg : Nat
  drow : Nat
  dcol : Nat
  space : Nat
  offset : Nat
  stride : Nat
  tin16 : Bool
  deriving DecidableEq, Repr

def drainTop (t : Top) : DrainTop :=
  { array := topBit t 16, group := topField t 17 3, accOpen := topBit t 20, accClose := topBit t 21
    rowOff := topField t 22 7, rows := topField t 29 8, stageEn := topField t 37 7, act := topField t 44 5
    deriv := topBit t 49, aux := topField t 50 5, der := topField t 55 5, outFmt := topField t 60 4
    rnd := topField t 64 2, dreg := topField t 66 5, drow := topField t 71 6, dcol := topField t 77 9
    space := topField t 66 2, offset := topField t 68 32, stride := topField t 100 20, tin16 := topBit t 120 }

/-- Stage `s` runs. -/
def DrainTop.stage (d : DrainTop) (s : Nat) : Bool := bit d.stageEn (s - 1)
/-- Element bytes of one DRAIN_MEM row (R140). -/
def DrainTop.elemBytes (d : DrainTop) : Nat := 4 * fmtWidth d.outFmt
/-- Bytes of one row at the destination: the elements and, for a block-scaled format, the scale byte; 256 for a Tin56
block. -/
def DrainTop.rowBytes (d : DrainTop) (tin : Bool) : Nat :=
  if tin then 256 else d.elemBytes + (if blockScaled d.outFmt then 1 else 0)

/-- The first register of the drain's scale register group (R140). -/
def DrainTop.scaleReg (d : DrainTop) : Nat := if d.deriv then d.der + 2 else d.der

/-! ### VEC, TIN_CVT, Toll and sync operations (Table 03.11, R81 to R84) -/

structure VecTop where
  vop : Nat
  dst : Nat
  src1 : Nat
  src2 : Nat
  src3 : Nat
  axis : Nat
  first : Nat
  count : Nat
  fmt : Nat
  rnd : Nat
  imm : Nat
  deriving DecidableEq, Repr

def vecTop (t : Top) : VecTop :=
  { vop := topField t 16 8, dst := topField t 24 5, src1 := topField t 29 5, src2 := topField t 34 5
    src3 := topField t 39 5, axis := topField t 44 1, first := topField t 45 6, count := topField t 51 7
    fmt := topField t 58 4, rnd := topField t 62 2, imm := topField t 64 64 }

structure TinTop where
  dir : Bool
  tin16 : Bool
  src : Nat
  dst : Nat
  exp : Nat
  first : Nat
  count : Nat
  fmt : Nat
  rnd : Nat
  deriving DecidableEq, Repr

def tinTop (t : Top) : TinTop :=
  { dir := topBit t 16, tin16 := topBit t 17, src := topField t 18 5, dst := topField t 23 5, exp := topField t 28 5
    first := topField t 33 6, count := topField t 39 7, fmt := topField t 46 4, rnd := topField t 50 2 }

def tollAllocFlags (t : Top) : Nat := topField t 16 5
def tollAllocSize (t : Top) : Nat := topField t 24 40
def tollAllocResult (t : Top) : Nat := topField t 64 20
def tollFreeHandle (t : Top) : Nat := topField t 16 32
def tollFreeResult (t : Top) : Nat := topField t 48 20
def syncIndex (t : Top) : Nat := topField t 16 14
def syncValue (t : Top) : Word64 := BitVec.ofNat 64 (topField t 64 64)
def fenceScope (t : Top) : Nat := topField t 16 2

end Sys2Proof.Machine
end

