-- ==== Sys2Proof/Machine/TopChecks.lean ====
section
/-! DEFINITION. The checks a TOP passes in its unit before it starts (R77 to R84, R133, R136, R159), in the one order of
R88: 0x0201, 0x0202, 0x0204, 0x0203, 0x0205, 0x0304. -/
namespace Sys2Proof.Machine
open Sys2Proof

/-- What a tile knows of its partition's stream: the sizes, quotas, tags and orders its TOPs are held to. -/
structure TileEnv where
  /-- bytes of the Granary space of the tile's die (Table 03.4) -/
  granSize : Nat := 0
  syncQuota : Nat := 0
  /-- the tag of group g of array a (0 A, 1 B) at key 8 a + g (R132); 0 is untagged -/
  tags : NatMap Nat := []
  /-- the REDUCE_ORDER codes (R145) -/
  site0 : Nat := 0
  site1 : Nat := 0
  site2 : Nat := 0
  deriving DecidableEq, Repr

/-- The size of a tile address space (Table 03.4). -/
def TileEnv.spaceSize (env : TileEnv) (space : Nat) : Nat :=
  match space with
  | 0 => 2 ^ 20
  | 1 => 2 ^ 24
  | 2 => env.granSize
  | _ => 0

/-- Array A or B of a tile. -/
def Tile.arr (t : Tile) (b : Bool) : MatrixArray := if b then t.arrB else t.arrA
/-- Replace an array of a tile. -/
def Tile.setArr (t : Tile) (b : Bool) (a : MatrixArray) : Tile := if b then { t with arrB := a } else { t with arrA := a }
/-- Group `g` of an array. -/
def MatrixArray.group (a : MatrixArray) (g : Nat) : Group := NatMap.get {} a.groups g
def MatrixArray.setGroup (a : MatrixArray) (g : Nat) (v : Group) : MatrixArray := { a with groups := NatMap.set {} a.groups g v }
/-- The last loaded block of an array (R70). -/
def MatrixArray.lastBlock (a : MatrixArray) : Option WeightBlock := a.last.map fun b => if b then a.buf1 else a.buf0

/-- R68: the weight block of an arm lies inside the register file. -/
def weightBlockOk (c : FmtClass) (a : MmaArm) : Bool :=
  if a.wt then decide (a.wq < elemColumns c.width / 32) && decide (a.wr + c.g ≤ 32)
  else decide (a.wq < 4) && !(c == .fp32 && decide (2 ≤ a.wq)) && decide (a.wr < 32)

/-- R67: the input vectors of an arm lie inside the register file; the first vector is always checked (R77). -/
def inputOk (c : FmtClass) (xr kh : Nat) (a : MmaArm) (dual : Bool) : Bool :=
  let n := max a.rows 1
  if a.xcol then decide (a.xv + n ≤ elemColumns c.width) && (dual || kh == 0) && decide (xr + c.g ≤ 32)
  else decide (a.xv + n ≤ 128) && !(c == .fp32 && kh ≠ 0) && decide (xr + (a.xv + n - 1) / 64 ≤ 31)

/-- R77 first case: an MMA has a field out of range, reads a register beyond T31, or sets a reserved bit. -/
def mmaFieldBad (t : Top) : Bool :=
  let m := mmaTop t
  let arms := mmaArms t
  let dual := m.array == 3
  !topZeroFrom t 123
  || (!dual && topField t 83 40 != 0)
  || (match fmtClass m.fmtX, fmtClass m.fmtW with
      | some c, some cw =>
        arms.any (fun p =>
          let a := p.2
          decide (128 < a.rows) || decide (128 < a.accRow + a.rows)
          || !inputOk c m.xr m.kh a dual
          || (blockScaled m.fmtX && decide (31 < m.sx + (a.xv + max a.rows 1 - 1) / 64))
          || (!a.wkeep && (!weightBlockOk cw a
                || (m.array == 2 && !a.wt && (mmaArmA t).wq % 2 != 0)))
          || (!blockScaled m.fmtW && !a.wkeep && m.sw != 0))
        || (!blockScaled m.fmtX && m.sx != 0)
      | _, _ => true)

/-- R77 second case: the formats break R65 or the block an arm keeps does not meet R70. -/
def mmaFormatBad (t : Top) (tile : Tile) : Bool :=
  let m := mmaTop t
  !fmtPairOk m.fmtX m.fmtW
  || (m.array == 3 && (blockScaled m.fmtX || blockScaled m.fmtW))
  || (mmaArms t).any fun p => p.2.wkeep &&
      (match (tile.arr p.1).lastBlock with | none => true | some b => b.fmt != m.fmtW)

/-- Table 05.1: the state an MMA's arm requires of its group. -/
def mmaGroupOk (a : MmaArm) (g : Group) : Bool := if a.accOpen then g.state == .free else g.state == .opened

/-- The state a drain requires of its group (Table 05.1). -/
def drainGroupOk (op : Nat) (d : DrainTop) (g : Group) : Bool :=
  if op = 7 then d.accClose && !d.accOpen && (g.state == .opened || g.state == .closed)
  else !(d.accOpen && d.accClose) && g.state == .closed

/-- The tag an environment gives group `g` of an array. -/
def TileEnv.tag (env : TileEnv) (arr : Bool) (g : Nat) : Nat := NatMap.get 0 env.tags (8 * flag arr + g)

/-- R133: a tagged group under another tensor identifier. -/
def tagBad (env : TileEnv) (tile : Tile) (arr : Bool) (g : Nat) : Bool :=
  env.tag arr g != 0 && env.tag arr g != tile.sr.tensor

/-- R78: field ranges of a LOAD or STORE (Table 03.9). -/
def xferFieldBad (t : Top) : Bool :=
  let x := xferTop t
  !topZeroFrom t 112 || topBit t 18 || topBit t 59
  || x.space == 3 || decide (512 < x.count) || x.cells == 0 || decide (64 < x.cells)

/-- R78: the geometry and the extent of a LOAD or STORE. -/
def xferBoundsBad (env : TileEnv) (t : Top) : Bool :=
  let x := xferTop t
  x.offset % 4 != 0 || x.stride % 4 != 0
  || (if x.tr then x.cell0 != 0 || x.cells != 64 || decide (elemColumns x.width < x.first + x.count)
      else decide (64 < x.first + x.count) || decide (64 < x.cell0 + x.cells))
  || (x.count != 0 && decide (env.spaceSize x.space < x.offset + extent x.count x.stride x.rowBytes))

/-- R79 and R136: a drain is refused with 0x0202. -/
def drainFieldBad (op : Nat) (t : Top) : Bool :=
  let d := drainTop t
  if op = 7 then !topZeroFrom t 22
  else
    decide (128 < d.rows) || decide (128 < d.rowOff + d.rows)
    || d.rnd == 3 || decide (12 < d.outFmt) || decide (11 < d.act)
    || ((d.act == 10 || d.act == 11) && !d.deriv)
    || ((d.act != 0 || d.deriv) && !d.stage 3)
    || (d.outFmt != 0 && !d.stage 6)
    || (d.deriv && d.rows != 0 && decide (31 < d.der + (d.rowOff + d.rows - 1) / 64))
    || (match op with
        | 4 =>
          !topZeroFrom t 86 || d.stage 7
          || (blockScaled d.outFmt && d.dcol % 32 != 0)
          || decide (elemColumns (fmtWidth d.outFmt) < d.dcol + 32)
          || (d.rows != 0 && decide (31 < d.dreg + (d.drow + d.rows - 1) / 64))
          || (d.rows != 0 && blockScaled d.outFmt && decide (31 < d.scaleReg + (d.drow + d.rows - 1) / 64))
        | 5 =>
          !topZeroFrom t 120 || d.stage 7 || d.space == 3
          || (blockScaled d.outFmt && decide (1 < d.rows) && decide (d.stride < d.elemBytes + 1))
        | _ =>
          !topZeroFrom t 121 || !d.stage 7 || d.stage 6 || d.space == 0 || d.space == 3
          || d.offset % 256 != 0 || d.stride % 256 != 0)

/-- R79: the extent of DRAIN_MEM and DRAIN_TIN, checked as R78. -/
def drainBoundsBad (env : TileEnv) (op : Nat) (t : Top) : Bool :=
  let d := drainTop t
  (op == 5 || op == 6) &&
    (d.offset % 4 != 0 || d.stride % 4 != 0
     || (d.rows != 0 && decide (env.spaceSize d.space < d.offset + extent d.rows d.stride (d.rowBytes (op == 6)))))

/-- What Table 06.1 says of a VOP: the sources it uses (bit 0 SRC1, bit 1 SRC2, bit 2 SRC3), the formats it takes, and
the IMM bits it uses. -/
structure VopInfo where
  srcs : Nat
  fmts : List Nat
  imm : Nat
  deriving DecidableEq, Repr

/-- Table 06.1; `none` for a reserved VOP. -/
def vopInfo (v : Nat) : Option VopInfo :=
  let f := [0, 1, 2]
  match v with
  | 0x01 | 0x02 | 0x03 => some ⟨3, f, 0⟩
  | 0x04 | 0x05 => some ⟨7, f, 0⟩
  | 0x06 => some ⟨1, f, 2 ^ 64 - 1⟩
  | 0x07 => some ⟨3, f, 127⟩
  | 0x08 => some ⟨7, f, 127⟩
  | 0x09 | 0x0A => some ⟨3, f, 0⟩
  | 0x0B | 0x0C => some ⟨1, f, 0⟩
  | 0x0D => some ⟨3, f, 0⟩
  | 0x0E => some ⟨7, f, 0⟩
  | 0x10 => some ⟨1, [0], 0⟩
  | 0x11 => some ⟨0, [0], 2 ^ 32 - 1⟩
  | 0x12 => some ⟨1, [0], 0⟩
  | 0x20 | 0x21 | 0x22 | 0x23 | 0x24 | 0x25 | 0x26 | 0x27 | 0x28 | 0x29 => some ⟨1, f, 0⟩
  | 0x32 => some ⟨3, [0], 0x3F03⟩
  | 0x30 | 0x31 | 0x33 | 0x34 | 0x35 => some ⟨1, [0], 0x3F03⟩
  | 0x40 | 0x41 | 0x42 | 0x43 | 0x44 => some ⟨3, [0], 0⟩
  | 0x45 | 0x46 | 0x47 => some ⟨1, [0], 31⟩
  | 0x50 => some ⟨1, [0, 1, 2, 3, 4, 10], 0xFFFFFFFF000000FF⟩
  | 0x60 => some ⟨0, [0], 2 ^ 64 - 1⟩
  | 0x61 => some ⟨0, [0], 0⟩
  | _ => none

/-- Elements per line of a FMT (R148). -/
def lineCount (fmt : Nat) : Nat := if fmt = 0 then 64 else 128

/-- The CVT codes that take a scale (R157). -/
def cvtScaled (c : Nat) : Bool := c == 3 || c == 4 || c == 10

/-- R157: the constraints on a CVT. -/
def cvtBad (x : VecTop) : Bool :=
  let tgt := bits x.imm 0 4
  x.axis != 0 || !([0, 1, 2, 3, 4, 10].contains tgt)
  || decide (elemColumns (fmtWidth x.fmt) < 64 * bits x.imm 4 2 + 64)
  || decide (elemColumns (fmtWidth tgt) < 64 * bits x.imm 6 2 + 64)
  || (if cvtScaled x.fmt || cvtScaled tgt then
        let s := fp32Fmt.decode (bits x.imm 32 32)
        !(s.isFinite && Num.lt (.fin false 0) s)
      else bits x.imm 32 32 != 0)

/-- R159: a VEC is refused with 0x0202. -/
def vecFieldBad (t : Top) : Bool :=
  let x := vecTop t
  match vopInfo x.vop with
  | none => true
  | some i =>
    !(i.fmts.contains x.fmt) || decide (64 < x.first + x.count) || x.rnd == 3
    || (!bit i.srcs 0 && x.src1 != 0) || (!bit i.srcs 1 && x.src2 != 0) || (!bit i.srcs 2 && x.src3 != 0)
    || (x.imm &&& i.imm) != x.imm
    || ((x.vop == 0x07 || x.vop == 0x08) && decide (lineCount x.fmt ≤ bits x.imm 0 7))
    || (x.vop == 0x12 && (x.axis != 0 || x.dst == x.src1))
    || (decide (0x30 ≤ x.vop) && decide (x.vop ≤ 0x35) &&
          (bits x.imm 0 2 == 3
           || (bits x.imm 0 2 == 2 && x.count != 0 && decide (63 < bits x.imm 8 6 + (x.first + x.count - 1) / 32))))
    || (x.vop == 0x50 && cvtBad x)
    || (x.vop == 0x60 && (x.axis != 0 || x.first != 0 || !(x.count == 0 || x.count == 1)))
    || (x.vop == 0x61 && (x.axis != 0 || x.first != 0 || !(x.count == 0 || x.count == 16)))

/-- R159: a TIN_CVT is refused with 0x0202. -/
def tinFieldBad (t : Top) : Bool :=
  let x := tinTop t
  !topZeroFrom t 52 || decide (64 < x.first + x.count) || decide (1 < x.fmt) || x.rnd == 3

/-- TMASK names more than one tile. -/
def manyTiles (t : Top) : Bool := decide (1 < (bitsOf 8 (topMask t)).length)

/-- The first fault a TOP records (R88), or `none` where it may start. -/
def topFault (env : TileEnv) (tile : Tile) (t : Top) : Option Nat :=
  let op := topOpcode t
  let first := fun (l : List (Bool × Nat)) => (l.find? (·.1)).map (·.2)
  match op with
  | 0 => first [(!topZeroFrom t 16, 0x0202)]
  | 1 => first
      [(mmaFieldBad t, 0x0202), (mmaFormatBad t tile, 0x0204),
       ((mmaArms t).any (fun p => !mmaGroupOk p.2 ((tile.arr p.1).group p.2.group)), 0x0205),
       ((mmaArms t).any (fun p => tagBad env tile p.1 p.2.group), 0x0304)]
  | 2 | 3 => first [(xferFieldBad t, 0x0202), (xferBoundsBad env t, 0x0203)]
  | 4 | 5 | 6 | 7 =>
    let d := drainTop t
    first
      [(drainFieldBad op t, 0x0202), (drainBoundsBad env op t, 0x0203),
       (!drainGroupOk op d ((tile.arr d.array).group d.group), 0x0205),
       (tagBad env tile d.array d.group, 0x0304)]
  | 8 => first [(vecFieldBad t, 0x0202)]
  | 9 => first [(tinFieldBad t, 0x0202)]
  | 10 => first [(!topZeroFrom t 84 || topField t 21 3 != 0 || manyTiles t || tollAllocResult t % 8 != 0, 0x0202),
      (topBit t 16 && tollAllocResult t == 0xFFFF8, 0x0203)]
  | 11 => first [(!topZeroFrom t 68 || manyTiles t || tollFreeResult t % 8 != 0, 0x0202)]
  | 12 => first [(topField t 30 34 != 0, 0x0202), (decide (env.syncQuota ≤ syncIndex t), 0x0203)]
  | 13 => first [(topField t 30 34 != 0 || manyTiles t, 0x0202), (decide (env.syncQuota ≤ syncIndex t), 0x0203)]
  | 14 => first [(!topZeroFrom t 18 || fenceScope t == 3, 0x0202)]
  | _ => some 0x0201

end Sys2Proof.Machine
end

