-- ==== Sys2Proof/Machine/Flags.lean ====
section
/-! DEFINITION. The flags and counts that arithmetic leaves behind: the sticky indicators of an accumulation group
(R126, R131) and the statistics block of a tile (R139, R143, R144). -/
namespace Sys2Proof.Machine
open Sys2Proof

/-- A 32-bit count that saturates (R143). -/
def sat32 (n : Nat) : Nat := min n 0xFFFFFFFF
/-- A 16-bit count that saturates. -/
def sat16 (n : Nat) : Nat := min n 0xFFFF

/-- R144: the addition is an update: it adds something. -/
def StatAdd.isUpdate (a : StatAdd) : Bool :=
  a.amax != 0 || a.values != 0 || a.ovf != 0 || a.nan != 0 || a.inf != 0 || a.ovfG != 0 || a.nanG != 0 || a.subn != 0

/-- R139: the histogram bin of a value. -/
def statBin (x : Num) : Nat :=
  match x with
  | .fin _ m =>
    if m = 0 then 0 else
    let e := floorLog2 m
    if e ≤ -46 then 1 else if 15 ≤ e then 62 else (e + 47).toNat
  | _ => 63

/-- Add to a record; counts saturate. -/
def StatRec.add (r : StatRec) (a : StatAdd) : StatRec :=
  { r with
    amax := if r.amax.toNat < a.amax.toNat then a.amax else r.amax
    values := sat32 (r.values + a.values)
    ovfElems := sat32 (r.ovfElems + a.ovf)
    nanElems := sat32 (r.nanElems + a.nan)
    infBlocks := sat32 (r.infBlocks + a.inf)
    ovfGroups := sat32 (r.ovfGroups + a.ovfG)
    nanGroups := sat32 (r.nanGroups + a.nanG)
    subn := sat32 (r.subn + a.subn)
    bins := a.bins.foldl (fun m b => NatMap.modify 0 m b (fun n => sat32 (n + 1))) r.bins }

/-- R144: the record an update under tensor `tag` goes to: the valid one with that tag, else the lowest that is not
valid; `none` where all eight are valid and none matches. -/
def statSlot (stats : NatMap StatRec) (tag : Nat) : Option Nat :=
  match (List.range 8).find? (fun k => let r := NatMap.get {} stats k; r.valid && r.tag == tag) with
  | some k => some k
  | none => (List.range 8).find? fun k => !(NatMap.get ({} : StatRec) stats k).valid

/-- R144: make an update under tensor `tag`; the flag tells that it was lost (fault 0x0303). -/
def Tile.statUpdate (t : Tile) (tag : Nat) (a : StatAdd) : Tile × Bool :=
  if !a.isUpdate then (t, false) else
  match statSlot t.stats tag with
  | none => (t, true)
  | some k =>
    let r := NatMap.get {} t.stats k
    let r := if r.valid then r else { valid := true, tag := tag }
    ({ t with stats := NatMap.set {} t.stats k (r.add a) }, false)

/-- R131: what a group's indicators add when it is rolled up. -/
def Group.rollup (g : Group) : StatAdd := { ovfG := flag g.ovf, nanG := flag g.nan, subn := g.subn }

/-- R143: the 64 cells of row `i` of the statistics block as STAT_READ copies it. -/
def statRow (stats : NatMap StatRec) (i : Nat) : List Word32 :=
  let r := NatMap.get {} stats (i / 2)
  if i % 2 = 0 then
    let w := fun n => BitVec.ofNat 32 n
    [w (flag r.valid * 2 ^ 31 + r.tag % 2 ^ 24), r.amax, w r.values, w r.ovfElems, w r.nanElems, w r.infBlocks,
     w r.ovfGroups, w r.nanGroups, w r.subn] ++ List.replicate 55 0
  else (List.range 64).map fun b => BitVec.ofNat 32 (NatMap.get 0 r.bins b)

/-- R153: what the result elements of a Counted vector operation add: an overflow where the result is infinite or
saturated while every input is finite, a NaN where the result is NaN. -/
def countResult (inputsFinite : Bool) (result : Num) (saturated : Bool) : StatAdd :=
  { ovf := flag (inputsFinite && (saturated || (match result with | .inf _ => true | _ => false)))
    nan := flag result.isNan }

/-- Two additions made together. -/
def StatAdd.plus (a b : StatAdd) : StatAdd :=
  { amax := if a.amax.toNat < b.amax.toNat then b.amax else a.amax
    values := a.values + b.values, ovf := a.ovf + b.ovf, nan := a.nan + b.nan, inf := a.inf + b.inf
    ovfG := a.ovfG + b.ovfG, nanG := a.nanG + b.nanG, subn := a.subn + b.subn, bins := a.bins ++ b.bins }

end Sys2Proof.Machine
end

