-- ==== Sys2Proof/Machine/PowerOps.lean ====
section
/-! DEFINITION. Operating points (R414 to R416): the point a die should run at, and the move toward it. -/
namespace Sys2Proof.Machine
open Sys2Proof

/-- The voltage of an operating point in mV (Table 16.3). -/
def oppMv : Nat → Nat
  | 0 => 800 | 1 => 720 | 2 => 660 | 3 => 600 | _ => 550

/-- The fastest operating point that a voltage supports; 4 where it supports none. -/
def mvOpp (mv : Nat) : Nat := ((List.range 5).find? fun i => decide (oppMv i ≤ mv)).getD 4

/-- The lowest index hinted by a partition with a cluster on die `d`, or 0 (R415). -/
def State.hintOn (s : State) (d : Nat) : Nat :=
  let l := s.pwr.hints.filterMap fun e => if (s.partDies e.1).contains d then e.2.map (·.index) else none
  (l.foldl (fun a i => match a with | none => some i | some b => some (min b i)) none).getD 0

/-- The operating point due on die `d`: the largest of its indices (R415, R416); CAP 5 to 7 act as 4. -/
def State.oppTarget (s : State) (d : Nat) : Nat :=
  let x := s.pwr.die d
  max (max (min x.cap 4) x.thermal) (max (max x.power x.vrLimit) (s.hintOn d))

/-- Start the move that die `d` is due (R416): down switches the frequency first, up commands the voltage first. A move under
way is finished before the next starts; a die held by a failed AVSBus does not move. -/
def State.retarget (s : State) (d : Nat) : State :=
  let x := s.pwr.die d
  let t := s.oppTarget d
  if x.avsHeld || x.move.isSome || t == x.inForce then s
  else if x.inForce < t then
    (s.modPwr fun p => p.setDie d { x with inForce := t, move := some (t, false) }).send (.avs d (oppMv t))
  else (s.modPwr fun p => p.setDie d { x with move := some (t, true) }).send (.avs d (oppMv t))

def State.retargetAll (s : State) : State := (List.range 8).foldl State.retarget s

/-- A brake, a step abandonment or a rebinding ends a partition's hints at once (R415). -/
def State.endHint (s : State) (p : Nat) : State :=
  (s.partDies p).foldl State.retarget (s.modPwr fun x => { x with hints := NatMap.set none x.hints p none })

end Sys2Proof.Machine
end

