-- ==== Sys2Proof/Machine/Memory.lean ====
section
/-! DEFINITION. Granary, HBM and Pond: addresses (R14, R15, R207, R216, R288), the protected line (R345 to R352), objects and
their handles (R213, R214), and the heaps Toll allocates from (R216 to R218). -/
namespace Sys2Proof.Machine
open Sys2Proof

/-! ### Granary -/

/-- Bytes of a Granary slice: 96 MiB. -/
def sliceBytes : Nat := 96 * 1048576

/-- The slices of die `d` in a partition's Granary space (Table 03.4): its slices there, in rising order. -/
def PartMap.slices (m : PartMap) (d : Nat) : List Nat := (bitsOf 64 m.granary).filter fun i => i / 8 == d

/-- The slices of a heap on die `d`: the whole die for context 0 (R288). -/
def State.heapSlices (s : State) (x d : Nat) : List Nat :=
  if x = 0 then (List.range 8).map (8 * d + ·) else (s.part (s.ctx x).desc.part).map.slices d

/-- The key of byte `off` of a Granary space made of `sl`. -/
def granKey (sl : List Nat) (off : Nat) : Nat := sliceBytes * sl.getD (off / sliceBytes) 0 + off % sliceBytes

def readGran (m : NatMap Byte) (sl : List Nat) (off len : Nat) : List Byte :=
  (List.range len).map fun i => NatMap.get 0 m (granKey sl (off + i))
def writeGran (m : NatMap Byte) (sl : List Nat) (off : Nat) (bs : List Byte) : NatMap Byte :=
  bs.zipIdx.foldl (fun m b => NatMap.set 0 m (granKey sl (off + b.2)) b.1) m

/-! ### The protected line -/

/-- What an engine presents for a line: the identifier, the generation of its keys and, in Pond, the epoch (R347, R348). -/
structure Cred where
  kid : Nat
  gen : Nat
  epoch : Nat := 0
  deriving DecidableEq, Repr

/-- The tag of line `n` passes: the line was written under these keys and this epoch at this address. -/
def LineMeta.tagOk (l : LineMeta) (c : Cred) (n : Nat) : Bool :=
  l.written && l.kid == c.kid && l.keyGen == c.gen && l.epoch == c.epoch && l.la == n

/-- The aligned 4-bit symbols of a line that an error touches. -/
def errorSymbols (e : Nat) : Nat := ((List.range 144).filter fun i => bits e (4 * i) 4 != 0).length

/-- What CODE makes of a line (R345): it corrects one symbol and detects two. -/
inductive CodeFind where
  | clean | corrected | uncorrectable | missed
  deriving DecidableEq, Repr

def codeFind (e : Nat) : CodeFind :=
  if e = 0 then .clean
  else if errorSymbols e ≤ 1 then .corrected
  else if errorSymbols e = 2 ∨ Config.codeDetects e then .uncorrectable
  else .missed

/-- What an engine finds on a read or a partial write, in the order CODE, POISON, TAG (R351, Table 13.3). -/
inductive LineFind where
  | good | corrected | uncorrectable | poison | tagFail
  deriving DecidableEq, Repr

/-- Line `n` as an engine finds it. An error that CODE misses is met by TAG, which it fails. -/
def LineMeta.find (l : LineMeta) (c : Cred) (n : Nat) : LineFind :=
  let f := codeFind l.error
  if f = .uncorrectable then .uncorrectable else if l.poisoned then .poison
  else if !l.tagOk c n ∨ f = .missed then .tagFail
  else if f = .corrected then .corrected else .good

/-- The fault a read raises (Table 13.3). -/
def LineFind.readFault : LineFind → Option Nat
  | .good | .corrected => none | .uncorrectable => some 0x0509 | .poison => some 0x0508 | .tagFail => some 0x0507

/-- The fault a partial write raises (Table 13.3). -/
def LineFind.writeFault : LineFind → Option Nat
  | .good | .corrected => none | .uncorrectable => some 0x0509 | .poison => some 0x0508 | .tagFail => some 0x0508

def Dram.line (d : Dram) (n : Nat) : LineMeta := NatMap.get {} d.lines n
def Dram.setLine (d : Dram) (n : Nat) (l : LineMeta) : Dram := { d with lines := NatMap.set {} d.lines n l }
/-- POISON is set by rewriting the side bits with a fresh CODE. -/
def Dram.poison (d : Dram) (n : Nat) : Dram := d.setLine n { d.line n with poisoned := true, error := 0 }
/-- A corrected line is written back. -/
def Dram.correct (d : Dram) (n : Nat) : Dram := d.setLine n { d.line n with error := 0 }
def Dram.get (d : Dram) (a : Nat) : Byte := NatMap.get 0 d.bytes a
def Dram.put (d : Dram) (a : Nat) (bs : List Byte) : Dram := { d with bytes := NatMap.setList 0 d.bytes a bs }

/-- The result of a transfer: the first failing line's fault and address (R352), and what the checks count. -/
structure LineOutcome where
  fault : Option (Nat × Nat) := none
  corr : Nat := 0
  uncorr : Nat := 0
  tagFails : Nat := 0
  poisoned : Nat := 0
  deriving DecidableEq, Repr

/-- Two parts of one transfer: the first failing line is the earlier part's where it has one. -/
def LineOutcome.join (a b : LineOutcome) : LineOutcome :=
  { fault := a.fault.orElse fun _ => b.fault, corr := a.corr + b.corr, uncorr := a.uncorr + b.uncorr
    tagFails := a.tagFails + b.tagFails, poisoned := a.poisoned + b.poisoned }

def LineOutcome.note (o : LineOutcome) (code addr : Nat) : LineOutcome :=
  if o.fault.isSome then o else { o with fault := some (code, addr) }

/-- Take one line of a read. -/
def Dram.readLine (c : Cred) (p : Dram × LineOutcome) (n : Nat) : Dram × LineOutcome :=
  match (p.1.line n).find c n with
  | .good => p
  | .corrected => (p.1.correct n, { p.2 with corr := p.2.corr + 1 })
  | .uncorrectable => (p.1.poison n, { p.2.note 0x0509 (64 * n) with uncorr := p.2.uncorr + 1, poisoned := p.2.poisoned + 1 })
  | .poison => (p.1, p.2.note 0x0508 (64 * n))
  | .tagFail => (p.1, { p.2.note 0x0507 (64 * n) with tagFails := p.2.tagFails + 1 })

/-- The lines that `len` bytes at `a` touch. -/
def linesOf (a len : Nat) : List Nat := if len = 0 then [] else (List.range ((a + len - 1) / 64 - a / 64 + 1)).map (a / 64 + ·)

/-- Write one line's part of a transfer (Table 13.3): a full line always, a partial one merged only into a good line. -/
def Dram.writeLine (c : Cred) (a : Nat) (bs : List Byte) (p : Dram × LineOutcome) (n : Nat) : Dram × LineOutcome :=
  let lo := max a (64 * n)
  let hi := min (a + bs.length) (64 * n + 64)
  let part := slice bs (lo - a) (hi - lo)
  let fresh : LineMeta := { written := true, kid := c.kid, keyGen := c.gen, epoch := c.epoch, la := n }
  if hi - lo = 64 then ((p.1.put lo part).setLine n fresh, p.2)
  else match (p.1.line n).find c n with
    | .good => (p.1.put lo part, p.2)
    | .corrected => ((p.1.put lo part).correct n, { p.2 with corr := p.2.corr + 1 })
    | .uncorrectable => (p.1.poison n, { p.2.note 0x0509 (64 * n) with uncorr := p.2.uncorr + 1, poisoned := p.2.poisoned + 1 })
    | .poison => (p.1, p.2.note 0x0508 (64 * n))
    | .tagFail => (p.1.poison n, { p.2.note 0x0508 (64 * n) with tagFails := p.2.tagFails + 1, poisoned := p.2.poisoned + 1 })

/-- Bytes read, and what the engine did to the lines it found failing. -/
def Dram.read (d : Dram) (c : Cred) (a len : Nat) : List Byte × Dram × LineOutcome :=
  ((List.range len).map fun i => d.get (a + i), (linesOf a len).foldl (Dram.readLine c) (d, {}))

def Dram.write (d : Dram) (c : Cred) (a : Nat) (bs : List Byte) : Dram × LineOutcome :=
  (linesOf a bs.length).foldl (Dram.writeLine c a bs) (d, {})

def sat32n (n : Nat) : Nat := min n 0xFFFFFFFF

/-- The MCE counters a transfer moves. -/
def Mce.count (m : Mce) (o : LineOutcome) : Mce :=
  { m with eccCorr := sat32n (m.eccCorr + o.corr), eccUncorr := sat32n (m.eccUncorr + o.uncorr), tagFails := sat32n (m.tagFails + o.tagFails)
           poisoned := sat32n (m.poisoned + o.poisoned) }

/-! ### Objects -/

def HBM_SET : Nat := 9 * 1073741824
/-- The first allocatable byte of a channel set: the lowest 256 MiB of set 0 hold staged streams (R15). PRESUMED: channel set n
occupies device bytes n × 9 GiB upward. -/
def hbmSetBase (n : Nat) : Nat := HBM_SET * n + (if n = 0 then 268435456 else 0)
/-- Allocatable bytes of a channel set. -/
def hbmSetRoom (n : Nat) : Nat := HBM_SET - (if n = 0 then 268435456 else 0)

/-- The device address of byte `h` of a context's HBM heap: interleaved over its channel sets at 4 KiB (R216). -/
def CtxDesc.hbmAddr (d : CtxDesc) (h : Nat) : Nat :=
  let sets := bitsOf 64 d.hbmSets
  let n := max sets.length 1
  hbmSetBase (sets.getD (h / 4096 % n) 0) + d.hbmOff + h / 4096 / n * 4096 + h % 4096

/-- Byte `a` of a Pond space made of extents (base and count in 256 MiB units, R19). -/
def pondAddr : List (Nat × Nat) → Nat → Nat
  | [], a => a
  | (b, n) :: t, a => if a < n * 268435456 then b * 268435456 + a else pondAddr t (a - n * 268435456)

/-- Where Pond keeps the data byte of a usable address: channel and channel offset (R207, R346). -/
def pondPlace (a : Nat) : Nat × Nat := (a / 4096 % 16, a / 65536 / 7 * 32768 + a / 65536 % 7 * 4096 + a % 4096)

/-- Where Pond keeps the side word of a usable line: in line order behind the 448 lines of its unit (R346). -/
def pondSidePlace (l : Nat) : Nat × Nat :=
  let d := pondPlace (64 * l)
  (d.1, d.2 / 32768 * 32768 + 28672 + 8 * (d.2 % 32768 / 64))

/-- The I/O die of a Pond channel, as a DIE code: eight channels on each (R207). -/
def pondDie (channel : Nat) : Nat := 8 + channel / 8

/-- The usable Pond address of byte `h` of a context's Pond heap (R288). -/
def State.pondHeapAddr (s : State) (x h : Nat) : Nat :=
  let d := (s.ctx x).desc
  if x = 0 then d.pondOff + h else pondAddr (s.part d.part).map.pond (d.pondOff + h)

/-- The identifier that protects context `x`'s objects (R348). -/
def State.ctxKid (s : State) (x : Nat) : Nat :=
  if x = 0 then 1
  else let ids := (s.part (s.ctx x).desc.part).keyIds; ids.getD (x % max ids.length 1) 0

def State.cred (s : State) (x epoch : Nat) : Cred :=
  let k := s.ctxKid x; { kid := k, gen := (s.mce.keyId k).gen, epoch := epoch }

/-- An object of a context by index. -/
def State.obj (s : State) (x i : Nat) : Obj := NatMap.get {} (s.ctx x).objects i
def State.setObj (s : State) (x i : Nat) (o : Obj) : State :=
  s.modCtx x fun c => { c with objects := NatMap.set {} c.objects i o }

/-- The epoch of a slot of a MIRROR object. -/
def Obj.slotEpoch (o : Obj) (slot : Nat) : Nat := if slot = 0 then o.epoch else o.epochB
def Obj.withSlotEpoch (o : Obj) (slot e : Nat) : Obj := if slot = 0 then { o with epoch := e } else { o with epochB := e }

def handleIndex (h : Nat) : Nat := h % 1048576
def handleGen (h : Nat) : Nat := h / 1048576 % 4096
def Obj.handle (o : Obj) (i : Nat) : Nat := i + 1048576 * o.gen

/-- The object a handle names, where it is current (R213, R214 check 1). -/
def State.current (s : State) (x h : Nat) : Option Obj :=
  let o := s.obj x (handleIndex h)
  if handleIndex h ≠ 0 ∧ o.live = true ∧ o.gen = handleGen h ∧ h < 4294967296 then some o else none

/-- The ways an engine reaches an object (R208 to R210). -/
inductive Access where
  /-- a Leat OBJECT segment as source, from HBM or Pond -/
  | leatRead
  /-- a COPY pass with a Pond destination -/
  | pondWrite
  /-- Leat SPILL or COPY into HBM, RDMA, Ihlak and copy-engine writes -/
  | hbmWrite
  /-- Leat FILL into a window, and Leat SPILL out of one: the STREAM flag (R223) -/
  | window
  | rdmaRead
  | copyRead
  /-- a sealed release, of SOURCE 1 where `weights` (R337) -/
  | release (weights : Bool)
  | mirrorWrite
  deriving DecidableEq, Repr

/-- What the object's placement and state allow (Table 09.2, Table 09.3, R210). -/
def Obj.allows (o : Obj) (a : Access) : Bool :=
  match o.tier with
  | .granary => a == .window && bit o.flags 3
  | .hbm =>
    if o.heldHbm then a == .release true
    else (match a with
      | .leatRead => true | .hbmWrite => true | .rdmaRead => true | .copyRead => true | .release _ => true | _ => false)
  | .pond =>
    (match o.state, a with
    | .plain, .mirrorWrite => true
    | .opened, .pondWrite => true
    | .sealed, .leatRead => true
    | .sealed, .rdmaRead => true
    | .sealed, .copyRead => true
    | .sealed, .release _ => true
    | .held, .release true => true
    | _, _ => false)

/-- R214: the checks before any byte moves. -/
def State.checkObj (s : State) (x h off len : Nat) (a : Access) : Except Nat Obj :=
  match s.current x h with
  | none => .error 0x0501
  | some o =>
    if o.size < off + len then .error 0x0502
    else if o.allows a then .ok o else .error 0x0503

/-- The address of byte `off` of an object: device HBM, usable Pond, or heap Granary space. -/
def State.objAddr (s : State) (x : Nat) (o : Obj) (off : Nat) : Nat :=
  match o.tier with
  | .hbm => (s.ctx x).desc.hbmAddr (o.base + off)
  | .pond => s.pondHeapAddr x (o.base + off)
  | .granary => ((s.ctx x).desc.granary.getD o.die (0, 0)).1 + o.base + off

/-- The runs of consecutive bytes that `len` bytes at `off` lie in, 4 KiB at most each: (address, length). `n` bounds them. -/
def State.objRuns (s : State) (x : Nat) (o : Obj) : (n off len : Nat) → List (Nat × Nat)
  | 0, _, _ => []
  | n + 1, off, len =>
    if len = 0 then []
    else
      let l := min len (4096 - (o.base + off) % 4096)
      (s.objAddr x o off, l) :: s.objRuns x o n (off + l) (len - l)

/-- Read a protected tier in runs. -/
def Dram.readRuns (c : Cred) : List (Nat × Nat) → Dram → List Byte × Dram × LineOutcome
  | [], d => ([], d, {})
  | (a, l) :: t, d =>
    let r := d.read c a l
    let q := Dram.readRuns c t r.2.1
    (r.1 ++ q.1, q.2.1, r.2.2.join q.2.2)

/-- Write a protected tier in runs. -/
def Dram.writeRuns (c : Cred) : List (Nat × Nat) → List Byte → Dram → Dram × LineOutcome
  | [], _, d => (d, {})
  | (a, l) :: t, bs, d =>
    let r := d.write c a (bs.take l)
    let q := Dram.writeRuns c t (bs.drop l) r.1
    (q.1, r.2.join q.2)

/-- Read `len` bytes of an object: the bytes, the first failing line, and the state the checks leave. -/
def State.readObj (s : State) (x : Nat) (o : Obj) (off len : Nat) : List Byte × Option (Nat × Nat) × State :=
  let runs := s.objRuns x o (len / 4096 + 2) off len
  match o.tier with
  | .granary => (readGran s.granary (s.heapSlices x o.die) (s.objAddr x o off) len, none, s)
  | .hbm =>
    let r := Dram.readRuns (s.cred x 0) runs s.hbm
    (r.1, r.2.2.fault, { s with hbm := r.2.1, mce := s.mce.count r.2.2 })
  | .pond =>
    let r := Dram.readRuns (s.cred x o.epoch) runs s.pond
    (r.1, r.2.2.fault, { s with pond := r.2.1, mce := s.mce.count r.2.2 })

/-- Write bytes into an object. -/
def State.writeObj (s : State) (x : Nat) (o : Obj) (off : Nat) (bs : List Byte) : Option (Nat × Nat) × State :=
  let runs := s.objRuns x o (bs.length / 4096 + 2) off bs.length
  match o.tier with
  | .granary => (none, { s with granary := writeGran s.granary (s.heapSlices x o.die) (s.objAddr x o off) bs })
  | .hbm =>
    let r := Dram.writeRuns (s.cred x 0) runs bs s.hbm
    (r.2.fault, { s with hbm := r.1, mce := s.mce.count r.2 })
  | .pond =>
    let r := Dram.writeRuns (s.cred x o.epoch) runs bs s.pond
    (r.2.fault, { s with pond := r.1, mce := s.mce.count r.2 })

/-! ### Transfers with failing lines (R352) -/

/-- The pieces of a range cut at the lines of its object: (offset, length). `n` bounds them. -/
def linePieces : (n off len : Nat) → List (Nat × Nat)
  | 0, _, _ => []
  | n + 1, off, len =>
    if len = 0 then [] else
      let l := min len (64 - off % 64)
      (off, l) :: linePieces n (off + l) (len - l)

/-- What a read of a range delivered: the runs of bytes of its good lines, (offset in the range, bytes), and the first failing line. -/
structure Delivered where
  runs : List (Nat × List Byte) := []
  fail : Option (Nat × Nat) := none
  deriving DecidableEq, Repr

/-- Take up one piece behind those already read: its bytes join the last run where they follow it. -/
def Delivered.add (d : Delivered) (off : Nat) (bs : List Byte) (f : Option (Nat × Nat)) : Delivered :=
  match f with
  | some x => { d with fail := d.fail.orElse fun _ => some x }
  | none =>
    match d.runs with
    | (o, l) :: t => if o + l.length = off then { d with runs := (o, l ++ bs) :: t } else { d with runs := (off, bs) :: d.runs }
    | [] => { d with runs := [(off, bs)] }

/-- Read a range of an object line by line (R352: the other lines of a transfer complete). -/
def State.deliverObj (s : State) (x : Nat) (o : Obj) (off len : Nat) : Delivered × State :=
  let r := s.readObj x o off len
  if r.2.1.isNone then ({ runs := if len = 0 then [] else [(0, r.1)] }, r.2.2)
  else
    let q := (linePieces (len / 64 + 2) off len).foldl (fun (a : Delivered × State) p =>
      let r := a.2.readObj x o p.1 p.2
      (a.1.add (p.1 - off) r.1 r.2.1, r.2.2)) ({}, s)
    ({ q.1 with runs := q.1.runs.reverse }, q.2)

/-- Write runs at an offset of an object: the first failing line, and the state. -/
def State.writeRunsObj (s : State) (x : Nat) (o : Obj) (off : Nat) (l : List (Nat × List Byte)) : Option (Nat × Nat) × State :=
  l.foldl (fun a p =>
    let r := a.2.writeObj x o (off + p.1) p.2
    (a.1.orElse fun _ => r.1, r.2)) (none, s)

/-! ### Key identifiers -/

/-- An identifier is assigned to a partition with keys drawn from the TRNG, and its epoch counter restarts at 1 (R347 to R350). -/
def State.assignKey (s : State) (p k : Nat) : State :=
  let key := fun n => padTo 32 (Config.trng (s.draws + n))
  { s with
    draws := s.draws + 3
    mce := s.mce.setKeyId k
      { state := .assigned, part := p, gen := (s.mce.keyId k).gen + 1, epoch := 1, k1 := key 0, k2 := key 1, kt := key 2 } }

/-- The ten engines that hold an identifier's keys: the compute dies' and the two Pond engines (R350). -/
def allEngines : Nat := 0x3FF

/-- Retirement begins: no engine has confirmed yet. -/
def KeyId.retire (i : KeyId) : KeyId := { i with state := .retiring, confirmed := 0 }

/-- Every engine has overwritten the identifier's keys and confirmed: it is FREE, and no line of it passes its tag again (R350). -/
def KeyId.freed (i : KeyId) : KeyId := { gen := i.gen, confirmed := allEngines }

/-- Take the next Pond epoch of an identifier (R348). -/
def State.takeEpoch (s : State) (kid : Nat) : Nat × State :=
  let k := s.mce.keyId kid
  (k.epoch, { s with mce := s.mce.setKeyId kid { k with epoch := k.epoch + 1 } })

/-! ### Heaps -/

def Tier.granule : Tier → Nat
  | .granary => 4096 | .hbm => 65536 | .pond => 2097152

def roundUp (n g : Nat) : Nat := (n + g - 1) / g * g

/-- The bytes a context's heap holds in a tier; `none` where it has no heap there. -/
def CtxDesc.heapLen (d : CtxDesc) (t : Tier) (die : Nat) : Option Nat :=
  let n := match t with
    | .granary => (d.granary.getD die (0, 0)).2
    | .hbm => (bitsOf 64 d.hbmSets).length * d.hbmLen
    | .pond => d.pondLen
  if n = 0 then none else some n

/-- Bytes of the granules that hold the object table (R289). -/
def CtxDesc.tableBytes (d : CtxDesc) : Nat := roundUp (16 * d.objMax) 65536

/-- The ranges of a heap that are taken: (base, length), in whole granules. -/
def State.heapUsed (s : State) (x : Nat) (t : Tier) (die : Nat) : List (Nat × Nat) :=
  let here := fun (t' : Tier) (d' : Nat) => t' == t && (t != .granary || d' == die)
  (if t = .hbm then [(0, (s.ctx x).desc.tableBytes)] else [])
  ++ (s.ctx x).objects.filterMap (fun e =>
      if e.2.live && here e.2.tier e.2.die then some (e.2.base, roundUp e.2.size t.granule) else none)
  ++ s.pendingFrees.filterMap (fun f =>
      if f.ctx == x && here f.tier f.die then some (f.base, roundUp f.size t.granule) else none)

/-- First fit at the lowest address: the free ranges start at 0 or at the end of a range in use. -/
def firstFit (len need : Nat) (used : List (Nat × Nat)) : Option Nat :=
  let starts := 0 :: used.map fun r => r.1 + r.2
  let ok := fun a => decide (a + need ≤ len) && used.all fun r => decide (a + need ≤ r.1) || decide (r.1 + r.2 ≤ a)
  (starts.filter ok).foldl (fun b a => match b with | none => some a | some c => some (min a c)) none

/-- The placement that a FLAGS value names (Table 09.2). -/
def flagsTier (f : Nat) : Option Tier :=
  match f with
  | 0x01 => some .granary | 0x09 => some .granary | 0x02 => some .hbm | 0x04 => some .pond | 0x14 => some .pond | _ => none

/-- The lowest index at or above 2 that is free with a generation below 0xFFF (R292). -/
def State.freeIndex (s : State) (x : Nat) : Option Nat :=
  NatMap.findFrom {} (s.ctx x).objects (fun o => !o.live && decide (o.gen < 0xFFF)) 2 ((s.ctx x).desc.objMax - 2)

/-- Place an object of `size` bytes; an OPEN object takes its epoch now, each version of a MIRROR object when it is written (R348). -/
def State.allocAt (s : State) (x die flags size : Nat) (t : Tier) (i base : Nat) : Nat × State :=
  let e := if t = .pond ∧ flags = 0x04 then s.takeEpoch (s.ctxKid x) else (0, s)
  let st : ObjState := if flags = 0x04 then .opened else .plain
  let o : Obj := { live := true, gen := (s.obj x i).gen, flags := flags, tier := t, die := die, base := base, size := size
                   state := st, epoch := e.1 }
  (o.handle i, e.2.setObj x i o)

/-- Allocate as Toll does: the status of Table 09.4 and the handle (R216, R217). SIZE is not 0. -/
def State.allocate (s : State) (x die flags size : Nat) : Nat × Nat × State :=
  match flagsTier flags with
  | none => (3, 0, s)
  | some t =>
    match (s.ctx x).desc.heapLen t die with
    | none => (5, 0, s)
    | some len =>
      let need := roundUp size t.granule
      if len < need then (4, 0, s)
      else match s.freeIndex x with
        | none => (2, 0, s)
        | some i =>
          match firstFit len need (s.heapUsed x t die) with
          | none => (1, 0, s)
          | some base => let r := s.allocAt x die flags size t i base; (0, r.1, r.2)

/-- A transfer that passed its checks under this object's handle is in flight (R218). -/
def State.objBusy (s : State) (x i gen : Nat) : Bool :=
  (s.copyJobs.any fun j =>
      (j.ctx == x && j.srcIdx == i && j.srcObj.gen == gen)
      || ((if j.kind = 2 then 0 else j.ctx) == x && j.dstIdx == i && j.dstObj.gen == gen))
  || (s.qps.any fun q => q.2.onCtx == x && q.2.write.any fun w => handleIndex w.1 == i && w.2.1.gen == gen)
  || (x != 0 && (s.partClusters (s.ctx x).desc.part).any fun c =>
        (List.range 16).any fun k => (s.leat c k).holds.any (·.contains (x, i + 1048576 * gen)))

/-- Free an object: its generation rises at once, and its granules return when no transfer holds it (R218). -/
def State.freeIdx (s : State) (x i origin : Nat) : State :=
  let o := s.obj x i
  let s' := s.setObj x i { gen := o.gen + 1 }
  if s.objBusy x i o.gen then
    { s' with pendingFrees := { ctx := x, index := i, gen := o.gen, tier := o.tier, die := o.die, base := o.base, size := o.size
                                origin := origin } :: s'.pendingFrees }
  else s'

/-- Free by handle: the status, and whether the granules still wait for transfers. -/
def State.freeHandle (s : State) (x h origin : Nat) : Nat × State :=
  match s.current x h with
  | none => (6, s)
  | some _ => (0, s.freeIdx x (handleIndex h) origin)

/-- The home context of a partition (R287). -/
def State.home (s : State) (p : Nat) : Option Nat :=
  (s.ctxs.find? fun e => e.1 != 0 && e.2.desc.home && e.2.desc.part == p &&
    (e.2.state == .defined || e.2.state == .resident)).map (·.1)

/-- Read an operator object (context 0), as LOAD commands of the control die do: BOUNDS where the handle is not current or the
length passes the object. -/
def State.operatorObj (s : State) (h len : Nat) : Option Obj :=
  match s.current 0 h with
  | none => none
  | some o => if o.size < len then none else some o

end Sys2Proof.Machine
end

