-- ==== Sys2Proof/Machine/Accumulate.lean ====
section
/-! DEFINITION. The matrix arrays: the exact column reduction (R125), Bronze accumulation (R126), the weight buffers (R70)
and the group states an MMA moves through (Table 05.1). -/
namespace Sys2Proof.Machine
open Sys2Proof

/-- R125: one column over one input vector. The operands come as pairs; `split` tells the three-pass FP32 class, whose
finite sum is that of the passes. An exact zero is +0. -/
def columnSum (ps : List (Num × Num)) (exact : Rat) : Num :=
  let prods := ps.map fun p => p.1.mul p.2
  if prods.any Num.isNan || ps.any (fun p => p.1.isNan || p.2.isNan) then .nan
  else if prods.contains (.inf false) && prods.contains (.inf true) then .nan
  else if prods.contains (.inf false) then .inf false
  else if prods.contains (.inf true) then .inf true
  else Num.ofRat false exact

/-- The exact sum of products. -/
def sumProducts (ps : List (Num × Num)) : Rat := ps.foldl (fun a p => a + p.1.toRat * p.2.toRat) 0

/-- R106: the exact sum of the three passes over FP32 operand words. -/
def sumPasses (ws : List (Word32 × Word32)) : Rat :=
  ws.foldl (fun a p =>
    let hx := (splitHigh p.1).toRat; let lx := (splitLow p.1).toRat
    let hw := (splitHigh p.2).toRat; let lw := (splitLow p.2).toRat
    a + hx * hw + hx * lw + lx * hw) 0

/-- Result of column n for input vector v (R125). -/
def mmaColumn (t : Tile) (m : MmaTop) (c : FmtClass) (a : MmaArm) (b : WeightBlock) (v n : Nat) : Num :=
  let elems := (List.range c.k).map fun k =>
    (mmaInput t c m.xr m.kh a v k, NatMap.get 0 b.elems (c.k * n + k), k)
  let ps := elems.map fun e =>
    (fmtElem m.fmtX (if blockScaled m.fmtX then mmaInputScale t m.sx m.kh a v e.2.2 else 0) e.1,
     fmtElem b.fmt (if blockScaled b.fmt then NatMap.get 0 b.scales (8 * n + e.2.2 / 32) else 0) e.2.1)
  if c = .fp32 then
    columnSum ps (sumPasses (elems.map fun e => (BitVec.ofNat 32 e.1, BitVec.ofNat 32 e.2.1)))
  else columnSum ps (sumProducts ps)

/-- R126's flush: a non-zero subnormal becomes a zero of the same sign; the flag counts it. -/
def flush (w : Word32) : Word32 × Nat :=
  if bits w.toNat 23 8 = 0 ∧ bits w.toNat 0 23 ≠ 0 then (w &&& 0x80000000#32, 1) else (w, 0)

/-- rn32 of a sum of FP32 words. -/
def add32 (a b : Word32) : Word32 := rn32 ((num32 a).add (num32 b))
def sub32 (a b : Word32) : Word32 := rn32 ((num32 a).sub (num32 b))
def mul32 (a b : Word32) : Word32 := rn32 ((num32 a).mul (num32 b))

/-- R126's two_sum. -/
def twoSum (a b : Word32) : Word32 × Word32 :=
  let s := add32 a b
  let bv := sub32 s a
  let av := sub32 s bv
  (s, add32 (sub32 a av) (sub32 b bv))

/-- What bronze_add leaves: the pair, and what it does to the group's sticky indicators. -/
structure Bronze where
  s : Word32
  c : Word32
  ovf : Bool := false
  nan : Bool := false
  flushed : Nat := 0
  deriving DecidableEq, Repr

/-- Whether an FP32 word is infinite. -/
def isInf32 (w : Word32) : Bool := match num32 w with | .inf _ => true | _ => false

/-- R126: add a column result into a Bronze pair. -/
def bronzeAdd (s c : Word32) (x : Num) : Bronze :=
  if (num32 s).isNan || x.isNan then { s := nan32, c := nan32, nan := true }
  else
    let h := rn32 x
    if isInf32 s || isInf32 h then
      let s' := add32 s h
      if (num32 s').isNan then { s := s', c := nan32, nan := true } else { s := s', c := nan32, ovf := true }
    else
      let l := flush (rn32 (x.sub (num32 h)))
      let st := twoSum s h
      if isInf32 st.1 then { s := st.1, c := nan32, ovf := true, flushed := l.2 }
      else
        let c1 := flush (add32 c l.1)
        let c2 := flush (add32 c1.1 st.2)
        { s := st.1, c := c2.1, flushed := l.2 + c1.2 + c2.2 }

/-- R128: the drained value of a pair. -/
def drained (p : Word64) : Word32 :=
  let s := p.setWidth 32
  match num32 s with
  | .nan => nan32
  | .inf _ => s
  | _ => rn32 ((num32 s).add (num32 ((p >>> 32).setWidth 32)))

/-- Add a column result into cell (row r, column n) of a group. -/
def Group.addResult (g : Group) (r n : Nat) (x : Num) : Group :=
  let p := NatMap.get 0 g.cells (32 * r + n)
  let b := bronzeAdd (p.setWidth 32) ((p >>> 32).setWidth 32) x
  { g with
    cells := NatMap.set 0 g.cells (32 * r + n) (b.c ++ b.s)
    ovf := g.ovf || b.ovf, nan := g.nan || b.nan, subn := sat16 (g.subn + b.flushed) }

/-- Table 05.1: the group when an MMA that streams vectors starts to add. -/
def Group.openFor (g : Group) (a : MmaArm) : Group := if a.accOpen then { state := .opened } else g

/-- Table 05.1: the group after the last vector of an MMA is added. -/
def Group.closeFor (g : Group) (a : MmaArm) : Group := if a.accClose then { g with state := .closed } else g

/-- R67 to R69, R125, R126: stream an arm's input vectors through its array's last loaded block into its group. -/
def Tile.stream (t : Tile) (m : MmaTop) (arr : Bool) (a : MmaArm) : Tile :=
  if a.rows = 0 then t else
  match (t.arr arr).lastBlock, fmtClass m.fmtX with
  | some b, some c =>
    let g := ((t.arr arr).group a.group).openFor a
    let g := (List.range a.rows).foldl (fun g v =>
      (List.range 32).foldl (fun g n => g.addResult (a.accRow + v) n (mmaColumn t m c a b v n)) g) g
    t.setArr arr ((t.arr arr).setGroup a.group g)
  | _, _ => t

/-- R70: load an arm's weight block into the buffer not in use. -/
def Tile.loadWeights (t : Tile) (m : MmaTop) (arr : Bool) (a : MmaArm) : Tile :=
  if a.rows = 0 || a.wkeep then t else
  match fmtClass m.fmtW with
  | none => t
  | some c =>
    let blk := mmaLoadBlock t c m.fmtW m.sw a
    let ar := t.arr arr
    let ar := if ar.last = some false then { ar with buf1 := blk, last := some true }
              else { ar with buf0 := blk, last := some false }
    t.setArr arr ar

/-- Some array of the MMA streams vectors (R77). -/
def mmaStreams (t : Top) : Bool := (mmaArms t).any fun p => p.2.rows != 0
/-- Some array of the MMA loads a weight block (R70, R77). -/
def mmaLoads (t : Top) : Bool := (mmaArms t).any fun p => p.2.rows != 0 && !p.2.wkeep

/-- The weight loads of an MMA, array by array. -/
def Tile.mmaLoad (t : Tile) (top : Top) : Tile :=
  (mmaArms top).foldl (fun t p => t.loadWeights (mmaTop top) p.1 p.2) t
/-- The streams of an MMA, array by array. -/
def Tile.mmaStream (t : Tile) (top : Top) : Tile :=
  (mmaArms top).foldl (fun t p => t.stream (mmaTop top) p.1 p.2) t
/-- The closing of an MMA's groups. -/
def Tile.mmaClose (t : Tile) (top : Top) : Tile :=
  (mmaArms top).foldl (fun t p =>
    if p.2.rows = 0 then t
    else t.setArr p.1 ((t.arr p.1).setGroup p.2.group (((t.arr p.1).group p.2.group).closeFor p.2))) t

end Sys2Proof.Machine
end

