-- ==== Sys2Proof/Machine/Functions.lean ====
section
/-! DEFINITION. The functions that the spec defines only within bounds (R154, R455, Table 05.5, Table 06.2). The exact
function is evaluated in fixed point to far more bits than FP32 holds; the result is the FP32 grid value that the
free deviation of `Config.fnDeviation` picks among those the bound allows. -/
namespace Sys2Proof.Machine
open Sys2Proof

/-- Fraction bits of the fixed-point evaluation. -/
def fixBits : Nat := 512
/-- One in fixed point. -/
def fixOne : Int := 2 ^ fixBits
/-- A rational in fixed point (rounded down). -/
def toFix (q : Rat) : Int := (q * (fixOne : Rat)).floor
/-- The rational of a fixed-point number. -/
def ofFix (v : Int) : Rat := (v : Rat) / (fixOne : Rat)
/-- The product of two fixed-point numbers. -/
def fixMul (a b : Int) : Int := a * b / fixOne

/-- The series Σ t_k with t_{k+1} = next k t_k, summed for `fuel` terms. -/
def seriesSum (next : Nat → Int → Int) : (fuel k : Nat) → (t acc : Int) → Int
  | 0, _, _, acc => acc
  | fuel + 1, k, t, acc => seriesSum next fuel (k + 1) (next k t) (acc + t)

/-- e^r for a fixed-point r of magnitude at most 1. -/
def expSmall (r : Int) : Int := seriesSum (fun k t => fixMul t r / (k + 1 : Nat)) 120 0 fixOne 0

/-- 2 · artanh y = ln((1 + y)/(1 − y)) for |y| ≤ 1/3: the odd powers of y over their exponents. -/
def twoAtanhLoop (y2 : Int) : (fuel k : Nat) → (p acc : Int) → Int
  | 0, _, _, acc => 2 * acc
  | fuel + 1, k, p, acc => twoAtanhLoop y2 fuel (k + 1) (fixMul p y2) (acc + p / (2 * k + 1 : Nat))
def twoAtanh (y : Int) : Int := twoAtanhLoop (fixMul y y) 180 0 y 0

/-- ln 2 in fixed point. -/
def ln2Fix : Int := twoAtanh (fixOne / 3)

/-- e^q for a rational q, as a rational. Below −800 the value is under every FP32 grid step and the stand-in 2⁻¹¹⁰⁰ is
returned; above 800 it is beyond the FP32 range and 2¹¹⁰⁰ is. -/
def expRat (q : Rat) : Rat :=
  if q < -800 then pow2 (-1100) else if 800 < q then pow2 1100 else
  let k : Int := (toFix q) / ln2Fix
  ofFix (expSmall (toFix q - k * ln2Fix)) * pow2 k

/-- ln q for a positive rational q. -/
def lnRat (q : Rat) : Rat :=
  let k := floorLog2 q
  let m := q / pow2 k
  ofFix (twoAtanh (toFix ((m - 1) / (m + 1))) + k * ln2Fix)

/-- The logistic function, accurate in relative terms on both sides. -/
def sigmoidRat (q : Rat) : Rat := if 0 ≤ q then 1 / (1 + expRat (-q)) else let e := expRat q; e / (1 + e)

/-- A stand-in for a value just below 1, of which it is closer than any grid step. -/
def belowOne : Rat := 1 - pow2 (-1100)

/-- The hyperbolic tangent. -/
def tanhRat (q : Rat) : Rat :=
  let a := ratAbs q
  if a < pow2 (-60) then q
  else if 400 < a then (if q < 0 then -belowOne else belowOne)
  else let e := expRat (2 * q); (e - 1) / (e + 1)

/-- arctan of 1/n in fixed point, n ≥ 2. -/
def atanInvLoop (n2 : Int) : (fuel k : Nat) → (p acc : Int) → Int
  | 0, _, _, acc => acc
  | fuel + 1, k, p, acc => atanInvLoop n2 fuel (k + 1) (-(p / n2)) (acc + p / (2 * k + 1 : Nat))
/-- π in fixed point (Machin's formula). -/
def piFix : Int :=
  4 * (4 * atanInvLoop 25 130 0 (fixOne / 5) 0 - atanInvLoop (239 * 239) 130 0 (fixOne / 239) 0)

/-- The integer square root, from the top bit down. -/
def isqrtLoop (n : Nat) : (fuel acc : Nat) → Nat
  | 0, acc => acc
  | fuel + 1, acc =>
    let c := acc + 2 ^ fuel
    isqrtLoop n fuel (if c * c ≤ n then c else acc)
def isqrt (n : Nat) : Nat := isqrtLoop n (n.log2 / 2 + 1) 0

/-- The square root of a non-negative rational, cut to 2^(−700) and with the cut marked by half a unit below it, so
that rounding it to FP32 rounds the exact root. -/
def sqrtRat (q : Rat) : Rat :=
  let n := (q * pow2 1400).floor.toNat
  let r := isqrt n
  if ((r : Rat) * (r : Rat)) = q * pow2 1400 then (r : Rat) * pow2 (-700) else ((r : Rat) + 1 / 2) * pow2 (-700)

/-- The terms (−1)^n x^(2n+1) / (n! (2n+1)) of erf's series; `p` is (−1)^n x^(2n+1) / n!. -/
def erfLoop (x2 : Int) : (fuel n : Nat) → (p acc : Int) → Int
  | 0, _, _, acc => acc
  | fuel + 1, n, p, acc => erfLoop x2 fuel (n + 1) (-(fixMul p x2 / (n + 1 : Nat))) (acc + p / (2 * n + 1 : Nat))
/-- erf of a rational. -/
def erfRat (q : Rat) : Rat :=
  if ratAbs q < pow2 (-60) then q * 2 / sqrtRat (ofFix piFix)
  else if 11 < ratAbs q then (if q < 0 then -belowOne else belowOne)
  else ofFix (erfLoop (fixMul (toFix q) (toFix q)) 420 0 (toFix q) 0) * 2 / sqrtRat (ofFix piFix)

/-- Φ, the distribution function of the standard normal law: (1 + erf(z/√2))/2, accurate far into the lower tail. -/
def phiRat (z : Rat) : Rat :=
  if z < -15 then pow2 (-1100) else (1 + erfRat (z / sqrtRat 2)) / 2
/-- φ, its density. -/
def phiDensRat (z : Rat) : Rat := expRat (-(z * z) / 2) / sqrtRat (2 * ofFix piFix)

/-- The FP32 value that unit `unit`'s function `fn` gives for input bits `x`, whose exact value is `v`: a finite value within `b`
units in the last place of the exact value, and 2⁻¹⁴⁹ more where `extra` (R154, R455); ±∞ where the exact value exceeds the FP32 range.
The free deviation is counted in half units, so that it reaches every value within the bound, also across a power of two. A zero takes
sign `zneg`. -/
def boundedFp32 (unit fn b : Nat) (extra : Bool) (x : Word64) (zneg : Bool) (v : Rat) : Word32 :=
  let m := ratAbs v
  let neg := if v = 0 then zneg else decide (v < 0)
  if fp32Fmt.maxFinite < m then rn32 (.inf neg) else
  let half := fp32Fmt.ulp m / 2
  let d : Int := ((Config.fnDeviation unit fn x % (4 * b + 9) : Nat) : Int) - (2 * b + 4 : Nat)
  let cand := (m / half).floor + d
  let w := rn32 (.fin neg ((cand : Rat) * half))
  let err := ratAbs ((num32 w).mag - m)
  if 0 ≤ cand ∧ (num32 w).isFinite ∧ err ≤ (b : Rat) * fp32Fmt.ulp m + (if extra then pow2 (-149) else 0) then w
  else rn32 (.fin neg m)

/-! ### The functions of the vector engine (Table 06.2) -/

/-- The FP32 result of the function with VOP `vop` (0x20 to 0x29) on input bits `x`; special inputs first. -/
def vecFunction (vop : Nat) (x : Word32) : Word32 :=
  let bd := fun b extra v => boundedFp32 0 vop b extra (x.setWidth 64) ((num32 x).neg?) v
  match vop, num32 x with
  | _, .nan => nan32
  | 0x20, .inf n => rn32 (.fin n 0)
  | 0x20, .fin n m => if m = 0 then rn32 (.inf n) else bd 1 true (1 / (Num.fin n m).toRat)
  | 0x21, .inf n => if n then nan32 else rn32 (.inf false)
  | 0x21, .fin n m => if m = 0 then x else if n then nan32 else rn32 (.fin false (sqrtRat m))
  | 0x22, .inf n => if n then nan32 else rn32 (.fin false 0)
  | 0x22, .fin n m => if m = 0 then rn32 (.inf n) else if n then nan32 else bd 2 false (1 / sqrtRat m)
  | 0x23, .inf n => if n then rn32 (.fin false 0) else rn32 (.inf false)
  | 0x23, .fin n m => bd 2 true (expRat (Num.fin n m).toRat)
  | 0x24, .inf n => if n then rn32 (.fin false 0) else rn32 (.inf false)
  | 0x24, .fin n m => bd 1 true (expRat ((Num.fin n m).toRat * ofFix ln2Fix))
  | 0x25, .inf n => if n then nan32 else rn32 (.inf false)
  | 0x25, .fin n m =>
    if m = 0 then rn32 (.inf true) else if n then nan32
    else if m = 1 then rn32 (.fin false 0) else bd 2 false (lnRat m)
  | 0x26, .inf n => if n then nan32 else rn32 (.inf false)
  | 0x26, .fin n m =>
    if m = 0 then rn32 (.inf true) else if n then nan32
    else if m = 1 then rn32 (.fin false 0) else bd 2 false (lnRat m / ofFix ln2Fix)
  | 0x27, .inf n => rn32 (.fin n 1)
  | 0x27, .fin n m => bd 4 true (tanhRat (Num.fin n m).toRat)
  | 0x28, .inf n => if n then rn32 (.fin false 0) else rn32 (.fin false 1)
  | 0x28, .fin n m => bd 4 true (sigmoidRat (Num.fin n m).toRat)
  | 0x29, .inf n => rn32 (.fin n 1)
  | 0x29, .fin n m => bd 4 true (erfRat (Num.fin n m).toRat)
  | _, _ => nan32

/-! ### The activations of drain stage 3 (Table 05.5) -/

/-- The constants of the tanh form of GELU, as the table writes them. -/
def geluC : Rat := 7978846 / 10000000
def geluK : Rat := 44715 / 1000000

/-- Codes 3 to 9 forward: the result for input bits `x`. -/
def actForward (act : Nat) (x : Word32) : Word32 :=
  let bd := fun v => boundedFp32 1 act 4 true (x.setWidth 64) ((num32 x).neg?) v
  match act, num32 x with
  | _, .nan => nan32
  | 3, .inf n => if n then rn32 (.fin true 0) else rn32 (.inf false)
  | 3, .fin n m =>
    let v := (Num.fin n m).toRat
    bd (v * sigmoidRat (2 * geluC * (v + geluK * v * v * v)))
  | 4, .inf n => if n then rn32 (.fin true 0) else rn32 (.inf false)
  | 4, .fin n m => let v := (Num.fin n m).toRat; bd (v * phiRat v)
  | 5, .inf n => if n then rn32 (.fin true 0) else rn32 (.inf false)
  | 5, .fin n m => let v := (Num.fin n m).toRat; bd (v * sigmoidRat v)
  | 6, .inf n => if n then rn32 (.fin false 0) else rn32 (.fin false 1)
  | 6, .fin n m => bd (sigmoidRat (Num.fin n m).toRat)
  | 7, .inf n => if n then rn32 (.fin false 0) else rn32 (.fin false 1)
  | 7, .fin n m => boundedFp32 1 6 4 true (x.setWidth 64) false (sigmoidRat (Num.fin n m).toRat)
  | 8, .inf n => rn32 (.fin n 1)
  | 8, .fin n m => bd (tanhRat (Num.fin n m).toRat)
  | 9, .inf n => rn32 (.fin n 1)
  | 9, .fin n m => boundedFp32 1 8 4 true (x.setWidth 64) ((num32 x).neg?) (tanhRat (Num.fin n m).toRat)
  | _, _ => nan32

/-- Codes 3 to 9: rn32(f′(z)) for the saved input bits `z` (codes 7 and 9 save the output). Infinite inputs give the
limits of f′. -/
def actDeriv (act : Nat) (z : Word32) : Word32 :=
  let bd := fun v => boundedFp32 2 act 4 true (z.setWidth 64) false v
  let lim := fun (n : Bool) => if n then rn32 (.fin false 0) else rn32 (.fin false 1)
  match act, num32 z with
  | _, .nan => nan32
  | 3, .inf n => lim n
  | 3, .fin n m =>
    let v := (Num.fin n m).toRat
    let u := geluC * (v + geluK * v * v * v)
    let s := sigmoidRat (2 * u)
    bd (s + v * 2 * s * (1 - s) * geluC * (1 + 3 * geluK * v * v))
  | 4, .inf n => lim n
  | 4, .fin n m => let v := (Num.fin n m).toRat; bd (phiRat v + v * phiDensRat v)
  | 5, .inf n => lim n
  | 5, .fin n m =>
    let v := (Num.fin n m).toRat
    let s := sigmoidRat v
    bd (s * (1 + v * (1 - s)))
  | 6, .inf _ => rn32 (.fin false 0)
  | 6, .fin n m => let s := sigmoidRat (Num.fin n m).toRat; bd (s * (1 - s))
  | 7, w => rn32 (w.mul (Num.sub (.fin false 1) w))
  | 8, .inf _ => rn32 (.fin false 0)
  | 8, .fin n m => let t := tanhRat (Num.fin n m).toRat; bd (1 - t * t)
  | 9, w => rn32 (Num.sub (.fin false 1) (w.mul w))
  | _, _ => nan32

/-- The exp of drain stage 4 (R138): e to the difference x − y of two FP32 values, at most 2 ulp + 2⁻¹⁴⁹ from the
exact value, as one fixed function of the two inputs. -/
def drainExp (x y : Word32) : Word32 :=
  match (num32 x).sub (num32 y) with
  | .nan => nan32
  | .inf n => if n then rn32 (.fin false 0) else rn32 (.inf false)
  | .fin n m => boundedFp32 3 0 2 true (y ++ x) false (expRat (Num.fin n m).toRat)

end Sys2Proof.Machine
end

