-- ==== Sys2Proof/Machine/Drain.lean ====
section
/-! DEFINITION. The drain path: the seven stages of Table 05.3 (R134 to R141), their parameters in AUX_REG and DER_REG,
and where a drain's rows go. -/
namespace Sys2Proof.Machine
open Sys2Proof

/-- The rounding of element `ordinal` of an operation of this tile under RND code `rnd` (R109, R122). -/
def Tile.rnd (t : Tile) (rnd ordinal : Nat) : Rnd :=
  match rnd with
  | 0 => .nearest
  | 1 => .stochastic (srDraw t.sr.k0 t.sr.k1 (srCounter 0 ((t.sr.base + ordinal) % 2 ^ 40)))
  | _ => .zero

/-- One FP32 constant: 1.0. -/
def one32 : Word32 := 0x3F800000#32
/-- Negative infinity. -/
def negInf32 : Word32 := 0xFF800000#32

/-- AUX_REG's per-row FP32 value `base + r / 32`, cell `off + r mod 32` (Table 05.4). -/
def auxRow (t : Tile) (aux base off r : Nat) : Word32 := t.cell aux (base + r / 32) (off + r % 32)

/-- Stage 3 (R137): the activation or derivative of column n of row r. -/
def drainAct (t : Tile) (d : DrainTop) (r n : Nat) (v : Word32) : Word32 :=
  let z := t.cell (d.der + r / 64) (r % 64) n
  let alpha := t.cell d.aux 2 0
  let dr := auxRow t d.aux 4 0 r
  let er := auxRow t d.aux 12 0 r
  let qr := auxRow t d.aux 16 0 r
  let nan := fun (w : Word32) => (num32 w).isNan
  let pos := fun (w : Word32) => Num.lt (.fin false 0) (num32 w)
  if nan v || (d.deriv && nan z) then nan32
  else if d.act = 2 && nan alpha then nan32
  else if (d.act = 10 || d.act = 11) && nan dr then nan32
  else if d.act = 11 && (nan er || nan qr) then nan32
  else if d.deriv then
    match d.act with
    | 0 => mul32 v one32
    | 1 => mul32 v (if pos z then one32 else 0)
    | 2 => mul32 v (if pos z then one32 else alpha)
    | 10 => mul32 z (sub32 v dr)
    | 11 => mul32 qr (sub32 (sub32 v dr) (mul32 z er))
    | a => mul32 v (actDeriv a z)
  else
    match d.act with
    | 0 => v
    | 1 => if pos v then v else 0
    | 2 => if pos v then v else mul32 alpha v
    | a => actForward a v

/-- The balanced binary tree of R145 and R155 over adjacent terms. -/
def pairLevel : List Word32 → List Word32
  | a :: b :: t => add32 a b :: pairLevel t
  | l => l
def pairwiseSum (levels : Nat) (l : List Word32) : Word32 := ((List.range levels).foldl (fun l _ => pairLevel l) l).headD 0

/-- The larger of two FP32 values, with +0 above −0 (neither is NaN). -/
def max32 (a b : Word32) : Word32 :=
  if Num.lt (num32 a) (num32 b) then b
  else if Num.lt (num32 b) (num32 a) then a
  else if (num32 a).neg? then b else a

/-- Stage 4 (R138) on the 32 values of row r: the new values, the new maximum and the new sum. -/
def drainRowStat (site0 : Nat) (vs : List Word32) (mOld sOld : Word32) : List Word32 × Word32 × Word32 :=
  let mu := vs.foldl max32 negInf32
  let mNew := max32 mOld mu
  if vs.any (fun v => (num32 v).isNan) || (num32 mOld).isNan || num32 mNew = .inf false then
    (vs.map fun _ => nan32, nan32, nan32)
  else if num32 mNew = .inf true then (vs.map fun _ => 0, mNew, sOld)
  else
    let ps := vs.map fun v => drainExp v mNew
    let k := if (num32 sOld).isZero || num32 mOld = .inf true then 0 else mul32 sOld (drainExp mOld mNew)
    let s := if site0 = 1 then ps.foldl add32 k else add32 k (pairwiseSum 5 ps)
    (ps, mNew, s)

/-- Stage 6 (R140) on one row: the element bits, the scale byte of a block-scaled format, and what it counts. -/
structure Narrowed where
  elems : List Nat
  scale : Option Nat := none
  ovf : Nat := 0
  nan : Nat := 0
  deriving DecidableEq, Repr

/-- The output tensor scale is not finite and positive for a target that divides by it (R140). -/
def drainScaleBad (t : Tile) (d : DrainTop) : Bool :=
  let s := num32 (t.cell d.aux 2 1)
  d.stage 6 && (d.outFmt == 3 || d.outFmt == 4 || d.outFmt == 12) && !(s.isFinite && Num.lt (.fin false 0) s)

/-- Count the elements of a conversion. -/
def countConvs (cs : List Conv) (scale : Option Nat) : Narrowed :=
  { elems := cs.map (·.bits), scale := scale
    ovf := (cs.filter (·.ovf)).length, nan := (cs.filter (·.nan)).length }

/-- Stage 6 (R140). -/
def drainNarrow (t : Tile) (d : DrainTop) (i : Nat) (vs : List Word32) : Narrowed :=
  let rnd := fun n => t.rnd d.rnd (32 * i + n)
  let ns := vs.map num32
  let sOut := num32 (t.cell d.aux 2 1)
  if drainScaleBad t d then
    if d.outFmt = 12 then { elems := vs.map fun _ => 0, scale := some 0xFF, nan := 32 }
    else { elems := vs.map fun _ => (if d.outFmt = 3 then e4m3Fmt else e5m2Fmt).canonNan, nan := 32 }
  else
    let ofBlock := fun (b : BlockConv) => countConvs b.elems (some b.scale)
    match d.outFmt with
    | 3 | 4 =>
      let f := if d.outFmt = 3 then e4m3Fmt else e5m2Fmt
      let cs := ns.mapIdx fun n x =>
        let q := match x with | .fin s m => Num.fin s (m / sOut.mag) | y => y
        f.narrow (rnd n) q
      countConvs cs none
    | 5 => ofBlock (mxBlock e4m3Fmt rnd ns)
    | 6 => ofBlock (mxBlock e5m2Fmt rnd ns)
    | 7 => ofBlock (mxBlock e3m2Fmt rnd ns)
    | 8 => ofBlock (mxBlock e2m3Fmt rnd ns)
    | 9 => ofBlock (mxBlock e2m1Fmt rnd ns)
    | 12 => ofBlock (pewterBlock sOut rnd ns)
    | 10 => countConvs (ns.mapIdx fun n x => narrowInt 8 (rnd n) x) none
    | 11 => countConvs (ns.mapIdx fun n x => narrowInt 4 (rnd n) x) none
    | 1 => countConvs (ns.mapIdx fun n x => bf16Fmt.narrow (rnd n) x) none
    | 2 => countConvs (ns.mapIdx fun n x => fp16Fmt.narrow (rnd n) x) none
    | _ => countConvs (ns.mapIdx fun n x => fp32Fmt.narrow (rnd n) x) none

/-- What a drain does to its tile and what it sends to memory. -/
structure DrainOut where
  tile : Tile
  /-- byte strings at offsets of SPACE (DRAIN_MEM) -/
  writes : List (Nat × List Byte) := []
  /-- blocks to add at offsets of SPACE (DRAIN_TIN) -/
  adds : List (Nat × TinBlock) := []
  stats : StatAdd := {}
  deriving DecidableEq, Repr

/-- The bytes of packed elements of a width. -/
def packElems (w : Nat) (es : List Nat) : List Byte :=
  leBytes (4 * w) (es.foldr (fun e acc => e % 2 ^ w + 2 ^ w * acc) 0)

/-- Stages 1 to 3 on row r of a group: the 32 values that enter stage 4. -/
def drainRowValues (t : Tile) (d : DrainTop) (r : Nat) : List Word32 :=
  (List.range 32).map fun n =>
    let v := drained (NatMap.get 0 (((t.arr d.array).group d.group).cells) (32 * r + n))
    let v := if d.stage 1 then mul32 v (t.cell d.aux 0 n) else v
    let v := if d.stage 2 then add32 v (t.cell d.aux 1 n) else v
    if d.stage 3 then drainAct t d r n v else v

/-- One row of a drain. `t` is the tile as the drain finds it, `o` what earlier rows have done. DESIGN CHOICE (log entry 170): every
parameter is read as it stood before the drain, also where DREG or the scale registers overlap AUX_REG or DER_REG. -/
def drainRow (env : TileEnv) (op : Nat) (t : Tile) (d : DrainTop) (o : DrainOut) (i : Nat) : DrainOut :=
  let r := d.rowOff + i
  let vs := drainRowValues t d r
  let st := if d.stage 4 then
      drainRowStat env.site0 vs (auxRow t d.aux 8 0 r) (auxRow t d.aux 8 32 r)
    else (vs, 0, 0)
  let tile := if d.stage 4 then
      (o.tile.setCell d.aux (8 + r / 32) (r % 32) st.2.1).setCell d.aux (8 + r / 32) (32 + r % 32) st.2.2
    else o.tile
  let ns := st.1.map num32
  let a5 : StatAdd := if d.stage 5 then
      { amax := rn32 (.fin false (ns.foldl (fun a x => max a x.mag) 0)), values := 32, bins := ns.map statBin }
    else {}
  if op = 6 then
    let e := (t.elem 8 d.aux 3 r)
    let k := if d.tin16 then TinKind.tin16 else .tin24
    let b := tinConvert k e (fun n => t.rnd d.rnd (32 * i + n)) ns
    { o with
      tile := tile
      adds := o.adds ++ [(d.offset + i * d.stride, b)]
      stats := (o.stats.plus a5).plus { inf := flag (b.e == 0xFF) } }
  else
    let nw := if d.stage 6 then drainNarrow t d i st.1 else { elems := st.1.map (·.toNat) }
    let stats := (o.stats.plus a5).plus { ovf := nw.ovf, nan := nw.nan }
    let w := fmtWidth d.outFmt
    if op = 5 then
      let bytes := packElems w nw.elems ++ (match nw.scale with | some s => leBytes 1 s | none => [])
      { o with tile := tile, writes := o.writes ++ [(d.offset + i * d.stride, bytes)], stats := stats }
    else
      let u := d.drow + i
      let tile := nw.elems.zipIdx.foldl (fun t p => t.setElem w (d.dreg + u / 64) (u % 64) (d.dcol + p.2) p.1) tile
      let beta := d.dcol / 32
      let byte := if w = 8 then 8 * (beta / 4) + beta % 4 else beta
      let tile := match nw.scale with
        | some s => tile.setElem 8 (d.scaleReg + u / 64) (u % 64) byte s
        | none => tile
      { o with tile := tile, stats := stats }

/-- The rows of a drain, in order. -/
def drainRows (env : TileEnv) (op : Nat) (t : Tile) (d : DrainTop) : DrainOut :=
  (List.range d.rows).foldl (drainRow env op t d) { tile := t }

/-- Table 05.1: the group's new state. -/
def drainNewState (d : DrainTop) : GroupState :=
  if d.accClose then .free else if d.accOpen then .opened else .closed

/-- What the rows of a drain do within its tile, and what they send and count. -/
def drainStart (env : TileEnv) (op : Nat) (t : Tile) (top : Top) : DrainOut := drainRows env op t (drainTop top)

/-- The group of a drain when the drain is complete (Table 05.1): its state, and what the roll-up of a group that it frees adds
(R131). -/
def drainFinish (t : Tile) (top : Top) : Tile × StatAdd :=
  let d := drainTop top
  let g := (t.arr d.array).group d.group
  if drainNewState d = .free then (t.setArr d.array ((t.arr d.array).setGroup d.group {}), g.rollup)
  else (t.setArr d.array ((t.arr d.array).setGroup d.group { g with state := drainNewState d }), {})

end Sys2Proof.Machine
end

