-- ==== Sys2Proof/Machine/QuernRules.lean ====
section
/-! DEFINITION. The arithmetic of the Quern (R187 to R193, R195) and the rounding key of R120, as functions of bytes. -/
namespace Sys2Proof.Machine
open Sys2Proof

/-- R120: the generator key of a tensor at a step. -/
def roundingKey (seed : List Byte) (step tensor : Nat) : Word64 × Word64 :=
  let h := shake 16 (ascii "NSR1" ++ padTo 32 seed ++ leBytes 8 step ++ leBytes 4 (tensor % 2 ^ 24))
  (BitVec.ofNat 64 (field h 0 8), BitVec.ofNat 64 (field h 8 8))

/-- The prime of the digest (R195). -/
def digestPrime : Nat := 2 ^ 61 - 1

/-- R195: the point r for version `v`. -/
def digestPoint (seed : List Byte) (v : Nat) : Nat :=
  let r := field (shake 8 (ascii "NQD1" ++ padTo 32 seed ++ leBytes 8 v)) 0 8 % digestPrime
  if r < 2 then r + 2 else r

/-- Cut a list into pieces of `n`. -/
def chunksOf {α : Type} (n : Nat) (l : List α) : List (List α) :=
  (List.range ((l.length + n - 1) / n)).map fun i => (l.drop (n * i)).take n

/-! ### The layout of a half (Table 08.4) -/

/-- The parts of a half, in the table's order. -/
inductive HalfPart where
  | head | master | m1 | m2 | scale | rowacc | grad | digest | fwd
  deriving DecidableEq, Repr

def HalfPart.all : List HalfPart := [.head, .master, .m1, .m2, .scale, .rowacc, .grad, .digest, .fwd]

def ruleHasM1 (r : Nat) : Bool := decide (1 ≤ r) && decide (r ≤ 6)
def ruleHasM2 (r : Nat) : Bool := r == 3 || r == 4 || r == 5 || r == 7
def ruleHasScale (r : Nat) : Bool := decide (1 ≤ r) && decide (r ≤ 7)

/-- The set of parts a rule gives (R188): M1, M2, SCALE and ROWACC as bits. -/
def ruleParts (r : Nat) : Nat := pack [(0, 1, flag (ruleHasM1 r)), (1, 1, flag (ruleHasM2 r)), (2, 1, flag (ruleHasScale r)), (3, 1, flag (r == 8))]

/-- Node counts of the digest tree, leaves first (R195). -/
def digestLevels : (fuel : Nat) → (count : Nat) → List Nat
  | 0, _ => []
  | f + 1, c => if c ≤ 1 then [c] else c :: digestLevels f ((c + 63) / 64)

def leafCount (n : Nat) : Nat := (n + 16383) / 16384
def nodeCount (n : Nat) : Nat := (digestLevels 8 (leafCount n)).foldl (· + ·) 0

/-- Bytes of a forward copy of `n` parameters in format `w`. -/
def fwdSize (w n : Nat) : Nat := if w = 1 then 2 * n else if w = 5 ∨ w = 6 then 33 * n / 32 else n

/-- Bytes of a part of a half; 0 where the part is absent. -/
def partSize (sh : Shard) (rule : Nat) : HalfPart → Nat
  | .head => 256
  | .master => 4 * sh.count
  | .m1 => if ruleHasM1 rule then sh.count else 0
  | .m2 => if ruleHasM2 rule then sh.count else 0
  | .scale => if ruleHasScale rule then sh.count / 16 else 0
  | .rowacc => if rule = 8 then 4 * sh.count / max sh.rowLen 1 else 0
  | .grad => 100 * sh.count / 32
  | .digest => 8 * nodeCount sh.count
  | .fwd => if sh.lagged then 0 else fwdSize sh.wFmt sh.count

/-- Each part begins at the next multiple of 256 after the part before it. -/
def pad256 (n : Nat) : Nat := (n + 255) / 256 * 256

def partOffset (sh : Shard) (rule : Nat) (p : HalfPart) : Nat :=
  ((HalfPart.all.takeWhile (· != p)).map fun q => pad256 (partSize sh rule q)).foldl (· + ·) 0

/-- Bytes of a half, with the padding of its last part. -/
def halfLength (sh : Shard) (rule : Nat) : Nat := (HalfPart.all.map fun q => pad256 (partSize sh rule q)).foldl (· + ·) 0

/-- Bytes of a version slot of a lagged shard (R187). -/
def slotLength (sh : Shard) : Nat := pad256 (fwdSize sh.wFmt sh.count)

/-! ### Ingest (R193) -/

/-- The shift of rule 3: the smallest for which every rounded mantissa fits. -/
def ingestShift (m : List Int) : (fuel k : Nat) → Nat
  | 0, k => k
  | f + 1, k =>
    let ok := m.all fun v =>
      let r : Int := roundMag .nearest ((v.natAbs : Nat) : Rat) (pow2 k)
      decide (r ≤ TinKind.tin24.maxMant)
    if ok then k else ingestShift m f (k + 1)

/-- R193: a Tin56 block becomes a Tin24 block. -/
def ingestBlock (b : TinBlock) : TinBlock :=
  if b.e = 0xFF then tinInf 32 else if b.e = 0 then tinZero 32
  else
    let k := ingestShift b.m 40 0
    if 0xFE < b.e + k then tinInf 32
    else ⟨b.e + k, b.m.map fun v =>
      let r : Int := roundMag .nearest ((v.natAbs : Nat) : Rat) (pow2 k)
      if v < 0 then -r else r⟩

/-- The retained gradient of a Tin56 buffer of 256 bytes a block, and whether it holds an infinite block. -/
def ingestBytes (bs : List Byte) : List Byte × Bool :=
  let out := (chunksOf 256 bs).map fun c => ingestBlock (tin56Unpack c)
  ((out.map (tinPack .tin24)).flatten, out.any (·.e == 0xFF))

/-! ### The rules (R189 to R192) -/

/-- The exact quotient: infinity over a zero, NaN for 0/0 and ∞/∞. -/
def Num.div : Num → Num → Num
  | .nan, _ => .nan
  | _, .nan => .nan
  | .inf _, .inf _ => .nan
  | .inf a, .fin b _ => .inf (a != b)
  | .fin a _, .inf b => .fin (a != b) 0
  | .fin a x, .fin b y => if y = 0 then (if x = 0 then .nan else .inf (a != b)) else .fin (a != b) (x / y)

def Num.sqrt : Num → Num
  | .nan => .nan
  | .inf n => if n then .nan else .inf false
  | .fin n m => if m = 0 then .fin n 0 else if n then .nan else .fin false (sqrtRat m)

def div32 (a b : Word32) : Word32 := rn32 ((num32 a).div (num32 b))
def sqrt32 (a : Word32) : Word32 := rn32 (num32 a).sqrt
/-- A product with a stored value that is widened exactly. -/
def mulExact (a : Word32) (x : Num) : Word32 := rn32 ((num32 a).mul x)

/-- `pow_int` of R190, over the bits of t from the top one down. -/
def powBits (b : Word32) (t : Nat) : (k : Nat) → (p : Word32) → Word32
  | 0, p => p
  | k + 1, p =>
    let p := mul32 p p
    powBits b t k (if bit t k then mul32 p b else p)
def powInt (b : Word32) (t : Nat) : Word32 := powBits b t (if t = 0 then 0 else t.log2 + 1) one32

/-- sign(c) of R190. -/
def sign32 (c : Word32) : Word32 :=
  match num32 c with
  | .nan => nan32
  | .inf n => if n then 0xBF800000 else one32
  | .fin n m => if m = 0 then 0 else if n then 0xBF800000 else one32

/-- What a step fixes before it goes over a shard: ob1 and ob2 once per step, c1 and c2 once per shard. -/
structure RuleConsts where
  ob1 : Word32
  ob2 : Word32
  c1 : Word32
  c2 : Word32
  deriving DecidableEq, Repr

def ruleConsts (q : RuleSet) (t : Nat) : RuleConsts :=
  { ob1 := sub32 one32 q.b1, ob2 := sub32 one32 q.b2
    c1 := sub32 one32 (powInt q.b1 t), c2 := sub32 one32 (powInt q.b2 t) }

/-- New weight and moments of one parameter, before narrowing; a moment that the rule does not keep is 0. -/
structure ParamOut where
  w : Word32
  m : Word32 := 0
  v : Word32 := 0
  deriving DecidableEq, Repr

/-- Rules 3, 4 and 5: the moments from `x` and the step u without weight decay. -/
def adamParts (q : RuleSet) (c : RuleConsts) (x : Word32) (m v : Num) : Word32 × Word32 × Word32 :=
  let m' := add32 (mulExact q.b1 m) (mul32 c.ob1 x)
  let v' := add32 (mulExact q.b2 v) (mul32 c.ob2 (mul32 x x))
  (m', v', div32 (div32 m' c.c1) (add32 (sqrt32 (div32 v' c.c2)) q.eps))

/-- The step u of rules 4 and 5. -/
def adamwStep (q : RuleSet) (c : RuleConsts) (g w : Word32) (m v : Num) : Word32 × Word32 × Word32 :=
  let a := adamParts q c g m v
  (a.1, a.2.1, add32 a.2.2 (mul32 q.wd w))

/-- R190 for rules 0 to 8; `lrT` is the rate of rule 5 and `a` the new row accumulator of rule 8. -/
def paramStep (q : RuleSet) (c : RuleConsts) (lrT a g w : Word32) (m v : Num) : ParamOut :=
  let d := add32 g (mul32 q.wd w)
  match q.rule with
  | 0 => { w := sub32 w (mul32 q.lr d) }
  | 1 => let m' := add32 (mulExact q.b1 m) d; { w := sub32 w (mul32 q.lr m'), m := m' }
  | 2 => let m' := add32 (mulExact q.b1 m) d; { w := sub32 w (mul32 q.lr (add32 d (mul32 q.b1 m'))), m := m' }
  | 3 => let r := adamParts q c d m v; { w := sub32 w (mul32 q.lr r.2.2), m := r.1, v := r.2.1 }
  | 4 => let r := adamwStep q c g w m v; { w := sub32 w (mul32 q.lr r.2.2), m := r.1, v := r.2.1 }
  | 5 => let r := adamwStep q c g w m v; { w := sub32 w (mul32 lrT r.2.2), m := r.1, v := r.2.1 }
  | 6 =>
    let e := add32 (mulExact q.b1 m) (mul32 c.ob1 g)
    { w := sub32 w (mul32 q.lr (add32 (sign32 e) (mul32 q.wd w))), m := add32 (mulExact q.b2 m) (mul32 c.ob2 g) }
  | 7 =>
    let v' := add32 (mulExact q.b2 v) (mul32 c.ob2 (mul32 d d))
    { w := sub32 w (mul32 q.lr (div32 d (add32 (sqrt32 v') q.eps))), v := v' }
  | _ => { w := sub32 w (mul32 q.lr (div32 g (add32 (sqrt32 a) q.eps))) }

/-- R192: the pairwise tree within each block of 32, then the blocks in order. -/
def blockSum (l : List Word32) : Word32 :=
  match (chunksOf 32 l).map (pairwiseSum 5) with
  | [] => 0
  | b :: t => t.foldl add32 b

/-! ### A half, and a sweep of it -/

/-- What a half holds, decoded. -/
structure HalfData where
  t : Nat := 0
  master : List Word32 := []
  m1 : List Byte := []
  m2 : List Byte := []
  scale : List Byte := []
  rowacc : List Word32 := []
  grad : List Byte := []
  deriving DecidableEq, Repr

def words32 (bs : List Byte) : List Word32 := (List.range (bs.length / 4)).map fun i => BitVec.ofNat 32 (field bs (4 * i) 4)
def byteAt (bs : List Byte) (i : Nat) : Nat := (bs.getD i 0).toNat

/-- R108: a block-scaled value widened to FP32: exact within its range, ±∞ beyond it. -/
def widen32 (x : Num) : Num :=
  match x with
  | .fin n m => if fp32Fmt.maxFinite < m then .inf n else x
  | y => y

/-- The stored moments of parameter i, widened to FP32 (R99, R108). -/
def HalfData.moment (h : HalfData) (second : Bool) (i : Nat) : Num :=
  if (if second then h.m2 else h.m1).isEmpty then .fin false 0
  else widen32 <| brassElem second (byteAt h.scale (2 * (i / 32) + flag second)) (byteAt (if second then h.m2 else h.m1) i)

/-- g of every parameter: rn32(GSCALE × the exact Tin24 element) (R189). -/
def HalfData.gradients (h : HalfData) (gscale : Word32) : List Word32 :=
  ((chunksOf 100 h.grad).map fun c =>
    let b := tinUnpack .tin24 c
    (List.range 32).map fun i => mulExact gscale (b.elem .tin24 i)).flatten

/-- The retained gradient holds an infinite block. -/
def HalfData.infinite (h : HalfData) : Bool := (chunksOf 100 h.grad).any fun c => field c 0 1 == 0xFF

/-- What a sweep writes. -/
structure SweepOut where
  data : HalfData
  digest : List Nat := []
  fwd : List Byte := []
  saturated : Nat := 0
  /-- some w′ is not finite (R197) -/
  nonfinite : Bool := false
  deriving DecidableEq, Repr

/-- The rounding RND_Q of parameter i of stream class `cls` (R122, R191). -/
def quernRnd (sh : Shard) (k : Word64 × Word64) (cls i : Nat) : Rnd :=
  match sh.rndQ with
  | 0 => .nearest
  | 1 => .stochastic (srDraw k.1 k.2 (srCounter cls (sh.first + i)))
  | _ => .zero

/-- Moments of a shard as Brass8: element bytes and scale bytes (R113). -/
def narrowMoments (sh : Shard) (k : Word64 × Word64) (second : Bool) (l : List Word32) : List Byte × List Byte :=
  let bs := (chunksOf 32 l).mapIdx fun b ws =>
    brassBlock second (fun i => quernRnd sh k (if second then 2 else 1) (32 * b + i)) (ws.map num32)
  ((bs.map fun b => b.elems.map fun c => BitVec.ofNat 8 c.bits).flatten, bs.map fun b => BitVec.ofNat 8 b.scale)

/-- The forward copy of weights, and how many elements R110 resolves as overflow (R191). -/
def forwardCopy (sh : Shard) (fwdShift : Int) (k : Word64 × Word64) (ws : List Word32) : List Byte × Nat :=
  let rnd := fun i => quernRnd sh k 3 i
  if sh.wFmt = 5 ∨ sh.wFmt = 6 then
    let bs := (chunksOf 32 ws).mapIdx fun b l =>
      mxBlock (if sh.wFmt = 5 then e4m3Fmt else e5m2Fmt) (fun i => rnd (32 * b + i)) (l.map num32)
    ((bs.map fun b => (b.elems.map fun c => BitVec.ofNat 8 c.bits) ++ [BitVec.ofNat 8 b.scale]).flatten,
     (bs.map fun b => (b.elems.filter (·.ovf)).length).foldl (· + ·) 0)
  else
    let cs := ws.mapIdx fun i w =>
      if sh.wFmt = 1 then bf16Fmt.narrow (rnd i) (num32 w)
      else (if sh.wFmt = 3 then e4m3Fmt else e5m2Fmt).narrow (rnd i)
        (num32 (rn32 ((num32 w).mul (.fin false (pow2 (-fwdShift))))))
    ((cs.map fun c => leBytes (if sh.wFmt = 1 then 2 else 1) c.bits).flatten, (cs.filter (·.ovf)).length)

/-- Σ t_n × r^(n+1) mod (2⁶¹ − 1) (R195). -/
def digestPoly (r : Nat) (ts : List Nat) : Nat :=
  (ts.foldl (fun (p : Nat × Nat) t => ((p.1 + t * p.2) % digestPrime, p.2 * r % digestPrime)) (0, r % digestPrime)).1

/-- The terms of leaf `l` of a half (R195). -/
def leafTerms (sh : Shard) (h : HalfData) (l : Nat) : List Nat :=
  let lo := 16384 * l
  let hi := min sh.count (lo + 16384)
  let blocks := (List.range ((hi - lo) / 32)).map fun b =>
    let i0 := lo + 32 * b
    ((List.range 32).map fun j => (h.master.getD (i0 + j) 0).toNat + byteAt h.m1 (i0 + j) * 2 ^ 32 + byteAt h.m2 (i0 + j) * 2 ^ 40)
      ++ [byteAt h.scale (2 * (i0 / 32)) + 256 * byteAt h.scale (2 * (i0 / 32) + 1)]
  let rows := if h.rowacc.isEmpty ∨ sh.rowLen = 0 then [] else
    ((List.range h.rowacc.length).filter fun k => decide (lo ≤ k * sh.rowLen) && decide (k * sh.rowLen < hi)).map
      fun k => (h.rowacc.getD k 0).toNat
  blocks.flatten ++ rows

/-- The levels above a list of nodes, appended in order; the last node is the root. -/
def digestTree (r : Nat) : (fuel : Nat) → List Nat → List Nat
  | 0, l => l
  | f + 1, l => if l.length ≤ 1 then l else l ++ digestTree r f ((chunksOf 64 l).map (digestPoly r))

def digestOf (sh : Shard) (r : Nat) (h : HalfData) : List Nat :=
  digestTree r 8 ((List.range (leafCount sh.count)).map fun l => digestPoly r (leafTerms sh h l))

/-- Rule 5's rate (R192): TRUST as given, else from the norms of weights and steps. -/
def lambRate (q : RuleSet) (c : RuleConsts) (gs : List Word32) (h : HalfData) : Word32 :=
  if q.trust ≠ 0 then mul32 q.lr q.trust
  else
    let us := List.zipWith (fun i gw => (adamwStep q c gw.1 gw.2 (h.moment false i) (h.moment true i)).2.2)
      (List.range h.master.length) (gs.zip h.master)
    let w2 := blockSum (h.master.map fun w => mul32 w w)
    let u2 := blockSum (us.map fun u => mul32 u u)
    if (num32 w2).isZero || (num32 u2).isZero then q.lr else mul32 q.lr (div32 (sqrt32 w2) (sqrt32 u2))

/-- Rule 8's new row accumulators (R190, R192). -/
def rowAccs (q : RuleSet) (sh : Shard) (gs : List Word32) (h : HalfData) : List Word32 :=
  if q.rule = 8 then
    let rinv := rn32 ((Num.fin false 1).div (.fin false (sh.rowLen : Rat)))
    List.zipWith (fun a row => add32 a (mul32 (blockSum (row.map fun g => mul32 g g)) rinv)) h.rowacc (chunksOf sh.rowLen gs)
  else []

/-- R190 to R192 and R195: the new half of a shard from its active half, with the retained gradient in `h.grad`. -/
def sweepHalf (q : RuleSet) (sh : Shard) (k : Word64 × Word64) (r : Nat) (h : HalfData) : SweepOut :=
  let t := (h.t + 1) % 2 ^ 32
  let c := ruleConsts q t
  let gs := h.gradients q.gscale
  let lrT := if q.rule = 5 then lambRate q c gs h else 0
  let accs := rowAccs q sh gs h
  let ps := List.zipWith (fun i gw => paramStep q c lrT (accs.getD (i / max sh.rowLen 1) 0) gw.1 gw.2 (h.moment false i) (h.moment true i))
    (List.range h.master.length) (gs.zip h.master)
  let ws := ps.map (·.w)
  if ws.any (fun w => !(num32 w).isFinite) then { data := h, nonfinite := true }
  else
    let m1 := if ruleHasM1 q.rule then narrowMoments sh k false (ps.map (·.m)) else ([], [])
    let m2 := if ruleHasM2 q.rule then narrowMoments sh k true (ps.map (·.v)) else ([], [])
    let scale := if ruleHasScale q.rule then
        ((List.range (sh.count / 32)).map fun b => [m1.2.getD b 0, m2.2.getD b 0]).flatten else []
    let d : HalfData := { t := t, master := ws, m1 := m1.1, m2 := m2.1, scale := scale, rowacc := accs, grad := h.grad }
    let f := forwardCopy sh q.fwdShift k ws
    { data := d, digest := digestOf sh r d, fwd := f.1, saturated := f.2 }

/-- HEAD: T, and ROOT at 8; the rest 0 (Table 08.4). -/
def headBytes (t : Nat) (digest : List Nat) : List Byte :=
  leBytes 4 t ++ leBytes 4 0 ++ leBytes 8 (digest.getLastD 0) ++ List.replicate 240 0

/-! ### Rule sets (Table 08.5) -/

def ruleSetOf (bs : List Byte) : RuleSet :=
  let w := fun o => BitVec.ofNat 32 (field bs o 4)
  { rule := field bs 0 1, fwdShift := signed 8 (field bs 1 1), lr := w 4, wd := w 8, b1 := w 12, b2 := w 16, eps := w 20
    gscale := w 24, trust := w 28, reservedZero := allZero (slice bs 2 2) && allZero (slice bs 0x20 0x20) }

/-- In [0, 1). -/
def unitInterval (x : Word32) : Bool :=
  match num32 x with
  | .fin n m => (!n || m == 0) && decide (m < 1)
  | _ => false
/-- Finite and not below zero. -/
def finiteNonneg (x : Word32) : Bool := match num32 x with | .fin n m => !n || m == 0 | _ => false
/-- Finite and above zero. -/
def finitePos (x : Word32) : Bool := match num32 x with | .fin n m => !n && m != 0 | _ => false

/-- Table 08.5 obeyed. -/
def RuleSet.valid (q : RuleSet) : Bool :=
  decide (q.rule ≤ 8) && decide (-126 ≤ q.fwdShift) && decide (q.fwdShift ≤ 127) && q.reservedZero
  && finiteNonneg q.lr && (if q.rule = 8 then q.wd == 0 else finiteNonneg q.wd)
  && unitInterval q.b1 && unitInterval q.b2
  && (num32 q.eps).isFinite
  && (if q.rule = 3 ∨ q.rule = 4 ∨ q.rule = 5 ∨ q.rule = 7 ∨ q.rule = 8 then finitePos q.eps else true)
  && (num32 q.gscale).isFinite && !(num32 q.gscale).isZero
  && (if q.rule = 5 then q.trust == 0 || finitePos q.trust else true)

end Sys2Proof.Machine
end

