-- ==== Sys2Proof/Machine/QuernOps.lean ====
section
/-! DEFINITION. Shard tables: reading, checking and seeding one (R184 to R187, R202), the sweep of one shard (R194 to R197), and
what an abandonment, a brake or a failure does to a Quern (R198). -/
namespace Sys2Proof.Machine
open Sys2Proof

/-- Why an access of the Quern failed: the code, and the address where a line failed. -/
structure QFail where
  code : Nat
  addr : Option Nat := none
  deriving DecidableEq, Repr

def QFail.rec? (f : QFail) (p d : Nat) : FaultRec := { code := f.code, loc := locQuern p d, severity := 0, addr := f.addr }

/-! ### The Quern's own accesses -/

/-- An object the Quern names by handle: current, and long enough. -/
def State.quernObj (s : State) (x h off len : Nat) : Option Obj :=
  match s.current x h with
  | none => none
  | some o => if o.size < off + len then none else some o

/-- Read ranges (offset, length) of an object in order. A failing line is the failure of the transfer, whose other lines complete (R352);
an object that fails its check stops it. -/
def State.quernReads (s : State) (x h epoch : Nat) : List (Nat × Nat) → List (List Byte) × Option QFail × State
  | [] => ([], none, s)
  | (off, len) :: t =>
    match s.quernObj x h off len with
    | none => ([], some { code := 0x0405 }, s)
    | some o =>
      let r := s.readObj x { o with epoch := epoch } off len
      let q := State.quernReads r.2.2 x h epoch t
      (r.1 :: q.1, (r.2.1.map fun f => { code := f.1, addr := some f.2 }).orElse fun _ => q.2.1, q.2.2)

/-- Write byte strings at offsets of an object in order, with failures as `quernReads` has them. -/
def State.quernWrites (s : State) (x h epoch : Nat) : List (Nat × List Byte) → Option QFail × State
  | [] => (none, s)
  | (off, bs) :: t =>
    match s.quernObj x h off bs.length with
    | none => (some { code := 0x0405 }, s)
    | some o =>
      let r := s.writeObj x { o with epoch := epoch } off bs
      let q := State.quernWrites r.2 x h epoch t
      ((r.1.map fun f => { code := f.1, addr := some f.2 }).orElse fun _ => q.1, q.2)

/-- A part with the zeros the Quern writes into the padding after it (R187). -/
def padded (bs : List Byte) : List Byte := padTo (pad256 bs.length) bs

/-! ### The FORMAT section (Table 04.6) -/

/-- The entry whose TENSOR_W is `t`: its bytes. -/
def formatEntry (fmt : List Byte) (t : Nat) : Option (List Byte) :=
  ((List.range (field fmt 2 2)).map fun k => slice fmt (64 + 32 * k) 32).find? fun e => field e 8 3 == t

/-! ### Reading a shard table (Tables 08.1, 08.2) -/

def shardOf (e : List Byte) (fmt : List Byte) : Shard :=
  let f := (formatEntry fmt (field e 0 3)).getD []
  { tensor := field e 0 3, ruleset := field e 3 1, lagged := field e 4 1 == 1, group := field e 5 1, rowLen := field e 6 2
    first := field e 8 8, count := field e 0x10 8, obj := field e 0x18 4, gradSync := field e 0x1C 2, freeSync := field e 0x1E 2
    offA := field e 0x20 8, offB := field e 0x28 8, offF := field e 0x30 8, gradOff := field e 0x38 8
    wFmt := field f 2 1, rndQ := field f 7 1 }

/-- A table as read: the first 0x8800 bytes, and the descriptors. -/
structure ShardTable where
  head : List Byte := []
  entries : List (List Byte) := []
  shards : List Shard := []
  deriving DecidableEq, Repr

def ShardTable.ruleSet (t : ShardTable) (k : Nat) : RuleSet := ruleSetOf (slice t.head (0x100 + 64 * k) 64)
/-- D and NSLOT of a group. -/
def ShardTable.groupD (t : ShardTable) (g : Nat) : Nat := field t.head (0x500 + 8 * g) 1
def ShardTable.groupSlots (t : ShardTable) (g : Nat) : Nat := field t.head (0x500 + 8 * g + 1) 1
def ShardTable.active (t : ShardTable) (k : Nat) : Bool := bit (field t.head (0x800 + 8 * k) 8) 0
def ShardTable.groupUsed (t : ShardTable) (g : Nat) : Bool := t.shards.any fun s => s.lagged && s.group == g

/-- A group entry obeys Table 08.1: an unused group is all zero, a used one has D and NSLOT in range and the rest 0. -/
def ShardTable.groupOk (t : ShardTable) (g : Nat) : Bool :=
  let e := slice t.head (0x500 + 8 * g) 8
  if allZero e then !t.groupUsed g
  else
    t.groupUsed g && decide (1 ≤ t.groupD g) && decide (t.groupD g ≤ 4) && decide (t.groupD g + 2 ≤ t.groupSlots g) && decide (t.groupSlots g ≤ 8)
    && allZero (slice e 2 6)

/-- Table 08.2 obeyed by descriptor `k`, with its rule set (Table 08.5) and the tier of its object. -/
def ShardTable.shardOk (t : ShardTable) (quota : Nat) (tierOf : Nat → Option (Tier × ObjState)) (e : List Byte) (s : Shard) : Bool :=
  let q := t.ruleSet s.ruleset
  decide (s.ruleset ≤ 15) && decide (field e 4 1 ≤ 1) && q.valid
  && (if s.lagged then decide (s.group ≤ 63) && s.offF % 256 == 0 else s.group == 0 && s.offF == 0)
  && s.count != 0 && s.count % 32 == 0 && decide (s.count ≤ 2 ^ 40 - 32) && decide (s.first + s.count ≤ 2 ^ 40)
  && (if q.rule = 8 then decide (32 ≤ s.rowLen) && decide (s.rowLen ≤ 65504) && s.rowLen % 32 == 0 && s.first % s.rowLen == 0
        && s.count % s.rowLen == 0
      else s.rowLen == 0)
  && decide (s.gradSync < quota) && (decide (s.freeSync < quota) || s.freeSync == 0xFFFF)
  && s.offA % 256 == 0 && s.offB % 256 == 0 && s.gradOff % 256 == 0
  && (match tierOf s.obj with
      | none => true
      | some (tier, st) => if s.lagged then tier == .pond && st != .plain else tier == .hbm)

/-- Tables 08.1 to 08.5 and R185 obeyed (the second check of R202). -/
def ShardTable.ok (t : ShardTable) (quota : Nat) (tierOf : Nat → Option (Tier × ObjState)) : Bool :=
  let n := t.shards.length
  field t.head 0 2 == 1 && decide (1 ≤ n) && decide (n ≤ 4096)
  && allZero (slice t.head 0x0C 244) && allZero (slice t.head 0x700 256)
  && ([4, 6, 8, 10].all fun o => decide (field t.head o 2 < quota))
  && ((List.range 64).all fun g => t.groupOk g)
  && ((List.range n).all fun k => field t.head (0x800 + 8 * k) 2 / 4 == 0)
  && ((t.entries.zip t.shards).all fun e => t.shardOk quota tierOf e.1 e.2)

/-- Two ranges (place, offset, length) share a byte. -/
def rangesMeet (a b : Nat × Nat × Nat) : Bool :=
  a.1 == b.1 && decide (a.2.1 < b.2.1 + b.2.2) && decide (b.2.1 < a.2.1 + a.2.2)

/-- Some two ranges of a list share a byte. -/
def rangesOverlap : List (Nat × Nat × Nat) → Bool
  | [] => false
  | r :: t => t.any (rangesMeet r) || rangesOverlap t

/-- The ranges a shard uses, by place: its object's handle plus 1, or 0 for the die's Granary space. -/
def ShardTable.ranges (t : ShardTable) (s : Shard) : List (Nat × Nat × Nat) :=
  let l := halfLength s (t.ruleSet s.ruleset).rule
  [(s.obj + 1, s.offA, l), (s.obj + 1, s.offB, l), (0, s.gradOff, 8 * s.count)]
  ++ (if s.lagged then [(s.obj + 1, s.offF, t.groupSlots s.group * slotLength s)] else [])

/-- The bytes of a partition's Granary space on die `d` (Table 03.4). -/
def State.granarySize (s : State) (p d : Nat) : Nat := sliceBytes * ((s.part p).map.slices d).length

/-- Fourth check: every object is current, and every half, slot and buffer lies inside its object or space. -/
def State.shardInside (s : State) (x p d : Nat) (t : ShardTable) (sh : Shard) : Bool :=
  (match s.current x sh.obj with
   | none => false
   | some o => (t.ranges sh).all fun r => r.1 == 0 || decide (r.2.1 + r.2.2 ≤ o.size))
  && decide (sh.gradOff + 8 * sh.count ≤ s.granarySize p d)

/-- The checks of LOAD, in the order of R202: a status and what was read. A line that fails ends in 0x0E with its fault. -/
def State.checkShardTable (s : State) (p d h : Nat) : Nat × ShardTable × Option QFail × State :=
  match s.home p with
  | none => (0x03, {}, none, s)
  | some x =>
    match s.quernObj x h 0 0x8800 with
    | none => (0x03, {}, none, s)
    | some o =>
      if o.tier ≠ .hbm then (0x03, {}, none, s)
      else
        let r := s.quernReads x h 0 [(0, 0x8800)]
        match r.2.1 with
        | some f => (0x0E, {}, some f, r.2.2)
        | none =>
          let head := r.1.headD []
          let n := field head 2 2
          if o.size < 0x8800 + 64 * n then (0x03, {}, none, r.2.2)
          else
            let e := r.2.2.quernReads x h 0 [(0x8800, 64 * n)]
            match e.2.1 with
            | some f => (0x0E, {}, some f, e.2.2)
            | none =>
              let s := e.2.2
              let entries := (chunksOf 64 (e.1.headD [])).take n
              let t : ShardTable := { head := head, entries := entries, shards := entries.map fun b => shardOf b (s.part p).format }
              let tierOf := fun obj => (s.current x obj).map fun o => (o.tier, o.state)
              if !t.ok (s.part p).map.syncQuota tierOf then (0x04, {}, none, s)
              else if t.shards.any fun sh => (formatEntry (s.part p).format sh.tensor).isNone then (0x0C, {}, none, s)
              else if t.shards.any fun sh => !s.shardInside x p d t sh then (0x03, {}, none, s)
              else if rangesOverlap (t.shards.map t.ranges).flatten then (0x0D, {}, none, s)
              else (0, t, none, s)

/-! ### Halves -/

/-- Read the parts of a half that a sweep or the seeding reads, with the gradient from elsewhere. -/
def State.readHalf (s : State) (x : Nat) (sh : Shard) (rule base epoch : Nat) : HalfData × Option QFail × State :=
  let at' := fun p => (base + partOffset sh rule p, partSize sh rule p)
  let r := s.quernReads x sh.obj epoch [at' .head, at' .master, at' .m1, at' .m2, at' .scale, at' .rowacc]
  ({ t := field (r.1.getD 0 []) 0 4, master := words32 (r.1.getD 1 []), m1 := r.1.getD 2 [], m2 := r.1.getD 3 []
     scale := r.1.getD 4 [], rowacc := words32 (r.1.getD 5 []) }, r.2.1, r.2.2)

def wordsBytes (l : List Word32) : List Byte := (l.map fun w => leBytes 4 w.toNat).flatten
def digestBytes (l : List Nat) : List Byte := (l.map fun w => leBytes 8 w).flatten

/-- What a sweep writes into the inactive half: every part but GRAD, and FWD where the half holds it. -/
def halfWrites (sh : Shard) (rule base : Nat) (o : SweepOut) : List (Nat × List Byte) :=
  let part := fun p bs => if partSize sh rule p = 0 then [] else [(base + partOffset sh rule p, padded bs)]
  part .master (wordsBytes o.data.master) ++ part .m1 o.data.m1 ++ part .m2 o.data.m2 ++ part .scale o.data.scale
  ++ part .rowacc (wordsBytes o.data.rowacc) ++ part .digest (digestBytes o.digest) ++ part .fwd o.fwd
  ++ part .head (headBytes o.data.t o.digest)

/-! ### Seeding (R202) -/

/-- What the seeding has done so far. -/
structure Seeding where
  s : State
  fail : Option QFail := none
  saturated : Nat := 0
  deriving DecidableEq, Repr

/-- Step 2 of the seeding for descriptor `k`: FWD (or slot 0), DIGEST and HEAD.ROOT of the active half. -/
def Seeding.shard (z : Seeding) (x p : Nat) (t : ShardTable) (slotEpoch : Nat) (e : Nat × Shard) : Seeding :=
  if z.fail.isSome then z
  else
    let sh := e.2
    let q := t.ruleSet sh.ruleset
    let base := if t.active e.1 then sh.offB else sh.offA
    let epoch := (z.s.obj x (handleIndex sh.obj)).epoch
    let r := z.s.readHalf x sh q.rule base epoch
    match r.2.1 with
    | some f => { z with s := r.2.2, fail := some f }
    | none =>
      let pt := z.s.part p
      let dg := digestOf sh (digestPoint pt.seed pt.gov.step.toNat) r.1
      let f := forwardCopy sh q.fwdShift (roundingKey pt.seed (2 ^ 64 - 1) sh.tensor) r.1.master
      let half := [(base + partOffset sh q.rule .digest, padded (digestBytes dg)), (base + 8, leBytes 8 (dg.getLastD 0))]
        ++ (if sh.lagged then [] else [(base + partOffset sh q.rule .fwd, padded f.1)])
      let w := r.2.2.quernWrites x sh.obj epoch half
      let v := if sh.lagged then w.2.quernWrites x sh.obj slotEpoch [(sh.offF, padded f.1)] else (none, w.2)
      { s := v.2, fail := w.1.orElse fun _ => v.1, saturated := z.saturated + f.2 }

/-- The commit words after step 1 of the seeding: VERSION = `v`, SKIPPED = 0, ACTIVE as written. -/
def seedWords (t : ShardTable) (v : Nat) : List Byte :=
  ((List.range t.shards.length).map fun k => leBytes 8 (flag (t.active k) + (v % 2 ^ 48) * 65536)).flatten

/-- The groups that a loaded table uses, each with slot 0 COMMITTED at version `v` (R202 step 3). -/
def seedGroups (t : ShardTable) (v epoch : Nat) : NatMap LagGroup :=
  (List.range 64).foldl (fun m g =>
    if t.groupUsed g then
      NatMap.set {} m g { d := t.groupD g, nslot := t.groupSlots g, newest := v, nextStep := v
                          slots := NatMap.set {} [] 0 { version := v, state := .committed, epoch := epoch } }
    else m) []

/-- The objects that a Quern's shards name are no longer held; where no other die's table of the partition names one, a Pond
object becomes SEALED (Table 09.3, R210). -/
def State.releaseShards (s : State) (x p d : Nat) (l : List Shard) : State :=
  l.foldl (fun s sh =>
    match s.current x sh.obj with
    | none => s
    | some o =>
      if (List.range 8).any fun e => e != d && (s.quern p e).loaded && (s.quern p e).shards.any (·.obj == sh.obj) then s
      else s.setObj x (handleIndex sh.obj) { o with heldHbm := false, state := if o.tier = .pond then .sealed else o.state }) s

/-- LOAD holds every object of its table (Table 09.3, R210). -/
def State.holdShards (s : State) (x : Nat) (l : List Shard) : State :=
  l.foldl (fun s sh =>
    match s.current x sh.obj with
    | none => s
    | some o => s.setObj x (handleIndex sh.obj) { o with heldHbm := o.tier == .hbm, state := if o.tier = .pond then .held else o.state }) s

/-- A Quern with a freshly seeded table. After an abandonment (or a brake) of the present step, what already satisfies its
targets starts nothing (R193). -/
def Quern.withTable (q : Quern) (t : ShardTable) (h step : Nat) (redo : Bool) (groups : NatMap LagGroup)
    (epochs : NatMap Nat) : Quern :=
  let aw := if redo then step + 1 else 0
  { q with
    loadedTable := h, loaded := true, cmdStatus := 0
    goSync := field t.head 4 2, sweptSync := field t.head 6 2, commitSync := field t.head 8 2, doneSync := field t.head 10 2
    shards := t.shards, step := step
    loadRules := t.shards.foldl (fun m sh => NatMap.set 0 m sh.ruleset (1 + ruleParts (t.ruleSet sh.ruleset).rule)) []
    epochs := epochs, latched := [], latchedFor := none, latchBad := false, laggedRules := [], goAwait := aw
    runs := (List.range t.shards.length).foldl (fun m k => NatMap.set {} m k { await := aw }) []
    ready := [], sweeping := false, swept := false, flipping := false, stopped := false, groups := groups }

/-- The Quern's work for a partition is idle on a die (R202). -/
def Quern.idle (q : Quern) : Bool :=
  !q.sweeping && !q.flipping && !(q.runs.any fun e => e.2.ingesting) && !(q.groups.any fun e => e.2.sweeping.isSome)

/-- QRN_CMD LOAD (R202) on die `d` for partition `p`. -/
def State.qrnLoad (s : State) (p d : Nat) : State :=
  let st := (s.part p).state
  let q := s.quern p d
  if q.cmdBusy then s.setQuern p d { q with cmdStatus := 0x01 }
  else if (st ≠ .armed ∧ st ≠ .braked) ∨ !q.idle then s.setQuern p d { q with cmdStatus := 0x02 }
  else
    let c := s.checkShardTable p d q.table
    let refuse := fun (s : State) (code : Nat) (f : Option QFail) =>
      let s := s.modQuern p d fun q => { q with cmdStatus := code }
      match f with | some f => s.raise (f.rec? p d) | none => s
    if c.1 ≠ 0 then refuse c.2.2.2 c.1 c.2.2.1
    else
      let t := c.2.1
      let x := (s.home p).getD 0
      let step := (s.part p).gov.step.toNat
      let ep := if t.shards.any (·.lagged) then c.2.2.2.takeEpoch (s.ctxKid x) else (0, c.2.2.2)
      let w := ep.2.quernWrites x q.table 0 [(0x800, seedWords t step)]
      let z := (t.shards.zipIdx.map fun e => (e.2, e.1)).foldl (fun (z : Seeding) e => z.shard x p t ep.1 e) { s := w.2, fail := w.1 }
      let s := z.s.modQuern p d fun q => { q with saturated := q.saturated.add z.saturated }
      match z.fail with
      | some f => refuse s 0x0E (some f)
      | none =>
        let s := s.releaseShards x p d q.shards
        let epochs := t.shards.zipIdx.foldl (fun m e =>
          let ep := (s.obj x (handleIndex e.1.obj)).epoch
          (List.range 4).foldl (fun m j => NatMap.set 0 m (4 * e.2 + j) ep) m) []
        let s := s.modQuern p d fun r => r.withTable t q.table step (s.part p).gov.aborted (seedGroups t step ep.1) epochs
        s.holdShards x t.shards

/-- A counter whose register is cleared: the totals behind the U-view stay until the next binding (R427). -/
def Counter.cleared (c : Counter) : Counter := { total := c.total, totalLatch := c.totalLatch }

/-- UNLOAD and rebinding clear every QRN register of the partition (R205) and end the holds. -/
def State.quernClear (s : State) (p d : Nat) : State :=
  let q := s.quern p d
  let s := match s.home p with
    | some x => s.releaseShards x p d q.shards
    | none => s
  s.setQuern p d { skips := q.skips.cleared, saturated := q.saturated.cleared }

/-- QRN_CMD UNLOAD. -/
def State.qrnUnload (s : State) (p d : Nat) : State :=
  let st := (s.part p).state
  let q := s.quern p d
  if q.cmdBusy then s.setQuern p d { q with cmdStatus := 0x01 }
  else if (st ≠ .armed ∧ st ≠ .braked) ∨ !q.idle then s.setQuern p d { q with cmdStatus := 0x02 }
  else s.quernClear p d

/-! ### Version slots (R199) -/

def LagGroup.slot (g : LagGroup) (k : Nat) : VersionSlot := NatMap.get {} g.slots k
def LagGroup.setSlot (g : LagGroup) (k : Nat) (v : VersionSlot) : LagGroup := { g with slots := NatMap.set {} g.slots k v }

/-- A committed version is live (R199). -/
def LagGroup.live (g : LagGroup) (step k : Nat) : Bool :=
  let v := g.slot k
  v.state == .committed && (v.refs != 0 || decide (step - g.d ≤ v.version) || v.version == g.newest)

/-- Add references to a version: now if it is committed, else when it commits. -/
def LagGroup.addRefs (g : LagGroup) (v n : Nat) : LagGroup :=
  match (List.range g.nslot).find? fun k => (g.slot k).state == .committed && (g.slot k).version == v with
  | some k => g.setSlot k { g.slot k with refs := (g.slot k).refs + n }
  | none => { g with pendingRefs := (v, n) :: g.pendingRefs }

/-- Drop `n` references to version `v`. -/
def LagGroup.dropRef (g : LagGroup) (r : Nat × Nat) : LagGroup :=
  match (List.range g.nslot).find? fun k => (g.slot k).state == .committed && (g.slot k).version == r.1 && (g.slot k).refs != 0 with
  | some k => g.setSlot k { g.slot k with refs := (g.slot k).refs - r.2 }
  | none => { g with pendingRefs := g.pendingRefs.erase r }

/-- Drop the references that the present step took. -/
def LagGroup.dropRefs (g : LagGroup) : LagGroup := { g.taken.foldl LagGroup.dropRef g with taken := [] }
/-- The references of an abandoned step are dropped later, once its TOPs in flight have completed. -/
def LagGroup.dropLater (g : LagGroup) : LagGroup := { g with dropping := g.dropping ++ g.taken, taken := [] }
/-- They have completed. -/
def LagGroup.settle (g : LagGroup) : LagGroup := { g.dropping.foldl LagGroup.dropRef g with dropping := [] }

/-- The slot that holds a committed version. -/
def LagGroup.slotOf (g : LagGroup) (v : Nat) : Option Nat :=
  (List.range g.nslot).find? fun k => (g.slot k).state == .committed && (g.slot k).version == v

/-! ### Sweeping one shard (R194 to R197) -/

/-- The step a shard's work is at: the die's for the sweep class, its group's for the lagged class. -/
def Quern.shardStep (q : Quern) (sh : Shard) : Nat :=
  if sh.lagged then (NatMap.get {} q.groups sh.group).nextStep else q.step

def Quern.run (q : Quern) (k : Nat) : ShardRun := NatMap.get {} q.runs k
def Quern.setRun (q : Quern) (k : Nat) (r : ShardRun) : Quern := { q with runs := NatMap.set {} q.runs k r }
def Quern.epoch (q : Quern) (k : Nat) (half grad : Bool) : Nat := NatMap.get 0 q.epochs (4 * k + 2 * flag half + flag grad)
def Quern.setEpoch (q : Quern) (k : Nat) (half grad : Bool) (e : Nat) : Quern :=
  { q with epochs := NatMap.set 0 q.epochs (4 * k + 2 * flag half + flag grad) e }

/-- The layout of a shard's halves, from the parts recorded at LOAD: some rule with those parts. -/
def Quern.layoutRule (q : Quern) (sh : Shard) : Nat :=
  ((List.range 9).find? fun r => ruleParts r + 1 == NatMap.get 0 q.loadRules sh.ruleset).getD 0

/-- Read commit word `k` of the loaded table. -/
def State.commitWord (s : State) (x : Nat) (q : Quern) (k : Nat) : Nat × Option QFail × State :=
  let r := s.quernReads x q.loadedTable 0 [(0x800 + 8 * k, 8)]
  (field (r.1.headD []) 0 8, r.2.1, r.2.2)

/-- The Quern stops the partition's work on a die without a flip (R198, R202, R236, R352). -/
def State.quernStop (s : State) (p d : Nat) (f : QFail) : State :=
  (s.modQuern p d fun q =>
    { q with stopped := true, sweeping := false, ready := [], runs := NatMap.mapVals {} (fun _ r => { r with ingesting := false }) q.runs
             groups := NatMap.mapVals {} (fun _ g => { g with sweeping := none }) q.groups }).raise (f.rec? p d)

/-- A lagged shard that a sweep cut short has flipped already is not swept again: its redo goes on from the first unflipped one (R198). -/
def Shard.flipped (sh : Shard) (word step : Nat) : Bool := sh.lagged && bits word 16 48 == step + 1

/-- A skipped lagged shard keeps its forward copy (R197): that of the group's newest version is copied into slot `slot`. -/
def State.keepForward (s : State) (x p d slot epoch : Nat) (sh : Shard) : Option QFail × State :=
  let g := NatMap.get {} (s.quern p d).groups sh.group
  match g.slotOf g.newest with
  | none => (none, s)
  | some old =>
    let r := s.quernReads x sh.obj (g.slot old).epoch [(sh.offF + old * slotLength sh, slotLength sh)]
    match r.2.1 with
    | some f => (some f, r.2.2)
    | none => r.2.2.quernWrites x sh.obj epoch [(sh.offF + slot * slotLength sh, r.1.headD [])]

/-- Sweep shard `k` of step `step` into its inactive half by the rule sets `rules`, and its forward copy into the half or into slot
`slot` of its group. `epoch` is the epoch of a lagged sweep. -/
def State.sweepShard (s : State) (x p d k step slot epoch : Nat) (rules : NatMap RuleSet) (sh : Shard) : Option QFail × State :=
  let q := s.quern p d
  let cw := s.commitWord x q k
  match cw.2.1 with
  | some f => (some f, cw.2.2)
  | none =>
    if sh.flipped cw.1 step then (none, cw.2.2)
    else
    let act := bit cw.1 0
    let rs := NatMap.get {} rules sh.ruleset
    let base := if act then sh.offB else sh.offA
    let new := if act then sh.offA else sh.offB
    let h := cw.2.2.readHalf x sh rs.rule base (q.epoch k act false)
    match h.2.1 with
    | some f => (some f, h.2.2)
    | none =>
      let g := h.2.2.quernReads x sh.obj (q.epoch k (!act) true) [(new + partOffset sh rs.rule .grad, partSize sh rs.rule .grad)]
      match g.2.1 with
      | some f => (some f, g.2.2)
      | none =>
        let data := { h.1 with grad := g.1.headD [] }
        let s := g.2.2
        let skip := fun (s : State) (code : Nat) =>
          let s := (s.modQuern p d fun q => { q.setRun k { q.run k with skipped := true } with skips := q.skips.add 1 }).raise
            { code := code, loc := locQuern p d }
          if sh.lagged then s.keepForward x p d slot epoch sh else (none, s)
        if data.infinite then skip s 0x0401
        else
          let seed := (s.part p).seed
          let o := sweepHalf rs sh (roundingKey seed step sh.tensor) (digestPoint seed (step + 1)) data
          if o.nonfinite then skip s 0x0402
          else
            let w := s.quernWrites x sh.obj epoch (halfWrites sh rs.rule new o)
            let v := if sh.lagged then w.2.quernWrites x sh.obj epoch [(sh.offF + slot * slotLength sh, padded o.fwd)] else (none, w.2)
            let s := v.2.modQuern p d fun q =>
              { q.setEpoch k (!act) false epoch with saturated := q.saturated.add o.saturated }
            (w.1.orElse fun _ => v.1, s)

/-- Sweep shards in table order, stopping at the first failure. -/
def State.sweepShards (s : State) (x p d step slot epoch : Nat) (rules : NatMap RuleSet) : List (Nat × Shard) → Option QFail × State
  | [] => (none, s)
  | (k, sh) :: t =>
    let r := s.sweepShard x p d k step slot epoch rules sh
    match r.1 with
    | some f => (some f, r.2)
    | none => State.sweepShards r.2 x p d step slot epoch rules t

/-- Flip the commit words of shards in table order (R196). -/
def State.flipShards (s : State) (x p d step : Nat) : List (Nat × Shard) → Option QFail × State
  | [] => (none, s)
  | (k, sh) :: t =>
    let q := s.quern p d
    let cw := s.commitWord x q k
    match cw.2.1 with
    | some f => (some f, cw.2.2)
    | none =>
      if sh.flipped cw.1 step then State.flipShards cw.2.2 x p d step t
      else
      let skip := (q.run k).skipped
      let act := if skip then bit cw.1 0 else !bit cw.1 0
      let w := pack [(0, 1, flag act), (1, 1, flag skip), (16, 48, step + 1)]
      let r := cw.2.2.quernWrites x q.loadedTable 0 [(0x800 + 8 * k, leBytes 8 w)]
      match r.1 with
      | some f => (some f, r.2)
      | none => State.flipShards r.2 x p d step t

/-- The shards of a class or group with their indices, in table order. -/
def Quern.sweepClass (q : Quern) : List (Nat × Shard) := (q.shards.zipIdx.map fun e => (e.2, e.1)).filter fun e => !e.2.lagged
def Quern.groupShards (q : Quern) (g : Nat) : List (Nat × Shard) :=
  (q.shards.zipIdx.map fun e => (e.2, e.1)).filter fun e => e.2.lagged && e.2.group == g

/-! ### Interruptions (R198) -/

/-- What the abandonment of step `step` does to a Quern: ingest and sweep of that step stop without a flip, its ingested gradients and its
latch are discarded, and both wait for new signals. Work of a step before it, lagged or behind its commit point, goes on. -/
def Quern.abandon (q : Quern) (step : Nat) : Quern :=
  if !q.loaded || q.flipping then q
  else
    let runs := q.shards.zipIdx.foldl (fun m e =>
      let r := NatMap.get {} m e.2
      NatMap.set {} m e.2 (if q.shardStep e.1 = step then { await := step + 1 } else { r with await := step + 1 })) q.runs
    let q := { q with
      runs := runs, goAwait := step + 1
      ready := q.ready.filter fun k => match q.shards[k]? with | some sh => q.shardStep sh != step | none => false
      latchedFor := if q.latchedFor = some step then none else q.latchedFor
      latchBad := q.latchBad && q.latchedFor != some step }
    if q.step = step then { q with sweeping := false, swept := false, stopped := false } else q

/-- A brake also stops a running sweep of a lagged group, or of a step behind its commit point, without a flip. A lagged group's slot stays
WRITING; after a release the sweep is done anew from the first unflipped shard, from the retained gradients (R198; for the sweep class
DESIGN CHOICE, log entry 174). -/
def Quern.brakeSweeps (q : Quern) : Quern :=
  { q with sweeping := false, groups := NatMap.mapVals {} (fun _ g => { g with sweeping := none }) q.groups }

end Sys2Proof.Machine
end

