-- ==== Sys2Proof/Machine/Stop.lean ====
section
/-! DEFINITION. What stops work: halting a tile (R88), a fault of a Leat stream (R225), and what an abandoned step (R54, R89)
and a brake (R57) do to a partition's clusters, tiles, streams, Querns and timetable entries. -/
namespace Sys2Proof.Machine
open Sys2Proof

/-! ### The wait rule -/

/-- R235: a wait on target `t` is satisfied by `v`. -/
def waitOk (v t : Word64) : Bool := decide ((v - t).toNat < 2 ^ 63)

def Weir.obj (w : Weir) (i : Nat) : SyncObj := NatMap.get {} w.sync i
def Weir.setObj (w : Weir) (i : Nat) (o : SyncObj) : Weir := { w with sync := NatMap.set {} w.sync i o }
def Weir.coll (w : Weir) (i : Nat) : CollRun := NatMap.get {} w.colls i
def Weir.setColl (w : Weir) (i : Nat) (c : CollRun) : Weir := { w with colls := NatMap.set {} w.colls i c }
def State.syncValue (s : State) (p i : Nat) : Word64 := ((s.weir p).obj i).value
/-- GOV_STEP + 1 of a partition, the target of its step. -/
def State.stepTarget (s : State) (p : Nat) : Word64 := (s.part p).gov.step + 1

/-- The entry of a Weir counter in the loaded table (R234). -/
def Weir.counterEntry (w : Weir) (i : Nat) : Option CounterEntry :=
  if w.loaded then w.tbl.counters.find? (·.index == i) else none
/-- The counter flagged COMMIT. -/
def Weir.commitEntry (w : Weir) : Option CounterEntry := if w.loaded then w.tbl.counters.find? (·.commit) else none
/-- The device has arrived on the COMMIT counter, without ABORT, and has no release yet (R265). -/
def Weir.awaitsCommit (w : Weir) : Bool :=
  match w.commitEntry with
  | none => false
  | some e => (w.obj e.index).arrived && !(w.obj e.index).abort

/-! ### Tiles -/

/-- UNIT of a TOP (Tables 03.7, 15.10). -/
def topUnitCode (t : Top) : Nat :=
  match topOpcode t with
  | 1 => if (mmaTop t).array = 1 then 2 else 1
  | 4 | 5 | 6 | 7 => if (drainTop t).array then 4 else 3
  | 8 | 9 => 5
  | 2 | 3 | 10 | 11 | 12 | 13 | 14 => 6
  | _ => 0

/-- The two words of a TOP as 16 bytes. -/
def topBytes (t : Top) : List Byte := leBytes 16 t.toNat

def Flight.isWaitFence (f : Flight) : Bool := topOpcode f.top == 12 || topOpcode f.top == 14
def Flight.isToll (f : Flight) : Bool := topOpcode f.top == 10 || topOpcode f.top == 11

/-- A started TOP that runs on when its tile halts or its step is abandoned (R88, R89). -/
def Flight.runsOn (f : Flight) : Bool := f.phase != .waiting && !f.isWaitFence && (!f.isToll || f.phase == .taken)

/-- The elements by which BASE advances at a TOP (R122, R151). -/
def topElems (t : Top) : Nat :=
  match topOpcode t with
  | 4 | 5 | 6 => let d := drainTop t; if d.rnd = 1 then 32 * d.rows else 0
  | 8 =>
    let x := vecTop t
    if x.rnd ≠ 1 ∨ x.vop = 0x60 ∨ x.vop = 0x61 then 0
    else if 0x30 ≤ x.vop ∧ x.vop ≤ 0x35 then x.count
    else x.count * (if x.vop = 0x50 then 64 else lineCount x.fmt)
  | 9 => let x := tinTop t; if x.rnd = 1 then 64 * x.count else 0
  | _ => 0

def isDrain (t : Top) : Bool := decide (4 ≤ topOpcode t) && decide (topOpcode t ≤ 7)
def isSrSet (t : Top) : Bool := topOpcode t == 8 && (vecTop t).vop == 0x60

/-- The SR context that a TOP leaves to those behind it in its tile's queue (R121, R122). -/
def srAfter (seed : List Byte) (step : Nat) (sr : SrContext) (t : Top) : SrContext :=
  if isSrSet t && (vecTop t).count == 1 then
    let imm := (vecTop t).imm
    let k := roundingKey seed step (bits imm 40 24)
    { tensor := bits imm 40 24, base := bits imm 0 40, k0 := k.1, k1 := k.2 }
  else { sr with base := (sr.base + topElems t) % 2 ^ 40 }

/-- The context left by the TOPs that ran on, starting from `sr`. -/
def srAfterAll (seed : List Byte) (step : Nat) (sr : SrContext) (l : List Flight) : SrContext :=
  l.foldl (fun sr f => srAfter seed step sr f.top) sr

/-- Every group becomes FREE, its indicators discarded (R130). -/
def Tile.freeGroups (x : Tile) : Tile := { x with arrA := { x.arrA with groups := [] }, arrB := { x.arrB with groups := [] }, freeing := false }

/-- After an abandonment the groups become FREE once the TOPs in flight are complete (R130). -/
def Tile.settle (x : Tile) : Tile := if x.freeing && x.flight.isEmpty then x.freeGroups else x

/-- TOP `g` may still update the statistics block (R144): it has not started and is one that counts, or it is a drain whose end rolls
up an indicator. -/
def Tile.owesStats (x : Tile) (g : Flight) : Bool :=
  let d := drainTop g.top
  if g.phase == .waiting then
    (isDrain g.top && (d.stage 5 || d.stage 6 || d.stage 7 || d.accClose)) || topOpcode g.top == 8 || topOpcode g.top == 9
  else isDrain g.top && d.accClose && ((x.arr d.array).group d.group).rollup.isUpdate

/-- The update at the head of `owed` is applied once no earlier TOP in flight may still update the block. -/
def Tile.statReady (x : Tile) (o : StatOwed) : Bool := !x.flight.any fun g => decide (g.seq < o.seq) && x.owesStats g

/-- A statistics update found no record (R144, R146): fault 0x0303, and the tile goes on. -/
def State.statLost (s : State) (t : Nat) (top : Top) (lost : Bool) : State :=
  if lost then
    (s.modTile t fun x => { x with faultCode := 0x0303, faultOpcode := topOpcode top, faultTop := top }).raise
      { code := 0x0303, loc := s.locTile t (topUnitCode top), detail := topBytes top }
  else s

/-- Apply the update at the head of a tile's `owed` where it is ready. -/
def State.statNext (s : State) (t : Nat) : State :=
  let x := s.tile t
  match x.owed with
  | [] => s
  | o :: rest =>
    if x.statReady o then
      let u := { x with owed := rest }.statUpdate o.tensor o.add
      (s.setTile t u.1).statLost t o.top u.2
    else s

/-- Apply every update that is ready, in queue order (R144). -/
def State.settleStats (s : State) (t : Nat) : State := (s.tile t).owed.foldl (fun s _ => s.statNext t) s

/-- TOP `f` makes a statistics update under its SR context: it takes its place in queue order. -/
def State.oweStats (s : State) (t : Nat) (f : Flight) (a : StatAdd) : State :=
  if a.isUpdate then
    (s.modTile t fun x =>
      { x with owed := x.owed.filter (fun o => decide (o.seq ≤ f.seq)) ++ [⟨f.seq, f.sr.tensor, f.top, a⟩]
                       ++ x.owed.filter fun o => decide (f.seq < o.seq) }).settleStats t
  else s.settleStats t

/-- What an abandoned step does to a tile (R88, R89). -/
def Tile.abandon (x : Tile) (brake : Bool) : Tile :=
  Tile.settle { x with
    queue := []
    flight := x.flight.filter Flight.runsOn
    halted := x.halted && brake, freeing := x.freeing || !brake }

/-! ### Leat streams -/

/-- A stream stops once its segments in flight are done (R225). -/
def LeatRun.stop (r : LeatRun) : LeatRun :=
  if !r.running then r
  else if r.done < r.issued then { r with stopping := true }
  else { r with running := false, holds := [] }

/-- A fault of a stream: KIND = 0 is written into its descriptor, MEM_LEAT_STATUS records the fault, a record is made (R225).
Segments issued before it complete. -/
def State.leatFault (s : State) (c k code : Nat) (addr : Option Nat := none) : State :=
  let s := s.modLeat c k fun r => { r.stop with faulted := true, fault := code }
  let s := s.modCluster c fun x => { x with sram := NatMap.set 0 x.sram (0xFFFC00 + 64 * k) 0 }
  s.raise { code := code, loc := s.locCluster c (if code = 0x0506 then 10 else 9), severity := 0, addr := addr }

def State.stopLeats (s : State) (c : Nat) : State :=
  (List.range 16).foldl (fun s k => s.modLeat c k LeatRun.stop) s

/-! ### Timetable entries -/

/-- Revolution n starts here (R43). -/
def Gov.revStart (g : Gov) (n : Nat) : Nat := g.t0 + n * 64 * g.tt.period
/-- The present revolution. -/
def Gov.rev (g : Gov) : Nat := g.nextRev - 1
/-- A revolution is running: after a release the next one is awaited. -/
def Gov.revOpen (g : Gov) : Bool := decide (0 < g.nextRev) && !g.released
/-- The run of entry `i` in the present revolution. -/
def Gov.key (g : Gov) (i : Nat) : Nat := 4096 * g.rev + i
def Gov.run (g : Gov) (k : Nat) : EntryRun := NatMap.get {} g.runs k
def Gov.setRun (g : Gov) (k : Nat) (r : EntryRun) : Gov := { g with runs := NatMap.set {} g.runs k r }

/-- The entries that an abandoned step ends: PHASE_START, COLLECTIVE_WINDOW and DIGEST_COMPARE (R54); a brake ends all. -/
def endsEntry (brake : Bool) (kind : Nat) : Bool := brake || kind == 1 || kind == 2 || kind == 5

def EntryRun.ended (r : EntryRun) : EntryRun :=
  { r with status := if r.status = .complete then .complete else .ended, windowOpen := false, grants := [] }

/-- Open entries end and windows close. A brake skips every entry not yet started; in an abandoned step those of R54 are skipped at
their slots, where the lease is still compared (R58). -/
def Gov.endEntries (g : Gov) (brake : Bool) : Gov :=
  let kind := fun k => ((g.tt.entries[k % 4096]?).map (·.kind)).getD 0
  let g := { g with runs := NatMap.mapVals {} (fun k r => if endsEntry brake (kind k) then r.ended else r) g.runs }
  if !brake || !g.revOpen then g
  else g.tt.entries.zipIdx.foldl (fun g e =>
    if (g.run (g.key e.2)).status == .idle then
      g.setRun (g.key e.2) { g.run (g.key e.2) with status := .ended }
    else g) g

/-- A fault record of the Governor with entry, KIND, POLICY and LATE_BEATS as DETAIL (Table 15.11). -/
def govFault (p code severity : Nat) (entry kind policy late : Nat := 0) (demoted : Bool := false) : FaultRec :=
  { code := code, loc := locGov p, severity := severity, demoted := demoted
    detail := padTo 24 (leBytes 2 entry ++ leBytes 1 kind ++ leBytes 1 policy ++ leBytes 4 late) }

/-! ### Partitions -/

def State.foldQuerns (s : State) (p : Nat) (f : Quern → Quern) : State :=
  (s.partDies p).foldl (fun s d => s.modQuern p d f) s

/-- Some tile of the partition has a TOP in flight. -/
def State.topsInFlight (s : State) (p : Nat) : Bool := (s.partTiles p).any fun t => !(s.tile t).flight.isEmpty

/-- Apply a function to every lagged group of a partition. -/
def State.foldGroups (s : State) (p : Nat) (f : LagGroup → LagGroup) : State :=
  s.foldQuerns p fun q => { q with groups := NatMap.mapVals {} (fun _ g => f g) q.groups }

/-- The version references that the present step took are dropped (R199). -/
def State.dropVersionRefs (s : State) (p : Nat) : State := s.foldGroups p LagGroup.dropRefs

/-- Once the TOPs in flight of an abandoned step have completed, its references are dropped. -/
def State.settleRefs (s : State) (p : Nat) : State :=
  if s.topsInFlight p then s else s.foldGroups p LagGroup.settle

/-! ### TOPs that end without completing -/

/-- What waited for TOPs of the tile that are no longer in flight is settled: groups (R130), statistics (R144), references (R199). -/
def State.settled (s : State) (t : Nat) : State :=
  let s := (s.modTile t Tile.settle).settleStats t
  match s.tilePart t with
  | none => s
  | some p => s.settleRefs p

/-- A tile halts on fault `code` of TOP `top` (R88): it records the fault, discards what stands behind the first `n` TOPs in
flight and has not started, and raises its core's external interrupt. -/
def State.haltTile (s : State) (t n code : Nat) (top : Top) : State :=
  let s := s.modTile t fun x =>
    { x with faultCode := code, faultOpcode := topOpcode top, faultTop := top, queue := []
             flight := x.flight.take n ++ (x.flight.drop n).filter Flight.runsOn, halted := true, dropRaised := false }
  (s.settled t).modCluster (tileCluster t) fun c => { c with extInt := true }

/-- Flight `i` of a tile fails: it is discarded, the tile halts, the SR context stands as without it, and the fault is recorded with
the TOP as DETAIL (R88). -/
def State.topFails (s : State) (t i code : Nat) : State :=
  let x := s.tile t
  match x.flight[i]? with
  | none => s
  | some f =>
    let p := (s.tilePart t).getD 0
    let rest := (x.flight.drop (i + 1)).filter Flight.runsOn
    let sr := srAfterAll (s.part p).seed (s.part p).gov.phaseStep f.sr rest
    let s := s.setTile t { x with flight := x.flight.take i ++ rest, sr := sr }
    (s.haltTile t (i + rest.length) code f.top).raise
      { code := code, loc := s.locTile t (topUnitCode f.top), severity := 0, detail := topBytes f.top }

/-- The core executes: it runs a phase's kernel and waits on no stalled store. -/
def Cluster.executes (c : Cluster) : Bool := c.running && !c.halted && !c.trapped && c.stalled.isNone

/-- A control core whose TOP_HI store is stalled stops with it: a HALT that waited for the store takes effect (R91). -/
def Cluster.unstall (c : Cluster) : Cluster :=
  { c with stalled := none, halted := c.halted || c.haltAt.isSome, pc := c.haltAt.getD c.pc, haltAt := none }

/-- Work of a partition stops: entries end, cores stop issuing, unstarted TOPs are discarded, streams stop, hints end. -/
def State.stopWork (s : State) (p : Nat) (brake : Bool) : State :=
  let s := s.modGov p (·.endEntries brake)
  let s := (s.partClusters p).foldl (fun s c =>
    (s.modCluster c fun x => { x.unstall with running := false, extInt := x.extInt && brake }).stopLeats c) s
  let ts := s.partTiles p
  let s := ts.foldl (fun s t => (s.modTile t (·.abandon brake)).settleStats t) s
  let s := { s with tollQueue := s.tollQueue.filter fun k =>
    match k with
    | .tile t => !ts.contains t || (s.tile t).flight.any (·.phase == FlightPhase.taken)
    | .host _ _ _ => true }
  (if brake then s.foldQuerns p Quern.brakeSweeps else s).endHint p

/-- The credits owed on a session go back (R282). -/
def State.returnCredit (s : State) (n : Nat) : State :=
  let e := s.sec.session n
  if e.role ≠ 4 ∨ e.owed = 0 then s
  else (s.modSec fun x => x.setSession n { e with owed := 0 }).sendOn n (.credit e.owed)

/-- A chunk has been added, stored or discarded: its credit is owed, and returned at 8 of them (R282). -/
def State.oweCredit (s : State) (n : Nat) : State :=
  let e := s.sec.session n
  let s := s.modSec fun x => x.setSession n { e with owed := e.owed + 1, owedSince := if e.owed = 0 then s.now else e.owedSince }
  if 8 ≤ e.owed + 1 then s.returnCredit n else s

/-- Chunks that wait to be taken are discarded. -/
def State.dropEarly (s : State) (l : List (Nat × List Byte)) : State := l.foldl (fun s e => s.oweCredit e.1) s

/-- Every collective of a partition is over: the chunks that wait to be taken are discarded, and those that wait to be sent. -/
def State.dropColls (s : State) (p : Nat) : State :=
  let l := ((s.weir p).colls.map fun e => e.2.early).flatten
  let s := (s.modWeir p fun w => { w with colls := [] }).modSec fun x =>
    { x with sessions := NatMap.mapVals {} (fun _ e => if e.role == 4 && e.part == p then { e with waiting := [] } else e) x.sessions }
  s.dropEarly l

/-- The step of a partition is abandoned on this device (R54 without its step 4): the Quern's work of the step and the
collectives' staging are discarded. -/
def State.abandonWork (s : State) (p : Nat) (brake : Bool) : State :=
  let step := (s.part p).gov.step.toNat
  let s := s.modGov p fun g => { g with aborted := true }
  let s := s.stopWork p brake
  let s := (s.foldQuerns p (·.abandon step)).foldGroups p LagGroup.dropLater
  let s := (s.dropColls p).modWeir p fun w => { w with repeatWindow := false }
  s.settleRefs p

/-- Braking begins (R57): no further entry starts. Before the commit point the step in progress is abandoned; while a commit
release is awaited its outcome stays open (R265); after the commit point a flip pass completes (R198). -/
def State.brakeWork (s : State) (p : Nat) : State :=
  let v := s.part p
  if (v.state ≠ .armed ∧ v.state ≠ .running) ∨ v.gov.braking then s
  else
    let s := s.modGov p fun g => { g with braking := true, brakeAt := s.now, brakeAfterCommit := false }
    if v.state = .running ∧ !v.gov.committed ∧ !v.gov.aborted ∧ !(s.weir p).awaitsCommit then s.abandonWork p true
    else s.stopWork p true

end Sys2Proof.Machine
end

