-- ==== Sys2Proof/Machine/Sync.lean ====
section
/-! DEFINITION. Sync objects and the Weir (R234 to R237, R261 to R269): signals, arrivals, releases, the commit point and the
membership; abandoning a step and braking a partition with the Weir told. -/
namespace Sys2Proof.Machine
open Sys2Proof

/-! ### Weir messages -/

def Outcome3.code : Outcome3 → Nat
  | .pass => 0 | .abortStep => 1 | .abortEcc => 2
def outcomeOf : Nat → Option Outcome3
  | 0 => some .pass | 1 => some .abortStep | 2 => some .abortEcc | _ => none

/-! ### Roots and members -/

/-- This device is the root of a counter (R261). -/
def Weir.isRoot (w : Weir) (e : CounterEntry) : Bool :=
  match e.scope with
  | 0 => true
  | 1 => w.domainRoot
  | _ => w.fleetRoot

/-- The devices (replica, position) that a counter's epoch waits for at its root. -/
def Weir.arrivers (w : Weir) (e : CounterEntry) : List (Nat × Nat) :=
  match e.scope with
  | 0 => [(w.tbl.replica, w.tbl.position)]
  | 1 => (List.range w.tbl.domainSize).map fun q => (w.tbl.replica, q)
  | _ => ((bitsOf 64 w.members).map fun r => (List.range w.tbl.domainSize).map fun q => (r, q)).flatten

/-- The live role 4 session of the partition on which a member is reached. -/
def State.memberSession (s : State) (p r q : Nat) : Option Nat :=
  let n := Config.memberSession p r q
  if (s.sec.session n).role = 4 ∧ (s.sec.session n).part = p then some n else none

/-- Send a Weir message to members. -/
def State.weirTo (s : State) (p : Nat) (dest : List (Nat × Nat)) (m : WeirMsg) : State :=
  dest.foldl (fun s d => match s.memberSession p d.1 d.2 with
    | some n => s.sendOn n (.weir m)
    | none => s) s

/-- The root of a counter (R261). -/
def Weir.rootOf (w : Weir) (e : CounterEntry) : Nat × Nat :=
  if e.scope = 2 then (((bitsOf 64 w.members).head?).getD 0, 0) else (w.tbl.replica, 0)

/-- The other devices that a counter's epoch waits for. -/
def Weir.others (w : Weir) (e : CounterEntry) : List (Nat × Nat) :=
  (w.arrivers e).filter (· != (w.tbl.replica, w.tbl.position))

/-! ### The commit point (R44, R194, R251, R252) -/

/-- Quern work that waits for a new signal of target `v` on object `i` has it (R193). -/
def Quern.signalled (q : Quern) (i : Nat) (v : Word64) : Quern :=
  { q with
    goAwait := if q.goSync = i ∧ q.goAwait = v.toNat then 0 else q.goAwait
    runs := q.shards.zipIdx.foldl (fun m e =>
      let r := NatMap.get {} m e.2
      if e.1.gradSync = i ∧ r.await = v.toNat then NatMap.set {} m e.2 { r with await := 0 } else m) q.runs }

/-- The GRAD_SYNC of a shard satisfies its target, the shard is not yet ingested, and it awaits no new signal (R193). -/
def State.gradReady (s : State) (p : Nat) (q : Quern) (k : Nat) (sh : Shard) : Bool :=
  let t := q.shardStep sh + 1
  let r := q.run k
  !r.ingesting && !r.ingested && r.await != t && waitOk (s.syncValue p sh.gradSync) (BitVec.ofNat 64 t)

/-- Shards that are satisfied now join the queue of ingests, in table order behind those satisfied before (R193). -/
def State.queueIngests (s : State) (p : Nat) : State :=
  s.foldQuerns p fun q =>
    { q with ready := q.ready ++ ((q.shards.zipIdx.filter fun e => !q.ready.contains e.2 && s.gradReady p q e.2 e.1).map (·.2)) }

/-- A signal (or release) gives object `i` value `v`: in a repeat window it starts the ingests and latches that wait for it; shards that it
satisfies queue for their ingest. -/
def State.noteSignal (s : State) (p i : Nat) (v : Word64) : State :=
  (if (s.weir p).repeatWindow then s.foldQuerns p (·.signalled i v) else s).queueIngests p

/-- Copy the staged exponents of a collective into its live table (R251); a block infinite at E = 254 raises 0x060A (R252). -/
def State.commitStaged (s : State) (p : Nat) (d : CollDesc) (c : CollRun) : State :=
  let sl := (s.part p).map.slices d.die
  let n := (s.weir p).tbl.domainSize * d.expLen
  let g := c.staged.foldl (fun g e =>
    writeGran g sl (d.expOff + e.1) (readGran g sl (d.expOff + n + e.1) 1)) s.granary
  let s := { s with granary := g }
  if c.staged.any (·.2 == 1) then s.raise { code := 0x060A, loc := { locWeir p with die := d.die } } else s

/-- The commit point of a partition's step: GOV_STEP advances, the staged exponents become live, the repeat window ends. -/
def State.commitPoint (s : State) (p : Nat) : State :=
  let g := (s.part p).gov
  if g.committed ∨ g.aborted then s
  else
    let w := s.weir p
    let s := w.tbl.colls.zipIdx.foldl (fun s e =>
      let c := w.coll e.2
      if c.complete && c.step == g.step then s.commitStaged p e.1 c else s) s
    let s := s.modWeir p fun w =>
      { w with repeatWindow := false, colls := NatMap.mapVals {} (fun _ c => { c with staged := [] }) w.colls }
    s.modGov p fun g => { g with committed := true, step := g.step + 1 }

/-- The fence `i` is the partition's COMMIT_SYNC (R264: no counter is flagged COMMIT, and a loaded shard table names it). -/
def State.commitFence (s : State) (p i : Nat) : Bool :=
  (s.weir p).commitEntry.isNone && (s.weir p).counterEntry i == none
  && (s.partDies p).any fun d => (s.quern p d).loaded && (s.quern p d).commitSync == i

/-! ### Membership (R268) -/

/-- The 64-byte membership record. -/
def membershipRecord (step members : Nat) : List Byte :=
  padTo 64 (leBytes 8 step ++ leBytes 8 members ++ leBytes 1 (bitsOf 64 members).length)

/-- Take a membership that a release of the COMMIT counter carries; a device of an excluded domain brakes. -/
def State.takeMembers (s : State) (p step members : Nat) : State :=
  let s := (s.partClusters p).foldl (fun s c =>
    s.modCluster c fun x => { x with sram := NatMap.setList 0 x.sram 0xFFFBC0 (membershipRecord step members) }) s
  let w := s.weir p
  let out := !bit members w.tbl.replica
  let s := s.setWeir p { w with members := members, excluded := out }
  if out && !w.excluded then (s.brakeWork p).raise { code := 0x0608, loc := locWeir p, severity := 1 } else s

/-! ### A release reaches this device (R263) -/

/-- The counter with its epoch released. A first ABORT_ECC keeps what had arrived, ABORT and BLAME with it, to arrive again; a second
marks the counter FAILED (R266). -/
def SyncObj.released (o : SyncObj) (r : Outcome3) : SyncObj :=
  let ecc := r == .abortEcc
  let again := ecc && !o.retry
  { o with
    value := if r = .pass then o.value + 1 else o.value
    epoch := (o.epoch + 1) % 2 ^ 32
    leaf := if again then o.leaf else []
    arrived := again && o.arrived
    abort := again && o.abort
    blame := if again then o.blame else 0xFF
    arrivals := [], firstArrival := none
    retry := again
    failed := ecc && o.retry
    asked := ecc && o.asked
    eccAsk := none
    recheck := r == .pass }

/-- A braked partition whose commit outcome was asked for on RELEASE may now run: it enters RUNNING and waits for the next
lattice point at least 1 beat ahead (R61, R265). -/
def State.enterRunning (s : State) (p : Nat) : State :=
  let g := (s.part p).gov
  let per := 64 * max g.tt.period 1
  let n := if s.now + 64 ≤ g.t0 then 0 else (s.now + 64 - g.t0 + per - 1) / per
  let s := s.modPart p fun v =>
    { v with state := .running
             gov := { g with braking := false, byDeadline := false, byHalt := false, byPin := false, byLease := false
                             abortStreak := 0, released := true, nextRev := n, runs := [], missRef := none, brakeAfterCommit := false } }
  let s := (s.partClusters p).foldl (fun s c => s.modCluster c fun x => { x with extInt := false }) s
  (s.partTiles p).foldl (fun s t => s.modTile t fun x => { x.freeGroups with halted := false }) s

/-- An ABORT_STEP release abandons the step of a running member, and of a braked one whose arrival on the COMMIT counter awaits it
(R263, R265); one of another counter owes the ABORT arrival on COMMIT (R264). -/
def State.releaseAborts (s : State) (p : Nat) (commit : Bool) (o : SyncObj) : State :=
  let v := s.part p
  let g := v.gov
  if (v.state = .running ∨ (v.state = .braked ∧ commit ∧ o.arrived ∧ !o.abort)) ∧ !g.committed ∧ !g.aborted then
    let s := (s.abandonWork p (g.braking || v.state == .braked)).raise (govFault p 0x010B 0)
    if commit then s else s.modWeir p fun w => { w with abortDue := true }
  else s

/-- A release of counter `i` reaches this device; that of the COMMIT counter carries the membership (R268). -/
def State.applyRelease (s : State) (p i : Nat) (r : Outcome3) (members : Nat) : State :=
  let w := s.weir p
  let o := w.obj i
  let e := w.counterEntry i
  let commit := (e.map (·.commit)).getD false
  let step := (s.part p).gov.step.toNat
  let s := s.setWeir p (w.setObj i (o.released r))
  let s := match r with
    | .pass =>
      let s := s.noteSignal p i (o.value + 1)
      if commit then s.commitPoint p else s
    | .abortStep => s.releaseAborts p commit o
    | .abortEcc =>
      let s := s.modWeir p fun w => { w with eccAborts := w.eccAborts.add 1 }
      if o.retry then s.raise { code := 0x0606, loc := locWeir p } else s
  let s := if commit then s.takeMembers p step members else s
  if o.asked && r != .abortEcc && (s.part p).state = .braked then s.enterRunning p else s

/-! ### At the root (R263, R264, R267) -/

/-- The root releases an epoch: it keeps the outcome among the last 16, tells every node, and takes the release itself. -/
def State.rootRelease (s : State) (p i : Nat) (r : Outcome3) (members : Nat) (quorum : Bool) : State :=
  let o := (s.weir p).obj i
  let s := s.modWeir p fun w => w.setObj i { o with outcomes := ((o.epoch, r) :: o.outcomes).take 16 }
  let s := match (s.weir p).counterEntry i with
    | some e => s.weirTo p ((s.weir p).others e)
        { kind := 1, flags := r.code, index := i, epoch := o.epoch, quorum := quorum, members := members }
    | none => s
  s.applyRelease p i r members

/-- Domain `d` failed to arrive, or more than half of the arrived devices outside it name it (R267). -/
def blamedDomain (w : Weir) (e : CounterEntry) (o : SyncObj) (d : Nat) : Bool :=
  let mine := (w.arrivers e).filter (·.1 == d)
  let got := o.arrivals.map fun a => (a.1, a.2.1)
  let outside := o.arrivals.filter (·.1 != d)
  mine.any (fun m => !got.contains m)
  || decide (outside.length < 2 * (outside.filter fun a => a.2.2.2 == d).length)

/-- The membership with readmitted domains taken in (R269). -/
def Weir.readmitted (w : Weir) : Weir := { w with members := w.readmit.foldl (fun m d => m ||| 2 ^ d) w.members, readmit := [] }

/-- ABORT_STEP of the COMMIT counter at the fleet root: the tallies, the domain excluded, and whether the quorum is lost. -/
def Weir.tally (w : Weir) (e : CounterEntry) (o : SyncObj) : Weir × Bool :=
  let ds := bitsOf 64 w.members
  let w := { w with tallies := ds.foldl (fun m d =>
    if blamedDomain w e o d then NatMap.modify 0 m d (· + 1) else m) w.tallies }
  let bad := ds.filter fun d => decide (w.tbl.excludeAfter ≤ NatMap.get 0 w.tallies d)
  if bad.isEmpty then (w, false)
  else if ds.length < bad.length + w.tbl.minMembers then (w, true)
  else ({ w with members := bad.foldl (fun m d => if bit m d then m - 2 ^ d else m) w.members
                 tallies := bad.foldl (fun m d => NatMap.set 0 m d 0) w.tallies }, false)

/-- Each root of the partition's other counters releases its pending epoch ABORT_STEP with that of the COMMIT counter (R264). -/
def State.abortOthers (s : State) (p : Nat) (e : CounterEntry) : State :=
  let w := s.weir p
  (w.tbl.counters.filter fun c => c.index != e.index && w.isRoot c).foldl
    (fun s c => s.rootRelease p c.index .abortStep (s.weir p).members false) s

/-- The Weir state after a release of the COMMIT counter at the fleet root has taken readmissions in: what it carries as membership is
the second part (R269). -/
def Weir.releaseMembers (w : Weir) (e : CounterEntry) : Weir × Nat :=
  if e.commit && w.fleetRoot then ({ w.readmitted with members := w.members }, w.readmitted.members) else (w, w.members)

/-- The root releases counter `i` with PASS or ABORT_STEP; the COMMIT counter's release carries the membership. -/
def State.rootDecide (s : State) (p : Nat) (e : CounterEntry) (r : Outcome3) : State :=
  let w := s.weir p
  let o := w.obj e.index
  if !e.commit then s.rootRelease p e.index r w.members false
  else
    let lead := w.fleetRoot && e.scope == 2
    let t := if !lead then (w, false) else if r = .pass then ({ w with tallies := [] }, false) else w.tally e o
    let m := if w.fleetRoot then t.1.readmitted else t.1
    let s := s.setWeir p { m with members := w.members, excluded := w.excluded }
    let s := s.rootRelease p e.index r m.members t.2
    let s := if t.2 then (s.brakeWork p).raise { code := 0x060D, loc := locWeir p, severity := 1 } else s
    if r = .abortStep then s.abortOthers p e else s

/-- An arrival reaches the root of its counter (R262 to R264). -/
def State.rootArrive (s : State) (p : Nat) (e : CounterEntry) (epoch replica position : Nat) (abort : Bool) (blame : Nat) : State :=
  let w := s.weir p
  let o := w.obj e.index
  if o.epoch ≠ epoch ∨ !(w.arrivers e).contains (replica, position) then
    s.setWeir p { w with stale := w.stale.add (if o.epoch ≠ epoch then 1 else 0) }
  else if o.failed then s
  else
    let o := { o with arrivals := o.arrivals.filter (fun a => (a.1, a.2.1) != (replica, position)) ++ [(replica, position, abort, blame)]
                      firstArrival := some (o.firstArrival.getD s.now) }
    let s := s.setWeir p (w.setObj e.index o)
    if abort then s.rootDecide p e .abortStep
    else if (w.arrivers e).all fun a => o.arrivals.any fun b => (b.1, b.2.1) == a then s.rootDecide p e .pass
    else s

/-- The device's arrival on a counter is carried toward its root. -/
def State.carryArrival (s : State) (p : Nat) (e : CounterEntry) : State :=
  let w := s.weir p
  let o := w.obj e.index
  if w.isRoot e then s.rootArrive p e o.epoch w.tbl.replica w.tbl.position o.abort o.blame
  else s.weirTo p [w.rootOf e] { kind := 0, flags := flag o.abort, index := e.index, epoch := o.epoch, replica := w.tbl.replica
                                 position := w.tbl.position, blame := o.blame }

/-- The device arrives when every leaf of the partition is complete and every listed fence satisfies VALUE + 1 (R262). -/
def State.deviceComplete (s : State) (p : Nat) (e : CounterEntry) : Bool :=
  let w := s.weir p
  let o := w.obj e.index
  !o.arrived && !o.failed
  && (e.tiles == 0 || (s.partClusters p).all fun c => decide (e.tiles ≤ NatMap.get 0 o.leaf c))
  && (e.fences.all fun f => f == 0xFFFF || waitOk (w.obj f).value (o.value + 1))

def State.checkArrival (s : State) (p : Nat) (e : CounterEntry) : State :=
  if s.deviceComplete p e then
    (s.modWeir p fun w => w.setObj e.index { w.obj e.index with arrived := true }).carryArrival p e
  else s

/-- An epoch is released ABORT_ECC by its root (R266): fault 0x0605, and what had arrived arrives again. -/
def State.eccRelease (s : State) (p : Nat) (e : CounterEntry) : State :=
  let w := s.weir p
  let o := w.obj e.index
  let m := w.releaseMembers e
  let s := (s.setWeir p m.1).rootRelease p e.index .abortEcc m.2 false
  let s := if o.retry then s else s.raise { code := 0x0605, loc := locWeir p }
  if ((s.weir p).obj e.index).arrived then s.carryArrival p e else s

/-! ### Abandoning and braking with the Weir told -/

/-- The abort of an abandoned step goes out through the Weir (R54 step 4, R264). -/
def State.weirAbort (s : State) (p blame : Nat) : State :=
  match (s.weir p).commitEntry with
  | none => s
  | some e =>
    if ((s.weir p).obj e.index).arrived ∨ ((s.weir p).obj e.index).failed then s
    else
      (s.modWeir p fun w => w.setObj e.index { w.obj e.index with arrived := true, abort := true, blame := blame }).carryArrival p e

/-- A partition is braked (R57); where that abandons the step, the Weir is told, with the domain to blame. -/
def State.brakeStep (s : State) (p blame : Nat) : State :=
  let before := (s.part p).gov.aborted
  let s := s.brakeWork p
  if (s.part p).gov.aborted && !before then s.weirAbort p blame else s

/-- A brake on the beat of a miss takes effect, and the entries it ends are not counted as misses (R56). -/
def Gov.takeBack (g : Gov) (now : Nat) : Gov :=
  let l := g.beatMisses.filter fun k => (g.run k).status != .complete
  if g.missBeat = now / 64 ∧ !l.isEmpty then
    { g with missCount := g.missCount - l.length, lastMiss := g.missBefore, missRef := none, beatMisses := [] }
  else g

/-- A partition is braked (R57) by something else than a miss. -/
def State.brake (s : State) (p : Nat) : State :=
  let v := s.part p
  if (v.state = .armed ∨ v.state = .running) ∧ !v.gov.braking then (s.modGov p (·.takeBack s.now)).brakeStep p 0xFF
  else s.brakeStep p 0xFF

/-- The partition's step is abandoned (R54), subject to R55; while a commit release is awaited it is a brake with fault 0x0609
(R265). -/
def State.abandonStep (s : State) (p blame : Nat) : State :=
  let v := s.part p
  if v.state ≠ .running ∨ v.gov.committed ∨ v.gov.aborted ∨ v.gov.braking then s
  else if (s.weir p).awaitsCommit then
    ((s.modGov p fun g => { g with byDeadline := true }).brakeStep p blame).raise { code := 0x0609, loc := locWeir p, severity := 1 }
  else (s.abandonWork p false).weirAbort p blame

/-! ### Signals (R236, R262) -/

/-- A signal that does not advance its object: fault 0x0601, and the signaller stops (R236); `i` is the flight of a SIGNAL TOP. -/
def State.regression (s : State) (p : Nat) (src : SignalSrc) (i : Nat) : State :=
  let s := s.modWeir p fun w => { w with regress := w.regress.add 1 }
  match src with
  | .tile t => s.topFails t i 0x0601
  | .leat c k => s.leatFault c k 0x0601
  | .quern q d => s.quernStop q d { code := 0x0601 }
  | .collective q => s.raise { code := 0x0601, loc := locWeir q, severity := 0 }
  | .core c => s.raise { code := 0x0601, loc := s.locCluster c 7 }
  | .host x _ => s.raise { code := 0x0601, loc := locWeir p, ctx := x }

/-- The cluster a signal comes from. -/
def SignalSrc.cluster? : SignalSrc → Option Nat
  | .tile t => some (tileCluster t)
  | .core c => some c
  | .leat c _ => some c
  | _ => none

/-- Counters whose FENCES list fence `i` may now be complete. -/
def State.fenceAdvanced (s : State) (p i : Nat) : State :=
  let w := s.weir p
  if w.loaded then (w.tbl.counters.filter (·.fences.contains i)).foldl (fun s e => s.checkArrival p e) s else s

/-- The sync unit's cycle of an object: VALUE before the signals of the present cycle, and those signals (R237). -/
def State.syncCycle (s : State) (o : SyncObj) : Word64 × List Word64 :=
  if o.cycleAt = s.now + 1 then (o.cycleBase, o.cycleVals) else (o.value, [])

/-- Signals of one cycle are applied in increasing order of their distance from VALUE (R237): one that comes behind a farther signal of its
cycle has been applied before it. -/
def State.passed (s : State) (o : SyncObj) (v : Word64) : Bool :=
  let c := s.syncCycle o
  decide (0 < (v - c.1).toNat) && decide ((v - c.1).toNat < (o.value - c.1).toNat) && decide ((o.value - c.1).toNat < 2 ^ 63) && !c.2.contains v

/-- The object with a signal of the present cycle applied. -/
def State.cycled (s : State) (o : SyncObj) (value v : Word64) : SyncObj :=
  let c := s.syncCycle o
  { o with value := value, cycleAt := s.now + 1, cycleBase := c.1, cycleVals := v :: c.2 }

/-- A signal of value `v` reaches sync object `i` of partition `p`: whether it was accepted, and the state after it; `fl` is the
flight of a SIGNAL TOP. -/
def State.signalTop (s : State) (p i : Nat) (v : Word64) (src : SignalSrc) (fl : Nat) : Bool × State :=
  let w := s.weir p
  let o := w.obj i
  let commitHere := fun (s : State) => if v = s.stepTarget p && s.commitFence p i then s.commitPoint p else s
  if v = o.value ∧ w.repeatWindow then
    (true, commitHere (((s.setWeir p { w with resignals := w.resignals.add 1 }).noteSignal p i v).fenceAdvanced p i))
  else match w.counterEntry i with
    | some e =>
      if v = o.value + 1 then
        if o.failed then (true, s)
        else match src.cluster? with
          | none => (true, s.checkArrival p e)
          | some c => (true, (s.setWeir p (w.setObj i { o with leaf := NatMap.modify 0 o.leaf c (· + 1) })).checkArrival p e)
      else (false, s.regression p src fl)
    | none =>
      let d := (v - o.value).toNat
      if 1 ≤ d ∧ d < 2 ^ 63 then
        (true, commitHere (((s.setWeir p (w.setObj i (s.cycled o v v))).noteSignal p i v).fenceAdvanced p i))
      else if s.passed o v then
        (true, commitHere ((s.setWeir p (w.setObj i (s.cycled o o.value v))).noteSignal p i v))
      else (false, s.regression p src fl)

/-- A signal whose source is no TOP. -/
def State.signal (s : State) (p i : Nat) (v : Word64) (src : SignalSrc) : Bool × State := s.signalTop p i v src 0

/-! ### What releases leave to do -/

/-- Bounds the arrivals that follow one another without a signal: each advances one of 256 counters toward its fences (R262). -/
def weirFuel : Nat := 2 ^ 72

/-- After releases: an ABORT arrival that is owed is made (R264), and a counter in a new epoch arrives where its conditions hold already
(R262). `n` bounds the rounds. -/
def State.settleWeir (s : State) (p : Nat) : (n : Nat) → State
  | 0 => s
  | n + 1 =>
    let w := s.weir p
    if w.abortDue then State.settleWeir ((s.setWeir p { w with abortDue := false }).weirAbort p 0xFF) p n
    else match w.tbl.counters.find? fun e => (w.obj e.index).recheck with
      | none => s
      | some e =>
        State.settleWeir ((s.setWeir p (w.setObj e.index { w.obj e.index with recheck := false })).checkArrival p e) p n

/-! ### A Weir message arrives (R261 to R266) -/

/-- A node asks the root of a counter for an epoch's outcome. -/
def State.askRoot (s : State) (p : Nat) (e : CounterEntry) (epoch : Nat) : State :=
  let w := s.weir p
  s.weirTo p [w.rootOf e] { kind := 2, index := e.index, epoch := epoch, replica := w.tbl.replica, position := w.tbl.position }

/-- The root answers a member that asks for an epoch's outcome: 3 where it is no longer among the last 16. -/
def State.answerOutcome (s : State) (p : Nat) (e : CounterEntry) (m : WeirMsg) : State :=
  let w := s.weir p
  let f := match (w.obj e.index).outcomes.find? (·.1 == m.epoch) with | some x => x.2.code | none => 3
  s.weirTo p [(m.replica, m.position)]
    { kind := 3, flags := f, index := m.index, epoch := m.epoch, replica := m.replica, position := m.position, members := w.members }

/-- A release, or the answer that recovers one, is taken: after ABORT_ECC a node that had arrived first asks for the outcome (R266), and
an ABORT_STEP of the COMMIT counter goes on to the counters that this device roots (R264). -/
def State.takeRelease (s : State) (p : Nat) (e : CounterEntry) (m : WeirMsg) (r : Outcome3) : State :=
  let s := s.applyRelease p m.index r m.members
  let s := if r = .abortEcc ∧ ((s.weir p).obj m.index).arrived then
      (s.modWeir p fun w => w.setObj m.index { w.obj m.index with eccAsk := some m.epoch }).askRoot p e m.epoch
    else s
  let s := if r = .abortStep ∧ e.commit then s.abortOthers p e else s
  if m.quorum then (s.brakeWork p).raise { code := 0x060D, loc := locWeir p, severity := 1 } else s

/-- The answer to a node whose epoch was released ABORT_ECC (R266): another outcome of that epoch is delivered as such, else the node
arrives again under the new epoch. -/
def State.eccAnswer (s : State) (p : Nat) (e : CounterEntry) (m : WeirMsg) : State :=
  let o := (s.weir p).obj m.index
  let o := { o with eccAsk := none }
  match outcomeOf m.flags with
  | some .pass => (s.modWeir p fun w => w.setObj m.index { o with epoch := m.epoch }).takeRelease p e m .pass
  | some .abortStep => (s.modWeir p fun w => w.setObj m.index { o with epoch := m.epoch }).takeRelease p e m .abortStep
  | _ => (s.modWeir p fun w => w.setObj m.index o).carryArrival p e

/-- Take a Weir message. A node's error report counts for the pending epoch; for one already released the root sends its outcome. -/
def State.weirReceive (s : State) (p : Nat) (m : WeirMsg) : State :=
  let w := s.weir p
  match w.counterEntry m.index with
  | none => s
  | some e =>
    let o := w.obj m.index
    match m.kind, w.isRoot e with
    | 0, true => s.rootArrive p e m.epoch m.replica m.position (m.flags % 2 == 1) m.blame
    | 1, false =>
      if o.epoch ≠ m.epoch then s
      else match outcomeOf m.flags with
        | none => s
        | some r => s.takeRelease p e m r
    | 2, true => if o.epoch = m.epoch then s else s.answerOutcome p e m
    | 3, false =>
      if o.eccAsk = some m.epoch then s.eccAnswer p e m
      else if o.epoch ≠ m.epoch then s
      else match outcomeOf m.flags with
        | some r => s.takeRelease p e m r
        | none => (s.setWeir p (w.setObj m.index { o with asked := false })).raise { code := 0x0607, loc := locWeir p }
    | 5, true => if o.epoch = m.epoch then s.eccRelease p e else s.answerOutcome p e m
    | _, _ => s

/-- On RELEASE a device that awaits a commit release asks the root for its outcome before anything else runs (R265); the root
itself waits until it has released the epoch. -/
def State.askOutcome (s : State) (p : Nat) (e : CounterEntry) : State :=
  let w := s.weir p
  let o := w.obj e.index
  let s := s.setWeir p (w.setObj e.index { o with asked := true })
  if w.isRoot e then s else s.askRoot p e o.epoch

end Sys2Proof.Machine
end

