-- ==== Sys2Proof/Machine/RasOps.lean ====
section
/-! DEFINITION. What the hardware checks do (R383 to R390): counting ECC errors, quarantining a tile, and handing a hallmark
failure to the spare tile. -/
namespace Sys2Proof.Machine
open Sys2Proof

/-- Count a corrected word of a class of RAS_ECC_CORR (R390). -/
def State.countCorr (s : State) (cls : Nat) : State :=
  s.modRas fun r => { r with corr := NatMap.modify 0 r.corr (cls % 4) fun n => min (n + 1) 0xFFFF }
/-- Count an uncorrectable word of a class of RAS_ECC_UNCORR. -/
def State.countUncorr (s : State) (cls : Nat) : State :=
  s.modRas fun r => { r with uncorr := NatMap.modify 0 r.uncorr (cls % 4) fun n => min (n + 1) 0xFFFF }

/-! ### Spares and repair reports (R391, R395, R396) -/

/-- Where a failing word lies as Table 15.7 names it: TILE, MEMORY, ADDR, and the instance that has spares of its own. -/
structure MemSite where
  tile : Nat := 0xFFFF
  memory : Nat
  owner : Nat := 0
  bank : Nat
  addr : Nat
  deriving DecidableEq, Repr

/-- The bank of a memory, or the MiB of a scratch, SRAM or Granary, that holds an address (Table 15.4). -/
def siteBank (memory addr : Nat) : Nat :=
  if memory = 3 then 0 else if memory = 6 ∨ memory = 7 then addr / 1048576 else Config.memBank memory addr % 16777216

/-- The place of a word; none where Table 15.7 has no code for its memory, which then has no spares either (Table 15.4). DESIGN
CHOICE: a row of scratch is its 64-bit word; a Pond line is reported under the code of HBM, whose row of Table 15.4 it shares. -/
def MemWord.site : MemWord → Option MemSite
  | .cell t m r => some { tile := t, memory := m, owner := t, bank := siteBank m r, addr := r }
  | .scratch t a => some { tile := t, memory := 3, owner := t, bank := 0, addr := a / 8 }
  | .sram c a => some { memory := 6, owner := c, bank := siteBank 6 a, addr := a }
  | .granary sl a => some { memory := 7, owner := sl, bank := siteBank 7 a, addr := a }
  | .hbm l => some { memory := 8, bank := siteBank 8 l, addr := l }
  | .pond l => some { memory := 8, owner := 1, bank := 0, addr := l }
  | .ctrl _ _ | .sync _ _ => none

/-- The spares of an instance (Table 15.4): rows, or columns. -/
def MemSite.spares (m : MemSite) (column : Bool) : Nat :=
  if m.memory = 8 then (if column ∨ m.owner = 1 then 0 else 1)
  else if column then 4
  else if m.memory = 3 ∨ m.memory = 6 ∨ m.memory = 7 then 16 else 8

def MemSite.key (m : MemSite) (column : Bool) : Nat := ((2 * m.memory + flag column) * 1024 + m.owner) * 16777216 + m.bank

/-- A repair report (Table 15.7). -/
def repairReport (m : MemSite) (kind bit left source now : Nat) : List Byte :=
  leBytes 2 m.tile ++ leBytes 1 m.memory ++ leBytes 1 kind ++ leBytes 5 m.addr ++ leBytes 1 bit ++ leBytes 1 left
  ++ leBytes 1 source ++ leBytes 4 (now / 1000000)

/-- Map the row or column of a failing word to a spare, where one remains, and write the repair report: whether it is repaired, the
report, and the state. -/
def State.repair (s : State) (m : MemSite) (column : Bool) (bit source : Nat) : Bool × List Byte × State :=
  let used := NatMap.get 0 s.ras.sparesUsed (m.key column)
  let ok := decide (used < m.spares column)
  let used := if ok then used + 1 else used
  let report := repairReport m (if ok then flag column else 2) bit (m.spares column - used) source s.now
  (ok, report, s.modRas fun r =>
    { r with sparesUsed := NatMap.set 0 r.sparesUsed (m.key column) used, reports := (report :: r.reports).take 256 })

/-- The class of RAS_ECC_CORR and RAS_ECC_UNCORR of a word; a line has none. -/
def MemWord.cls : MemWord → Option Nat
  | .cell _ _ _ => some 0
  | .scratch _ _ | .sram _ _ | .granary _ _ => some 1
  | .sync _ _ => some 2
  | .ctrl _ _ => some 3
  | .hbm _ | .pond _ => none

/-- The partition that holds a Granary slice. -/
def State.slicePart (s : State) (sl : Nat) : Option Nat := (List.range 16).find? fun p => bit (s.part p).map.granary sl

/-- Where a word's fault lies (R401), and its ADDR. -/
def State.wordLoc (s : State) : MemWord → FaultLoc × Option Nat
  | .cell t _ _ | .scratch t _ => (s.locTile t 0, none)
  | .sram c a => (s.locCluster c 0, some a)
  | .granary sl a => ({ part := (s.slicePart sl).getD 0xFF, die := sl / 8 }, some a)
  | .ctrl c _ => (s.locCluster c 7, none)
  | .sync p _ => (locWeir p, none)
  | .hbm l => ({ die := l / 603979776, unit := 11 }, some (64 * l))
  | .pond l => ({ die := pondDie (pondPlace (64 * l)).1, unit := 11 }, some (64 * l))

/-- 24 hours in ns (R391). -/
def dayNs : Nat := 86400000000000

/-- A word was corrected (R390): it is counted, and corrected at the same address twice within 24 h its row is mapped to a spare, with
fault 0x0A08 and a repair report (R391). -/
def State.correctedWord (s : State) (w : MemWord) (bit : Nat) : State :=
  let s := match w.cls with
    | some c => s.countCorr c
    | none => s.modMce fun m => { m with eccCorr := min (m.eccCorr + 1) 0xFFFFFFFF }
  match w.site with
  | none => s
  | some m =>
    let fresh := s.ras.corrected.filter fun e => decide (s.now < e.2.2.2 + dayNs)
    let same := fun (e : Nat × Nat × Nat × Nat) => e.1 == m.memory && e.2.1 == m.owner && e.2.2.1 == m.addr
    if fresh.any same then
      let r := s.repair m false bit 1
      let l := s.wordLoc w
      (r.2.2.modRas fun x => { x with corrected := fresh.filter (!same ·) }).raise
        { code := 0x0A08, loc := l.1, severity := 2, addr := l.2, detail := r.2.1 }
    else s.modRas fun x => { x with corrected := (m.memory, m.owner, m.addr, s.now) :: fresh }

/-- The class of a memory of Table 15.7: TILE, SRAM, or CTRL for one the table does not name. -/
def memoryClass (m : Nat) : Nat := if m = 3 ∨ m = 6 ∨ m = 7 then 1 else if m ≤ 5 then 0 else 3

/-- R390: an uncorrectable word of a tile, cluster, Granary or control-core memory abandons the step of the partition that holds
it, with fault 0x0A07. -/
def State.eccFault (s : State) (p : Nat) (loc : FaultLoc) (memory addr syndrome bit : Nat) : State :=
  let s := (s.countUncorr (memoryClass memory)).abandonStep p 0xFF
  s.raise { code := 0x0A07, loc := loc, severity := 0, addr := if memory = 6 ∨ memory = 7 then some addr else none
            detail := padTo 24 (leBytes 1 memory ++ leBytes 2 syndrome ++ leBytes 1 bit) }

/-- The verdict of the memory codes on an engine's operation that belongs to no tile: it goes on unless a word is uncorrectable. -/
def State.engineEcc (s : State) (p : Nat) (loc : FaultLoc) : HwCheck → Bool × State
  | .corrected w bit => (true, s.correctedWord w bit)
  | .uncorrectable m a sy b => (false, s.eccFault p loc m a sy b)
  | _ => (true, s)

/-- A tile is quarantined with a fault (R384, R387, R388): the step is abandoned, and the tile halts as R88 describes but stays
QUARANTINED. -/
def State.quarantine (s : State) (t : Nat) (cause : QuarCause) (code unit : Nat) (top : Top) (detail : List Byte) : State :=
  let s := match s.tilePart t with | some p => s.abandonStep p 0xFF | none => s
  let s := s.haltTile t 0 code top
  let s := s.modTile t fun x => { x with halted := false, quarantined := true, quarCause := cause, arbitrating := false }
  s.raise { code := code, loc := s.locTile t unit, severity := 1, detail := detail }

def Ras.spare (r : Ras) (d : Nat) : Spare := NatMap.get {} r.spares d
def Ras.setSpare (r : Ras) (d : Nat) (v : Spare) : Ras := { r with spares := NatMap.set {} r.spares d v }

/-- DETAIL of 0x0A01 to 0x0A03: x_o, x_s and x_3. -/
def arbDetail (xo xs x3 : Int) : List Byte := leBytes 8 (unsigned 64 xo) ++ leBytes 8 (unsigned 64 xs) ++ leBytes 8 (unsigned 64 x3)

/-- The tile's flight of the array that is held for arbitration. -/
def Flight.heldMma (f : Flight) (arrB : Bool) : Bool :=
  topOpcode f.top == 1 && f.phase == .held && (mmaArms f.top).any (·.1 == arrB)

/-- The array was found wrong, or no vote decides: the tile stays QUARANTINED and its step is abandoned (Table 15.2). -/
def State.arrayWrong (s : State) (a : Arbitration) (code : Nat) (cause : QuarCause) (xs x3 : Int) : State :=
  let top := (((s.tile a.tile).flight.find? (·.heldMma a.arrB)).map (·.top)).getD 0
  let s := s.modTile a.tile fun x => { x with flight := x.flight.filter fun f => !f.heldMma a.arrB }
  s.quarantine a.tile cause code (if a.arrB then 2 else 1) top (arbDetail a.xo xs x3)

/-- ρ of R383. -/
def rho (v : Int) : Nat := if 0 ≤ v then v.natAbs % 65535 else 65535 - v.natAbs % 65535

/-- One product of a column as the hallmark sees it (R383): the operands' signed integer significands and the product's alignment. -/
structure HallTerm where
  a : Int
  w : Int
  k : Nat
  deriving DecidableEq, Repr

/-- The adder's exact sum X of a column (R383). -/
def columnExact (l : List HallTerm) : Int := (l.map fun e => e.a * e.w * 2 ^ e.k).sum

/-- R_n of the check cells (R383). -/
def hallmark (l : List HallTerm) : Nat := (l.map fun e => rho e.a * rho e.w * 2 ^ (e.k % 16)).sum % 65535

/-- The comparison of R_n with ρ(X_n) (R383). DEDUCED: residues are compared modulo 65,535, since ρ of a negative multiple of 65,535
is written 65,535. -/
def residuesAgree (r : Nat) (x : Int) : Bool := r % 65535 == rho x % 65535

/-- A hallmark column check failed: the tile takes STATE QUARANTINED and waits for the die's spare tile, which is given
the input vector, the weight block, x_o and ρ_e (R385). A die whose
spare arrays are both disabled decides at once that the array was wrong. -/
def State.startArbitration (s : State) (t : Nat) (arrB : Bool) (v n : Nat) (xo : Int) (rhoE : Nat) (input : List Nat)
    (weights : WeightBlock) : State :=
  let x := s.tile t
  let a : Arbitration :=
    { tile := t, arrB := arrB, v := v, n := n, xo := xo, rhoE := rhoE, halted := x.halted, input := input, weights := weights }
  let d := clusterDie (tileCluster t)
  let sp := s.ras.spare d
  let s := s.setTile t { x with quarantined := true, arbitrating := true, arbCount := min (x.arbCount + 1) 0xFFFF }
  if sp.aFailed && sp.bFailed then s.arrayWrong a 0x0A02 .array 0 0
  else s.modRas fun r => r.setSpare d { sp with queue := sp.queue ++ [a] }

end Sys2Proof.Machine
end

