-- ==== Sys2Proof/Machine/GovOps.lean ====
section
/-! DEFINITION. The Governor's shared operations (chapter 02): brakes by cause (R57 to R60, R34, R37), deadline misses (R53, R55,
R56), and starting and completing timetable entries (R50). -/
namespace Sys2Proof.Machine
open Sys2Proof

/-- What a command answers: the spec gives it an effect in every state. -/
abbrev Answer := Host.Outcome State Fault Refusal

/-! ### Brakes by cause -/

/-- What brakes a partition: a lease lapse (0x0106), BRAKE_N (0x0107), HALT_PART or GOV_CMD HALT (0x0108). -/
inductive BrakeCause where
  | lease | pin | halt
  deriving DecidableEq, Repr

def BrakeCause.code : BrakeCause → Nat
  | .lease => 0x0106 | .pin => 0x0107 | .halt => 0x0108
def BrakeCause.bit : BrakeCause → Nat
  | .lease => 1 | .pin => 2 | .halt => 4

/-- Set the BY_ bit of a cause (Table 02.14). -/
def Gov.brakedBy (g : Gov) : BrakeCause → Gov
  | .lease => { g with byLease := true } | .pin => { g with byPin := true } | .halt => { g with byHalt := true }

/-- Set the BY_ bits of the causes collected during a rebinding. -/
def Gov.brakedByAll (g : Gov) (m : Nat) : Gov :=
  { g with byLease := g.byLease || bit m 0, byPin := g.byPin || bit m 1, byHalt := g.byHalt || bit m 2 }

/-- The work in flight of a DRAINING partition is abandoned (R34). -/
def State.abandonDrain (s : State) (p : Nat) : State :=
  let s := s.modPart p fun v => { v with brakedDrain := true, rebind := { v.rebind with braked := true } }
  let mine := fun x => x != 0 && (s.ctx x).desc.part == p
  let s := { s with
    copyJobs := s.copyJobs.filter fun j => j.kind == 2 || !mine j.ctx
    qps := NatMap.mapVals {} (fun _ q => if mine q.onCtx then { q with write := none, held := [] } else q) s.qps }
  s.abandonWork p true

/-- Brake a partition by a cause. ARMED or RUNNING: R57, with its fault and its bit, also where a brake is under way (R59, R60). DRAINING:
its work is abandoned, and it goes to BRAKED once rebound (R34, R37). SCRUBBING, RETIRING, LOADING: it goes to BRAKED once
rebound; fault 0x0107 is then left to that (R60). -/
def State.brakeBy (s : State) (p : Nat) (c : BrakeCause) : State :=
  let v := s.part p
  let fault := govFault p c.code 1
  match v.state with
  | .armed | .running => ((s.modGov p (·.brakedBy c)).brake p).raise fault
  | .braked => if v.gov.brakeAt = s.now then (s.modGov p (·.brakedBy c)).raise fault else s
  | .draining =>
    let s := s.modPart p fun v => { v with rebind := { v.rebind with causes := v.rebind.causes ||| c.bit } }
    (if v.rebind.braked then s else s.abandonDrain p).raise fault
  | .scrubbing | .retiring | .loading =>
    if v.rebind.inProgress && (v.rebind.toLoad || v.state == .loading) then
      let s := s.modPart p fun v => { v with rebind := { v.rebind with causes := v.rebind.causes ||| c.bit } }
      if c = .pin then s else s.raise fault
    else s
  | .free => s

/-- Brake by a BRAKE policy or by ABORT_LIMIT; an abandonment that this causes blames domain `blame` (R267). -/
def State.brakeDeadline (s : State) (p blame : Nat) : State := (s.modGov p fun g => { g with byDeadline := true }).brakeStep p blame

/-- The lease of a partition has lapsed (R58). -/
def State.leaseLapsed (s : State) (p : Nat) : Bool := decide ((s.part p).gov.leaseExpiry ≤ s.now)

/-! ### Deadline misses -/

/-- The instant at which the run of key `k` misses (R53): its deadline, or the end of its revolution where it has none. -/
def Gov.missAt (g : Gov) (k : Nat) : Nat :=
  match g.tt.entries[k % 4096]? with
  | none => 0
  | some e =>
    if e.deadline = 0 then g.revStart (k / 4096 + 1)
    else g.revStart (k / 4096) + 64 * e.offset + 64 * e.deadline

/-- The run may still miss: it is not complete, has not ended and has not missed. -/
def EntryRun.pending (r : EntryRun) : Bool := !r.missed && r.status != .complete && r.status != .ended

/-- An abandoned step skips an entry of the present revolution that has not started (R54). -/
def Gov.skips (g : Gov) (k : Nat) : Bool :=
  g.aborted && (g.run k).status == .idle && (match g.tt.entries[k % 4096]? with | some e => endsEntry false e.kind | none => false)

/-- Keys of the runs that may still miss: every open run, and every entry of the present revolution that is not skipped. -/
def Gov.openKeys (g : Gov) : List Nat :=
  (g.runs.filter fun e => e.2.pending && decide (e.1 / 4096 < g.rev)).map (·.1)
  ++ (if g.revOpen then ((List.range g.tt.entries.length).map g.key).filter fun k => (g.run k).pending && !g.skips k else [])

/-- A miss to be recorded: the run, its policy, and whether it is implicit (R53). -/
structure Miss where
  key : Nat
  policy : Nat
  implicit : Bool
  deriving DecidableEq, Repr

/-- The miss of a run; an entry with no deadline misses with policy ABORT_STEP. -/
def Gov.miss (g : Gov) (k : Nat) : Miss :=
  match g.tt.entries[k % 4096]? with
  | none => ⟨k, 0, false⟩
  | some e => if e.deadline = 0 then ⟨k, 1, true⟩ else ⟨k, e.policy, false⟩

/-- R402: a miss is Fatal where it brakes, Recoverable where it abandons, else Informational. -/
def policySeverity : Nat → Nat
  | 2 => 1 | 1 => 0 | _ => 3

/-- Record one miss: GOV_MISS_COUNT, GOV_LAST_MISS and its fault; `eff` is the policy that takes effect. -/
def State.recordMiss (s : State) (p at_ eff : Nat) (demoted : Bool) (m : Miss) : State :=
  let g := (s.part p).gov
  let kind := ((g.tt.entries[m.key % 4096]?).map (·.kind)).getD 0
  let dem := demoted && m.policy == 1
  let s := s.modGov p fun g =>
    { g.setRun m.key { g.run m.key with missed := true } with
      missCount := min (g.missCount + 1) 0xFFFFFFFF
      lastMiss := { late := 0xFFFFFFF, implicit := m.implicit, demoted := dem, policy := eff, kind := kind, entry := m.key % 4096 }
      missRef := some (m.key, at_) }
  s.raise (govFault p (if m.implicit then 0x0102 else 0x0101) (policySeverity eff) (m.key % 4096) kind eff 0xFFFFFFF dem)

/-- The collective an entry names: COLL_ID of a COLLECTIVE_WINDOW or a DIGEST_COMPARE. -/
def TtEntry.collId (e : TtEntry) : Option Nat :=
  match e.kind with | 2 => some (bits e.arg 16 16) | 5 => some (bits e.arg 0 16) | _ => none

/-- The domain that an abandonment for these misses blames (R267): the one that a missed window's collective names. -/
def State.missBlame (s : State) (p : Nat) (l : List Miss) : Nat :=
  let g := (s.part p).gov
  ((l.filterMap fun m => match g.tt.entries[m.key % 4096]? with
    | some e => e.collId.map fun c => ((s.weir p).coll c).blame
    | none => none).find? (· != 0xFF)).getD 0xFF

/-- No Quern of the partition still has to flip for the committed step. -/
def State.flipsDone (s : State) (p : Nat) : Bool :=
  (s.partDies p).all fun d => let q := s.quern p d; !q.loaded || q.stopped || decide (q.step == (s.part p).gov.step.toNat)

/-- Several misses at one instant: each is recorded, and only the strongest policy takes effect (R56), subject to R55. -/
def State.takeMisses (s : State) (p at_ : Nat) (l : List Miss) : State :=
  if l.isEmpty then s
  else
    let strong := l.foldl (fun a m => max a m.policy) 0
    let committed := (s.part p).gov.committed
    let demoted := strong == 1 && committed
    let eff := if demoted then 0 else strong
    let blame := s.missBlame p l
    let s := s.modGov p fun g => { g with missBeat := at_ / 64, beatMisses := l.map (·.key), missBefore := g.lastMiss }
    let s := l.foldl (fun s m => s.recordMiss p at_ eff demoted m) s
    match eff with
    | 2 =>
      if committed && !s.flipsDone p then s.modGov p fun g => { g with byDeadline := true, brakeAfterCommit := true }
      else s.brakeDeadline p blame
    | 1 => s.abandonStep p blame
    | _ => s

/-- The misses of a partition that fall at instant `at_`. -/
def Gov.missesAt (g : Gov) (at_ : Nat) : List Miss := (g.openKeys.filter fun k => g.missAt k == at_).map g.miss

/-! ### Entries -/

/-- An entry of the present revolution is due and not started: every earlier entry of the table has been started. -/
def State.due (s : State) (p i : Nat) : Bool :=
  let v := s.part p
  let g := v.gov
  v.state == .running && !g.braking && g.revOpen && decide (i < g.tt.entries.length) && (g.run (g.key i)).status == .idle
  && (match g.tt.entries[i]? with | some e => decide (g.revStart g.rev + 64 * e.offset ≤ s.now) | none => false)
  && (List.range i).all fun j => (g.run (g.key j)).status != .idle

/-- PHASE of a PHASE_START entry. -/
def TtEntry.phase (e : TtEntry) : Nat := bits e.arg 0 2

/-- The phases of a partition in a state, by run. -/
def Gov.phases (g : Gov) (st : EntryStatus) : List Nat :=
  (g.runs.filter fun e => e.2.status == st && ((g.tt.entries[e.1 % 4096]?).map (·.kind)) == some 1).map (·.1)

/-- A PHASE_START for B or U with no preceding phase started in its revolution: a miss at once (R51). -/
def Gov.unpreceded (g : Gov) (e : TtEntry) : Bool := decide (0 < e.phase) && !bit g.phasesStarted (e.phase - 1)

/-- A phase of the partition is open, or one is held: a PHASE_START is held behind it (R51). -/
def Gov.holdsPhase (g : Gov) : Bool := !(g.phases .running).isEmpty || !(g.phases .held).isEmpty

/-- An entry at its slot starts: an abandoned step does not skip it (R54), and R51 neither holds it nor calls it a miss. -/
def Gov.starts (g : Gov) (e : TtEntry) : Bool :=
  !(g.aborted && endsEntry false e.kind) && (e.kind != 1 || (!g.unpreceded e && !g.holdsPhase))

/-- The held phase that may start: no phase is open (R51). -/
def Gov.heldReady (g : Gov) : Option Nat := if (g.phases .running).isEmpty then (g.phases .held).head? else none

/-- Entries of partition `p` whose start is due now. -/
def State.dueCount (s : State) (p : Nat) : Nat :=
  let g := (s.part p).gov
  if (s.part p).state == .running && !g.braking && g.revOpen then
    ((List.range g.tt.entries.length).filter fun i =>
      (g.run (g.key i)).status == .idle
      && (match g.tt.entries[i]? with
          | some e => decide (g.revStart g.rev + 64 * e.offset ≤ s.now) && g.starts e
          | none => false)).length + flag g.heldReady.isSome
  else 0

/-- R50: the Governor starts at most 8 entries per beat; when more are due, in order of partition number, then of the table. -/
def State.startAllowed (s : State) (p : Nat) : Bool :=
  let used := if s.mill.beat = s.now / 64 then s.mill.beatStarts else 0
  let due := ((List.range 16).map s.dueCount).foldl (· + ·) 0
  decide (used < 8) && (decide (used + due ≤ 8) || (List.range p).all fun q => s.dueCount q == 0)

/-- An entry is complete: its run is, and LATE_BEATS of its miss tells the whole beats since its deadline (Table 02.14). DESIGN CHOICE
(log entry 164): under every policy, and a part of a beat does not count. -/
def Gov.completeRun (g : Gov) (k now : Nat) : Gov :=
  let g := g.setRun k { g.run k with status := .complete }
  match g.missRef with
  | some (k', t) =>
    if k' = k then
      { g with missRef := none, lastMiss := { g.lastMiss with late := min ((now - t) / 64) 0xFFFFFFE } }
    else g
  | none => g

def State.completeRun (s : State) (p k : Nat) : State := s.modGov p (·.completeRun k s.now)

/-- The Governor has started one more entry in this beat (R50). -/
def State.countStart (s : State) : State :=
  s.modMill fun m => { m with beat := s.now / 64, beatStarts := (if m.beat = s.now / 64 then m.beatStarts else 0) + 1 }

/-- Start entry `i` of kind `kind` (R50): at a lapsed lease the partition brakes instead (R58); in an abandoned step the entries of
R54 are skipped; a start more than 1 beat late raises 0x0103. A skipped or held entry, and one that misses at once, is no start.
`f` is the entry's own work. -/
def State.startEntry (s : State) (p i kind : Nat) (f : TtEntry → State → State) : State :=
  let g := (s.part p).gov
  match g.tt.entries[i]? with
  | none => s
  | some e =>
    if s.due p i && (!g.starts e || s.startAllowed p) && e.kind == kind then
      if s.leaseLapsed p then s.brakeBy p .lease
      else
        let start := g.revStart g.rev + 64 * e.offset
        let s := if g.starts e then s.countStart else s
        if g.aborted && endsEntry false e.kind then
          s.modGov p fun g => g.setRun (g.key i) { status := .ended, start := start }
        else
          let late := decide (start + 64 < s.now)
          let s := s.modGov p fun g => g.setRun (g.key i) { status := .running, start := start }
          let s := f e s
          if late && ((s.part p).gov.run (g.key i)).status != .held && ((s.part p).gov.run (g.key i)).status != .ended then s.raise (govFault p 0x0103 3 i e.kind 0 0) else s
    else s

end Sys2Proof.Machine
end

