-- ==== Sys2Proof/Machine/Lenhar.lean ====
section
/-! DEFINITION. Lenhar containers (R22, R23) and the operator objects they are read from. -/
namespace Sys2Proof.Machine
open Sys2Proof

/-- A signature entry (Table 01.7). -/
structure SigEntry where
  alg : Nat
  keyId : List Byte
  sig : List Byte
  deriving DecidableEq, Repr

/-- A container whose header is well-formed (Table 01.6). -/
structure Lenhar where
  kind : Nat
  digest : List Byte
  /-- header bytes 0x00 to 0x3F: the signed message -/
  signed : List Byte
  body : List Byte
  sigs : List SigEntry
  deriving DecidableEq, Repr

/-- Read `n` signature entries from the front of the bytes; none where they do not fit. -/
def sigEntries : (n : Nat) → List Byte → Option (List SigEntry)
  | 0, _ => some []
  | n + 1, bs =>
    let len := field bs 4 4
    if bs.length < 0x28 + len ∨ field bs 2 2 ≠ 0 then none
    else (sigEntries n (bs.drop (0x28 + len))).map fun l =>
      { alg := field bs 0 2, keyId := slice bs 8 32, sig := slice bs 0x28 len } :: l

/-- R22: a container read from bytes; none where it is rejected. -/
def lenhar (bs : List Byte) : Option Lenhar :=
  let total := field bs 8 8
  let bodyOff := field bs 0x10 8
  let bodyLen := field bs 0x18 8
  let sigOff := field bs 0x40 8
  let count := field bs 0x48 4
  let kind := field bs 6 2
  if bs.length < 128 ∨ bs.length < total ∨ field bs 0 4 ≠ 0x4C4E4852 ∨ field bs 4 2 ≠ 1 ∨ kind = 0 ∨ 4 < kind
     ∨ bodyOff < 0x80 ∨ bodyLen < 1 ∨ total < bodyOff + bodyLen ∨ sigOff < bodyOff + bodyLen ∨ total < sigOff
     ∨ count < 1 ∨ 16 < count ∨ !allZero (slice bs 0x4C 52) then none
  else (sigEntries count (slice bs sigOff (total - sigOff))).map fun l =>
    { kind := kind, digest := slice bs 0x20 32, signed := bs.take 64, body := slice bs bodyOff bodyLen, sigs := l }

/-- BODY_DIGEST recomputed over the body (R23). -/
def Lenhar.digestOk (c : Lenhar) : Bool := shake32 c.body == c.digest

/-- Bytes of a public key of an ALG (R326, R328); 0 for a reserved ALG. -/
def algKeyLen (alg : Nat) : Nat := if alg = 1 ∨ alg = 2 ∨ alg = 3 then 68 else if alg = 0x10 then 2592 else 0

/-- A signature verifies under an encoded public key: a length that does not match the ALG fails (R326). -/
def SigEntry.verifies (e : SigEntry) (pk signed : List Byte) : Bool :=
  pk.length != 0 && pk.length == algKeyLen e.alg && Config.sigVerify e.alg pk signed e.sig

/-- The first `len` bytes of an operator object: none where the handle is not current, the length is not within the object, the
object may not be read, or a line of it fails (R214, R352). -/
def State.operatorBytes (s : State) (h len : Nat) : Option (List Byte) × State :=
  match s.checkObj 0 h 0 len .copyRead with
  | .error _ => (none, s)
  | .ok o =>
    let r := s.readObj 0 o 0 len
    match r.2.1 with
    | none => (some r.1, r.2.2)
    | some (code, a) => (none, r.2.2.raise { code := code, loc := { die := 11, unit := 15 }, severity := 0, ctx := 0, addr := some a })

end Sys2Proof.Machine
end

