-- ==== Sys2Proof/Machine/Keys.lean ====
section
/-! DEFINITION. Key slots (R321 to R326): their checks and uses, and the SEC_KEY_CMD commands. -/
namespace Sys2Proof.Machine
open Sys2Proof

/-! ### Checks and uses -/

/-- SEC_KEY_META (Table 12.15). -/
def KeySlot.metaWord (k : KeySlot) : Nat :=
  pack [(0, 1, flag k.valid), (1, 1, flag k.checkFail), (16, 2, k.life), (18, 2, k.owner), (20, 4, k.charter), (24, 8, k.perm), (32, 32, k.handle)]

/-- The 32-bit check of slot `n` (R323). -/
def KeySlot.checkOf (k : KeySlot) (n : Nat) : Nat :=
  ofLe (shake 4 (ascii "NKC1" ++ leBytes 1 n ++ leBytes 8 (KeySlot.metaWord { k with checkFail := false }) ++ leBytes 4 k.uses ++ padTo 32 k.key))

/-- A slot as written: its check is recomputed at every write and every decrement. -/
def KeySlot.withCheck (k : KeySlot) (n : Nat) : KeySlot := { k with check := k.checkOf n }

def State.keySlot (s : State) (n : Nat) : KeySlot := s.sec.slot n
def State.setKeySlot (s : State) (n : Nat) (k : KeySlot) : State := s.modSec fun x => x.setSlot n (k.withCheck n)

/-- A new SLUICE key restarts the count of SEQ (R302). -/
def State.sluiceChanged (s : State) (n : Nat) (k : KeySlot) : State :=
  if (s.keySlot n).perm = 2 ∨ k.perm = 2 then s.modEth fun e => { e with sluiceSeq := [] } else s

/-- Replace a slot with a new key, or erase it (R324, R325); a public key of the store goes with its slot (R326). A VALID slot 0 closes the
installation window (R374). -/
def State.installKey (s : State) (n : Nat) (k : KeySlot) : State :=
  let s := s.sluiceChanged n k
  let s := s.modSec fun x => { x with pubKeys := NatMap.set [] x.pubKeys n [] }
  let s := if n = 0 ∧ k.valid then s.modSec fun x => { x with windowShut := true } else s
  if k.valid then s.setKeySlot n k else s.modSec fun x => x.setSlot n {}
def State.eraseKey (s : State) (n : Nat) : State := s.installKey n {}
def State.eraseKeys (s : State) (p : KeySlot → Bool) : State := (NatMap.keysWhere s.sec.slots fun _ k => p k).foldl State.eraseKey s

/-- A fault of the security die; PART 0xFF where it belongs to no partition. -/
def secFault (code severity : Nat) (p : Nat := 0xFF) : FaultRec := { code := code, loc := locSec p, severity := severity }

/-- A slot is verified (R323): one that fails takes CHECK_FAIL and raises 0x0803. -/
def State.verifySlot (s : State) (n : Nat) (disturbed : Bool) : State :=
  let k := s.keySlot n
  if k.valid && !k.checkFail && (disturbed || k.check != k.checkOf n) then
    (s.modSec fun x => x.setSlot n { k with checkFail := true }).raise (secFault 0x0803 3)
  else s

/-- A use of a slot: it is VALID, has the permission and passes its check, or refuses. -/
def State.useKey (s : State) (n perm : Nat) : Option (List Byte) × State :=
  let s := s.verifySlot n false
  let k := s.keySlot n
  (if k.valid && !k.checkFail && k.perm == perm then some k.key else none, s)

/-- A use begins: a counted slot loses one use (R324). -/
def State.countUse (s : State) (n : Nat) : State :=
  let k := s.keySlot n
  if k.life = 2 then s.setKeySlot n { k with uses := k.uses - 1 } else s
/-- A use completes: a counted slot brought to 0 is erased. -/
def State.endUse (s : State) (n : Nat) : State :=
  let k := s.keySlot n
  if k.valid ∧ k.life = 2 ∧ k.uses = 0 then s.eraseKey n else s

/-- A use that is over within its command: it begins where the slot passes, and completes (R323, R324). -/
def State.useOnce (s : State) (n perm : Nat) : Option (List Byte) × State :=
  let r := s.useKey n perm
  (r.1, if r.1.isSome then (r.2.countUse n).endUse n else r.2)

/-- The slot with a permission, of which there is at most one (Table 12.7: SLUICE, FABRIC). -/
def State.slotOf (s : State) (perm : Nat) : Option Nat :=
  (List.range 256).find? fun n => (s.keySlot n).valid && (s.keySlot n).perm == perm

/-- The lowest free slot from 2 upward (R318, R332). -/
def State.freeSlot (s : State) : Option Nat := (List.range 254).map (· + 2) |>.find? fun n => !(s.keySlot n).valid

/-! ### SEC_KEY_CMD -/

def State.secStatus (s : State) (st : Nat) : State := s.modSec fun x => { x with cmdStatus := st }

/-- The registers of a SEC_KEY_CMD: the requester reaches SEC_KEY_CMD, and slot `n` is selected. -/
def State.onKey (s : State) (rq : Req) (f : Nat → State → State) : State :=
  if s.mayP rq 0xB0040 then f ((s.sel rq).key % 256) s else s

/-- Exactly one bit that an operator WRITE may set (Table 12.7). -/
def operatorPerm (perm : Nat) : Bool := perm == 2 || perm == 4 || perm == 8 || perm == 16

/-- WRITE's status (R325). DESIGN CHOICE: LIFE 3, a counted key with no uses, and a SLUICE key with a LIFE other than 1 are refused as the
permission's own conditions are. -/
def State.keyWriteStatus (s : State) (n perm life uses : Nat) : Nat :=
  if s.sec.busy then 1
  else if s.sec.lock ∨ (s.keySlot n).owner = 2 then 2
  else if !operatorPerm perm ∨ (perm = 4 ∧ 2 ≤ n) ∨ life = 3 ∨ (life = 2 ∧ uses = 0) ∨ (perm = 2 ∧ life ≠ 1)
      ∨ ((perm = 2 ∨ perm = 16) ∧ (s.slotOf perm).any (· != n)) then 4
  else 0

/-- SEC_KEY_DATA0 to 3 as 32 bytes. -/
def Security.keyData (x : Security) : List Byte :=
  leBytes 8 x.keyData0.toNat ++ leBytes 8 x.keyData1.toNat ++ leBytes 8 x.keyData2.toNat ++ leBytes 8 x.keyData3.toNat

/-- The board controller's window (R374, Table 18.5): WRITE to slots 1 and then 0 only. -/
def State.boardSlotOk (s : State) (rq : Req) (n : Nat) : Bool :=
  rq != .board || n == 1 || (n == 0 && (s.keySlot 1).valid)

/-- WRITE (R325): the slot is replaced in one step; SEC_KEY_DATA is zeroed in every case. -/
def State.keyWrite (s : State) (rq : Req) (n : Nat) : State :=
  let x := s.sec
  let perm := if rq = .board then 4 else bits x.keyNew 24 8
  let life := if rq = .board then 0 else bits x.keyNew 16 2
  let uses := bits x.keyNew 32 32
  let st := if s.boardSlotOk rq n then s.keyWriteStatus n perm life uses else 2
  let key := x.keyData
  let s := s.modSec fun x => { x with keyData0 := 0, keyData1 := 0, keyData2 := 0, keyData3 := 0, cmdStatus := st }
  if st = 0 then
    s.installKey n { valid := true, key := key, perm := perm, owner := 1, life := life, uses := if life = 2 then uses else 0 }
  else s

def execKeyWrite (rq : Req) (s : State) : Answer := .next (s.onKey rq fun n s => s.keyWrite rq n)

/-- ERASE (R325): operator-owned slots only. -/
def State.keyErase (s : State) (rq : Req) (n : Nat) : State :=
  if s.sec.busy then s.secStatus 1
  else if rq = .board ∨ (s.keySlot n).owner ≠ 1 then s.secStatus 2
  else (s.secStatus 0).eraseKey n

def execKeyErase (rq : Req) (s : State) : Answer := .next (s.onKey rq fun n s => s.keyErase rq n)

/-- LOAD_PUBKEY (R326). DEDUCED: a 17th key is refused with 0x04, an object that cannot be read with 0x03. -/
def State.loadPubkey (s : State) (rq : Req) (n : Nat) : State :=
  let x := s.sec
  if x.busy then s.secStatus 1
  else if rq = .board ∨ x.lock ∨ (s.keySlot n).owner = 2 then s.secStatus 2
  else if x.len ≠ 68 ∧ x.len ≠ 2592 then s.secStatus 4
  else if (NatMap.get [] x.pubKeys n).isEmpty ∧ 16 ≤ x.pubKeys.length then s.secStatus 4
  else
    let r := s.operatorBytes x.obj x.len
    match r.1 with
    | none => r.2.secStatus 3
    | some pk =>
      let s := (r.2.secStatus 0).installKey n { valid := true, key := shake32 pk, perm := 1, owner := 1, life := 0 }
      s.modSec fun x => { x with pubKeys := NatMap.set [] x.pubKeys n pk }

def execLoadPubkey (rq : Req) (s : State) : Answer := .next (s.onKey rq fun n s => s.loadPubkey rq n)

/-- KEY_CHECK_SWEEP (R323): every slot's check is verified; `disturbed` names the slots whose stored bits have changed. -/
def execKeyCheckSweep (disturbed : List Nat) (s : State) : Answer :=
  .next ((NatMap.keysWhere s.sec.slots fun _ _ => true).foldl (fun s n => s.verifySlot n (disturbed.contains n)) s)

end Sys2Proof.Machine
end

