-- ==== Sys2Proof/Machine/BoardOps.lean ====
section
/-! DEFINITION. The board controller's authentication and alerts (R320, R445 to R447). -/
namespace Sys2Proof.Machine
open Sys2Proof

/-- An access over I3C ends (R445): the address advances by 8, BC_AUTH.LAST_STATUS holds its status, and the idle time of R320 starts
again. What a read returns goes out. In Off nothing answers. -/
def State.boardAnswer (s : State) (a status : Nat) (data : List Word64) : State :=
  if s.pwr.state = 4 then s else (s.modBoard fun b => { b with addr := (a + 8) % 2 ^ 40, lastStatus := status, lastAccess := if b.isOpen then s.now else b.lastAccess }).send
    (.board status s.now data)

/-- An access of the board controller to a register of its own: done where it may reach it, else refused with DENIED. -/
def State.boardAccess (s : State) (a : Nat) (f : State → State) (g : State → List Word64) : State :=
  if s.boardMay a then (let t := f s; t.boardAnswer a 0 (g t)) else s.boardAnswer a 3 ((g s).map fun _ => 0)

/-- A read of BC_CHALLENGE0 draws a new challenge and closes any open access. -/
def State.bcChallenge (s : State) : State :=
  let c := s.drawn
  s.draw.modBoard fun b => { b with challenge := some c, isOpen := false }

def execBcChallengeRead (s : State) : Answer :=
  .next (s.boardAccess 0x7FFFFF0000 State.bcChallenge fun t => [BitVec.ofNat 64 (field (t.board.challenge.getD []) 0 8)])

/-- The response as written, 32 bytes. -/
def Board.response (b : Board) : List Byte :=
  leBytes 8 b.resp0.toNat ++ leBytes 8 b.resp1.toNat ++ leBytes 8 b.resp2.toNat ++ leBytes 8 b.resp3.toNat

/-- A write of BC_RESPONSE3 checks the response: the right one opens the privileged set; a wrong one raises 0x0809. Either consumes the
challenge. -/
def State.bcResponse (s : State) (w : Word64) : State :=
  let s := s.modBoard fun b => { b with resp3 := w }
  let r := s.useOnce 0 4
  let s := r.2
  let ok := match r.1, s.board.challenge with
    | some k, some c => s.board.response == hmacShake k (ascii "NBC1" ++ c)
    | _, _ => false
  let s := s.modBoard fun b => { b with challenge := none }
  if ok then s.modBoard fun b => { b with isOpen := true, lastAccess := s.now }
  else (s.modBoard fun b => { b with fails := min (b.fails + 1) 255 }).raise (secFault 0x0809 3)

def execBcResponseWrite (w : Word64) (s : State) : Answer :=
  .next (s.boardAccess 0x7FFFFF0038 (fun s => s.bcResponse w) fun _ => [])

/-- 10 s with no access close the privileged set (R320). -/
def execBcAuthIdle (s : State) : Answer :=
  .next (if s.board.isOpen && decide (s.board.lastAccess + 10000000000 ≤ s.now) then s.modBoard fun b => { b with isOpen := false } else s)

/-- BC_ALERT.FATAL is cleared by writing 1 (R447). -/
def State.fatalClear (s : State) (v : Word64) : State :=
  if bit v.toNat 2 then s.modBoard fun b => { b with fatal := false } else s

def execFatalClear (v : Word64) (s : State) : Answer :=
  .next (s.boardAccess 0x7FFFFF0048 (fun s => s.fatalClear v) fun _ => [])

end Sys2Proof.Machine
end

