-- ==== Sys2Proof/Machine/Barriers.lean ====
section
/-! DEFINITION. A collective's run, its windows and its local completion (R240, R241), and barriers, which a release completes. -/
namespace Sys2Proof.Machine
open Sys2Proof

def State.collDesc (s : State) (p c : Nat) : Option CollDesc :=
  if (s.weir p).loaded then (s.weir p).tbl.colls[c]? else none

def State.modColl (s : State) (p c : Nat) (f : CollRun → CollRun) : State := s.modWeir p fun w => w.setColl c (f (w.coll c))
def State.coll (s : State) (p c : Nat) : CollRun := (s.weir p).coll c

/-! ### Windows and completion -/

inductive WindowState where
  | early | isOpen | closed
  deriving DecidableEq, Repr

/-- The window of a collective: open while an entry of it is (R241, R260), also while the partition drains (R31); early while one of the
revolution is still to start. -/
def State.collWindow (s : State) (p c : Nat) : WindowState :=
  let g := (s.part p).gov
  let st := (s.part p).state
  let here := fun k => match g.tt.entries[k % 4096]? with | some e => e.collId == some c | none => false
  if (st ≠ .running ∧ st ≠ .draining) ∨ g.aborted ∨ g.braking then .closed
  else if g.runs.any fun e => here e.1 && (e.2.windowOpen || (e.2.status == .running && ((g.tt.entries[e.1 % 4096]?).map (·.kind)) == some 5)) then .isOpen
  else if st == .running && g.revOpen && (List.range g.tt.entries.length).any fun i => here i && (g.run (g.key i)).status == .idle then .early
  else .closed

/-- A collective's run in the present revolution: a run of an earlier one, or of another step, is over. The early chunks of that one are
discarded by `renewColl`. -/
def State.freshColl (s : State) (p c : Nat) : CollRun :=
  let g := (s.part p).gov
  let r := s.coll p c
  if r.step = g.step ∧ r.rev = g.revCount then r else { step := g.step, rev := g.revCount }

/-- The run of the present revolution takes the place of an earlier one. -/
def State.renewColl (s : State) (p c : Nat) : State :=
  let r := s.coll p c
  let f := s.freshColl p c
  if r = f then s else (s.modColl p c fun _ => f).dropEarly r.early

/-- The entries that a collective completes. -/
def State.completeEntries (s : State) (p c : Nat) : State :=
  let g := (s.part p).gov
  let ks := (g.runs.filter fun e => e.2.status == .running &&
    (match g.tt.entries[e.1 % 4096]? with | some t => t.collId == some c | none => false)).map (·.1)
  ks.foldl (fun s k => s.completeRun p k) s

/-- At local completion the next exponents go into the staging table behind the live one (R251). -/
def State.stageExps (s : State) (p c : Nat) (d : CollDesc) : State :=
  let run := s.coll p c
  let n := (s.weir p).tbl.domainSize * d.expLen
  let sl := (s.part p).map.slices d.die
  let g := run.nextExps.foldl (fun g e => writeGran g sl (d.expOff + n + e.1) [BitVec.ofNat 8 e.2.1]) s.granary
  ({ s with granary := g } : State).modColl p c fun r => { r with nextExps := [], staged := r.staged ++ run.nextExps.map fun e => (e.1, e.2.2) }

/-- Local completion (R240): the next exponents are staged, DONE_SYNC takes GOV_STEP + 1, and the windows' entries are complete. Where the
signal is a regression the collective ends without local completion (R236). -/
def State.collComplete (s : State) (p c : Nat) (d : CollDesc) : State :=
  if (s.coll p c).complete ∨ (s.coll p c).failed then s
  else
    let s := (s.modColl p c fun r => { r with complete := true, blame := 0xFF }).stageExps p c d
    let r := if d.doneSync = 0xFFFF then (true, s) else s.signal p d.doneSync (s.stepTarget p) (.collective p)
    if r.1 then r.2.completeEntries p c
    else r.2.modColl p c fun r => { r with complete := false, failed := true, staged := [] }

/-- A BARRIER is complete once the epoch that was pending when its window opened is released (R240). -/
def State.endBarriers (s : State) (p : Nat) : State :=
  (s.weir p).tbl.colls.zipIdx.foldl (fun s e =>
    let r := s.coll p e.2
    if e.1.kind = 6 ∧ r.started ∧ r.barrier ≠ ((s.weir p).obj e.1.inSync).epoch + 1 ∧ s.collWindow p e.2 = .isOpen
    then s.collComplete p e.2 e.1 else s) s

/-- What a signal, an arrival or a release leaves to do: what the new epochs need, and the barriers that are complete. -/
def State.barriers (s : State) (p : Nat) : State :=
  (((s.settleWeir p weirFuel).endBarriers p).settleWeir p weirFuel).endBarriers p

/-- A signal reaches its object, and the barriers it releases complete. -/
def State.signalled (s : State) (p i : Nat) (v : Word64) (src : SignalSrc) : State := (s.signal p i v src).2.barriers p

end Sys2Proof.Machine
end

