-- ==== Sys2Proof/Machine/Bolter.lean ====
section
/-! DEFINITION. The Bolter codec (R227, R228, R230): frames, canonical Huffman codes, CRC-32C, and the counters of Table 09.10. -/
namespace Sys2Proof.Machine
open Sys2Proof

/-! ### CRC-32C -/

/-- Eight shifts of the reflected polynomial. PRESUMED: CRC-32C as RFC 3720 gives it. -/
def crcShift : (n : Nat) → Word32 → Word32
  | 0, c => c
  | n + 1, c => crcShift n (if c.getLsbD 0 then (c >>> 1) ^^^ 0x82F63B78#32 else c >>> 1)

def crc32c (bs : List Byte) : Nat :=
  (bs.foldl (fun c b => crcShift 8 (c ^^^ b.setWidth 32)) 0xFFFFFFFF#32 ^^^ 0xFFFFFFFF#32).toNat

/-! ### Elements -/

/-- Bytes of an element of a frame type. -/
def frameElem (ty : Nat) : Nat := if ty = 1 then 2 else 1
/-- Exponent bits and fraction bits of an element (R227). -/
def frameExp (ty : Nat) : Nat := match ty with | 1 => 8 | 2 => 4 | _ => 5
def frameFrac (ty : Nat) : Nat := match ty with | 1 => 7 | 2 => 3 | _ => 2
/-- Bytes of the code-length table: one nibble per exponent symbol. -/
def tableBytesOf (ty : Nat) : Nat := 2 ^ frameExp ty / 2

def symbolOf (ty v : Nat) : Nat := bits v (frameFrac ty) (frameExp ty)
/-- The residue: the sign bit above the fraction bits. -/
def residueOf (ty v : Nat) : Nat := bits v 0 (frameFrac ty) + 2 ^ frameFrac ty * bits v (frameFrac ty + frameExp ty) 1
def elemOf (ty sym res : Nat) : Nat :=
  bits res 0 (frameFrac ty) + 2 ^ frameFrac ty * sym + 2 ^ (frameFrac ty + frameExp ty) * bits res (frameFrac ty) 1

/-- Cut bytes into elements. -/
def elemsOf (ty : Nat) (bs : List Byte) : List Nat :=
  (List.range (bs.length / frameElem ty)).map fun i => field bs (frameElem ty * i) (frameElem ty)

/-! ### Bits -/

/-- The bits of bytes, least significant first. -/
def byteBits (bs : List Byte) : List Bool := (bs.map fun b => (List.range 8).map b.getLsbD).flatten
/-- `n` bits of a number, least significant first. -/
def lsbBits (n v : Nat) : List Bool := (List.range n).map (bit v)
/-- `n` bits of a number, most significant first. -/
def msbBits (n v : Nat) : List Bool := (lsbBits n v).reverse
def bitsNat : List Bool → Nat
  | [] => 0
  | b :: t => flag b + 2 * bitsNat t
/-- Bytes from bits, padded with 0 bits to a byte boundary. -/
def bitBytes (l : List Bool) : List Byte := leBytes ((l.length + 7) / 8) (bitsNat l)

/-! ### Canonical codes (RFC 1951, section 3.2.2) -/

/-- A code word: length, code, symbol. -/
structure CodeWord where
  len : Nat
  code : Nat
  sym : Nat
  deriving DecidableEq, Repr

/-- The codes of one length, from `next` up. -/
def codesOfLen (lens : List Nat) (l next : Nat) : List CodeWord :=
  (((List.range lens.length).filter fun i => lens.getD i 0 == l).zipIdx).map fun e => ⟨l, next + e.2, e.1⟩

/-- The codes of lengths `l` to 15. -/
def canonical (lens : List Nat) : (fuel l next : Nat) → List CodeWord
  | 0, _, _ => []
  | fuel + 1, l, next =>
    let here := codesOfLen lens l next
    here ++ canonical lens fuel (l + 1) (2 * (next + here.length))

def codeTable (lens : List Nat) : List CodeWord := canonical lens 15 1 0

/-- The single-symbol table of R228: one length 1, the others 0. -/
def singleSymbol (lens : List Nat) : Bool := lens.foldl (· + ·) 0 == 1

/-- A complete prefix code. -/
def completeCode (lens : List Nat) : Bool := lens.foldl (fun a l => a + if l = 0 then 0 else 2 ^ (15 - l)) 0 == 2 ^ 15

/-- Decode `n` symbols: the symbols, and the bits they took. -/
def huffDecode (tbl : List CodeWord) : List Bool → (n len code used : Nat) → Option (List Nat × Nat)
  | _, 0, _, _, used => some ([], used)
  | [], _ + 1, _, _, _ => none
  | b :: t, n + 1, len, code, used =>
    let c := 2 * code + flag b
    match tbl.find? fun w => w.len == len + 1 && w.code == c with
    | some w => (huffDecode tbl t n 0 0 (used + 1)).map fun r => (w.sym :: r.1, r.2)
    | none => huffDecode tbl t (n + 1) (len + 1) c (used + 1)

/-! ### Decoding a frame -/

/-- A frame header. -/
structure FrameHead where
  magic : Nat
  ty : Nat
  decLen : Nat
  encLen : Nat
  check : Nat
  deriving DecidableEq, Repr

def frameHead (h : List Byte) : FrameHead :=
  { magic := field h 0 2, ty := field h 2 1, decLen := field h 4 4, encLen := field h 8 4, check := field h 12 4 }

/-- A header is well formed (R230). -/
def FrameHead.ok (h : FrameHead) : Bool :=
  h.magic == 0x4246 && decide (h.ty ≤ 3) && decide (1 ≤ h.decLen) && decide (h.decLen ≤ 65536) && h.decLen % frameElem h.ty == 0
  && h.encLen % 16 == 0 && decide (16 ≤ h.encLen)

/-- The decoded bytes of a frame's body (the bytes after the header); `none` where the frame is malformed or fails its check. -/
def decodeBody (h : FrameHead) (body : List Byte) : Option (List Byte) :=
  let out := if h.ty = 0 then (if body.length < h.decLen then none else some (body.take h.decLen))
    else
      let nsym := 2 ^ frameExp h.ty
      let tb := tableBytesOf h.ty
      let lens := (List.range nsym).map fun k => bits (field body (k / 2) 1) (4 * (k % 2)) 4
      if body.length < tb || !(singleSymbol lens || completeCode lens) then none
      else
        let n := h.decLen / frameElem h.ty
        match huffDecode (codeTable lens) (byteBits (body.drop tb)) n 0 0 0 with
        | none => none
        | some (syms, used) =>
          let rest := body.drop (tb + (used + 7) / 8)
          let w := frameFrac h.ty + 1
          if 8 * rest.length < n * w then none
          else
            let plane := byteBits (rest.take ((n * w + 7) / 8))
            some ((syms.zipIdx.map fun e =>
              leBytes (frameElem h.ty) (elemOf h.ty e.1 (bitsNat ((plane.drop (w * e.2)).take w)))).flatten)
  match out with
  | some bs => if crc32c bs = h.check then some bs else none
  | none => none

/-! ### Encoding a frame (R228) -/

/-- A coin or package of package-merge: its weight, its lowest symbol, and the symbols it holds. -/
structure Coin where
  weight : Nat
  low : Nat
  syms : List Nat
  deriving DecidableEq, Repr

/-- Ties are broken toward the lower symbol value. -/
def Coin.le (a b : Coin) : Bool := decide (a.weight < b.weight) || (a.weight == b.weight && decide (a.low ≤ b.low))

def insertCoin (c : Coin) : List Coin → List Coin
  | [] => [c]
  | d :: t => if c.le d then c :: d :: t else d :: insertCoin c t
def sortCoins (l : List Coin) : List Coin := l.foldr insertCoin []

def package : List Coin → List Coin
  | a :: b :: t => ⟨a.weight + b.weight, min a.low b.low, a.syms ++ b.syms⟩ :: package t
  | _ => []

def packageMerge (coins : List Coin) : (levels : Nat) → List Coin → List Coin
  | 0, l => l
  | n + 1, l => packageMerge coins n (sortCoins (coins ++ package l))

/-- The code lengths of a frame's symbols. -/
def codeLengths (nsym : Nat) (syms : List Nat) : List Nat :=
  let count := fun k => (syms.filter (· == k)).length
  let used := (List.range nsym).filter fun k => count k != 0
  match used with
  | [k] => (List.range nsym).map fun j => flag (j == k)
  | _ =>
    let coins := sortCoins (used.map fun k => ⟨count k, k, [k]⟩)
    let picked := ((packageMerge coins 14 coins).take (2 * used.length - 2)).map (·.syms)
    (List.range nsym).map fun k => (picked.flatten.filter (· == k)).length

def frameBytes (ty : Nat) (bs body : List Byte) : List Byte :=
  let n := (16 + body.length + 15) / 16 * 16
  leBytes 2 0x4246 ++ leBytes 1 ty ++ leBytes 1 0 ++ leBytes 4 bs.length ++ leBytes 4 n ++ leBytes 4 (crc32c bs)
  ++ padTo (n - 16) body

/-- One frame of at most 65,536 decoded bytes: coded as `ty`, or raw where coding would not make it shorter. DESIGN CHOICE: bytes
that are no whole number of elements make a raw frame. -/
def encodeFrame (ty : Nat) (bs : List Byte) : List Byte :=
  let raw := frameBytes 0 bs bs
  if ty = 0 ∨ bs.length % frameElem ty ≠ 0 then raw
  else
    let es := elemsOf ty bs
    let syms := es.map (symbolOf ty)
    let lens := codeLengths (2 ^ frameExp ty) syms
    let tbl := codeTable lens
    let stream := (syms.map fun k => match tbl.find? (·.sym == k) with | some w => msbBits w.len w.code | none => []).flatten
    let plane := (es.map fun v => lsbBits (frameFrac ty + 1) (residueOf ty v)).flatten
    let table := leBytes (tableBytesOf ty) (lens.foldr (fun l a => l + 16 * a) 0)
    let coded := frameBytes ty bs (table ++ bitBytes stream ++ bitBytes plane)
    if raw.length ≤ coded.length then raw else coded

/-- Cut input into frames of 65,536 decoded bytes; `fuel` bounds them. -/
def encodeFrames (ty : Nat) : (fuel : Nat) → List Byte → List (List Byte)
  | 0, _ => []
  | n + 1, bs => if bs.isEmpty then [] else encodeFrame ty (bs.take 65536) :: encodeFrames ty n (bs.drop 65536)

def bolterEncode (ty : Nat) (bs : List Byte) : List (List Byte) := encodeFrames ty (bs.length / 65536 + 1) bs

/-! ### Counters -/

/-- Count bytes in a counter of whole KiB; its total counts bytes. -/
def Counter.addKib (c : Counter) (n : Nat) : Counter :=
  { c with live := min (c.live + ((c.total + n) / 1024 - c.total / 1024)) 0xFFFFFFFF, total := c.total + n }

def State.countEnc (s : State) (inB outB : Nat) : State :=
  s.modMem fun m => { m with encIn := m.encIn.addKib inB, encOut := m.encOut.addKib outB }
def State.countDec (s : State) (inB outB : Nat) : State :=
  s.modMem fun m => { m with decIn := m.decIn.addKib inB, decOut := m.decOut.addKib outB }

end Sys2Proof.Machine
end

