-- ==== Sys2Proof/Machine/Leat.lean ====
section
/-! DEFINITION. Leat streams (R220 to R226): passes, segments, SHARD_FWD lookups (R200) and Bolter write-backs; with MEM_FREE and
U_FREE (R218, R233, R426). -/
namespace Sys2Proof.Machine
open Sys2Proof

/-! ### The descriptor (Table 09.5) -/

structure LeatDesc where
  kind : Nat
  ctrl : Nat
  group : Nat
  etype : Nat
  goSync : Nat
  readySync : Nat
  releaseSync : Nat
  count : Nat
  segTable : Nat
  outTable : Nat
  dst : Nat
  goTarget : Nat
  segBase : Nat
  winOff : Nat
  slotBytes : Nat
  reserved : Nat
  tag : Nat
  deriving DecidableEq, Repr

def leatDescOf (b : List Byte) : LeatDesc :=
  { kind := field b 0 1, ctrl := field b 1 1, group := field b 2 1, etype := field b 3 1, goSync := field b 4 2
    readySync := field b 6 2, releaseSync := field b 8 2, count := field b 10 2, segTable := field b 12 4, outTable := field b 16 4
    dst := field b 20 4, goTarget := field b 0x18 8, segBase := field b 0x20 8, winOff := field b 0x28 8, slotBytes := field b 0x30 5
    reserved := field b 0x35 3, tag := field b 0x38 8 }

def leatDescAt (k : Nat) : Nat := 0xFFFC00 + 64 * k
def LeatDesc.copy (d : LeatDesc) : Bool := d.kind == 3
def LeatDesc.seal (d : LeatDesc) : Bool := bit d.ctrl 0 && d.copy
def LeatDesc.tagAuto (d : LeatDesc) : Bool := bit d.ctrl 1

/-- The checks of a descriptor when a pass starts (R221). -/
def LeatDesc.ok (d : LeatDesc) (quota : Nat) : Bool :=
  decide (1 ≤ d.kind) && decide (d.kind ≤ 3) && decide (d.ctrl < 4) && decide (d.group < 64) && decide (d.etype ≤ 3)
  && decide (d.readySync < quota) && (if d.copy then d.releaseSync == 0 else decide (d.releaseSync < quota))
  && decide (1 ≤ d.count) && decide (d.count ≤ 4096)
  && d.segTable % 16 == 0 && decide (d.segTable + 16 * d.count ≤ 2 ^ 24)
  && (if d.copy then d.outTable % 8 == 0 && decide (d.outTable + 8 * d.count + 8 ≤ 2 ^ 24) && d.slotBytes == 0
      else d.outTable == 0 && d.dst == 0 && d.etype == 0 && d.winOff % 256 == 0 && d.slotBytes % 256 == 0 && decide (256 ≤ d.slotBytes))
  && d.reserved == 0 && decide (d.tag < 2 ^ 48)

/-- W of a partition: its LEAT section's, or 1 (R224). A partition holds the sections that name it. -/
def Part.window (v : Part) : Nat :=
  match v.stream with
  | none => 1
  | some st => match st.sections.find? (·.type == 6) with
    | some x => field x.data 2 1
    | none => 1

/-- The version tag of a pass (R223). -/
def State.leatTag (s : State) (p c : Nat) (d : LeatDesc) : Nat :=
  if d.tagAuto then (s.part p).gov.step.toNat - (NatMap.get {} (s.quern p (clusterDie c)).groups d.group).d else d.tag

/-- The partition runs its step: passes may start. -/
def State.stepRuns (s : State) (p : Nat) : Bool :=
  let v := s.part p
  v.state == .running && !v.gov.braking && !v.gov.aborted

/-- A pass starts when GO_SYNC satisfies GO_TARGET (R222). -/
def State.leatPassStart (s : State) (c k : Nat) : State :=
  match s.clusterPart c with
  | none => s
  | some p =>
    let b := NatMap.getList 0 (s.cluster c).sram (leatDescAt k) 64
    let d := leatDescOf b
    let quota := (s.part p).map.syncQuota
    if 16 ≤ k ∨ s.pwr.stopped ∨ d.kind = 0 ∨ (s.leat c k).running ∨ !s.stepRuns p ∨ quota ≤ d.goSync then s
    else if !waitOk (s.syncValue p d.goSync) (BitVec.ofNat 64 d.goTarget) then s
    else if d.ok quota then
      s.setLeat c k { running := true, fault := (s.leat c k).fault, desc := b, nextSeg := d.segBase, tag := s.leatTag p c d }
    else s.leatFault c k 0x0504

def execLeatPassStart (cluster k : Nat) (s : State) : Answer := .next (s.leatPassStart cluster k)

/-! ### Segments (Table 09.6) -/

structure LeatSeg where
  handle : Nat
  src : Nat
  coded : Nat
  off : Nat
  len : Nat
  deriving DecidableEq, Repr

def leatSegOf (b : List Byte) : LeatSeg :=
  { handle := field b 0 4, src := field b 4 1, coded := field b 5 1, off := field b 6 5, len := field b 11 5 }

/-- What stops a segment: a fault and, for a line, its address. -/
abbrev SegFault := Nat × Option Nat

/-- The live STREAM object of the partition on die `dd` that holds a range of its Granary space: (context, handle). -/
def State.streamObj (s : State) (p dd lo len : Nat) : Option (Nat × Nat) :=
  (((s.ctxs.filter fun e => e.1 != 0 && e.2.desc.part == p && (e.2.state == .defined || e.2.state == .resident)).map fun e =>
    e.2.objects.filterMap fun o =>
      let at_ := (e.2.desc.granary.getD dd (0, 0)).1 + o.2.base
      if o.2.live && o.2.tier == .granary && o.2.die == dd && bit o.2.flags 3 && decide (at_ ≤ lo) && decide (lo + len ≤ at_ + o.2.size)
      then some (e.1, o.2.handle o.1) else none).flatten).head?

/-- Where a forward copy lies: the handle of its object and the object under the copy's epoch, the byte offset and its length. -/
structure FwdPlace where
  handle : Nat
  obj : Obj
  off : Nat
  len : Nat
  deriving DecidableEq, Repr

/-- What a SHARD_FWD lookup answers (R200): the place, a wait for the commit, or a fault. -/
inductive FwdFind where
  | at_ (f : FwdPlace) | waits | fault (f : SegFault)
  deriving DecidableEq, Repr

/-- Resolve the forward copy of shard `k` under version `tag` (R200); the state is that after the commit word's read. -/
def State.findFwd (s : State) (x p dd k group tag : Nat) : FwdFind × State :=
  let q := s.quern p dd
  match q.shards[k]? with
  | none => (.fault (0x0504, none), s)
  | some sh =>
    match s.current x sh.obj with
    | none => (.fault (0x0501, none), s)
    | some o =>
      if sh.lagged then
        let g := NatMap.get {} q.groups sh.group
        if sh.group ≠ group then (.fault (0x0504, none), s)
        else match (List.range g.nslot).find? fun j => (g.slot j).state == .committed && (g.slot j).version == tag with
          | some j => (.at_ ⟨sh.obj, { o with epoch := (g.slot j).epoch }, sh.offF + j * slotLength sh, fwdSize sh.wFmt sh.count⟩, s)
          | none => (if g.newest < tag then .waits else .fault (0x0403, none), s)
      else
        let cw := s.commitWord x q k
        match cw.2.1 with
        | some f => (.fault (f.code, f.addr), cw.2.2)
        | none =>
          if bits cw.1 16 48 ≠ tag then (.fault (0x0403, none), cw.2.2)
          else
            let act := bit cw.1 0
            let base := if act then sh.offB else sh.offA
            (.at_ ⟨sh.obj, { o with epoch := q.epoch k act false }, base + partOffset sh (q.layoutRule sh) .fwd, fwdSize sh.wFmt sh.count⟩, cw.2.2)

/-- Decode `len` bytes' worth of Bolter frames of an object from `off` on: the bytes, or what stops the segment. `fuel` bounds the
frames. -/
def State.readFrames (s : State) (x : Nat) (o : Obj) : (fuel off len : Nat) → Except SegFault (List Byte) × State
  | 0, _, len => (if len = 0 then .ok [] else .error (0x0505, none), s)
  | n + 1, off, len =>
    if len = 0 then (.ok [], s)
    else if o.size < off + 16 then (.error (0x0502, none), s)
    else
      let h := s.readObj x o off 16
      match h.2.1 with
      | some (c, a) => (.error (c, some a), h.2.2)
      | none =>
        let hd := frameHead h.1
        if !hd.ok then (.error (0x0505, none), h.2.2)
        else if o.size < off + hd.encLen then (.error (0x0502, none), h.2.2)
        else
          let b := h.2.2.readObj x o (off + 16) (hd.encLen - 16)
          match b.2.1 with
          | some (c, a) => (.error (c, some a), b.2.2)
          | none =>
            match decodeBody hd b.1 with
            | none => (.error (0x0505, none), b.2.2)
            | some out =>
              if len < out.length then (.error (0x0505, none), b.2.2)
              else
                let r := State.readFrames (b.2.2.countDec hd.encLen out.length) x o n (off + hd.encLen) (len - out.length)
                (match r.1 with | .ok t => .ok (out ++ t) | .error e => .error e, r.2)

/-- What a segment's source delivered: the runs of bytes of its good lines, the first failing line, and the object it holds. -/
structure SegSource where
  runs : List (Nat × List Byte)
  fail : Option SegFault := none
  holds : List (Nat × Nat)
  deriving DecidableEq, Repr

/-- A segment whose fields Table 09.6 does not allow. -/
def LeatSeg.bad (g : LeatSeg) : Bool :=
  decide (1 < g.src) || decide (1 < g.coded) || (g.src == 1 && (g.coded == 1 || decide (4096 ≤ g.handle)))

/-- Read the uncoded bytes of a source: the good lines of the transfer are delivered (R352). -/
def State.segRead (s : State) (x h : Nat) (o : Obj) (off len : Nat) : Except SegFault SegSource × State :=
  let r := s.deliverObj x o off len
  (.ok { runs := r.1.runs, fail := r.1.fail.map fun f => (f.1, some f.2), holds := [(x, h)] }, r.2)

/-- The source of a FILL or COPY segment; `none` while it waits for a commit. -/
def State.leatSource (s : State) (p c : Nat) (d : LeatDesc) (tag : Nat) (g : LeatSeg) : Option (Except SegFault SegSource × State) :=
  let x := (s.home p).getD 0
  let dd := clusterDie c
  if g.bad then some (.error (0x0504, none), s)
  else if (s.home p).isNone then some (.error (0x0501, none), s)
  else if g.src = 1 then
    match s.findFwd x p dd g.handle d.group tag with
    | (.waits, _) => none
    | (.fault f, s) => some (.error f, s)
    | (.at_ f, s) =>
      if f.len < g.off + g.len then some (.error (0x0502, none), s)
      else some (s.segRead x f.handle f.obj (f.off + g.off) g.len)
  else
    match s.checkObj x g.handle g.off (if g.coded = 1 then 0 else g.len) .leatRead with
    | .error e => some (.error (e, none), s)
    | .ok o =>
      if g.coded = 1 then
        if o.tier ≠ .pond then some (.error (0x0504, none), s)
        else
          let r := s.readFrames x o (g.len + 1) g.off g.len
          some (match r.1 with | .ok b => .ok { runs := [(0, b)], holds := [(x, g.handle)] } | .error e => .error e, r.2)
      else some (s.segRead x g.handle o g.off g.len)

/-- The tier a segment's source lies in (R200, R223), or why there is none. -/
def State.segTier (s : State) (x p c : Nat) (g : LeatSeg) : Except Nat Tier :=
  if g.src = 1 then
    match (s.quern p (clusterDie c)).shards[g.handle]? with
    | none => .error 0x0504
    | some sh => .ok (if sh.lagged then .pond else .hbm)
  else match s.current x g.handle with
    | none => .error 0x0501
    | some o => .ok o.tier

/-- The next segment is issued: counted, with the objects it holds. -/
def State.leatIssued (s : State) (c k : Nat) (holds : List (Nat × Nat)) : State :=
  s.modLeat c k fun r => { r with issued := r.issued + 1, nextSeg := (r.nextSeg + 1) % 2 ^ 64, holds := r.holds ++ [holds] }

/-- Write delivered runs into a Granary window at `slot`. -/
def State.fillSlot (s : State) (p c slot : Nat) (runs : List (Nat × List Byte)) : State :=
  { s with granary := runs.foldl (fun m r => writeGran m ((s.part p).map.slices (clusterDie c)) (slot + r.1) r.2) s.granary }

def State.segFault (s : State) (c k : Nat) (f : SegFault) : State := s.leatFault c k f.1 f.2

/-- A FILL segment (R222, R223): from its source into slot `slot` of the window. DESIGN CHOICE: a segment with a failing line delivers its
other lines, as R352 says of every transfer, and then faults, where R225 has a failing segment move no byte. -/
def State.issueFill (s : State) (p c k : Nat) (d : LeatDesc) (g : LeatSeg) (slot : Nat) (win : List (Nat × Nat)) : State :=
  if g.len = 0 then s.leatIssued c k []
  else match s.leatSource p c d (s.leat c k).tag g with
    | none => s
    | some (.error f, s) => s.segFault c k f
    | some (.ok r, s) =>
      let s := s.fillSlot p c slot r.runs
      match r.fail with
      | some f => s.segFault c k f
      | none => s.leatIssued c k (win ++ r.holds)

/-- A SPILL segment: from slot `slot` into its HBM object. -/
def State.issueSpill (s : State) (p c k : Nat) (g : LeatSeg) (slot : Nat) (win : List (Nat × Nat)) : State :=
  if g.src ≠ 0 ∨ g.coded ≠ 0 then s.segFault c k (0x0504, none)
  else if g.len = 0 then s.leatIssued c k []
  else match s.home p with
    | none => s.segFault c k (0x0501, none)
    | some x =>
      match s.checkObj x g.handle g.off g.len .hbmWrite with
      | .error e => s.segFault c k (e, none)
      | .ok o =>
        let bs := readGran s.granary ((s.part p).map.slices (clusterDie c)) slot g.len
        match s.writeObj x o g.off bs with
        | (some (cd, a), s) => s.segFault c k (cd, some a)
        | (none, s) => s.leatIssued c k (win ++ [(x, g.handle)])

/-- Write Bolter frames into a Pond object from `off` on (R230): how many bytes were written, or what stopped the write-back. -/
def State.writeFrames (s : State) (x : Nat) (o : Obj) : List (List Byte) → (off : Nat) → Except SegFault Nat × State
  | [], off => (.ok off, s)
  | f :: t, off =>
    if o.size < off + f.length then (.error (0x0506, none), s)
    else match s.writeObj x o off f with
      | (some (cd, a), s) => (.error (cd, some a), s)
      | (none, s) => State.writeFrames (s.countEnc (field f 4 4) f.length) x o t (off + f.length)

/-- Check a COPY segment before any of its bytes move (R223): both objects exist, HBM pairs with Pond and a Bolter frame type with Pond
alone, and DST passes R214. -/
def State.copyDst (s : State) (x p c off : Nat) (d : LeatDesc) (g : LeatSeg) : Except Nat Obj :=
  if g.bad then .error 0x0504
  else match s.current x d.dst, s.segTier x p c g with
    | none, _ => .error 0x0501
    | _, .error e => .error e
    | some dst, .ok src =>
      if dst.tier = .granary ∨ src = .granary ∨ dst.tier = src ∨ (dst.tier = .hbm ∧ d.etype ≠ 0) then .error 0x0504
      else if dst.tier = .hbm then s.checkObj x d.dst off g.len .hbmWrite
      else s.checkObj x d.dst 0 0 .pondWrite

/-- The bytes of a COPY segment reach its destination: the output's length, or what stops the segment. -/
def State.copyOut (s : State) (x off : Nat) (d : LeatDesc) (dst : Obj) (r : SegSource) : Except SegFault Nat × State :=
  if dst.tier = .hbm then
    let w := s.writeRunsObj x dst off r.runs
    match r.fail.orElse fun _ => w.1.map fun f => (f.1, some f.2) with
    | some f => (.error f, w.2)
    | none => (.ok (r.runs.map (·.2.length)).sum, w.2)
  else match r.fail with
    | some f => (.error f, s)
    | none =>
      let w := s.writeFrames x dst (bolterEncode d.etype (r.runs.map (·.2)).flatten) off
      match w.1 with
      | .error e => (.error e, w.2)
      | .ok stop => (.ok (stop - off), w.2)

/-- A COPY segment (R222, R223): HBM to Pond as Bolter frames, or Pond to HBM. -/
def State.issueCopy (s : State) (p c k : Nat) (d : LeatDesc) (g : LeatSeg) : State :=
  let run := s.leat c k
  let off := d.winOff + run.outLen
  let done := fun (s : State) (n : Nat) (holds : List (Nat × Nat)) =>
    (s.modLeat c k fun r => { r with segOff := off, outLen := r.outLen + n }).leatIssued c k holds
  if g.len = 0 then done s 0 []
  else match s.home p with
    | none => s.segFault c k (0x0501, none)
    | some x =>
      match s.copyDst x p c off d g with
      | .error e => s.segFault c k (e, none)
      | .ok dst =>
        match s.leatSource p c d run.tag g with
        | none => s
        | some (.error f, s) => s.segFault c k f
        | some (.ok r, s) =>
          let w := s.copyOut x off d dst r
          match w.1 with
          | .error f => w.2.segFault c k f
          | .ok n => done w.2 n ((x, d.dst) :: r.holds)

/-- Issue the next segment of a pass once its window slot or release signal allows (R222). -/
def State.leatIssue (s : State) (c k : Nat) : State :=
  let run := s.leat c k
  let d := leatDescOf run.desc
  match s.clusterPart c with
  | none => s
  | some p =>
    if !run.running ∨ s.pwr.stopped ∨ run.stopping ∨ d.count ≤ run.issued then s
    else
      let w := (s.part p).window
      let n := d.segBase + run.issued
      let g := leatSegOf (NatMap.getList 0 (s.cluster c).sram (d.segTable + 16 * run.issued) 16)
      if d.copy then (if run.done < run.issued then s else s.issueCopy p c k d g)
      else
        let target := if d.kind = 1 then n + 1 + 2 ^ 64 - w else n + 1
        if !waitOk (s.syncValue p d.releaseSync) (BitVec.ofNat 64 target) then s
        else
          let win := s.streamObj p (clusterDie c) d.winOff (w * d.slotBytes)
          let slot := d.winOff + n % w * d.slotBytes
          if g.len ≠ 0 ∧ (win.isNone ∨ d.slotBytes < g.len) then s.segFault c k (0x0504, none)
          else if d.kind = 1 then s.issueFill p c k d g slot win.toList
          else s.issueSpill p c k g slot win.toList

def execLeatSegmentIssue (cluster k : Nat) (s : State) : Answer := .next (s.leatIssue cluster k)

/-- The oldest segment in flight is done: a COPY's output offset is written, then READY_SYNC takes n + 1 (R222). A stopped pass ends with
its last segment in flight (R225). -/
def State.leatDone (s : State) (c k : Nat) : State :=
  let run := s.leat c k
  let d := leatDescOf run.desc
  match s.clusterPart c with
  | none => s
  | some p =>
    if !run.running ∨ run.issued ≤ run.done then s
    else
      let s := if d.copy then s.modCluster c fun x => { x with sram := NatMap.setList 0 x.sram (d.outTable + 8 * run.done) (leBytes 8 run.segOff) } else s
      let s := s.modLeat c k fun r => { r with done := r.done + 1, holds := r.holds.drop 1 }
      let s := s.signalled p d.readySync (BitVec.ofNat 64 (d.segBase + run.done + 1)) (.leat c k)
      s.modLeat c k fun r => if r.stopping && decide (r.issued ≤ r.done) then { r with running := false, stopping := false, holds := [] } else r

def execLeatSegmentDone (cluster k : Nat) (s : State) : Answer := .next (s.leatDone cluster k)

/-- SEAL: the OPEN Pond destination becomes SEALED (R209). -/
def State.sealDst (s : State) (x : Nat) (d : LeatDesc) : State :=
  match s.current x d.dst with
  | none => s
  | some o =>
    if d.seal ∧ o.tier = Tier.pond ∧ o.state = ObjState.opened then s.setObj x (handleIndex d.dst) { o with state := .sealed } else s

/-- After the last segment the descriptor advances, a COPY's total is written, and SEAL seals its Pond destination (R222, R209). -/
def State.leatEnd (s : State) (c k : Nat) : State :=
  let run := s.leat c k
  let d := leatDescOf run.desc
  match s.clusterPart c with
  | none => s
  | some p =>
    if !run.running ∨ s.pwr.stopped ∨ run.stopping ∨ run.done < d.count then s
    else
      let a := leatDescAt k
      let s := s.modCluster c fun x =>
        let m := if d.copy then NatMap.setList 0 x.sram (d.outTable + 8 * d.count) (leBytes 8 run.outLen) else x.sram
        let m := NatMap.setList 0 m (a + 0x18) (leBytes 8 (d.goTarget + 1))
        { x with sram := NatMap.setList 0 m (a + 0x20) (leBytes 8 (d.segBase + d.count)) }
      let s := match s.home p with
        | some x => s.sealDst x d
        | none => s
      s.modLeat c k fun r => { r with running := false, holds := [] }

def execLeatPassEnd (cluster k : Nat) (s : State) : Answer := .next (s.leatEnd cluster k)

/-! ### MEM_FREE and U_FREE -/

/-- A context that holds objects. -/
def State.ctxLive (s : State) (x : Nat) : Bool := (s.ctx x).state == .defined || (s.ctx x).state == .resident

/-- Some free of this origin waits for its transfers. -/
def State.freeWaits (s : State) (x origin : Nat) : Bool := s.pendingFrees.any fun f => f.origin == origin && (origin == 0 || f.ctx == x)

/-- MEM_FREE (R218, R233): the status, and FREE_BUSY while transfers hold the object; handle 0 takes no action. -/
def State.memFree (s : State) (x h : Nat) : State :=
  if h % 2 ^ 32 = 0 then s
  else
    let r := if s.ctxLive x then s.freeHandle x (h % 2 ^ 32) 0 else (6, s)
    r.2.modMem fun m => { m with freeStatus := r.1, freeBusy := r.2.freeWaits x 0 }

def execMemFree (rq : Req) (handle : Nat) (s : State) : Answer :=
  .next (if s.mayP rq 0x80010 then s.memFree (s.sel rq).ctx handle else s)

/-- U_FREE on context `x` (R426): the queue object, index 1, is not freed. -/
def State.uFree (s : State) (x h : Nat) : State :=
  if h % 2 ^ 32 = 0 then s
  else
    let r := if s.ctxLive x && handleIndex h != 1 then s.freeHandle x (h % 2 ^ 32) 1 else (6, s)
    r.2.modCtx x fun c => { c with uFreeStatus := r.1, uFreeBusy := r.2.freeWaits x 1 }

def execUFree (rq : Req) (ctx handle : Nat) (s : State) : Answer :=
  .next (if s.mayU rq ctx && decide (ctx < 4096) then s.uFree ctx handle else s)

end Sys2Proof.Machine
end

