-- ==== Sys2Proof/Machine/Records.lean ====
section
/-! DEFINITION. Event records (R300) and the queue pairs that carry them (R283): writing, waiting, and an event queue pair in ERROR. -/
namespace Sys2Proof.Machine
open Sys2Proof

/-- PART of a context as fault records show it. -/
def State.ctxPart (s : State) (x : Nat) : Nat := if x = 0 then 0xFF else (s.ctx x).desc.part

/-- A fault of a context. -/
def State.ctxFault (s : State) (x code severity : Nat) (addr : Option Nat := none) : FaultRec :=
  { code := code, loc := locHost (s.ctxPart x), severity := severity, ctx := x, addr := addr }

/-- The 32 bytes of record `n` (Table 11.10): PHASE is bit EVENT_LOG2 of n. -/
def EventRec.bytes (r : EventRec) (log2 n : Nat) : List Byte :=
  leBytes 1 r.type ++ leBytes 1 (bits n log2 1) ++ leBytes 2 r.fault ++ leBytes 1 r.queue ++ leBytes 1 r.status ++ leBytes 2 r.ctx
  ++ leBytes 4 r.tag ++ leBytes 4 r.index ++ leBytes 8 r.result ++ leBytes 8 r.mill

/-- The queue pair's packets do not leave: the partition whose queue set carries them brakes or is BRAKED (R57), or no network path is
left (R360). -/
def State.roceSilent (s : State) (n : Nat) : Bool :=
  let q := s.qp n
  s.mce.tampered || (q.onCtx != 0 && s.portsStopped q.onPart)

/-- The context has an event ring, and its queue pair can send. -/
def State.ringOpen (s : State) (x : Nat) : Bool :=
  let c := s.ctx x
  c.desc.eventQp != 0xFFFF && (s.qp c.desc.eventQp).state == .rts && !c.qpError && !s.roceSilent c.desc.eventQp

/-- The queue pair serves a partition bound to a charter on a port whose secure channel is not up: its RoCEv2 packets are dropped
(R357). -/
def State.roceBlocked (s : State) (n : Nat) : Bool :=
  let q := s.qp n
  q.state == .rts && q.onCtx != 0 && s.chartered q.onPart && !s.macsecUp q.onPort

/-- The partitions with a charter whose queue pairs run on a port. -/
def State.charterRoce (s : State) (k : Nat) : List Nat :=
  (List.range 16).filter fun p => s.chartered p && s.qps.any fun e => e.2.state == .rts && e.2.onCtx != 0 && e.2.onPort == k && e.2.onPart == p

/-- A port that had its secure channel (`was`) has it no longer while it carries charter RoCEv2: fault 0x080D, once (R357). -/
def State.macsecFell (s : State) (k : Nat) (was : Bool) : State :=
  match s.charterRoce k with
  | p :: _ => if was && !s.macsecUp k then s.raise { code := 0x080D, loc := locEth p k } else s
  | [] => s

/-- Every sub-port of a port loses its secure channel. -/
def State.macsecEnds (s : State) (k : Nat) : State := (s.modPort k fun x => { x with subs := [] }).macsecFell k (s.macsecUp k)

/-- A packet dropped under R357 is counted. -/
def State.countUnprotected (s : State) (k : Nat) : State :=
  s.modPort k fun x => { x with dropUnprotected := min (x.dropUnprotected + 1) 0xFFFFFFFF }

/-- Send a RoCEv2 packet of a queue pair: a port whose ETH_PORT_MAC is 0 sends none (R306). -/
def State.sendRoce (s : State) (n : Nat) (m : OutMsg) : State :=
  if s.roceSilent n then s
  else if s.roceBlocked n then s.countUnprotected (s.qp n).onPort
  else if (s.port (s.qp n).onPort).mac = 0 then s
  else if s.portDrops (s.qp n).onPort then s.countPortDrop (s.qp n).onPort
  else s.send m

/-- Write one record into the ring by an RDMA WRITE. -/
def State.putRecord (s : State) (x : Nat) (r : EventRec) : State :=
  let c := s.ctx x
  let q := s.qp c.desc.eventQp
  let va := c.desc.eventVa + 32 * (c.recCount % 2 ^ c.desc.eventLog2)
  let bs := r.bytes c.desc.eventLog2 c.recCount
  let s := s.setCtx x { c with recCount := (c.recCount + 1) % 2 ^ 32 }
  let s := s.setQp c.desc.eventQp { q with nextPsn := (q.nextPsn + 1) % 2 ^ 24, unacked := q.unacked ++ [(q.nextPsn, va, c.desc.eventRkey, bs)] }
  s.sendRoce c.desc.eventQp (.recordWrite c.desc.eventQp va c.desc.eventRkey bs)

/-- Only resident contexts, the operator context and a context that has just ended have records written. -/
def Ctx.records (c : Ctx) (x : Nat) : Bool :=
  c.desc.eventQp != 0xFFFF && (c.state == .resident || c.state == .ended || (x == 0 && c.state == .defined))

/-- An event of a context: its record is written in the order of events, or waits (R300). -/
def State.record (s : State) (x : Nat) (r : EventRec) : State :=
  let c := s.ctx x
  let r := { r with ctx := x, mill := s.now }
  if !c.records x then s
  else if c.recWait.isEmpty && !c.ringFull && s.ringOpen x then s.putRecord x r
  else s.setCtx x { c with recWait := c.recWait ++ [r] }

/-- EVENT_RECORD_WRITE: the oldest waiting record is written once there is room. -/
def State.flushRecord (s : State) (x : Nat) : State :=
  let c := s.ctx x
  match c.recWait with
  | [] => s
  | r :: t => if !c.ringFull && s.ringOpen x then (s.setCtx x { c with recWait := t }).putRecord x r else s

def execEventRecordWrite (ctx : Nat) (s : State) : Answer := .next (s.flushRecord ctx)

/-- LEASE_WARNING to the home context's ring; not written while the ring is full (R58, R300). -/
def State.leaseWarning (s : State) (p left : Nat) : State :=
  match s.home p with
  | none => s
  | some x =>
    let c := s.ctx x
    if c.ringFull ∨ !c.recWait.isEmpty then s else s.record x { type := 2, index := p, result := left }

/-! ### Queues stop -/

def Ctx.queue (c : Ctx) (q : Nat) : HQueue := NatMap.get {} c.queues q
def Ctx.setQueue (c : Ctx) (q : Nat) (v : HQueue) : Ctx := { c with queues := NatMap.set {} c.queues q v }
def State.modQueue (s : State) (x q : Nat) (f : HQueue → HQueue) : State := s.modCtx x fun c => c.setQueue q (f (c.queue q))

/-- A queue stops: it resumes at RESTART = `resume`; what it had fetched is fetched again. -/
def HQueue.stop (q : HQueue) (resume : Nat) : HQueue :=
  { q with stopped := true, failedIndex := (resume + 2 ^ 32 - 1) % 2 ^ 32, head := resume, fetched := [] }

/-- Index of the first command that has not started. -/
def HQueue.nextIndex (q : HQueue) : Nat := match q.fetched with | [] => q.head | c :: _ => c.1

/-- A queue pair enters ERROR: every queue of each context whose records it carries stops with fault 0x0705 (R300). -/
def State.qpFails (s : State) (n : Nat) : State :=
  let s := s.modQp n fun q => { q with state := .error, write := none, held := [] }
  let xs := NatMap.keysWhere s.ctxs fun _ c => (c.state == .defined || c.state == .resident) && c.desc.eventQp == n && !c.qpError
  xs.foldl (fun s x =>
    let s := s.modCtx x fun c =>
      (List.range c.desc.queues).foldl (fun c q => if (c.queue q).stopped then c else c.setQueue q ((c.queue q).stop (c.queue q).nextIndex))
        { c with qpError := true }
    s.raise (s.ctxFault x 0x0705 0)) s

end Sys2Proof.Machine
end

