-- ==== Sys2Proof/Machine/VectorOps.lean ====
section
/-! DEFINITION. What the vector engine computes (R148 to R158) and the Tin conversions it carries out (R81, R114 to R116),
as functions of one tile. The meanings of the vector commands (`Machine/Vector.lean`) call these. -/
namespace Sys2Proof.Machine
open Sys2Proof

/-- What a vector operation does to its tile, and what it counts (R153). -/
structure VecOut where
  tile : Tile
  stats : StatAdd := {}
  deriving DecidableEq, Repr

/-- The floating layout of a VEC FMT (0, 1 or 2). -/
def vecFmt (fmt : Nat) : FloatFmt := if fmt = 0 then fp32Fmt else if fmt = 1 then bf16Fmt else fp16Fmt

/-- The elements of line `l` of register `r` in the FMT view. -/
def vecLine (t : Tile) (x : VecTop) (r l : Nat) : List Nat :=
  lineElems (if x.fmt = 0 then 32 else 16) (t.line x.axis r l)

/-- One result element: its bits and what it counts. -/
structure VecElem where
  bits : Nat
  stats : StatAdd := {}
  deriving DecidableEq, Repr

/-- An element rounded once into FMT (R150 "one", R153). -/
def vecRounded (f : FloatFmt) (rnd : Rnd) (fin : Bool) (v : Num) : VecElem :=
  let c := f.narrow rnd v
  let r := f.decode c.bits
  { bits := c.bits, stats := countResult fin r (c.ovf && r.isFinite) }

/-- An element whose value is exact in FMT (R150 "exact"). -/
def vecExact (f : FloatFmt) (fin : Bool) (v : Num) : VecElem :=
  let c := f.narrow .nearest v
  { bits := c.bits, stats := countResult fin (f.decode c.bits) false }

/-- An element operation on the elements a, b, c of one position; `p` is b_p of MULL and FMAL. DESIGN CHOICE (log entry 172): a function
(entry fn of Table 06.1) in a 16-bit FMT is narrowed by RND, as R150 says, and not to nearest. -/
def vecElem (x : VecTop) (rnd : Rnd) (a b c p : Nat) : VecElem :=
  let f := vecFmt x.fmt
  let na := f.decode a
  let nb := f.decode b
  let nc := f.decode c
  let np := f.decode p
  let s := fp32Fmt.decode (bits x.imm 0 32)
  let u := fp32Fmt.decode (bits x.imm 32 32)
  let one := fun (ins : List Num) v => vecRounded f rnd (ins.all Num.isFinite) v
  let exact := fun (ins : List Num) v => vecExact f (ins.all Num.isFinite) v
  match x.vop with
  | 0x01 => one [na, nb] (na.add nb)
  | 0x02 => one [na, nb] (na.sub nb)
  | 0x03 => one [na, nb] (na.mul nb)
  | 0x04 => one [na, nb, nc] ((na.mul nb).add nc)
  | 0x05 => one [na, nb, nc] (nc.sub (na.mul nb))
  | 0x06 => one [na] ((na.mul s).add u)
  | 0x07 => one [na, np] (na.mul np)
  | 0x08 => one [na, np, nc] ((na.mul np).add nc)
  | 0x09 => exact [na, nb] (if na.isNan || nb.isNan then .nan
      else if nb.lt na then nb else if na.lt nb then na else if na.neg? then na else nb)
  | 0x0A => exact [na, nb] (if na.isNan || nb.isNan then .nan
      else if na.lt nb then nb else if nb.lt na then na else if na.neg? then nb else na)
  | 0x0B => exact [na] (match na with | .nan => .nan | .inf _ => .inf false | .fin _ m => .fin false m)
  | 0x0C => exact [na] na.negate
  | 0x0D => { bits := (f.narrow .nearest (.fin false (if nb.lt na then 1 else 0))).bits }
  | 0x0E =>
    if na.isNan then { bits := f.canonNan }
    else if Num.lt (.fin false 0) na then { bits := if nb.isNan then f.canonNan else b }
    else { bits := if nc.isNan then f.canonNan else c }
  | _ =>
    if 0x20 ≤ x.vop ∧ x.vop ≤ 0x29 then
      -- fn: computed in FP32 within the bounds of Table 06.2, then narrowed into FMT by RND
      let y := num32 (vecFunction x.vop (rn32 na))
      vecRounded f rnd na.isFinite y
    else { bits := 0 }

/-- An integer or copy operation on one 32-bit cell (R150). -/
def vecCell (x : VecTop) (a b : Word32) : Word32 :=
  let sh := bits x.imm 0 5
  match x.vop with
  | 0x10 => a
  | 0x11 => BitVec.ofNat 32 (bits x.imm 0 32)
  | 0x40 => a + b
  | 0x41 => a - b
  | 0x42 => a &&& b
  | 0x43 => a ||| b
  | 0x44 => a ^^^ b
  | 0x45 => a <<< sh
  | 0x46 => a.sshiftRight sh
  | _ => a >>> sh

/-- The line indexes a VEC processes (R148). -/
def vecLines (x : VecTop) : List Nat := (List.range x.count).map (x.first + ·)

/-- ADD to SEL and the functions: every line is computed from the tile as the operation finds it, then written
(R149). -/
def runVecElems (t : Tile) (x : VecTop) : VecOut :=
  let w := if x.fmt = 0 then 32 else 16
  let ne := lineCount x.fmt
  let lines := (vecLines x).zipIdx.map fun lj =>
    let a := vecLine t x x.src1 lj.1
    let b := vecLine t x x.src2 lj.1
    let c0 := vecLine t x x.src3 lj.1
    let p := b[bits x.imm 0 7]?.getD 0
    (lj.1, (List.range ne).map fun k =>
      vecElem x (t.rnd x.rnd (lj.2 * ne + k)) (a[k]?.getD 0) (b[k]?.getD 0) (c0[k]?.getD 0) p)
  { tile := lines.foldl (fun t l => t.setLine x.axis x.dst l.1 (lineCells w (l.2.map (·.bits)))) t
    stats := (lines.map (·.2)).flatten.foldl (fun s e => s.plus e.stats) {} }

/-- MOV, FILL and the integer operations: cell by cell. -/
def runVecCells (t : Tile) (x : VecTop) : VecOut :=
  let lines := (vecLines x).map fun l =>
    (l, List.zipWith (vecCell x) (t.line x.axis x.src1 l) (t.line x.axis x.src2 l))
  { tile := lines.foldl (fun t l => t.setLine x.axis x.dst l.1 l.2) t }

/-- MOVT: DST row L receives column L of the source. -/
def runMovt (t : Tile) (x : VecTop) : VecOut :=
  { tile := (vecLines x).foldl (fun t' l => t'.setLine 0 x.dst l (t.line 1 x.src1 l)) t }

/-- The terms of a reduction (Table 06.3). -/
def reduceTerms (vop : Nat) (a b : List Word32) : List Word32 :=
  match vop with
  | 0x31 => a.map fun v => mul32 v v
  | 0x32 => List.zipWith mul32 a b
  | 0x35 => a.map fun v => v &&& 0x7FFFFFFF#32
  | _ => a

/-- The smaller of two FP32 values, with −0 below +0 (neither is NaN). -/
def min32 (a b : Word32) : Word32 :=
  if Num.lt (num32 b) (num32 a) then b
  else if Num.lt (num32 a) (num32 b) then a
  else if (num32 a).neg? then a else b

/-- r_L of R155. -/
def reduceLine (vop site : Nat) (ts : List Word32) : Word32 :=
  let r := match vop with
    | 0x33 | 0x35 => if ts.any (fun v => (num32 v).isNan) then nan32 else ts.tail.foldl max32 (ts.headD 0)
    | 0x34 => if ts.any (fun v => (num32 v).isNan) then nan32 else ts.tail.foldl min32 (ts.headD 0)
    | _ => if site = 1 then ts.tail.foldl add32 (ts.headD 0) else pairwiseSum 6 ts
  if (num32 r).isNan then nan32 else r

/-- Place r_L (R155's MODE and P). -/
def placeReduction (t : Tile) (x : VecTop) (l : Nat) (r : Word32) : Tile :=
  let p := bits x.imm 8 6
  match bits x.imm 0 2 with
  | 0 => t.setLine x.axis x.dst l (List.replicate 64 r)
  | 1 => if x.axis = 0 then t.setCell x.dst l p r else t.setCell x.dst p l r
  | _ => t.setCell x.dst (p + l / 32) (l % 32) r

/-- The reductions (R155). -/
def runReduce (env : TileEnv) (t : Tile) (x : VecTop) : VecOut :=
  let site := if x.axis = 0 then env.site1 else env.site2
  let rs := (vecLines x).map fun l =>
    let a := t.line x.axis x.src1 l
    let b := t.line x.axis x.src2 l
    let fin := a.all (fun v => (num32 v).isFinite) && (x.vop != 0x32 || b.all fun v => (num32 v).isFinite)
    (l, reduceLine x.vop site (reduceTerms x.vop a b), fin)
  { tile := rs.foldl (fun t r => placeReduction t x r.1 r.2.1) t
    stats := rs.foldl (fun s r => s.plus (countResult r.2.2 (num32 r.2.1) false)) {} }

/-- Every value of CVT format `src` is a value of CVT format `tgt` (R108). -/
def cvtContains (src tgt : Nat) : Bool :=
  src == tgt || tgt == 0 || ((tgt == 1 || tgt == 2) && (src == 3 || src == 4 || src == 10))

/-- The CVT is a widening conversion (R108): one that also scales is so only under a scale of 1.0. R110 resolves nothing there. -/
def cvtWidens (x : VecTop) : Bool :=
  cvtContains x.fmt (bits x.imm 0 4)
  && (cvtScaled x.fmt == cvtScaled (bits x.imm 0 4) || fp32Fmt.decode (bits x.imm 32 32) == .fin false 1)

/-- One CVT element (R157): the target bits and what R110 resolves. -/
def cvtElem (x : VecTop) (rnd : Rnd) (e : Nat) : Conv :=
  let tgt := bits x.imm 0 4
  let s := (fp32Fmt.decode (bits x.imm 32 32)).mag
  let v := fmtElem x.fmt 0 e
  let scaled := match v with
    | .fin n m =>
      if cvtScaled x.fmt && cvtScaled tgt then v
      else if cvtScaled x.fmt then .fin n (m * s)
      else if cvtScaled tgt then .fin n (m / s)
      else v
    | y => y
  let c := if tgt = 10 then narrowInt 8 rnd scaled else ((fmtFloat tgt).getD fp32Fmt).narrow rnd scaled
  if cvtWidens x then { bits := c.bits } else c

/-- CVT (R157): 64 elements of each row. -/
def runCvt (t : Tile) (x : VecTop) : VecOut :=
  let tgt := bits x.imm 0 4
  let ws := fmtWidth x.fmt
  let wt := fmtWidth tgt
  let rows := (vecLines x).zipIdx.map fun lj =>
    (lj.1, (List.range 64).map fun k =>
      cvtElem x (t.rnd x.rnd (lj.2 * 64 + k)) (t.elem ws x.src1 lj.1 (64 * bits x.imm 4 2 + k)))
  { tile := rows.foldl (fun t r =>
      r.2.zipIdx.foldl (fun t c => t.setElem wt x.dst r.1 (64 * bits x.imm 6 2 + c.2) c.1.bits) t) t
    stats := (rows.map (·.2)).flatten.foldl (fun s c => s.plus { ovf := flag c.ovf, nan := flag c.nan }) {} }

/-- STAT_READ (R158): the block into rows 0 to 15 of DST, then cleared, as one step. -/
def runStatRead (t : Tile) (x : VecTop) : VecOut :=
  { tile := (List.range 16).foldl (fun t' i => t'.setLine 0 x.dst i (statRow t.stats i)) { t with stats := [] } }

/-- What a VEC of the given kind computes, before statistics and BASE. -/
def vecResult (env : TileEnv) (t : Tile) (x : VecTop) : VecOut :=
  if x.count = 0 then { tile := t }
  else if x.vop ≤ 0x0E ∨ (0x20 ≤ x.vop ∧ x.vop ≤ 0x29) then runVecElems t x
  else if x.vop = 0x12 then runMovt t x
  else if 0x30 ≤ x.vop ∧ x.vop ≤ 0x35 then runReduce env t x
  else if x.vop = 0x50 then runCvt t x
  else if x.vop = 0x60 then { tile := t }
  else if x.vop = 0x61 then runStatRead t x
  else runVecCells t x

/-- A VEC within its tile: results and counts (CMPGT, SEL, MOV, FILL, MOVT and the integer operations count nothing). -/
def runVec (env : TileEnv) (t : Tile) (top : Top) : Tile × StatAdd :=
  let o := vecResult env t (vecTop top)
  (o.tile, o.stats)

/-! ### TIN_CVT -/

/-- The exponent byte of block k (0 or 1) of a row (R102). -/
def expByte (t : Tile) (x : TinTop) (row k : Nat) : Nat := t.elem 8 x.exp row k

/-- TIN_CVT to Tin on one row: FP32 cells 0–63 or bf16 columns 0–63, two blocks. An infinite block's byte of the exponent cell becomes
0xFF; the rest of the cell is left unchanged, as R116 says (DESIGN CHOICE, log entry 171: R102 says of the output that its other bits are
written as 0). Where DST = EXP_REG the mantissas are written first and the 0xFF bytes over them (DESIGN CHOICE, log entry 171). -/
def tinCvtTo (t : Tile) (x : TinTop) (o : VecOut) (j : Nat) : VecOut :=
  let row := x.first + j
  let k := if x.tin16 then TinKind.tin16 else .tin24
  let vs := (List.range 64).map fun i =>
    if x.fmt = 0 then num32 (t.cell x.src row i) else bf16Fmt.decode (t.elem 16 x.src row i)
  let blk := fun (b : Nat) =>
    tinConvert k (expByte t x row b) (fun i => t.rnd x.rnd (j * 64 + 32 * b + i)) ((vs.drop (32 * b)).take 32)
  let b0 := blk 0
  let b1 := blk 1
  let tile := o.tile.setLine 0 x.dst row ((b0.m ++ b1.m).map fun m => BitVec.ofNat 32 (unsigned 32 m))
  let tile := if b0.e = 0xFF then tile.setElem 8 x.exp row 0 0xFF else tile
  let tile := if b1.e = 0xFF then tile.setElem 8 x.exp row 1 0xFF else tile
  { tile := tile, stats := o.stats.plus { inf := flag (b0.e == 0xFF) + flag (b1.e == 0xFF) } }

/-- Element i of a row from Tin: R115, and a value the spec leaves open where the cell of a finite block is no sign-extended mantissa
(R102). -/
def tinCvtElem (t : Tile) (x : TinTop) (row j i : Nat) : Nat :=
  let k := if x.tin16 then TinKind.tin16 else .tin24
  let w := if x.tin16 then 16 else 24
  let e := expByte t x row (i / 32)
  let c := t.cell x.src row i
  let m := signed w c.toNat
  let f := if x.fmt = 0 then fp32Fmt else bf16Fmt
  if e ≠ 0 ∧ e ≠ 0xFF ∧ signed 32 c.toNat ≠ m then (Config.tinOpen x.tin16 e c).toNat % (if x.fmt = 0 then 2 ^ 32 else 2 ^ 16)
  else (f.narrow (t.rnd x.rnd (j * 64 + i)) ((⟨e, [m]⟩ : TinBlock).elem k 0)).bits

/-- TIN_CVT from Tin on one row (R115, R116). -/
def tinCvtFrom (t : Tile) (x : TinTop) (o : VecOut) (j : Nat) : VecOut :=
  let row := x.first + j
  let es := (List.range 64).map fun i => tinCvtElem t x row j i
  let cells := if x.fmt = 0 then es.map (BitVec.ofNat 32 ·) else padCells (lineCells 16 es)
  { o with tile := o.tile.setLine 0 x.dst row cells }
where
  /-- Element columns 64 to 127 of a bf16 result row are 0 (R116). -/
  padCells (l : List Word32) : List Word32 := l ++ List.replicate (64 - l.length) 0

/-- TIN_CVT within its tile: results and counts. -/
def runTinCvt (t : Tile) (top : Top) : Tile × StatAdd :=
  let x := tinTop top
  let o := (List.range x.count).foldl (if x.dir then tinCvtFrom t x else tinCvtTo t x) { tile := t }
  (o.tile, o.stats)

end Sys2Proof.Machine
end

