-- ==== Sys2Proof/Machine/TileOps.lean ====
section
/-! DEFINITION. The operations the TOP commands share: what a tile knows of its partition, the memory spaces it reaches (Table 03.4),
which earlier TOP a TOP waits for (R85, R86, R162), and passing, starting and completing a TOP. -/
namespace Sys2Proof.Machine
open Sys2Proof

/-! ### The tile's surroundings -/

/-- Granary slices of a tile's partition on its die. -/
def State.tileSlices (s : State) (t : Nat) : List Nat :=
  match s.tilePart t with
  | none => []
  | some p => (s.part p).map.slices (clusterDie (tileCluster t))

/-- What a tile knows of its partition. -/
def State.tileEnv (s : State) (t : Nat) : TileEnv :=
  let v := s.part ((s.tilePart t).getD 16)
  { granSize := sliceBytes * (s.tileSlices t).length
    syncQuota := v.map.syncQuota
    tags := (v.tags.filter fun e => e.1 / 16 == t).map fun e => (e.1 % 16, e.2)
    site0 := v.site0, site1 := v.site1, site2 := v.site2 }

/-- Read bytes of a tile address space. -/
def State.spaceRead (s : State) (t space off len : Nat) : List Byte :=
  match space with
  | 0 => NatMap.getList 0 (s.tile t).scratch off len
  | 1 => NatMap.getList 0 (s.cluster (tileCluster t)).sram off len
  | _ => readGran s.granary (s.tileSlices t) off len

/-- Write bytes of a tile address space. -/
def State.spaceWrite (s : State) (t space off : Nat) (bs : List Byte) : State :=
  match space with
  | 0 => s.modTile t fun x => { x with scratch := NatMap.setList 0 x.scratch off bs }
  | 1 => s.modCluster (tileCluster t) fun x => { x with sram := NatMap.setList 0 x.sram off bs }
  | _ => { s with granary := writeGran s.granary (s.tileSlices t) off bs }

/-! ### What a TOP touches -/

/-- A rectangle of cells of one register, touched row by row or (`col`) column by column. -/
structure Rect where
  reg : Nat
  r0 : Nat
  rn : Nat
  c0 : Nat
  cn : Nat
  col : Bool := false
  deriving DecidableEq, Repr

/-- Common cells; a row and a column of the same register always meet (R162). -/
def Rect.meets (a b : Rect) : Bool :=
  a.reg == b.reg
  && (a.col != b.col || (decide (a.r0 < b.r0 + b.rn) && decide (b.r0 < a.r0 + a.rn)
                         && decide (a.c0 < b.c0 + b.cn) && decide (b.c0 < a.c0 + a.cn)))

/-- Rows u … u + n − 1 counted on from row 0 of register `reg`. -/
def rowRects (reg u n c0 cn : Nat) : List Rect :=
  if n = 0 then [] else
  (List.range ((u + n - 1) / 64 + 1)).filterMap fun i =>
    let lo := max u (64 * i)
    let hi := min (u + n) (64 * i + 64)
    if lo < hi then some ⟨reg + i, lo - 64 * i, hi - lo, c0, cn, false⟩ else none

/-- Element columns `first … first + n − 1` of width `w` of `g` registers. -/
def colRects (reg g w first n : Nat) : List Rect :=
  if n = 0 then [] else
  let c0 := first * w / 32
  let c1 := ((first + n) * w + 31) / 32
  (List.range g).map fun i => ⟨reg + i, 0, 64, c0, c1 - c0, true⟩

/-- Cells that one array's part of an MMA reads (R67 to R69). -/
def armReads (m : MmaTop) (a : MmaArm) : List Rect :=
  match fmtClass m.fmtX, fmtClass m.fmtW with
  | some c, some cw =>
    let full := c == .fp32
    (if a.xcol then colRects m.xr c.g c.width a.xv a.rows
     else rowRects m.xr a.xv a.rows (if full then 0 else 32 * m.kh) (if full then 64 else 32))
    ++ (if blockScaled m.fmtX then rowRects m.sx a.xv a.rows (2 * m.kh) 2 else [])
    ++ (if a.wkeep then []
        else (if a.wt then colRects a.wr cw.g cw.width (32 * a.wq) 32
              else [⟨a.wr, 32 * (a.wq % 2), 32, if cw = .fp32 then 0 else 32 * (a.wq / 2 % 2), if cw = .fp32 then 64 else 32, false⟩])
          ++ (if blockScaled m.fmtW then [⟨m.sw, 0, 32, 2 * a.wq, 2, false⟩] else []))
  | _, _ => []

/-- Cells of a LOAD or STORE. -/
def xferRects (x : XferTop) : List Rect :=
  if x.tr then colRects x.reg 1 x.width x.first x.count
  else if x.count = 0 then [] else [⟨x.reg, x.first, x.count, x.cell0, x.cells, false⟩]

/-- Rows of AUX_REG that a drain reads (Table 05.4). -/
def auxRows (op : Nat) (d : DrainTop) : List (Nat × Nat) :=
  (if d.stage 1 then [(0, 1)] else []) ++ (if d.stage 2 then [(1, 1)] else [])
  ++ (if d.stage 3 || d.stage 6 then [(2, 1)] else []) ++ (if op = 6 then [(3, 1)] else [])
  ++ (if d.act = 10 || d.act = 11 then [(4, 4)] else []) ++ (if d.stage 4 then [(8, 4)] else [])
  ++ (if d.act = 11 then [(12, 8)] else [])

def drainReads (op : Nat) (d : DrainTop) : List Rect :=
  if d.rows = 0 then [] else
  (auxRows op d).map (fun r => ⟨d.aux, r.1, r.2, 0, 64, false⟩) ++ (if d.deriv then rowRects d.der d.rowOff d.rows 0 32 else [])

def drainWrites (op : Nat) (d : DrainTop) : List Rect :=
  if d.rows = 0 then [] else
  (if d.stage 4 then [⟨d.aux, 8, 4, 0, 64, false⟩] else [])
  ++ (if op = 4 then
        let w := fmtWidth d.outFmt
        rowRects d.dreg d.drow d.rows (d.dcol * w / 32) (((d.dcol + 32) * w + 31) / 32 - d.dcol * w / 32)
        ++ (if blockScaled d.outFmt then
              let beta := d.dcol / 32
              let byte := if w = 8 then 8 * (beta / 4) + beta % 4 else beta
              rowRects d.scaleReg d.drow d.rows (byte / 4) 1
            else [])
      else [])

/-- The lines of a VEC as cells of register `reg`. -/
def vecRects (x : VecTop) (reg : Nat) : List Rect :=
  if x.count = 0 then [] else if x.axis = 0 then [⟨reg, x.first, x.count, 0, 64, false⟩] else [⟨reg, 0, 64, x.first, x.count, true⟩]

def vecReads (x : VecTop) : List Rect :=
  if x.vop = 0x50 then
    let w := fmtWidth x.fmt
    if x.count = 0 then [] else [⟨x.src1, x.first, x.count, 2 * w * bits x.imm 4 2, 2 * w, false⟩]
  else if x.vop = 0x12 then if x.count = 0 then [] else [⟨x.src1, 0, 64, x.first, x.count, true⟩]
  else
    let u := ((vopInfo x.vop).map (·.srcs)).getD 0
    (if bit u 0 then vecRects x x.src1 else []) ++ (if bit u 1 then vecRects x x.src2 else [])
    ++ (if bit u 2 then vecRects x x.src3 else [])

def vecWrites (x : VecTop) : List Rect :=
  if x.count = 0 ∨ x.vop = 0x60 then []
  else if x.vop = 0x61 then [⟨x.dst, 0, 16, 0, 64, false⟩]
  else if x.vop = 0x50 then
    let w := fmtWidth (bits x.imm 0 4)
    [⟨x.dst, x.first, x.count, 2 * w * bits x.imm 6 2, 2 * w, false⟩]
  else if 0x30 ≤ x.vop ∧ x.vop ≤ 0x35 ∧ bits x.imm 0 2 = 1 then
    let p := bits x.imm 8 6
    if x.axis = 0 then [⟨x.dst, x.first, x.count, p, 1, false⟩] else [⟨x.dst, p, 1, x.first, x.count, false⟩]
  else if 0x30 ≤ x.vop ∧ x.vop ≤ 0x35 ∧ bits x.imm 0 2 = 2 then
    let p := bits x.imm 8 6
    [⟨x.dst, p + x.first / 32, (x.first + x.count - 1) / 32 - x.first / 32 + 1, 0, 32, false⟩]
  else vecRects x x.dst

def tinReads (x : TinTop) : List Rect :=
  if x.count = 0 then [] else [⟨x.src, x.first, x.count, 0, 64, false⟩, ⟨x.exp, x.first, x.count, 0, 1, false⟩]
def tinWrites (x : TinTop) : List Rect :=
  if x.count = 0 then [] else ⟨x.dst, x.first, x.count, 0, 64, false⟩ :: (if x.dir then [] else [⟨x.exp, x.first, x.count, 0, 1, false⟩])

/-- The cells a TOP reads and the cells it writes. -/
def topReads (t : Top) : List Rect :=
  match topOpcode t with
  | 1 => ((mmaArms t).map fun a => armReads (mmaTop t) a.2).flatten
  | 3 => xferRects (xferTop t)
  | 4 | 5 | 6 => drainReads (topOpcode t) (drainTop t)
  | 8 => vecReads (vecTop t)
  | 9 => tinReads (tinTop t)
  | _ => []
def topWrites (t : Top) : List Rect :=
  match topOpcode t with
  | 2 => xferRects (xferTop t)
  | 4 | 5 | 6 => drainWrites (topOpcode t) (drainTop t)
  | 8 => vecWrites (vecTop t)
  | 9 => tinWrites (tinTop t)
  | _ => []

/-- The memory a TOP touches: space, first byte, length, and how: 0 reads, 1 writes, 2 adds blocks. -/
def topMem (t : Top) : List (Nat × Nat × Nat × Nat) :=
  match topOpcode t with
  | 2 | 3 =>
    let x := xferTop t
    if x.count = 0 then [] else [(x.space, x.offset, extent x.count x.stride x.rowBytes, if topOpcode t = 2 then 0 else 1)]
  | 5 | 6 =>
    let d := drainTop t
    if d.rows = 0 then [] else [(d.space, d.offset, extent d.rows d.stride (d.rowBytes (topOpcode t == 6)), if topOpcode t = 6 then 2 else 1)]
  | 10 => [(0, tollAllocResult t, 16, 1)]
  | 11 => [(0, tollFreeResult t, 8, 1)]
  | _ => []

def memMeets (a b : Nat × Nat × Nat × Nat) : Bool :=
  a.1 == b.1 && decide (a.2.1 < b.2.1 + b.2.2.1) && decide (b.2.1 < a.2.1 + a.2.2.1)
  && (a.2.2.2 != 0 || b.2.2.2 != 0) && !(a.2.2.2 == 2 && b.2.2.2 == 2)

def anyMeets (a b : List Rect) : Bool := a.any fun x => b.any x.meets

/-- Two TOPs touch a common cell or byte and at least one writes it. -/
def topsMeet (a b : Top) : Bool :=
  anyMeets (topWrites a) (topWrites b) || anyMeets (topReads a) (topWrites b) || anyMeets (topWrites a) (topReads b)
  || (topMem a).any fun x => (topMem b).any (memMeets x)

/-- The accumulation groups a TOP names, as (array, group). -/
def topGroups (t : Top) : List (Bool × Nat) :=
  match topOpcode t with
  | 1 => (mmaArms t).map fun a => (a.1, a.2.group)
  | 4 | 5 | 6 | 7 => let d := drainTop t; [(d.array, d.group)]
  | _ => []

/-- The units a TOP passes to (Table 03.7). -/
def topUnits (t : Top) : List TileUnit :=
  match topOpcode t with
  | 1 => (mmaArms t).map fun a => if a.1 then .arrayB else .arrayA
  | 2 | 3 => [.transfer]
  | 4 | 5 | 6 | 7 => [if (drainTop t).array then .drainB else .drainA]
  | 8 | 9 => [.vector]
  | 10 | 11 | 12 | 13 | 14 => [.sync]
  | _ => []

/-- WAIT, FENCE and Toll calls hold the queue until they complete (R85). -/
def Flight.holdsQueue (f : Flight) : Bool := f.isWaitFence || f.isToll

def isStatRead (t : Top) : Bool := topOpcode t == 8 && (vecTop t).vop == 0x61

/-- RND of a TOP is 1. -/
def topStochastic (t : Top) : Bool :=
  match topOpcode t with
  | 4 | 5 | 6 => (drainTop t).rnd == 1
  | 8 => (vecTop t).rnd == 1
  | 9 => (tinTop t).rnd == 1
  | _ => false

/-- A TOP that uses the SR context (R162). -/
def usesSr (env : TileEnv) (t : Top) : Bool :=
  topStochastic t
  || (isDrain t && let d := drainTop t; (d.stage 5 || d.stage 6 || d.stage 7))
  || (topGroups t).any fun g => env.tag g.1 g.2 != 0

/-! ### Waiting for earlier TOPs (R85, R86, R162) -/

/-- The effects of an earlier TOP are in place. -/
def Flight.done (g : Flight) : Bool := g.phase == .running

/-- Group states follow queue order: a TOP waits for an earlier one that names its group, except where neither changes the
group's state. -/
def groupWaits (f g : Flight) : Bool :=
  (topGroups f.top).any fun a => (topGroups g.top).contains a &&
    !(g.done &&
      ((topOpcode f.top == 1 && topOpcode g.top == 1 && (mmaArms g.top).all fun x => x.1 != a.1 || !x.2.accClose)
       || (isDrain f.top && topOpcode f.top != 7 && isDrain g.top && let d := drainTop g.top; (!d.accOpen && !d.accClose))))

/-- A LOAD or STORE; the transfer unit runs one of them at a time (R85). -/
def isXfer (t : Top) : Bool := topOpcode t == 2 || topOpcode t == 3

/-- While it is under way the vector engine starts nothing else (Table 06.4): a code 1 reduction, or an SR_SET. DEDUCED (log entry 168):
a TIN_CVT, which is no VOP but runs in the same engine, waits as well. -/
def holdsEngine (env : TileEnv) (t : Top) : Bool :=
  let x := vecTop t
  topOpcode t == 8 && (x.vop == 0x60
    || (decide (0x30 ≤ x.vop) && decide (x.vop ≤ 0x32) && (if x.axis = 0 then env.site1 else env.site2) == 1))

/-- TOP `f` waits for the earlier TOP `g` of its tile. -/
def topWaits (env : TileEnv) (f g : Flight) : Bool :=
  (!g.done && ((topUnits f.top).any (topUnits g.top).contains || topsMeet f.top g.top))
  || groupWaits f g
  || (usesSr env f.top && isSrSet g.top)
  || (isXfer f.top && isXfer g.top)
  || ((topUnits f.top).contains .vector && holdsEngine env g.top)
  || (isStatRead f.top && isDrain g.top)
  || (isDrain f.top && isStatRead g.top && !g.done)
  || topOpcode f.top == 13

/-- The TOP at position `i` may start. -/
def mayStart (env : TileEnv) (l : List Flight) (i : Nat) : Bool :=
  match l[i]? with
  | none => false
  | some f => f.phase == .waiting && (l.take i).all fun g => !topWaits env f g

/-! ### The tile's state -/

/-- The tile takes TOPs from its queue. -/
def Tile.issues (x : Tile) : Bool := !x.halted && !x.quarantined && !x.scrubbing && x.test.isNone

/-- A unit accepts one TOP running and one pending (R85). In the arrays, drain paths and vector engine a TOP whose last vector, row or
line has entered leaves its place to the next while its results are still on their way (Table 03.12, R142, R161); the transfer unit
keeps a TOP until it is complete. -/
def unitAccepts (l : List Flight) (u : TileUnit) : Bool :=
  let mine := l.filter fun f => (topUnits f.top).contains u
  let waiting := (mine.filter fun f => !f.done).length
  if u = .transfer then decide (mine.length < 2)
  else if mine.any Flight.done then waiting == 0 else decide (waiting ≤ 1)

/-- A TOP of the tile is complete: DONE_j and TILE_TOP_COUNT count it, and what waited for it is settled. -/
def State.finishTop (s : State) (t i : Nat) : State :=
  let s := s.modTile t fun x => { x with flight := x.flight.eraseIdx i, topCount := x.topCount + 1 }
  (match s.tilePart t with
  | none => s
  | some p => s.modPart p fun v => { v with topTotal := v.topTotal + 1 }).settled t

/-- Flight `i` of a tile is at phase `ph`. -/
def State.setPhase (s : State) (t i : Nat) (ph : FlightPhase) : State :=
  s.modTile t fun x => { x with flight := x.flight.modify i fun f => { f with phase := ph } }

/-- The tile as flight `f` finds it: with the SR context of its place in the queue. -/
def Tile.under (x : Tile) (f : Flight) : Tile := { x with sr := f.sr }

/-- Run a function of the tile under the SR context of a flight. -/
def State.runUnder (s : State) (t : Nat) (f : Flight) (g : Tile → Tile) : State :=
  s.modTile t fun x => { g (x.under f) with sr := x.sr }

/-- The first waiting TOP of the tile that `want` names and that may start: its position; none while the core clocks are stopped (R418). -/
def State.startable (s : State) (t : Nat) (want : Top → Bool) : Option Nat :=
  let x := s.tile t
  if s.pwr.stopped then none else (List.range x.flight.length).find? fun i =>
    (match x.flight[i]? with | some f => want f.top | none => false) && mayStart (s.tileEnv t) x.flight i

/-- Start the first TOP that `want` names and that may start: a TOP that fails its checks is refused (R88), another does `act`. A tile
that is in arbitration starts nothing (R385). -/
def State.startTop (s : State) (t : Nat) (want : Top → Bool) (act : Nat → Flight → State → State) : State :=
  match s.startable t want with
  | none => s
  | some i =>
    let x := s.tile t
    match x.flight[i]? with
    | none => s
    | some f =>
      if x.arbitrating then s
      else match topFault (s.tileEnv t) (x.under f) f.top with
        | some code => s.topFails t i code
        | none => act i f s

/-- The first running TOP that `want` names: its position; none while the core clocks are stopped (R418). -/
def State.runningTop (s : State) (t : Nat) (want : Top → Bool) : Option Nat :=
  if s.pwr.stopped then none else (s.tile t).flight.findIdx? fun f => f.phase == .running && want f.top

/-- TOP `i` of a tile ends without completing. -/
def State.dropTop (s : State) (t i : Nat) : State := s.modTile t fun x => { x with flight := x.flight.eraseIdx i }

/-- The verdict of the hardware checks on TOP `i` of a tile (R384, R388, R390): whether the TOP goes on. `cause` and `code` are those of
a residue failure. DEDUCED: QUAR_CAUSE 8 (ECC) is the cause of a tile that R390 halts, until RESUME. -/
def State.topChecks (s : State) (t i code : Nat) (cause : QuarCause) (hw : HwCheck) : Bool × State :=
  let top := (((s.tile t).flight[i]?).map (·.top)).getD 0
  match hw with
  | .corrected w bit => (true, s.correctedWord w bit)
  | .uncorrectable m a sy b =>
    let p := (s.tilePart t).getD 0xFF
    let s := ((s.dropTop t i).eccFault p (s.locTile t (topUnitCode top)) m a sy b).haltTile t 0 0x0A07 top
    (false, s.modTile t fun x => { x with quarCause := .ecc })
  | .rowFail => (false, (s.dropTop t i).quarantine t .operandPath 0x0A04 (topUnitCode top) top [])
  | .residue | .residueAgain =>
    if code = 0 then (true, s) else (false, (s.dropTop t i).quarantine t cause code (topUnitCode top) top [])
  | _ => (true, s)

/-- Pass a TOP to its unit: it takes the SR context as it stands, and leaves it to those behind (R121, R122). -/
def State.passTop (s : State) (t : Nat) (top : Top) (rest : List Top) : State :=
  let v := s.part ((s.tilePart t).getD 16)
  s.modTile t fun x =>
    { x with queue := rest, seq := x.seq + 1, flight := x.flight ++ [{ top := top, sr := x.sr, seq := x.seq }], sr := srAfter v.seed v.gov.phaseStep x.sr top }

/-- TOPs that no row of their own starts: reserved opcodes, and VECs of a reserved VOP; their unit refuses them. -/
def rowless (t : Top) : Bool := decide (14 < topOpcode t) || (topOpcode t == 8 && (vopInfo (vecTop t).vop).isNone)

end Sys2Proof.Machine
end

