-- ==== Sys2Proof/Machine/Matrix.lean ====
section
/-! DEFINITION. The MMA (R70, R71, R76, R77) and the transfers LOAD and STORE (R78). -/
namespace Sys2Proof.Machine
open Sys2Proof

/-! ### MMA -/

def isMma (t : Top) : Bool := topOpcode t == 1

/-- A hallmark column check fails where R_n and the residue of the adder's result disagree (R383), unless the array's checker is retired
(R385). -/
def State.hallmarkHolds (s : State) (t : Nat) : HwCheck → Bool
  | .column b _ _ xo r => !((s.tile t).arr b).checkerRetired && !residuesAgree r xo
  | _ => false

/-- Input vector `v` of an arm as its array reads it (R67). -/
def armInput (x : Tile) (m : MmaTop) (a : MmaArm) (v : Nat) : List Nat :=
  match fmtClass m.fmtX with
  | some c => (List.range c.k).map (mmaInput x c m.xr m.kh a v)
  | none => []

/-- What the RAS block captures of array `b` of an MMA (R385): the input vector and the weight block. -/
def hallmarkSnapshot (x : Tile) (top : Top) (b : Bool) (v : Nat) : List Nat × WeightBlock :=
  ((((mmaArms top).find? (·.1 == b)).map fun p => armInput x (mmaTop top) p.2 v).getD [], (x.arr b).lastBlock.getD {})

/-- A failed column check holds the MMA for arbitration (R383, R385). -/
def State.holdMma (s : State) (t i : Nat) (f : Flight) : HwCheck → State
  | .column b v n xo r =>
    let c := hallmarkSnapshot (s.tile t) f.top b v
    (s.setPhase t i .held).startArbitration t b v n xo r c.1 c.2
  | _ => s

/-- MMA `i` streams its vectors; a hallmark failure then holds it. -/
def State.streamMma (s : State) (t i : Nat) (f : Flight) (hw : HwCheck) : State :=
  let s := (s.runUnder t f fun x => x.mmaStream f.top).setPhase t i .running
  if s.hallmarkHolds t hw then s.holdMma t i f hw else s

/-- The row, memory and column checks of an MMA at one of its steps; where they pass, it goes on. -/
def State.mmaStep (s : State) (t i : Nat) (hw : HwCheck) (go : State → State) : State :=
  let r := s.topChecks t i 0 .none hw
  if r.1 then go r.2 else r.2

/-- MMA: its weight blocks are loaded, or where it loads none its vectors stream at once; where no array streams it completes as a
no-op (R77). -/
def State.startMma (s : State) (t : Nat) (hw : HwCheck) : State :=
  s.startTop t isMma fun i f s =>
    if !mmaStreams f.top then s.finishTop t i
    else s.mmaStep t i hw fun s =>
      if mmaLoads f.top then (s.runUnder t f fun x => x.mmaLoad f.top).setPhase t i .loading
      else s.streamMma t i f hw

def execMma (tile : Nat) (hw : HwCheck) (s : State) : Answer := .next (s.startMma tile hw)

/-- The first MMA whose weight blocks are loading; none while the core clocks are stopped (R418). -/
def State.loadingMma (s : State) (t : Nat) : Option Nat :=
  if s.pwr.stopped then none else (s.tile t).flight.findIdx? fun f => f.phase == .loading

/-- The weight load is complete: the array begins streaming (R70). -/
def State.weightsLoaded (s : State) (t : Nat) (hw : HwCheck) : State :=
  match s.loadingMma t with
  | none => s
  | some i =>
    match (s.tile t).flight[i]? with
    | none => s
    | some f => if (s.tile t).arbitrating then s else s.mmaStep t i hw fun s => s.streamMma t i f hw

def execWeightLoadDone (tile : Nat) (hw : HwCheck) (s : State) : Answer := .next (s.weightsLoaded tile hw)

/-- The last results of an MMA are in its groups (R71), which close where ACC_CLOSE says so (Table 05.1). -/
def State.mmaDone (s : State) (t : Nat) (hw : HwCheck) : State :=
  match s.runningTop t isMma with
  | none => s
  | some i =>
    match (s.tile t).flight[i]? with
    | none => s
    | some f => s.mmaStep t i hw fun s =>
        if s.hallmarkHolds t hw then s.holdMma t i f hw
        else (s.runUnder t f fun x => x.mmaClose f.top).finishTop t i

def execMmaComplete (tile : Nat) (hw : HwCheck) (s : State) : Answer := .next (s.mmaDone tile hw)

/-! ### LOAD and STORE -/

/-- Memory row `i` of a LOAD into its register. -/
def Tile.loadRow (x : Tile) (d : XferTop) (i : Nat) (bs : List Byte) : Tile :=
  if d.tr then (List.range 64).foldl (fun x k => x.setElem d.width d.reg k (d.first + i) (bits (ofLe bs) (d.width * k) d.width)) x
  else (List.range d.cells).foldl (fun x j => x.setCell d.reg (d.first + i) (d.cell0 + j) (BitVec.ofNat 32 (field bs (4 * j) 4))) x

/-- Memory row `i` of a STORE from its register. -/
def Tile.storeRow (x : Tile) (d : XferTop) (i : Nat) : List Byte :=
  if d.tr then
    leBytes d.rowBytes ((List.range 64).foldr (fun k a => x.elem d.width d.reg k (d.first + i) + 2 ^ d.width * a) 0)
  else ((List.range d.cells).map fun j => leBytes 4 (x.cell d.reg (d.first + i) (d.cell0 + j)).toNat).flatten

def State.loadRows (s : State) (t : Nat) (d : XferTop) : State :=
  (List.range d.count).foldl (fun s i =>
    let bs := s.spaceRead t d.space (d.offset + i * d.stride) d.rowBytes
    s.modTile t fun x => x.loadRow d i bs) s

def State.storeRows (s : State) (t : Nat) (d : XferTop) : State :=
  (List.range d.count).foldl (fun s i => s.spaceWrite t d.space (d.offset + i * d.stride) ((s.tile t).storeRow d i)) s

/-- Start a LOAD or STORE; COUNT = 0 completes as a no-op (R78). -/
def State.startXfer (s : State) (t op : Nat) (move : State → XferTop → State) : State :=
  s.startTop t (fun top => topOpcode top == op) fun i f s =>
    let d := xferTop f.top
    if d.count = 0 then s.finishTop t i else (move s d).setPhase t i .running

def execLoad (tile : Nat) (s : State) : Answer := .next (s.startXfer tile 2 fun s d => s.loadRows tile d)
def execStore (tile : Nat) (s : State) : Answer := .next (s.startXfer tile 3 fun s d => s.storeRows tile d)

/-- A running TOP that `want` names is complete, once its checks pass. -/
def State.completeTop (s : State) (t code : Nat) (cause : QuarCause) (hw : HwCheck) (want : Top → Bool)
    (act : Nat → Flight → State → State) : State :=
  match s.runningTop t want with
  | none => s
  | some i =>
    match (s.tile t).flight[i]? with
    | none => s
    | some f =>
      let r := s.topChecks t i code cause hw
      if r.1 then act i f r.2 else r.2

def execTransferComplete (tile : Nat) (hw : HwCheck) (s : State) : Answer :=
  .next (s.completeTop tile 0 .none hw (fun top => topOpcode top == 2 || topOpcode top == 3) fun i _ s => s.finishTop tile i)

end Sys2Proof.Machine
end

