-- ==== Sys2Proof/Machine/SyncTops.lean ====
section
/-! DEFINITION. The TOPs of the sync unit (R82 to R84): Toll calls (R216 to R219), WAIT, SIGNAL and FENCE; and SYNC_SIGNAL. -/
namespace Sys2Proof.Machine
open Sys2Proof

/-! ### WAIT and FENCE -/

/-- Start a TOP of the sync unit that then waits. -/
def State.startSync (s : State) (t op : Nat) : State :=
  s.startTop t (fun top => topOpcode top == op) fun i _ s => s.setPhase t i .running

def execWait (tile : Nat) (s : State) : Answer := .next (s.startSync tile 12)
def execSignal (tile : Nat) (s : State) : Answer := .next (s.startSync tile 13)
def execFence (tile : Nat) (s : State) : Answer := .next (s.startSync tile 14)

/-- The WAIT at work in a tile is released where its sync object satisfies VALUE (R83, R235). -/
def State.releaseTileWait (s : State) (t : Nat) : State :=
  match s.runningTop t (topOpcode · == 12), s.tilePart t with
  | some i, some p =>
    let top := (((s.tile t).flight[i]?).map (·.top)).getD 0
    if waitOk (s.syncValue p (syncIndex top)) (Sys2Proof.Machine.syncValue top) then s.finishTop t i else s
  | _, _ => s

/-- A FENCE completes when every earlier TOP of its tile is complete and visible (R84). -/
def State.fenceComplete (s : State) (t : Nat) : State :=
  match s.runningTop t (topOpcode · == 14) with
  | some 0 => s.finishTop t 0
  | _ => s

def execFenceComplete (tile : Nat) (s : State) : Answer := .next (s.fenceComplete tile)

/-! ### Toll calls -/

/-- Write a Toll call's result word (R82) and complete the call; a status other than OK counts in MEM_TOLL_FAILS (R217). -/
def State.tollResult (s : State) (t i result handle status : Nat) : State :=
  let s := s.spaceWrite t 0 result (leBytes 8 (handle + status * 2 ^ 32))
  let s := if status = 0 then s
    else match s.tilePart t with
      | some p => { s with tollFails := NatMap.modify {} s.tollFails p fun c => c.add 1 }
      | none => s
  s.finishTop t i

/-- A Toll call arrives at the control die; TOLL_ALLOC of SIZE 0 completes at once with handle 0 (R82). -/
def State.callToll (s : State) (t op : Nat) : State :=
  s.startTop t (fun top => topOpcode top == op) fun i f s =>
    if op = 10 ∧ tollAllocSize f.top = 0 then s.tollResult t i (tollAllocResult f.top) 0 0
    else { s.setPhase t i .running with tollQueue := s.tollQueue ++ [.tile t] }

def execTollAlloc (tile : Nat) (s : State) : Answer := .next (s.callToll tile 10)
def execTollFree (tile : Nat) (s : State) : Answer := .next (s.callToll tile 11)

/-- A TOLL_ALLOC that succeeded in context `x`: a GRANARY_PIN object's byte offset is written beside the result word (R217). -/
def State.allocDone (s : State) (t i x : Nat) (top : Top) (h : Nat) : State :=
  let o := s.obj x (handleIndex h)
  let s := if o.tier = .granary then s.spaceWrite t 0 (tollAllocResult top + 8) (leBytes 8 (s.objAddr x o 0)) else s
  s.tollResult t i (tollAllocResult top) h 0

/-- TOLL_ALLOC in the home context (R216, R217). -/
def State.serveAlloc (s : State) (t i : Nat) (top : Top) : State :=
  match (s.tilePart t).bind s.home with
  | none => s.tollResult t i (tollAllocResult top) 0 (if (flagsTier (tollAllocFlags top)).isNone then 3 else 5)
  | some x =>
    match s.allocate x (clusterDie (tileCluster t)) (tollAllocFlags top) (tollAllocSize top) with
    | (0, h, s') => s'.allocDone t i x top h
    | (st, _, s') => s'.tollResult t i (tollAllocResult top) 0 st

/-- TOLL_FREE in the home context (R218): its result word waits for the transfers that hold the object. -/
def State.serveFree (s : State) (t i : Nat) (top : Top) : State :=
  let h := tollFreeHandle top
  match (s.tilePart t).bind s.home with
  | none => s.tollResult t i (tollFreeResult top) 0 6
  | some x =>
    let r := s.freeHandle x h 3
    if r.1 ≠ 0 then r.2.tollResult t i (tollFreeResult top) 0 r.1
    else if r.2.pendingFrees.length ≠ s.pendingFrees.length then
      { r.2.setPhase t i .taken with tollQueue := .tile t :: r.2.tollQueue }
    else r.2.tollResult t i (tollFreeResult top) h 0

/-- Toll takes up a tile's call (R219); one whose free has taken effect waits for its transfers. -/
def State.serveTile (s : State) (t : Nat) (rest : List TollCall) : State :=
  match s.runningTop t (fun top => topOpcode top == 10 || topOpcode top == 11) with
  | some i =>
    let top := (((s.tile t).flight[i]?).map (·.top)).getD 0
    let s := { s with tollQueue := rest }
    if topOpcode top = 10 then s.serveAlloc t i top else s.serveFree t i top
  | none => if (s.tile t).flight.any (·.phase == .taken) then s else { s with tollQueue := rest }

/-- The granules of the object that the TOLL_FREE being served named are back: its result word is written (R218). -/
def State.tollFreed (s : State) : State :=
  match s.tollQueue with
  | [] | .host _ _ _ :: _ => s
  | .tile t :: rest =>
    match (s.tile t).flight.findIdx? (·.phase == .taken) with
    | some i =>
      let top := (((s.tile t).flight[i]?).map (·.top)).getD 0
      ({ s with tollQueue := rest } : State).tollResult t i (tollFreeResult top) (tollFreeHandle top) 0
    | none => s

/-! ### SYNC_SIGNAL -/

/-- The partition that a signal's source belongs to. -/
def State.signalPart (s : State) : SignalSrc → Option Nat
  | .tile t => s.tilePart t
  | .core c => s.clusterPart c
  | .leat c _ => s.clusterPart c
  | .quern p _ => some p
  | .host x _ => if x = 0 then none else some (s.ctx x).desc.part
  | .collective p => some p

/-- The SIGNAL at the head of a tile's flights, started, that writes `v` to object `idx` (R83). -/
def State.signalFlight (s : State) (t idx : Nat) (v : Word64) : Bool :=
  match (s.tile t).flight[0]? with
  | some f => f.phase == .running && topOpcode f.top == 13 && syncIndex f.top == idx && Sys2Proof.Machine.syncValue f.top == v
  | none => false

/-- A signal reaches its sync object (R236): a SIGNAL TOP completes with it. -/
def State.syncSignal (s : State) (src : SignalSrc) (idx : Nat) (v : Word64) : State :=
  match s.signalPart src with
  | none => s
  | some p =>
    if (s.part p).map.syncQuota ≤ idx then s
    else match src with
      | .tile t =>
        if s.signalFlight t idx v then
          let r := s.signalTop p idx v src 0
          (if r.1 then r.2.finishTop t 0 else r.2).barriers p
        else s
      | _ => s.signalled p idx v src

def execSyncSignal (src : SignalSrc) (idx : Nat) (v : Word64) (s : State) : Answer := .next (s.syncSignal src idx v)

end Sys2Proof.Machine
end

