-- ==== Sys2Proof/Machine/Queues.lean ====
section
/-! DEFINITION. Command queues (R293 to R298): scans, the commands NOP, ALLOC, FREE, WAIT and SIGNAL, what a failed command does, and
how a context ends (R291). -/
namespace Sys2Proof.Machine
open Sys2Proof

/-! ### Commands (Tables 11.8 and 11.9) -/

def cmdOpcode (b : List Byte) : Nat := field b 0 1
def cmdWantsRecord (b : List Byte) : Bool := bit (field b 1 1) 0

def ctxRuns (c : Ctx) (x : Nat) : Bool := c.state == .resident || (x == 0 && c.state == .defined)

/-- The reserved bytes of a command, by opcode: (offset, length). -/
def cmdReserved : Nat → List (Nat × Nat)
  | 0 => [(2, 2), (8, 56)]
  | 1 => [(2, 2), (0xA, 6), (0x15, 3), (0x18, 40)]
  | 2 => [(2, 2), (0xC, 52)]
  | 3 => [(2, 2), (0x15, 3), (0x1D, 3), (0x25, 3), (0x28, 24)]
  | 4 => [(2, 2), (0xA, 2), (0x18, 40)]
  | 5 => [(2, 2), (0xA, 6), (0x18, 40)]
  | 6 => [(2, 2), (0x15, 3), (0x1D, 3), (0x25, 3), (0x29, 23)]
  | _ => []

/-- Second check of R297. DEDUCED: FLAGS8 is in range where it fits TOLL_ALLOC's FLAGS; DIE is an operand of GRANARY_PIN alone. -/
def State.cmdFieldsOk (s : State) (x : Nat) (b : List Byte) : Bool :=
  let op := cmdOpcode b
  decide (field b 1 1 ≤ 1) && (cmdReserved op).all (fun r => allZero (slice b r.1 r.2))
  && (op != 1 || (decide (field b 8 1 < 32) && decide (field b 9 1 < 8) && (flagsTier (field b 8 1) == some .granary || field b 9 1 == 0)))
  && ((op != 4 && op != 5) || (x != 0 && decide (field b 8 2 < (s.part (s.ctx x).desc.part).map.syncQuota)))

/-! ### A context ends (R291) -/

/-- Once the commands of an ended context have completed, its objects are freed; once their transfers have too, its heaps are free and
its record is written, where END or ABORT_CTX ended it. -/
def State.endStep (s : State) (x : Nat) : State :=
  let c := s.ctx x
  if c.ending = 0 ∨ c.queues.any (fun e => e.2.current.isSome) then s
  else
    let live := NatMap.keysWhere c.objects fun _ o => o.live
    let s := live.foldl (fun s i => s.freeIdx x i 4) s
    if s.pendingFrees.any (·.ctx == x) then s
    else
      let s := s.modCtx x fun c => { c with ending := 0 }
      if c.ending = 3 then s else s.record x { type := 3 }

/-- The commands of a queue that have not run are discarded; those with RECORD leave a record of STATUS ABORTED (R303). -/
def State.discardQueue (s : State) (x q : Nat) (dropWait recs : Bool) : State :=
  let u := (s.ctx x).queue q
  let waits := dropWait && u.current.any fun c => cmdOpcode c.2 == 4
  let gone := (if waits then u.current.toList else []) ++ u.fetched
  let s := s.modQueue x q fun u => { u with fetched := [], current := if waits then none else u.current }
  if recs then
    (gone.filter fun c => cmdWantsRecord c.2).foldl (fun s c =>
      s.record x { type := 1, queue := q, status := 8, tag := field c.2 4 4, index := c.1 }) s
  else s

/-- A context ends: by END (1), by ABORT_CTX (2), which also abandons a WAIT, or by a rebinding (3). -/
def State.endCtx (s : State) (x how : Nat) : State :=
  let n := (s.ctx x).desc.queues
  let s := s.modCtx x fun c => { c with state := .ended, ending := how, evicting := false, slot := 63 }
  ((List.range n).foldl (fun s q => s.discardQueue x q (how != 1) (how != 3)) s).endStep x

/-- The contexts of a partition end with its rebinding. -/
def State.endPartCtxs (s : State) (p : Nat) : State :=
  (NatMap.keysWhere s.ctxs fun x c => x != 0 && c.desc.part == p && (c.state == .defined || c.state == .resident)).foldl
    (fun s x => s.endCtx x 3) s

/-! ### Completing and failing -/

/-- The command in progress of a queue completes (R295, R300). -/
def State.finishCmd (s : State) (x q status result fault : Nat) : State :=
  match ((s.ctx x).queue q).current with
  | none => s
  | some (i, b) =>
    let s := s.modQueue x q fun u => { u with current := none }
    let s := if cmdWantsRecord b || fault != 0 then
        s.record x { type := 1, fault := fault, queue := q, status := status, tag := field b 4 4, index := i, result := result }
      else s
    s.endStep x

/-- The command in progress fails (R298): the queue stops, a record carries the fault, and CTX_FAULT shows it. -/
def State.failCmd (s : State) (x q code : Nat) (addr : Option Nat := none) : State :=
  match ((s.ctx x).queue q).current with
  | none => s
  | some (i, _) =>
    let s := s.modCtx x fun c =>
      { c.setQueue q ((c.queue q).stop ((i + 1) % 2 ^ 32)) with faultIndex := i, faultQueue := q, faultCode := code }
    (s.raise (s.ctxFault x code 0 addr)).finishCmd x q 0 0 code

/-- Commands of the context may start: not those of a partition in rebinding (R33). -/
def State.ctxStarts (s : State) (x : Nat) : Bool :=
  x == 0 || match (s.part (s.ctx x).desc.part).state with
    | .draining | .scrubbing | .retiring | .loading => false
    | _ => true

/-- Start the next command of a queue where its opcode is one of `mine` and the queue may start one (R295, R300): its opcode and its
fields are checked, then `f` runs it. -/
def State.startCmd (s : State) (x q : Nat) (mine : Nat → Bool) (f : List Byte → State → State) : State :=
  let c := s.ctx x
  let u := c.queue q
  match u.fetched with
  | [] => s
  | (i, b) :: rest =>
    if ctxRuns c x && s.ctxStarts x && decide (q < c.desc.queues) && !u.stopped && u.current.isNone && mine (cmdOpcode b) && !(c.recWait.any (·.queue == q)) then
      let s := s.modQueue x q fun u => { u with fetched := rest, current := some (i, b), since := s.now }
      if 6 < cmdOpcode b then s.failCmd x q 0x0701
      else if !s.cmdFieldsOk x b then s.failCmd x q 0x0702
      else f b s
    else s

/-- NOP completes; a command with a reserved opcode fails here too. -/
def execCmdNop (ctx queue : Nat) (s : State) : Answer :=
  .next (s.startCmd ctx queue (fun op => op == 0 || decide (6 < op)) fun _ s => s.finishCmd ctx queue 0 0 0)

/-- A Toll call of a partition's context that ends with a status other than OK counts in MEM_TOLL_FAILS (R217). -/
def State.countToll (s : State) (x status : Nat) : State :=
  if status = 0 ∨ x = 0 then s
  else { s with tollFails := NatMap.modify {} s.tollFails (s.ctx x).desc.part fun c => c.add 1 }

/-- Toll serves an ALLOC (R216, R217, R296). -/
def State.hostAlloc (s : State) (x q : Nat) (b : List Byte) : State :=
  let r := s.allocate x (field b 9 1) (field b 8 1) (field b 0x10 8)
  (r.2.2.countToll x r.1).finishCmd x q r.1 (if r.1 = 0 then r.2.1 else 0) 0

/-- Toll serves a FREE: complete once the object's transfers are (R218); until then Toll serves no other call (R219). -/
def State.hostFree (s : State) (x q : Nat) (b : List Byte) : State :=
  let r := s.freeHandle x (field b 8 4) 2
  if r.1 = 0 ∧ r.2.pendingFrees.length ≠ s.pendingFrees.length then
    { r.2 with tollQueue := .host x q true :: r.2.tollQueue }
  else (r.2.countToll x r.1).finishCmd x q r.1 0 0

/-- Toll takes up a host queue's call. -/
def State.serveHost (s : State) (x q : Nat) : State :=
  match ((s.ctx x).queue q).current with
  | none => s
  | some (_, b) => if cmdOpcode b = 1 then s.hostAlloc x q b else s.hostFree x q b

/-- A host queue's call arrives at Toll (R219): served at once where no other call waits or is being served. -/
def State.callHost (s : State) (x q : Nat) : State :=
  if s.tollQueue.isEmpty then s.serveHost x q else { s with tollQueue := s.tollQueue ++ [.host x q false] }

/-- ALLOC: SIZE 0 completes as a no-op before any other check (R217). -/
def State.cmdAlloc (s : State) (x q : Nat) (b : List Byte) : State :=
  if field b 0x10 8 = 0 then s.finishCmd x q 0 0 0 else s.callHost x q

def execCmdAlloc (ctx queue : Nat) (s : State) : Answer :=
  .next (s.startCmd ctx queue (· == 1) fun b s => s.cmdAlloc ctx queue b)

/-- FREE, in queue order (R292). -/
def execCmdFree (ctx queue : Nat) (s : State) : Answer :=
  .next (s.startCmd ctx queue (· == 2) fun _ s => s.callHost ctx queue)

/-- Toll takes up the call at the head of its queue (R219). -/
def State.tollServe (s : State) : State :=
  match s.tollQueue with
  | [] | .host _ _ true :: _ => s
  | .tile t :: rest => s.serveTile t rest
  | .host x q false :: rest => ({ s with tollQueue := rest } : State).serveHost x q

def execTollServe (s : State) : Answer := .next s.tollServe

/-- The granules of the object that the FREE being served named are back: the command completes. -/
def State.hostFreed (s : State) : State :=
  match s.tollQueue with
  | .host x q true :: rest => ({ s with tollQueue := rest } : State).finishCmd x q 0 0 0
  | _ => s

/-- WAIT holds its queue until WAIT_RELEASE or CMD_WAIT_TIMEOUT. -/
def execCmdWait (ctx queue : Nat) (s : State) : Answer :=
  .next (s.startCmd ctx queue (· == 4) fun _ s => s)

/-- The WAIT of a queue is released where its sync object satisfies VALUE (R235). -/
def State.releaseQueueWait (s : State) (x q : Nat) : State :=
  match ((s.ctx x).queue q).current with
  | some (_, b) =>
    if cmdOpcode b = 4 ∧ waitOk (s.syncValue (s.ctx x).desc.part (field b 8 2)) (BitVec.ofNat 64 (field b 0x10 8)) then s.finishCmd x q 0 0 0 else s
  | none => s

def execWaitRelease (w : Waiter) (s : State) : Answer :=
  .next (match w with | .tile t => s.releaseTileWait t | .queue x q => s.releaseQueueWait x q)

/-- LIMIT_US passes first: STATUS TIMEOUT, and the queue continues. -/
def State.waitTimeout (s : State) (x q : Nat) : State :=
  let u := (s.ctx x).queue q
  match u.current with
  | some (_, b) =>
    if cmdOpcode b = 4 ∧ field b 0xC 4 ≠ 0 ∧ u.since + 1000 * field b 0xC 4 ≤ s.now then s.finishCmd x q 7 0 0 else s
  | none => s

def execCmdWaitTimeout (ctx queue : Nat) (s : State) : Answer := .next (s.waitTimeout ctx queue)

/-- SIGNAL (R236); a regression shows in its record, and the queue continues: R236 names no response of a queue. -/
def State.cmdSignal (s : State) (x q : Nat) (b : List Byte) : State :=
  let p := (s.ctx x).desc.part
  let r := s.signal p (field b 8 2) (BitVec.ofNat 64 (field b 0x10 8)) (.host x q)
  (r.2.barriers p).finishCmd x q 0 0 (if r.1 then 0 else 0x0601)

def execCmdSignal (ctx queue : Nat) (s : State) : Answer :=
  .next (s.startCmd ctx queue (· == 5) fun b s => s.cmdSignal ctx queue b)

/-! ### FREE_COMPLETE (R218) -/

/-- A freed range is back in its heap: what asked for the free is told, and a context that ends may have waited for it (R291). -/
def State.freed (s : State) (f : PendingFree) : State :=
  let s := match f.origin with
    | 0 => s.modMem fun m => { m with freeBusy := s.freeWaits f.ctx 0 }
    | 1 => s.modCtx f.ctx fun c => { c with uFreeBusy := s.freeWaits f.ctx 1 }
    | 2 => s.hostFreed
    | 3 => s.tollFreed
    | _ => s
  s.endStep f.ctx

def State.freeComplete (s : State) (x i : Nat) : State :=
  let l := s.pendingFrees.filter fun f => f.ctx == x && f.index == i && !s.objBusy x i f.gen
  l.foldl State.freed { s with pendingFrees := s.pendingFrees.filter fun f => !l.contains f }

def execFreeComplete (ctx index : Nat) (s : State) : Answer := .next (s.freeComplete ctx index)

/-! ### Scans (R293, R294) -/

/-- A queue stops at a scan: at a TAIL beyond its ring, or at a line of the ring that fails. -/
def State.scanStop (s : State) (x q i code : Nat) (addr : Option Nat) : State :=
  let s := s.modCtx x fun c => { c.setQueue q ((c.queue q).stop i) with faultIndex := i, faultQueue := q, faultCode := code }
  (s.raise (s.ctxFault x code 0 addr)).record x { type := 4, fault := code, index := i }

/-- Fetch `n` commands of a queue from its head on. -/
def State.fetchCmds (s : State) (x q : Nat) (o : Obj) : (n : Nat) → State
  | 0 => s
  | n + 1 =>
    let c := s.ctx x
    let i := (c.queue q).head
    let size := 2 ^ c.desc.ringLog2
    let r := s.readObj x o (256 + (q * size + i % size) * 64) 64
    match r.2.1 with
    | some (code, a) => r.2.2.scanStop x q i code (some a)
    | none => State.fetchCmds (r.2.2.modQueue x q fun u => { u with head := (i + 1) % 2 ^ 32, fetched := u.fetched ++ [(i, r.1)] }) x q o n

/-- One queue at a scan: a stopped one resumes where RESTART says so; a running one fetches at most 64 commands. -/
def State.scanQueue (s : State) (x : Nat) (o : Obj) (hdr : List Byte) (q : Nat) : State :=
  let u := (s.ctx x).queue q
  let s := if u.stopped && field hdr (0x18 + 16 * q) 4 == (u.failedIndex + 1) % 2 ^ 32 && !(s.ctx x).qpError then
      s.modQueue x q fun u => { u with stopped := false }
    else s
  let u := (s.ctx x).queue q
  if u.stopped then s
  else
    let n := (field hdr (0x10 + 16 * q) 4 + 2 ^ 32 - u.head) % 2 ^ 32
    if 2 ^ (s.ctx x).desc.ringLog2 < n then s.scanStop x q u.head 0x0703 none
    else s.fetchCmds x q o (min n 64)

/-- Scan a context: its control block is read, then its queues are. A control block with a failing line is not scanned. -/
def State.scanCtx (s : State) (x : Nat) : State :=
  let c := s.ctx x
  if !ctxRuns c x ∨ c.evicting then s
  else match s.current x 1 with
    | none => s
    | some o =>
      let r := s.readObj x o 0 256
      match r.2.1 with
      | some (code, a) => r.2.2.raise (s.ctxFault x code 0 (some a))
      | none =>
        let s := r.2.2.modCtx x fun c => { c with eventHead := field r.1 0 4 }
        (List.range c.desc.queues).foldl (fun s q => s.scanQueue x o r.1 q) s

/-- The resident contexts of a partition in the slots that a QUEUE_SCAN selects. -/
def State.scanned (s : State) (p slots : Nat) : List Nat :=
  NatMap.keysWhere s.ctxs fun x c => x != 0 && c.state == .resident && c.desc.part == p && (slots == 0 || bit slots c.slot)

def execQueueScan (part entry : Nat) (s : State) : Answer :=
  .next (s.startEntry part entry 3 fun e s =>
    ((s.scanned part (bits e.arg 0 48)).foldl State.scanCtx s).completeRun part ((s.part part).gov.key entry))

/-- OPERATOR_QUEUE_SCAN: the queues of context 0, every 16 µs (R287). -/
def execOperatorQueueScan (s : State) : Answer := .next (s.scanCtx 0)

end Sys2Proof.Machine
end

