-- ==== Sys2Proof/Machine/Contexts.lean ====
section
/-! DEFINITION. CTX_CMD (R288 to R291, R305): creating, loading, evicting, ending and destroying contexts. -/
namespace Sys2Proof.Machine
open Sys2Proof

/-- A context descriptor from its 160 bytes (Table 11.5). -/
def ctxDescOf (b : List Byte) : CtxDesc :=
  { part := field b 2 1, home := bit (field b 3 1) 0, queues := field b 4 1, ringLog2 := field b 5 1, eventLog2 := field b 6 1
    objMax := field b 8 4, session := field b 0xC 4, eventQp := field b 0x10 2, eventVa := field b 0x18 8, eventRkey := field b 0x20 4
    hbmSets := field b 0x28 8, hbmOff := field b 0x30 8, hbmLen := field b 0x38 8, pondOff := field b 0x40 8, pondLen := field b 0x48 8
    granary := (List.range 8).map fun d => (field b (0x50 + 8 * d) 4, field b (0x54 + 8 * d) 4) }

/-- The descriptor's bytes: an operator object's, or those of CTX_DESC0 to 19 (R288); `none` where the first check fails. -/
def State.ctxDescBytes (s : State) : Option (List Byte) × State :=
  if s.ctxRegs.descObj = 0 then (some (((List.range 20).map fun k => leBytes 8 (NatMap.get 0 s.ctxRegs.desc k).toNat).flatten), s)
  else match s.operatorObj s.ctxRegs.descObj 160 with
    | none => (none, s)
    | some o =>
      let r := s.readObj 0 o 0 160
      match r.2.1 with
      | some (c, a) => (none, r.2.2.raise (r.2.2.ctxFault 0 c 0 (some a)))
      | none => (some r.1, r.2.2)

/-- The rules of Table 11.5 on the descriptor of context `x`. -/
def ctxFormatOk (b : List Byte) (x : Nat) : Bool :=
  let d := ctxDescOf b
  field b 0 2 == 1 && (if x = 0 then d.part == 0xFF else decide (d.part < 16)) && decide (field b 3 1 ≤ 1)
  && decide (1 ≤ d.queues) && decide (d.queues ≤ 8) && decide (6 ≤ d.ringLog2) && decide (d.ringLog2 ≤ 16)
  && decide (6 ≤ d.eventLog2) && decide (d.eventLog2 ≤ 20) && allZero (slice b 7 1)
  && decide (2 ≤ d.objMax) && decide (d.objMax ≤ 1048575) && allZero (slice b 0x12 6) && allZero (slice b 0x24 4)
  && d.hbmOff % 65536 == 0 && d.hbmLen % 65536 == 0 && d.hbmLen != 0
  && d.pondOff % 2097152 == 0 && d.pondLen % 2097152 == 0
  && d.granary.all (fun g => g.1 % 4096 == 0 && g.2 % 4096 == 0) && allZero (slice b 0x90 16)

/-- A context that holds heaps: one that has ended holds them until its objects' transfers are complete (R291). -/
def State.heapsHeld (s : State) (x : Nat) (c : Ctx) : Bool :=
  c.state == .defined || c.state == .resident || (c.state == .ended && (c.ending != 0 || s.pendingFrees.any (·.ctx == x)))

/-- No other live home context of the partition (R287). -/
def State.homeFree (s : State) (x : Nat) (d : CtxDesc) : Bool :=
  !d.home || x == 0 || match s.home d.part with | some y => y == x | none => true

/-- Two byte ranges share a byte; an empty range shares none. -/
def overlap (a la b lb : Nat) : Bool := decide (0 < la) && decide (0 < lb) && decide (a < b + lb) && decide (b < a + la)

/-- Heaps of two descriptors of one partition, or of context 0, overlap. -/
def CtxDesc.meets (d e : CtxDesc) : Bool :=
  ((d.hbmSets &&& e.hbmSets) != 0 && overlap d.hbmOff d.hbmLen e.hbmOff e.hbmLen)
  || overlap d.pondOff d.pondLen e.pondOff e.pondLen
  || (List.zip d.granary e.granary).any fun g => overlap g.1.1 g.1.2 g.2.1 g.2.2

/-- A partition that holds resources: one that is not FREE. -/
def State.boundParts (s : State) : List Nat := (List.range 16).filter fun p => (s.part p).state != .free

/-- Every heap lies in resources of the descriptor's partition. -/
def State.heapsInPart (s : State) (d : CtxDesc) : Bool :=
  let m := (s.part d.part).map
  (s.part d.part).state != .free
  && (bitsOf 64 d.hbmSets).all (fun n => bit m.hbmSets n && decide (d.hbmOff + d.hbmLen ≤ hbmSetRoom n))
  && (d.pondLen == 0 || decide (d.pondOff + d.pondLen ≤ 268435456 * (m.pond.map (·.2)).foldl (· + ·) 0))
  && d.granary.zipIdx.all fun g => g.1.2 == 0 || decide (g.1.1 + g.1.2 ≤ sliceBytes * (m.slices g.2).length)

/-- Every heap of context 0 lies in resources that no bound partition holds. -/
def State.heapsUnbound (s : State) (d : CtxDesc) : Bool :=
  let ms := s.boundParts.map fun p => (s.part p).map
  (bitsOf 64 d.hbmSets).all (fun n => !(ms.any fun m => bit m.hbmSets n) && decide (d.hbmOff + d.hbmLen ≤ hbmSetRoom n))
  && (d.pondLen == 0 || (decide (d.pondOff + d.pondLen ≤ 268435456 * s.mem.extents)
        && !(ms.any fun m => m.pond.any fun e => overlap d.pondOff d.pondLen (268435456 * e.1) (268435456 * e.2))))
  && d.granary.zipIdx.all fun g => g.1.2 == 0 || (decide (g.1.1 + g.1.2 ≤ sliceBytes * 8)
        && !(ms.any fun m => (m.slices g.2).any fun i => overlap g.1.1 g.1.2 (sliceBytes * (i % 8)) sliceBytes))

/-- EVENT_QP may carry the context's records (R289, R306). -/
def State.eventQpOk (s : State) (x : Nat) (d : CtxDesc) : Bool :=
  let q := s.qp d.eventQp
  let y := s.ctx q.onCtx
  d.eventQp == 0xFFFF
  || (decide (d.eventQp < 8192) && q.state == .rts
      && (if x = 0 then q.onCtx == 0
          else q.onCtx != 0 && q.onPart == d.part && (q.onCtx == x || (y.state != .undefined && y.desc.part == d.part))))

/-- Third check of R289; a queue pair connected to the context must name its PART (R306). -/
def State.ctxConflict (s : State) (x : Nat) (d : CtxDesc) : Bool :=
  !(if x = 0 then s.heapsUnbound d else s.heapsInPart d)
  || s.ctxs.any (fun e => e.1 != x && ((x == 0) == (e.1 == 0)) && s.heapsHeld e.1 e.2 && (x == 0 || e.2.desc.part == d.part) && d.meets e.2.desc)
  || !s.eventQpOk x d
  || (x != 0 && s.qps.any fun e => e.2.state != .reset && e.2.onCtx == x && e.2.onPart != d.part)

/-- Bytes of the queue object. -/
def CtxDesc.queueBytes (d : CtxDesc) : Nat := 256 + d.queues * 2 ^ d.ringLog2 * 64

def State.ctxStatus (s : State) (x st : Nat) : State := s.modCtx x fun c => { c with cmdStatus := st }

/-- CREATE's effect: the object table, the queue object at index 1 written as zeros, and the context DEFINED. -/
def State.ctxDefine (s : State) (x : Nat) (d : CtxDesc) : State :=
  let o : Obj := { live := true, flags := 0x02, tier := .hbm, base := d.tableBytes, size := d.queueBytes }
  let s := s.setCtx x { state := .defined, desc := d, objects := NatMap.set {} [] 1 o }
  (s.writeObj x o 0 (List.replicate d.queueBytes 0)).2

/-- CREATE (R288, R289). -/
def State.ctxCreate (s : State) (x : Nat) : State :=
  match s.ctxDescBytes with
  | (none, s) => s.ctxStatus x 3
  | (some b, s) =>
    let d := ctxDescOf b
    if !ctxFormatOk b x ∨ (s.ctx x).state ≠ .undefined ∨ !s.homeFree x d then s.ctxStatus x 4
    else if s.ctxConflict x d then s.ctxStatus x 8
    else if (bitsOf 64 d.hbmSets).length * d.hbmLen < d.tableBytes + roundUp d.queueBytes 65536 then s.ctxStatus x 9
    else s.ctxDefine x d

/-- CTX_CMD runs one command at a time: an EVICT or an END that is not complete is running. -/
def State.ctxBusy (s : State) : Bool := s.ctxs.any fun e => e.2.evicting || e.2.ending == 1

/-- A CTX_CMD by a requester on its selected context. -/
def State.ctxCmd (s : State) (rq : Req) (f : Nat → State → State) : State :=
  if s.mayP rq 0x40008 then
    let x := (s.sel rq).ctx % 4096
    if s.ctxBusy then s.ctxStatus x 1 else f x s
  else s

def execCreate (rq : Req) (s : State) : Answer := .next (s.ctxCmd rq fun x s => s.ctxCreate x)

/-- LOAD into a free slot (R290). -/
def State.ctxLoad (s : State) (x : Nat) : State :=
  let c := s.ctx x
  let st := (s.part c.desc.part).state
  let k := s.ctxRegs.arg
  if x = 0 ∨ c.state ≠ .defined ∨ (st ≠ .armed ∧ st ≠ .running ∧ st ≠ .braked) ∨ 48 ≤ k
     ∨ s.ctxs.any (fun e => e.2.state == .resident && e.2.slot == k) then s.ctxStatus x 2
  else s.modCtx x fun c => { c with state := .resident, slot := k, cmdStatus := 0 }

def execCtxLoad (rq : Req) (s : State) : Answer := .next (s.ctxCmd rq fun x s => s.ctxLoad x)

/-- Nothing of an evicted context is left to run or to write. -/
def Ctx.quiet (c : Ctx) : Bool :=
  c.recWait.isEmpty && c.queues.all fun e => e.2.current.isNone && (e.2.fetched.isEmpty || e.2.stopped)

def State.evictDone (s : State) (x : Nat) : State :=
  let c := s.ctx x
  if c.evicting && c.quiet then s.setCtx x { c with state := .defined, slot := 63, evicting := false } else s

/-- EVICT (R290). -/
def State.evict (s : State) (x : Nat) : State :=
  if (s.ctx x).state ≠ .resident then s.ctxStatus x 2
  else (s.modCtx x fun c => { c with evicting := true, cmdStatus := 0 }).evictDone x

def execEvict (rq : Req) (s : State) : Answer := .next (s.ctxCmd rq fun x s => s.evict x)

/-- EVICT_COMPLETE: its fetched commands have completed and their records are written. -/
def execEvictComplete (ctx : Nat) (s : State) : Answer := .next (s.evictDone ctx)

def execCtxEnd (rq : Req) (s : State) : Answer :=
  .next (s.ctxCmd rq fun x s =>
    if !s.ctxLive x then s.ctxStatus x 2 else (s.ctxStatus x 0).endCtx x 1)

/-- DESTROY (R290): the context number is UNDEFINED again, and a DEFINED context's objects go with it. -/
def State.ctxDestroy (s : State) (x : Nat) : State :=
  let c := s.ctx x
  if (c.state ≠ .defined ∧ c.state ≠ .ended) ∨ c.ending ≠ 0 then s.ctxStatus x 2
  else
    let s := (NatMap.keysWhere c.objects fun _ o => o.live).foldl (fun s i => s.freeIdx x i 5) s
    s.setCtx x {}

def execDestroy (rq : Req) (s : State) : Answer := .next (s.ctxCmd rq fun x s => s.ctxDestroy x)

end Sys2Proof.Machine
end

