-- ==== Sys2Proof/Machine/Charters.lean ====
section
/-! DEFINITION. Charters (R327 to R331): the body, loading and unloading, and what ends with a charter slot's binding. -/
namespace Sys2Proof.Machine
open Sys2Proof

/-! ### The charter body (Table 12.8) -/

/-- `n` records of `size` bytes from the front of the bytes. -/
def records (size : Nat) : (n : Nat) → List Byte → List (List Byte)
  | 0, _ => []
  | n + 1, bs => bs.take size :: records size n (bs.drop size)

def partyOf (body b : List Byte) : PartyEntry :=
  { alg := field b 0 2, telemetry := field b 2 1, keyId := slice b 32 32, pk := slice body (field b 8 8) (field b 4 4) }
def charterKeyOf (b : List Byte) : CharterKey := { handle := field b 0 4, party := field b 4 1, purpose := field b 5 1 }
def charterRuleOf (b : List Byte) : CharterRule :=
  { source := field b 0 1, k := field b 1 1, approvers := field b 2 2, recipients := field b 4 2
    tensorLo := field b 8 3, tensorHi := field b 0xB 3 }

/-- The counts of the body's regions: parties, streams, firmware digests, keys, rules. -/
structure CharterCounts where
  parties : Nat
  streams : Nat
  fw : Nat
  keys : Nat
  rules : Nat
  deriving DecidableEq, Repr

def charterCounts (b : List Byte) : CharterCounts :=
  { parties := field b 2 1, rules := field b 3 1, streams := field b 4 2, keys := field b 6 2, fw := field b 8 1 }

/-- Where the public keys may start. -/
def CharterCounts.rulesEnd (c : CharterCounts) : Nat := 0x40 + 64 * c.parties + 32 * c.streams + 32 * c.fw + 8 * c.keys + 16 * c.rules

/-- The regions of a body as raw records. -/
structure CharterRaw where
  parties : List (List Byte)
  streams : List (List Byte)
  fw : List (List Byte)
  keys : List (List Byte)
  rules : List (List Byte)
  deriving DecidableEq, Repr

def charterRaw (b : List Byte) : CharterRaw :=
  let c := charterCounts b
  let o1 := 0x40 + 64 * c.parties
  let o2 := o1 + 32 * c.streams
  let o3 := o2 + 32 * c.fw
  let o4 := o3 + 8 * c.keys
  { parties := records 64 c.parties (b.drop 0x40), streams := records 32 c.streams (b.drop o1), fw := records 32 c.fw (b.drop o2)
    keys := records 8 c.keys (b.drop o3), rules := records 16 c.rules (b.drop o4) }

def charterOf (b : List Byte) : Charter :=
  let r := charterRaw b
  { parties := r.parties.map (partyOf b), streams := r.streams, firmware := r.fw
    keys := r.keys.map charterKeyOf, rules := r.rules.map charterRuleOf }

/-! ### Well-formed (R327, R328) -/

def charterHeadOk (b : List Byte) : Bool :=
  let c := charterCounts b
  decide (0x40 ≤ b.length) && field b 0 2 == 1 && decide (1 ≤ c.parties) && decide (c.parties ≤ 16) && decide (c.rules ≤ 32)
  && decide (1 ≤ c.streams) && decide (c.streams ≤ 1024) && decide (c.parties ≤ c.keys) && decide (c.keys ≤ 240) && decide (c.fw ≤ 16)
  && allZero (slice b 9 7) && allZero (slice b 0x20 32) && decide (c.rulesEnd ≤ b.length)

/-- A party entry: its ALG is known, its key's length matches it and lies after the rules, inside the body, and hashes to KEY_ID. -/
def partyOk (body b : List Byte) : Bool :=
  let e := partyOf body b
  let len := field b 4 4
  let off := field b 8 8
  algKeyLen e.alg != 0 && len == algKeyLen e.alg && decide ((charterCounts body).rulesEnd ≤ off) && decide (off + len ≤ body.length)
  && shake32 e.pk == e.keyId && decide (e.telemetry < 8) && field b 3 1 == 0 && allZero (slice b 16 16)

def keyEntryOk (parties : Nat) (b : List Byte) : Bool :=
  let k := charterKeyOf b
  k.handle != 0 && decide (k.party < parties) && decide (1 ≤ k.purpose) && decide (k.purpose ≤ 3) && field b 6 2 == 0

/-- The number of a party's handles of a purpose. -/
def Charter.handles (c : Charter) (party purpose : Nat) : Nat := (c.keys.filter fun k => k.party == party && k.purpose == purpose).length

def ruleOk (c : Charter) (b : List Byte) : Bool :=
  let r := charterRuleOf b
  let n := c.parties.length
  decide (r.source ≤ 1) && decide (r.k ≤ 16) && decide (r.approvers < 2 ^ n) && decide (r.recipients < 2 ^ n) && r.recipients != 0
  && (bitsOf 16 r.recipients).all (c.handles · 2 == 1) && decide (r.k ≤ (bitsOf 16 r.approvers).length)
  && (if r.source = 0 then r.tensorLo == 0 && r.tensorHi == 0 else decide (0 < r.tensorLo) && decide (r.tensorLo ≤ r.tensorHi))
  && field b 6 2 == 0 && field b 0xE 2 == 0

def allDistinct [DecidableEq α] : List α → Bool
  | [] => true
  | a :: l => !l.contains a && allDistinct l

/-- The container's signature entries are one for each party, in order, with its ALG and KEY_ID. -/
def Charter.sigsMatch (c : Charter) (l : Lenhar) : Bool :=
  l.sigs.map (fun e => (e.alg, e.keyId)) == c.parties.map fun p => (p.alg, p.keyId)

/-- R328. -/
def charterOk (l : Lenhar) : Bool :=
  let b := l.body
  let r := charterRaw b
  let c := charterOf b
  charterHeadOk b && r.parties.all (partyOk b) && r.keys.all (keyEntryOk c.parties.length) && r.rules.all (ruleOk c)
  && allDistinct (c.keys.map (·.handle)) && allDistinct (c.parties.map (·.keyId))
  && (List.range c.parties.length).all (fun i => c.handles i 3 == 1 && decide (c.handles i 2 ≤ 1))
  && c.sigsMatch l

/-- Every party's signature verifies under its key. -/
def Charter.signed (c : Charter) (l : Lenhar) : Bool := (l.sigs.zip c.parties).all fun e => e.1.verifies e.2.pk l.signed

/-! ### LOAD_CHARTER (R329) -/

/-- A SEC_CMD acts on the requester's charter slot. -/
def State.onSec (s : State) (rq : Req) (f : Nat → State → State) : State :=
  if s.mayP rq 0xB0068 then f ((s.sel rq).charterSlot % 16) s else s

/-- Checks 5 to 9, on the bytes read: the status, and the container where it is 0. -/
def State.charterStatus (s : State) (bs : List Byte) : Nat × Option Lenhar :=
  match lenhar bs with
  | none => (4, none)
  | some l =>
    if !charterOk l then (4, none)
    else if l.kind ≠ 4 then (0xB, none)
    else
      let c := charterOf l.body
      if !l.digestOk || !c.signed l then (6, none)
      else if s.sec.charters.any (fun e => e.2.state != .empty && e.2.digest == l.digest) then (8, none)
      else if !c.firmware.isEmpty && !c.firmware.contains s.life.fwDigest then (7, none)
      else (0, some l)

/-- A LOAD_CHARTER that fails checks 3 to 9 raises 0x0802. -/
def State.charterFails (s : State) (st : Nat) : State := (s.secStatus st).raise (secFault 0x0802 3)

def State.loadCharter (s : State) (c part : Nat) : State :=
  let x := s.sec
  if x.busy then s.secStatus 1
  else if s.lcState ≠ 3 ∨ (x.charter c).state ≠ .empty then s.secStatus 2
  else if (match s.current 0 x.obj with | some o => decide (x.len ≤ o.size) | none => false) = false then s.charterFails 3
  else if 262144 < x.len then s.charterFails 5
  else
    let r := s.operatorBytes x.obj x.len
    match r.1 with
    | none => r.2.charterFails 3
    | some bs =>
      match r.2.charterStatus bs with
      | (_, some l) =>
        (r.2.secStatus 0).modSec fun x =>
          x.setCharter c { state := .pending, part := part, digest := l.digest, charter := charterOf l.body, relRegs := (x.charter c).relRegs }
      | (st, none) => r.2.charterFails st

def execLoadCharter (rq : Req) (s : State) : Answer :=
  .next (s.onSec rq fun c s => s.loadCharter c ((s.sel rq).charterPart % 16))

/-! ### What ends -/

/-- An Ihlak session ends (R319): its keys are destroyed, and the selects it held go. -/
def State.endSession (s : State) (n : Nat) : State :=
  let s := s.modSec fun x => x.setSession n {}
  { s with selects := NatMap.set {} s.selects n {} }

def State.endSessions (s : State) (p : Session → Bool) : State :=
  (NatMap.keysWhere s.sec.sessions fun _ n => p n).foldl State.endSession s

/-- A release in progress stops with fault 0x0805 and its request ends (R339); DST has no header. -/
def State.stopRelease (s : State) (c : Nat) : State :=
  let k := s.sec.charter c
  if k.release.state = .running then
    let s := s.modSec fun x => x.setCharter c { k with release := {} }
    let mine := fun (j : CopyJob) => j.kind == 2 && j.key == c
    let slots := (s.copyJobs.filter mine).map (·.queue)
    let s := { s with copyJobs := s.copyJobs.filter fun j => !mine j }
    (slots.foldl State.endUse s).raise (secFault 0x0805 3 k.part)
  else s

/-- A charter slot's keys, secret, request and party sessions go; the slot keeps only what `f` leaves. -/
def State.clearCharter (s : State) (c : Nat) (f : CharterSlot → CharterSlot) : State :=
  let s := s.stopRelease c
  let s := s.eraseKeys fun k => k.owner == 2 && k.charter == c
  let s := s.endSessions fun n => n.role == 1 && n.charter == c
  s.modSec fun x => x.setCharter c (f (x.charter c))

/-- UNLOAD_CHARTER (R330): refused in EMPTY and BOUND. -/
def State.unloadCharter (s : State) (c : Nat) : State :=
  if s.sec.busy then s.secStatus 1
  else match (s.sec.charter c).state with
    | .empty | .bound => s.secStatus 2
    | .pending | .active => (s.secStatus 0).clearCharter c fun _ => {}

def execUnloadCharter (rq : Req) (s : State) : Answer := .next (s.onSec rq fun c s => s.unloadCharter c)

/-- R331: the charter slot to which a partition was BOUND loses its keys, secret and request, and is PENDING again. -/
def State.unbindCharter (s : State) (c : Nat) : State :=
  s.clearCharter c fun k => { k with state := .pending, secret := none, shares := [], sharesMask := 0, release := {} }

/-! ### Derived secrets (R333) -/

def derive (label : String) (secret : List Byte) : List Byte := shake32 (ascii label ++ secret)

/-- The device key of the charter slot a partition is BOUND to: role 4's z. -/
def State.deviceKey (s : State) (c : Nat) : List Byte := derive "NDP1" ((s.sec.charter c).secret.getD [])

end Sys2Proof.Machine
end

