-- ==== Sys2Proof/Machine/Identity.lean ====
section
/-! DEFINITION. The identity key's index, boot certificates and the attestation key (R307 to R312). -/
namespace Sys2Proof.Machine
open Sys2Proof

/-- The identity key can sign a boot certificate (R308, R311). -/
def Security.canSign (x : Security) : Bool := x.identity.isSome && !x.idOff

/-- MISSION and SERVICE sign boot certificates (Table 14.6). -/
def State.signs (s : State) : Bool := s.sec.canSign && (s.lcState == 3 || s.lcState == 4)

/-- An index that cannot be had: 0x0807 (R308). -/
def State.idFault (s : State) : State := s.raise (secFault 0x0807 3)

/-- `id_advance` of R308: the index the signature will use. Where there is none, 0x0807; with no valid word identity signing is off until
reset. A word that reads back wrong twice keeps what it reads. -/
def State.idAdvance (s : State) : Option Nat × State :=
  match s.sec.idValue with
  | some c =>
    if c < idLimit ∧ !s.sec.idDisabled then
      if Config.mramWord s.draws 0 (idWord (c + 1)) ≠ idWord (c + 1) then
        (none, (s.draw.modSec fun x => { x with wordA := Config.mramWord s.draws 0 (idWord (c + 1)) }).idFault)
      else if Config.mramWord s.draws 1 (idWord (c + 1)) ≠ idWord (c + 1) then
        (none, (s.draw.modSec fun x =>
          { x with wordA := idWord (c + 1), wordB := Config.mramWord s.draws 1 (idWord (c + 1)) }).idFault)
      else (some c, s.draw.modSec fun x => { x with wordA := idWord (c + 1), wordB := idWord (c + 1) })
    else (none, (s.modSec fun x => { x with idDisabled := true }).idFault)
  | none => (none, (s.modSec fun x => { x with idDisabled := true }).idFault)

/-- The 160 bytes of a boot certificate before its signature (Table 12.2). -/
def State.bootCertHead (s : State) (seq index : Nat) (attPk : List Byte) : List Byte :=
  leBytes 4 0x4E424331 ++ leBytes 2 1 ++ leBytes 2 seq ++ leBytes 4 s.life.bootCount ++ leBytes 4 index ++ leBytes 1 s.lcState
  ++ leBytes 3 0 ++ leBytes 4 Config.romVersion ++ s.sec.deviceId ++ padTo 32 s.life.fwDigest ++ padTo 68 attPk ++ leBytes 4 0

/-- Sign a boot certificate for the attestation key of draw `d` (R311, R312), in the states that do (Table 14.6). -/
def State.signBootCert (s : State) (d seq : Nat) : State :=
  match (if s.lcState = 3 ∨ s.lcState = 4 then s.sec.identity else none) with
  | none => s.modSec fun x => { x with bootCert := [] }
  | some idKey =>
    let r := s.idAdvance
    match r.1 with
    | none => r.2.modSec fun x => { x with bootCert := [] }
    | some i =>
      let m := r.2.bootCertHead seq i (Config.xmssPublic 16 d)
      r.2.modSec fun x => { x with certSeq := seq, bootCert := m ++ padTo 2820 (Config.xmssSign 20 idKey i m) }

/-- Generation of an attestation key begins. -/
def State.genAttKey (s : State) : State := s.modSec fun x => { x with attGen := true, attKey := none }

/-- A rollover: a new attestation key is being generated, with fault 0x0808 (R311). -/
def State.startAttKey (s : State) : State := s.genAttKey.raise (secFault 0x0808 3)

/-- ATT_KEY_READY: the key is there, and a boot certificate is signed for it with one identity index; CERT_SEQ counts the boot's keys. -/
def State.attKeyReady (s : State) : State :=
  if s.sec.attGen then
    let d := s.draws
    let seq := s.sec.attKeys
    let s := s.draw.modSec fun x => { x with attGen := false, attKey := some d, attIndex := 0, attKeys := seq + 1 }
    s.signBootCert d seq
  else s

def execAttKeyReady (s : State) : Answer := .next s.attKeyReady

/-- ROLLOVER (R311): 0x12 where no boot certificate can be signed. DEDUCED: BUSY while a key is being generated. -/
def State.rollover (s : State) : State :=
  if s.sec.busy || s.sec.attGen then s.secStatus 1
  else if !s.signs then s.secStatus 0x12
  else (s.secStatus 0).startAttKey

def execRollover (rq : Req) (s : State) : Answer := .next (s.onSec rq fun _ s => s.rollover)

end Sys2Proof.Machine
end

