-- ==== Sys2Proof/Machine/Ihlak.lean ====
section
/-! DEFINITION. Taking an Ihlak packet (R276 to R278, R315): the checks before it acts, and what a dropped one leaves. -/
namespace Sys2Proof.Machine
open Sys2Proof

/-- The packet types that a session's role lets its peer send (Table 12.5). -/
def roleAllows (role type : Nat) : Bool :=
  match role with
  | 1 | 2 | 3 => type == 1 || type == 2 || type == 0x30
  | 4 => type == 0x20 || type == 0x21 || type == 0x22 || type == 0x23 || type == 0x28 || type == 0x30
  | _ => false

/-- The SETUP sub-types that a session lets its peer send (R314, R315): WRAPPED_KEY, APPROVE and CLOSE of role 1, else CLOSE. -/
def subAllows (role sub : Nat) : Bool := sub == 9 || (role == 1 && (sub == 6 || sub == 7))

/-- What the receiver does with a packet (R277). -/
inductive PktFate where
  | accepted
  /-- dropped for its tag, length, type, PART or session -/
  | auth
  /-- dropped for its SEQ -/
  | replay
  /-- not taken at all: its frame is not on the priority of its TYPE (R279), or the network is not heard (R360, R372) -/
  | unheard
  deriving DecidableEq, Repr

/-- The SEQ is too old or has been accepted already. -/
def Session.replayed (n : Session) (seq : Nat) : Bool :=
  match n.seqHigh with
  | none => false
  | some h => decide (seq + 1024 ≤ h) || n.seqSeen.contains seq

/-- The length field tells the payload's length, which is in bounds. -/
def Pkt.lengthOk (p : Pkt) : Bool := p.length == p.payload.length && decide (p.length ≤ 8320)

/-- The packet is heard: on the priority of its TYPE (R279), while the network is open. -/
def State.hears (s : State) (p : Pkt) : Bool := p.prio == typePrio p.type && s.netOpen

/-- The fixed fields of the header (Table 11.1) and its LENGTH are right. -/
def Pkt.headerOk (p : Pkt) : Bool := p.version == 1 && decide (p.flags < 2) && p.reserved == 0 && p.lengthOk

/-- R277: the receiver's checks on a packet of a session. -/
def State.pktFate (s : State) (p : Pkt) : PktFate :=
  let n := s.sec.session p.session
  if !s.hears p then .unheard
  else if !p.headerOk ∨ n.role = 0 ∨ !p.tagOk ∨ p.sender ≠ n.peerSender then .auth
  else if n.replayed p.seq then .replay
  else if p.part ≠ n.part ∨ !roleAllows n.role p.type ∨ (p.type = 0x30 ∧ !subAllows n.role (field p.payload 0 1)) then .auth
  else .accepted

/-- The session has accepted a SEQ: the window keeps those above the highest minus 1,024. -/
def Session.take (n : Session) (seq : Nat) : Session :=
  let h := max (n.seqHigh.getD 0) seq
  { n with seqHigh := some h, seqSeen := (seq :: n.seqSeen).filter fun x => decide (h < x + 1024) }

/-- A packet is dropped and counted in ETH_IHLAK_DROPS; the first drop on a session in any 1 ms raises 0x0709. -/
def State.dropPkt (s : State) (p : Pkt) (f : PktFate) : State :=
  let s := s.modEth fun e =>
    if f = .replay then { e with dropReplay := min (e.dropReplay + 1) 0xFFFFFFFF } else { e with dropAuth := min (e.dropAuth + 1) 0xFFFFFFFF }
  let n := s.sec.session p.session
  if n.role = 0 ∨ n.lastDrop.any fun t => decide (s.now < t + 1000000) then s
  else (s.modSec fun x => x.setSession p.session { n with lastDrop := some s.now }).raise { code := 0x0709, loc := locEth n.part p.port }

/-- Take a packet of a live session: whether it acts, and the state after the checks. -/
def State.takePkt (s : State) (p : Pkt) : Bool × State :=
  if s.portDrops p.port then (false, s.countPortDrop p.port)
  else match s.pktFate p with
    | .accepted => (true, s.modSec fun x => x.setSession p.session ((x.session p.session).take p.seq))
    | .unheard => (false, s)
    | f => (false, s.dropPkt p f)

/-- Take a packet of one type: a packet of another is not this command's. -/
def State.onPkt (s : State) (p : Pkt) (type : Nat) (f : State → State) : State :=
  if p.type = type then (let r := s.takePkt p; if r.1 then f r.2 else r.2) else s

/-- The sub-types that travel unsealed with SESSION = 0 (R314). -/
def unsealedSub (sub : Nat) : Bool := sub == 1 || sub == 2 || sub == 3 || sub == 5

/-- A SETUP packet of session 0 is taken up: its length, version and sub-type are right. -/
def Pkt.setupOk (p : Pkt) : Bool :=
  p.type == 0x30 && p.session == 0 && p.prio == 5 && p.headerOk && unsealedSub (field p.payload 0 1)

/-- The session is one that this device as a role 4 peer awaits DONE on. -/
def State.awaitsDone (s : State) (p : Pkt) : Bool := p.type == 0x30 && (s.sec.peerSetups.any (·.1 == p.session)) && p.tagOk

/-- Factory access (R373): SESSION 0 on the management port, its tag ignored. -/
def State.factoryPkt (s : State) (p : Pkt) : Bool :=
  p.session == 0 && p.port == 8 && s.factoryOpen && s.hears p && p.headerOk

/-- A packet of the Sluice. -/
def Pkt.sluice (p : Pkt) : Bool := p.type == 0x10 && p.session == 0xFFFFFFFF

/-- IHLAK_INVALID_PACKET: a packet that R277 drops; SETUP packets of session 0 are R314's, Sluice packets R302's, and register requests of
factory access R373's. -/
def State.invalidPkt (s : State) (p : Pkt) : State :=
  if p.sluice ∨ !s.hears p then s
  else if (p.type = 1 ∨ p.type = 2) ∧ s.factoryPkt p then s
  else if p.type = 0x30 ∧ p.session = 0 then (if p.setupOk then s else s.dropPkt p .auth)
  else if s.awaitsDone p then s
  else if s.portDrops p.port then s.countPortDrop p.port
  else match s.pktFate p with
    | .accepted | .unheard => s
    | f => s.dropPkt p f

def execIhlakInvalid (p : Pkt) (s : State) : Host.Outcome State Fault Refusal := .next (s.invalidPkt p)

end Sys2Proof.Machine
end

