-- ==== Sys2Proof/Machine/Setups.lean ====
section
/-! DEFINITION. Ihlak session setup (R313 to R319), party keys and approvals (R332, R333, R336), and this device as role 4 peer. -/
namespace Sys2Proof.Machine
open Sys2Proof

/-! ### HELLO (R315 to R317) -/

def Pkt.sub (p : Pkt) : Nat := field p.payload 0 1
def Pkt.body (p : Pkt) : List Byte := p.payload.drop 4
/-- CODE and the reserved bytes of the sub-header are 0. -/
def Pkt.headOk (p : Pkt) : Bool := field p.payload 1 3 == 0

/-- HELLOs of roles 1 to 3 that the device has processed in the last second. -/
def State.helloCount (s : State) : Nat := (s.sec.hellos.filter fun t => decide (s.now < t + 1000000000)).length

/-- Setups between HELLO and FINISH. -/
def State.openSetups (s : State) : Nat := (s.sec.setups.filter fun e => e.2.phase != .finished).length

/-- The body of a HELLO is well-formed (Tables 12.4, 12.5). DEDUCED: PART is a partition for role 4, a partition or 0xFF for role 2. -/
def helloOk (b : List Byte) : Bool :=
  let role := field b 0 1
  let part := field b 2 1
  b.length == 72 && decide (1 ≤ role) && decide (role ≤ 4) && decide (field b 3 1 ≤ 9) && field b 4 4 == 0
  && (role == 1 || role == 4 || allZero (slice b 40 32))
  && (role != 2 || decide (part < 16) || part == 0xFF) && (role != 4 || decide (part < 16))

/-- The charter slot that holds a digest. -/
def State.charterOf (s : State) (d : List Byte) : Option Nat :=
  (List.range 16).find? fun c => (s.sec.charter c).state != .empty && (s.sec.charter c).digest == d

/-- The charter that a HELLO names fits its role (code 3). -/
def State.helloCharterOk (s : State) (b : List Byte) : Bool :=
  let d := slice b 40 32
  let p := field b 2 1
  match field b 0 1 with
  | 1 => s.lcState == 3 && (s.charterOf d).any fun c => decide (field b 1 1 < (s.sec.charter c).charter.parties.length)
  | 4 => if allZero d then (s.part p).stream.isSome && !s.chartered p else (s.boundCharter p).any fun c => (s.sec.charter c).digest == d
  | _ => true

/-- The secret slot that a role needs is valid (code 8): slot 1 for role 3, the FABRIC slot for role 4 of an operator partition. -/
def State.helloKeyOk (s : State) (b : List Byte) : Bool :=
  match field b 0 1 with
  | 3 => (s.keySlot 1).valid && !(s.keySlot 1).checkFail
  | 4 => !allZero (slice b 40 32) || (s.slotOf 16).any fun n => !(s.keySlot n).checkFail
  | _ => true

/-- 512 sessions exist, those whose DONE is awaited among them (R319). -/
def State.sessionsFull (s : State) : Bool := decide (512 ≤ s.sec.sessions.length + s.sec.peerSetups.length)

/-- The first failing check of a HELLO in the order of Table 12.6; 0 where all pass. -/
def State.helloCode (s : State) (p : Pkt) : Nat :=
  let b := p.body
  let role := field b 0 1
  let signed := decide (1 ≤ role) && decide (role ≤ 3)
  if !s.life.ready || s.sec.attGen || (signed && decide (4 ≤ s.helloCount)) || decide (8 ≤ s.openSetups) then 1
  else if !p.headOk || !helloOk b then 2
  else if !s.helloCharterOk b then 3
  else if s.sessionsFull then 5
  else if signed && (!s.signs || s.sec.bootCert.isEmpty) then 6
  else if !s.helloKeyOk b then 8
  else 0

/-- REFUSE on a port: fault 0x0801 (R317). -/
def State.refuseSetup (s : State) (k code : Nat) : State := (s.sendPlain k (.setup 5 code [])).raise (secFault 0x0801 3)

/-- The next SESSION value: none is used twice before reset (R319). -/
def State.nextSession (s : State) : Nat := s.sec.lastSession + 1

/-- HELLO: a setup starts, or is refused. -/
def State.hello (s : State) (p : Pkt) : State :=
  let code := s.helloCode p
  if code ≠ 0 then s.refuseSetup p.port code
  else
    let b := p.body
    let role := field b 0 1
    let d := slice b 40 32
    let c := (s.charterOf d).getD 0
    let part := match role with
      | 1 => (s.sec.charter c).part
      | 3 => 0xFF
      | _ => field b 2 1
    let e : Setup :=
      { role := role, party := field b 1 1, part := part, port := p.port, macsec := field b 3 1, charter := c
        charterDigest := if role = 1 ∨ role = 4 then d else [], nonce := slice b 8 32, hello := b, since := s.now }
    let n := s.nextSession
    s.modSec fun x =>
      { x.setSetup n e with
        lastSession := n
        hellos := (if role = 4 then [] else [s.now]) ++ x.hellos.filter fun t => decide (s.now < t + 1000000000) }

/-- A SETUP packet of session 0 and one sub-type, on a port that lets it in. -/
def State.onSetup (s : State) (p : Pkt) (sub : Nat) (f : State → State) : State :=
  if p.setupOk && s.netOpen && p.sub == sub then (if s.portDrops p.port then s.countPortDrop p.port else f s) else s

def execHello (p : Pkt) (s : State) : Answer := .next (s.onSetup p 1 fun s => s.hello p)

/-! ### ATTEST (R312, R313) -/

/-- The 240 bytes of a session statement before its signature (Table 12.3). -/
def State.statement (s : State) (n : Nat) (e : Setup) (devNonce ek : List Byte) (index : Nat) : List Byte :=
  let v := s.part e.part
  let dev := e.part == 0xFF
  let named := !allZero e.charterDigest
  let digest := if named then e.charterDigest else if dev then [] else v.charter
  leBytes 4 0x4E535331 ++ leBytes 2 1 ++ leBytes 1 e.part ++ leBytes 1 (if dev then 0 else v.state.code) ++ leBytes 4 index ++ leBytes 4 n
  ++ shake32 s.sec.bootCert ++ padTo 32 e.nonce ++ padTo 32 devNonce ++ shake32 ek
  ++ padTo 32 (if dev then [] else (v.stream.map (·.digest)).getD []) ++ padTo 32 digest
  ++ leBytes 1 (match s.charterOf digest with
      | some c => (match (s.sec.charter c).state with | .empty => 0 | .pending => 1 | .active => 2 | .bound => 3)
      | none => 0)
  ++ leBytes 1 (pack [(0, 1, flag (!dev && v.stream.isSome && !s.chartered e.part)), (1, 1, flag (e.macsec != 0))])
  ++ leBytes 14 0 ++ leBytes 8 s.now ++ leBytes 8 0

/-- The attestation key signs bytes with its next index, the index advanced first (R310); with the 65,536th signature a new key is
generated (R311). -/
def State.attSign (s : State) (d : Nat) (m : List Byte) : List Byte × State :=
  let i := s.sec.attIndex
  let sig := padTo 2692 (Config.xmssSign 16 d i m)
  let s := s.modSec fun x => { x with attIndex := i + 1 }
  (sig, if i + 1 = 65536 then s.startAttKey else s)

/-- The device sends ATTEST: a fresh encapsulation key, the identity key, the boot certificate and a session statement, signed but for
role 4. -/
def State.sendAttest (s : State) (n : Nat) : State :=
  let e := s.sec.setup n
  let k := s.draws
  let s := s.draw
  let nonce := s.drawn
  let s := s.draw
  let ek := padTo 1568 (Config.kemPublic k)
  let r : List Byte × State :=
    if e.role = 4 then (s.statement n e nonce ek 0xFFFFFFFF, s)
    else
      let m := s.statement n e nonce ek s.sec.attIndex
      let q := s.attSign (s.sec.attKey.getD 0) m
      (m ++ q.1, q.2)
  let body := ek ++ padTo 68 s.sec.identityPk ++ padTo 2980 s.sec.bootCert ++ r.1
  (r.2.modSec fun x => x.setSetup n { e with phase := .attested, attest := body, kemDraw := k, since := s.now }).sendPlain e.port (.setup 2 0 body)

def State.attestSetup (s : State) (n : Nat) : State :=
  let x := s.sec
  if (x.setups.any (·.1 == n)) && (x.setup n).phase == .hello && ((x.setup n).role == 4 || (x.attKey.isSome && !x.attGen)) then s.sendAttest n else s

def execAttest (setup : Nat) (s : State) : Answer := .next (s.attestSetup setup)

/-! ### FINISH (R317, R318) -/

/-- The transcript hash th. -/
def transcript (hello attest finish : List Byte) : List Byte := shake32 (ascii "NTH1" ++ hello ++ attest ++ finish)

/-- z of a role: the key of slot 1, the device key, or the FABRIC key; the slot used is verified. -/
def State.setupZ (s : State) (role part : Nat) (charter : List Byte) : Option (List Byte) × State :=
  match role with
  | 3 => s.useOnce 1 4
  | 4 =>
    if allZero charter then (match s.slotOf 16 with | some n => s.useOnce n 16 | none => (none, s))
    else ((s.boundCharter part).map s.deviceKey, s)
  | _ => (some [], s)

/-- AUTH verifies (Table 12.5): the party's signature, or an HMAC under z. -/
def State.authOk (s : State) (e : Setup) (z : Option (List Byte)) (th auth : List Byte) : Bool :=
  let m := ascii "NSA1" ++ th
  match e.role with
  | 1 => ((s.sec.charter e.charter).charter.parties[e.party]?).any fun y =>
      SigEntry.verifies { alg := y.alg, keyId := y.keyId, sig := auth } y.pk m
  | 2 => true
  | _ => match z with | some k => auth == hmacShake k m | none => false

/-- The session keys of R318, as 160 bytes. -/
def sessionOkm (ss th z : List Byte) : List Byte := shake 160 (ascii "NSK1" ++ ss ++ th ++ z)
def confirmOf (okm th : List Byte) : List Byte := shake32 (ascii "NSD1" ++ slice okm 128 32 ++ th)

/-- A MACsec CAK from a role 2 setup: its slot, and EN and CAK_SLOT of the named port whatever ETH_LOCK (R318, R356). -/
def State.installCak (s : State) (macsec slot : Nat) (cak th : List Byte) : State :=
  let s := s.installKey slot { valid := true, key := cak, perm := 8, owner := 1, life := 1 }
  s.modPort (macsec - 1) fun p =>
    { p with macsecEn := true, cakSlot := slot, setupCkn := th.take 16 }

/-- The charter slot that the HELLO of a role 1 setup named still holds its charter, aimed at the same partition. -/
def State.charterHeld (s : State) (e : Setup) : Bool :=
  let k := s.sec.charter e.charter
  k.state != .empty && k.digest == e.charterDigest && k.part == e.part

/-- The setup is over without a session: REFUSE. -/
def State.refuseFinish (s : State) (n code : Nat) : State := (s.modSec fun x => x.setSetup n {}).refuseSetup (s.sec.setup n).port code

/-- FINISH of setup `n`, in time: the checks in the order of Table 12.6, then the session. -/
def State.finishSetup (s : State) (n : Nat) (p : Pkt) : State :=
  let b := p.body
  let e := s.sec.setup n
  let authLen := field b 4 2
  let auth := b.drop 1576
  let th := transcript e.hello e.attest (b.take 1576)
  if !p.headOk ∨ b.length < 1576 ∨ auth.length ≠ authLen ∨ field b 6 2 ≠ 0 ∨ (e.role = 2 ∧ authLen ≠ 0) then s.refuseFinish n 2
  else if !s.helloCharterOk e.hello ∨ (e.role = 1 ∧ !s.charterHeld e) then s.refuseFinish n 3
  else
    let q := s.setupZ e.role e.part e.charterDigest
    let s := q.2
    if !s.authOk e q.1 th auth then s.refuseFinish n 4
    else if s.sessionsFull then s.refuseFinish n 5
    else
      let wants := e.role == 2 && e.macsec != 0
      match wants, s.freeSlot with
      | true, none => s.refuseFinish n 9
      | _, slot =>
        let okm := sessionOkm (Config.kemDecap e.kemDraw (slice b 8 1568)) th (q.1.getD [])
        let s := if wants then s.installCak e.macsec (slot.getD 2) (slice okm 64 32) th else s
        let c : Session :=
          { role := e.role, party := e.party, part := e.part, port := e.port, charter := e.charter, peerSession := field b 0 4
            keyOut := slice okm 0 32, keyIn := slice okm 32 32, kek := if e.role = 1 then slice okm 96 32 else [] }
        s.modSec fun x => (x.setSession n c).setSetup n { e with phase := .finished, confirm := confirmOf okm th }

/-- FINISH: of a setup that has been discarded, or later than 1 s after its ATTEST, REFUSE TIMEOUT (R316). -/
def State.finish (s : State) (n : Nat) (p : Pkt) : State :=
  let e := s.sec.setup n
  if !(s.sec.setups.any (·.1 == n)) then s.refuseSetup p.port 7
  else match e.phase with
    | .attested => if e.since + 1000000000 < s.now then s.refuseFinish n 7 else s.finishSetup n p
    | _ => s

def execFinish (setup : Nat) (p : Pkt) (s : State) : Answer := .next (s.onSetup p 3 fun s => s.finish setup p)

/-- DONE: the device confirms on the new session, and the setup is complete. -/
def State.sendDone (s : State) (n : Nat) : State :=
  let e := s.sec.setup n
  if e.phase = .finished then (s.modSec fun x => x.setSetup n {}).sendOn n (.setup 4 0 e.confirm) else s

def execDone (setup : Nat) (s : State) : Answer := .next (s.sendDone setup)

/-- SETUP_TIMEOUT: no FINISH within 1 s of ATTEST. -/
def execSetupTimeout (setup : Nat) (s : State) : Answer :=
  let e := s.sec.setup setup
  .next (if e.phase = .attested ∧ e.since + 1000000000 ≤ s.now then s.modSec fun x => x.setSetup setup {} else s)

/-! ### Party keys (R332, R333) -/

/-- ACK on a party's session. -/
def State.ack (s : State) (n code : Nat) (what : List Byte) : State := s.sendOn n (.setup 8 code what)

/-- The handle's slot, if it has one. -/
def State.handleSlot (s : State) (c h : Nat) : Option Nat :=
  (List.range 256).find? fun n => (s.keySlot n).valid && (s.keySlot n).owner == 2 && (s.keySlot n).charter == c && (s.keySlot n).handle == h

/-- S is formed once every party's share is there: the shares go, and the slot is ACTIVE (R333). -/
def CharterSlot.formSecret (k : CharterSlot) : CharterSlot :=
  let n := k.charter.parties.length
  if k.state = .pending ∧ k.sharesMask = 2 ^ n - 1 then
    let s := shake32 (ascii "NSS2" ++ k.digest ++ ((List.range n).map fun i => NatMap.get [] k.shares i).flatten)
    { k with state := .active, secret := some s, shares := [] }
  else k

/-- The checks of R332 in order; the key and the code. -/
def State.unwrap (s : State) (n : Session) (p : Pkt) : Nat × List Byte :=
  let b := p.body
  let k := s.sec.charter n.charter
  let purpose := field b 4 1
  let life := field b 5 1
  let uses := field b 8 4
  let entry : CharterKey := { handle := field b 0 4, party := n.party, purpose := purpose }
  if k.state = .empty then (3, [])
  else if !p.headOk ∨ b.length ≠ 64 ∨ field b 6 2 ≠ 0 ∨ field b 12 4 ≠ 0 ∨ !k.charter.keys.contains entry ∨ (life ≠ 1 ∧ life ≠ 2)
      ∨ (life = 2 ∧ uses = 0) ∨ (purpose = 3 ∧ (life ≠ 1 ∨ k.state ≠ .pending)) then (2, [])
  else
    let aad := ascii "NKW1" ++ k.digest ++ leBytes 1 n.party ++ slice b 0 6 ++ slice b 8 4
    match gcmOpen n.kek (leBytes 4 0 ++ leBytes 8 p.seq) aad (slice b 16 32) (slice b 48 16) with
    | none => (4, [])
    | some key =>
      if purpose ≠ 3 ∧ (s.handleSlot n.charter entry.handle).isNone ∧ s.freeSlot.isNone then (9, []) else (0, key)

/-- The key goes into its slot, or the share into the charter slot. -/
def State.takeKey (s : State) (n : Session) (b key : List Byte) : State :=
  let h := field b 0 4
  let purpose := field b 4 1
  let c := n.charter
  if purpose = 3 then
    s.modSec fun x =>
      let k := x.charter c
      x.setCharter c (CharterSlot.formSecret
        { k with sharesMask := k.sharesMask ||| 2 ^ n.party, shares := NatMap.set [] k.shares n.party key })
  else
    match (s.handleSlot c h).orElse fun _ => s.freeSlot with
    | none => s
    | some m =>
      s.installKey m { valid := true, key := key, handle := h, perm := if purpose = 1 then 0x20 else 0x40, charter := c, owner := 2
                       life := field b 5 1, uses := field b 8 4 }

/-- WRAPPED_KEY: unwrapped and acknowledged; a refusal raises 0x0804. -/
def State.wrappedKey (s : State) (p : Pkt) : State :=
  let n := s.sec.session p.session
  let r := s.unwrap n p
  let s := if r.1 = 0 then s.takeKey n p.body r.2 else s.raise (secFault 0x0804 3 n.part)
  s.ack p.session r.1 (slice p.body 0 4)

/-- A sealed SETUP message of a sub-type on a live session. -/
def State.onSealed (s : State) (p : Pkt) (sub : Nat) (f : State → State) : State :=
  if p.session ≠ 0 ∧ p.sub = sub ∧ !s.awaitsDone p then s.onPkt p 0x30 f else s

def execWrappedKey (p : Pkt) (s : State) : Answer := .next (s.onSealed p 6 fun s => s.wrappedKey p)

/-! ### APPROVE (R336) and CLOSE (R319) -/

/-- APPROVE of the slot's waiting request, from a party in its rule's APPROVERS. -/
def State.approve (s : State) (p : Pkt) : State :=
  let n := s.sec.session p.session
  let k := s.sec.charter n.charter
  let r := k.release
  let d := p.body
  let rule := k.charter.rules.getD r.rule { source := 0, k := 0, approvers := 0, recipients := 0, tensorLo := 0, tensorHi := 0 }
  let code :=
    if !p.headOk ∨ d.length ≠ 32 then 2
    else if r.state ≠ .waiting ∨ d ≠ r.digest then 11
    else if !bit rule.approvers n.party then 10
    else 0
  let s := if code = 0 then
      s.modSec fun x => x.setCharter n.charter { k with release := { r with approved := r.approved ||| 2 ^ n.party } }
    else s
  s.ack p.session code (slice d 0 4)

def execApprove (p : Pkt) (s : State) : Answer := .next (s.onSealed p 7 fun s => s.approve p)

def execClose (p : Pkt) (s : State) : Answer := .next (s.onSealed p 9 fun s => s.endSession p.session)

/-! ### This device as the role 4 peer (R315, R318) -/

/-- ATTEST answers the role 4 HELLO that this device sent: it encapsulates, and sends FINISH with its HMAC under z. DEDUCED: both
devices give the partition the same number. -/
def State.attestReceived (s : State) (hello : List Byte) (p : Pkt) : State :=
  let b := p.body
  let part := field hello 2 1
  let d := slice hello 40 32
  if !helloOk hello ∨ field hello 0 1 ≠ 4 ∨ !s.helloCharterOk hello ∨ !p.headOk ∨ b.length ≠ 4856 ∨ s.sessionsFull then s
  else
    let q := s.setupZ 4 part d
    match q.1 with
    | none => q.2
    | some z =>
      let s := q.2
      let kem := Config.kemEncap (slice b 0 1568) s.draws
      let s := s.draw
      let n := s.nextSession
      let head := leBytes 4 n ++ leBytes 2 32 ++ leBytes 2 0 ++ padTo 1568 kem.1
      let th := transcript hello b head
      let okm := sessionOkm kem.2 th z
      let e : PeerSetup :=
        { part := part, port := p.port, charter := ((s.boundCharter part).getD 0), remoteSession := field b (1568 + 68 + 2980 + 0xC) 4
          keyOut := slice okm 32 32, keyIn := slice okm 0 32, confirm := confirmOf okm th }
      (s.modSec fun x => { x with lastSession := n, peerSetups := NatMap.set {} x.peerSetups n e }).sendPlain p.port
        (.setup 3 0 (head ++ hmacShake z (ascii "NSA1" ++ th)))

def execAttestReceived (hello : List Byte) (p : Pkt) (s : State) : Answer := .next (s.onSetup p 2 fun s => s.attestReceived hello p)

/-- DONE with the right CONFIRM: the session is taken into use; with another the setup is dropped. -/
def State.doneReceived (s : State) (p : Pkt) : State :=
  let e := NatMap.get {} s.sec.peerSetups p.session
  if s.awaitsDone p && s.hears p && p.sub == 4 && p.sender == 0 && p.headerOk then
    if s.portDrops p.port then s.countPortDrop p.port
    else
      let s := s.modSec fun x => { x with peerSetups := NatMap.set {} x.peerSetups p.session {} }
      if p.headOk && p.body == e.confirm && p.part == e.part then
        let n : Session :=
          { role := 4, part := e.part, port := p.port, charter := e.charter, peerSession := e.remoteSession, peerSender := 0
            keyOut := e.keyOut, keyIn := e.keyIn }
        s.modSec fun x => x.setSession p.session (n.take p.seq)
      else s
  else s

def execDoneReceived (p : Pkt) (s : State) : Answer := .next (s.doneReceived p)

end Sys2Proof.Machine
end

