-- ==== Sys2Proof/Machine/CopyEngine.lean ====
section
/-! DEFINITION. The copy engine: COPY and UNSEAL (R296, R297, R334, R354, R355), and sealed releases (R336 to R339). -/
namespace Sys2Proof.Machine
open Sys2Proof

/-! ### COPY and UNSEAL start -/

/-- The job of a COPY or UNSEAL command whose checks have passed. -/
def copyJobOf (x q i : Nat) (b : List Byte) (kind : Nat) (so d : Obj) (key : List Byte) : CopyJob :=
  { ctx := x, queue := q, index := i, tag := field b 4 4, record := cmdWantsRecord b, kind := kind
    srcIdx := handleIndex (field b 8 4), srcOff := field b 0x10 5, dstIdx := handleIndex (field b 0xC 4), dstOff := field b 0x18 5
    len := field b 0x20 5, key := field b 0x28 1, keyBytes := key, srcObj := so, dstObj := d }

/-- R297 checks 3 and 4: both handles pass R214 for their ranges, and the tiers pair; UNSEAL takes HBM objects only (R355). -/
def State.copyChecks (s : State) (x : Nat) (b : List Byte) (hbmOnly : Bool) : Except Nat (Obj × Obj) :=
  let len := field b 0x20 5
  match s.checkObj x (field b 8 4) (field b 0x10 5) len .copyRead with
  | .error e => .error e
  | .ok so =>
    match s.checkObj x (field b 0xC 4) (field b 0x18 5) len .hbmWrite with
    | .error e => .error e
    | .ok d => if hbmOnly && so.tier != .hbm then .error 0x0503 else .ok (so, d)

/-- COPY: with LEN = 0 a no-op, else a job of the copy engine. -/
def State.cmdCopy (s : State) (x q : Nat) (b : List Byte) : State :=
  if field b 0x20 5 = 0 then s.finishCmd x q 0 0 0
  else match s.copyChecks x b false with
    | .error e => s.failCmd x q e
    | .ok (so, d) =>
      let i := (((s.ctx x).queue q).current.map (·.1)).getD 0
      { s with copyJobs := s.copyJobs ++ [copyJobOf x q i b 0 so d []] }

def execCmdCopy (ctx queue : Nat) (s : State) : Answer :=
  .next (s.startCmd ctx queue (· == 3) fun b s => s.cmdCopy ctx queue b)

/-- A sealed input of L plaintext bytes, after its header (R354). -/
def sealedLen (l : Nat) : Nat := l + 16 * ((l + 65535) / 65536)

/-- The header of a sealed input is the one the command may take (R355). -/
def sealedHeaderOk (h : List Byte) (handle : Nat) (charter : List Byte) (len : Nat) : Bool :=
  field h 0 4 == 0x4E554E53 && field h 4 2 == 1 && field h 6 2 == 0 && field h 0xC 4 == 0 && allZero (slice h 0x30 16)
  && field h 8 4 == handle && slice h 0x40 32 == charter && len == 96 + sealedLen (field h 0x10 8)

/-- R334: the KEY slot is VALID with PERM UNSEAL, passes its check, and is owned by the charter slot the partition is BOUND to. -/
def State.unsealKey (s : State) (x n : Nat) : Option (List Byte) × State :=
  let r := s.useKey n 0x20
  let k := r.2.keySlot n
  match (if x = 0 then none else r.2.boundCharter (s.ctx x).desc.part) with
  | some c => (if k.owner == 2 && k.charter == c then r.1 else none, r.2)
  | none => (none, r.2)

/-- The use of the slot ends and the command fails. -/
def State.failUnseal (s : State) (x q n code : Nat) (addr : Option Nat := none) : State := (s.failCmd x q code addr).endUse n

/-- UNSEAL: the checks of R297, R334 and R355 up to the header; then a job of the copy engine. -/
def State.cmdUnseal (s : State) (x q : Nat) (b : List Byte) : State :=
  let len := field b 0x20 5
  let n := field b 0x28 1
  if len = 0 then s.finishCmd x q 0 0 0
  else match s.copyChecks x b true with
    | .error e => s.failCmd x q e
    | .ok (so, d) =>
      let r := s.unsealKey x n
      match r.1 with
      | none => r.2.failCmd x q 0x0804
      | some key =>
        let s := r.2.countUse n
        let h := s.readObj x so (field b 0x10 5) (min len 96)
        let charter := ((s.boundCharter (s.ctx x).desc.part).map fun c => (s.sec.charter c).digest).getD []
        match h.2.1 with
        | some (code, a) => h.2.2.failUnseal x q n code (some a)
        | none =>
          let s := h.2.2
          if len < 96 ∨ !sealedHeaderOk h.1 (s.keySlot n).handle charter len then s.failUnseal x q n 0x080C
          else
            let i := (((s.ctx x).queue q).current.map (·.1)).getD 0
            { s with copyJobs := s.copyJobs ++ [{ copyJobOf x q i b 1 so d key with header := h.1 }] }

def execUnseal (ctx queue : Nat) (s : State) : Answer :=
  .next (s.startCmd ctx queue (· == 6) fun b s => s.cmdUnseal ctx queue b)

/-! ### COPY_ENGINE_COMPLETE -/

/-- The end of a COPY: its bytes move as through a separate buffer. -/
def State.copyDone (s : State) (j : CopyJob) : State :=
  let r := s.deliverObj j.ctx j.srcObj j.srcOff j.len
  let w := r.2.writeRunsObj j.ctx j.dstObj j.dstOff r.1.runs
  match r.1.fail.orElse fun _ => w.1 with
  | some (code, a) => w.2.failCmd j.ctx j.queue code (some a)
  | none => w.2.finishCmd j.ctx j.queue 0 0 0

/-- Unseal chunks `k` on while plaintext is left: each is verified before its plaintext is written. The answer is the fault of the
first that fails. `n` bounds them: plaintext left beyond it is a chunk that is not there. -/
def State.unsealChunks (s : State) (j : CopyJob) (key hdr : List Byte) : (n k left : Nat) → Option (Nat × Option Nat) × State
  | 0, _, left => (if left = 0 then none else some (0x080C, none), s)
  | n + 1, k, left =>
    if left = 0 then (none, s) else
      let l := min left 65536
      let r := s.readObj j.ctx j.srcObj (j.srcOff + 96 + 65552 * k) (l + 16)
      match r.2.1 with
      | some (code, a) => (some (code, some a), r.2.2)
      | none =>
        match gcmOpen key (leBytes 12 k) hdr (r.1.take l) (r.1.drop l) with
        | none => (some (0x080C, none), r.2.2)
        | some pt =>
          let w := r.2.2.writeObj j.ctx j.dstObj (j.dstOff + 96 + 65536 * k) pt
          match w.1 with
          | some (code, a) => (some (code, some a), w.2)
          | none => State.unsealChunks w.2 j key hdr n (k + 1) (left - l)

/-- The end of an UNSEAL, under the header that passed its checks: it is written only after the last chunk has verified (R355). -/
def State.unsealDone (s : State) (j : CopyJob) : State :=
  let key := shake32 (ascii "NUK1" ++ j.keyBytes ++ slice j.header 0x20 16)
  let r := s.unsealChunks j key j.header (j.len / 65552 + 2) 0 (field j.header 0x10 8)
  match r.1 with
  | some (code, a) => r.2.failUnseal j.ctx j.queue j.key code a
  | none =>
    let w := r.2.writeObj j.ctx j.dstObj j.dstOff j.header
    match w.1 with
    | some (code, a) => w.2.failUnseal j.ctx j.queue j.key code (some a)
    | none => (w.2.finishCmd j.ctx j.queue 0 0 0).endUse j.key

/-- COPY_ENGINE_COMPLETE: the oldest COPY or UNSEAL completes. -/
def State.copyEngineComplete (s : State) : State :=
  match s.copyJobs.find? (·.kind != 2) with
  | none => s
  | some j =>
    let s := { s with copyJobs := s.copyJobs.erase j }
    if j.kind = 0 then s.copyDone j else s.unsealDone j

def execCopyEngineComplete (s : State) : Answer := .next s.copyEngineComplete

/-! ### Sealed release: the request (R336) -/

/-- The charter slot's rule of an index. -/
def CharterSlot.rule (k : CharterSlot) (i : Nat) : CharterRule :=
  k.charter.rules.getD i { source := 0, k := 0, approvers := 0, recipients := 0, tensorLo := 0, tensorHi := 0 }

/-- The shards of a partition's loaded tables whose OBJ is a handle. -/
def State.shardsOf (s : State) (p h : Nat) : List Shard :=
  ((s.partDies p).map fun d => let q := s.quern p d; if q.loaded then q.shards.filter (·.obj == h) else []).flatten

/-- Bytes of a sealed output (R338). -/
def releaseLen (l : Nat) : Nat := 128 + sealedLen l

/-- The checks of R336. -/
def State.relRequestStatus (s : State) (k : CharterSlot) : Nat :=
  let x := k.relRegs
  let rule := bits x.src 48 5
  let party := bits x.src 44 4
  let cx := bits x.src 32 12
  let h := bits x.src 0 32
  let r := k.rule rule
  let shards := s.shardsOf k.part h
  if k.state ≠ .bound then 2
  else if k.charter.rules.length ≤ rule ∨ !bit r.recipients party then 0x10
  else if s.home k.part ≠ some cx ∨ (match s.current cx h with | some o => decide (x.off + x.len ≤ o.size) | none => false) = false then 3
  else if r.source = 1 ∧ (shards.isEmpty ∨ shards.any fun e => decide (e.tensor < r.tensorLo) || decide (r.tensorHi < e.tensor)) then 0x10
  else match s.checkObj 0 x.dst x.dstOff (releaseLen x.len) .hbmWrite with
    | .ok _ => 0
    | .error _ => 3

/-- REQ_DIGEST. -/
def reqDigest (charter : List Byte) (r : Release) : List Byte :=
  shake32 (ascii "NRQ1" ++ charter ++ leBytes 4 r.reqId ++ leBytes 1 r.rule ++ leBytes 1 r.recipient ++ leBytes 2 r.ctx ++ leBytes 4 r.handle
    ++ leBytes 8 r.off ++ leBytes 8 r.len ++ leBytes 8 r.step)

/-- REL_REQUEST: the request is WAITING with no approvals and replaces an earlier one; DEDUCED: one in progress stops first. -/
def State.relRequest (s : State) (c : Nat) : State :=
  let k := s.sec.charter c
  let st := if s.sec.busy then 1 else s.relRequestStatus k
  let s := s.secStatus st
  if st ≠ 0 then s
  else
    let s := s.stopRelease c
    let x := k.relRegs
    let r : Release :=
      { state := .waiting, reqId := s.sec.nextReq, rule := bits x.src 48 5, recipient := bits x.src 44 4, ctx := bits x.src 32 12
        handle := bits x.src 0 32, off := x.off, len := x.len, dst := x.dst, dstOff := x.dstOff
        step := (s.part k.part).gov.step.toNat }
    s.modSec fun x =>
      { x.setCharter c { k with release := { r with digest := reqDigest k.digest r } } with nextReq := (x.nextReq + 1) % 2 ^ 32 }

def execRelRequest (rq : Req) (s : State) : Answer := .next (s.onSec rq fun c s => s.relRequest c)

/-! ### The run (R337, R338) -/

/-- The recipient's output-key slot. -/
def State.outputSlot (s : State) (c : Nat) (k : CharterSlot) (party : Nat) : Option Nat :=
  match k.charter.keys.find? fun e => e.party == party && e.purpose == 2 with
  | none => none
  | some e => s.handleSlot c e.handle

/-- The partition's state lets a release of a source run. -/
def relStateOk (source : Nat) (st : PartState) : Bool := st == .armed || st == .braked || (source == 0 && st == .running)

/-- The last two checks of R337, and the start of the run. -/
def State.relStart (s : State) (c : Nat) (k : CharterSlot) (slot : Nat) (key : List Byte) : State :=
  let r := k.release
  let src := (k.rule r.rule).source
  if !relStateOk src (s.part k.part).state then s.secStatus 2
  else match s.checkObj r.ctx r.handle r.off r.len (.release (src == 1)), s.checkObj 0 r.dst r.dstOff (releaseLen r.len) .hbmWrite with
    | .ok so, .ok d =>
      let s := (s.secStatus 0).countUse slot
      if r.len = 0 then (s.modSec fun x => x.setCharter c { k with release := { r with state := .done } }).endUse slot
      else
        let j : CopyJob :=
          { ctx := r.ctx, kind := 2, srcIdx := handleIndex r.handle, srcOff := r.off, dstIdx := handleIndex r.dst, dstOff := r.dstOff
            len := r.len, key := c, keyBytes := key, queue := slot, srcObj := so, dstObj := d }
        { s.modSec fun x => x.setCharter c { k with release := { r with state := .running } } with copyJobs := s.copyJobs ++ [j] }
    | _, _ => s.secStatus 3

/-- REL_RUN. -/
def State.relRun (s : State) (c : Nat) : State :=
  let k := s.sec.charter c
  let r := k.release
  if s.sec.busy then s.secStatus 1
  else if r.state ≠ .waiting then s.secStatus 2
  else if (bitsOf 16 r.approved).length < (k.rule r.rule).k then s.secStatus 0x11
  else match s.outputSlot c k r.recipient with
    | none => s.secStatus 0x10
    | some slot =>
      let q := s.useKey slot 0x40
      match q.1 with
      | none => q.2.secStatus 0x10
      | some key => q.2.relStart c k slot key

def execRelRun (rq : Req) (s : State) : Answer := .next (s.onSec rq fun c s => s.relRun c)

/-- The sealed output's header (Table 12.10). -/
def State.releaseHeader (s : State) (r : Release) : List Byte :=
  leBytes 4 0x4E524C53 ++ leBytes 2 1 ++ leBytes 1 r.rule ++ leBytes 1 r.recipient ++ leBytes 4 r.reqId ++ leBytes 4 s.life.bootCount
  ++ leBytes 8 r.len ++ leBytes 8 r.step ++ padTo 32 r.digest ++ s.sec.deviceId ++ leBytes 32 0

/-- Seal chunks `k` on: the first failing line, and the state. `n` bounds them. -/
def State.sealChunks (s : State) (j : CopyJob) (key hdr : List Byte) : (n k left : Nat) → Option (Nat × Nat) × State
  | 0, _, _ => (none, s)
  | n + 1, k, left =>
    if left = 0 then (none, s) else
      let l := min left 65536
      let r := s.readObj j.ctx j.srcObj (j.srcOff + 65536 * k) l
      match r.2.1 with
      | some f => (some f, r.2.2)
      | none =>
        let q := gcmSeal key (leBytes 12 k) hdr r.1
        let w := r.2.2.writeObj 0 j.dstObj (j.dstOff + 128 + 65552 * k) (q.1 ++ q.2)
        match w.1 with
        | some f => (some f, w.2)
        | none => State.sealChunks w.2 j key hdr n (k + 1) (left - l)

/-- A line fails: the fault is recorded, and the release stops without a header (R339, R352). -/
def State.releaseFails (s : State) (c : Nat) (j : CopyJob) (f : Nat × Nat) : State :=
  (s.raise (s.ctxFault j.ctx f.1 0 (some f.2))).stopRelease c

/-- RELEASE_COMPLETE: every chunk is sealed and written, then the header; the request is DONE. -/
def State.releaseComplete (s : State) (c : Nat) : State :=
  match s.copyJobs.find? fun j => j.kind == 2 && j.key == c with
  | none => s
  | some j =>
    let k := s.sec.charter c
    let r := k.release
    let hdr := s.releaseHeader r
    let key := shake32 (ascii "NRK1" ++ j.keyBytes ++ s.sec.deviceId ++ leBytes 4 s.life.bootCount ++ leBytes 4 r.reqId)
    let q := s.sealChunks j key hdr (j.len / 65536 + 2) 0 j.len
    match q.1 with
    | some f => q.2.releaseFails c j f
    | none =>
      let w := q.2.writeObj 0 j.dstObj j.dstOff hdr
      match w.1 with
      | some f => w.2.releaseFails c j f
      | none =>
        let s := { w.2 with copyJobs := w.2.copyJobs.erase j }
        (s.modSec fun x => x.setCharter c { k with release := { r with state := .done } }).endUse j.queue

def execReleaseComplete (slot : Nat) (s : State) : Answer := .next (s.releaseComplete slot)

/-- REL_CANCEL (R339): a release in progress stops with 0x0805. DEDUCED: a waiting request is withdrawn. -/
def State.relCancel (s : State) (c : Nat) : State :=
  if s.sec.busy then s.secStatus 1
  else
    let s := (s.secStatus 0).stopRelease c
    if (s.sec.charter c).release.state = .waiting then
      s.modSec fun x => x.setCharter c { x.charter c with release := {} }
    else s

def execRelCancel (rq : Req) (s : State) : Answer := .next (s.onSec rq fun c s => s.relCancel c)

end Sys2Proof.Machine
end

