-- ==== Sys2Proof/Machine/Links.lean ====
section
/-! DEFINITION. The package links of the Millrace (R16, R17, R358): which dies they join, their keys and frames, and the way of a packet over
the links that are up. -/
namespace Sys2Proof.Machine
open Sys2Proof

/-- The number of a package link: ring, chord, I/O and control links in the order of MCE_LINK_STATUS. -/
def PkgLink.num : PkgLink → Nat
  | .ring d => d | .chord d => 8 + d | .io d => 16 + d | .ctrl d => 24 + d
/-- The compute die of a link; of a die-to-die link the one that gives it its number. -/
def PkgLink.die (l : PkgLink) : Nat := l.num % 8

/-- The dies that link `n` joins (Table 01.2): compute dies 0 to 7, I/O dies 8 and 9, the control die 10. -/
def linkEnds (n : Nat) : Nat × Nat :=
  let d := n % 8
  match n / 8 with
  | 0 => (d, (d + 1) % 8)
  | 1 => (d, (d + 3) % 8)
  | 2 => (d, 8 + d / 4)
  | _ => (d, 10)

/-- Link `n` is up, as MCE_LINK_STATUS shows it. -/
def Mce.linkUp (x : Mce) (n : Nat) : Bool :=
  let d := n % 8
  match n / 8 with
  | 0 => bit x.ring d
  | 1 => bit x.chord d
  | 2 => bit x.io d
  | _ => bit x.ctrl d

/-- The links in a set that leave die `a`, each with the die it leads to. -/
def linksFrom (up : Nat → Bool) (a : Nat) : List (Nat × Nat) :=
  (List.range 32).filterMap fun n =>
    let e := linkEnds n
    if !up n then none else if e.1 = a then some (n, e.2) else if e.2 = a then some (n, e.1) else none

/-- A way of exactly `n` links from die `a` to die `b`; only compute dies pass traffic on. -/
def routeIn (up : Nat → Bool) : (n a b : Nat) → Option (List Nat)
  | 0, a, b => if a = b then some [] else none
  | n + 1, a, b => (linksFrom up a).findSome? fun e => if e.2 = b ∨ e.2 < 8 then (routeIn up n e.2 b).map (e.1 :: ·) else none

/-- A shortest way. Two compute dies are at most three links apart over what remains of the ring and the chords (R358), and a link at each
end leads to or from another die. -/
def route (up : Nat → Bool) (a b : Nat) : Option (List Nat) := (List.range 6).findSome? fun n => routeIn up n a b

/-- The die of a packet's destination: a port's I/O die, and the management port's control die. -/
def MillDest.die : MillDest → Nat
  | .cluster c => c / 8
  | .granary i => i / 8
  | .hbmSet n => n / 8
  | .pond a => pondDie (a / 4096 % 16)
  | .port k => if k < 8 then 8 + k / 4 else 10
  | .control => 10

/-- The nonce of a frame: the link number, then the frame counter (R358). -/
def linkNonce (link counter : Nat) : List Byte := beBytes 4 link ++ beBytes 8 counter

/-- What a link carries of a frame: its ciphertext and tag under the link's key (R17). -/
def linkFrame (key : List Byte) (link counter : Nat) (frame : List Byte) : List Byte × List Byte := gcmSeal key (linkNonce link counter) [] frame

/-- A frame crosses each link of a way: the link's counter goes on, and never repeats (R358). -/
def Mce.crossed (x : Mce) (way : List Nat) : Mce :=
  { x with linkFrames := way.foldl (fun m l => NatMap.set 0 m l (NatMap.get 0 m l + 1)) x.linkFrames }

/-- A key for each link is drawn and installed, and the links are up (R17, Table 14.2). -/
def State.linksStart (s : State) : State :=
  { s with
    draws := s.draws + 32
    mce := { s.mce with
      ring := 0xFF, chord := 0xFF, io := 0xFF, ctrl := 0xFF
      linkKeys := (List.range 32).map fun l => (l, padTo 32 (Config.trng (s.draws + l))) } }

end Sys2Proof.Machine
end

