-- ==== Sys2Proof/Machine/Roce.lean ====
section
/-! DEFINITION. RoCEv2 (R283 to R286) and the queue pairs' commands (R306). NAK values and the details of ordering are those of the
InfiniBand specification that R283 names (PRESUMED). -/
namespace Sys2Proof.Machine
open Sys2Proof

/-- NAK codes: PSN sequence error, invalid request, remote access error. -/
def nakSequence : Nat := 0x60
def nakInvalid : Nat := 0x61
def nakAccess : Nat := 0x62

/-- A responder takes a request packet of a queue pair in RTS on its port and on priority 3 (R279): a marked one is answered with a CNP
(R283). It runs in sequence order; `again` takes a repeated one, and one from ahead is answered with a sequence error. After a tamper event
none is taken (R360). -/
def State.onRequest (s : State) (r : RoceReq) (f : Qp → State → State) (again : Qp → State → State) : State :=
  let q := s.qp r.qp
  if s.portDrops r.port then s.countPortDrop r.port
  else if !s.netOpen ∨ r.prio ≠ 3 ∨ q.state ≠ .rts ∨ q.onPort ≠ r.port then s
  else if s.roceBlocked r.qp then s.countUnprotected r.port
  else
    let s := if r.ecn then s.sendRoce r.qp (.cnp r.qp) else s
    if r.psn = q.expPsn then f q s
    else if (q.expPsn + 2 ^ 24 - r.psn) % 2 ^ 24 < 2 ^ 23 then again q s
    else s.sendRoce r.qp (.roceAck r.qp q.expPsn nakSequence)

/-- A packet other than a WRITE or a READ comes in for a queue pair in RTS, on its port. -/
def State.onRoce (s : State) (n : Nat) (f : State → State) : State :=
  let k := (s.qp n).onPort
  if (s.qp n).state ≠ .rts then s
  else if s.portDrops k then s.countPortDrop k
  else if !s.netOpen then s
  else if s.roceBlocked n then s.countUnprotected k
  else f s

/-- A request fails its checks (R285, R352): NAK Remote Access Error, the queue pair in ERROR, and the fault. -/
def State.rdmaFails (s : State) (n psn code : Nat) (addr : Option Nat := none) : State :=
  let q := s.qp n
  let s := (s.sendRoce n (.roceAck n psn nakAccess)).raise
    { code := code, loc := locEth (s.ctxPart q.onCtx) q.onPort, severity := 0, ctx := q.onCtx, addr := addr }
  s.qpFails n

/-- Store one packet's bytes. Those of a WRITE of the queue object are stored with its last packet, so that a scan sees the write then
and not before (R286). -/
def State.storeWrite (s : State) (n : Nat) (h : Nat) (o : Obj) (off : Nat) (r : RoceReq) : Option (Nat × Nat) × State :=
  let q := s.qp n
  if r.data.length = 0 ∧ r.first then (none, s)
  else if handleIndex h ≠ 1 then s.writeObj q.onCtx o off r.data
  else
    let held := if r.first then r.data else q.held ++ r.data
    if r.last then (s.setQp n { q with held := [] }).writeObj q.onCtx o (off + r.data.length - held.length) held
    else (none, s.setQp n { q with held := held })

/-- Place one packet's bytes of a WRITE that has passed its checks (R286). -/
def State.placeWrite (s : State) (n : Nat) (h : Nat) (o : Obj) (off left : Nat) (r : RoceReq) : State :=
  let len := min 4096 left
  if r.data.length ≠ len ∨ r.last ≠ decide (left ≤ 4096) then s.sendRoce n (.roceAck n r.psn nakInvalid)
  else
    let w := s.storeWrite n h o off r
    match w.1 with
    | some (c, a) => w.2.rdmaFails n r.psn c (some a)
    | none =>
      let s := w.2.modQp n fun q =>
        { q with expPsn := (q.expPsn + 1) % 2 ^ 24, write := if r.last then none else some (h, o, off + len, left - len) }
      if r.last then s.sendRoce n (.roceAck n r.psn 0) else s

/-- RDMA_WRITE (R283 to R286). The whole range is checked before its first byte moves (R214); a repeated packet is acknowledged again. -/
def State.rdmaWrite (s : State) (r : RoceReq) : State :=
  s.onRequest r (again := fun _ s => s.sendRoce r.qp (.roceAck r.qp r.psn 0)) fun q s =>
    if r.first then
      if 2 ^ 31 < r.len then s.sendRoce r.qp (.roceAck r.qp r.psn nakInvalid)
      else if r.len = 0 then s.placeWrite r.qp r.rkey {} r.va 0 r
      else match s.checkObj q.onCtx r.rkey r.va r.len .hbmWrite with
        | .error _ => s.rdmaFails r.qp r.psn 0x0704
        | .ok o => s.placeWrite r.qp r.rkey o r.va r.len r
    else match q.write with
      | none => s.sendRoce r.qp (.roceAck r.qp r.psn nakInvalid)
      | some (h, o, off, left) => s.placeWrite r.qp h o off left r

def execRdmaWrite (r : RoceReq) (s : State) : Answer := .next (s.rdmaWrite r)

/-- A READ is answered with its data; `fresh`, the expected sequence number moves past its packets. -/
def State.answerRead (s : State) (r : RoceReq) (fresh : Bool) (bs : List Byte) : State :=
  (if fresh then s.modQp r.qp fun q => { q with expPsn := (q.expPsn + max 1 ((r.len + 4095) / 4096)) % 2 ^ 24 } else s).sendRoce r.qp
    (.roceData r.qp r.psn bs)

/-- A READ of an HBM object or a SEALED Pond object, of no partition with CHARTER_BIND (R285). -/
def State.serveRead (s : State) (r : RoceReq) (fresh : Bool) (q : Qp) : State :=
  if 2 ^ 31 < r.len then s.sendRoce r.qp (.roceAck r.qp r.psn nakInvalid)
  else if q.onCtx ≠ 0 ∧ s.chartered (s.ctx q.onCtx).desc.part then s.rdmaFails r.qp r.psn 0x0704
  else if r.len = 0 then s.answerRead r fresh []
  else match s.checkObj q.onCtx r.rkey r.va r.len .rdmaRead with
    | .error _ => s.rdmaFails r.qp r.psn 0x0704
    | .ok o =>
      let d := s.readObj q.onCtx o r.va r.len
      match d.2.1 with
      | some (c, a) => d.2.2.rdmaFails r.qp r.psn c (some a)
      | none => d.2.2.answerRead r fresh d.1

/-- RDMA_READ (R283, R285). Each READ is answered by the command that takes it, so none is left outstanding; a repeated one is answered
again. -/
def State.rdmaRead (s : State) (r : RoceReq) : State :=
  s.onRequest r (again := fun q s => s.serveRead r false q) fun q s => s.serveRead r true q

def execRdmaRead (r : RoceReq) (s : State) : Answer := .next (s.rdmaRead r)

/-- ROCE_UNSUPPORTED (R284): NAK Invalid Request. -/
def execRoceUnsupported (qp psn : Nat) (s : State) : Answer :=
  .next (s.onRoce qp fun s => s.sendRoce qp (.roceAck qp psn nakInvalid))

/-- Every unacknowledged WRITE of the queue pair goes again. -/
def State.resend (s : State) (n : Nat) : State :=
  (s.qp n).unacked.foldl (fun s e => s.sendRoce n (.recordWrite n e.2.1 e.2.2.1 e.2.2.2)) s

/-- The WRITEs before `psn` have been acknowledged. -/
def Qp.ackedBefore (q : Qp) (psn : Nat) : Qp :=
  { q with unacked := q.unacked.filter fun e => (e.1 + 2 ^ 24 - psn) % 2 ^ 24 < 2 ^ 23, retries := 0 }

/-- ROCE_ACK: an ACK (`nak` 0) acknowledges every packet up to `psn`; a sequence error (1) asks for those from `psn` on again; any other
NAK puts the queue pair in ERROR. -/
def State.roceAck (s : State) (n psn nak : Nat) : State :=
  s.onRoce n fun s => match nak with
    | 0 => s.modQp n (·.ackedBefore ((psn + 1) % 2 ^ 24))
    | 1 => (s.modQp n (·.ackedBefore psn)).resend n
    | _ => s.qpFails n

def execRoceAck (qp psn nak : Nat) (s : State) : Answer := .next (s.roceAck qp psn nak)

/-- ROCE_CNP: the rate is halved (R283). -/
def execRoceCnp (qp : Nat) (s : State) : Answer :=
  .next (s.onRoce qp fun s => s.modQp qp fun q => { q with rate := q.rate / 2, lastCnp := s.now })

/-- ROCE_RATE_RECOVER: 1/8 of line rate for every 55 µs without a CNP (R283). -/
def State.rateRecover (s : State) (n : Nat) : State :=
  let q := s.qp n
  if q.state = .rts ∧ q.rate < 1 ∧ q.lastCnp + 55000 ≤ s.now then
    s.setQp n { q with rate := min 1 (q.rate + 1 / 8), lastCnp := s.now }
  else s

def execRoceRateRecover (qp : Nat) (s : State) : Answer := .next (s.rateRecover qp)

/-- ROCE_RETRANSMIT: a timeout sends what is unacknowledged again; the eighth in a row puts the queue pair in ERROR. PRESUMED: a retry
count of 7. -/
def State.roceTimeout (s : State) (n : Nat) : State :=
  let q := s.qp n
  if q.state ≠ .rts ∨ q.unacked.isEmpty then s
  else if 7 ≤ q.retries then s.qpFails n
  else (s.setQp n { q with retries := q.retries + 1 }).resend n

def execRoceRetransmit (qp : Nat) (s : State) : Answer := .next (s.roceTimeout qp)

/-! ### ETH_QP_CMD (R306) -/

def State.ethStatus (s : State) (st : Nat) : State := s.modEth fun e => { e with cmdStatus := st }

/-- Queue pairs that count against a partition's QP_QUOTA. -/
def State.qpsOf (s : State) (p : Nat) : Nat :=
  (s.qps.filter fun e => e.2.state != .reset && e.2.onCtx != 0 && e.2.onPart == p).length

/-- CTX is a context of PART, or an UNDEFINED one; a queue pair of context 0 serves no partition. -/
def State.qpCtxOk (s : State) (q : Qp) : Bool :=
  let c := s.ctx q.ctx
  if q.ctx = 0 then decide (q.port < 8)
  else (c.state == .undefined || c.desc.part == q.part) && decide (q.port < 8) && bit (s.part q.part).map.ports q.port

/-- CONNECT latches its fields (R432). -/
def Qp.connect (q : Qp) : Qp :=
  { q with state := .rts, onPart := q.part, onCtx := q.ctx, onPort := q.port, expPsn := q.rqPsn, nextPsn := q.sqPsn, write := none, held := []
           unacked := [], retries := 0, rate := 1, lastCnp := 0 }

def State.connect (s : State) (n : Nat) : State :=
  let q := s.qp n
  if q.state ≠ .reset then s.ethStatus 2
  else if !s.qpCtxOk q then s.ethStatus 8
  else if q.ctx ≠ 0 ∧ (s.part q.part).map.qpQuota ≤ s.qpsOf q.part then s.ethStatus 9
  else
    let s := (s.setQp n q.connect).ethStatus 0
    { s with ctxs := NatMap.mapVals {} (fun _ c => if c.desc.eventQp = n then { c with qpError := false } else c) s.ctxs }

def execConnect (rq : Req) (s : State) : Answer :=
  .next (if s.mayP rq 0xA0070 then s.connect ((s.sel rq).qp % 8192) else s)

/-- A queue pair back in RESET keeps its configured fields. -/
def Qp.toReset (q : Qp) : Qp :=
  { q with state := .reset, onPart := 0, onCtx := 0, onPort := 0, expPsn := 0, nextPsn := 0, write := none, held := [], unacked := []
           retries := 0, rate := 1, lastCnp := 0 }

def execQpReset (rq : Req) (s : State) : Answer :=
  .next (if s.mayP rq 0xA0070 then (s.modQp ((s.sel rq).qp % 8192) Qp.toReset).ethStatus 0 else s)

/-- Rebinding zeroes every queue pair of a partition, its configured fields too (Table 01.11). -/
def State.resetPartQps (s : State) (p : Nat) : State :=
  { s with qps := NatMap.mapVals {} (fun _ q => if q.state != .reset && q.onCtx != 0 && q.onPart == p then {} else q) s.qps }

end Sys2Proof.Machine
end

