-- ==== Sys2Proof/Machine/Selftest.lean ====
section
/-! DEFINITION. Reliability and self-test (chapter 15): test slots and retests (R392 to R397), arbitration (R385 to R387) and the
patrol (R391). -/
namespace Sys2Proof.Machine
open Sys2Proof

/-! ### Scrubbing a tile -/

/-- Table 01.11 for a tile: registers, weight buffers, groups, scratch, statistics and SR context are all bits 0. DEDUCED: the checker
state scrubbed is the checkers' residues; a retired checker stays retired until reset (R385). -/
def Tile.scrub (x : Tile) : Tile :=
  { x with
    regs := [], scratch := [], stats := [], owed := [], sr := {}, freeing := false
    arrA := { checkerRetired := x.arrA.checkerRetired }
    arrB := { checkerRetired := x.arrB.checkerRetired } }

/-! ### Test slots -/

/-- IDLE with an empty queue (R392). -/
def Tile.idle (x : Tile) : Bool :=
  x.queue.isEmpty && x.flight.isEmpty && !x.halted && !x.quarantined && !x.scrubbing && x.test.isNone

/-- The next idle tile of the partition in the rotation, and the tile after it. -/
def State.nextTestTile (s : State) (p : Nat) : Option (Nat × Nat) :=
  let ts := s.partTiles p
  let n := NatMap.get 0 s.testNext p
  match (ts.filter (n ≤ ·) ++ ts.filter (· < n)).find? fun t => (s.tile t).idle with
  | none => none
  | some t => some (t, ((ts.find? (t < ·)).orElse fun _ => ts.head?).getD t)

/-- TEST_SLOT (R392, R393): the next idle tile is TESTING and scrubbed; with none, fault 0x0A0C and the entry completes. -/
def State.testSlot (s : State) (p i : Nat) (e : TtEntry) : State :=
  let k := (s.part p).gov.key i
  match s.nextTestTile p with
  | none => (s.completeRun p k).raise { code := 0x0A0C, loc := locGov p }
  | some (t, n) =>
    let s := { s with testNext := NatMap.set 0 s.testNext p n }
    s.modTile t fun x => { x.scrub with test := some { mode := bits e.arg 0 2, start := s.now, entry := k } }

def execTestSlot (part entry : Nat) (s : State) : Answer :=
  .next (s.startEntry part entry 6 fun e s => s.testSlot part entry e)

/-- What the logic and memory slices of a test found: no logic failure; the repair reports with whether each failure is repaired. -/
structure SliceResult where
  logicOk : Bool := true
  repairs : List (Bool × List Byte) := []
  deriving DecidableEq, Repr

def SliceResult.memoryOk (r : SliceResult) : Bool := r.repairs.all (·.1)
def SliceResult.ok (r : SliceResult) : Bool := r.logicOk && r.memoryOk

/-- Where a failing cell of memory BIST lies, for a test of tile `t`: its cluster's SRAM and its die's Granary in a RETEST (R397). -/
def CellFail.site (c : CellFail) (t : Nat) : MemSite :=
  if c.memory = 6 then { memory := 6, owner := tileCluster t, bank := siteBank 6 c.addr, addr := c.addr }
  else if c.memory = 7 then
    { memory := 7, owner := 8 * (t / 64) + c.addr / 100663296, bank := siteBank 7 (c.addr % 100663296), addr := c.addr % 100663296 }
  else { tile := t, memory := c.memory, owner := t, bank := siteBank c.memory c.addr, addr := c.addr }

/-- Two failing cells lie in one row, or in one column, of one instance. -/
def CellFail.sameLine (a b : CellFail) (t : Nat) : Bool :=
  (a.site t).key a.column == (b.site t).key b.column && a.column == b.column
  && (if a.column then a.bit == b.bit else a.addr == b.addr)

/-- The failing cells, one for each row or column. -/
def failLines (t : Nat) : List CellFail → List CellFail
  | [] => []
  | c :: l => c :: (failLines t l).filter fun d => !c.sameLine d t

/-- Memory BIST maps each failing row or column to a spare and writes a repair report (R395). DESIGN CHOICE: the spares test good. -/
def State.repairAll (s : State) (t : Nat) (l : List CellFail) : State × List (Bool × List Byte) :=
  (failLines t l).foldl (fun a c =>
    let r := a.1.repair (c.site t) c.column c.bit 0
    (r.2.2, a.2 ++ [(r.1, r.2.1)])) (s, [])

/-- The faults of a test (R395): 0x0A09 with slice and signatures; 0x0A0B where a memory failure remains, else 0x0A0A, one for each
report, those not repaired first. -/
def State.raiseTest (s : State) (t slice : Nat) (b : BistResult) (r : SliceResult) : State :=
  let loc := s.locTile t 0
  let s := if r.logicOk then s
    else s.raise { code := 0x0A09, loc := loc, severity := 1
                   detail := leBytes 1 slice ++ leBytes 7 0 ++ leBytes 8 b.misr.toNat ++ leBytes 8 b.golden.toNat }
  let code := if r.memoryOk then 0x0A0A else 0x0A0B
  (r.repairs.filter (!·.1) ++ r.repairs.filter (·.1)).foldl (fun s e =>
    s.raise { code := code, loc := loc, severity := if r.memoryOk then 2 else 1, detail := e.2 }) s

/-- The fault a test ends with; 0 for a pass. -/
def SliceResult.fault (r : SliceResult) : Nat :=
  if !r.logicOk then 0x0A09 else if !r.memoryOk then 0x0A0B else if r.repairs.isEmpty then 0 else 0x0A0A

/-- The tile after a test (R393, R395): scrubbed, and returned or quarantined; what waits in its queue then runs, or is dropped. -/
def Tile.tested (x : Tile) (r : SliceResult) (logic memory : Bool) : Tile :=
  let x := { x.scrub with test := none, coverMem := x.coverMem || (memory && r.memoryOk) }
  let x := if r.ok then x
    else { x with quarantined := true, quarCause := if r.logicOk then .memoryBist else .logicBist,
                  queue := [], dropped := min (x.dropped + x.queue.length) 0xFFFF }
  if logic then
    { x with nextSlice := (x.nextSlice + 1) % 32, coverLogic := if r.logicOk then x.coverLogic ||| 2 ^ x.nextSlice else x.coverLogic }
  else x

/-- TEST_SLOT_COMPLETE (R393 to R395): the slice has ended; the tile is scrubbed and returned or quarantined, the entry completes. -/
def State.testSlotComplete (s : State) (t : Nat) (b : BistResult) : State :=
  let x := s.tile t
  match x.test with
  | none => s
  | some y =>
    if y.mode = 3 then s
    else
      let logic := y.mode != 1
      let memory := y.mode != 0
      let m := if memory then s.repairAll t b.fails else (s, [])
      let r : SliceResult := { logicOk := !logic || b.misr == b.golden, repairs := m.2 }
      let s := m.1.setTile t (x.tested r logic memory)
      let s := s.raiseTest t x.nextSlice b r
      match s.tilePart t with
      | none => s
      | some p =>
        let result : TestResult :=
          { fault := r.fault, tile := t, slice := x.nextSlice, mode := y.mode, ns := min (s.now - y.start) 0xFFFFFFFF }
        let s := { s with testResults := NatMap.set {} s.testResults p result }
        if ((s.part p).gov.run y.entry).status = .running then s.completeRun p y.entry else s

def execTestSlotComplete (tile : Nat) (r : BistResult) (s : State) : Answer := .next (s.testSlotComplete tile r)

/-! ### RETEST (R397) -/

def State.testStatus (s : State) (st : Nat) : State := s.modRas fun r => { r with testStatus := st }

/-- TEST_CMD RETEST on the selected tile: refused unless its cluster belongs to no partition. -/
def State.startRetest (s : State) (t : Nat) : State :=
  if s.ras.retest.isSome then s.testStatus 1
  else if (s.tilePart t).isSome then s.testStatus 2
  else
    (s.modRas fun r => { r with testStatus := 0, retest := some t }).modTile t fun x =>
      { x.scrub with test := some { mode := 3, start := s.now } }

def execRetest (rq : Req) (s : State) : Answer :=
  .next (if s.mayP rq 0xF0010 && decide ((s.sel rq).tile < 512) then s.startRetest (s.sel rq).tile else s)

/-- March C− leaves every cell of the cluster's SRAM and of the die's unheld Granary slices at 0. -/
def State.marched (s : State) (t : Nat) : State :=
  let s := s.modCluster (tileCluster t) fun c => { c with sram := [] }
  let free := (List.range 8).map (8 * (t / 64) + ·) |>.filter fun sl => (s.slicePart sl).isNone
  { s with granary := s.granary.filter fun e => !free.contains (e.1 / 100663296) }

/-- RETEST_COMPLETE: a pass returns a QUARANTINED tile to IDLE; a failure keeps it quarantined and raises the fault of R395. -/
def State.retestComplete (s : State) (b : BistResult) : State :=
  match s.ras.retest with
  | none => s
  | some t =>
    let x := s.tile t
    let m := (s.marched t).repairAll t b.fails
    let r : SliceResult := { logicOk := b.misr == b.golden, repairs := m.2 }
    let s := m.1.modRas fun y => { y with retest := none, testStatus := if r.ok then 0 else 0x15 }
    let y := x.tested r false true
    let s := s.setTile t { y with
      quarantined := !r.ok, halted := !r.ok && y.halted
      quarCause := if r.ok then .none else y.quarCause,
      coverLogic := if r.logicOk then 0xFFFFFFFF else y.coverLogic }
    s.raiseTest t x.nextSlice b r

def execRetestComplete (r : BistResult) (s : State) : Answer := .next (s.retestComplete r)

/-! ### Arbitration (R385 to R387) -/

/-- ARBITRATION_START (R386): the spare tile is free and takes the oldest arbitration. -/
def State.arbitrationStart (s : State) (d : Nat) : State :=
  let sp := s.ras.spare d
  match sp.running, sp.queue with
  | none, a :: q => s.modRas fun r => r.setSpare d { sp with running := some a, queue := q }
  | _, _ => s

def execArbitrationStart (die : Nat) (s : State) : Answer := .next (s.arbitrationStart die)

/-- The checker was wrong (Table 15.2): the tile returns to its former state, the array's checker is retired, streaming resumes. -/
def State.checkerWrong (s : State) (a : Arbitration) (xs x3 : Int) : State :=
  let s := s.modTile a.tile fun x =>
    let x := if a.arrB then { x with arrB := { x.arrB with checkerRetired := true } } else { x with arrA := { x.arrA with checkerRetired := true } }
    { x with quarantined := false, arbitrating := false
             flight := x.flight.map fun f => if f.heldMma a.arrB then { f with phase := .running } else f }
  s.raise { code := 0x0A01, loc := s.locTile a.tile (if a.arrB then 2 else 1), severity := 2, detail := arbDetail a.xo xs x3 }

/-- ARBITRATION_DECISION (Table 15.2). `xs` is the result of the spare's array A, `x3` that of its array B where a vote is taken. DESIGN
CHOICE: with array A disabled, `xs` is array B's and a vote is not possible, so the three differ. -/
def State.arbitrationDecision (s : State) (d : Nat) (xs x3 : Int) : State :=
  let sp := s.ras.spare d
  match sp.running with
  | none => s
  | some a =>
    let s := s.modRas fun r => r.setSpare d { sp with running := none }
    if xs = a.xo then s.checkerWrong a xs 0
    else if residuesAgree a.rhoE xs then s.arrayWrong a 0x0A02 .array xs 0
    else if sp.aFailed then s.arrayWrong a 0x0A03 .noVote xs 0
    else if x3 = a.xo then
      let s := s.checkerWrong a xs x3
      let s := s.modRas fun r => r.setSpare d { r.spare d with aFailed := true }
      s.raise { code := 0x0A10, loc := { die := d, unit := 16 } }
    else if x3 = xs then s.arrayWrong a 0x0A02 .array xs x3
    else s.arrayWrong a 0x0A03 .noVote xs x3

def execArbitrationDecision (die : Nat) (xs x3 : Int) (s : State) : Answer := .next (s.arbitrationDecision die xs x3)

/-! ### The patrol (R391) -/

/-- The words that the patrol reads. -/
def MemWord.patrolled : MemWord → Bool
  | .scratch _ _ | .sram _ _ | .granary _ _ | .hbm _ | .pond _ => true
  | _ => false

/-- An error of two symbols, which CODE detects and cannot correct (R345). -/
def twoSymbols : Nat := 0x11

/-- The error that an HBM or Pond line holds; any other word is as it was. -/
def State.lineError (s : State) (w : MemWord) (e : Nat) : State :=
  match w with
  | .hbm l => { s with hbm := { s.hbm with lines := NatMap.modify {} s.hbm.lines l fun m => { m with error := e } } }
  | .pond l => { s with pond := { s.pond with lines := NatMap.modify {} s.pond.lines l fun m => { m with error := e } } }
  | _ => s

/-- PATROL_READ (R391): a corrected word is corrected in place and counted, and its row mapped to a spare where it is corrected again; an uncorrectable one is
counted and left for the reader that next meets it. -/
def State.patrolRead (s : State) (w : MemWord) : WordCheck → State
  | .ok => s
  | .corrected b => (s.lineError w 0).correctedWord w b
  | .uncorrectable => match w.cls with | some c => s.countUncorr c | none => s.lineError w twoSymbols

def execPatrolRead (w : MemWord) (found : WordCheck) (s : State) : Answer :=
  .next (if s.ras.patrolEn && w.patrolled then s.patrolRead w found else s)

end Sys2Proof.Machine
end

