-- ==== Sys2Proof/Machine/Streams.lean ====
section
/-! DEFINITION. Wright streams (R24 to R27): reading a stream from its container, and the staging checks on its sections. -/
namespace Sys2Proof.Machine
open Sys2Proof

/-! ### The body (R25, R26) -/

/-- A section-table entry with its bytes. -/
structure RawSection where
  type : Nat
  part : Nat
  reserved : Nat
  off : Nat
  len : Nat
  deriving DecidableEq, Repr

def rawSectionOf (b : List Byte) : RawSection :=
  { type := field b 0 2, part := field b 2 1, reserved := field b 3 5, off := field b 8 8, len := field b 16 8 }

def rawSections (body : List Byte) : List RawSection := (records 24 (min (field body 4 4) 1024) (body.drop 32)).map rawSectionOf

/-- Index of the first element that fails a test. -/
def firstFail (ok : Nat → α → Bool) (l : List α) : Option Nat := (l.zipIdx.find? fun e => !ok e.2 e.1).map (·.2)

/-- An entry of the section table: a known type, its PART, and a range inside the body. DESIGN CHOICE (log entry 161): its reserved bytes
must be 0. -/
def RawSection.ok (r : RawSection) (target bodyLen : Nat) : Bool :=
  decide (1 ≤ r.type) && decide (r.type ≤ 12) && r.reserved == 0 && decide (r.off + r.len ≤ bodyLen)
  && (if r.type = 12 then r.part == 0xFF && target == 0xFF else decide (r.part < 16) && (target == 0xFF || r.part == target))

/-- An earlier section overlaps section `i`. -/
def RawSection.clear (l : List RawSection) (i : Nat) (r : RawSection) : Bool :=
  (l.take i).all fun q => q.len == 0 || r.len == 0 || decide (q.off + q.len ≤ r.off) || decide (r.off + r.len ≤ q.off)

/-- The counts of Table 01.8: type, least, most. -/
def sectionCounts : List (Nat × Nat × Nat) :=
  [(1, 1, 1), (2, 1, 1), (3, 1, 1), (4, 0, 1), (5, 1, 1), (6, 0, 1), (7, 1, 1), (8, 1, 64), (9, 1, 1), (10, 0, 1), (11, 1, 1)]

/-- The partitions that a stream configures. -/
def Stream.parts (s : Stream) : List Nat :=
  if s.target = 0xFF then (List.range 16).filter fun p => s.sections.any fun e => e.type != 12 && e.part == p else [s.target]

def Stream.count (s : Stream) (p t : Nat) : Nat := (s.sections.filter fun e => e.part == p && e.type == t).length

/-- Every configured partition has the sections Table 01.8 requires of it. -/
def Stream.countsOk (s : Stream) : Bool :=
  s.parts.all (fun p => sectionCounts.all fun c => decide (c.2.1 ≤ s.count p c.1) && decide (s.count p c.1 ≤ c.2.2))
  && (s.target != 0xFF || s.count 0xFF 12 == 1)

def streamOf (l : Lenhar) : Stream :=
  { target := field l.body 2 1, build := field l.body 8 8, digest := l.digest
    sections := (rawSections l.body).map fun r => { type := r.type, part := r.part, data := slice l.body r.off r.len } }

/-- The stream header (R25); KIND tells a full stream from a partial one. DESIGN CHOICE (log entry 161): its reserved bytes must be 0. -/
def streamHeadOk (l : Lenhar) : Bool :=
  let b := l.body
  let target := field b 2 1
  let n := field b 4 4
  field b 0 2 == 1 && field b 3 1 == 0 && allZero (slice b 16 16) && decide (1 ≤ n) && decide (n ≤ 1024)
  && decide (32 + 24 * n ≤ b.length) && (decide (target < 16) || target == 0xFF)
  && (l.kind != 2 || target == 0xFF) && (l.kind != 3 || target != 0xFF)

/-- Check 3 on the stream: none, or SECTION of the failure (0xFFFF where no one section fails). -/
def streamShape (l : Lenhar) : Option Nat :=
  if !streamHeadOk l then some 0xFFFF
  else
    let raw := rawSections l.body
    match firstFail (fun _ r => r.ok (field l.body 2 1) l.body.length) raw with
    | some i => some i
    | none => match firstFail (RawSection.clear raw) raw with
      | some i => some i
      | none => if (streamOf l).countsOk then none else some 0xFFFF

/-! ### Reading sections -/

def Stream.section? (s : Stream) (p t : Nat) : Option (List Byte) := (s.sections.find? fun e => e.part == p && e.type == t).map (·.data)
def Stream.get (s : Stream) (p t : Nat) : List Byte := (s.section? p t).getD []

/-- The PART_MAP section (R26). -/
def partMapOf (b : List Byte) : PartMap :=
  { clusters := field b 0 8, hbmSets := field b 8 8, granary := field b 16 8, ports := field b 24 1, keyCount := field b 25 1
    qpQuota := field b 26 2, syncQuota := field b 28 2
    pond := (records 8 (min (field b 30 2) 16) (b.drop 32)).map fun e => (field e 0 4, field e 4 4) }

/-- A timetable entry (Table 02.4). -/
def ttEntryOf (b : List Byte) : TtEntry :=
  let w := field b 0 8
  { offset := bits w 0 28, kind := bits w 28 4, deadline := bits w 32 28, policy := bits w 60 2, arg := field b 8 8 }

def timetableOf (b : List Byte) : Timetable :=
  { period := field b 0 4, grid := field b 4 4, absStart := field b 8 8, leaseMs := field b 16 4, abortLimit := field b 0x16 1
    entries := (records 16 (min (field b 0x14 2) 4096) (b.drop 64)).map ttEntryOf }

/-- The micro-batch quota (R49). -/
def Timetable.quota (t : Timetable) : Nat := (t.entries.filter (·.kind == 1)).foldl (fun a e => max a (bits e.arg 8 8)) 0

def formatEntries (b : List Byte) : List (List Byte) := records 32 (min (field b 2 2) 4096) (b.drop 64)
/-- The tensor identifiers of a FORMAT section. -/
def formatTensors (b : List Byte) : List Nat := ((formatEntries b).map fun e => [field e 8 3, field e 0xB 3, field e 0xE 3]).flatten
def pairingEntries (b : List Byte) : List (List Byte) := records 8 (min (field b 2 2) 4096) (b.drop 16)
def accEntries (b : List Byte) : List (List Byte) := records 16 (min (field b 2 2) 4096) (b.drop 16)
def leatEntries (b : List Byte) : List (List Byte) := records 72 (min (field b 4 2) 1024) (b.drop 16)

/-- The PAIRING entries implied by a FORMAT section, in decreasing LAYER order (R167). -/
def impliedPairing (fmt : List Byte) : List (List Byte) :=
  (((formatEntries fmt).map fun e => field e 0 2).mergeSort (fun a b => b ≤ a)).map fun l => leBytes 2 l ++ leBytes 4 0 ++ leBytes 2 0xFFFF

/-! ### Check 6: section contents -/

/-- The PART_MAP section (R26). DESIGN CHOICE (log entry 161): its reserved bytes must be 0. -/
def partMapOk (b : List Byte) : Bool :=
  b.length == 256 && decide (1 ≤ field b 25 1) && decide (field b 25 1 ≤ 8) && decide (field b 30 2 ≤ 16) && allZero (slice b 160 96)

/-- The argument of an entry kind is in range (Table 02.5). -/
def entryArgOk (kind a : Nat) : Bool :=
  match kind with
  | 1 => decide (bits a 0 2 ≤ 2) && bits a 2 6 == 0 && decide (1 ≤ bits a 8 8) && decide (bits a 8 8 ≤ 96) && decide (a < 2 ^ 24)
  | 2 => decide (1 ≤ bits a 8 6) && bits a 14 2 == 0 && decide (a < 2 ^ 32)
  | 3 => decide (a < 2 ^ 48)
  | 4 => decide (a ≤ 100)
  | 5 => decide (a < 2 ^ 16)
  | 6 => decide (a ≤ 2)
  | 7 => decide (a < 64) || a == 0xFFFF
  | 8 => decide (bits a 0 3 ≤ 4) && bits a 3 1 == 0 && decide (a < 2 ^ 32)
  | _ => false

/-- Gaps between consecutive starts, counted cyclically over a period (R48). -/
def cyclicGaps (p : Nat) (l : List Nat) : List Nat :=
  match l with
  | [] => []
  | a :: t => (List.zip l (t ++ [p + a])).map fun e => e.2 - e.1

def nonDecreasing : List Nat → Bool
  | a :: b :: t => decide (a ≤ b) && nonDecreasing (b :: t)
  | _ => true

/-- R45 to R48. -/
def timetableOk (b : List Byte) : Bool :=
  let t := timetableOf b
  let n := field b 0x14 2
  decide (1563 ≤ t.period) && decide (t.period ≤ 156250000) && decide (1 ≤ t.grid) && decide (t.grid ≤ 156250000)
  && decide (10 ≤ t.leaseMs) && decide (t.leaseMs ≤ 10000) && decide (1 ≤ n) && decide (n ≤ 4096) && decide (1 ≤ t.abortLimit)
  && allZero (slice b 0x17 41) && b.length == 64 + 16 * n
  && (records 16 n (b.drop 64)).all (fun e => bits (field e 0 8) 62 2 == 0)
  && t.entries.all (fun e => decide (e.policy ≤ 2) && entryArgOk e.kind e.arg && decide (e.offset < t.period)
      && decide (e.offset + e.deadline ≤ t.period) && (e.kind != 2 || decide (1 ≤ e.deadline)))
  && nonDecreasing (t.entries.map (·.offset)) && t.entries.any (·.kind == 4)
  && (cyclicGaps t.period (t.entries.map (·.offset))).all (fun g => decide (g ≤ 156250))
  && (cyclicGaps t.period ((t.entries.filter (·.kind == 3)).map (·.offset))).all fun g => decide (63 ≤ g)

/-- The G_ALLOWED bit of a gradient format. -/
def gradBit : Nat → Option Nat
  | 1 => some 0 | 4 => some 1 | 6 => some 2 | _ => none
/-- The formats that a G_ALLOWED byte allows. -/
def allowedFmts (g : Nat) : List Nat := [1, 4, 6].filter fun f => (gradBit f).any (bit g)

def formatEntryOk (e : List Byte) : Bool :=
  let w := field e 2 1
  let x := field e 3 1
  let g := field e 4 1
  let a := field e 5 1
  (w == 1 || w == 3 || w == 4 || w == 5 || w == 6) && ((decide (1 ≤ x) && decide (x ≤ 9)) || x == 12)
  && (gradBit g).any (bit a) && decide (a < 8) && decide (field e 6 1 ≤ 1) && decide (field e 7 1 ≤ 2) && allZero (slice e 0x11 15)

/-- R124; a SEED field only without CHARTER_BIND. -/
def formatOk (b : List Byte) (chartered : Bool) : Bool :=
  let n := field b 2 2
  let src := field b 4 1
  let es := formatEntries b
  field b 0 2 == 1 && decide (1 ≤ n) && decide (n ≤ 4096) && decide (src ≤ 1) && (src == 0 || !chartered) && allZero (slice b 5 27)
  && (src == 1 || allZero (slice b 0x20 32)) && b.length == 64 + 32 * n && es.all formatEntryOk
  && allDistinct (es.map fun e => field e 0 2) && allDistinct (formatTensors b) && !(formatTensors b).contains 0

/-- A gradient format is usable by a layer of forward-copy format `w` (R166). -/
def usable (g w : Nat) : Bool := fmtClass g == fmtClass w || (g == 4 && fmtClass w == some .w16)

def fmtOfLayer (fmt : List Byte) (l : Nat) : List Byte := ((formatEntries fmt).find? fun e => field e 0 2 == l).getD []

/-- The rules of R166 on one entry with its incoming formats. -/
def pairEntryOk (fmt : List Byte) (all : List (List Byte)) (inc : List Nat) (e : List Byte) : Bool :=
  let l := field e 0 2
  let f := fmtOfLayer fmt l
  let w := field f 2 1
  let x := field f 3 1
  let act := field e 3 1
  let dsrc := field e 4 1
  let tie := field e 6 2
  (act == 1 || act == 2 || dsrc == flag (act == 7 || act == 9))
  && inc.all (usable · w)
  && (if field e 2 1 = 0 then w == x && !blockScaled w && !blockScaled x && !inc.contains 6 else !inc.contains 6 || fmtClass w == some .w8)
  && (tie == 0xFFFF || (tie != l && all.any (fun t => field t 0 2 == tie && field t 6 2 == 0xFFFF) && field (fmtOfLayer fmt tie) 2 1 == w))

/-- The rules of R166 on entries in backward order. -/
def pairRulesOk (fmt : List Byte) (es : List (List Byte)) : Bool :=
  let incs := [] :: es.map fun e => allowedFmts (field (fmtOfLayer fmt (field e 0 2)) 5 1)
  (List.zip es incs).all fun e => pairEntryOk fmt es e.2 e.1

/-- R165, R166. -/
def pairingOk (b fmt : List Byte) : Bool :=
  let es := pairingEntries b
  let layers := (formatEntries fmt).map fun e => field e 0 2
  field b 0 2 == 1 && field b 2 2 == field fmt 2 2 && allZero (slice b 4 12) && b.length == 16 + 8 * field b 2 2
  && es.all (fun e => layers.contains (field e 0 2) && decide (field e 2 1 ≤ 1) && decide (field e 3 1 ≤ 11) && decide (field e 4 1 ≤ 1)
      && field e 5 1 == 0)
  && allDistinct (es.map fun e => field e 0 2) && pairRulesOk fmt es

/-- The groups that an ACC_ALLOC entry names, as keys 16 t + 8 array + group. -/
def accGroups (e : List Byte) : List Nat :=
  ((bitsOf 8 (field e 1 1)).map fun j => ((bitsOf 2 (field e 2 1)).map fun a => (bitsOf 8 (field e 3 1)).map fun g =>
    16 * (8 * field e 0 1 + j) + 8 * a + g).flatten).flatten

/-- R132. -/
def accOk (b fmt : List Byte) (m : PartMap) : Bool :=
  let es := accEntries b
  field b 0 2 == 1 && decide (field b 2 2 ≤ 4096) && allZero (slice b 4 12) && b.length == 16 + 16 * field b 2 2
  && es.all (fun e => decide (field e 0 1 < 64) && bit m.clusters (field e 0 1) && field e 1 1 != 0 && field e 2 1 != 0 && decide (field e 2 1 < 4)
      && field e 3 1 != 0 && field e 4 3 != 0 && (formatTensors fmt).contains (field e 4 3) && allZero (slice e 7 9))
  && allDistinct (es.map accGroups).flatten

/-- R145. -/
def orderOk (b : List Byte) : Bool :=
  b.length == 16 && field b 0 2 == 1 && decide (field b 2 1 ≤ 1) && decide (field b 3 1 ≤ 1) && decide (field b 4 1 ≤ 1) && allZero (slice b 5 11)

/-- R224. -/
def leatSectionOk (b : List Byte) (m : PartMap) : Bool :=
  let es := leatEntries b
  field b 0 2 == 1 && decide (1 ≤ field b 2 1) && decide (field b 2 1 ≤ 8) && field b 3 1 == 0 && decide (field b 4 2 ≤ 1024)
  && allZero (slice b 6 10) && b.length == 16 + 72 * field b 4 2
  && es.all (fun e => decide (field e 0 1 < 64) && bit m.clusters (field e 0 1) && decide (field e 1 1 < 16) && allZero (slice e 2 6) && allZero (slice e 0x3D 3))
  && allDistinct (es.map fun e => field e 0 2)

/-- The masks of the KERNEL sections of a partition, before and including section `i` of the stream. -/
def Stream.kernelMasks (s : Stream) (p i : Nat) : List Nat :=
  ((s.sections.take (i + 1)).filter fun e => e.part == p && e.type == 8).map fun e => field e.data 0 8

/-- KERNEL section `i`: a cluster mask with an image of at most 512 KiB, of clusters that no earlier image loads on; the partition's last
leaves no cluster without one (R26). -/
def Stream.kernelOk (s : Stream) (p i : Nat) (b : List Byte) (m : PartMap) : Bool :=
  let ms := s.kernelMasks p i
  let before := ms.dropLast.foldl (· ||| ·) 0
  let here := field b 0 8
  decide (8 ≤ b.length) && decide (b.length ≤ 8 + 524288) && (here &&& m.clusters) == here && (here &&& before) == 0
  && (ms.length != s.count p 8 || (before ||| here) == m.clusters)

/-- Check 6 on section `i`. -/
def Stream.sectionOk (s : Stream) (i : Nat) (e : Section) : Bool :=
  let p := e.part
  let b := e.data
  let fmt := s.get p 7
  let mb := s.get p 1
  let m := partMapOf mb
  match e.type with
  | 1 => partMapOk b
  | 2 | 3 => Config.entriesOwn e.type b mb
  | 4 => pairingOk b fmt
  | 5 => accOk b fmt m
  | 6 => leatSectionOk b m
  | 7 => formatOk b (s.section? p 10).isSome && ((s.section? p 4).isSome || pairRulesOk b (impliedPairing b))
  | 8 => s.kernelOk p i b m
  | 9 => timetableOk b
  | 10 => b.length == 32
  | 11 => orderOk b
  | _ => true

/-! ### Check 7: limits -/

/-- Two Pond extents share a byte; an extent of COUNT 0 holds none. -/
def extentsOverlap (a b : Nat × Nat) : Bool :=
  decide (0 < a.2) && decide (0 < b.2) && decide (a.1 < b.1 + b.2) && decide (b.1 < a.1 + a.2)

/-- Some two elements of a list are related. -/
def somePair (r : α → α → Bool) : List α → Bool
  | [] => false
  | a :: t => t.any (r a) || somePair r t

/-- The resources a stream names for one partition, with its micro-batch quota and its count of timetable entries. -/
structure Claim where
  map : PartMap
  mb : Nat
  entries : Nat
  deriving DecidableEq, Repr

def Stream.claim (s : Stream) (p : Nat) : Claim :=
  let t := timetableOf (s.get p 9)
  { map := partMapOf (s.get p 1), mb := t.quota, entries := t.entries.length }

/-- The per-partition limits of Table 01.3. -/
def Claim.ok (c : Claim) (extents : Nat) : Bool :=
  let m := c.map
  m.clusters != 0 && m.hbmSets != 0 && (bitsOf 64 m.granary).all (fun i => (bitsOf 64 m.clusters).any fun k => k / 8 == i / 8)
  && m.pond.all (fun e => decide (e.1 + e.2 ≤ extents)) && !somePair extentsOverlap m.pond
  && decide (m.qpQuota ≤ 8192) && decide (m.syncQuota ≤ 16384) && decide (c.mb ≤ 96) && decide (c.entries ≤ 4096)

/-- Two partitions name one resource. -/
def Claim.meets (a b : Claim) : Bool :=
  (a.map.clusters &&& b.map.clusters) != 0 || (a.map.hbmSets &&& b.map.hbmSets) != 0 || (a.map.granary &&& b.map.granary) != 0
  || a.map.pond.any fun e => b.map.pond.any (extentsOverlap e)

def sumOf (f : α → Nat) (l : List α) : Nat := (l.map f).foldl (· + ·) 0

/-- The device-wide sums of Table 01.3 and R49, but for key identifiers. -/
def sumsOk (l : List Claim) : Bool :=
  decide (sumOf (·.map.qpQuota) l ≤ 8192) && decide (sumOf (·.map.syncQuota) l ≤ 16384) && decide (sumOf (·.mb) l ≤ 96)
  && decide (sumOf (·.entries) l ≤ 32768)

/-- Check 7: status and SECTION; 0 where it passes. -/
def Stream.limits (s : Stream) (extents : Nat) : Nat × Nat :=
  let ps := s.parts
  match ps.find? fun p => !(s.claim p).ok extents with
  | some p => (9, (firstFail (fun _ e => !(e.part == p && e.type == 1)) s.sections).getD 0xFFFF)
  | none =>
    let cs := ps.map s.claim
    if s.target ≠ 0xFF then (0, 0xFFFF)
    else if somePair Claim.meets cs then (8, 0xFFFF)
    else if !sumsOk cs || decide (62 < sumOf (·.map.keyCount) cs) then (9, 0xFFFF)
    else (0, 0xFFFF)

/-! ### Checks 5 and 8 -/

/-- Check 5 (R24): one entry names the KEY_ID of a VERIFY slot and verifies under its stored key. Every slot that holds the key is
tried, lowest first, and each slot used is verified (R323). -/
def State.operatorSigned (s : State) (l : Lenhar) : Bool × State :=
  l.sigs.foldl (fun a e =>
    (List.range 256).foldl (fun a n =>
      if a.1 || !((a.2.keySlot n).valid && (a.2.keySlot n).perm == 1 && (a.2.keySlot n).key == e.keyId) then a
      else
        let r := a.2.useKey n 1
        (r.1.isSome && e.verifies (NatMap.get [] s.sec.pubKeys n) l.signed, r.2)) a) (false, s)

/-- The charter of a CHARTER_BIND section is active for a partition and lists the stream (R30, R330). -/
def State.charterPermits (s : State) (st : Stream) (p : Nat) : Bool :=
  match st.section? p 10 with
  | none => true
  | some d => (List.range 16).any fun c =>
      let k := s.sec.charter c
      (k.state == .active || k.state == .bound) && k.part == p && k.digest == d && k.charter.streams.contains st.digest

/-- Checks 3 to 8 of Table 01.9 on the copied bytes: status, SECTION, and the stream where the status is 0. -/
def State.stageChecks (s : State) (bs : List Byte) (all : Bool) (p : Nat) : Nat × Nat × Option Stream × State :=
  match lenhar bs with
  | none => (4, 0xFFFF, none, s)
  | some l =>
    match streamShape l with
    | some i => (4, i, none, s)
    | none =>
      let st := streamOf l
      if l.kind ≠ (if all then 2 else 3) ∨ (!all ∧ st.target ≠ p) then (0xB, 0xFFFF, none, s)
      else if !l.digestOk then (6, 0xFFFF, none, s)
      else
        let r := s.operatorSigned l
        if !r.1 then (6, 0xFFFF, none, r.2)
        else match firstFail st.sectionOk st.sections with
          | some i => (4, i, none, r.2)
          | none =>
            let q := st.limits r.2.mem.extents
            if q.1 ≠ 0 then (q.1, q.2, none, r.2)
            else if !(st.parts.all (r.2.charterPermits st)) then (7, 0xFFFF, none, r.2)
            else (0, 0xFFFF, some st, r.2)

end Sys2Proof.Machine
end

