-- ==== Sys2Proof/Machine/Partitions.lean ====
section
/-! DEFINITION. Staging, binding and rebinding of partitions (R27 to R37, R43, R349, R350), and the Millrace with its links (R17, R18,
R358). -/
namespace Sys2Proof.Machine
open Sys2Proof

/-! ### PART_CMD (R29, R38) -/

/-- STATUS and SECTION of PART_LOAD_STATUS. -/
def State.partStatus (s : State) (p st : Nat) (sec : Nat := 0xFFFF) : State := s.modPart p fun v => { v with status := st, secNo := sec }

/-- A PART_CMD is in progress: the device handles one at a time (R29). -/
def State.partBusy (s : State) : Bool := s.parts.any fun e => e.2.rebind.inProgress

/-- A PART_CMD on the selected partition; under PART_SEL.ALL its status shows in the window of PART_SEL.PART. -/
def State.partCmd (s : State) (rq : Req) (f : (all : Bool) → Nat → State → State) : State :=
  let x := s.sel rq
  if s.mayP rq 0x50008 ∧ x.part < 16 then
    if s.partBusy then s.modPart x.part fun v => { v with status := 1 } else f x.partAll x.part s
  else s

/-- The commands that PART_SEL.ALL excludes. -/
def State.partCmdOne (s : State) (rq : Req) (f : Nat → State → State) : State :=
  s.partCmd rq fun all p s => if all then s else f p s

/-! ### Staging (R27, R28) -/

/-- The staged stream a command of this kind works on. -/
def State.stagedOf (s : State) (all : Bool) (p : Nat) : Option Stream := if all then s.stagedFull else (s.part p).staged

def State.setStaged (s : State) (all : Bool) (p : Nat) (st : Option Stream) : State :=
  if all then { s with stagedFull := st } else s.modPart p fun v => { v with staged := st }

/-- The largest container (Table 01.9, check 2). -/
def stageLimit (all : Bool) : Nat := if all then 268435456 else 16777216

/-- The checks of Table 01.9 in order: status, SECTION and the verified stream. -/
def State.stageRun (s : State) (all : Bool) (p h n : Nat) : Nat × Nat × Option Stream × State :=
  match s.checkObj 0 h 0 n .copyRead with
  | .error _ => (3, 0xFFFF, none, s)
  | .ok _ =>
    if stageLimit all < n then (5, 0xFFFF, none, s)
    else match s.operatorBytes h n with
      | (none, s) => (3, 0xFFFF, none, s)
      | (some bs, s) => s.stageChecks bs all p

/-- STAGE (R27, R28). DESIGN CHOICE (log entry 162): a full STAGE that fails leaves the staged partial streams, and a partial STAGE leaves
a staged full stream. -/
def State.stage (s : State) (all : Bool) (p : Nat) : State :=
  let n := NatMap.get 0 s.stageLen p
  if n = 0 then s.partStatus p 0
  else
    let r := s.stageRun all p (NatMap.get 0 s.stageObj p) n
    let s := r.2.2.2.setStaged all p r.2.2.1
    let s := if all && r.2.2.1.isSome then { s with parts := NatMap.mapVals {} (fun _ v => { v with staged := none }) s.parts } else s
    s.partStatus p r.1 r.2.1

def execStage (rq : Req) (s : State) : Answer := .next (s.partCmd rq fun all p s => s.stage all p)

def execDiscard (rq : Req) (s : State) : Answer :=
  .next (s.partCmd rq fun all p s => (s.setStaged all p none).partStatus p 0)

/-! ### The checks of R30 -/

/-- What a bound partition holds. -/
def Part.claim (v : Part) : Claim := { map := v.map, mb := v.mbQuota, entries := v.gov.tt.entries.length }

/-- The heaps of context 0 take a resource that a PART_MAP names. -/
def State.ctx0Meets (s : State) (m : PartMap) : Bool :=
  let c := s.ctx 0
  let d := c.desc
  s.heapsHeld 0 c
  && ((d.hbmSets &&& m.hbmSets) != 0 || m.pond.any (fun e => overlap d.pondOff d.pondLen (268435456 * e.1) (268435456 * e.2))
      || d.granary.zipIdx.any fun g => (m.slices g.2).any fun i => overlap g.1.1 g.1.2 (sliceBytes * (i % 8)) sliceBytes)

/-- The assignable key identifiers that are FREE, lowest first. -/
def State.freeKeyIds (s : State) : List Nat := (List.range 64).filter fun k => decide (2 ≤ k) && (s.mce.keyId k).state == .free

/-- The status of a BIND or REBIND of `ps` to a stream, by the checks of R30 in order. -/
def State.bindChecks (s : State) (st : Stream) (ps : List Nat) : Nat :=
  let others := (s.boundParts.filter fun p => !ps.contains p).map fun p => (s.part p).claim
  let mine := ps.map st.claim
  if !ps.all (s.charterPermits st) then 7
  else if mine.any fun c => others.any c.meets || s.ctx0Meets c.map then 8
  else if !sumsOk (mine ++ others)
      || decide (s.freeKeyIds.length + sumOf (fun p => (s.part p).keyIds.length) ps < sumOf (·.map.keyCount) mine) then 9
  else 0

/-! ### Step 5: LOADING -/

/-- A partition that is FREE again. -/
def Part.unbound (v : Part) (st : Nat) : Part :=
  { staged := v.staged, status := st, brakedDrain := v.brakedDrain, drainLimit := v.drainLimit, firewallDrops := v.firewallDrops }

/-- The charter slot a partition is bound to is emptied of its keys (R331). -/
def State.dropCharter (s : State) (p : Nat) : State :=
  match s.boundCharter p with
  | some c => s.unbindCharter c
  | none => s

/-- The sections of a stream that configure a partition. -/
def Stream.of (st : Stream) (p : Nat) : Stream := { st with sections := st.sections.filter (·.part == p) }

/-- Step 5 begins (Table 01.10): the lowest free key identifiers are assigned with fresh keys, and the stream's resources are taken; too
few identifiers leave the partition FREE (R37). -/
def State.enterLoading (s : State) (p : Nat) (st : Stream) : State :=
  let m := partMapOf (st.get p 1)
  let free := s.freeKeyIds
  if free.length < m.keyCount then (s.dropCharter p).modPart p (·.unbound 9)
  else
    let ids := free.take m.keyCount
    let s := ids.foldl (State.assignKey · p) s
    s.modPart p fun v =>
      { v with state := .loading, stream := some (st.of p), map := m, keyIds := ids, charter := (st.section? p 10).getD [], seed := [] }

/-- The format state table at LOADING (Table 07.4). -/
def formatState (fmt : List Byte) : List Byte :=
  ((formatEntries fmt).map fun e =>
    slice e 0 2 ++ slice e 4 1 ++ slice e 5 1 ++ leBytes 4 0 ++ leBytes 4 0x3F800000 ++ leBytes 4 0).flatten

/-- The kernel image of a cluster. -/
def Stream.image (st : Stream) (p c : Nat) : List Byte :=
  match st.sections.find? fun e => e.part == p && e.type == 8 && bit (field e.data 0 8) c with
  | some e => e.data.drop 8
  | none => []

/-- What LOADING puts into a cluster: its kernel image over instruction and data memory, the tables of R168, and the Leat descriptors
(R224). -/
def Cluster.load (x : Cluster) (st : Stream) (p c : Nat) : Cluster :=
  let fmt := st.get p 7
  let img := st.image p c
  let pairs := match st.section? p 4 with
    | some b => (pairingEntries b).flatten
    | none => (impliedPairing fmt).flatten
  let d := NatMap.setList 0 (NatMap.setList 0 [] 0 (img.drop 262144)) 0x28000 pairs
  let mine := (leatEntries (st.get p 6)).filter fun e => field e 0 1 == c
  { x with
    imem := NatMap.setList 0 [] 0 (img.take 262144)
    dmem := NatMap.setList 0 d 0x30000 (formatState fmt)
    sram := mine.foldl (fun m e => NatMap.setList 0 m (0xFFFC00 + 64 * field e 1 1) (slice e 8 64)) [] }

/-- The charter slot that a CHARTER_BIND section names. -/
def State.streamCharter (s : State) (st : Stream) (p : Nat) : Option Nat :=
  match st.section? p 10 with
  | none => none
  | some d => (List.range 16).find? fun c =>
      let k := s.sec.charter c
      (k.state == .active || k.state == .bound) && k.part == p && k.digest == d

/-- The rounding seed (R120, R333). Where SEED_SOURCE is 0 and no charter is bound the spec names no secret: a free value. -/
def State.loadSeed (s : State) (st : Stream) (p : Nat) : List Byte × State :=
  let fmt := st.get p 7
  if field fmt 4 1 = 1 then (slice fmt 0x20 32, s)
  else match s.streamCharter st p with
    | some c => (derive "NRS1" ((s.sec.charter c).secret.getD []), s)
    | none => (((List.range 4).map fun i => leBytes 8 (Config.freeValue (s.draws + i)).toNat).flatten, { s with draws := s.draws + 4 })

/-- The group tags of an ACC_ALLOC section (R132). -/
def groupTags (b : List Byte) : NatMap Nat :=
  (accEntries b).foldl (fun m e => (accGroups e).foldl (fun m k => NatMap.set 0 m k (field e 4 3)) m) []

/-- T₀ of a partition that enters ARMED now (R43). DESIGN CHOICE (log entry 163): an absolute start less than 1 beat ahead is taken as one
that has passed. -/
def Timetable.origin (t : Timetable) (now : Nat) : Nat :=
  if t.absStart = 0 then roundUp (now + 64) (64 * t.grid)
  else if now + 64 ≤ t.absStart then t.absStart
  else t.absStart + roundUp (now + 64 - t.absStart) (64 * t.period)

/-- The sections are applied: everything of step 5 but the state the partition goes to. -/
def State.applyStream (s : State) (p : Nat) (st : Stream) : State :=
  let r := s.loadSeed st p
  let s := r.2
  let tt := timetableOf (st.get p 9)
  let order := st.get p 11
  let s := match s.streamCharter st p with
    | some c => s.modSec fun x => x.setCharter c { x.charter c with state := .bound }
    | none => s
  let s := (s.partClusters p).foldl (fun s c => s.modCluster c (·.load st p c)) s
  let s := { s with tollFails := NatMap.set {} s.tollFails p {} }
  s.modPart p fun v =>
    { v with
      firewall := st.get p 2, route := st.get p 3, firewallOn := true
      tags := groupTags (st.get p 5)
      site0 := field order 2 1, site1 := field order 3 1, site2 := field order 4 1
      format := st.get p 7, seed := r.1, pairing := st.get p 4
      mbQuota := tt.quota, topTotal := 0, topTotalLatch := 0
      gov := { tt := tt, t0 := tt.origin s.now, leaseExpiry := s.now + 1000000 * tt.leaseMs } }

/-- LOAD_COMPLETE (DESIGN CHOICE, log entry 165: with it the command is over): ARMED, or BRAKED where a brake arrived during the rebinding or BRAKE_N is still low (R37, R60). -/
def State.loadComplete (s : State) (p : Nat) : State :=
  let v := s.part p
  match v.state, v.stream with
  | .loading, some st =>
    let s := s.applyStream p st
    let pin := bit v.rebind.causes 1 || s.mill.brakeLow
    let brake := pin || v.rebind.causes != 0
    let count := min (s.now - v.rebind.start) 0xFFFFFFFF
    let s := s.modPart p fun v =>
      let wait := !brake && v.gov.tt.absStart == 0
      { v with
        state := if brake then .braked else .armed
        status := 0, secNo := 0xFFFF
        rebindNs := if wait then v.rebindNs else count
        rebind := { v.rebind with inProgress := false, timing := wait, causes := 0 }
        gov := if brake then { v.gov.brakedByAll (v.rebind.causes ||| 2 * flag pin) with brakeAt := s.now } else v.gov }
    if pin then s.raise (govFault p 0x0107 1) else s
  | _, _ => s

def execLoadComplete (part : Nat) (s : State) : Answer := .next (s.loadComplete part)

/-! ### BIND -/

/-- A PART_CMD starts to run on a partition. -/
def Part.begin (v : Part) (now : Nat) (load : Bool) : Part :=
  { v with
    secNo := 0xFFFF
    rebind := { inProgress := true, toLoad := load, start := now, limit := max 100 (min v.drainLimit 2000) } }

/-- BIND, and REBIND of a FREE partition: step 5 begins at once. -/
def State.bindParts (s : State) (st : Stream) (ps : List Nat) : State :=
  ps.foldl (fun s p => (s.modPart p (·.begin s.now true)).enterLoading p st) s

/-- BIND of a FREE partition, or of every partition of the full stream while all 16 are FREE (R29, R30). -/
def State.bind (s : State) (all : Bool) (p : Nat) : State :=
  let free := if all then (List.range 16).all fun q => (s.part q).state == .free else (s.part p).state == .free
  if !free then s.partStatus p 2
  else match s.stagedOf all p with
    | none => s.partStatus p 0xA
    | some st =>
      let ps := if all then st.parts else [p]
      let e := s.bindChecks st ps
      if e ≠ 0 then s.partStatus p e
      else if all then { (s.partStatus p 0).bindParts st ps with device := st.get 0xFF 12 }
      else s.bindParts st ps

def execBind (rq : Req) (s : State) : Answer := .next (s.partCmd rq fun all p s => s.bind all p)

/-! ### Step 1: DRAINING -/

/-- The entries of a partition that drains end, but its open windows, whose transfers in flight complete (R31). -/
def Gov.drainEntries (g : Gov) : Gov := { g with runs := NatMap.mapVals {} (fun _ r => if r.windowOpen then r else r.ended) g.runs }

/-- Step 1 begins: no timetable entry starts, the cores issue no TOPs, streams stop after their transfers, the Quern's work of a step
before its commit point is dropped, and a release in progress stops (R31, R225, R339). TOPs already sent and Ihlak transfers in flight
run on. -/
def State.enterDraining (s : State) (p : Nat) (load : Bool) : State :=
  let g := (s.part p).gov
  let drop := (s.part p).state == .running && !g.committed && !g.aborted && !(s.weir p).awaitsCommit
  let s := match s.boundCharter p with
    | some c => s.stopRelease c
    | none => s
  let s := s.modPart p fun v =>
    let v := v.begin s.now load
    { v with
      state := .draining, brakedDrain := false
      rebind := { v.rebind with drainStart := s.now }
      gov := { v.gov.drainEntries with braking := false } }
  let s := (s.partClusters p).foldl (fun s c => (s.modCluster c fun x => { x.unstall with running := false }).stopLeats c) s
  let s := s.foldQuerns p fun q => if drop then q.brakeSweeps.abandon g.step.toNat else q.brakeSweeps
  s.endHint p

/-- Contexts of the partition, but context 0. -/
def State.ofPart (s : State) (p x : Nat) : Bool := x != 0 && (s.ctx x).desc.part == p

/-- A collective of the partition is under way in an open window. -/
def State.collsInFlight (s : State) (p : Nat) : Bool :=
  let g := (s.part p).gov
  g.runs.any fun r => r.2.windowOpen && (match g.tt.entries[r.1 % 4096]? with
    | some e => e.collId.any fun i => let c := (s.weir p).coll i; c.started && !c.complete && !c.failed
    | none => false)

/-- No TOP, transfer, stream, update or test slot of the partition is under way. -/
def State.drained (s : State) (p : Nat) : Bool :=
  (s.partTiles p).all (fun t => let x := s.tile t; x.flight.isEmpty && x.queue.isEmpty && x.test.isNone)
  && (s.partClusters p).all (fun c => (List.range 16).all fun k => !(s.leat c k).running)
  && (s.partDies p).all (fun d => (s.quern p d).idle)
  && s.copyJobs.all (fun j => j.kind == 2 || !s.ofPart p j.ctx)
  && !s.collsInFlight p
  && s.qps.all fun e => e.2.write.isNone || !s.ofPart p e.2.onCtx

/-- A context of a partition ends with step 2: nothing of it remains under way (R33). -/
def State.endCtxNow (s : State) (x : Nat) : State :=
  let s := s.modCtx x fun c => { c with queues := NatMap.mapVals {} (fun _ q => { q with current := none, fetched := [] }) c.queues }
  let s := s.endCtx x 3
  let s := s.modCtx x fun c => { c with ending := 0 }
  { s with
    pendingFrees := s.pendingFrees.filter fun f => f.ctx != x
    tollQueue := s.tollQueue.filter fun k => match k with | .host y _ _ => y != x | .tile _ => true }

/-- DRAIN_COMPLETE: the firewall entries are removed and step 2 begins; the partition's contexts end and its queue pairs reset. -/
def State.drainComplete (s : State) (p : Nat) : State :=
  if (s.part p).state = .draining ∧ s.drained p then
    let s := s.modPart p fun v => { v with state := .scrubbing, firewall := [], route := [], firewallOn := false, gov := v.gov.endEntries true }
    let xs := NatMap.keysWhere s.ctxs fun x c =>
      x != 0 && c.desc.part == p && (c.state == .defined || c.state == .resident || (c.state == .ended && c.ending != 0))
    let s := (xs.foldl State.endCtxNow s).resetPartQps p
    (s.partTiles p).foldl (fun s t => s.modTile t fun x => { x with scrubbing := true }) s
  else s

def execDrainComplete (part : Nat) (s : State) : Answer := .next (s.drainComplete part)

/-- DRAIN_LIMIT_EXPIRY: the partition is braked and its work in flight abandoned (R34). -/
def State.drainLimitExpiry (s : State) (p : Nat) : State :=
  let v := s.part p
  if v.state = .draining ∧ !v.rebind.braked ∧ v.rebind.drainStart + 1000 * v.rebind.limit ≤ s.now then s.abandonDrain p else s

def execDrainLimitExpiry (part : Nat) (s : State) : Answer := .next (s.drainLimitExpiry part)

/-! ### Steps 2 to 4 -/

/-- A Granary slice is zeroed. -/
def State.zeroSlice (s : State) (i : Nat) : State := { s with granary := NatMap.clearRange s.granary (sliceBytes * i) sliceBytes }

/-- Table 01.11: everything of a partition that step 2 zeroes, with its Granary slices (step 3). -/
def State.scrubPart (s : State) (p : Nat) : State :=
  let s := (s.partTiles p).foldl (fun s t => s.modTile t fun x => { x.scrub with scrubbing := false, halted := false }) s
  let s := (s.partClusters p).foldl (fun s c =>
    let s := s.setCluster c {}
    (List.range 16).foldl (fun s k => s.setLeat c k {}) s) s
  let s := (List.range 8).foldl (fun s d => (s.quernClear p d).setQuern p d {}) s
  let s := (bitsOf 64 (s.part p).map.granary).foldl State.zeroSlice s
  let s := s.setWeir p {}
  { s with resolves := NatMap.set {} s.resolves p {} }

/-- SCRUB_COMPLETE: step 4 begins. -/
def State.scrubComplete (s : State) (p : Nat) : State :=
  if (s.part p).state = .scrubbing then
    let s := s.scrubPart p
    let s := s.modPart p fun v => { v with state := .retiring, gov := {}, tags := [] }
    s.modMce fun x => (s.part p).keyIds.foldl (fun x k => x.setKeyId k (x.keyId k).retire) x
  else s

def execScrubComplete (part : Nat) (s : State) : Answer := .next (s.scrubComplete part)

/-- KEY_DESTROY_TIMEOUT: an identifier that is RETIRING becomes DEAD (R349), and so does one whose destruction an engine does not confirm
after a tamper event (Table 13.6). -/
def State.keyDestroyTimeout (s : State) (k : Nat) : State :=
  let i := s.mce.keyId k
  if i.state = .retiring ∨ (s.mce.tampered ∧ i.state = .free) then
    (s.modMce fun x => x.setKeyId k { i with state := .dead }).raise { code := 0x0806, loc := locSec i.part }
  else s

def execKeyDestroyTimeout (kid : Nat) (s : State) : Answer := .next (s.keyDestroyTimeout kid)

/-- RETIRE_COMPLETE: identifiers that every engine has confirmed are FREE (R350), the charter's slots are erased unless the new stream
carries the same CHARTER_BIND (R331), and the partition goes to LOADING or FREE. -/
def State.retireComplete (s : State) (p : Nat) : State :=
  let v := s.part p
  if v.state = .retiring then
    let s := s.modMce fun x => v.keyIds.foldl (fun x k =>
      if (x.keyId k).state = .retiring then x.setKeyId k (x.keyId k).freed else x) x
    match (if v.rebind.toLoad then v.staged else none) with
    | none => (s.dropCharter p).modPart p (·.unbound 0)
    | some st =>
      let s := if st.section? p 10 = some v.charter then s else s.dropCharter p
      s.enterLoading p st
  else s

def execRetireComplete (part : Nat) (s : State) : Answer := .next (s.retireComplete part)

/-! ### UNBIND and REBIND -/

def State.unbind (s : State) (p : Nat) : State :=
  match (s.part p).state with
  | .running | .braked => s.enterDraining p false
  | _ => s.partStatus p 2

def execUnbind (rq : Req) (s : State) : Answer := .next (s.partCmdOne rq fun p s => s.unbind p)

def State.rebind (s : State) (p : Nat) : State :=
  let st := (s.part p).state
  if st ≠ .free ∧ st ≠ .running ∧ st ≠ .braked then s.partStatus p 2
  else match (s.part p).staged with
    | none => s.partStatus p 0xA
    | some m =>
      let e := s.bindChecks m [p]
      if e ≠ 0 then s.partStatus p e
      else if st = .free then s.bindParts m [p]
      else s.enterDraining p true

def execRebind (rq : Req) (s : State) : Answer := .next (s.partCmdOne rq fun p s => s.rebind p)

/-! ### The Millrace -/

/-- The resource a packet is addressed to is bound by a PART_MAP; the control die serves every partition. -/
def PartMap.admits (m : PartMap) : MillDest → Bool
  | .cluster c => bit m.clusters c
  | .granary i => bit m.granary i
  | .hbmSet n => bit m.hbmSets n
  | .pond a => m.pond.any fun e => decide (268435456 * e.1 ≤ a) && decide (a < 268435456 * (e.1 + e.2))
  | .port k => bit m.ports k
  | .control => true

/-- A packet to memory is served only under an identifier that is ASSIGNED (R349, R350). -/
def MillDest.inMemory : MillDest → Bool
  | .hbmSet _ | .pond _ => true
  | _ => false

/-- The partition number of a packet (R18). -/
def MillSrc.num : MillSrc → Nat
  | .part p _ => p
  | _ => 0

/-- The identifier of a packet: no requester chooses it (R359). -/
def State.millKid (s : State) : MillSrc → Nat
  | .control => 0
  | .operator => 1
  | .part p x => let ids := (s.part p).keyIds; ids.getD (x % max ids.length 1) 0

/-- The router stops admit a packet: the control die's traffic everywhere; a partition's where the resource is bound to it, with its
firewall entries in force, and to memory under an identifier that is ASSIGNED (R18, R349, R350). -/
def State.millAdmits (s : State) (src : MillSrc) (dst : MillDest) : Bool :=
  match src with
  | .part p _ =>
    (s.part p).firewallOn && (s.part p).map.admits dst && (!dst.inMemory || (s.mce.keyId (s.millKid src)).state == .assigned)
  | _ => true

/-- MILLRACE_PACKET (R18) from die `die`: admitted, it goes over the links that are up (R358), a frame on each; a drop is counted for the
source. Where no way is left it goes nowhere. -/
def State.millrace (s : State) (src : MillSrc) (die : Nat) (dst : MillDest) : State :=
  if s.millAdmits src dst then
    match route s.mce.linkUp die dst.die with
    | none => s
    | some way => (s.modMce (·.crossed way)).send
        (.millrace src.num (s.millKid src) dst (way.map fun l => (l, NatMap.get 0 s.mce.linkFrames l)))
  else s.modPart src.num fun v => { v with firewallDrops := sat32n (v.firewallDrops + 1) }

def execMillracePacket (src : MillSrc) (die : Nat) (dst : MillDest) (s : State) : Answer := .next (s.millrace src die dst)

/-- The link's bit of MCE_LINK_STATUS is cleared. -/
def Mce.linkOff (x : Mce) : PkgLink → Mce
  | .ring d => { x with ring := x.ring &&& (255 - 2 ^ d) }
  | .chord d => { x with chord := x.chord &&& (255 - 2 ^ d) }
  | .io d => { x with io := x.io &&& (255 - 2 ^ d) }
  | .ctrl d => { x with ctrl := x.ctrl &&& (255 - 2 ^ d) }

/-- A link to an I/O die or to the control die: its loss brakes the die's partitions (R358). -/
def PkgLink.brakes : PkgLink → Bool
  | .io _ | .ctrl _ => true
  | _ => false

/-- A link is taken down until reset (R358). -/
def State.linkDown (s : State) (l : PkgLink) : State :=
  let s := s.modMce fun x => { x.linkOff l with linkDown := NatSet.insert l.num x.linkDown }
  let ps := if l.brakes then s.boundParts.filter fun p => (s.partDies p).contains l.die else []
  let s := ps.foldl State.brake s
  s.raise { code := 0x080A, loc := { die := l.die }, severity := if ps.isEmpty then 3 else 1 }

/-- LINK_FRAME_AUTH_FAIL (R17): the frame is dropped and counted; the 16th within 1 ms takes the link down. -/
def State.linkFrameFail (s : State) (l : PkgLink) : State :=
  if s.mce.linkDown.contains l.num then s
  else
    let recent := (s.now :: NatMap.get [] s.mce.linkFails l.num).filter fun t => decide (s.now < t + 1000000)
    let s := s.modMce fun x =>
      { x with
        linkFails := NatMap.set [] x.linkFails l.num recent
        linkDrops := NatMap.set 0 x.linkDrops l.num (NatMap.get 0 x.linkDrops l.num + 1) }
    if 16 ≤ recent.length then s.linkDown l else s

def execLinkFrameAuthFail (link : PkgLink) (s : State) : Answer := .next (s.linkFrameFail link)

end Sys2Proof.Machine
end

