-- ==== Sys2Proof/Machine/Protection.lean ====
section
/-! DEFINITION. MACsec and tamper (R356, R357, R360). -/
namespace Sys2Proof.Machine
open Sys2Proof

/-! ### MACsec -/

/-- MACSEC_FRAME: a frame without a valid SecTAG while REQUIRE = 1 is dropped and counted (R357), and so is one whose 802.1AE integrity or
replay check fails where MACsec runs. -/
def State.macsecFrame (s : State) (k : Nat) (cause : MacsecDrop) : State :=
  let x := s.port k
  match cause with
  | .unprotected => if x.macsecRequire then s.countUnprotected k else s
  | .icvFail => if x.macsecEn then s.setPort k { x with dropIcv := min (x.dropIcv + 1) 0xFFFFFFFF } else s

def execMacsecFrame (port : Nat) (cause : MacsecDrop) (s : State) : Answer := .next (s.macsecFrame port cause)

/-- The device, as a sub-port's key server, draws a new SAK and distributes it (R356). -/
def State.newSak (s : State) (k n : Nat) : State :=
  let x := (s.port k).sub n
  let y := { x with sak := s.drawn, sakKn := (x.sakKn + 1) % 2 ^ 32, sakAn := (x.sakAn + 1) % 4, nextPn := 1 }
  (s.draw.modPort k (·.setSub n y)).send (.mka k n y.sakKn y.sakAn)

/-- The device wins the key server election of 802.1X: the lower priority value, then the lower SCI; 0xFF never serves. -/
def Port.serves (x : Port) (m : MkaMsg) : Bool :=
  x.ksPriority != 0xFF && (decide (x.ksPriority < m.priority) || (x.ksPriority == m.priority && !m.sciLower))

/-- A verified frame of a sub-port's MKA instance: the key server is elected; the device distributes an SAK where it serves and none is in
force, and takes the peer's where it does not. -/
def State.mkaTake (s : State) (k : Nat) (m : MkaMsg) : State :=
  let serves := (s.port k).serves m
  let x := { (s.port k).sub m.sub with keyServer := serves, peer := some m.priority }
  let s := s.modPort k (·.setSub m.sub x)
  let s :=
    if serves then (if x.sakKn = 0 then s.newSak k m.sub else s)
    else match m.sak with
      | some (kn, an, key) =>
        if kn = x.sakKn ∧ an = x.sakAn then s
        else s.modPort k (·.setSub m.sub { x with sak := key, sakKn := kn, sakAn := an, nextPn := 1 })
      | none => s
  let y := (s.port k).sub m.sub
  if y.sakKn = 0 then s else s.modPort k (·.setSub m.sub { y with up := m.up })

/-- MKA_FRAME (R356): taken on an active sub-port with MACsec enabled, where the CAK's slot passes and the frame verifies. It is a use of the
slot (R324). -/
def State.mkaFrame (s : State) (k : Nat) (m : MkaMsg) : State :=
  if !s.netOpen ∨ !(s.port k).macsecEn ∨ !m.icvOk ∨ s.subPorts k ≤ m.sub then s
  else
    let r := s.useOnce (s.port k).cakSlot 8
    if r.1.isNone then r.2 else (r.2.mkaTake k m).macsecFell k (s.macsecUp k)

def execMkaFrame (port : Nat) (m : MkaMsg) (s : State) : Answer := .next (s.mkaFrame port m)

/-- SAK_REKEY: a sub-port's packet number nears 0xC000_0000_0000_0000; its key server distributes a new SAK before it gets there, under
a CAK whose slot passes (R323, R356). -/
def State.sakRekey (s : State) (k n pn : Nat) : State :=
  let x := (s.port k).sub n
  if (s.port k).macsecEn && x.sakKn != 0 then
    if x.keyServer then
      let r := s.useOnce (s.port k).cakSlot 8
      if r.1.isSome then r.2.newSak k n else r.2
    else s.modPort k (·.setSub n { x with nextPn := pn })
  else s

def execSakRekey (ch : SubId) (pn : Nat) (s : State) : Answer := .next (s.sakRekey ch.port ch.sub pn)

/-- MACSEC_LOST: a sub-port loses its secure channel (R357). -/
def State.macsecLost (s : State) (k n : Nat) : State := (s.modPort k (·.setSub n {})).macsecFell k (s.macsecUp k)

def execMacsecLost (ch : SubId) (s : State) : Answer := .next (s.macsecLost ch.port ch.sub)

/-! ### Tamper -/

/-- A rebinding ends with its partition FREE (R37). -/
def State.freePart (s : State) (p : Nat) : State :=
  let xs := NatMap.keysWhere s.ctxs fun x c => x != 0 && c.desc.part == p && c.state != .undefined
  let s := ((xs.foldl State.endCtxNow s).resetPartQps p).scrubPart p
  s.modPart p fun v => v.unbound v.status

/-- Every partition is braked, or its rebinding ends (R37, R360). -/
def State.tamperPart (s : State) (p : Nat) : State :=
  match (s.part p).state with
  | .draining | .scrubbing | .retiring | .loading => s.freePart p
  | _ => s.brake p

/-- The keys of Table 13.6 are destroyed, the engines confirming: a destroyed identifier's lines never pass their tags again. One that
does not confirm is KEY_DESTROY_TIMEOUT's. -/
def State.destroyKeys (s : State) : State :=
  let s := s.modMce fun x =>
    { (List.range 64).foldl (fun x k => x.setKeyId k { (x.keyId k).freed with gen := (x.keyId k).gen + 1 }) x with linkKeys := [] }
  let s := { s with copyJobs := [] }
  let s := s.endSessions fun _ => true
  let s := (List.range 254).foldl (fun s i => s.eraseKey (i + 2)) s
  let s := s.modSec fun x => { x with setups := [], peerSetups := [], charters := [], attKey := none, attGen := false, bootCert := [] }
  { s with ports := NatMap.mapVals {} (fun _ x => { x with subs := [] }) s.ports }

/-- TAMPER (R360): once latched, a further event only sets its own bit of MCE_TAMPER. -/
def State.tamper (s : State) (pin : Bool) : State :=
  let before := s.mce.tampered
  let s := s.modMce fun x => { x with tampered := true, pin := x.pin || pin, glitch := x.glitch || !pin }
  if before then s
  else
    let s := ((List.range 16).foldl State.tamperPart s).destroyKeys
    { s with granary := [] }.raise { code := 0x080B, loc := locSec 0xFF, severity := 1 }

def execTamper (pin : Bool) (s : State) : Answer := .next (s.tamper pin)

end Sys2Proof.Machine
end

