-- ==== Sys2Proof/Machine/Boot.lean ====
section
/-! DEFINITION. Resets, the boot, firmware, recovery and the life cycle (chapter 14). -/
namespace Sys2Proof.Machine
open Sys2Proof

/-! ### Resets (R363, Table 14.1) -/

/-- The security die after a reset: MRAM holds the identity key, its index words, the key slots of LIFE 0 that no charter owns, and the
public-key store. -/
def Security.afterReset (x : Security) : Security :=
  { identity := x.identity, wordA := x.wordA, wordB := x.wordB, pubKeys := x.pubKeys, windowShut := x.windowShut
    slots := x.slots.filter fun e => e.2.life == 0 && e.2.owner != 2 }

/-- A reset: what Table 14.1 names stays, and so do the pins and the links' frame counters (R358); destroyed identifiers' lines never pass
their tags again. -/
def State.deviceReset (s : State) : State :=
  { pending := s.pending, out := s.out, draws := s.draws
    hbm := s.hbm, pond := s.pond
    mill := { brakeLow := s.mill.brakeLow }
    sec := s.sec.afterReset
    mce := { keyIds := NatMap.mapVals {} (fun _ k => { gen := k.gen + 1 }) s.mce.keyIds, linkFrames := s.mce.linkFrames }
    life := { otp := s.life.otp, bootCount := s.life.bootCount, powerGood := s.life.powerGood }
    pwr := { ref100Lost := s.pwr.ref100Lost, ref156Lost := s.pwr.ref156Lost } }

/-- PWR_GOOD_LOW: the device is held in reset (R440, R441); power goes, and with it the links' frame counters (R358). -/
def execPwrGoodLow (s : State) : Answer :=
  .next (let s := s.deviceReset; (s.modLife fun l => { l with powerGood := false }).modMce fun x => { x with linkFrames := [] })

/-- PWR_GOOD_RISE: a cause of reset (R363); the boot starts with BOOT_START. -/
def execPwrGoodRise (s : State) : Answer :=
  .next (if s.life.powerGood then s else s.deviceReset.modLife fun l => { l with powerGood := true })

/-- RESET_N_LOW (R363). -/
def execResetNLow (s : State) : Answer := .next s.deviceReset

/-! ### Erasure and transitions (R376 to R379) -/

/-- Erasure for target `n` (R379). -/
def State.erase (s : State) (n : Nat) : State :=
  let s := (List.range 256).foldl State.eraseKey s
  let s := s.modSec fun x => { x with pubKeys := [], windowShut := false }
  let s := s.destroyKeys
  if n = 5 then
    (s.modSec fun x => { x with identity := none, wordA := 0, wordB := 0 }).modLife fun l => { l with bootCount := 0 }
  else s

/-- Steps 2 to 4 of R376. -/
def State.advance (s : State) (n : Nat) : State :=
  (s.erase n).modLife fun l =>
    { l with otp := { l.otp with counter := l.otp.counter.burn (maskOf ((List.range n).map (· + 1))), done := l.otp.done.burn (2 ^ n) } }

/-- The pair that is pending: INTENT burned and DONE not (R377). -/
def Otp.pendingPair (o : Otp) : Option Nat := (List.range 6).find? fun n => bit o.intent.value n && !bit o.done.value n

/-- At power-up the lower of two valid index words that differ is rewritten to the higher (R308). -/
def Security.repairWords (x : Security) : Security :=
  match idWordValue x.wordA, idWordValue x.wordB with
  | some a, some b => { x with wordA := idWord (max a b), wordB := idWord (max a b) }
  | _, _ => x

/-- BOOT_START: the ROM starts at the rise of RESET_N (Table 14.2, R378); in SCRAP it loads no image (R372). -/
def State.bootStart (s : State) : State :=
  if s.life.phase = .held ∧ s.life.powerGood ∧ !s.mce.tampered then
    let s := match s.life.otp.pendingPair with
      | some n => (s.advance n).modLife fun l => { l with resumed := true }
      | none => s
    let s := s.modSec Security.repairWords
    let stop := s.lcState = 5
    s.modLife fun l => { l with phase := if stop then .stopped else .rom, bootCount := (l.bootCount + 1) % 2 ^ 32 }
  else s

def execBootStart (s : State) : Answer := .next s.bootStart

/-! ### Firmware (R365 to R367) -/

/-- Section `i` of a firmware body (Table 14.3). -/
structure FwSection where
  target : Nat
  load : Nat
  off : Nat
  len : Nat
  reservedZero : Bool
  deriving DecidableEq, Repr

def fwSectionOf (b : List Byte) : FwSection :=
  { target := field b 0 1, load := field b 4 4, off := field b 8 8, len := field b 16 8
    reservedZero := allZero (slice b 1 3) && allZero (slice b 24 8) }

/-- Each section begins above the one before it, and fits the body and its target. -/
def fwSectionsOk (bodyLen : Nat) : (from_ : Nat) → List FwSection → Bool
  | _, [] => true
  | a, e :: t =>
    decide (1 ≤ e.target) && decide (e.target ≤ 5) && e.reservedZero && decide (a ≤ e.off) && decide (0 < e.len)
    && decide (e.off + e.len ≤ bodyLen) && decide (e.load + e.len ≤ Config.firmwareRoom e.target) && fwSectionsOk bodyLen (e.off + e.len) t

/-- Check 5 of Table 14.4. -/
def fwBodyOk (b : List Byte) : Bool :=
  let n := field b 8 2
  field b 0 4 == 0x4E465731 && field b 4 2 == 1 && decide (field b 6 1 ≤ 63) && decide (field b 7 1 < 32)
  && decide (1 ≤ n) && decide (n ≤ 32) && allZero (slice b 0xA 2) && allZero (slice b 0x10 16) && allZero (slice b 0x64 28)
  && decide (0x80 + 32 * n ≤ b.length)
  && fwSectionsOk b.length (0x80 + 32 * n) ((records 32 n (b.drop 0x80)).map fwSectionOf)

/-- Check 4: the vendor key whose signature verifies (R366). -/
def State.vendorOf (s : State) (l : Lenhar) : Option Nat :=
  let pk := slice l.body 0x20 68
  (List.range 4).find? fun k =>
    !bit s.life.otp.revoked.value k && shake32 pk == Config.vendorKeyDigest k
    && l.sigs.any fun e => e.alg == 3 && e.keyId == Config.vendorKeyDigest k && e.verifies pk l.signed

/-- The checks of Table 14.4 on what a source delivers: the reason, 0 where it passes, with the container and its vendor key. -/
def State.fwCheck (s : State) (image : Option (List Byte)) : Nat × Option (Lenhar × Nat) :=
  match image with
  | none => (1, none)
  | some bs =>
    if bs.isEmpty ∨ field bs 0 4 = 0xFFFFFFFF then (1, none)
    else match lenhar bs with
      | none => (2, none)
      | some l =>
        if l.kind ≠ 1 ∨ 67108864 < field bs 8 8 then (2, none)
        else if !l.digestOk then (3, none)
        else match s.vendorOf l with
          | none => (4, none)
          | some k =>
            if !fwBodyOk l.body then (2, none)
            else if field l.body 6 1 < s.life.otp.floor then (5, none)
            else if !bit (field l.body 7 1) s.lcState ∨ Config.romVersion < field l.body 0xC 4 then (6, none)
            else (0, some (l, k))

/-- The image that a source delivers to the ROM, in the phase in which the ROM reads that source: the flash first, the network in
recovery once a container is complete. After a tamper event the boot goes no further (R364). -/
def State.imageOf (s : State) (src : ImageSrc) : Option (Option (List Byte)) :=
  if s.mce.tampered then none else match src with
  | .flash image => if s.life.phase = .rom then some image else none
  | .network => if s.life.phase = .recovery ∧ 0 < s.life.total ∧ s.life.recvBytes.length = s.life.total then some (some s.life.recvBytes) else none

/-- The sections of a firmware body. -/
def fwSections (b : List Byte) : List FwSection := (records 32 (field b 8 2) (b.drop 0x80)).map fwSectionOf

/-- The ROM writes each section into its target, which it holds in reset (R367). -/
def Life.loadTargets (l : Life) (b : List Byte) : Life :=
  { l with
    released := []
    targets := (fwSections b).foldl (fun m e => NatMap.set [] m e.target (NatMap.get [] m e.target ++ [(e.load, slice b e.off e.len)])) [] }

/-- The targets leave reset in the order security die, control die (its supervisor cores, the Governor and the context scheduler), I/O dies
(R367); training data has no reset to leave. -/
def Life.releaseTargets (l : Life) : Life := { l with released := [1, 2, 3, 4] }

/-- A failure: every target is zeroed before the next source is tried (R367). -/
def Life.zeroTargets (l : Life) : Life := { l with targets := [], released := [] }

/-- The loaded targets are released (R367, Table 14.2): mill time starts at 0, the attestation key is being generated, the package links
are up, identifiers 0 and 1 are assigned, and the faults that the ROM found are raised (R380). -/
def State.releaseFirmware (s : State) (src : ImageSrc) (l : Lenhar) (k : Nat) : State :=
  let net := src = .network
  let s := s.modLife fun v =>
    { (v.loadTargets l.body).releaseTargets with
      phase := .running, source := if net then 1 else 0, fwDigest := l.digest, vendorKey := k, fwSvn := field l.body 6 1
      recvBytes := [], total := 0, server := none, sinceReq := 0, lastReq := none }
  let s := s.modMill fun m => { m with now := 0 }
  let s := (s.genAttKey.linksStart.assignKey 0 0).assignKey 0 1
  let s := if net then s.raise (secFault 0x0901 3) else s
  let s := if s.life.resumed then s.raise (secFault 0x0903 3) else s
  if s.life.attempts ≠ 0 then s.raise (secFault 0x0904 3) else s

/-- FIRMWARE_ACCEPTED. -/
def State.firmwareAccepted (s : State) (src : ImageSrc) : State :=
  match s.imageOf src with
  | none => s
  | some image =>
    match s.fwCheck image with
    | (0, some (l, k)) => s.releaseFirmware src l k
    | _ => s

def execFirmwareAccepted (src : ImageSrc) (s : State) : Answer := .next (s.firmwareAccepted src)

/-- FIRMWARE_REJECTED: the flash's rejection starts recovery (R369); a network image's counts and recovery goes on (R371). -/
def State.firmwareRejected (s : State) (src : ImageSrc) : State :=
  match s.imageOf src with
  | none => s
  | some image =>
    let r := (s.fwCheck image).1
    if r = 0 then s
    else match src with
      | .flash _ => s.modLife fun l => { l.zeroTargets with phase := .recovery, flashReason := r, reason := r }
      | .network => s.modLife fun l =>
          { l.zeroTargets with reason := r, attempts := min (l.attempts + 1) 255, recvBytes := [], total := 0, server := none, sinceReq := 0 }

def execFirmwareRejected (src : ImageSrc) (s : State) : Answer := .next (s.firmwareRejected src)

/-- MEMORY_TRAINED: usable Pond is 7/8 of what is installed (Table 09.10). -/
def execMemoryTrained (pondGib : Nat) (s : State) : Answer :=
  .next (if s.life.phase = .running ∧ !s.mce.tampered then
      (s.modLife fun l => { l with hbmTrained := true, pondTrained := true }).modMem fun m =>
        { m with installed := pondGib, extents := pondGib * 4 * 7 / 8 }
    else s)

/-- BOOT_READY: the attestation key is there, and the first boot certificate is signed where an identity key is (R364). -/
def execBootReady (s : State) : Answer :=
  .next (if s.life.phase = .running ∧ !s.mce.tampered ∧ s.life.hbmTrained ∧ s.life.pondTrained ∧ s.sec.attKey.isSome then
      s.modLife fun l => { l with ready := true }
    else s)

/-! ### Network recovery (R370, R371) -/

def Life.received (l : Life) : Nat := l.recvBytes.length

/-- The timer of R371 has come. -/
def State.reqDue (s : State) : Bool :=
  let l := s.life
  l.phase == .recovery && !s.mce.tampered
  && if l.received = 0 then (match l.lastReq with | none => true | some t => decide (t + 1000000000 ≤ s.now))
     else (l.total == 0 || decide (l.received < l.total)) && (decide (64 ≤ l.sinceReq) || (decide (0 < l.sinceReq) && decide (l.lastData + 10000000 ≤ s.now)))

/-- REQ (Table 14.5). -/
def State.reqBytes (s : State) : List Byte :=
  let l := s.life
  beBytes 4 0x4E524551 ++ beBytes 4 Config.romVersion ++ beBytes 1 s.lcState ++ beBytes 1 l.reason ++ beBytes 2 0
  ++ beBytes 4 l.bootCount ++ beBytes 8 l.received ++ padTo 32 s.sec.deviceId

/-- The IPv6 link-local address of a MAC address, as EUI-64 (R370). -/
def linkLocal (mac : Nat) : Nat :=
  0xFE80 * 2 ^ 112 + (mac / 2 ^ 24 % 2 ^ 24 ^^^ 0x020000) * 2 ^ 40 + 0xFFFE * 2 ^ 24 + mac % 2 ^ 24

/-- A REQ goes from the management port's link-local address to ff02::1, UDP port 48,211 (R370). -/
def State.recoveryMsg (s : State) : OutMsg := .recoveryReq (linkLocal Config.managementMac) (0xFF02 * 2 ^ 112 + 1) 48211 s.reqBytes

def execRecoveryReq (s : State) : Answer :=
  .next (if s.reqDue then (s.send s.recoveryMsg).modLife fun l => { l with sinceReq := 0, lastReq := some s.now } else s)

/-- A big-endian field. -/
def fieldBe (b : List Byte) (off n : Nat) : Nat := field (slice b off n).reverse 0 n

/-- A DATA packet is accepted (R371, Table 14.5). -/
def Life.accepts (l : Life) (server : Nat) (b : List Byte) : Bool :=
  let off := fieldBe b 8 8
  let total := fieldBe b 0x10 8
  let len := fieldBe b 0x18 2
  fieldBe b 0 4 == 0x4E524454 && fieldBe b 4 4 == 0 && allZero (slice b 0x1A 6) && b.length == 0x20 + len
  && decide (1 ≤ total) && decide (total ≤ 67108864) && decide (1 ≤ len) && decide (off + len ≤ total)
  && (len == 8192 || (decide (len < 8192) && off + len == total))
  && off == l.received && (l.total == 0 || l.total == total) && (l.server.all (· == server))

/-- DATA: accepted in order, or discarded; a complete container awaits its check (FIRMWARE_ACCEPTED, FIRMWARE_REJECTED). -/
def execRecoveryData (server : Nat) (bytes : List Byte) (s : State) : Answer :=
  .next (if s.life.phase = .recovery ∧ !s.mce.tampered ∧ s.life.accepts server bytes then
      s.modLife fun l =>
        { l with
          recvBytes := l.recvBytes ++ bytes.drop 0x20, total := fieldBe bytes 0x10 8, server := some server
          sinceReq := l.sinceReq + 1, lastData := s.now }
    else s)

/-- RECOVERY_SOURCE_TIMEOUT: 1 s with nothing accepted returns NEXT to 0. -/
def execRecoverySourceTimeout (s : State) : Answer :=
  .next (if s.life.phase = .recovery ∧ !s.mce.tampered ∧ 0 < s.life.received ∧ s.life.received < s.life.total ∧ s.life.lastData + 1000000000 ≤ s.now then
      s.modLife fun l => { l with recvBytes := [], total := 0, server := none, sinceReq := 0 }
    else s)

/-! ### LC_CMD (R368, R375, R376, R381) -/

/-- LC_TOKEN0 to 3 as 32 bytes. -/
def Life.token (l : Life) : List Byte :=
  leBytes 8 l.token0.toNat ++ leBytes 8 l.token1.toNat ++ leBytes 8 l.token2.toNat ++ leBytes 8 l.token3.toNat

/-- LC_TOKEN0 to 3 are zeroed after every LC command. -/
def Life.clearToken (l : Life) : Life := { l with token0 := 0, token1 := 0, token2 := 0, token3 := 0 }

def State.lcStatus (s : State) (st : Nat) : State := s.modLife fun l => { l with cmdStatus := st }

/-- An LC_CMD by a requester that reaches the register: BUSY while another runs; the token is zeroed after it. -/
def State.lcCmd (s : State) (rq : Req) (f : State → State) : State :=
  if s.mayP rq 0xC0008 then (if s.life.busy then s.lcStatus 1 else f s).modLife Life.clearToken else s

/-- The token digest of a target in a state; none where Table 14.6 does not list it or it is not fused (R376). -/
def State.targetDigest (s : State) (st n : Nat) : Option (List Byte) :=
  let fused := s.life.otp.digest
  match st, n with
  | 0, 1 | 0, 5 => some Config.romTokenDigest
  | 1, 2 | 1, 5 => fused 2
  | 2, 3 => fused 3
  | 2, 5 | 3, 5 | 4, 5 => fused 5
  | 3, 4 => fused 4
  | _, _ => none

/-- MISSION asks for the identity key and for the digests that lead out of it. -/
def State.missionReady (s : State) (n : Nat) : Bool :=
  n != 3 || (s.sec.identity.isSome && (s.life.otp.digest 4).isSome && (s.life.otp.digest 5).isSome)

/-- LC_CMD TRANSITION (R376), up to its reset. -/
def State.transition (s : State) : State :=
  let l := s.life
  let n := l.arg
  if 8 ≤ l.tokenFails then s.lcStatus 0x14
  else match s.targetDigest s.lcState n with
    | none => s.lcStatus 2
    | some d =>
      if !s.missionReady n || s.parts.any (fun e => e.2.state != .free) then s.lcStatus 2
      else if shake32 l.token ≠ d then
        ((s.lcStatus 0x13).modLife fun l => { l with tokenFails := l.tokenFails + 1 }).raise (secFault 0x0902 3)
      else ((s.modLife fun l => { l with otp := { l.otp with intent := l.otp.intent.burn (2 ^ n) } }).advance n).modLife fun l => { l with resetPending := true }

/-- The reset that a transition or LC_CMD RESET asked for: it comes once the response to the write has gone (R381). -/
def State.takeReset (s : State) : State := if s.life.resetPending then s.deviceReset else s

def execTransition (rq : Req) (s : State) : Answer := .next (s.lcCmd rq State.transition).takeReset

/-- Fuses burn until the floor is `v`. -/
def Otp.raiseTo (o : Otp) (v : Nat) : Otp :=
  { o with svn := (List.range 64).foldl (fun f i =>
      if (bitsOf 64 f.value).length < v ∧ !bit f.value i then f.burn (2 ^ i) else f) o.svn }

def State.raiseSvn (s : State) : State :=
  let v := s.life.arg
  if s.life.fwSvn < v ∨ 64 < v then s.lcStatus 4
  else (s.lcStatus 0).modLife fun l => { l with otp := l.otp.raiseTo v }

def execRaiseSvn (rq : Req) (s : State) : Answer := .next (s.lcCmd rq State.raiseSvn)

/-- REVOKE_KEY (R368). DEDUCED: an index above 3 is 0x04 FORMAT. -/
def State.revokeKey (s : State) : State :=
  let k := s.life.arg
  let r := s.life.otp.revoked.burn (2 ^ k)
  if 3 < k then s.lcStatus 4
  else if k = s.life.vendorKey ∨ r.value = 15 then s.lcStatus 2
  else (s.lcStatus 0).modLife fun l => { l with otp := { l.otp with revoked := r } }

def execRevokeKey (rq : Req) (s : State) : Answer := .next (s.lcCmd rq State.revokeKey)

/-- GEN_IDENTITY (R375): only in PROVISIONED, once. DEDUCED: 0x04 where the object cannot take the public key. -/
def State.genIdentity (s : State) : State :=
  if s.lcState ≠ 2 ∨ s.sec.identity.isSome then s.lcStatus 2
  else match s.checkObj 0 s.sec.obj 0 68 .hbmWrite with
    | .error _ => s.lcStatus 4
    | .ok _ => s.modLife fun l => { l with busy := true, genObj := some s.sec.obj }

def execGenIdentity (rq : Req) (s : State) : Answer := .next (s.lcCmd rq State.genIdentity)

/-- IDENTITY_GENERATED: the key, its index words and its public key. -/
def State.identityGenerated (s : State) : State :=
  match s.life.genObj with
  | none => s
  | some h =>
    let d := s.draws
    let s := s.draw.modSec fun x => { x with identity := some d, wordA := idWord 0, wordB := idWord 0, idDisabled := false }
    let s := s.modLife fun l => { l with busy := false, genObj := none, cmdStatus := 0 }
    match s.checkObj 0 h 0 68 .hbmWrite with
    | .error _ => s.lcStatus 4
    | .ok o =>
      let r := s.writeObj 0 o 0 (padTo 68 s.sec.identityPk)
      match r.1 with
      | none => r.2
      | some f => (r.2.lcStatus 4).raise { code := f.1, loc := locSec 0xFF, severity := 0, ctx := 0, addr := some f.2 }

def execIdentityGenerated (s : State) : Answer := .next s.identityGenerated

/-- FUSE_DIGEST (R375): each digest once. -/
def State.fuseDigest (s : State) : State :=
  let n := s.life.arg
  let st := s.lcState
  if ((st = 1 ∧ n = 2) ∨ (st = 2 ∧ (n = 3 ∨ n = 4 ∨ n = 5))) ∧ (s.life.otp.digest n).isNone then
    (s.lcStatus 0).modLife fun l => { l with otp := { l.otp with digests := NatMap.set ([], []) l.otp.digests n (l.token, l.token) } }
  else s.lcStatus 2

def execFuseDigest (rq : Req) (s : State) : Answer := .next (s.lcCmd rq State.fuseDigest)

/-- LC_CMD RESET is taken up: it takes effect once the response to its write has gone (R381). -/
def State.lcReset (s : State) (rq : Req) : State :=
  if s.mayP rq 0xC0008 then s.modLife fun l => { l.clearToken with resetPending := true } else s

def execLcReset (rq : Req) (s : State) : Answer := .next (s.lcReset rq).takeReset

end Sys2Proof.Machine
end

