-- ==== Sys2Proof/Machine/CollOps.lean ====
section
/-! DEFINITION. The collective engine's operations (R240 to R260): who exchanges what, chunks, digests, block exponents, sends, and
local completion. -/
namespace Sys2Proof.Machine
open Sys2Proof

/-! ### Members and places -/

/-- The other positions of this device's domain, and the other member domains at its position. -/
def Weir.domainPeers (w : Weir) : List (Nat × Nat) :=
  ((List.range w.tbl.domainSize).filter (· != w.tbl.position)).map fun q => (w.tbl.replica, q)
def Weir.twinPeers (w : Weir) : List (Nat × Nat) :=
  ((bitsOf 64 w.members).filter (· != w.tbl.replica)).map fun r => (r, w.tbl.position)

/-- Members whose level 1 and level 2 chunks an owner adds (R242). -/
def CollDesc.peers1 (d : CollDesc) (w : Weir) : List (Nat × Nat) := if d.scope = 1 then [] else w.domainPeers
def CollDesc.peers2 (d : CollDesc) (w : Weir) : List (Nat × Nat) := if d.scope = 0 then [] else w.twinPeers
/-- Members that an ALL_REDUCE returns its final piece to, and has theirs from (R240). DEDUCED: under SCOPE 2 those of its own domain,
whose owners hold every piece (R246). -/
def CollDesc.peers3 (d : CollDesc) (w : Weir) : List (Nat × Nat) := if d.scope = 1 then w.twinPeers else w.domainPeers
/-- The members of a gather or broadcast beside this device. DEDUCED: under SCOPE 1 pieces and the root are numbered by domain. -/
def CollDesc.peers0 (d : CollDesc) (w : Weir) : List (Nat × Nat) := if d.scope = 1 then w.twinPeers else w.domainPeers
def CollDesc.pieceOf (d : CollDesc) (m : Nat × Nat) : Nat := if d.scope = 1 then m.1 else m.2
/-- The twin in mirror mode, and the device whose twin this one is (R270). -/
def Weir.mirrorTo (w : Weir) : Nat × Nat := (w.tbl.replica, (w.tbl.position + 1) % max w.tbl.domainSize 1)
def Weir.mirrorFrom (w : Weir) : Nat × Nat :=
  (w.tbl.replica, (w.tbl.position + w.tbl.domainSize - 1) % max w.tbl.domainSize 1)
def Weir.me (w : Weir) : Nat × Nat := (w.tbl.replica, w.tbl.position)

/-- Read a range of SRC or DST: the Granary space of DIE where the handle is 0, else an object of the home context. -/
def State.collRead (s : State) (p die h off len : Nat) : Except SegFault (List Byte) × State :=
  if h = 0 then (.ok (readGran s.granary ((s.part p).map.slices die) off len), s)
  else match s.home p with
    | none => (.error (0x0501, none), s)
    | some x =>
      match s.checkObj x h off len .rdmaRead with
      | .error e => (.error (e, none), s)
      | .ok o =>
        let r := s.readObj x o off len
        (match r.2.1 with | some (cd, a) => .error (cd, some a) | none => .ok r.1, r.2.2)

def State.collWrite (s : State) (p die h off : Nat) (bs : List Byte) : Option SegFault × State :=
  if h = 0 then (none, { s with granary := writeGran s.granary ((s.part p).map.slices die) off bs })
  else match s.home p with
    | none => (some (0x0501, none), s)
    | some x =>
      match s.checkObj x h off bs.length .hbmWrite with
      | .error e => (some (e, none), s)
      | .ok o => match s.writeObj x o off bs with
        | (some (cd, a), s) => (some (cd, some a), s)
        | (none, s) => (none, s)

/-- The collective cannot complete locally; a fault tells why, and a domain may be to blame. -/
def State.collFail (s : State) (p c code : Nat) (blame : Nat := 0xFF) (addr : Option Nat := none) (hop : Bool := false) : State :=
  let die := ((s.collDesc p c).map (·.die)).getD 0xFF
  (s.modColl p c fun r => { r with failed := true, blame := blame }).raise
    { code := code, loc := { locWeir p with die := die }, severity := 0, addr := addr, hop := hop }

/-! ### Digests (R254, R255) -/

/-- The assay seed: from the session secret of the bound charter, else the seed of R120 (R254, R333). -/
def State.assaySeed (s : State) (p : Nat) : List Byte :=
  match s.boundCharter p with
  | some c => match (s.sec.charter c).secret with
    | some x => shake32 (ascii "NAS1" ++ x)
    | none => []
  | none => (s.part p).seed

/-- The assay point of a collective at a step. -/
def State.assayPoint (s : State) (p c : Nat) : Nat :=
  let v := ofLe (shake 8 (ascii "NAD1" ++ padTo 32 (s.assaySeed p) ++ leBytes 8 (s.part p).gov.step.toNat ++ leBytes 2 c)) % digestPrime
  if v < 2 then v + 2 else v

/-- The terms of a block: k × m_i mod p, 0 for zero and infinite blocks. -/
def digestTerms (k : Int) (b : TinBlock) : List Nat :=
  if b.e = 0 ∨ b.e = 0xFF then List.replicate 32 0 else b.m.map fun m => (k * m % (digestPrime : Int)).toNat

def tinFactor (k : TinKind) : Int := if k = .tin16 then 256 else 1

/-- D over blocks. -/
def blocksDigest (k : TinKind) (r : Nat) (bs : List TinBlock) : Nat := digestPoly r (bs.map (digestTerms (tinFactor k))).flatten

/-- r to a power, mod p. -/
def powMod (r : Nat) : Nat → Nat
  | 0 => 1
  | n + 1 => powMod r n * r % digestPrime

/-- What block `b` of a range contributes to D. -/
def blockDigest (k : TinKind) (r b : Nat) (t : TinBlock) : Nat :=
  digestPoly r (digestTerms (tinFactor k) t) * powMod r (32 * b) % digestPrime

/-! ### Wire blocks and exponents (R244, R249, R250) -/

/-- A block that a wire format cannot hold becomes infinite. -/
def wireClamp (k : TinKind) (b : TinBlock) : TinBlock :=
  if b.e = 0 ∨ b.e = 0xFF then b
  else
    let lim : Int := if k = .tin16 then 256 * (2 ^ 15 - 1) else 2 ^ 23 - 1
    if b.m.any fun v => decide (lim < v) || decide (v < -lim) then tinInf 32 else b

def toWire (k : TinKind) (b : TinBlock) : TinBlock :=
  let c := wireClamp k b
  if k = .tin16 then { c with m := c.m.map (· / 256) } else c

def bitLen (n : Nat) : Nat := if n = 0 then 0 else n.log2 + 1

/-- AEXP of a wire block (R249). -/
def aexpOf (k : TinKind) (b : TinBlock) : Nat :=
  if b.e = 0xFF then 0xFF
  else
    let m := b.m.foldl (fun a v => max a (tinFactor k * v).natAbs) 0
    if b.e = 0 ∨ m = 0 then 0 else min 254 (max 1 (bitLen m + b.e - 23))

/-- The larger of two AEXP bytes, 0xFF counting as none. -/
def aexpMax (a b : Nat) : Nat := if b = 0xFF then a else if a = 0xFF then b else max a b

/-- E_n (R250). -/
def nextExp (e h a : Nat) (inf : Bool) : Nat :=
  if inf then min 254 (e + h + 1) else if a = 0 then e else min 254 (a + h)

/-! ### Chunks (R243, R258) -/

structure ChunkHead where
  coll : Nat
  kind : Nat
  level : Nat
  rep : Nat
  pos : Nat
  blocks : Nat
  step : Nat
  first : Nat
  digest : Nat
  deriving DecidableEq, Repr

def chunkHead (b : List Byte) : ChunkHead :=
  { coll := field b 0 2, kind := field b 2 1, level := field b 3 1, rep := field b 4 1, pos := field b 5 1, blocks := field b 6 2
    step := field b 8 8, first := field b 16 8, digest := field b 24 8 }

def ChunkHead.bytes (h : ChunkHead) : List Byte :=
  leBytes 2 h.coll ++ leBytes 1 h.kind ++ leBytes 1 h.level ++ leBytes 1 h.rep ++ leBytes 1 h.pos ++ leBytes 2 h.blocks
  ++ leBytes 8 h.step ++ leBytes 8 h.first ++ leBytes 8 h.digest

def ChunkHead.key (h : ChunkHead) : Nat × Nat × Nat × Nat := (h.level, h.rep, h.pos, h.first)

/-- The wire kind of a level: FMT at level 1, Tin24 above. -/
def CollDesc.wire (d : CollDesc) (level : Nat) : TinKind := if level = 1 ∧ d.fmt = 1 then .tin16 else .tin24
/-- Blocks of a full chunk, and bytes of a packed block. -/
def chunkBlocks (k : TinKind) : Nat := if k = .tin16 then 120 else 81
def wireBytes (k : TinKind) : Nat := if k = .tin16 then 68 else 100
def CollDesc.nblocks (d : CollDesc) : Nat := d.piece / 256

/-- The FIRST values of a piece's chunks. -/
def CollDesc.firsts (d : CollDesc) (level : Nat) : List Nat :=
  let n := chunkBlocks (d.wire level)
  (List.range ((d.nblocks + n - 1) / n)).map (n * ·)

/-- The payload of a reduction chunk. -/
def reductionChunk (h : ChunkHead) (k : TinKind) (r : Nat) (bs : List TinBlock) (aexp : List Nat) : List Byte :=
  ({ h with blocks := bs.length, digest := blocksDigest k r bs } : ChunkHead).bytes
  ++ padTo ((bs.length + 3) / 4 * 4) (aexp.map (BitVec.ofNat 8 ·)) ++ (bs.map (tinPack k)).flatten

/-- The AEXP bytes and blocks of a reduction chunk. -/
def chunkBody (k : TinKind) (h : ChunkHead) (b : List Byte) : List Nat × List TinBlock :=
  let at_ := 32 + (h.blocks + 3) / 4 * 4
  ((slice b 32 h.blocks).map (·.toNat), (List.range h.blocks).map fun i => tinUnpack k (slice b (at_ + wireBytes k * i) (wireBytes k)))

/-- A reduction chunk has the shape its descriptor gives it. -/
def chunkShapeOk (d : CollDesc) (h : ChunkHead) (b : List Byte) : Bool :=
  let k := d.wire h.level
  let n := chunkBlocks k
  h.first % n == 0 && decide (h.first < d.nblocks) && h.blocks == min n (d.nblocks - h.first)
  && b.length == 32 + (h.blocks + 3) / 4 * 4 + wireBytes k * h.blocks

/-! ### Sending (R282) -/

/-- A collective's traffic may go out: a window of it is open with a share of some port (R52, R241), or its DIGEST_COMPARE runs. -/
def State.maySend (s : State) (p c : Nat) : Bool :=
  let g := (s.part p).gov
  s.collWindow p c == .isOpen && g.runs.any fun e => match g.tt.entries[e.1 % 4096]? with
    | some t => t.collId == some c && (if t.kind = 2 then e.2.windowOpen && !e.2.grants.isEmpty else e.2.status == .running)
    | none => false

/-- A chunk goes out on a session that has credit while its collective may send; else it waits for both (R52, R282). -/
def State.offer (s : State) (n p : Nat) (payload : List Byte) : State :=
  let e := s.sec.session n
  if e.credits = 0 ∨ !s.maySend p (chunkHead payload).coll then
    s.modSec fun x => x.setSession n { e with waiting := e.waiting ++ [payload] }
  else (s.modSec fun x => x.setSession n { e with credits := e.credits - 1 }).sendOn n (.chunk payload)

/-- A chunk goes to a member. -/
def State.sendChunk (s : State) (p c : Nat) (dest : Nat × Nat) (payload : List Byte) : State :=
  match s.memberSession p dest.1 dest.2 with
  | none => s
  | some n => (s.modColl p c fun r => { r with sent := r.sent ++ [(n, payload)] }).offer n p payload

/-- The chunks that wait on a session go while they may, each only for the run it was made for and while a window of it is open or to
come (R52, R241, R282). -/
def State.releaseWaiting (s : State) (n p : Nat) : State :=
  let l := (s.sec.session n).waiting
  l.foldl (fun s b =>
    let h := chunkHead b
    if s.collWindow p h.coll = .closed ∨ (s.coll p h.coll).step.toNat ≠ h.step then s else s.offer n p b)
    (s.modSec fun x => x.setSession n { x.session n with waiting := [] })

/-- The waiting chunks of a partition go while they may. -/
def State.releaseSessions (s : State) (p : Nat) : State :=
  (s.sec.sessions.filter fun e => e.2.role == 4 && e.2.part == p).foldl (fun s e => s.releaseWaiting e.1 p) s

/-- This device's header fields for a chunk of a collective. -/
def State.myHead (s : State) (p c kind level first : Nat) : ChunkHead :=
  let w := s.weir p
  { coll := c, kind := kind, level := level, rep := w.tbl.replica, pos := w.tbl.position, blocks := 0
    step := (s.part p).gov.step.toNat, first := first, digest := 0 }

/-- Send blocks of a piece, chunk by chunk; `aexp` gives the byte of each block. -/
def State.sendBlocks (s : State) (p c : Nat) (d : CollDesc) (level : Nat) (dest : Nat × Nat) (bs : List TinBlock) (aexp : Nat → Nat) : State :=
  let k := d.wire level
  let r := s.assayPoint p c
  (d.firsts level).foldl (fun s f =>
    let part := (bs.drop f).take (chunkBlocks k)
    s.sendChunk p c dest (reductionChunk (s.myHead p c d.kind level f) k r part ((List.range part.length).map fun i => aexp (f + i)))) s

/-- Send a stream of bytes as data chunks of at most 8,192 bytes (R258). -/
def State.sendData (s : State) (p c kind : Nat) (dest : Nat × Nat) (bs : List Byte) : State :=
  (List.range ((bs.length + 8191) / 8192)).foldl (fun s i =>
    s.sendChunk p c dest ((s.myHead p c kind 0 (8192 * i)).bytes ++ slice bs (8192 * i) 8192)) s

/-- The payload of COLL_NACK and COLL_ACK. DESIGN CHOICE: the fields that R282 names, in this order, little-endian. -/
def nackBytes (h : ChunkHead) : List Byte :=
  leBytes 2 h.coll ++ leBytes 1 h.level ++ leBytes 1 h.rep ++ leBytes 1 h.pos ++ leBytes 3 0 ++ leBytes 8 h.first ++ leBytes 8 h.step
def ackBytes (coll first step : Nat) : List Byte := leBytes 2 coll ++ leBytes 6 0 ++ leBytes 8 first ++ leBytes 8 step

/-- The domain whose chunks a started collective still lacks (R267): it is blamed if the window misses. -/
def State.missing (s : State) (p c : Nat) (d : CollDesc) : Nat :=
  let w := s.weir p
  let r := w.coll c
  let lacks := fun (level : Nat) (m : Nat × Nat) => (d.firsts level).any fun f => !r.received.contains (level, m.1, m.2, f)
  let l := match d.kind with
    | 1 | 2 =>
      if !r.level1Done then (d.peers1 w).filter (lacks 1)
      else if !r.final then (d.peers2 w).filter (lacks 2)
      else if d.kind = 2 then (d.peers3 w).filter (lacks 3) else []
    | 3 | 4 | 7 => (d.peers0 w).filter fun m => !r.got.contains (64 * m.1 + m.2)
    | 5 => (d.peers0 w).filter fun m => d.pieceOf m == d.rootPos && !r.got.contains (64 * m.1 + m.2)
    | _ => []
  ((l.head?).map (·.1)).getD 0xFF

def State.setBlame (s : State) (p c : Nat) : State :=
  match s.collDesc p c with
  | none => s
  | some d => s.modColl p c fun r => if r.failed || r.complete || !r.started then r else { r with blame := s.missing p c d }

end Sys2Proof.Machine
end

