-- ==== Sys2Proof/Machine/Reduce.lean ====
section
/-! DEFINITION. Reductions (R242 to R257) and data collectives (R258 to R260, R271): what starting one does, and what each received
chunk does. -/
namespace Sys2Proof.Machine
open Sys2Proof

/-! ### The owner's piece -/

/-- Byte offset of piece `i` in SRC; under SCOPE 1 SRC holds one piece. -/
def CollDesc.pieceOff (d : CollDesc) (i : Nat) : Nat := if d.scope = 1 then d.srcOff else d.srcOff + i * d.piece

def blocksOf (bs : List Byte) : List TinBlock := (chunksOf 256 bs).map tin56Unpack
def blockBytes (l : List TinBlock) : List Byte := (l.map tin56Pack).flatten

/-- Read a piece of SRC as Tin56 blocks. -/
def State.readPiece (s : State) (p : Nat) (d : CollDesc) (i : Nat) : Except SegFault (List TinBlock) × State :=
  let r := s.collRead p d.die d.src (d.pieceOff i) d.piece
  (match r.1 with | .ok b => .ok (blocksOf b) | .error e => .error e, r.2)

/-- Write blocks of the own piece from block `f` on. -/
def State.writeOwn (s : State) (p : Nat) (d : CollDesc) (f : Nat) (l : List TinBlock) : Option SegFault × State :=
  s.collWrite p d.die d.src (d.pieceOff (s.weir p).tbl.position + 256 * f) (blockBytes l)

/-- The live exponent bytes of a position's piece (R251). -/
def State.liveExps (s : State) (p : Nat) (d : CollDesc) (i : Nat) : List Nat :=
  (readGran s.granary ((s.part p).map.slices d.die) (d.expOff + i * d.expLen) d.expLen).map (·.toNat)

/-- A failed access ends a collective. -/
def State.accessFail (s : State) (p c : Nat) (f : SegFault) : State := s.collFail p c f.1 0xFF f.2

/-! ### Ranges (R255, R257) -/

def rangeKey (level first : Nat) : Nat := 2 * first + (level - 1)

/-- The ranges of a level as the owner's own blocks `bs` begin them; `aexp` gives each block's AEXP so far. -/
def startRanges (d : CollDesc) (level r : Nat) (bs : List TinBlock) (aexp : Nat → Nat) (m : NatMap RangeRun) : NatMap RangeRun :=
  (d.firsts level).foldl (fun m f =>
    let part := (bs.drop f).take (chunkBlocks (d.wire level))
    NatMap.set {} m (rangeKey level f)
      { expect := blocksDigest .tin56 r part
        aexp := NatMap.setList 0 [] f ((List.range part.length).map fun i => aexpMax 0 (aexp (f + i)))
        terms := NatMap.setList 0 [] f (part.zipIdx.map fun t => blockDigest .tin56 r t.2 t.1) }) m

/-- The largest AEXP of a block at a level. -/
def CollRun.aexpAt (run : CollRun) (d : CollDesc) (level b : Nat) : Nat :=
  let n := chunkBlocks (d.wire level)
  NatMap.get 0 (NatMap.get {} run.ranges (rangeKey level (b / n * n))).aexp b

/-- A verified chunk is counted in its range. -/
def RangeRun.addChunk (g : RangeRun) (k : TinKind) (r : Nat) (h : ChunkHead) (bs : List TinBlock) (aexp : List Nat) : RangeRun :=
  { added := (h.level, h.rep, h.pos) :: g.added
    expect := (g.expect + h.digest) % digestPrime
    aexp := aexp.zipIdx.foldl (fun m a => NatMap.modify 0 m (h.first + a.2) (aexpMax · a.1)) g.aexp
    terms := bs.zipIdx.foldl (fun m t => NatMap.modify 0 m (h.first + t.2) fun x => (x + blockDigest k r t.2 t.1) % digestPrime) g.terms }

/-- The expected digest less the terms of blocks that are infinite in the sum (R255). -/
def RangeRun.expected (g : RangeRun) (f : Nat) (sum : List TinBlock) : Nat :=
  sum.zipIdx.foldl (fun a t => if t.1.e = 0xFF then (a + digestPrime - NatMap.get 0 g.terms (f + t.2)) % digestPrime else a) g.expect

/-! ### Final sums (R248 to R252) -/

/-- E_n for a position's blocks, given their A bytes and which are infinite (R250), kept for local completion (R251). `own` marks the
blocks this device owns, which alone raise 0x060A (R252). -/
def State.formExps (s : State) (p c : Nat) (d : CollDesc) (i first : Nat) (own : Bool) (blocks : List (Nat × Bool)) : State :=
  let live := s.liveExps p d i
  let es : List (Nat × Nat × Nat) := blocks.zipIdx.map fun b =>
    let e := live.getD (first + b.2) 0
    (i * d.expLen + first + b.2, nextExp e d.headroom b.1.1 b.1.2, flag (own && b.1.2 && e == 254))
  s.modColl p c fun r => { r with nextExps := r.nextExps ++ es }

/-- Bytes of one returned piece in DST (R248). -/
def CollDesc.returned (d : CollDesc) : Nat := d.nblocks * 100

/-- ALL_REDUCE is complete once DST holds every piece. -/
def State.checkReturned (s : State) (p c : Nat) (d : CollDesc) : State :=
  let r := s.coll p c
  if r.final && (d.peers3 (s.weir p)).all fun m => (d.firsts 3).all fun f => r.received.contains (3, m.1, m.2, f)
  then s.collComplete p c d else s

/-- The own piece holds the final sum: the next exponents are formed, and an ALL_REDUCE returns the piece (R240, R248). -/
def State.finalSum (s : State) (p c : Nat) (d : CollDesc) (sum : List TinBlock) (a : Nat → Nat) : State :=
  let w := s.weir p
  let s := s.modColl p c fun r => { r with final := true }
  let s := s.formExps p c d w.tbl.position 0 true (sum.zipIdx.map fun t => (a t.2, t.1.e == 0xFF))
  if d.kind = 1 then s.collComplete p c d
  else
    let out := sum.map ingestBlock
    match s.collWrite p d.die d.dst (d.dstOff + w.tbl.position * d.returned) (out.map (tinPack .tin24)).flatten with
    | (some f, s) => s.accessFail p c f
    | (none, s) => ((d.peers3 w).foldl (fun s m => s.sendBlocks p c d 3 m out a) s).checkReturned p c d

/-- Level 1 is complete: level 2 begins, where there is one (R242, R244, R249). -/
def State.endLevel1 (s : State) (p c : Nat) (d : CollDesc) (sum : List TinBlock) (a1 : Nat → Nat) : State :=
  let w := s.weir p
  let s := s.modColl p c fun r => { r with level1Done := true }
  if (d.peers2 w).isEmpty then
    s.finalSum p c d sum fun b => aexpMax (a1 b) (aexpOf .tin24 (toWire .tin24 (sum.getD b (tinZero 32))))
  else
    let sum := sum.map (wireClamp .tin24)
    match s.writeOwn p d 0 sum with
    | (some f, s) => s.accessFail p c f
    | (none, s) =>
      let mine := fun b => aexpMax (a1 b) (aexpOf .tin24 (toWire .tin24 (sum.getD b (tinZero 32))))
      let r := s.assayPoint p c
      let s := s.modColl p c fun run => { run with ranges := startRanges d 2 r sum mine run.ranges }
      (d.peers2 w).foldl (fun s m => s.sendBlocks p c d 2 m (sum.map (toWire .tin24)) fun b =>
        if (sum.getD b (tinZero 32)).e = 0xFF then 0xFF else mine b) s

/-- Start a reduction (R242, R244): the own piece is held to the wire format, and level 1 is sent. -/
def State.startReduction (s : State) (p c : Nat) (d : CollDesc) : State :=
  let w := s.weir p
  let k := d.wire 1
  match s.readPiece p d w.tbl.position with
  | (.error f, s) => s.accessFail p c f
  | (.ok own, s) =>
    let own := own.map (wireClamp k)
    match s.writeOwn p d 0 own with
    | (some f, s) => s.accessFail p c f
    | (none, s) =>
      let r := s.assayPoint p c
      let a := fun b => aexpOf k (toWire k (own.getD b (tinZero 32)))
      let s := s.modColl p c fun run => { run with ranges := startRanges d 1 r own a run.ranges }
      let s := (d.peers1 w).foldl (fun s m =>
        match s.readPiece p d m.2 with
        | (.error f, s) => s.accessFail p c f
        | (.ok bs, s) => let wb := bs.map (toWire k); s.sendBlocks p c d 1 m wb fun b => aexpOf k (wb.getD b (tinZero 32))) s
      if (s.coll p c).failed then s
      else if (d.peers1 w).isEmpty then s.endLevel1 p c d own fun b => aexpMax 0 (a b)
      else s

/-- A range to which every chunk of a level has been added. -/
def CollRun.rangeFull (run : CollRun) (level f : Nat) (peers : List (Nat × Nat)) : Bool :=
  peers.all fun m => (NatMap.get {} run.ranges (rangeKey level f)).added.contains (level, m.1, m.2)

/-- The sum of a full range, from block `f` on, fails its hop check (R257). -/
def CollRun.hopFails (run : CollRun) (level r f : Nat) (part : List TinBlock) : Bool :=
  blocksDigest .tin56 r part != (NatMap.get {} run.ranges (rangeKey level f)).expected f part

/-- Every range of a level holds a chunk of every member that sends there. -/
def CollRun.levelFull (run : CollRun) (d : CollDesc) (level : Nat) (peers : List (Nat × Nat)) : Bool :=
  (d.firsts level).all fun f => run.rangeFull level f peers

/-- A level is full: what follows it. -/
def State.endLevel (s : State) (p c : Nat) (d : CollDesc) (level : Nat) : State :=
  match s.readPiece p d (s.weir p).tbl.position with
  | (.error f, s) => s.accessFail p c f
  | (.ok sum, s) =>
    let run := s.coll p c
    if level = 1 then s.endLevel1 p c d sum (run.aexpAt d 1) else s.finalSum p c d sum (run.aexpAt d 2)

/-- Add a verified chunk of level 1 or 2 into the own piece (R104, R244); a range whose chunks have all been added has its hop check
(R257). -/
def State.addChunk (s : State) (p c : Nat) (d : CollDesc) (h : ChunkHead) (bs : List TinBlock) (aexp : List Nat) : State :=
  let w := s.weir p
  let k := d.wire h.level
  match s.collRead p d.die d.src (d.pieceOff w.tbl.position + 256 * h.first) (256 * h.blocks) with
  | (.error f, s) => s.accessFail p c f
  | (.ok cur, s) =>
    let sums := List.zipWith (fun a b => tinAdd a k b) (blocksOf cur) bs
    if sums.any (·.isNone) then s.collFail p c 0x0603 h.rep
    else
      let sum := sums.map (·.getD (tinInf 32))
      match s.writeOwn p d h.first sum with
      | (some f, s) => s.accessFail p c f
      | (none, s) =>
        let r := s.assayPoint p c
        let s := s.modColl p c fun run => { run with
          received := h.key :: run.received
          ranges := NatMap.modify {} run.ranges (rangeKey h.level h.first) fun g => g.addChunk k r h bs aexp }
        let peers := if h.level = 1 then d.peers1 w else d.peers2 w
        let run := s.coll p c
        if run.rangeFull h.level h.first peers && run.hopFails h.level r h.first sum then s.collFail p c 0x0602 0xFF none true
        else if run.levelFull d h.level peers then s.endLevel p c d h.level else s

/-- A returned piece's chunk goes into DST, and its exponents are formed (R248, R251). DEDUCED: its AEXP bytes carry A. -/
def State.storeReturned (s : State) (p c : Nat) (d : CollDesc) (h : ChunkHead) (bs : List TinBlock) (aexp : List Nat) : State :=
  match s.collWrite p d.die d.dst (d.dstOff + h.pos * d.returned + 100 * h.first) (bs.map (tinPack .tin24)).flatten with
  | (some f, s) => s.accessFail p c f
  | (none, s) =>
    let s := s.formExps p c d h.pos h.first false (List.zipWith (fun a b => (aexpMax 0 a, b.e == 0xFF)) aexp bs)
    (s.modColl p c fun run => { run with received := h.key :: run.received }).checkReturned p c d

/-- The first failure of a chunk asks for it once more; a second raises 0x0602 (R256). -/
def State.chunkBad (s : State) (p c n : Nat) (h : ChunkHead) : State :=
  if (s.coll p c).nacked.contains h.key then
    (s.modWeir p fun w => { w with assayFails := w.assayFails.add 1 }).collFail p c 0x0602 h.rep
  else
    (s.modColl p c fun r => { r with nacked := h.key :: r.nacked }).sendOn n (.collNack (nackBytes h))

/-- A reduction chunk (R245, R256). DEDUCED: R245 holds for levels 1 and 2; the blocks of level 3 carry E′ (R248). -/
def State.takeReduction (s : State) (p c n : Nat) (d : CollDesc) (h : ChunkHead) (b : List Byte) : State :=
  let k := d.wire h.level
  let body := chunkBody k h b
  if !chunkShapeOk d h b || blocksDigest k (s.assayPoint p c) body.2 != h.digest then s.chunkBad p c n h
  else if h.level = 3 then s.storeReturned p c d h body.2 body.1
  else
    let live := (s.liveExps p d (s.weir p).tbl.position).drop h.first
    if (List.zipWith (fun (t : TinBlock) e => t.e == 0 || t.e == 0xFF || t.e == e) body.2 live).all id then
      s.addChunk p c d h body.2 body.1
    else s.collFail p c 0x0603 h.rep

/-! ### Data collectives (R258 to R260, R271) -/

/-- The bytes received from a source, as far as they follow on from byte 0; `fuel` bounds the chunks. -/
def assembled (l : List (Nat × List Byte)) : (fuel : Nat) → List Byte → List Byte
  | 0, acc => acc
  | n + 1, acc => match l.find? fun e => e.1 == acc.length && !e.2.isEmpty with
    | some e => assembled l n (acc ++ e.2)
    | none => acc

def CollRun.stream (run : CollRun) (src : Nat) : List Byte :=
  let l := run.data.filterMap fun e => if e.1 = src then some (e.2.1, e.2.2) else none
  assembled l (l.length + 1) []

/-- What a received stream holds: a piece of `want` decoded bytes and what follows it, more to come, or a bad frame (R230). -/
inductive PieceRead where
  | more | bad
  | got (bytes rest : List Byte)
  deriving DecidableEq, Repr

def decodeStream (want : Nat) : (fuel : Nat) → (enc acc : List Byte) → PieceRead
  | 0, _, _ => .bad
  | n + 1, enc, acc =>
    if acc.length = want then .got acc enc
    else if want < acc.length then .bad
    else if enc.length < 16 then .more
    else
      let h := frameHead enc
      if !h.ok then .bad
      else if enc.length < h.encLen then .more
      else match decodeBody h (slice enc 16 (h.encLen - 16)) with
        | none => .bad
        | some out => decodeStream want n (enc.drop h.encLen) (acc ++ out)

def pieceRead (fmt want : Nat) (enc : List Byte) : PieceRead :=
  if fmt = 0 then (if enc.length < want then .more else .got (enc.take want) (enc.drop want))
  else decodeStream want (want + 1) enc []

/-- The encoded stream of a piece: Bolter frames where FMT is not 0. -/
def encodePiece (fmt : Nat) (bs : List Byte) : List Byte := if fmt = 0 then bs else (bolterEncode fmt bs).flatten

/-- The 24-byte records of a digest exchange (R260), with whether a line of a table or half failed. -/
def State.digestRecords (s : State) (p : Nat) : List Byte × Option SegFault × State :=
  match s.home p with
  | none => ([], none, s)
  | some x =>
    (s.partDies p).foldl (fun acc dd =>
      if !(acc.2.2.quern p dd).loaded then acc
      else (acc.2.2.quern p dd).shards.zipIdx.foldl (fun acc e =>
        let q := acc.2.2.quern p dd
        let cw := acc.2.2.commitWord x q e.2
        let act := bit cw.1 0
        let base := if act then e.1.offB else e.1.offA
        let hd := cw.2.2.quernReads x e.1.obj (q.epoch e.2 act false) [(base + partOffset e.1 (q.layoutRule e.1) .head, 64)]
        let bad := (cw.2.1.orElse fun _ => hd.2.1).map fun f => (f.code, f.addr)
        (acc.1 ++ leBytes 1 dd ++ leBytes 1 0 ++ leBytes 2 e.2 ++ leBytes 4 0 ++ leBytes 8 (bits cw.1 16 48)
          ++ leBytes 8 (headRoot (hd.1.headD [])), acc.2.1.orElse fun _ => bad, hd.2.2)) acc) ([], none, s)
where
  /-- HEAD.ROOT, as `headBytes` lays it out. -/
  headRoot (h : List Byte) : Nat := field h 8 8

/-- A digest exchange has no record: no shard table with a shard is loaded. -/
def State.noShards (s : State) (p : Nat) : Bool := (s.partDies p).all fun d => !(s.quern p d).loaded || (s.quern p d).shards.isEmpty

/-- Compare this device's records with a twin's: the differing records' (own, twin's) bytes. -/
def recordDiffs (mine twin : List Byte) : List (List Byte × List Byte) :=
  (List.zip (chunksOf 24 mine) (chunksOf 24 twin)).filter fun e => slice e.1 8 16 != slice e.2 8 16

/-- A twin's roots have been received and compared (R260): a difference raises 0x060B, is recorded, and starts its resolution (R398). -/
def State.compareTwin (s : State) (p c : Nat) (twin : Nat) (mine theirs : List Byte) : State :=
  let ds := recordDiffs mine theirs
  let s := ds.foldl (fun s e => s.raise
    { code := 0x060B, loc := { locWeir p with die := field e.1 0 1 }
      detail := leBytes 1 (field e.1 0 1) ++ leBytes 1 0 ++ leBytes 2 (field e.1 2 2) ++ leBytes 4 0 ++ slice e.1 16 8 ++ slice e.2 16 8 }) s
  let s := match ds.head? with
    | none => s
    | some e =>
      let s := if (s.coll p c).differs then s else s.modWeir p fun w =>
        { w with diffValid := true, diffReplica := twin, diffDie := field e.1 0 1, diffShard := field e.1 2 2 }
      { s with resolves := NatMap.modify {} s.resolves p fun r =>
          let new := (ds.map fun (e : List Byte × List Byte) => (field e.1 0 1, field e.1 2 2)).filter fun x => !r.shards.contains x
          if r.busy then { r with shards := r.shards ++ new }
          else { busy := true, die := field e.1 0 1, shard := field e.1 2 2, shards := new } }
  s.modColl p c fun r => { r with differs := r.differs || !ds.isEmpty }

/-- A data collective is complete where it has every piece. -/
def State.checkData (s : State) (p c : Nat) (d : CollDesc) : State :=
  let w := s.weir p
  let r := s.coll p c
  let has := fun (m : Nat × Nat) => r.got.contains (64 * m.1 + m.2)
  let sess := fun (m : Nat × Nat) => match s.memberSession p m.1 m.2 with | some n => r.acks.contains n | none => false
  if !r.started then s
  else match d.kind with
    | 3 | 4 => if (d.peers0 w).all has then s.collComplete p c d else s
    | 5 =>
      if d.pieceOf w.me = d.rootPos then (if (d.peers0 w).all sess then s.collComplete p c d else s)
      else if (d.peers0 w).any fun m => d.pieceOf m == d.rootPos && has m then s.collComplete p c d else s
    | 7 =>
      if s.noShards p || (d.peers0 w).all has then
        (if r.differs then s else s.modWeir p fun w => { w with diffValid := false }).collComplete p c d
      else s
    | 8 => if sess w.mirrorTo then s.collComplete p c d else s
    | _ => s

/-- The piece of source `m` is whole: it goes where its kind says. -/
def State.deliverPiece (s : State) (p c n : Nat) (d : CollDesc) (m : Nat × Nat) (bytes rest : List Byte) (lastFirst : Nat) : State :=
  let src := 64 * m.1 + m.2
  let mark := fun (s : State) => s.modColl p c fun r => { r with got := src :: r.got }
  match d.kind with
  | 3 | 5 =>
    let off := if d.kind = 3 then d.dstOff + d.pieceOf m * d.piece else d.dstOff
    match s.collWrite p d.die d.dst off bytes with
    | (some f, s) => s.accessFail p c f
    | (none, s) =>
      let s := mark s
      if d.kind = 5 then s.sendOn n (.collAck (ackBytes c lastFirst (s.part p).gov.step.toNat)) else s
  | 4 =>
    if rest.length < d.expLen then s
    else match s.collWrite p d.die d.dst (d.dstOff + d.pieceOf m * d.piece) bytes with
      | (some f, s) => s.accessFail p c f
      | (none, s) =>
        mark { s with granary := writeGran s.granary ((s.part p).map.slices d.die) (d.expOff + m.2 * d.expLen) (rest.take d.expLen) }
  | _ => s

/-- MAGIC of a mirror trailer. -/
def mirrorMagic : Nat := 0x4E4D5452

/-- A chunk of a mirror slot (R271): checked against the object, written in place; the trailer, in a chunk of its own, after every
earlier byte, and acknowledged. -/
def State.takeMirror (s : State) (p c n : Nat) (d : CollDesc) (h : ChunkHead) (b : List Byte) : State :=
  let src := 64 * h.rep + h.pos
  let slot := h.step % 2 * d.piece
  match s.home p with
  | none => s.collFail p c 0x0501
  | some x =>
    match s.checkObj x d.dst 0 0 .mirrorWrite with
    | .error e => s.collFail p c e
    | .ok o =>
      if o.size < 2 * d.piece ∨ d.piece < h.first + b.length then s.collFail p c 0x060C
      else
        let put := fun (s : State) (off : Nat) (bs : List Byte) =>
          match s.writeObj x { o with epoch := o.slotEpoch (h.step % 2) } (slot + off) bs with | (some (cd, a), s) => s.collFail p c cd 0xFF (some a) | (none, s) => s
        let s := s.modColl p c fun r => { r with data := r.data ++ [(src, h.first, b)] }
        let trailer := fun (l : List (Nat × Nat × List Byte)) => l.find? fun e => e.1 == src && e.2.2.length == 64 && field e.2.2 0 4 == mirrorMagic
        let s := if b.length = 64 ∧ field b 0 4 = mirrorMagic then s else put s h.first b
        match trailer (s.coll p c).data with
        | none => s
        | some t =>
          if ((s.coll p c).stream src).length = t.2.1 + 64 ∧ !(s.coll p c).got.contains src then
            (put (s.modColl p c fun r => { r with got := src :: r.got }) t.2.1 t.2.2).sendOn n
              (.collAck (ackBytes c t.2.1 h.step))
          else s

/-- A data chunk (R258): stored, and delivered once its source's stream is whole. -/
def State.takeData (s : State) (p c n : Nat) (d : CollDesc) (h : ChunkHead) (b : List Byte) : State :=
  let src := 64 * h.rep + h.pos
  let s := s.modColl p c fun r => { r with received := h.key :: r.received }
  if d.kind = 8 then s.takeMirror p c n d h b
  else
    let s := s.modColl p c fun r => { r with data := r.data ++ [(src, h.first, b)] }
    let enc := (s.coll p c).stream src
    let s :=
      if (s.coll p c).got.contains src then s
      else if d.kind = 7 then
        let mine := s.digestRecords p
        match mine.2.1 with
        | some f => mine.2.2.accessFail p c f
        | none =>
          if enc.length < mine.1.length then mine.2.2
          else (mine.2.2.compareTwin p c h.rep mine.1 enc).modColl p c fun r => { r with got := src :: r.got }
      else match pieceRead d.fmt d.piece enc with
        | .more => s
        | .bad => s.collFail p c 0x0505 h.rep
        | .got bytes rest => s.deliverPiece p c n d (h.rep, h.pos) bytes rest ((enc.length - 1) / 8192 * 8192)
    s.checkData p c d

/-! ### Starting a data collective -/

/-- Send a piece, with what follows it, to members and place the own piece. -/
def State.startGather (s : State) (p c : Nat) (d : CollDesc) (bytes : List Byte) (extra : List Byte) : State :=
  let w := s.weir p
  match s.collWrite p d.die d.dst (d.dstOff + d.pieceOf w.me * d.piece) bytes with
  | (some f, s) => s.accessFail p c f
  | (none, s) =>
    ((d.peers0 w).foldl (fun s m => s.sendData p c d.kind m (encodePiece d.fmt bytes ++ extra)) s).checkData p c d

/-- The own forward copy of a JIT_GATHER (R258, R200); `none` while its lookup waits. -/
def State.gatherSource (s : State) (p : Nat) (d : CollDesc) : Option (Except SegFault (List Byte) × State) :=
  match s.home p with
  | none => some (.error (0x0501, none), s)
  | some x =>
    let k := d.src % 4096
    let q := s.quern p d.die
    match q.shards[k]? with
    | none => some (.error (0x0403, none), s)
    | some sh =>
      let cw := if sh.lagged then (0, none, s) else s.commitWord x q k
      let tag := if sh.lagged then (s.part p).gov.step.toNat - (NatMap.get {} q.groups sh.group).d else bits cw.1 16 48
      match cw.2.1 with
      | some f => some (.error (f.code, f.addr), cw.2.2)
      | none =>
        match cw.2.2.findFwd x p d.die k sh.group tag with
        | (.waits, _) => none
        | (.fault f, s) => some (.error f, s)
        | (.at_ f, s) =>
          if f.len < d.piece then some (.error (0x0502, none), s)
          else
            let r := s.readObj x f.obj f.off d.piece
            some (match r.2.1 with | some (cd, a) => .error (cd, some a) | none => .ok r.1, r.2.2)

/-- The halves of DIE's sweep-class shards from HEAD through DIGEST, their count and MROOT's terms (R271). -/
def State.mirrorHalves (s : State) (p x : Nat) (d : CollDesc) : List Byte × List Nat × Option SegFault × State :=
  let q0 := s.quern p d.die
  q0.sweepClass.foldl (fun acc e =>
    let s := acc.2.2.2
    let cw := s.commitWord x q0 e.1
    let act := bit cw.1 0
    let base := if act then e.2.offB else e.2.offA
    let rule := q0.layoutRule e.2
    let grad := partOffset e.2 rule .grad
    let dig := partOffset e.2 rule .digest
    let stop := partOffset e.2 rule .fwd
    let a := cw.2.2.quernReads x e.2.obj (q0.epoch e.1 act false) [(base, grad)]
    let g := a.2.2.quernReads x e.2.obj (q0.epoch e.1 act true) [(base + grad, dig - grad)]
    let z := g.2.2.quernReads x e.2.obj (q0.epoch e.1 act false) [(base + dig, stop - dig)]
    let bad := (((cw.2.1.orElse fun _ => a.2.1).orElse fun _ => g.2.1).orElse fun _ => z.2.1).map fun f => (f.code, f.addr)
    (acc.1 ++ a.1.headD [] ++ g.1.headD [] ++ z.1.headD [], acc.2.1 ++ [field (a.1.headD []) 8 8], acc.2.2.1.orElse fun _ => bad, z.2.2))
    ([], [], none, s)

/-- The 64-byte trailer of a mirror slot. -/
def mirrorTrailer (v count mroot : Nat) : List Byte :=
  padTo 64 (leBytes 4 mirrorMagic ++ leBytes 4 0 ++ leBytes 8 v ++ leBytes 8 count ++ leBytes 8 mroot)

/-- When a MIRROR starts, the version that the object of this device receives takes its epoch (R348). -/
def State.mirrorEpoch (s : State) (p : Nat) (d : CollDesc) : State :=
  match s.home p with
  | none => s
  | some x => match s.current x d.dst with
    | none => s
    | some o =>
      if o.flags = 0x14 then
        let e := s.takeEpoch (s.ctxKid x)
        e.2.setObj x (handleIndex d.dst) (o.withSlotEpoch ((s.part p).gov.step.toNat % 2) e.1)
      else s

/-- Start a MIRROR (R271). -/
def State.startMirror (s : State) (p c : Nat) (d : CollDesc) : State :=
  match s.home p with
  | none => s.collFail p c 0x0501
  | some x =>
    let h := s.mirrorHalves p x d
    match h.2.2.1 with
    | some f => h.2.2.2.accessFail p c f
    | none =>
      let s := h.2.2.2
      if d.piece < h.1.length + 64 then s.collFail p c 0x060C
      else
        let v := (s.part p).gov.step.toNat
        let s := s.sendData p c 8 (s.weir p).mirrorTo h.1
        let head := s.myHead p c 8 0 h.1.length
        s.sendChunk p c (s.weir p).mirrorTo (head.bytes ++ mirrorTrailer v h.2.1.length (digestPoly (digestPoint (s.part p).seed v) h.2.1))

/-- Start a collective by its kind. -/
def State.startKind (s : State) (p c : Nat) (d : CollDesc) : State :=
  match d.kind with
  | 1 | 2 => s.startReduction p c d
  | 3 => match s.collRead p d.die d.src d.srcOff d.piece with
    | (.error f, s) => s.accessFail p c f
    | (.ok b, s) => s.startGather p c d b []
  | 4 => match s.gatherSource p d with
    | none => s.modColl p c fun r => { r with started := false }
    | some (.error f, s) => s.accessFail p c f
    | some (.ok b, s) =>
      s.startGather p c d b (readGran s.granary ((s.part p).map.slices d.die) (d.expOff + (s.weir p).tbl.position * d.expLen) d.expLen)
  | 5 =>
    if d.pieceOf (s.weir p).me = d.rootPos then
      match s.collRead p d.die d.src d.srcOff d.piece with
      | (.error f, s) => s.accessFail p c f
      | (.ok b, s) => match s.collWrite p d.die d.dst d.dstOff b with
        | (some f, s) => s.accessFail p c f
        | (none, s) => ((d.peers0 (s.weir p)).foldl (fun s m => s.sendData p c 5 m (encodePiece d.fmt b)) s).checkData p c d
    else s
  | 7 =>
    let r := s.digestRecords p
    match r.2.1 with
    | some f => r.2.2.accessFail p c f
    | none => ((d.peers0 (r.2.2.weir p)).foldl (fun s m => s.sendData p c 7 m r.1) r.2.2).checkData p c d
  | 8 => (s.mirrorEpoch p d).startMirror p c d
  | _ => s

/-! ### A chunk -/

/-- The member that may send a chunk of a kind and level to this device. -/
def CollDesc.senderOk (d : CollDesc) (w : Weir) (h : ChunkHead) : Bool :=
  let m := (h.rep, h.pos)
  h.kind == d.kind &&
  match d.kind, h.level with
  | 1, 1 | 2, 1 => (d.peers1 w).contains m
  | 2, 3 => (d.peers3 w).contains m
  | 1, 2 | 2, 2 => (d.peers2 w).contains m
  | 3, 0 | 4, 0 | 7, 0 => (d.peers0 w).contains m
  | 5, 0 => (d.peers0 w).contains m && d.pieceOf m == d.rootPos
  | 8, 0 => m == w.mirrorFrom
  | _, _ => false

/-- A chunk whose collective has started, or waits: it is added, stored, discarded or kept for later (R241, R243, R256). DESIGN CHOICE
(log entry 176): between two windows of a collective a chunk waits as one that came early does. -/
def State.takeChunk (s : State) (p c n : Nat) (b : List Byte) : State :=
  match s.collDesc p c with
  | none => s.oweCredit n
  | some d =>
    let h := chunkHead b
    let run := s.coll p c
    if !d.senderOk (s.weir p) h ∨ run.failed ∨ (run.complete ∧ d.kind ≠ 8) ∨ run.received.contains h.key then s.oweCredit n
    else if !run.started ∨ s.collWindow p c ≠ .isOpen ∨ (h.level = 2 ∧ !run.level1Done) then
      s.modColl p c fun r => { r with early := r.early ++ [(n, b)] }
    else
      let s := if h.level = 0 then s.takeData p c n d h (b.drop 32) else s.takeReduction p c n d h b
      (s.setBlame p c).oweCredit n

/-- The chunks that came early are taken now. -/
def State.flushEarly (s : State) (p c : Nat) : State :=
  let l := (s.coll p c).early
  l.foldl (fun s e => s.takeChunk p c e.1 e.2) (s.modColl p c fun r => { r with early := [] })

end Sys2Proof.Machine
end

