-- ==== Sys2Proof/Machine/Collectives.lean ====
section
/-! DEFINITION. The commands of collectives and of Ihlak's collective traffic (R52, R241, R256, R260, R282), and of the Weir between
devices (R261 to R266). -/
namespace Sys2Proof.Machine
open Sys2Proof

/-! ### Windows -/

/-- The share of a port that open windows hold, of every partition (R52). -/
def State.granted (s : State) (port : Nat) : Nat :=
  (s.parts.map fun e => (e.2.gov.runs.map fun r => if r.2.windowOpen then NatMap.get 0 r.2.grants port else 0).foldl (· + ·) 0).foldl (· + ·) 0

/-- What a window gets of each of its ports: the smaller of SHARE and what is not yet granted. -/
def State.grantsFor (s : State) (e : TtEntry) : List (Nat × Nat) :=
  (bitsOf 8 (bits e.arg 0 8)).map fun k => (k, min (bits e.arg 8 6) (63 - s.granted k))

/-- A window of collective `c` opens with its grants: what waits to be sent goes, and what came between the windows is taken. -/
def State.openColl (s : State) (p i c : Nat) (d : CollDesc) (grants : NatMap Nat) : State :=
  let s := s.modGov p fun g => g.setRun (g.key i) { g.run (g.key i) with windowOpen := true, grants := grants }
  let s := s.renewColl p c
  let run := s.coll p c
  let s := if d.kind = 6 ∧ !run.started then
      s.modColl p c fun run => { run with started := true, barrier := ((s.weir p).obj d.inSync).epoch + 1 }
    else s
  let s := s.releaseSessions p
  if run.complete then s.completeEntries p c
  else if run.started then ((s.flushEarly p c).flushEarly p c).setBlame p c else s

/-- COLLECTIVE_WINDOW opens (R52, R241). -/
def State.windowEntry (s : State) (p i : Nat) (e : TtEntry) : State :=
  let c := bits e.arg 16 16
  match s.collDesc p c with
  | none => s.raise { code := 0x0604, loc := locWeir p }
  | some d =>
    let gs := s.grantsFor e
    let s := if gs.any fun g => decide (g.2 < bits e.arg 8 6) then s.raise (govFault p 0x0104 3 i e.kind 0 0) else s
    s.openColl p i c d (NatMap.restrict gs fun k => NatMap.get 0 gs k != 0)

def execCollectiveWindow (part entry : Nat) (s : State) : Answer :=
  .next (s.startEntry part entry 2 fun e s => s.windowEntry part entry e)

/-- DIGEST_COMPARE (R260) runs its digest exchange. DEDUCED: it acts as the window of that collective, with no port share. -/
def State.compareEntry (s : State) (p i : Nat) (e : TtEntry) : State :=
  let c := bits e.arg 0 16
  match s.collDesc p c with
  | none => s.raise { code := 0x0604, loc := locWeir p }
  | some d => s.openColl p i c d []

def execDigestCompare (part entry : Nat) (s : State) : Answer :=
  .next (s.startEntry part entry 5 fun e s => s.compareEntry part entry e)

/-- COLLECTIVE_START (R241): the window is open and IN_SYNC satisfies GOV_STEP + 1. The chunks that came early are taken. -/
def State.collectiveStart (s : State) (p c : Nat) : State :=
  match s.collDesc p c with
  | none => s
  | some d =>
    let run := s.coll p c
    if s.collWindow p c = .isOpen ∧ run = s.freshColl p c ∧ !run.started ∧ !run.complete ∧ !run.failed
       ∧ (d.inSync = 0xFFFF ∨ waitOk (s.syncValue p d.inSync) (s.stepTarget p)) then
      let s := (s.modColl p c fun r => { r with started := true }).startKind p c d
      (((s.flushEarly p c).flushEarly p c).setBlame p c).barriers p
    else s

def execCollectiveStart (part coll : Nat) (s : State) : Answer := .next (s.collectiveStart part coll)

/-! ### Collective packets -/

/-- COLL_CHUNK: a chunk of another step, of a domain that is no member or of a closed window is discarded and counted (R241). -/
def State.collChunk (s : State) (p n : Nat) (b : List Byte) : State :=
  let h := chunkHead b
  let w := s.weir p
  let win := s.collWindow p h.coll
  if h.step ≠ (s.part p).gov.step.toNat ∨ !bit w.members h.rep ∨ win = .closed then
    (s.modWeir p fun w => { w with late := w.late.add 1 }).oweCredit n
  else
    let s := s.renewColl p h.coll
    (((s.takeChunk p h.coll n b).flushEarly p h.coll).flushEarly p h.coll).barriers p

def execCollChunk (p : Pkt) (s : State) : Answer := .next (s.onPkt p 0x20 fun s => s.collChunk p.part p.session p.payload)

/-- COLL_CREDIT: COUNT credits come back. -/
def State.collCredit (s : State) (n p count : Nat) : State :=
  (s.modSec fun x => x.setSession n { x.session n with credits := (x.session n).credits + count }).releaseWaiting n p

def execCollCredit (p : Pkt) (s : State) : Answer :=
  .next (s.onPkt p 0x21 fun s => s.collCredit p.session p.part (field p.payload 0 4))

/-- COLL_NACK: the chunk of that key is sent again, while a window of it is open, where it is still held (R256, R282). -/
def State.collNack (s : State) (p n : Nat) (b : List Byte) : State :=
  let c := field b 0 2
  let key := (field b 2 1, field b 3 1, field b 4 1, field b 8 8)
  match (s.coll p c).sent.find? fun e => e.1 == n && (chunkHead e.2).key == key && (chunkHead e.2).step == field b 16 8 with
  | none => s
  | some e => if s.collWindow p c = .closed then s else s.offer n p e.2

def execCollNack (p : Pkt) (s : State) : Answer := .next (s.onPkt p 0x22 fun s => s.collNack p.part p.session p.payload)

/-- COLL_ACK: the last chunk sent on the session is acknowledged (R259, R271). -/
def State.collAck (s : State) (p n : Nat) (b : List Byte) : State :=
  let c := field b 0 2
  match s.collDesc p c, ((s.coll p c).sent.filter (·.1 == n)).getLast? with
  | some d, some e =>
    if (chunkHead e.2).first = field b 8 8 ∧ (chunkHead e.2).step = field b 16 8 then
      ((((s.modColl p c fun r => { r with acks := n :: r.acks }).checkData p c d)).setBlame p c).barriers p
    else s
  | _, _ => s

def execCollAck (p : Pkt) (s : State) : Answer := .next (s.onPkt p 0x23 fun s => s.collAck p.part p.session p.payload)

/-- CREDIT_RETURN: the credits owed on a session go back 2 µs after the oldest at the latest (R282). -/
def State.creditDue (s : State) (n : Nat) : State :=
  if (s.sec.session n).owedSince + 2000 ≤ s.now then s.returnCredit n else s

def execCreditReturn (session : Nat) (s : State) : Answer := .next (s.creditDue session)

/-! ### The Weir -/

def execWeirMessage (p : Pkt) (s : State) : Answer :=
  .next (s.onPkt p 0x28 fun s => (s.weirReceive p.part (weirMsgOf p.payload)).barriers p.part)

/-- ROOT_WAIT_EXPIRY: ROOT_WAIT beats after the first arrival of an epoch that is not complete, its root releases it ABORT_STEP
(R264, Table 10.2). -/
def State.rootWait (s : State) (p i : Nat) : State :=
  let w := s.weir p
  match w.counterEntry i with
  | none => s
  | some e =>
    match (w.obj i).firstArrival with
    | none => s
    | some t => if w.isRoot e ∧ !(w.obj i).failed ∧ t + 64 * e.rootWait ≤ s.now then (s.rootDecide p e .abortStep).barriers p else s

def execRootWaitExpiry (part idx : Nat) (s : State) : Answer := .next (s.rootWait part idx)

/-- WEIR_NODE_ECC: an uncorrectable error of a node's counter state is reported to the counter's root (R266). -/
def State.nodeEcc (s : State) (p i : Nat) : State :=
  let w := s.weir p
  match w.counterEntry i with
  | none => s
  | some e =>
    let s := s.countUncorr 2
    if (w.obj i).failed then s
    else if w.isRoot e then (s.eccRelease p e).barriers p
    else s.weirTo p [w.rootOf e] { kind := 5, index := i, epoch := (w.obj i).epoch, replica := w.tbl.replica, position := w.tbl.position }

def execWeirNodeEcc (part idx : Nat) (s : State) : Answer := .next (s.nodeEcc part idx)

end Sys2Proof.Machine
end

