-- ==== Sys2Proof/Machine/Drains.lean ====
section
/-! DEFINITION. The drain commands (R79, R134 to R142): DRAIN_REG, DRAIN_MEM, DRAIN_TIN, DRAIN_DISCARD and their completion. -/
namespace Sys2Proof.Machine
open Sys2Proof

/-- Add a Tin block into the Tin56 block at an offset of SPACE (R141): whether the add was refused by R104 case 4. -/
def State.tinAddAt (s : State) (t space off : Nat) (tin16 : Bool) (c : TinBlock) : Bool × State :=
  match tinAdd (tin56Unpack (s.spaceRead t space off 256)) (if tin16 then .tin16 else .tin24) c with
  | none => (true, s)
  | some b => (false, s.spaceWrite t space off (tin56Pack b))

/-- The block adds of a drain, row by row: whether any was refused. -/
def State.tinAdds (s : State) (t : Nat) (d : DrainTop) (l : List (Nat × TinBlock)) : Bool × State :=
  l.foldl (fun r a => let q := r.2.tinAddAt t d.space a.1 d.tin16 a.2; (r.1 || q.1, q.2)) (false, s)

/-- s_out is not finite and positive for an FP8 or Pewter4 output: fault 0x0305 once for the drain (R140). -/
def State.scaleLost (s : State) (t : Nat) (f : Flight) (bad : Bool) : State :=
  if bad then
    (s.modTile t fun x => { x with faultCode := 0x0305, faultOpcode := topOpcode f.top, faultTop := f.top }).raise
      { code := 0x0305, loc := s.locTile t (topUnitCode f.top), detail := topBytes f.top }
  else s

/-- The rows of drain `i`: its stages run, and its writes and adds reach their destinations (R134 to R141). -/
def State.runDrain (s : State) (t i : Nat) (f : Flight) : State :=
  let x := s.tile t
  let d := drainTop f.top
  let r := drainStart (s.tileEnv t) (topOpcode f.top) (x.under f) f.top
  let s := s.setTile t { r.tile with sr := x.sr }
  let s := r.writes.foldl (fun s w => s.spaceWrite t d.space w.1 w.2) s
  let a := s.tinAdds t d r.adds
  let s := a.2.modTile t fun x => { x with flight := x.flight.modify i fun f => { f with phase := .running, mismatch := a.1 } }
  (s.oweStats t f r.stats).scaleLost t f (drainScaleBad (x.under f) d)

/-- Start a drain; ROWS = 0 completes as a no-op and leaves the group (R79). -/
def State.startDrain (s : State) (t op : Nat) : State :=
  s.startTop t (fun top => topOpcode top == op) fun i f s =>
    if (drainTop f.top).rows = 0 then s.finishTop t i else s.runDrain t i f

def execDrainReg (tile : Nat) (s : State) : Answer := .next (s.startDrain tile 4)
def execDrainMem (tile : Nat) (s : State) : Answer := .next (s.startDrain tile 5)
def execDrainTin (tile : Nat) (s : State) : Answer := .next (s.startDrain tile 6)

/-- The group of drain `f` takes its new state, and a group that is freed is rolled up (R131, Table 05.1). -/
def State.endDrainGroup (s : State) (t : Nat) (f : Flight) : State :=
  let r := drainFinish ((s.tile t).under f) f.top
  (s.setTile t { r.1 with sr := (s.tile t).sr }).oweStats t f r.2

/-- DRAIN_DISCARD frees its group without output (R79). -/
def State.discardGroup (s : State) (t : Nat) : State :=
  s.startTop t (fun top => topOpcode top == 7) fun i f s => (s.endDrainGroup t f).finishTop t i

def execDrainDiscard (tile : Nat) (s : State) : Answer := .next (s.discardGroup tile)

/-- A drain that met an exponent mismatch is complete: the tile records 0x0301 and halts (R141). -/
def State.drainMismatch (s : State) (t i : Nat) (f : Flight) : State :=
  let v := s.part ((s.tilePart t).getD 16)
  let s := s.modTile t fun x =>
    { x with topCount := x.topCount + 1, flight := x.flight.modify i fun g => { g with sr := srAfter v.seed v.gov.phaseStep f.sr f.top } }
  s.topFails t i 0x0301

/-- The last write or add of a drain is visible (R142). -/
def State.drainDone (s : State) (t : Nat) (hw : HwCheck) : State :=
  s.completeTop t 0x0A06 .drain hw (fun top => topOpcode top == 4 || topOpcode top == 5 || topOpcode top == 6) fun i f s =>
    let s := s.endDrainGroup t f
    if f.mismatch then s.drainMismatch t i f else s.finishTop t i

def execDrainCompleteTop (tile : Nat) (hw : HwCheck) (s : State) : Answer := .next (s.drainDone tile hw)

end Sys2Proof.Machine
end

