-- ==== Sys2Proof/Machine/GovEntries.lean ====
section
/-! DEFINITION. Timetable entries that complete at once: lease checks (R58), version releases (R201) and power hints (R415). -/
namespace Sys2Proof.Machine
open Sys2Proof

/-- LEASE_CHECK (R58): with WARN_PCT ≠ 0 and less than WARN_PCT per cent of LEASE_MS left, a lease-warning event is written. -/
def State.leaseCheck (s : State) (p i : Nat) (e : TtEntry) : State :=
  let g := (s.part p).gov
  let s := s.completeRun p (g.key i)
  let pct := bits e.arg 0 7
  let left := g.leaseExpiry - s.now
  if pct ≠ 0 ∧ left * 100 < pct * (g.tt.leaseMs * 1000000) then s.leaseWarning p left else s

def execLeaseCheck (part entry : Nat) (s : State) : Answer :=
  .next (s.startEntry part entry 4 fun e s => s.leaseCheck part entry e)

/-- Every COMMITTED slot of a group whose version is not live becomes FREE (R201). -/
def LagGroup.release (g : LagGroup) (step : Nat) : LagGroup :=
  { g with slots := NatMap.mapVals {} (fun k v =>
      if v.state == .committed && !g.live step k then { v with state := .free } else v) g.slots }

/-- VERSION_RELEASE (R201): GROUP, or every group for 0xFFFF, on every die. -/
def State.versionRelease (s : State) (p i : Nat) (e : TtEntry) : State :=
  let g := (s.part p).gov
  let grp := bits e.arg 0 16
  let s := s.foldQuerns p fun q =>
    { q with groups := NatMap.mapVals {} (fun k v => if grp = 0xFFFF ∨ k = grp then v.release g.step.toNat else v) q.groups }
  s.completeRun p (g.key i)

def execVersionRelease (part entry : Nat) (s : State) : Answer :=
  .next (s.startEntry part entry 7 fun e s => s.versionRelease part entry e)

/-- POWER_HINT (R415): the hint holds for HOLD beats, or with HOLD = 0 until the partition's next one. -/
def State.powerHint (s : State) (p i : Nat) (e : TtEntry) : State :=
  let g := (s.part p).gov
  let hold := bits e.arg 4 28
  let h : PowerHint := { index := bits e.arg 0 3, lapse := if hold = 0 then none else some (s.now + 64 * hold) }
  let s := s.modPwr fun x => { x with hints := NatMap.set none x.hints p (some h) }
  ((s.partDies p).foldl State.retarget s).completeRun p (g.key i)

def execPowerHint (part entry : Nat) (s : State) : Answer :=
  .next (s.startEntry part entry 8 fun e s => s.powerHint part entry e)

/-- HINT_LAPSE (R415): the hint's HOLD beats are over. -/
def State.hintLapse (s : State) (p : Nat) : State :=
  match NatMap.get none s.pwr.hints p with
  | some h => (match h.lapse with | some t => if t ≤ s.now then s.endHint p else s | none => s)
  | none => s

def execHintLapse (part : Nat) (s : State) : Answer := .next (s.hintLapse part)

end Sys2Proof.Machine
end

