-- ==== Sys2Proof/Machine/Governor.lean ====
section
/-! DEFINITION. The commands of the Governor (chapter 02): revolutions, phases, windows' ends, deadlines, brakes, leases and
GOV_CMD; with what a PHASE_START does to cores and tiles (R73, R121, R130, R143). -/
namespace Sys2Proof.Machine
open Sys2Proof

/-! ### Revolutions -/

/-- A revolution of a partition that has just entered its lattice point starts (R43, R44): the step that was abandoned or braked
runs again in a repeat window (R236), failed counters take arrivals again (R266), and REBIND_NS stops (R36). The commit point of a
U phase that runs on is still behind it (R55). -/
def State.beginRevolution (s : State) (p : Nat) : State :=
  let g := (s.part p).gov
  let again := g.aborted
  let n := g.nextRev
  let late := g.committed && (g.phases .running).any fun k => ((g.tt.entries[k % 4096]?).map (·.phase)) == some 2
  let s := s.modPart p fun v =>
    { v with
      state := .running
      rebindNs := if v.rebind.timing then min (s.now - v.rebind.start) 0xFFFFFFFF else v.rebindNs
      rebind := { v.rebind with timing := false }
      gov := { v.gov with
        nextRev := n + 1, revCount := v.gov.revCount + 1, released := false, aborted := false, committed := late
        phasesStarted := 0
        runs := v.gov.runs.filter fun e => e.2.status == .running || e.2.status == .held } }
  (s.modWeir p fun w =>
    { w with
      repeatWindow := again
      sync := NatMap.mapVals {} (fun _ o => { o with failed := false, recheck := o.recheck || o.failed }) w.sync }).settleWeir p weirFuel

/-- REVOLUTION_START at a lattice point: the revolution that ends has its implicit misses (R53) and counts for ABORT_LIMIT (R56); a
lapsed lease brakes the partition (R58); else the next revolution starts. -/
def State.revolutionStart (s : State) (p : Nat) : State :=
  let v := s.part p
  let g := v.gov
  if (v.state == .armed || v.state == .running) && !g.braking && decide (g.revStart g.nextRev ≤ s.now) then
    let lapsed := s.leaseLapsed p
    let s := if g.revOpen && !lapsed then s.takeMisses p (g.revStart g.nextRev) (g.missesAt (g.revStart g.nextRev)) else s
    let g := (s.part p).gov
    if g.braking then s
    else
      let streak := if g.revOpen then (if g.aborted then g.abortStreak + 1 else 0) else g.abortStreak
      let s := s.modGov p fun g => { g with abortStreak := streak }
      let spent := g.revOpen && decide (g.tt.abortLimit ≤ streak)
      let s := if spent then (s.brakeDeadline p 0xFF).raise (govFault p 0x0105 1) else s
      if lapsed then s.brakeBy p .lease
      else if spent then s
      else s.beginRevolution p
  else s

def execRevolutionStart (part : Nat) (s : State) : Answer := .next (s.revolutionStart part)

/-- LEASE_EXPIRY: mill time reaches the expiry (R58). A DRAINING partition is braked (R34), a SCRUBBING one goes to BRAKED once rebound
(R37), a RUNNING one brakes at its next slot boundary and an ARMED one at its first revolution start. A lapse in Idle or Sleep is recorded when the
state is left (R409). -/
def State.leaseExpire (s : State) (p : Nat) : State :=
  let v := s.part p
  if (v.state == .armed || v.state == .running || v.state == .braked || v.state == .draining || v.state == .scrubbing)
      && s.leaseLapsed p && !v.gov.lapsed && s.pwr.state == 0 then
    let s := s.modGov p fun g => { g with lapsed := true }
    if v.state = .draining ∨ v.state = .scrubbing then s.brakeBy p .lease else s
  else s

def execLeaseExpiry (part : Nat) (s : State) : Answer := .next (s.leaseExpire part)

/-! ### Phases -/

/-- What a PHASE_START does to a tile: the SR context starts over (R121), the statistics block is cleared (R143), and groups left
open or closed are freed and rolled up under tensor 0 (R130). The flag tells that there was one. -/
def Tile.phaseStart (x : Tile) (k : Word64 × Word64) : Tile × Bool :=
  let gs := (x.arrA.groups ++ x.arrB.groups).filter fun e => e.2.state != .free
  let x := { x with stats := [], sr := { tensor := 0, base := 0, k0 := k.1, k1 := k.2 } }
  let x := gs.foldl (fun x e => (x.statUpdate 0 e.2.rollup).1) x
  ({ x.freeGroups with faultCode := if gs.isEmpty then x.faultCode else 0x0302 }, !gs.isEmpty)

def State.tilePhase (s : State) (k : Word64 × Word64) (t : Nat) : State :=
  let r := (s.tile t).phaseStart k
  let s := s.setTile t r.1
  if r.2 then s.raise { code := 0x0302, loc := s.locTile t 0 } else s

/-- A slot of the entry table is valid (R73). -/
def entryValid (a : Nat) : Bool := decide (0x800 ≤ a) && decide (a < 0x40000) && a % 2 == 0

/-- The control core of a cluster starts at a kernel entry point, or traps where its slot is not valid (R73); a halted core is left
alone (R91). -/
def State.corePhase (s : State) (entry phase mb step c : Nat) : State :=
  let x := (s.cluster c).unstall
  if x.halted then s.setCluster c { x with phaseDone := false }
  else
    let a := ofLe (NatMap.getList 0 x.imem (8 * entry) 8)
    if entryValid a then
      let regs := NatMap.set 0 (NatMap.set 0 (NatMap.set 0 x.coreRegs 10 (BitVec.ofNat 64 phase)) 11 (BitVec.ofNat 64 mb)) 12
        (BitVec.ofNat 64 (step % 2 ^ 32))
      s.setCluster c { x with running := true, trapped := false, phaseDone := false, pc := BitVec.ofNat 64 a, coreRegs := regs }
    else
      (s.setCluster c { x with running := false, trapped := true, cause := 1, phaseDone := false, pc := BitVec.ofNat 64 a }).raise
        { code := 0x0206, loc := s.locCluster c 7, severity := 0, addr := some a }

/-- At PHASE_START F the step's references to versions of the lagged groups are taken (R199). -/
def State.takeVersionRefs (s : State) (p mb : Nat) : State :=
  let step := (s.part p).gov.step.toNat
  s.foldQuerns p fun q =>
    { q with groups := NatMap.mapVals {} (fun _ g =>
        if g.nslot = 0 then g else { g.addRefs (step - g.d) mb with taken := (step - g.d, mb) :: g.taken }) q.groups }

/-- A phase starts on the partition's clusters and tiles. -/
def State.runPhase (s : State) (p k : Nat) (e : TtEntry) : State :=
  let g := (s.part p).gov
  let step := g.step.toNat
  let mb := bits e.arg 8 8
  let s := s.modGov p fun g =>
    { g.setRun k { g.run k with status := .running } with
      phaseStep := step
      phasesStarted := if k / 4096 = g.rev then g.phasesStarted ||| 2 ^ e.phase else g.phasesStarted }
  let key := roundingKey (s.part p).seed step 0
  let s := (s.partTiles p).foldl (State.tilePhase · key ·) s
  let s := (s.partClusters p).foldl (State.corePhase · (bits e.arg 16 8) e.phase mb step ·) s
  if e.phase = 0 then s.takeVersionRefs p mb else s

/-- A PHASE_START entry (R51): B or U with no preceding phase started in its revolution is a miss at once; behind an open or held
phase it is held. -/
def State.phaseEntry (s : State) (p i : Nat) (e : TtEntry) : State :=
  let g := (s.part p).gov
  let k := g.key i
  let before := { g with runs := NatMap.set {} g.runs k {} }
  if g.unpreceded e then
    let s := s.modGov p fun g => g.setRun k { g.run k with status := .ended }
    s.takeMisses p s.now [⟨k, e.policy, false⟩]
  else if before.holdsPhase then
    s.modGov p fun g => g.setRun k { g.run k with status := .held }
  else s.runPhase p k e

def execPhaseStart (part entry : Nat) (s : State) : Answer :=
  .next (s.startEntry part entry 1 fun e s => s.phaseEntry part entry e)

/-- HELD_PHASE_START (R51): the first held phase starts when no phase is open, as one of the 8 starts of its beat (R50). -/
def State.heldPhaseStart (s : State) (p i : Nat) : State :=
  let v := s.part p
  let g := v.gov
  match g.heldReady, g.tt.entries[i]? with
  | some k, some e =>
    if k % 4096 == i && v.state == .running && !g.braking && s.startAllowed p then s.countStart.runPhase p k e else s
  | _, _ => s

def execHeldPhaseStart (part entry : Nat) (s : State) : Answer := .next (s.heldPhaseStart part entry)

/-- PHASE_DONE: a store of a running core; the last cluster's store completes the phase (R73), and the references of the step are
dropped when B completes (R199). -/
def State.phaseDone (s : State) (c : Nat) : State :=
  let x := s.cluster c
  match s.clusterPart c with
  | none => s
  | some p =>
    if x.executes then
      let s := s.setCluster c { x with phaseDone := true }
      match ((s.part p).gov.phases .running).head? with
      | none => s
      | some k =>
        if (s.partClusters p).all fun c => (s.cluster c).phaseDone then
          let s := s.completeRun p k
          let phase := ((s.part p).gov.tt.entries[k % 4096]?).map (·.phase)
          if phase == some 1 then s.dropVersionRefs p
          else if phase == some 2 && decide (k / 4096 < (s.part p).gov.rev) then s.modGov p fun g => { g with committed := false }
          else s
        else s
    else s

def execPhaseDone (cluster : Nat) (s : State) : Answer := .next (s.phaseDone cluster)

/-! ### Windows and deadlines -/

/-- WINDOW_CLOSE (R52): at OFFSET + DEADLINE the window closes and its shares are free again. -/
def State.windowClose (s : State) (p i : Nat) : State :=
  let g := (s.part p).gov
  match (g.runs.filter fun e => e.1 % 4096 == i && e.2.windowOpen).head?, g.tt.entries[i]? with
  | some (k, r), some e =>
    if r.start + 64 * e.deadline ≤ s.now then s.modGov p fun g => g.setRun k { r with windowOpen := false, grants := [] } else s
  | _, _ => s

def execWindowClose (part entry : Nat) (s : State) : Answer := .next (s.windowClose part entry)

/-- DEADLINE_MISS (R53): the entry's run whose instant has passed misses, with every other run of the partition that misses at the
same instant (R56). -/
def State.deadlineMiss (s : State) (p i : Nat) : State :=
  let v := s.part p
  let g := v.gov
  if v.state = .running ∧ !g.braking then
    match (g.openKeys.filter fun k => k % 4096 == i && decide (g.missAt k ≤ s.now)).head? with
    | some k => s.takeMisses p (g.missAt k) (g.missesAt (g.missAt k))
    | none => s
  else s

def execDeadlineMiss (part entry : Nat) (s : State) : Answer := .next (s.deadlineMiss part entry)

/-! ### Brakes -/

/-- Nothing of a braking partition is in flight any longer (R57). -/
def State.brakeDone (s : State) (p : Nat) : Bool :=
  !s.topsInFlight p
  && (s.partClusters p).all (fun c => (List.range 16).all fun k => !(s.leat c k).running)
  && (s.partDies p).all fun d => let q := s.quern p d; !q.sweeping && !q.flipping && q.runs.all fun e => !e.2.ingesting

/-- BRAKE_COMPLETE (R57): the partition is BRAKED, and the references of its step are dropped (R199). -/
def State.brakeComplete (s : State) (p : Nat) : State :=
  let v := s.part p
  if (v.state == .armed || v.state == .running) && v.gov.braking && s.brakeDone p then
    (s.modPart p fun v => { v with state := .braked, gov := { v.gov with braking := false } }).foldGroups p fun g => g.dropRefs.settle
  else s

def execBrakeComplete (part : Nat) (s : State) : Answer := .next (s.brakeComplete part)

/-- BRAKE_N_FALL: BRAKE_N has been low for 100 ns (R60). -/
def execBrakeNFall (s : State) : Answer :=
  .next ((List.range 16).foldl (fun s p => s.brakeBy p .pin) (s.modMill fun m => { m with brakeLow := true }))

/-- BRAKE_N_RISE: RELEASE is no longer barred (R61). -/
def execBrakeNRise (s : State) : Answer := .next (s.modMill fun m => { m with brakeLow := false })

/-! ### GOV_CMD (R61) -/

def State.govStatus (s : State) (p st : Nat) : State := s.modGov p fun g => { g with cmdStatus := st }

/-- RELEASE: BRAKED to RUNNING; a device that awaits a commit release asks the root first (R265). -/
def State.release (s : State) (p : Nat) : State :=
  let v := s.part p
  if v.state ≠ .braked then s.govStatus p 1
  else if s.mill.brakeLow then s.govStatus p 2
  else if s.leaseLapsed p then s.govStatus p 3
  else if v.rebind.inProgress then s.govStatus p 4
  else
    let s := s.govStatus p 0
    match (s.weir p).commitEntry with
    | some e => if (s.weir p).awaitsCommit then s.askOutcome p e else s.enterRunning p
    | none => s.enterRunning p

def execRelease (rq : Req) (s : State) : Answer := .next (s.onPart rq 0x10128 fun p s => s.release p)

/-- HALT: as HALT_PART, on a RUNNING partition. -/
def State.halt (s : State) (p : Nat) : State :=
  if (s.part p).state ≠ .running then s.govStatus p 1 else (s.govStatus p 0).brakeBy p .halt

def execHalt (rq : Req) (s : State) : Answer := .next (s.onPart rq 0x10128 fun p s => s.halt p)

/-- ABORT: the current step is abandoned as R54 describes, subject to R55. -/
def State.abort (s : State) (p : Nat) : State :=
  if (s.part p).state ≠ .running then s.govStatus p 1 else (s.govStatus p 0).abandonStep p 0xFF

def execAbort (rq : Req) (s : State) : Answer := .next (s.onPart rq 0x10128 fun p s => s.abort p)

end Sys2Proof.Machine
end

