-- ==== Sys2Proof/Machine/PowerStates.lean ====
section
/-! DEFINITION. Power states, domains, operating points, thermal limits, references and telemetry (chapter 16). -/
namespace Sys2Proof.Machine
open Sys2Proof

/-! ### Device power states (R407 to R409) -/

/-- What Table 16.1 asks of the partitions for a state. -/
def State.mayEnter (s : State) (m : Nat) : Bool :=
  s.parts.all fun e =>
    if m ≤ 2 then e.2.state != .armed && e.2.state != .running && e.2.state != .draining else e.2.state == .free

/-- A wake event of a state (Table 16.1); the WAKE pin is none of Idle (Table 18.3). -/
def State.wakes (s : State) (m : Nat) : WakeCause → Bool
  | .sluice => m == 1 || m == 2
  | .pin => decide (2 ≤ m) && decide (m ≤ 4)
  | .board => m == 1 || m == 2 || m == 3
  | .timer => (m == 1 || m == 2) && s.pwr.wakeAt != 0 && decide (s.pwr.wakeAt.toNat ≤ s.now)
  | .other => m == 1

/-- MODE, with 5 to 7 acting as 0. -/
def Power.target (x : Power) : Nat := if 4 < x.mode then 0 else x.mode

/-- What Deep sleep and Off lose: Granary, cluster SRAM and tile state, links and sessions. -/
def State.loseState (s : State) : State :=
  let s := s.endSessions fun _ => true
  let s := s.modSec fun x => { x with setups := [], peerSetups := [] }
  { s with
    granary := [], leats := []
    tiles := NatMap.mapVals {} (fun _ x => x.scrub) s.tiles
    clusters := NatMap.mapVals {} (fun _ x => { halted := x.halted }) s.clusters
    ports := NatMap.mapVals {} (fun _ x => { x with link := false, lanes := 0, subs := [] }) s.ports }

/-- WFI_ALL: the fourth supervisor core reaches WFI (R408). -/
def State.wfiAll (s : State) (cancelled : Bool) : State :=
  let m := s.pwr.target
  if s.pwr.state ≠ 0 ∨ m = 0 then s
  else if cancelled then s.modPwr fun x => { x with mode := 0, entryStatus := 3 }
  else if !s.mayEnter m then
    (s.modPwr fun x => { x with mode := 0, entryStatus := 2 }).raise { code := 0x0B01, loc := { die := 10 } }
  else
    let s := s.modPwr fun x => { x with state := m, entryStatus := 0 }
    if 3 ≤ m then s.loseState else s

def execWfiAll (cancelled : Bool) (s : State) : Answer := .next (s.wfiAll cancelled)

/-- WAKE_EVENT: the state is left, and the leases that lapsed in it are recorded (R409); Off is left by a reset (R363); in Run, an entry still awaiting its fourth WFI is cancelled. -/
def State.wakeEvent (s : State) (w : WakeCause) : State :=
  let m := s.pwr.state
  if m = 0 then
    if s.pwr.target ≠ 0 ∧ s.wakes s.pwr.target w then s.modPwr fun x => { x with mode := 0, entryStatus := 3 } else s
  else if !s.wakes m w then s
  else if m = 4 then s.deviceReset
  else
    let s := s.modPwr fun x => { x with state := 0, mode := 0 }
    let s := if m = 3 ∧ s.mill.state ≠ .freerun then s.modMill fun x => x.acquire else s
    (List.range 16).foldl State.leaseExpire s

def execWakeEvent (w : WakeCause) (s : State) : Answer := .next (s.wakeEvent w)

/-! ### Power domains (R411 to R413) -/

def Power.domain (x : Power) (n : Nat) : PowerDomain := NatMap.get {} x.domains n
def Power.setDomain (x : Power) (n : Nat) (v : PowerDomain) : Power := { x with domains := NatMap.set {} x.domains n v }

/-- A tile domain is kept on (R413): its queue is not empty, a wait holds it, or it is TESTING or under arbitration. -/
def Tile.keptOn (x : Tile) : Bool := !x.queue.isEmpty || x.flight.any (fun f => f.isWaitFence || f.isToll) || x.test.isSome || x.arbitrating

/-- KEPT_ON of a domain: a tile, or the cluster-shared domain of such a tile. -/
def State.keptOn (s : State) (n : Nat) : Bool :=
  if n < 512 then (s.tile n).keptOn
  else if n < 576 then (List.range 8).any fun j => (s.tile (8 * (n - 512) + j)).keptOn
  else false

/-- Some HBM channel set of stack `k` is bound or holds a heap of context 0. -/
def State.stackUsed (s : State) (k : Nat) : Bool :=
  (List.range 4).any fun i =>
    s.boundParts.any (fun p => bit (s.part p).map.hbmSets (4 * k + i)) || (s.heapsHeld 0 (s.ctx 0) && bit (s.ctx 0).desc.hbmSets (4 * k + i))

/-- Granary slice `i` belongs to a partition or holds a heap of context 0. -/
def State.sliceUsed (s : State) (i : Nat) : Bool :=
  s.boundParts.any (fun p => bit (s.part p).map.granary i)
  || (s.heapsHeld 0 (s.ctx 0) && (match (s.ctx 0).desc.granary[i / 8]? with
      | some g => overlap g.1 g.2 (sliceBytes * (i % 8)) sliceBytes
      | none => false))

/-- PTP uses a port. -/
def State.ptpOn (s : State) (k : Nat) : Bool :=
  (bits s.mill.ctrl 24 2 == 1 || bits s.mill.ctrl 24 2 == 2) && (if k = 8 then bit s.mill.ctrl 31 else bit s.mill.ctrl (32 + k))

/-- The column "Gated when" of Table 16.2, with the domain's class enabled; the idle time has passed. -/
def State.mayGate (s : State) (n : Nat) : Bool :=
  let on := fun c => bit s.pwr.gateClasses c
  if n < 512 then on 0 && (s.tile n).flight.isEmpty && !s.keptOn n
  else if n < 576 then
    let c := n - 512
    on 1 && (List.range 8).all (fun j => (s.pwr.domain (8 * c + j)).gated) && (List.range 16).all (fun k => !(s.leat c k).running)
    && !(s.cluster c).running && !s.keptOn n
  else if n < 640 then on 2 && !s.sliceUsed (n - 576)
  else if n < 672 then
    let d := (n - 640) / 4
    on 3 && (match (n - 640) % 4 with
      | 0 => false
      | 1 => (List.range 16).all fun p => !(s.quern p d).loaded
      | u => !s.stackUsed (2 * d + u - 2))
  else if n < 680 then on 4 && (s.port (n - 672)).mac == 0 && !s.ptpOn (n - 672)
  else false

/-- What a domain loses when gated: a Granary bank its contents, a port its link. -/
def State.gateLoss (s : State) (n : Nat) : State :=
  if 576 ≤ n ∧ n < 640 then s.zeroSlice (n - 576)
  else if 672 ≤ n ∧ n < 680 then (s.macsecEnds (n - 672)).modPort (n - 672) fun x => { x with link := false, lanes := 0 }
  else s

/-- DOMAIN_GATE: a domain idle for its threshold is gated, in Run only (R412). -/
def State.domainGate (s : State) (n : Nat) : State :=
  let d := s.pwr.domain n
  if s.pwr.state = 0 ∧ !d.gated ∧ s.mayGate n then (s.modPwr fun x => x.setDomain n { d with gated := true }).gateLoss n else s

def execDomainGate (dom : Nat) (s : State) : Answer := .next (s.domainGate dom)

/-- DOMAIN_WAKE: a gated domain that an access woke is ready. -/
def State.domainWake (s : State) (n : Nat) : State :=
  let d := s.pwr.domain n
  if d.gated then s.modPwr fun x => x.setDomain n { gated := false, wakes := min (d.wakes + 1) 0xFFFFFFFF } else s

def execDomainWake (dom : Nat) (s : State) : Answer := .next (s.domainWake dom)

/-- The place of a domain in a fault record. -/
def State.locDomain (s : State) (n : Nat) : FaultLoc :=
  if n < 512 then s.locTile n 0
  else if n < 576 then s.locCluster (n - 512) 0
  else if n < 640 then { die := (n - 576) / 8 }
  else if n < 672 then { die := (n - 640) / 4 }
  else if n < 680 then { die := 8 + (n - 672) / 4, port := n - 672 }
  else { die := 10 }

/-- WAKE_TIMEOUT: a domain that an access woke is not ready in four wake latencies: fault 0x0B07. -/
def execWakeTimeout (dom : Nat) (s : State) : Answer :=
  .next (if (s.pwr.domain dom).gated then s.raise { code := 0x0B07, loc := s.locDomain dom } else s)

/-! ### Operating points (R416) -/

def powerFault (code d severity : Nat) : FaultRec := { code := code, loc := { die := d }, severity := severity }

/-- VOLTAGE_SETTLED: a move ends; up, the frequency is switched now. A change asked for meanwhile follows. -/
def State.voltageSettled (s : State) (d : Nat) : State :=
  let x := s.pwr.die d
  match x.move with
  | none => s
  | some (t, up) =>
    (s.modPwr fun p => p.setDie d { x with move := none, mv := oppMv t, avsRetried := false, inForce := if up then t else x.inForce }).retarget d

def execVoltageSettled (die : Nat) (s : State) : Answer := .next (s.voltageSettled die)

/-- VR_MISMATCH: a rail below the voltage of the frequency in force. -/
def State.vrMismatch (s : State) (d mv : Nat) : State :=
  let x := s.pwr.die d
  if mv < oppMv x.inForce then
    let i := mvOpp mv
    ((s.modPwr fun p => p.setDie d { x with mv := mv, vrLimit := i, inForce := i, move := none }).raise (powerFault 0x0B03 d 3)).retarget d
  else s

def execVrMismatch (die mv : Nat) (s : State) : Answer := .next (s.vrMismatch die mv)

/-- AVS_TIMEOUT: retried once; a second failure holds the die at its present point. -/
def State.avsTimeout (s : State) (d : Nat) : State :=
  let x := s.pwr.die d
  match x.move with
  | none => s
  | some (t, _) =>
    if x.avsRetried then
      (s.modPwr fun p => p.setDie d { x with move := none, avsHeld := true }).raise (powerFault 0x0B06 d 3)
    else (s.modPwr fun p => p.setDie d { x with avsRetried := true }).send (.avs d (oppMv t))

def execAvsTimeout (die : Nat) (s : State) : Answer := .next (s.avsTimeout die)

/-! ### Thermal limits and the power cap (R417 to R419) -/

/-- The temperature of a die: the highest of its sensors and stacks, 0.25 °C units. -/
def DiePower.temp (x : DiePower) : Nat := max x.dieQ x.hbmQ

/-- THROTTLE_C; values above 100 act as 100. -/
def Power.throttle (x : Power) : Nat := min x.throttleC 100

/-- The thermal index after a sample below 105 °C. -/
def thermalIndex (i temp limit : Nat) : Nat :=
  if 4 * limit < temp then min (i + 1) 4 else if temp < 4 * (limit - 5) then i - 1 else i

/-- At 105 °C or above the partitions of the die are braked and ALERT_N is asserted; the fault is raised where the die reaches it. -/
def State.thermalCritical (s : State) (d : Nat) (reached : Bool) : State :=
  let ps := s.boundParts.filter fun p => (s.partDies p).contains d
  let s := (ps.foldl State.brake s).modBoard fun b => { b with thermal := true }
  if reached then s.raise (powerFault 0x0B04 d (if ps.isEmpty then 3 else 1)) else s

/-- THERMAL_SAMPLE: 1 ms above the threshold or 10 ms below it have passed, or a critical level is reached (R418). -/
def State.thermalSample (s : State) (d dieQ hbmQ : Nat) : State :=
  let x := { s.pwr.die d with dieQ := dieQ, hbmQ := hbmQ }
  let limit := s.pwr.throttle
  let hot := decide (420 ≤ x.temp)
  let above := decide (4 * limit < x.temp)
  let y := { x with
    thermal := if hot then 4 else thermalIndex x.thermal x.temp limit
    throttling := above, critical := hot }
  let s := s.modPwr fun p => { p.setDie d y with stopped := p.stopped || decide (440 ≤ x.temp) }
  let s := if above && !x.throttling then s.raise (powerFault 0x0B02 d 3) else s
  let s := if hot then s.thermalCritical d !x.critical else s
  let s := if (List.range 8).all (fun e => decide ((s.pwr.die e).temp < 400)) && !s.pwr.stopped then s.modBoard fun b => { b with thermal := false } else s
  s.retarget d

def execThermalSample (die dieQ hbmQ : Nat) (s : State) : Answer := .next (s.thermalSample die dieQ hbmQ)

/-- Change the power-cap index of every die. -/
def State.capIndex (s : State) (f : Nat → Nat) : State :=
  (s.modPwr fun p => (List.range 8).foldl (fun p d => p.setDie d { p.die d with power := f (p.die d).power }) p).retargetAll

/-- POWER_CAP_WINDOW: the mean of a 100 ms window against PWR_CAP.WATTS (R419). DEDUCED: with no cap set the index falls as below it. -/
def State.powerCapWindow (s : State) (w : Nat) : State :=
  let cap := s.pwr.capWatts
  if cap ≠ 0 ∧ cap < w then
    let first := !s.pwr.overCap
    let s := (s.modPwr fun p => { p with overCap := true }).capIndex fun i => min (i + 1) 4
    if first then s.raise { code := 0x0B05, loc := { die := 10 } } else s
  else
    let s := s.modPwr fun p => { p with overCap := false }
    if cap = 0 ∨ 100 * w < 95 * cap then s.capIndex (· - 1) else s

def execPowerCapWindow (watts : Nat) (s : State) : Answer := .next (s.powerCapWindow watts)

/-- PMBUS_POLL: power at the resolutions of R340. -/
def State.pmbusPoll (s : State) (m : PowerMeas) : State :=
  s.modPwr fun p =>
    { p with
      powerDev := m.dev100 / 10 * 10, powerDevParty := m.dev1000 / 50 * 50
      powerPart := NatMap.setList 0 [] 0 ((m.parts100.take 16).map fun w => w / 10 * 10)
      powerParty := NatMap.setList 0 [] 0 ((m.parts1000.take 16).map fun w => w / 50 * 50) }

def execPmbusPoll (m : PowerMeas) (s : State) : Answer := .next (s.pmbusPoll m)

/-! ### References (R420) -/

/-- A port's link goes down, and its secure channel with it (R357). -/
def State.linkLost (s : State) (k : Nat) : State := (s.macsecEnds k).modPort k fun x => { x with link := false, lanes := 0 }

/-- REF_LOST: the 100 MHz reference brakes every partition; the 156.25 MHz one takes the ports down. -/
def State.refLost (s : State) (core : Bool) : State :=
  if core then
    let s := s.modPwr fun p => { p with ref100Lost := true }
    ((List.range 16).foldl State.brake s).raise { code := 0x0B08, loc := { die := 10 }, severity := 1 }
  else (List.range 9).foldl State.linkLost (s.modPwr fun p => { p with ref156Lost := true })

def execRefLost (core : Bool) (s : State) : Answer := .next (s.refLost core)

/-- REFERENCE_RESTORED: the links come up again with PORT_LINK_CHANGE. -/
def execReferenceRestored (core : Bool) (s : State) : Answer :=
  .next (s.modPwr fun p => if core then { p with ref100Lost := false } else { p with ref156Lost := false })

/-! ### Ports -/

/-- PORT_LINK_CHANGE (R306): LINK and LANES follow the link, which cannot come up without its reference. -/
def State.portLinkChange (s : State) (k : Nat) (up : Bool) (lanes : Nat) : State :=
  if up then (if s.pwr.ref156Lost then s else s.modPort k fun x => { x with link := true, lanes := lanes % 256 })
  else s.linkLost k

def execPortLinkChange (port : Nat) (up : Bool) (lanes : Nat) (s : State) : Answer := .next (s.portLinkChange port up lanes)

/-- PFC_PAUSE_FRAME (R279): egress stops on the paused priorities for which PFC is enabled, each until its time has passed; never on
priority 7. -/
def State.pfcPause (s : State) (k mask : Nat) (ns : List Nat) : State :=
  s.modPort k fun x =>
    { x with pausedUntil := (bitsOf 7 (mask &&& x.pfcEn)).foldl (fun m i => NatMap.set 0 m i (s.now + ns.getD i 0)) x.pausedUntil }

def execPfcPauseFrame (port mask : Nat) (ns : List Nat) (s : State) : Answer := .next (s.pfcPause port mask ns)

end Sys2Proof.Machine
end

