-- ==== Sys2Proof/Machine/Ptp.lean ====
section
/-! DEFINITION. The PTP engine and the time pins (R39 to R42, R443). -/
namespace Sys2Proof.Machine
open Sys2Proof

/-! ### Fields of GOV_PTP_CTRL -/

/-- ROLE: 1 ordinary clock, 2 boundary clock; 3 acts as 0. -/
def Mill.role (m : Mill) : Nat := if bits m.ctrl 24 2 = 3 then 0 else bits m.ctrl 24 2
/-- The expected Sync interval, ns; SYNC_RATE above 4 acts as 4. -/
def Mill.syncInterval (m : Mill) : Nat := 1000000000 / 2 ^ min (bits m.ctrl 18 3) 4
/-- STEP_LIMIT_US in ns; 0 acts as 1. -/
def Mill.stepLimit (m : Mill) : Nat := 1000 * max 1 (bits m.ctrl 0 18)

def govDevFault (code : Nat) : FaultRec := { code := code, loc := { die := 10, unit := 12 } }

/-- A step is allowed: no partition is ARMED, RUNNING or BRAKED (R42). -/
def State.mayStep (s : State) : Bool := s.parts.all fun e => e.2.state != .armed && e.2.state != .running && e.2.state != .braked

/-- A frequency adjustment within ±200 ppm. -/
def clampPpb (v : Int) : Int := max (-200000) (min 200000 v)

/-- The frequency adjustment while an offset is slewed: the measured error and up to 100 ppm against the offset, whose size the spec
leaves to the servo: a free value. -/
def State.slewFreq (s : State) (freq off : Int) : Int × State :=
  if off = 0 then (clampPpb freq, s)
  else
    let a : Int := ((Config.freeValue s.draws).toNat % 100001 : Nat)
    (clampPpb (if 0 < off then freq - a else freq + a), s.draw)

/-- STEP_BLOCKED (R42). DESIGN CHOICE (log entry 167): 0x010A is raised when it is set, and not again at each later measurement. -/
def State.checkBlocked (s : State) (off : Int) : State :=
  if s.mill.stepLimit < off.natAbs ∧ !s.mayStep then
    if s.mill.stepBlocked then s else (s.modMill fun m => { m with stepBlocked := true }).raise (govDevFault 0x010A)
  else if off.natAbs ≤ 20 then s.modMill fun m => { m with stepBlocked := false } else s

/-- Correct an offset (R42): a step in ACQUIRING where it is allowed, else a slew. In HOLDOVER the last frequency is held (Table 02.2). -/
def State.correct (s : State) (off freq : Int) : State :=
  match s.mill.state with
  | .holdover => s.checkBlocked off
  | st =>
    if st = .acquiring ∧ s.mayStep then
      s.modMill fun m => { m with now := ((m.now : Int) - off).toNat, freqPpb := clampPpb freq, stepBlocked := false }
    else
      let r := s.slewFreq freq off
      (r.2.modMill fun m => { m with freqPpb := r.1 }).checkBlocked off

/-- A measured offset counts towards LOCKED (R41): the 16th in a row within 20 ns locks. -/
def Mill.countSync (m : Mill) (off : Int) : Mill :=
  let n := if off.natAbs ≤ 20 then m.goodSyncs + 1 else 0
  { m with goodSyncs := min n 16, state := if 16 ≤ n then .locked else m.state }

/-- A valid Sync on the slave port: it is answered with a Delay_Req (message type 1; R40). Once a Delay_Resp has come the exchange
measures the offset (R41), which is corrected and counted. -/
def State.takeSync (s : State) (m : PtpMeas) : State :=
  let s := (s.modMill fun x => { x with gotSync := true, twoStep := none }).send (.ptp 1 m.port s.now)
  let s := if s.mill.gotDelay then
      ((s.modMill fun x => { x with offset := m.offset }).correct m.offset m.freqPpb).modMill (·.countSync m.offset)
    else s
  s.modMill fun x => { x with lastSync := x.now }

/-- A timing message from the parent, on the slave port. PTP runs on in Idle and Sleep (Table 16.1), and no longer after a tamper event. -/
def State.fromParent (s : State) (port : Nat) : Bool := s.sluiceOpen && s.mill.role != 0 && s.ptpOn port && s.mill.slavePort == port

/-- PTP_SYNC: a one-step Sync, a two-step Sync awaiting its Follow_Up, or a Delay_Resp. -/
def State.ptpSync (s : State) (m : PtpMeas) : State :=
  if !s.fromParent m.port then s
  else match m.kind with
    | 0 => s.takeSync m
    | 1 => s.modMill fun x => { x with twoStep := some (m.port, x.now) }
    | _ =>
      let s := s.modMill fun x => { x with delay := m.delay, offset := m.offset, gotDelay := true }
      if s.mill.gotSync then s.correct m.offset m.freqPpb else s

def execPtpSync (m : PtpMeas) (s : State) : Answer := .next (s.ptpSync m)

/-- PTP_FOLLOW_UP completes a two-step Sync. -/
def State.ptpFollowUp (s : State) (m : PtpMeas) : State :=
  if s.fromParent m.port && s.mill.twoStep.any (·.1 == m.port) then s.takeSync m else s

def execPtpFollowUp (m : PtpMeas) (s : State) : Answer := .next (s.ptpFollowUp m)

/-- PTP_UNSUPPORTED (R40). -/
def execPtpUnsupported (_port : Nat) (s : State) : Answer :=
  .next (if s.sluiceOpen then s.modMill fun m => { m with discards := m.discards + 1 } else s)

/-- PTP_HOLDOVER: four Sync intervals without a valid Sync while LOCKED. -/
def State.ptpHoldover (s : State) : State :=
  let m := s.mill
  if m.state = .locked ∧ m.lastSync + 4 * m.syncInterval ≤ m.now then
    (s.modMill fun m => { m with state := .holdover, goodSyncs := 0 }).raise (govDevFault 0x0109)
  else s

def execPtpHoldover (s : State) : Answer := .next s.ptpHoldover

/-- PTP_ANNOUNCE: the best master clock algorithm has chosen the slave port, 0xF for none. -/
def State.ptpAnnounce (s : State) (port slave : Nat) : State :=
  if s.sluiceOpen ∧ s.mill.role ≠ 0 ∧ s.ptpOn port ∧ (slave = 0xF ∨ s.ptpOn slave) then
    s.modMill fun m => if m.slavePort = slave then m else { m with slavePort := slave, twoStep := none }
  else s

def execPtpAnnounce (port slave : Nat) (s : State) : Answer := .next (s.ptpAnnounce port slave)

/-- A master port of the boundary clock. -/
def State.masterPort (s : State) (k : Nat) : Bool := s.sluiceOpen && s.mill.role == 2 && s.ptpOn k && s.mill.slavePort != k && s.mill.slavePort != 0xF

/-- PTP_DELAY_REQ: answered with Delay_Resp (message type 9). -/
def execPtpDelayReq (port : Nat) (s : State) : Answer := .next (if s.masterPort port then s.send (.ptp 9 port s.now) else s)

/-- PTP_MASTER_SYNC: a two-step Sync, its Follow_Up and an Announce (message types 0, 8 and 11). -/
def execPtpMasterSync (port : Nat) (s : State) : Answer :=
  .next (if s.masterPort port then s.sendAll [.ptp 0 port s.now, .ptp 8 port s.now, .ptp 11 port s.now] else s)

/-- PPS_IN_EDGE: timestamped; with ROLE 0 and PPS_IN_EN it disciplines the frequency, by an amount the spec leaves to the servo. -/
def State.ppsIn (s : State) : State :=
  let s := s.modMill fun m => { m with ppsLast := m.now }
  if s.mill.role = 0 ∧ bit s.mill.ctrl 29 then
    let r := s.now % 1000000000
    let off : Int := if r < 500000000 then r else (r : Int) - 1000000000
    let f := s.slewFreq 0 off
    f.2.modMill fun m => { m with freqPpb := f.1 }
  else s

/-- A device held in reset ignores the pin (R441). -/
def execPpsInEdge (s : State) : Answer := .next (if s.life.phase = .held then s else s.ppsIn)

/-- PPS_OUT_EDGE: a whole second of mill time while PPS_OUT_EN is 1. -/
def State.ppsOut (s : State) : State :=
  if bit s.mill.ctrl 30 ∧ s.now % 1000000000 = 0 ∧ s.mill.ppsOutLast ≠ some s.now then
    (s.modMill fun m => { m with ppsOutLast := some m.now }).send (.pps s.now)
  else s

def execPpsOutEdge (s : State) : Answer := .next s.ppsOut

end Sys2Proof.Machine
end

