-- ==== Sys2Proof/Machine/Quern.lean ====
section
/-! DEFINITION. The commands of the Quern (chapter 08): ingest, latch, sweep, flip pass, lagged sweeps, and loading a table. -/
namespace Sys2Proof.Machine
open Sys2Proof

/-- A Quern works for a partition only while it runs and is not braking, has not stopped (R198), and the
clocks run (R418). -/
def State.quernOn (s : State) (p d : Nat) : Bool :=
  let q := s.quern p d
  let v := s.part p
  q.loaded && !q.stopped && v.state == .running && !v.gov.braking && !s.pwr.stopped

/-- The step that the Quern is at is not abandoned. -/
def State.stepOn (s : State) (p step : Nat) : Bool :=
  !((s.part p).gov.aborted && (s.part p).gov.step.toNat == step)

/-- The Quern signals a sync object; 0xFFFF names none. -/
def State.quernSignal (s : State) (p d i v : Nat) : State :=
  if i = 0xFFFF then s else s.signalled p i (BitVec.ofNat 64 v) (.quern p d)

/-- The verdict of the checks on a Quern unit: a first residue failure is redone with the same result, a second stops the work
with 0x0407 (R198). -/
def State.quernCheck (s : State) (p d : Nat) : HwCheck → Bool × State
  | .residueAgain => (false, s.quernStop p d { code := 0x0407 })
  | hw => s.engineEcc p (locQuern p d) hw

/-- An ingest is due (R193): the shard is the first in the order of satisfaction, and no other ingest of the die's runs. -/
def State.ingestDue (s : State) (p d k : Nat) (sh : Shard) : Bool :=
  let q := s.quern p d
  s.quernOn p d && s.stepOn p (q.shardStep sh) && !(q.runs.any fun e => e.2.ingesting) && q.ready.head? == some k

/-- Copy a shard's Tin56 buffer into the retained gradient of its inactive half (R193). -/
def State.ingest (s : State) (x p d k : Nat) (sh : Shard) : State :=
  let q := s.quern p d
  let cw := s.commitWord x q k
  match cw.2.1 with
  | some f => cw.2.2.quernStop p d f
  | none =>
    let half := !bit cw.1 0
    let g := ingestBytes (readGran s.granary ((s.part p).map.slices d) sh.gradOff (8 * sh.count))
    let base := if half then sh.offB else sh.offA
    let ep := q.epoch k half false
    let w := cw.2.2.quernWrites x sh.obj ep [(base + partOffset sh (q.layoutRule sh) .grad, padded g.1)]
    match w.1 with
    | some f => w.2.quernStop p d f
    | none => w.2.modQuern p d fun q => { (q.setEpoch k half true ep).setRun k { q.run k with ingesting := true } with ready := q.ready.filter (· != k) }

/-- QUERN_INGEST (R193). -/
def State.quernIngest (s : State) (p d k : Nat) (hw : HwCheck) : State :=
  match (s.quern p d).shards[k]?, s.home p with
  | some sh, some x =>
    if s.ingestDue p d k sh then
      let c := s.quernCheck p d hw
      if c.1 then c.2.ingest x p d k sh else c.2
    else s
  | _, _ => s

def execQuernIngest (part die shard : Nat) (hw : HwCheck) (s : State) : Answer := .next (s.quernIngest part die shard hw)

/-- INGEST_COMPLETE: the shard is wholly ingested, and FREE_SYNC is signalled (R193). -/
def State.ingestComplete (s : State) (p d k : Nat) : State :=
  let q := s.quern p d
  match q.shards[k]? with
  | none => s
  | some sh =>
    let r := q.run k
    if r.ingesting && s.quernOn p d && s.stepOn p (q.shardStep sh) then
      (s.setQuern p d (q.setRun k { r with ingesting := false, ingested := true })).quernSignal p d sh.freeSync (q.shardStep sh + 1)
    else s

def execIngestComplete (part die shard : Nat) (s : State) : Answer := .next (s.ingestComplete part die shard)

/-- The rule sets that the table's shards use, as the table holds them now. -/
def State.readRules (s : State) (x : Nat) (q : Quern) : NatMap RuleSet × Option QFail × State :=
  let r := s.quernReads x q.loadedTable 0 [(0x100, 1024)]
  let bs := r.1.headD []
  ((List.range 16).foldl (fun m k => NatMap.set {} m k (ruleSetOf (slice bs (64 * k) 64))) [], r.2.1, r.2.2)

/-- Rule set `k` is used, and its latched value obeys Table 08.5 with the parts recorded at LOAD (R188). -/
def Quern.ruleOk (q : Quern) (m : NatMap RuleSet) (k : Nat) : Bool :=
  let r := NatMap.get {} m k
  r.valid && NatMap.get 0 q.loadRules k == ruleParts r.rule + 1

/-- RULE_LATCH (R188): when GO_SYNC reaches the step's target the rule sets are latched and checked; where one that a shard uses breaks
Table 08.5 fault 0x0406 is raised, and the step's sweep does not start. -/
def State.ruleLatch (s : State) (p d : Nat) : State :=
  let q := s.quern p d
  let t := q.step + 1
  if s.quernOn p d && s.stepOn p q.step && q.latchedFor != some q.step && q.goAwait != t
      && waitOk (s.syncValue p q.goSync) (BitVec.ofNat 64 t) then
    match s.home p with
    | none => s
    | some x =>
      let r := s.readRules x q
      match r.2.1 with
      | some f => r.2.2.quernStop p d f
      | none =>
        let used := fun k => q.shards.any (·.ruleset == k)
        let good := fun k => if used k then q.ruleOk r.1 k else (NatMap.get {} r.1 k).valid
        let bad := (List.range 16).any fun k => used k && !good k
        let s := r.2.2.modQuern p d fun q =>
          { q with latched := r.1, latchedFor := some q.step, latchBad := bad, ruleValid := maskOf ((List.range 16).filter good) }
        if bad then s.raise { code := 0x0406, loc := locQuern p d, severity := 0 } else s
  else s

def execRuleLatch (part die : Nat) (s : State) : Answer := .next (s.ruleLatch part die)

/-- The sweep of the step is due (Table 08.6 order 3), and no resolution runs (R399). -/
def State.sweepDue (s : State) (p d : Nat) : Bool :=
  let q := s.quern p d
  s.quernOn p d && s.stepOn p q.step && q.latchedFor == some q.step && !q.latchBad && !q.sweeping && !q.swept && !q.flipping
  && (q.sweepClass.all fun e => (q.run e.1).ingested) && !(NatMap.get {} s.resolves p).busy

/-- QUERN_SWEEP (R194): every sweep-class shard, in table order, into its inactive half. -/
def State.quernSweep (s : State) (p d : Nat) (hw : HwCheck) : State :=
  match s.home p with
  | none => s
  | some x =>
    if s.sweepDue p d then
      let c := s.quernCheck p d hw
      if !c.1 then c.2
      else
        let q := c.2.quern p d
        let r := c.2.sweepShards x p d q.step 0 0 q.latched q.sweepClass
        match r.1 with
        | some f => r.2.quernStop p d f
        | none => r.2.modQuern p d fun q => { q with sweeping := true, sweptRules := q.latched }
    else s

def execQuernSweep (part die : Nat) (hw : HwCheck) (s : State) : Answer := .next (s.quernSweep part die hw)

/-- SWEEP_COMPLETE: SWEPT_SYNC is signalled s + 1. -/
def State.sweepComplete (s : State) (p d : Nat) : State :=
  let q := s.quern p d
  if q.sweeping && s.quernOn p d && s.stepOn p q.step then
    (s.setQuern p d { q with sweeping := false, swept := true }).quernSignal p d q.sweptSync (q.step + 1)
  else s

def execSweepComplete (part die : Nat) (s : State) : Answer := .next (s.sweepComplete part die)

/-- FLIP_PASS (R196): after the sweep and the commit point, the commit words of the sweep-class shards are written. -/
def State.flipPass (s : State) (p d : Nat) : State :=
  let q := s.quern p d
  match s.home p with
  | none => s
  | some x =>
    if q.loaded && !q.stopped && !s.pwr.stopped && (s.part p).state == .running && q.swept && !q.flipping
        && waitOk (s.syncValue p q.commitSync) (BitVec.ofNat 64 (q.step + 1)) && decide (q.step < (s.part p).gov.step.toNat) then
      let r := s.flipShards x p d q.step q.sweepClass
      match r.1 with
      | some f => r.2.quernStop p d f
      | none => r.2.modQuern p d fun q => { q with flipping := true }
    else s

def execFlipPass (part die : Nat) (s : State) : Answer := .next (s.flipPass part die)

/-- FLIP_COMPLETE: QRN_VERSION shows the new version, DONE_SYNC is signalled s + 1, the shards are at the next step; a brake
that waited for the commit takes effect (R55). -/
def State.flipComplete (s : State) (p d : Nat) : State :=
  let q := s.quern p d
  if q.flipping then
    let runs := q.sweepClass.foldl (fun m e => NatMap.set {} m e.1 { await := (q.run e.1).await }) q.runs
    let lagged := if q.groups.isEmpty then q.laggedRules else NatMap.set [] q.laggedRules q.step q.latched
    let s := s.setQuern p d { q with flipping := false, swept := false, step := q.step + 1, version := (q.step + 1) % 2 ^ 48, runs := runs
                                     laggedRules := lagged }
    let s := (s.queueIngests p).quernSignal p d q.doneSync (q.step + 1)
    if (s.part p).gov.brakeAfterCommit && s.flipsDone p then s.brakeStep p 0xFF else s
  else s

def execFlipComplete (part die : Nat) (s : State) : Answer := .next (s.flipComplete part die)

/-- The lagged sweep of a group is due (Table 08.6 order 5, R199): the die's flip pass for its step has ended, its shards are
ingested, and the groups go one by one in group order. -/
def State.laggedDue (s : State) (p d g : Nat) : Bool :=
  let q := s.quern p d
  let r := NatMap.get {} q.groups g
  s.quernOn p d && r.nslot != 0 && r.sweeping.isNone && decide (r.nextStep < q.step)
  && ((q.groupShards g).all fun e => (q.run e.1).ingested)
  && q.groups.all fun e => e.2.sweeping.isNone && (decide (g ≤ e.1) || decide (r.nextStep < e.2.nextStep))

/-- The slot a lagged sweep writes: that of a sweep cut short (R198), else the lowest FREE one. -/
def LagGroup.sweepSlot (r : LagGroup) : Option Nat :=
  ((List.range r.nslot).find? fun k => (r.slot k).state == .writing).orElse fun _ =>
    (List.range r.nslot).find? fun k => (r.slot k).state == .free

/-- LAGGED_SWEEP (R199), by the rule sets latched for its step: the lowest FREE slot is taken; with none free the sweep waits and raises
0x0404 once. -/
def State.laggedSweep (s : State) (p d g : Nat) (hw : HwCheck) : State :=
  match s.home p with
  | none => s
  | some x =>
    if s.laggedDue p d g then
      let q := s.quern p d
      let r := NatMap.get {} q.groups g
      match r.sweepSlot with
      | none =>
        if r.slotWaitRaised then s
        else (s.setQuern p d { q with groups := NatMap.set {} q.groups g { r with slotWaitRaised := true } }).raise
          { code := 0x0404, loc := locQuern p d }
      | some k =>
        let c := s.quernCheck p d hw
        if !c.1 then c.2
        else
          let e := if (r.slot k).state == .writing then ((r.slot k).epoch, c.2) else c.2.takeEpoch (c.2.ctxKid x)
          let rules := NatMap.get [] q.laggedRules r.nextStep
          let r' := r.setSlot k { state := .writing, epoch := e.1 }
          let r' := { r' with sweeping := some (r.nextStep, k), slotWaitRaised := false, sweptRules := rules }
          let s := e.2.modQuern p d fun q => { q with groups := NatMap.set {} q.groups g r' }
          let w := s.sweepShards x p d r.nextStep k e.1 rules (q.groupShards g)
          match w.1 with
          | some f => w.2.quernStop p d f
          | none => w.2
    else s

def execLaggedSweep (part die group : Nat) (hw : HwCheck) (s : State) : Answer := .next (s.laggedSweep part die group hw)

/-- A group's slot takes its version: references that waited for it are added (R199). -/
def LagGroup.commit (r : LagGroup) (step k : Nat) : LagGroup :=
  let v := step + 1
  let refs := (r.pendingRefs.filter (·.1 == v)).foldl (fun n e => n + e.2) 0
  { (r.setSlot k { version := v, refs := refs, state := .committed, epoch := (r.slot k).epoch }) with
    newest := v, sweeping := none, nextStep := v, pendingRefs := r.pendingRefs.filter (·.1 != v) }

/-- LAGGED_COMMIT (R199): the group's shards are flipped, then its slot is COMMITTED. -/
def State.laggedCommit (s : State) (p d g : Nat) : State :=
  let q := s.quern p d
  let r := NatMap.get {} q.groups g
  match r.sweeping, s.home p with
  | some (step, k), some x =>
    if s.quernOn p d then
      let f := s.flipShards x p d step (q.groupShards g)
      match f.1 with
      | some e => f.2.quernStop p d e
      | none => (f.2.modQuern p d fun q =>
          let gs := NatMap.modify {} q.groups g (·.commit step k)
          { q with groups := gs, laggedRules := q.laggedRules.filter fun e => gs.any fun g => decide (g.2.nextStep ≤ e.1)
                   runs := (q.groupShards g).foldl (fun m e => NatMap.set {} m e.1 { await := (q.run e.1).await }) q.runs }).queueIngests p
    else s
  | _, _ => s

def execLaggedCommit (part die group : Nat) (s : State) : Answer := .next (s.laggedCommit part die group)

/-- QRN_LOAD: a write of 1 to QRN_CMD (R202). -/
def execQrnLoad (rq : Req) (s : State) : Answer := .next (s.onPartDie rq 0x70008 fun p d s => (s.qrnLoad p d).queueIngests p)

/-- QRN_UNLOAD: a write of 2 to QRN_CMD (R202). -/
def execQrnUnload (rq : Req) (s : State) : Answer := .next (s.onPartDie rq 0x70008 fun p d s => s.qrnUnload p d)

end Sys2Proof.Machine
end

