-- ==== Sys2Proof/Machine/Sluice.lean ====
section
/-! DEFINITION. The Sluice (R301 to R303). -/
namespace Sys2Proof.Machine
open Sys2Proof

/-- The fields of a Sluice payload (Table 11.12) are valid: KIND is one of the five, reserved bytes are 0, and what the KIND uses is in
range. -/
def sluiceFieldsOk (b : List Byte) : Bool :=
  let kind := field b 0 1
  b.length == 32 && decide (1 ≤ kind) && decide (kind ≤ 5) && field b 1 1 == 0 && allZero (slice b 0x10 16)
  && (kind != 4 || (decide (1 ≤ field b 4 2) && decide (field b 4 2 ≤ 4095)))
  && (kind != 5 || (decide (field b 6 1 ≤ 7) && decide (field b 7 1 ≤ 1)))

/-- Sluice packets accepted in the present µs. -/
def State.sluiceNow (s : State) : Nat := if s.eth.sluiceUs = s.now / 1000 then s.eth.sluiceInUs else 0

/-- R302: the packet is accepted; the SLUICE key is used for its tag. -/
def State.sluiceAccepts (s : State) (p : Pkt) : Bool × State :=
  let r : Option (List Byte) × State := match s.slotOf 2 with
    | some n => s.useKey n 2
    | none => (none, s)
  let after := field p.payload 8 8
  (r.1.isSome && p.tagOk && p.prio == 7 && p.headerOk && p.part == 0xFF && decide (1 ≤ p.sender) && decide (p.sender ≤ 16)
    && decide (NatMap.get 0 s.eth.sluiceSeq p.sender ≤ p.seq) && (after == 0 || decide (s.now ≤ after)) && sluiceFieldsOk p.payload
    && decide (s.sluiceNow < 4), r.2)

/-- A refused Sluice packet is counted; the first on a port in any 1 ms raises 0x0708. -/
def State.sluiceRefuse (s : State) (p : Pkt) : State :=
  let s := s.modEth fun e => { e with sluiceRefused := min (e.sluiceRefused + 1) 0xFFFFFFFF }
  if (s.port p.port).lastRefusal.any fun t => decide (s.now < t + 1000000) then s
  else (s.modPort p.port fun x => { x with lastRefusal := some s.now }).raise { code := 0x0708, loc := locEth 0xFF p.port }

/-- An accepted packet is counted and its SEQ taken. -/
def State.sluiceTake (s : State) (p : Pkt) : State :=
  let n := s.sluiceNow
  s.modEth fun e =>
    { e with sluiceOk := min (e.sluiceOk + 1) 0xFFFFFFFF, sluiceSeq := NatMap.set 0 e.sluiceSeq p.sender (p.seq + 1)
             sluiceUs := s.now / 1000, sluiceInUs := n + 1 }

/-- A Sluice packet of one KIND: it acts where it is accepted, else it is refused. -/
def State.onSluice (s : State) (p : Pkt) (kind : Nat) (f : State → State) : State :=
  if p.sluice && s.sluiceOpen && field p.payload 0 1 == kind then
    let r := s.sluiceAccepts p
    if r.1 then f (r.2.sluiceTake p) else r.2.sluiceRefuse p
  else s

/-- SLUICE_REFUSED: a packet that R302 does not accept. -/
def execSluiceRefused (p : Pkt) (s : State) : Answer :=
  .next (if p.sluice && s.sluiceOpen then (let r := s.sluiceAccepts p; if r.1 then s else r.2.sluiceRefuse p) else s)

/-- BRAKE: HALT_PART for every partition that is ARMED, RUNNING or DRAINING. -/
def State.brakeAll (s : State) : State :=
  (List.range 16).foldl (fun s p =>
    let st := (s.part p).state
    if st = .armed ∨ st = .running ∨ st = .draining then s.brakeBy p .halt else s) s

def execBrake (p : Pkt) (s : State) : Answer := .next (s.onSluice p 1 State.brakeAll)

/-- LEASE: each named partition that is ARMED, RUNNING or BRAKED renews its lease at the receipt mill time (R58). -/
def State.leaseRenew (s : State) (p : Nat) : State :=
  let st := (s.part p).state
  if st = .armed ∨ st = .running ∨ st = .braked then
    s.modGov p fun g => { g with leaseExpiry := s.now + g.tt.leaseMs * 1000000, lapsed := false }
  else s

def execLease (p : Pkt) (s : State) : Answer :=
  .next (s.onSluice p 2 fun s => (bitsOf 16 (field p.payload 2 2)).foldl State.leaseRenew s)

/-- HALT_PART: each named partition brakes with 0x0108 (R59). -/
def execHaltPart (p : Pkt) (s : State) : Answer :=
  .next (s.onSluice p 3 fun s => (bitsOf 16 (field p.payload 2 2)).foldl (fun s q => s.brakeBy q .halt) s)

/-- ABORT_CTX: the context ends with fault 0x0706 (R291). -/
def State.abortCtx (s : State) (x : Nat) : State :=
  let st := (s.ctx x).state
  if st = .defined ∨ st = .resident then (s.endCtx x 2).raise (s.ctxFault x 0x0706 0) else s

def execAbortCtx (p : Pkt) (s : State) : Answer := .next (s.onSluice p 4 fun s => s.abortCtx (field p.payload 4 2))

/-- QUARANTINE_PORT: ACTION 0 quarantines the port with fault 0x0707, ACTION 1 restores it. -/
def State.quarantinePort (s : State) (k action : Nat) : State :=
  if action = 0 then (s.modPort k fun x => { x with quarantined := true }).raise { code := 0x0707, loc := locEth 0xFF k }
  else s.modPort k fun x => { x with quarantined := false }

def execQuarantinePort (p : Pkt) (s : State) : Answer :=
  .next (s.onSluice p 5 fun s => s.quarantinePort (field p.payload 6 1) (field p.payload 7 1))

end Sys2Proof.Machine
end

