-- ==== Sys2Proof/Machine/RegRead.lean ====
section
/-! DEFINITION. Reading the registers of chapter 17, block by block (Tables 17.2 and 17.4). -/
namespace Sys2Proof.Machine
open Sys2Proof

/-- What a read of an offset answers: none where the block lists no register there, else the value and the state after it. -/
abbrev RegAns := Option (Nat × State)

def State.ro (s : State) (v : Nat) : RegAns := some (v, s)

/-! ### What the selects show (R429 to R431) -/

/-- The value of a register windowed by PART_SEL: 0 where the select is out of range or ALL is set. -/
def State.pv (s : State) (rq : Req) (f : Nat → Nat) : RegAns := s.ro (match (s.sel rq).part? with | some p => f p | none => 0)

/-- A clearing read of a register windowed by PART_SEL. -/
def State.pvRc (s : State) (rq : Req) (f : Nat → Nat × State) : RegAns :=
  match (s.sel rq).part? with
  | some p => some (f p)
  | none => s.ro 0

/-- The same for the partition and die selected. -/
def State.pdv (s : State) (rq : Req) (f : Nat → Nat → Nat) : RegAns :=
  s.pv rq fun p => match (s.sel rq).die? with | some d => f p d | none => 0
def State.pdvRc (s : State) (rq : Req) (f : Nat → Nat → Nat × State) : RegAns :=
  s.pvRc rq fun p => match (s.sel rq).die? with | some d => f p d | none => (0, s)

def State.dv (s : State) (rq : Req) (f : Nat → Nat) : RegAns := s.ro (match (s.sel rq).die? with | some d => f d | none => 0)
def State.portv (s : State) (rq : Req) (f : Nat → Nat) : RegAns := s.ro (match (s.sel rq).port? with | some k => f k | none => 0)

/-! ### Counters (R340, R427) -/

/-- A value rounded down to a multiple of 2¹⁰. -/
def quantum (v : Nat) : Nat := v / 1024 * 1024

/-- A clearing read of a counter: exact, or quantized to its value at the last 1 ms boundary; what it returns is taken from it. -/
def Counter.read (c : Counter) (quantized : Bool) : Nat × Counter :=
  let q := if quantized then quantum c.latch else c.live
  (q, { c with live := c.live - q, latch := c.latch - q })

/-- The U-view total as a reader gets it. -/
def Counter.uTotal (c : Counter) (exact : Bool) : Nat := if exact then c.total else quantum c.totalLatch

/-- A party session of the charter a partition is BOUND to has a telemetry right (R341). -/
def State.partyRight (s : State) (rq : Req) (p b : Nat) : Bool :=
  match rq with
  | .session n =>
    let x := s.sec.session n
    x.role == 1 && s.boundCharter p == some x.charter
    && (match (s.sec.charter x.charter).charter.parties[x.party]? with
        | some e => bit e.telemetry b
        | none => false)
  | _ => false

/-- A reader gets a partition's U-view counters exact. -/
def State.exactFor (s : State) (rq : Req) (p : Nat) : Bool := !s.chartered p || s.partyRight rq p 0

/-! ### GLB (R436) -/

def State.sessionWord (s : State) : Req → Nat
  | .session n => n % 2 ^ 32 + (s.sec.session n).role % 256 * 2 ^ 32
  | .factory => 1 * 2 ^ 40
  | .board => 2 * 2 ^ 40

/-- An HBM stack is in self-refresh: its interface is gated, or the device is in Sleep or Deep sleep. -/
def State.selfRefresh (s : State) (k : Nat) : Bool := (s.pwr.domain (640 + 4 * (k / 2) + 2 + k % 2)).gated || s.pwr.state == 2 || s.pwr.state == 3

def State.hbmStatus (s : State) (k : Nat) : Nat :=
  pack [(0, 1, flag s.life.hbmTrained), (1, 1, flag (s.selfRefresh k)),
        (12, 4, maskOf ((List.range 4).filter fun i => s.boundParts.any fun p => bit (s.part p).map.hbmSets (4 * k + i)))]

def State.readGlb (s : State) (rq : Req) (off : Nat) : RegAns :=
  match off with
  | 0x00 => s.ro 0x4357720000000107
  | 0x08 => s.ro 0x1020400100080808
  | 0x10 => s.ro 0x0030401008021002
  | 0x18 => s.ro (s.sel rq).die
  | 0x20 => s.ro (s.sel rq).hbm
  | 0x28 => s.ro (if (s.sel rq).hbm < 16 then s.hbmStatus (s.sel rq).hbm else 0)
  | 0x30 => s.ro (s.sessionWord rq)
  | _ => none

/-! ### GOV (Tables 02.13, 02.14) -/

def PtpState.code : PtpState → Nat
  | .freerun => 0 | .acquiring => 1 | .locked => 2 | .holdover => 3

/-- A signed value in 32 bits, saturated. -/
def sat32i (v : Int) : Nat := (max (-2147483648) (min 2147483647 v) % 4294967296).toNat

def State.leaseWord (s : State) (g : Gov) : Nat :=
  pack [(0, 35, if g.lapsed then 0 else g.leaseExpiry - s.now), (35, 14, g.tt.leaseMs), (49, 1, flag g.lapsed)]

def Gov.missWord (g : Gov) : Nat :=
  let m := g.lastMiss
  pack [(0, 12, m.entry), (12, 4, m.kind), (16, 2, m.policy), (18, 1, flag m.demoted), (19, 1, flag m.implicit), (20, 28, m.late)]

def Gov.statusWord (g : Gov) : Nat :=
  pack [(0, 1, flag g.byLease), (1, 1, flag g.byPin), (2, 1, flag g.byHalt), (3, 1, flag g.byDeadline), (4, 1, flag g.aborted), (8, 8, g.cmdStatus)]

def State.readGov (s : State) (rq : Req) (off : Nat) : RegAns :=
  let m := s.mill
  match off with
  | 0x000 => s.ro m.now
  | 0x008 => s.ro m.ctrl
  | 0x010 => s.ro (pack [(0, 3, m.state.code), (4, 4, m.slavePort), (8, 1, flag m.stepBlocked)])
  | 0x018 => s.ro (sat32i m.offset + 4294967296 * sat32i m.freqPpb)
  | 0x020 => s.ro (flag m.lock)
  | 0x100 => s.pv rq fun p => (s.part p).gov.tt.period
  | 0x108 => s.pv rq fun p => (s.part p).gov.t0
  | 0x110 => s.pv rq fun p => (s.part p).gov.revCount
  | 0x118 => s.pv rq fun p => (s.part p).gov.step.toNat
  | 0x120 => s.pv rq fun p => s.leaseWord (s.part p).gov
  | 0x128 => s.ro 0
  | 0x130 => s.pv rq fun p => (s.part p).gov.statusWord
  | 0x138 => s.pvRc rq fun p => ((s.part p).gov.missCount, s.modGov p fun g => { g with missCount := 0 })
  | 0x140 => s.pv rq fun p => (s.part p).gov.missWord
  | _ => none

/-! ### WEIR and SYNC (chapter 10) -/

/-- A clearing read of one of a partition's Weir and sync counters. -/
def State.weirRc (s : State) (rq : Req) (get : Weir → Counter) (set : Weir → Counter → Weir) : RegAns :=
  s.pvRc rq fun p =>
    let r := (get (s.weir p)).read (s.chartered p)
    (r.1, s.modWeir p fun w => set w r.2)

def Weir.diffWord (w : Weir) : Nat :=
  pack [(0, 1, flag w.diffValid), (16, 6, w.diffReplica), (24, 3, w.diffDie), (48, 16, w.diffShard)]

def State.readWeir (s : State) (rq : Req) (off : Nat) : RegAns :=
  match off with
  | 0x00 => s.pv rq fun p => (s.weir p).table
  | 0x08 => s.ro 0
  | 0x10 => s.pv rq fun p => (s.weir p).statusWord
  | 0x18 => s.pv rq fun p => pack [(0, 32, (s.weir p).argHandle), (32, 6, (s.weir p).argDomain)]
  | 0x20 => s.pv rq fun p => (s.weir p).members
  | 0x28 => s.pv rq fun p => (s.weir p).diffWord
  | 0x30 => s.weirRc rq (·.assayFails) fun w c => { w with assayFails := c }
  | 0x38 => s.weirRc rq (·.late) fun w c => { w with late := c }
  | 0x40 => s.weirRc rq (·.eccAborts) fun w c => { w with eccAborts := c }
  | _ => none

/-- SYNC_VALUE and SYNC_STATE of object `i`; 0 beyond the partition's quota. -/
def State.syncValueWord (s : State) (p i : Nat) : Nat := if i < (s.part p).map.syncQuota then (s.syncValue p i).toNat else 0
def State.syncStateWord (s : State) (p i : Nat) : Nat :=
  let w := s.weir p
  match w.counterEntry i with
  | none => 0
  | some e =>
    let o := w.obj i
    pack [(0, 32, o.epoch), (32, 2, 1), (34, 2, e.scope), (36, 1, flag (o.arrived || !o.leaf.isEmpty || !o.arrivals.isEmpty)), (37, 1, flag o.failed)]

/-- A clearing read of a SYNC counter: 0, and nothing cleared, with an index beyond the quota selected (R274). -/
def State.syncRc (s : State) (rq : Req) (i : Nat) (get : Weir → Counter) (set : Weir → Counter → Weir) : RegAns :=
  match (s.sel rq).part? with
  | some p => if i < (s.part p).map.syncQuota then s.weirRc rq get set else s.ro 0
  | none => s.ro 0

def State.readSync (s : State) (rq : Req) (off : Nat) : RegAns :=
  let i := (s.sel rq).sync
  match off with
  | 0x00 => s.pv rq fun _ => i
  | 0x08 => s.pv rq fun p => s.syncValueWord p i
  | 0x10 => s.pv rq fun p => s.syncStateWord p i
  | 0x18 => s.pv rq fun p => if i < (s.part p).map.syncQuota then (s.part p).map.syncQuota % 16384 else 0
  | 0x20 => s.syncRc rq i (·.regress) fun w c => { w with regress := c }
  | 0x28 => s.syncRc rq i (·.resignals) fun w c => { w with resignals := c }
  | 0x30 => s.syncRc rq i (·.stale) fun w c => { w with stale := c }
  | _ => none

/-! ### CTX (Table 11.16) -/

def Ctx.liveCount (c : Ctx) : Nat := (c.objects.filter fun e => e.2.live).length
def Ctx.faultWord (c : Ctx) : Nat := pack [(0, 16, c.faultCode), (16, 3, c.faultQueue), (32, 32, c.faultIndex)]

def State.readCtx (s : State) (rq : Req) (off : Nat) : RegAns :=
  let x := (s.sel rq).ctx
  match off with
  | 0x00 => s.ro x
  | 0x08 => s.ro 0
  | 0x10 => s.ro s.ctxRegs.descObj
  | 0x18 => s.ro s.ctxRegs.arg
  | 0x20 => s.ro ((s.ctx x).statusWord x)
  | 0x28 => s.ro ((s.ctx x).liveCount % 1048576)
  | 0x30 => s.ro (s.ctx x).faultWord
  | _ => if 0x100 ≤ off ∧ off ≤ 0x198 then s.ro (NatMap.get 0 s.ctxRegs.desc ((off - 0x100) / 8)).toNat else none

/-! ### PART (Tables 01.14 to 01.19) -/

/-- PART_STATE. A stream is staged for the partition alone, or within the staged full stream. -/
def State.partStateWord (s : State) (p : Nat) : Nat :=
  let v := s.part p
  let staged := v.staged.isSome || s.stagedFull.any fun st => st.parts.contains p
  pack [(0, 3, v.state.code), (7, 1, flag (v.state != .free && v.charter.isEmpty)), (8, 1, flag staged)]

/-- A resource or digest register: a FREE partition reads 0. -/
def State.boundValue (s : State) (p : Nat) (f : Part → Nat) : Nat := if (s.part p).state = .free then 0 else f (s.part p)

/-- Word `k` of a digest. -/
def digestReg (d : List Byte) (k : Nat) : Nat := field d (8 * k) 8

def State.readPart (s : State) (rq : Req) (off : Nat) : RegAns :=
  match off with
  | 0x00 => s.ro ((s.sel rq).part + 16 * flag (s.sel rq).partAll)
  | 0x08 => s.ro 0
  | 0x10 => s.pv rq s.partStateWord
  | 0x18 => s.pv rq fun p =>
      let v := s.part p
      pack [(0, 8, v.status), (8, 1, flag v.rebind.inProgress), (9, 1, flag v.brakedDrain), (16, 16, v.secNo)]
  | 0x20 => s.pv rq fun p => NatMap.get 0 s.stageObj p
  | 0x28 => s.pv rq fun p => NatMap.get 0 s.stageLen p
  | 0x30 => s.pv rq fun p => (s.part p).drainLimit
  | 0x38 => s.ro (flag s.partLock)
  | 0x40 => s.pv rq fun p => s.boundValue p fun v => v.map.clusters
  | 0x48 => s.pv rq fun p => s.boundValue p fun v => v.map.hbmSets
  | 0x50 => s.pv rq fun p => s.boundValue p fun v => v.map.granary
  | 0x58 => s.pv rq fun p => s.boundValue p fun v => maskOf v.keyIds
  | 0x60 => s.pv rq fun p => s.boundValue p fun v => v.rebindNs
  | 0x80 | 0x88 | 0x90 | 0x98 => s.pv rq fun p => s.boundValue p fun v => digestReg ((v.stream.map (·.digest)).getD []) ((off - 0x80) / 8)
  | 0xA0 | 0xA8 | 0xB0 | 0xB8 => s.pv rq fun p => s.boundValue p fun v => digestReg v.charter ((off - 0xA0) / 8)
  | _ => none

/-! ### TILE (Table 03.15) -/

/-- STATE of a tile. -/
def Tile.stateCode (x : Tile) : Nat :=
  if x.quarantined || x.arbitrating then 5 else if x.test.isSome then 4 else if x.scrubbing then 3 else if x.halted then 2
  else if x.queue.isEmpty && x.flight.isEmpty then 0 else 1

def GroupState.code : GroupState → Nat
  | .free => 0 | .opened => 1 | .closed => 2

def MatrixArray.stateWord (a : MatrixArray) : Nat := pack ((List.range 8).map fun g => (2 * g, 2, (NatMap.get {} a.groups g).state.code))

def State.tileStatusWord (s : State) (t : Nat) : Nat :=
  let x := s.tile t
  pack [(0, 3, x.stateCode), (8, 7, x.queue.length), (16, 4, (s.tilePart t).getD 0), (20, 1, flag (s.tilePart t).isSome), (24, 16, x.dropped)]

/-- CAUSE of RAS_TILE (Table 15.14). -/
def QuarCause.code : QuarCause → Nat
  | .none => 0 | .array => 1 | .noVote => 2 | .operandPath => 3 | .logicBist => 4 | .memoryBist => 5 | .vector => 6 | .drain => 7 | .ecc => 8

/-- TILE_TOP_COUNT: quantized for a partition bound to a charter (R91, R340). -/
def State.topCountWord (s : State) (t : Nat) : Nat :=
  if (s.tilePart t).any s.chartered then quantum (s.tile t).topLatch else (s.tile t).topCount

def State.readTile (s : State) (rq : Req) (off : Nat) : RegAns :=
  let t := (s.sel rq).tile
  let x := s.tile t
  let c := s.cluster (tileCluster t)
  match off with
  | 0x00 => s.ro t
  | 0x08 => some (s.tileStatusWord t, s.setTile t { x with dropped := 0 })
  | 0x10 => s.ro (pack [(0, 16, x.faultCode), (16, 8, x.faultOpcode)])
  | 0x18 => s.ro (x.faultTop.toNat % 2 ^ 64)
  | 0x20 => s.ro (x.faultTop.toNat / 2 ^ 64)
  | 0x28 => s.ro (x.arrA.stateWord + 65536 * x.arrB.stateWord)
  | 0x30 => s.ro (s.topCountWord t)
  | 0x38 => s.ro 0
  | 0x40 => s.ro (pack [(0, 1, flag c.halted), (1, 1, flag c.trapped), (16, 16, c.cause)])
  | 0x48 => s.ro c.pc.toNat
  | _ => none

/-! ### QRN (chapter 08) -/

def SlotState.code : SlotState → Nat
  | .free => 0 | .writing => 1 | .committed => 2

def State.slotWord (s : State) (p d g k : Nat) : Nat :=
  let r := NatMap.get {} (s.quern p d).groups g
  if r.nslot ≤ k then 0
  else pack [(0, 2, (r.slot k).state.code), (2, 1, flag (r.live (s.part p).gov.step.toNat k)), (8, 8, (r.slot k).refs), (16, 48, (r.slot k).version)]

def State.readQrn (s : State) (rq : Req) (off : Nat) : RegAns :=
  match off with
  | 0x00 => s.pdv rq fun p d => (s.quern p d).table
  | 0x08 => s.ro 0
  | 0x10 => s.pdv rq fun p d => (s.quern p d).statusWord
  | 0x18 => s.pdv rq fun p d => (s.quern p d).ruleValid
  | 0x20 => s.pdv rq fun p d => (s.quern p d).version % 2 ^ 48
  | 0x28 => s.pdvRc rq fun p d =>
      let r := (s.quern p d).skips.read (s.chartered p)
      (r.1, s.modQuern p d fun q => { q with skips := r.2 })
  | 0x30 => s.pdvRc rq fun p d =>
      let r := (s.quern p d).saturated.read (s.chartered p)
      (r.1, s.modQuern p d fun q => { q with saturated := r.2 })
  | 0x38 => s.pdv rq fun p d => (s.quern p d).groupSel
  | 0x40 => s.pdv rq fun p d =>
      let r := NatMap.get {} (s.quern p d).groups (s.quern p d).groupSel
      pack [(0, 3, r.d), (4, 4, r.nslot), (16, 48, r.newest)]
  | _ => if 0x80 ≤ off ∧ off ≤ 0xB8 then s.pdv rq fun p d => s.slotWord p d (s.quern p d).groupSel ((off - 0x80) / 8) else none

/-! ### MEM (Table 09.10) and MCE (Table 13.9) -/

/-- A clearing read of a pair of Bolter counters, always quantized. -/
def State.bolterRc (s : State) (in_ out : MemRegs → Counter) (set : MemRegs → Counter → Counter → MemRegs) : RegAns :=
  let a := (in_ s.mem).read true
  let b := (out s.mem).read true
  some (a.1 + 4294967296 * b.1, s.modMem fun m => set m a.2 b.2)

def State.readMem (s : State) (rq : Req) (off : Nat) : RegAns :=
  let l := (s.sel rq).leat
  let r := s.leat (l / 16) (l % 16)
  match off with
  | 0x00 => s.ro (flag s.mem.lock)
  | 0x08 => s.ro (pack [(0, 16, s.mem.installed), (32, 16, s.mem.extents)])
  | 0x10 => s.ro 0
  | 0x18 => s.ro s.mem.statusWord
  | 0x20 => s.pvRc rq fun p =>
      let r := (NatMap.get {} s.tollFails p).read (s.chartered p)
      (r.1, { s with tollFails := NatMap.set {} s.tollFails p r.2 })
  | 0x28 => s.ro l
  | 0x30 => s.ro (pack [(0, 1, flag r.running), (1, 1, flag r.faulted), (32, 16, r.fault)])
  | 0x38 => s.ro r.nextSeg
  | 0x40 => s.bolterRc (·.encIn) (·.encOut) fun m a b => { m with encIn := a, encOut := b }
  | 0x48 => s.bolterRc (·.decIn) (·.decOut) fun m a b => { m with decIn := a, decOut := b }
  | _ => none

def KeyIdState.code : KeyIdState → Nat
  | .free => 0 | .assigned => 1 | .retiring => 2 | .dead => 3

def State.readMce (s : State) (rq : Req) (off : Nat) : RegAns :=
  let m := s.mce
  let k := m.keyId (s.sel rq).keyid
  match off with
  | 0x00 => s.ro (flag m.lock)
  | 0x08 => s.ro (s.sel rq).keyid
  | 0x10 => s.ro (pack [(0, 2, k.state.code), (4, 4, k.part)])
  | 0x18 => s.ro (k.epoch % 2 ^ 48)
  | 0x20 => some (m.eccCorr, { s with mce := { m with eccCorr := 0 } })
  | 0x28 => some (m.eccUncorr, { s with mce := { m with eccUncorr := 0 } })
  | 0x30 => some (m.tagFails, { s with mce := { m with tagFails := 0 } })
  | 0x38 => some (m.poisoned, { s with mce := { m with poisoned := 0 } })
  | 0x40 => s.ro (pack [(0, 8, m.ring), (8, 8, m.chord), (16, 8, m.io), (24, 8, m.ctrl)])
  | 0x48 => s.ro (pack [(0, 1, flag m.tampered), (1, 1, flag m.pin), (2, 1, flag m.glitch)])
  | _ => none

/-! ### ETH (Tables 11.18, 13.9) -/

def QpState.code : QpState → Nat
  | .reset => 0 | .rts => 1 | .error => 2

/-- ETH_MACSEC_STATUS. DESIGN CHOICE: KN and KEY_SERVER of a port with several sub-ports are those of sub-port 0. -/
def State.macsecStatusWord (s : State) (k : Nat) : Nat :=
  let x := s.port k
  pack [(0, 1, flag (s.macsecUp k)), (1, 1, flag (x.sub 0).keyServer), (2, 1, flag x.macsecEn), (3, 1, flag x.macsecRequire), (8, 8, x.subUp), (32, 32, (x.sub 0).sakKn)]

def State.readEth (s : State) (rq : Req) (off : Nat) : RegAns :=
  let q := s.qp (s.sel rq).qp
  match off with
  | 0x00 => s.ro (s.sel rq).port
  | 0x08 => s.portv rq fun k => pack [(0, 3, (s.port k).breakout), (8, 8, (s.port k).pfcEn), (16, 1, flag (s.port k).v6)]
  | 0x10 => s.portv rq fun k =>
      pack [(0, 1, flag (s.port k).link), (1, 1, flag (s.port k).quarantined), (2, 1, flag (s.macsecUp k)), (8, 8, (s.port k).lanes)]
  | 0x18 => s.portv rq fun k => (s.port k).mac
  | 0x20 => s.portv rq fun k => (s.port k).ip4
  | 0x28 => s.portv rq fun k => (s.port k).ip60.toNat
  | 0x30 => s.portv rq fun k => (s.port k).ip61.toNat
  | 0x38 => s.ro (flag s.eth.lock)
  | 0x40 => s.ro (s.sel rq).qp
  | 0x48 => s.ro (pack [(0, 4, q.part), (4, 12, q.ctx), (16, 4, q.port), (20, 1, flag q.ipv6), (22, 2, q.state.code), (24, 24, q.remoteQpn)])
  | 0x50 => s.ro (pack [(0, 24, q.sqPsn), (24, 24, q.rqPsn)])
  | 0x58 => s.ro q.rmac
  | 0x60 => s.ro q.raddr0.toNat
  | 0x68 => s.ro q.raddr1.toNat
  | 0x70 => s.ro 0
  | 0x78 => s.ro s.eth.cmdStatus
  | 0x80 => some (pack [(0, 32, s.eth.dropAuth), (32, 32, s.eth.dropReplay)], s.modEth fun e => { e with dropAuth := 0, dropReplay := 0 })
  | 0x88 => some (pack [(0, 32, s.eth.sluiceOk), (32, 32, s.eth.sluiceRefused)], s.modEth fun e => { e with sluiceOk := 0, sluiceRefused := 0 })
  | 0x100 => s.portv rq fun k => pack [(0, 8, (s.port k).ksPriority), (8, 8, (s.port k).cakSlot), (16, 32, (s.port k).replayWindow)]
  | 0x108 => s.portv rq s.macsecStatusWord
  | 0x110 => s.portv rq fun k => (s.port k).ckn0.toNat
  | 0x118 => s.portv rq fun k => (s.port k).ckn1.toNat
  | 0x120 => match (s.sel rq).port? with
      | none => s.ro 0
      | some k => some (pack [(0, 32, (s.port k).dropIcv), (32, 32, (s.port k).dropUnprotected)], s.modPort k fun x => { x with dropIcv := 0, dropUnprotected := 0 })
  | _ => none

/-! ### SEC (Table 12.15) and LC (Table 14.10) -/

def CharterState.code : CharterState → Nat
  | .empty => 0 | .pending => 1 | .active => 2 | .bound => 3
def RelState.code : RelState → Nat
  | .none => 0 | .waiting => 1 | .running => 2 | .done => 3

/-- SEC_ATTEST. -/
def Security.attestWord (x : Security) : Nat :=
  pack [(0, 17, if x.attKey.isSome then 65536 - x.attIndex else 0), (24, 21, x.idValue.getD 0), (48, 16, if x.bootCert.isEmpty then 0 else x.certSeq)]

def State.readSec (s : State) (rq : Req) (off : Nat) : RegAns :=
  let x := s.sec
  let k := x.slot (s.sel rq).key
  let c := x.charter (s.sel rq).charterSlot
  match off with
  | 0x00 => s.ro (s.sel rq).key
  | 0x08 => s.ro k.metaWord
  | 0x10 => s.ro k.uses
  | 0x18 => s.ro x.keyNew
  | 0x20 | 0x28 | 0x30 | 0x38 | 0x40 => s.ro 0
  | 0x48 => s.ro x.obj
  | 0x50 => s.ro x.len
  | 0x58 => s.ro ((s.sel rq).charterSlot + 16 * (s.sel rq).charterPart)
  | 0x60 => s.ro (pack [(0, 3, c.state.code), (4, 4, c.part), (8, 5, c.charter.parties.length), (16, 16, c.sharesMask)])
  | 0x68 => s.ro 0
  | 0x70 => s.ro x.statusWord
  | 0x78 => s.ro x.attestWord
  | 0x80 => s.ro c.relRegs.src
  | 0x88 => s.ro c.relRegs.off
  | 0x90 => s.ro c.relRegs.len
  | 0x98 => s.ro c.relRegs.dst
  | 0xA0 => s.ro c.relRegs.dstOff
  | 0xA8 => s.ro (pack [(0, 2, c.release.state.code), (16, 16, c.release.approved), (32, 32, c.release.reqId)])
  | 0xB0 => s.ro (flag x.lock)
  | 0xC0 | 0xC8 | 0xD0 | 0xD8 => s.ro (digestReg c.digest ((off - 0xC0) / 8))
  | 0xE0 | 0xE8 | 0xF0 | 0xF8 => s.ro (digestReg c.release.digest ((off - 0xE0) / 8))
  | _ => none

def State.lcStateWord (s : State) : Nat :=
  let l := s.life
  pack [(0, 3, s.lcState), (8, 1, flag l.resumed), (16, 8, l.tokenFails), (32, 2, l.vendorKey), (36, 4, l.otp.revoked.value), (40, 8, l.otp.floor)]

def Life.bootWord (l : Life) : Nat :=
  pack [(0, 2, l.source), (2, 1, flag l.ready), (8, 8, l.attempts), (16, 8, l.flashReason), (32, 32, l.bootCount)]

def State.readLc (s : State) (off : Nat) : RegAns :=
  match off with
  | 0x00 => s.ro s.lcStateWord
  | 0x08 => s.ro 0
  | 0x10 => s.ro s.life.arg
  | 0x18 => s.ro s.life.statusWord
  | 0x20 | 0x28 | 0x30 | 0x38 => s.ro 0
  | 0x40 => s.ro s.life.bootWord
  | 0x80 | 0x88 | 0x90 | 0x98 => s.ro (digestReg s.life.fwDigest ((off - 0x80) / 8))
  | _ => none

/-! ### PWR (Table 16.7), RAS and TEST (Table 15.14) -/

/-- PWR_POWER; the board controller reads POWER_PART as 0 (R446), and so does everyone while PART_SEL selects no one partition (R38, R431). -/
def State.powerWord (s : State) (rq : Req) : Nat :=
  let part := if rq = .board then 0 else match (s.sel rq).part? with | some p => NatMap.get 0 s.pwr.powerPart p | none => 0
  pack [(0, 32, s.pwr.powerDev), (32, 32, part)]

def State.readPwr (s : State) (rq : Req) (off : Nat) : RegAns :=
  let x := s.pwr
  match off with
  | 0x00 => s.ro (flag x.lock)
  | 0x08 => s.ro x.mode
  | 0x10 => s.ro s.pwrStatusWord
  | 0x18 => s.ro x.wakeAt.toNat
  | 0x20 => s.ro (pack [(0, 5, x.gateClasses), (16, 16, x.gateIdleUs)])
  | 0x28 => s.ro x.throttleC
  | 0x30 => s.dv rq fun d => pack [(0, 3, (x.die d).cap), (4, 3, (x.die d).thermal), (8, 3, (x.die d).power), (12, 3, (x.die d).vrLimit)]
  | 0x38 => s.dv rq fun d => pack [(0, 12, (x.die d).temp), (12, 12, (x.die d).hbmQ), (24, 3, (x.die d).inForce)]
  | 0x40 => s.ro x.capWatts
  | 0x48 => s.ro (s.powerWord rq)
  | 0x50 => s.ro (s.sel rq).dom
  | 0x58 => match (s.sel rq).dom? with
      | none => s.ro 0
      | some n =>
        let d := x.domain n
        some (pack [(0, 1, flag !d.gated), (1, 1, flag (s.keptOn n)), (32, 32, d.wakes)], { s with pwr := x.setDomain n { d with wakes := 0 } })
  | _ => none

/-- RAS_ECC_CORR and RAS_ECC_UNCORR: four classes of 16 bits. -/
def eccWord (m : NatMap Nat) : Nat := pack ((List.range 4).map fun c => (16 * c, 16, NatMap.get 0 m c))

def State.resolveWord (s : State) (p : Nat) : Nat :=
  let r := NatMap.get {} s.resolves p
  pack [(0, 1, flag r.busy), (4, 4, r.outcome), (19, 3, r.die), (22, 16, r.shard), (38, 26, r.leaf)]

def State.readRas (s : State) (rq : Req) (off : Nat) : RegAns :=
  let r := s.ras
  let x := s.tile (s.sel rq).tile
  match off with
  | 0x00 => s.ro (flag r.lock)
  | 0x08 => s.ro (pack [(0, 1, flag r.patrolEn), (1, 1, flag r.eventEn)])
  | 0x10 => s.ro r.recCount
  | 0x18 => s.ro (s.sel rq).recSlot
  | 0x20 => some (eccWord r.corr, { s with ras := { r with corr := [] } })
  | 0x28 => some (eccWord r.uncorr, { s with ras := { r with uncorr := [] } })
  | 0x30 => s.ro (pack [(0, 1, flag x.arrA.checkerRetired), (1, 1, flag x.arrB.checkerRetired), (8, 8, x.quarCause.code), (16, 16, x.arbCount)])
  | 0x38 => s.dv rq fun d =>
      let p := NatMap.get {} r.spares d
      pack [(0, 1, flag p.running.isSome), (1, 1, flag p.aFailed), (2, 1, flag p.bFailed), (8, 8, p.queue.length)]
  | 0x40 => s.pv rq s.resolveWord
  | _ => if 0x100 ≤ off ∧ off ≤ 0x200 then s.ro (field (NatMap.get [] r.ring (s.sel rq).recSlot) (off - 0x100) 8) else none

/-- TEST_NEXT: the partition's next tile in rotation and that tile's next slice. -/
def State.testNextWord (s : State) (p : Nat) : Nat :=
  let ts := s.partTiles p
  let n := NatMap.get 0 s.testNext p
  match ts.find? (n ≤ ·) <|> ts.head? with
  | some t => pack [(0, 9, t), (16, 5, (s.tile t).nextSlice)]
  | none => 0

def TestResult.word (r : TestResult) : Nat := pack [(0, 32, r.ns), (32, 2, r.mode), (34, 5, r.slice), (39, 9, r.tile), (48, 16, r.fault)]

def State.readTest (s : State) (rq : Req) (off : Nat) : RegAns :=
  let x := s.tile (s.sel rq).tile
  let rep := s.ras.reports.getD (s.sel rq).repair []
  match off with
  | 0x00 => s.pv rq s.testNextWord
  | 0x08 => s.pv rq fun p => (NatMap.get {} s.testResults p).word
  | 0x10 => s.ro 0
  | 0x18 => s.ro s.ras.testStatusWord
  | 0x20 => s.ro (pack [(0, 32, x.coverLogic), (32, 1, flag x.coverMem)])
  | 0x28 => s.ro (s.sel rq).repair
  | 0x30 => s.ro (field rep 0 8)
  | 0x38 => s.ro (field rep 8 8)
  | _ => none

/-! ### The P-view -/

/-- A read of P-view address `a` (R425): none where no register is listed there. -/
def State.readP (s : State) (rq : Req) (a : Nat) : RegAns :=
  let off := a % 65536
  match a / 65536 with
  | 0x0 => s.readGlb rq off
  | 0x1 => s.readGov rq off
  | 0x2 => s.readWeir rq off
  | 0x3 => s.readSync rq off
  | 0x4 => s.readCtx rq off
  | 0x5 => s.readPart rq off
  | 0x6 => s.readTile rq off
  | 0x7 => s.readQrn rq off
  | 0x8 => s.readMem rq off
  | 0x9 => s.readMce rq off
  | 0xA => s.readEth rq off
  | 0xB => s.readSec rq off
  | 0xC => s.readLc off
  | 0xD => s.readPwr rq off
  | 0xE => s.readRas rq off
  | 0xF => s.readTest rq off
  | _ => none

/-! ### The U-view (R426 to R428) -/

/-- U_POWER, at the resolution its reader is entitled to (R428). -/
def State.uPower (s : State) (rq : Req) (p : Nat) : Nat :=
  if s.partyRight rq p 1 then NatMap.get 0 s.pwr.powerParty p
  else match rq with
    | .session n => if (s.sec.session n).role = 3 then NatMap.get 0 s.pwr.powerPart p else 0
    | .factory => NatMap.get 0 s.pwr.powerPart p
    | .board => 0

/-- The U-view totals of a partition over its dies' Querns. -/
def State.quernTotal (s : State) (p : Nat) (f : Quern → Counter) (exact : Bool) : Nat :=
  let sum := fun (g : Counter → Nat) => (List.range 8).foldl (fun a d => a + g (f (s.quern p d))) 0
  if exact then sum (·.total) else quantum (sum (·.totalLatch))

/-- A register of the window that describes partition `p`. -/
def State.uPart (s : State) (rq : Req) (p off : Nat) : Nat :=
  let g := (s.part p).gov
  let w := s.weir p
  let e := s.exactFor rq p
  match off with
  | 0x018 => s.partStateWord p
  | 0x028 => g.t0
  | 0x030 => g.revCount
  | 0x038 => g.step.toNat
  | 0x040 => s.leaseWord g
  | 0x048 => g.missWord
  | 0x050 => w.members
  | 0x058 => w.diffWord
  | 0x088 => s.uPower rq p
  | 0x100 => if e then (s.part p).topTotal else quantum (s.part p).topTotalLatch
  | 0x108 => s.quernTotal p (·.skips) e
  | 0x110 => s.quernTotal p (·.saturated) e
  | 0x118 => (NatMap.get {} s.tollFails p).uTotal e
  | 0x120 => w.assayFails.uTotal e
  | 0x128 => w.late.uTotal e
  | 0x130 => w.eccAborts.uTotal e
  | 0x138 => w.regress.uTotal e
  | 0x140 => w.resignals.uTotal e
  | 0x148 => w.stale.uTotal e
  | _ => 0

/-- The offsets of the window that describe the context's partition. -/
def uPartReg (off : Nat) : Bool :=
  off == 0x018 || off == 0x088 || (off % 8 == 0 && ((decide (0x028 ≤ off) && decide (off ≤ 0x058)) || (decide (0x100 ≤ off) && decide (off ≤ 0x148))))

/-- A read of offset `off` in the window of context `x`. -/
def State.readU (s : State) (rq : Req) (x off : Nat) : RegAns :=
  let c := s.ctx x
  let p := c.desc.part
  let i := NatMap.get 0 (s.sel rq).uSync x
  let bound := x != 0 && c.state != .undefined
  match off with
  | 0x000 => s.ro (c.statusWord x)
  | 0x008 => s.ro (c.liveCount % 1048576)
  | 0x010 => s.ro c.faultWord
  | 0x020 => s.ro s.now
  | 0x060 => s.ro i
  | 0x068 => s.ro (if bound then s.syncValueWord p i else 0)
  | 0x070 => s.ro (if bound then s.syncStateWord p i else 0)
  | 0x078 => s.ro 0
  | 0x080 => s.ro (pack [(0, 8, c.uFreeStatus), (8, 1, flag c.uFreeBusy)])
  | _ => if uPartReg off then s.ro (if bound then s.uPart rq p off else 0) else none

/-! ### The board controller's own addresses (Tables 18.5, 18.6) -/

def State.readBc (s : State) (off : Nat) : RegAns :=
  let b := s.board
  match off with
  | 0x00 => let t := s.bcChallenge; some (digestReg (t.board.challenge.getD []) 0, t)
  | 0x08 | 0x10 | 0x18 => s.ro (digestReg (b.challenge.getD []) (off / 8))
  | 0x20 | 0x28 | 0x30 | 0x38 => s.ro 0
  | 0x40 => s.ro (pack [(0, 1, flag b.isOpen), (8, 8, b.fails), (16, 8, b.lastStatus)])
  | 0x48 => s.ro s.alertWord
  | _ => none

end Sys2Proof.Machine
end

