-- ==== Sys2Proof/Machine/Tiles.lean ====
section
/-! DEFINITION. The control core's stores, the delivery and issue of TOPs (R74, R85, R88), NOP, and the commands on control cores
(R73, R91). -/
namespace Sys2Proof.Machine
open Sys2Proof

/-! ### The control core -/

/-- The tiles a TOP goes to. -/
def topTiles (c : Nat) (t : Top) : List Nat := (bitsOf 8 (topMask t)).map (8 * c + ·)

/-- A tile that drops what is sent to it (R88, R387). -/
def Tile.drops (x : Tile) : Bool := x.halted || x.quarantined

/-- Every addressed queue has room. -/
def State.queuesTake (s : State) (c : Nat) (t : Top) : Bool :=
  (topTiles c t).all fun j => (s.tile j).drops || decide ((s.tile j).queue.length < 64)

/-- A TOP reaches a tile; a halted or quarantined one drops it, with fault 0x0207 for the first (R88). -/
def State.deliver (s : State) (top : Top) (t : Nat) : State :=
  let x := s.tile t
  if x.drops then
    let s := s.setTile t { x with dropped := min (x.dropped + 1) 0xFFFF, dropRaised := true }
    if x.dropRaised then s else s.raise { code := 0x0207, loc := s.locTile t 0, detail := topBytes top }
  else s.setTile t { x with queue := x.queue ++ [top] }

def State.deliverAll (s : State) (c : Nat) (top : Top) : State := (topTiles c top).foldl (fun s t => s.deliver top t) s

/-- TOP_LO (R74). -/
def State.topLoStore (s : State) (c : Nat) (w : Word64) : State :=
  if (s.cluster c).executes then s.modCluster c fun x => { x with topLo := w } else s

def execTopLoStore (cluster : Nat) (w : Word64) (s : State) : Answer := .next (s.topLoStore cluster w)

/-- TOP_HI (R74): the TOP is sent, or its store stalls while an addressed queue is full. Its low word is what TOP_LO holds; DESIGN CHOICE
(log entry 173): a TOP_HI store with no TOP_LO store since the last TOP sends the low word of that TOP again. -/
def State.topHiStore (s : State) (c : Nat) (w : Word64) : State :=
  if (s.cluster c).executes then
    let top : Top := w ++ (s.cluster c).topLo
    if s.queuesTake c top then s.deliverAll c top
    else s.modCluster c fun x => { x with stalled := some top }
  else s

def execTopHiStore (cluster : Nat) (w : Word64) (s : State) : Answer := .next (s.topHiStore cluster w)

/-- A stalled store completes once every addressed queue has room (R74). -/
def State.topEnqueue (s : State) (c : Nat) : State :=
  match (s.cluster c).stalled with
  | none => s
  | some top =>
    if s.queuesTake c top then (s.deliverAll c top).modCluster c Cluster.unstall else s

def execTopEnqueue (cluster : Nat) (s : State) : Answer := .next (s.topEnqueue cluster)

/-- R73: a core that traps stops with fault 0x0206 until the next PHASE_START. -/
def State.coreTrap (s : State) (c cause : Nat) (pc : Word64) : State :=
  let x := s.cluster c
  if x.running && !x.halted && !x.trapped then
    (s.setCluster c { x.unstall with running := false, trapped := true, cause := cause % 65536, pc := pc }).raise
      { code := 0x0206, loc := s.locCluster c 7, severity := 0, addr := some pc.toNat }
  else s

def execCoreTrap (cluster cause : Nat) (pc : Word64) (s : State) : Answer := .next (s.coreTrap cluster cause pc)

/-- RESUME (R73, R88): the halted tiles named run again. -/
def State.resumeStore (s : State) (c mask : Nat) : State :=
  if (s.cluster c).executes then
    let s := (bitsOf 8 mask).foldl (fun s j => s.modTile (8 * c + j) fun x =>
      { x with halted := false, quarCause := if x.quarCause = .ecc then .none else x.quarCause }) s
    s.modCluster c fun x => { x with extInt := x.extInt && (List.range 8).any fun j => (s.tile (8 * c + j)).halted }
  else s

def execResumeStore (cluster mask : Nat) (s : State) : Answer := .next (s.resumeStore cluster mask)

/-- The core of the tile that the requester selects (R91). -/
def State.onCore (s : State) (rq : Req) (f : Nat → State → State) : State :=
  if s.mayP rq 0x60038 && decide ((s.sel rq).tile < 512) then f (tileCluster (s.sel rq).tile) s else s

/-- TILE_CORE_CTRL.HALT (R91): `pc` is where the core stands at its next instruction boundary. A core whose TOP_HI store is stalled
reaches that boundary when the store completes. -/
def State.coreHalt (s : State) (c : Nat) (pc : Word64) : State :=
  s.modCluster c fun x =>
    if x.stalled.isSome then { x with haltAt := some pc }
    else { x with halted := true, pc := if x.running && !x.halted && !x.trapped then pc else x.pc }

def execCoreHalt (rq : Req) (pc : Word64) (s : State) : Answer := .next (s.onCore rq fun c s => s.coreHalt c pc)

/-- TILE_CORE_CTRL.RESUME (R91): the core continues from TILE_CORE_PC; a trapped one stays trapped. -/
def State.coreResume (s : State) (c : Nat) : State := s.modCluster c fun x => { x with halted := false, haltAt := none }

def execCoreResume (rq : Req) (s : State) : Answer := .next (s.onCore rq fun c s => s.coreResume c)

/-! ### Issue -/

/-- A TOP that no unit runs ends as it is passed on: a NOP completes, a reserved opcode or a NOP with reserved bits is refused. -/
def State.endNow (s : State) (t i : Nat) (top : Top) : State :=
  match topFault (s.tileEnv t) (s.tile t) top with
  | some code => s.topFails t i code
  | none => s.finishTop t i

/-- The queue head goes to its unit (R85): not while a WAIT, FENCE or Toll call holds the queue, nor while its unit has no room. -/
def State.dispatchHead (s : State) (t : Nat) (want : Top → Bool) : State :=
  let x := s.tile t
  match x.queue with
  | [] => s
  | top :: rest =>
    if want top && x.issues && !s.pwr.stopped && !x.flight.any Flight.holdsQueue && (topUnits top).all (unitAccepts x.flight) then
      let s := s.passTop t top rest
      if (topUnits top).isEmpty then s.endNow t x.flight.length top else s
    else s

/-- TOP_DISPATCH: a VEC of a reserved VOP that waits in its unit is refused when its turn comes; else the head is passed on. -/
def State.dispatch (s : State) (t : Nat) : State :=
  match s.startable t rowless with
  | some _ => s.startTop t rowless fun _ _ s => s
  | none => s.dispatchHead t fun _ => true

def execTopDispatch (tile : Nat) (s : State) : Answer := .next (s.dispatch tile)

def execNop (tile : Nat) (s : State) : Answer := .next (s.dispatchHead tile fun top => topOpcode top == 0)

end Sys2Proof.Machine
end

