-- ==== Sys2Proof/Machine/WeirCmds.lean ====
section
/-! DEFINITION. WEIR_CMD (R238 to R240, R269, R272), and the resolution of a replica difference (R398, R399). -/
namespace Sys2Proof.Machine
open Sys2Proof

/-! ### The collective table (Tables 10.1 to 10.4) -/

def counterOf (b : List Byte) : CounterEntry :=
  { index := field b 0 2, scope := field b 2 1, commit := bit (field b 3 1) 0, tiles := field b 4 1
    fences := (List.range 8).map fun i => field b (8 + 2 * i) 2, rootWait := field b 0x18 4 }

def collDescOf (b : List Byte) : CollDesc :=
  { kind := field b 0 1, fmt := field b 1 1, headroom := field b 2 1, scope := field b 3 1, die := field b 4 1, rootPos := field b 5 1
    inSync := field b 6 2, doneSync := field b 8 2, src := field b 0x0C 4, dst := field b 0x10 4, expLen := field b 0x14 4
    srcOff := field b 0x18 8, dstOff := field b 0x20 8, piece := field b 0x28 8, expOff := field b 0x30 8 }

/-- A collective table as read: its header, counter entries and descriptors. -/
structure CollBytes where
  head : List Byte := []
  counters : List (List Byte) := []
  colls : List (List Byte) := []
  deriving DecidableEq, Repr

def CollBytes.table (t : CollBytes) : CollTable :=
  { replica := field t.head 6 1, position := field t.head 7 1, replicas := field t.head 8 1, domainSize := field t.head 9 1
    excludeAfter := field t.head 0xA 1, minMembers := field t.head 0xB 1, mirror := field t.head 0xC 1 == 1
    counters := t.counters.map counterOf, colls := t.colls.map collDescOf }

/-- Table 10.1. -/
def CollBytes.headOk (t : CollBytes) : Bool :=
  let h := t.table
  field t.head 0 2 == 1 && decide (1 ≤ field t.head 2 2) && decide (field t.head 2 2 ≤ 1024) && decide (field t.head 4 2 ≤ 256)
  && decide (h.replica < h.replicas) && decide (h.replicas ≤ 64) && decide (h.position < h.domainSize) && decide (h.domainSize ≤ 64)
  && decide (1 ≤ h.excludeAfter) && decide (1 ≤ h.minMembers) && decide (h.minMembers ≤ h.replicas)
  && decide (field t.head 0xC 1 ≤ 1) && (!h.mirror || h.replicas == 1) && allZero (slice t.head 0xD 51)

/-- Table 10.2; `quota` is the partition's sync quota. -/
def counterOk (quota : Nat) (all : List CounterEntry) (b : List Byte) : Bool :=
  let e := counterOf b
  decide (e.index < quota) && decide (e.scope ≤ 2) && decide (field b 3 1 ≤ 1) && decide (e.tiles ≤ 8) && allZero (slice b 5 3)
  && (e.fences.all fun f => f == 0xFFFF || (decide (f < quota) && !(all.any (·.index == f))))
  && decide (1 ≤ e.rootWait) && decide (e.rootWait ≤ 156250000) && allZero (slice b 0x1C 4)
  && (e.tiles != 0 || e.fences.any (· != 0xFFFF))
  && (all.filter (·.index == e.index)).length == 1

def isReduction (kind : Nat) : Bool := kind == 1 || kind == 2

/-- The SCOPE values of a kind (Table 10.4). -/
def scopeOk (kind scope : Nat) : Bool :=
  match kind with
  | 1 | 2 => decide (scope ≤ 2) | 3 | 5 => decide (scope ≤ 1) | 4 | 6 | 8 => scope == 0 | 7 => scope == 1 | _ => false

/-- Members that a gather or broadcast numbers. -/
def CollTable.places (t : CollTable) (scope : Nat) : Nat := if scope = 1 then t.replicas else t.domainSize

/-- Tables 10.3 and 10.4. -/
def collOk (quota : Nat) (t : CollTable) (b : List Byte) : Bool :=
  let d := collDescOf b
  let red := isReduction d.kind
  scopeOk d.kind d.scope
  && decide (d.fmt ≤ if red then 1 else if d.kind = 3 ∨ d.kind = 4 then 3 else 0)
  && (if red then decide (1 ≤ d.headroom) && decide (d.headroom ≤ 7) else d.headroom == 0)
  && decide (d.die ≤ 7) && (if d.kind = 5 then decide (d.rootPos < t.places d.scope) else d.rootPos == 0)
  && (if d.kind = 6 then t.counters.any (·.index == d.inSync) else d.inSync == 0xFFFF || decide (d.inSync < quota))
  && (d.doneSync == 0xFFFF || (decide (d.doneSync < quota) && !(t.counters.any (·.index == d.doneSync))))
  && allZero (slice b 0xA 2) && allZero (slice b 0x38 8)
  && (!red || (d.piece % 256 == 0 && d.piece != 0))
  && (if red then d.expLen == d.piece / 256 else d.kind == 4 || d.expLen == 0) && (d.expLen != 0 || d.expOff == 0)

/-- Second check of R239. -/
def CollBytes.formatOk (t : CollBytes) (quota : Nat) : Bool :=
  let tbl := t.table
  t.headOk && t.counters.all (counterOk quota tbl.counters) && decide ((tbl.counters.filter (·.commit)).length ≤ 1)
  && t.colls.all (collOk quota tbl)

/-- The bytes of SRC and DST that a descriptor takes, as (handle, offset, length). -/
def CollTable.ranges (t : CollTable) (d : CollDesc) : List (Nat × Nat × Nat) :=
  let n := t.places d.scope
  match d.kind with
  | 1 => [(d.src, d.srcOff, if d.scope = 1 then d.piece else t.domainSize * d.piece)]
  | 2 => [(d.src, d.srcOff, if d.scope = 1 then d.piece else t.domainSize * d.piece), (d.dst, d.dstOff, t.domainSize * d.returned)]
  | 3 => [(d.src, d.srcOff, d.piece), (d.dst, d.dstOff, n * d.piece)]
  | 4 => [(d.dst, d.dstOff, n * d.piece)]
  | 5 => [(d.src, d.srcOff, d.piece), (d.dst, d.dstOff, d.piece)]
  | _ => []

/-- First check of R239 on one descriptor: SRC, DST and the exponent area lie inside their object or space. -/
def State.collInside (s : State) (x p : Nat) (t : CollTable) (d : CollDesc) : Bool :=
  let room := s.granarySize p d.die
  ((t.ranges d).all fun r =>
    if r.1 = 0 then decide (r.2.1 + r.2.2 ≤ room)
    else match s.current x r.1 with | some o => decide (r.2.1 + r.2.2 ≤ o.size) | none => false)
  && (d.expLen == 0 || decide (d.expOff + 2 * t.domainSize * d.expLen ≤ room))

/-- Read the collective table of a handle: what it holds, or a failing line. -/
def State.readCollTable (s : State) (x h : Nat) : Option CollBytes × Option QFail × State :=
  match s.quernObj x h 0 64 with
  | none => (none, none, s)
  | some o =>
    let r := s.readObj x o 0 64
    let nk := field r.1 2 2
    let nc := field r.1 4 2
    if o.size < 64 + 32 * nc + 64 * nk then (none, none, r.2.2)
    else
      let b := r.2.2.readObj x o 64 (32 * nc + 64 * nk)
      match r.2.1.orElse fun _ => b.2.1 with
      | some (c, a) => (none, some { code := c, addr := some a }, b.2.2)
      | none => (some { head := r.1, counters := (chunksOf 32 (b.1.take (32 * nc))).take nc
                        colls := (chunksOf 64 (b.1.drop (32 * nc))).take nk }, none, b.2.2)

/-- The checks of LOAD in order (R239): a status, the table, and the fault of a failing line (R352). -/
def State.checkCollTable (s : State) (p : Nat) : Nat × CollBytes × Option QFail × State :=
  match s.home p with
  | none => (3, {}, none, s)
  | some x =>
    match s.readCollTable x (s.weir p).table with
    | (none, f, s) => (3, {}, f, s)
    | (some t, _, s) =>
      if t.table.colls.all (s.collInside x p t.table) then
        (if t.formatOk (s.part p).map.syncQuota then (0, t, none, s) else (4, {}, none, s))
      else (3, {}, none, s)

/-! ### LOAD and UNLOAD -/

/-- A sync object as a fence, or as a counter newly declared: its VALUE alone is left. -/
def SyncObj.plain (o : SyncObj) : SyncObj := { value := o.value }

/-- A table, or none, comes into force (R239); the arrivals on its counters are still to be looked at (R262). -/
def Weir.withTable (w : Weir) (t : Option CollTable) : Weir :=
  { w with
    loaded := t.isSome, tbl := t.getD {}, cmdStatus := 0
    members := match t with | some t => 2 ^ t.replicas - 1 | none => 0
    excluded := false, tallies := [], readmit := [], colls := [], abortDue := false
    sync := ((t.map (·.counters)).getD []).foldl (fun m e => NatMap.modify {} m e.index fun o => { o with recheck := true })
      (NatMap.mapVals {} (fun _ o => o.plain) w.sync) }

/-- UNLOAD also returns every WEIR register to its reset value (R274); the SYNC counters stay. -/
def Weir.unloaded (w : Weir) : Weir :=
  { w.withTable none with
    table := 0, argHandle := 0, argDomain := 0, diffValid := false, diffReplica := 0, diffDie := 0, diffShard := 0
    assayFails := w.assayFails.cleared, late := w.late.cleared, eccAborts := w.eccAborts.cleared }

def State.weirStatus (s : State) (p st : Nat) : State := s.modWeir p fun w => { w with cmdStatus := st }

/-- Commands LOAD and UNLOAD are accepted only while the partition is ARMED or BRAKED, and none while another runs. -/
def State.weirGate (s : State) (p : Nat) (f : State → State) : State :=
  if (s.weir p).cmdBusy then s.weirStatus p 1
  else if (s.part p).state ≠ .armed ∧ (s.part p).state ≠ .braked then s.weirStatus p 2
  else f s

def State.weirLoad (s : State) (p : Nat) : State :=
  s.weirGate p fun s =>
    let r := s.checkCollTable p
    let s := r.2.2.2
    if r.1 = 0 then ((s.dropColls p).modWeir p fun w => w.withTable (some r.2.1.table)).barriers p
    else
      let s := s.weirStatus p r.1
      match r.2.2.1 with
      | some f => s.raise { code := f.code, loc := locWeir p, severity := 0, addr := f.addr }
      | none => s

def execWeirLoad (rq : Req) (s : State) : Answer := .next (s.onPart rq 0x20008 fun p s => s.weirLoad p)

def execWeirUnload (rq : Req) (s : State) : Answer :=
  .next (s.onPart rq 0x20008 fun p s => s.weirGate p fun s => (s.dropColls p).modWeir p Weir.unloaded)

/-! ### READMIT and PROMOTE -/

/-- READMIT: the domain is a member from the next release of the COMMIT counter on (R269). -/
def State.readmit (s : State) (p : Nat) : State :=
  let w := s.weir p
  if w.cmdBusy then s.weirStatus p 1
  else if !w.fleetRoot then s.weirStatus p 0x0F
  else s.setWeir p { w with cmdStatus := 0, readmit := NatSet.insert w.argDomain w.readmit }

def execReadmit (rq : Req) (s : State) : Answer := .next (s.onPart rq 0x20008 fun p s => s.readmit p)

/-- The offsets of the mirrored halves in a slot, and where its trailer lies (R271). DEDUCED: a twin's sweep-class shards of DIE have
the shapes of this device's. -/
def Quern.mirrorLayout (q : Quern) : List Nat × Nat :=
  q.sweepClass.foldl (fun (a : List Nat × Nat) e => (a.1 ++ [a.2], a.2 + partOffset e.2 (q.layoutRule e.2) .fwd)) ([], 0)

/-- The VERSION of a mirror slot whose MROOT matches the recomputation (R272). -/
def State.mirrorVersion (s : State) (p x : Nat) (o : Obj) (d : CollDesc) (slot : Nat) : Option Nat × State :=
  let l := (s.quern p d.die).mirrorLayout
  let o := { o with epoch := o.slotEpoch slot }
  let t := s.readObj x o (slot * d.piece + l.2) 64
  let r := l.1.foldl (fun (a : List Nat × Bool × State) off =>
    let b := a.2.2.readObj x o (slot * d.piece + off + 8) 8
    (a.1 ++ [field b.1 0 8], a.2.1 && b.2.1.isNone, b.2.2)) ([], t.2.1.isNone, t.2.2)
  let v := field t.1 8 8
  if r.2.1 && field t.1 0 4 == mirrorMagic && field t.1 16 8 == l.1.length
     && field t.1 24 8 == digestPoly (digestPoint (s.part p).seed v) r.1 then (some v, r.2.2) else (none, r.2.2)

/-- PROMOTE (R272): the newest matching slot of the MIRROR object becomes a SEALED POND_RO object. -/
def State.promote (s : State) (p : Nat) : State :=
  let w := s.weir p
  if w.cmdBusy then s.weirStatus p 1
  else match s.home p with
    | none => s.weirStatus p 3
    | some x =>
      match s.current x w.argHandle, w.tbl.colls.find? fun d => d.kind == 8 && d.dst == w.argHandle with
      | some o, some d =>
        if o.flags ≠ 0x14 ∨ o.size < 2 * d.piece ∨ d.piece < ((s.quern p d.die).mirrorLayout).2 + 64 then s.weirStatus p 0x0E
        else
          let a := s.mirrorVersion p x o d 0
          let b := a.2.mirrorVersion p x o d 1
          let pick := match a.1, b.1 with
            | some u, some v => some (if u < v then 1 else 0)
            | some _, none => some 0 | none, some _ => some 1 | none, none => none
          match pick with
          | none => b.2.weirStatus p 0x0E
          | some k =>
            (b.2.weirStatus p 0).setObj x (handleIndex w.argHandle)
              { o with flags := 0x04, state := .sealed, base := o.base + k * d.piece, size := d.piece, epoch := o.slotEpoch k, epochB := 0 }
      | some o, none => s.weirStatus p (if o.flags = 0x14 then 0x0E else 3)
      | none, _ => s.weirStatus p 3

def execPromote (rq : Req) (s : State) : Answer := .next (s.onPart rq 0x20008 fun p s => s.promote p)

/-! ### Resolving a replica difference (R398, R399) -/

/-- What this device's recomputation of a leaf gives: the stored and the recomputed digest, and what a repair writes. -/
structure LeafData where
  stored : Nat
  fresh : Nat
  writes : List (Nat × List Byte)
  epoch : Nat

/-- The parameters [lo, hi) of a leaf. -/
def leafRange (sh : Shard) (leaf : Nat) : Nat × Nat := (16384 * leaf, min sh.count (16384 * leaf + 16384))

/-- Recompute a leaf (R398): the sweep of R190 and R191 from the inactive half and the active half's GRAD, and the writes of its repair:
the leaf's parts, and the digest tree above it up to HEAD.ROOT. -/
def State.recompute (s : State) (x p d k leaf : Nat) (sh : Shard) : Except QFail LeafData × State :=
  let q := s.quern p d
  let cw := s.commitWord x q k
  match cw.2.1 with
  | some f => (.error f, cw.2.2)
  | none =>
    let act := bit cw.1 0
    let v := bits cw.1 16 48
    let rs := NatMap.get {} (if sh.lagged then (NatMap.get {} q.groups sh.group).sweptRules else q.sweptRules) sh.ruleset
    let rule := q.layoutRule sh
    let base := if act then sh.offB else sh.offA
    let old := if act then sh.offA else sh.offB
    let h := cw.2.2.readHalf x sh rule old (q.epoch k (!act) false)
    let g := h.2.2.quernReads x sh.obj (q.epoch k act true) [(base + partOffset sh rule .grad, partSize sh rule .grad)]
    let z := g.2.2.quernReads x sh.obj (q.epoch k act false)
      [(base + partOffset sh rule .digest, partSize sh rule .digest), (base + partOffset sh rule .head, 16)]
    match (h.2.1.orElse fun _ => g.2.1).orElse fun _ => z.2.1 with
    | some f => (.error f, z.2.2)
    | none =>
      let data := { h.1 with grad := g.1.headD [] }
      let seed := (s.part p).seed
      let r := digestPoint seed v
      let o := sweepHalf rs sh (roundingKey seed (v - 1) sh.tensor) r data
      let bad := data.infinite || o.nonfinite
      let nodes := (List.range (leafCount sh.count)).map fun i => field (z.1.headD []) (8 * i) 8
      let c := if bad then (Config.freeValue s.draws).toNat else o.digest.getD leaf 0
      let tree := digestTree r 8 (nodes.set leaf c)
      let (lo, hi) := leafRange sh leaf
      let cut := fun (q : HalfPart) (bs : List Byte) (a b : Nat) =>
        if partSize sh rule q = 0 then [] else [(base + partOffset sh rule q + a, slice bs a (b - a))]
      let rows := fun n => 4 * ((n + sh.rowLen - 1) / max sh.rowLen 1)
      (.ok { stored := nodes.getD leaf 0, fresh := c, epoch := q.epoch k act false
             writes := cut .master (wordsBytes o.data.master) (4 * lo) (4 * hi) ++ cut .m1 o.data.m1 lo hi ++ cut .m2 o.data.m2 lo hi
               ++ cut .scale o.data.scale (lo / 16) (hi / 16) ++ cut .rowacc (wordsBytes o.data.rowacc) (rows lo) (rows hi)
               ++ cut .fwd o.fwd (fwdSize sh.wFmt lo) (fwdSize sh.wFmt hi)
               ++ [(base + partOffset sh rule .digest, digestBytes tree),
                   (base + partOffset sh rule .head, headBytes (field (z.1.getD 1 []) 0 4) tree)] },
       if bad then z.2.2.draw else z.2.2)

/-- What the members of a group decide on one leaf, or on shard roots: the members repaired, and how the vote ends. -/
inductive Verdict where
  | agree | minority (v : Nat) | noMajority
  deriving DecidableEq, Repr

/-- Member `i` repairs itself: another consistent member holds what it recomputed. -/
def repairs (m : List (Nat × Nat)) (i : Nat) : Bool :=
  match m[i]? with
  | none => false
  | some a => a.1 != a.2 && m.zipIdx.any fun e => e.2 != i && e.1.1 == e.1.2 && e.1.1 == a.2

/-- The decision of R398 on the stored digests that are left once the repairs are made. -/
def voteOn (l : List Nat) : Verdict :=
  if l.all fun a => l.head? == some a then .agree
  else match l.find? fun a => decide (l.length < 2 * (l.filter (· == a)).length) with
    | some v => if 3 ≤ l.length then .minority v else .noMajority
    | none => .noMajority

/-- DETAIL of 0x0A0D to 0x0A0F. -/
def resolveFault (p : Nat) (v : LeafVote) (code severity s c : Nat) : FaultRec :=
  { code := code, loc := { locWeir p with die := v.die }, severity := severity
    detail := leBytes 1 v.die ++ leBytes 1 0 ++ leBytes 2 v.shard ++ leBytes 4 v.leaf ++ leBytes 8 s ++ leBytes 8 c }

/-- One more leaf of the resolution is decided, or its whole shard where the roots were voted on. -/
def Resolve.decided (r : Resolve) (v : LeafVote) (roots : Bool) (outcome : Nat) : Resolve :=
  let last := roots || decide (v.leaves ≤ r.leavesDone + 1)
  let rest := if last then r.shards.filter (· != (v.die, v.shard)) else r.shards
  { r with
    die := v.die, shard := v.shard, leaf := if r.leavesDone = 0 then v.leaf else r.leaf
    outcome := max r.outcome outcome, shards := rest, leavesDone := if last then 0 else r.leavesDone + 1, busy := !rest.isEmpty }

/-- The verdict takes effect on this device, whose own stored and recomputed digests are `a`. -/
def State.takeVerdict (s : State) (p : Nat) (v : LeafVote) (roots anyRepair : Bool) (a : Nat × Nat) (mine : Nat) (w : Verdict) : State :=
  let done := fun (o : Nat) (s : State) => { s with resolves := NatMap.modify {} s.resolves p fun r => r.decided v roots o }
  match w with
  | .agree => done (if anyRepair then 1 else 0) s
  | .minority m =>
    let s := done 2 s
    if mine = m then s else (s.brake p).raise (resolveFault p v 0x0A0E 1 a.1 a.2)
  | .noMajority => ((done 3 s).brake p).raise (resolveFault p v 0x0A0F 1 a.1 a.2)

/-- LEAF_RECOMPUTE_DONE: the members have exchanged the digests of a differing leaf, and each takes the same decision. A shard with
more than 64 differing leaves or another VERSION is decided on its roots alone, with no repair (R399). -/
def State.leafDone (s : State) (p : Nat) (v : LeafVote) : State :=
  let r := NatMap.get {} s.resolves p
  let q := s.quern p v.die
  match s.home p, q.shards[v.shard]? with
  | some x, some sh =>
    if !r.busy ∨ !r.shards.contains (v.die, v.shard) then s
    else if 64 < v.leaves ∨ v.versionDiffers then
      let cw := s.commitWord x q v.shard
      let base := if bit cw.1 0 then sh.offB else sh.offA
      let h := cw.2.2.quernReads x sh.obj (q.epoch v.shard (bit cw.1 0) false) [(base + 8, 8)]
      let root := field (h.1.headD []) 0 8
      match cw.2.1.orElse fun _ => h.2.1 with
      | some f => h.2.2.quernStop p v.die f
      | none => h.2.2.takeVerdict p v true false (root, root) root (voteOn (root :: v.twins.map (·.1)))
    else
      match s.recompute x p v.die v.shard v.leaf sh with
      | (.error f, s) => s.quernStop p v.die f
      | (.ok l, s) =>
        let m := (l.stored, l.fresh) :: v.twins
        let fixed := (List.range m.length).filter (repairs m)
        let after := m.zipIdx.map fun e => if fixed.contains e.2 then e.1.2 else e.1.1
        let own := fixed.contains 0
        let w := if own then s.quernWrites x sh.obj l.epoch l.writes else (none, s)
        match w.1 with
        | some f => w.2.quernStop p v.die f
        | none =>
          let s := if own then w.2.raise (resolveFault p v 0x0A0D 2 l.stored l.fresh) else w.2
          s.takeVerdict p v false (!fixed.isEmpty) (l.stored, l.fresh) (after.headD 0) (voteOn after)
  | _, _ => s

def execLeafRecomputeDone (part : Nat) (vote : LeafVote) (s : State) : Answer := .next (s.leafDone part vote)

end Sys2Proof.Machine
end

