-- ==== Sys2Proof/Machine/RegWrite.lean ====
section
/-! DEFINITION. Writing the registers of chapter 17, block by block: selects, operands, lock bits, locked fields and commands
(Tables 17.3 and 17.4, R9, R10, R12, R431 to R433). -/
namespace Sys2Proof.Machine
open Sys2Proof

/-- What a write does: whether a WL field was written under its lock, and the state after it. -/
abbrev RegDone := Bool × State
/-- None where the block lists no register at the offset. -/
abbrev RegSet := Option RegDone

def State.done (s : State) : RegSet := some (false, s)
/-- A register that a write does not change: read-only, or clearing on a read (R432, R9). -/
def State.keep (s : State) : RegSet := s.done

/-- The state after a command that is written through its register. -/
def State.ran (s : State) (f : State → Answer) : RegSet :=
  match f s with
  | .next t => t.done
  | _ => s.done

/-- A write to WL fields: ignored, with status LOCKED, while the block's lock bit is 1 (R12). -/
def State.wl (s : State) (lock : Bool) (f : State → State) : RegSet := if lock then some (true, s) else (f s).done

/-- A write of a requester's select. -/
def State.select (s : State) (rq : Req) (f : Selects → Selects) : RegSet := (s.setSel rq (f (s.sel rq))).done

/-- A write to the instance that PART_SEL names; ignored where the select is out of range or ALL is set (R38, R431). -/
def State.onSelPart (s : State) (rq : Req) (f : Nat → State → State) : State :=
  match (s.sel rq).part? with | some p => f p s | none => s
def State.onSelPort (s : State) (rq : Req) (f : Nat → State → State) : State :=
  match (s.sel rq).port? with | some k => f k s | none => s
def State.onSelDie (s : State) (rq : Req) (f : Nat → State → State) : State :=
  match (s.sel rq).die? with | some d => f d s | none => s

/-! ### Lock bits (R433) -/

/-- Set a block's lock bit. -/
def State.setLock (s : State) (b : LockBlock) : State :=
  match b with
  | .gov => s.modMill fun x => { x with lock := true }
  | .part => { s with partLock := true }
  | .mem => s.modMem fun x => { x with lock := true }
  | .mce => s.modMce fun x => { x with lock := true }
  | .eth => s.modEth fun x => { x with lock := true }
  | .sec => s.modSec fun x => { x with lock := true }
  | .pwr => s.modPwr fun x => { x with lock := true }
  | .ras => s.modRas fun x => { x with lock := true }

/-- A lock register is W1S: a 1 sets the bit, a 0 leaves it. -/
def State.writeLock (s : State) (b : LockBlock) (v : Word64) : RegSet := (if bit v.toNat 0 then s.setLock b else s).done

/-- The P-view address of a block's lock register. -/
def LockBlock.addr : LockBlock → Nat
  | .gov => 0x10020 | .part => 0x50038 | .mem => 0x80000 | .mce => 0x90000 | .eth => 0xA0038 | .sec => 0xB00B0 | .pwr => 0xD0000 | .ras => 0xE0000

/-! ### GLB and GOV -/

def State.writeGlb (s : State) (rq : Req) (off : Nat) (v : Word64) : RegSet :=
  match off with
  | 0x18 => s.select rq fun x => { x with die := bits v.toNat 0 4 }
  | 0x20 => s.select rq fun x => { x with hbm := bits v.toNat 0 4 }
  | 0x00 | 0x08 | 0x10 | 0x28 | 0x30 => s.keep
  | _ => none

/-- The writable bits of GOV_PTP_CTRL (Table 02.13). -/
def ptpCtrlMask : Nat := 0x0000FFFFEF1FFFFF

/-- GOV_PTP_CTRL is written: ROLE set non-zero enters ACQUIRING, ROLE 0 enters FREE_RUN, which runs free on the reference (R40,
Table 02.2). -/
def State.setPtpCtrl (s : State) (v : Word64) : State :=
  s.modMill fun m =>
    let n := { m with ctrl := v.toNat &&& ptpCtrlMask }
    if n.role = 0 then { n with state := .freerun, slavePort := 0xF, twoStep := none, freqPpb := 0 }
    else if m.role = 0 then n.acquire else n

def State.writeGov (s : State) (rq : Req) (off : Nat) (v : Word64) : RegSet :=
  match off with
  | 0x008 => s.wl s.mill.lock fun s => s.setPtpCtrl v
  | 0x020 => s.writeLock .gov v
  | 0x128 => match bits v.toNat 0 2 with
    | 1 => s.ran (execRelease rq)
    | 2 => s.ran (execHalt rq)
    | 3 => s.ran (execAbort rq)
    | _ => s.keep
  | 0x000 | 0x010 | 0x018 | 0x100 | 0x108 | 0x110 | 0x118 | 0x120 | 0x130 | 0x138 | 0x140 => s.keep
  | _ => none

/-! ### WEIR, SYNC and CTX -/

def State.writeWeir (s : State) (rq : Req) (off : Nat) (v : Word64) : RegSet :=
  match off with
  | 0x00 => (s.onSelPart rq fun p s => s.modWeir p fun w => { w with table := bits v.toNat 0 32 }).done
  | 0x08 => match bits v.toNat 0 3 with
    | 1 => s.ran (execWeirLoad rq)
    | 2 => s.ran (execWeirUnload rq)
    | 3 => s.ran (execPromote rq)
    | 4 => s.ran (execReadmit rq)
    | _ => s.keep
  | 0x18 => (s.onSelPart rq fun p s => s.modWeir p fun w => { w with argHandle := bits v.toNat 0 32, argDomain := bits v.toNat 32 6 }).done
  | 0x10 | 0x20 | 0x28 | 0x30 | 0x38 | 0x40 => s.keep
  | _ => none

def State.writeSync (s : State) (rq : Req) (off : Nat) (v : Word64) : RegSet :=
  match off with
  | 0x00 => if (s.sel rq).part?.isSome then s.select rq fun x => { x with sync := bits v.toNat 0 14 } else s.keep
  | 0x08 | 0x10 | 0x18 | 0x20 | 0x28 | 0x30 => s.keep
  | _ => none

def State.writeCtx (s : State) (rq : Req) (off : Nat) (v : Word64) : RegSet :=
  match off with
  | 0x00 => s.select rq fun x => { x with ctx := bits v.toNat 0 12 }
  | 0x08 => match bits v.toNat 0 3 with
    | 1 => s.ran (execCreate rq)
    | 2 => s.ran (execCtxLoad rq)
    | 3 => s.ran (execEvict rq)
    | 4 => s.ran (execCtxEnd rq)
    | 5 => s.ran (execDestroy rq)
    | _ => s.keep
  | 0x10 => { s with ctxRegs := { s.ctxRegs with descObj := bits v.toNat 0 32 } }.done
  | 0x18 => { s with ctxRegs := { s.ctxRegs with arg := bits v.toNat 0 6 } }.done
  | 0x20 | 0x28 | 0x30 => s.keep
  | _ => if 0x100 ≤ off ∧ off ≤ 0x198 then
      { s with ctxRegs := { s.ctxRegs with desc := NatMap.set 0 s.ctxRegs.desc ((off - 0x100) / 8) v } }.done
    else none

/-! ### PART, TILE and QRN -/

def State.writePart (s : State) (rq : Req) (off : Nat) (v : Word64) : RegSet :=
  match off with
  | 0x00 => s.select rq fun x => { x with part := bits v.toNat 0 4, partAll := bit v.toNat 4 }
  | 0x08 => match bits v.toNat 0 3 with
    | 1 => s.ran (execStage rq)
    | 2 => s.ran (execBind rq)
    | 3 => s.ran (execUnbind rq)
    | 4 => s.ran (execRebind rq)
    | 5 => s.ran (execDiscard rq)
    | _ => s.keep
  | 0x20 => (s.onSelPart rq fun p s => { s with stageObj := NatMap.set 0 s.stageObj p (bits v.toNat 0 32) }).done
  | 0x28 => (s.onSelPart rq fun p s => { s with stageLen := NatMap.set 0 s.stageLen p (bits v.toNat 0 40) }).done
  | 0x30 => s.wl s.partLock fun s => s.onSelPart rq fun p s => s.modPart p fun x => { x with drainLimit := bits v.toNat 0 11 }
  | 0x38 => s.writeLock .part v
  | 0x10 | 0x18 | 0x40 | 0x48 | 0x50 | 0x58 | 0x60 | 0x80 | 0x88 | 0x90 | 0x98 | 0xA0 | 0xA8 | 0xB0 | 0xB8 => s.keep
  | _ => none

/-- TILE_CORE_CTRL: HALT, or RESUME; both at once take no action (R91). The pc at which the core halts is where its program stands, a
free value of the model. -/
def State.writeCoreCtrl (s : State) (rq : Req) (v : Word64) : State :=
  match bits v.toNat 0 2 with
  | 1 => (match execCoreHalt rq (Config.freeValue s.draws) s with | .next t => t.draw | _ => s)
  | 2 => (match execCoreResume rq s with | .next t => t | _ => s)
  | _ => s

def State.writeTile (s : State) (rq : Req) (off : Nat) (v : Word64) : RegSet :=
  match off with
  | 0x00 => s.select rq fun x => { x with tile := bits v.toNat 0 9 }
  | 0x38 => (s.writeCoreCtrl rq v).done
  | 0x08 | 0x10 | 0x18 | 0x20 | 0x28 | 0x30 | 0x40 | 0x48 => s.keep
  | _ => none

def State.writeQrn (s : State) (rq : Req) (off : Nat) (v : Word64) : RegSet :=
  match off with
  | 0x00 => (s.onSelPart rq fun p s => s.onSelDie rq fun d s => s.modQuern p d fun q => { q with table := bits v.toNat 0 32 }).done
  | 0x08 => match bits v.toNat 0 2 with
    | 1 => s.ran (execQrnLoad rq)
    | 2 => s.ran (execQrnUnload rq)
    | _ => s.keep
  | 0x38 => (s.onSelPart rq fun p s => s.onSelDie rq fun d s => s.modQuern p d fun q => { q with groupSel := bits v.toNat 0 6 }).done
  | 0x10 | 0x18 | 0x20 | 0x28 | 0x30 | 0x40 => s.keep
  | _ => if 0x80 ≤ off ∧ off ≤ 0xB8 then s.keep else none

/-! ### MEM, MCE and ETH -/

def State.writeMem (s : State) (rq : Req) (off : Nat) (v : Word64) : RegSet :=
  match off with
  | 0x00 => s.writeLock .mem v
  | 0x10 => if bits v.toNat 0 32 = 0 then s.keep else s.ran (execMemFree rq (bits v.toNat 0 32))
  | 0x28 => s.select rq fun x => { x with leat := bits v.toNat 0 10 }
  | 0x08 | 0x18 | 0x20 | 0x30 | 0x38 | 0x40 | 0x48 => s.keep
  | _ => none

def State.writeMce (s : State) (rq : Req) (off : Nat) (v : Word64) : RegSet :=
  match off with
  | 0x00 => s.writeLock .mce v
  | 0x08 => s.select rq fun x => { x with keyid := bits v.toNat 0 6 }
  | 0x10 | 0x18 | 0x20 | 0x28 | 0x30 | 0x38 | 0x40 | 0x48 => s.keep
  | _ => none

/-- ETH_MACSEC_STATUS: REQUIRE and EN; EN cleared ends the port's secure channel (R356, R357). -/
def State.setMacsec (s : State) (k : Nat) (v : Word64) : State :=
  let was := (s.port k).macsecEn
  let s := s.modPort k fun x => { x with macsecRequire := bit v.toNat 3, macsecEn := bit v.toNat 2 }
  if was && !bit v.toNat 2 then s.macsecEnds k else s

/-- A write to the selected port's WL fields. -/
def State.portWl (s : State) (rq : Req) (f : Port → Port) : RegSet := s.wl s.eth.lock fun s => s.onSelPort rq fun k s => s.modPort k f
/-- A write to the selected queue pair's fields. -/
def State.qpSet (s : State) (rq : Req) (f : Qp → Qp) : RegSet := (s.modQp (s.sel rq).qp f).done

/-- BREAKOUT is ignored on the management port; of PFC_EN only bits 3, 5 and 6 are writable. A sub-port more whose channel is not up takes the
port's secure channel (R357). -/
def State.setPortCfg (s : State) (k : Nat) (v : Word64) : State :=
  (s.modPort k fun x =>
    { x with v6 := bit v.toNat 16, pfcEn := bits v.toNat 8 8 &&& 0x68, breakout := if k = 8 then x.breakout else bits v.toNat 0 3 }).macsecFell k
    (s.macsecUp k)

def State.writeEth (s : State) (rq : Req) (off : Nat) (v : Word64) : RegSet :=
  match off with
  | 0x00 => s.select rq fun x => { x with port := bits v.toNat 0 4 }
  | 0x08 => s.wl s.eth.lock fun s => s.onSelPort rq fun k s => s.setPortCfg k v
  | 0x18 => s.portWl rq fun x => { x with mac := bits v.toNat 0 48 }
  | 0x20 => s.portWl rq fun x => { x with ip4 := bits v.toNat 0 32 }
  | 0x28 => s.portWl rq fun x => { x with ip60 := v }
  | 0x30 => s.portWl rq fun x => { x with ip61 := v }
  | 0x38 => s.writeLock .eth v
  | 0x40 => s.select rq fun x => { x with qp := bits v.toNat 0 13 }
  | 0x48 => s.qpSet rq fun q =>
      { q with remoteQpn := bits v.toNat 24 24, ipv6 := bit v.toNat 20, port := bits v.toNat 16 4, ctx := bits v.toNat 4 12, part := bits v.toNat 0 4 }
  | 0x50 => s.qpSet rq fun q => { q with rqPsn := bits v.toNat 24 24, sqPsn := bits v.toNat 0 24 }
  | 0x58 => s.qpSet rq fun q => { q with rmac := bits v.toNat 0 48 }
  | 0x60 => s.qpSet rq fun q => { q with raddr0 := v }
  | 0x68 => s.qpSet rq fun q => { q with raddr1 := v }
  | 0x70 => match bits v.toNat 0 2 with
    | 1 => s.ran (execConnect rq)
    | 2 => s.ran (execQpReset rq)
    | _ => s.keep
  | 0x100 => s.portWl rq fun x => { x with replayWindow := bits v.toNat 16 32, cakSlot := bits v.toNat 8 8, ksPriority := bits v.toNat 0 8 }
  | 0x108 => s.wl s.eth.lock fun s => s.onSelPort rq fun k s => s.setMacsec k v
  | 0x110 => s.portWl rq fun x => { x with ckn0 := v }
  | 0x118 => s.portWl rq fun x => { x with ckn1 := v }
  | 0x10 | 0x78 | 0x80 | 0x88 | 0x120 => s.keep
  | _ => none

/-! ### SEC and LC -/

/-- The writable bits of SEC_KEY_NEW. -/
def keyNewMask : Nat := 0xFFFFFFFFFF030000

/-- A write of a release register of the selected charter slot. -/
def State.setRel (s : State) (rq : Req) (f : RelRegs → RelRegs) : RegSet :=
  (s.modSec fun x => let c := (s.sel rq).charterSlot; x.setCharter c { x.charter c with relRegs := f (x.charter c).relRegs }).done

def State.writeSec (s : State) (rq : Req) (off : Nat) (v : Word64) : RegSet :=
  match off with
  | 0x00 => s.select rq fun x => { x with key := bits v.toNat 0 8 }
  | 0x18 => s.wl s.sec.lock fun s => s.modSec fun x => { x with keyNew := v.toNat &&& keyNewMask }
  | 0x20 => (s.modSec fun x => { x with keyData0 := v }).done
  | 0x28 => (s.modSec fun x => { x with keyData1 := v }).done
  | 0x30 => (s.modSec fun x => { x with keyData2 := v }).done
  | 0x38 => (s.modSec fun x => { x with keyData3 := v }).done
  | 0x40 => match bits v.toNat 0 2 with
    | 1 => s.ran (execKeyWrite rq)
    | 2 => s.ran (execKeyErase rq)
    | 3 => s.ran (execLoadPubkey rq)
    | _ => s.keep
  | 0x48 => (s.modSec fun x => { x with obj := bits v.toNat 0 32 }).done
  | 0x50 => (s.modSec fun x => { x with len := bits v.toNat 0 40 }).done
  | 0x58 => s.select rq fun x => { x with charterSlot := bits v.toNat 0 4, charterPart := bits v.toNat 4 4 }
  | 0x68 => match bits v.toNat 0 3 with
    | 1 => s.ran (execLoadCharter rq)
    | 2 => s.ran (execUnloadCharter rq)
    | 3 => s.ran (execRelRequest rq)
    | 4 => s.ran (execRelRun rq)
    | 5 => s.ran (execRelCancel rq)
    | 6 => s.ran (execRollover rq)
    | _ => s.keep
  | 0x80 => s.setRel rq fun r => { r with src := bits v.toNat 0 53 }
  | 0x88 => s.setRel rq fun r => { r with off := bits v.toNat 0 40 }
  | 0x90 => s.setRel rq fun r => { r with len := bits v.toNat 0 40 }
  | 0x98 => s.setRel rq fun r => { r with dst := bits v.toNat 0 32 }
  | 0xA0 => s.setRel rq fun r => { r with dstOff := bits v.toNat 0 40 }
  | 0xB0 => s.writeLock .sec v
  | 0x08 | 0x10 | 0x60 | 0x70 | 0x78 | 0xA8 | 0xC0 | 0xC8 | 0xD0 | 0xD8 | 0xE0 | 0xE8 | 0xF0 | 0xF8 => s.keep
  | _ => none

def State.writeLc (s : State) (rq : Req) (off : Nat) (v : Word64) : RegSet :=
  match off with
  | 0x08 => match bits v.toNat 0 3 with
    | 1 => (s.lcCmd rq State.transition).done
    | 2 => s.ran (execRaiseSvn rq)
    | 3 => s.ran (execRevokeKey rq)
    | 4 => s.ran (execGenIdentity rq)
    | 5 => (s.lcReset rq).done
    | 6 => s.ran (execFuseDigest rq)
    | _ => s.keep
  | 0x10 => (s.modLife fun x => { x with arg := bits v.toNat 0 8 }).done
  | 0x20 => (s.modLife fun x => { x with token0 := v }).done
  | 0x28 => (s.modLife fun x => { x with token1 := v }).done
  | 0x30 => (s.modLife fun x => { x with token2 := v }).done
  | 0x38 => (s.modLife fun x => { x with token3 := v }).done
  | 0x00 | 0x18 | 0x40 | 0x80 | 0x88 | 0x90 | 0x98 => s.keep
  | _ => none

/-! ### PWR, RAS and TEST -/

/-- PWR. DESIGN CHOICE (log entry 189): PWR_OPP [3] CAP_W, which Table 16.7 gives access WL and calls a reserved write-enable that must be
0, takes no write and reads 0, as R10 has a reserved bit. -/
def State.writePwr (s : State) (rq : Req) (off : Nat) (v : Word64) : RegSet :=
  match off with
  | 0x00 => s.writeLock .pwr v
  | 0x08 => (s.modPwr fun x => { x with mode := bits v.toNat 0 3 }).done
  | 0x18 => (s.modPwr fun x => { x with wakeAt := v }).done
  | 0x20 => s.wl s.pwr.lock fun s => s.modPwr fun x => { x with gateIdleUs := bits v.toNat 16 16, gateClasses := bits v.toNat 0 5 }
  | 0x28 => s.wl s.pwr.lock fun s => s.modPwr fun x => { x with throttleC := bits v.toNat 0 8 }
  | 0x30 => s.wl s.pwr.lock fun s => s.onSelDie rq fun d s =>
      (s.modPwr fun x => x.setDie d { x.die d with cap := bits v.toNat 0 3 }).retarget d
  | 0x40 => s.wl s.pwr.lock fun s => s.modPwr fun x => { x with capWatts := bits v.toNat 0 16 }
  | 0x50 => s.select rq fun x => { x with dom := bits v.toNat 0 10 }
  | 0x10 | 0x38 | 0x48 | 0x58 => s.keep
  | _ => none

def State.writeRas (s : State) (rq : Req) (off : Nat) (v : Word64) : RegSet :=
  match off with
  | 0x00 => s.writeLock .ras v
  | 0x08 => s.wl s.ras.lock fun s => s.modRas fun x => { x with eventEn := bit v.toNat 1, patrolEn := bit v.toNat 0 }
  | 0x18 => s.select rq fun x => { x with recSlot := bits v.toNat 0 6 }
  | 0x10 | 0x20 | 0x28 | 0x30 | 0x38 | 0x40 => s.keep
  | _ => if 0x100 ≤ off ∧ off ≤ 0x200 then s.keep else none

def State.writeTest (s : State) (rq : Req) (off : Nat) (v : Word64) : RegSet :=
  match off with
  | 0x10 => if bits v.toNat 0 2 = 1 then s.ran (execRetest rq) else s.keep
  | 0x28 => s.select rq fun x => { x with repair := bits v.toNat 0 8 }
  | 0x00 | 0x08 | 0x18 | 0x20 | 0x30 | 0x38 => s.keep
  | _ => none

/-! ### The views -/

/-- A write of P-view address `a` (R425): none where no register is listed there. -/
def State.writeP (s : State) (rq : Req) (a : Nat) (v : Word64) : RegSet :=
  let off := a % 65536
  match a / 65536 with
  | 0x0 => s.writeGlb rq off v
  | 0x1 => s.writeGov rq off v
  | 0x2 => s.writeWeir rq off v
  | 0x3 => s.writeSync rq off v
  | 0x4 => s.writeCtx rq off v
  | 0x5 => s.writePart rq off v
  | 0x6 => s.writeTile rq off v
  | 0x7 => s.writeQrn rq off v
  | 0x8 => s.writeMem rq off v
  | 0x9 => s.writeMce rq off v
  | 0xA => s.writeEth rq off v
  | 0xB => s.writeSec rq off v
  | 0xC => s.writeLc rq off v
  | 0xD => s.writePwr rq off v
  | 0xE => s.writeRas rq off v
  | 0xF => s.writeTest rq off v
  | _ => none

/-- The offsets of a window (Table 17.2). -/
def uReg (off : Nat) : Bool :=
  uPartReg off || off == 0x000 || off == 0x008 || off == 0x010 || off == 0x020 || off == 0x060 || off == 0x068 || off == 0x070 || off == 0x078
  || off == 0x080

/-- A write of offset `off` in the window of context `x`. -/
def State.writeU (s : State) (rq : Req) (x off : Nat) (v : Word64) : RegSet :=
  match off with
  | 0x060 => s.select rq fun y => { y with uSync := NatMap.set 0 y.uSync x (bits v.toNat 0 14) }
  | 0x078 => if bits v.toNat 0 32 = 0 then s.keep else s.ran (execUFree rq x (bits v.toNat 0 32))
  | _ => if uReg off then s.keep else none

/-- A write of the board controller's own addresses (Tables 18.5, 18.6). -/
def State.writeBc (s : State) (off : Nat) (v : Word64) : RegSet :=
  match off with
  | 0x20 => (s.modBoard fun b => { b with resp0 := v }).done
  | 0x28 => (s.modBoard fun b => { b with resp1 := v }).done
  | 0x30 => (s.modBoard fun b => { b with resp2 := v }).done
  | 0x38 => (s.bcResponse v).done
  | 0x48 => (s.fatalClear v).done
  | 0x00 | 0x08 | 0x10 | 0x18 | 0x40 => s.keep
  | _ => none

end Sys2Proof.Machine
end

