-- ==== Sys2Proof/Machine/Registers.lean ====
section
/-! DEFINITION. Register accesses (R280, R281, R424 to R433), the quantized counters' boundary (R340), the board controller's
address (R445), and the tick of mill time. -/
namespace Sys2Proof.Machine
open Sys2Proof

/-! ### One access (R281, R424 to R426) -/

/-- The first address of the U-view, and the first beyond its windows. -/
def uBase : Nat := 0x8000000000
def uEnd : Nat := 0x8001000000

/-- Status, value and state of a read that found its register or not. -/
def State.readDone (s : State) (r : RegAns) : Nat × Nat × State :=
  match r with | some x => (0, x.1, x.2) | none => (1, 0, s)

/-- A read of the register at address `a` by a requester: its status (Table 11.4), the value, and the state after it. -/
def State.regRead (s : State) (rq : Req) (a : Nat) : Nat × Nat × State :=
  if a % 8 ≠ 0 then (4, 0, s)
  else if rq = .board then
    if !s.boardMay a then (3, 0, s)
    else if 0x7FFFFF0000 ≤ a then s.readDone (s.readBc (a - 0x7FFFFF0000)) else s.readDone (s.readP rq a)
  else if a < uBase then (if s.mayP rq a then s.readDone (s.readP rq a) else (3, 0, s))
  else if uEnd ≤ a then (1, 0, s)
  else
    let x := (a - uBase) / 4096
    if s.mayU rq x then s.readDone (s.readU rq x (a % 4096)) else (3, 0, s)

def State.writeDone (s : State) (r : RegSet) : Nat × State :=
  match r with | some x => (if x.1 then 2 else 0, x.2) | none => (1, s)

/-- A write of the register at address `a` by a requester: its status and the state after it. -/
def State.regWrite (s : State) (rq : Req) (a : Nat) (v : Word64) : Nat × State :=
  if a % 8 ≠ 0 then (4, s)
  else if rq = .board then
    if !s.boardMay a then (3, s)
    else if 0x7FFFFF0000 ≤ a then s.writeDone (s.writeBc (a - 0x7FFFFF0000) v) else s.writeDone (s.writeP rq a v)
  else if a < uBase then (if s.mayP rq a then s.writeDone (s.writeP rq a v) else (3, s))
  else if uEnd ≤ a then (1, s)
  else
    let x := (a - uBase) / 4096
    if s.mayU rq x then s.writeDone (s.writeU rq x (a % 4096) v) else (3, s)

/-! ### The response -/

/-- REG_RESP goes to the requester: on its session while that lives, unsealed on the management port to factory access. -/
def State.respond (s : State) (rq : Req) (tag status failIndex count : Nat) (data : List Word64) : State :=
  let m : IhlakMsg := .regResp tag status failIndex count s.now data
  match rq with
  | .session n => if (s.sec.session n).role = 0 then s else s.sendOn n m
  | .factory => s.sendPlain 8 m
  | .board => s

/-- The response to a single access. -/
def State.respondOne (s : State) (rq : Req) (a status : Nat) (data : List Word64) : State :=
  if rq = .board then s.boardAnswer a status data else s.respond rq 0 status (if status = 0 then 0xFF else 0) 1 data

/-! ### Single accesses -/

/-- Write one register and answer. -/
def State.writeOne (s : State) (rq : Req) (a : Nat) (v : Word64) : State :=
  let r := s.regWrite rq a v
  (r.2.respondOne rq a r.1 []).takeReset

/-- REG_WRITE: a write of one register (R432). -/
def execRegWrite (rq : Req) (addr : Nat) (v : Word64) (s : State) : Answer := .next (s.writeOne rq (addr % 2 ^ 40) v)

/-- LOCK_SET: 1 is written to a block's lock bit (R433). -/
def execLockSet (rq : Req) (b : LockBlock) (s : State) : Answer := .next (s.writeOne rq b.addr 1)

/-- Read one register and answer. -/
def State.readOne (s : State) (rq : Req) (a : Nat) : State :=
  let r := s.regRead rq a
  r.2.2.respondOne rq a r.1 [BitVec.ofNat 64 r.2.1]

/-- COUNTER_READ: a read of one register; a clearing counter gives up what it returned (R9, R340). -/
def execCounterRead (rq : Req) (addr : Nat) (s : State) : Answer := .next (s.readOne rq (addr % 2 ^ 40))

/-! ### REG_RD and REG_WR (R280) -/

/-- A big-endian field of a payload. -/
def beField (b : List Byte) (off len : Nat) : Nat := ofLe (slice b off len).reverse

/-- TAG, COUNT and ADDR of a request. -/
def Pkt.regTag (p : Pkt) : Nat := beField p.payload 0 4
def Pkt.regCount (p : Pkt) : Nat := beField p.payload 4 1
def Pkt.regAddr (p : Pkt) : Nat := beField p.payload 8 8 % 2 ^ 40
/-- Data word `i` of a REG_WR. -/
def Pkt.regData (p : Pkt) (i : Nat) : Word64 := BitVec.ofNat 64 (beField p.payload (16 + 8 * i) 8)

/-- The request is well formed: ADDR a multiple of 8, COUNT 1 to 16, the payload as long as they ask (Table 11.4). -/
def Pkt.regOk (p : Pkt) : Bool :=
  p.regAddr % 8 == 0 && decide (1 ≤ p.regCount) && decide (p.regCount ≤ 16)
  && p.payload.length == 16 + (if p.type = 2 then 8 * p.regCount else 0)

/-- How far a request has come: the state, the data read, the first refusal and its position. -/
structure RegRun where
  st : State
  data : List Word64 := []
  refusal : Option (Nat × Nat) := none

/-- Note a register's status: the first refusal counts. -/
def RegRun.note (r : RegRun) (i status : Nat) : RegRun :=
  if status = 0 ∨ r.refusal.isSome then r else { r with refusal := some (status, i) }

/-- The address of register `i` of a request. -/
def Pkt.regAt (p : Pkt) (i : Nat) : Nat := (p.regAddr + 8 * i) % 2 ^ 40

def Pkt.readStep (p : Pkt) (rq : Req) (r : RegRun) (i : Nat) : RegRun :=
  let x := r.st.regRead rq (p.regAt i)
  ({ r with st := x.2.2, data := r.data ++ [BitVec.ofNat 64 x.2.1] } : RegRun).note i x.1
def Pkt.writeStep (p : Pkt) (rq : Req) (r : RegRun) (i : Nat) : RegRun :=
  let x := r.st.regWrite rq (p.regAt i) (p.regData i)
  ({ r with st := x.2 } : RegRun).note i x.1

/-- Answer a request once its registers have been accessed in order; a reset that one of them asked for follows. -/
def RegRun.finish (r : RegRun) (rq : Req) (p : Pkt) : State :=
  (r.st.respond rq p.regTag ((r.refusal.map (·.1)).getD 0) ((r.refusal.map (·.2)).getD 0xFF) p.regCount r.data).takeReset

/-- A request runs (R280): register after register, a refused one not stopping the rest; a malformed one does nothing. -/
def State.regRequest (s : State) (rq : Req) (p : Pkt) : State :=
  if !p.regOk then s.respond rq p.regTag 4 0xFF p.regCount []
  else ((List.range p.regCount).foldl (if p.type = 1 then p.readStep rq else p.writeStep rq) { st := s }).finish rq p

/-- A request of one type is taken. -/
def State.onReg (s : State) (p : Pkt) (type : Nat) : State :=
  if p.type = type ∧ s.factoryPkt p then s.regRequest .factory p
  else s.onPkt p type fun s => s.regRequest (.session p.session) p

/-- REG_RD. -/
def execRegRd (p : Pkt) (s : State) : Answer := .next (s.onReg p 1)
/-- REG_WR. -/
def execRegWr (p : Pkt) (s : State) : Answer := .next (s.onReg p 2)

/-! ### The quantized counters' boundary (R340) -/

def Counter.latched (c : Counter) : Counter := { c with latch := c.live, totalLatch := c.total }

def Weir.latched (w : Weir) : Weir :=
  { w with
    assayFails := w.assayFails.latched, late := w.late.latched, eccAborts := w.eccAborts.latched
    regress := w.regress.latched, resignals := w.resignals.latched, stale := w.stale.latched }

def Quern.latchCounters (q : Quern) : Quern := { q with skips := q.skips.latched, saturated := q.saturated.latched }

def MemRegs.latched (m : MemRegs) : MemRegs :=
  { m with encIn := m.encIn.latched, encOut := m.encOut.latched, decIn := m.decIn.latched, decOut := m.decOut.latched }

/-- Every quantized counter is latched. -/
def State.latchCounters (s : State) : State :=
  { s with
    weirs := NatMap.mapVals {} (fun _ w => w.latched) s.weirs
    querns := NatMap.mapVals {} (fun _ q => q.latchCounters) s.querns
    tollFails := NatMap.mapVals {} (fun _ c => c.latched) s.tollFails
    tiles := NatMap.mapVals {} (fun _ x => { x with topLatch := x.topCount }) s.tiles
    parts := NatMap.mapVals {} (fun _ v => { v with topTotalLatch := v.topTotal }) s.parts
    mem := s.mem.latched }

/-- QUANTIZED_COUNTER_LATCH: at a 1 ms boundary of mill time. -/
def execQuantizedLatch (s : State) : Answer := .next (if s.now % 1000000 = 0 then s.latchCounters else s)

/-! ### I3C (R445) and the tick -/

/-- ENTDAA: the device takes a dynamic address of 7 bits; in Off nothing answers (Table 16.1). -/
def execEntdaa (addr : Nat) (s : State) : Answer :=
  .next (if s.pwr.state = 4 then s else s.modBoard fun b => { b with dynAddr := some (addr % 128) })

/-- The block idles for one nanosecond of mill time (R39), which counts in Run, Idle and Sleep (R409): the time-driven happenings have
commands of their own. -/
def idle (s : State) : State := if 3 ≤ s.pwr.state then s else s.modMill fun m => { m with now := m.now + 1 }

end Sys2Proof.Machine
end

