-- ==== Sys2Proof/Machine/Vector.lean ====
section
/-! DEFINITION. The vector commands (R148 to R159), TIN_CVT (R81) and SR_SET (R121). Each VOP's command starts the first waiting VEC of
that VOP. -/
namespace Sys2Proof.Machine
open Sys2Proof

/-- Run a vector operation in its tile: `g` computes the tile and what it counts (R144, R153). -/
def State.runVector (s : State) (t i : Nat) (f : Flight) (g : TileEnv → Tile → Top → Tile × StatAdd) : State :=
  let x := s.tile t
  let r := g (s.tileEnv t) (x.under f) f.top
  ((s.setTile t { r.1 with sr := x.sr }).setPhase t i .running).oweStats t f r.2

/-- Start the first waiting VEC of VOP `vop`; COUNT = 0 completes as a no-op (R80). -/
def State.startVec (s : State) (t vop : Nat) : State :=
  s.startTop t (fun top => topOpcode top == 8 && (vecTop top).vop == vop) fun i f s =>
    if (vecTop f.top).count = 0 then s.finishTop t i else s.runVector t i f runVec

/-- ADD (Table 06.1): dst = a + b, one rounding. -/
def execAdd (tile : Nat) (s : State) : Answer := .next (s.startVec tile 0x01)
/-- SUB (Table 06.1): dst = a − b. -/
def execSub (tile : Nat) (s : State) : Answer := .next (s.startVec tile 0x02)
/-- MUL (Table 06.1): dst = a × b. -/
def execMul (tile : Nat) (s : State) : Answer := .next (s.startVec tile 0x03)
/-- FMA (Table 06.1): dst = a × b + c, one rounding. -/
def execFma (tile : Nat) (s : State) : Answer := .next (s.startVec tile 0x04)
/-- FNMA (Table 06.1): dst = c − a × b, one rounding. -/
def execFnma (tile : Nat) (s : State) : Answer := .next (s.startVec tile 0x05)
/-- AFF (Table 06.1): dst = a × s + t with the FP32 immediates. -/
def execAff (tile : Nat) (s : State) : Answer := .next (s.startVec tile 0x06)
/-- MULL (Table 06.1): dst = a × b_p. -/
def execMull (tile : Nat) (s : State) : Answer := .next (s.startVec tile 0x07)
/-- FMAL (Table 06.1): dst = a × b_p + c. -/
def execFmal (tile : Nat) (s : State) : Answer := .next (s.startVec tile 0x08)
/-- MIN (Table 06.1). -/
def execVmin (tile : Nat) (s : State) : Answer := .next (s.startVec tile 0x09)
/-- MAX (Table 06.1). -/
def execVmax (tile : Nat) (s : State) : Answer := .next (s.startVec tile 0x0A)
/-- ABS (Table 06.1). -/
def execVabs (tile : Nat) (s : State) : Answer := .next (s.startVec tile 0x0B)
/-- NEG (Table 06.1). -/
def execVneg (tile : Nat) (s : State) : Answer := .next (s.startVec tile 0x0C)
/-- CMPGT (Table 06.1): 1 where a > b, else 0. -/
def execCmpgt (tile : Nat) (s : State) : Answer := .next (s.startVec tile 0x0D)
/-- SEL (Table 06.1): b where a > 0, else c. -/
def execVsel (tile : Nat) (s : State) : Answer := .next (s.startVec tile 0x0E)
/-- MOV (Table 06.1): cells copied. -/
def execMov (tile : Nat) (s : State) : Answer := .next (s.startVec tile 0x10)
/-- FILL (Table 06.1): every cell takes IMM[31:0]. -/
def execFill (tile : Nat) (s : State) : Answer := .next (s.startVec tile 0x11)
/-- MOVT (Table 06.1): rows from columns. -/
def execMovt (tile : Nat) (s : State) : Answer := .next (s.startVec tile 0x12)
/-- RCP (Table 06.1). -/
def execRcp (tile : Nat) (s : State) : Answer := .next (s.startVec tile 0x20)
/-- SQRT (Table 06.1). -/
def execSqrt (tile : Nat) (s : State) : Answer := .next (s.startVec tile 0x21)
/-- RSQRT (Table 06.1). -/
def execRsqrt (tile : Nat) (s : State) : Answer := .next (s.startVec tile 0x22)
/-- EXP (Table 06.1). -/
def execExp (tile : Nat) (s : State) : Answer := .next (s.startVec tile 0x23)
/-- EXP2 (Table 06.1). -/
def execExp2 (tile : Nat) (s : State) : Answer := .next (s.startVec tile 0x24)
/-- LOG (Table 06.1). -/
def execLog (tile : Nat) (s : State) : Answer := .next (s.startVec tile 0x25)
/-- LOG2 (Table 06.1). -/
def execLog2 (tile : Nat) (s : State) : Answer := .next (s.startVec tile 0x26)
/-- TANH (Table 06.1). -/
def execTanh (tile : Nat) (s : State) : Answer := .next (s.startVec tile 0x27)
/-- SIGMOID (Table 06.1). -/
def execSigmoid (tile : Nat) (s : State) : Answer := .next (s.startVec tile 0x28)
/-- ERF (Table 06.1). -/
def execErf (tile : Nat) (s : State) : Answer := .next (s.startVec tile 0x29)
/-- RSUM (Table 06.1). -/
def execRsum (tile : Nat) (s : State) : Answer := .next (s.startVec tile 0x30)
/-- RSUMSQ (Table 06.1). -/
def execRsumsq (tile : Nat) (s : State) : Answer := .next (s.startVec tile 0x31)
/-- RDOT (Table 06.1). -/
def execRdot (tile : Nat) (s : State) : Answer := .next (s.startVec tile 0x32)
/-- RMAX (Table 06.1). -/
def execRmax (tile : Nat) (s : State) : Answer := .next (s.startVec tile 0x33)
/-- RMIN (Table 06.1). -/
def execRmin (tile : Nat) (s : State) : Answer := .next (s.startVec tile 0x34)
/-- RAMAX (Table 06.1). -/
def execRamax (tile : Nat) (s : State) : Answer := .next (s.startVec tile 0x35)
/-- IADD (Table 06.1). -/
def execIadd (tile : Nat) (s : State) : Answer := .next (s.startVec tile 0x40)
/-- ISUB (Table 06.1). -/
def execIsub (tile : Nat) (s : State) : Answer := .next (s.startVec tile 0x41)
/-- IAND (Table 06.1). -/
def execIand (tile : Nat) (s : State) : Answer := .next (s.startVec tile 0x42)
/-- IOR (Table 06.1). -/
def execIor (tile : Nat) (s : State) : Answer := .next (s.startVec tile 0x43)
/-- IXOR (Table 06.1). -/
def execIxor (tile : Nat) (s : State) : Answer := .next (s.startVec tile 0x44)
/-- ISHL (Table 06.1). -/
def execIshl (tile : Nat) (s : State) : Answer := .next (s.startVec tile 0x45)
/-- ISHR (Table 06.1): arithmetic. -/
def execIshr (tile : Nat) (s : State) : Answer := .next (s.startVec tile 0x46)
/-- ILSR (Table 06.1): logical. -/
def execIlsr (tile : Nat) (s : State) : Answer := .next (s.startVec tile 0x47)
/-- CVT (Table 06.1): R157. -/
def execCvt (tile : Nat) (s : State) : Answer := .next (s.startVec tile 0x50)
/-- STAT_READ (Table 06.1): R158. -/
def execStatRead (tile : Nat) (s : State) : Answer := .next (s.startVec tile 0x61)

/-- TIN_CVT (R81); COUNT = 0 completes as a no-op. -/
def State.startTinCvt (s : State) (t : Nat) : State :=
  s.startTop t (fun top => topOpcode top == 9) fun i f s =>
    if (tinTop f.top).count = 0 then s.finishTop t i else s.runVector t i f fun _ x top => runTinCvt x top

def execTinCvt (tile : Nat) (s : State) : Answer := .next (s.startTinCvt tile)

/-- SR_SET (R121): it waits for its cluster's key unit, which serves the tiles one at a time. The context it sets is already that of the
TOPs behind it (`Flight.sr`). -/
def State.startSrSet (s : State) (t : Nat) : State :=
  s.startTop t isSrSet fun i f s =>
    if (vecTop f.top).count = 0 then s.finishTop t i
    else (s.setPhase t i .running).modCluster (tileCluster t) fun c => { c with keyQueue := c.keyQueue ++ [t] }

def execSrSet (tile : Nat) (s : State) : Answer := .next (s.startSrSet tile)

/-- The key unit of a cluster has derived a key: the SR_SET at the head of its queue is complete (R121). -/
def State.srKeyReady (s : State) (c : Nat) : State :=
  match (s.cluster c).keyQueue with
  | [] => s
  | t :: rest =>
    let s := s.modCluster c fun x => { x with keyQueue := rest }
    match s.runningTop t isSrSet with
    | some i => s.finishTop t i
    | none => s

def execSrKeyReady (cluster : Nat) (s : State) : Answer := .next (s.srKeyReady cluster)

/-- The last line of a vector operation is written (R162). -/
def execVecComplete (tile : Nat) (hw : HwCheck) (s : State) : Answer :=
  .next (s.completeTop tile 0x0A05 .vector hw (fun top => (topOpcode top == 8 && !isSrSet top) || topOpcode top == 9)
    fun i _ s => s.finishTop tile i)

end Sys2Proof.Machine
end

