-- ==== Sys2Proof/Machine/Dispatch.lean ====
section
/-! DEFINITION. The dispatch: one arm per command, each one direct call of its meaning. -/
namespace Sys2Proof.Machine
open Sys2Proof

def exec (i : Instr) (s : State) : Host.Outcome State Fault Refusal :=
  match i with
  | .regWrite rq addr v => Sys2Proof.Machine.execRegWrite rq addr v s
  | .lockSet rq b => Sys2Proof.Machine.execLockSet rq b s
  | .counterRead rq addr => Sys2Proof.Machine.execCounterRead rq addr s
  | .regRd p => Sys2Proof.Machine.execRegRd p s
  | .regWr p => Sys2Proof.Machine.execRegWr p s
  | .ihlakInvalid p => Sys2Proof.Machine.execIhlakInvalid p s
  | .stage rq => Sys2Proof.Machine.execStage rq s
  | .bind rq => Sys2Proof.Machine.execBind rq s
  | .unbind rq => Sys2Proof.Machine.execUnbind rq s
  | .rebind rq => Sys2Proof.Machine.execRebind rq s
  | .discard rq => Sys2Proof.Machine.execDiscard rq s
  | .drainComplete part => Sys2Proof.Machine.execDrainComplete part s
  | .drainLimitExpiry part => Sys2Proof.Machine.execDrainLimitExpiry part s
  | .scrubComplete part => Sys2Proof.Machine.execScrubComplete part s
  | .retireComplete part => Sys2Proof.Machine.execRetireComplete part s
  | .keyDestroyTimeout kid => Sys2Proof.Machine.execKeyDestroyTimeout kid s
  | .loadComplete part => Sys2Proof.Machine.execLoadComplete part s
  | .millracePacket src die dst => Sys2Proof.Machine.execMillracePacket src die dst s
  | .linkFrameAuthFail link => Sys2Proof.Machine.execLinkFrameAuthFail link s
  | .ptpSync m => Sys2Proof.Machine.execPtpSync m s
  | .ptpUnsupported port => Sys2Proof.Machine.execPtpUnsupported port s
  | .ptpHoldover => Sys2Proof.Machine.execPtpHoldover s
  | .ppsInEdge => Sys2Proof.Machine.execPpsInEdge s
  | .ppsOutEdge => Sys2Proof.Machine.execPpsOutEdge s
  | .revolutionStart part => Sys2Proof.Machine.execRevolutionStart part s
  | .leaseExpiry part => Sys2Proof.Machine.execLeaseExpiry part s
  | .phaseStart part entry => Sys2Proof.Machine.execPhaseStart part entry s
  | .heldPhaseStart part entry => Sys2Proof.Machine.execHeldPhaseStart part entry s
  | .collectiveWindow part entry => Sys2Proof.Machine.execCollectiveWindow part entry s
  | .windowClose part entry => Sys2Proof.Machine.execWindowClose part entry s
  | .queueScan part entry => Sys2Proof.Machine.execQueueScan part entry s
  | .leaseCheck part entry => Sys2Proof.Machine.execLeaseCheck part entry s
  | .digestCompare part entry => Sys2Proof.Machine.execDigestCompare part entry s
  | .testSlot part entry => Sys2Proof.Machine.execTestSlot part entry s
  | .versionRelease part entry => Sys2Proof.Machine.execVersionRelease part entry s
  | .powerHint part entry => Sys2Proof.Machine.execPowerHint part entry s
  | .hintLapse part => Sys2Proof.Machine.execHintLapse part s
  | .deadlineMiss part entry => Sys2Proof.Machine.execDeadlineMiss part entry s
  | .brakeComplete part => Sys2Proof.Machine.execBrakeComplete part s
  | .brakeNFall => Sys2Proof.Machine.execBrakeNFall s
  | .release rq => Sys2Proof.Machine.execRelease rq s
  | .halt rq => Sys2Proof.Machine.execHalt rq s
  | .abort rq => Sys2Proof.Machine.execAbort rq s
  | .topLoStore cluster w => Sys2Proof.Machine.execTopLoStore cluster w s
  | .topHiStore cluster w => Sys2Proof.Machine.execTopHiStore cluster w s
  | .topEnqueue cluster => Sys2Proof.Machine.execTopEnqueue cluster s
  | .topDispatch tile => Sys2Proof.Machine.execTopDispatch tile s
  | .nop tile => Sys2Proof.Machine.execNop tile s
  | .mma tile hw => Sys2Proof.Machine.execMma tile hw s
  | .weightLoadDone tile hw => Sys2Proof.Machine.execWeightLoadDone tile hw s
  | .mmaComplete tile hw => Sys2Proof.Machine.execMmaComplete tile hw s
  | .load tile => Sys2Proof.Machine.execLoad tile s
  | .store tile => Sys2Proof.Machine.execStore tile s
  | .transferComplete tile hw => Sys2Proof.Machine.execTransferComplete tile hw s
  | .drainReg tile => Sys2Proof.Machine.execDrainReg tile s
  | .drainMem tile => Sys2Proof.Machine.execDrainMem tile s
  | .drainTin tile => Sys2Proof.Machine.execDrainTin tile s
  | .drainDiscard tile => Sys2Proof.Machine.execDrainDiscard tile s
  | .drainCompleteTop tile hw => Sys2Proof.Machine.execDrainCompleteTop tile hw s
  | .tinCvt tile => Sys2Proof.Machine.execTinCvt tile s
  | .tollAlloc tile => Sys2Proof.Machine.execTollAlloc tile s
  | .tollFree tile => Sys2Proof.Machine.execTollFree tile s
  | .tollServe => Sys2Proof.Machine.execTollServe s
  | .wait tile => Sys2Proof.Machine.execWait tile s
  | .signal tile => Sys2Proof.Machine.execSignal tile s
  | .fence tile => Sys2Proof.Machine.execFence tile s
  | .fenceComplete tile => Sys2Proof.Machine.execFenceComplete tile s
  | .add tile => Sys2Proof.Machine.execAdd tile s
  | .sub tile => Sys2Proof.Machine.execSub tile s
  | .mul tile => Sys2Proof.Machine.execMul tile s
  | .fma tile => Sys2Proof.Machine.execFma tile s
  | .fnma tile => Sys2Proof.Machine.execFnma tile s
  | .aff tile => Sys2Proof.Machine.execAff tile s
  | .mull tile => Sys2Proof.Machine.execMull tile s
  | .fmal tile => Sys2Proof.Machine.execFmal tile s
  | .vmin tile => Sys2Proof.Machine.execVmin tile s
  | .vmax tile => Sys2Proof.Machine.execVmax tile s
  | .vabs tile => Sys2Proof.Machine.execVabs tile s
  | .vneg tile => Sys2Proof.Machine.execVneg tile s
  | .cmpgt tile => Sys2Proof.Machine.execCmpgt tile s
  | .vsel tile => Sys2Proof.Machine.execVsel tile s
  | .mov tile => Sys2Proof.Machine.execMov tile s
  | .fill tile => Sys2Proof.Machine.execFill tile s
  | .movt tile => Sys2Proof.Machine.execMovt tile s
  | .rcp tile => Sys2Proof.Machine.execRcp tile s
  | .sqrt tile => Sys2Proof.Machine.execSqrt tile s
  | .rsqrt tile => Sys2Proof.Machine.execRsqrt tile s
  | .exp tile => Sys2Proof.Machine.execExp tile s
  | .exp2 tile => Sys2Proof.Machine.execExp2 tile s
  | .log tile => Sys2Proof.Machine.execLog tile s
  | .log2 tile => Sys2Proof.Machine.execLog2 tile s
  | .tanh tile => Sys2Proof.Machine.execTanh tile s
  | .sigmoid tile => Sys2Proof.Machine.execSigmoid tile s
  | .erf tile => Sys2Proof.Machine.execErf tile s
  | .rsum tile => Sys2Proof.Machine.execRsum tile s
  | .rsumsq tile => Sys2Proof.Machine.execRsumsq tile s
  | .rdot tile => Sys2Proof.Machine.execRdot tile s
  | .rmax tile => Sys2Proof.Machine.execRmax tile s
  | .rmin tile => Sys2Proof.Machine.execRmin tile s
  | .ramax tile => Sys2Proof.Machine.execRamax tile s
  | .iadd tile => Sys2Proof.Machine.execIadd tile s
  | .isub tile => Sys2Proof.Machine.execIsub tile s
  | .iand tile => Sys2Proof.Machine.execIand tile s
  | .ior tile => Sys2Proof.Machine.execIor tile s
  | .ixor tile => Sys2Proof.Machine.execIxor tile s
  | .ishl tile => Sys2Proof.Machine.execIshl tile s
  | .ishr tile => Sys2Proof.Machine.execIshr tile s
  | .ilsr tile => Sys2Proof.Machine.execIlsr tile s
  | .cvt tile => Sys2Proof.Machine.execCvt tile s
  | .srSet tile => Sys2Proof.Machine.execSrSet tile s
  | .srKeyReady cluster => Sys2Proof.Machine.execSrKeyReady cluster s
  | .statRead tile => Sys2Proof.Machine.execStatRead tile s
  | .vecComplete tile hw => Sys2Proof.Machine.execVecComplete tile hw s
  | .phaseDone cluster => Sys2Proof.Machine.execPhaseDone cluster s
  | .coreTrap cluster cause pc => Sys2Proof.Machine.execCoreTrap cluster cause pc s
  | .resumeStore cluster mask => Sys2Proof.Machine.execResumeStore cluster mask s
  | .coreHalt rq pc => Sys2Proof.Machine.execCoreHalt rq pc s
  | .coreResume rq => Sys2Proof.Machine.execCoreResume rq s
  | .syncSignal src idx v => Sys2Proof.Machine.execSyncSignal src idx v s
  | .waitRelease w => Sys2Proof.Machine.execWaitRelease w s
  | .quernIngest part die shard hw => Sys2Proof.Machine.execQuernIngest part die shard hw s
  | .ingestComplete part die shard => Sys2Proof.Machine.execIngestComplete part die shard s
  | .ruleLatch part die => Sys2Proof.Machine.execRuleLatch part die s
  | .quernSweep part die hw => Sys2Proof.Machine.execQuernSweep part die hw s
  | .sweepComplete part die => Sys2Proof.Machine.execSweepComplete part die s
  | .flipPass part die => Sys2Proof.Machine.execFlipPass part die s
  | .flipComplete part die => Sys2Proof.Machine.execFlipComplete part die s
  | .laggedSweep part die group hw => Sys2Proof.Machine.execLaggedSweep part die group hw s
  | .laggedCommit part die group => Sys2Proof.Machine.execLaggedCommit part die group s
  | .qrnLoad rq => Sys2Proof.Machine.execQrnLoad rq s
  | .qrnUnload rq => Sys2Proof.Machine.execQrnUnload rq s
  | .memFree rq handle => Sys2Proof.Machine.execMemFree rq handle s
  | .uFree rq ctx handle => Sys2Proof.Machine.execUFree rq ctx handle s
  | .freeComplete ctx index => Sys2Proof.Machine.execFreeComplete ctx index s
  | .leatPassStart cluster k => Sys2Proof.Machine.execLeatPassStart cluster k s
  | .leatSegmentIssue cluster k => Sys2Proof.Machine.execLeatSegmentIssue cluster k s
  | .leatSegmentDone cluster k => Sys2Proof.Machine.execLeatSegmentDone cluster k s
  | .leatPassEnd cluster k => Sys2Proof.Machine.execLeatPassEnd cluster k s
  | .weirLoad rq => Sys2Proof.Machine.execWeirLoad rq s
  | .weirUnload rq => Sys2Proof.Machine.execWeirUnload rq s
  | .promote rq => Sys2Proof.Machine.execPromote rq s
  | .readmit rq => Sys2Proof.Machine.execReadmit rq s
  | .collectiveStart part coll => Sys2Proof.Machine.execCollectiveStart part coll s
  | .collChunk p => Sys2Proof.Machine.execCollChunk p s
  | .collCredit p => Sys2Proof.Machine.execCollCredit p s
  | .collNack p => Sys2Proof.Machine.execCollNack p s
  | .collAck p => Sys2Proof.Machine.execCollAck p s
  | .creditReturn session => Sys2Proof.Machine.execCreditReturn session s
  | .weirMessage p => Sys2Proof.Machine.execWeirMessage p s
  | .rootWaitExpiry part idx => Sys2Proof.Machine.execRootWaitExpiry part idx s
  | .weirNodeEcc part idx => Sys2Proof.Machine.execWeirNodeEcc part idx s
  | .leafRecomputeDone part vote => Sys2Proof.Machine.execLeafRecomputeDone part vote s
  | .rdmaWrite r => Sys2Proof.Machine.execRdmaWrite r s
  | .rdmaRead r => Sys2Proof.Machine.execRdmaRead r s
  | .roceUnsupported qp psn => Sys2Proof.Machine.execRoceUnsupported qp psn s
  | .roceAck qp psn nak => Sys2Proof.Machine.execRoceAck qp psn nak s
  | .roceCnp qp => Sys2Proof.Machine.execRoceCnp qp s
  | .roceRateRecover qp => Sys2Proof.Machine.execRoceRateRecover qp s
  | .roceRetransmit qp => Sys2Proof.Machine.execRoceRetransmit qp s
  | .cmdNop ctx queue => Sys2Proof.Machine.execCmdNop ctx queue s
  | .cmdAlloc ctx queue => Sys2Proof.Machine.execCmdAlloc ctx queue s
  | .cmdFree ctx queue => Sys2Proof.Machine.execCmdFree ctx queue s
  | .cmdCopy ctx queue => Sys2Proof.Machine.execCmdCopy ctx queue s
  | .cmdWait ctx queue => Sys2Proof.Machine.execCmdWait ctx queue s
  | .cmdWaitTimeout ctx queue => Sys2Proof.Machine.execCmdWaitTimeout ctx queue s
  | .cmdSignal ctx queue => Sys2Proof.Machine.execCmdSignal ctx queue s
  | .unsealObj ctx queue => Sys2Proof.Machine.execUnseal ctx queue s
  | .copyEngineComplete => Sys2Proof.Machine.execCopyEngineComplete s
  | .eventRecordWrite ctx => Sys2Proof.Machine.execEventRecordWrite ctx s
  | .create rq => Sys2Proof.Machine.execCreate rq s
  | .ctxLoad rq => Sys2Proof.Machine.execCtxLoad rq s
  | .evict rq => Sys2Proof.Machine.execEvict rq s
  | .evictComplete ctx => Sys2Proof.Machine.execEvictComplete ctx s
  | .ctxEnd rq => Sys2Proof.Machine.execCtxEnd rq s
  | .destroy rq => Sys2Proof.Machine.execDestroy rq s
  | .connect rq => Sys2Proof.Machine.execConnect rq s
  | .qpReset rq => Sys2Proof.Machine.execQpReset rq s
  | .sluiceRefused p => Sys2Proof.Machine.execSluiceRefused p s
  | .brake p => Sys2Proof.Machine.execBrake p s
  | .lease p => Sys2Proof.Machine.execLease p s
  | .haltPart p => Sys2Proof.Machine.execHaltPart p s
  | .abortCtx p => Sys2Proof.Machine.execAbortCtx p s
  | .quarantinePort p => Sys2Proof.Machine.execQuarantinePort p s
  | .hello p => Sys2Proof.Machine.execHello p s
  | .attest setup => Sys2Proof.Machine.execAttest setup s
  | .finish setup p => Sys2Proof.Machine.execFinish setup p s
  | .done setup => Sys2Proof.Machine.execDone setup s
  | .setupTimeout setup => Sys2Proof.Machine.execSetupTimeout setup s
  | .wrappedKey p => Sys2Proof.Machine.execWrappedKey p s
  | .approve p => Sys2Proof.Machine.execApprove p s
  | .close p => Sys2Proof.Machine.execClose p s
  | .bcChallengeRead => Sys2Proof.Machine.execBcChallengeRead s
  | .bcResponseWrite w => Sys2Proof.Machine.execBcResponseWrite w s
  | .bcAuthIdle => Sys2Proof.Machine.execBcAuthIdle s
  | .fatalClear v => Sys2Proof.Machine.execFatalClear v s
  | .keyWrite rq => Sys2Proof.Machine.execKeyWrite rq s
  | .keyErase rq => Sys2Proof.Machine.execKeyErase rq s
  | .loadPubkey rq => Sys2Proof.Machine.execLoadPubkey rq s
  | .keyCheckSweep disturbed => Sys2Proof.Machine.execKeyCheckSweep disturbed s
  | .loadCharter rq => Sys2Proof.Machine.execLoadCharter rq s
  | .unloadCharter rq => Sys2Proof.Machine.execUnloadCharter rq s
  | .relRequest rq => Sys2Proof.Machine.execRelRequest rq s
  | .relRun rq => Sys2Proof.Machine.execRelRun rq s
  | .releaseComplete slot => Sys2Proof.Machine.execReleaseComplete slot s
  | .relCancel rq => Sys2Proof.Machine.execRelCancel rq s
  | .rollover rq => Sys2Proof.Machine.execRollover rq s
  | .attKeyReady => Sys2Proof.Machine.execAttKeyReady s
  | .macsecFrame port cause => Sys2Proof.Machine.execMacsecFrame port cause s
  | .mkaFrame port m => Sys2Proof.Machine.execMkaFrame port m s
  | .sakRekey ch pn => Sys2Proof.Machine.execSakRekey ch pn s
  | .macsecLost ch => Sys2Proof.Machine.execMacsecLost ch s
  | .tamper pin => Sys2Proof.Machine.execTamper pin s
  | .pwrGoodLow => Sys2Proof.Machine.execPwrGoodLow s
  | .resetNLow => Sys2Proof.Machine.execResetNLow s
  | .bootStart => Sys2Proof.Machine.execBootStart s
  | .firmwareAccepted src => Sys2Proof.Machine.execFirmwareAccepted src s
  | .firmwareRejected src => Sys2Proof.Machine.execFirmwareRejected src s
  | .memoryTrained pondGib => Sys2Proof.Machine.execMemoryTrained pondGib s
  | .bootReady => Sys2Proof.Machine.execBootReady s
  | .recoveryReq => Sys2Proof.Machine.execRecoveryReq s
  | .recoveryData server bytes => Sys2Proof.Machine.execRecoveryData server bytes s
  | .recoverySourceTimeout => Sys2Proof.Machine.execRecoverySourceTimeout s
  | .transition rq => Sys2Proof.Machine.execTransition rq s
  | .raiseSvn rq => Sys2Proof.Machine.execRaiseSvn rq s
  | .revokeKey rq => Sys2Proof.Machine.execRevokeKey rq s
  | .genIdentity rq => Sys2Proof.Machine.execGenIdentity rq s
  | .identityGenerated => Sys2Proof.Machine.execIdentityGenerated s
  | .lcReset rq => Sys2Proof.Machine.execLcReset rq s
  | .fuseDigest rq => Sys2Proof.Machine.execFuseDigest rq s
  | .arbitrationStart die => Sys2Proof.Machine.execArbitrationStart die s
  | .arbitrationDecision die xs x3 => Sys2Proof.Machine.execArbitrationDecision die xs x3 s
  | .patrolRead w found => Sys2Proof.Machine.execPatrolRead w found s
  | .testSlotComplete tile r => Sys2Proof.Machine.execTestSlotComplete tile r s
  | .retest rq => Sys2Proof.Machine.execRetest rq s
  | .retestComplete r => Sys2Proof.Machine.execRetestComplete r s
  | .wfiAll cancelled => Sys2Proof.Machine.execWfiAll cancelled s
  | .wakeEvent w => Sys2Proof.Machine.execWakeEvent w s
  | .domainGate dom => Sys2Proof.Machine.execDomainGate dom s
  | .domainWake dom => Sys2Proof.Machine.execDomainWake dom s
  | .wakeTimeout dom => Sys2Proof.Machine.execWakeTimeout dom s
  | .voltageSettled die => Sys2Proof.Machine.execVoltageSettled die s
  | .vrMismatch die mv => Sys2Proof.Machine.execVrMismatch die mv s
  | .avsTimeout die => Sys2Proof.Machine.execAvsTimeout die s
  | .thermalSample die dieQ hbmQ => Sys2Proof.Machine.execThermalSample die dieQ hbmQ s
  | .powerCapWindow watts => Sys2Proof.Machine.execPowerCapWindow watts s
  | .pmbusPoll m => Sys2Proof.Machine.execPmbusPoll m s
  | .refLost core => Sys2Proof.Machine.execRefLost core s
  | .operatorQueueScan => Sys2Proof.Machine.execOperatorQueueScan s
  | .brakeNRise => Sys2Proof.Machine.execBrakeNRise s
  | .pwrGoodRise => Sys2Proof.Machine.execPwrGoodRise s
  | .referenceRestored core => Sys2Proof.Machine.execReferenceRestored core s
  | .portLinkChange port up lanes => Sys2Proof.Machine.execPortLinkChange port up lanes s
  | .pfcPauseFrame port mask ns => Sys2Proof.Machine.execPfcPauseFrame port mask ns s
  | .ptpAnnounce port slave => Sys2Proof.Machine.execPtpAnnounce port slave s
  | .ptpFollowUp m => Sys2Proof.Machine.execPtpFollowUp m s
  | .ptpDelayReq port => Sys2Proof.Machine.execPtpDelayReq port s
  | .ptpMasterSync port => Sys2Proof.Machine.execPtpMasterSync port s
  | .quantizedLatch => Sys2Proof.Machine.execQuantizedLatch s
  | .entdaa addr => Sys2Proof.Machine.execEntdaa addr s
  | .attestReceived hello p => Sys2Proof.Machine.execAttestReceived hello p s
  | .doneReceived p => Sys2Proof.Machine.execDoneReceived p s

end Sys2Proof.Machine
end

