-- ==== Sys2Proof/Machine/CoreMap.lean ====
section
/-! DEFINITION. The address map of a cluster's control core (R73, Table 03.5). The core's own instructions are no commands of the block;
the commands TOP_LO_STORE, TOP_HI_STORE, PHASE_DONE and RESUME_STORE are its stores to the registers of this map, and CORE_TRAP its traps. -/
namespace Sys2Proof.Machine
open Sys2Proof

/-- The regions of Table 03.5, with the offset within the memories and the tile of a register of eight. -/
inductive CoreRegion where
  | imem (off : Nat)
  | dmem (off : Nat)
  | topLo
  | topHi
  | done (j : Nat)
  | phaseDone
  | fault (j : Nat)
  | resume
  | sram (off : Nat)
  deriving DecidableEq, Repr

/-- The region that `size` bytes at address `a` lie in, wholly; `none` is an access outside the map, which traps. PRESUMED (log entry
169): a register of the map is accessed as the 8 bytes it is; another size or offset lies outside it. -/
def coreRegion (a size : Nat) : Option CoreRegion :=
  let within := fun (base len : Nat) => decide (base ≤ a) && decide (a + size ≤ base + len)
  let reg := fun (base n : Nat) => size == 8 && decide (base ≤ a) && decide (a < base + 8 * n) && a % 8 == 0
  if within 0 0x40000 then some (.imem a)
  else if within 0x40000 0x40000 then some (.dmem (a - 0x40000))
  else if reg 0x01000000 1 then some .topLo
  else if reg 0x01000008 1 then some .topHi
  else if reg 0x01000100 8 then some (.done ((a - 0x01000100) / 8))
  else if reg 0x01000200 1 then some .phaseDone
  else if reg 0x01000300 8 then some (.fault ((a - 0x01000300) / 8))
  else if reg 0x01000400 1 then some .resume
  else if within 0x10000000 0x1000000 then some (.sram (a - 0x10000000))
  else none

/-- What an access of the core gives. -/
inductive CoreAnswer where
  /-- the bytes read, as one little-endian value -/
  | value (v : Nat)
  /-- the access traps with this mcause -/
  | trap (cause : Nat)
  /-- a register that Table 03.5 gives a store alone: what a load of it reads is not stated -/
  | unstated
  deriving DecidableEq, Repr

/-- The value of DONE_j: TOPs that the tile has completed. -/
def State.doneWord (s : State) (t : Nat) : Nat := (s.tile t).topCount % 2 ^ 64

/-- The value of FAULT_j: the code and the opcode of the tile's last TOP fault. -/
def State.faultWord (s : State) (t : Nat) : Nat := (s.tile t).faultCode % 2 ^ 16 + 2 ^ 16 * ((s.tile t).faultOpcode % 2 ^ 8)

/-- A load of the core of cluster `c`. mcause 5, a load access fault, is PRESUMED from RISC-V (log entry 169). -/
def State.coreLoad (s : State) (c a size : Nat) : CoreAnswer :=
  let mem := fun (m : NatMap Byte) off => CoreAnswer.value (ofLe (NatMap.getList 0 m off size))
  match coreRegion a size with
  | some (.imem o) => mem (s.cluster c).imem o
  | some (.dmem o) => mem (s.cluster c).dmem o
  | some (.sram o) => mem (s.cluster c).sram o
  | some (.done j) => .value (s.doneWord (8 * c + j))
  | some (.fault j) => .value (s.faultWord (8 * c + j))
  | some _ => .unstated
  | none => .trap 5

/-- A fetch outside the instruction memory traps with mcause 1, the instruction access fault that R73 names for an entry. -/
def coreFetchTraps (a : Nat) : Bool := match coreRegion a 2 with | some (.imem _) => false | _ => true

/-- A store of the core of cluster `c` at pc `pc`: to a memory, or to a register, which is the command of that name. DONE_j and FAULT_j are
read-only: a store leaves them. mcause 7, a store access fault, is PRESUMED from RISC-V (log entry 169). -/
def State.coreStore (s : State) (c a : Nat) (pc : Word64) (bs : List Byte) : State :=
  let w : Word64 := BitVec.ofNat 64 (ofLe bs)
  if !(s.cluster c).executes then s
  else match coreRegion a bs.length with
  | some (.imem o) => s.modCluster c fun x => { x with imem := NatMap.setList 0 x.imem o bs }
  | some (.dmem o) => s.modCluster c fun x => { x with dmem := NatMap.setList 0 x.dmem o bs }
  | some (.sram o) => s.modCluster c fun x => { x with sram := NatMap.setList 0 x.sram o bs }
  | some .topLo => s.topLoStore c w
  | some .topHi => s.topHiStore c w
  | some .phaseDone => s.phaseDone c
  | some .resume => s.resumeStore c (w.toNat % 256)
  | some (.done _) | some (.fault _) => s
  | none => s.coreTrap c 7 pc

end Sys2Proof.Machine
end

