-- ==== Sys2Proof/Machine/Debug.lean ====
section
/-! DEFINITION. The debug path (R359, Table 14.6): which units it opens in each life-cycle state, and what it reads of a partition. No command
of the opcode table uses it. -/
namespace Sys2Proof.Machine
open Sys2Proof

/-- What debug asks to open. -/
inductive DebugUnit where
  /-- a compute, I/O or control die -/
  | die
  /-- the security die's internals -/
  | security
  /-- the scan chains of a tile, and those of anything else -/
  | scanTile (t : Nat) | scanOther
  /-- the security die's test mode -/
  | testMode
  /-- writes of the OTP -/
  | otpWrite
  deriving DecidableEq, Repr

/-- The debug path of a partition's clusters (R359). -/
inductive DebugAccess where
  /-- halting and resuming a control core, its TILE_CORE_PC and TILE_CORE_STATUS, and the trace of its instruction addresses -/
  | halt | resume | corePc | coreStatus | traceAddr
  /-- reads of core registers, data memory, cluster SRAM, Granary and tile state -/
  | coreReg | dataMem | sram | granary | tile
  deriving DecidableEq, Repr

/-- A tile's scan chains open in MISSION only while it is TESTING after its scrub, or while its cluster belongs to no partition (the rebinding
that took it away has scrubbed it). -/
def State.scanOpen (s : State) (t : Nat) : Bool := ((s.tile t).test.isSome && !(s.tile t).scrubbing) || (s.tilePart t).isNone

/-- Table 14.6, column Debug, and R359. DEDUCED: the die units of MISSION are the control cores' debug path of R359. -/
def State.debugOpen (s : State) (u : DebugUnit) : Bool :=
  match s.lcState, u with
  | 0, .die | 0, .security | 0, .scanTile _ | 0, .scanOther => true
  | 1, _ => true
  | 2, .die => true
  | 3, .die => true
  | 3, .scanTile t => s.scanOpen t
  | 4, .die | 4, .scanTile _ | 4, .scanOther => true
  | _, _ => false

/-- The access is one that the debug path keeps for a partition with CHARTER_BIND. -/
def DebugAccess.kept : DebugAccess → Bool
  | .halt | .resume | .corePc | .coreStatus | .traceAddr => true
  | _ => false

/-- What a debug read of a tile's cluster returns of the word `w` that is there. -/
def State.debugReads (s : State) (t : Nat) (a : DebugAccess) (w : Word64) : Word64 :=
  if !a.kept && (s.tilePart t).any s.chartered then 0 else w

end Sys2Proof.Machine
end

