-- ==== Sys2Proof/Machine/Director.lean ====
section
/-! DEFINITION. The format director (R180 to R182): the procedure that a partition's kernel runs in the U phase, once per layer, after
its wait on the commit barrier. It reads the layer's merged statistics record and updates the layer's entry of the format state table.
No command of the table runs it: the kernel's own instructions do, and they are no part of the operation table. -/
namespace Sys2Proof.Machine
open Sys2Proof

/-- A format state entry (Table 07.4). -/
structure FormatState where
  layer : Nat := 0
  gCur : Nat := 1
  gAllowed : Nat := 1
  cand : Nat := 0
  streak : Nat := 0
  sOut : Word32 := one32
  decided : Nat := 0
  deriving DecidableEq, Repr

/-- The formats from narrowest to widest: FP8 E5M2, MXFP8 E5M2, bf16. -/
def formatRank (g : Nat) : Nat := if g = 4 then 0 else if g = 6 then 1 else 2

/-- Bit 0 of G_ALLOWED for code 1, bit 1 for code 4, bit 2 for code 6. -/
def formatAllowed (allowed g : Nat) : Bool := bit allowed (if g = 1 then 0 else if g = 4 then 1 else 2)

/-- The exponent a histogram bin stands for (R139, R182). -/
def binExponent (b : Nat) : Int := if b = 1 then -46 else if b = 62 then 15 else (b : Int) - 47

/-- Finite non-zero values with an exponent below `t`, saturating. -/
def countBelow (r : StatRec) (t : Int) : Nat :=
  ((List.range 62).map (· + 1)).foldl (fun n b => if binExponent b < t then min (n + NatMap.get 0 r.bins b) 0xFFFFFFFF else n) 0

/-- The next allowed format above `g`; `g` if there is none. -/
def nextWider (g allowed : Nat) : Nat :=
  ([4, 6, 1].find? fun w => decide (formatRank g < formatRank w) && formatAllowed allowed w).getD g

/-- The widest allowed format; where none is allowed, which R182 leaves open and staging rules out, the current one. -/
def widestAllowed (g allowed : Nat) : Nat := ([1, 6, 4].find? (formatAllowed allowed)).getD g

/-- Values finite and non-zero: VALUES less bins 0 and 63, in 32 bits. -/
def nonZeroValues (r : StatRec) : Nat := (r.values + 2 * 2 ^ 32 - NatMap.get 0 r.bins 0 - NatMap.get 0 r.bins 63) % 2 ^ 32

/-- The FP8 scale exponent: AMAX / 2^es < 2¹⁴. -/
def scaleExponent (r : StatRec) : Int := max (-126) (min 127 (floorLog2 (num32 r.amax).mag - 13))

/-- The narrowest allowed 8-bit format that loses few enough values; else the widest allowed. -/
def bestFormat (e : FormatState) (r : StatRec) : Nat :=
  let ok := fun (g : Nat) =>
    let lost := if g = 4 then countBelow r (scaleExponent r - 14) else countBelow r (floorLog2 (num32 r.amax).mag - 29)
    formatAllowed e.gAllowed g && decide (lost * (if g = e.gCur then 256 else 1024) ≤ nonZeroValues r)
  ([4, 6].find? ok).getD (widestAllowed e.gCur e.gAllowed)

/-- A format chosen: the same or wider at once, narrower after four agreeing commits. -/
def FormatState.choose (e : FormatState) (best : Nat) : FormatState :=
  if formatRank e.gCur ≤ formatRank best then { e with gCur := best, cand := 0, streak := 0 }
  else
    let n := if e.cand = best then e.streak + 1 else 1
    if n = 4 then { e with gCur := best, cand := 0, streak := 0 } else { e with cand := best, streak := n }

/-- R182. -/
def direct (e : FormatState) (r : StatRec) (step : Word64) : FormatState :=
  let e := { e with decided := step.toNat % 2 ^ 32 }
  let e := if 0 < r.ovfElems then { e with gCur := nextWider e.gCur e.gAllowed, cand := 0, streak := 0 } else e
  if nonZeroValues r = 0 then e
  else
    let e := e.choose (bestFormat e r)
    { e with sOut := if e.gCur = 4 then rn32 (.fin false (pow2 (scaleExponent r))) else one32 }

/-- The merged record of a layer (R181): the sum of the records that carry its tensor, saturating, with the largest AMAX. -/
def mergeRecords (tensor : Nat) (l : List StatRec) : StatRec :=
  (l.filter fun r => r.valid && r.tag == tensor).foldl (fun a r =>
    { a with
      valid := true, tag := tensor, amax := max32 a.amax r.amax
      values := min (a.values + r.values) 0xFFFFFFFF, ovfElems := min (a.ovfElems + r.ovfElems) 0xFFFFFFFF
      nanElems := min (a.nanElems + r.nanElems) 0xFFFFFFFF, infBlocks := min (a.infBlocks + r.infBlocks) 0xFFFFFFFF
      ovfGroups := min (a.ovfGroups + r.ovfGroups) 0xFFFFFFFF, nanGroups := min (a.nanGroups + r.nanGroups) 0xFFFFFFFF
      subn := min (a.subn + r.subn) 0xFFFFFFFF
      bins := (List.range 64).foldl (fun m b => NatMap.set 0 m b (min (NatMap.get 0 m b + NatMap.get 0 r.bins b) 0xFFFFFFFF)) a.bins }) {}

/-! ### The table in the core's data memory (R168) -/

/-- Entry `i`, as an offset in data memory (core address 0x7_0000 on). -/
def formatStateAt (i : Nat) : Nat := 0x30000 + 16 * i

def Cluster.formatState (c : Cluster) (i : Nat) : FormatState :=
  let b := NatMap.getList 0 c.dmem (formatStateAt i) 16
  { layer := field b 0 2, gCur := field b 2 1, gAllowed := field b 3 1, cand := field b 4 1, streak := field b 5 1
    sOut := BitVec.ofNat 32 (field b 8 4), decided := field b 12 4 }

def FormatState.bytes (e : FormatState) : List Byte :=
  leBytes 2 e.layer ++ leBytes 1 e.gCur ++ leBytes 1 e.gAllowed ++ leBytes 1 e.cand ++ leBytes 1 e.streak ++ leBytes 2 0
  ++ leBytes 4 e.sOut.toNat ++ leBytes 4 e.decided

/-- The director's run for entry `i` of cluster `c`. -/
def State.runDirector (s : State) (c i : Nat) (r : StatRec) (step : Word64) : State :=
  s.modCluster c fun x => { x with dmem := NatMap.setList 0 x.dmem (formatStateAt i) (direct (x.formatState i) r step).bytes }

end Sys2Proof.Machine
end

