-- ==== Sys2Proof/Machine/Lines.lean ====
section
/-! DEFINITION. The bits that HBM and Pond store (R345 to R348): the ciphertext of a line, its tag and side word, and the channel
layout of Pond. The engines' outcomes (`LineMeta.find`) follow what a line was written with; nothing reads these bits back. -/
namespace Sys2Proof.Machine
open Sys2Proof

/-- The next tweak of XTS: a doubling in GF(2¹²⁸), little-endian (IEEE 1619). -/
def xtsDouble (t : Nat) : Nat := if 2 ^ 128 ≤ 2 * t then (2 * t - 2 ^ 128) ^^^ 0x87 else 2 * t

/-- XTS-AES-256 of whole blocks under K1 from a tweak on. `n` bounds them. -/
def xtsBlocks (rk : List (List Byte)) : (n tweak : Nat) → List Byte → List Byte
  | 0, _, _ => []
  | n + 1, t, bs =>
    if bs.isEmpty then []
    else
      let m := leBytes 16 t
      xorBytes (aesBlock rk (xorBytes (bs.take 16) m)) m ++ xtsBlocks rk n (xtsDouble t) (bs.drop 16)

/-- A line as one XTS-AES-256 data unit with tweak `la` (R347). -/
def xtsLine (k1 k2 : List Byte) (la : Nat) (pt : List Byte) : List Byte :=
  xtsBlocks (aesRoundKeys k1) 4 (ofLe (aesBlock (aesRoundKeys k2) (leBytes 16 la))) pt

/-- The keys of a Pond epoch: K1_e, K2_e and KT_e (R348). -/
def epochKeys (i : KeyId) (e : Nat) : List Byte × List Byte × List Byte :=
  let b := shake 96 (ascii "NPE1" ++ i.k1 ++ i.k2 ++ i.kt ++ leBytes 8 e)
  (slice b 0 32, slice b 32 32, slice b 64 32)

/-- line_tag of R347. -/
def lineTag (kt ct : List Byte) (la kid epoch : Nat) : Nat :=
  let rk := aesRoundKeys kt
  let h := beNat (aesBlock rk [])
  let x5 := leBytes 8 la ++ leBytes 1 kid ++ leBytes 6 epoch ++ leBytes 1 0
  ofLe ((aesBlock rk (beBytes 16 (ghash h (blocks16 4 ct ++ [x5])))).take 4)

/-- The side word of a line (Table 13.1). -/
def sideWord (ct : List Byte) (tag : Nat) (poisoned : Bool) : Nat :=
  pack [(0, 32, tag), (32, 24, (Config.lineCode ct tag (flag poisoned)).toNat), (56, 1, flag poisoned)]

/-- The 576 stored bits of line `n`, ciphertext then side word, with the bits that have flipped. None for a line that nothing has
written, or whose keys are destroyed: the model holds no ciphertext of its own, and R350 leaves nothing to make it with. -/
def State.lineImage (s : State) (pond : Bool) (n : Nat) : Option (List Byte) :=
  let d := if pond then s.pond else s.hbm
  let l := d.line n
  let i := s.mce.keyId l.kid
  if !l.written ∨ i.gen ≠ l.keyGen ∨ i.k1 = [] then none
  else
    let k := if pond then epochKeys i l.epoch else (i.k1, i.k2, i.kt)
    let ct := xtsLine k.1 k.2.1 l.la ((List.range 64).map fun j => d.get (64 * n + j))
    some (xorBytes (ct ++ leBytes 8 (sideWord ct (lineTag k.2.2 ct l.la l.kid l.epoch) l.poisoned)) (leBytes 72 l.error))

/-- The usable address of the data byte at an offset of a Pond channel, where one lies there (R346). -/
def pondUsable (channel off : Nat) : Option Nat :=
  let k := 7 * (off / 32768) + off % 32768 / 4096
  if off % 32768 < 28672 then some (65536 * k + 4096 * channel + off % 4096) else none

/-- The byte a Pond channel stores at an offset (R346): a line's ciphertext, a side word's byte, or the reserved zeros. -/
def State.pondRaw (s : State) (channel off : Nat) : Option Byte :=
  let r := off % 32768
  if r < 28672 then (pondUsable channel off).bind fun a => (s.lineImage true (a / 64)).map (·.getD (a % 64) 0)
  else if r < 32256 then
    (pondUsable channel (off - r + 64 * ((r - 28672) / 8))).bind fun a => (s.lineImage true (a / 64)).map (·.getD (64 + (r - 28672) % 8) 0)
  else some 0

end Sys2Proof.Machine
end

