-- ==== Sys2Proof/Safety.lean ====
section
/-! DEFINITION. The terms in which statements about the device speak: the canonical form of what the state holds, the fuses'
order, and the lock bits. -/
namespace Sys2Proof.Machine
open Sys2Proof

/-! ### The canonical form -/

/-- A tier of memory is canonical: its bytes and its lines' protection are. -/
structure Dram.Canon (d : Dram) : Prop where
  bytes : NatMap.wf 0 d.bytes = true
  lines : NatMap.wf {} d.lines = true

/-- A tile's register file and scratch memory are canonical. -/
structure Tile.Canon (x : Tile) : Prop where
  regs : NatMap.wf 0 x.regs = true
  scratch : NatMap.wf 0 x.scratch = true

/-- A cluster's SRAM and its core's memories are canonical. -/
structure Cluster.Canon (x : Cluster) : Prop where
  sram : NatMap.wf 0 x.sram = true
  imem : NatMap.wf 0 x.imem = true
  dmem : NatMap.wf 0 x.dmem = true

/-- Every memory of the device is in its canonical form: HBM, Pond, Granary, and the memories of tiles and clusters. -/
structure State.MemCanon (s : State) : Prop where
  granary : NatMap.wf 0 s.granary = true
  hbm : s.hbm.Canon
  pond : s.pond.Canon
  tiles : ∀ e ∈ s.tiles, e.2.Canon
  clusters : ∀ e ∈ s.clusters, e.2.Canon

/-- Every table of the state is in its canonical form, so that equal tables are equal data and a table read back gives what
was written. -/
structure State.TabCanon (s : State) : Prop where
  parts : NatMap.wf {} s.parts = true
  stageObj : NatMap.wf 0 s.stageObj = true
  stageLen : NatMap.wf 0 s.stageLen = true
  weirs : NatMap.wf {} s.weirs = true
  querns : NatMap.wf {} s.querns = true
  resolves : NatMap.wf {} s.resolves = true
  tollFails : NatMap.wf {} s.tollFails = true
  testNext : NatMap.wf 0 s.testNext = true
  testResults : NatMap.wf {} s.testResults = true
  tiles : NatMap.wf {} s.tiles = true
  clusters : NatMap.wf {} s.clusters = true
  leats : NatMap.wf {} s.leats = true
  ctxs : NatMap.wf {} s.ctxs = true
  qps : NatMap.wf {} s.qps = true
  ports : NatMap.wf {} s.ports = true
  selects : NatMap.wf {} s.selects = true

structure State.Canon (s : State) : Prop where
  mem : s.MemCanon
  tab : s.TabCanon

/-! ### Fuses and lock bits -/

/-- Every fuse burned in `f` is burned in `g`, of either of a bit's two (R377). -/
structure Fuses.Le (f g : Fuses) : Prop where
  a : ∀ n, bit f.a n = true → bit g.a n = true
  b : ∀ n, bit f.b n = true → bit g.b n = true

/-- Every fuse burned in `a` is burned in `b` (R377). -/
structure Otp.Le (a b : Otp) : Prop where
  counter : Fuses.Le a.counter b.counter
  intent : Fuses.Le a.intent b.intent
  done : Fuses.Le a.done b.done
  revoked : Fuses.Le a.revoked b.revoked
  svn : Fuses.Le a.svn b.svn

/-- The lock bit of a block (R433). -/
def State.locked (s : State) : LockBlock → Bool
  | .gov => s.mill.lock
  | .part => s.partLock
  | .mem => s.mem.lock
  | .mce => s.mce.lock
  | .eth => s.eth.lock
  | .sec => s.sec.lock
  | .pwr => s.pwr.lock
  | .ras => s.ras.lock

/-- No lock bit that is 1 in `s` is 0 in `t`. -/
def State.LocksKept (s t : State) : Prop := ∀ b, s.locked b = true → t.locked b = true

/-! ### Groups of registers (Tables 17.3 and 17.4) -/

/-- The select registers of the P-view, with the fields a write puts into its requester's selects (R430); SYNC_SEL and QRN_GROUP_SEL, which
stand within a partition's window, are not among them (R274, R205). -/
def selectRegs : List (Nat × (Nat → Selects → Selects)) :=
  [(0x00018, fun v x => { x with die := bits v 0 4 }), (0x00020, fun v x => { x with hbm := bits v 0 4 }),
   (0x40000, fun v x => { x with ctx := bits v 0 12 }),
   (0x50000, fun v x => { x with part := bits v 0 4, partAll := bit v 4 }), (0x60000, fun v x => { x with tile := bits v 0 9 }),
   (0x80028, fun v x => { x with leat := bits v 0 10 }),
   (0x90008, fun v x => { x with keyid := bits v 0 6 }), (0xA0000, fun v x => { x with port := bits v 0 4 }),
   (0xA0040, fun v x => { x with qp := bits v 0 13 }), (0xB0000, fun v x => { x with key := bits v 0 8 }),
   (0xB0058, fun v x => { x with charterSlot := bits v 0 4, charterPart := bits v 4 4 }),
   (0xD0050, fun v x => { x with dom := bits v 0 10 }), (0xE0018, fun v x => { x with recSlot := bits v 0 6 }),
   (0xF0028, fun v x => { x with repair := bits v 0 8 })]

/-- The registers with fields of access WL, each with the block whose lock bit guards it (R12). -/
def wlRegs : List (Nat × LockBlock) :=
  [(0x10008, .gov), (0x50030, .part), (0xA0008, .eth), (0xA0018, .eth), (0xA0020, .eth), (0xA0028, .eth), (0xA0030, .eth),
   (0xA0100, .eth), (0xA0108, .eth), (0xA0110, .eth), (0xA0118, .eth), (0xB0018, .sec), (0xD0020, .pwr), (0xD0028, .pwr),
   (0xD0030, .pwr), (0xD0040, .pwr), (0xE0008, .ras)]

/-- Read-only and clearing registers, which a write does not change (R9, R432): some of every block. -/
def roRegs : List Nat :=
  [0x00000, 0x00028, 0x10000, 0x10010, 0x10018, 0x10118, 0x10138, 0x20010, 0x20028, 0x30008, 0x30020, 0x40020, 0x40030, 0x50010,
   0x50018, 0x60008, 0x60010, 0x70010, 0x70028, 0x80008, 0x80020, 0x80030, 0x90010, 0x90020, 0x90048, 0xA0010, 0xA0080, 0xB0008,
   0xB0070, 0xC0000, 0xC0018, 0xC0080, 0xD0010, 0xD0048, 0xE0010, 0xE0020, 0xE0100, 0xF0000, 0xF0018, 0xF0038]

/-- The clearing counters of the memory controllers' protection (chapter 09): address, field, and the state with the field at 0. -/
def mceCounters : List (Nat × (Mce → Nat) × (Mce → Mce)) :=
  [(0x90020, (·.eccCorr), fun m => { m with eccCorr := 0 }), (0x90028, (·.eccUncorr), fun m => { m with eccUncorr := 0 }),
   (0x90030, (·.tagFails), fun m => { m with tagFails := 0 }), (0x90038, (·.poisoned), fun m => { m with poisoned := 0 })]


/-! ### TOPs that start and end -/

/-- Flight `i` of tile `t`, `f`, is the TOP that `want` names and that may start now: no earlier TOP bars it (R85, R86), the tile is not
in arbitration and the TOP passes its checks (R88). -/
def State.ready (s : State) (t : Nat) (want : Top → Bool) (i : Nat) (f : Flight) : Prop :=
  s.startable t want = some i ∧ (s.tile t).flight[i]? = some f ∧ (s.tile t).arbitrating = false ∧
    topFault (s.tileEnv t) ((s.tile t).under f) f.top = none

/-- Flight `i` of tile `t`, `f`, is the first running TOP that `want` names. -/
def State.atWork (s : State) (t : Nat) (want : Top → Bool) (i : Nat) (f : Flight) : Prop :=
  s.runningTop t want = some i ∧ (s.tile t).flight[i]? = some f

/-- The commands that start a VEC, each with its VOP (Table 06.1); SR_SET has a rule of its own. -/
def vecRows : List (Nat × (Nat → Instr)) :=
  [(0x01, .add), (0x02, .sub), (0x03, .mul), (0x04, .fma), (0x05, .fnma), (0x06, .aff), (0x07, .mull), (0x08, .fmal), (0x09, .vmin),
   (0x0A, .vmax), (0x0B, .vabs), (0x0C, .vneg), (0x0D, .cmpgt), (0x0E, .vsel), (0x10, .mov), (0x11, .fill), (0x12, .movt)]
  ++ [(0x20, .rcp), (0x21, .sqrt), (0x22, .rsqrt), (0x23, .exp), (0x24, .exp2), (0x25, .log), (0x26, .log2), (0x27, .tanh),
   (0x28, .sigmoid), (0x29, .erf), (0x30, .rsum), (0x31, .rsumsq), (0x32, .rdot), (0x33, .rmax), (0x34, .rmin), (0x35, .ramax)]
  ++ [(0x40, .iadd), (0x41, .isub), (0x42, .iand), (0x43, .ior), (0x44, .ixor), (0x45, .ishl), (0x46, .ishr), (0x47, .ilsr),
   (0x50, .cvt), (0x61, .statRead)]

/-- The vector operations on whole cells (R150): VOP, command, and the cell that cells a and b and the immediate give. -/
def cellRows : List (Nat × (Nat → Instr) × (Word32 → Word32 → Nat → Word32)) :=
  [(0x10, .mov, fun a _ _ => a), (0x11, .fill, fun _ _ i => BitVec.ofNat 32 i), (0x40, .iadd, fun a b _ => a + b),
   (0x41, .isub, fun a b _ => a - b), (0x42, .iand, fun a b _ => a &&& b), (0x43, .ior, fun a b _ => a ||| b),
   (0x44, .ixor, fun a b _ => a ^^^ b), (0x45, .ishl, fun a _ i => a <<< (i % 32)), (0x46, .ishr, fun a _ i => a.sshiftRight (i % 32)),
   (0x47, .ilsr, fun a _ i => a >>> (i % 32))]

/-- The vector operations that round once (R150): VOP, command, and the exact value of elements a, b and c. -/
def roundedRows : List (Nat × (Nat → Instr) × (Num → Num → Num → Num)) :=
  [(0x01, .add, fun a b _ => a.add b), (0x02, .sub, fun a b _ => a.sub b), (0x03, .mul, fun a b _ => a.mul b),
   (0x04, .fma, fun a b c => (a.mul b).add c), (0x05, .fnma, fun a b c => c.sub (a.mul b))]

end Sys2Proof.Machine
end

