-- ==== Sys2Proof/Certificates/Slice0/Obligations.lean ====
section
/-! DEFINITION. The obligations: what the commands of the block do, by the numbered rules of the spec, for the provers. -/
open Sys2Proof Sys2Proof.Machine

/-! ### Registers -/

/-- R432, R430: a write of a select register by a requester that reaches it changes that requester's selects alone and is answered
with status 0; the selects of every other requester stay.

R274, R205: SYNC_SEL takes a write only while PART_SEL selects one partition; QRN_GROUP_SEL is a field of the Quern that PART_SEL and
DIE_SEL select, and is discarded where they select none.

It rests on choices of the model: log entries 31 and 33. -/
def Obligations.SelectWritesAreHeldPerRequester : Prop :=
  (∀ e ∈ selectRegs, ∀ (s : State) (rq : Req) (v : Word64),
    s.Canon → s.mayP rq e.1 = true → s.life.resetPending = false →
      exec (.regWrite rq e.1 v) s = .next ((s.setSel rq (e.2 v.toNat (s.sel rq))).respondOne rq e.1 0 []) ∧
      (s.setSel rq (e.2 v.toNat (s.sel rq))).sel rq = e.2 v.toNat (s.sel rq) ∧
      ∀ r, r ≠ rq → (s.setSel rq (e.2 v.toNat (s.sel rq))).sel r = s.sel r) ∧
  (∀ (s : State) (rq : Req) (v : Word64), s.life.resetPending = false →
    (s.mayP rq 0x30000 = true →
      (∀ p, (s.sel rq).part? = some p →
        exec (.regWrite rq 0x30000 v) s =
          .next ((s.setSel rq { s.sel rq with sync := bits v.toNat 0 14 }).respondOne rq 0x30000 0 [])) ∧
      ((s.sel rq).part? = none → exec (.regWrite rq 0x30000 v) s = .next (s.respondOne rq 0x30000 0 []))) ∧
    (s.mayP rq 0x70038 = true →
      (∀ p d, (s.sel rq).part? = some p → (s.sel rq).die? = some d →
        exec (.regWrite rq 0x70038 v) s =
          .next ((s.setQuern p d { s.quern p d with groupSel := bits v.toNat 0 6 }).respondOne rq 0x70038 0 [])) ∧
      ((s.sel rq).part? = none ∨ (s.sel rq).die? = none →
        exec (.regWrite rq 0x70038 v) s = .next (s.respondOne rq 0x70038 0 []))))

/-- R12: while its block's lock bit is 1 a write to a WL field changes nothing; its requester is told LOCKED (status 2).

R12: so is a REG_WR of one such register, on an Ihlak session or unsealed in the states with factory access: nothing is written, and the
response tells LOCKED for it.

R12, R433: a lock bit that is 1 stays 1 over every step that does not leave the device in reset. -/
def Obligations.LockedFieldsStayUntilReset : Prop :=
  (∀ e ∈ wlRegs, ∀ (s : State) (rq : Req) (v : Word64),
    s.mayP rq e.1 = true → s.life.resetPending = false → s.locked e.2 = true →
      exec (.regWrite rq e.1 v) s = .next (s.respondOne rq e.1 2 []) ∧
      { s.respondOne rq e.1 2 [] with out := s.out, board := s.board, sec := s.sec, ports := s.ports } = s) ∧
  (∀ e ∈ wlRegs, ∀ (s u : State) (p : Pkt) (rq : Req),
    ((s.factoryPkt p = true ∧ rq = .factory ∧ u = s) ∨
      (s.factoryPkt p = false ∧ s.portDrops p.port = false ∧ s.pktFate p = .accepted ∧ rq = .session p.session ∧
        u = s.modSec fun x => x.setSession p.session ((x.session p.session).take p.seq))) →
    p.regOk = true → p.regCount = 1 → p.type = 2 → p.regAddr = e.1 → u.mayP rq e.1 = true → u.life.resetPending = false → u.locked e.2 = true →
      exec (.regWr p) s = .next (u.respond rq p.regTag 2 0 1 [])) ∧
  (∀ s t : State, step s = .next t → t.life.phase ≠ .held → s.LocksKept t)

/-- R433: LOCK_SET sets the lock bit of its block, leaves every other lock bit, changes nothing else, and is answered with status 0.

It rests on choices of the model: log entry 31. -/
def Obligations.LockSetSetsOneLock : Prop :=
  ∀ (s : State) (rq : Req) (b : LockBlock), s.mayP rq b.addr = true → s.life.resetPending = false →
    ∃ t : State, exec (.lockSet rq b) s = .next (t.respondOne rq b.addr 0 []) ∧ t.locked b = true ∧ (∀ c, c ≠ b → t.locked c = s.locked c) ∧
      { t with
        mill := { t.mill with lock := s.mill.lock }, partLock := s.partLock, mem := { t.mem with lock := s.mem.lock }
        mce := { t.mce with lock := s.mce.lock }, eth := { t.eth with lock := s.eth.lock }, sec := { t.sec with lock := s.sec.lock }
        pwr := { t.pwr with lock := s.pwr.lock }, ras := { t.ras with lock := s.ras.lock } } = s

/-- R432, R9: a write to a read-only or clearing register changes nothing and is answered with status 0.

It rests on choices of the model: log entry 31. -/
def Obligations.ReadOnlyRegistersIgnoreWrites : Prop :=
  ∀ a ∈ roRegs, ∀ (s : State) (rq : Req) (v : Word64), s.mayP rq a = true → s.life.resetPending = false →
    exec (.regWrite rq a v) s = .next (s.respondOne rq a 0 [])

/-- R424, R281: an access whose address is no multiple of 8 is answered MALFORMED (4), any other that its requester may not make DENIED
(3), of the P-view and of a context's window of the U-view, and one beyond every window UNDEFINED (1); none of them changes anything.

It rests on choices of the model: log entries 28 and 31. -/
def Obligations.RefusedAccessesChangeNothing : Prop :=
  ∀ (s : State) (rq : Req) (a : Nat) (v : Word64), a < 2 ^ 40 → s.life.resetPending = false →
    let refused := fun (st : Nat) =>
      exec (.regWrite rq a v) s = .next (s.respondOne rq a st []) ∧ exec (.counterRead rq a) s = .next (s.respondOne rq a st [0])
    (a % 8 ≠ 0 → refused 4) ∧
    (a % 8 = 0 → a < 0x8000000000 → s.mayP rq a = false → refused 3) ∧
    (a % 8 = 0 → rq ≠ .board → 0x8000000000 ≤ a → a < 0x8001000000 → s.mayU rq ((a - 0x8000000000) / 4096) = false → refused 3) ∧
    (a % 8 = 0 → rq ≠ .board → 0x8001000000 ≤ a → refused 1)

/-- R9: COUNTER_READ of a clearing counter of the memory protection answers its value and leaves it 0, and nothing else changes.

R340: a read of the Toll failure counter of a partition under charter answers the value latched at the last 1 ms boundary, rounded
down to a multiple of 1,024, and takes it from the live counter; a partition without charter gives the exact value.

It rests on choices of the model: log entries 31 and 32. -/
def Obligations.CounterReadsGiveAndTake : Prop :=
  (∀ e ∈ mceCounters, ∀ (s : State) (rq : Req), s.mayP rq e.1 = true → rq ≠ .board →
    exec (.counterRead rq e.1) s = .next ((s.modMce e.2.2).respondOne rq e.1 0 [BitVec.ofNat 64 (e.2.1 s.mce)]) ∧
    e.2.1 (e.2.2 s.mce) = 0) ∧
  (∀ (s : State) (rq : Req) (p : Nat), s.Canon → s.mayP rq 0x80020 = true → rq ≠ .board → (s.sel rq).part? = some p →
    let c : Counter := NatMap.get ({} : Counter) s.tollFails p
    let q := if s.chartered p then c.latch / 1024 * 1024 else c.live
    ∃ t : State, exec (.counterRead rq 0x80020) s = .next (t.respondOne rq 0x80020 0 [BitVec.ofNat 64 q]) ∧
      NatMap.get ({} : Counter) t.tollFails p = { c with live := c.live - q, latch := c.latch - q } ∧
      (∀ k, k ≠ p → NatMap.get ({} : Counter) t.tollFails k = NatMap.get ({} : Counter) s.tollFails k) ∧ { t with tollFails := s.tollFails } = s)

/-- R340: at a 1 ms boundary of mill time every quantized counter takes its live value as its latch: those of each partition's Weir, of each
Quern, the Toll failures, the Bolter's bytes, and the TOP counts of tiles and partitions. Between boundaries nothing happens.

It rests on choices of the model: log entries 3 and 32. -/
def Obligations.CountersLatchEachMillisecond : Prop :=
  ∀ s : State,
    let latched := fun c : Counter => { c with latch := c.live, totalLatch := c.total }
    (s.mill.now % 1000000 ≠ 0 → exec .quantizedLatch s = .next s) ∧
    (s.mill.now % 1000000 = 0 → s.Canon → ∃ t : State, exec .quantizedLatch s = .next t ∧
      (∀ p, t.weir p = { s.weir p with
        assayFails := latched (s.weir p).assayFails, late := latched (s.weir p).late, eccAborts := latched (s.weir p).eccAborts
        regress := latched (s.weir p).regress, resignals := latched (s.weir p).resignals, stale := latched (s.weir p).stale }) ∧
      (∀ p d, t.quern p d = { s.quern p d with
        skips := latched (s.quern p d).skips, saturated := latched (s.quern p d).saturated }) ∧
      (∀ p, NatMap.get ({} : Counter) t.tollFails p = latched (NatMap.get ({} : Counter) s.tollFails p)) ∧
      (∀ n, t.tile n = { s.tile n with topLatch := (s.tile n).topCount }) ∧
      (∀ p, t.part p = { s.part p with topTotalLatch := (s.part p).topTotal }) ∧
      t.mem = { s.mem with
        encIn := latched s.mem.encIn, encOut := latched s.mem.encOut, decIn := latched s.mem.decIn, decOut := latched s.mem.decOut } ∧
      { t with weirs := s.weirs, querns := s.querns, tollFails := s.tollFails, tiles := s.tiles, parts := s.parts, mem := s.mem } = s)

/-- R280, R373: REG_RD and REG_WR, from an Ihlak session or, in the states with factory access, unsealed on the management port. A
malformed request is answered MALFORMED (4) with no data and does nothing; a well-formed request reads or writes its COUNT registers in
order for its sender, and is answered with its TAG and the data read; a reset that a write asked for comes after the response. Of one
register the response tells the register's status.

It rests on choices of the model: log entries 29, 38 and 39. -/
def Obligations.RegisterPacketsAccessRegisters : Prop :=
  ∀ (s u : State) (p : Pkt) (rq : Req),
    ((s.factoryPkt p = true ∧ rq = .factory ∧ u = s) ∨
      (s.factoryPkt p = false ∧ s.portDrops p.port = false ∧ s.pktFate p = .accepted ∧ rq = .session p.session ∧
        u = s.modSec fun x => x.setSession p.session ((x.session p.session).take p.seq))) →
    (p.regOk = false →
      (p.type = 1 → exec (.regRd p) s = .next (u.respond rq p.regTag 4 0xFF p.regCount [])) ∧
      (p.type = 2 → exec (.regWr p) s = .next (u.respond rq p.regTag 4 0xFF p.regCount []))) ∧
    (p.regOk = true →
      (p.type = 1 → exec (.regRd p) s = .next (((List.range p.regCount).foldl (p.readStep rq) { st := u }).finish rq p)) ∧
      (p.type = 2 → exec (.regWr p) s = .next (((List.range p.regCount).foldl (p.writeStep rq) { st := u }).finish rq p))) ∧
    (p.regOk = true → p.regCount = 1 →
      (p.type = 1 →
        let r := u.regRead rq p.regAddr
        exec (.regRd p) s =
          .next (r.2.2.respond rq p.regTag r.1 (if r.1 = 0 then 0xFF else 0) 1 [BitVec.ofNat 64 r.2.1]).takeReset) ∧
      (p.type = 2 →
        let r := u.regWrite rq p.regAddr (p.regData 0)
        exec (.regWr p) s = .next (r.2.respond rq p.regTag r.1 (if r.1 = 0 then 0xFF else 0) 1 []).takeReset))

/-- R277: IHLAK_INVALID_PACKET. A packet of a session that fails its checks is dropped and counted in ETH_IHLAK_DROPS, under authentication
or replay; the first drop on the session within 1 ms raises 0x0709; the session's memory of accepted SEQs stays. A malformed SETUP packet
with SESSION = 0 counts under authentication. A quarantined port counts it among its own drops. A packet that passes, and one that is not
heard, is no invalid packet and changes nothing.

It rests on choices of the model: log entries 125 and 179. -/
def Obligations.InvalidPacketsAreDroppedAndCounted : Prop :=
  ∀ (s : State) (p : Pkt),
    let n := s.sec.session p.session
    let eth := if s.pktFate p = .replay then { s.eth with dropReplay := min (s.eth.dropReplay + 1) 0xFFFFFFFF }
      else { s.eth with dropAuth := min (s.eth.dropAuth + 1) 0xFFFFFFFF }
    let counted : State := { s with eth := eth }
    (p.sluice = false → s.hears p = true → ¬ ((p.type = 1 ∨ p.type = 2) ∧ s.factoryPkt p = true) → ¬ (p.type = 0x30 ∧ p.session = 0) →
      s.awaitsDone p = false →
      (s.portDrops p.port = true →
        exec (.ihlakInvalid p) s = .next (s.setPort p.port { s.port p.port with quarDrops := (s.port p.port).quarDrops + 1 })) ∧
      (s.portDrops p.port = false → s.pktFate p = .accepted → exec (.ihlakInvalid p) s = .next s) ∧
      (s.portDrops p.port = false → s.pktFate p ≠ .accepted →
        (n.role = 0 ∨ (∃ t0, n.lastDrop = some t0 ∧ s.mill.now < t0 + 1000000) → exec (.ihlakInvalid p) s = .next counted) ∧
        (n.role ≠ 0 → (∀ t0, n.lastDrop = some t0 → t0 + 1000000 ≤ s.mill.now) →
          exec (.ihlakInvalid p) s =
            .next (({ counted with sec := counted.sec.setSession p.session { n with lastDrop := some s.mill.now } } : State).raise
              { code := 0x0709, loc := locEth n.part p.port })))) ∧
    (s.hears p = true → p.type = 0x30 → p.session = 0 →
      exec (.ihlakInvalid p) s = .next (if p.setupOk then s else s.dropPkt p .auth)) ∧
    (p.sluice = true ∨ s.hears p = false → exec (.ihlakInvalid p) s = .next s)

/-! ### Partitions -/

/-- R28: the staged streams. A STAGE with PART_STAGE_LEN = 0 is a no-op with status 0x00. Any other runs the checks of Table 01.9 (R27) on the
object of PART_STAGE_OBJ: one that passes replaces what was staged before it, one that fails leaves nothing staged, and the status and the section
that failed show in PART_LOAD_STATUS; nothing else changes, but what reading the object counts. A partition holds one partial stream. The device
holds one full stream, staged under PART_SEL.ALL; staging it discards every partial stream. DISCARD removes the staged stream of the selection. From
which registers a full STAGE takes its operands, and which window shows its status, is left open here. -/
def Obligations.StageAndDiscardAStream : Prop :=
  ∀ (s : State) (rq : Req) (p : Nat), s.Canon → s.mayP rq 0x50008 = true → (s.sel rq).part = p → p < 16 → s.partBusy = false →
    ((s.sel rq).partAll = false →
      let n := NatMap.get 0 s.stageLen p
      let r := s.stageRun false p (NatMap.get 0 s.stageObj p) n
      let u := r.2.2.2
      (r.1 = 0 ↔ r.2.2.1.isSome = true) ∧
      (n = 0 → exec (.stage rq) s = .next (s.modPart p fun v => { v with status := 0, secNo := 0xFFFF })) ∧
      (n ≠ 0 → ∃ t : State, exec (.stage rq) s = .next t ∧
        t.part p = { u.part p with staged := r.2.2.1, status := r.1, secNo := r.2.1 } ∧
        (∀ q, q ≠ p → t.part q = u.part q) ∧ { t with parts := u.parts } = u) ∧
      ∃ t : State, exec (.discard rq) s = .next t ∧ t.part p = { s.part p with staged := none, status := 0, secNo := 0xFFFF } ∧
        (∀ q, q ≠ p → t.part q = s.part q) ∧ { t with parts := s.parts } = s) ∧
    ((s.sel rq).partAll = true →
      (∃ (t : State) (h n : Nat), exec (.stage rq) s = .next t ∧
        (n = 0 → t.stagedFull = s.stagedFull ∧ (∀ q, (t.part q).staged = (s.part q).staged) ∧ ∃ q, q < 16 ∧ (t.part q).status = 0) ∧
        (n ≠ 0 → let r := s.stageRun true p h n
          (r.1 = 0 ↔ r.2.2.1.isSome = true) ∧ t.stagedFull = r.2.2.1 ∧
          (∀ q, (t.part q).staged = if r.2.2.1.isSome then none else (r.2.2.2.part q).staged) ∧
          ∃ q, q < 16 ∧ (t.part q).status = r.1 ∧ (t.part q).secNo = r.2.1)) ∧
      ∃ t : State, exec (.discard rq) s = .next t ∧ t.stagedFull = none ∧ (∀ q, (t.part q).staged = (s.part q).staged))

/-- R29: one PART_CMD at a time. While one is in progress every other is refused with BUSY (0x01), which only its status shows. A BIND, UNBIND
or REBIND of a partition in a state that Table 01.5 gives it no way out of by that command is refused with BAD_STATE (0x02), and so is a BIND of
the full stream while some partition is not FREE. A BIND or REBIND with nothing staged is refused with NONE_STAGED (0x0A). Nothing but the status
changes; in which window a command on the full stream shows it is left open here. -/
def Obligations.PartCommandsAreRefused : Prop :=
  ∀ (s : State) (rq : Req) (p : Nat), s.Canon → s.mayP rq 0x50008 = true → (s.sel rq).part = p → p < 16 →
    ((s.sel rq).partAll = false →
      let refused := fun (st : Nat) => Host.Outcome.next (s.modPart p fun v => { v with status := st, secNo := 0xFFFF })
      let st := (s.part p).state
      (s.partBusy = true → ∀ c ∈ [Instr.stage rq, .bind rq, .unbind rq, .rebind rq, .discard rq],
        exec c s = .next (s.modPart p fun v => { v with status := 1 })) ∧
      (s.partBusy = false →
        (st ≠ .free → exec (.bind rq) s = refused 2) ∧
        (st ≠ .running → st ≠ .braked → exec (.unbind rq) s = refused 2) ∧
        (st ≠ .free → st ≠ .running → st ≠ .braked → exec (.rebind rq) s = refused 2) ∧
        (st = .free → (s.part p).staged = none → exec (.bind rq) s = refused 0x0A) ∧
        (st = .free ∨ st = .running ∨ st = .braked → (s.part p).staged = none → exec (.rebind rq) s = refused 0x0A))) ∧
    ((s.sel rq).partAll = true →
      let refused := fun (c : Instr) (st : Nat) => ∃ t : State, exec c s = .next t ∧ { t with parts := s.parts } = s ∧
        (∀ q, t.part q = { s.part q with status := (t.part q).status, secNo := (t.part q).secNo }) ∧ ∃ q, q < 16 ∧ (t.part q).status = st
      (s.partBusy = true → ∀ c ∈ [Instr.stage rq, .bind rq, .discard rq], refused c 1) ∧
      (s.partBusy = false →
        ((∃ q, q < 16 ∧ (s.part q).state ≠ .free) → refused (.bind rq) 2) ∧
        ((∀ q, q < 16 → (s.part q).state = .free) → s.stagedFull = none → refused (.bind rq) 0x0A)))

/-- R29, R30, R31, R20, R347: BIND, UNBIND and REBIND of a partition, each accepted. BIND, and REBIND of a FREE partition, go to LOADING with
the lowest FREE key identifiers, each assigned to the partition with its three keys drawn from the TRNG; UNBIND and REBIND of a RUNNING or BRAKED
partition go to DRAINING, whose limit starts now, and only a REBIND will load the staged stream afterwards.

R27, R28, R29, R38: under PART_SEL.ALL, STAGE and DISCARD work on the full stream; STAGE takes its operands from the window of PART_SEL.PART,
which shows the status too (the model's choice, log entry 47); BIND of a full stream that passes the checks begins LOADING of each of its
partitions; UNBIND and REBIND are not accepted and change nothing (log entry 50). -/
def Obligations.PartitionCommandsStartTheirSteps : Prop :=
  (∀ (s : State) (rq : Req) (p : Nat), s.Canon → s.mayP rq 0x50008 = true → (s.sel rq).part = p → p < 16 →
      (s.sel rq).partAll = false → s.partBusy = false →
      (∀ st, (s.part p).staged = some st → s.bindChecks st [p] = 0 → (s.part p).state = .free →
        (partMapOf (st.get p 1)).keyCount ≤ s.freeKeyIds.length →
        ∃ t : State, exec (.bind rq) s = .next t ∧ exec (.rebind rq) s = .next t ∧
          (t.part p).state = .loading ∧ (t.part p).map = partMapOf (st.get p 1) ∧
          (t.part p).keyIds = s.freeKeyIds.take (partMapOf (st.get p 1)).keyCount ∧
          (∀ k ∈ (t.part p).keyIds, ∃ n, s.draws ≤ n ∧ n + 3 ≤ t.draws ∧ t.mce.keyId k =
            { state := .assigned, part := p, gen := (s.mce.keyId k).gen + 1, epoch := 1, k1 := padTo 32 (Config.trng n)
              k2 := padTo 32 (Config.trng (n + 1)), kt := padTo 32 (Config.trng (n + 2)) }) ∧
          (∀ q, q ≠ p → t.part q = s.part q) ∧ { t with parts := s.parts, mce := s.mce, draws := s.draws } = s) ∧
      ((s.part p).state = .running ∨ (s.part p).state = .braked →
        (∃ t : State, exec (.unbind rq) s = .next t ∧ (t.part p).state = .draining ∧ (t.part p).rebind.toLoad = false ∧
          (t.part p).rebind.inProgress = true ∧ (t.part p).rebind.drainStart = s.mill.now ∧ (∀ q, q ≠ p → t.part q = s.part q)) ∧
        (∀ st, (s.part p).staged = some st → s.bindChecks st [p] = 0 →
          ∃ t : State, exec (.rebind rq) s = .next t ∧ (t.part p).state = .draining ∧ (t.part p).rebind.toLoad = true ∧
            (t.part p).rebind.inProgress = true ∧ (t.part p).rebind.drainStart = s.mill.now ∧ (∀ q, q ≠ p → t.part q = s.part q)))) ∧
  (∀ (s : State) (rq : Req) (p : Nat), s.Canon → s.mayP rq 0x50008 = true → (s.sel rq).part = p → p < 16 →
    (s.sel rq).partAll = true → s.partBusy = false →
    let n := NatMap.get 0 s.stageLen p
    let r := s.stageRun true p (NatMap.get 0 s.stageObj p) n
    let u := r.2.2.2
    (n = 0 → exec (.stage rq) s = .next (s.modPart p fun v => { v with status := 0, secNo := 0xFFFF })) ∧
    (n ≠ 0 → ∃ t : State, exec (.stage rq) s = .next t ∧ t.stagedFull = r.2.2.1 ∧
      (∀ q, t.part q = { u.part q with staged := if r.2.2.1.isSome then none else (u.part q).staged
                                       status := if q = p then r.1 else (u.part q).status
                                       secNo := if q = p then r.2.1 else (u.part q).secNo }) ∧
      { t with parts := u.parts, stagedFull := u.stagedFull } = u) ∧
    (∃ t : State, exec (.discard rq) s = .next t ∧ t.stagedFull = none ∧
      t.part p = { s.part p with status := 0, secNo := 0xFFFF } ∧
      (∀ q, q ≠ p → t.part q = s.part q) ∧ { t with parts := s.parts, stagedFull := s.stagedFull } = s) ∧
    (∀ st, (∀ q, q < 16 → (s.part q).state = .free) → s.stagedFull = some st → s.bindChecks st st.parts = 0 →
      ∃ t : State, exec (.bind rq) s = .next t ∧ t.device = st.get 0xFF 12 ∧
        { t with device := s.device } = (s.modPart p fun v => { v with status := 0, secNo := 0xFFFF }).bindParts st st.parts ∧
        ∀ q, q ≠ p → q ∉ st.parts → t.part q = s.part q) ∧
    exec (.unbind rq) s = .next s ∧ exec (.rebind rq) s = .next s)

/-- R31, R33, R34: the later steps of a rebinding. DRAINING ends in SCRUBBING with the firewall entries gone; its limit brakes the
partition; SCRUBBING ends in RETIRING with the timetable, the accumulator tags, the Weir's table, every core's registers and memories, and
every tile's registers and scratch memory cleared; RETIRING without a stream to load ends FREE, its identifiers freed.

R349: an identifier that stays RETIRING until the timeout is DEAD, and 0x0806 is raised; so is one that a tamper event left FREE with its
destruction unconfirmed (log entry 185); any other identifier stays.

It rests on choices of the model: log entries 3, 57 and 59. -/
def Obligations.RebindingStepsFollowInOrder : Prop :=
  (∀ (s : State) (p : Nat), s.Canon →
    ((s.part p).state = .draining → s.drained p = true →
      ∃ t : State, exec (.drainComplete p) s = .next t ∧ (t.part p).state = .scrubbing ∧ (t.part p).firewall = [] ∧
        (t.part p).route = [] ∧ (t.part p).firewallOn = false ∧ (∀ n ∈ s.partTiles p, (t.tile n).scrubbing = true)) ∧
    ((s.part p).state = .draining → (s.part p).rebind.braked = false →
      (s.part p).rebind.drainStart + 1000 * (s.part p).rebind.limit ≤ s.mill.now →
      ∃ t : State, exec (.drainLimitExpiry p) s = .next t ∧ (t.part p).brakedDrain = true ∧ (t.part p).rebind.braked = true ∧
        (t.part p).state = .draining) ∧
    ((s.part p).state = .scrubbing →
      ∃ t : State, exec (.scrubComplete p) s = .next t ∧ (t.part p).state = .retiring ∧ (t.part p).gov = {} ∧ (t.part p).tags = [] ∧
        t.weir p = {} ∧ (∀ c ∈ s.partClusters p, t.cluster c = {}) ∧
        (∀ n ∈ s.partTiles p, (t.tile n).regs = [] ∧ (t.tile n).scratch = [] ∧ (t.tile n).halted = false) ∧
        ∀ k ∈ (s.part p).keyIds, (t.mce.keyId k).state = .retiring) ∧
    ((s.part p).state = .retiring → (s.part p).rebind.toLoad = false →
      ∃ t : State, exec (.retireComplete p) s = .next t ∧
        t.part p = { staged := (s.part p).staged, brakedDrain := (s.part p).brakedDrain, drainLimit := (s.part p).drainLimit,
                     firewallDrops := (s.part p).firewallDrops } ∧
        ∀ k ∈ (s.part p).keyIds, (t.mce.keyId k).state ≠ .retiring)) ∧
  (∀ (s : State) (k : Nat),
    let i := s.mce.keyId k
    (i.state = .retiring ∨ (s.mce.tampered = true ∧ i.state = .free) →
      exec (.keyDestroyTimeout k) s =
        .next ((s.modMce fun x => x.setKeyId k { i with state := .dead }).raise { code := 0x0806, loc := locSec i.part })) ∧
    (¬ (i.state = .retiring ∨ (s.mce.tampered = true ∧ i.state = .free)) → exec (.keyDestroyTimeout k) s = .next s))

/-- R31, R43: LOAD_COMPLETE of a partition for which no brake arrived arms it: T₀ lies at or after 64 ns from now and its lease runs for
the timetable's LEASE_MS. With BRAKE_N low it ends BRAKED instead (R60).

It rests on choices of the model: log entries 3 and 55. -/
def Obligations.LoadCompleteArmsOrBrakes : Prop :=
  ∀ (s : State) (p : Nat) (st : Stream), s.Canon → (s.part p).state = .loading → (s.part p).stream = some st →
    (s.part p).rebind.causes = 0 → 0 < (timetableOf (st.get p 9)).grid → 0 < (timetableOf (st.get p 9)).period →
    (s.mill.brakeLow = false →
      ∃ t : State, exec (.loadComplete p) s = .next t ∧ (t.part p).state = .armed ∧
        (t.part p).gov.tt = timetableOf (st.get p 9) ∧ s.mill.now + 64 ≤ (t.part p).gov.t0 ∧
        (t.part p).gov.leaseExpiry = s.mill.now + 1000000 * (timetableOf (st.get p 9)).leaseMs) ∧
    (s.mill.brakeLow = true →
      ∃ t : State, exec (.loadComplete p) s = .next t ∧ (t.part p).state = .braked ∧ (t.part p).gov.byPin = true)

/-- R18, R359: a Millrace packet of a partition reaches a resource only where the partition's map admits it with its firewall in force, and
memory only under an identifier of the partition, which the requester does not choose, that is ASSIGNED; a packet that is not admitted is
dropped and counted for its source, and nothing else happens.

R358: an admitted packet goes over the links that are up, a frame on each, whose counter goes on; where no way is left it goes nowhere
(log entry 183). With every link up, and with any one ring or chord link down, two compute dies are at most three links apart.

R17: a frame that fails authentication on a package link is dropped and counted; while fewer than 16 failed within 1 ms the link
stays up and nothing else happens; the 16th takes the link down until reset.

It rests on choices of the model: log entries 61, 159, 183 and 186. -/
def Obligations.PackageTrafficIsAdmittedOrDropped : Prop :=
  (∀ (s : State) (src : MillSrc) (die : Nat) (dst : MillDest),
    (s.millAdmits src dst = true →
      (∀ way, route s.mce.linkUp die dst.die = some way →
        exec (.millracePacket src die dst) s = .next (({ s with mce := s.mce.crossed way } : State).send
          (.millrace src.num (s.millKid src) dst (way.map fun l => (l, NatMap.get 0 s.mce.linkFrames l))))) ∧
      (route s.mce.linkUp die dst.die = none → exec (.millracePacket src die dst) s = .next s)) ∧
    (s.millAdmits src dst = false →
      exec (.millracePacket src die dst) s =
        .next (s.setPart src.num { s.part src.num with firewallDrops := sat32n ((s.part src.num).firewallDrops + 1) }))) ∧
  (∀ (s : State) (p x : Nat) (dst : MillDest), s.millAdmits (.part p x) dst = true ↔
    (s.part p).firewallOn = true ∧ (s.part p).map.admits dst = true ∧
      (dst.inMemory = true → (s.mce.keyId ((s.part p).keyIds.getD (x % max (s.part p).keyIds.length 1) 0)).state = .assigned)) ∧
  (∀ (x : Mce) (way : List Nat) (l : Nat),
    NatMap.get 0 (x.crossed way).linkFrames l = NatMap.get 0 x.linkFrames l + way.count l) ∧
  (∀ down a b, down < 16 ∨ down = 32 → a < 8 → b < 8 →
    ∃ way, route (fun n => n != down) a b = some way ∧ way.length ≤ 3 ∧ down ∉ way) ∧
  (∀ (s : State) (l : PkgLink), s.mce.linkDown.contains l.num = false →
    let recent := (s.mill.now :: NatMap.get [] s.mce.linkFails l.num).filter fun t => decide (s.mill.now < t + 1000000)
    let m : Mce := { s.mce with
      linkFails := NatMap.set [] s.mce.linkFails l.num recent
      linkDrops := NatMap.set 0 s.mce.linkDrops l.num (NatMap.get 0 s.mce.linkDrops l.num + 1) }
    (recent.length < 16 → exec (.linkFrameAuthFail l) s = .next { s with mce := m }) ∧
    (16 ≤ recent.length → ∃ t : State, exec (.linkFrameAuthFail l) s = .next t ∧ t.mce.linkDown.contains l.num = true))

/-! ### Mill time, PTP and the pins -/

/-- R40: an unsupported PTP message is dropped and counted; a PTP message that does not come from the parent on the slave port changes
nothing, and after a tamper event, in SCRAP, Deep sleep and Off none does; a Sync from it, or the Follow_Up that completes a two-step one, is
answered with a Delay_Req; an Announce sets the slave port; a
master port of a boundary clock answers a Delay_Req and sends a two-step Sync, its Follow_Up and an Announce, each with mill time, and any
other port sends nothing.

R41, R42: until a Delay_Resp has been taken a Sync corrects and counts nothing; after it each Sync's offset is corrected and, within 20 ns,
counts, the 16th in a row locking the clock; one beyond starts the count again. The correction steps mill time in ACQUIRING where no
partition bars it, in HOLDOVER holds the last frequency, and else slews: mill time stays and the frequency is the measured one less up to 100 ppm
against the offset, within 200 ppm. Four Sync intervals without a valid Sync while LOCKED lead to HOLDOVER with fault 0x0109.

It rests on choices of the model: log entries 3, 157, 159 and 167. -/
def Obligations.PtpMessagesSetTheClock : Prop :=
  (∀ s : State,
    (∀ port, s.sluiceOpen = true →
      exec (.ptpUnsupported port) s = .next { s with mill := { s.mill with discards := s.mill.discards + 1 } }) ∧
    (s.sluiceOpen = false → (∀ port, exec (.ptpUnsupported port) s = .next s) ∧ (∀ m, exec (.ptpSync m) s = .next s) ∧
      ∀ port, exec (.ptpDelayReq port) s = .next s ∧ exec (.ptpMasterSync port) s = .next s) ∧
    (∀ port slave,
      (s.sluiceOpen = true → s.mill.role ≠ 0 → s.ptpOn port = true → slave = 0xF ∨ s.ptpOn slave = true →
        exec (.ptpAnnounce port slave) s = .next { s with mill := { s.mill with
          slavePort := slave, twoStep := if s.mill.slavePort = slave then s.mill.twoStep else none } }) ∧
      (¬ (s.sluiceOpen = true ∧ s.mill.role ≠ 0 ∧ s.ptpOn port = true ∧ (slave = 0xF ∨ s.ptpOn slave = true)) →
        exec (.ptpAnnounce port slave) s = .next s)) ∧
    (s.mill.state = .locked → s.mill.lastSync + 4 * s.mill.syncInterval ≤ s.mill.now →
      exec .ptpHoldover s = .next ((s.modMill fun m => { m with state := .holdover, goodSyncs := 0 }).raise (govDevFault 0x0109))) ∧
    (¬ (s.mill.state = .locked ∧ s.mill.lastSync + 4 * s.mill.syncInterval ≤ s.mill.now) → exec .ptpHoldover s = .next s)) ∧
  (∀ (s : State) (m : PtpMeas),
    let waits := ∃ at_, s.mill.twoStep = some (m.port, at_)
    let u : State := { s with
      mill := { s.mill with gotSync := true, twoStep := none, offset := m.offset }, out := .ptp 1 m.port s.mill.now :: s.out }
    let v := (u.correct m.offset m.freqPpb)
    let r := fun t : State =>
      (s.mill.gotDelay = false → t = { u with mill := { u.mill with offset := s.mill.offset, lastSync := s.mill.now } }) ∧
      (s.mill.gotDelay = true → t = { v with mill := { v.mill with
        lastSync := v.mill.now
        goodSyncs := if m.offset.natAbs ≤ 20 then min (v.mill.goodSyncs + 1) 16 else 0
        state := if m.offset.natAbs ≤ 20 ∧ 15 ≤ v.mill.goodSyncs then .locked else v.mill.state } })
    (s.fromParent m.port = false → exec (.ptpSync m) s = .next s) ∧
    (s.fromParent m.port = false ∨ ¬ waits → exec (.ptpFollowUp m) s = .next s) ∧
    (s.fromParent m.port = true → m.kind = 0 → ∃ t, exec (.ptpSync m) s = .next t ∧ r t) ∧
    (s.fromParent m.port = true → waits → ∃ t, exec (.ptpFollowUp m) s = .next t ∧ r t) ∧
    (s.fromParent m.port = true → m.kind = 1 →
      exec (.ptpSync m) s = .next { s with mill := { s.mill with twoStep := some (m.port, s.mill.now) } }) ∧
    (s.fromParent m.port = true → 2 ≤ m.kind →
      let x : State := { s with mill := { s.mill with delay := m.delay, offset := m.offset, gotDelay := true } }
      exec (.ptpSync m) s = .next (if s.mill.gotSync then x.correct m.offset m.freqPpb else x))) ∧
  (∀ (s : State) (off freq : Int),
    let t := s.correct off freq
    (s.mill.state = .acquiring → s.mayStep = true → t = { s with mill := { s.mill with
      now := ((s.mill.now : Int) - off).toNat, freqPpb := clampPpb freq, stepBlocked := false } }) ∧
    (s.mill.state = .holdover → t.mill = { s.mill with stepBlocked := t.mill.stepBlocked }) ∧
    (s.mill.state ≠ .holdover → ¬ (s.mill.state = .acquiring ∧ s.mayStep = true) →
      t.mill = { s.mill with freqPpb := t.mill.freqPpb, stepBlocked := t.mill.stepBlocked } ∧
      (off = 0 → t.mill.freqPpb = clampPpb freq) ∧
      (0 < off → clampPpb (freq - 100000) ≤ t.mill.freqPpb ∧ t.mill.freqPpb ≤ clampPpb freq) ∧
      (off < 0 → clampPpb freq ≤ t.mill.freqPpb ∧ t.mill.freqPpb ≤ clampPpb (freq + 100000)))) ∧
  (∀ (s : State) (port : Nat),
    (s.masterPort port = true →
      exec (.ptpDelayReq port) s = .next { s with out := .ptp 9 port s.mill.now :: s.out } ∧
      exec (.ptpMasterSync port) s =
        .next { s with out := .ptp 11 port s.mill.now :: .ptp 8 port s.mill.now :: .ptp 0 port s.mill.now :: s.out }) ∧
    (s.masterPort port = false → exec (.ptpDelayReq port) s = .next s ∧ exec (.ptpMasterSync port) s = .next s))

/-- R42: mill time is stepped only in ACQUIRING and while no partition is ARMED, RUNNING or BRAKED; with such a partition an offset is
slewed, mill time stays what it is, and an offset beyond STEP_LIMIT sets STEP_BLOCKED.

It rests on choices of the model: log entry 157. -/
def Obligations.StepsOnlyWithoutPartitions : Prop :=
  ∀ (s t : State) (m : PtpMeas), exec (.ptpSync m) s = .next t →
    (s.mayStep = false → t.mill.now = s.mill.now) ∧
    (t.mill.now ≠ s.mill.now → s.mill.state = .acquiring ∧ s.mayStep = true) ∧
    (s.fromParent m.port = true → m.kind = 0 → s.mill.gotDelay = true → s.mayStep = false → s.mill.stepLimit < m.offset.natAbs →
      t.mill.stepBlocked = true)

/-- R40, R441, R443, R60, R61: the time pins and BRAKE_N. PPS_IN's edge, which a device held in reset ignores, is stamped with mill time, and with
ROLE 0 and PPS_IN_EN it disciplines the frequency, by at most 100 ppm; PPS_OUT sends at a whole second of mill time, once. BRAKE_N low is held until
it rises, and a rise changes nothing else; its fall brakes every ARMED or RUNNING partition, names the pin among the causes of a brake that is under
way, and abandons what a DRAINING partition has in flight.

It rests on choices of the model: log entries 3, 157 and 159. -/
def Obligations.PinsAreStampedAndHeld : Prop :=
  ∀ s : State,
    (s.life.phase = .held → exec .ppsInEdge s = .next s) ∧
    (s.life.phase ≠ .held → s.mill.role ≠ 0 ∨ bit s.mill.ctrl 29 = false →
      exec .ppsInEdge s = .next { s with mill := { s.mill with ppsLast := s.mill.now } }) ∧
    (s.life.phase ≠ .held → s.mill.role = 0 → bit s.mill.ctrl 29 = true →
      ∃ t : State, exec .ppsInEdge s = .next t ∧ t.mill = { s.mill with ppsLast := s.mill.now, freqPpb := t.mill.freqPpb } ∧
        -100000 ≤ t.mill.freqPpb ∧ t.mill.freqPpb ≤ 100000 ∧ { t with mill := s.mill, draws := s.draws } = s) ∧
    (bit s.mill.ctrl 30 = true → s.mill.now % 1000000000 = 0 → s.mill.ppsOutLast ≠ some s.mill.now →
      exec .ppsOutEdge s =
        .next { s with mill := { s.mill with ppsOutLast := some s.mill.now }, out := .pps s.mill.now :: s.out }) ∧
    (¬ (bit s.mill.ctrl 30 = true ∧ s.mill.now % 1000000000 = 0 ∧ s.mill.ppsOutLast ≠ some s.mill.now) →
      exec .ppsOutEdge s = .next s) ∧
    exec .brakeNRise s = .next { s with mill := { s.mill with brakeLow := false } } ∧
    (∃ t : State, exec .brakeNFall s = .next t ∧ t.mill.brakeLow = true ∧
      (s.Canon → ∀ p, p < 16 →
        ((s.part p).state = .running ∨ (s.part p).state = .armed → (t.part p).gov.byPin = true ∧ (t.part p).gov.braking = true) ∧
        ((s.part p).state = .draining → (t.part p).rebind.braked = true ∧ bit (t.part p).rebind.causes 1 = true)))

/-! ### The Governor -/

/-- R43, R53, R56, R58: REVOLUTION_START at a lattice point where nothing has missed, the lease holds and ABORT_LIMIT is not reached
starts the next revolution: the partition is RUNNING, GOV_REV_COUNT goes up, no step of it is abandoned, its commit point is passed only where a
U phase that committed late runs on, and its window is a repeat window just where the step before was abandoned. A lapsed lease brakes the
partition instead. Arrivals that a new epoch of a counter owes follow; with no counter nothing else changes.

It rests on choices of the model: log entries 3, 64 and 65. -/
def Obligations.RevolutionsStartAtLatticePoints : Prop :=
  ∀ (s : State) (p : Nat), s.Canon → (s.part p).state = .armed ∨ (s.part p).state = .running → (s.part p).gov.braking = false →
    let g := (s.part p).gov
    g.revStart g.nextRev ≤ s.mill.now →
    (s.leaseLapsed p = false → g.missesAt (g.revStart g.nextRev) = [] →
      (g.revOpen = true → (if g.aborted then g.abortStreak + 1 else 0) < g.tt.abortLimit) →
      ∃ u : State, exec (.revolutionStart p) s = .next (u.settleWeir p weirFuel) ∧
        (u.part p).state = .running ∧ (u.part p).gov.nextRev = g.nextRev + 1 ∧
        (u.part p).gov.revCount = g.revCount + 1 ∧ (u.part p).gov.aborted = false ∧
        ((u.part p).gov.committed = true ↔ g.committed = true ∧ ∃ k e, k ∈ g.phases .running ∧ g.tt.entries[k % 4096]? = some e ∧ e.phase = 2) ∧
        (u.part p).gov.step = g.step ∧ (u.weir p).repeatWindow = g.aborted ∧ (∀ q, q ≠ p → u.part q = s.part q) ∧
        { u with parts := s.parts, weirs := s.weirs } = s ∧
        ((s.weir p).tbl.counters = [] → (s.weir p).abortDue = false → u.settleWeir p weirFuel = u)) ∧
    (s.leaseLapsed p = true →
      ∃ t : State, exec (.revolutionStart p) s = .next t ∧ (t.part p).gov.byLease = true ∧ (t.part p).gov.braking = true)

/-- R50: each kind of timetable entry starts when it is due, every earlier entry of the table has started and the beat has room: the
Governor counts the start in its beat, the entry's run starts, and the entry does its own kind's work; a start more than a beat late
is reported (0x0103) unless the entry is held or has ended. An entry that is held, or misses at once, is no start of the beat.

R54, R58: the entry's slot compares the lease: where it has lapsed the partition brakes instead; an entry that an abandoned step skips has
ended and does no work.

It rests on choices of the model: log entry 3. -/
def Obligations.TimetableEntriesStart : Prop :=
  ∀ (s : State) (p i : Nat) (e : TtEntry), (s.part p).gov.tt.entries[i]? = some e → s.due p i = true →
    ((s.part p).gov.starts e = true → s.startAllowed p = true) →
    let g := (s.part p).gov
    let start := g.revStart g.rev + 64 * e.offset
    let m : Mill := { s.mill with
      beat := s.mill.now / 64, beatStarts := (if s.mill.beat = s.mill.now / 64 then s.mill.beatStarts else 0) + 1 }
    let c : State := { s with mill := if g.starts e then m else s.mill }
    let u := c.setPart p { s.part p with gov := g.setRun (g.key i) { status := .running, start := start } }
    let fin := fun x : State =>
      let r := ((x.part p).gov.run ((x.part p).gov.key i)).status
      if start + 64 < s.mill.now ∧ r ≠ .held ∧ r ≠ .ended then x.raise (govFault p 0x0103 3 i e.kind 0 0) else x
    (s.leaseLapsed p = true →
      ∀ k ∈ [(1, Instr.phaseStart p i), (2, .collectiveWindow p i), (3, .queueScan p i), (4, .leaseCheck p i), (5, .digestCompare p i),
        (6, .testSlot p i), (7, .versionRelease p i), (8, .powerHint p i)],
        e.kind = k.1 → exec k.2 s = .next (s.brakeBy p .lease)) ∧
    (s.leaseLapsed p = false → g.aborted = true → endsEntry false e.kind = true →
      ∀ k ∈ [(1, Instr.phaseStart p i), (2, .collectiveWindow p i), (5, .digestCompare p i)], e.kind = k.1 →
        exec k.2 s = .next (c.setPart p { s.part p with gov := g.setRun (g.key i) { status := .ended, start := start } })) ∧
    (s.leaseLapsed p = false → (g.aborted = true → endsEntry false e.kind = false) →
      (e.kind = 1 → exec (.phaseStart p i) s = .next (fin (u.phaseEntry p i e))) ∧
      (e.kind = 2 → exec (.collectiveWindow p i) s = .next (fin (u.windowEntry p i e))) ∧
      (e.kind = 3 → exec (.queueScan p i) s =
        .next (fin (((u.scanned p (bits e.arg 0 48)).foldl State.scanCtx u).completeRun p ((u.part p).gov.key i)))) ∧
      (e.kind = 4 → exec (.leaseCheck p i) s = .next (fin (u.leaseCheck p i e))) ∧
      (e.kind = 5 → exec (.digestCompare p i) s = .next (fin (u.compareEntry p i e))) ∧
      (e.kind = 6 → exec (.testSlot p i) s = .next (fin (u.testSlot p i e))) ∧
      (e.kind = 7 → exec (.versionRelease p i) s = .next (fin (u.versionRelease p i e))) ∧
      (e.kind = 8 → exec (.powerHint p i) s = .next (fin (u.powerHint p i e))))

/-- R51, R73, R121, R143: what a phase does as it starts with no phase open or held: on every tile of the partition the statistics block
is cleared and the SR context starts over; on every cluster a core that is not halted, at a valid entry point, runs from there with
a0 = PHASE, a1 = MB and a2 = STEP. A held phase starts the same way once no phase is open, as one of the starts of its beat (R50).

It rests on choices of the model: log entry 71. -/
def Obligations.PhasesStartCoresAndTiles : Prop :=
  ∀ (s : State) (p i : Nat) (e : TtEntry), s.Canon → (s.part p).gov.tt.entries[i]? = some e →
    (∀ k, (s.part p).gov.phases .running = [] → ((s.part p).gov.phases .held).head? = some k → k % 4096 = i →
      (s.part p).state = .running → (s.part p).gov.braking = false → s.startAllowed p = true →
      exec (.heldPhaseStart p i) s = .next (State.runPhase { s with mill := { s.mill with
        beat := s.mill.now / 64, beatStarts := (if s.mill.beat = s.mill.now / 64 then s.mill.beatStarts else 0) + 1 } } p k e)) ∧
    (∀ r, (s.part p).gov.unpreceded e = false → (s.part p).gov.phases .running = [] → (s.part p).gov.phases .held = [] →
      let k := (s.part p).gov.key i
      let u := s.setPart p { s.part p with gov := (s.part p).gov.setRun k r }
      u.phaseEntry p i e = u.runPhase p k e) ∧
    (∀ k c, c ∈ s.partClusters p → (s.cluster c).unstall.halted = false →
      let a := ofLe (NatMap.getList 0 (s.cluster c).imem (8 * bits e.arg 16 8) 8)
      entryValid a = true →
      let x := (s.runPhase p k e).cluster c
      x.running = true ∧ x.trapped = false ∧ x.phaseDone = false ∧ x.pc = BitVec.ofNat 64 a ∧
      x.coreRegs = NatMap.set 0 (NatMap.set 0 (NatMap.set 0 (s.cluster c).coreRegs 10 (BitVec.ofNat 64 e.phase)) 11
        (BitVec.ofNat 64 (bits e.arg 8 8))) 12 (BitVec.ofNat 64 ((s.part p).gov.step.toNat % 2 ^ 32))) ∧
    (∀ k n, n ∈ s.partTiles p → (s.tile n).arrA.groups = [] → (s.tile n).arrB.groups = [] →
      let x := (s.runPhase p k e).tile n
      x.stats = [] ∧ x.sr.tensor = 0 ∧ x.sr.base = 0 ∧ x.faultCode = (s.tile n).faultCode)

/-- R52: WINDOW_CLOSE closes the window of a run at OFFSET + DEADLINE and frees its shares, and nothing else closes it before. R58, R34, R37: in
Run LEASE_EXPIRY marks a lapsed lease; it brakes a DRAINING partition and has a SCRUBBING one go to BRAKED. R415: HINT_LAPSE ends a power hint
whose time is over. R53: DEADLINE_MISS takes the run whose instant has passed with every other that misses then; of one miss the count goes up and
GOV_LAST_MISS names it; policy RECORD lets the step go on, ABORT_STEP abandons it before its commit point, BRAKE brakes.

R57, R61, R265: GOV_CMD. HALT of a RUNNING partition brakes it as HALT_PART does; ABORT abandons its step, before the commit point;
BRAKE_COMPLETE ends the brake once nothing is in flight; RELEASE of a BRAKED partition runs it again and clears every cause of the
brake, where a commit release is awaited after asking its root; each is refused with a status of its own where the partition's state, BRAKE_N or
the lease bars it.

It rests on choices of the model: log entries 3 and 66. -/
def Obligations.GovernorInstantsAndCommandsTakeEffect : Prop :=
  (∀ (s : State) (p i : Nat), s.Canon →
    (let run := ((s.part p).gov.runs.filter fun e => e.1 % 4096 == i && e.2.windowOpen).head?
     (∀ k r e, run = some (k, r) → (s.part p).gov.tt.entries[i]? = some e →
       exec (.windowClose p i) s = .next (if r.start + 64 * e.deadline ≤ s.mill.now then
         s.setPart p { s.part p with gov := (s.part p).gov.setRun k { r with windowOpen := false, grants := [] } } else s)) ∧
     (run = none ∨ (s.part p).gov.tt.entries[i]? = none → exec (.windowClose p i) s = .next s)) ∧
    (let lapsed := s.setPart p { s.part p with gov := { (s.part p).gov with lapsed := true } }
     (s.pwr.state = 0 → (s.part p).gov.lapsed = false → (s.part p).gov.leaseExpiry ≤ s.mill.now →
       ((s.part p).state = .armed ∨ (s.part p).state = .running ∨ (s.part p).state = .braked →
         exec (.leaseExpiry p) s = .next lapsed) ∧
       ((s.part p).state = .draining ∨ (s.part p).state = .scrubbing →
         exec (.leaseExpiry p) s = .next (lapsed.brakeBy p .lease)) ∧
       ((s.part p).state = .free ∨ (s.part p).state = .retiring ∨ (s.part p).state = .loading →
         exec (.leaseExpiry p) s = .next s)) ∧
     (s.pwr.state ≠ 0 ∨ (s.part p).gov.lapsed = true ∨ s.mill.now < (s.part p).gov.leaseExpiry →
       exec (.leaseExpiry p) s = .next s)) ∧
    ((∀ h t, NatMap.get none s.pwr.hints p = some h → h.lapse = some t → t ≤ s.mill.now →
       exec (.hintLapse p) s = .next (s.endHint p)) ∧
     ((∀ h t, NatMap.get none s.pwr.hints p = some h → h.lapse = some t → s.mill.now < t) → exec (.hintLapse p) s = .next s)) ∧
    (∀ k, (s.part p).state = .running → (s.part p).gov.braking = false →
      ((s.part p).gov.openKeys.filter fun k => k % 4096 == i && decide ((s.part p).gov.missAt k ≤ s.mill.now)).head? = some k →
      let at_ := (s.part p).gov.missAt k
      exec (.deadlineMiss p i) s = .next (s.takeMisses p at_ ((s.part p).gov.missesAt at_)) ∧
      (∀ policy implicit, (s.part p).gov.missesAt at_ = [⟨k, policy, implicit⟩] → policy ≤ 2 →
        ∃ t : State, exec (.deadlineMiss p i) s = .next t ∧
          (t.part p).gov.missCount = min ((s.part p).gov.missCount + 1) 0xFFFFFFFF ∧ (t.part p).gov.lastMiss.entry = k % 4096 ∧
          (t.part p).gov.lastMiss.implicit = implicit ∧ (t.part p).state = .running ∧
          (∀ q, q ≠ p → t.part q = s.part q) ∧
          (policy = 0 → (t.part p).gov.aborted = (s.part p).gov.aborted ∧ (t.part p).gov.lastMiss.policy = 0 ∧
            { t with parts := s.parts, ras := s.ras, board := s.board, sec := s.sec, ports := s.ports, out := s.out } = s) ∧
          (policy = 1 → (s.part p).gov.committed = false → (s.weir p).awaitsCommit = false →
            (t.part p).gov.aborted = true ∧ (t.part p).gov.lastMiss.policy = 1) ∧
          (policy = 2 → (s.part p).gov.committed = false →
            (t.part p).gov.byDeadline = true ∧ (t.part p).gov.braking = true ∧ (t.part p).gov.lastMiss.policy = 2)))) ∧
  (∀ (s : State) (rq : Req) (p : Nat), s.Canon → s.mayP rq 0x10128 = true → (s.sel rq).part? = some p →
    let status := fun n => s.setPart p { s.part p with gov := { (s.part p).gov with cmdStatus := n } }
    ((s.part p).state = .running →
      (∃ t : State, exec (.halt rq) s = .next t ∧ (t.part p).gov.byHalt = true ∧ (t.part p).gov.braking = true ∧
        ((s.part p).gov.braking = false → (t.part p).gov.brakeAt = s.mill.now) ∧ (t.part p).gov.cmdStatus = 0) ∧
      ((s.part p).gov.braking = false → (s.part p).gov.committed = false → (s.part p).gov.aborted = false →
        (s.weir p).awaitsCommit = false →
        ∃ t : State, exec (.abort rq) s = .next t ∧ (t.part p).gov.aborted = true ∧ (t.part p).gov.cmdStatus = 0 ∧
          (t.part p).state = .running ∧ (t.part p).gov.step = (s.part p).gov.step) ∧
      ((s.part p).gov.braking = true ∨ (s.part p).gov.committed = true ∨ (s.part p).gov.aborted = true →
        exec (.abort rq) s = .next (status 0))) ∧
    ((s.part p).state ≠ .running → exec (.halt rq) s = .next (status 1) ∧ exec (.abort rq) s = .next (status 1)) ∧
    ((s.part p).state = .armed ∨ (s.part p).state = .running → (s.part p).gov.braking = true → s.brakeDone p = true →
      ∃ t : State, exec (.brakeComplete p) s = .next t ∧ (t.part p).state = .braked ∧ (t.part p).gov.braking = false ∧
        { t with parts := s.parts, querns := s.querns } = s) ∧
    ((s.part p).state ≠ .braked → exec (.release rq) s = .next (status 1)) ∧
    ((s.part p).state = .braked →
      (s.mill.brakeLow = true → exec (.release rq) s = .next (status 2)) ∧
      (s.mill.brakeLow = false → (s.part p).gov.leaseExpiry ≤ s.mill.now → exec (.release rq) s = .next (status 3)) ∧
      (s.mill.brakeLow = false → s.mill.now < (s.part p).gov.leaseExpiry → (s.part p).rebind.inProgress = true →
        exec (.release rq) s = .next (status 4)) ∧
      (s.mill.brakeLow = false → s.mill.now < (s.part p).gov.leaseExpiry → (s.part p).rebind.inProgress = false →
        ((s.weir p).awaitsCommit = false →
          ∃ t : State, exec (.release rq) s = .next t ∧ (t.part p).state = .running ∧ (t.part p).gov.cmdStatus = 0 ∧
            (t.part p).gov.byLease = false ∧ (t.part p).gov.byPin = false ∧ (t.part p).gov.byHalt = false ∧
            (t.part p).gov.byDeadline = false ∧ { t with parts := s.parts, clusters := s.clusters, tiles := s.tiles } = s) ∧
        (∀ e, (s.weir p).awaitsCommit = true → (s.weir p).commitEntry = some e →
          exec (.release rq) s = .next ((status 0).askOutcome p e)))))

/-! ### Compute tiles -/

/-- R74, R85: a running core's store to TOP_LO keeps the lower half; its store to TOP_HI sends the TOP to every addressed tile whose queue
takes it, or stalls the core while an addressed queue is full; a stalled store is sent once there is room, and the core goes on, or stops there
where a HALT came while it stood (R91). A halted or quarantined tile drops what it is sent. A core that does not execute stores nothing.

It rests on choices of the model: log entries 6 and 173. -/
def Obligations.CoreStoresSendTops : Prop :=
  ∀ (s : State) (c : Nat) (w : Word64), s.Canon →
    let sent := fun (u t : State) (top : Top) =>
      (∀ n, n ∈ topTiles c top → (s.tile n).drops = false → t.tile n = { s.tile n with queue := (s.tile n).queue ++ [top] }) ∧
      (∀ n, n ∈ topTiles c top → (s.tile n).drops = true → (t.tile n).queue = (s.tile n).queue ∧
        (t.tile n).dropped = min ((s.tile n).dropped + 1) 0xFFFF) ∧
      (∀ n, n ∉ topTiles c top → t.tile n = s.tile n) ∧
      ((∀ n ∈ topTiles c top, (s.tile n).drops = false) → { t with tiles := s.tiles } = u)
    ((s.cluster c).executes = true →
      exec (.topLoStore c w) s = .next (s.setCluster c { s.cluster c with topLo := w }) ∧
      (s.queuesTake c (w ++ (s.cluster c).topLo) = false →
        exec (.topHiStore c w) s = .next (s.setCluster c { s.cluster c with stalled := some (w ++ (s.cluster c).topLo) })) ∧
      (s.queuesTake c (w ++ (s.cluster c).topLo) = true →
        ∃ t : State, exec (.topHiStore c w) s = .next t ∧ sent s t (w ++ (s.cluster c).topLo))) ∧
    ((s.cluster c).executes = false → exec (.topLoStore c w) s = .next s ∧ exec (.topHiStore c w) s = .next s) ∧
    (∀ top, (s.cluster c).stalled = some top →
      (s.queuesTake c top = false → exec (.topEnqueue c) s = .next s) ∧
      (s.queuesTake c top = true → ∃ t : State, exec (.topEnqueue c) s = .next t ∧
        sent (s.setCluster c { s.cluster c with
          stalled := none, haltAt := none, halted := (s.cluster c).halted || (s.cluster c).haltAt.isSome
          pc := (s.cluster c).haltAt.getD (s.cluster c).pc }) t top)) ∧
    ((s.cluster c).stalled = none → exec (.topEnqueue c) s = .next s)

/-- R73, R88, R91: what happens to a control core. A running core that traps stops with its cause and pc and raises 0x0206; TILE_CORE_CTRL
HALT stops a core at its next instruction, a stalled one only after its store, and RESUME lets it go on, trapped or not; a core's RESUME store runs
the halted tiles it names again and drops its external interrupt once no tile of the cluster is halted; PHASE_DONE marks the core's phase as
done, and the last core's store completes the phase.

R73, Table 03.5: what a core reaches by its loads and stores. A store to TOP_LO, TOP_HI, PHASE_DONE or RESUME is the command of that name; DONE_j
and FAULT_j read what the tile has completed and its last fault, and a store leaves them; what a core stores into its data memory or the cluster
SRAM it reads back; an access outside the map traps.

It rests on choices of the model: log entries 6, 79 and 169. -/
def Obligations.ControlCoresStopAndResume : Prop :=
  (∀ (s : State) (c : Nat) (pc : Word64), s.Canon →
    let live := (s.cluster c).running = true ∧ (s.cluster c).halted = false ∧ (s.cluster c).trapped = false
    (∀ cause, live → exec (.coreTrap c cause pc) s = .next ((s.setCluster c { s.cluster c with
        running := false, trapped := true, cause := cause % 65536, pc := pc, stalled := none, haltAt := none
        halted := (s.cluster c).haltAt.isSome }).raise
          { code := 0x0206, loc := s.locCluster c 7, severity := 0, addr := some pc.toNat })) ∧
    (∀ cause, ¬ live → exec (.coreTrap c cause pc) s = .next s) ∧
    (∀ rq, s.mayP rq 0x60038 = true → (s.sel rq).tile < 512 → c = (s.sel rq).tile / 8 →
      ((s.cluster c).stalled = none → exec (.coreHalt rq pc) s = .next (s.setCluster c { s.cluster c with
        halted := true
        pc := if (s.cluster c).running && !(s.cluster c).halted && !(s.cluster c).trapped then pc else (s.cluster c).pc })) ∧
      ((s.cluster c).stalled ≠ none → exec (.coreHalt rq pc) s = .next (s.setCluster c { s.cluster c with haltAt := some pc })) ∧
      exec (.coreResume rq) s = .next (s.setCluster c { s.cluster c with halted := false, haltAt := none })) ∧
    (∀ rq, s.mayP rq 0x60038 = false ∨ 512 ≤ (s.sel rq).tile →
      exec (.coreHalt rq pc) s = .next s ∧ exec (.coreResume rq) s = .next s) ∧
    (∀ mask, (s.cluster c).executes = true →
      ∃ t : State, exec (.resumeStore c mask) s = .next t ∧
        (∀ j, j < 8 → t.tile (8 * c + j) = if bit mask j then { s.tile (8 * c + j) with
            halted := false, quarCause := if (s.tile (8 * c + j)).quarCause = .ecc then .none else (s.tile (8 * c + j)).quarCause }
          else s.tile (8 * c + j)) ∧
        (t.cluster c).extInt = ((s.cluster c).extInt && (List.range 8).any fun j => (t.tile (8 * c + j)).halted) ∧
        { t with tiles := s.tiles, clusters := s.clusters } = s) ∧
    (∀ p k, s.clusterPart c = some p → (s.cluster c).executes = true → ((s.part p).gov.phases .running).head? = some k →
      ∃ t : State, exec (.phaseDone c) s = .next t ∧ (t.cluster c).phaseDone = true ∧
        ((s.partClusters p).all (fun x => x == c || (s.cluster x).phaseDone) = true → ((t.part p).gov.run k).status = .complete))) ∧
  (∀ (s : State) (c : Nat) (pc w : Word64), s.Canon → (s.cluster c).executes = true →
    (exec (.topLoStore c w) s = .next (s.coreStore c 0x01000000 pc (leBytes 8 w.toNat)) ∧
      exec (.topHiStore c w) s = .next (s.coreStore c 0x01000008 pc (leBytes 8 w.toNat)) ∧
      exec (.phaseDone c) s = .next (s.coreStore c 0x01000200 pc (leBytes 8 w.toNat)) ∧
      exec (.resumeStore c (w.toNat % 256)) s = .next (s.coreStore c 0x01000400 pc (leBytes 8 w.toNat))) ∧
    (∀ j, j < 8 →
      s.coreLoad c (0x01000100 + 8 * j) 8 = .value ((s.tile (8 * c + j)).topCount % 2 ^ 64) ∧
      s.coreLoad c (0x01000300 + 8 * j) 8 =
        .value ((s.tile (8 * c + j)).faultCode % 2 ^ 16 + 2 ^ 16 * ((s.tile (8 * c + j)).faultOpcode % 2 ^ 8)) ∧
      ∀ bs, bs.length = 8 → s.coreStore c (0x01000100 + 8 * j) pc bs = s ∧ s.coreStore c (0x01000300 + 8 * j) pc bs = s) ∧
    (∀ a bs, (0x40000 ≤ a ∧ a + bs.length ≤ 0x80000) ∨ (0x10000000 ≤ a ∧ a + bs.length ≤ 0x11000000) →
      (s.coreStore c a pc bs).coreLoad c a bs.length = .value (ofLe bs)) ∧
    (∀ a bs, bs ≠ [] → (0x80000 ≤ a ∧ a < 0x01000000) ∨ (0x01000408 ≤ a ∧ a < 0x10000000) ∨ 0x11000000 ≤ a →
      (∃ cause, s.coreLoad c a bs.length = .trap cause) ∧
      ∃ cause, s.coreStore c a pc bs = s.coreTrap c cause pc ∧ exec (.coreTrap c cause pc) s = .next (s.coreStore c a pc bs)))

/-- R85, R75: the head of a tile's queue is passed to its unit where the unit accepts it and no WAIT, FENCE or Toll call holds the queue:
it is the tile's last flight, takes the SR context as it stands and leaves its own behind. A NOP is complete at once.

R82, R83, R84, R121, R162: WAIT, SIGNAL, FENCE, SR_SET and the Toll calls start by taking their unit; TRANSFER_COMPLETE,
VEC_COMPLETE, FENCE_COMPLETE and SR_KEY_READY end the TOP at work, which TILE_TOP_COUNT then counts. SR_SET of COUNT 0 and TOLL_ALLOC of
SIZE 0 complete at once.

R85: a unit holds at most one TOP that has not started beside one running, and the transfer unit at most two in all.

It rests on choices of the model: log entries 69 and 72. -/
def Obligations.TopsAreIssuedAndTakeTheirUnit : Prop :=
  (∀ (s : State) (n : Nat) (top : Top) (rest : List Top), s.Canon → (s.tile n).queue = top :: rest → (s.tile n).issues = true →
    s.pwr.stopped = false →
    (s.tile n).flight.any Flight.holdsQueue = false → (topUnits top).all (unitAccepts (s.tile n).flight) = true →
    let v := s.part ((s.tilePart n).getD 16)
    let u := s.setTile n { s.tile n with
      queue := rest, seq := (s.tile n).seq + 1
      flight := (s.tile n).flight ++ [{ top := top, sr := (s.tile n).sr, seq := (s.tile n).seq }]
      sr := srAfter v.seed v.gov.phaseStep (s.tile n).sr top }
    (s.startable n rowless = none → topUnits top ≠ [] → exec (.topDispatch n) s = .next u) ∧
    (topOpcode top = 0 → topZeroFrom top 16 = true →
      exec (.nop n) s = .next (u.finishTop n (s.tile n).flight.length) ∧
      ((u.finishTop n (s.tile n).flight.length).tile n).topCount = (s.tile n).topCount + 1 ∧
      ((u.finishTop n (s.tile n).flight.length).tile n).queue = rest)) ∧
  (∀ (s : State) (n i : Nat) (f : Flight),
    (s.ready n (fun top => topOpcode top == 12) i f → exec (.wait n) s = .next (s.setPhase n i .running)) ∧
    (s.ready n (fun top => topOpcode top == 13) i f → exec (.signal n) s = .next (s.setPhase n i .running)) ∧
    (s.ready n (fun top => topOpcode top == 14) i f → exec (.fence n) s = .next (s.setPhase n i .running)) ∧
    (s.ready n (fun top => topOpcode top == 10) i f → tollAllocSize f.top ≠ 0 →
      exec (.tollAlloc n) s = .next { s.setPhase n i .running with tollQueue := s.tollQueue ++ [.tile n] }) ∧
    (s.ready n (fun top => topOpcode top == 10) i f → tollAllocSize f.top = 0 →
      exec (.tollAlloc n) s = .next ((s.spaceWrite n 0 (tollAllocResult f.top) (leBytes 8 0)).finishTop n i)) ∧
    (s.ready n (fun top => topOpcode top == 11) i f →
      exec (.tollFree n) s = .next { s.setPhase n i .running with tollQueue := s.tollQueue ++ [.tile n] }) ∧
    (s.ready n isSrSet i f → (vecTop f.top).count ≠ 0 →
      exec (.srSet n) s = .next ((s.setPhase n i .running).setCluster (n / 8)
        { s.cluster (n / 8) with keyQueue := (s.cluster (n / 8)).keyQueue ++ [n] })) ∧
    (s.ready n isSrSet i f → (vecTop f.top).count = 0 → exec (.srSet n) s = .next (s.finishTop n i)) ∧
    (s.atWork n (fun top => topOpcode top == 2 || topOpcode top == 3) i f →
      exec (.transferComplete n .ok) s = .next (s.finishTop n i)) ∧
    (s.atWork n (fun top => (topOpcode top == 8 && !isSrSet top) || topOpcode top == 9) i f →
      exec (.vecComplete n .ok) s = .next (s.finishTop n i)) ∧
    (s.atWork n (topOpcode · == 14) 0 f → exec (.fenceComplete n) s = .next (s.finishTop n 0)) ∧
    (∀ c rest, (s.cluster c).keyQueue = n :: rest → s.atWork n isSrSet i f →
      exec (.srKeyReady c) s = .next ((s.setCluster c { s.cluster c with keyQueue := rest }).finishTop n i)) ∧
    (s.Canon → ((s.finishTop n i).tile n).topCount = (s.tile n).topCount + 1 ∧
      ((s.finishTop n i).tile n).flight = (s.tile n).flight.eraseIdx i)) ∧
  (∀ (s : State) (n : Nat) (u : TileUnit), s.Canon →
    let held := fun (x : Tile) => (x.flight.filter fun f => (topUnits f.top).contains u).length
    let waits := fun (x : Tile) => (x.flight.filter fun f => (topUnits f.top).contains u && !f.done).length
    let runs := fun (x : Tile) => x.flight.any fun f => (topUnits f.top).contains u && f.done
    let bound := fun (x : Tile) => waits x ≤ 2 ∧ (runs x = true → waits x ≤ 1) ∧ (u = .transfer → held x ≤ 2)
    bound (s.tile n) → ∃ t : State, exec (.topDispatch n) s = .next t ∧ bound (t.tile n))

/-- R148, R80, R121, R158: every VEC and TIN_CVT runs on its tile under the SR context of its place in the queue, leaves the tile's
own SR context, owes the statistics block what it counts (R144), and is at work until VEC_COMPLETE; COUNT = 0 completes at once as a no-op.

R108, R157: a CVT of bf16 or FP16 elements to FP32 keeps every value, whatever its rounding, and counts none of them.

It rests on choices of the model: log entries 69, 72 and 168. -/
def Obligations.VectorCommandsRunTheirOperation : Prop :=
  (∀ (s : State) (n i : Nat) (f : Flight),
    let x := s.tile n
    let ran := fun r : Tile × StatAdd =>
      ((s.setTile n { r.1 with sr := x.sr }).setPhase n i .running).oweStats n f r.2
    (∀ e ∈ vecRows, s.ready n (fun top => topOpcode top == 8 && (vecTop top).vop == e.1) i f →
      ((vecTop f.top).count = 0 → exec (e.2 n) s = .next (s.finishTop n i)) ∧
      ((vecTop f.top).count ≠ 0 → exec (e.2 n) s = .next (ran (runVec (s.tileEnv n) (x.under f) f.top)))) ∧
    (s.ready n (fun top => topOpcode top == 9) i f →
      ((tinTop f.top).count = 0 → exec (.tinCvt n) s = .next (s.finishTop n i)) ∧
      ((tinTop f.top).count ≠ 0 → exec (.tinCvt n) s = .next (ran (runTinCvt (x.under f) f.top))))) ∧
  (∀ (y : VecTop) (rnd : Rnd) (e : Nat), y.fmt = 1 ∨ y.fmt = 2 → bits y.imm 0 4 = 0 → e < 2 ^ 16 →
    let c := cvtElem y rnd e
    c.ovf = false ∧ c.nan = false ∧ fp32Fmt.decode c.bits = fmtElem y.fmt 0 e)

/-- R150: the copy and integer operations act on whole 32-bit cells, modulo 2³², row by row: every cell of every row the VEC names takes
the operation's value of the source cells, and every cell of another register stays.

R149, R150, R153: ADD, SUB, MUL, FMA and FNMA in FP32 round the exact value of the elements once, by the VEC's rounding; every
element is computed from the registers as the VEC finds them.

It rests on choices of the model: log entry 69. -/
def Obligations.VectorElementsAreComputed : Prop :=
  (∀ e ∈ cellRows, ∀ (s : State) (n i : Nat) (f : Flight), s.Canon →
    s.ready n (fun top => topOpcode top == 8 && (vecTop top).vop == e.1) i f →
    let x := vecTop f.top
    x.count ≠ 0 → x.axis = 0 → x.first + x.count ≤ 64 →
    ∃ t : State, exec (e.2.1 n) s = .next t ∧
      (∀ r j, x.first ≤ r → r < x.first + x.count → j < 64 →
        (t.tile n).cell x.dst r j = e.2.2 ((s.tile n).cell x.src1 r j) ((s.tile n).cell x.src2 r j) (bits x.imm 0 32)) ∧
      (∀ q r j, q ≠ x.dst → r < 64 → j < 64 → (t.tile n).cell q r j = (s.tile n).cell q r j) ∧
      { t with tiles := s.tiles } = s) ∧
  (∀ e ∈ roundedRows, ∀ (s : State) (n i : Nat) (f : Flight), s.Canon →
    s.ready n (fun top => topOpcode top == 8 && (vecTop top).vop == e.1) i f →
    let x := vecTop f.top
    let y := (s.tile n).under f
    x.count ≠ 0 → x.axis = 0 → x.fmt = 0 → x.first + x.count ≤ 64 →
    ∃ t : State, exec (e.2.1 n) s = .next t ∧
      ∀ k j, k < x.count → j < 64 →
        (t.tile n).cell x.dst (x.first + k) j =
          BitVec.ofNat 32 (fp32Fmt.narrow (y.rnd x.rnd (64 * k + j))
            (e.2.2 (fp32Fmt.decode ((s.tile n).cell x.src1 (x.first + k) j).toNat)
              (fp32Fmt.decode ((s.tile n).cell x.src2 (x.first + k) j).toNat)
              (fp32Fmt.decode ((s.tile n).cell x.src3 (x.first + k) j).toNat))).bits)

/-- R78: LOAD and STORE move rows. LOAD fills the cells it names with the little-endian words of its memory rows, or with TR the element columns
with the elements of its rows, and changes no memory; STORE writes the rows' cells to memory and changes no register. COUNT = 0 completes at
once.

It rests on choices of the model: log entries 69 and 72. -/
def Obligations.TransfersMoveRows : Prop :=
  ∀ (s : State) (n i : Nat) (f : Flight), s.Canon →
    let d := xferTop f.top
    (s.ready n (fun top => topOpcode top == 2) i f →
      (d.count = 0 → exec (.load n) s = .next (s.finishTop n i)) ∧
      (d.count ≠ 0 →
        ∃ t : State, exec (.load n) s = .next t ∧
          (d.tr = false → ∀ k j, k < d.count → j < d.cells →
            (t.tile n).cell d.reg (d.first + k) (d.cell0 + j) =
              BitVec.ofNat 32 (field (s.spaceRead n d.space (d.offset + k * d.stride) d.rowBytes) (4 * j) 4)) ∧
          (d.tr = true → ∀ k j, k < d.count → j < 64 →
            (t.tile n).elem d.width d.reg j (d.first + k) =
              bits (ofLe (s.spaceRead n d.space (d.offset + k * d.stride) d.rowBytes)) (d.width * j) d.width) ∧
          (t.tile n).scratch = (s.tile n).scratch ∧ (∀ q, q ≠ n → t.tile q = s.tile q) ∧ { t with tiles := s.tiles } = s)) ∧
    (s.ready n (fun top => topOpcode top == 3) i f →
      (d.count = 0 → exec (.store n) s = .next (s.finishTop n i)) ∧
      (d.count ≠ 0 → exec (.store n) s = .next ((s.storeRows n d).setPhase n i .running) ∧
        ((s.storeRows n d).tile n).regs = (s.tile n).regs ∧
        (d.count = 1 → s.storeRows n d = s.spaceWrite n d.space d.offset ((s.tile n).storeRow d 0)) ∧
        (d.space ≤ 1 → d.rowBytes ≤ d.stride → ∀ k, k < d.count →
          (s.storeRows n d).spaceRead n d.space (d.offset + k * d.stride) d.rowBytes = (s.tile n).storeRow d k)))

/-- R79, R131, R142: the drains. ROWS = 0 completes as a no-op and leaves the group; a drain runs its stages and is at work until
DRAIN_COMPLETE, with which its group takes its new state; DRAIN_DISCARD frees its group and is complete.

R129: the group's new state is FREE under ACC_CLOSE, OPEN under ACC_OPEN, else CLOSED.

R141: a drain whose block add met an exponent mismatch completes, is counted, and halts its tile with 0x0301.

It rests on choices of the model: log entries 69, 74 and 170. -/
def Obligations.DrainsRunAndEnd : Prop :=
  ∀ (s : State) (n i : Nat) (f : Flight),
    (s.ready n (fun top => topOpcode top == 4) i f →
      exec (.drainReg n) s = .next (if (drainTop f.top).rows = 0 then s.finishTop n i else s.runDrain n i f)) ∧
    (s.ready n (fun top => topOpcode top == 5) i f →
      exec (.drainMem n) s = .next (if (drainTop f.top).rows = 0 then s.finishTop n i else s.runDrain n i f)) ∧
    (s.ready n (fun top => topOpcode top == 6) i f →
      exec (.drainTin n) s = .next (if (drainTop f.top).rows = 0 then s.finishTop n i else s.runDrain n i f)) ∧
    (s.ready n (fun top => topOpcode top == 7) i f →
      exec (.drainDiscard n) s = .next ((s.endDrainGroup n f).finishTop n i)) ∧
    (s.atWork n (fun top => topOpcode top == 4 || topOpcode top == 5 || topOpcode top == 6) i f →
      (f.mismatch = false → exec (.drainCompleteTop n .ok) s = .next ((s.endDrainGroup n f).finishTop n i)) ∧
      (f.mismatch = true → s.Canon → ∃ t : State, exec (.drainCompleteTop n .ok) s = .next t ∧ (t.tile n).halted = true ∧
        (t.tile n).topCount = (s.tile n).topCount + 1 ∧ (t.cluster (n / 8)).extInt = true ∧
        ((s.tile n).owed = [] → (drainTop f.top).accClose = false → (t.tile n).faultCode = 0x0301 ∧ (t.tile n).faultTop = f.top))) ∧
    (s.Canon →
      let d := drainTop f.top
      let g := ((s.tile n).arr d.array).group d.group
      (((s.endDrainGroup n f).tile n).arr d.array = ((s.tile n).arr d.array).setGroup d.group
        (if d.accClose then {} else if d.accOpen then { g with state := .opened } else { g with state := .closed })) ∧
      ((s.endDrainGroup n f).tile n).arr (!d.array) = (s.tile n).arr (!d.array) ∧
      ({} : Group).state = .free)

/-- R70, R71, R76, R77: an MMA that loads weights loads them first and then streams its vectors into its groups; one that loads none
streams at once; one whose arrays all have nothing to do completes as a no-op. When its last results are in, its groups close where
ACC_CLOSE says so and it is complete.

R383, R385: a hallmark column check passes exactly where the two residues name one value modulo 65,535 or the array's checker is retired; a failed
one leaves the MMA held and its tile in arbitration.

It rests on choices of the model: log entries 69 and 190. -/
def Obligations.MatrixProductsLoadStreamAndClose : Prop :=
  ∀ (s : State) (n i : Nat) (f : Flight),
    (s.ready n isMma i f →
      (mmaStreams f.top = false → exec (.mma n .ok) s = .next (s.finishTop n i)) ∧
      (mmaStreams f.top = true → mmaLoads f.top = true →
        exec (.mma n .ok) s = .next ((s.runUnder n f fun x => x.mmaLoad f.top).setPhase n i .loading)) ∧
      (mmaStreams f.top = true → mmaLoads f.top = false →
        exec (.mma n .ok) s = .next ((s.runUnder n f fun x => x.mmaStream f.top).setPhase n i .running))) ∧
    (s.loadingMma n = some i → (s.tile n).flight[i]? = some f → (s.tile n).arbitrating = false →
      exec (.weightLoadDone n .ok) s = .next ((s.runUnder n f fun x => x.mmaStream f.top).setPhase n i .running)) ∧
    (s.atWork n isMma i f →
      exec (.mmaComplete n .ok) s = .next ((s.runUnder n f fun x => x.mmaClose f.top).finishTop n i) ∧
      ∀ b v c xo r, let hw := HwCheck.column b v c xo r
        (r % 65535 = xo % 65535 ∨ ((s.tile n).arr b).checkerRetired = true → exec (.mmaComplete n hw) s = exec (.mmaComplete n .ok) s) ∧
        (s.Canon → r % 65535 ≠ xo % 65535 → ((s.tile n).arr b).checkerRetired = false →
          ∃ t : State, exec (.mmaComplete n hw) s = .next t ∧ ((t.tile n).flight[i]?).map (·.phase) = some .held ∧
            (t.tile n).arbitrating = true ∧ (t.tile n).topCount = (s.tile n).topCount))

/-! ### Sync objects, Toll and the Quern -/

/-- R219, R82, R217: Toll serves the call at the head of its queue. A TOLL_ALLOC that succeeds writes its handle, and for a GRANARY_PIN object
its offset beside it; one that is refused, and a TOLL_FREE that is refused, leave the queue, write their result word (handle 0 and the status)
and are complete; a call that fails counts in MEM_TOLL_FAILS of its partition. A call of a tile with no home context is refused.

R218, R219: a TOLL_FREE whose object no transfer holds is complete with its handle; one whose object is held stays at the head of the queue, which
serves no other call until the transfers end, and FREE_COMPLETE then writes its result word.

R218, R233, R426: a free by handle. MEM_FREE and U_FREE of a current handle take it away at once: no access resolves it again, the
object's generation rises, its status is 0, and its granules wait for the transfers that hold it; a handle that is not current gets
status 0x06 and changes no object; handle 0 takes no action. FREE_COMPLETE returns the granules of an object that nothing holds; the
context that ends then may end with it (R291).

It rests on choices of the model: log entry 109. -/
def Obligations.ObjectsAreAllocatedAndFreed : Prop :=
  (∀ (s : State) (n i p : Nat) (f : Flight) (rest : List TollCall), s.tollQueue = .tile n :: rest → s.tilePart n = some p →
    s.atWork n (fun top => topOpcode top == 10 || topOpcode top == 11) i f →
    let s' : State := { s with tollQueue := rest }
    let failed := fun (u : State) (result status : Nat) =>
      State.finishTop { u.spaceWrite n 0 result (leBytes 8 (status * 2 ^ 32)) with
        tollFails := NatMap.set {} u.tollFails p ((NatMap.get {} u.tollFails p).add 1) } n i
    (∀ x st h u, topOpcode f.top = 10 → s.home p = some x →
      s'.allocate x (clusterDie (tileCluster n)) (tollAllocFlags f.top) (tollAllocSize f.top) = (st, h, u) →
      (st ≠ 0 → u.tilePart n = some p → exec .tollServe s = .next (failed u (tollAllocResult f.top) st)) ∧
      (st = 0 → (u.obj x (handleIndex h)).tier ≠ .granary →
        exec .tollServe s = .next ((u.spaceWrite n 0 (tollAllocResult f.top) (leBytes 8 h)).finishTop n i)) ∧
      (st = 0 → (u.obj x (handleIndex h)).tier = .granary →
        exec .tollServe s = .next (((u.spaceWrite n 0 (tollAllocResult f.top + 8)
          (leBytes 8 (u.objAddr x (u.obj x (handleIndex h)) 0))).spaceWrite n 0 (tollAllocResult f.top) (leBytes 8 h)).finishTop n i))) ∧
    (topOpcode f.top = 10 → s.home p = none →
      exec .tollServe s = .next (failed s' (tollAllocResult f.top) (if (flagsTier (tollAllocFlags f.top)).isNone then 3 else 5))) ∧
    (topOpcode f.top = 11 → s.home p = none → exec .tollServe s = .next (failed s' (tollFreeResult f.top) 6)) ∧
    (∀ x, topOpcode f.top = 11 → s.home p = some x →
      let h := tollFreeHandle f.top
      (s.current x h = none → exec .tollServe s = .next (failed s' (tollFreeResult f.top) 6)) ∧
      (∀ o, s.current x h = some o →
        (s.objBusy x (handleIndex h) o.gen = false → exec .tollServe s =
          .next (((s'.freeIdx x (handleIndex h) 3).spaceWrite n 0 (tollFreeResult f.top) (leBytes 8 h)).finishTop n i)) ∧
        (s.objBusy x (handleIndex h) o.gen = true → s.Canon → ∃ t : State, exec .tollServe s = .next t ∧ t.tollQueue = s.tollQueue ∧
          t.current x h = none ∧ (t.tile n).topCount = (s.tile n).topCount ∧
          ((∀ j g, j ≠ i → (s.tile n).flight[j]? = some g → g.isToll = false) → exec .tollServe t = .next t))))) ∧
  (∀ (s : State) (n i : Nat) (f : PendingFree) (g : Flight) (rest : List TollCall), s.tollQueue = .tile n :: rest →
    (s.tile n).flight.findIdx? (·.phase == .taken) = some i → (s.tile n).flight[i]? = some g →
    s.pendingFrees = [f] → f.origin = 3 → s.objBusy f.ctx f.index f.gen = false →
      exec (.freeComplete f.ctx f.index) s = .next ((((State.spaceWrite { s with pendingFrees := [], tollQueue := rest } n 0
        (tollFreeResult g.top) (leBytes 8 (tollFreeHandle g.top))).finishTop n i)).endStep f.ctx)) ∧
  (∀ (s : State) (rq : Req) (x h : Nat), s.Canon → s.ctxLive x = true → h < 2 ^ 32 →
    (s.mayP rq 0x80010 = true → (s.sel rq).ctx = x →
      exec (.memFree rq 0) s = .next s ∧
      (s.current x h = none → h ≠ 0 →
        exec (.memFree rq h) s = .next { s with mem := { s.mem with freeStatus := 6, freeBusy := s.freeWaits x 0 } }) ∧
      (∀ o, s.current x h = some o →
        ∃ t : State, exec (.memFree rq h) s = .next t ∧ t.mem.freeStatus = 0 ∧ t.current x h = none ∧
          (t.obj x (handleIndex h)).gen = o.gen + 1 ∧ (∀ i, i ≠ handleIndex h → t.obj x i = s.obj x i) ∧
          t.pendingFrees.length = s.pendingFrees.length + (if s.objBusy x (handleIndex h) o.gen then 1 else 0) ∧
          { t with ctxs := s.ctxs, mem := s.mem, pendingFrees := s.pendingFrees } = s)) ∧
    (s.mayU rq x = true → x < 4096 →
      exec (.uFree rq x 0) s = .next s ∧
      (h ≠ 0 → s.current x h = none ∨ handleIndex h = 1 → exec (.uFree rq x h) s = .next (s.setCtx x { s.ctx x with
        uFreeStatus := 6, uFreeBusy := s.freeWaits x 1 })) ∧
      (∀ o, s.current x h = some o → handleIndex h ≠ 1 →
        ∃ t : State, exec (.uFree rq x h) s = .next t ∧ (t.ctx x).uFreeStatus = 0 ∧ t.current x h = none ∧
          (∀ i, i ≠ handleIndex h → t.obj x i = s.obj x i) ∧
          { t with ctxs := s.ctxs, pendingFrees := s.pendingFrees } = s)) ∧
    (∀ f, s.pendingFrees = [f] → f.origin = 0 → s.objBusy f.ctx f.index f.gen = false →
      let t : State := { s with pendingFrees := [], mem := { s.mem with freeBusy := false } }
      exec (.freeComplete f.ctx f.index) s = .next (t.endStep f.ctx) ∧ ((s.ctx f.ctx).ending = 0 → t.endStep f.ctx = t)))

/-- R235, R236: with no collective table loaded every object of the partition is a fence. A control core's signal of value v is applied
where (v − VALUE) mod 2⁶⁴ lies between 1 and 2⁶³ − 1: VALUE becomes v, and no other object's changes. Signals of one sync-unit cycle are applied
in increasing order of that distance (R237): one that comes behind a farther one of its cycle is accepted and leaves VALUE. Any other leaves VALUE
unchanged, counts in SYNC_REGRESS and raises 0x0601. A WAIT of a tile or a host queue ends exactly when its target is satisfied.

It rests on choices of the model: log entry 94. -/
def Obligations.FencesAdvanceAndReleaseWaits : Prop :=
  ∀ (s : State) (p : Nat), s.Canon → (s.weir p).loaded = false → (s.weir p).tbl = {} → (s.weir p).repeatWindow = false →
    (∀ c idx v, s.clusterPart c = some p → idx < (s.part p).map.syncQuota →
      let o := (s.weir p).obj idx
      let ahead := 1 ≤ (v - o.value).toNat ∧ (v - o.value).toNat < 2 ^ 63
      (ahead → ∃ t : State, exec (.syncSignal (.core c) idx v) s = .next t ∧
        (t.weir p).sync = NatMap.set {} (s.weir p).sync idx (s.cycled o v v) ∧ t.syncValue p idx = v ∧
        (∀ j, j ≠ idx → t.syncValue p j = s.syncValue p j) ∧ (∀ q, q ≠ p → t.weir q = s.weir q)) ∧
      (¬ ahead → s.passed o v = true → ∃ t : State, exec (.syncSignal (.core c) idx v) s = .next t ∧
        (∀ j, t.syncValue p j = s.syncValue p j) ∧ (t.weir p).regress = (s.weir p).regress ∧ (∀ q, q ≠ p → t.weir q = s.weir q)) ∧
      (¬ ahead → s.passed o v = false →
        exec (.syncSignal (.core c) idx v) s = .next ((s.setWeir p { s.weir p with regress := (s.weir p).regress.add 1 }).raise
          { code := 0x0601, loc := s.locCluster c 7 }))) ∧
    (∀ n i f, s.tilePart n = some p → s.atWork n (topOpcode · == 12) i f →
      exec (.waitRelease (.tile n)) s =
        .next (if waitOk (s.syncValue p (syncIndex f.top)) (syncValue f.top) then s.finishTop n i else s)) ∧
    (∀ x q e b, (s.ctx x).desc.part = p → ((s.ctx x).queue q).current = some (e, b) → cmdOpcode b = 4 →
      exec (.waitRelease (.queue x q)) s =
        .next (if waitOk (s.syncValue p (field b 8 2)) (BitVec.ofNat 64 (field b 0x10 8)) then s.finishCmd x q 0 0 0 else s))

/-- R193, R199: an ingest copies the shard's Tin56 buffer, as Tin24 blocks, into the GRAD part of the half that its commit word does not
name; a die runs one ingest at a time, that of the shard first in the order of satisfaction. INGEST_COMPLETE marks the shard ingested and signals
FREE_SYNC with the step's target.

R194, R199: a lagged sweep takes the lowest FREE slot of its group (one cut short goes on in its own WRITING slot), which is WRITING until
LAGGED_COMMIT makes it COMMITTED with VERSION = step + 1; with no such slot it waits and raises 0x0404 once. It starts beside no other, and only
for the first group in order at its step.

It rests on choices of the model: log entries 85, 86 and 88. -/
def Obligations.GradientsAndLaggedVersionsAreKept : Prop :=
  ∀ (s : State) (p d x : Nat), s.Canon → s.home p = some x →
    let q := s.quern p d
    (∀ k sh w s1 u, q.shards[k]? = some sh → s.ingestDue p d k sh = true → s.commitWord x q k = (w, none, s1) →
      s1.quernWrites x sh.obj (q.epoch k (!bit w 0) false)
        [((if bit w 0 then sh.offA else sh.offB) + partOffset sh (q.layoutRule sh) .grad,
          padded (ingestBytes (readGran s.granary ((s.part p).map.slices d) sh.gradOff (8 * sh.count))).1)] = (none, u) →
      ∃ t : State, exec (.quernIngest p d k .ok) s = .next t ∧ ((t.quern p d).run k).ingesting = true ∧
        (t.quern p d).ready = (u.quern p d).ready.filter (· != k) ∧
        (∀ j, j ≠ k → (t.quern p d).run j = (u.quern p d).run j) ∧ { t with querns := u.querns } = u) ∧
    (∀ k hw, q.ready.head? ≠ some k ∨ (q.runs.any fun e => e.2.ingesting) = true → exec (.quernIngest p d k hw) s = .next s) ∧
    (∀ k sh, q.shards[k]? = some sh → (q.run k).ingesting = true → s.quernOn p d = true → s.stepOn p (q.shardStep sh) = true →
      let u := s.setQuern p d (q.setRun k { q.run k with ingesting := false, ingested := true })
      ((u.quern p d).run k).ingested = true ∧
      exec (.ingestComplete p d k) s = .next (if sh.freeSync = 0xFFFF then u
        else u.signalled p sh.freeSync (BitVec.ofNat 64 (q.shardStep sh + 1)) (.quern p d))) ∧
    (∀ g, s.laggedDue p d g = true →
      let r := NatMap.get {} q.groups g
      ((∀ k, k < r.nslot → (r.slot k).state = .committed) →
        exec (.laggedSweep p d g .ok) s = .next (if r.slotWaitRaised then s else
          (s.setQuern p d { q with groups := NatMap.set {} q.groups g { r with slotWaitRaised := true } }).raise
            { code := 0x0404, loc := locQuern p d })) ∧
      (∀ k, k < r.nslot →
        ((r.slot k).state = .writing ∧ ∀ j, j < k → (r.slot j).state ≠ .writing) ∨
          ((r.slot k).state = .free ∧ (∀ j, j < r.nslot → (r.slot j).state ≠ .writing) ∧ ∀ j, j < k → (r.slot j).state ≠ .free) →
        ∃ t : State, exec (.laggedSweep p d g .ok) s = .next t ∧
          ((t.quern p d).stopped = false →
            (NatMap.get {} (t.quern p d).groups g).sweeping = some (r.nextStep, k) ∧
            ((NatMap.get {} (t.quern p d).groups g).slot k).state = .writing ∧
            ∀ j, j ≠ k → (NatMap.get {} (t.quern p d).groups g).slot j = r.slot j))) ∧
    (∀ g hw, (∃ e ∈ q.groups, e.2.sweeping ≠ none ∨ e.1 < g ∧ e.2.nextStep ≤ (NatMap.get {} q.groups g).nextStep) →
      exec (.laggedSweep p d g hw) s = .next s) ∧
    (∀ g step k u, (NatMap.get {} q.groups g).sweeping = some (step, k) → s.quernOn p d = true →
      s.flipShards x p d step (q.groupShards g) = (none, u) →
      ∃ t : State, exec (.laggedCommit p d g) s = .next t ∧
        ((NatMap.get {} (t.quern p d).groups g).slot k).state = .committed ∧
        ((NatMap.get {} (t.quern p d).groups g).slot k).version = step + 1 ∧
        (NatMap.get {} (t.quern p d).groups g).newest = step + 1 ∧ (NatMap.get {} (t.quern p d).groups g).nextStep = step + 1 ∧
        (NatMap.get {} (t.quern p d).groups g).sweeping = none)

/-- Table 08.6, R188, R194, R196: the Quern's work of a step. The latch reads the rule sets and latches them for the step; where one that a shard
uses breaks Table 08.5 fault 0x0406 is raised, VALID does not show it and the step's sweep does not start, and the Quern's other work goes on. The
sweep runs over the sweep-class shards in table order; SWEEP_COMPLETE signals SWEPT_SYNC. After the commit point the flip pass writes each commit
word with ACTIVE inverted (kept where the shard was skipped) and VERSION = step + 1; FLIP_COMPLETE shows the new version and goes to the next
step.

It rests on choices of the model: log entries 3 and 85. -/
def Obligations.QuernLatchesSweepsAndFlips : Prop :=
  ∀ (s : State) (p d x : Nat), s.Canon → s.home p = some x →
    let q := s.quern p d
    let step := q.step
    (∀ m u, s.quernOn p d = true → s.stepOn p step = true → q.latchedFor ≠ some step → q.goAwait ≠ step + 1 →
      waitOk (s.syncValue p q.goSync) (BitVec.ofNat 64 (step + 1)) = true → s.readRules x q = (m, none, u) →
      ∃ t : State, exec (.ruleLatch p d) s = .next t ∧ (t.quern p d).latchedFor = some step ∧ (t.quern p d).latched = m ∧
        (t.quern p d).stopped = false ∧ (t.quern p d).runs = q.runs ∧ (t.quern p d).groups = q.groups ∧
        ((t.quern p d).latchBad = true ↔ ∃ k sh, k < 16 ∧ sh ∈ q.shards ∧ sh.ruleset = k ∧ q.ruleOk m k = false) ∧
        (∀ k, k < 16 → bit (t.quern p d).ruleValid k =
          if q.shards.any (·.ruleset == k) then q.ruleOk m k else (NatMap.get {} m k).valid) ∧
        ((t.quern p d).latchBad = true → ∀ hw, exec (.quernSweep p d hw) t = .next t)) ∧
    (∀ u, s.sweepDue p d = true → s.sweepShards x p d step 0 0 q.latched q.sweepClass = (none, u) →
      exec (.quernSweep p d .ok) s = .next (u.setQuern p d { u.quern p d with sweeping := true, sweptRules := (u.quern p d).latched })) ∧
    (q.sweeping = true → s.quernOn p d = true → s.stepOn p step = true →
      let u := s.setQuern p d { q with sweeping := false, swept := true }
      exec (.sweepComplete p d) s = .next (if q.sweptSync = 0xFFFF then u
        else u.signalled p q.sweptSync (BitVec.ofNat 64 (step + 1)) (.quern p d))) ∧
    (∀ k sh w s1 u, q.loaded = true → q.stopped = false → s.pwr.stopped = false → (s.part p).state = .running → q.swept = true →
      q.flipping = false → waitOk (s.syncValue p q.commitSync) (BitVec.ofNat 64 (step + 1)) = true → step < (s.part p).gov.step.toNat →
      q.sweepClass = [(k, sh)] → s.commitWord x q k = (w, none, s1) →
      s1.quernWrites x q.loadedTable 0 [(0x800 + 8 * k, leBytes 8 (pack [(0, 1, flag (if (q.run k).skipped then bit w 0 else !bit w 0)),
        (1, 1, flag (q.run k).skipped), (16, 48, step + 1)]))] = (none, u) →
      exec (.flipPass p d) s = .next (u.setQuern p d { u.quern p d with flipping := true })) ∧
    (q.flipping = true → q.doneSync = 0xFFFF → (s.part p).gov.brakeAfterCommit = false →
      ∃ t : State, exec (.flipComplete p d) s = .next t ∧ (t.quern p d).flipping = false ∧ (t.quern p d).swept = false ∧
        (t.quern p d).step = step + 1 ∧ (t.quern p d).version = (step + 1) % 2 ^ 48 ∧
        (t.quern p d).runs = q.sweepClass.foldl (fun m e => NatMap.set {} m e.1 { await := (q.run e.1).await }) q.runs ∧
        { t with querns := s.querns } = s)

/-! ### Objects and Leat streams -/

/-- R221, R222, R225: a Leat pass. It starts when GO_SYNC satisfies GO_TARGET: the stream latches its descriptor and SEG_BASE, or stops
with 0x0504 where the descriptor breaks Table 09.5. A segment of LEN 0 is issued without moving data; a FILL moves its object's bytes into
the window's slot n mod W, and a SPILL the slot's bytes into its object. A segment that is done signals READY_SYNC with n + 1, a COPY's after its
output offset is written. After the last one GO_TARGET rises by 1 and SEG_BASE by COUNT in the descriptor, SEAL seals a COPY's OPEN Pond
destination (R209), and the stream is idle.

R223, R352: a COPY between two objects of one tier faults before it moves a byte; a FILL with a failing line delivers its other lines and faults.

It rests on choices of the model: log entries 110, 111, 112 and 175. -/
def Obligations.LeatPassesStartIssueAndEnd : Prop :=
  ∀ (s : State) (c k p : Nat), s.Canon → k < 16 → s.clusterPart c = some p → s.pwr.stopped = false →
    (let b := NatMap.getList 0 (s.cluster c).sram (0xFFFC00 + 64 * k) 64
     let d := leatDescOf b
     d.kind ≠ 0 → (s.leat c k).running = false → s.stepRuns p = true → d.goSync < (s.part p).map.syncQuota →
     waitOk (s.syncValue p d.goSync) (BitVec.ofNat 64 d.goTarget) = true →
     (d.ok (s.part p).map.syncQuota = true →
       ∃ t : State, exec (.leatPassStart c k) s = .next t ∧ (t.leat c k).running = true ∧ (t.leat c k).desc = b ∧
         (t.leat c k).nextSeg = d.segBase ∧ (t.leat c k).issued = 0 ∧ (t.leat c k).done = 0 ∧ { t with leats := s.leats } = s) ∧
     (d.ok (s.part p).map.syncQuota = false → exec (.leatPassStart c k) s = .next (s.leatFault c k 0x0504))) ∧
    (let r := s.leat c k
     let d := leatDescOf r.desc
     let n := d.segBase + r.issued
     let w := (s.part p).window
     let slot := d.winOff + n % w * d.slotBytes
     let g := leatSegOf (NatMap.getList 0 (s.cluster c).sram (d.segTable + 16 * r.issued) 16)
     r.running = true →
     (r.stopping = false → r.issued < d.count → d.kind = 1 →
       waitOk (s.syncValue p d.releaseSync) (BitVec.ofNat 64 (n + 1 + 2 ^ 64 - w)) = true →
       (g.len = 0 → exec (.leatSegmentIssue c k) s = .next (s.leatIssued c k [])) ∧
       (∀ x o q u win, g.len ≠ 0 → g.len ≤ d.slotBytes → s.streamObj p (clusterDie c) d.winOff (w * d.slotBytes) = some win →
         g.src = 0 → g.coded = 0 → s.home p = some x → s.checkObj x g.handle g.off g.len .leatRead = .ok o →
         s.segRead x g.handle o g.off g.len = (.ok q, u) →
         let filled := u.fillSlot p c slot q.runs
         (q.fail = none → exec (.leatSegmentIssue c k) s = .next (filled.leatIssued c k (win :: q.holds)) ∧
           ((filled.leatIssued c k (win :: q.holds)).leat c k).issued = (u.leat c k).issued + 1) ∧
         (∀ f, q.fail = some f → exec (.leatSegmentIssue c k) s = .next (filled.leatFault c k f.1 f.2)))) ∧
     (r.stopping = false → r.issued < d.count → d.kind = 2 →
       waitOk (s.syncValue p d.releaseSync) (BitVec.ofNat 64 (n + 1)) = true →
       (g.len = 0 → g.src = 0 → g.coded = 0 → exec (.leatSegmentIssue c k) s = .next (s.leatIssued c k [])) ∧
       (∀ x o u win, g.len ≠ 0 → g.len ≤ d.slotBytes → s.streamObj p (clusterDie c) d.winOff (w * d.slotBytes) = some win →
         g.src = 0 → g.coded = 0 → s.home p = some x → s.checkObj x g.handle g.off g.len .hbmWrite = .ok o →
         s.writeObj x o g.off (readGran s.granary ((s.part p).map.slices (clusterDie c)) slot g.len) = (none, u) →
         exec (.leatSegmentIssue c k) s = .next (u.leatIssued c k [win, (x, g.handle)]))) ∧
     (r.stopping = false → r.issued < d.count → d.kind = 3 → r.done = r.issued → g.bad = false → g.src = 0 → g.len ≠ 0 →
       ∀ x a o, s.home p = some x → s.current x d.dst = some a → s.current x g.handle = some o → a.tier = o.tier →
         exec (.leatSegmentIssue c k) s = .next (s.leatFault c k 0x0504)) ∧
     (r.done < r.issued →
       let u := if d.copy then s.setCluster c { s.cluster c with
           sram := NatMap.setList 0 (s.cluster c).sram (d.outTable + 8 * r.done) (leBytes 8 r.segOff) }
         else s
       exec (.leatSegmentDone c k) s = .next (((u.setLeat c k { r with done := r.done + 1, holds := r.holds.drop 1 }).signalled p d.readySync
         (BitVec.ofNat 64 (d.segBase + r.done + 1)) (.leat c k)).modLeat c k fun r =>
           if r.stopping && decide (r.issued ≤ r.done) then { r with running := false, stopping := false, holds := [] } else r)) ∧
     (r.stopping = false → d.count ≤ r.done →
       ∃ t : State, exec (.leatPassEnd c k) s = .next t ∧ (t.leat c k).running = false ∧
         NatMap.getList 0 (t.cluster c).sram (0xFFFC00 + 64 * k + 0x18) 8 = leBytes 8 (d.goTarget + 1) ∧
         NatMap.getList 0 (t.cluster c).sram (0xFFFC00 + 64 * k + 0x20) 8 = leBytes 8 (d.segBase + d.count) ∧
         (d.copy = false → { t with leats := s.leats, clusters := s.clusters } = s) ∧
         (∀ x o, d.copy = true → d.seal = true → s.home p = some x → s.current x d.dst = some o → o.tier = .pond → o.state = .opened →
           (t.obj x (handleIndex d.dst)).state = .sealed)))

/-! ### Tables of the die, collectives and the Weir -/

/-- R202, R205, R239, R240: QRN_CMD and WEIR_CMD. LOAD and UNLOAD act only while the partition is ARMED or BRAKED, else their status is
0x02 and nothing else changes. QRN UNLOAD clears the Quern's registers; a shard table that breaks a check is refused with that check's
status. A collective table that passes the checks comes into force with every sync object an object of VALUE alone, and the arrivals on its counters
are then looked at; UNLOAD leaves no table.

R269, R272: READMIT notes its domain at the fleet root alone. PROMOTE makes the newest slot of the MIRROR object whose trailer matches a SEALED
POND_RO object, and with no such slot its status is 0x0E.

It rests on choices of the model: log entries 84 and 95. -/
def Obligations.TablesLoadWhileArmedOrBraked : Prop :=
  ∀ (s : State) (rq : Req) (p d : Nat), s.Canon → (s.sel rq).part? = some p → (s.sel rq).die? = some d →
    let idle := (s.part p).state = .armed ∨ (s.part p).state = .braked
    (s.mayP rq 0x70008 = true → (s.quern p d).cmdBusy = false →
      (¬ (idle ∧ (s.quern p d).idle = true) →
        exec (.qrnLoad rq) s = .next ((s.setQuern p d { s.quern p d with cmdStatus := 2 }).queueIngests p) ∧
        exec (.qrnUnload rq) s = .next (s.setQuern p d { s.quern p d with cmdStatus := 2 })) ∧
      (idle → (s.quern p d).idle = true →
        (∀ st tb u, st ≠ 0 → s.checkShardTable p d (s.quern p d).table = (st, tb, none, u) →
          exec (.qrnLoad rq) s = .next ((u.setQuern p d { u.quern p d with cmdStatus := st }).queueIngests p)) ∧
        (∀ tb u x, s.checkShardTable p d (s.quern p d).table = (0, tb, none, u) → s.home p = some x →
          let step := (s.part p).gov.step.toNat
          let ep := if tb.shards.any (·.lagged) then u.takeEpoch (s.ctxKid x) else (0, u)
          let w := ep.2.quernWrites x (s.quern p d).table 0 [(0x800, seedWords tb step)]
          let z := (tb.shards.zipIdx.map fun e => (e.2, e.1)).foldl (fun z e => Seeding.shard z x p tb ep.1 e) { s := w.2, fail := w.1 }
          z.fail = none →
          ∃ t : State, exec (.qrnLoad rq) s = .next t ∧ (t.quern p d).loaded = true ∧ (t.quern p d).cmdStatus = 0 ∧
            (t.quern p d).shards = tb.shards ∧ (t.quern p d).loadedTable = (s.quern p d).table ∧ (t.quern p d).step = step ∧
            (t.quern p d).stopped = false ∧ (t.quern p d).groups = seedGroups tb step ep.1) ∧
        (∃ t : State, exec (.qrnUnload rq) s = .next t ∧ (t.quern p d).loaded = false ∧ (t.quern p d).shards = [] ∧
          (t.quern p d).version = 0 ∧ (t.quern p d).step = 0 ∧ (t.quern p d).skips.total = (s.quern p d).skips.total ∧
          { t with querns := s.querns, ctxs := s.ctxs } = s))) ∧
    (s.mayP rq 0x20008 = true → (s.weir p).cmdBusy = false →
      (¬ idle →
        exec (.weirLoad rq) s = .next (s.setWeir p { s.weir p with cmdStatus := 2 }) ∧
        exec (.weirUnload rq) s = .next (s.setWeir p { s.weir p with cmdStatus := 2 })) ∧
      (idle →
        (∀ tb u, s.checkCollTable p = (0, tb, none, u) →
          ∃ v : Weir, exec (.weirLoad rq) s = .next (((u.dropColls p).setWeir p v).barriers p) ∧ v.loaded = true ∧ v.tbl = tb.table ∧
            v.members = 2 ^ tb.table.replicas - 1 ∧ v.colls = [] ∧
            v.sync = tb.table.counters.foldl (fun m e => NatMap.modify {} m e.index fun o => { o with recheck := true })
              (NatMap.mapVals {} (fun _ o => { value := o.value }) (u.weir p).sync)) ∧
        (∃ t : State, exec (.weirUnload rq) s = .next t ∧ (t.weir p).loaded = false ∧ (t.weir p).tbl = {} ∧
          (t.weir p).table = 0 ∧ (t.weir p).argHandle = 0 ∧ (t.weir p).argDomain = 0 ∧ (t.weir p).diffValid = false ∧
          (t.weir p).assayFails.live = 0 ∧ (t.weir p).late.live = 0 ∧ (t.weir p).eccAborts.live = 0 ∧ (t.weir p).regress = (s.weir p).regress ∧
          (t.weir p).sync = NatMap.mapVals {} (fun _ o => { value := o.value }) (s.weir p).sync ∧
          { t with weirs := s.weirs, sec := s.sec, ports := s.ports, out := s.out } = s)) ∧
      ((s.weir p).fleetRoot = false → exec (.readmit rq) s = .next (s.setWeir p { s.weir p with cmdStatus := 0x0F })) ∧
      ((s.weir p).fleetRoot = true →
        ∃ t : State, exec (.readmit rq) s = .next t ∧ (s.weir p).argDomain ∈ (t.weir p).readmit ∧ { t with weirs := s.weirs } = s) ∧
      (∀ x, s.home p = some x →
        (s.current x (s.weir p).argHandle = none → exec (.promote rq) s = .next (s.setWeir p { s.weir p with cmdStatus := 3 })) ∧
        (∀ o c a b u v, s.current x (s.weir p).argHandle = some o →
          (s.weir p).tbl.colls.find? (fun c => c.kind == 8 && c.dst == (s.weir p).argHandle) = some c → o.flags = 0x14 →
          2 * c.piece ≤ o.size → ((s.quern p c.die).mirrorLayout).2 + 64 ≤ c.piece →
          s.mirrorVersion p x o c 0 = (a, u) → u.mirrorVersion p x o c 1 = (b, v) →
          let chosen := fun k => exec (.promote rq) s = .next ((v.setWeir p { v.weir p with cmdStatus := 0 }).setObj x
            (handleIndex (s.weir p).argHandle) { o with
              flags := 0x04, state := .sealed, base := o.base + k * c.piece, size := c.piece, epoch := o.slotEpoch k, epochB := 0 })
          (a = none → b = none → exec (.promote rq) s = .next (v.setWeir p { v.weir p with cmdStatus := 0x0E })) ∧
          (∀ m, a = some m → (∀ n, b = some n → n ≤ m) → chosen 0) ∧
          (∀ n, b = some n → (∀ m, a = some m → m < n) → chosen 1))))

/-- R241, R256, R259, R282: collectives and their packets. A collective whose window is open and whose IN_SYNC satisfies GOV_STEP + 1
starts. A chunk of another step, or of a domain that is no member, or of a closed window is discarded and counted, and its credit is owed; any other
is taken, or kept until its window is open; credits come back; a NACK resends the chunk it names, which waits where no credit or no window
with a share of a port is there (R52); an ACK of the last chunk of its session is taken; owed credits go back at the latest 2 µs after the oldest,
in a COLL_CREDIT of the next SEQ of the session.

It rests on choices of the model: log entries 98, 99, 176 and 182. -/
def Obligations.CollectivePacketsAreTakenInTheirStep : Prop :=
  ∀ (s : State), s.Canon →
    (∀ p c d, s.collDesc p c = some d → s.collWindow p c = .isOpen → s.coll p c = s.freshColl p c → (s.coll p c).started = false →
      (s.coll p c).complete = false → (s.coll p c).failed = false →
      (d.inSync = 0xFFFF ∨ waitOk (s.syncValue p d.inSync) (s.stepTarget p) = true) →
      let u := (s.setWeir p ((s.weir p).setColl c { s.coll p c with started := true })).startKind p c d
      exec (.collectiveStart p c) s = .next ((((u.flushEarly p c).flushEarly p c).setBlame p c).barriers p)) ∧
    (∀ (k : Pkt) (u : State), s.takePkt k = (true, u) →
      let n := k.session
      let p := k.part
      let e := u.sec.session n
      let h := chunkHead k.payload
      let late := h.step ≠ (u.part p).gov.step.toNat ∨ bit (u.weir p).members h.rep = false ∨ u.collWindow p h.coll = .closed
      (k.type = 0x20 → late →
        ∃ t : State, exec (.collChunk k) s = .next t ∧ t.weir p = { u.weir p with late := (u.weir p).late.add 1 } ∧
          (e.owed < 7 → (t.sec.session n).owed = e.owed + 1 ∧ t.out = u.out) ∧
          { t with weirs := u.weirs, sec := u.sec, ports := u.ports, out := u.out } = u) ∧
      (k.type = 0x20 → ¬ late → exec (.collChunk k) s = .next
        ((((((u.renewColl p h.coll).takeChunk p h.coll n k.payload).flushEarly p h.coll).flushEarly p h.coll)).barriers p)) ∧
      (∀ d, k.type = 0x20 → ¬ late → u.collDesc p h.coll = some d →
        d.senderOk (u.weir p) h = true → (u.coll p h.coll).failed = false → (u.coll p h.coll).complete = false →
        h.key ∉ (u.coll p h.coll).received → (u.coll p h.coll).started = false →
        u.takeChunk p h.coll n k.payload = u.setWeir p ((u.weir p).setColl h.coll { u.coll p h.coll with
          early := (u.coll p h.coll).early ++ [(n, k.payload)] })) ∧
      (k.type = 0x21 → e.waiting = [] →
        ∃ t : State, exec (.collCredit k) s = .next t ∧ (t.sec.session n).credits = e.credits + field k.payload 0 4 ∧
          { t with sec := u.sec } = u) ∧
      (k.type = 0x22 → ∀ b, ((u.coll p (field k.payload 0 2)).sent.find? fun e => e.1 == n &&
          (chunkHead e.2).key == (field k.payload 2 1, field k.payload 3 1, field k.payload 4 1, field k.payload 8 8) &&
          (chunkHead e.2).step == field k.payload 16 8) = some (n, b) → u.collWindow p (field k.payload 0 2) ≠ .closed →
        (0 < e.credits → u.maySend p (chunkHead b).coll = true → exec (.collNack k) s =
          .next (({ u with sec := u.sec.setSession n { e with credits := e.credits - 1 } } : State).sendOn n (.chunk b))) ∧
        (e.credits = 0 ∨ u.maySend p (chunkHead b).coll = false → exec (.collNack k) s =
          .next { u with sec := u.sec.setSession n { e with waiting := e.waiting ++ [b] } })) ∧
      (k.type = 0x23 → ∀ d b, u.collDesc p (field k.payload 0 2) = some d →
        ((u.coll p (field k.payload 0 2)).sent.filter (·.1 == n)).getLast? = some (n, b) →
        (chunkHead b).first = field k.payload 8 8 → (chunkHead b).step = field k.payload 16 8 →
        let c := field k.payload 0 2
        exec (.collAck k) s = .next (((((u.setWeir p ((u.weir p).setColl c { u.coll p c with
          acks := n :: (u.coll p c).acks })).checkData p c d)).setBlame p c).barriers p))) ∧
    (∀ n, let e := s.sec.session n
      (e.owedSince + 2000 ≤ s.mill.now → e.role = 4 → e.owed ≠ 0 →
        exec (.creditReturn n) s = .next (({ s with sec := s.sec.setSession n { e with owed := 0 } } : State).sendOn n (.credit e.owed)) ∧
        (s.portsStopped e.part = false → e.port < 8 → (s.port e.port).mac ≠ 0 → s.portDrops e.port = false →
          ∃ t : State, exec (.creditReturn n) s = .next t ∧ (t.sec.session n).owed = 0 ∧ (t.sec.session n).seqOut = e.seqOut + 1 ∧
            t.out = .ihlak ((IhlakMsg.credit e.owed).head e.part e.peerSession (1 - e.peerSender) e.seqOut) e.port (.credit e.owed) :: s.out ∧ { t with sec := s.sec, out := s.out } = s)) ∧
      (s.mill.now < e.owedSince + 2000 ∨ e.role ≠ 4 ∨ e.owed = 0 → exec (.creditReturn n) s = .next s))

/-- R262, R264, R266, R268, R398: the Weir's events. An arrival at its root whose epoch differs from the node's is discarded and counted in
SYNC_STALE. ROOT_WAIT beats after the first arrival the root releases the epoch ABORT_STEP. A node that is not the root reports its ECC
error to the root, which releases the epoch ABORT_ECC. A shard that too many leaves differ in, or whose versions differ, is decided by the majority
of its roots: equal roots agree and nothing of the shard changes.

R280: a Weir message is read back from the 64 bytes it is sent as.

It rests on choices of the model: log entries 93, 105 and 182. -/
def Obligations.WeirEventsReachTheRoot : Prop :=
  (∀ (s : State), s.Canon →
    (∀ (k : Pkt) (u : State) (e : CounterEntry), k.type = 0x28 → s.takePkt k = (true, u) →
      let m := weirMsgOf k.payload
      let w := u.weir k.part
      w.counterEntry m.index = some e → m.kind = 0 → w.isRoot e = true →
      (w.obj e.index).epoch ≠ m.epoch →
      exec (.weirMessage k) s = .next ((u.setWeir k.part { w with stale := w.stale.add 1 }).barriers k.part)) ∧
    (∀ p i e at0, (s.weir p).counterEntry i = some e → ((s.weir p).obj i).firstArrival = some at0 → (s.weir p).isRoot e = true →
      ((s.weir p).obj i).failed = false →
      exec (.rootWaitExpiry p i) s =
        .next (if at0 + 64 * e.rootWait ≤ s.mill.now then (s.rootDecide p e .abortStep).barriers p else s)) ∧
    (∀ p i e, (s.weir p).counterEntry i = some e →
      (((s.weir p).obj i).failed = false → (s.weir p).isRoot e = false →
        exec (.weirNodeEcc p i) s = .next ((s.countUncorr 2).weirTo p [(s.weir p).rootOf e]
          { kind := 5, index := i, epoch := ((s.weir p).obj i).epoch, replica := (s.weir p).tbl.replica
            position := (s.weir p).tbl.position })) ∧
      (((s.weir p).obj i).failed = false → (s.weir p).isRoot e = true →
        exec (.weirNodeEcc p i) s = .next (((s.countUncorr 2).eccRelease p e).barriers p)) ∧
      (((s.weir p).obj i).failed = true → exec (.weirNodeEcc p i) s = .next (s.countUncorr 2))) ∧
    (∀ p x sh w s1 root u (v : LeafVote), s.home p = some x → (s.quern p v.die).shards[v.shard]? = some sh →
      (NatMap.get {} s.resolves p).busy = true → (v.die, v.shard) ∈ (NatMap.get {} s.resolves p).shards →
      64 < v.leaves ∨ v.versionDiffers = true →
      s.commitWord x (s.quern p v.die) v.shard = (w, none, s1) →
      s1.quernReads x sh.obj ((s.quern p v.die).epoch v.shard (bit w 0) false) [((if bit w 0 then sh.offB else sh.offA) + 8, 8)]
        = ([leBytes 8 root], none, u) → root < 2 ^ 64 → (∀ e ∈ v.twins, e.1 = root) →
      ∃ t : State, exec (.leafRecomputeDone p v) s = .next t ∧
        (v.die, v.shard) ∉ (NatMap.get {} t.resolves p).shards ∧ { t with resolves := u.resolves } = u)) ∧
  (∀ m : WeirMsg, m.kind < 256 → m.flags < 256 → m.index < 65536 → m.epoch < 2 ^ 32 → m.replica < 256 → m.position < 256 → m.blame < 256 →
    m.members < 2 ^ 64 → m.bytes.length = 64 ∧ weirMsgOf m.bytes = m)

/-! ### RoCEv2, queue pairs, command queues and contexts -/

/-- R283 to R286, R306: a request in sequence on a queue pair in RTS whose port it comes in on, on priority 3 (R279). A WRITE of one packet whose
range passes its checks places its bytes, moves the expected number on by 1 and is acknowledged; the bytes of a longer WRITE of the queue object are
held for its last packet; one that fails the checks places nothing, is answered NAK Remote Access Error, raises 0x0704 and stops the queue
pair; a request longer than 2³¹ is NAK Invalid Request. A READ returns the bytes of its range; a repeated READ is answered again and a repeated
WRITE acknowledged again. A marked request is first answered with a CNP. A request on another priority, port or state changes nothing, and one on a
quarantined port is dropped and counted (R303).

R283, R284: the other packets of a queue pair in RTS. An unsupported operation is NAK Invalid Request; an ACK takes away what it
acknowledges and nothing later; a congestion notification halves the rate, which then recovers by 1/8 for every 55 µs without one; a timeout
sends what is unacknowledged again. CONNECT takes a queue pair in RESET to RTS with the numbers of its registers, QP_RESET back.

R57, R303, R306: a packet of a queue pair goes out unless its partition brakes, its port is quarantined or has no MAC address, or its charter's
secure channel is down.

It rests on choices of the model: log entries 121, 122 and 123. -/
def Obligations.RemoteRequestsRunOnQueuePairs : Prop :=
  (∀ (s : State) (r : RoceReq), s.Canon → s.portDrops r.port = false → s.netOpen = true → r.prio = 3 → (s.qp r.qp).state = .rts →
    (s.qp r.qp).onPort = r.port → s.roceBlocked r.qp = false →
    let q := s.qp r.qp
    let v := if r.ecn then s.sendRoce r.qp (.cnp r.qp) else s
    (r.psn = q.expPsn →
      (2 ^ 31 < r.len → r.first = true → exec (.rdmaWrite r) s = .next (v.sendRoce r.qp (.roceAck r.qp r.psn nakInvalid))) ∧
      (2 ^ 31 < r.len → exec (.rdmaRead r) s = .next (v.sendRoce r.qp (.roceAck r.qp r.psn nakInvalid))) ∧
      (∀ o u, r.first = true → r.last = true → 0 < r.len → r.len ≤ 4096 → r.data.length = r.len → handleIndex r.rkey ≠ 1 →
        v.checkObj q.onCtx r.rkey r.va r.len .hbmWrite = .ok o → v.writeObj q.onCtx o r.va r.data = (none, u) → u.qps = v.qps →
        exec (.rdmaWrite r) s = .next ((u.setQp r.qp { q with expPsn := (q.expPsn + 1) % 2 ^ 24, write := none }).sendRoce r.qp
          (.roceAck r.qp r.psn 0))) ∧
      (∀ o u, r.first = true → r.last = true → 0 < r.len → r.len ≤ 4096 → r.data.length = r.len → handleIndex r.rkey = 1 →
        v.checkObj q.onCtx r.rkey r.va r.len .hbmWrite = .ok o →
        (v.setQp r.qp { q with held := [] }).writeObj q.onCtx o r.va r.data = (none, u) →
        ∃ t : State, exec (.rdmaWrite r) s = .next (t.sendRoce r.qp (.roceAck r.qp r.psn 0)) ∧ { t with qps := u.qps } = u ∧
          t.qp r.qp = { q with expPsn := (q.expPsn + 1) % 2 ^ 24, write := none, held := [] }) ∧
      (∀ o, r.first = true → r.last = false → 4096 < r.len → r.len ≤ 2 ^ 31 → r.data.length = 4096 → handleIndex r.rkey = 1 →
        v.checkObj q.onCtx r.rkey r.va r.len .hbmWrite = .ok o →
        ∃ t : State, exec (.rdmaWrite r) s = .next t ∧ (t.qp r.qp).held = r.data ∧
          (t.qp r.qp).write = some (r.rkey, o, r.va + 4096, r.len - 4096) ∧ { t with qps := v.qps } = v) ∧
      (∀ e, r.first = true → 0 < r.len → r.len ≤ 2 ^ 31 → v.checkObj q.onCtx r.rkey r.va r.len .hbmWrite = .error e →
        exec (.rdmaWrite r) s = .next (((v.sendRoce r.qp (.roceAck r.qp r.psn nakAccess)).raise
          { code := 0x0704, loc := locEth (v.ctxPart q.onCtx) q.onPort, severity := 0, ctx := q.onCtx }).qpFails r.qp)) ∧
      (∀ o bs u, 0 < r.len → r.len ≤ 2 ^ 31 → (q.onCtx = 0 ∨ s.chartered (s.ctx q.onCtx).desc.part = false) →
        v.checkObj q.onCtx r.rkey r.va r.len .rdmaRead = .ok o → v.readObj q.onCtx o r.va r.len = (bs, none, u) → u.qps = s.qps →
        exec (.rdmaRead r) s = .next ((u.setQp r.qp { q with expPsn := (q.expPsn + (r.len + 4095) / 4096) % 2 ^ 24 }).sendRoce r.qp
          (.roceData r.qp r.psn bs)))) ∧
    (r.psn ≠ q.expPsn → (q.expPsn + 2 ^ 24 - r.psn) % 2 ^ 24 < 2 ^ 23 →
      exec (.rdmaWrite r) s = .next (v.sendRoce r.qp (.roceAck r.qp r.psn 0)) ∧
      (∀ o bs u, 0 < r.len → r.len ≤ 2 ^ 31 → (q.onCtx = 0 ∨ s.chartered (s.ctx q.onCtx).desc.part = false) →
        v.checkObj q.onCtx r.rkey r.va r.len .rdmaRead = .ok o → v.readObj q.onCtx o r.va r.len = (bs, none, u) →
        exec (.rdmaRead r) s = .next (u.sendRoce r.qp (.roceData r.qp r.psn bs))))) ∧
  (∀ (s : State) (r : RoceReq),
    (s.portDrops r.port = true →
      exec (.rdmaWrite r) s = .next (s.countPortDrop r.port) ∧ exec (.rdmaRead r) s = .next (s.countPortDrop r.port)) ∧
    (s.portDrops r.port = false → s.netOpen = false ∨ r.prio ≠ 3 ∨ (s.qp r.qp).state ≠ .rts ∨ (s.qp r.qp).onPort ≠ r.port →
      exec (.rdmaWrite r) s = .next s ∧ exec (.rdmaRead r) s = .next s)) ∧
  (∀ (s : State) (n : Nat), s.Canon → n < 8192 →
    let q := s.qp n
    (q.state = .rts → s.roceBlocked n = false → s.portDrops q.onPort = false → s.netOpen = true →
      (∀ psn, exec (.roceUnsupported n psn) s = .next (s.sendRoce n (.roceAck n psn nakInvalid))) ∧
      (∀ psn, ∃ t : State, exec (.roceAck n psn 0) s = .next t ∧
        (∀ e, e ∈ (t.qp n).unacked ↔ e ∈ q.unacked ∧ (e.1 + 2 ^ 24 - (psn + 1) % 2 ^ 24) % 2 ^ 24 < 2 ^ 23) ∧
        (t.qp n).retries = 0 ∧ { t with qps := s.qps } = s) ∧
      exec (.roceCnp n) s = .next (s.setQp n { q with rate := q.rate / 2, lastCnp := s.mill.now })) ∧
    (q.state = .rts → s.portDrops q.onPort = true → ∀ psn nak,
      exec (.roceUnsupported n psn) s = .next (s.countPortDrop q.onPort) ∧
      exec (.roceAck n psn nak) s = .next (s.countPortDrop q.onPort) ∧ exec (.roceCnp n) s = .next (s.countPortDrop q.onPort)) ∧
    (q.state = .rts → q.rate < 1 → q.lastCnp + 55000 ≤ s.mill.now →
      exec (.roceRateRecover n) s = .next (s.setQp n { q with rate := min 1 (q.rate + 1 / 8), lastCnp := s.mill.now })) ∧
    (q.state = .rts → q.unacked ≠ [] → q.retries < 7 →
      exec (.roceRetransmit n) s = .next ((s.setQp n { q with retries := q.retries + 1 }).resend n)) ∧
    (∀ rq, s.mayP rq 0xA0070 = true → (s.sel rq).qp = n →
      (q.state = .reset → q.ctx = 0 → q.port < 8 →
        ∃ t : State, exec (.connect rq) s = .next t ∧ (t.qp n).state = .rts ∧ (t.qp n).expPsn = q.rqPsn ∧ (t.qp n).nextPsn = q.sqPsn ∧
          (t.qp n).onPort = q.port ∧ t.eth.cmdStatus = 0) ∧
      (q.state ≠ .reset → exec (.connect rq) s = .next { s with eth := { s.eth with cmdStatus := 2 } }) ∧
      (∃ t : State, exec (.qpReset rq) s = .next t ∧ (t.qp n).state = .reset ∧ (t.qp n).unacked = [] ∧ (t.qp n).ctx = q.ctx ∧
        (t.qp n).port = q.port ∧ (∀ m, m ≠ n → t.qp m = s.qp m) ∧ { t with qps := s.qps, eth := s.eth } = s)) ∧
    (∀ m, s.roceBlocked n = false →
      (q.onCtx ≠ 0 → q.onPart < 16 → (s.part q.onPart).gov.braking = true ∨ (s.part q.onPart).state = .braked → s.sendRoce n m = s) ∧
      (q.onCtx = 0 ∨ ((s.part q.onPart).gov.braking = false ∧ (s.part q.onPart).state ≠ .braked) → (s.port q.onPort).mac ≠ 0 →
        s.portDrops q.onPort = false → s.mce.tampered = false → s.sendRoce n m = { s with out := m :: s.out })))

/-- R295 to R298: a queue whose context runs starts its first fetched command when none is in progress. A NOP, and an ALLOC or COPY of
length 0, is complete at once; ALLOC and FREE are calls of Toll: ALLOC ends with Toll's status; FREE of a handle that is not current ends with
0x06, and one of a current handle once its transfers are complete; WAIT stays in progress until released or until LIMIT_US has passed; SIGNAL
signals its object; a COPY, and an UNSEAL whose key slot and header its checks take, is a copy job, which keeps the header as checked (R355).

R219: Toll serves one call at a time, in order of arrival: a call that comes while another waits or is served waits behind it, and TOLL_SERVE
takes up the first; a FREE whose object is held stays first until FREE_COMPLETE.

R295, R300, R301: a command that is at work. A WAIT whose LIMIT_US passes ends TIMEOUT; the copy engines end their oldest job, an empty
COPY of a queue among them with status 0; the oldest record that waits is written once the ring has room; a fault of a command's fields
stops its queue with 0x0702 and shows in CTX_FAULT.

It rests on choices of the model: log entries 109, 116, 117, 119 and 127. -/
def Obligations.QueueCommandsRun : Prop :=
  (∀ (s : State) (x q i : Nat) (b : List Byte) (rest : List (Nat × List Byte)), s.Canon →
    ((s.ctx x).queue q).fetched = (i, b) :: rest → ctxRuns (s.ctx x) x = true → s.ctxStarts x = true → q < (s.ctx x).desc.queues →
    ((s.ctx x).queue q).stopped = false → ((s.ctx x).queue q).current = none → (∀ e ∈ (s.ctx x).recWait, e.queue ≠ q) →
    s.cmdFieldsOk x b = true →
    let u := s.modQueue x q fun k => { k with fetched := rest, current := some (i, b), since := s.mill.now }
    (cmdOpcode b = 0 → exec (.cmdNop x q) s = .next (u.finishCmd x q 0 0 0)) ∧
    (cmdOpcode b = 1 → field b 0x10 8 = 0 → exec (.cmdAlloc x q) s = .next (u.finishCmd x q 0 0 0)) ∧
    (∀ st h v, cmdOpcode b = 1 → field b 0x10 8 ≠ 0 → u.allocate x (field b 9 1) (field b 8 1) (field b 0x10 8) = (st, h, v) →
      s.tollQueue = [] → exec (.cmdAlloc x q) s = .next ((v.countToll x st).finishCmd x q st (if st = 0 then h else 0) 0)) ∧
    (s.tollQueue ≠ [] →
      (cmdOpcode b = 1 → field b 0x10 8 ≠ 0 → exec (.cmdAlloc x q) s = .next { u with tollQueue := u.tollQueue ++ [.host x q false] }) ∧
      (cmdOpcode b = 2 → exec (.cmdFree x q) s = .next { u with tollQueue := u.tollQueue ++ [.host x q false] })) ∧
    (cmdOpcode b = 2 → s.tollQueue = [] →
      (u.current x (field b 8 4) = none → exec (.cmdFree x q) s = .next ((u.countToll x 6).finishCmd x q 6 0 0)) ∧
      (∀ o, u.current x (field b 8 4) = some o →
        let i := handleIndex (field b 8 4)
        (u.objBusy x i o.gen = false → exec (.cmdFree x q) s = .next ((u.freeIdx x i 2).finishCmd x q 0 0 0)) ∧
        (u.objBusy x i o.gen = true → exec (.cmdFree x q) s = .next { u.freeIdx x i 2 with tollQueue := [.host x q true] }))) ∧
    (cmdOpcode b = 3 → field b 0x20 5 = 0 → exec (.cmdCopy x q) s = .next (u.finishCmd x q 0 0 0)) ∧
    (∀ e, cmdOpcode b = 3 → field b 0x20 5 ≠ 0 → u.copyChecks x b false = .error e →
      exec (.cmdCopy x q) s = .next (u.failCmd x q e)) ∧
    (∀ so d, cmdOpcode b = 3 → field b 0x20 5 ≠ 0 → u.copyChecks x b false = .ok (so, d) →
      exec (.cmdCopy x q) s = .next { u with copyJobs := u.copyJobs ++ [copyJobOf x q i b 0 so d []] }) ∧
    (cmdOpcode b = 4 → exec (.cmdWait x q) s = .next u) ∧
    (cmdOpcode b = 5 → let r := u.signal (s.ctx x).desc.part (field b 8 2) (BitVec.ofNat 64 (field b 0x10 8)) (.host x q)
      exec (.cmdSignal x q) s = .next ((r.2.barriers (s.ctx x).desc.part).finishCmd x q 0 0 (if r.1 then 0 else 0x0601))) ∧
    (cmdOpcode b = 6 → field b 0x20 5 = 0 → exec (.unsealObj x q) s = .next (u.finishCmd x q 0 0 0)) ∧
    (∀ so d v, cmdOpcode b = 6 → field b 0x20 5 ≠ 0 → u.copyChecks x b true = .ok (so, d) → u.unsealKey x (field b 0x28 1) = (none, v) →
      exec (.unsealObj x q) s = .next (v.failCmd x q 0x0804)) ∧
    (∀ so d v w key h, cmdOpcode b = 6 → 96 ≤ field b 0x20 5 → u.copyChecks x b true = .ok (so, d) →
      u.unsealKey x (field b 0x28 1) = (some key, v) → (v.countUse (field b 0x28 1)).readObj x so (field b 0x10 5) 96 = (h, none, w) →
      sealedHeaderOk h (w.keySlot (field b 0x28 1)).handle
        (((w.boundCharter (w.ctx x).desc.part).map fun c => (w.sec.charter c).digest).getD []) (field b 0x20 5) = true →
      exec (.unsealObj x q) s = .next { w with copyJobs := w.copyJobs ++ [{ copyJobOf x q i b 1 so d key with header := h }] })) ∧
  (∀ (s : State) (x q i : Nat) (b : List Byte), s.Canon →
    (((s.ctx x).queue q).current = some (i, b) → cmdOpcode b = 4 → field b 0xC 4 ≠ 0 →
      exec (.cmdWaitTimeout x q) s = .next (if ((s.ctx x).queue q).since + 1000 * field b 0xC 4 ≤ s.mill.now then s.finishCmd x q 7 0 0
        else s)) ∧
    (∀ j rest, s.copyJobs = j :: rest →
      (j.kind = 0 → exec .copyEngineComplete s = .next (({ s with copyJobs := rest } : State).copyDone j)) ∧
      (j.kind = 1 → exec .copyEngineComplete s = .next (({ s with copyJobs := rest } : State).unsealDone j))) ∧
    (∀ rest, s.tollQueue = .host x q false :: rest → ((s.ctx x).queue q).current = some (i, b) →
      let v : State := { s with tollQueue := rest }
      (∀ st h w, cmdOpcode b = 1 → v.allocate x (field b 9 1) (field b 8 1) (field b 0x10 8) = (st, h, w) →
        exec .tollServe s = .next ((w.countToll x st).finishCmd x q st (if st = 0 then h else 0) 0)) ∧
      (cmdOpcode b = 2 → v.current x (field b 8 4) = none → exec .tollServe s = .next ((v.countToll x 6).finishCmd x q 6 0 0))) ∧
    (∀ rest, s.tollQueue = .host x q true :: rest →
      exec .tollServe s = .next s ∧
      ∀ f, s.pendingFrees = [f] → f.origin = 2 → s.objBusy f.ctx f.index f.gen = false → exec (.freeComplete f.ctx f.index) s =
        .next ((State.finishCmd { s with pendingFrees := [], tollQueue := rest } x q 0 0 0).endStep f.ctx)) ∧
    (∀ r rest, (s.ctx x).recWait = r :: rest → (s.ctx x).ringFull = false → s.ringOpen x = true →
      exec (.eventRecordWrite x) s = .next ((s.setCtx x { s.ctx x with recWait := rest }).putRecord x r)) ∧
    (∀ rest, ((s.ctx x).queue q).fetched = (i, b) :: rest → ctxRuns (s.ctx x) x = true → s.ctxStarts x = true →
      q < (s.ctx x).desc.queues → ((s.ctx x).queue q).stopped = false → ((s.ctx x).queue q).current = none →
      (∀ e ∈ (s.ctx x).recWait, e.queue ≠ q) → cmdOpcode b = 4 → s.cmdFieldsOk x b = false →
      exec (.cmdWait x q) s = .next ((s.modQueue x q fun k => { k with fetched := rest, current := some (i, b), since := s.mill.now }).failCmd
        x q 0x0702) ∧
      ∃ t : State, exec (.cmdWait x q) s = .next t ∧ (t.ctx x).faultCode = 0x0702 ∧ (t.ctx x).faultQueue = q ∧ (t.ctx x).faultIndex = i))

/-- R287 to R291, R305: CTX_CMD on the selected context. A descriptor that breaks Table 11.5 is refused with 0x04; CREATE of one that passes
defines the context with its queue object at index 1; LOAD takes a DEFINED context into the free slot of CTX_ARG; EVICT takes an idle
resident context back, and one with work left when that is done; END ends a live one; DESTROY leaves the number UNDEFINED; each is refused with
0x02 in any other state, and with 0x01 while an EVICT or an END runs.

R291: a context that ended has its CONTEXT_ENDED record once its last object is back.

It rests on choices of the model: log entries 119 and 120. -/
def Obligations.ContextsAreCreatedLoadedAndEnded : Prop :=
  (∀ (s : State) (rq : Req) (x : Nat), s.Canon → s.mayP rq 0x40008 = true → (s.sel rq).ctx = x → x < 4096 → s.ctxBusy = false →
    let c := s.ctx x
    let st := (s.part c.desc.part).state
    (∀ b u, s.ctxDescBytes = (some b, u) →
      (ctxFormatOk b x = false → exec (.create rq) s = .next (u.setCtx x { u.ctx x with cmdStatus := 4 })) ∧
      (ctxFormatOk b x = true → (u.ctx x).state = .undefined → u.homeFree x (ctxDescOf b) = true →
        u.ctxConflict x (ctxDescOf b) = false →
        (ctxDescOf b).tableBytes + roundUp (ctxDescOf b).queueBytes 65536 ≤ (bitsOf 64 (ctxDescOf b).hbmSets).length * (ctxDescOf b).hbmLen →
        ∃ t : State, exec (.create rq) s = .next t ∧ (t.ctx x).state = .defined ∧ (t.ctx x).desc = ctxDescOf b ∧
          (t.obj x 1).live = true ∧ (t.obj x 1).size = (ctxDescOf b).queueBytes ∧ ∀ y, y ≠ x → t.ctx y = u.ctx y)) ∧
    (x ≠ 0 → c.state = .defined → st = .armed ∨ st = .running ∨ st = .braked → s.ctxRegs.arg < 48 →
      (∀ y, (s.ctx y).state = .resident → (s.ctx y).slot ≠ s.ctxRegs.arg) →
      exec (.ctxLoad rq) s = .next (s.setCtx x { c with state := .resident, slot := s.ctxRegs.arg, cmdStatus := 0 })) ∧
    (c.state = .resident → c.recWait = [] → c.queues = [] →
      exec (.evict rq) s = .next (s.setCtx x { c with state := .defined, slot := 63, evicting := false, cmdStatus := 0 })) ∧
    (c.state ≠ .resident → exec (.evict rq) s = .next (s.setCtx x { c with cmdStatus := 2 })) ∧
    (c.state = .resident → c.quiet = false → exec (.evict rq) s = .next (s.setCtx x { c with evicting := true, cmdStatus := 0 })) ∧
    (s.ctxLive x = true →
      ∃ t : State, exec (.ctxEnd rq) s = .next t ∧ (t.ctx x).state = .ended ∧ (t.ctx x).slot = 63 ∧ ∀ y, y ≠ x → t.ctx y = s.ctx y) ∧
    (s.ctxLive x = false → exec (.ctxEnd rq) s = .next (s.setCtx x { c with cmdStatus := 2 })) ∧
    (c.state = .defined ∨ c.state = .ended → c.ending = 0 →
      ∃ t : State, exec (.destroy rq) s = .next t ∧ t.ctx x = {} ∧ ∀ y, y ≠ x → t.ctx y = s.ctx y)) ∧
  (∀ (s : State) (rq : Req), s.mayP rq 0x40008 = true → s.ctxBusy = true →
    let x := (s.sel rq).ctx % 4096
    let busy : Host.Outcome State Fault Refusal := .next (s.setCtx x { s.ctx x with cmdStatus := 1 })
    exec (.create rq) s = busy ∧ exec (.ctxLoad rq) s = busy ∧ exec (.evict rq) s = busy ∧ exec (.ctxEnd rq) s = busy ∧
      exec (.destroy rq) s = busy) ∧
  (∀ (s : State) (x : Nat),
    let c := s.ctx x
    (c.evicting = true → c.quiet = true →
      exec (.evictComplete x) s = .next (s.setCtx x { c with state := .defined, slot := 63, evicting := false })) ∧
    (c.evicting = false ∨ c.quiet = false → exec (.evictComplete x) s = .next s) ∧
    (∀ f, c.ending = 1 ∨ c.ending = 2 → (∀ e ∈ c.queues, e.2.current = none) → (NatMap.keysWhere c.objects fun _ o => o.live) = [] →
      s.pendingFrees = [f] → f.ctx = x → 4 ≤ f.origin → s.objBusy x f.index f.gen = false →
      exec (.freeComplete x f.index) s =
        .next ((({ s with pendingFrees := [] } : State).setCtx x { c with ending := 0 }).record x { type := 3 })))

/-! ### The Sluice, session setup and parties -/

/-- R301 to R303: a Sluice packet that R302 does not accept changes SLUICE_REFUSED and raises at most 0x0708; one that it accepts takes its
SEQ, so that it is never accepted again, and acts: BRAKE and HALT_PART brake, LEASE renews the leases of the partitions it names at its receipt,
ABORT_CTX ends a live context with 0x0706, QUARANTINE_PORT closes or opens a port. Where the Sluice is shut (R360, R372) none acts.

It rests on choices of the model: log entries 126 and 179. -/
def Obligations.SluicePacketsActOnce : Prop :=
  (∀ (s : State) (k : Pkt), k.sluice = false ∨ s.sluiceOpen = false →
    exec (.sluiceRefused k) s = .next s ∧ exec (.brake k) s = .next s ∧ exec (.lease k) s = .next s ∧ exec (.haltPart k) s = .next s ∧
      exec (.abortCtx k) s = .next s ∧ exec (.quarantinePort k) s = .next s) ∧
  (∀ (s : State) (k : Pkt) (u : State), s.Canon → k.sluice = true → s.sluiceOpen = true →
    let kind := field k.payload 0 1
    let mask := field k.payload 2 2
    (s.sluiceAccepts k = (false, u) →
      ∃ t : State, exec (.sluiceRefused k) s = .next t ∧ t.eth.sluiceRefused = min (u.eth.sluiceRefused + 1) 0xFFFFFFFF ∧
        t.eth.sluiceSeq = u.eth.sluiceSeq ∧ t.parts = u.parts ∧ t.ctxs = u.ctxs ∧
        (kind = 1 → exec (.brake k) s = .next t) ∧ (kind = 2 → exec (.lease k) s = .next t) ∧ (kind = 3 → exec (.haltPart k) s = .next t) ∧
        (kind = 4 → exec (.abortCtx k) s = .next t) ∧ (kind = 5 → exec (.quarantinePort k) s = .next t)) ∧
    (s.sluiceAccepts k = (true, u) →
      (∀ j : Pkt, j.sender = k.sender → j.seq ≤ k.seq → ((u.sluiceTake k).sluiceAccepts j).1 = false) ∧
      (kind = 1 → exec (.brake k) s = .next ((u.sluiceTake k).brakeAll)) ∧
      (kind = 2 → ∃ t : State, exec (.lease k) s = .next t ∧ (∀ p, p < 16 → t.part p =
        if bit mask p && decide ((u.part p).state = .armed ∨ (u.part p).state = .running ∨ (u.part p).state = .braked) then
          { u.part p with gov := { (u.part p).gov with leaseExpiry := s.mill.now + (u.part p).gov.tt.leaseMs * 1000000, lapsed := false } }
        else u.part p)) ∧
      (kind = 3 → exec (.haltPart k) s = .next ((bitsOf 16 mask).foldl (fun v p => v.brakeBy p .halt) (u.sluiceTake k))) ∧
      (kind = 4 → u.ctxLive (field k.payload 4 2) = false → exec (.abortCtx k) s = .next (u.sluiceTake k)) ∧
      (kind = 4 → u.ctxLive (field k.payload 4 2) = true →
        exec (.abortCtx k) s = .next (((u.sluiceTake k).endCtx (field k.payload 4 2) 2).raise
          (((u.sluiceTake k).endCtx (field k.payload 4 2) 2).ctxFault (field k.payload 4 2) 0x0706 0))) ∧
      (kind = 5 → ∃ t : State, exec (.quarantinePort k) s = .next t ∧
        (t.port (field k.payload 6 1)).quarantined = (field k.payload 7 1 == 0) ∧
        (∀ j, j ≠ field k.payload 6 1 → (t.port j).quarantined = (s.port j).quarantined) ∧
        (field k.payload 7 1 = 1 → t = (u.sluiceTake k).setPort (field k.payload 6 1) { u.port (field k.payload 6 1) with quarantined := false }))))

/-- R313, R316 to R319: the setup of a session. A HELLO that fails a check of Table 12.6 is answered REFUSE and raises 0x0801; one that
passes starts a setup under a SESSION value never used before, on the port it came by. ATTEST answers it, signed with the next index of the
attestation key but for role 4; a FINISH later than 1 s after ATTEST is refused, as one that nobody waits for, and one in time is refused with
the code of its first failing check or makes the session; the device then confirms with DONE, and the setup is over; without FINISH it ends
1 s after ATTEST. As role 4 peer the device answers ATTEST with FINISH and awaits DONE under a new SESSION. While the network interfaces are
silent (R360, R372) no setup packet changes anything.

It rests on choices of the model: log entries 136, 137 and 178. -/
def Obligations.SetupsRunFromHelloToDone : Prop :=
  (∀ (s : State) (k : Pkt), (s.netOpen = false ∨ k.setupOk = false →
      exec (.hello k) s = .next s ∧ (∀ n, exec (.finish n k) s = .next s) ∧ (∀ h, exec (.attestReceived h k) s = .next s)) ∧
    (s.netOpen = true → k.setupOk = true → s.portDrops k.port = true →
      (k.sub = 1 → exec (.hello k) s = .next (s.countPortDrop k.port)) ∧
      (∀ n, k.sub = 3 → exec (.finish n k) s = .next (s.countPortDrop k.port)) ∧
      (∀ h, k.sub = 2 → exec (.attestReceived h k) s = .next (s.countPortDrop k.port)))) ∧
  (∀ (s : State) (k : Pkt), s.portDrops k.port = false → k.setupOk = true → s.netOpen = true →
    (k.sub = 1 → s.helloCode k ≠ 0 →
      exec (.hello k) s = .next ((s.sendPlain k.port (.setup 5 (s.helloCode k) [])).raise (secFault 0x0801 3))) ∧
    (k.sub = 1 → s.helloCode k = 0 →
      ∃ t : State, exec (.hello k) s = .next t ∧ t.sec.lastSession = s.sec.lastSession + 1 ∧
        (t.sec.setup t.sec.lastSession).phase = .hello ∧ (t.sec.setup t.sec.lastSession).hello = k.body ∧
        (t.sec.setup t.sec.lastSession).since = s.mill.now ∧ (t.sec.setup t.sec.lastSession).port = k.port ∧
        (t.sec.setup t.sec.lastSession).role = field k.body 0 1 ∧ t.sec.sessions = s.sec.sessions ∧ { t with sec := s.sec } = s) ∧
    (∀ n, k.sub = 3 →
      (n ∉ s.sec.setups.map (·.1) →
        exec (.finish n k) s = .next ((s.sendPlain k.port (.setup 5 7 [])).raise (secFault 0x0801 3))) ∧
      (n ∈ s.sec.setups.map (·.1) → (s.sec.setup n).phase ≠ .attested → exec (.finish n k) s = .next s) ∧
      (n ∈ s.sec.setups.map (·.1) → (s.sec.setup n).phase = .attested →
        let refused := fun (u : State) (code : Nat) =>
          (({ u with sec := u.sec.setSetup n {} } : State).sendPlain (u.sec.setup n).port (.setup 5 code [])).raise (secFault 0x0801 3)
        let e := s.sec.setup n
        let auth := k.body.drop 1576
        let wellFormed := k.headOk && decide (1576 ≤ k.body.length) && decide (auth.length = field k.body 4 2) && field k.body 6 2 == 0 &&
          !(e.role == 2 && field k.body 4 2 != 0)
        let held := s.helloCharterOk e.hello && (e.role != 1 || s.charterHeld e)
        let z := s.setupZ e.role e.part e.charterDigest
        let th := shake32 (ascii "NTH1" ++ e.hello ++ e.attest ++ k.body.take 1576)
        let okm := shake 160 (ascii "NSK1" ++ Config.kemDecap e.kemDraw (slice k.body 8 1568) ++ th ++ z.1.getD [])
        (e.since + 1000000000 < s.mill.now → exec (.finish n k) s = .next (refused s 7)) ∧
        (s.mill.now ≤ e.since + 1000000000 →
          (wellFormed = false → exec (.finish n k) s = .next (refused s 2)) ∧
          (wellFormed = true → held = false → exec (.finish n k) s = .next (refused s 3)) ∧
          (wellFormed = true → held = true → z.2.authOk e z.1 th auth = false → exec (.finish n k) s = .next (refused z.2 4)) ∧
          (wellFormed = true → held = true → z.2.authOk e z.1 th auth = true → z.2.sessionsFull = true →
            exec (.finish n k) s = .next (refused z.2 5)) ∧
          (wellFormed = true → held = true → z.2.authOk e z.1 th auth = true → z.2.sessionsFull = false →
            e.role = 2 → e.macsec ≠ 0 → z.2.freeSlot = none → exec (.finish n k) s = .next (refused z.2 9)) ∧
          (wellFormed = true → held = true → z.2.authOk e z.1 th auth = true → z.2.sessionsFull = false →
            (e.role = 2 → e.macsec ≠ 0 → z.2.freeSlot ≠ none) →
            let c : Session := { role := e.role, party := e.party, part := e.part, port := e.port, charter := e.charter
                                 peerSession := field k.body 0 4, keyOut := slice okm 0 32, keyIn := slice okm 32 32
                                 kek := if e.role = 1 then slice okm 96 32 else [] }
            let f : Setup := { e with phase := .finished, confirm := shake32 (ascii "NSD1" ++ slice okm 128 32 ++ th) }
            (¬ (e.role = 2 ∧ e.macsec ≠ 0) →
              exec (.finish n k) s = .next { z.2 with sec := (z.2.sec.setSession n c).setSetup n f }) ∧
            (e.role = 2 → e.macsec ≠ 0 →
              ∃ t : State, exec (.finish n k) s = .next t ∧ t.sec.sessions = NatMap.set {} z.2.sec.sessions n c ∧
                t.sec.setups = NatMap.set {} z.2.sec.setups n f ∧ (t.port (e.macsec - 1)).macsecEn = true ∧
                some (t.port (e.macsec - 1)).cakSlot = z.2.freeSlot ∧
                (t.sec.slot (t.port (e.macsec - 1)).cakSlot).key = slice okm 64 32 ∧
                (∀ j, j ≠ e.macsec - 1 → t.port j = z.2.port j)))))) ∧
    (∀ hello, k.sub = 2 →
      let ok := helloOk hello && field hello 0 1 == 4 && s.helloCharterOk hello && k.headOk && k.body.length == 4856 && !s.sessionsFull
      let z := s.setupZ 4 (field hello 2 1) (slice hello 40 32)
      (ok = false → exec (.attestReceived hello k) s = .next s) ∧
      (ok = true → z.1 = none → exec (.attestReceived hello k) s = .next z.2) ∧
      (∀ key, ok = true → z.1 = some key →
        let kem := Config.kemEncap (slice k.body 0 1568) z.2.draws
        let th := shake32 (ascii "NTH1" ++ hello ++ k.body ++
          (leBytes 4 (z.2.sec.lastSession + 1) ++ leBytes 2 32 ++ leBytes 2 0 ++ padTo 1568 kem.1))
        let okm := shake 160 (ascii "NSK1" ++ kem.2 ++ th ++ key)
        ∃ t : State, exec (.attestReceived hello k) s = .next t ∧ t.sec.lastSession = z.2.sec.lastSession + 1 ∧
          t.draws = z.2.draws + 1 ∧
          t.sec.peerSetups = NatMap.set {} z.2.sec.peerSetups t.sec.lastSession
            { part := field hello 2 1, port := k.port, charter := (z.2.boundCharter (field hello 2 1)).getD 0
              remoteSession := field k.body (1568 + 68 + 2980 + 12) 4, keyOut := slice okm 32 32, keyIn := slice okm 0 32
              confirm := shake32 (ascii "NSD1" ++ slice okm 128 32 ++ th) } ∧
          t.sec.sessions = z.2.sec.sessions ∧
          { t with sec := z.2.sec, out := z.2.out, ports := z.2.ports, draws := z.2.draws } = z.2))) ∧
  (∀ (s : State) (n : Nat), n ∈ s.sec.setups.map (·.1) →
    ((s.sec.setup n).phase = .hello → (s.sec.setup n).role ≠ 4 → s.sec.attKey.isSome = true → s.sec.attGen = false →
      ∃ t : State, exec (.attest n) s = .next t ∧ (t.sec.setup n).phase = .attested ∧ (t.sec.setup n).since = s.mill.now ∧
        (t.sec.setup n).hello = (s.sec.setup n).hello ∧ t.draws = s.draws + 2 ∧
        (s.sec.attIndex + 1 = 65536 → t.sec.attGen = true) ∧
        (s.sec.attIndex + 1 ≠ 65536 → t.sec.attIndex = s.sec.attIndex + 1 ∧ t.sec.attGen = false ∧
          { t with sec := s.sec, draws := s.draws, out := s.out, ports := s.ports } = s)) ∧
    ((s.sec.setup n).phase = .hello → (s.sec.setup n).role = 4 →
      ∃ t : State, exec (.attest n) s = .next t ∧ (t.sec.setup n).phase = .attested ∧ (t.sec.setup n).since = s.mill.now ∧
        t.sec.attIndex = s.sec.attIndex ∧ { t with sec := s.sec, draws := s.draws, out := s.out, ports := s.ports } = s) ∧
    ((s.sec.setup n).phase = .finished →
      exec (.done n) s = .next (({ s with sec := s.sec.setSetup n {} } : State).sendOn n (.setup 4 0 (s.sec.setup n).confirm))) ∧
    ((s.sec.setup n).phase = .attested → (s.sec.setup n).since + 1000000000 ≤ s.mill.now →
      exec (.setupTimeout n) s = .next { s with sec := s.sec.setSetup n {} }) ∧
    ((s.sec.setup n).phase = .attested → s.mill.now < (s.sec.setup n).since + 1000000000 → exec (.setupTimeout n) s = .next s))

/-- R319, R332, R333, R336: sealed SETUP messages of a session, each accepted. A WRAPPED_KEY is answered with the code of its checks, and
raises 0x0804 where it is not taken; an APPROVE from an approver of the waiting request's rule is noted for that party and acknowledged, any
other changes no charter slot; CLOSE ends the session. As role 4 peer the device takes a session into use only with the right CONFIRM. What it
sends on a session (R277) a receiver with the session's key opens to the same header and payload.

It rests on choices of the model: log entries 138, 140 and 178. -/
def Obligations.SessionsCarryKeysAndApprovals : Prop :=
  (∀ (s : State) (k : Pkt) (u : State), k.session ≠ 0 → k.type = 0x30 →
    (s.awaitsDone k = false → s.takePkt k = (false, u) →
      (k.sub = 6 → exec (.wrappedKey k) s = .next u) ∧ (k.sub = 7 → exec (.approve k) s = .next u) ∧
      (k.sub = 9 → exec (.close k) s = .next u)) ∧
    (s.awaitsDone k = false → s.takePkt k = (true, u) →
      let n := u.sec.session k.session
      (∀ code, k.sub = 6 → code ≠ 0 → u.unwrap n k = (code, []) →
        exec (.wrappedKey k) s = .next ((u.raise (secFault 0x0804 3 n.part)).ack k.session code (slice k.body 0 4))) ∧
      (∀ key, k.sub = 6 → u.unwrap n k = (0, key) →
        exec (.wrappedKey k) s = .next ((u.takeKey n k.body key).ack k.session 0 (slice k.body 0 4))) ∧
      (k.sub = 7 →
        let c := u.sec.charter n.charter
        let rule := c.charter.rules.getD c.release.rule { source := 0, k := 0, approvers := 0, recipients := 0, tensorLo := 0, tensorHi := 0 }
        (k.headOk = false ∨ k.body.length ≠ 32 → exec (.approve k) s = .next (u.ack k.session 2 (slice k.body 0 4))) ∧
        (k.headOk = true → k.body.length = 32 →
          (c.release.state = .waiting → k.body = c.release.digest → bit rule.approvers n.party = true →
            exec (.approve k) s = .next (({ u with sec := u.sec.setCharter n.charter { c with release :=
              { c.release with approved := c.release.approved ||| 2 ^ n.party } } } : State).ack k.session 0 (slice k.body 0 4))) ∧
          (c.release.state = .waiting → k.body = c.release.digest → bit rule.approvers n.party = false →
            exec (.approve k) s = .next (u.ack k.session 10 (slice k.body 0 4))) ∧
          (c.release.state ≠ .waiting ∨ k.body ≠ c.release.digest →
            exec (.approve k) s = .next (u.ack k.session 11 (slice k.body 0 4))))) ∧
      (k.sub = 9 → exec (.close k) s = .next (u.endSession k.session))) ∧
    (s.awaitsDone k = true → k.sub = 4 → k.sender = 0 → k.headerOk = true → s.hears k = true →
      let e := NatMap.get {} s.sec.peerSetups k.session
      let x : Security := { s.sec with peerSetups := NatMap.set {} s.sec.peerSetups k.session {} }
      let n : Session := { role := 4, part := e.part, port := k.port, charter := e.charter, peerSession := e.remoteSession, peerSender := 0
                           keyOut := e.keyOut, keyIn := e.keyIn }
      (s.portDrops k.port = true → exec (.doneReceived k) s = .next (s.countPortDrop k.port)) ∧
      (s.portDrops k.port = false →
        (k.headOk = true → k.body = e.confirm → k.part = e.part →
          exec (.doneReceived k) s = .next { s with sec := x.setSession k.session (n.take k.seq) }) ∧
        (¬ (k.headOk = true ∧ k.body = e.confirm ∧ k.part = e.part) → exec (.doneReceived k) s = .next { s with sec := x })))) ∧
  (∀ (key payload : List Byte) (h : PktHead) (port prio : Nat), h.version < 256 → h.type < 256 → h.flags < 256 → h.part < 256 →
    h.session < 2 ^ 32 → h.sender < 2 ^ 32 → h.length < 2 ^ 16 → h.reserved < 2 ^ 16 → h.seq < 2 ^ 64 →
    openPacket key port prio (sealPacket key h payload) =
      { port := port, version := h.version, type := h.type, flags := h.flags, part := h.part, session := h.session, sender := h.sender
        length := h.length, reserved := h.reserved, seq := h.seq, payload := payload, tagOk := true, prio := prio })

/-! ### The board controller, keys, charters and protection -/

/-- R320, R323 to R326, R374, R447: the board controller's authentication and the key slots. A challenge read draws a new challenge and closes
any open access; a response that is not the HMAC of the challenge counts and raises 0x0809, the right one opens the privileged set, and either
consumes the challenge and, of a counted key, one use; 10 s without an access close it. WRITE replaces an operator slot in one step and zeroes
the data registers; in the installation window the board controller writes slot 1 and then slot 0, as PRIV keys, and a VALID slot 0 shuts the
window; ERASE of an operator slot empties it; LOAD_PUBKEY takes a key of a length that an algorithm has; a sweep sets CHECK_FAIL on the valid
slots whose check fails and leaves every other as it is.

It rests on choices of the model: log entries 129, 131, 133 and 141. -/
def Obligations.BoardAccessAndKeySlots : Prop :=
  ∀ (s : State),
    (s.boardMay 0x7FFFFF0000 = true →
      ∃ t : State, exec .bcChallengeRead s = .next t ∧ t.board.challenge = some s.drawn ∧ t.board.isOpen = false ∧ t.draws = s.draws + 1 ∧
        { t with board := s.board, draws := s.draws, out := s.out } = s) ∧
    (∀ w : Word64, s.boardMay 0x7FFFFF0038 = true →
      let right := ∃ k c, (s.useKey 0 4).1 = some k ∧ s.board.challenge = some c ∧
        Board.response { s.board with resp3 := w } = hmacShake k (ascii "NBC1" ++ c)
      ∃ t : State, exec (.bcResponseWrite w) s = .next t ∧ t.board.challenge = none ∧
        (right → t.board.isOpen = true ∧ t.board.fails = s.board.fails ∧ t.board.lastAccess = s.mill.now) ∧
        (¬ right → t.board.isOpen = s.board.isOpen ∧ t.board.fails = min (s.board.fails + 1) 255) ∧
        ((s.useKey 0 4).1.isSome = true → (s.keySlot 0).life = 2 → 1 < (s.keySlot 0).uses →
          (t.keySlot 0).uses = (s.keySlot 0).uses - 1 ∧ (t.keySlot 0).valid = true) ∧
        ((s.useKey 0 4).1 = none ∨ (s.keySlot 0).life ≠ 2 → ∀ n, (t.keySlot n).key = (s.keySlot n).key)) ∧
    (s.boardMay 0x7FFFFF0000 = false → s.boardMay 0x7FFFFF0038 = false → s.boardMay 0x7FFFFF0048 = false → ∀ w : Word64,
      ∃ t1 t2 t3 : State, exec .bcChallengeRead s = .next t1 ∧ exec (.bcResponseWrite w) s = .next t2 ∧ exec (.fatalClear w) s = .next t3 ∧
        (∀ t : State, t = t1 ∨ t = t2 ∨ t = t3 → t.board.challenge = s.board.challenge ∧ t.board.isOpen = s.board.isOpen ∧
          t.board.fatal = s.board.fatal ∧ t.board.fails = s.board.fails ∧ { t with board := s.board, out := s.out } = s)) ∧
    (s.board.isOpen = true → s.board.lastAccess + 10000000000 ≤ s.mill.now →
      exec .bcAuthIdle s = .next { s with board := { s.board with isOpen := false } }) ∧
    (s.board.isOpen = false ∨ s.mill.now < s.board.lastAccess + 10000000000 → exec .bcAuthIdle s = .next s) ∧
    (∀ w : Word64, s.boardMay 0x7FFFFF0048 = true →
      ∃ t : State, exec (.fatalClear w) s = .next t ∧ t.board.fatal = (s.board.fatal && !bit w.toNat 2) ∧
        { t with board := s.board, out := s.out } = s) ∧
    (∀ rq n, s.mayP rq 0xB0040 = true → (s.sel rq).key = n → n < 256 →
      let perm := if rq = .board then 4 else bits s.sec.keyNew 24 8
      let life := if rq = .board then 0 else bits s.sec.keyNew 16 2
      let uses := if life = 2 then bits s.sec.keyNew 32 32 else 0
      let status := if rq = .board ∧ ¬ (n = 1 ∨ n = 0 ∧ (s.keySlot 1).valid = true) then 2
        else s.keyWriteStatus n perm life (bits s.sec.keyNew 32 32)
      (status = 0 →
        ∃ t : State, exec (.keyWrite rq) s = .next t ∧ (t.keySlot n).valid = true ∧ (t.keySlot n).key = s.sec.keyData ∧
          (t.keySlot n).perm = perm ∧ (t.keySlot n).owner = 1 ∧ (t.keySlot n).life = life ∧ (t.keySlot n).uses = uses ∧
          (t.keySlot n).check = (t.keySlot n).checkOf n ∧ (∀ j, j ≠ n → t.keySlot j = s.keySlot j) ∧
          t.sec.windowShut = (s.sec.windowShut || n == 0) ∧
          t.sec.keyData = List.replicate 32 0 ∧ t.sec.cmdStatus = 0 ∧ { t with sec := s.sec, eth := s.eth } = s) ∧
      (status ≠ 0 →
        ∃ t : State, exec (.keyWrite rq) s = .next t ∧ t.sec.slots = s.sec.slots ∧ t.sec.cmdStatus = status ∧
          t.sec.keyData = List.replicate 32 0 ∧ { t with sec := s.sec } = s) ∧
      (s.sec.busy = true → exec (.keyErase rq) s = .next { s with sec := { s.sec with cmdStatus := 1 } } ∧
        exec (.loadPubkey rq) s = .next { s with sec := { s.sec with cmdStatus := 1 } }) ∧
      (s.sec.busy = false →
        (rq = .board ∨ (s.keySlot n).owner ≠ 1 → exec (.keyErase rq) s = .next { s with sec := { s.sec with cmdStatus := 2 } }) ∧
        (rq ≠ .board → (s.keySlot n).owner = 1 →
          ∃ t : State, exec (.keyErase rq) s = .next t ∧ t = ({ s with sec := { s.sec with cmdStatus := 0 } } : State).eraseKey n ∧
            t.sec.slots = NatMap.set {} s.sec.slots n {} ∧ t.sec.pubKeys = NatMap.set [] s.sec.pubKeys n []) ∧
        (rq = .board ∨ s.sec.lock = true ∨ (s.keySlot n).owner = 2 →
          exec (.loadPubkey rq) s = .next { s with sec := { s.sec with cmdStatus := 2 } }) ∧
        (rq ≠ .board → s.sec.lock = false → (s.keySlot n).owner ≠ 2 →
          let full := (NatMap.get [] s.sec.pubKeys n).isEmpty = true ∧ 16 ≤ s.sec.pubKeys.length
          (s.sec.len ≠ 68 ∧ s.sec.len ≠ 2592 ∨ full → exec (.loadPubkey rq) s = .next { s with sec := { s.sec with cmdStatus := 4 } }) ∧
          (∀ r u, s.sec.len = 68 ∨ s.sec.len = 2592 → ¬ full → s.operatorBytes s.sec.obj s.sec.len = (r, u) →
            (r = none → exec (.loadPubkey rq) s = .next { u with sec := { u.sec with cmdStatus := 3 } }) ∧
            (∀ pk, r = some pk →
              ∃ t : State, exec (.loadPubkey rq) s = .next t ∧ t.sec.cmdStatus = 0 ∧ (t.keySlot n).valid = true ∧
                (t.keySlot n).key = shake32 pk ∧ (t.keySlot n).perm = 1 ∧ (t.keySlot n).owner = 1 ∧ (t.keySlot n).life = 0 ∧
                (∀ j, j ≠ n → t.keySlot j = u.keySlot j) ∧
                t.sec.pubKeys = NatMap.set [] (NatMap.set [] u.sec.pubKeys n []) n pk ∧ { t with sec := u.sec, eth := u.eth } = u))))) ∧
    (∀ disturbed, ∃ t : State, exec (.keyCheckSweep disturbed) s = .next t ∧ (∀ n, t.keySlot n =
        if (s.keySlot n).valid && !(s.keySlot n).checkFail && (disturbed.contains n || (s.keySlot n).check != (s.keySlot n).checkOf n) then
          { s.keySlot n with checkFail := true } else s.keySlot n) ∧
      ((∀ n, (s.keySlot n).valid = true → (s.keySlot n).check = (s.keySlot n).checkOf n ∧ n ∉ disturbed) → t = s) ∧
      { t with sec := s.sec, ras := s.ras, out := s.out, ports := s.ports } = s)

/-- R311, R329, R330, R336 to R339: the commands of a charter slot. LOAD_CHARTER into a slot that is not EMPTY is refused with 0x02; one that
passes every check fills the slot, PENDING; UNLOAD_CHARTER is refused in EMPTY and BOUND, and empties a slot else. REL_REQUEST of a slot that
is BOUND and whose checks hold waits, without approvals, under the next number, another gives its status and changes nothing else; REL_RUN
without enough approvals is refused with 0x11, without the recipient's output key with 0x10, in a state of the partition that forbids it with
0x02, and else runs; a release that completes has written its chunks and its header and is DONE; REL_CANCEL withdraws a waiting request; a
release with nothing in progress does not complete. ROLLOVER where a certificate can be signed starts a new attestation key and raises
0x0808, else its status is 0x12; the key that is ready starts its indices at 0, and its certificate takes one identity index and the count
of the boot's keys before it.

It rests on choices of the model: log entries 134, 135, 139 and 140. -/
def Obligations.CharterSlotsTakeTheirCommands : Prop :=
  ∀ (s : State),
    (∀ (rq : Req) (c : Nat), s.mayP rq 0xB0068 = true → (s.sel rq).charterSlot = c → c < 16 → s.sec.busy = false →
      let k := s.sec.charter c
      let status := fun (u : State) (v : Nat) => ({ u with sec := { u.sec with cmdStatus := v } } : State)
      (s.lcState ≠ 3 ∨ k.state ≠ .empty → exec (.loadCharter rq) s = .next (status s 2)) ∧
      (s.lcState = 3 → k.state = .empty → (∀ o, s.current 0 s.sec.obj = some o → o.size < s.sec.len) →
        exec (.loadCharter rq) s = .next ((status s 3).raise (secFault 0x0802 3))) ∧
      (∀ o, s.lcState = 3 → k.state = .empty → s.current 0 s.sec.obj = some o → s.sec.len ≤ o.size →
        (262144 < s.sec.len → exec (.loadCharter rq) s = .next ((status s 5).raise (secFault 0x0802 3))) ∧
        (∀ r u, s.sec.len ≤ 262144 → s.operatorBytes s.sec.obj s.sec.len = (r, u) →
          (r = none → exec (.loadCharter rq) s = .next ((status u 3).raise (secFault 0x0802 3))) ∧
          (∀ bs v, r = some bs → u.charterStatus bs = (v, none) →
            exec (.loadCharter rq) s = .next ((status u v).raise (secFault 0x0802 3))) ∧
          (∀ bs v l, r = some bs → u.charterStatus bs = (v, some l) →
            let full : CharterSlot := { state := .pending, part := (s.sel rq).charterPart % 16, digest := l.digest, charter := charterOf l.body
                                        relRegs := (u.sec.charter c).relRegs }
            exec (.loadCharter rq) s = .next { u with sec := ({ u.sec with cmdStatus := 0 } : Security).setCharter c full }))) ∧
      (k.state = .empty ∨ k.state = .bound → exec (.unloadCharter rq) s = .next (status s 2)) ∧
      (k.state = .pending ∨ k.state = .active →
        ∃ t : State, exec (.unloadCharter rq) s = .next t ∧ t = (status s 0).clearCharter c (fun _ => {}) ∧ t.sec.cmdStatus = 0 ∧
          (k.release.state ≠ .running → t.sec.charters = NatMap.set {} s.sec.charters c {})) ∧
      (s.relRequestStatus k ≠ 0 → exec (.relRequest rq) s = .next (status s (s.relRequestStatus k))) ∧
      (s.relRequestStatus k = 0 →
        ∃ t : State, exec (.relRequest rq) s = .next t ∧ t.sec.cmdStatus = 0 ∧ (t.sec.charter c).release.state = .waiting ∧
          (t.sec.charter c).release.approved = 0 ∧ (t.sec.charter c).release.reqId = s.sec.nextReq ∧
          (t.sec.charter c).release.rule = bits k.relRegs.src 48 5 ∧ (t.sec.charter c).release.recipient = bits k.relRegs.src 44 4 ∧
          (t.sec.charter c).release.off = k.relRegs.off ∧ (t.sec.charter c).release.len = k.relRegs.len ∧
          t.sec.nextReq = (s.sec.nextReq + 1) % 2 ^ 32 ∧ (k.release.state ≠ .running → { t with sec := s.sec } = s)) ∧
      (k.release.state ≠ .waiting → exec (.relRun rq) s = .next (status s 2)) ∧
      (k.release.state = .waiting → (bitsOf 16 k.release.approved).length < (k.rule k.release.rule).k →
        exec (.relRun rq) s = .next (status s 0x11)) ∧
      (k.release.state = .waiting → (k.rule k.release.rule).k ≤ (bitsOf 16 k.release.approved).length →
        (s.outputSlot c k k.release.recipient = none → exec (.relRun rq) s = .next (status s 0x10)) ∧
        (∀ slot u, s.outputSlot c k k.release.recipient = some slot → s.useKey slot 0x40 = (none, u) →
          exec (.relRun rq) s = .next (status u 0x10)) ∧
        (∀ slot key u, s.outputSlot c k k.release.recipient = some slot → s.useKey slot 0x40 = (some key, u) →
          let source := (k.rule k.release.rule).source
          (relStateOk source (s.part k.part).state = false → exec (.relRun rq) s = .next (status u 2)) ∧
          (∀ so d, relStateOk source (s.part k.part).state = true →
            u.checkObj k.release.ctx k.release.handle k.release.off k.release.len (.release (source == 1)) = .ok so →
            u.checkObj 0 k.release.dst k.release.dstOff (releaseLen k.release.len) .hbmWrite = .ok d →
            ∃ t : State, exec (.relRun rq) s = .next t ∧ t.sec.cmdStatus = 0 ∧
              (t.sec.charter c).release = { k.release with state := if k.release.len = 0 then .done else .running } ∧
              (k.release.len ≠ 0 → ∃ j : CopyJob, t.copyJobs = u.copyJobs ++ [j] ∧ j.kind = 2 ∧ j.key = c ∧ j.keyBytes = key ∧
                j.queue = slot ∧ j.srcOff = k.release.off ∧ j.dstOff = k.release.dstOff ∧ j.len = k.release.len ∧ j.srcObj = so ∧
                j.dstObj = d)))) ∧
      (k.release.state = .waiting →
        let x : Security := { s.sec with cmdStatus := 0 }
        exec (.relCancel rq) s = .next { s with sec := x.setCharter c { k with release := {} } }) ∧
      (k.release.state = .running →
        ∃ t : State, exec (.relCancel rq) s = .next t ∧ t.sec.cmdStatus = 0 ∧ t.copyJobs = s.copyJobs.filter (fun j => !(j.kind == 2 && j.key == c))) ∧
      (k.release.state ≠ .waiting → k.release.state ≠ .running → exec (.relCancel rq) s = .next (status s 0)) ∧
      (s.sec.attGen = true → exec (.rollover rq) s = .next (status s 1)) ∧
      (s.sec.attGen = false → s.signs = false → exec (.rollover rq) s = .next (status s 0x12)) ∧
      (s.sec.attGen = false → s.signs = true →
        exec (.rollover rq) s = .next (({ s with sec := { s.sec with cmdStatus := 0, attGen := true, attKey := none } } : State).raise
          (secFault 0x0808 3)))) ∧
    (s.sec.attGen = true →
      ∃ t : State, exec .attKeyReady s = .next t ∧ t.sec.attGen = false ∧ t.sec.attKey = some s.draws ∧ t.sec.attIndex = 0 ∧
        t.sec.attKeys = s.sec.attKeys + 1 ∧ s.draws < t.draws ∧
        (∀ d n, s.lcState = 3 ∨ s.lcState = 4 → s.sec.identity = some d → s.sec.idValue = some n → n < idLimit → s.sec.idDisabled = false →
          if Config.mramWord (s.draws + 1) 0 (idWord (n + 1)) = idWord (n + 1) ∧
              Config.mramWord (s.draws + 1) 1 (idWord (n + 1)) = idWord (n + 1) then
            t.sec.certSeq = s.sec.attKeys ∧ t.sec.wordA = idWord (n + 1) ∧ t.sec.wordB = idWord (n + 1) ∧
              field t.sec.bootCert 12 4 = n % 2 ^ 32 ∧ t.ras = s.ras
          else t.sec.bootCert = [] ∧ t.sec.certSeq = s.sec.certSeq)) ∧
    (s.sec.attGen = false → exec .attKeyReady s = .next s) ∧
    (∀ c, (∀ j ∈ s.copyJobs, ¬ (j.kind = 2 ∧ j.key = c)) → exec (.releaseComplete c) s = .next s) ∧
    (∀ c j, s.copyJobs.find? (fun j => j.kind == 2 && j.key == c) = some j →
      let r := (s.sec.charter c).release
      let hdr := s.releaseHeader r
      let key := shake32 (ascii "NRK1" ++ j.keyBytes ++ s.sec.deviceId ++ leBytes 4 s.life.bootCount ++ leBytes 4 r.reqId)
      let q := s.sealChunks j key hdr (j.len / 65536 + 2) 0 j.len
      let w := q.2.writeObj 0 j.dstObj j.dstOff hdr
      (∀ f, q.1 = some f → exec (.releaseComplete c) s = .next (q.2.releaseFails c j f)) ∧
      (∀ f, q.1 = none → w.1 = some f → exec (.releaseComplete c) s = .next (w.2.releaseFails c j f)) ∧
      (q.1 = none → w.1 = none →
        ∃ t : State, exec (.releaseComplete c) s = .next t ∧ t.copyJobs = w.2.copyJobs.erase j ∧
          (t.sec.charter c).release = { r with state := .done } ∧ t.pond = w.2.pond ∧ t.granary = w.2.granary))

/-- R346, R347, R351, R353, R356, R357, R359, R360: protection. Every usable Pond address has its channel and offset, and no two share one. A line
reads back under the identifier, keys and epoch it was written with, and under any other, or at any other line, its tag fails; an error of one
symbol is corrected in place. Debug reads of a chartered partition's state return 0, scan chains of a tile open in MISSION only while it is TESTING or
its cluster belongs to no partition, and nothing opens in SCRAP. MACsec drops and counts unprotected frames and those that fail its checks; a verified MKA frame elects the
key server of its sub-port, which distributes an SAK where none is in force, and else takes the peer's; every distribution is a use of the
CAK's slot; a rekey by the key server draws a new SAK and starts its packet numbers at 1; losing the channel clears the sub-port, with 0x080D
where the port had its secure channel and carries charter RoCEv2. The first tamper event destroys every key, frees every identifier and brakes
every partition or ends its rebinding; a later one only sets its bit.

It rests on choices of the model: log entries 142, 143, 184 and 185. -/
def Obligations.LinksAndTamperProtectTheDevice : Prop :=
  (∀ (s : State), s.Canon →
    (∀ k, (s.port k).macsecRequire = true →
      exec (.macsecFrame k .unprotected) s =
        .next (s.setPort k { s.port k with dropUnprotected := min ((s.port k).dropUnprotected + 1) 0xFFFFFFFF })) ∧
    (∀ k, (s.port k).macsecRequire = false → exec (.macsecFrame k .unprotected) s = .next s) ∧
    (∀ k, exec (.macsecFrame k .icvFail) s = .next (if (s.port k).macsecEn then
        s.setPort k { s.port k with dropIcv := min ((s.port k).dropIcv + 1) 0xFFFFFFFF } else s)) ∧
    (∀ k n pn, let x := (s.port k).sub n
      ((s.port k).macsecEn = false ∨ x.sakKn = 0 → exec (.sakRekey ⟨k, n⟩ pn) s = .next s) ∧
      ((s.port k).macsecEn = true → x.sakKn ≠ 0 → x.keyServer = false →
        exec (.sakRekey ⟨k, n⟩ pn) s = .next (s.setPort k ((s.port k).setSub n { x with nextPn := pn }))) ∧
      ((s.port k).macsecEn = true → x.sakKn ≠ 0 → x.keyServer = true → ∀ r u, s.useOnce (s.port k).cakSlot 8 = (r, u) →
        (r = none → exec (.sakRekey ⟨k, n⟩ pn) s = .next u) ∧
        (r ≠ none →
          let y := (u.port k).sub n
          exec (.sakRekey ⟨k, n⟩ pn) s = .next ((({ u with draws := u.draws + 1 } : State).setPort k ((u.port k).setSub n
            { y with sak := u.drawn, sakKn := (y.sakKn + 1) % 2 ^ 32, sakAn := (y.sakAn + 1) % 4, nextPn := 1 })).send
            (.mka k n ((y.sakKn + 1) % 2 ^ 32) ((y.sakAn + 1) % 4)))))) ∧
    (∀ k m, s.netOpen = false ∨ (s.port k).macsecEn = false ∨ m.icvOk = false ∨ s.subPorts k ≤ m.sub →
      exec (.mkaFrame k m) s = .next s) ∧
    (∀ k m r u, s.netOpen = true → (s.port k).macsecEn = true → m.icvOk = true → m.sub < s.subPorts k →
      s.useOnce (s.port k).cakSlot 8 = (r, u) →
      (r = none → exec (.mkaFrame k m) s = .next u) ∧
      (r ≠ none →
        let v := { (u.port k).sub m.sub with keyServer := (u.port k).serves m, peer := some m.priority }
        let ends := fun (w : State) (y : SubPort) => (w.setPort k ((w.port k).setSub m.sub y)).macsecFell k (s.macsecUp k)
        ((u.port k).serves m = true → v.sakKn ≠ 0 → exec (.mkaFrame k m) s = .next (ends u { v with up := m.up })) ∧
        ((u.port k).serves m = true → v.sakKn = 0 →
          exec (.mkaFrame k m) s = .next (ends (({ u with draws := u.draws + 1 } : State).send (.mka k m.sub 1 ((v.sakAn + 1) % 4)))
            { v with sak := u.drawn, sakKn := 1, sakAn := (v.sakAn + 1) % 4, nextPn := 1, up := m.up })) ∧
        ((u.port k).serves m = false → (∀ kn an key, m.sak = some (kn, an, key) → kn = v.sakKn ∧ an = v.sakAn) →
          exec (.mkaFrame k m) s = .next (ends u (if v.sakKn = 0 then v else { v with up := m.up }))) ∧
        (∀ kn an key, (u.port k).serves m = false → m.sak = some (kn, an, key) → ¬ (kn = v.sakKn ∧ an = v.sakAn) →
          exec (.mkaFrame k m) s = .next (ends u
            { v with sak := key, sakKn := kn, sakAn := an, nextPn := 1, up := if kn = 0 then v.up else m.up })))) ∧
    (∀ k n, let u := s.setPort k ((s.port k).setSub n {})
      (s.charterRoce k = [] → exec (.macsecLost ⟨k, n⟩) s = .next u) ∧
      (∀ p l, s.charterRoce k = p :: l →
        exec (.macsecLost ⟨k, n⟩) s = .next (if s.macsecUp k && !u.macsecUp k then u.raise { code := 0x080D, loc := locEth p k } else u)) ∧
      (NatMap.wf {} (s.port k).subs = true → n < s.subPorts k → u.macsecUp k = false)) ∧
    (∀ pin, s.mce.tampered = true →
      exec (.tamper pin) s = .next { s with mce := { s.mce with pin := s.mce.pin || pin, glitch := s.mce.glitch || !pin } }) ∧
    (∀ pin, s.mce.tampered = false →
      let flagged : State := { s with mce := { s.mce with tampered := true, pin := s.mce.pin || pin, glitch := s.mce.glitch || !pin } }
      ∃ t : State, exec (.tamper pin) s = .next t ∧ t.mce.tampered = true ∧ t.mce.pin = (s.mce.pin || pin) ∧ t.granary = [] ∧
        t.parts = ((List.range 16).foldl State.tamperPart flagged).parts ∧ t.copyJobs = [] ∧ t.sec.charters = [] ∧ t.sec.attKey = none ∧
        t.sec.bootCert = [] ∧ t.sec.setups = [] ∧ t.sec.peerSetups = [] ∧ t.mce.linkKeys = [] ∧
        (∀ k, k < 64 → (t.mce.keyId k).state = .free) ∧ (∀ k, (t.port k).subs = []))) ∧
  (∀ a, (pondPlace a).1 = a / 4096 % 16 ∧ pondUsable (pondPlace a).1 (pondPlace a).2 = some a) ∧
  (∀ c off a, c < 16 → pondUsable c off = some a → pondPlace a = (c, off)) ∧ pondPlace 5000000000 = (15, 357138944) ∧
  (∀ (d : Dram) (c : Cred) (n : Nat) (bs : List Byte), d.Canon → bs.length = 64 →
    let w := (d.write c (64 * n) bs).1
    (d.write c (64 * n) bs).2.fault = none ∧ (w.read c (64 * n) 64).1 = bs ∧ (w.read c (64 * n) 64).2.2.fault = none ∧
      (∀ c', c' ≠ c → (w.read c' (64 * n) 64).2.2.fault = some (0x0507, 64 * n))) ∧
  (∀ (d : Dram) (c : Cred) (n : Nat), d.Canon → 0 < (d.line n).error → errorSymbols (d.line n).error ≤ 1 → (d.line n).poisoned = false →
    ((d.line n).tagOk c n = true →
      (d.read c (64 * n) 64).2.2 = { corr := 1 } ∧ ((d.read c (64 * n) 64).2.1.line n) = { d.line n with error := 0 }) ∧
    ((d.line n).tagOk c n = false → (d.read c (64 * n) 64).2.2.fault = some (0x0507, 64 * n)) ∧
    ((d.line n).la ≠ n → (d.line n).tagOk c n = false)) ∧
  (∀ (s : State),
    (∀ t a w p, s.tilePart t = some p → s.chartered p = true → DebugAccess.kept a = false → s.debugReads t a w = 0) ∧
    (s.lcState = 3 → (∀ t, s.debugOpen (.scanTile t) = true → (s.tile t).test.isSome = true ∨ s.tilePart t = none) ∧
      s.debugOpen .security = false ∧ s.debugOpen .scanOther = false ∧ s.debugOpen .testMode = false ∧ s.debugOpen .otpWrite = false) ∧
    (s.lcState = 5 → ∀ u, s.debugOpen u = false))

/-! ### Resets, the boot and the life cycle -/

/-- R363, Table 14.1, R372, R377, R378, R440: every cause of reset gives the state of Table 14.1: fuses, the boot count, the identity key with
its index words, the key slots of LIFE 0 that no charter owns, the public keys and memory stay; partitions, contexts, sessions, charters and every
other register do not, and the device is held. BOOT_START leaves that phase, counts the boot, and loads no image in SCRAP; with a pending pair
it first does the erasure again and burns both fuses of DONE.

It rests on choices of the model: log entries 145 and 188. -/
def Obligations.ResetsKeepTheFusesAndBootOnce : Prop :=
  ∀ (s : State),
    let kept := fun (t : State) =>
      t.life.otp = s.life.otp ∧ t.life.bootCount = s.life.bootCount ∧ t.life.phase = .held ∧ t.life.ready = false ∧
      t.life.targets = [] ∧ t.life.released = [] ∧ t.hbm = s.hbm ∧ t.pond = s.pond ∧ t.mill.now = 0 ∧
      t.sec.identity = s.sec.identity ∧ t.sec.wordA = s.sec.wordA ∧ t.sec.wordB = s.sec.wordB ∧ t.sec.pubKeys = s.sec.pubKeys ∧
      t.sec.windowShut = s.sec.windowShut ∧ (∀ e, e ∈ t.sec.slots ↔ e ∈ s.sec.slots ∧ e.2.life = 0 ∧ e.2.owner ≠ 2) ∧
      t.sec.sessions = [] ∧ t.sec.setups = [] ∧ t.sec.charters = [] ∧ t.sec.attKey = none ∧ t.sec.bootCert = [] ∧ t.mce.linkKeys = [] ∧
      t.mce.tampered = false ∧ t.parts = [] ∧ t.ctxs = [] ∧ t.tiles = [] ∧ t.granary = [] ∧ t.qps = [] ∧ t.selects = [] ∧
      t.copyJobs = [] ∧ t.ports = [] ∧ t.ras = {} ∧ t.board = {} ∧ t.eth = {}
    (∃ t : State, exec .resetNLow s = .next t ∧ kept t ∧ t.life.powerGood = s.life.powerGood ∧ t.mce.linkFrames = s.mce.linkFrames) ∧
    (∃ t : State, exec .pwrGoodLow s = .next t ∧ kept t ∧ t.life.powerGood = false ∧ t.mce.linkFrames = []) ∧
    (s.life.powerGood = false → ∃ t : State, exec .pwrGoodRise s = .next t ∧ kept t ∧ t.life.powerGood = true) ∧
    (s.life.powerGood = true → exec .pwrGoodRise s = .next s) ∧
    (∀ rq, s.mayP rq 0xC0008 = true → ∃ t : State, exec (.lcReset rq) s = .next t ∧ kept t) ∧
    (s.pwr.state = 4 → exec (.wakeEvent .pin) s = exec .resetNLow s) ∧
    (s.life.phase ≠ .held ∨ s.life.powerGood = false ∨ s.mce.tampered = true → exec .bootStart s = .next s) ∧
    (s.life.phase = .held → s.life.powerGood = true → s.mce.tampered = false → s.life.otp.pendingPair = none →
      ∃ t : State, exec .bootStart s = .next t ∧ t.life.bootCount = (s.life.bootCount + 1) % 2 ^ 32 ∧
        t.life.phase = (if s.lcState = 5 then .stopped else .rom) ∧ t.life.otp = s.life.otp ∧ { t with life := s.life, sec := s.sec } = s) ∧
    (∀ n, s.life.phase = .held → s.life.powerGood = true → s.mce.tampered = false → s.life.otp.pendingPair = some n →
      ∃ t : State, exec .bootStart s = .next t ∧ bit t.life.otp.done.a n = true ∧ bit t.life.otp.done.b n = true ∧
        (∀ k, 1 ≤ k → k ≤ n → bit t.life.otp.counter.a k = true ∧ bit t.life.otp.counter.b k = true) ∧ t.sec.pubKeys = [] ∧
        t.life.resumed = true ∧ t.life.phase = (if t.lcState = 5 then .stopped else .rom) ∧
        t.life.bootCount = (if n = 5 then 1 else (s.life.bootCount + 1) % 2 ^ 32) ∧ (n = 5 → t.sec.identity = none))

/-- R364 to R367, R369 to R371: firmware and recovery. An image that passes the checks is written into its targets, which are released in order: the
device runs, mill time starts at 0, the attestation key is being generated. One that fails is rejected and no target holds any of it: the flash's
starts recovery with its reason, a network image's counts. A DATA packet is accepted only in order; a REQ goes out when due, from the management
port's link-local address to ff02::1 on UDP port 48,211; 1 s with nothing accepted starts again. The device is ready once its memories are
trained and its attestation key is there. After a tamper event none of it goes on.

It rests on choices of the model: log entries 144, 146, 147 and 188. -/
def Obligations.FirmwareIsCheckedAndRecovered : Prop :=
  ∀ (s : State),
    (s.mce.tampered = true →
      exec .bootReady s = .next s ∧ (∀ src, exec (.firmwareAccepted src) s = .next s ∧ exec (.firmwareRejected src) s = .next s) ∧
      (∀ g, exec (.memoryTrained g) s = .next s) ∧ exec .recoveryReq s = .next s ∧ (∀ v b, exec (.recoveryData v b) s = .next s) ∧
      exec .recoverySourceTimeout s = .next s) ∧
    (s.mce.tampered = false →
    (∀ src, s.imageOf src = none → exec (.firmwareAccepted src) s = .next s ∧ exec (.firmwareRejected src) s = .next s) ∧
    (∀ src image, s.imageOf src = some image →
      match s.fwCheck image with
      | (0, some (l, k)) =>
        ∃ t : State, exec (.firmwareAccepted src) s = .next t ∧ exec (.firmwareRejected src) s = .next s ∧ t.life.phase = .running ∧
          t.life.released = [1, 2, 3, 4] ∧ t.life.targets = (fwSections l.body).foldl (fun m e =>
            NatMap.set [] m e.target (NatMap.get [] m e.target ++ [(e.load, slice l.body e.off e.len)])) [] ∧
          t.life.source = (if src = .network then 1 else 0) ∧ t.life.fwSvn = field l.body 6 1 ∧
          t.mill.now = 0 ∧ t.life.fwDigest = l.digest ∧ t.life.vendorKey = k ∧ t.sec.attGen = true ∧ t.life.otp = s.life.otp
      | _ => exec (.firmwareAccepted src) s = .next s) ∧
    (∀ image v, s.life.phase = .rom → s.fwCheck image = (v, none) → v ≠ 0 →
      exec (.firmwareRejected (.flash image)) s =
        .next { s with life := { s.life with phase := .recovery, flashReason := v, reason := v, targets := [], released := [] } }) ∧
    (∀ image v, s.imageOf .network = some image → s.fwCheck image = (v, none) → v ≠ 0 →
      exec (.firmwareRejected .network) s =
        .next { s with life := { s.life with reason := v, attempts := min (s.life.attempts + 1) 255, recvBytes := [], total := 0, server := none,
                                              sinceReq := 0, targets := [], released := [] } }) ∧
    (s.reqDue = true → exec .recoveryReq s = .next { s.send (.recoveryReq (linkLocal Config.managementMac) (0xFF02 * 2 ^ 112 + 1) 48211 s.reqBytes) with
      life := { s.life with sinceReq := 0, lastReq := some s.mill.now } }) ∧
    (s.reqDue = false → exec .recoveryReq s = .next s) ∧
    (∀ server b, s.life.phase = .recovery → s.life.accepts server b = true →
      fieldBe b 8 8 = s.life.recvBytes.length ∧
      exec (.recoveryData server b) s = .next { s with life := { s.life with
        recvBytes := s.life.recvBytes ++ b.drop 0x20, total := fieldBe b 0x10 8, server := some server
        sinceReq := s.life.sinceReq + 1, lastData := s.mill.now } }) ∧
    (∀ server b, s.life.phase ≠ .recovery ∨ s.life.accepts server b = false → exec (.recoveryData server b) s = .next s) ∧
    (let silent := (s.life.phase = .recovery ∧ 0 < s.life.recvBytes.length ∧ s.life.recvBytes.length < s.life.total ∧
        s.life.lastData + 1000000000 ≤ s.mill.now);
      (silent → exec .recoverySourceTimeout s =
        .next { s with life := { s.life with recvBytes := [], total := 0, server := none, sinceReq := 0 } }) ∧
      (¬ silent → exec .recoverySourceTimeout s = .next s)) ∧
    (∀ gib, s.life.phase = .running →
      exec (.memoryTrained gib) s = .next { s with
        life := { s.life with hbmTrained := true, pondTrained := true }
        mem := { s.mem with installed := gib, extents := gib * 4 * 7 / 8 } }) ∧
    (∀ gib, s.life.phase ≠ .running → exec (.memoryTrained gib) s = .next s) ∧
    (let trained := (s.life.phase = .running ∧ s.life.hbmTrained = true ∧ s.life.pondTrained = true ∧ s.sec.attKey.isSome = true);
      (trained → exec .bootReady s = .next { s with life := { s.life with ready := true } }) ∧
      (¬ trained → exec .bootReady s = .next s)))

/-- R368, R375 to R379, R381: the LC commands. Each zeroes the token, and is BUSY while another runs. RAISE_SVN raises the floor and is refused
above the running firmware's; REVOKE_KEY burns one key's bit but never the key in use nor the last; GEN_IDENTITY acts in PROVISIONED only and
once; FUSE_DIGEST takes the token as a digest that is not fused yet, into both fuses of each bit. A TRANSITION whose token is wrong burns
nothing, counts and raises 0x0902, and after 8 of them none is tried; a right one burns INTENT, erases, burns the counter and DONE, and resets.

It rests on choices of the model: log entries 148 and 188. -/
def Obligations.LifeCycleCommandsBurnFuses : Prop :=
  ∀ (s : State) (rq : Req), s.mayP rq 0xC0008 = true →
    let l := s.life.clearToken
    let n := s.life.arg
    let status := fun (v : Nat) => ({ s with life := { l with cmdStatus := v } } : State)
    (s.life.busy = true →
      exec (.raiseSvn rq) s = .next (status 1) ∧ exec (.revokeKey rq) s = .next (status 1) ∧ exec (.genIdentity rq) s = .next (status 1) ∧
      exec (.fuseDigest rq) s = .next (status 1) ∧ (s.life.resetPending = false → exec (.transition rq) s = .next (status 1))) ∧
    (s.life.busy = false →
      (n ≤ s.life.fwSvn → n ≤ 64 →
        exec (.raiseSvn rq) s = .next { s with life := { l with cmdStatus := 0, otp := l.otp.raiseTo n } } ∧
        (l.otp.raiseTo n).floor = max s.life.otp.floor n) ∧
      (s.life.fwSvn < n ∨ 64 < n → exec (.raiseSvn rq) s = .next (status 4)) ∧
      (n ≤ 3 → n ≠ s.life.vendorKey → s.life.otp.revoked.value ||| 2 ^ n ≠ 15 →
        exec (.revokeKey rq) s = .next { s with life := { l with cmdStatus := 0, otp := { l.otp with revoked := l.otp.revoked.burn (2 ^ n) } } }) ∧
      (n ≤ 3 → n = s.life.vendorKey ∨ s.life.otp.revoked.value ||| 2 ^ n = 15 → exec (.revokeKey rq) s = .next (status 2)) ∧
      (3 < n → exec (.revokeKey rq) s = .next (status 4)) ∧
      (s.lcState ≠ 2 ∨ s.sec.identity.isSome = true → exec (.genIdentity rq) s = .next (status 2)) ∧
      (s.lcState = 2 → s.sec.identity = none →
        (∀ o, s.checkObj 0 s.sec.obj 0 68 .hbmWrite = .ok o →
          exec (.genIdentity rq) s = .next { s with life := { l with busy := true, genObj := some s.sec.obj } }) ∧
        (∀ e, s.checkObj 0 s.sec.obj 0 68 .hbmWrite = .error e → exec (.genIdentity rq) s = .next (status 4))) ∧
      (let target := (s.lcState = 1 ∧ n = 2) ∨ (s.lcState = 2 ∧ (n = 3 ∨ n = 4 ∨ n = 5));
        (target → s.life.otp.digest n = none →
          exec (.fuseDigest rq) s = .next { s with life := { l with cmdStatus := 0, otp := { l.otp with
            digests := NatMap.set ([], []) l.otp.digests n (s.life.token, s.life.token) } } }) ∧
        (¬ target ∨ s.life.otp.digest n ≠ none → exec (.fuseDigest rq) s = .next (status 2))) ∧
      (s.life.resetPending = false →
        (8 ≤ s.life.tokenFails → exec (.transition rq) s = .next (status 0x14)) ∧
        (s.life.tokenFails < 8 → s.targetDigest s.lcState n = none → exec (.transition rq) s = .next (status 2)) ∧
        (∀ d, s.life.tokenFails < 8 → s.targetDigest s.lcState n = some d →
          let free := s.parts.any (fun e => e.2.state != .free) = false
          (s.missionReady n = false ∨ ¬ free → exec (.transition rq) s = .next (status 2)) ∧
          (s.missionReady n = true → free →
            (shake32 s.life.token ≠ d → ∃ t : State, exec (.transition rq) s = .next t ∧ t.life.cmdStatus = 0x13 ∧
              t.life.tokenFails = s.life.tokenFails + 1 ∧ t.life.otp = s.life.otp ∧ t.life.token = List.replicate 32 0) ∧
            (shake32 s.life.token = d → ∃ t : State, exec (.transition rq) s = .next t ∧
              t.life.otp.intent = s.life.otp.intent.burn (2 ^ n) ∧ t.life.otp.done = s.life.otp.done.burn (2 ^ n) ∧
              (∀ k, 1 ≤ k → k ≤ n → bit t.life.otp.counter.a k = true ∧ bit t.life.otp.counter.b k = true) ∧ t.life.phase = .held ∧
              t.sec.pubKeys = [] ∧ t.life.bootCount = (if n = 5 then 0 else s.life.bootCount) ∧ (n = 5 → t.sec.identity = none) ∧
              t.life.otp.svn = s.life.otp.svn ∧ t.life.otp.revoked = s.life.otp.revoked ∧ t.life.otp.digests = s.life.otp.digests))))) ∧
    (s.life.genObj = none → exec .identityGenerated s = .next s) ∧
    (∀ h, s.life.genObj = some h →
      ∃ t : State, exec .identityGenerated s = .next t ∧ t.sec.identity = some s.draws ∧ t.sec.wordA = idWord 0 ∧ t.sec.wordB = idWord 0 ∧
        t.life.busy = false ∧ t.life.genObj = none ∧ t.draws = s.draws + 1)

/-! ### Self-test, reliability and power -/

/-- R385 to R387, R391 to R397: self-test and arbitration. A test slot ends: the tile is scrubbed, and returned after a pass, quarantined with its
queue dropped after a failure, the rotation of the logic slices moves on, and the timetable's entry is complete. RETEST is refused on a tile of a
partition; a pass returns the tile, a failure keeps it quarantined with status 0x15, and the cluster's SRAM is left zero. The spare takes the
oldest arbitration; where its result equals the tile's the checker was wrong and is retired, and else Table 15.2 decides. The patrol corrects in
place and counts what it corrects, and leaves what it cannot correct for the reader that meets it.

It rests on choices of the model: log entries 5, 149, 151 and 152. -/
def Obligations.TestsAndArbitrationDecideOnTiles : Prop :=
  ∀ (s : State) (n : Nat), s.Canon →
    let x := s.tile n
    (x.test = none → ∀ b, exec (.testSlotComplete n b) s = .next s) ∧
    (∀ y b, x.test = some y → y.mode = 3 → exec (.testSlotComplete n b) s = .next s) ∧
    (∀ y b, x.test = some y → y.mode ≠ 3 →
      let logicOk := y.mode = 1 ∨ b.misr = b.golden
      let memoryOk := y.mode = 0 ∨ (s.repairAll n b.fails).2.all (·.1) = true
      ∃ t : State, exec (.testSlotComplete n b) s = .next t ∧ (t.tile n).test = none ∧ (t.tile n).regs = [] ∧ (t.tile n).scratch = [] ∧
        (t.tile n).stats = [] ∧ (t.tile n).nextSlice = (if y.mode = 1 then x.nextSlice else (x.nextSlice + 1) % 32) ∧
        (logicOk ∧ memoryOk → (t.tile n).queue = x.queue ∧ (t.tile n).quarantined = x.quarantined) ∧
        (¬ (logicOk ∧ memoryOk) → (t.tile n).queue = [] ∧ (t.tile n).quarantined = true) ∧
        (¬ logicOk → (t.tile n).quarCause = .logicBist) ∧ (logicOk → ¬ memoryOk → (t.tile n).quarCause = .memoryBist) ∧
        (y.mode ≠ 1 → logicOk → bit (t.tile n).coverLogic x.nextSlice = true) ∧ (y.mode ≠ 0 → memoryOk → (t.tile n).coverMem = true) ∧
        (∀ m, m ≠ n → t.tile m = s.tile m) ∧
        (∀ p, s.tilePart n = some p →
          (NatMap.get {} t.testResults p).tile = n ∧ (NatMap.get {} t.testResults p).slice = x.nextSlice ∧
          (NatMap.get {} t.testResults p).mode = y.mode ∧
          (((s.part p).gov.run y.entry).status = .running → ((t.part p).gov.run y.entry).status = .complete))) ∧
    (∀ rq, s.mayP rq 0xF0010 = true → (s.sel rq).tile = n → n < 512 →
      (s.ras.retest ≠ none → exec (.retest rq) s = .next { s with ras := { s.ras with testStatus := 1 } }) ∧
      (∀ p, s.ras.retest = none → s.tilePart n = some p → exec (.retest rq) s = .next { s with ras := { s.ras with testStatus := 2 } }) ∧
      (s.ras.retest = none → s.tilePart n = none →
        ∃ t : State, exec (.retest rq) s = .next t ∧ t.ras.retest = some n ∧ t.ras.testStatus = 0 ∧ (t.tile n).regs = [] ∧
          (t.tile n).test.isSome = true ∧ { t with ras := s.ras, tiles := s.tiles } = s)) ∧
    (∀ b, s.ras.retest = some n →
      let ok := b.misr = b.golden ∧ ((s.marched n).repairAll n b.fails).2.all (·.1) = true
      ∃ t : State, exec (.retestComplete b) s = .next t ∧ t.ras.retest = none ∧ (t.tile n).test = none ∧ (t.tile n).regs = [] ∧
        (ok → (t.tile n).quarantined = false ∧ (t.tile n).quarCause = .none ∧ t.ras.testStatus = 0) ∧
        (¬ ok → (t.tile n).quarantined = true ∧ (t.tile n).queue = [] ∧ t.ras.testStatus = 0x15) ∧
        (t.cluster (tileCluster n)).sram = [] ∧ ∀ m, m ≠ n → t.tile m = s.tile m) ∧
    (∀ b, s.ras.retest = none → exec (.retestComplete b) s = .next s) ∧
    (∀ d a q, (s.ras.spare d).running = none → (s.ras.spare d).queue = a :: q →
      exec (.arbitrationStart d) s = .next { s with ras := s.ras.setSpare d { s.ras.spare d with running := some a, queue := q } }) ∧
    (∀ d, (s.ras.spare d).running ≠ none ∨ (s.ras.spare d).queue = [] → exec (.arbitrationStart d) s = .next s) ∧
    (∀ d xs x3, (s.ras.spare d).running = none → exec (.arbitrationDecision d xs x3) s = .next s) ∧
    (∀ d a xs x3, (s.ras.spare d).running = some a → a.tile = n →
      let u : State := { s with ras := s.ras.setSpare d { s.ras.spare d with running := none } }
      let failed := (s.ras.spare d).aFailed
      (xs = a.xo ∨ (residuesAgree a.rhoE xs = false ∧ failed = false ∧ x3 = a.xo) →
        ∃ t : State, exec (.arbitrationDecision d xs x3) s = .next t ∧ (t.tile n).quarantined = false ∧ (t.tile n).arbitrating = false ∧
          (a.arrB = false → (t.tile n).arrA = { x.arrA with checkerRetired := true } ∧ (t.tile n).arrB = x.arrB) ∧
          (a.arrB = true → (t.tile n).arrB = { x.arrB with checkerRetired := true } ∧ (t.tile n).arrA = x.arrA) ∧
          (t.tile n).regs = x.regs ∧ (xs ≠ a.xo → (t.ras.spare d).aFailed = true) ∧ ∀ m, m ≠ n → t.tile m = s.tile m) ∧
      (xs ≠ a.xo → residuesAgree a.rhoE xs = true → exec (.arbitrationDecision d xs x3) s = .next (u.arrayWrong a 0x0A02 .array xs 0)) ∧
      (xs ≠ a.xo → residuesAgree a.rhoE xs = false → failed = true →
        exec (.arbitrationDecision d xs x3) s = .next (u.arrayWrong a 0x0A03 .noVote xs 0)) ∧
      (xs ≠ a.xo → residuesAgree a.rhoE xs = false → failed = false → x3 ≠ a.xo →
        exec (.arbitrationDecision d xs x3) s = .next (if x3 = xs then u.arrayWrong a 0x0A02 .array xs x3 else u.arrayWrong a 0x0A03 .noVote xs x3))) ∧
    (∀ w f, s.ras.patrolEn = false → exec (.patrolRead w f) s = .next s) ∧
    (s.ras.patrolEn = true →
      (∀ w, exec (.patrolRead w .ok) s = .next s) ∧
      (∀ a b, ∃ t : State, exec (.patrolRead (.scratch n a) (.corrected b)) s = .next t ∧
        NatMap.get 0 t.ras.corr 1 = min (NatMap.get 0 s.ras.corr 1 + 1) 0xFFFF ∧ t.tiles = s.tiles) ∧
      (∀ a, ∃ t : State, exec (.patrolRead (.scratch n a) .uncorrectable) s = .next t ∧
        NatMap.get 0 t.ras.uncorr 1 = min (NatMap.get 0 s.ras.uncorr 1 + 1) 0xFFFF ∧ { t with ras := s.ras } = s) ∧
      (∀ l b, ∃ t : State, exec (.patrolRead (.hbm l) (.corrected b)) s = .next t ∧ t.mce.eccCorr = min (s.mce.eccCorr + 1) 0xFFFFFFFF ∧
        t.hbm = { s.hbm with lines := NatMap.modify {} s.hbm.lines l fun m => { m with error := 0 } }) ∧
      (∀ l, exec (.patrolRead (.pond l) .uncorrectable) s = .next { s with
        pond := { s.pond with lines := NatMap.modify {} s.pond.lines l fun m => { m with error := twoSymbols } } }))

/-- R407 to R409, R411 to R413, Table 16.2: power states and domains. An entry that the partitions bar shows ENTRY_STATUS 2 and raises 0x0B01; one
that nothing bars enters the state, and Deep sleep and Off lose what Table 16.1 says; a wake event of the state leaves it, records the leases that
lapsed in it and, of Deep sleep, acquires mill time again. A domain that may be gated is gated, in Run only, and an access wakes it; a gated
Granary bank loses its contents, a gated port its link; a tile domain with queued work is kept on.

It rests on choices of the model: log entries 153, 154 and 155. -/
def Obligations.PowerStatesAndDomainsFollowTheirConditions : Prop :=
  ∀ (s : State) (n : Nat),
    (∀ c, s.pwr.state ≠ 0 ∨ s.pwr.target = 0 → exec (.wfiAll c) s = .next s) ∧
    (s.pwr.state = 0 → s.pwr.target ≠ 0 →
      exec (.wfiAll true) s = .next { s with pwr := { s.pwr with mode := 0, entryStatus := 3 } } ∧
      (s.mayEnter s.pwr.target = false →
        exec (.wfiAll false) s = .next (({ s with pwr := { s.pwr with mode := 0, entryStatus := 2 } } : State).raise
          { code := 0x0B01, loc := { die := 10 } })) ∧
      (s.mayEnter s.pwr.target = true → s.pwr.target < 3 →
        exec (.wfiAll false) s = .next { s with pwr := { s.pwr with state := s.pwr.target, entryStatus := 0 } }) ∧
      (s.mayEnter s.pwr.target = true → 3 ≤ s.pwr.target →
        ∃ t : State, exec (.wfiAll false) s = .next t ∧ t.pwr.state = s.pwr.target ∧ t.pwr.entryStatus = 0 ∧ t.granary = [] ∧ t.leats = [] ∧
          t.sec.setups = [] ∧ t.sec.peerSetups = [] ∧ (∀ k, (t.port k).link = false ∧ (t.port k).subs = []) ∧
          (∀ k, (t.tile k).regs = [] ∧ (t.tile k).scratch = []) ∧ t.hbm = s.hbm ∧ t.pond = s.pond ∧ t.parts = s.parts)) ∧
    (∀ w, 1 ≤ s.pwr.state → s.pwr.state ≤ 3 → s.wakes s.pwr.state w = true →
      let u : State := { s with pwr := { s.pwr with state := 0, mode := 0 } }
      let v : State := if s.pwr.state = 3 ∧ s.mill.state ≠ .freerun then { u with mill := s.mill.acquire } else u
      exec (.wakeEvent w) s = .next ((List.range 16).foldl State.leaseExpire v) ∧
      ((∀ p, p < 16 → (s.part p).state = .free ∨ s.mill.now < (s.part p).gov.leaseExpiry ∨ (s.part p).gov.lapsed = true) →
        s.pwr.state < 3 → exec (.wakeEvent w) s = .next u)) ∧
    (s.pwr.state = 4 → exec (.wakeEvent .pin) s = .next s.deviceReset) ∧
    (∀ w, s.pwr.state ≠ 0 → s.wakes s.pwr.state w = false → exec (.wakeEvent w) s = .next s) ∧
    (s.pwr.state = 1 → exec (.wakeEvent .pin) s = .next s) ∧
    (∀ w, s.pwr.state = 0 → exec (.wakeEvent w) s = .next (if s.pwr.target ≠ 0 ∧ s.wakes s.pwr.target w = true then
      { s with pwr := { s.pwr with mode := 0, entryStatus := 3 } } else s)) ∧
    (s.pwr.state = 0 → (s.pwr.domain n).gated = false → s.mayGate n = true →
      let u : State := { s with pwr := s.pwr.setDomain n { s.pwr.domain n with gated := true } }
      (n < 576 ∨ 640 ≤ n ∧ n < 672 → exec (.domainGate n) s = .next u) ∧
      (s.Canon → 576 ≤ n → n < 640 → ∃ t : State, exec (.domainGate n) s = .next t ∧ { t with granary := s.granary } = u ∧
        ∀ a, NatMap.get 0 t.granary a = if sliceBytes * (n - 576) ≤ a ∧ a < sliceBytes * (n - 575) then 0 else NatMap.get 0 s.granary a) ∧
      (s.Canon → 672 ≤ n → n < 680 → ∃ t : State, exec (.domainGate n) s = .next t ∧ (t.port (n - 672)).link = false ∧
        (t.port (n - 672)).lanes = 0 ∧ (t.port (n - 672)).subs = [] ∧ t.pwr = u.pwr)) ∧
    (s.pwr.state ≠ 0 ∨ (s.pwr.domain n).gated = true ∨ s.mayGate n = false → exec (.domainGate n) s = .next s) ∧
    (n < 512 → (s.tile n).queue ≠ [] → s.mayGate n = false) ∧ (672 ≤ n → (s.port (n - 672)).mac ≠ 0 → s.mayGate n = false) ∧
    ((s.pwr.domain n).gated = true →
      exec (.domainWake n) s = .next { s with
        pwr := s.pwr.setDomain n { gated := false, wakes := min ((s.pwr.domain n).wakes + 1) 0xFFFFFFFF } } ∧
      exec (.wakeTimeout n) s = .next (s.raise { code := 0x0B07, loc := s.locDomain n })) ∧
    ((s.pwr.domain n).gated = false → exec (.domainWake n) s = .next s ∧ exec (.wakeTimeout n) s = .next s)

/-- R415 to R420: operating points, limits and references. A settled move is over, with the frequency switched after a rise of the voltage; a
second AVSBus failure holds the die; a rail below the voltage of the frequency in force lowers it and raises 0x0B03. A sample sets the die's
thermal index, and at or above 105 °C asserts the thermal alert and brakes the partitions of the die; at 110 °C the clocks stop; a power window
above the cap slows every die, and one below 95 % of it lets every die rise. Losing the 100 MHz reference brakes every partition; losing the
other takes every port down.

It rests on choices of the model: log entry 156. -/
def Obligations.LimitsSlowOrBrakeTheDies : Prop :=
  ∀ (s : State) (d : Nat), d < 8 →
    let x := s.pwr.die d
    (x.move = none → exec (.voltageSettled d) s = .next s ∧ exec (.avsTimeout d) s = .next s) ∧
    (∀ i up, x.move = some (i, up) →
      exec (.voltageSettled d) s = .next (State.retarget { s with pwr := s.pwr.setDie d { x with
        move := none, mv := oppMv i, avsRetried := false, inForce := if up then i else x.inForce } } d) ∧
      (x.avsRetried = false → exec (.avsTimeout d) s =
        .next (({ s with pwr := s.pwr.setDie d { x with avsRetried := true } } : State).send (.avs d (oppMv i)))) ∧
      (x.avsRetried = true → exec (.avsTimeout d) s =
        .next (({ s with pwr := s.pwr.setDie d { x with move := none, avsHeld := true } } : State).raise (powerFault 0x0B06 d 3)))) ∧
    (∀ mv, oppMv x.inForce ≤ mv → exec (.vrMismatch d mv) s = .next s) ∧
    (∀ mv, mv < oppMv x.inForce → exec (.vrMismatch d mv) s = .next (State.retarget (({ s with pwr := s.pwr.setDie d { x with
      mv := mv, vrLimit := mvOpp mv, inForce := mvOpp mv, move := none } } : State).raise (powerFault 0x0B03 d 3)) d)) ∧
    (∀ q h, 0 < q ∨ NatMap.wf {} s.pwr.dies = true →
      let temp := max q h
      let braked := s.boundParts.filter fun p => (s.partDies p).contains d
      (temp < 420 ∨ braked = [] →
        ∃ t : State, exec (.thermalSample d q h) s = .next t ∧ (t.pwr.die d).dieQ = q ∧ (t.pwr.die d).hbmQ = h ∧
          (t.pwr.die d).throttling = decide (4 * s.pwr.throttle < temp) ∧
          (420 ≤ temp → (t.pwr.die d).thermal = 4 ∧ (t.pwr.die d).critical = true ∧ t.board.thermal = true) ∧
          (temp < 420 → (t.pwr.die d).thermal = thermalIndex x.thermal temp s.pwr.throttle ∧ (t.pwr.die d).critical = false) ∧
          (400 ≤ temp → temp < 420 → t.board.thermal = s.board.thermal) ∧
          t.pwr.stopped = (s.pwr.stopped || decide (440 ≤ temp)) ∧ t.parts = s.parts) ∧
      (420 ≤ temp →
        let y := { x with dieQ := q, hbmQ := h, thermal := 4, throttling := decide (4 * s.pwr.throttle < temp), critical := true }
        let u : State := { s with pwr := { s.pwr.setDie d y with stopped := s.pwr.stopped || decide (440 ≤ temp) } }
        let v : State := braked.foldl State.brake (if x.throttling then u else u.raise (powerFault 0x0B02 d 3))
        let a : State := { v with board := { v.board with thermal := true } }
        let w : State := if x.critical then a else a.raise (powerFault 0x0B04 d (if braked = [] then 3 else 1))
        let cold := (List.range 8).all (fun e => decide ((w.pwr.die e).temp < 400)) && !w.pwr.stopped
        exec (.thermalSample d q h) s =
          .next ((if cold then { w with board := { w.board with thermal := false } } else w : State).retarget d))) ∧
    (∀ w, s.pwr.capWatts ≠ 0 → s.pwr.capWatts < w →
      ∃ t : State, exec (.powerCapWindow w) s = .next t ∧ t.pwr.overCap = true ∧ (t.pwr.die d).power = min (x.power + 1) 4) ∧
    (∀ w, NatMap.wf {} s.pwr.dies = true → s.pwr.capWatts = 0 ∨ w ≤ s.pwr.capWatts →
      ∃ t : State, exec (.powerCapWindow w) s = .next t ∧ t.pwr.overCap = false ∧ t.ras = s.ras ∧
        (t.pwr.die d).power = if s.pwr.capWatts = 0 ∨ 100 * w < 95 * s.pwr.capWatts then x.power - 1 else x.power) ∧
    (∀ m, ∃ t : State, exec (.pmbusPoll m) s = .next t ∧ t.pwr.powerDev = m.dev100 / 10 * 10 ∧
      t.pwr.powerDevParty = m.dev1000 / 50 * 50 ∧
      (∀ p, p < 16 → NatMap.get 0 t.pwr.powerPart p = m.parts100.getD p 0 / 10 * 10 ∧
        NatMap.get 0 t.pwr.powerParty p = m.parts1000.getD p 0 / 50 * 50) ∧ { t with pwr := s.pwr } = s) ∧
    (exec (.refLost true) s = .next (((List.range 16).foldl State.brake { s with pwr := { s.pwr with ref100Lost := true } }).raise
      { code := 0x0B08, loc := { die := 10 }, severity := 1 })) ∧
    (s.Canon → ∃ t : State, exec (.refLost false) s = .next t ∧ t.pwr.ref156Lost = true ∧
      ∀ k, k < 9 → (t.port k).link = false ∧ t.macsecUp k = false) ∧
    exec (.referenceRestored true) s = .next { s with pwr := { s.pwr with ref100Lost := false } } ∧
    exec (.referenceRestored false) s = .next { s with pwr := { s.pwr with ref156Lost := false } }

/-- R279, R287, R306, R445: ports, the operator context and I3C. A link comes up with its lanes while its reference runs, and goes down with its
secure channel; a PFC frame pauses the priorities it names that PFC is enabled for, priority 7 never; the scan of the operator context reads its
control block and then its queues, and does nothing where it is not defined; ENTDAA gives the device a 7-bit address.

It rests on choices of the model: log entry 40. -/
def Obligations.LinksPausesAndAddresses : Prop :=
  ∀ (s : State), s.Canon →
    (∀ k lanes, s.pwr.ref156Lost = false →
      exec (.portLinkChange k true lanes) s = .next (s.setPort k { s.port k with link := true, lanes := lanes % 256 })) ∧
    (∀ k lanes, s.pwr.ref156Lost = true → exec (.portLinkChange k true lanes) s = .next s) ∧
    (∀ k lanes, ∃ t : State, exec (.portLinkChange k false lanes) s = .next t ∧ (t.port k).link = false ∧ (t.port k).lanes = 0 ∧
      t.macsecUp k = false ∧ (∀ j, j ≠ k → (t.port j).link = (s.port j).link ∧ (t.port j).subs = (s.port j).subs) ∧
      (s.charterRoce k = [] → { t with ports := s.ports } = s ∧ ∀ j, j ≠ k → t.port j = s.port j)) ∧
    (∀ k mask ns, ∃ t : State, exec (.pfcPauseFrame k mask ns) s = .next t ∧
      (∀ i, i < 7 → bit mask i = true → bit (s.port k).pfcEn i = true → 0 < s.mill.now →
        NatMap.get 0 (t.port k).pausedUntil i = s.mill.now + ns.getD i 0) ∧
      (∀ i, 7 ≤ i ∨ bit mask i = false ∨ bit (s.port k).pfcEn i = false → 0 < s.mill.now →
        NatMap.get 0 (t.port k).pausedUntil i = NatMap.get 0 (s.port k).pausedUntil i) ∧
      (∀ j, j ≠ k → t.port j = s.port j) ∧ { t with ports := s.ports } = s) ∧
    ((s.ctx 0).state ≠ .defined → (s.ctx 0).state ≠ .resident → exec .operatorQueueScan s = .next s) ∧
    (∀ u o head f, (s.ctx 0).state = .defined → (s.ctx 0).evicting = false → s.current 0 1 = some o → s.readObj 0 o 0 256 = (head, f, u) →
      (f = none → exec .operatorQueueScan s = .next ((List.range (s.ctx 0).desc.queues).foldl (fun v q => v.scanQueue 0 o head q)
        (u.setCtx 0 { u.ctx 0 with eventHead := field head 0 4 }))) ∧
      (∀ code a, f = some (code, a) → exec .operatorQueueScan s = .next (u.raise (s.ctxFault 0 code 0 (some a))))) ∧
    (∀ a, s.pwr.state ≠ 4 → exec (.entdaa a) s = .next { s with board := { s.board with dynAddr := some (a % 128) } }) ∧
    (∀ a, s.pwr.state = 4 → exec (.entdaa a) s = .next s)

/-! ### The block as a whole -/

/-- A step takes the command at the front of the queue and runs it on the state with the queue's rest; on an empty queue the block idles: mill
time advances by 1 ns in Run, Idle and Sleep, and nothing else changes (the model's choice, log entry 2). -/
def Obligations.StepTakesTheFrontCommand : Prop :=
  (∀ (s : State) (c : Instr) (rest : List Instr), s.pending = c :: rest → step s = exec c { s with pending := rest }) ∧
  (∀ s : State, s.pending = [] → s.pwr.state < 3 → step s = .next { s with mill := { s.mill with now := s.mill.now + 1 } }) ∧
  (∀ s : State, s.pending = [] → 3 ≤ s.pwr.state → step s = .next s)

/-- R435, R363, R28, R287, R407: the state right after reset is in canonical form; every partition is FREE, every context UNDEFINED, every
register at 0, and the device is held with nothing pending.

It rests on choices of the model: log entries 8, 9 and 10. -/
def Obligations.ResetStateIsCanonical : Prop :=
  State.reset.Canon ∧ State.reset.pending = [] ∧ State.reset.life.phase = .held ∧ State.reset.pwr.state = 0 ∧ State.reset.mill.now = 0 ∧
  (∀ p, (State.reset.part p).state = .free ∧ (State.reset.part p).staged = none) ∧ (∀ x, (State.reset.ctx x).state = .undefined) ∧
  (∀ p i, State.reset.syncValue p i = 0) ∧ (∀ b, State.reset.locked b = false) ∧ (∀ n, (State.reset.qp n).state = .reset) ∧
  (∀ n r k j, (State.reset.tile n).cell r k j = 0) ∧ (∀ n, (State.reset.sec.slot n).valid = false)

/-- Every table and memory of the device keeps its canonical form: keys strictly rising, no entry equal to what an absent key reads as. From
every state that has the form, whatever command stands in front, a step answers a state that has it.

It rests on choices of the model: log entry 8. -/
def Obligations.EveryStepKeepsTheCanonicalForm : Prop :=
  ∀ s t : State, s.Canon → step s = .next t → t.Canon

/-- No command faults or is refused: each answers a next state, with the queue as it was.

It rests on choices of the model: log entry 3. -/
def Obligations.EveryCommandAnswersAState : Prop :=
  ∀ (c : Instr) (s : State), ∃ t : State, exec c s = .next t ∧ t.pending = s.pending

/-- R372, R375, R377: no command ever clears a fuse: a burned bit of the life-cycle counter, of INTENT, of DONE and of the revoked keys stays
burned over every step, a reset among them, and SVN never falls. -/
def Obligations.FusesAreNeverCleared : Prop :=
  ∀ s t : State, step s = .next t → Otp.Le s.life.otp t.life.otp

/-- R39: mill time moves only as the block idles, when the firmware starts it, and by a step of PTP: no other command changes it, a reset
apart.

It rests on choices of the model: log entries 2 and 144. -/
def Obligations.MillTimeMovesOnlyByItsClock : Prop :=
  ∀ (s t : State) (c : Instr), exec c s = .next t → t.life.phase ≠ .held →
    (∀ src, c ≠ .firmwareAccepted src) → (∀ m, c ≠ .ptpSync m) → (∀ m, c ≠ .ptpFollowUp m) → t.mill.now = s.mill.now
end

