-- ==== Sys2Proof/Laws/Canon.lean ====
section
/-! SUPPORT. The canonical form as a check that evaluates, for states written out. -/
namespace Sys2Proof.Machine
open Sys2Proof

/-- The canonical form, as a value. -/
def State.canonCheck (s : State) : Bool :=
  NatMap.wf 0 s.granary && NatMap.wf 0 s.hbm.bytes && NatMap.wf {} s.hbm.lines && NatMap.wf 0 s.pond.bytes && NatMap.wf {} s.pond.lines
  && (s.tiles.all fun e => NatMap.wf 0 e.2.regs && NatMap.wf 0 e.2.scratch)
  && (s.clusters.all fun e => NatMap.wf 0 e.2.sram && NatMap.wf 0 e.2.imem && NatMap.wf 0 e.2.dmem)
  && NatMap.wf {} s.parts && NatMap.wf 0 s.stageObj && NatMap.wf 0 s.stageLen && NatMap.wf {} s.weirs && NatMap.wf {} s.querns
  && NatMap.wf {} s.resolves && NatMap.wf {} s.tollFails && NatMap.wf 0 s.testNext && NatMap.wf {} s.testResults && NatMap.wf {} s.tiles
  && NatMap.wf {} s.clusters && NatMap.wf {} s.leats && NatMap.wf {} s.ctxs && NatMap.wf {} s.qps && NatMap.wf {} s.ports
  && NatMap.wf {} s.selects

/-- A state that passes the check is canonical. -/
theorem State.canon_of_check (s : State) (h : s.canonCheck = true) : s.Canon := by
  simp only [State.canonCheck, Bool.and_eq_true, List.all_eq_true, and_assoc] at h
  obtain ⟨h1, h2, h3, h4, h5, h6, h7, h8, h9, h10, h11, h12, h13, h14, h15, h16, h17, h18, h19, h20, h21, h22, h23⟩ := h
  exact ⟨⟨h1, ⟨h2, h3⟩, ⟨h4, h5⟩, fun e he => ⟨(h6 e he).1, (h6 e he).2⟩, fun e he => ⟨(h7 e he).1, (h7 e he).2.1, (h7 e he).2.2⟩⟩,
    ⟨h8, h9, h10, h11, h12, h13, h14, h15, h16, h17, h18, h19, h20, h21, h22, h23⟩⟩

end Sys2Proof.Machine
end

