-- ==== Sys2Proof/Laws/Maps.lean ====
section
/-! SUPPORT. The sparse maps: a read after a write, and that every operation keeps the canonical form. -/
namespace Sys2Proof.Machine
open Sys2Proof

variable {α : Type}

/-- Every key of a map lies above `n`. -/
def NatMap.Above (m : NatMap α) (n : Nat) : Prop := ∀ e ∈ m, n < e.1

theorem NatMap.wf_cons [DecidableEq α] {d : α} {k : Nat} {v : α} {t : NatMap α} :
    NatMap.wf d ((k, v) :: t) = true ↔ v ≠ d ∧ NatMap.Above t k ∧ NatMap.wf d t = true := by
  induction t generalizing k v with
  | nil => simp [NatMap.wf, NatMap.Above]
  | cons e t ih =>
    obtain ⟨k', v'⟩ := e
    rw [NatMap.wf]
    simp only [Bool.and_eq_true, decide_eq_true_eq, NatMap.Above, List.mem_cons, forall_eq_or_imp, and_assoc]
    constructor
    · rintro ⟨hv, hk, hw⟩
      refine ⟨hv, hk, fun e he => ?_, hw⟩
      exact Nat.lt_trans hk ((ih.mp hw).2.1 e he)
    · rintro ⟨hv, hk, _, hw⟩
      exact ⟨hv, hk, hw⟩

theorem NatMap.get_above (d : α) {m : NatMap α} {n : Nat} (h : ∀ e ∈ m, n < e.1) : NatMap.get d m n = d := by
  cases m with
  | nil => rfl
  | cons e t =>
    obtain ⟨k, v⟩ := e
    have hk : n < k := h (k, v) (List.mem_cons_self ..)
    simp [NatMap.get, hk, Nat.ne_of_lt hk]

theorem NatMap.above_set [DecidableEq α] {d : α} {m : NatMap α} {n b : Nat} {v : α} (h : NatMap.Above m b) (hb : b < n) :
    NatMap.Above (NatMap.set d m n v) b := by
  induction m with
  | nil =>
    simp only [NatMap.set]
    split
    · intro e he; cases he
    · intro e he
      simp only [List.mem_singleton] at he
      subst he; exact hb
  | cons e t ih =>
    obtain ⟨k, w⟩ := e
    have hk : b < k := h (k, w) (List.mem_cons_self ..)
    have ht : NatMap.Above t b := fun e he => h e (List.mem_cons_of_mem _ he)
    simp only [NatMap.set]
    split
    · split
      · exact h
      · intro e he
        rcases List.mem_cons.mp he with rfl | he
        · exact hb
        · exact h e he
    · split
      · split
        · exact ht
        · intro e he
          rcases List.mem_cons.mp he with rfl | he
          · exact hk
          · exact ht e he
      · intro e he
        rcases List.mem_cons.mp he with rfl | he
        · exact hk
        · exact ih ht e he

/-- A write keeps the canonical form. -/
theorem NatMap.wf_set [DecidableEq α] {d : α} {m : NatMap α} (n : Nat) (v : α) (h : NatMap.wf d m = true) :
    NatMap.wf d (NatMap.set d m n v) = true := by
  induction m with
  | nil =>
    simp only [NatMap.set]
    split
    · rfl
    · rename_i hv; simp [NatMap.wf, hv]
  | cons e t ih =>
    obtain ⟨k, w⟩ := e
    obtain ⟨hw, ha, ht⟩ := NatMap.wf_cons.mp h
    simp only [NatMap.set]
    split
    · rename_i hn
      split
      · exact h
      · rename_i hv
        refine NatMap.wf_cons.mpr ⟨hv, ?_, h⟩
        intro e he
        rcases List.mem_cons.mp he with rfl | he
        · exact hn
        · exact Nat.lt_trans hn (ha e he)
    · split
      · split
        · exact ht
        · rename_i hv; exact NatMap.wf_cons.mpr ⟨hv, ha, ht⟩
      · rename_i h1 h2
        exact NatMap.wf_cons.mpr ⟨hw, NatMap.above_set ha (by omega), ih ht⟩

theorem NatMap.wf_setList [DecidableEq α] {d : α} {m : NatMap α} (n : Nat) (l : List α) (h : NatMap.wf d m = true) :
    NatMap.wf d (NatMap.setList d m n l) = true := by
  induction l generalizing m n with
  | nil => exact h
  | cons v t ih => exact ih (n + 1) (NatMap.wf_set n v h)

theorem NatMap.above_filter {m : NatMap α} {b : Nat} (p : Nat × α → Bool) (h : NatMap.Above m b) : NatMap.Above (m.filter p) b :=
  fun e he => h e (List.mem_filter.mp he).1

/-- Dropping entries keeps the canonical form. -/
theorem NatMap.wf_filter [DecidableEq α] {d : α} {m : NatMap α} (p : Nat × α → Bool) (h : NatMap.wf d m = true) :
    NatMap.wf d (m.filter p) = true := by
  induction m with
  | nil => rfl
  | cons e t ih =>
    obtain ⟨k, v⟩ := e
    obtain ⟨hv, ha, ht⟩ := NatMap.wf_cons.mp h
    simp only [List.filter_cons]
    split
    · exact NatMap.wf_cons.mpr ⟨hv, NatMap.above_filter p ha, ih ht⟩
    · exact ih ht

theorem NatMap.wf_clearRange [DecidableEq α] {d : α} {m : NatMap α} (lo len : Nat) (h : NatMap.wf d m = true) :
    NatMap.wf d (NatMap.clearRange m lo len) = true := NatMap.wf_filter _ h

theorem NatMap.wf_restrict [DecidableEq α] {d : α} {m : NatMap α} (keep : Nat → Bool) (h : NatMap.wf d m = true) :
    NatMap.wf d (NatMap.restrict m keep) = true := NatMap.wf_filter _ h

theorem NatMap.above_mapVals [DecidableEq α] {d : α} {f : Nat → α → α} {m : NatMap α} {b : Nat} (h : NatMap.Above m b) :
    NatMap.Above (NatMap.mapVals d f m) b := by
  induction m with
  | nil => exact h
  | cons e t ih =>
    obtain ⟨k, v⟩ := e
    have ht : NatMap.Above t b := fun e he => h e (List.mem_cons_of_mem _ he)
    simp only [NatMap.mapVals]
    split
    · exact ih ht
    · intro e he
      rcases List.mem_cons.mp he with rfl | he
      · exact h (k, v) (List.mem_cons_self ..)
      · exact ih ht e he

theorem NatMap.wf_mapVals [DecidableEq α] {d : α} (f : Nat → α → α) {m : NatMap α} (h : NatMap.wf d m = true) :
    NatMap.wf d (NatMap.mapVals d f m) = true := by
  induction m with
  | nil => rfl
  | cons e t ih =>
    obtain ⟨k, v⟩ := e
    obtain ⟨_, ha, ht⟩ := NatMap.wf_cons.mp h
    simp only [NatMap.mapVals]
    split
    · exact ih ht
    · rename_i hw; exact NatMap.wf_cons.mpr ⟨hw, NatMap.above_mapVals ha, ih ht⟩

/-- A read after a write: the value written at its key, every other key as before. -/
theorem NatMap.get_set [DecidableEq α] {d : α} {m : NatMap α} (h : NatMap.wf d m = true) (n k : Nat) (v : α) :
    NatMap.get d (NatMap.set d m n v) k = if k = n then v else NatMap.get d m k := by
  induction m with
  | nil =>
    by_cases hk : k = n <;> by_cases hv : v = d <;> simp [NatMap.set, NatMap.get, hk, hv]
  | cons e t ih =>
    obtain ⟨j, w⟩ := e
    obtain ⟨_, ha, ht⟩ := NatMap.wf_cons.mp h
    simp only [NatMap.set]
    split
    · rename_i hn
      split
      · rename_i hv
        by_cases hk : k = n
        · subst hk; simp [NatMap.get, hn, Nat.ne_of_lt hn, hv]
        · simp [hk]
      · by_cases hk : k = n
        · subst hk; simp [NatMap.get]
        · by_cases hlt : k < n
          · have : k < j := Nat.lt_trans hlt hn
            simp [NatMap.get, hk, hlt, this, Nat.ne_of_lt this]
          · simp [NatMap.get, hk, hlt]
    · split
      · rename_i hnl hn
        subst hn
        split
        · rename_i hv
          by_cases hk : k = n
          · subst hk; rw [NatMap.get_above d ha]; simp [hv]
          · by_cases hlt : k < n
            · rw [NatMap.get_above d (fun e he => Nat.lt_trans hlt (ha e he))]
              simp [NatMap.get, hk, hlt]
            · simp [NatMap.get, hk, hlt]
        · by_cases hk : k = n
          · subst hk; simp [NatMap.get]
          · simp [NatMap.get, hk]
      · rename_i h1 h2
        by_cases hk : k = j
        · subst hk
          have : ¬ k = n := fun e => h2 e.symm
          simp [NatMap.get, this]
        · by_cases hlt : k < j
          · have : ¬ k = n := by omega
            simp [NatMap.get, hk, hlt, this]
          · simp [NatMap.get, hk, hlt, ih ht]

theorem NatMap.get_set_self [DecidableEq α] {d : α} {m : NatMap α} (h : NatMap.wf d m = true) (n : Nat) (v : α) :
    NatMap.get d (NatMap.set d m n v) n = v := by simp [NatMap.get_set h]

theorem NatMap.get_set_other [DecidableEq α] {d : α} {m : NatMap α} (h : NatMap.wf d m = true) {n k : Nat} (v : α) (hk : k ≠ n) :
    NatMap.get d (NatMap.set d m n v) k = NatMap.get d m k := by simp [NatMap.get_set h, hk]

/-- A write of a value that an absent key does not read as is read back, whatever the form of the map. -/
theorem NatMap.get_set_same [DecidableEq α] {d : α} (m : NatMap α) (n : Nat) {v : α} (hv : v ≠ d) : NatMap.get d (NatMap.set d m n v) n = v := by
  induction m with
  | nil => simp [NatMap.set, NatMap.get, hv]
  | cons e t ih =>
    obtain ⟨j, w⟩ := e
    by_cases h1 : n < j
    · simp [NatMap.set, h1, hv, NatMap.get]
    · by_cases h2 : n = j
      · simp [NatMap.set, h2, hv, NatMap.get]
      · simp [NatMap.set, h1, h2, NatMap.get, ih]

/-- Such a write leaves every other key as it was, whatever the form of the map. -/
theorem NatMap.get_set_ne [DecidableEq α] {d : α} (m : NatMap α) {n k : Nat} {v : α} (hv : v ≠ d) (hk : k ≠ n) :
    NatMap.get d (NatMap.set d m n v) k = NatMap.get d m k := by
  induction m with
  | nil => simp [NatMap.set, NatMap.get, hv, hk]
  | cons e t ih =>
    obtain ⟨j, w⟩ := e
    by_cases h1 : n < j
    · simp only [NatMap.set, h1, if_true, hv, if_false, NatMap.get, hk]
      split
      · rw [if_neg (by omega), if_pos (by omega)]
      · rfl
    · by_cases h2 : n = j
      · subst h2; simp [NatMap.set, hv, NatMap.get, hk]
      · simp only [NatMap.set, h1, if_false, h2, NatMap.get, ih]

/-- A write on a write to the same key. -/
theorem NatMap.set_set [DecidableEq α] {d : α} {m : NatMap α} (h : NatMap.wf d m = true) (n : Nat) (v w : α) :
    NatMap.set d (NatMap.set d m n v) n w = NatMap.set d m n w := by
  induction m with
  | nil => by_cases hv : v = d <;> simp [NatMap.set, hv]
  | cons e t ih =>
    obtain ⟨j, x⟩ := e
    obtain ⟨_, ha, ht⟩ := NatMap.wf_cons.mp h
    by_cases h1 : n < j
    · by_cases hv : v = d <;> simp [NatMap.set, h1, hv]
    · by_cases h2 : n = j
      · subst h2
        by_cases hv : v = d
        · have : NatMap.set d t n w = if w = d then t else (n, w) :: t := by
            cases t with
            | nil => rfl
            | cons e t =>
              have hlt : n < e.1 := ha e (by simp)
              obtain ⟨k, y⟩ := e
              simp only [NatMap.set, if_pos hlt]
          simp [NatMap.set, hv, this]
        · simp [NatMap.set, hv]
      · simp [NatMap.set, h1, h2, ih ht]

/-- A map changed entry by entry, read at a key. -/
theorem NatMap.get_mapVals [DecidableEq α] {d : α} {m : NatMap α} (h : NatMap.wf d m = true) (f : Nat → α → α) (hd : ∀ k, f k d = d) (n : Nat) :
    NatMap.get d (NatMap.mapVals d f m) n = f n (NatMap.get d m n) := by
  induction m with
  | nil => simp [NatMap.get, NatMap.mapVals, hd]
  | cons p t ih =>
    obtain ⟨k, v⟩ := p
    obtain ⟨h1, h2, h3⟩ := NatMap.wf_cons.mp h
    have ih := ih h3
    have ha : NatMap.Above (NatMap.mapVals d f t) k := NatMap.above_mapVals h2
    simp only [NatMap.mapVals, NatMap.get]
    split
    · rename_i hw
      split
      · rename_i hn; subst hn
        rw [NatMap.get_above d ha, hw]
      · split
        · rename_i hlt
          rw [NatMap.get_above d (fun e he => Nat.lt_trans hlt (ha e he)), hd]
        · exact ih
    · simp only [NatMap.get]
      split
      · rename_i hn; subst hn; rfl
      · split
        · simp [hd]
        · exact ih

/-- After consecutive writes, keys outside them read as before. -/
theorem NatMap.get_setList_other [DecidableEq α] {d : α} {m : NatMap α} (h : NatMap.wf d m = true) (n k : Nat) (l : List α)
    (hk : k < n ∨ n + l.length ≤ k) : NatMap.get d (NatMap.setList d m n l) k = NatMap.get d m k := by
  induction l generalizing m n with
  | nil => rfl
  | cons v t ih =>
    simp only [List.length_cons] at hk
    rw [NatMap.setList, ih (NatMap.wf_set n v h) (n + 1) (by omega), NatMap.get_set_other h v (by omega)]

end Sys2Proof.Machine
end

