-- ==== Sys2Proof/Laws/Keeps/Base.lean ====
section
/-! SUPPORT. What every operation of the device keeps: the queue of commands, mill time, the fuses burned, the lock bits, and the
canonical form of memories and tables. -/
namespace Sys2Proof.Machine
open Sys2Proof

theorem bit_or (a b n : Nat) (h : bit a n = true) : bit (a ||| b) n = true := by
  have key : ∀ x, bit x n = Nat.testBit x n := fun x => by
    rw [Bool.eq_iff_iff]
    simp [bit, Nat.testBit_eq_decide_div_mod_eq]
  rw [key] at h ⊢
  simp [Nat.testBit_or, h]

theorem Fuses.Le.refl (f : Fuses) : Fuses.Le f f := ⟨fun _ h => h, fun _ h => h⟩

theorem Fuses.Le.trans {f g h : Fuses} (p : Fuses.Le f g) (q : Fuses.Le g h) : Fuses.Le f h :=
  ⟨fun n x => q.a n (p.a n x), fun n x => q.b n (p.b n x)⟩

/-- A burn leaves every burned fuse burned. -/
theorem Fuses.le_burn (f : Fuses) (m : Nat) : Fuses.Le f (f.burn m) := ⟨fun n h => bit_or _ _ n h, fun n h => bit_or _ _ n h⟩

theorem Otp.Le.refl (a : Otp) : Otp.Le a a :=
  ⟨Fuses.Le.refl _, Fuses.Le.refl _, Fuses.Le.refl _, Fuses.Le.refl _, Fuses.Le.refl _⟩

theorem Otp.Le.trans {a b c : Otp} (h : Otp.Le a b) (g : Otp.Le b c) : Otp.Le a c :=
  ⟨h.counter.trans g.counter, h.intent.trans g.intent, h.done.trans g.done, h.revoked.trans g.revoked, h.svn.trans g.svn⟩

/-- What every operation keeps. -/
structure Keeps (s t : State) : Prop where
  pending : t.pending = s.pending
  now : t.mill.now = s.mill.now
  fuses : Otp.Le s.life.otp t.life.otp
  locks : s.LocksKept t
  canon : s.Canon → t.Canon

theorem Keeps.refl (s : State) : Keeps s s := ⟨rfl, rfl, Otp.Le.refl _, fun _ h => h, id⟩

theorem Keeps.trans {s t u : State} (h : Keeps s t) (g : Keeps t u) : Keeps s u :=
  ⟨g.pending.trans h.pending, g.now.trans h.now, h.fuses.trans g.fuses, fun b x => g.locks b (h.locks b x), fun c => g.canon (h.canon c)⟩

theorem Keeps.ite {s : State} {c : Prop} [Decidable c] {a b : State} (ha : c → Keeps s a) (hb : ¬c → Keeps s b) :
    Keeps s (if c then a else b) := by
  split
  · exact ha ‹_›
  · exact hb ‹_›

theorem Keeps.foldl {α : Type} {f : State → α → State} (h : ∀ s a, Keeps s (f s a)) (l : List α) (s : State) :
    Keeps s (l.foldl f s) := by
  induction l generalizing s with
  | nil => exact Keeps.refl s
  | cons a l ih => exact (h s a).trans (ih _)

theorem Keeps.foldlSnd {α β : Type} {f : β × State → α → β × State} (h : ∀ p a, Keeps p.2 (f p a).2) (l : List α) (p : β × State) :
    Keeps p.2 (l.foldl f p).2 := by
  induction l generalizing p with
  | nil => exact Keeps.refl _
  | cons a l ih => exact (h p a).trans (ih _)

theorem Keeps.foldlFst {α β : Type} {f : State × β → α → State × β} (h : ∀ p a, Keeps p.1 (f p a).1) (l : List α) (p : State × β) :
    Keeps p.1 (l.foldl f p).1 := by
  induction l generalizing p with
  | nil => exact Keeps.refl _
  | cons a l ih => exact (h p a).trans (ih _)

theorem NatMap.mem_set {α : Type} [DecidableEq α] {d : α} {m : NatMap α} {n : Nat} {v : α} {e : Nat × α}
    (h : e ∈ NatMap.set d m n v) : e = (n, v) ∨ e ∈ m := by
  induction m with
  | nil =>
    simp only [NatMap.set] at h
    split at h
    · cases h
    · exact .inl (by simpa using h)
  | cons p t ih =>
    obtain ⟨k, w⟩ := p
    simp only [NatMap.set] at h
    split at h
    · split at h
      · exact .inr h
      · rcases List.mem_cons.mp h with h | h
        · exact .inl h
        · exact .inr h
    · split at h
      · rename_i hk
        split at h
        · exact .inr (List.mem_cons_of_mem _ h)
        · rcases List.mem_cons.mp h with h | h
          · exact .inl (by rw [hk]; exact h)
          · exact .inr (List.mem_cons_of_mem _ h)
      · rcases List.mem_cons.mp h with h | h
        · exact .inr (h ▸ List.mem_cons_self ..)
        · rcases ih h with h | h
          · exact .inl h
          · exact .inr (List.mem_cons_of_mem _ h)

theorem NatMap.all_get {α : Type} {d : α} {m : NatMap α} {P : α → Prop} (hd : P d) (h : ∀ e ∈ m, P e.2) (n : Nat) :
    P (NatMap.get d m n) := by
  induction m with
  | nil => exact hd
  | cons p t ih =>
    obtain ⟨k, w⟩ := p
    simp only [NatMap.get]
    split
    · exact h _ (List.mem_cons_self ..)
    · split
      · exact hd
      · exact ih fun e he => h e (List.mem_cons_of_mem _ he)

theorem NatMap.all_mapVals {α : Type} [DecidableEq α] {d : α} {m : NatMap α} {P : α → Prop} {f : Nat → α → α} (hf : ∀ k x, P x → P (f k x))
    (h : ∀ e ∈ m, P e.2) : ∀ e ∈ NatMap.mapVals d f m, P e.2 := by
  induction m with
  | nil => exact h
  | cons p t ih =>
    obtain ⟨k, w⟩ := p
    have ht := ih fun e he => h e (List.mem_cons_of_mem _ he)
    simp only [NatMap.mapVals]
    split
    · exact ht
    · intro e he
      rcases List.mem_cons.mp he with he | he
      · exact he ▸ hf k w (h _ (List.mem_cons_self ..))
      · exact ht e he

theorem Tile.Canon.empty : Tile.Canon {} := ⟨rfl, rfl⟩
theorem Cluster.Canon.empty : Cluster.Canon {} := ⟨rfl, rfl, rfl⟩

/-! ### The one way into each part of the state -/

theorem State.setPart_keeps (s : State) (p : Nat) (v : Part) : Keeps s (s.setPart p v) :=
  ⟨rfl, rfl, Otp.Le.refl _, fun b h => by cases b <;> exact h,
    fun c => ⟨⟨c.mem.granary, c.mem.hbm, c.mem.pond, c.mem.tiles, c.mem.clusters⟩, ⟨(NatMap.wf_set _ _ c.tab.parts), c.tab.stageObj, c.tab.stageLen, c.tab.weirs, c.tab.querns, c.tab.resolves, c.tab.tollFails, c.tab.testNext, c.tab.testResults, c.tab.tiles, c.tab.clusters, c.tab.leats, c.tab.ctxs, c.tab.qps, c.tab.ports, c.tab.selects⟩⟩⟩

theorem State.setWeir_keeps (s : State) (p : Nat) (v : Weir) : Keeps s (s.setWeir p v) :=
  ⟨rfl, rfl, Otp.Le.refl _, fun b h => by cases b <;> exact h,
    fun c => ⟨⟨c.mem.granary, c.mem.hbm, c.mem.pond, c.mem.tiles, c.mem.clusters⟩, ⟨c.tab.parts, c.tab.stageObj, c.tab.stageLen, (NatMap.wf_set _ _ c.tab.weirs), c.tab.querns, c.tab.resolves, c.tab.tollFails, c.tab.testNext, c.tab.testResults, c.tab.tiles, c.tab.clusters, c.tab.leats, c.tab.ctxs, c.tab.qps, c.tab.ports, c.tab.selects⟩⟩⟩

theorem State.setQuern_keeps (s : State) (p d : Nat) (v : Quern) : Keeps s (s.setQuern p d v) :=
  ⟨rfl, rfl, Otp.Le.refl _, fun b h => by cases b <;> exact h,
    fun c => ⟨⟨c.mem.granary, c.mem.hbm, c.mem.pond, c.mem.tiles, c.mem.clusters⟩, ⟨c.tab.parts, c.tab.stageObj, c.tab.stageLen, c.tab.weirs, (NatMap.wf_set _ _ c.tab.querns), c.tab.resolves, c.tab.tollFails, c.tab.testNext, c.tab.testResults, c.tab.tiles, c.tab.clusters, c.tab.leats, c.tab.ctxs, c.tab.qps, c.tab.ports, c.tab.selects⟩⟩⟩

theorem State.setLeat_keeps (s : State) (c k : Nat) (v : LeatRun) : Keeps s (s.setLeat c k v) :=
  ⟨rfl, rfl, Otp.Le.refl _, fun b h => by cases b <;> exact h,
    fun c => ⟨⟨c.mem.granary, c.mem.hbm, c.mem.pond, c.mem.tiles, c.mem.clusters⟩, ⟨c.tab.parts, c.tab.stageObj, c.tab.stageLen, c.tab.weirs, c.tab.querns, c.tab.resolves, c.tab.tollFails, c.tab.testNext, c.tab.testResults, c.tab.tiles, c.tab.clusters, (NatMap.wf_set _ _ c.tab.leats), c.tab.ctxs, c.tab.qps, c.tab.ports, c.tab.selects⟩⟩⟩

theorem State.setCtx_keeps (s : State) (x : Nat) (v : Ctx) : Keeps s (s.setCtx x v) :=
  ⟨rfl, rfl, Otp.Le.refl _, fun b h => by cases b <;> exact h,
    fun c => ⟨⟨c.mem.granary, c.mem.hbm, c.mem.pond, c.mem.tiles, c.mem.clusters⟩, ⟨c.tab.parts, c.tab.stageObj, c.tab.stageLen, c.tab.weirs, c.tab.querns, c.tab.resolves, c.tab.tollFails, c.tab.testNext, c.tab.testResults, c.tab.tiles, c.tab.clusters, c.tab.leats, (NatMap.wf_set _ _ c.tab.ctxs), c.tab.qps, c.tab.ports, c.tab.selects⟩⟩⟩

theorem State.setQp_keeps (s : State) (q : Nat) (v : Qp) : Keeps s (s.setQp q v) :=
  ⟨rfl, rfl, Otp.Le.refl _, fun b h => by cases b <;> exact h,
    fun c => ⟨⟨c.mem.granary, c.mem.hbm, c.mem.pond, c.mem.tiles, c.mem.clusters⟩, ⟨c.tab.parts, c.tab.stageObj, c.tab.stageLen, c.tab.weirs, c.tab.querns, c.tab.resolves, c.tab.tollFails, c.tab.testNext, c.tab.testResults, c.tab.tiles, c.tab.clusters, c.tab.leats, c.tab.ctxs, (NatMap.wf_set _ _ c.tab.qps), c.tab.ports, c.tab.selects⟩⟩⟩

theorem State.setPort_keeps (s : State) (k : Nat) (v : Port) : Keeps s (s.setPort k v) :=
  ⟨rfl, rfl, Otp.Le.refl _, fun b h => by cases b <;> exact h,
    fun c => ⟨⟨c.mem.granary, c.mem.hbm, c.mem.pond, c.mem.tiles, c.mem.clusters⟩, ⟨c.tab.parts, c.tab.stageObj, c.tab.stageLen, c.tab.weirs, c.tab.querns, c.tab.resolves, c.tab.tollFails, c.tab.testNext, c.tab.testResults, c.tab.tiles, c.tab.clusters, c.tab.leats, c.tab.ctxs, c.tab.qps, (NatMap.wf_set _ _ c.tab.ports), c.tab.selects⟩⟩⟩

theorem State.modPart_keeps (s : State) (p : Nat) (f : Part → Part) : Keeps s (s.modPart p f) := State.setPart_keeps ..

theorem State.modWeir_keeps (s : State) (p : Nat) (f : Weir → Weir) : Keeps s (s.modWeir p f) := State.setWeir_keeps ..

theorem State.modQuern_keeps (s : State) (p d : Nat) (f : Quern → Quern) : Keeps s (s.modQuern p d f) := State.setQuern_keeps ..

theorem State.modLeat_keeps (s : State) (c k : Nat) (f : LeatRun → LeatRun) : Keeps s (s.modLeat c k f) := State.setLeat_keeps ..

theorem State.modCtx_keeps (s : State) (x : Nat) (f : Ctx → Ctx) : Keeps s (s.modCtx x f) := State.setCtx_keeps ..

theorem State.modQp_keeps (s : State) (q : Nat) (f : Qp → Qp) : Keeps s (s.modQp q f) := State.setQp_keeps ..

theorem State.modPort_keeps (s : State) (k : Nat) (f : Port → Port) : Keeps s (s.modPort k f) := State.setPort_keeps ..

theorem State.modGov_keeps (s : State) (p : Nat) (f : Gov → Gov) : Keeps s (s.modGov p f) := State.modPart_keeps ..

theorem State.setTile_keeps (s : State) (n : Nat) (v : Tile) (hv : s.Canon → v.Canon) : Keeps s (s.setTile n v) :=
  ⟨rfl, rfl, Otp.Le.refl _, fun b h => by cases b <;> exact h,
    fun c => ⟨⟨c.mem.granary, c.mem.hbm, c.mem.pond, (fun e he => (NatMap.mem_set he).elim (fun q => q ▸ hv c) (c.mem.tiles e)), c.mem.clusters⟩, ⟨c.tab.parts, c.tab.stageObj, c.tab.stageLen, c.tab.weirs, c.tab.querns, c.tab.resolves, c.tab.tollFails, c.tab.testNext, c.tab.testResults, (NatMap.wf_set _ _ c.tab.tiles), c.tab.clusters, c.tab.leats, c.tab.ctxs, c.tab.qps, c.tab.ports, c.tab.selects⟩⟩⟩

theorem State.Canon.tile {s : State} (c : s.Canon) (n : Nat) : (s.tile n).Canon :=
  NatMap.all_get (P := fun x => Tile.Canon x) Tile.Canon.empty c.mem.tiles n

theorem State.modTile_keeps (s : State) (n : Nat) (f : Tile → Tile) (hf : ∀ x, x.Canon → (f x).Canon) : Keeps s (s.modTile n f) :=
  State.setTile_keeps s n _ fun c => hf _ (c.tile n)

theorem State.setCluster_keeps (s : State) (n : Nat) (v : Cluster) (hv : s.Canon → v.Canon) : Keeps s (s.setCluster n v) :=
  ⟨rfl, rfl, Otp.Le.refl _, fun b h => by cases b <;> exact h,
    fun c => ⟨⟨c.mem.granary, c.mem.hbm, c.mem.pond, c.mem.tiles, (fun e he => (NatMap.mem_set he).elim (fun q => q ▸ hv c) (c.mem.clusters e))⟩, ⟨c.tab.parts, c.tab.stageObj, c.tab.stageLen, c.tab.weirs, c.tab.querns, c.tab.resolves, c.tab.tollFails, c.tab.testNext, c.tab.testResults, c.tab.tiles, (NatMap.wf_set _ _ c.tab.clusters), c.tab.leats, c.tab.ctxs, c.tab.qps, c.tab.ports, c.tab.selects⟩⟩⟩

theorem State.Canon.cluster {s : State} (c : s.Canon) (n : Nat) : (s.cluster n).Canon :=
  NatMap.all_get (P := fun x => Cluster.Canon x) Cluster.Canon.empty c.mem.clusters n

theorem State.modCluster_keeps (s : State) (n : Nat) (f : Cluster → Cluster) (hf : ∀ x, x.Canon → (f x).Canon) : Keeps s (s.modCluster n f) :=
  State.setCluster_keeps s n _ fun c => hf _ (c.cluster n)

theorem State.modSec_keeps (s : State) (f : Security → Security) (hf : ∀ x, x.lock = true → (f x).lock = true) : Keeps s (s.modSec f) :=
  ⟨rfl, rfl, Otp.Le.refl _, fun b h => by cases b <;> first | exact h | exact hf _ h, fun c => ⟨⟨c.mem.granary, c.mem.hbm, c.mem.pond, c.mem.tiles, c.mem.clusters⟩, ⟨c.tab.parts, c.tab.stageObj, c.tab.stageLen, c.tab.weirs, c.tab.querns, c.tab.resolves, c.tab.tollFails, c.tab.testNext, c.tab.testResults, c.tab.tiles, c.tab.clusters, c.tab.leats, c.tab.ctxs, c.tab.qps, c.tab.ports, c.tab.selects⟩⟩⟩

theorem State.modMce_keeps (s : State) (f : Mce → Mce) (hf : ∀ x, x.lock = true → (f x).lock = true) : Keeps s (s.modMce f) :=
  ⟨rfl, rfl, Otp.Le.refl _, fun b h => by cases b <;> first | exact h | exact hf _ h, fun c => ⟨⟨c.mem.granary, c.mem.hbm, c.mem.pond, c.mem.tiles, c.mem.clusters⟩, ⟨c.tab.parts, c.tab.stageObj, c.tab.stageLen, c.tab.weirs, c.tab.querns, c.tab.resolves, c.tab.tollFails, c.tab.testNext, c.tab.testResults, c.tab.tiles, c.tab.clusters, c.tab.leats, c.tab.ctxs, c.tab.qps, c.tab.ports, c.tab.selects⟩⟩⟩

theorem State.modRas_keeps (s : State) (f : Ras → Ras) (hf : ∀ x, x.lock = true → (f x).lock = true) : Keeps s (s.modRas f) :=
  ⟨rfl, rfl, Otp.Le.refl _, fun b h => by cases b <;> first | exact h | exact hf _ h, fun c => ⟨⟨c.mem.granary, c.mem.hbm, c.mem.pond, c.mem.tiles, c.mem.clusters⟩, ⟨c.tab.parts, c.tab.stageObj, c.tab.stageLen, c.tab.weirs, c.tab.querns, c.tab.resolves, c.tab.tollFails, c.tab.testNext, c.tab.testResults, c.tab.tiles, c.tab.clusters, c.tab.leats, c.tab.ctxs, c.tab.qps, c.tab.ports, c.tab.selects⟩⟩⟩

theorem State.modPwr_keeps (s : State) (f : Power → Power) (hf : ∀ x, x.lock = true → (f x).lock = true) : Keeps s (s.modPwr f) :=
  ⟨rfl, rfl, Otp.Le.refl _, fun b h => by cases b <;> first | exact h | exact hf _ h, fun c => ⟨⟨c.mem.granary, c.mem.hbm, c.mem.pond, c.mem.tiles, c.mem.clusters⟩, ⟨c.tab.parts, c.tab.stageObj, c.tab.stageLen, c.tab.weirs, c.tab.querns, c.tab.resolves, c.tab.tollFails, c.tab.testNext, c.tab.testResults, c.tab.tiles, c.tab.clusters, c.tab.leats, c.tab.ctxs, c.tab.qps, c.tab.ports, c.tab.selects⟩⟩⟩

theorem State.modEth_keeps (s : State) (f : EthRegs → EthRegs) (hf : ∀ x, x.lock = true → (f x).lock = true) : Keeps s (s.modEth f) :=
  ⟨rfl, rfl, Otp.Le.refl _, fun b h => by cases b <;> first | exact h | exact hf _ h, fun c => ⟨⟨c.mem.granary, c.mem.hbm, c.mem.pond, c.mem.tiles, c.mem.clusters⟩, ⟨c.tab.parts, c.tab.stageObj, c.tab.stageLen, c.tab.weirs, c.tab.querns, c.tab.resolves, c.tab.tollFails, c.tab.testNext, c.tab.testResults, c.tab.tiles, c.tab.clusters, c.tab.leats, c.tab.ctxs, c.tab.qps, c.tab.ports, c.tab.selects⟩⟩⟩

theorem State.modMem_keeps (s : State) (f : MemRegs → MemRegs) (hf : ∀ x, x.lock = true → (f x).lock = true) : Keeps s (s.modMem f) :=
  ⟨rfl, rfl, Otp.Le.refl _, fun b h => by cases b <;> first | exact h | exact hf _ h, fun c => ⟨⟨c.mem.granary, c.mem.hbm, c.mem.pond, c.mem.tiles, c.mem.clusters⟩, ⟨c.tab.parts, c.tab.stageObj, c.tab.stageLen, c.tab.weirs, c.tab.querns, c.tab.resolves, c.tab.tollFails, c.tab.testNext, c.tab.testResults, c.tab.tiles, c.tab.clusters, c.tab.leats, c.tab.ctxs, c.tab.qps, c.tab.ports, c.tab.selects⟩⟩⟩

theorem State.modMill_keeps (s : State) (f : Mill → Mill) (hf : ∀ x, (x.lock = true → (f x).lock = true) ∧ (f x).now = x.now) : Keeps s (s.modMill f) :=
  ⟨rfl, (hf _).2, Otp.Le.refl _, fun b h => by cases b <;> first | exact h | exact (hf _).1 h, fun c => ⟨⟨c.mem.granary, c.mem.hbm, c.mem.pond, c.mem.tiles, c.mem.clusters⟩, ⟨c.tab.parts, c.tab.stageObj, c.tab.stageLen, c.tab.weirs, c.tab.querns, c.tab.resolves, c.tab.tollFails, c.tab.testNext, c.tab.testResults, c.tab.tiles, c.tab.clusters, c.tab.leats, c.tab.ctxs, c.tab.qps, c.tab.ports, c.tab.selects⟩⟩⟩

theorem State.modBoard_keeps (s : State) (f : Board → Board) : Keeps s (s.modBoard f) :=
  ⟨rfl, rfl, Otp.Le.refl _, fun b h => by cases b <;> first | exact h | exact h, fun c => ⟨⟨c.mem.granary, c.mem.hbm, c.mem.pond, c.mem.tiles, c.mem.clusters⟩, ⟨c.tab.parts, c.tab.stageObj, c.tab.stageLen, c.tab.weirs, c.tab.querns, c.tab.resolves, c.tab.tollFails, c.tab.testNext, c.tab.testResults, c.tab.tiles, c.tab.clusters, c.tab.leats, c.tab.ctxs, c.tab.qps, c.tab.ports, c.tab.selects⟩⟩⟩

theorem State.modLife_keeps (s : State) (f : Life → Life) (hf : ∀ x, Otp.Le x.otp (f x).otp) : Keeps s (s.modLife f) :=
  ⟨rfl, rfl, hf _, fun b h => by cases b <;> first | exact h | exact h, fun c => ⟨⟨c.mem.granary, c.mem.hbm, c.mem.pond, c.mem.tiles, c.mem.clusters⟩, ⟨c.tab.parts, c.tab.stageObj, c.tab.stageLen, c.tab.weirs, c.tab.querns, c.tab.resolves, c.tab.tollFails, c.tab.testNext, c.tab.testResults, c.tab.tiles, c.tab.clusters, c.tab.leats, c.tab.ctxs, c.tab.qps, c.tab.ports, c.tab.selects⟩⟩⟩

theorem Keeps.via {s t : State} (x : State) (h : Keeps s x) (g : Keeps s x → Keeps s t) : Keeps s t := g h
theorem Keeps.via2 {α : Type} {s t : State} (x : α × State) (h : Keeps s x.2) (g : Keeps s x.2 → Keeps s t) : Keeps s t := g h
theorem Keeps.via1 {α : Type} {s t : State} (x : State × α) (h : Keeps s x.1) (g : Keeps s x.1 → Keeps s t) : Keeps s t := g h
theorem Keeps.via22 {α β : Type} {s t : State} (x : α × β × State) (h : Keeps s x.2.2) (g : Keeps s x.2.2 → Keeps s t) : Keeps s t := g h
theorem Keeps.eq2 {α : Type} {s t : State} {p : α × State} {x : α} (h : Keeps s p.2) (e : p = (x, t)) : Keeps s t := by
  rw [e] at h
  exact h
theorem Keeps.eq1 {α : Type} {s t : State} {p : State × α} {x : α} (h : Keeps s p.1) (e : p = (t, x)) : Keeps s t := by
  rw [e] at h
  exact h
theorem Keeps.eq22 {α β : Type} {s t : State} {p : α × β × State} {x : α} {y : β} (h : Keeps s p.2.2) (e : p = (x, y, t)) : Keeps s t := by
  rw [e] at h
  exact h
theorem Keeps.foldl22 {α β γ : Type} {f : β × γ × State → α → β × γ × State} (h : ∀ p a, Keeps p.2.2 (f p a).2.2) (l : List α)
    (p : β × γ × State) : Keeps p.2.2 (l.foldl f p).2.2 := by
  induction l generalizing p with
  | nil => exact Keeps.refl _
  | cons a l ih => exact (h p a).trans (ih _)
theorem Keeps.foldl222 {α β γ δ : Type} {f : β × γ × δ × State → α → β × γ × δ × State} (h : ∀ p a, Keeps p.2.2.2 (f p a).2.2.2)
    (l : List α) (p : β × γ × δ × State) : Keeps p.2.2.2 (l.foldl f p).2.2.2 := by
  induction l generalizing p with
  | nil => exact Keeps.refl _
  | cons a l ih => exact (h p a).trans (ih _)
theorem Keeps.viaTile {s t : State} (x : Tile) (h : s.Canon → x.Canon) (g : (s.Canon → x.Canon) → Keeps s t) : Keeps s t := g h
theorem State.setTile_keeps2 {s u : State} (n : Nat) (v : Tile) (h : Keeps s u) (hv : s.Canon → v.Canon) : Keeps s (u.setTile n v) :=
  ⟨h.pending, h.now, h.fuses, (h.trans (State.setTile_keeps u n {} fun _ => Tile.Canon.empty)).locks, fun c =>
    have d := h.canon c
    ⟨{ d.mem with tiles := fun e he => (NatMap.mem_set he).elim (fun q => q ▸ hv c) (d.mem.tiles e) },
      { d.tab with tiles := NatMap.wf_set _ _ d.tab.tiles }⟩⟩
theorem Keeps.via222 {α β γ : Type} {s t : State} (x : α × β × γ × State) (h : Keeps s x.2.2.2) (g : Keeps s x.2.2.2 → Keeps s t) :
    Keeps s t := g h

/-- A change of the state by parts. -/
theorem Keeps.upd {s : State} {mill : Mill} {parts : NatMap Part} {stagedFull : Option Stream} {device : List Byte} {stageObj : NatMap Nat} {stageLen : NatMap Nat} {partLock : Bool} {weirs : NatMap Weir} {querns : NatMap Quern} {resolves : NatMap Resolve} {tollFails : NatMap Counter} {testNext : NatMap Nat} {testResults : NatMap TestResult} {tiles : NatMap Tile} {clusters : NatMap Cluster} {tollQueue : List TollCall} {granary : NatMap Byte} {hbm : Dram} {pond : Dram} {leats : NatMap LeatRun} {mem : MemRegs} {ctxs : NatMap Ctx} {ctxRegs : CtxRegs} {pendingFrees : List PendingFree} {copyJobs : List CopyJob} {qps : NatMap Qp} {ports : NatMap Port} {eth : EthRegs} {sec : Security} {board : Board} {mce : Mce} {life : Life} {ras : Ras} {pwr : Power} {selects : NatMap Selects} {selFactory : Selects} {selBoard : Selects} {out : List OutMsg} {draws : Nat}
    (hnow : mill.now = s.mill.now) (hotp : life.otp = s.life.otp)
    (lGov : mill.lock = s.mill.lock) (lPart : partLock = s.partLock) (lMem : mem.lock = s.mem.lock)
    (lMce : mce.lock = s.mce.lock) (lEth : eth.lock = s.eth.lock) (lSec : sec.lock = s.sec.lock) (lPwr : pwr.lock = s.pwr.lock)
    (lRas : ras.lock = s.ras.lock)
    (canon : s.Canon → State.Canon (State.mk s.pending mill parts stagedFull device stageObj stageLen partLock weirs querns resolves tollFails testNext testResults tiles clusters tollQueue granary hbm pond leats mem ctxs ctxRegs pendingFrees copyJobs qps ports eth sec board mce life ras pwr selects selFactory selBoard out draws)) :
    Keeps s (State.mk s.pending mill parts stagedFull device stageObj stageLen partLock weirs querns resolves tollFails testNext testResults tiles clusters tollQueue granary hbm pond leats mem ctxs ctxRegs pendingFrees copyJobs qps ports eth sec board mce life ras pwr selects selFactory selBoard out draws) :=
  ⟨rfl, hnow, hotp ▸ Otp.Le.refl _, fun b h => by
    cases b
    · exact lGov.trans h
    · exact lPart.trans h
    · exact lMem.trans h
    · exact lMce.trans h
    · exact lEth.trans h
    · exact lSec.trans h
    · exact lPwr.trans h
    · exact lRas.trans h, canon⟩

end Sys2Proof.Machine
end

