-- ==== Sys2Proof/Laws/Memory.lean ====
section
/-! SUPPORT. Every memory operation keeps the canonical form, and changes no byte outside what it writes. -/
namespace Sys2Proof.Machine
open Sys2Proof

/-- What every step of a fold keeps, the fold keeps. -/
theorem foldl_keeps {α β : Type} {P : β → Prop} {f : β → α → β} (hf : ∀ b a, P b → P (f b a)) (l : List α) {b : β} (h : P b) :
    P (l.foldl f b) := by
  induction l generalizing b with
  | nil => exact h
  | cons a l ih => exact ih (hf b a h)

/-! ### Granary -/

theorem writeGran_wf {m : NatMap Byte} (sl : List Nat) (off : Nat) (bs : List Byte) (h : NatMap.wf 0 m = true) :
    NatMap.wf 0 (writeGran m sl off bs) = true :=
  foldl_keeps (P := fun m => NatMap.wf 0 m = true) (fun _ _ h => NatMap.wf_set _ _ h) _ h

/-- A Granary write changes no byte but those it writes. -/
theorem writeGran_get_other {m : NatMap Byte} (h : NatMap.wf 0 m = true) (sl : List Nat) (off : Nat) (bs : List Byte) (k : Nat)
    (hk : ∀ i < bs.length, k ≠ granKey sl (off + i)) : NatMap.get 0 (writeGran m sl off bs) k = NatMap.get 0 m k := by
  suffices ∀ (l : List (Byte × Nat)) (m : NatMap Byte), NatMap.wf 0 m = true → (∀ p ∈ l, k ≠ granKey sl (off + p.2)) →
      NatMap.get 0 (l.foldl (fun m b => NatMap.set 0 m (granKey sl (off + b.2)) b.1) m) k = NatMap.get 0 m k from
    this _ _ h fun p hp => by
      obtain ⟨i, hi, rfl⟩ := List.getElem_of_mem hp
      simp only [List.getElem_zipIdx, Nat.zero_add]
      exact hk i (by simpa using hi)
  intro l
  induction l with
  | nil => exact fun _ _ _ => rfl
  | cons p l ih =>
    intro m hm hl
    rw [List.foldl_cons, ih _ (NatMap.wf_set _ _ hm) fun q hq => hl q (List.mem_cons_of_mem _ hq),
      NatMap.get_set_other hm _ (hl p (List.mem_cons_self ..))]

/-! ### HBM and Pond -/

theorem Dram.setLine_canon {d : Dram} (n : Nat) (l : LineMeta) (h : d.Canon) : (d.setLine n l).Canon :=
  ⟨h.bytes, NatMap.wf_set _ _ h.lines⟩

theorem Dram.poison_canon {d : Dram} (n : Nat) (h : d.Canon) : (d.poison n).Canon := d.setLine_canon _ _ h

theorem Dram.correct_canon {d : Dram} (n : Nat) (h : d.Canon) : (d.correct n).Canon := d.setLine_canon _ _ h

theorem Dram.put_canon {d : Dram} (a : Nat) (bs : List Byte) (h : d.Canon) : (d.put a bs).Canon :=
  ⟨NatMap.wf_setList _ _ h.bytes, h.lines⟩

theorem Dram.readLine_canon (c : Cred) (p : Dram × LineOutcome) (n : Nat) (h : p.1.Canon) : (Dram.readLine c p n).1.Canon := by
  unfold Dram.readLine
  split
  · exact h
  · exact Dram.correct_canon _ h
  · exact Dram.poison_canon _ h
  · exact h
  · exact h

theorem Dram.writeLine_canon (c : Cred) (a : Nat) (bs : List Byte) (p : Dram × LineOutcome) (n : Nat) (h : p.1.Canon) :
    (Dram.writeLine c a bs p n).1.Canon := by
  unfold Dram.writeLine
  dsimp only
  split
  · exact Dram.setLine_canon _ _ (Dram.put_canon _ _ h)
  · split
    · exact Dram.put_canon _ _ h
    · exact Dram.correct_canon _ (Dram.put_canon _ _ h)
    · exact Dram.poison_canon _ h
    · exact h
    · exact Dram.poison_canon _ h

theorem Dram.read_canon (d : Dram) (c : Cred) (a len : Nat) (h : d.Canon) : (d.read c a len).2.1.Canon :=
  foldl_keeps (P := fun p : Dram × LineOutcome => p.1.Canon) (fun p n => Dram.readLine_canon c p n) _ h

theorem Dram.write_canon (d : Dram) (c : Cred) (a : Nat) (bs : List Byte) (h : d.Canon) : (d.write c a bs).1.Canon :=
  foldl_keeps (P := fun p : Dram × LineOutcome => p.1.Canon) (fun p n => Dram.writeLine_canon c a bs p n) _ h

theorem Dram.readRuns_canon (c : Cred) (l : List (Nat × Nat)) (d : Dram) (h : d.Canon) : (Dram.readRuns c l d).2.1.Canon := by
  induction l generalizing d with
  | nil => exact h
  | cons p l ih => exact ih _ (Dram.read_canon _ _ _ _ h)

theorem Dram.writeRuns_canon (c : Cred) (l : List (Nat × Nat)) (bs : List Byte) (d : Dram) (h : d.Canon) :
    (Dram.writeRuns c l bs d).1.Canon := by
  induction l generalizing d bs with
  | nil => exact h
  | cons p l ih => exact ih _ _ (Dram.write_canon _ _ _ _ h)

/-- Reading changes no byte. -/
theorem Dram.read_bytes (d : Dram) (c : Cred) (a len : Nat) : (d.read c a len).2.1.bytes = d.bytes :=
  foldl_keeps (P := fun p : Dram × LineOutcome => p.1.bytes = d.bytes) (fun p n h => by
    unfold Dram.readLine
    split <;> exact h) _ rfl

/-- A write changes no byte outside its range (R347). -/
theorem Dram.write_get_outside (d : Dram) (c : Cred) (a : Nat) (bs : List Byte) (h : d.Canon) (k : Nat)
    (hk : k < a ∨ a + bs.length ≤ k) : (d.write c a bs).1.get k = d.get k := by
  refine (foldl_keeps (P := fun p : Dram × LineOutcome => p.1.Canon ∧ p.1.get k = d.get k) (fun p n hp => ?_) _ ⟨h, rfl⟩).2
  refine ⟨Dram.writeLine_canon c a bs p n hp.1, ?_⟩
  have put : ∀ l, k < max a (64 * n) ∨ max a (64 * n) + l ≤ k → ∀ part : List Byte, part.length ≤ l →
      (p.1.put (max a (64 * n)) part).get k = d.get k := fun l hl part hpart => by
    refine (NatMap.get_setList_other hp.1.bytes _ _ _ ?_).trans hp.2
    omega
  unfold Dram.writeLine
  dsimp only
  have hlen : ∀ i l : Nat, (slice bs i l).length ≤ l := fun i l => by
    unfold slice
    exact List.length_take_le ..
  have hout : k < max a (64 * n) ∨ max a (64 * n) + (min (a + bs.length) (64 * n + 64) - max a (64 * n)) ≤ k ∨
      min (a + bs.length) (64 * n + 64) ≤ max a (64 * n) := by omega
  have key : (p.1.put (max a (64 * n)) (slice bs (max a (64 * n) - a) (min (a + bs.length) (64 * n + 64) - max a (64 * n)))).get k
      = d.get k := by
    rcases hout with h1 | h1 | h1
    · exact put _ (.inl h1) _ (hlen _ _)
    · exact put _ (.inr h1) _ (hlen _ _)
    · rw [Nat.sub_eq_zero_of_le h1]
      have : slice bs (max a (64 * n) - a) 0 = [] := by simp [slice]
      rw [this]
      exact hp.2
  split
  · exact key
  · split
    · exact key
    · exact key
    · exact hp.2
    · exact hp.2
    · exact hp.2

/-! ### Tiles -/

theorem Tile.setCell_canon {t : Tile} (r i j : Nat) (v : Word32) (h : t.Canon) : (t.setCell r i j v).Canon :=
  ⟨NatMap.wf_set _ _ h.regs, h.scratch⟩

theorem Tile.setElem_canon {t : Tile} (w r i j v : Nat) (h : t.Canon) : (t.setElem w r i j v).Canon := t.setCell_canon _ _ _ _ h

theorem Tile.setLine_canon {t : Tile} (axis r l : Nat) (v : List Word32) (h : t.Canon) : (t.setLine axis r l v).Canon :=
  foldl_keeps (P := Tile.Canon) (fun t p h => by
    split
    · exact t.setCell_canon _ _ _ _ h
    · exact t.setCell_canon _ _ _ _ h) _ h

theorem Tile.setArr_canon {t : Tile} (b : Bool) (a : MatrixArray) (h : t.Canon) : (t.setArr b a).Canon := by
  unfold Tile.setArr
  split <;> exact ⟨h.regs, h.scratch⟩

theorem Tile.statUpdate_canon {t : Tile} (tag : Nat) (a : StatAdd) (h : t.Canon) : (t.statUpdate tag a).1.Canon := by
  unfold Tile.statUpdate
  split
  · exact h
  · split
    · exact h
    · exact ⟨h.regs, h.scratch⟩

theorem Tile.stream_canon {t : Tile} (m : MmaTop) (arr : Bool) (a : MmaArm) (h : t.Canon) : (t.stream m arr a).Canon := by
  unfold Tile.stream
  split
  · exact h
  · split
    · exact Tile.setArr_canon _ _ h
    · exact h

theorem Tile.loadWeights_canon {t : Tile} (m : MmaTop) (arr : Bool) (a : MmaArm) (h : t.Canon) : (t.loadWeights m arr a).Canon := by
  unfold Tile.loadWeights
  split
  · exact h
  · split
    · exact h
    · exact Tile.setArr_canon _ _ h

theorem Tile.mmaLoad_canon {t : Tile} (top : Top) (h : t.Canon) : (t.mmaLoad top).Canon :=
  foldl_keeps (P := Tile.Canon) (fun _ _ h => Tile.loadWeights_canon _ _ _ h) _ h

theorem Tile.mmaStream_canon {t : Tile} (top : Top) (h : t.Canon) : (t.mmaStream top).Canon :=
  foldl_keeps (P := Tile.Canon) (fun _ _ h => Tile.stream_canon _ _ _ h) _ h

theorem Tile.mmaClose_canon {t : Tile} (top : Top) (h : t.Canon) : (t.mmaClose top).Canon :=
  foldl_keeps (P := Tile.Canon) (fun t p h => by
    split
    · exact h
    · exact Tile.setArr_canon _ _ h) _ h

theorem drainRow_canon (env : TileEnv) (op : Nat) (t : Tile) (d : DrainTop) (o : DrainOut) (i : Nat) (h : o.tile.Canon) :
    (drainRow env op t d o i).tile.Canon := by
  unfold drainRow
  extract_lets r vs st tile ns a5 e k b nw stats w bytes u tile2 beta byte tile3
  have ht : tile.Canon := by
    dsimp only [tile]
    split
    · exact Tile.setCell_canon _ _ _ _ (Tile.setCell_canon _ _ _ _ h)
    · exact h
  split
  · exact ht
  · split
    · exact ht
    · have h2 : tile2.Canon := foldl_keeps (P := Tile.Canon) (fun _ _ h => Tile.setElem_canon _ _ _ _ _ h) _ ht
      show tile3.Canon
      dsimp only [tile3]
      split
      · exact Tile.setElem_canon _ _ _ _ _ h2
      · exact h2

theorem drainStart_canon (env : TileEnv) (op : Nat) (t : Tile) (top : Top) (h : t.Canon) :
    (drainStart env op t top).tile.Canon := by
  unfold drainStart drainRows
  exact foldl_keeps (P := fun o => Tile.Canon (DrainOut.tile o)) (fun o i h => drainRow_canon _ _ _ _ o i h) _ h

theorem drainFinish_canon {t : Tile} (top : Top) (h : t.Canon) : (drainFinish t top).1.Canon := by
  unfold drainFinish
  extract_lets d g
  split <;> exact Tile.setArr_canon _ _ h

theorem Tile.settle_canon {x : Tile} (h : x.Canon) : x.settle.Canon := by
  unfold Tile.settle
  split
  · exact ⟨h.regs, h.scratch⟩
  · exact h

theorem Tile.abandon_canon {x : Tile} (brake : Bool) (h : x.Canon) : (x.abandon brake).Canon :=
  Tile.settle_canon ⟨h.regs, h.scratch⟩

theorem Tile.scrub_canon (x : Tile) : x.scrub.Canon := ⟨rfl, rfl⟩

theorem Tile.tested_canon (x : Tile) (r : SliceResult) (logic memory : Bool) : (x.tested r logic memory).Canon := by
  unfold Tile.tested
  dsimp only
  split <;> split <;> exact ⟨rfl, rfl⟩

theorem placeReduction_canon {t : Tile} (x : VecTop) (l : Nat) (r : Word32) (h : t.Canon) : (placeReduction t x l r).Canon := by
  unfold placeReduction
  extract_lets p
  split
  · exact Tile.setLine_canon _ _ _ _ h
  · split
    · exact Tile.setCell_canon _ _ _ _ h
    · exact Tile.setCell_canon _ _ _ _ h
  · exact Tile.setCell_canon _ _ _ _ h

theorem vecResult_canon (env : TileEnv) {t : Tile} (x : VecTop) (h : t.Canon) : (vecResult env t x).tile.Canon := by
  unfold vecResult
  repeat' split
  · exact h
  · exact foldl_keeps (P := Tile.Canon) (fun _ _ h => Tile.setLine_canon _ _ _ _ h) _ h
  · exact foldl_keeps (P := Tile.Canon) (fun _ _ h => Tile.setLine_canon _ _ _ _ h) _ h
  · exact foldl_keeps (P := Tile.Canon) (fun _ _ h => placeReduction_canon _ _ _ h) _ h
  · exact foldl_keeps (P := Tile.Canon)
      (fun _ _ h => foldl_keeps (P := Tile.Canon) (fun _ _ h => Tile.setElem_canon _ _ _ _ _ h) _ h) _ h
  · exact h
  · exact foldl_keeps (P := Tile.Canon) (fun _ _ h => Tile.setLine_canon _ _ _ _ h) _ ⟨h.regs, h.scratch⟩
  · exact foldl_keeps (P := Tile.Canon) (fun _ _ h => Tile.setLine_canon _ _ _ _ h) _ h

theorem runVec_canon (env : TileEnv) {t : Tile} (top : Top) (h : t.Canon) : (runVec env t top).1.Canon := vecResult_canon _ _ h

theorem tinCvtTo_canon (t : Tile) (x : TinTop) (o : VecOut) (j : Nat) (h : o.tile.Canon) : (tinCvtTo t x o j).tile.Canon := by
  unfold tinCvtTo
  extract_lets row k vs blk b0 b1 tile1 tile2 tile3
  have h1 : tile1.Canon := Tile.setLine_canon _ _ _ _ h
  have h2 : tile2.Canon := by
    dsimp only [tile2]
    split
    · exact Tile.setElem_canon _ _ _ _ _ h1
    · exact h1
  show tile3.Canon
  dsimp only [tile3]
  split
  · exact Tile.setElem_canon _ _ _ _ _ h2
  · exact h2

theorem runTinCvt_canon {t : Tile} (top : Top) (h : t.Canon) : (runTinCvt t top).1.Canon := by
  unfold runTinCvt
  extract_lets x o
  show Tile.Canon (VecOut.tile o)
  refine foldl_keeps (P := fun o => Tile.Canon (VecOut.tile o)) (fun o i h => ?_) _ h
  split
  · exact Tile.setLine_canon _ _ _ _ h
  · exact tinCvtTo_canon _ _ _ _ h

theorem Tile.loadRow_canon {x : Tile} (d : XferTop) (i : Nat) (bs : List Byte) (h : x.Canon) : (x.loadRow d i bs).Canon := by
  unfold Tile.loadRow
  split
  · exact foldl_keeps (P := Tile.Canon) (fun _ _ h => Tile.setElem_canon _ _ _ _ _ h) _ h
  · exact foldl_keeps (P := Tile.Canon) (fun _ _ h => Tile.setCell_canon _ _ _ _ h) _ h

theorem Tile.phaseStart_canon {x : Tile} (k : Word64 × Word64) (h : x.Canon) : (x.phaseStart k).1.Canon := by
  unfold Tile.phaseStart
  extract_lets gs x1 x2
  have h2 : x2.Canon := foldl_keeps (P := Tile.Canon) (fun _ _ h => Tile.statUpdate_canon _ _ h) _ ⟨h.regs, h.scratch⟩
  exact ⟨h2.regs, h2.scratch⟩

theorem Cluster.unstall_canon {x : Cluster} (h : x.Canon) : x.unstall.Canon := ⟨h.sram, h.imem, h.dmem⟩

theorem Cluster.load_canon (x : Cluster) (st : Stream) (p c : Nat) : (x.load st p c).Canon :=
  ⟨foldl_keeps (P := fun m => NatMap.wf 0 m = true) (fun _ _ h => NatMap.wf_setList _ _ h) _ rfl,
    NatMap.wf_setList _ _ rfl, NatMap.wf_setList _ _ (NatMap.wf_setList _ _ (NatMap.wf_setList _ _ rfl))⟩

/-! ### Good lines -/

/-- Lines that the engine finds good leave the memory and the outcome as they are (R351). -/
theorem Dram.readLines_good {c : Cred} {d : Dram} {o : LineOutcome} {l : List Nat} (h : (l.all fun n => decide ((d.line n).find c n = .good)) = true) :
    l.foldl (Dram.readLine c) (d, o) = (d, o) := by
  induction l with
  | nil => rfl
  | cons n t ih =>
    simp only [List.all_cons, Bool.and_eq_true, decide_eq_true_eq] at h
    simp only [List.foldl_cons, Dram.readLine, h.1, ih h.2]

/-- A read in runs whose every line is good delivers the bytes, leaves the memory and counts nothing. -/
theorem Dram.readRuns_good {c : Cred} {d : Dram} {runs : List (Nat × Nat)}
    (h : (runs.all fun r => (linesOf r.1 r.2).all fun n => decide ((d.line n).find c n = .good)) = true) :
    Dram.readRuns c runs d = ((runs.map fun r => (List.range r.2).map fun i => d.get (r.1 + i)).flatten, d, {}) := by
  induction runs with
  | nil => rfl
  | cons r t ih =>
    simp only [List.all_cons, Bool.and_eq_true] at h
    simp only [Dram.readRuns, Dram.read, Dram.readLines_good h.1, ih h.2, List.map_cons, List.flatten_cons]
    rfl

end Sys2Proof.Machine
end

