-- ==== Sys2Proof/Laws/Keeps/Ops.lean ====
section
/-! SUPPORT. What every operation of `Machine/Ops.lean` keeps (`Keeps`). -/
set_option linter.unusedTactic false
set_option linter.unreachableTactic false
namespace Sys2Proof.Machine
open Sys2Proof

theorem State.send_keeps (s : State) (m : OutMsg) : Keeps s (State.send s m) := by
  unfold State.send
  iterate 60 all_goals try first
    | with_reducible first
      | assumption
      | exact Keeps.refl _
      | apply Keeps.ite
      | apply Keeps.trans ?_ (Keeps.foldl (h := ?_) ..)
      | apply Keeps.trans ?_ (Keeps.foldlSnd (h := ?_) ..)
      | apply Keeps.trans ?_ (Keeps.foldlFst (h := ?_) ..)
    | refine fun _ => ?_
    | (lift_lets; intro xv; refine Keeps.via xv ?_ (fun hx => ?_); clear_value (hv : xv = _); subst hv; rotate_left; clear_value xv)
    | (lift_lets; intro xv; refine Keeps.viaTile xv ?_ (fun hx => ?_); clear_value (hv : xv = _); subst hv; rotate_left; clear_value xv)
    | (lift_lets; intro xv; refine Keeps.via2 xv ?_ (fun hx => ?_); clear_value (hv : xv = _); subst hv; rotate_left; clear_value xv)
    | (lift_lets; intro xv; refine Keeps.via1 xv ?_ (fun hx => ?_); clear_value (hv : xv = _); subst hv; rotate_left; clear_value xv)
    | (lift_lets; intro xv; refine Keeps.via22 xv ?_ (fun hx => ?_); clear_value (hv : xv = _); subst hv; rotate_left; clear_value xv)
    | (lift_lets; intro xv; refine Keeps.via222 xv ?_ (fun hx => ?_); clear_value (hv : xv = _); subst hv; rotate_left; clear_value xv)
    | (lift_lets; intro xv; clear_value xv)
    | split
    | (lift_lets; intro _)
    | (refine Keeps.trans ?_ (Keeps.upd rfl rfl rfl rfl rfl rfl rfl rfl rfl rfl ?cn); case cn => (rintro ⟨⟨_, _, _, _, _⟩, ⟨_, _, _, _, _, _, _, _, _, _, _, _, _, _, _, _⟩⟩; constructor <;> constructor <;> dsimp only <;> first | with_reducible assumption | (with_reducible apply NatMap.wf_set; with_reducible assumption) | (unfold NatMap.modify; with_reducible apply NatMap.wf_set; with_reducible assumption) | (with_reducible apply NatMap.wf_mapVals; with_reducible assumption) | (with_reducible apply NatMap.wf_filter; with_reducible assumption) | (with_reducible apply writeGran_wf; with_reducible assumption) | (refine foldl_keeps (P := fun m => NatMap.wf _ m = true) (fun _ _ h => ?_) _ ?_ <;> first | with_reducible assumption | exact writeGran_wf _ _ _ h | exact NatMap.wf_set _ _ h) | rfl))

theorem State.sendAll_keeps (s : State) (l : List OutMsg) : Keeps s (State.sendAll s l) := by
  unfold State.sendAll
  iterate 60 all_goals try first
    | with_reducible first
      | assumption
      | exact Keeps.refl _
      | apply Keeps.trans ?_ (State.send_keeps ..)
      | apply Keeps.ite
      | apply Keeps.trans ?_ (Keeps.foldl (h := ?_) ..)
      | apply Keeps.trans ?_ (Keeps.foldlSnd (h := ?_) ..)
      | apply Keeps.trans ?_ (Keeps.foldlFst (h := ?_) ..)
    | refine fun _ => ?_
    | (lift_lets; intro xv; refine Keeps.via xv ?_ (fun hx => ?_); clear_value (hv : xv = _); subst hv; rotate_left; clear_value xv)
    | (lift_lets; intro xv; refine Keeps.viaTile xv ?_ (fun hx => ?_); clear_value (hv : xv = _); subst hv; rotate_left; clear_value xv)
    | (lift_lets; intro xv; refine Keeps.via2 xv ?_ (fun hx => ?_); clear_value (hv : xv = _); subst hv; rotate_left; clear_value xv)
    | (lift_lets; intro xv; refine Keeps.via1 xv ?_ (fun hx => ?_); clear_value (hv : xv = _); subst hv; rotate_left; clear_value xv)
    | (lift_lets; intro xv; refine Keeps.via22 xv ?_ (fun hx => ?_); clear_value (hv : xv = _); subst hv; rotate_left; clear_value xv)
    | (lift_lets; intro xv; refine Keeps.via222 xv ?_ (fun hx => ?_); clear_value (hv : xv = _); subst hv; rotate_left; clear_value xv)
    | (lift_lets; intro xv; clear_value xv)
    | split
    | (lift_lets; intro _)

theorem State.countPortDrop_keeps (s : State) (k : Nat) : Keeps s (State.countPortDrop s k) := by
  unfold State.countPortDrop
  iterate 60 all_goals try first
    | with_reducible first
      | assumption
      | exact Keeps.refl _
      | apply Keeps.trans ?_ (State.modPort_keeps ..)
      | apply Keeps.ite
      | apply Keeps.trans ?_ (Keeps.foldl (h := ?_) ..)
      | apply Keeps.trans ?_ (Keeps.foldlSnd (h := ?_) ..)
      | apply Keeps.trans ?_ (Keeps.foldlFst (h := ?_) ..)
    | refine fun _ => ?_
    | (lift_lets; intro xv; refine Keeps.via xv ?_ (fun hx => ?_); clear_value (hv : xv = _); subst hv; rotate_left; clear_value xv)
    | (lift_lets; intro xv; refine Keeps.viaTile xv ?_ (fun hx => ?_); clear_value (hv : xv = _); subst hv; rotate_left; clear_value xv)
    | (lift_lets; intro xv; refine Keeps.via2 xv ?_ (fun hx => ?_); clear_value (hv : xv = _); subst hv; rotate_left; clear_value xv)
    | (lift_lets; intro xv; refine Keeps.via1 xv ?_ (fun hx => ?_); clear_value (hv : xv = _); subst hv; rotate_left; clear_value xv)
    | (lift_lets; intro xv; refine Keeps.via22 xv ?_ (fun hx => ?_); clear_value (hv : xv = _); subst hv; rotate_left; clear_value xv)
    | (lift_lets; intro xv; refine Keeps.via222 xv ?_ (fun hx => ?_); clear_value (hv : xv = _); subst hv; rotate_left; clear_value xv)
    | (lift_lets; intro xv; clear_value xv)
    | split
    | (lift_lets; intro _)
    | (refine Keeps.trans ?_ (Keeps.upd rfl rfl rfl rfl rfl rfl rfl rfl rfl rfl ?cn); case cn => (rintro ⟨⟨_, _, _, _, _⟩, ⟨_, _, _, _, _, _, _, _, _, _, _, _, _, _, _, _⟩⟩; constructor <;> constructor <;> dsimp only <;> first | with_reducible assumption | (with_reducible apply NatMap.wf_set; with_reducible assumption) | (unfold NatMap.modify; with_reducible apply NatMap.wf_set; with_reducible assumption) | (with_reducible apply NatMap.wf_mapVals; with_reducible assumption) | (with_reducible apply NatMap.wf_filter; with_reducible assumption) | (with_reducible apply writeGran_wf; with_reducible assumption) | (refine foldl_keeps (P := fun m => NatMap.wf _ m = true) (fun _ _ h => ?_) _ ?_ <;> first | with_reducible assumption | exact writeGran_wf _ _ _ h | exact NatMap.wf_set _ _ h) | rfl))

theorem State.sendPacket_keeps (s : State) (k : Nat) (h : PktHead) (m : IhlakMsg) : Keeps s (State.sendPacket s k h m) := by
  unfold State.sendPacket
  iterate 60 all_goals try first
    | with_reducible first
      | assumption
      | exact Keeps.refl _
      | apply Keeps.trans ?_ (State.countPortDrop_keeps ..)
      | apply Keeps.trans ?_ (State.send_keeps ..)
      | apply Keeps.ite
      | apply Keeps.trans ?_ (Keeps.foldl (h := ?_) ..)
      | apply Keeps.trans ?_ (Keeps.foldlSnd (h := ?_) ..)
      | apply Keeps.trans ?_ (Keeps.foldlFst (h := ?_) ..)
    | refine fun _ => ?_
    | (lift_lets; intro xv; refine Keeps.via xv ?_ (fun hx => ?_); clear_value (hv : xv = _); subst hv; rotate_left; clear_value xv)
    | (lift_lets; intro xv; refine Keeps.viaTile xv ?_ (fun hx => ?_); clear_value (hv : xv = _); subst hv; rotate_left; clear_value xv)
    | (lift_lets; intro xv; refine Keeps.via2 xv ?_ (fun hx => ?_); clear_value (hv : xv = _); subst hv; rotate_left; clear_value xv)
    | (lift_lets; intro xv; refine Keeps.via1 xv ?_ (fun hx => ?_); clear_value (hv : xv = _); subst hv; rotate_left; clear_value xv)
    | (lift_lets; intro xv; refine Keeps.via22 xv ?_ (fun hx => ?_); clear_value (hv : xv = _); subst hv; rotate_left; clear_value xv)
    | (lift_lets; intro xv; refine Keeps.via222 xv ?_ (fun hx => ?_); clear_value (hv : xv = _); subst hv; rotate_left; clear_value xv)
    | (lift_lets; intro xv; clear_value xv)
    | split
    | (lift_lets; intro _)

theorem State.sendOn_keeps (s : State) (n : Nat) (m : IhlakMsg) : Keeps s (State.sendOn s n m) := by
  unfold State.sendOn
  iterate 60 all_goals try first
    | with_reducible first
      | assumption
      | exact Keeps.refl _
      | apply Keeps.trans ?_ (State.modSec_keeps (hf := ?_) ..)
      | apply Keeps.trans ?_ (State.sendPacket_keeps ..)
      | apply Keeps.ite
      | apply Keeps.trans ?_ (Keeps.foldl (h := ?_) ..)
      | apply Keeps.trans ?_ (Keeps.foldlSnd (h := ?_) ..)
      | apply Keeps.trans ?_ (Keeps.foldlFst (h := ?_) ..)
    | exact ⟨(State.Canon.tile ‹_› _).1, (State.Canon.tile ‹_› _).2⟩
    | exact fun _ h => h
    | exact fun _ h => ⟨h.1, h.2⟩
    | exact fun _ h => ⟨h.1, h.2, h.3⟩
    | exact fun _ => ⟨id, rfl⟩
    | exact fun _ => Otp.Le.refl _
    | (intro x h; dsimp only; split <;> exact h)
    | refine fun _ => ?_
    | (lift_lets; intro xv; refine Keeps.via xv ?_ (fun hx => ?_); clear_value (hv : xv = _); subst hv; rotate_left; clear_value xv)
    | (lift_lets; intro xv; refine Keeps.viaTile xv ?_ (fun hx => ?_); clear_value (hv : xv = _); subst hv; rotate_left; clear_value xv)
    | (lift_lets; intro xv; refine Keeps.via2 xv ?_ (fun hx => ?_); clear_value (hv : xv = _); subst hv; rotate_left; clear_value xv)
    | (lift_lets; intro xv; refine Keeps.via1 xv ?_ (fun hx => ?_); clear_value (hv : xv = _); subst hv; rotate_left; clear_value xv)
    | (lift_lets; intro xv; refine Keeps.via22 xv ?_ (fun hx => ?_); clear_value (hv : xv = _); subst hv; rotate_left; clear_value xv)
    | (lift_lets; intro xv; refine Keeps.via222 xv ?_ (fun hx => ?_); clear_value (hv : xv = _); subst hv; rotate_left; clear_value xv)
    | (lift_lets; intro xv; clear_value xv)
    | split
    | (lift_lets; intro _)
    | (refine Keeps.trans ?_ (Keeps.upd rfl rfl rfl rfl rfl rfl rfl rfl rfl rfl ?cn); case cn => (rintro ⟨⟨_, _, _, _, _⟩, ⟨_, _, _, _, _, _, _, _, _, _, _, _, _, _, _, _⟩⟩; constructor <;> constructor <;> dsimp only <;> first | with_reducible assumption | (with_reducible apply NatMap.wf_set; with_reducible assumption) | (unfold NatMap.modify; with_reducible apply NatMap.wf_set; with_reducible assumption) | (with_reducible apply NatMap.wf_mapVals; with_reducible assumption) | (with_reducible apply NatMap.wf_filter; with_reducible assumption) | (with_reducible apply writeGran_wf; with_reducible assumption) | (refine foldl_keeps (P := fun m => NatMap.wf _ m = true) (fun _ _ h => ?_) _ ?_ <;> first | with_reducible assumption | exact writeGran_wf _ _ _ h | exact NatMap.wf_set _ _ h) | rfl))

theorem State.sendPlain_keeps (s : State) (k : Nat) (m : IhlakMsg) : Keeps s (State.sendPlain s k m) := by
  unfold State.sendPlain
  iterate 60 all_goals try first
    | with_reducible first
      | assumption
      | exact Keeps.refl _
      | apply Keeps.trans ?_ (State.modSec_keeps (hf := ?_) ..)
      | apply Keeps.trans ?_ (State.sendPacket_keeps ..)
      | apply Keeps.ite
      | apply Keeps.trans ?_ (Keeps.foldl (h := ?_) ..)
      | apply Keeps.trans ?_ (Keeps.foldlSnd (h := ?_) ..)
      | apply Keeps.trans ?_ (Keeps.foldlFst (h := ?_) ..)
    | exact ⟨(State.Canon.tile ‹_› _).1, (State.Canon.tile ‹_› _).2⟩
    | exact fun _ h => h
    | exact fun _ h => ⟨h.1, h.2⟩
    | exact fun _ h => ⟨h.1, h.2, h.3⟩
    | exact fun _ => ⟨id, rfl⟩
    | exact fun _ => Otp.Le.refl _
    | (intro x h; dsimp only; split <;> exact h)
    | refine fun _ => ?_
    | (lift_lets; intro xv; refine Keeps.via xv ?_ (fun hx => ?_); clear_value (hv : xv = _); subst hv; rotate_left; clear_value xv)
    | (lift_lets; intro xv; refine Keeps.viaTile xv ?_ (fun hx => ?_); clear_value (hv : xv = _); subst hv; rotate_left; clear_value xv)
    | (lift_lets; intro xv; refine Keeps.via2 xv ?_ (fun hx => ?_); clear_value (hv : xv = _); subst hv; rotate_left; clear_value xv)
    | (lift_lets; intro xv; refine Keeps.via1 xv ?_ (fun hx => ?_); clear_value (hv : xv = _); subst hv; rotate_left; clear_value xv)
    | (lift_lets; intro xv; refine Keeps.via22 xv ?_ (fun hx => ?_); clear_value (hv : xv = _); subst hv; rotate_left; clear_value xv)
    | (lift_lets; intro xv; refine Keeps.via222 xv ?_ (fun hx => ?_); clear_value (hv : xv = _); subst hv; rotate_left; clear_value xv)
    | (lift_lets; intro xv; clear_value xv)
    | split
    | (lift_lets; intro _)
    | (refine Keeps.trans ?_ (Keeps.upd rfl rfl rfl rfl rfl rfl rfl rfl rfl rfl ?cn); case cn => (rintro ⟨⟨_, _, _, _, _⟩, ⟨_, _, _, _, _, _, _, _, _, _, _, _, _, _, _, _⟩⟩; constructor <;> constructor <;> dsimp only <;> first | with_reducible assumption | (with_reducible apply NatMap.wf_set; with_reducible assumption) | (unfold NatMap.modify; with_reducible apply NatMap.wf_set; with_reducible assumption) | (with_reducible apply NatMap.wf_mapVals; with_reducible assumption) | (with_reducible apply NatMap.wf_filter; with_reducible assumption) | (with_reducible apply writeGran_wf; with_reducible assumption) | (refine foldl_keeps (P := fun m => NatMap.wf _ m = true) (fun _ _ h => ?_) _ ?_ <;> first | with_reducible assumption | exact writeGran_wf _ _ _ h | exact NatMap.wf_set _ _ h) | rfl))

theorem State.draw_keeps (s : State) : Keeps s (State.draw s) := by
  unfold State.draw
  iterate 60 all_goals try first
    | with_reducible first
      | assumption
      | exact Keeps.refl _
      | apply Keeps.ite
      | apply Keeps.trans ?_ (Keeps.foldl (h := ?_) ..)
      | apply Keeps.trans ?_ (Keeps.foldlSnd (h := ?_) ..)
      | apply Keeps.trans ?_ (Keeps.foldlFst (h := ?_) ..)
    | refine fun _ => ?_
    | (lift_lets; intro xv; refine Keeps.via xv ?_ (fun hx => ?_); clear_value (hv : xv = _); subst hv; rotate_left; clear_value xv)
    | (lift_lets; intro xv; refine Keeps.viaTile xv ?_ (fun hx => ?_); clear_value (hv : xv = _); subst hv; rotate_left; clear_value xv)
    | (lift_lets; intro xv; refine Keeps.via2 xv ?_ (fun hx => ?_); clear_value (hv : xv = _); subst hv; rotate_left; clear_value xv)
    | (lift_lets; intro xv; refine Keeps.via1 xv ?_ (fun hx => ?_); clear_value (hv : xv = _); subst hv; rotate_left; clear_value xv)
    | (lift_lets; intro xv; refine Keeps.via22 xv ?_ (fun hx => ?_); clear_value (hv : xv = _); subst hv; rotate_left; clear_value xv)
    | (lift_lets; intro xv; refine Keeps.via222 xv ?_ (fun hx => ?_); clear_value (hv : xv = _); subst hv; rotate_left; clear_value xv)
    | (lift_lets; intro xv; clear_value xv)
    | split
    | (lift_lets; intro _)
    | (refine Keeps.trans ?_ (Keeps.upd rfl rfl rfl rfl rfl rfl rfl rfl rfl rfl ?cn); case cn => (rintro ⟨⟨_, _, _, _, _⟩, ⟨_, _, _, _, _, _, _, _, _, _, _, _, _, _, _, _⟩⟩; constructor <;> constructor <;> dsimp only <;> first | with_reducible assumption | (with_reducible apply NatMap.wf_set; with_reducible assumption) | (unfold NatMap.modify; with_reducible apply NatMap.wf_set; with_reducible assumption) | (with_reducible apply NatMap.wf_mapVals; with_reducible assumption) | (with_reducible apply NatMap.wf_filter; with_reducible assumption) | (with_reducible apply writeGran_wf; with_reducible assumption) | (refine foldl_keeps (P := fun m => NatMap.wf _ m = true) (fun _ _ h => ?_) _ ?_ <;> first | with_reducible assumption | exact writeGran_wf _ _ _ h | exact NatMap.wf_set _ _ h) | rfl))

theorem State.raise_keeps (s : State) (f : FaultRec) : Keeps s (State.raise s f) := by
  unfold State.raise
  iterate 60 all_goals try first
    | with_reducible first
      | assumption
      | exact Keeps.refl _
      | apply Keeps.trans ?_ (State.sendOn_keeps ..)
      | apply Keeps.ite
      | apply Keeps.trans ?_ (Keeps.foldl (h := ?_) ..)
      | apply Keeps.trans ?_ (Keeps.foldlSnd (h := ?_) ..)
      | apply Keeps.trans ?_ (Keeps.foldlFst (h := ?_) ..)
    | refine fun _ => ?_
    | (lift_lets; intro xv; refine Keeps.via xv ?_ (fun hx => ?_); clear_value (hv : xv = _); subst hv; rotate_left; clear_value xv)
    | (lift_lets; intro xv; refine Keeps.viaTile xv ?_ (fun hx => ?_); clear_value (hv : xv = _); subst hv; rotate_left; clear_value xv)
    | (lift_lets; intro xv; refine Keeps.via2 xv ?_ (fun hx => ?_); clear_value (hv : xv = _); subst hv; rotate_left; clear_value xv)
    | (lift_lets; intro xv; refine Keeps.via1 xv ?_ (fun hx => ?_); clear_value (hv : xv = _); subst hv; rotate_left; clear_value xv)
    | (lift_lets; intro xv; refine Keeps.via22 xv ?_ (fun hx => ?_); clear_value (hv : xv = _); subst hv; rotate_left; clear_value xv)
    | (lift_lets; intro xv; refine Keeps.via222 xv ?_ (fun hx => ?_); clear_value (hv : xv = _); subst hv; rotate_left; clear_value xv)
    | (lift_lets; intro xv; clear_value xv)
    | split
    | (lift_lets; intro _)
    | (refine Keeps.trans ?_ (Keeps.upd rfl rfl rfl rfl rfl rfl rfl rfl rfl rfl ?cn); case cn => (rintro ⟨⟨_, _, _, _, _⟩, ⟨_, _, _, _, _, _, _, _, _, _, _, _, _, _, _, _⟩⟩; constructor <;> constructor <;> dsimp only <;> first | with_reducible assumption | (with_reducible apply NatMap.wf_set; with_reducible assumption) | (unfold NatMap.modify; with_reducible apply NatMap.wf_set; with_reducible assumption) | (with_reducible apply NatMap.wf_mapVals; with_reducible assumption) | (with_reducible apply NatMap.wf_filter; with_reducible assumption) | (with_reducible apply writeGran_wf; with_reducible assumption) | (refine foldl_keeps (P := fun m => NatMap.wf _ m = true) (fun _ _ h => ?_) _ ?_ <;> first | with_reducible assumption | exact writeGran_wf _ _ _ h | exact NatMap.wf_set _ _ h) | rfl))

theorem State.raiseAll_keeps (s : State) (l : List FaultRec) : Keeps s (State.raiseAll s l) := by
  unfold State.raiseAll
  iterate 60 all_goals try first
    | with_reducible first
      | assumption
      | exact Keeps.refl _
      | apply Keeps.trans ?_ (State.raise_keeps ..)
      | apply Keeps.ite
      | apply Keeps.trans ?_ (Keeps.foldl (h := ?_) ..)
      | apply Keeps.trans ?_ (Keeps.foldlSnd (h := ?_) ..)
      | apply Keeps.trans ?_ (Keeps.foldlFst (h := ?_) ..)
    | refine fun _ => ?_
    | (lift_lets; intro xv; refine Keeps.via xv ?_ (fun hx => ?_); clear_value (hv : xv = _); subst hv; rotate_left; clear_value xv)
    | (lift_lets; intro xv; refine Keeps.viaTile xv ?_ (fun hx => ?_); clear_value (hv : xv = _); subst hv; rotate_left; clear_value xv)
    | (lift_lets; intro xv; refine Keeps.via2 xv ?_ (fun hx => ?_); clear_value (hv : xv = _); subst hv; rotate_left; clear_value xv)
    | (lift_lets; intro xv; refine Keeps.via1 xv ?_ (fun hx => ?_); clear_value (hv : xv = _); subst hv; rotate_left; clear_value xv)
    | (lift_lets; intro xv; refine Keeps.via22 xv ?_ (fun hx => ?_); clear_value (hv : xv = _); subst hv; rotate_left; clear_value xv)
    | (lift_lets; intro xv; refine Keeps.via222 xv ?_ (fun hx => ?_); clear_value (hv : xv = _); subst hv; rotate_left; clear_value xv)
    | (lift_lets; intro xv; clear_value xv)
    | split
    | (lift_lets; intro _)

end Sys2Proof.Machine
end

