-- ==== Sys2Proof/Laws/Keeps/Access.lean ====
section
/-! SUPPORT. What every operation of `Machine/Access.lean` keeps (`Keeps`). -/
set_option linter.unusedTactic false
set_option linter.unreachableTactic false
namespace Sys2Proof.Machine
open Sys2Proof

theorem State.setSel_keeps (s : State) (rq : Req) (v : Selects) : Keeps s (s.setSel rq v) := by
  unfold State.setSel
  split
  · exact Keeps.upd rfl rfl rfl rfl rfl rfl rfl rfl rfl rfl fun c =>
      ⟨{ c.mem with }, { c.tab with selects := NatMap.wf_set _ _ c.tab.selects }⟩
  · exact Keeps.upd rfl rfl rfl rfl rfl rfl rfl rfl rfl rfl fun c => ⟨{ c.mem with }, { c.tab with }⟩
  · exact Keeps.upd rfl rfl rfl rfl rfl rfl rfl rfl rfl rfl fun c => ⟨{ c.mem with }, { c.tab with }⟩


theorem State.onPart_keeps (s : State) (rq : Req) (a : Nat) (f : Nat → State → State) (hf : ∀ x0 t, Keeps t (f x0 t)) : Keeps s (State.onPart s rq a f) := by
  unfold State.onPart
  iterate 60 all_goals try first
    | with_reducible first
      | assumption
      | exact Keeps.refl _
      | apply Keeps.trans ?_ (hf ..)
      | apply Keeps.ite
      | apply Keeps.trans ?_ (Keeps.foldl (h := ?_) ..)
      | apply Keeps.trans ?_ (Keeps.foldlSnd (h := ?_) ..)
      | apply Keeps.trans ?_ (Keeps.foldlFst (h := ?_) ..)
    | refine fun _ => ?_
    | (lift_lets; intro xv; refine Keeps.via xv ?_ (fun hx => ?_); clear_value (hv : xv = _); subst hv; rotate_left; clear_value xv)
    | (lift_lets; intro xv; refine Keeps.viaTile xv ?_ (fun hx => ?_); clear_value (hv : xv = _); subst hv; rotate_left; clear_value xv)
    | (lift_lets; intro xv; refine Keeps.via2 xv ?_ (fun hx => ?_); clear_value (hv : xv = _); subst hv; rotate_left; clear_value xv)
    | (lift_lets; intro xv; refine Keeps.via1 xv ?_ (fun hx => ?_); clear_value (hv : xv = _); subst hv; rotate_left; clear_value xv)
    | (lift_lets; intro xv; refine Keeps.via22 xv ?_ (fun hx => ?_); clear_value (hv : xv = _); subst hv; rotate_left; clear_value xv)
    | (lift_lets; intro xv; refine Keeps.via222 xv ?_ (fun hx => ?_); clear_value (hv : xv = _); subst hv; rotate_left; clear_value xv)
    | (lift_lets; intro xv; clear_value xv)
    | split
    | (lift_lets; intro _)

theorem State.onPartDie_keeps (s : State) (rq : Req) (a : Nat) (f : Nat → Nat → State → State) (hf : ∀ x0 x1 t, Keeps t (f x0 x1 t)) : Keeps s (State.onPartDie s rq a f) := by
  unfold State.onPartDie
  iterate 60 all_goals try first
    | with_reducible first
      | assumption
      | exact Keeps.refl _
      | apply Keeps.trans ?_ (hf ..)
      | apply Keeps.trans ?_ (State.onPart_keeps (hf := ?_) ..)
      | apply Keeps.ite
      | apply Keeps.trans ?_ (Keeps.foldl (h := ?_) ..)
      | apply Keeps.trans ?_ (Keeps.foldlSnd (h := ?_) ..)
      | apply Keeps.trans ?_ (Keeps.foldlFst (h := ?_) ..)
    | refine fun _ => ?_
    | (lift_lets; intro xv; refine Keeps.via xv ?_ (fun hx => ?_); clear_value (hv : xv = _); subst hv; rotate_left; clear_value xv)
    | (lift_lets; intro xv; refine Keeps.viaTile xv ?_ (fun hx => ?_); clear_value (hv : xv = _); subst hv; rotate_left; clear_value xv)
    | (lift_lets; intro xv; refine Keeps.via2 xv ?_ (fun hx => ?_); clear_value (hv : xv = _); subst hv; rotate_left; clear_value xv)
    | (lift_lets; intro xv; refine Keeps.via1 xv ?_ (fun hx => ?_); clear_value (hv : xv = _); subst hv; rotate_left; clear_value xv)
    | (lift_lets; intro xv; refine Keeps.via22 xv ?_ (fun hx => ?_); clear_value (hv : xv = _); subst hv; rotate_left; clear_value xv)
    | (lift_lets; intro xv; refine Keeps.via222 xv ?_ (fun hx => ?_); clear_value (hv : xv = _); subst hv; rotate_left; clear_value xv)
    | (lift_lets; intro xv; clear_value xv)
    | split
    | (lift_lets; intro _)

end Sys2Proof.Machine
end

