-- ==== Sys2Proof/Laws/Keeps/Memory.lean ====
section
/-! SUPPORT. What every operation of `Machine/Memory.lean` keeps (`Keeps`). -/
set_option linter.unusedTactic false
set_option linter.unreachableTactic false
namespace Sys2Proof.Machine
open Sys2Proof

theorem State.setObj_keeps (s : State) (x i : Nat) (o : Obj) : Keeps s (State.setObj s x i o) := by
  unfold State.setObj
  iterate 60 all_goals try first
    | with_reducible first
      | assumption
      | exact Keeps.refl _
      | apply Keeps.trans ?_ (State.modCtx_keeps ..)
      | apply Keeps.ite
      | apply Keeps.trans ?_ (Keeps.foldl (h := ?_) ..)
      | apply Keeps.trans ?_ (Keeps.foldlSnd (h := ?_) ..)
      | apply Keeps.trans ?_ (Keeps.foldlFst (h := ?_) ..)
    | refine fun _ => ?_
    | (lift_lets; intro xv; refine Keeps.via xv ?_ (fun hx => ?_); clear_value (hv : xv = _); subst hv; rotate_left; clear_value xv)
    | (lift_lets; intro xv; refine Keeps.viaTile xv ?_ (fun hx => ?_); clear_value (hv : xv = _); subst hv; rotate_left; clear_value xv)
    | (lift_lets; intro xv; refine Keeps.via2 xv ?_ (fun hx => ?_); clear_value (hv : xv = _); subst hv; rotate_left; clear_value xv)
    | (lift_lets; intro xv; refine Keeps.via1 xv ?_ (fun hx => ?_); clear_value (hv : xv = _); subst hv; rotate_left; clear_value xv)
    | (lift_lets; intro xv; refine Keeps.via22 xv ?_ (fun hx => ?_); clear_value (hv : xv = _); subst hv; rotate_left; clear_value xv)
    | (lift_lets; intro xv; refine Keeps.via222 xv ?_ (fun hx => ?_); clear_value (hv : xv = _); subst hv; rotate_left; clear_value xv)
    | (lift_lets; intro xv; clear_value xv)
    | split
    | (lift_lets; intro _)
    | (refine Keeps.trans ?_ (Keeps.upd rfl rfl rfl rfl rfl rfl rfl rfl rfl rfl ?cn); case cn => (rintro ⟨⟨_, _, _, _, _⟩, ⟨_, _, _, _, _, _, _, _, _, _, _, _, _, _, _, _⟩⟩; constructor <;> constructor <;> dsimp only <;> first | with_reducible assumption | (with_reducible apply NatMap.wf_set; with_reducible assumption) | (unfold NatMap.modify; with_reducible apply NatMap.wf_set; with_reducible assumption) | (with_reducible apply NatMap.wf_mapVals; with_reducible assumption) | (with_reducible apply NatMap.wf_filter; with_reducible assumption) | (with_reducible apply writeGran_wf; with_reducible assumption) | (refine foldl_keeps (P := fun m => NatMap.wf _ m = true) (fun _ _ h => ?_) _ ?_ <;> first | with_reducible assumption | exact writeGran_wf _ _ _ h | exact NatMap.wf_set _ _ h) | rfl))

theorem State.readObj_keeps (s : State) (x : Nat) (o : Obj) (off len : Nat) : Keeps s (s.readObj x o off len).2.2 := by
  unfold State.readObj
  dsimp only
  split
  · exact Keeps.refl _
  · exact Keeps.upd rfl rfl rfl rfl rfl rfl rfl rfl rfl rfl fun c =>
      ⟨{ c.mem with hbm := Dram.readRuns_canon _ _ _ c.mem.hbm }, { c.tab with }⟩
  · exact Keeps.upd rfl rfl rfl rfl rfl rfl rfl rfl rfl rfl fun c =>
      ⟨{ c.mem with pond := Dram.readRuns_canon _ _ _ c.mem.pond }, { c.tab with }⟩


theorem State.writeObj_keeps (s : State) (x : Nat) (o : Obj) (off : Nat) (bs : List Byte) : Keeps s (s.writeObj x o off bs).2 := by
  unfold State.writeObj
  dsimp only
  split
  · exact Keeps.upd rfl rfl rfl rfl rfl rfl rfl rfl rfl rfl fun c =>
      ⟨{ c.mem with granary := writeGran_wf _ _ _ c.mem.granary }, { c.tab with }⟩
  · exact Keeps.upd rfl rfl rfl rfl rfl rfl rfl rfl rfl rfl fun c =>
      ⟨{ c.mem with hbm := Dram.writeRuns_canon _ _ _ _ c.mem.hbm }, { c.tab with }⟩
  · exact Keeps.upd rfl rfl rfl rfl rfl rfl rfl rfl rfl rfl fun c =>
      ⟨{ c.mem with pond := Dram.writeRuns_canon _ _ _ _ c.mem.pond }, { c.tab with }⟩


theorem State.deliverObj_keeps (s : State) (x : Nat) (o : Obj) (off len : Nat) : Keeps s (State.deliverObj s x o off len).2 := by
  unfold State.deliverObj
  iterate 60 all_goals try first
    | with_reducible first
      | assumption
      | exact Keeps.refl _
      | apply Keeps.trans ?_ (State.readObj_keeps ..)
      | apply Keeps.ite
      | apply Keeps.trans ?_ (Keeps.foldl (h := ?_) ..)
      | apply Keeps.trans ?_ (Keeps.foldlSnd (h := ?_) ..)
      | apply Keeps.trans ?_ (Keeps.foldlFst (h := ?_) ..)
    | refine fun _ => ?_
    | (lift_lets; intro xv; refine Keeps.via xv ?_ (fun hx => ?_); clear_value (hv : xv = _); subst hv; rotate_left; clear_value xv)
    | (lift_lets; intro xv; refine Keeps.viaTile xv ?_ (fun hx => ?_); clear_value (hv : xv = _); subst hv; rotate_left; clear_value xv)
    | (lift_lets; intro xv; refine Keeps.via2 xv ?_ (fun hx => ?_); clear_value (hv : xv = _); subst hv; rotate_left; clear_value xv)
    | (lift_lets; intro xv; refine Keeps.via1 xv ?_ (fun hx => ?_); clear_value (hv : xv = _); subst hv; rotate_left; clear_value xv)
    | (lift_lets; intro xv; refine Keeps.via22 xv ?_ (fun hx => ?_); clear_value (hv : xv = _); subst hv; rotate_left; clear_value xv)
    | (lift_lets; intro xv; refine Keeps.via222 xv ?_ (fun hx => ?_); clear_value (hv : xv = _); subst hv; rotate_left; clear_value xv)
    | (lift_lets; intro xv; clear_value xv)
    | split
    | (lift_lets; intro _)
    | (refine Keeps.trans ?_ (Keeps.upd rfl rfl rfl rfl rfl rfl rfl rfl rfl rfl ?cn); case cn => (rintro ⟨⟨_, _, _, _, _⟩, ⟨_, _, _, _, _, _, _, _, _, _, _, _, _, _, _, _⟩⟩; constructor <;> constructor <;> dsimp only <;> first | with_reducible assumption | (with_reducible apply NatMap.wf_set; with_reducible assumption) | (unfold NatMap.modify; with_reducible apply NatMap.wf_set; with_reducible assumption) | (with_reducible apply NatMap.wf_mapVals; with_reducible assumption) | (with_reducible apply NatMap.wf_filter; with_reducible assumption) | (with_reducible apply writeGran_wf; with_reducible assumption) | (refine foldl_keeps (P := fun m => NatMap.wf _ m = true) (fun _ _ h => ?_) _ ?_ <;> first | with_reducible assumption | exact writeGran_wf _ _ _ h | exact NatMap.wf_set _ _ h) | rfl))

theorem State.writeRunsObj_keeps (s : State) (x : Nat) (o : Obj) (off : Nat) (l : List (Nat × List Byte)) : Keeps s (State.writeRunsObj s x o off l).2 := by
  unfold State.writeRunsObj
  iterate 60 all_goals try first
    | with_reducible first
      | assumption
      | exact Keeps.refl _
      | apply Keeps.trans ?_ (State.writeObj_keeps ..)
      | apply Keeps.ite
      | apply Keeps.trans ?_ (Keeps.foldl (h := ?_) ..)
      | apply Keeps.trans ?_ (Keeps.foldlSnd (h := ?_) ..)
      | apply Keeps.trans ?_ (Keeps.foldlFst (h := ?_) ..)
    | refine fun _ => ?_
    | (lift_lets; intro xv; refine Keeps.via xv ?_ (fun hx => ?_); clear_value (hv : xv = _); subst hv; rotate_left; clear_value xv)
    | (lift_lets; intro xv; refine Keeps.viaTile xv ?_ (fun hx => ?_); clear_value (hv : xv = _); subst hv; rotate_left; clear_value xv)
    | (lift_lets; intro xv; refine Keeps.via2 xv ?_ (fun hx => ?_); clear_value (hv : xv = _); subst hv; rotate_left; clear_value xv)
    | (lift_lets; intro xv; refine Keeps.via1 xv ?_ (fun hx => ?_); clear_value (hv : xv = _); subst hv; rotate_left; clear_value xv)
    | (lift_lets; intro xv; refine Keeps.via22 xv ?_ (fun hx => ?_); clear_value (hv : xv = _); subst hv; rotate_left; clear_value xv)
    | (lift_lets; intro xv; refine Keeps.via222 xv ?_ (fun hx => ?_); clear_value (hv : xv = _); subst hv; rotate_left; clear_value xv)
    | (lift_lets; intro xv; clear_value xv)
    | split
    | (lift_lets; intro _)

theorem State.assignKey_keeps (s : State) (p k : Nat) : Keeps s (State.assignKey s p k) := by
  unfold State.assignKey
  iterate 60 all_goals try first
    | with_reducible first
      | assumption
      | exact Keeps.refl _
      | apply Keeps.ite
      | apply Keeps.trans ?_ (Keeps.foldl (h := ?_) ..)
      | apply Keeps.trans ?_ (Keeps.foldlSnd (h := ?_) ..)
      | apply Keeps.trans ?_ (Keeps.foldlFst (h := ?_) ..)
    | refine fun _ => ?_
    | (lift_lets; intro xv; refine Keeps.via xv ?_ (fun hx => ?_); clear_value (hv : xv = _); subst hv; rotate_left; clear_value xv)
    | (lift_lets; intro xv; refine Keeps.viaTile xv ?_ (fun hx => ?_); clear_value (hv : xv = _); subst hv; rotate_left; clear_value xv)
    | (lift_lets; intro xv; refine Keeps.via2 xv ?_ (fun hx => ?_); clear_value (hv : xv = _); subst hv; rotate_left; clear_value xv)
    | (lift_lets; intro xv; refine Keeps.via1 xv ?_ (fun hx => ?_); clear_value (hv : xv = _); subst hv; rotate_left; clear_value xv)
    | (lift_lets; intro xv; refine Keeps.via22 xv ?_ (fun hx => ?_); clear_value (hv : xv = _); subst hv; rotate_left; clear_value xv)
    | (lift_lets; intro xv; refine Keeps.via222 xv ?_ (fun hx => ?_); clear_value (hv : xv = _); subst hv; rotate_left; clear_value xv)
    | (lift_lets; intro xv; clear_value xv)
    | split
    | (lift_lets; intro _)
    | (refine Keeps.trans ?_ (Keeps.upd rfl rfl rfl rfl rfl rfl rfl rfl rfl rfl ?cn); case cn => (rintro ⟨⟨_, _, _, _, _⟩, ⟨_, _, _, _, _, _, _, _, _, _, _, _, _, _, _, _⟩⟩; constructor <;> constructor <;> dsimp only <;> first | with_reducible assumption | (with_reducible apply NatMap.wf_set; with_reducible assumption) | (unfold NatMap.modify; with_reducible apply NatMap.wf_set; with_reducible assumption) | (with_reducible apply NatMap.wf_mapVals; with_reducible assumption) | (with_reducible apply NatMap.wf_filter; with_reducible assumption) | (with_reducible apply writeGran_wf; with_reducible assumption) | (refine foldl_keeps (P := fun m => NatMap.wf _ m = true) (fun _ _ h => ?_) _ ?_ <;> first | with_reducible assumption | exact writeGran_wf _ _ _ h | exact NatMap.wf_set _ _ h) | rfl))

theorem State.takeEpoch_keeps (s : State) (kid : Nat) : Keeps s (State.takeEpoch s kid).2 := by
  unfold State.takeEpoch
  iterate 60 all_goals try first
    | with_reducible first
      | assumption
      | exact Keeps.refl _
      | apply Keeps.ite
      | apply Keeps.trans ?_ (Keeps.foldl (h := ?_) ..)
      | apply Keeps.trans ?_ (Keeps.foldlSnd (h := ?_) ..)
      | apply Keeps.trans ?_ (Keeps.foldlFst (h := ?_) ..)
    | refine fun _ => ?_
    | (lift_lets; intro xv; refine Keeps.via xv ?_ (fun hx => ?_); clear_value (hv : xv = _); subst hv; rotate_left; clear_value xv)
    | (lift_lets; intro xv; refine Keeps.viaTile xv ?_ (fun hx => ?_); clear_value (hv : xv = _); subst hv; rotate_left; clear_value xv)
    | (lift_lets; intro xv; refine Keeps.via2 xv ?_ (fun hx => ?_); clear_value (hv : xv = _); subst hv; rotate_left; clear_value xv)
    | (lift_lets; intro xv; refine Keeps.via1 xv ?_ (fun hx => ?_); clear_value (hv : xv = _); subst hv; rotate_left; clear_value xv)
    | (lift_lets; intro xv; refine Keeps.via22 xv ?_ (fun hx => ?_); clear_value (hv : xv = _); subst hv; rotate_left; clear_value xv)
    | (lift_lets; intro xv; refine Keeps.via222 xv ?_ (fun hx => ?_); clear_value (hv : xv = _); subst hv; rotate_left; clear_value xv)
    | (lift_lets; intro xv; clear_value xv)
    | split
    | (lift_lets; intro _)
    | (refine Keeps.trans ?_ (Keeps.upd rfl rfl rfl rfl rfl rfl rfl rfl rfl rfl ?cn); case cn => (rintro ⟨⟨_, _, _, _, _⟩, ⟨_, _, _, _, _, _, _, _, _, _, _, _, _, _, _, _⟩⟩; constructor <;> constructor <;> dsimp only <;> first | with_reducible assumption | (with_reducible apply NatMap.wf_set; with_reducible assumption) | (unfold NatMap.modify; with_reducible apply NatMap.wf_set; with_reducible assumption) | (with_reducible apply NatMap.wf_mapVals; with_reducible assumption) | (with_reducible apply NatMap.wf_filter; with_reducible assumption) | (with_reducible apply writeGran_wf; with_reducible assumption) | (refine foldl_keeps (P := fun m => NatMap.wf _ m = true) (fun _ _ h => ?_) _ ?_ <;> first | with_reducible assumption | exact writeGran_wf _ _ _ h | exact NatMap.wf_set _ _ h) | rfl))

theorem State.allocAt_keeps (s : State) (x die flags size : Nat) (t : Tier) (i base : Nat) : Keeps s (State.allocAt s x die flags size t i base).2 := by
  unfold State.allocAt
  iterate 60 all_goals try first
    | with_reducible first
      | assumption
      | exact Keeps.refl _
      | apply Keeps.trans ?_ (State.takeEpoch_keeps ..)
      | apply Keeps.trans ?_ (State.setObj_keeps ..)
      | apply Keeps.ite
      | apply Keeps.trans ?_ (Keeps.foldl (h := ?_) ..)
      | apply Keeps.trans ?_ (Keeps.foldlSnd (h := ?_) ..)
      | apply Keeps.trans ?_ (Keeps.foldlFst (h := ?_) ..)
    | refine fun _ => ?_
    | (lift_lets; intro xv; refine Keeps.via xv ?_ (fun hx => ?_); clear_value (hv : xv = _); subst hv; rotate_left; clear_value xv)
    | (lift_lets; intro xv; refine Keeps.viaTile xv ?_ (fun hx => ?_); clear_value (hv : xv = _); subst hv; rotate_left; clear_value xv)
    | (lift_lets; intro xv; refine Keeps.via2 xv ?_ (fun hx => ?_); clear_value (hv : xv = _); subst hv; rotate_left; clear_value xv)
    | (lift_lets; intro xv; refine Keeps.via1 xv ?_ (fun hx => ?_); clear_value (hv : xv = _); subst hv; rotate_left; clear_value xv)
    | (lift_lets; intro xv; refine Keeps.via22 xv ?_ (fun hx => ?_); clear_value (hv : xv = _); subst hv; rotate_left; clear_value xv)
    | (lift_lets; intro xv; refine Keeps.via222 xv ?_ (fun hx => ?_); clear_value (hv : xv = _); subst hv; rotate_left; clear_value xv)
    | (lift_lets; intro xv; clear_value xv)
    | split
    | (lift_lets; intro _)

theorem State.allocate_keeps (s : State) (x die flags size : Nat) : Keeps s (State.allocate s x die flags size).2.2 := by
  unfold State.allocate
  iterate 60 all_goals try first
    | with_reducible first
      | assumption
      | exact Keeps.refl _
      | apply Keeps.trans ?_ (State.allocAt_keeps ..)
      | apply Keeps.ite
      | apply Keeps.trans ?_ (Keeps.foldl (h := ?_) ..)
      | apply Keeps.trans ?_ (Keeps.foldlSnd (h := ?_) ..)
      | apply Keeps.trans ?_ (Keeps.foldlFst (h := ?_) ..)
    | apply Keeps.trans ?_ (Keeps.eq2 (State.allocAt_keeps ..) (by assumption))
    | refine fun _ => ?_
    | (lift_lets; intro xv; refine Keeps.via xv ?_ (fun hx => ?_); clear_value (hv : xv = _); subst hv; rotate_left; clear_value xv)
    | (lift_lets; intro xv; refine Keeps.viaTile xv ?_ (fun hx => ?_); clear_value (hv : xv = _); subst hv; rotate_left; clear_value xv)
    | (lift_lets; intro xv; refine Keeps.via2 xv ?_ (fun hx => ?_); clear_value (hv : xv = _); subst hv; rotate_left; clear_value xv)
    | (lift_lets; intro xv; refine Keeps.via1 xv ?_ (fun hx => ?_); clear_value (hv : xv = _); subst hv; rotate_left; clear_value xv)
    | (lift_lets; intro xv; refine Keeps.via22 xv ?_ (fun hx => ?_); clear_value (hv : xv = _); subst hv; rotate_left; clear_value xv)
    | (lift_lets; intro xv; refine Keeps.via222 xv ?_ (fun hx => ?_); clear_value (hv : xv = _); subst hv; rotate_left; clear_value xv)
    | (lift_lets; intro xv; clear_value xv)
    | split
    | (lift_lets; intro _)

theorem State.freeIdx_keeps (s : State) (x i origin : Nat) : Keeps s (State.freeIdx s x i origin) := by
  unfold State.freeIdx
  iterate 60 all_goals try first
    | with_reducible first
      | assumption
      | exact Keeps.refl _
      | apply Keeps.trans ?_ (State.setObj_keeps ..)
      | apply Keeps.ite
      | apply Keeps.trans ?_ (Keeps.foldl (h := ?_) ..)
      | apply Keeps.trans ?_ (Keeps.foldlSnd (h := ?_) ..)
      | apply Keeps.trans ?_ (Keeps.foldlFst (h := ?_) ..)
    | refine fun _ => ?_
    | (lift_lets; intro xv; refine Keeps.via xv ?_ (fun hx => ?_); clear_value (hv : xv = _); subst hv; rotate_left; clear_value xv)
    | (lift_lets; intro xv; refine Keeps.viaTile xv ?_ (fun hx => ?_); clear_value (hv : xv = _); subst hv; rotate_left; clear_value xv)
    | (lift_lets; intro xv; refine Keeps.via2 xv ?_ (fun hx => ?_); clear_value (hv : xv = _); subst hv; rotate_left; clear_value xv)
    | (lift_lets; intro xv; refine Keeps.via1 xv ?_ (fun hx => ?_); clear_value (hv : xv = _); subst hv; rotate_left; clear_value xv)
    | (lift_lets; intro xv; refine Keeps.via22 xv ?_ (fun hx => ?_); clear_value (hv : xv = _); subst hv; rotate_left; clear_value xv)
    | (lift_lets; intro xv; refine Keeps.via222 xv ?_ (fun hx => ?_); clear_value (hv : xv = _); subst hv; rotate_left; clear_value xv)
    | (lift_lets; intro xv; clear_value xv)
    | split
    | (lift_lets; intro _)
    | (refine Keeps.trans ?_ (Keeps.upd rfl rfl rfl rfl rfl rfl rfl rfl rfl rfl ?cn); case cn => (rintro ⟨⟨_, _, _, _, _⟩, ⟨_, _, _, _, _, _, _, _, _, _, _, _, _, _, _, _⟩⟩; constructor <;> constructor <;> dsimp only <;> first | with_reducible assumption | (with_reducible apply NatMap.wf_set; with_reducible assumption) | (unfold NatMap.modify; with_reducible apply NatMap.wf_set; with_reducible assumption) | (with_reducible apply NatMap.wf_mapVals; with_reducible assumption) | (with_reducible apply NatMap.wf_filter; with_reducible assumption) | (with_reducible apply writeGran_wf; with_reducible assumption) | (refine foldl_keeps (P := fun m => NatMap.wf _ m = true) (fun _ _ h => ?_) _ ?_ <;> first | with_reducible assumption | exact writeGran_wf _ _ _ h | exact NatMap.wf_set _ _ h) | rfl))

theorem State.freeHandle_keeps (s : State) (x h origin : Nat) : Keeps s (State.freeHandle s x h origin).2 := by
  unfold State.freeHandle
  iterate 60 all_goals try first
    | with_reducible first
      | assumption
      | exact Keeps.refl _
      | apply Keeps.trans ?_ (State.freeIdx_keeps ..)
      | apply Keeps.ite
      | apply Keeps.trans ?_ (Keeps.foldl (h := ?_) ..)
      | apply Keeps.trans ?_ (Keeps.foldlSnd (h := ?_) ..)
      | apply Keeps.trans ?_ (Keeps.foldlFst (h := ?_) ..)
    | refine fun _ => ?_
    | (lift_lets; intro xv; refine Keeps.via xv ?_ (fun hx => ?_); clear_value (hv : xv = _); subst hv; rotate_left; clear_value xv)
    | (lift_lets; intro xv; refine Keeps.viaTile xv ?_ (fun hx => ?_); clear_value (hv : xv = _); subst hv; rotate_left; clear_value xv)
    | (lift_lets; intro xv; refine Keeps.via2 xv ?_ (fun hx => ?_); clear_value (hv : xv = _); subst hv; rotate_left; clear_value xv)
    | (lift_lets; intro xv; refine Keeps.via1 xv ?_ (fun hx => ?_); clear_value (hv : xv = _); subst hv; rotate_left; clear_value xv)
    | (lift_lets; intro xv; refine Keeps.via22 xv ?_ (fun hx => ?_); clear_value (hv : xv = _); subst hv; rotate_left; clear_value xv)
    | (lift_lets; intro xv; refine Keeps.via222 xv ?_ (fun hx => ?_); clear_value (hv : xv = _); subst hv; rotate_left; clear_value xv)
    | (lift_lets; intro xv; clear_value xv)
    | split
    | (lift_lets; intro _)

end Sys2Proof.Machine
end

