-- ==== Sys2Proof/Laws/Keeps/PowerOps.lean ====
section
/-! SUPPORT. What every operation of `Machine/PowerOps.lean` keeps (`Keeps`). -/
set_option linter.unusedTactic false
set_option linter.unreachableTactic false
namespace Sys2Proof.Machine
open Sys2Proof

theorem State.retarget_keeps (s : State) (d : Nat) : Keeps s (State.retarget s d) := by
  unfold State.retarget
  iterate 60 all_goals try first
    | with_reducible first
      | assumption
      | exact Keeps.refl _
      | apply Keeps.trans ?_ (State.modPwr_keeps (hf := ?_) ..)
      | apply Keeps.trans ?_ (State.send_keeps ..)
      | apply Keeps.ite
      | apply Keeps.trans ?_ (Keeps.foldl (h := ?_) ..)
      | apply Keeps.trans ?_ (Keeps.foldlSnd (h := ?_) ..)
      | apply Keeps.trans ?_ (Keeps.foldlFst (h := ?_) ..)
    | exact ⟨(State.Canon.tile ‹_› _).1, (State.Canon.tile ‹_› _).2⟩
    | exact fun _ h => h
    | exact fun _ h => ⟨h.1, h.2⟩
    | exact fun _ h => ⟨h.1, h.2, h.3⟩
    | exact fun _ => ⟨id, rfl⟩
    | exact fun _ => Otp.Le.refl _
    | (intro x h; dsimp only; split <;> exact h)
    | refine fun _ => ?_
    | (lift_lets; intro xv; refine Keeps.via xv ?_ (fun hx => ?_); clear_value (hv : xv = _); subst hv; rotate_left; clear_value xv)
    | (lift_lets; intro xv; refine Keeps.viaTile xv ?_ (fun hx => ?_); clear_value (hv : xv = _); subst hv; rotate_left; clear_value xv)
    | (lift_lets; intro xv; refine Keeps.via2 xv ?_ (fun hx => ?_); clear_value (hv : xv = _); subst hv; rotate_left; clear_value xv)
    | (lift_lets; intro xv; refine Keeps.via1 xv ?_ (fun hx => ?_); clear_value (hv : xv = _); subst hv; rotate_left; clear_value xv)
    | (lift_lets; intro xv; refine Keeps.via22 xv ?_ (fun hx => ?_); clear_value (hv : xv = _); subst hv; rotate_left; clear_value xv)
    | (lift_lets; intro xv; refine Keeps.via222 xv ?_ (fun hx => ?_); clear_value (hv : xv = _); subst hv; rotate_left; clear_value xv)
    | (lift_lets; intro xv; clear_value xv)
    | split
    | (lift_lets; intro _)
    | (refine Keeps.trans ?_ (Keeps.upd rfl rfl rfl rfl rfl rfl rfl rfl rfl rfl ?cn); case cn => (rintro ⟨⟨_, _, _, _, _⟩, ⟨_, _, _, _, _, _, _, _, _, _, _, _, _, _, _, _⟩⟩; constructor <;> constructor <;> dsimp only <;> first | with_reducible assumption | (with_reducible apply NatMap.wf_set; with_reducible assumption) | (unfold NatMap.modify; with_reducible apply NatMap.wf_set; with_reducible assumption) | (with_reducible apply NatMap.wf_mapVals; with_reducible assumption) | (with_reducible apply NatMap.wf_filter; with_reducible assumption) | (with_reducible apply writeGran_wf; with_reducible assumption) | (refine foldl_keeps (P := fun m => NatMap.wf _ m = true) (fun _ _ h => ?_) _ ?_ <;> first | with_reducible assumption | exact writeGran_wf _ _ _ h | exact NatMap.wf_set _ _ h) | rfl))

theorem State.retargetAll_keeps (s : State) : Keeps s (State.retargetAll s) := by
  unfold State.retargetAll
  iterate 60 all_goals try first
    | with_reducible first
      | assumption
      | exact Keeps.refl _
      | apply Keeps.trans ?_ (State.retarget_keeps ..)
      | apply Keeps.ite
      | apply Keeps.trans ?_ (Keeps.foldl (h := ?_) ..)
      | apply Keeps.trans ?_ (Keeps.foldlSnd (h := ?_) ..)
      | apply Keeps.trans ?_ (Keeps.foldlFst (h := ?_) ..)
    | refine fun _ => ?_
    | (lift_lets; intro xv; refine Keeps.via xv ?_ (fun hx => ?_); clear_value (hv : xv = _); subst hv; rotate_left; clear_value xv)
    | (lift_lets; intro xv; refine Keeps.viaTile xv ?_ (fun hx => ?_); clear_value (hv : xv = _); subst hv; rotate_left; clear_value xv)
    | (lift_lets; intro xv; refine Keeps.via2 xv ?_ (fun hx => ?_); clear_value (hv : xv = _); subst hv; rotate_left; clear_value xv)
    | (lift_lets; intro xv; refine Keeps.via1 xv ?_ (fun hx => ?_); clear_value (hv : xv = _); subst hv; rotate_left; clear_value xv)
    | (lift_lets; intro xv; refine Keeps.via22 xv ?_ (fun hx => ?_); clear_value (hv : xv = _); subst hv; rotate_left; clear_value xv)
    | (lift_lets; intro xv; refine Keeps.via222 xv ?_ (fun hx => ?_); clear_value (hv : xv = _); subst hv; rotate_left; clear_value xv)
    | (lift_lets; intro xv; clear_value xv)
    | split
    | (lift_lets; intro _)

theorem State.endHint_keeps (s : State) (p : Nat) : Keeps s (State.endHint s p) := by
  unfold State.endHint
  iterate 60 all_goals try first
    | with_reducible first
      | assumption
      | exact Keeps.refl _
      | apply Keeps.trans ?_ (State.retarget_keeps ..)
      | apply Keeps.trans ?_ (State.modPwr_keeps (hf := ?_) ..)
      | apply Keeps.ite
      | apply Keeps.trans ?_ (Keeps.foldl (h := ?_) ..)
      | apply Keeps.trans ?_ (Keeps.foldlSnd (h := ?_) ..)
      | apply Keeps.trans ?_ (Keeps.foldlFst (h := ?_) ..)
    | exact ⟨(State.Canon.tile ‹_› _).1, (State.Canon.tile ‹_› _).2⟩
    | exact fun _ h => h
    | exact fun _ h => ⟨h.1, h.2⟩
    | exact fun _ h => ⟨h.1, h.2, h.3⟩
    | exact fun _ => ⟨id, rfl⟩
    | exact fun _ => Otp.Le.refl _
    | (intro x h; dsimp only; split <;> exact h)
    | refine fun _ => ?_
    | (lift_lets; intro xv; refine Keeps.via xv ?_ (fun hx => ?_); clear_value (hv : xv = _); subst hv; rotate_left; clear_value xv)
    | (lift_lets; intro xv; refine Keeps.viaTile xv ?_ (fun hx => ?_); clear_value (hv : xv = _); subst hv; rotate_left; clear_value xv)
    | (lift_lets; intro xv; refine Keeps.via2 xv ?_ (fun hx => ?_); clear_value (hv : xv = _); subst hv; rotate_left; clear_value xv)
    | (lift_lets; intro xv; refine Keeps.via1 xv ?_ (fun hx => ?_); clear_value (hv : xv = _); subst hv; rotate_left; clear_value xv)
    | (lift_lets; intro xv; refine Keeps.via22 xv ?_ (fun hx => ?_); clear_value (hv : xv = _); subst hv; rotate_left; clear_value xv)
    | (lift_lets; intro xv; refine Keeps.via222 xv ?_ (fun hx => ?_); clear_value (hv : xv = _); subst hv; rotate_left; clear_value xv)
    | (lift_lets; intro xv; clear_value xv)
    | split
    | (lift_lets; intro _)
    | (refine Keeps.trans ?_ (Keeps.upd rfl rfl rfl rfl rfl rfl rfl rfl rfl rfl ?cn); case cn => (rintro ⟨⟨_, _, _, _, _⟩, ⟨_, _, _, _, _, _, _, _, _, _, _, _, _, _, _, _⟩⟩; constructor <;> constructor <;> dsimp only <;> first | with_reducible assumption | (with_reducible apply NatMap.wf_set; with_reducible assumption) | (unfold NatMap.modify; with_reducible apply NatMap.wf_set; with_reducible assumption) | (with_reducible apply NatMap.wf_mapVals; with_reducible assumption) | (with_reducible apply NatMap.wf_filter; with_reducible assumption) | (with_reducible apply writeGran_wf; with_reducible assumption) | (refine foldl_keeps (P := fun m => NatMap.wf _ m = true) (fun _ _ h => ?_) _ ?_ <;> first | with_reducible assumption | exact writeGran_wf _ _ _ h | exact NatMap.wf_set _ _ h) | rfl))

end Sys2Proof.Machine
end

