-- ==== Sys2Proof/Laws/Keeps/QuernOps.lean ====
section
/-! SUPPORT. What every operation of `Machine/QuernOps.lean` keeps (`Keeps`). -/
set_option linter.unusedTactic false
set_option linter.unreachableTactic false
namespace Sys2Proof.Machine
open Sys2Proof

theorem State.quernReads_keeps (s : State) (x h epoch : Nat) (l : List (Nat × Nat)) : Keeps s (s.quernReads x h epoch l).2.2 := by
  induction l generalizing s with
  | nil => exact Keeps.refl _
  | cons a l ih =>
    unfold State.quernReads
    split
    · exact Keeps.refl _
    · exact (State.readObj_keeps ..).trans (ih _)


theorem State.quernWrites_keeps (s : State) (x h epoch : Nat) (l : List (Nat × List Byte)) : Keeps s (s.quernWrites x h epoch l).2 := by
  induction l generalizing s with
  | nil => exact Keeps.refl _
  | cons a l ih =>
    unfold State.quernWrites
    split
    · exact Keeps.refl _
    · exact (State.writeObj_keeps ..).trans (ih _)


theorem State.checkShardTable_keeps (s : State) (p d h : Nat) : Keeps s (State.checkShardTable s p d h).2.2.2 := by
  unfold State.checkShardTable
  iterate 60 all_goals try first
    | with_reducible first
      | assumption
      | exact Keeps.refl _
      | apply Keeps.trans ?_ (State.quernReads_keeps ..)
      | apply Keeps.ite
      | apply Keeps.trans ?_ (Keeps.foldl (h := ?_) ..)
      | apply Keeps.trans ?_ (Keeps.foldlSnd (h := ?_) ..)
      | apply Keeps.trans ?_ (Keeps.foldlFst (h := ?_) ..)
    | apply Keeps.trans ?_ (Keeps.eq22 (State.quernReads_keeps ..) (by assumption))
    | refine fun _ => ?_
    | (lift_lets; intro xv; refine Keeps.via xv ?_ (fun hx => ?_); clear_value (hv : xv = _); subst hv; rotate_left; clear_value xv)
    | (lift_lets; intro xv; refine Keeps.viaTile xv ?_ (fun hx => ?_); clear_value (hv : xv = _); subst hv; rotate_left; clear_value xv)
    | (lift_lets; intro xv; refine Keeps.via2 xv ?_ (fun hx => ?_); clear_value (hv : xv = _); subst hv; rotate_left; clear_value xv)
    | (lift_lets; intro xv; refine Keeps.via1 xv ?_ (fun hx => ?_); clear_value (hv : xv = _); subst hv; rotate_left; clear_value xv)
    | (lift_lets; intro xv; refine Keeps.via22 xv ?_ (fun hx => ?_); clear_value (hv : xv = _); subst hv; rotate_left; clear_value xv)
    | (lift_lets; intro xv; refine Keeps.via222 xv ?_ (fun hx => ?_); clear_value (hv : xv = _); subst hv; rotate_left; clear_value xv)
    | (lift_lets; intro xv; clear_value xv)
    | split
    | (lift_lets; intro _)

theorem State.readHalf_keeps (s : State) (x : Nat) (sh : Shard) (rule base epoch : Nat) : Keeps s (State.readHalf s x sh rule base epoch).2.2 := by
  unfold State.readHalf
  iterate 60 all_goals try first
    | with_reducible first
      | assumption
      | exact Keeps.refl _
      | apply Keeps.trans ?_ (State.quernReads_keeps ..)
      | apply Keeps.ite
      | apply Keeps.trans ?_ (Keeps.foldl (h := ?_) ..)
      | apply Keeps.trans ?_ (Keeps.foldlSnd (h := ?_) ..)
      | apply Keeps.trans ?_ (Keeps.foldlFst (h := ?_) ..)
    | refine fun _ => ?_
    | (lift_lets; intro xv; refine Keeps.via xv ?_ (fun hx => ?_); clear_value (hv : xv = _); subst hv; rotate_left; clear_value xv)
    | (lift_lets; intro xv; refine Keeps.viaTile xv ?_ (fun hx => ?_); clear_value (hv : xv = _); subst hv; rotate_left; clear_value xv)
    | (lift_lets; intro xv; refine Keeps.via2 xv ?_ (fun hx => ?_); clear_value (hv : xv = _); subst hv; rotate_left; clear_value xv)
    | (lift_lets; intro xv; refine Keeps.via1 xv ?_ (fun hx => ?_); clear_value (hv : xv = _); subst hv; rotate_left; clear_value xv)
    | (lift_lets; intro xv; refine Keeps.via22 xv ?_ (fun hx => ?_); clear_value (hv : xv = _); subst hv; rotate_left; clear_value xv)
    | (lift_lets; intro xv; refine Keeps.via222 xv ?_ (fun hx => ?_); clear_value (hv : xv = _); subst hv; rotate_left; clear_value xv)
    | (lift_lets; intro xv; clear_value xv)
    | split
    | (lift_lets; intro _)

theorem State.releaseShards_keeps (s : State) (x p d : Nat) (l : List Shard) : Keeps s (State.releaseShards s x p d l) := by
  unfold State.releaseShards
  iterate 60 all_goals try first
    | with_reducible first
      | assumption
      | exact Keeps.refl _
      | apply Keeps.trans ?_ (State.setObj_keeps ..)
      | apply Keeps.ite
      | apply Keeps.trans ?_ (Keeps.foldl (h := ?_) ..)
      | apply Keeps.trans ?_ (Keeps.foldlSnd (h := ?_) ..)
      | apply Keeps.trans ?_ (Keeps.foldlFst (h := ?_) ..)
    | refine fun _ => ?_
    | (lift_lets; intro xv; refine Keeps.via xv ?_ (fun hx => ?_); clear_value (hv : xv = _); subst hv; rotate_left; clear_value xv)
    | (lift_lets; intro xv; refine Keeps.viaTile xv ?_ (fun hx => ?_); clear_value (hv : xv = _); subst hv; rotate_left; clear_value xv)
    | (lift_lets; intro xv; refine Keeps.via2 xv ?_ (fun hx => ?_); clear_value (hv : xv = _); subst hv; rotate_left; clear_value xv)
    | (lift_lets; intro xv; refine Keeps.via1 xv ?_ (fun hx => ?_); clear_value (hv : xv = _); subst hv; rotate_left; clear_value xv)
    | (lift_lets; intro xv; refine Keeps.via22 xv ?_ (fun hx => ?_); clear_value (hv : xv = _); subst hv; rotate_left; clear_value xv)
    | (lift_lets; intro xv; refine Keeps.via222 xv ?_ (fun hx => ?_); clear_value (hv : xv = _); subst hv; rotate_left; clear_value xv)
    | (lift_lets; intro xv; clear_value xv)
    | split
    | (lift_lets; intro _)
    | (refine Keeps.trans ?_ (Keeps.upd rfl rfl rfl rfl rfl rfl rfl rfl rfl rfl ?cn); case cn => (rintro ⟨⟨_, _, _, _, _⟩, ⟨_, _, _, _, _, _, _, _, _, _, _, _, _, _, _, _⟩⟩; constructor <;> constructor <;> dsimp only <;> first | with_reducible assumption | (with_reducible apply NatMap.wf_set; with_reducible assumption) | (unfold NatMap.modify; with_reducible apply NatMap.wf_set; with_reducible assumption) | (with_reducible apply NatMap.wf_mapVals; with_reducible assumption) | (with_reducible apply NatMap.wf_filter; with_reducible assumption) | (with_reducible apply writeGran_wf; with_reducible assumption) | (refine foldl_keeps (P := fun m => NatMap.wf _ m = true) (fun _ _ h => ?_) _ ?_ <;> first | with_reducible assumption | exact writeGran_wf _ _ _ h | exact NatMap.wf_set _ _ h) | rfl))

theorem State.holdShards_keeps (s : State) (x : Nat) (l : List Shard) : Keeps s (State.holdShards s x l) := by
  unfold State.holdShards
  iterate 60 all_goals try first
    | with_reducible first
      | assumption
      | exact Keeps.refl _
      | apply Keeps.trans ?_ (State.setObj_keeps ..)
      | apply Keeps.ite
      | apply Keeps.trans ?_ (Keeps.foldl (h := ?_) ..)
      | apply Keeps.trans ?_ (Keeps.foldlSnd (h := ?_) ..)
      | apply Keeps.trans ?_ (Keeps.foldlFst (h := ?_) ..)
    | refine fun _ => ?_
    | (lift_lets; intro xv; refine Keeps.via xv ?_ (fun hx => ?_); clear_value (hv : xv = _); subst hv; rotate_left; clear_value xv)
    | (lift_lets; intro xv; refine Keeps.viaTile xv ?_ (fun hx => ?_); clear_value (hv : xv = _); subst hv; rotate_left; clear_value xv)
    | (lift_lets; intro xv; refine Keeps.via2 xv ?_ (fun hx => ?_); clear_value (hv : xv = _); subst hv; rotate_left; clear_value xv)
    | (lift_lets; intro xv; refine Keeps.via1 xv ?_ (fun hx => ?_); clear_value (hv : xv = _); subst hv; rotate_left; clear_value xv)
    | (lift_lets; intro xv; refine Keeps.via22 xv ?_ (fun hx => ?_); clear_value (hv : xv = _); subst hv; rotate_left; clear_value xv)
    | (lift_lets; intro xv; refine Keeps.via222 xv ?_ (fun hx => ?_); clear_value (hv : xv = _); subst hv; rotate_left; clear_value xv)
    | (lift_lets; intro xv; clear_value xv)
    | split
    | (lift_lets; intro _)
    | (refine Keeps.trans ?_ (Keeps.upd rfl rfl rfl rfl rfl rfl rfl rfl rfl rfl ?cn); case cn => (rintro ⟨⟨_, _, _, _, _⟩, ⟨_, _, _, _, _, _, _, _, _, _, _, _, _, _, _, _⟩⟩; constructor <;> constructor <;> dsimp only <;> first | with_reducible assumption | (with_reducible apply NatMap.wf_set; with_reducible assumption) | (unfold NatMap.modify; with_reducible apply NatMap.wf_set; with_reducible assumption) | (with_reducible apply NatMap.wf_mapVals; with_reducible assumption) | (with_reducible apply NatMap.wf_filter; with_reducible assumption) | (with_reducible apply writeGran_wf; with_reducible assumption) | (refine foldl_keeps (P := fun m => NatMap.wf _ m = true) (fun _ _ h => ?_) _ ?_ <;> first | with_reducible assumption | exact writeGran_wf _ _ _ h | exact NatMap.wf_set _ _ h) | rfl))

theorem Seeding.shard_keeps (z : Seeding) (x p : Nat) (t : ShardTable) (slotEpoch : Nat) (e : Nat × Shard) :
    Keeps z.s (z.shard x p t slotEpoch e).s := by
  unfold Seeding.shard
  split
  · exact Keeps.refl _
  · extract_lets sh q base epoch r pt dg f half w v
    have hr : Keeps z.s r.2.2 := State.readHalf_keeps ..
    have hw : Keeps z.s w.2 := hr.trans (State.quernWrites_keeps ..)
    have hv : Keeps z.s v.2 := by
      dsimp only [v]
      split
      · exact hw.trans (State.quernWrites_keeps ..)
      · exact hw
    split
    · exact hr
    · exact hv

theorem Seeding.foldl_keeps (x p : Nat) (t : ShardTable) (slotEpoch : Nat) (l : List (Nat × Shard)) (z : Seeding) :
    Keeps z.s (l.foldl (fun (z : Seeding) e => z.shard x p t slotEpoch e) z).s := by
  induction l generalizing z with
  | nil => exact Keeps.refl _
  | cons a l ih => exact (Seeding.shard_keeps ..).trans (ih _)

theorem State.qrnLoad_keeps (s : State) (p d : Nat) : Keeps s (s.qrnLoad p d) := by
  unfold State.qrnLoad
  extract_lets st q c refuse t x step ep w z s1 s2 epochs s3
  have hrefuse : ∀ u code f, Keeps u (refuse u code f) := fun u code f => by
    dsimp only [refuse]
    split
    · exact (State.modQuern_keeps ..).trans (State.raise_keeps ..)
    · exact State.modQuern_keeps ..
  have hc : Keeps s c.2.2.2 := State.checkShardTable_keeps ..
  have hep : Keeps s ep.2 := by
    dsimp only [ep]
    split
    · exact hc.trans (State.takeEpoch_keeps ..)
    · exact hc
  have hw : Keeps s w.2 := hep.trans (State.quernWrites_keeps ..)
  have hz : Keeps s z.s := hw.trans (Seeding.foldl_keeps x p t ep.1 _ { s := w.2, fail := w.1 })
  have h1 : Keeps s s1 := hz.trans (State.modQuern_keeps ..)
  have h3 : Keeps s s3 := (h1.trans (State.releaseShards_keeps ..)).trans (State.modQuern_keeps ..)
  clear_value s3 epochs s2 s1 z w ep step x t refuse c
  split
  · exact State.setQuern_keeps ..
  · split
    · exact State.setQuern_keeps ..
    · split
      · exact hc.trans (hrefuse ..)
      · split
        · exact h1.trans (hrefuse ..)
        · exact h3.trans (State.holdShards_keeps ..)


theorem State.quernClear_keeps (s : State) (p d : Nat) : Keeps s (State.quernClear s p d) := by
  unfold State.quernClear
  iterate 60 all_goals try first
    | with_reducible first
      | assumption
      | exact Keeps.refl _
      | apply Keeps.trans ?_ (State.releaseShards_keeps ..)
      | apply Keeps.trans ?_ (State.setQuern_keeps ..)
      | apply Keeps.ite
      | apply Keeps.trans ?_ (Keeps.foldl (h := ?_) ..)
      | apply Keeps.trans ?_ (Keeps.foldlSnd (h := ?_) ..)
      | apply Keeps.trans ?_ (Keeps.foldlFst (h := ?_) ..)
    | refine fun _ => ?_
    | (lift_lets; intro xv; refine Keeps.via xv ?_ (fun hx => ?_); clear_value (hv : xv = _); subst hv; rotate_left; clear_value xv)
    | (lift_lets; intro xv; refine Keeps.viaTile xv ?_ (fun hx => ?_); clear_value (hv : xv = _); subst hv; rotate_left; clear_value xv)
    | (lift_lets; intro xv; refine Keeps.via2 xv ?_ (fun hx => ?_); clear_value (hv : xv = _); subst hv; rotate_left; clear_value xv)
    | (lift_lets; intro xv; refine Keeps.via1 xv ?_ (fun hx => ?_); clear_value (hv : xv = _); subst hv; rotate_left; clear_value xv)
    | (lift_lets; intro xv; refine Keeps.via22 xv ?_ (fun hx => ?_); clear_value (hv : xv = _); subst hv; rotate_left; clear_value xv)
    | (lift_lets; intro xv; refine Keeps.via222 xv ?_ (fun hx => ?_); clear_value (hv : xv = _); subst hv; rotate_left; clear_value xv)
    | (lift_lets; intro xv; clear_value xv)
    | split
    | (lift_lets; intro _)

theorem State.qrnUnload_keeps (s : State) (p d : Nat) : Keeps s (State.qrnUnload s p d) := by
  unfold State.qrnUnload
  iterate 60 all_goals try first
    | with_reducible first
      | assumption
      | exact Keeps.refl _
      | apply Keeps.trans ?_ (State.setQuern_keeps ..)
      | apply Keeps.trans ?_ (State.quernClear_keeps ..)
      | apply Keeps.ite
      | apply Keeps.trans ?_ (Keeps.foldl (h := ?_) ..)
      | apply Keeps.trans ?_ (Keeps.foldlSnd (h := ?_) ..)
      | apply Keeps.trans ?_ (Keeps.foldlFst (h := ?_) ..)
    | refine fun _ => ?_
    | (lift_lets; intro xv; refine Keeps.via xv ?_ (fun hx => ?_); clear_value (hv : xv = _); subst hv; rotate_left; clear_value xv)
    | (lift_lets; intro xv; refine Keeps.viaTile xv ?_ (fun hx => ?_); clear_value (hv : xv = _); subst hv; rotate_left; clear_value xv)
    | (lift_lets; intro xv; refine Keeps.via2 xv ?_ (fun hx => ?_); clear_value (hv : xv = _); subst hv; rotate_left; clear_value xv)
    | (lift_lets; intro xv; refine Keeps.via1 xv ?_ (fun hx => ?_); clear_value (hv : xv = _); subst hv; rotate_left; clear_value xv)
    | (lift_lets; intro xv; refine Keeps.via22 xv ?_ (fun hx => ?_); clear_value (hv : xv = _); subst hv; rotate_left; clear_value xv)
    | (lift_lets; intro xv; refine Keeps.via222 xv ?_ (fun hx => ?_); clear_value (hv : xv = _); subst hv; rotate_left; clear_value xv)
    | (lift_lets; intro xv; clear_value xv)
    | split
    | (lift_lets; intro _)
    | (refine Keeps.trans ?_ (Keeps.upd rfl rfl rfl rfl rfl rfl rfl rfl rfl rfl ?cn); case cn => (rintro ⟨⟨_, _, _, _, _⟩, ⟨_, _, _, _, _, _, _, _, _, _, _, _, _, _, _, _⟩⟩; constructor <;> constructor <;> dsimp only <;> first | with_reducible assumption | (with_reducible apply NatMap.wf_set; with_reducible assumption) | (unfold NatMap.modify; with_reducible apply NatMap.wf_set; with_reducible assumption) | (with_reducible apply NatMap.wf_mapVals; with_reducible assumption) | (with_reducible apply NatMap.wf_filter; with_reducible assumption) | (with_reducible apply writeGran_wf; with_reducible assumption) | (refine foldl_keeps (P := fun m => NatMap.wf _ m = true) (fun _ _ h => ?_) _ ?_ <;> first | with_reducible assumption | exact writeGran_wf _ _ _ h | exact NatMap.wf_set _ _ h) | rfl))

theorem State.commitWord_keeps (s : State) (x : Nat) (q : Quern) (k : Nat) : Keeps s (State.commitWord s x q k).2.2 := by
  unfold State.commitWord
  iterate 60 all_goals try first
    | with_reducible first
      | assumption
      | exact Keeps.refl _
      | apply Keeps.trans ?_ (State.quernReads_keeps ..)
      | apply Keeps.ite
      | apply Keeps.trans ?_ (Keeps.foldl (h := ?_) ..)
      | apply Keeps.trans ?_ (Keeps.foldlSnd (h := ?_) ..)
      | apply Keeps.trans ?_ (Keeps.foldlFst (h := ?_) ..)
    | refine fun _ => ?_
    | (lift_lets; intro xv; refine Keeps.via xv ?_ (fun hx => ?_); clear_value (hv : xv = _); subst hv; rotate_left; clear_value xv)
    | (lift_lets; intro xv; refine Keeps.viaTile xv ?_ (fun hx => ?_); clear_value (hv : xv = _); subst hv; rotate_left; clear_value xv)
    | (lift_lets; intro xv; refine Keeps.via2 xv ?_ (fun hx => ?_); clear_value (hv : xv = _); subst hv; rotate_left; clear_value xv)
    | (lift_lets; intro xv; refine Keeps.via1 xv ?_ (fun hx => ?_); clear_value (hv : xv = _); subst hv; rotate_left; clear_value xv)
    | (lift_lets; intro xv; refine Keeps.via22 xv ?_ (fun hx => ?_); clear_value (hv : xv = _); subst hv; rotate_left; clear_value xv)
    | (lift_lets; intro xv; refine Keeps.via222 xv ?_ (fun hx => ?_); clear_value (hv : xv = _); subst hv; rotate_left; clear_value xv)
    | (lift_lets; intro xv; clear_value xv)
    | split
    | (lift_lets; intro _)

theorem State.quernStop_keeps (s : State) (p d : Nat) (f : QFail) : Keeps s (State.quernStop s p d f) := by
  unfold State.quernStop
  iterate 60 all_goals try first
    | with_reducible first
      | assumption
      | exact Keeps.refl _
      | apply Keeps.trans ?_ (State.modQuern_keeps ..)
      | apply Keeps.trans ?_ (State.raise_keeps ..)
      | apply Keeps.ite
      | apply Keeps.trans ?_ (Keeps.foldl (h := ?_) ..)
      | apply Keeps.trans ?_ (Keeps.foldlSnd (h := ?_) ..)
      | apply Keeps.trans ?_ (Keeps.foldlFst (h := ?_) ..)
    | refine fun _ => ?_
    | (lift_lets; intro xv; refine Keeps.via xv ?_ (fun hx => ?_); clear_value (hv : xv = _); subst hv; rotate_left; clear_value xv)
    | (lift_lets; intro xv; refine Keeps.viaTile xv ?_ (fun hx => ?_); clear_value (hv : xv = _); subst hv; rotate_left; clear_value xv)
    | (lift_lets; intro xv; refine Keeps.via2 xv ?_ (fun hx => ?_); clear_value (hv : xv = _); subst hv; rotate_left; clear_value xv)
    | (lift_lets; intro xv; refine Keeps.via1 xv ?_ (fun hx => ?_); clear_value (hv : xv = _); subst hv; rotate_left; clear_value xv)
    | (lift_lets; intro xv; refine Keeps.via22 xv ?_ (fun hx => ?_); clear_value (hv : xv = _); subst hv; rotate_left; clear_value xv)
    | (lift_lets; intro xv; refine Keeps.via222 xv ?_ (fun hx => ?_); clear_value (hv : xv = _); subst hv; rotate_left; clear_value xv)
    | (lift_lets; intro xv; clear_value xv)
    | split
    | (lift_lets; intro _)
    | (refine Keeps.trans ?_ (Keeps.upd rfl rfl rfl rfl rfl rfl rfl rfl rfl rfl ?cn); case cn => (rintro ⟨⟨_, _, _, _, _⟩, ⟨_, _, _, _, _, _, _, _, _, _, _, _, _, _, _, _⟩⟩; constructor <;> constructor <;> dsimp only <;> first | with_reducible assumption | (with_reducible apply NatMap.wf_set; with_reducible assumption) | (unfold NatMap.modify; with_reducible apply NatMap.wf_set; with_reducible assumption) | (with_reducible apply NatMap.wf_mapVals; with_reducible assumption) | (with_reducible apply NatMap.wf_filter; with_reducible assumption) | (with_reducible apply writeGran_wf; with_reducible assumption) | (refine foldl_keeps (P := fun m => NatMap.wf _ m = true) (fun _ _ h => ?_) _ ?_ <;> first | with_reducible assumption | exact writeGran_wf _ _ _ h | exact NatMap.wf_set _ _ h) | rfl))

theorem State.keepForward_keeps (s : State) (x p d slot epoch : Nat) (sh : Shard) : Keeps s (State.keepForward s x p d slot epoch sh).2 := by
  unfold State.keepForward
  iterate 60 all_goals try first
    | with_reducible first
      | assumption
      | exact Keeps.refl _
      | apply Keeps.trans ?_ (State.quernReads_keeps ..)
      | apply Keeps.trans ?_ (State.quernWrites_keeps ..)
      | apply Keeps.ite
      | apply Keeps.trans ?_ (Keeps.foldl (h := ?_) ..)
      | apply Keeps.trans ?_ (Keeps.foldlSnd (h := ?_) ..)
      | apply Keeps.trans ?_ (Keeps.foldlFst (h := ?_) ..)
    | apply Keeps.trans ?_ (Keeps.eq22 (State.quernReads_keeps ..) (by assumption))
    | apply Keeps.trans ?_ (Keeps.eq2 (State.quernWrites_keeps ..) (by assumption))
    | refine fun _ => ?_
    | (lift_lets; intro xv; refine Keeps.via xv ?_ (fun hx => ?_); clear_value (hv : xv = _); subst hv; rotate_left; clear_value xv)
    | (lift_lets; intro xv; refine Keeps.viaTile xv ?_ (fun hx => ?_); clear_value (hv : xv = _); subst hv; rotate_left; clear_value xv)
    | (lift_lets; intro xv; refine Keeps.via2 xv ?_ (fun hx => ?_); clear_value (hv : xv = _); subst hv; rotate_left; clear_value xv)
    | (lift_lets; intro xv; refine Keeps.via1 xv ?_ (fun hx => ?_); clear_value (hv : xv = _); subst hv; rotate_left; clear_value xv)
    | (lift_lets; intro xv; refine Keeps.via22 xv ?_ (fun hx => ?_); clear_value (hv : xv = _); subst hv; rotate_left; clear_value xv)
    | (lift_lets; intro xv; refine Keeps.via222 xv ?_ (fun hx => ?_); clear_value (hv : xv = _); subst hv; rotate_left; clear_value xv)
    | (lift_lets; intro xv; clear_value xv)
    | split
    | (lift_lets; intro _)

theorem State.sweepShard_keeps (s : State) (x p d k step slot epoch : Nat) (rules : NatMap RuleSet) (sh : Shard) : Keeps s (State.sweepShard s x p d k step slot epoch rules sh).2 := by
  unfold State.sweepShard
  iterate 60 all_goals try first
    | with_reducible first
      | assumption
      | exact Keeps.refl _
      | apply Keeps.trans ?_ (State.commitWord_keeps ..)
      | apply Keeps.trans ?_ (State.readHalf_keeps ..)
      | apply Keeps.trans ?_ (State.quernReads_keeps ..)
      | apply Keeps.trans ?_ (State.modQuern_keeps ..)
      | apply Keeps.trans ?_ (State.raise_keeps ..)
      | apply Keeps.trans ?_ (State.keepForward_keeps ..)
      | apply Keeps.trans ?_ (State.quernWrites_keeps ..)
      | apply Keeps.ite
      | apply Keeps.trans ?_ (Keeps.foldl (h := ?_) ..)
      | apply Keeps.trans ?_ (Keeps.foldlSnd (h := ?_) ..)
      | apply Keeps.trans ?_ (Keeps.foldlFst (h := ?_) ..)
    | apply Keeps.trans ?_ (Keeps.eq22 (State.commitWord_keeps ..) (by assumption))
    | apply Keeps.trans ?_ (Keeps.eq22 (State.readHalf_keeps ..) (by assumption))
    | apply Keeps.trans ?_ (Keeps.eq22 (State.quernReads_keeps ..) (by assumption))
    | apply Keeps.trans ?_ (Keeps.eq2 (State.keepForward_keeps ..) (by assumption))
    | apply Keeps.trans ?_ (Keeps.eq2 (State.quernWrites_keeps ..) (by assumption))
    | refine fun _ => ?_
    | (lift_lets; intro xv; refine Keeps.via xv ?_ (fun hx => ?_); clear_value (hv : xv = _); subst hv; rotate_left; clear_value xv)
    | (lift_lets; intro xv; refine Keeps.viaTile xv ?_ (fun hx => ?_); clear_value (hv : xv = _); subst hv; rotate_left; clear_value xv)
    | (lift_lets; intro xv; refine Keeps.via2 xv ?_ (fun hx => ?_); clear_value (hv : xv = _); subst hv; rotate_left; clear_value xv)
    | (lift_lets; intro xv; refine Keeps.via1 xv ?_ (fun hx => ?_); clear_value (hv : xv = _); subst hv; rotate_left; clear_value xv)
    | (lift_lets; intro xv; refine Keeps.via22 xv ?_ (fun hx => ?_); clear_value (hv : xv = _); subst hv; rotate_left; clear_value xv)
    | (lift_lets; intro xv; refine Keeps.via222 xv ?_ (fun hx => ?_); clear_value (hv : xv = _); subst hv; rotate_left; clear_value xv)
    | (lift_lets; intro xv; clear_value xv)
    | split
    | (lift_lets; intro _)
    | (refine Keeps.trans ?_ (Keeps.upd rfl rfl rfl rfl rfl rfl rfl rfl rfl rfl ?cn); case cn => (rintro ⟨⟨_, _, _, _, _⟩, ⟨_, _, _, _, _, _, _, _, _, _, _, _, _, _, _, _⟩⟩; constructor <;> constructor <;> dsimp only <;> first | with_reducible assumption | (with_reducible apply NatMap.wf_set; with_reducible assumption) | (unfold NatMap.modify; with_reducible apply NatMap.wf_set; with_reducible assumption) | (with_reducible apply NatMap.wf_mapVals; with_reducible assumption) | (with_reducible apply NatMap.wf_filter; with_reducible assumption) | (with_reducible apply writeGran_wf; with_reducible assumption) | (refine foldl_keeps (P := fun m => NatMap.wf _ m = true) (fun _ _ h => ?_) _ ?_ <;> first | with_reducible assumption | exact writeGran_wf _ _ _ h | exact NatMap.wf_set _ _ h) | rfl))

theorem State.sweepShards_keeps (s : State) (x p d step slot epoch : Nat) (rules : NatMap RuleSet) (l : List (Nat × Shard)) :
    Keeps s (s.sweepShards x p d step slot epoch rules l).2 := by
  induction l generalizing s with
  | nil => exact Keeps.refl _
  | cons a l ih =>
    unfold State.sweepShards
    dsimp only
    split
    · exact State.sweepShard_keeps ..
    · exact (State.sweepShard_keeps ..).trans (ih _)


theorem State.flipShards_keeps (s : State) (x p d step : Nat) (l : List (Nat × Shard)) : Keeps s (s.flipShards x p d step l).2 := by
  induction l generalizing s with
  | nil => exact Keeps.refl _
  | cons a l ih =>
    unfold State.flipShards
    dsimp only
    have h1 := State.commitWord_keeps s x (s.quern p d) a.1
    split
    · exact h1
    · split
      · exact h1.trans (ih _)
      · split
        · exact h1.trans (State.quernWrites_keeps ..)
        · exact (h1.trans (State.quernWrites_keeps ..)).trans (ih _)


end Sys2Proof.Machine
end

