-- ==== Sys2Proof/Laws/Keeps/Stop.lean ====
section
/-! SUPPORT. What every operation of `Machine/Stop.lean` keeps (`Keeps`). -/
set_option linter.unusedTactic false
set_option linter.unreachableTactic false
namespace Sys2Proof.Machine
open Sys2Proof

theorem State.statLost_keeps (s : State) (t : Nat) (top : Top) (lost : Bool) : Keeps s (State.statLost s t top lost) := by
  unfold State.statLost
  iterate 60 all_goals try first
    | with_reducible first
      | assumption
      | exact Keeps.refl _
      | apply Keeps.trans ?_ (State.modTile_keeps (hf := ?_) ..)
      | apply Keeps.trans ?_ (State.raise_keeps ..)
      | apply Keeps.ite
      | apply Keeps.trans ?_ (Keeps.foldl (h := ?_) ..)
      | apply Keeps.trans ?_ (Keeps.foldlSnd (h := ?_) ..)
      | apply Keeps.trans ?_ (Keeps.foldlFst (h := ?_) ..)
    | exact ⟨(State.Canon.tile ‹_› _).1, (State.Canon.tile ‹_› _).2⟩
    | exact fun _ h => h
    | exact fun _ h => ⟨h.1, h.2⟩
    | exact fun _ h => ⟨h.1, h.2, h.3⟩
    | exact fun _ => ⟨id, rfl⟩
    | exact fun _ => Otp.Le.refl _
    | (intro x h; dsimp only; split <;> exact h)
    | exact fun c => State.Canon.tile c _
    | (intro c; have e := ‹_ → Tile.Canon _› c; exact ⟨e.1, e.2⟩)
    | (intro x h; dsimp only; (repeat split) <;> first | exact h | exact ⟨h.1, h.2⟩ | exact Tile.settle_canon ⟨h.1, h.2⟩)
    | refine fun _ => ?_
    | (lift_lets; intro xv; refine Keeps.via xv ?_ (fun hx => ?_); clear_value (hv : xv = _); subst hv; rotate_left; clear_value xv)
    | (lift_lets; intro xv; refine Keeps.viaTile xv ?_ (fun hx => ?_); clear_value (hv : xv = _); subst hv; rotate_left; clear_value xv)
    | (lift_lets; intro xv; refine Keeps.via2 xv ?_ (fun hx => ?_); clear_value (hv : xv = _); subst hv; rotate_left; clear_value xv)
    | (lift_lets; intro xv; refine Keeps.via1 xv ?_ (fun hx => ?_); clear_value (hv : xv = _); subst hv; rotate_left; clear_value xv)
    | (lift_lets; intro xv; refine Keeps.via22 xv ?_ (fun hx => ?_); clear_value (hv : xv = _); subst hv; rotate_left; clear_value xv)
    | (lift_lets; intro xv; refine Keeps.via222 xv ?_ (fun hx => ?_); clear_value (hv : xv = _); subst hv; rotate_left; clear_value xv)
    | (lift_lets; intro xv; clear_value xv)
    | split
    | (lift_lets; intro _)
    | (refine Keeps.trans ?_ (Keeps.upd rfl rfl rfl rfl rfl rfl rfl rfl rfl rfl ?cn); case cn => (rintro ⟨⟨_, _, _, _, _⟩, ⟨_, _, _, _, _, _, _, _, _, _, _, _, _, _, _, _⟩⟩; constructor <;> constructor <;> dsimp only <;> first | with_reducible assumption | (with_reducible apply NatMap.wf_set; with_reducible assumption) | (unfold NatMap.modify; with_reducible apply NatMap.wf_set; with_reducible assumption) | (with_reducible apply NatMap.wf_mapVals; with_reducible assumption) | (with_reducible apply NatMap.wf_filter; with_reducible assumption) | (with_reducible apply writeGran_wf; with_reducible assumption) | (refine foldl_keeps (P := fun m => NatMap.wf _ m = true) (fun _ _ h => ?_) _ ?_ <;> first | with_reducible assumption | exact writeGran_wf _ _ _ h | exact NatMap.wf_set _ _ h) | rfl))

theorem State.statNext_keeps (s : State) (t : Nat) : Keeps s (s.statNext t) := by
  unfold State.statNext
  extract_lets x
  have hx : s.Canon → x.Canon := fun h => h.tile t
  clear_value x
  split
  · exact Keeps.refl _
  · split
    · with_reducible apply Keeps.trans ?_ (State.statLost_keeps ..)
      exact State.setTile_keeps _ _ _ fun h => Tile.statUpdate_canon _ _ ⟨(hx h).regs, (hx h).scratch⟩
    · exact Keeps.refl _


theorem State.settleStats_keeps (s : State) (t : Nat) : Keeps s (State.settleStats s t) := by
  unfold State.settleStats
  iterate 60 all_goals try first
    | with_reducible first
      | assumption
      | exact Keeps.refl _
      | apply Keeps.trans ?_ (State.statNext_keeps ..)
      | apply Keeps.ite
      | apply Keeps.trans ?_ (Keeps.foldl (h := ?_) ..)
      | apply Keeps.trans ?_ (Keeps.foldlSnd (h := ?_) ..)
      | apply Keeps.trans ?_ (Keeps.foldlFst (h := ?_) ..)
    | refine fun _ => ?_
    | (lift_lets; intro xv; refine Keeps.via xv ?_ (fun hx => ?_); clear_value (hv : xv = _); subst hv; rotate_left; clear_value xv)
    | (lift_lets; intro xv; refine Keeps.viaTile xv ?_ (fun hx => ?_); clear_value (hv : xv = _); subst hv; rotate_left; clear_value xv)
    | (lift_lets; intro xv; refine Keeps.via2 xv ?_ (fun hx => ?_); clear_value (hv : xv = _); subst hv; rotate_left; clear_value xv)
    | (lift_lets; intro xv; refine Keeps.via1 xv ?_ (fun hx => ?_); clear_value (hv : xv = _); subst hv; rotate_left; clear_value xv)
    | (lift_lets; intro xv; refine Keeps.via22 xv ?_ (fun hx => ?_); clear_value (hv : xv = _); subst hv; rotate_left; clear_value xv)
    | (lift_lets; intro xv; refine Keeps.via222 xv ?_ (fun hx => ?_); clear_value (hv : xv = _); subst hv; rotate_left; clear_value xv)
    | (lift_lets; intro xv; clear_value xv)
    | split
    | (lift_lets; intro _)

theorem State.oweStats_keeps (s : State) (t : Nat) (f : Flight) (a : StatAdd) : Keeps s (State.oweStats s t f a) := by
  unfold State.oweStats
  iterate 60 all_goals try first
    | with_reducible first
      | assumption
      | exact Keeps.refl _
      | apply Keeps.trans ?_ (State.modTile_keeps (hf := ?_) ..)
      | apply Keeps.trans ?_ (State.settleStats_keeps ..)
      | apply Keeps.ite
      | apply Keeps.trans ?_ (Keeps.foldl (h := ?_) ..)
      | apply Keeps.trans ?_ (Keeps.foldlSnd (h := ?_) ..)
      | apply Keeps.trans ?_ (Keeps.foldlFst (h := ?_) ..)
    | exact ⟨(State.Canon.tile ‹_› _).1, (State.Canon.tile ‹_› _).2⟩
    | exact fun _ h => h
    | exact fun _ h => ⟨h.1, h.2⟩
    | exact fun _ h => ⟨h.1, h.2, h.3⟩
    | exact fun _ => ⟨id, rfl⟩
    | exact fun _ => Otp.Le.refl _
    | (intro x h; dsimp only; split <;> exact h)
    | exact fun _ h => Tile.settle_canon h
    | exact fun c => State.Canon.tile c _
    | (intro c; have e := ‹_ → Tile.Canon _› c; exact ⟨e.1, e.2⟩)
    | (intro x h; dsimp only; (repeat split) <;> first | exact h | exact ⟨h.1, h.2⟩ | exact Tile.settle_canon ⟨h.1, h.2⟩)
    | refine fun _ => ?_
    | (lift_lets; intro xv; refine Keeps.via xv ?_ (fun hx => ?_); clear_value (hv : xv = _); subst hv; rotate_left; clear_value xv)
    | (lift_lets; intro xv; refine Keeps.viaTile xv ?_ (fun hx => ?_); clear_value (hv : xv = _); subst hv; rotate_left; clear_value xv)
    | (lift_lets; intro xv; refine Keeps.via2 xv ?_ (fun hx => ?_); clear_value (hv : xv = _); subst hv; rotate_left; clear_value xv)
    | (lift_lets; intro xv; refine Keeps.via1 xv ?_ (fun hx => ?_); clear_value (hv : xv = _); subst hv; rotate_left; clear_value xv)
    | (lift_lets; intro xv; refine Keeps.via22 xv ?_ (fun hx => ?_); clear_value (hv : xv = _); subst hv; rotate_left; clear_value xv)
    | (lift_lets; intro xv; refine Keeps.via222 xv ?_ (fun hx => ?_); clear_value (hv : xv = _); subst hv; rotate_left; clear_value xv)
    | (lift_lets; intro xv; clear_value xv)
    | split
    | (lift_lets; intro _)
    | (refine Keeps.trans ?_ (Keeps.upd rfl rfl rfl rfl rfl rfl rfl rfl rfl rfl ?cn); case cn => (rintro ⟨⟨_, _, _, _, _⟩, ⟨_, _, _, _, _, _, _, _, _, _, _, _, _, _, _, _⟩⟩; constructor <;> constructor <;> dsimp only <;> first | with_reducible assumption | (with_reducible apply NatMap.wf_set; with_reducible assumption) | (unfold NatMap.modify; with_reducible apply NatMap.wf_set; with_reducible assumption) | (with_reducible apply NatMap.wf_mapVals; with_reducible assumption) | (with_reducible apply NatMap.wf_filter; with_reducible assumption) | (with_reducible apply writeGran_wf; with_reducible assumption) | (refine foldl_keeps (P := fun m => NatMap.wf _ m = true) (fun _ _ h => ?_) _ ?_ <;> first | with_reducible assumption | exact writeGran_wf _ _ _ h | exact NatMap.wf_set _ _ h) | rfl))

theorem State.leatFault_keeps (s : State) (c k code : Nat) (addr : Option Nat) : Keeps s (State.leatFault s c k code addr) := by
  unfold State.leatFault
  iterate 60 all_goals try first
    | with_reducible first
      | assumption
      | exact Keeps.refl _
      | apply Keeps.trans ?_ (State.modLeat_keeps ..)
      | apply Keeps.trans ?_ (State.modCluster_keeps (hf := ?_) ..)
      | apply Keeps.trans ?_ (State.raise_keeps ..)
      | apply Keeps.ite
      | apply Keeps.trans ?_ (Keeps.foldl (h := ?_) ..)
      | apply Keeps.trans ?_ (Keeps.foldlSnd (h := ?_) ..)
      | apply Keeps.trans ?_ (Keeps.foldlFst (h := ?_) ..)
    | (intro x h; have e1 := h.sram; have e2 := h.imem; have e3 := h.dmem; constructor <;> dsimp only <;> first | with_reducible assumption | (with_reducible apply NatMap.wf_setList; with_reducible assumption) | (with_reducible apply NatMap.wf_set; with_reducible assumption))
    | exact ⟨(State.Canon.tile ‹_› _).1, (State.Canon.tile ‹_› _).2⟩
    | exact fun _ h => h
    | exact fun _ h => ⟨h.1, h.2⟩
    | exact fun _ h => ⟨h.1, h.2, h.3⟩
    | exact fun _ => ⟨id, rfl⟩
    | exact fun _ => Otp.Le.refl _
    | (intro x h; dsimp only; split <;> exact h)
    | refine fun _ => ?_
    | (lift_lets; intro xv; refine Keeps.via xv ?_ (fun hx => ?_); clear_value (hv : xv = _); subst hv; rotate_left; clear_value xv)
    | (lift_lets; intro xv; refine Keeps.viaTile xv ?_ (fun hx => ?_); clear_value (hv : xv = _); subst hv; rotate_left; clear_value xv)
    | (lift_lets; intro xv; refine Keeps.via2 xv ?_ (fun hx => ?_); clear_value (hv : xv = _); subst hv; rotate_left; clear_value xv)
    | (lift_lets; intro xv; refine Keeps.via1 xv ?_ (fun hx => ?_); clear_value (hv : xv = _); subst hv; rotate_left; clear_value xv)
    | (lift_lets; intro xv; refine Keeps.via22 xv ?_ (fun hx => ?_); clear_value (hv : xv = _); subst hv; rotate_left; clear_value xv)
    | (lift_lets; intro xv; refine Keeps.via222 xv ?_ (fun hx => ?_); clear_value (hv : xv = _); subst hv; rotate_left; clear_value xv)
    | (lift_lets; intro xv; clear_value xv)
    | split
    | (lift_lets; intro _)
    | (refine Keeps.trans ?_ (Keeps.upd rfl rfl rfl rfl rfl rfl rfl rfl rfl rfl ?cn); case cn => (rintro ⟨⟨_, _, _, _, _⟩, ⟨_, _, _, _, _, _, _, _, _, _, _, _, _, _, _, _⟩⟩; constructor <;> constructor <;> dsimp only <;> first | with_reducible assumption | (with_reducible apply NatMap.wf_set; with_reducible assumption) | (unfold NatMap.modify; with_reducible apply NatMap.wf_set; with_reducible assumption) | (with_reducible apply NatMap.wf_mapVals; with_reducible assumption) | (with_reducible apply NatMap.wf_filter; with_reducible assumption) | (with_reducible apply writeGran_wf; with_reducible assumption) | (refine foldl_keeps (P := fun m => NatMap.wf _ m = true) (fun _ _ h => ?_) _ ?_ <;> first | with_reducible assumption | exact writeGran_wf _ _ _ h | exact NatMap.wf_set _ _ h) | rfl))

theorem State.stopLeats_keeps (s : State) (c : Nat) : Keeps s (State.stopLeats s c) := by
  unfold State.stopLeats
  iterate 60 all_goals try first
    | with_reducible first
      | assumption
      | exact Keeps.refl _
      | apply Keeps.trans ?_ (State.modLeat_keeps ..)
      | apply Keeps.ite
      | apply Keeps.trans ?_ (Keeps.foldl (h := ?_) ..)
      | apply Keeps.trans ?_ (Keeps.foldlSnd (h := ?_) ..)
      | apply Keeps.trans ?_ (Keeps.foldlFst (h := ?_) ..)
    | refine fun _ => ?_
    | (lift_lets; intro xv; refine Keeps.via xv ?_ (fun hx => ?_); clear_value (hv : xv = _); subst hv; rotate_left; clear_value xv)
    | (lift_lets; intro xv; refine Keeps.viaTile xv ?_ (fun hx => ?_); clear_value (hv : xv = _); subst hv; rotate_left; clear_value xv)
    | (lift_lets; intro xv; refine Keeps.via2 xv ?_ (fun hx => ?_); clear_value (hv : xv = _); subst hv; rotate_left; clear_value xv)
    | (lift_lets; intro xv; refine Keeps.via1 xv ?_ (fun hx => ?_); clear_value (hv : xv = _); subst hv; rotate_left; clear_value xv)
    | (lift_lets; intro xv; refine Keeps.via22 xv ?_ (fun hx => ?_); clear_value (hv : xv = _); subst hv; rotate_left; clear_value xv)
    | (lift_lets; intro xv; refine Keeps.via222 xv ?_ (fun hx => ?_); clear_value (hv : xv = _); subst hv; rotate_left; clear_value xv)
    | (lift_lets; intro xv; clear_value xv)
    | split
    | (lift_lets; intro _)

theorem State.foldQuerns_keeps (s : State) (p : Nat) (f : Quern → Quern) : Keeps s (State.foldQuerns s p f) := by
  unfold State.foldQuerns
  iterate 60 all_goals try first
    | with_reducible first
      | assumption
      | exact Keeps.refl _
      | apply Keeps.trans ?_ (State.modQuern_keeps ..)
      | apply Keeps.ite
      | apply Keeps.trans ?_ (Keeps.foldl (h := ?_) ..)
      | apply Keeps.trans ?_ (Keeps.foldlSnd (h := ?_) ..)
      | apply Keeps.trans ?_ (Keeps.foldlFst (h := ?_) ..)
    | refine fun _ => ?_
    | (lift_lets; intro xv; refine Keeps.via xv ?_ (fun hx => ?_); clear_value (hv : xv = _); subst hv; rotate_left; clear_value xv)
    | (lift_lets; intro xv; refine Keeps.viaTile xv ?_ (fun hx => ?_); clear_value (hv : xv = _); subst hv; rotate_left; clear_value xv)
    | (lift_lets; intro xv; refine Keeps.via2 xv ?_ (fun hx => ?_); clear_value (hv : xv = _); subst hv; rotate_left; clear_value xv)
    | (lift_lets; intro xv; refine Keeps.via1 xv ?_ (fun hx => ?_); clear_value (hv : xv = _); subst hv; rotate_left; clear_value xv)
    | (lift_lets; intro xv; refine Keeps.via22 xv ?_ (fun hx => ?_); clear_value (hv : xv = _); subst hv; rotate_left; clear_value xv)
    | (lift_lets; intro xv; refine Keeps.via222 xv ?_ (fun hx => ?_); clear_value (hv : xv = _); subst hv; rotate_left; clear_value xv)
    | (lift_lets; intro xv; clear_value xv)
    | split
    | (lift_lets; intro _)

theorem State.foldGroups_keeps (s : State) (p : Nat) (f : LagGroup → LagGroup) : Keeps s (State.foldGroups s p f) := by
  unfold State.foldGroups
  iterate 60 all_goals try first
    | with_reducible first
      | assumption
      | exact Keeps.refl _
      | apply Keeps.trans ?_ (State.foldQuerns_keeps ..)
      | apply Keeps.ite
      | apply Keeps.trans ?_ (Keeps.foldl (h := ?_) ..)
      | apply Keeps.trans ?_ (Keeps.foldlSnd (h := ?_) ..)
      | apply Keeps.trans ?_ (Keeps.foldlFst (h := ?_) ..)
    | refine fun _ => ?_
    | (lift_lets; intro xv; refine Keeps.via xv ?_ (fun hx => ?_); clear_value (hv : xv = _); subst hv; rotate_left; clear_value xv)
    | (lift_lets; intro xv; refine Keeps.viaTile xv ?_ (fun hx => ?_); clear_value (hv : xv = _); subst hv; rotate_left; clear_value xv)
    | (lift_lets; intro xv; refine Keeps.via2 xv ?_ (fun hx => ?_); clear_value (hv : xv = _); subst hv; rotate_left; clear_value xv)
    | (lift_lets; intro xv; refine Keeps.via1 xv ?_ (fun hx => ?_); clear_value (hv : xv = _); subst hv; rotate_left; clear_value xv)
    | (lift_lets; intro xv; refine Keeps.via22 xv ?_ (fun hx => ?_); clear_value (hv : xv = _); subst hv; rotate_left; clear_value xv)
    | (lift_lets; intro xv; refine Keeps.via222 xv ?_ (fun hx => ?_); clear_value (hv : xv = _); subst hv; rotate_left; clear_value xv)
    | (lift_lets; intro xv; clear_value xv)
    | split
    | (lift_lets; intro _)
    | (refine Keeps.trans ?_ (Keeps.upd rfl rfl rfl rfl rfl rfl rfl rfl rfl rfl ?cn); case cn => (rintro ⟨⟨_, _, _, _, _⟩, ⟨_, _, _, _, _, _, _, _, _, _, _, _, _, _, _, _⟩⟩; constructor <;> constructor <;> dsimp only <;> first | with_reducible assumption | (with_reducible apply NatMap.wf_set; with_reducible assumption) | (unfold NatMap.modify; with_reducible apply NatMap.wf_set; with_reducible assumption) | (with_reducible apply NatMap.wf_mapVals; with_reducible assumption) | (with_reducible apply NatMap.wf_filter; with_reducible assumption) | (with_reducible apply writeGran_wf; with_reducible assumption) | (refine foldl_keeps (P := fun m => NatMap.wf _ m = true) (fun _ _ h => ?_) _ ?_ <;> first | with_reducible assumption | exact writeGran_wf _ _ _ h | exact NatMap.wf_set _ _ h) | rfl))

theorem State.dropVersionRefs_keeps (s : State) (p : Nat) : Keeps s (State.dropVersionRefs s p) := by
  unfold State.dropVersionRefs
  iterate 60 all_goals try first
    | with_reducible first
      | assumption
      | exact Keeps.refl _
      | apply Keeps.trans ?_ (State.foldGroups_keeps ..)
      | apply Keeps.ite
      | apply Keeps.trans ?_ (Keeps.foldl (h := ?_) ..)
      | apply Keeps.trans ?_ (Keeps.foldlSnd (h := ?_) ..)
      | apply Keeps.trans ?_ (Keeps.foldlFst (h := ?_) ..)
    | refine fun _ => ?_
    | (lift_lets; intro xv; refine Keeps.via xv ?_ (fun hx => ?_); clear_value (hv : xv = _); subst hv; rotate_left; clear_value xv)
    | (lift_lets; intro xv; refine Keeps.viaTile xv ?_ (fun hx => ?_); clear_value (hv : xv = _); subst hv; rotate_left; clear_value xv)
    | (lift_lets; intro xv; refine Keeps.via2 xv ?_ (fun hx => ?_); clear_value (hv : xv = _); subst hv; rotate_left; clear_value xv)
    | (lift_lets; intro xv; refine Keeps.via1 xv ?_ (fun hx => ?_); clear_value (hv : xv = _); subst hv; rotate_left; clear_value xv)
    | (lift_lets; intro xv; refine Keeps.via22 xv ?_ (fun hx => ?_); clear_value (hv : xv = _); subst hv; rotate_left; clear_value xv)
    | (lift_lets; intro xv; refine Keeps.via222 xv ?_ (fun hx => ?_); clear_value (hv : xv = _); subst hv; rotate_left; clear_value xv)
    | (lift_lets; intro xv; clear_value xv)
    | split
    | (lift_lets; intro _)

theorem State.settleRefs_keeps (s : State) (p : Nat) : Keeps s (State.settleRefs s p) := by
  unfold State.settleRefs
  iterate 60 all_goals try first
    | with_reducible first
      | assumption
      | exact Keeps.refl _
      | apply Keeps.trans ?_ (State.foldGroups_keeps ..)
      | apply Keeps.ite
      | apply Keeps.trans ?_ (Keeps.foldl (h := ?_) ..)
      | apply Keeps.trans ?_ (Keeps.foldlSnd (h := ?_) ..)
      | apply Keeps.trans ?_ (Keeps.foldlFst (h := ?_) ..)
    | refine fun _ => ?_
    | (lift_lets; intro xv; refine Keeps.via xv ?_ (fun hx => ?_); clear_value (hv : xv = _); subst hv; rotate_left; clear_value xv)
    | (lift_lets; intro xv; refine Keeps.viaTile xv ?_ (fun hx => ?_); clear_value (hv : xv = _); subst hv; rotate_left; clear_value xv)
    | (lift_lets; intro xv; refine Keeps.via2 xv ?_ (fun hx => ?_); clear_value (hv : xv = _); subst hv; rotate_left; clear_value xv)
    | (lift_lets; intro xv; refine Keeps.via1 xv ?_ (fun hx => ?_); clear_value (hv : xv = _); subst hv; rotate_left; clear_value xv)
    | (lift_lets; intro xv; refine Keeps.via22 xv ?_ (fun hx => ?_); clear_value (hv : xv = _); subst hv; rotate_left; clear_value xv)
    | (lift_lets; intro xv; refine Keeps.via222 xv ?_ (fun hx => ?_); clear_value (hv : xv = _); subst hv; rotate_left; clear_value xv)
    | (lift_lets; intro xv; clear_value xv)
    | split
    | (lift_lets; intro _)

theorem State.settled_keeps (s : State) (t : Nat) : Keeps s (State.settled s t) := by
  unfold State.settled
  iterate 60 all_goals try first
    | with_reducible first
      | assumption
      | exact Keeps.refl _
      | apply Keeps.trans ?_ (State.modTile_keeps (hf := ?_) ..)
      | apply Keeps.trans ?_ (State.settleStats_keeps ..)
      | apply Keeps.trans ?_ (State.settleRefs_keeps ..)
      | apply Keeps.ite
      | apply Keeps.trans ?_ (Keeps.foldl (h := ?_) ..)
      | apply Keeps.trans ?_ (Keeps.foldlSnd (h := ?_) ..)
      | apply Keeps.trans ?_ (Keeps.foldlFst (h := ?_) ..)
    | exact ⟨(State.Canon.tile ‹_› _).1, (State.Canon.tile ‹_› _).2⟩
    | exact fun _ h => h
    | exact fun _ h => ⟨h.1, h.2⟩
    | exact fun _ h => ⟨h.1, h.2, h.3⟩
    | exact fun _ => ⟨id, rfl⟩
    | exact fun _ => Otp.Le.refl _
    | (intro x h; dsimp only; split <;> exact h)
    | exact fun _ h => Tile.settle_canon h
    | exact fun c => State.Canon.tile c _
    | (intro c; have e := ‹_ → Tile.Canon _› c; exact ⟨e.1, e.2⟩)
    | (intro x h; dsimp only; (repeat split) <;> first | exact h | exact ⟨h.1, h.2⟩ | exact Tile.settle_canon ⟨h.1, h.2⟩)
    | refine fun _ => ?_
    | (lift_lets; intro xv; refine Keeps.via xv ?_ (fun hx => ?_); clear_value (hv : xv = _); subst hv; rotate_left; clear_value xv)
    | (lift_lets; intro xv; refine Keeps.viaTile xv ?_ (fun hx => ?_); clear_value (hv : xv = _); subst hv; rotate_left; clear_value xv)
    | (lift_lets; intro xv; refine Keeps.via2 xv ?_ (fun hx => ?_); clear_value (hv : xv = _); subst hv; rotate_left; clear_value xv)
    | (lift_lets; intro xv; refine Keeps.via1 xv ?_ (fun hx => ?_); clear_value (hv : xv = _); subst hv; rotate_left; clear_value xv)
    | (lift_lets; intro xv; refine Keeps.via22 xv ?_ (fun hx => ?_); clear_value (hv : xv = _); subst hv; rotate_left; clear_value xv)
    | (lift_lets; intro xv; refine Keeps.via222 xv ?_ (fun hx => ?_); clear_value (hv : xv = _); subst hv; rotate_left; clear_value xv)
    | (lift_lets; intro xv; clear_value xv)
    | split
    | (lift_lets; intro _)

theorem State.haltTile_keeps (s : State) (t n code : Nat) (top : Top) : Keeps s (State.haltTile s t n code top) := by
  unfold State.haltTile
  iterate 60 all_goals try first
    | with_reducible first
      | assumption
      | exact Keeps.refl _
      | apply Keeps.trans ?_ (State.modTile_keeps (hf := ?_) ..)
      | apply Keeps.trans ?_ (State.settled_keeps ..)
      | apply Keeps.trans ?_ (State.modCluster_keeps (hf := ?_) ..)
      | apply Keeps.ite
      | apply Keeps.trans ?_ (Keeps.foldl (h := ?_) ..)
      | apply Keeps.trans ?_ (Keeps.foldlSnd (h := ?_) ..)
      | apply Keeps.trans ?_ (Keeps.foldlFst (h := ?_) ..)
    | (intro x h; have e1 := h.sram; have e2 := h.imem; have e3 := h.dmem; constructor <;> dsimp only <;> first | with_reducible assumption | (with_reducible apply NatMap.wf_setList; with_reducible assumption) | (with_reducible apply NatMap.wf_set; with_reducible assumption))
    | exact ⟨(State.Canon.tile ‹_› _).1, (State.Canon.tile ‹_› _).2⟩
    | exact fun _ h => h
    | exact fun _ h => ⟨h.1, h.2⟩
    | exact fun _ h => ⟨h.1, h.2, h.3⟩
    | exact fun _ => ⟨id, rfl⟩
    | exact fun _ => Otp.Le.refl _
    | (intro x h; dsimp only; split <;> exact h)
    | exact fun _ h => Tile.settle_canon h
    | exact fun c => State.Canon.tile c _
    | (intro c; have e := ‹_ → Tile.Canon _› c; exact ⟨e.1, e.2⟩)
    | (intro x h; dsimp only; (repeat split) <;> first | exact h | exact ⟨h.1, h.2⟩ | exact Tile.settle_canon ⟨h.1, h.2⟩)
    | refine fun _ => ?_
    | (lift_lets; intro xv; refine Keeps.via xv ?_ (fun hx => ?_); clear_value (hv : xv = _); subst hv; rotate_left; clear_value xv)
    | (lift_lets; intro xv; refine Keeps.viaTile xv ?_ (fun hx => ?_); clear_value (hv : xv = _); subst hv; rotate_left; clear_value xv)
    | (lift_lets; intro xv; refine Keeps.via2 xv ?_ (fun hx => ?_); clear_value (hv : xv = _); subst hv; rotate_left; clear_value xv)
    | (lift_lets; intro xv; refine Keeps.via1 xv ?_ (fun hx => ?_); clear_value (hv : xv = _); subst hv; rotate_left; clear_value xv)
    | (lift_lets; intro xv; refine Keeps.via22 xv ?_ (fun hx => ?_); clear_value (hv : xv = _); subst hv; rotate_left; clear_value xv)
    | (lift_lets; intro xv; refine Keeps.via222 xv ?_ (fun hx => ?_); clear_value (hv : xv = _); subst hv; rotate_left; clear_value xv)
    | (lift_lets; intro xv; clear_value xv)
    | split
    | (lift_lets; intro _)
    | (refine Keeps.trans ?_ (Keeps.upd rfl rfl rfl rfl rfl rfl rfl rfl rfl rfl ?cn); case cn => (rintro ⟨⟨_, _, _, _, _⟩, ⟨_, _, _, _, _, _, _, _, _, _, _, _, _, _, _, _⟩⟩; constructor <;> constructor <;> dsimp only <;> first | with_reducible assumption | (with_reducible apply NatMap.wf_set; with_reducible assumption) | (unfold NatMap.modify; with_reducible apply NatMap.wf_set; with_reducible assumption) | (with_reducible apply NatMap.wf_mapVals; with_reducible assumption) | (with_reducible apply NatMap.wf_filter; with_reducible assumption) | (with_reducible apply writeGran_wf; with_reducible assumption) | (refine foldl_keeps (P := fun m => NatMap.wf _ m = true) (fun _ _ h => ?_) _ ?_ <;> first | with_reducible assumption | exact writeGran_wf _ _ _ h | exact NatMap.wf_set _ _ h) | rfl))

theorem State.topFails_keeps (s : State) (t i code : Nat) : Keeps s (s.topFails t i code) := by
  unfold State.topFails
  extract_lets x p rest
  split
  · exact Keeps.refl _
  · extract_lets sr s1
    have h1 : Keeps s s1 := State.setTile_keeps s t _ fun c => ⟨(c.tile t).regs, (c.tile t).scratch⟩
    clear_value s1
    with_reducible apply Keeps.trans ?_ (State.raise_keeps ..)
    with_reducible apply Keeps.trans h1 (State.haltTile_keeps ..)


theorem State.stopWork_keeps (s : State) (p : Nat) (brake : Bool) : Keeps s (State.stopWork s p brake) := by
  unfold State.stopWork
  iterate 60 all_goals try first
    | with_reducible first
      | assumption
      | exact Keeps.refl _
      | apply Keeps.trans ?_ (State.modGov_keeps ..)
      | apply Keeps.trans ?_ (State.modCluster_keeps (hf := ?_) ..)
      | apply Keeps.trans ?_ (State.stopLeats_keeps ..)
      | apply Keeps.trans ?_ (State.modTile_keeps (hf := ?_) ..)
      | apply Keeps.trans ?_ (State.settleStats_keeps ..)
      | apply Keeps.trans ?_ (State.foldQuerns_keeps ..)
      | apply Keeps.trans ?_ (State.endHint_keeps ..)
      | apply Keeps.ite
      | apply Keeps.trans ?_ (Keeps.foldl (h := ?_) ..)
      | apply Keeps.trans ?_ (Keeps.foldlSnd (h := ?_) ..)
      | apply Keeps.trans ?_ (Keeps.foldlFst (h := ?_) ..)
    | (intro x h; have e1 := h.sram; have e2 := h.imem; have e3 := h.dmem; constructor <;> dsimp only <;> first | with_reducible assumption | (with_reducible apply NatMap.wf_setList; with_reducible assumption) | (with_reducible apply NatMap.wf_set; with_reducible assumption))
    | exact ⟨(State.Canon.tile ‹_› _).1, (State.Canon.tile ‹_› _).2⟩
    | exact fun _ h => h
    | exact fun _ h => ⟨h.1, h.2⟩
    | exact fun _ h => ⟨h.1, h.2, h.3⟩
    | exact fun _ => ⟨id, rfl⟩
    | exact fun _ => Otp.Le.refl _
    | (intro x h; dsimp only; split <;> exact h)
    | exact fun _ h => Tile.abandon_canon _ h
    | exact fun _ h => Tile.settle_canon h
    | exact fun c => State.Canon.tile c _
    | (intro c; have e := ‹_ → Tile.Canon _› c; exact ⟨e.1, e.2⟩)
    | (intro x h; dsimp only; (repeat split) <;> first | exact h | exact ⟨h.1, h.2⟩ | exact Tile.settle_canon ⟨h.1, h.2⟩)
    | refine fun _ => ?_
    | (lift_lets; intro xv; refine Keeps.via xv ?_ (fun hx => ?_); clear_value (hv : xv = _); subst hv; rotate_left; clear_value xv)
    | (lift_lets; intro xv; refine Keeps.viaTile xv ?_ (fun hx => ?_); clear_value (hv : xv = _); subst hv; rotate_left; clear_value xv)
    | (lift_lets; intro xv; refine Keeps.via2 xv ?_ (fun hx => ?_); clear_value (hv : xv = _); subst hv; rotate_left; clear_value xv)
    | (lift_lets; intro xv; refine Keeps.via1 xv ?_ (fun hx => ?_); clear_value (hv : xv = _); subst hv; rotate_left; clear_value xv)
    | (lift_lets; intro xv; refine Keeps.via22 xv ?_ (fun hx => ?_); clear_value (hv : xv = _); subst hv; rotate_left; clear_value xv)
    | (lift_lets; intro xv; refine Keeps.via222 xv ?_ (fun hx => ?_); clear_value (hv : xv = _); subst hv; rotate_left; clear_value xv)
    | (lift_lets; intro xv; clear_value xv)
    | split
    | (lift_lets; intro _)
    | (refine Keeps.trans ?_ (Keeps.upd rfl rfl rfl rfl rfl rfl rfl rfl rfl rfl ?cn); case cn => (rintro ⟨⟨_, _, _, _, _⟩, ⟨_, _, _, _, _, _, _, _, _, _, _, _, _, _, _, _⟩⟩; constructor <;> constructor <;> dsimp only <;> first | with_reducible assumption | (with_reducible apply NatMap.wf_set; with_reducible assumption) | (unfold NatMap.modify; with_reducible apply NatMap.wf_set; with_reducible assumption) | (with_reducible apply NatMap.wf_mapVals; with_reducible assumption) | (with_reducible apply NatMap.wf_filter; with_reducible assumption) | (with_reducible apply writeGran_wf; with_reducible assumption) | (refine foldl_keeps (P := fun m => NatMap.wf _ m = true) (fun _ _ h => ?_) _ ?_ <;> first | with_reducible assumption | exact writeGran_wf _ _ _ h | exact NatMap.wf_set _ _ h) | rfl))

theorem State.returnCredit_keeps (s : State) (n : Nat) : Keeps s (State.returnCredit s n) := by
  unfold State.returnCredit
  iterate 60 all_goals try first
    | with_reducible first
      | assumption
      | exact Keeps.refl _
      | apply Keeps.trans ?_ (State.modSec_keeps (hf := ?_) ..)
      | apply Keeps.trans ?_ (State.sendOn_keeps ..)
      | apply Keeps.ite
      | apply Keeps.trans ?_ (Keeps.foldl (h := ?_) ..)
      | apply Keeps.trans ?_ (Keeps.foldlSnd (h := ?_) ..)
      | apply Keeps.trans ?_ (Keeps.foldlFst (h := ?_) ..)
    | exact ⟨(State.Canon.tile ‹_› _).1, (State.Canon.tile ‹_› _).2⟩
    | exact fun _ h => h
    | exact fun _ h => ⟨h.1, h.2⟩
    | exact fun _ h => ⟨h.1, h.2, h.3⟩
    | exact fun _ => ⟨id, rfl⟩
    | exact fun _ => Otp.Le.refl _
    | (intro x h; dsimp only; split <;> exact h)
    | refine fun _ => ?_
    | (lift_lets; intro xv; refine Keeps.via xv ?_ (fun hx => ?_); clear_value (hv : xv = _); subst hv; rotate_left; clear_value xv)
    | (lift_lets; intro xv; refine Keeps.viaTile xv ?_ (fun hx => ?_); clear_value (hv : xv = _); subst hv; rotate_left; clear_value xv)
    | (lift_lets; intro xv; refine Keeps.via2 xv ?_ (fun hx => ?_); clear_value (hv : xv = _); subst hv; rotate_left; clear_value xv)
    | (lift_lets; intro xv; refine Keeps.via1 xv ?_ (fun hx => ?_); clear_value (hv : xv = _); subst hv; rotate_left; clear_value xv)
    | (lift_lets; intro xv; refine Keeps.via22 xv ?_ (fun hx => ?_); clear_value (hv : xv = _); subst hv; rotate_left; clear_value xv)
    | (lift_lets; intro xv; refine Keeps.via222 xv ?_ (fun hx => ?_); clear_value (hv : xv = _); subst hv; rotate_left; clear_value xv)
    | (lift_lets; intro xv; clear_value xv)
    | split
    | (lift_lets; intro _)
    | (refine Keeps.trans ?_ (Keeps.upd rfl rfl rfl rfl rfl rfl rfl rfl rfl rfl ?cn); case cn => (rintro ⟨⟨_, _, _, _, _⟩, ⟨_, _, _, _, _, _, _, _, _, _, _, _, _, _, _, _⟩⟩; constructor <;> constructor <;> dsimp only <;> first | with_reducible assumption | (with_reducible apply NatMap.wf_set; with_reducible assumption) | (unfold NatMap.modify; with_reducible apply NatMap.wf_set; with_reducible assumption) | (with_reducible apply NatMap.wf_mapVals; with_reducible assumption) | (with_reducible apply NatMap.wf_filter; with_reducible assumption) | (with_reducible apply writeGran_wf; with_reducible assumption) | (refine foldl_keeps (P := fun m => NatMap.wf _ m = true) (fun _ _ h => ?_) _ ?_ <;> first | with_reducible assumption | exact writeGran_wf _ _ _ h | exact NatMap.wf_set _ _ h) | rfl))

theorem State.oweCredit_keeps (s : State) (n : Nat) : Keeps s (State.oweCredit s n) := by
  unfold State.oweCredit
  iterate 60 all_goals try first
    | with_reducible first
      | assumption
      | exact Keeps.refl _
      | apply Keeps.trans ?_ (State.modSec_keeps (hf := ?_) ..)
      | apply Keeps.trans ?_ (State.returnCredit_keeps ..)
      | apply Keeps.ite
      | apply Keeps.trans ?_ (Keeps.foldl (h := ?_) ..)
      | apply Keeps.trans ?_ (Keeps.foldlSnd (h := ?_) ..)
      | apply Keeps.trans ?_ (Keeps.foldlFst (h := ?_) ..)
    | exact ⟨(State.Canon.tile ‹_› _).1, (State.Canon.tile ‹_› _).2⟩
    | exact fun _ h => h
    | exact fun _ h => ⟨h.1, h.2⟩
    | exact fun _ h => ⟨h.1, h.2, h.3⟩
    | exact fun _ => ⟨id, rfl⟩
    | exact fun _ => Otp.Le.refl _
    | (intro x h; dsimp only; split <;> exact h)
    | refine fun _ => ?_
    | (lift_lets; intro xv; refine Keeps.via xv ?_ (fun hx => ?_); clear_value (hv : xv = _); subst hv; rotate_left; clear_value xv)
    | (lift_lets; intro xv; refine Keeps.viaTile xv ?_ (fun hx => ?_); clear_value (hv : xv = _); subst hv; rotate_left; clear_value xv)
    | (lift_lets; intro xv; refine Keeps.via2 xv ?_ (fun hx => ?_); clear_value (hv : xv = _); subst hv; rotate_left; clear_value xv)
    | (lift_lets; intro xv; refine Keeps.via1 xv ?_ (fun hx => ?_); clear_value (hv : xv = _); subst hv; rotate_left; clear_value xv)
    | (lift_lets; intro xv; refine Keeps.via22 xv ?_ (fun hx => ?_); clear_value (hv : xv = _); subst hv; rotate_left; clear_value xv)
    | (lift_lets; intro xv; refine Keeps.via222 xv ?_ (fun hx => ?_); clear_value (hv : xv = _); subst hv; rotate_left; clear_value xv)
    | (lift_lets; intro xv; clear_value xv)
    | split
    | (lift_lets; intro _)
    | (refine Keeps.trans ?_ (Keeps.upd rfl rfl rfl rfl rfl rfl rfl rfl rfl rfl ?cn); case cn => (rintro ⟨⟨_, _, _, _, _⟩, ⟨_, _, _, _, _, _, _, _, _, _, _, _, _, _, _, _⟩⟩; constructor <;> constructor <;> dsimp only <;> first | with_reducible assumption | (with_reducible apply NatMap.wf_set; with_reducible assumption) | (unfold NatMap.modify; with_reducible apply NatMap.wf_set; with_reducible assumption) | (with_reducible apply NatMap.wf_mapVals; with_reducible assumption) | (with_reducible apply NatMap.wf_filter; with_reducible assumption) | (with_reducible apply writeGran_wf; with_reducible assumption) | (refine foldl_keeps (P := fun m => NatMap.wf _ m = true) (fun _ _ h => ?_) _ ?_ <;> first | with_reducible assumption | exact writeGran_wf _ _ _ h | exact NatMap.wf_set _ _ h) | rfl))

theorem State.dropEarly_keeps (s : State) (l : List (Nat × List Byte)) : Keeps s (State.dropEarly s l) := by
  unfold State.dropEarly
  iterate 60 all_goals try first
    | with_reducible first
      | assumption
      | exact Keeps.refl _
      | apply Keeps.trans ?_ (State.oweCredit_keeps ..)
      | apply Keeps.ite
      | apply Keeps.trans ?_ (Keeps.foldl (h := ?_) ..)
      | apply Keeps.trans ?_ (Keeps.foldlSnd (h := ?_) ..)
      | apply Keeps.trans ?_ (Keeps.foldlFst (h := ?_) ..)
    | refine fun _ => ?_
    | (lift_lets; intro xv; refine Keeps.via xv ?_ (fun hx => ?_); clear_value (hv : xv = _); subst hv; rotate_left; clear_value xv)
    | (lift_lets; intro xv; refine Keeps.viaTile xv ?_ (fun hx => ?_); clear_value (hv : xv = _); subst hv; rotate_left; clear_value xv)
    | (lift_lets; intro xv; refine Keeps.via2 xv ?_ (fun hx => ?_); clear_value (hv : xv = _); subst hv; rotate_left; clear_value xv)
    | (lift_lets; intro xv; refine Keeps.via1 xv ?_ (fun hx => ?_); clear_value (hv : xv = _); subst hv; rotate_left; clear_value xv)
    | (lift_lets; intro xv; refine Keeps.via22 xv ?_ (fun hx => ?_); clear_value (hv : xv = _); subst hv; rotate_left; clear_value xv)
    | (lift_lets; intro xv; refine Keeps.via222 xv ?_ (fun hx => ?_); clear_value (hv : xv = _); subst hv; rotate_left; clear_value xv)
    | (lift_lets; intro xv; clear_value xv)
    | split
    | (lift_lets; intro _)

theorem State.dropColls_keeps (s : State) (p : Nat) : Keeps s (State.dropColls s p) := by
  unfold State.dropColls
  iterate 60 all_goals try first
    | with_reducible first
      | assumption
      | exact Keeps.refl _
      | apply Keeps.trans ?_ (State.modWeir_keeps ..)
      | apply Keeps.trans ?_ (State.modSec_keeps (hf := ?_) ..)
      | apply Keeps.trans ?_ (State.dropEarly_keeps ..)
      | apply Keeps.ite
      | apply Keeps.trans ?_ (Keeps.foldl (h := ?_) ..)
      | apply Keeps.trans ?_ (Keeps.foldlSnd (h := ?_) ..)
      | apply Keeps.trans ?_ (Keeps.foldlFst (h := ?_) ..)
    | exact ⟨(State.Canon.tile ‹_› _).1, (State.Canon.tile ‹_› _).2⟩
    | exact fun _ h => h
    | exact fun _ h => ⟨h.1, h.2⟩
    | exact fun _ h => ⟨h.1, h.2, h.3⟩
    | exact fun _ => ⟨id, rfl⟩
    | exact fun _ => Otp.Le.refl _
    | (intro x h; dsimp only; split <;> exact h)
    | refine fun _ => ?_
    | (lift_lets; intro xv; refine Keeps.via xv ?_ (fun hx => ?_); clear_value (hv : xv = _); subst hv; rotate_left; clear_value xv)
    | (lift_lets; intro xv; refine Keeps.viaTile xv ?_ (fun hx => ?_); clear_value (hv : xv = _); subst hv; rotate_left; clear_value xv)
    | (lift_lets; intro xv; refine Keeps.via2 xv ?_ (fun hx => ?_); clear_value (hv : xv = _); subst hv; rotate_left; clear_value xv)
    | (lift_lets; intro xv; refine Keeps.via1 xv ?_ (fun hx => ?_); clear_value (hv : xv = _); subst hv; rotate_left; clear_value xv)
    | (lift_lets; intro xv; refine Keeps.via22 xv ?_ (fun hx => ?_); clear_value (hv : xv = _); subst hv; rotate_left; clear_value xv)
    | (lift_lets; intro xv; refine Keeps.via222 xv ?_ (fun hx => ?_); clear_value (hv : xv = _); subst hv; rotate_left; clear_value xv)
    | (lift_lets; intro xv; clear_value xv)
    | split
    | (lift_lets; intro _)
    | (refine Keeps.trans ?_ (Keeps.upd rfl rfl rfl rfl rfl rfl rfl rfl rfl rfl ?cn); case cn => (rintro ⟨⟨_, _, _, _, _⟩, ⟨_, _, _, _, _, _, _, _, _, _, _, _, _, _, _, _⟩⟩; constructor <;> constructor <;> dsimp only <;> first | with_reducible assumption | (with_reducible apply NatMap.wf_set; with_reducible assumption) | (unfold NatMap.modify; with_reducible apply NatMap.wf_set; with_reducible assumption) | (with_reducible apply NatMap.wf_mapVals; with_reducible assumption) | (with_reducible apply NatMap.wf_filter; with_reducible assumption) | (with_reducible apply writeGran_wf; with_reducible assumption) | (refine foldl_keeps (P := fun m => NatMap.wf _ m = true) (fun _ _ h => ?_) _ ?_ <;> first | with_reducible assumption | exact writeGran_wf _ _ _ h | exact NatMap.wf_set _ _ h) | rfl))

theorem State.abandonWork_keeps (s : State) (p : Nat) (brake : Bool) : Keeps s (State.abandonWork s p brake) := by
  unfold State.abandonWork
  iterate 60 all_goals try first
    | with_reducible first
      | assumption
      | exact Keeps.refl _
      | apply Keeps.trans ?_ (State.modGov_keeps ..)
      | apply Keeps.trans ?_ (State.stopWork_keeps ..)
      | apply Keeps.trans ?_ (State.foldQuerns_keeps ..)
      | apply Keeps.trans ?_ (State.foldGroups_keeps ..)
      | apply Keeps.trans ?_ (State.dropColls_keeps ..)
      | apply Keeps.trans ?_ (State.modWeir_keeps ..)
      | apply Keeps.trans ?_ (State.settleRefs_keeps ..)
      | apply Keeps.ite
      | apply Keeps.trans ?_ (Keeps.foldl (h := ?_) ..)
      | apply Keeps.trans ?_ (Keeps.foldlSnd (h := ?_) ..)
      | apply Keeps.trans ?_ (Keeps.foldlFst (h := ?_) ..)
    | refine fun _ => ?_
    | (lift_lets; intro xv; refine Keeps.via xv ?_ (fun hx => ?_); clear_value (hv : xv = _); subst hv; rotate_left; clear_value xv)
    | (lift_lets; intro xv; refine Keeps.viaTile xv ?_ (fun hx => ?_); clear_value (hv : xv = _); subst hv; rotate_left; clear_value xv)
    | (lift_lets; intro xv; refine Keeps.via2 xv ?_ (fun hx => ?_); clear_value (hv : xv = _); subst hv; rotate_left; clear_value xv)
    | (lift_lets; intro xv; refine Keeps.via1 xv ?_ (fun hx => ?_); clear_value (hv : xv = _); subst hv; rotate_left; clear_value xv)
    | (lift_lets; intro xv; refine Keeps.via22 xv ?_ (fun hx => ?_); clear_value (hv : xv = _); subst hv; rotate_left; clear_value xv)
    | (lift_lets; intro xv; refine Keeps.via222 xv ?_ (fun hx => ?_); clear_value (hv : xv = _); subst hv; rotate_left; clear_value xv)
    | (lift_lets; intro xv; clear_value xv)
    | split
    | (lift_lets; intro _)
    | (refine Keeps.trans ?_ (Keeps.upd rfl rfl rfl rfl rfl rfl rfl rfl rfl rfl ?cn); case cn => (rintro ⟨⟨_, _, _, _, _⟩, ⟨_, _, _, _, _, _, _, _, _, _, _, _, _, _, _, _⟩⟩; constructor <;> constructor <;> dsimp only <;> first | with_reducible assumption | (with_reducible apply NatMap.wf_set; with_reducible assumption) | (unfold NatMap.modify; with_reducible apply NatMap.wf_set; with_reducible assumption) | (with_reducible apply NatMap.wf_mapVals; with_reducible assumption) | (with_reducible apply NatMap.wf_filter; with_reducible assumption) | (with_reducible apply writeGran_wf; with_reducible assumption) | (refine foldl_keeps (P := fun m => NatMap.wf _ m = true) (fun _ _ h => ?_) _ ?_ <;> first | with_reducible assumption | exact writeGran_wf _ _ _ h | exact NatMap.wf_set _ _ h) | rfl))

theorem State.brakeWork_keeps (s : State) (p : Nat) : Keeps s (State.brakeWork s p) := by
  unfold State.brakeWork
  iterate 60 all_goals try first
    | with_reducible first
      | assumption
      | exact Keeps.refl _
      | apply Keeps.trans ?_ (State.modGov_keeps ..)
      | apply Keeps.trans ?_ (State.abandonWork_keeps ..)
      | apply Keeps.trans ?_ (State.stopWork_keeps ..)
      | apply Keeps.ite
      | apply Keeps.trans ?_ (Keeps.foldl (h := ?_) ..)
      | apply Keeps.trans ?_ (Keeps.foldlSnd (h := ?_) ..)
      | apply Keeps.trans ?_ (Keeps.foldlFst (h := ?_) ..)
    | refine fun _ => ?_
    | (lift_lets; intro xv; refine Keeps.via xv ?_ (fun hx => ?_); clear_value (hv : xv = _); subst hv; rotate_left; clear_value xv)
    | (lift_lets; intro xv; refine Keeps.viaTile xv ?_ (fun hx => ?_); clear_value (hv : xv = _); subst hv; rotate_left; clear_value xv)
    | (lift_lets; intro xv; refine Keeps.via2 xv ?_ (fun hx => ?_); clear_value (hv : xv = _); subst hv; rotate_left; clear_value xv)
    | (lift_lets; intro xv; refine Keeps.via1 xv ?_ (fun hx => ?_); clear_value (hv : xv = _); subst hv; rotate_left; clear_value xv)
    | (lift_lets; intro xv; refine Keeps.via22 xv ?_ (fun hx => ?_); clear_value (hv : xv = _); subst hv; rotate_left; clear_value xv)
    | (lift_lets; intro xv; refine Keeps.via222 xv ?_ (fun hx => ?_); clear_value (hv : xv = _); subst hv; rotate_left; clear_value xv)
    | (lift_lets; intro xv; clear_value xv)
    | split
    | (lift_lets; intro _)
    | (refine Keeps.trans ?_ (Keeps.upd rfl rfl rfl rfl rfl rfl rfl rfl rfl rfl ?cn); case cn => (rintro ⟨⟨_, _, _, _, _⟩, ⟨_, _, _, _, _, _, _, _, _, _, _, _, _, _, _, _⟩⟩; constructor <;> constructor <;> dsimp only <;> first | with_reducible assumption | (with_reducible apply NatMap.wf_set; with_reducible assumption) | (unfold NatMap.modify; with_reducible apply NatMap.wf_set; with_reducible assumption) | (with_reducible apply NatMap.wf_mapVals; with_reducible assumption) | (with_reducible apply NatMap.wf_filter; with_reducible assumption) | (with_reducible apply writeGran_wf; with_reducible assumption) | (refine foldl_keeps (P := fun m => NatMap.wf _ m = true) (fun _ _ h => ?_) _ ?_ <;> first | with_reducible assumption | exact writeGran_wf _ _ _ h | exact NatMap.wf_set _ _ h) | rfl))

end Sys2Proof.Machine
end

