-- ==== Sys2Proof/Laws/Keeps/Links.lean ====
section
/-! SUPPORT. What every operation of `Machine/Links.lean` keeps (`Keeps`). -/
set_option linter.unusedTactic false
set_option linter.unreachableTactic false
namespace Sys2Proof.Machine
open Sys2Proof

theorem State.linksStart_keeps (s : State) : Keeps s (State.linksStart s) :=
  ⟨rfl, rfl, Otp.Le.refl _, fun b h => by cases b <;> exact h, fun c => ⟨{ c.mem with }, { c.tab with }⟩⟩


end Sys2Proof.Machine
end

