-- ==== Sys2Proof/Laws/Keeps/RegAccess.lean ====
section
/-! SUPPORT. What reading and writing a register keeps (`Keeps`): the reset that a register write may ask for comes only after
the access. -/
set_option linter.unusedTactic false
set_option linter.unreachableTactic false
namespace Sys2Proof.Machine
open Sys2Proof

/-- What an access to a register answers, if it finds one, keeps what `Keeps` says. -/
structure RegKeeps {α : Type} (s : State) (r : Option (α × State)) : Prop where
  keeps : ∀ x, r = some x → Keeps s x.2

theorem RegKeeps.none {α : Type} (s : State) : RegKeeps s (Option.none (α := α × State)) := ⟨fun _ h => nomatch h⟩

theorem RegKeeps.some {α : Type} {s t : State} {v : α} (h : Keeps s t) : RegKeeps s (Option.some (v, t)) :=
  ⟨fun x hx => by
    cases hx
    exact h⟩

theorem State.ro_keeps (s : State) (v : Nat) : RegKeeps s (s.ro v) := .some (Keeps.refl s)

theorem State.done_keeps {s t : State} (h : Keeps s t) : RegKeeps s t.done := .some h

theorem State.keep_keeps (s : State) : RegKeeps s s.keep := .some (Keeps.refl s)

theorem State.pv_keeps (s : State) (rq : Req) (f : Nat → Nat) : RegKeeps s (s.pv rq f) := State.ro_keeps ..

theorem State.pvRc_keeps (s : State) (rq : Req) (f : Nat → Nat × State) (h : ∀ p, Keeps s (f p).2) : RegKeeps s (s.pvRc rq f) := by
  unfold State.pvRc
  split
  · exact .some (h _)
  · exact s.ro_keeps 0

theorem State.pdv_keeps (s : State) (rq : Req) (f : Nat → Nat → Nat) : RegKeeps s (s.pdv rq f) := State.pv_keeps ..

theorem State.pdvRc_keeps (s : State) (rq : Req) (f : Nat → Nat → Nat × State) (h : ∀ p d, Keeps s (f p d).2) :
    RegKeeps s (s.pdvRc rq f) := by
  refine State.pvRc_keeps _ _ _ fun p => ?_
  split
  · exact h ..
  · exact Keeps.refl s

theorem State.dv_keeps (s : State) (rq : Req) (f : Nat → Nat) : RegKeeps s (s.dv rq f) := State.ro_keeps ..
theorem State.portv_keeps (s : State) (rq : Req) (f : Nat → Nat) : RegKeeps s (s.portv rq f) := State.ro_keeps ..

theorem State.weirRc_keeps (s : State) (rq : Req) (get : Weir → Counter) (set : Weir → Counter → Weir) :
    RegKeeps s (s.weirRc rq get set) := State.pvRc_keeps _ _ _ fun p => by
    dsimp only
    exact State.modWeir_keeps ..

theorem State.syncRc_keeps (s : State) (rq : Req) (i : Nat) (get : Weir → Counter) (set : Weir → Counter → Weir) :
    RegKeeps s (s.syncRc rq i get set) := by
  unfold State.syncRc
  split
  · split
    · exact State.weirRc_keeps ..
    · exact State.ro_keeps ..
  · exact State.ro_keeps ..

theorem State.bolterRc_keeps (s : State) (i o : MemRegs → Counter) (set : MemRegs → Counter → Counter → MemRegs)
    (h : ∀ m a b, (set m a b).lock = m.lock) : RegKeeps s (s.bolterRc i o set) :=
  .some (State.modMem_keeps _ _ fun _ hx => (h ..).trans hx)

theorem State.ran_keeps (s : State) (f : State → Answer) (h : ∃ t, f s = .next t ∧ Keeps s t) : RegKeeps s (s.ran f) := by
  obtain ⟨t, ht, k⟩ := h
  unfold State.ran
  rw [ht]
  exact .some k

theorem State.wl_keeps (s : State) (lock : Bool) (f : State → State) (h : Keeps s (f s)) : RegKeeps s (s.wl lock f) := by
  unfold State.wl
  split
  · exact .some (Keeps.refl s)
  · exact .some h

theorem State.select_keeps (s : State) (rq : Req) (f : Selects → Selects) : RegKeeps s (s.select rq f) := .some (State.setSel_keeps ..)

theorem State.portWl_keeps (s : State) (rq : Req) (f : Port → Port) : RegKeeps s (s.portWl rq f) :=
  State.wl_keeps _ _ _ (State.onSelPort_keeps _ _ _ fun _ _ => State.modPort_keeps ..)

theorem State.qpSet_keeps (s : State) (rq : Req) (f : Qp → Qp) : RegKeeps s (s.qpSet rq f) := .some (State.modQp_keeps ..)

theorem State.writeLock_keeps (s : State) (b : LockBlock) (v : Word64) : RegKeeps s (s.writeLock b v) := by
  refine .some ?_
  split
  · exact State.setLock_keeps ..
  · exact Keeps.refl s

theorem State.readGlb_keeps (s : State) (rq : Req) (off : Nat) : RegKeeps s (s.readGlb rq off) := by
  unfold State.readGlb
  try dsimp only
  split
  all_goals
    first
    | with_reducible exact State.ro_keeps ..
    | with_reducible exact State.pv_keeps ..
    | with_reducible exact State.pdv_keeps ..
    | with_reducible exact State.dv_keeps ..
    | with_reducible exact State.portv_keeps ..
    | with_reducible exact State.weirRc_keeps ..
    | exact State.bolterRc_keeps _ _ _ _ fun _ _ _ => rfl
    | with_reducible exact RegKeeps.none _
    | (with_reducible refine State.pdvRc_keeps _ _ _ fun _ _ => ?_; dsimp only; exact State.modQuern_keeps ..)
    | (with_reducible refine State.pvRc_keeps _ _ _ fun _ => ?_; dsimp only; first | exact Keeps.upd rfl rfl rfl rfl rfl rfl rfl rfl rfl rfl (fun c => ⟨⟨c.mem.granary, c.mem.hbm, c.mem.pond, c.mem.tiles, c.mem.clusters⟩, ⟨c.tab.parts, c.tab.stageObj, c.tab.stageLen, c.tab.weirs, c.tab.querns, c.tab.resolves, NatMap.wf_set _ _ c.tab.tollFails, c.tab.testNext, c.tab.testResults, c.tab.tiles, c.tab.clusters, c.tab.leats, c.tab.ctxs, c.tab.qps, c.tab.ports, c.tab.selects⟩⟩) | exact State.modGov_keeps .. | exact State.modCluster_keeps .. | exact (Keeps.upd rfl rfl rfl rfl rfl rfl rfl rfl rfl rfl (fun c => ⟨⟨c.mem.granary, c.mem.hbm, c.mem.pond, c.mem.tiles, c.mem.clusters⟩, ⟨c.tab.parts, c.tab.stageObj, c.tab.stageLen, c.tab.weirs, c.tab.querns, c.tab.resolves, c.tab.tollFails, c.tab.testNext, c.tab.testResults, c.tab.tiles, c.tab.clusters, c.tab.leats, c.tab.ctxs, c.tab.qps, c.tab.ports, c.tab.selects⟩⟩)) | skip)
    | (refine RegKeeps.some ?_; first | exact State.setTile_keeps _ _ _ (fun c => ⟨(State.Canon.tile c _).1, (State.Canon.tile c _).2⟩) | exact State.modEth_keeps _ _ (fun _ h => h) | exact State.bcChallenge_keeps .. | exact (Keeps.upd rfl rfl rfl rfl rfl rfl rfl rfl rfl rfl (fun c => ⟨⟨c.mem.granary, c.mem.hbm, c.mem.pond, c.mem.tiles, c.mem.clusters⟩, ⟨c.tab.parts, c.tab.stageObj, c.tab.stageLen, c.tab.weirs, c.tab.querns, c.tab.resolves, c.tab.tollFails, c.tab.testNext, c.tab.testResults, c.tab.tiles, c.tab.clusters, c.tab.leats, c.tab.ctxs, c.tab.qps, c.tab.ports, c.tab.selects⟩⟩)) | skip)
    | (split; exact State.ro_keeps ..; exact RegKeeps.none _)
    | (split; exact State.ro_keeps ..; exact State.ro_keeps ..)
    | (split; exact State.ro_keeps ..; refine RegKeeps.some ?_; first | exact State.modPort_keeps .. | exact State.modPwr_keeps _ (fun x => x.setDomain _ _) (fun _ h => h))
    | skip

theorem State.readGov_keeps (s : State) (rq : Req) (off : Nat) : RegKeeps s (s.readGov rq off) := by
  unfold State.readGov
  try dsimp only
  split
  all_goals
    first
    | with_reducible exact State.ro_keeps ..
    | with_reducible exact State.pv_keeps ..
    | with_reducible exact State.pdv_keeps ..
    | with_reducible exact State.dv_keeps ..
    | with_reducible exact State.portv_keeps ..
    | with_reducible exact State.weirRc_keeps ..
    | exact State.bolterRc_keeps _ _ _ _ fun _ _ _ => rfl
    | with_reducible exact RegKeeps.none _
    | (with_reducible refine State.pdvRc_keeps _ _ _ fun _ _ => ?_; dsimp only; exact State.modQuern_keeps ..)
    | (with_reducible refine State.pvRc_keeps _ _ _ fun _ => ?_; dsimp only; first | exact Keeps.upd rfl rfl rfl rfl rfl rfl rfl rfl rfl rfl (fun c => ⟨⟨c.mem.granary, c.mem.hbm, c.mem.pond, c.mem.tiles, c.mem.clusters⟩, ⟨c.tab.parts, c.tab.stageObj, c.tab.stageLen, c.tab.weirs, c.tab.querns, c.tab.resolves, NatMap.wf_set _ _ c.tab.tollFails, c.tab.testNext, c.tab.testResults, c.tab.tiles, c.tab.clusters, c.tab.leats, c.tab.ctxs, c.tab.qps, c.tab.ports, c.tab.selects⟩⟩) | exact State.modGov_keeps .. | exact State.modCluster_keeps .. | exact (Keeps.upd rfl rfl rfl rfl rfl rfl rfl rfl rfl rfl (fun c => ⟨⟨c.mem.granary, c.mem.hbm, c.mem.pond, c.mem.tiles, c.mem.clusters⟩, ⟨c.tab.parts, c.tab.stageObj, c.tab.stageLen, c.tab.weirs, c.tab.querns, c.tab.resolves, c.tab.tollFails, c.tab.testNext, c.tab.testResults, c.tab.tiles, c.tab.clusters, c.tab.leats, c.tab.ctxs, c.tab.qps, c.tab.ports, c.tab.selects⟩⟩)) | skip)
    | (refine RegKeeps.some ?_; first | exact State.setTile_keeps _ _ _ (fun c => ⟨(State.Canon.tile c _).1, (State.Canon.tile c _).2⟩) | exact State.modEth_keeps _ _ (fun _ h => h) | exact State.bcChallenge_keeps .. | exact (Keeps.upd rfl rfl rfl rfl rfl rfl rfl rfl rfl rfl (fun c => ⟨⟨c.mem.granary, c.mem.hbm, c.mem.pond, c.mem.tiles, c.mem.clusters⟩, ⟨c.tab.parts, c.tab.stageObj, c.tab.stageLen, c.tab.weirs, c.tab.querns, c.tab.resolves, c.tab.tollFails, c.tab.testNext, c.tab.testResults, c.tab.tiles, c.tab.clusters, c.tab.leats, c.tab.ctxs, c.tab.qps, c.tab.ports, c.tab.selects⟩⟩)) | skip)
    | (split; exact State.ro_keeps ..; exact RegKeeps.none _)
    | (split; exact State.ro_keeps ..; exact State.ro_keeps ..)
    | (split; exact State.ro_keeps ..; refine RegKeeps.some ?_; first | exact State.modPort_keeps .. | exact State.modPwr_keeps _ (fun x => x.setDomain _ _) (fun _ h => h))
    | skip

theorem State.readWeir_keeps (s : State) (rq : Req) (off : Nat) : RegKeeps s (s.readWeir rq off) := by
  unfold State.readWeir
  try dsimp only
  split
  all_goals
    first
    | with_reducible exact State.ro_keeps ..
    | with_reducible exact State.pv_keeps ..
    | with_reducible exact State.pdv_keeps ..
    | with_reducible exact State.dv_keeps ..
    | with_reducible exact State.portv_keeps ..
    | with_reducible exact State.weirRc_keeps ..
    | exact State.bolterRc_keeps _ _ _ _ fun _ _ _ => rfl
    | with_reducible exact RegKeeps.none _
    | (with_reducible refine State.pdvRc_keeps _ _ _ fun _ _ => ?_; dsimp only; exact State.modQuern_keeps ..)
    | (with_reducible refine State.pvRc_keeps _ _ _ fun _ => ?_; dsimp only; first | exact Keeps.upd rfl rfl rfl rfl rfl rfl rfl rfl rfl rfl (fun c => ⟨⟨c.mem.granary, c.mem.hbm, c.mem.pond, c.mem.tiles, c.mem.clusters⟩, ⟨c.tab.parts, c.tab.stageObj, c.tab.stageLen, c.tab.weirs, c.tab.querns, c.tab.resolves, NatMap.wf_set _ _ c.tab.tollFails, c.tab.testNext, c.tab.testResults, c.tab.tiles, c.tab.clusters, c.tab.leats, c.tab.ctxs, c.tab.qps, c.tab.ports, c.tab.selects⟩⟩) | exact State.modGov_keeps .. | exact State.modCluster_keeps .. | exact (Keeps.upd rfl rfl rfl rfl rfl rfl rfl rfl rfl rfl (fun c => ⟨⟨c.mem.granary, c.mem.hbm, c.mem.pond, c.mem.tiles, c.mem.clusters⟩, ⟨c.tab.parts, c.tab.stageObj, c.tab.stageLen, c.tab.weirs, c.tab.querns, c.tab.resolves, c.tab.tollFails, c.tab.testNext, c.tab.testResults, c.tab.tiles, c.tab.clusters, c.tab.leats, c.tab.ctxs, c.tab.qps, c.tab.ports, c.tab.selects⟩⟩)) | skip)
    | (refine RegKeeps.some ?_; first | exact State.setTile_keeps _ _ _ (fun c => ⟨(State.Canon.tile c _).1, (State.Canon.tile c _).2⟩) | exact State.modEth_keeps _ _ (fun _ h => h) | exact State.bcChallenge_keeps .. | exact (Keeps.upd rfl rfl rfl rfl rfl rfl rfl rfl rfl rfl (fun c => ⟨⟨c.mem.granary, c.mem.hbm, c.mem.pond, c.mem.tiles, c.mem.clusters⟩, ⟨c.tab.parts, c.tab.stageObj, c.tab.stageLen, c.tab.weirs, c.tab.querns, c.tab.resolves, c.tab.tollFails, c.tab.testNext, c.tab.testResults, c.tab.tiles, c.tab.clusters, c.tab.leats, c.tab.ctxs, c.tab.qps, c.tab.ports, c.tab.selects⟩⟩)) | skip)
    | (split; exact State.ro_keeps ..; exact RegKeeps.none _)
    | (split; exact State.ro_keeps ..; exact State.ro_keeps ..)
    | (split; exact State.ro_keeps ..; refine RegKeeps.some ?_; first | exact State.modPort_keeps .. | exact State.modPwr_keeps _ (fun x => x.setDomain _ _) (fun _ h => h))
    | skip

theorem State.readSync_keeps (s : State) (rq : Req) (off : Nat) : RegKeeps s (s.readSync rq off) := by
  unfold State.readSync
  dsimp only
  split
  all_goals
    first
    | with_reducible exact State.pv_keeps ..
    | exact State.syncRc_keeps ..
    | exact RegKeeps.none _

theorem State.readCtx_keeps (s : State) (rq : Req) (off : Nat) : RegKeeps s (s.readCtx rq off) := by
  unfold State.readCtx
  try dsimp only
  split
  all_goals
    first
    | with_reducible exact State.ro_keeps ..
    | with_reducible exact State.pv_keeps ..
    | with_reducible exact State.pdv_keeps ..
    | with_reducible exact State.dv_keeps ..
    | with_reducible exact State.portv_keeps ..
    | with_reducible exact State.weirRc_keeps ..
    | exact State.bolterRc_keeps _ _ _ _ fun _ _ _ => rfl
    | with_reducible exact RegKeeps.none _
    | (with_reducible refine State.pdvRc_keeps _ _ _ fun _ _ => ?_; dsimp only; exact State.modQuern_keeps ..)
    | (with_reducible refine State.pvRc_keeps _ _ _ fun _ => ?_; dsimp only; first | exact Keeps.upd rfl rfl rfl rfl rfl rfl rfl rfl rfl rfl (fun c => ⟨⟨c.mem.granary, c.mem.hbm, c.mem.pond, c.mem.tiles, c.mem.clusters⟩, ⟨c.tab.parts, c.tab.stageObj, c.tab.stageLen, c.tab.weirs, c.tab.querns, c.tab.resolves, NatMap.wf_set _ _ c.tab.tollFails, c.tab.testNext, c.tab.testResults, c.tab.tiles, c.tab.clusters, c.tab.leats, c.tab.ctxs, c.tab.qps, c.tab.ports, c.tab.selects⟩⟩) | exact State.modGov_keeps .. | exact State.modCluster_keeps .. | exact (Keeps.upd rfl rfl rfl rfl rfl rfl rfl rfl rfl rfl (fun c => ⟨⟨c.mem.granary, c.mem.hbm, c.mem.pond, c.mem.tiles, c.mem.clusters⟩, ⟨c.tab.parts, c.tab.stageObj, c.tab.stageLen, c.tab.weirs, c.tab.querns, c.tab.resolves, c.tab.tollFails, c.tab.testNext, c.tab.testResults, c.tab.tiles, c.tab.clusters, c.tab.leats, c.tab.ctxs, c.tab.qps, c.tab.ports, c.tab.selects⟩⟩)) | skip)
    | (refine RegKeeps.some ?_; first | exact State.setTile_keeps _ _ _ (fun c => ⟨(State.Canon.tile c _).1, (State.Canon.tile c _).2⟩) | exact State.modEth_keeps _ _ (fun _ h => h) | exact State.bcChallenge_keeps .. | exact (Keeps.upd rfl rfl rfl rfl rfl rfl rfl rfl rfl rfl (fun c => ⟨⟨c.mem.granary, c.mem.hbm, c.mem.pond, c.mem.tiles, c.mem.clusters⟩, ⟨c.tab.parts, c.tab.stageObj, c.tab.stageLen, c.tab.weirs, c.tab.querns, c.tab.resolves, c.tab.tollFails, c.tab.testNext, c.tab.testResults, c.tab.tiles, c.tab.clusters, c.tab.leats, c.tab.ctxs, c.tab.qps, c.tab.ports, c.tab.selects⟩⟩)) | skip)
    | (split; exact State.ro_keeps ..; exact RegKeeps.none _)
    | (split; exact State.ro_keeps ..; exact State.ro_keeps ..)
    | (split; exact State.ro_keeps ..; refine RegKeeps.some ?_; first | exact State.modPort_keeps .. | exact State.modPwr_keeps _ (fun x => x.setDomain _ _) (fun _ h => h))
    | skip

theorem State.readPart_keeps (s : State) (rq : Req) (off : Nat) : RegKeeps s (s.readPart rq off) := by
  unfold State.readPart
  try dsimp only
  split
  all_goals
    first
    | with_reducible exact State.ro_keeps ..
    | with_reducible exact State.pv_keeps ..
    | with_reducible exact State.pdv_keeps ..
    | with_reducible exact State.dv_keeps ..
    | with_reducible exact State.portv_keeps ..
    | with_reducible exact State.weirRc_keeps ..
    | exact State.bolterRc_keeps _ _ _ _ fun _ _ _ => rfl
    | with_reducible exact RegKeeps.none _
    | (with_reducible refine State.pdvRc_keeps _ _ _ fun _ _ => ?_; dsimp only; exact State.modQuern_keeps ..)
    | (with_reducible refine State.pvRc_keeps _ _ _ fun _ => ?_; dsimp only; first | exact Keeps.upd rfl rfl rfl rfl rfl rfl rfl rfl rfl rfl (fun c => ⟨⟨c.mem.granary, c.mem.hbm, c.mem.pond, c.mem.tiles, c.mem.clusters⟩, ⟨c.tab.parts, c.tab.stageObj, c.tab.stageLen, c.tab.weirs, c.tab.querns, c.tab.resolves, NatMap.wf_set _ _ c.tab.tollFails, c.tab.testNext, c.tab.testResults, c.tab.tiles, c.tab.clusters, c.tab.leats, c.tab.ctxs, c.tab.qps, c.tab.ports, c.tab.selects⟩⟩) | exact State.modGov_keeps .. | exact State.modCluster_keeps .. | exact (Keeps.upd rfl rfl rfl rfl rfl rfl rfl rfl rfl rfl (fun c => ⟨⟨c.mem.granary, c.mem.hbm, c.mem.pond, c.mem.tiles, c.mem.clusters⟩, ⟨c.tab.parts, c.tab.stageObj, c.tab.stageLen, c.tab.weirs, c.tab.querns, c.tab.resolves, c.tab.tollFails, c.tab.testNext, c.tab.testResults, c.tab.tiles, c.tab.clusters, c.tab.leats, c.tab.ctxs, c.tab.qps, c.tab.ports, c.tab.selects⟩⟩)) | skip)
    | (refine RegKeeps.some ?_; first | exact State.setTile_keeps _ _ _ (fun c => ⟨(State.Canon.tile c _).1, (State.Canon.tile c _).2⟩) | exact State.modEth_keeps _ _ (fun _ h => h) | exact State.bcChallenge_keeps .. | exact (Keeps.upd rfl rfl rfl rfl rfl rfl rfl rfl rfl rfl (fun c => ⟨⟨c.mem.granary, c.mem.hbm, c.mem.pond, c.mem.tiles, c.mem.clusters⟩, ⟨c.tab.parts, c.tab.stageObj, c.tab.stageLen, c.tab.weirs, c.tab.querns, c.tab.resolves, c.tab.tollFails, c.tab.testNext, c.tab.testResults, c.tab.tiles, c.tab.clusters, c.tab.leats, c.tab.ctxs, c.tab.qps, c.tab.ports, c.tab.selects⟩⟩)) | skip)
    | (split; exact State.ro_keeps ..; exact RegKeeps.none _)
    | (split; exact State.ro_keeps ..; exact State.ro_keeps ..)
    | (split; exact State.ro_keeps ..; refine RegKeeps.some ?_; first | exact State.modPort_keeps .. | exact State.modPwr_keeps _ (fun x => x.setDomain _ _) (fun _ h => h))
    | skip

theorem State.readTile_keeps (s : State) (rq : Req) (off : Nat) : RegKeeps s (s.readTile rq off) := by
  unfold State.readTile
  try dsimp only
  split
  all_goals
    first
    | with_reducible exact State.ro_keeps ..
    | with_reducible exact State.pv_keeps ..
    | with_reducible exact State.pdv_keeps ..
    | with_reducible exact State.dv_keeps ..
    | with_reducible exact State.portv_keeps ..
    | with_reducible exact State.weirRc_keeps ..
    | exact State.bolterRc_keeps _ _ _ _ fun _ _ _ => rfl
    | with_reducible exact RegKeeps.none _
    | (with_reducible refine State.pdvRc_keeps _ _ _ fun _ _ => ?_; dsimp only; exact State.modQuern_keeps ..)
    | (with_reducible refine State.pvRc_keeps _ _ _ fun _ => ?_; dsimp only; first | exact Keeps.upd rfl rfl rfl rfl rfl rfl rfl rfl rfl rfl (fun c => ⟨⟨c.mem.granary, c.mem.hbm, c.mem.pond, c.mem.tiles, c.mem.clusters⟩, ⟨c.tab.parts, c.tab.stageObj, c.tab.stageLen, c.tab.weirs, c.tab.querns, c.tab.resolves, NatMap.wf_set _ _ c.tab.tollFails, c.tab.testNext, c.tab.testResults, c.tab.tiles, c.tab.clusters, c.tab.leats, c.tab.ctxs, c.tab.qps, c.tab.ports, c.tab.selects⟩⟩) | exact State.modGov_keeps .. | exact State.modCluster_keeps .. | exact (Keeps.upd rfl rfl rfl rfl rfl rfl rfl rfl rfl rfl (fun c => ⟨⟨c.mem.granary, c.mem.hbm, c.mem.pond, c.mem.tiles, c.mem.clusters⟩, ⟨c.tab.parts, c.tab.stageObj, c.tab.stageLen, c.tab.weirs, c.tab.querns, c.tab.resolves, c.tab.tollFails, c.tab.testNext, c.tab.testResults, c.tab.tiles, c.tab.clusters, c.tab.leats, c.tab.ctxs, c.tab.qps, c.tab.ports, c.tab.selects⟩⟩)) | skip)
    | (refine RegKeeps.some ?_; first | exact State.setTile_keeps _ _ _ (fun c => ⟨(State.Canon.tile c _).1, (State.Canon.tile c _).2⟩) | exact State.modEth_keeps _ _ (fun _ h => h) | exact State.bcChallenge_keeps .. | exact (Keeps.upd rfl rfl rfl rfl rfl rfl rfl rfl rfl rfl (fun c => ⟨⟨c.mem.granary, c.mem.hbm, c.mem.pond, c.mem.tiles, c.mem.clusters⟩, ⟨c.tab.parts, c.tab.stageObj, c.tab.stageLen, c.tab.weirs, c.tab.querns, c.tab.resolves, c.tab.tollFails, c.tab.testNext, c.tab.testResults, c.tab.tiles, c.tab.clusters, c.tab.leats, c.tab.ctxs, c.tab.qps, c.tab.ports, c.tab.selects⟩⟩)) | skip)
    | (split; exact State.ro_keeps ..; exact RegKeeps.none _)
    | (split; exact State.ro_keeps ..; exact State.ro_keeps ..)
    | (split; exact State.ro_keeps ..; refine RegKeeps.some ?_; first | exact State.modPort_keeps .. | exact State.modPwr_keeps _ (fun x => x.setDomain _ _) (fun _ h => h))
    | skip

theorem State.readQrn_keeps (s : State) (rq : Req) (off : Nat) : RegKeeps s (s.readQrn rq off) := by
  unfold State.readQrn
  try dsimp only
  split
  all_goals
    first
    | with_reducible exact State.ro_keeps ..
    | with_reducible exact State.pv_keeps ..
    | with_reducible exact State.pdv_keeps ..
    | with_reducible exact State.dv_keeps ..
    | with_reducible exact State.portv_keeps ..
    | with_reducible exact State.weirRc_keeps ..
    | exact State.bolterRc_keeps _ _ _ _ fun _ _ _ => rfl
    | with_reducible exact RegKeeps.none _
    | (with_reducible refine State.pdvRc_keeps _ _ _ fun _ _ => ?_; dsimp only; exact State.modQuern_keeps ..)
    | (with_reducible refine State.pvRc_keeps _ _ _ fun _ => ?_; dsimp only; first | exact Keeps.upd rfl rfl rfl rfl rfl rfl rfl rfl rfl rfl (fun c => ⟨⟨c.mem.granary, c.mem.hbm, c.mem.pond, c.mem.tiles, c.mem.clusters⟩, ⟨c.tab.parts, c.tab.stageObj, c.tab.stageLen, c.tab.weirs, c.tab.querns, c.tab.resolves, NatMap.wf_set _ _ c.tab.tollFails, c.tab.testNext, c.tab.testResults, c.tab.tiles, c.tab.clusters, c.tab.leats, c.tab.ctxs, c.tab.qps, c.tab.ports, c.tab.selects⟩⟩) | exact State.modGov_keeps .. | exact State.modCluster_keeps .. | exact (Keeps.upd rfl rfl rfl rfl rfl rfl rfl rfl rfl rfl (fun c => ⟨⟨c.mem.granary, c.mem.hbm, c.mem.pond, c.mem.tiles, c.mem.clusters⟩, ⟨c.tab.parts, c.tab.stageObj, c.tab.stageLen, c.tab.weirs, c.tab.querns, c.tab.resolves, c.tab.tollFails, c.tab.testNext, c.tab.testResults, c.tab.tiles, c.tab.clusters, c.tab.leats, c.tab.ctxs, c.tab.qps, c.tab.ports, c.tab.selects⟩⟩)) | skip)
    | (refine RegKeeps.some ?_; first | exact State.setTile_keeps _ _ _ (fun c => ⟨(State.Canon.tile c _).1, (State.Canon.tile c _).2⟩) | exact State.modEth_keeps _ _ (fun _ h => h) | exact State.bcChallenge_keeps .. | exact (Keeps.upd rfl rfl rfl rfl rfl rfl rfl rfl rfl rfl (fun c => ⟨⟨c.mem.granary, c.mem.hbm, c.mem.pond, c.mem.tiles, c.mem.clusters⟩, ⟨c.tab.parts, c.tab.stageObj, c.tab.stageLen, c.tab.weirs, c.tab.querns, c.tab.resolves, c.tab.tollFails, c.tab.testNext, c.tab.testResults, c.tab.tiles, c.tab.clusters, c.tab.leats, c.tab.ctxs, c.tab.qps, c.tab.ports, c.tab.selects⟩⟩)) | skip)
    | (split; exact State.ro_keeps ..; exact RegKeeps.none _)
    | (split; exact State.ro_keeps ..; exact State.ro_keeps ..)
    | (split; exact State.ro_keeps ..; refine RegKeeps.some ?_; first | exact State.modPort_keeps .. | exact State.modPwr_keeps _ (fun x => x.setDomain _ _) (fun _ h => h))
    | skip

theorem State.readMem_keeps (s : State) (rq : Req) (off : Nat) : RegKeeps s (s.readMem rq off) := by
  unfold State.readMem
  try dsimp only
  split
  all_goals
    first
    | with_reducible exact State.ro_keeps ..
    | with_reducible exact State.pv_keeps ..
    | with_reducible exact State.pdv_keeps ..
    | with_reducible exact State.dv_keeps ..
    | with_reducible exact State.portv_keeps ..
    | with_reducible exact State.weirRc_keeps ..
    | exact State.bolterRc_keeps _ _ _ _ fun _ _ _ => rfl
    | with_reducible exact RegKeeps.none _
    | (with_reducible refine State.pdvRc_keeps _ _ _ fun _ _ => ?_; dsimp only; exact State.modQuern_keeps ..)
    | (with_reducible refine State.pvRc_keeps _ _ _ fun _ => ?_; dsimp only; first | exact Keeps.upd rfl rfl rfl rfl rfl rfl rfl rfl rfl rfl (fun c => ⟨⟨c.mem.granary, c.mem.hbm, c.mem.pond, c.mem.tiles, c.mem.clusters⟩, ⟨c.tab.parts, c.tab.stageObj, c.tab.stageLen, c.tab.weirs, c.tab.querns, c.tab.resolves, NatMap.wf_set _ _ c.tab.tollFails, c.tab.testNext, c.tab.testResults, c.tab.tiles, c.tab.clusters, c.tab.leats, c.tab.ctxs, c.tab.qps, c.tab.ports, c.tab.selects⟩⟩) | exact State.modGov_keeps .. | exact State.modCluster_keeps .. | exact (Keeps.upd rfl rfl rfl rfl rfl rfl rfl rfl rfl rfl (fun c => ⟨⟨c.mem.granary, c.mem.hbm, c.mem.pond, c.mem.tiles, c.mem.clusters⟩, ⟨c.tab.parts, c.tab.stageObj, c.tab.stageLen, c.tab.weirs, c.tab.querns, c.tab.resolves, c.tab.tollFails, c.tab.testNext, c.tab.testResults, c.tab.tiles, c.tab.clusters, c.tab.leats, c.tab.ctxs, c.tab.qps, c.tab.ports, c.tab.selects⟩⟩)) | skip)
    | (refine RegKeeps.some ?_; first | exact State.setTile_keeps _ _ _ (fun c => ⟨(State.Canon.tile c _).1, (State.Canon.tile c _).2⟩) | exact State.modEth_keeps _ _ (fun _ h => h) | exact State.bcChallenge_keeps .. | exact (Keeps.upd rfl rfl rfl rfl rfl rfl rfl rfl rfl rfl (fun c => ⟨⟨c.mem.granary, c.mem.hbm, c.mem.pond, c.mem.tiles, c.mem.clusters⟩, ⟨c.tab.parts, c.tab.stageObj, c.tab.stageLen, c.tab.weirs, c.tab.querns, c.tab.resolves, c.tab.tollFails, c.tab.testNext, c.tab.testResults, c.tab.tiles, c.tab.clusters, c.tab.leats, c.tab.ctxs, c.tab.qps, c.tab.ports, c.tab.selects⟩⟩)) | skip)
    | (split; exact State.ro_keeps ..; exact RegKeeps.none _)
    | (split; exact State.ro_keeps ..; exact State.ro_keeps ..)
    | (split; exact State.ro_keeps ..; refine RegKeeps.some ?_; first | exact State.modPort_keeps .. | exact State.modPwr_keeps _ (fun x => x.setDomain _ _) (fun _ h => h))
    | skip

theorem State.readMce_keeps (s : State) (rq : Req) (off : Nat) : RegKeeps s (s.readMce rq off) := by
  unfold State.readMce
  try dsimp only
  split
  all_goals
    first
    | with_reducible exact State.ro_keeps ..
    | with_reducible exact State.pv_keeps ..
    | with_reducible exact State.pdv_keeps ..
    | with_reducible exact State.dv_keeps ..
    | with_reducible exact State.portv_keeps ..
    | with_reducible exact State.weirRc_keeps ..
    | exact State.bolterRc_keeps _ _ _ _ fun _ _ _ => rfl
    | with_reducible exact RegKeeps.none _
    | (with_reducible refine State.pdvRc_keeps _ _ _ fun _ _ => ?_; dsimp only; exact State.modQuern_keeps ..)
    | (with_reducible refine State.pvRc_keeps _ _ _ fun _ => ?_; dsimp only; first | exact Keeps.upd rfl rfl rfl rfl rfl rfl rfl rfl rfl rfl (fun c => ⟨⟨c.mem.granary, c.mem.hbm, c.mem.pond, c.mem.tiles, c.mem.clusters⟩, ⟨c.tab.parts, c.tab.stageObj, c.tab.stageLen, c.tab.weirs, c.tab.querns, c.tab.resolves, NatMap.wf_set _ _ c.tab.tollFails, c.tab.testNext, c.tab.testResults, c.tab.tiles, c.tab.clusters, c.tab.leats, c.tab.ctxs, c.tab.qps, c.tab.ports, c.tab.selects⟩⟩) | exact State.modGov_keeps .. | exact State.modCluster_keeps .. | exact (Keeps.upd rfl rfl rfl rfl rfl rfl rfl rfl rfl rfl (fun c => ⟨⟨c.mem.granary, c.mem.hbm, c.mem.pond, c.mem.tiles, c.mem.clusters⟩, ⟨c.tab.parts, c.tab.stageObj, c.tab.stageLen, c.tab.weirs, c.tab.querns, c.tab.resolves, c.tab.tollFails, c.tab.testNext, c.tab.testResults, c.tab.tiles, c.tab.clusters, c.tab.leats, c.tab.ctxs, c.tab.qps, c.tab.ports, c.tab.selects⟩⟩)) | skip)
    | (refine RegKeeps.some ?_; first | exact State.setTile_keeps _ _ _ (fun c => ⟨(State.Canon.tile c _).1, (State.Canon.tile c _).2⟩) | exact State.modEth_keeps _ _ (fun _ h => h) | exact State.bcChallenge_keeps .. | exact (Keeps.upd rfl rfl rfl rfl rfl rfl rfl rfl rfl rfl (fun c => ⟨⟨c.mem.granary, c.mem.hbm, c.mem.pond, c.mem.tiles, c.mem.clusters⟩, ⟨c.tab.parts, c.tab.stageObj, c.tab.stageLen, c.tab.weirs, c.tab.querns, c.tab.resolves, c.tab.tollFails, c.tab.testNext, c.tab.testResults, c.tab.tiles, c.tab.clusters, c.tab.leats, c.tab.ctxs, c.tab.qps, c.tab.ports, c.tab.selects⟩⟩)) | skip)
    | (split; exact State.ro_keeps ..; exact RegKeeps.none _)
    | (split; exact State.ro_keeps ..; exact State.ro_keeps ..)
    | (split; exact State.ro_keeps ..; refine RegKeeps.some ?_; first | exact State.modPort_keeps .. | exact State.modPwr_keeps _ (fun x => x.setDomain _ _) (fun _ h => h))
    | skip

theorem State.readEth_keeps (s : State) (rq : Req) (off : Nat) : RegKeeps s (s.readEth rq off) := by
  unfold State.readEth
  try dsimp only
  split
  all_goals
    first
    | with_reducible exact State.ro_keeps ..
    | with_reducible exact State.pv_keeps ..
    | with_reducible exact State.pdv_keeps ..
    | with_reducible exact State.dv_keeps ..
    | with_reducible exact State.portv_keeps ..
    | with_reducible exact State.weirRc_keeps ..
    | exact State.bolterRc_keeps _ _ _ _ fun _ _ _ => rfl
    | with_reducible exact RegKeeps.none _
    | (with_reducible refine State.pdvRc_keeps _ _ _ fun _ _ => ?_; dsimp only; exact State.modQuern_keeps ..)
    | (with_reducible refine State.pvRc_keeps _ _ _ fun _ => ?_; dsimp only; first | exact Keeps.upd rfl rfl rfl rfl rfl rfl rfl rfl rfl rfl (fun c => ⟨⟨c.mem.granary, c.mem.hbm, c.mem.pond, c.mem.tiles, c.mem.clusters⟩, ⟨c.tab.parts, c.tab.stageObj, c.tab.stageLen, c.tab.weirs, c.tab.querns, c.tab.resolves, NatMap.wf_set _ _ c.tab.tollFails, c.tab.testNext, c.tab.testResults, c.tab.tiles, c.tab.clusters, c.tab.leats, c.tab.ctxs, c.tab.qps, c.tab.ports, c.tab.selects⟩⟩) | exact State.modGov_keeps .. | exact State.modCluster_keeps .. | exact (Keeps.upd rfl rfl rfl rfl rfl rfl rfl rfl rfl rfl (fun c => ⟨⟨c.mem.granary, c.mem.hbm, c.mem.pond, c.mem.tiles, c.mem.clusters⟩, ⟨c.tab.parts, c.tab.stageObj, c.tab.stageLen, c.tab.weirs, c.tab.querns, c.tab.resolves, c.tab.tollFails, c.tab.testNext, c.tab.testResults, c.tab.tiles, c.tab.clusters, c.tab.leats, c.tab.ctxs, c.tab.qps, c.tab.ports, c.tab.selects⟩⟩)) | skip)
    | (refine RegKeeps.some ?_; first | exact State.setTile_keeps _ _ _ (fun c => ⟨(State.Canon.tile c _).1, (State.Canon.tile c _).2⟩) | exact State.modEth_keeps _ _ (fun _ h => h) | exact State.bcChallenge_keeps .. | exact (Keeps.upd rfl rfl rfl rfl rfl rfl rfl rfl rfl rfl (fun c => ⟨⟨c.mem.granary, c.mem.hbm, c.mem.pond, c.mem.tiles, c.mem.clusters⟩, ⟨c.tab.parts, c.tab.stageObj, c.tab.stageLen, c.tab.weirs, c.tab.querns, c.tab.resolves, c.tab.tollFails, c.tab.testNext, c.tab.testResults, c.tab.tiles, c.tab.clusters, c.tab.leats, c.tab.ctxs, c.tab.qps, c.tab.ports, c.tab.selects⟩⟩)) | skip)
    | (split; exact State.ro_keeps ..; exact RegKeeps.none _)
    | (split; exact State.ro_keeps ..; exact State.ro_keeps ..)
    | (split; exact State.ro_keeps ..; refine RegKeeps.some ?_; first | exact State.modPort_keeps .. | exact State.modPwr_keeps _ (fun x => x.setDomain _ _) (fun _ h => h))
    | skip

theorem State.readSec_keeps (s : State) (rq : Req) (off : Nat) : RegKeeps s (s.readSec rq off) := by
  unfold State.readSec
  try dsimp only
  split
  all_goals
    first
    | with_reducible exact State.ro_keeps ..
    | with_reducible exact State.pv_keeps ..
    | with_reducible exact State.pdv_keeps ..
    | with_reducible exact State.dv_keeps ..
    | with_reducible exact State.portv_keeps ..
    | with_reducible exact State.weirRc_keeps ..
    | exact State.bolterRc_keeps _ _ _ _ fun _ _ _ => rfl
    | with_reducible exact RegKeeps.none _
    | (with_reducible refine State.pdvRc_keeps _ _ _ fun _ _ => ?_; dsimp only; exact State.modQuern_keeps ..)
    | (with_reducible refine State.pvRc_keeps _ _ _ fun _ => ?_; dsimp only; first | exact Keeps.upd rfl rfl rfl rfl rfl rfl rfl rfl rfl rfl (fun c => ⟨⟨c.mem.granary, c.mem.hbm, c.mem.pond, c.mem.tiles, c.mem.clusters⟩, ⟨c.tab.parts, c.tab.stageObj, c.tab.stageLen, c.tab.weirs, c.tab.querns, c.tab.resolves, NatMap.wf_set _ _ c.tab.tollFails, c.tab.testNext, c.tab.testResults, c.tab.tiles, c.tab.clusters, c.tab.leats, c.tab.ctxs, c.tab.qps, c.tab.ports, c.tab.selects⟩⟩) | exact State.modGov_keeps .. | exact State.modCluster_keeps .. | exact (Keeps.upd rfl rfl rfl rfl rfl rfl rfl rfl rfl rfl (fun c => ⟨⟨c.mem.granary, c.mem.hbm, c.mem.pond, c.mem.tiles, c.mem.clusters⟩, ⟨c.tab.parts, c.tab.stageObj, c.tab.stageLen, c.tab.weirs, c.tab.querns, c.tab.resolves, c.tab.tollFails, c.tab.testNext, c.tab.testResults, c.tab.tiles, c.tab.clusters, c.tab.leats, c.tab.ctxs, c.tab.qps, c.tab.ports, c.tab.selects⟩⟩)) | skip)
    | (refine RegKeeps.some ?_; first | exact State.setTile_keeps _ _ _ (fun c => ⟨(State.Canon.tile c _).1, (State.Canon.tile c _).2⟩) | exact State.modEth_keeps _ _ (fun _ h => h) | exact State.bcChallenge_keeps .. | exact (Keeps.upd rfl rfl rfl rfl rfl rfl rfl rfl rfl rfl (fun c => ⟨⟨c.mem.granary, c.mem.hbm, c.mem.pond, c.mem.tiles, c.mem.clusters⟩, ⟨c.tab.parts, c.tab.stageObj, c.tab.stageLen, c.tab.weirs, c.tab.querns, c.tab.resolves, c.tab.tollFails, c.tab.testNext, c.tab.testResults, c.tab.tiles, c.tab.clusters, c.tab.leats, c.tab.ctxs, c.tab.qps, c.tab.ports, c.tab.selects⟩⟩)) | skip)
    | (split; exact State.ro_keeps ..; exact RegKeeps.none _)
    | (split; exact State.ro_keeps ..; exact State.ro_keeps ..)
    | (split; exact State.ro_keeps ..; refine RegKeeps.some ?_; first | exact State.modPort_keeps .. | exact State.modPwr_keeps _ (fun x => x.setDomain _ _) (fun _ h => h))
    | skip

theorem State.readLc_keeps (s : State) (off : Nat) : RegKeeps s (s.readLc off) := by
  unfold State.readLc
  try dsimp only
  split
  all_goals
    first
    | with_reducible exact State.ro_keeps ..
    | with_reducible exact State.pv_keeps ..
    | with_reducible exact State.pdv_keeps ..
    | with_reducible exact State.dv_keeps ..
    | with_reducible exact State.portv_keeps ..
    | with_reducible exact State.weirRc_keeps ..
    | exact State.bolterRc_keeps _ _ _ _ fun _ _ _ => rfl
    | with_reducible exact RegKeeps.none _
    | (with_reducible refine State.pdvRc_keeps _ _ _ fun _ _ => ?_; dsimp only; exact State.modQuern_keeps ..)
    | (with_reducible refine State.pvRc_keeps _ _ _ fun _ => ?_; dsimp only; first | exact Keeps.upd rfl rfl rfl rfl rfl rfl rfl rfl rfl rfl (fun c => ⟨⟨c.mem.granary, c.mem.hbm, c.mem.pond, c.mem.tiles, c.mem.clusters⟩, ⟨c.tab.parts, c.tab.stageObj, c.tab.stageLen, c.tab.weirs, c.tab.querns, c.tab.resolves, NatMap.wf_set _ _ c.tab.tollFails, c.tab.testNext, c.tab.testResults, c.tab.tiles, c.tab.clusters, c.tab.leats, c.tab.ctxs, c.tab.qps, c.tab.ports, c.tab.selects⟩⟩) | exact State.modGov_keeps .. | exact State.modCluster_keeps .. | exact (Keeps.upd rfl rfl rfl rfl rfl rfl rfl rfl rfl rfl (fun c => ⟨⟨c.mem.granary, c.mem.hbm, c.mem.pond, c.mem.tiles, c.mem.clusters⟩, ⟨c.tab.parts, c.tab.stageObj, c.tab.stageLen, c.tab.weirs, c.tab.querns, c.tab.resolves, c.tab.tollFails, c.tab.testNext, c.tab.testResults, c.tab.tiles, c.tab.clusters, c.tab.leats, c.tab.ctxs, c.tab.qps, c.tab.ports, c.tab.selects⟩⟩)) | skip)
    | (refine RegKeeps.some ?_; first | exact State.setTile_keeps _ _ _ (fun c => ⟨(State.Canon.tile c _).1, (State.Canon.tile c _).2⟩) | exact State.modEth_keeps _ _ (fun _ h => h) | exact State.bcChallenge_keeps .. | exact (Keeps.upd rfl rfl rfl rfl rfl rfl rfl rfl rfl rfl (fun c => ⟨⟨c.mem.granary, c.mem.hbm, c.mem.pond, c.mem.tiles, c.mem.clusters⟩, ⟨c.tab.parts, c.tab.stageObj, c.tab.stageLen, c.tab.weirs, c.tab.querns, c.tab.resolves, c.tab.tollFails, c.tab.testNext, c.tab.testResults, c.tab.tiles, c.tab.clusters, c.tab.leats, c.tab.ctxs, c.tab.qps, c.tab.ports, c.tab.selects⟩⟩)) | skip)
    | (split; exact State.ro_keeps ..; exact RegKeeps.none _)
    | (split; exact State.ro_keeps ..; exact State.ro_keeps ..)
    | (split; exact State.ro_keeps ..; refine RegKeeps.some ?_; first | exact State.modPort_keeps .. | exact State.modPwr_keeps _ (fun x => x.setDomain _ _) (fun _ h => h))
    | skip

theorem State.readPwr_keeps (s : State) (rq : Req) (off : Nat) : RegKeeps s (s.readPwr rq off) := by
  unfold State.readPwr
  try dsimp only
  split
  all_goals
    first
    | with_reducible exact State.ro_keeps ..
    | with_reducible exact State.pv_keeps ..
    | with_reducible exact State.pdv_keeps ..
    | with_reducible exact State.dv_keeps ..
    | with_reducible exact State.portv_keeps ..
    | with_reducible exact State.weirRc_keeps ..
    | exact State.bolterRc_keeps _ _ _ _ fun _ _ _ => rfl
    | with_reducible exact RegKeeps.none _
    | (with_reducible refine State.pdvRc_keeps _ _ _ fun _ _ => ?_; dsimp only; exact State.modQuern_keeps ..)
    | (with_reducible refine State.pvRc_keeps _ _ _ fun _ => ?_; dsimp only; first | exact Keeps.upd rfl rfl rfl rfl rfl rfl rfl rfl rfl rfl (fun c => ⟨⟨c.mem.granary, c.mem.hbm, c.mem.pond, c.mem.tiles, c.mem.clusters⟩, ⟨c.tab.parts, c.tab.stageObj, c.tab.stageLen, c.tab.weirs, c.tab.querns, c.tab.resolves, NatMap.wf_set _ _ c.tab.tollFails, c.tab.testNext, c.tab.testResults, c.tab.tiles, c.tab.clusters, c.tab.leats, c.tab.ctxs, c.tab.qps, c.tab.ports, c.tab.selects⟩⟩) | exact State.modGov_keeps .. | exact State.modCluster_keeps .. | exact (Keeps.upd rfl rfl rfl rfl rfl rfl rfl rfl rfl rfl (fun c => ⟨⟨c.mem.granary, c.mem.hbm, c.mem.pond, c.mem.tiles, c.mem.clusters⟩, ⟨c.tab.parts, c.tab.stageObj, c.tab.stageLen, c.tab.weirs, c.tab.querns, c.tab.resolves, c.tab.tollFails, c.tab.testNext, c.tab.testResults, c.tab.tiles, c.tab.clusters, c.tab.leats, c.tab.ctxs, c.tab.qps, c.tab.ports, c.tab.selects⟩⟩)) | skip)
    | (refine RegKeeps.some ?_; first | exact State.setTile_keeps _ _ _ (fun c => ⟨(State.Canon.tile c _).1, (State.Canon.tile c _).2⟩) | exact State.modEth_keeps _ _ (fun _ h => h) | exact State.bcChallenge_keeps .. | exact (Keeps.upd rfl rfl rfl rfl rfl rfl rfl rfl rfl rfl (fun c => ⟨⟨c.mem.granary, c.mem.hbm, c.mem.pond, c.mem.tiles, c.mem.clusters⟩, ⟨c.tab.parts, c.tab.stageObj, c.tab.stageLen, c.tab.weirs, c.tab.querns, c.tab.resolves, c.tab.tollFails, c.tab.testNext, c.tab.testResults, c.tab.tiles, c.tab.clusters, c.tab.leats, c.tab.ctxs, c.tab.qps, c.tab.ports, c.tab.selects⟩⟩)) | skip)
    | (split; exact State.ro_keeps ..; exact RegKeeps.none _)
    | (split; exact State.ro_keeps ..; exact State.ro_keeps ..)
    | (split; exact State.ro_keeps ..; refine RegKeeps.some ?_; first | exact State.modPort_keeps .. | exact State.modPwr_keeps _ (fun x => x.setDomain _ _) (fun _ h => h))
    | skip

theorem State.readRas_keeps (s : State) (rq : Req) (off : Nat) : RegKeeps s (s.readRas rq off) := by
  unfold State.readRas
  try dsimp only
  split
  all_goals
    first
    | with_reducible exact State.ro_keeps ..
    | with_reducible exact State.pv_keeps ..
    | with_reducible exact State.pdv_keeps ..
    | with_reducible exact State.dv_keeps ..
    | with_reducible exact State.portv_keeps ..
    | with_reducible exact State.weirRc_keeps ..
    | exact State.bolterRc_keeps _ _ _ _ fun _ _ _ => rfl
    | with_reducible exact RegKeeps.none _
    | (with_reducible refine State.pdvRc_keeps _ _ _ fun _ _ => ?_; dsimp only; exact State.modQuern_keeps ..)
    | (with_reducible refine State.pvRc_keeps _ _ _ fun _ => ?_; dsimp only; first | exact Keeps.upd rfl rfl rfl rfl rfl rfl rfl rfl rfl rfl (fun c => ⟨⟨c.mem.granary, c.mem.hbm, c.mem.pond, c.mem.tiles, c.mem.clusters⟩, ⟨c.tab.parts, c.tab.stageObj, c.tab.stageLen, c.tab.weirs, c.tab.querns, c.tab.resolves, NatMap.wf_set _ _ c.tab.tollFails, c.tab.testNext, c.tab.testResults, c.tab.tiles, c.tab.clusters, c.tab.leats, c.tab.ctxs, c.tab.qps, c.tab.ports, c.tab.selects⟩⟩) | exact State.modGov_keeps .. | exact State.modCluster_keeps .. | exact (Keeps.upd rfl rfl rfl rfl rfl rfl rfl rfl rfl rfl (fun c => ⟨⟨c.mem.granary, c.mem.hbm, c.mem.pond, c.mem.tiles, c.mem.clusters⟩, ⟨c.tab.parts, c.tab.stageObj, c.tab.stageLen, c.tab.weirs, c.tab.querns, c.tab.resolves, c.tab.tollFails, c.tab.testNext, c.tab.testResults, c.tab.tiles, c.tab.clusters, c.tab.leats, c.tab.ctxs, c.tab.qps, c.tab.ports, c.tab.selects⟩⟩)) | skip)
    | (refine RegKeeps.some ?_; first | exact State.setTile_keeps _ _ _ (fun c => ⟨(State.Canon.tile c _).1, (State.Canon.tile c _).2⟩) | exact State.modEth_keeps _ _ (fun _ h => h) | exact State.bcChallenge_keeps .. | exact (Keeps.upd rfl rfl rfl rfl rfl rfl rfl rfl rfl rfl (fun c => ⟨⟨c.mem.granary, c.mem.hbm, c.mem.pond, c.mem.tiles, c.mem.clusters⟩, ⟨c.tab.parts, c.tab.stageObj, c.tab.stageLen, c.tab.weirs, c.tab.querns, c.tab.resolves, c.tab.tollFails, c.tab.testNext, c.tab.testResults, c.tab.tiles, c.tab.clusters, c.tab.leats, c.tab.ctxs, c.tab.qps, c.tab.ports, c.tab.selects⟩⟩)) | skip)
    | (split; exact State.ro_keeps ..; exact RegKeeps.none _)
    | (split; exact State.ro_keeps ..; exact State.ro_keeps ..)
    | (split; exact State.ro_keeps ..; refine RegKeeps.some ?_; first | exact State.modPort_keeps .. | exact State.modPwr_keeps _ (fun x => x.setDomain _ _) (fun _ h => h))
    | skip

theorem State.readTest_keeps (s : State) (rq : Req) (off : Nat) : RegKeeps s (s.readTest rq off) := by
  unfold State.readTest
  try dsimp only
  split
  all_goals
    first
    | with_reducible exact State.ro_keeps ..
    | with_reducible exact State.pv_keeps ..
    | with_reducible exact State.pdv_keeps ..
    | with_reducible exact State.dv_keeps ..
    | with_reducible exact State.portv_keeps ..
    | with_reducible exact State.weirRc_keeps ..
    | exact State.bolterRc_keeps _ _ _ _ fun _ _ _ => rfl
    | with_reducible exact RegKeeps.none _
    | (with_reducible refine State.pdvRc_keeps _ _ _ fun _ _ => ?_; dsimp only; exact State.modQuern_keeps ..)
    | (with_reducible refine State.pvRc_keeps _ _ _ fun _ => ?_; dsimp only; first | exact Keeps.upd rfl rfl rfl rfl rfl rfl rfl rfl rfl rfl (fun c => ⟨⟨c.mem.granary, c.mem.hbm, c.mem.pond, c.mem.tiles, c.mem.clusters⟩, ⟨c.tab.parts, c.tab.stageObj, c.tab.stageLen, c.tab.weirs, c.tab.querns, c.tab.resolves, NatMap.wf_set _ _ c.tab.tollFails, c.tab.testNext, c.tab.testResults, c.tab.tiles, c.tab.clusters, c.tab.leats, c.tab.ctxs, c.tab.qps, c.tab.ports, c.tab.selects⟩⟩) | exact State.modGov_keeps .. | exact State.modCluster_keeps .. | exact (Keeps.upd rfl rfl rfl rfl rfl rfl rfl rfl rfl rfl (fun c => ⟨⟨c.mem.granary, c.mem.hbm, c.mem.pond, c.mem.tiles, c.mem.clusters⟩, ⟨c.tab.parts, c.tab.stageObj, c.tab.stageLen, c.tab.weirs, c.tab.querns, c.tab.resolves, c.tab.tollFails, c.tab.testNext, c.tab.testResults, c.tab.tiles, c.tab.clusters, c.tab.leats, c.tab.ctxs, c.tab.qps, c.tab.ports, c.tab.selects⟩⟩)) | skip)
    | (refine RegKeeps.some ?_; first | exact State.setTile_keeps _ _ _ (fun c => ⟨(State.Canon.tile c _).1, (State.Canon.tile c _).2⟩) | exact State.modEth_keeps _ _ (fun _ h => h) | exact State.bcChallenge_keeps .. | exact (Keeps.upd rfl rfl rfl rfl rfl rfl rfl rfl rfl rfl (fun c => ⟨⟨c.mem.granary, c.mem.hbm, c.mem.pond, c.mem.tiles, c.mem.clusters⟩, ⟨c.tab.parts, c.tab.stageObj, c.tab.stageLen, c.tab.weirs, c.tab.querns, c.tab.resolves, c.tab.tollFails, c.tab.testNext, c.tab.testResults, c.tab.tiles, c.tab.clusters, c.tab.leats, c.tab.ctxs, c.tab.qps, c.tab.ports, c.tab.selects⟩⟩)) | skip)
    | (split; exact State.ro_keeps ..; exact RegKeeps.none _)
    | (split; exact State.ro_keeps ..; exact State.ro_keeps ..)
    | (split; exact State.ro_keeps ..; refine RegKeeps.some ?_; first | exact State.modPort_keeps .. | exact State.modPwr_keeps _ (fun x => x.setDomain _ _) (fun _ h => h))
    | skip

theorem State.writeGlb_keeps (s : State) (rq : Req) (off : Nat) (v : Word64) : RegKeeps s (s.writeGlb rq off v) := by
  unfold State.writeGlb
  try dsimp only
  split
  all_goals
    first
    | with_reducible exact State.keep_keeps _
    | with_reducible exact RegKeeps.none _
    | with_reducible exact State.select_keeps ..
    | with_reducible exact State.writeLock_keeps ..
    | with_reducible exact State.portWl_keeps ..
    | with_reducible exact State.qpSet_keeps ..
    | (refine State.done_keeps ?_; first | (apply State.onSelPart_keeps; intro p t; exact Keeps.upd rfl rfl rfl rfl rfl rfl rfl rfl rfl rfl (fun c => ⟨⟨c.mem.granary, c.mem.hbm, c.mem.pond, c.mem.tiles, c.mem.clusters⟩, ⟨c.tab.parts, NatMap.wf_set _ _ c.tab.stageObj, c.tab.stageLen, c.tab.weirs, c.tab.querns, c.tab.resolves, c.tab.tollFails, c.tab.testNext, c.tab.testResults, c.tab.tiles, c.tab.clusters, c.tab.leats, c.tab.ctxs, c.tab.qps, c.tab.ports, c.tab.selects⟩⟩)) | (apply State.onSelPart_keeps; intro p t; exact Keeps.upd rfl rfl rfl rfl rfl rfl rfl rfl rfl rfl (fun c => ⟨⟨c.mem.granary, c.mem.hbm, c.mem.pond, c.mem.tiles, c.mem.clusters⟩, ⟨c.tab.parts, c.tab.stageObj, NatMap.wf_set _ _ c.tab.stageLen, c.tab.weirs, c.tab.querns, c.tab.resolves, c.tab.tollFails, c.tab.testNext, c.tab.testResults, c.tab.tiles, c.tab.clusters, c.tab.leats, c.tab.ctxs, c.tab.qps, c.tab.ports, c.tab.selects⟩⟩)) | exact State.onSelPart_keeps _ _ _ (fun _ _ => State.modWeir_keeps ..) | exact State.onSelPart_keeps _ _ _ (fun _ _ => State.modPart_keeps ..)  | exact State.onSelPart_keeps _ _ _ (fun _ _ => State.onSelDie_keeps _ _ _ (fun _ _ => State.modQuern_keeps ..)) | exact State.modSec_keeps _ _ (fun _ h => h) | exact State.modLife_keeps _ _ (fun _ => Otp.Le.refl _) | exact State.modPwr_keeps _ _ (fun _ h => h) | exact State.modRas_keeps _ _ (fun _ h => h) | (apply State.onSelDie_keeps; intro d t; apply Keeps.trans ?_ (State.retarget_keeps ..); exact State.modPwr_keeps _ _ (fun _ h => h)) | exact State.modBoard_keeps .. | exact State.setPtpCtrl_keeps .. | exact State.writeCoreCtrl_keeps .. | exact State.onSelPort_keeps _ _ _ (fun _ _ => State.setPortCfg_keeps ..) | exact State.onSelPort_keeps _ _ _ (fun _ _ => State.setMacsec_keeps ..) | exact State.lcReset_keeps .. | exact State.bcResponse_keeps .. | exact State.fatalClear_keeps .. | exact (Keeps.upd rfl rfl rfl rfl rfl rfl rfl rfl rfl rfl (fun c => ⟨⟨c.mem.granary, c.mem.hbm, c.mem.pond, c.mem.tiles, c.mem.clusters⟩, ⟨c.tab.parts, c.tab.stageObj, c.tab.stageLen, c.tab.weirs, c.tab.querns, c.tab.resolves, c.tab.tollFails, c.tab.testNext, c.tab.testResults, c.tab.tiles, c.tab.clusters, c.tab.leats, c.tab.ctxs, c.tab.qps, c.tab.ports, c.tab.selects⟩⟩)) | skip)
    | (refine State.wl_keeps _ _ _ ?_; first | (apply State.onSelPart_keeps; intro p t; exact Keeps.upd rfl rfl rfl rfl rfl rfl rfl rfl rfl rfl (fun c => ⟨⟨c.mem.granary, c.mem.hbm, c.mem.pond, c.mem.tiles, c.mem.clusters⟩, ⟨c.tab.parts, NatMap.wf_set _ _ c.tab.stageObj, c.tab.stageLen, c.tab.weirs, c.tab.querns, c.tab.resolves, c.tab.tollFails, c.tab.testNext, c.tab.testResults, c.tab.tiles, c.tab.clusters, c.tab.leats, c.tab.ctxs, c.tab.qps, c.tab.ports, c.tab.selects⟩⟩)) | (apply State.onSelPart_keeps; intro p t; exact Keeps.upd rfl rfl rfl rfl rfl rfl rfl rfl rfl rfl (fun c => ⟨⟨c.mem.granary, c.mem.hbm, c.mem.pond, c.mem.tiles, c.mem.clusters⟩, ⟨c.tab.parts, c.tab.stageObj, NatMap.wf_set _ _ c.tab.stageLen, c.tab.weirs, c.tab.querns, c.tab.resolves, c.tab.tollFails, c.tab.testNext, c.tab.testResults, c.tab.tiles, c.tab.clusters, c.tab.leats, c.tab.ctxs, c.tab.qps, c.tab.ports, c.tab.selects⟩⟩)) | exact State.onSelPart_keeps _ _ _ (fun _ _ => State.modWeir_keeps ..) | exact State.onSelPart_keeps _ _ _ (fun _ _ => State.modPart_keeps ..)  | exact State.onSelPart_keeps _ _ _ (fun _ _ => State.onSelDie_keeps _ _ _ (fun _ _ => State.modQuern_keeps ..)) | exact State.modSec_keeps _ _ (fun _ h => h) | exact State.modLife_keeps _ _ (fun _ => Otp.Le.refl _) | exact State.modPwr_keeps _ _ (fun _ h => h) | exact State.modRas_keeps _ _ (fun _ h => h) | (apply State.onSelDie_keeps; intro d t; apply Keeps.trans ?_ (State.retarget_keeps ..); exact State.modPwr_keeps _ _ (fun _ h => h)) | exact State.modBoard_keeps .. | exact State.setPtpCtrl_keeps .. | exact State.writeCoreCtrl_keeps .. | exact State.onSelPort_keeps _ _ _ (fun _ _ => State.setPortCfg_keeps ..) | exact State.onSelPort_keeps _ _ _ (fun _ _ => State.setMacsec_keeps ..) | exact State.lcReset_keeps .. | exact State.bcResponse_keeps .. | exact State.fatalClear_keeps .. | exact (Keeps.upd rfl rfl rfl rfl rfl rfl rfl rfl rfl rfl (fun c => ⟨⟨c.mem.granary, c.mem.hbm, c.mem.pond, c.mem.tiles, c.mem.clusters⟩, ⟨c.tab.parts, c.tab.stageObj, c.tab.stageLen, c.tab.weirs, c.tab.querns, c.tab.resolves, c.tab.tollFails, c.tab.testNext, c.tab.testResults, c.tab.tiles, c.tab.clusters, c.tab.leats, c.tab.ctxs, c.tab.qps, c.tab.ports, c.tab.selects⟩⟩)) | skip)
    | skip
  all_goals try split
  all_goals
    first
    | with_reducible exact State.keep_keeps _
    | with_reducible exact RegKeeps.none _
    | exact State.done_keeps (State.lcCmd_keeps _ _ _ State.transition_keeps)
    | exact State.done_keeps (State.lcReset_keeps ..)
    | (refine State.done_keeps ?_; exact (Keeps.upd rfl rfl rfl rfl rfl rfl rfl rfl rfl rfl (fun c => ⟨⟨c.mem.granary, c.mem.hbm, c.mem.pond, c.mem.tiles, c.mem.clusters⟩, ⟨c.tab.parts, c.tab.stageObj, c.tab.stageLen, c.tab.weirs, c.tab.querns, c.tab.resolves, c.tab.tollFails, c.tab.testNext, c.tab.testResults, c.tab.tiles, c.tab.clusters, c.tab.leats, c.tab.ctxs, c.tab.qps, c.tab.ports, c.tab.selects⟩⟩)))
    | skip

theorem State.writeGov_keeps (s : State) (rq : Req) (off : Nat) (v : Word64) : RegKeeps s (s.writeGov rq off v) := by
  unfold State.writeGov
  try dsimp only
  split
  all_goals
    first
    | with_reducible exact State.keep_keeps _
    | with_reducible exact RegKeeps.none _
    | with_reducible exact State.select_keeps ..
    | with_reducible exact State.writeLock_keeps ..
    | with_reducible exact State.portWl_keeps ..
    | with_reducible exact State.qpSet_keeps ..
    | (refine State.done_keeps ?_; first | (apply State.onSelPart_keeps; intro p t; exact Keeps.upd rfl rfl rfl rfl rfl rfl rfl rfl rfl rfl (fun c => ⟨⟨c.mem.granary, c.mem.hbm, c.mem.pond, c.mem.tiles, c.mem.clusters⟩, ⟨c.tab.parts, NatMap.wf_set _ _ c.tab.stageObj, c.tab.stageLen, c.tab.weirs, c.tab.querns, c.tab.resolves, c.tab.tollFails, c.tab.testNext, c.tab.testResults, c.tab.tiles, c.tab.clusters, c.tab.leats, c.tab.ctxs, c.tab.qps, c.tab.ports, c.tab.selects⟩⟩)) | (apply State.onSelPart_keeps; intro p t; exact Keeps.upd rfl rfl rfl rfl rfl rfl rfl rfl rfl rfl (fun c => ⟨⟨c.mem.granary, c.mem.hbm, c.mem.pond, c.mem.tiles, c.mem.clusters⟩, ⟨c.tab.parts, c.tab.stageObj, NatMap.wf_set _ _ c.tab.stageLen, c.tab.weirs, c.tab.querns, c.tab.resolves, c.tab.tollFails, c.tab.testNext, c.tab.testResults, c.tab.tiles, c.tab.clusters, c.tab.leats, c.tab.ctxs, c.tab.qps, c.tab.ports, c.tab.selects⟩⟩)) | exact State.onSelPart_keeps _ _ _ (fun _ _ => State.modWeir_keeps ..) | exact State.onSelPart_keeps _ _ _ (fun _ _ => State.modPart_keeps ..)  | exact State.onSelPart_keeps _ _ _ (fun _ _ => State.onSelDie_keeps _ _ _ (fun _ _ => State.modQuern_keeps ..)) | exact State.modSec_keeps _ _ (fun _ h => h) | exact State.modLife_keeps _ _ (fun _ => Otp.Le.refl _) | exact State.modPwr_keeps _ _ (fun _ h => h) | exact State.modRas_keeps _ _ (fun _ h => h) | (apply State.onSelDie_keeps; intro d t; apply Keeps.trans ?_ (State.retarget_keeps ..); exact State.modPwr_keeps _ _ (fun _ h => h)) | exact State.modBoard_keeps .. | exact State.setPtpCtrl_keeps .. | exact State.writeCoreCtrl_keeps .. | exact State.onSelPort_keeps _ _ _ (fun _ _ => State.setPortCfg_keeps ..) | exact State.onSelPort_keeps _ _ _ (fun _ _ => State.setMacsec_keeps ..) | exact State.lcReset_keeps .. | exact State.bcResponse_keeps .. | exact State.fatalClear_keeps .. | exact (Keeps.upd rfl rfl rfl rfl rfl rfl rfl rfl rfl rfl (fun c => ⟨⟨c.mem.granary, c.mem.hbm, c.mem.pond, c.mem.tiles, c.mem.clusters⟩, ⟨c.tab.parts, c.tab.stageObj, c.tab.stageLen, c.tab.weirs, c.tab.querns, c.tab.resolves, c.tab.tollFails, c.tab.testNext, c.tab.testResults, c.tab.tiles, c.tab.clusters, c.tab.leats, c.tab.ctxs, c.tab.qps, c.tab.ports, c.tab.selects⟩⟩)) | skip)
    | (refine State.wl_keeps _ _ _ ?_; first | (apply State.onSelPart_keeps; intro p t; exact Keeps.upd rfl rfl rfl rfl rfl rfl rfl rfl rfl rfl (fun c => ⟨⟨c.mem.granary, c.mem.hbm, c.mem.pond, c.mem.tiles, c.mem.clusters⟩, ⟨c.tab.parts, NatMap.wf_set _ _ c.tab.stageObj, c.tab.stageLen, c.tab.weirs, c.tab.querns, c.tab.resolves, c.tab.tollFails, c.tab.testNext, c.tab.testResults, c.tab.tiles, c.tab.clusters, c.tab.leats, c.tab.ctxs, c.tab.qps, c.tab.ports, c.tab.selects⟩⟩)) | (apply State.onSelPart_keeps; intro p t; exact Keeps.upd rfl rfl rfl rfl rfl rfl rfl rfl rfl rfl (fun c => ⟨⟨c.mem.granary, c.mem.hbm, c.mem.pond, c.mem.tiles, c.mem.clusters⟩, ⟨c.tab.parts, c.tab.stageObj, NatMap.wf_set _ _ c.tab.stageLen, c.tab.weirs, c.tab.querns, c.tab.resolves, c.tab.tollFails, c.tab.testNext, c.tab.testResults, c.tab.tiles, c.tab.clusters, c.tab.leats, c.tab.ctxs, c.tab.qps, c.tab.ports, c.tab.selects⟩⟩)) | exact State.onSelPart_keeps _ _ _ (fun _ _ => State.modWeir_keeps ..) | exact State.onSelPart_keeps _ _ _ (fun _ _ => State.modPart_keeps ..)  | exact State.onSelPart_keeps _ _ _ (fun _ _ => State.onSelDie_keeps _ _ _ (fun _ _ => State.modQuern_keeps ..)) | exact State.modSec_keeps _ _ (fun _ h => h) | exact State.modLife_keeps _ _ (fun _ => Otp.Le.refl _) | exact State.modPwr_keeps _ _ (fun _ h => h) | exact State.modRas_keeps _ _ (fun _ h => h) | (apply State.onSelDie_keeps; intro d t; apply Keeps.trans ?_ (State.retarget_keeps ..); exact State.modPwr_keeps _ _ (fun _ h => h)) | exact State.modBoard_keeps .. | exact State.setPtpCtrl_keeps .. | exact State.writeCoreCtrl_keeps .. | exact State.onSelPort_keeps _ _ _ (fun _ _ => State.setPortCfg_keeps ..) | exact State.onSelPort_keeps _ _ _ (fun _ _ => State.setMacsec_keeps ..) | exact State.lcReset_keeps .. | exact State.bcResponse_keeps .. | exact State.fatalClear_keeps .. | exact (Keeps.upd rfl rfl rfl rfl rfl rfl rfl rfl rfl rfl (fun c => ⟨⟨c.mem.granary, c.mem.hbm, c.mem.pond, c.mem.tiles, c.mem.clusters⟩, ⟨c.tab.parts, c.tab.stageObj, c.tab.stageLen, c.tab.weirs, c.tab.querns, c.tab.resolves, c.tab.tollFails, c.tab.testNext, c.tab.testResults, c.tab.tiles, c.tab.clusters, c.tab.leats, c.tab.ctxs, c.tab.qps, c.tab.ports, c.tab.selects⟩⟩)) | skip)
    | skip
  all_goals try split
  all_goals
    first
    | with_reducible exact State.keep_keeps _
    | with_reducible exact RegKeeps.none _
    | exact State.ran_keeps _ _ (execRelease_keeps ..)
    | exact State.ran_keeps _ _ (execHalt_keeps ..)
    | exact State.ran_keeps _ _ (execAbort_keeps ..)
    | exact State.done_keeps (State.lcCmd_keeps _ _ _ State.transition_keeps)
    | exact State.done_keeps (State.lcReset_keeps ..)
    | (refine State.done_keeps ?_; exact (Keeps.upd rfl rfl rfl rfl rfl rfl rfl rfl rfl rfl (fun c => ⟨⟨c.mem.granary, c.mem.hbm, c.mem.pond, c.mem.tiles, c.mem.clusters⟩, ⟨c.tab.parts, c.tab.stageObj, c.tab.stageLen, c.tab.weirs, c.tab.querns, c.tab.resolves, c.tab.tollFails, c.tab.testNext, c.tab.testResults, c.tab.tiles, c.tab.clusters, c.tab.leats, c.tab.ctxs, c.tab.qps, c.tab.ports, c.tab.selects⟩⟩)))
    | skip

theorem State.writeWeir_keeps (s : State) (rq : Req) (off : Nat) (v : Word64) : RegKeeps s (s.writeWeir rq off v) := by
  unfold State.writeWeir
  try dsimp only
  split
  all_goals
    first
    | with_reducible exact State.keep_keeps _
    | with_reducible exact RegKeeps.none _
    | with_reducible exact State.select_keeps ..
    | with_reducible exact State.writeLock_keeps ..
    | with_reducible exact State.portWl_keeps ..
    | with_reducible exact State.qpSet_keeps ..
    | (refine State.done_keeps ?_; first | (apply State.onSelPart_keeps; intro p t; exact Keeps.upd rfl rfl rfl rfl rfl rfl rfl rfl rfl rfl (fun c => ⟨⟨c.mem.granary, c.mem.hbm, c.mem.pond, c.mem.tiles, c.mem.clusters⟩, ⟨c.tab.parts, NatMap.wf_set _ _ c.tab.stageObj, c.tab.stageLen, c.tab.weirs, c.tab.querns, c.tab.resolves, c.tab.tollFails, c.tab.testNext, c.tab.testResults, c.tab.tiles, c.tab.clusters, c.tab.leats, c.tab.ctxs, c.tab.qps, c.tab.ports, c.tab.selects⟩⟩)) | (apply State.onSelPart_keeps; intro p t; exact Keeps.upd rfl rfl rfl rfl rfl rfl rfl rfl rfl rfl (fun c => ⟨⟨c.mem.granary, c.mem.hbm, c.mem.pond, c.mem.tiles, c.mem.clusters⟩, ⟨c.tab.parts, c.tab.stageObj, NatMap.wf_set _ _ c.tab.stageLen, c.tab.weirs, c.tab.querns, c.tab.resolves, c.tab.tollFails, c.tab.testNext, c.tab.testResults, c.tab.tiles, c.tab.clusters, c.tab.leats, c.tab.ctxs, c.tab.qps, c.tab.ports, c.tab.selects⟩⟩)) | exact State.onSelPart_keeps _ _ _ (fun _ _ => State.modWeir_keeps ..) | exact State.onSelPart_keeps _ _ _ (fun _ _ => State.modPart_keeps ..)  | exact State.onSelPart_keeps _ _ _ (fun _ _ => State.onSelDie_keeps _ _ _ (fun _ _ => State.modQuern_keeps ..)) | exact State.modSec_keeps _ _ (fun _ h => h) | exact State.modLife_keeps _ _ (fun _ => Otp.Le.refl _) | exact State.modPwr_keeps _ _ (fun _ h => h) | exact State.modRas_keeps _ _ (fun _ h => h) | (apply State.onSelDie_keeps; intro d t; apply Keeps.trans ?_ (State.retarget_keeps ..); exact State.modPwr_keeps _ _ (fun _ h => h)) | exact State.modBoard_keeps .. | exact State.setPtpCtrl_keeps .. | exact State.writeCoreCtrl_keeps .. | exact State.onSelPort_keeps _ _ _ (fun _ _ => State.setPortCfg_keeps ..) | exact State.onSelPort_keeps _ _ _ (fun _ _ => State.setMacsec_keeps ..) | exact State.lcReset_keeps .. | exact State.bcResponse_keeps .. | exact State.fatalClear_keeps .. | exact (Keeps.upd rfl rfl rfl rfl rfl rfl rfl rfl rfl rfl (fun c => ⟨⟨c.mem.granary, c.mem.hbm, c.mem.pond, c.mem.tiles, c.mem.clusters⟩, ⟨c.tab.parts, c.tab.stageObj, c.tab.stageLen, c.tab.weirs, c.tab.querns, c.tab.resolves, c.tab.tollFails, c.tab.testNext, c.tab.testResults, c.tab.tiles, c.tab.clusters, c.tab.leats, c.tab.ctxs, c.tab.qps, c.tab.ports, c.tab.selects⟩⟩)) | skip)
    | (refine State.wl_keeps _ _ _ ?_; first | (apply State.onSelPart_keeps; intro p t; exact Keeps.upd rfl rfl rfl rfl rfl rfl rfl rfl rfl rfl (fun c => ⟨⟨c.mem.granary, c.mem.hbm, c.mem.pond, c.mem.tiles, c.mem.clusters⟩, ⟨c.tab.parts, NatMap.wf_set _ _ c.tab.stageObj, c.tab.stageLen, c.tab.weirs, c.tab.querns, c.tab.resolves, c.tab.tollFails, c.tab.testNext, c.tab.testResults, c.tab.tiles, c.tab.clusters, c.tab.leats, c.tab.ctxs, c.tab.qps, c.tab.ports, c.tab.selects⟩⟩)) | (apply State.onSelPart_keeps; intro p t; exact Keeps.upd rfl rfl rfl rfl rfl rfl rfl rfl rfl rfl (fun c => ⟨⟨c.mem.granary, c.mem.hbm, c.mem.pond, c.mem.tiles, c.mem.clusters⟩, ⟨c.tab.parts, c.tab.stageObj, NatMap.wf_set _ _ c.tab.stageLen, c.tab.weirs, c.tab.querns, c.tab.resolves, c.tab.tollFails, c.tab.testNext, c.tab.testResults, c.tab.tiles, c.tab.clusters, c.tab.leats, c.tab.ctxs, c.tab.qps, c.tab.ports, c.tab.selects⟩⟩)) | exact State.onSelPart_keeps _ _ _ (fun _ _ => State.modWeir_keeps ..) | exact State.onSelPart_keeps _ _ _ (fun _ _ => State.modPart_keeps ..)  | exact State.onSelPart_keeps _ _ _ (fun _ _ => State.onSelDie_keeps _ _ _ (fun _ _ => State.modQuern_keeps ..)) | exact State.modSec_keeps _ _ (fun _ h => h) | exact State.modLife_keeps _ _ (fun _ => Otp.Le.refl _) | exact State.modPwr_keeps _ _ (fun _ h => h) | exact State.modRas_keeps _ _ (fun _ h => h) | (apply State.onSelDie_keeps; intro d t; apply Keeps.trans ?_ (State.retarget_keeps ..); exact State.modPwr_keeps _ _ (fun _ h => h)) | exact State.modBoard_keeps .. | exact State.setPtpCtrl_keeps .. | exact State.writeCoreCtrl_keeps .. | exact State.onSelPort_keeps _ _ _ (fun _ _ => State.setPortCfg_keeps ..) | exact State.onSelPort_keeps _ _ _ (fun _ _ => State.setMacsec_keeps ..) | exact State.lcReset_keeps .. | exact State.bcResponse_keeps .. | exact State.fatalClear_keeps .. | exact (Keeps.upd rfl rfl rfl rfl rfl rfl rfl rfl rfl rfl (fun c => ⟨⟨c.mem.granary, c.mem.hbm, c.mem.pond, c.mem.tiles, c.mem.clusters⟩, ⟨c.tab.parts, c.tab.stageObj, c.tab.stageLen, c.tab.weirs, c.tab.querns, c.tab.resolves, c.tab.tollFails, c.tab.testNext, c.tab.testResults, c.tab.tiles, c.tab.clusters, c.tab.leats, c.tab.ctxs, c.tab.qps, c.tab.ports, c.tab.selects⟩⟩)) | skip)
    | skip
  all_goals try split
  all_goals
    first
    | with_reducible exact State.keep_keeps _
    | with_reducible exact RegKeeps.none _
    | exact State.ran_keeps _ _ (execWeirLoad_keeps ..)
    | exact State.ran_keeps _ _ (execWeirUnload_keeps ..)
    | exact State.ran_keeps _ _ (execPromote_keeps ..)
    | exact State.ran_keeps _ _ (execReadmit_keeps ..)
    | exact State.done_keeps (State.lcCmd_keeps _ _ _ State.transition_keeps)
    | exact State.done_keeps (State.lcReset_keeps ..)
    | (refine State.done_keeps ?_; exact (Keeps.upd rfl rfl rfl rfl rfl rfl rfl rfl rfl rfl (fun c => ⟨⟨c.mem.granary, c.mem.hbm, c.mem.pond, c.mem.tiles, c.mem.clusters⟩, ⟨c.tab.parts, c.tab.stageObj, c.tab.stageLen, c.tab.weirs, c.tab.querns, c.tab.resolves, c.tab.tollFails, c.tab.testNext, c.tab.testResults, c.tab.tiles, c.tab.clusters, c.tab.leats, c.tab.ctxs, c.tab.qps, c.tab.ports, c.tab.selects⟩⟩)))
    | skip

theorem State.writeSync_keeps (s : State) (rq : Req) (off : Nat) (v : Word64) : RegKeeps s (s.writeSync rq off v) := by
  unfold State.writeSync
  split
  · split
    · exact State.select_keeps ..
    · exact State.keep_keeps _
  all_goals
    first
    | with_reducible exact State.keep_keeps _
    | exact RegKeeps.none _

theorem State.writeCtx_keeps (s : State) (rq : Req) (off : Nat) (v : Word64) : RegKeeps s (s.writeCtx rq off v) := by
  unfold State.writeCtx
  try dsimp only
  split
  all_goals
    first
    | with_reducible exact State.keep_keeps _
    | with_reducible exact RegKeeps.none _
    | with_reducible exact State.select_keeps ..
    | with_reducible exact State.writeLock_keeps ..
    | with_reducible exact State.portWl_keeps ..
    | with_reducible exact State.qpSet_keeps ..
    | (refine State.done_keeps ?_; first | (apply State.onSelPart_keeps; intro p t; exact Keeps.upd rfl rfl rfl rfl rfl rfl rfl rfl rfl rfl (fun c => ⟨⟨c.mem.granary, c.mem.hbm, c.mem.pond, c.mem.tiles, c.mem.clusters⟩, ⟨c.tab.parts, NatMap.wf_set _ _ c.tab.stageObj, c.tab.stageLen, c.tab.weirs, c.tab.querns, c.tab.resolves, c.tab.tollFails, c.tab.testNext, c.tab.testResults, c.tab.tiles, c.tab.clusters, c.tab.leats, c.tab.ctxs, c.tab.qps, c.tab.ports, c.tab.selects⟩⟩)) | (apply State.onSelPart_keeps; intro p t; exact Keeps.upd rfl rfl rfl rfl rfl rfl rfl rfl rfl rfl (fun c => ⟨⟨c.mem.granary, c.mem.hbm, c.mem.pond, c.mem.tiles, c.mem.clusters⟩, ⟨c.tab.parts, c.tab.stageObj, NatMap.wf_set _ _ c.tab.stageLen, c.tab.weirs, c.tab.querns, c.tab.resolves, c.tab.tollFails, c.tab.testNext, c.tab.testResults, c.tab.tiles, c.tab.clusters, c.tab.leats, c.tab.ctxs, c.tab.qps, c.tab.ports, c.tab.selects⟩⟩)) | exact State.onSelPart_keeps _ _ _ (fun _ _ => State.modWeir_keeps ..) | exact State.onSelPart_keeps _ _ _ (fun _ _ => State.modPart_keeps ..)  | exact State.onSelPart_keeps _ _ _ (fun _ _ => State.onSelDie_keeps _ _ _ (fun _ _ => State.modQuern_keeps ..)) | exact State.modSec_keeps _ _ (fun _ h => h) | exact State.modLife_keeps _ _ (fun _ => Otp.Le.refl _) | exact State.modPwr_keeps _ _ (fun _ h => h) | exact State.modRas_keeps _ _ (fun _ h => h) | (apply State.onSelDie_keeps; intro d t; apply Keeps.trans ?_ (State.retarget_keeps ..); exact State.modPwr_keeps _ _ (fun _ h => h)) | exact State.modBoard_keeps .. | exact State.setPtpCtrl_keeps .. | exact State.writeCoreCtrl_keeps .. | exact State.onSelPort_keeps _ _ _ (fun _ _ => State.setPortCfg_keeps ..) | exact State.onSelPort_keeps _ _ _ (fun _ _ => State.setMacsec_keeps ..) | exact State.lcReset_keeps .. | exact State.bcResponse_keeps .. | exact State.fatalClear_keeps .. | exact (Keeps.upd rfl rfl rfl rfl rfl rfl rfl rfl rfl rfl (fun c => ⟨⟨c.mem.granary, c.mem.hbm, c.mem.pond, c.mem.tiles, c.mem.clusters⟩, ⟨c.tab.parts, c.tab.stageObj, c.tab.stageLen, c.tab.weirs, c.tab.querns, c.tab.resolves, c.tab.tollFails, c.tab.testNext, c.tab.testResults, c.tab.tiles, c.tab.clusters, c.tab.leats, c.tab.ctxs, c.tab.qps, c.tab.ports, c.tab.selects⟩⟩)) | skip)
    | (refine State.wl_keeps _ _ _ ?_; first | (apply State.onSelPart_keeps; intro p t; exact Keeps.upd rfl rfl rfl rfl rfl rfl rfl rfl rfl rfl (fun c => ⟨⟨c.mem.granary, c.mem.hbm, c.mem.pond, c.mem.tiles, c.mem.clusters⟩, ⟨c.tab.parts, NatMap.wf_set _ _ c.tab.stageObj, c.tab.stageLen, c.tab.weirs, c.tab.querns, c.tab.resolves, c.tab.tollFails, c.tab.testNext, c.tab.testResults, c.tab.tiles, c.tab.clusters, c.tab.leats, c.tab.ctxs, c.tab.qps, c.tab.ports, c.tab.selects⟩⟩)) | (apply State.onSelPart_keeps; intro p t; exact Keeps.upd rfl rfl rfl rfl rfl rfl rfl rfl rfl rfl (fun c => ⟨⟨c.mem.granary, c.mem.hbm, c.mem.pond, c.mem.tiles, c.mem.clusters⟩, ⟨c.tab.parts, c.tab.stageObj, NatMap.wf_set _ _ c.tab.stageLen, c.tab.weirs, c.tab.querns, c.tab.resolves, c.tab.tollFails, c.tab.testNext, c.tab.testResults, c.tab.tiles, c.tab.clusters, c.tab.leats, c.tab.ctxs, c.tab.qps, c.tab.ports, c.tab.selects⟩⟩)) | exact State.onSelPart_keeps _ _ _ (fun _ _ => State.modWeir_keeps ..) | exact State.onSelPart_keeps _ _ _ (fun _ _ => State.modPart_keeps ..)  | exact State.onSelPart_keeps _ _ _ (fun _ _ => State.onSelDie_keeps _ _ _ (fun _ _ => State.modQuern_keeps ..)) | exact State.modSec_keeps _ _ (fun _ h => h) | exact State.modLife_keeps _ _ (fun _ => Otp.Le.refl _) | exact State.modPwr_keeps _ _ (fun _ h => h) | exact State.modRas_keeps _ _ (fun _ h => h) | (apply State.onSelDie_keeps; intro d t; apply Keeps.trans ?_ (State.retarget_keeps ..); exact State.modPwr_keeps _ _ (fun _ h => h)) | exact State.modBoard_keeps .. | exact State.setPtpCtrl_keeps .. | exact State.writeCoreCtrl_keeps .. | exact State.onSelPort_keeps _ _ _ (fun _ _ => State.setPortCfg_keeps ..) | exact State.onSelPort_keeps _ _ _ (fun _ _ => State.setMacsec_keeps ..) | exact State.lcReset_keeps .. | exact State.bcResponse_keeps .. | exact State.fatalClear_keeps .. | exact (Keeps.upd rfl rfl rfl rfl rfl rfl rfl rfl rfl rfl (fun c => ⟨⟨c.mem.granary, c.mem.hbm, c.mem.pond, c.mem.tiles, c.mem.clusters⟩, ⟨c.tab.parts, c.tab.stageObj, c.tab.stageLen, c.tab.weirs, c.tab.querns, c.tab.resolves, c.tab.tollFails, c.tab.testNext, c.tab.testResults, c.tab.tiles, c.tab.clusters, c.tab.leats, c.tab.ctxs, c.tab.qps, c.tab.ports, c.tab.selects⟩⟩)) | skip)
    | skip
  all_goals try split
  all_goals
    first
    | with_reducible exact State.keep_keeps _
    | with_reducible exact RegKeeps.none _
    | exact State.ran_keeps _ _ (execCreate_keeps ..)
    | exact State.ran_keeps _ _ (execCtxLoad_keeps ..)
    | exact State.ran_keeps _ _ (execEvict_keeps ..)
    | exact State.ran_keeps _ _ (execCtxEnd_keeps ..)
    | exact State.ran_keeps _ _ (execDestroy_keeps ..)
    | exact State.done_keeps (State.lcCmd_keeps _ _ _ State.transition_keeps)
    | exact State.done_keeps (State.lcReset_keeps ..)
    | (refine State.done_keeps ?_; exact (Keeps.upd rfl rfl rfl rfl rfl rfl rfl rfl rfl rfl (fun c => ⟨⟨c.mem.granary, c.mem.hbm, c.mem.pond, c.mem.tiles, c.mem.clusters⟩, ⟨c.tab.parts, c.tab.stageObj, c.tab.stageLen, c.tab.weirs, c.tab.querns, c.tab.resolves, c.tab.tollFails, c.tab.testNext, c.tab.testResults, c.tab.tiles, c.tab.clusters, c.tab.leats, c.tab.ctxs, c.tab.qps, c.tab.ports, c.tab.selects⟩⟩)))
    | skip

theorem State.writePart_keeps (s : State) (rq : Req) (off : Nat) (v : Word64) : RegKeeps s (s.writePart rq off v) := by
  unfold State.writePart
  try dsimp only
  split
  all_goals
    first
    | with_reducible exact State.keep_keeps _
    | with_reducible exact RegKeeps.none _
    | with_reducible exact State.select_keeps ..
    | with_reducible exact State.writeLock_keeps ..
    | with_reducible exact State.portWl_keeps ..
    | with_reducible exact State.qpSet_keeps ..
    | (refine State.done_keeps ?_; first | (apply State.onSelPart_keeps; intro p t; exact Keeps.upd rfl rfl rfl rfl rfl rfl rfl rfl rfl rfl (fun c => ⟨⟨c.mem.granary, c.mem.hbm, c.mem.pond, c.mem.tiles, c.mem.clusters⟩, ⟨c.tab.parts, NatMap.wf_set _ _ c.tab.stageObj, c.tab.stageLen, c.tab.weirs, c.tab.querns, c.tab.resolves, c.tab.tollFails, c.tab.testNext, c.tab.testResults, c.tab.tiles, c.tab.clusters, c.tab.leats, c.tab.ctxs, c.tab.qps, c.tab.ports, c.tab.selects⟩⟩)) | (apply State.onSelPart_keeps; intro p t; exact Keeps.upd rfl rfl rfl rfl rfl rfl rfl rfl rfl rfl (fun c => ⟨⟨c.mem.granary, c.mem.hbm, c.mem.pond, c.mem.tiles, c.mem.clusters⟩, ⟨c.tab.parts, c.tab.stageObj, NatMap.wf_set _ _ c.tab.stageLen, c.tab.weirs, c.tab.querns, c.tab.resolves, c.tab.tollFails, c.tab.testNext, c.tab.testResults, c.tab.tiles, c.tab.clusters, c.tab.leats, c.tab.ctxs, c.tab.qps, c.tab.ports, c.tab.selects⟩⟩)) | exact State.onSelPart_keeps _ _ _ (fun _ _ => State.modWeir_keeps ..) | exact State.onSelPart_keeps _ _ _ (fun _ _ => State.modPart_keeps ..)  | exact State.onSelPart_keeps _ _ _ (fun _ _ => State.onSelDie_keeps _ _ _ (fun _ _ => State.modQuern_keeps ..)) | exact State.modSec_keeps _ _ (fun _ h => h) | exact State.modLife_keeps _ _ (fun _ => Otp.Le.refl _) | exact State.modPwr_keeps _ _ (fun _ h => h) | exact State.modRas_keeps _ _ (fun _ h => h) | (apply State.onSelDie_keeps; intro d t; apply Keeps.trans ?_ (State.retarget_keeps ..); exact State.modPwr_keeps _ _ (fun _ h => h)) | exact State.modBoard_keeps .. | exact State.setPtpCtrl_keeps .. | exact State.writeCoreCtrl_keeps .. | exact State.onSelPort_keeps _ _ _ (fun _ _ => State.setPortCfg_keeps ..) | exact State.onSelPort_keeps _ _ _ (fun _ _ => State.setMacsec_keeps ..) | exact State.lcReset_keeps .. | exact State.bcResponse_keeps .. | exact State.fatalClear_keeps .. | exact (Keeps.upd rfl rfl rfl rfl rfl rfl rfl rfl rfl rfl (fun c => ⟨⟨c.mem.granary, c.mem.hbm, c.mem.pond, c.mem.tiles, c.mem.clusters⟩, ⟨c.tab.parts, c.tab.stageObj, c.tab.stageLen, c.tab.weirs, c.tab.querns, c.tab.resolves, c.tab.tollFails, c.tab.testNext, c.tab.testResults, c.tab.tiles, c.tab.clusters, c.tab.leats, c.tab.ctxs, c.tab.qps, c.tab.ports, c.tab.selects⟩⟩)) | skip)
    | (refine State.wl_keeps _ _ _ ?_; first | (apply State.onSelPart_keeps; intro p t; exact Keeps.upd rfl rfl rfl rfl rfl rfl rfl rfl rfl rfl (fun c => ⟨⟨c.mem.granary, c.mem.hbm, c.mem.pond, c.mem.tiles, c.mem.clusters⟩, ⟨c.tab.parts, NatMap.wf_set _ _ c.tab.stageObj, c.tab.stageLen, c.tab.weirs, c.tab.querns, c.tab.resolves, c.tab.tollFails, c.tab.testNext, c.tab.testResults, c.tab.tiles, c.tab.clusters, c.tab.leats, c.tab.ctxs, c.tab.qps, c.tab.ports, c.tab.selects⟩⟩)) | (apply State.onSelPart_keeps; intro p t; exact Keeps.upd rfl rfl rfl rfl rfl rfl rfl rfl rfl rfl (fun c => ⟨⟨c.mem.granary, c.mem.hbm, c.mem.pond, c.mem.tiles, c.mem.clusters⟩, ⟨c.tab.parts, c.tab.stageObj, NatMap.wf_set _ _ c.tab.stageLen, c.tab.weirs, c.tab.querns, c.tab.resolves, c.tab.tollFails, c.tab.testNext, c.tab.testResults, c.tab.tiles, c.tab.clusters, c.tab.leats, c.tab.ctxs, c.tab.qps, c.tab.ports, c.tab.selects⟩⟩)) | exact State.onSelPart_keeps _ _ _ (fun _ _ => State.modWeir_keeps ..) | exact State.onSelPart_keeps _ _ _ (fun _ _ => State.modPart_keeps ..)  | exact State.onSelPart_keeps _ _ _ (fun _ _ => State.onSelDie_keeps _ _ _ (fun _ _ => State.modQuern_keeps ..)) | exact State.modSec_keeps _ _ (fun _ h => h) | exact State.modLife_keeps _ _ (fun _ => Otp.Le.refl _) | exact State.modPwr_keeps _ _ (fun _ h => h) | exact State.modRas_keeps _ _ (fun _ h => h) | (apply State.onSelDie_keeps; intro d t; apply Keeps.trans ?_ (State.retarget_keeps ..); exact State.modPwr_keeps _ _ (fun _ h => h)) | exact State.modBoard_keeps .. | exact State.setPtpCtrl_keeps .. | exact State.writeCoreCtrl_keeps .. | exact State.onSelPort_keeps _ _ _ (fun _ _ => State.setPortCfg_keeps ..) | exact State.onSelPort_keeps _ _ _ (fun _ _ => State.setMacsec_keeps ..) | exact State.lcReset_keeps .. | exact State.bcResponse_keeps .. | exact State.fatalClear_keeps .. | exact (Keeps.upd rfl rfl rfl rfl rfl rfl rfl rfl rfl rfl (fun c => ⟨⟨c.mem.granary, c.mem.hbm, c.mem.pond, c.mem.tiles, c.mem.clusters⟩, ⟨c.tab.parts, c.tab.stageObj, c.tab.stageLen, c.tab.weirs, c.tab.querns, c.tab.resolves, c.tab.tollFails, c.tab.testNext, c.tab.testResults, c.tab.tiles, c.tab.clusters, c.tab.leats, c.tab.ctxs, c.tab.qps, c.tab.ports, c.tab.selects⟩⟩)) | skip)
    | skip
  all_goals try split
  all_goals
    first
    | with_reducible exact State.keep_keeps _
    | with_reducible exact RegKeeps.none _
    | exact State.ran_keeps _ _ (execStage_keeps ..)
    | exact State.ran_keeps _ _ (execBind_keeps ..)
    | exact State.ran_keeps _ _ (execUnbind_keeps ..)
    | exact State.ran_keeps _ _ (execRebind_keeps ..)
    | exact State.ran_keeps _ _ (execDiscard_keeps ..)
    | exact State.done_keeps (State.lcCmd_keeps _ _ _ State.transition_keeps)
    | exact State.done_keeps (State.lcReset_keeps ..)
    | (refine State.done_keeps ?_; exact (Keeps.upd rfl rfl rfl rfl rfl rfl rfl rfl rfl rfl (fun c => ⟨⟨c.mem.granary, c.mem.hbm, c.mem.pond, c.mem.tiles, c.mem.clusters⟩, ⟨c.tab.parts, c.tab.stageObj, c.tab.stageLen, c.tab.weirs, c.tab.querns, c.tab.resolves, c.tab.tollFails, c.tab.testNext, c.tab.testResults, c.tab.tiles, c.tab.clusters, c.tab.leats, c.tab.ctxs, c.tab.qps, c.tab.ports, c.tab.selects⟩⟩)))
    | skip

theorem State.writeTile_keeps (s : State) (rq : Req) (off : Nat) (v : Word64) : RegKeeps s (s.writeTile rq off v) := by
  unfold State.writeTile
  try dsimp only
  split
  all_goals
    first
    | with_reducible exact State.keep_keeps _
    | with_reducible exact RegKeeps.none _
    | with_reducible exact State.select_keeps ..
    | with_reducible exact State.writeLock_keeps ..
    | with_reducible exact State.portWl_keeps ..
    | with_reducible exact State.qpSet_keeps ..
    | (refine State.done_keeps ?_; first | (apply State.onSelPart_keeps; intro p t; exact Keeps.upd rfl rfl rfl rfl rfl rfl rfl rfl rfl rfl (fun c => ⟨⟨c.mem.granary, c.mem.hbm, c.mem.pond, c.mem.tiles, c.mem.clusters⟩, ⟨c.tab.parts, NatMap.wf_set _ _ c.tab.stageObj, c.tab.stageLen, c.tab.weirs, c.tab.querns, c.tab.resolves, c.tab.tollFails, c.tab.testNext, c.tab.testResults, c.tab.tiles, c.tab.clusters, c.tab.leats, c.tab.ctxs, c.tab.qps, c.tab.ports, c.tab.selects⟩⟩)) | (apply State.onSelPart_keeps; intro p t; exact Keeps.upd rfl rfl rfl rfl rfl rfl rfl rfl rfl rfl (fun c => ⟨⟨c.mem.granary, c.mem.hbm, c.mem.pond, c.mem.tiles, c.mem.clusters⟩, ⟨c.tab.parts, c.tab.stageObj, NatMap.wf_set _ _ c.tab.stageLen, c.tab.weirs, c.tab.querns, c.tab.resolves, c.tab.tollFails, c.tab.testNext, c.tab.testResults, c.tab.tiles, c.tab.clusters, c.tab.leats, c.tab.ctxs, c.tab.qps, c.tab.ports, c.tab.selects⟩⟩)) | exact State.onSelPart_keeps _ _ _ (fun _ _ => State.modWeir_keeps ..) | exact State.onSelPart_keeps _ _ _ (fun _ _ => State.modPart_keeps ..)  | exact State.onSelPart_keeps _ _ _ (fun _ _ => State.onSelDie_keeps _ _ _ (fun _ _ => State.modQuern_keeps ..)) | exact State.modSec_keeps _ _ (fun _ h => h) | exact State.modLife_keeps _ _ (fun _ => Otp.Le.refl _) | exact State.modPwr_keeps _ _ (fun _ h => h) | exact State.modRas_keeps _ _ (fun _ h => h) | (apply State.onSelDie_keeps; intro d t; apply Keeps.trans ?_ (State.retarget_keeps ..); exact State.modPwr_keeps _ _ (fun _ h => h)) | exact State.modBoard_keeps .. | exact State.setPtpCtrl_keeps .. | exact State.writeCoreCtrl_keeps .. | exact State.onSelPort_keeps _ _ _ (fun _ _ => State.setPortCfg_keeps ..) | exact State.onSelPort_keeps _ _ _ (fun _ _ => State.setMacsec_keeps ..) | exact State.lcReset_keeps .. | exact State.bcResponse_keeps .. | exact State.fatalClear_keeps .. | exact (Keeps.upd rfl rfl rfl rfl rfl rfl rfl rfl rfl rfl (fun c => ⟨⟨c.mem.granary, c.mem.hbm, c.mem.pond, c.mem.tiles, c.mem.clusters⟩, ⟨c.tab.parts, c.tab.stageObj, c.tab.stageLen, c.tab.weirs, c.tab.querns, c.tab.resolves, c.tab.tollFails, c.tab.testNext, c.tab.testResults, c.tab.tiles, c.tab.clusters, c.tab.leats, c.tab.ctxs, c.tab.qps, c.tab.ports, c.tab.selects⟩⟩)) | skip)
    | (refine State.wl_keeps _ _ _ ?_; first | (apply State.onSelPart_keeps; intro p t; exact Keeps.upd rfl rfl rfl rfl rfl rfl rfl rfl rfl rfl (fun c => ⟨⟨c.mem.granary, c.mem.hbm, c.mem.pond, c.mem.tiles, c.mem.clusters⟩, ⟨c.tab.parts, NatMap.wf_set _ _ c.tab.stageObj, c.tab.stageLen, c.tab.weirs, c.tab.querns, c.tab.resolves, c.tab.tollFails, c.tab.testNext, c.tab.testResults, c.tab.tiles, c.tab.clusters, c.tab.leats, c.tab.ctxs, c.tab.qps, c.tab.ports, c.tab.selects⟩⟩)) | (apply State.onSelPart_keeps; intro p t; exact Keeps.upd rfl rfl rfl rfl rfl rfl rfl rfl rfl rfl (fun c => ⟨⟨c.mem.granary, c.mem.hbm, c.mem.pond, c.mem.tiles, c.mem.clusters⟩, ⟨c.tab.parts, c.tab.stageObj, NatMap.wf_set _ _ c.tab.stageLen, c.tab.weirs, c.tab.querns, c.tab.resolves, c.tab.tollFails, c.tab.testNext, c.tab.testResults, c.tab.tiles, c.tab.clusters, c.tab.leats, c.tab.ctxs, c.tab.qps, c.tab.ports, c.tab.selects⟩⟩)) | exact State.onSelPart_keeps _ _ _ (fun _ _ => State.modWeir_keeps ..) | exact State.onSelPart_keeps _ _ _ (fun _ _ => State.modPart_keeps ..)  | exact State.onSelPart_keeps _ _ _ (fun _ _ => State.onSelDie_keeps _ _ _ (fun _ _ => State.modQuern_keeps ..)) | exact State.modSec_keeps _ _ (fun _ h => h) | exact State.modLife_keeps _ _ (fun _ => Otp.Le.refl _) | exact State.modPwr_keeps _ _ (fun _ h => h) | exact State.modRas_keeps _ _ (fun _ h => h) | (apply State.onSelDie_keeps; intro d t; apply Keeps.trans ?_ (State.retarget_keeps ..); exact State.modPwr_keeps _ _ (fun _ h => h)) | exact State.modBoard_keeps .. | exact State.setPtpCtrl_keeps .. | exact State.writeCoreCtrl_keeps .. | exact State.onSelPort_keeps _ _ _ (fun _ _ => State.setPortCfg_keeps ..) | exact State.onSelPort_keeps _ _ _ (fun _ _ => State.setMacsec_keeps ..) | exact State.lcReset_keeps .. | exact State.bcResponse_keeps .. | exact State.fatalClear_keeps .. | exact (Keeps.upd rfl rfl rfl rfl rfl rfl rfl rfl rfl rfl (fun c => ⟨⟨c.mem.granary, c.mem.hbm, c.mem.pond, c.mem.tiles, c.mem.clusters⟩, ⟨c.tab.parts, c.tab.stageObj, c.tab.stageLen, c.tab.weirs, c.tab.querns, c.tab.resolves, c.tab.tollFails, c.tab.testNext, c.tab.testResults, c.tab.tiles, c.tab.clusters, c.tab.leats, c.tab.ctxs, c.tab.qps, c.tab.ports, c.tab.selects⟩⟩)) | skip)
    | skip
  all_goals try split
  all_goals
    first
    | with_reducible exact State.keep_keeps _
    | with_reducible exact RegKeeps.none _
    | exact State.done_keeps (State.lcCmd_keeps _ _ _ State.transition_keeps)
    | exact State.done_keeps (State.lcReset_keeps ..)
    | (refine State.done_keeps ?_; exact (Keeps.upd rfl rfl rfl rfl rfl rfl rfl rfl rfl rfl (fun c => ⟨⟨c.mem.granary, c.mem.hbm, c.mem.pond, c.mem.tiles, c.mem.clusters⟩, ⟨c.tab.parts, c.tab.stageObj, c.tab.stageLen, c.tab.weirs, c.tab.querns, c.tab.resolves, c.tab.tollFails, c.tab.testNext, c.tab.testResults, c.tab.tiles, c.tab.clusters, c.tab.leats, c.tab.ctxs, c.tab.qps, c.tab.ports, c.tab.selects⟩⟩)))
    | skip

theorem State.writeQrn_keeps (s : State) (rq : Req) (off : Nat) (v : Word64) : RegKeeps s (s.writeQrn rq off v) := by
  unfold State.writeQrn
  try dsimp only
  split
  all_goals
    first
    | with_reducible exact State.keep_keeps _
    | with_reducible exact RegKeeps.none _
    | with_reducible exact State.select_keeps ..
    | with_reducible exact State.writeLock_keeps ..
    | with_reducible exact State.portWl_keeps ..
    | with_reducible exact State.qpSet_keeps ..
    | (refine State.done_keeps ?_; first | (apply State.onSelPart_keeps; intro p t; exact Keeps.upd rfl rfl rfl rfl rfl rfl rfl rfl rfl rfl (fun c => ⟨⟨c.mem.granary, c.mem.hbm, c.mem.pond, c.mem.tiles, c.mem.clusters⟩, ⟨c.tab.parts, NatMap.wf_set _ _ c.tab.stageObj, c.tab.stageLen, c.tab.weirs, c.tab.querns, c.tab.resolves, c.tab.tollFails, c.tab.testNext, c.tab.testResults, c.tab.tiles, c.tab.clusters, c.tab.leats, c.tab.ctxs, c.tab.qps, c.tab.ports, c.tab.selects⟩⟩)) | (apply State.onSelPart_keeps; intro p t; exact Keeps.upd rfl rfl rfl rfl rfl rfl rfl rfl rfl rfl (fun c => ⟨⟨c.mem.granary, c.mem.hbm, c.mem.pond, c.mem.tiles, c.mem.clusters⟩, ⟨c.tab.parts, c.tab.stageObj, NatMap.wf_set _ _ c.tab.stageLen, c.tab.weirs, c.tab.querns, c.tab.resolves, c.tab.tollFails, c.tab.testNext, c.tab.testResults, c.tab.tiles, c.tab.clusters, c.tab.leats, c.tab.ctxs, c.tab.qps, c.tab.ports, c.tab.selects⟩⟩)) | exact State.onSelPart_keeps _ _ _ (fun _ _ => State.modWeir_keeps ..) | exact State.onSelPart_keeps _ _ _ (fun _ _ => State.modPart_keeps ..)  | exact State.onSelPart_keeps _ _ _ (fun _ _ => State.onSelDie_keeps _ _ _ (fun _ _ => State.modQuern_keeps ..)) | exact State.modSec_keeps _ _ (fun _ h => h) | exact State.modLife_keeps _ _ (fun _ => Otp.Le.refl _) | exact State.modPwr_keeps _ _ (fun _ h => h) | exact State.modRas_keeps _ _ (fun _ h => h) | (apply State.onSelDie_keeps; intro d t; apply Keeps.trans ?_ (State.retarget_keeps ..); exact State.modPwr_keeps _ _ (fun _ h => h)) | exact State.modBoard_keeps .. | exact State.setPtpCtrl_keeps .. | exact State.writeCoreCtrl_keeps .. | exact State.onSelPort_keeps _ _ _ (fun _ _ => State.setPortCfg_keeps ..) | exact State.onSelPort_keeps _ _ _ (fun _ _ => State.setMacsec_keeps ..) | exact State.lcReset_keeps .. | exact State.bcResponse_keeps .. | exact State.fatalClear_keeps .. | exact (Keeps.upd rfl rfl rfl rfl rfl rfl rfl rfl rfl rfl (fun c => ⟨⟨c.mem.granary, c.mem.hbm, c.mem.pond, c.mem.tiles, c.mem.clusters⟩, ⟨c.tab.parts, c.tab.stageObj, c.tab.stageLen, c.tab.weirs, c.tab.querns, c.tab.resolves, c.tab.tollFails, c.tab.testNext, c.tab.testResults, c.tab.tiles, c.tab.clusters, c.tab.leats, c.tab.ctxs, c.tab.qps, c.tab.ports, c.tab.selects⟩⟩)) | skip)
    | (refine State.wl_keeps _ _ _ ?_; first | (apply State.onSelPart_keeps; intro p t; exact Keeps.upd rfl rfl rfl rfl rfl rfl rfl rfl rfl rfl (fun c => ⟨⟨c.mem.granary, c.mem.hbm, c.mem.pond, c.mem.tiles, c.mem.clusters⟩, ⟨c.tab.parts, NatMap.wf_set _ _ c.tab.stageObj, c.tab.stageLen, c.tab.weirs, c.tab.querns, c.tab.resolves, c.tab.tollFails, c.tab.testNext, c.tab.testResults, c.tab.tiles, c.tab.clusters, c.tab.leats, c.tab.ctxs, c.tab.qps, c.tab.ports, c.tab.selects⟩⟩)) | (apply State.onSelPart_keeps; intro p t; exact Keeps.upd rfl rfl rfl rfl rfl rfl rfl rfl rfl rfl (fun c => ⟨⟨c.mem.granary, c.mem.hbm, c.mem.pond, c.mem.tiles, c.mem.clusters⟩, ⟨c.tab.parts, c.tab.stageObj, NatMap.wf_set _ _ c.tab.stageLen, c.tab.weirs, c.tab.querns, c.tab.resolves, c.tab.tollFails, c.tab.testNext, c.tab.testResults, c.tab.tiles, c.tab.clusters, c.tab.leats, c.tab.ctxs, c.tab.qps, c.tab.ports, c.tab.selects⟩⟩)) | exact State.onSelPart_keeps _ _ _ (fun _ _ => State.modWeir_keeps ..) | exact State.onSelPart_keeps _ _ _ (fun _ _ => State.modPart_keeps ..)  | exact State.onSelPart_keeps _ _ _ (fun _ _ => State.onSelDie_keeps _ _ _ (fun _ _ => State.modQuern_keeps ..)) | exact State.modSec_keeps _ _ (fun _ h => h) | exact State.modLife_keeps _ _ (fun _ => Otp.Le.refl _) | exact State.modPwr_keeps _ _ (fun _ h => h) | exact State.modRas_keeps _ _ (fun _ h => h) | (apply State.onSelDie_keeps; intro d t; apply Keeps.trans ?_ (State.retarget_keeps ..); exact State.modPwr_keeps _ _ (fun _ h => h)) | exact State.modBoard_keeps .. | exact State.setPtpCtrl_keeps .. | exact State.writeCoreCtrl_keeps .. | exact State.onSelPort_keeps _ _ _ (fun _ _ => State.setPortCfg_keeps ..) | exact State.onSelPort_keeps _ _ _ (fun _ _ => State.setMacsec_keeps ..) | exact State.lcReset_keeps .. | exact State.bcResponse_keeps .. | exact State.fatalClear_keeps .. | exact (Keeps.upd rfl rfl rfl rfl rfl rfl rfl rfl rfl rfl (fun c => ⟨⟨c.mem.granary, c.mem.hbm, c.mem.pond, c.mem.tiles, c.mem.clusters⟩, ⟨c.tab.parts, c.tab.stageObj, c.tab.stageLen, c.tab.weirs, c.tab.querns, c.tab.resolves, c.tab.tollFails, c.tab.testNext, c.tab.testResults, c.tab.tiles, c.tab.clusters, c.tab.leats, c.tab.ctxs, c.tab.qps, c.tab.ports, c.tab.selects⟩⟩)) | skip)
    | skip
  all_goals try split
  all_goals
    first
    | with_reducible exact State.keep_keeps _
    | with_reducible exact RegKeeps.none _
    | exact State.ran_keeps _ _ (execQrnLoad_keeps ..)
    | exact State.ran_keeps _ _ (execQrnUnload_keeps ..)
    | exact State.done_keeps (State.lcCmd_keeps _ _ _ State.transition_keeps)
    | exact State.done_keeps (State.lcReset_keeps ..)
    | (refine State.done_keeps ?_; exact (Keeps.upd rfl rfl rfl rfl rfl rfl rfl rfl rfl rfl (fun c => ⟨⟨c.mem.granary, c.mem.hbm, c.mem.pond, c.mem.tiles, c.mem.clusters⟩, ⟨c.tab.parts, c.tab.stageObj, c.tab.stageLen, c.tab.weirs, c.tab.querns, c.tab.resolves, c.tab.tollFails, c.tab.testNext, c.tab.testResults, c.tab.tiles, c.tab.clusters, c.tab.leats, c.tab.ctxs, c.tab.qps, c.tab.ports, c.tab.selects⟩⟩)))
    | skip

theorem State.writeMem_keeps (s : State) (rq : Req) (off : Nat) (v : Word64) : RegKeeps s (s.writeMem rq off v) := by
  unfold State.writeMem
  try dsimp only
  split
  all_goals
    first
    | with_reducible exact State.keep_keeps _
    | with_reducible exact RegKeeps.none _
    | with_reducible exact State.select_keeps ..
    | with_reducible exact State.writeLock_keeps ..
    | with_reducible exact State.portWl_keeps ..
    | with_reducible exact State.qpSet_keeps ..
    | (refine State.done_keeps ?_; first | (apply State.onSelPart_keeps; intro p t; exact Keeps.upd rfl rfl rfl rfl rfl rfl rfl rfl rfl rfl (fun c => ⟨⟨c.mem.granary, c.mem.hbm, c.mem.pond, c.mem.tiles, c.mem.clusters⟩, ⟨c.tab.parts, NatMap.wf_set _ _ c.tab.stageObj, c.tab.stageLen, c.tab.weirs, c.tab.querns, c.tab.resolves, c.tab.tollFails, c.tab.testNext, c.tab.testResults, c.tab.tiles, c.tab.clusters, c.tab.leats, c.tab.ctxs, c.tab.qps, c.tab.ports, c.tab.selects⟩⟩)) | (apply State.onSelPart_keeps; intro p t; exact Keeps.upd rfl rfl rfl rfl rfl rfl rfl rfl rfl rfl (fun c => ⟨⟨c.mem.granary, c.mem.hbm, c.mem.pond, c.mem.tiles, c.mem.clusters⟩, ⟨c.tab.parts, c.tab.stageObj, NatMap.wf_set _ _ c.tab.stageLen, c.tab.weirs, c.tab.querns, c.tab.resolves, c.tab.tollFails, c.tab.testNext, c.tab.testResults, c.tab.tiles, c.tab.clusters, c.tab.leats, c.tab.ctxs, c.tab.qps, c.tab.ports, c.tab.selects⟩⟩)) | exact State.onSelPart_keeps _ _ _ (fun _ _ => State.modWeir_keeps ..) | exact State.onSelPart_keeps _ _ _ (fun _ _ => State.modPart_keeps ..)  | exact State.onSelPart_keeps _ _ _ (fun _ _ => State.onSelDie_keeps _ _ _ (fun _ _ => State.modQuern_keeps ..)) | exact State.modSec_keeps _ _ (fun _ h => h) | exact State.modLife_keeps _ _ (fun _ => Otp.Le.refl _) | exact State.modPwr_keeps _ _ (fun _ h => h) | exact State.modRas_keeps _ _ (fun _ h => h) | (apply State.onSelDie_keeps; intro d t; apply Keeps.trans ?_ (State.retarget_keeps ..); exact State.modPwr_keeps _ _ (fun _ h => h)) | exact State.modBoard_keeps .. | exact State.setPtpCtrl_keeps .. | exact State.writeCoreCtrl_keeps .. | exact State.onSelPort_keeps _ _ _ (fun _ _ => State.setPortCfg_keeps ..) | exact State.onSelPort_keeps _ _ _ (fun _ _ => State.setMacsec_keeps ..) | exact State.lcReset_keeps .. | exact State.bcResponse_keeps .. | exact State.fatalClear_keeps .. | exact (Keeps.upd rfl rfl rfl rfl rfl rfl rfl rfl rfl rfl (fun c => ⟨⟨c.mem.granary, c.mem.hbm, c.mem.pond, c.mem.tiles, c.mem.clusters⟩, ⟨c.tab.parts, c.tab.stageObj, c.tab.stageLen, c.tab.weirs, c.tab.querns, c.tab.resolves, c.tab.tollFails, c.tab.testNext, c.tab.testResults, c.tab.tiles, c.tab.clusters, c.tab.leats, c.tab.ctxs, c.tab.qps, c.tab.ports, c.tab.selects⟩⟩)) | skip)
    | (refine State.wl_keeps _ _ _ ?_; first | (apply State.onSelPart_keeps; intro p t; exact Keeps.upd rfl rfl rfl rfl rfl rfl rfl rfl rfl rfl (fun c => ⟨⟨c.mem.granary, c.mem.hbm, c.mem.pond, c.mem.tiles, c.mem.clusters⟩, ⟨c.tab.parts, NatMap.wf_set _ _ c.tab.stageObj, c.tab.stageLen, c.tab.weirs, c.tab.querns, c.tab.resolves, c.tab.tollFails, c.tab.testNext, c.tab.testResults, c.tab.tiles, c.tab.clusters, c.tab.leats, c.tab.ctxs, c.tab.qps, c.tab.ports, c.tab.selects⟩⟩)) | (apply State.onSelPart_keeps; intro p t; exact Keeps.upd rfl rfl rfl rfl rfl rfl rfl rfl rfl rfl (fun c => ⟨⟨c.mem.granary, c.mem.hbm, c.mem.pond, c.mem.tiles, c.mem.clusters⟩, ⟨c.tab.parts, c.tab.stageObj, NatMap.wf_set _ _ c.tab.stageLen, c.tab.weirs, c.tab.querns, c.tab.resolves, c.tab.tollFails, c.tab.testNext, c.tab.testResults, c.tab.tiles, c.tab.clusters, c.tab.leats, c.tab.ctxs, c.tab.qps, c.tab.ports, c.tab.selects⟩⟩)) | exact State.onSelPart_keeps _ _ _ (fun _ _ => State.modWeir_keeps ..) | exact State.onSelPart_keeps _ _ _ (fun _ _ => State.modPart_keeps ..)  | exact State.onSelPart_keeps _ _ _ (fun _ _ => State.onSelDie_keeps _ _ _ (fun _ _ => State.modQuern_keeps ..)) | exact State.modSec_keeps _ _ (fun _ h => h) | exact State.modLife_keeps _ _ (fun _ => Otp.Le.refl _) | exact State.modPwr_keeps _ _ (fun _ h => h) | exact State.modRas_keeps _ _ (fun _ h => h) | (apply State.onSelDie_keeps; intro d t; apply Keeps.trans ?_ (State.retarget_keeps ..); exact State.modPwr_keeps _ _ (fun _ h => h)) | exact State.modBoard_keeps .. | exact State.setPtpCtrl_keeps .. | exact State.writeCoreCtrl_keeps .. | exact State.onSelPort_keeps _ _ _ (fun _ _ => State.setPortCfg_keeps ..) | exact State.onSelPort_keeps _ _ _ (fun _ _ => State.setMacsec_keeps ..) | exact State.lcReset_keeps .. | exact State.bcResponse_keeps .. | exact State.fatalClear_keeps .. | exact (Keeps.upd rfl rfl rfl rfl rfl rfl rfl rfl rfl rfl (fun c => ⟨⟨c.mem.granary, c.mem.hbm, c.mem.pond, c.mem.tiles, c.mem.clusters⟩, ⟨c.tab.parts, c.tab.stageObj, c.tab.stageLen, c.tab.weirs, c.tab.querns, c.tab.resolves, c.tab.tollFails, c.tab.testNext, c.tab.testResults, c.tab.tiles, c.tab.clusters, c.tab.leats, c.tab.ctxs, c.tab.qps, c.tab.ports, c.tab.selects⟩⟩)) | skip)
    | skip
  all_goals try split
  all_goals
    first
    | with_reducible exact State.keep_keeps _
    | with_reducible exact RegKeeps.none _
    | exact State.ran_keeps _ _ (execMemFree_keeps ..)
    | exact State.done_keeps (State.lcCmd_keeps _ _ _ State.transition_keeps)
    | exact State.done_keeps (State.lcReset_keeps ..)
    | (refine State.done_keeps ?_; exact (Keeps.upd rfl rfl rfl rfl rfl rfl rfl rfl rfl rfl (fun c => ⟨⟨c.mem.granary, c.mem.hbm, c.mem.pond, c.mem.tiles, c.mem.clusters⟩, ⟨c.tab.parts, c.tab.stageObj, c.tab.stageLen, c.tab.weirs, c.tab.querns, c.tab.resolves, c.tab.tollFails, c.tab.testNext, c.tab.testResults, c.tab.tiles, c.tab.clusters, c.tab.leats, c.tab.ctxs, c.tab.qps, c.tab.ports, c.tab.selects⟩⟩)))
    | skip

theorem State.writeMce_keeps (s : State) (rq : Req) (off : Nat) (v : Word64) : RegKeeps s (s.writeMce rq off v) := by
  unfold State.writeMce
  try dsimp only
  split
  all_goals
    first
    | with_reducible exact State.keep_keeps _
    | with_reducible exact RegKeeps.none _
    | with_reducible exact State.select_keeps ..
    | with_reducible exact State.writeLock_keeps ..
    | with_reducible exact State.portWl_keeps ..
    | with_reducible exact State.qpSet_keeps ..
    | (refine State.done_keeps ?_; first | (apply State.onSelPart_keeps; intro p t; exact Keeps.upd rfl rfl rfl rfl rfl rfl rfl rfl rfl rfl (fun c => ⟨⟨c.mem.granary, c.mem.hbm, c.mem.pond, c.mem.tiles, c.mem.clusters⟩, ⟨c.tab.parts, NatMap.wf_set _ _ c.tab.stageObj, c.tab.stageLen, c.tab.weirs, c.tab.querns, c.tab.resolves, c.tab.tollFails, c.tab.testNext, c.tab.testResults, c.tab.tiles, c.tab.clusters, c.tab.leats, c.tab.ctxs, c.tab.qps, c.tab.ports, c.tab.selects⟩⟩)) | (apply State.onSelPart_keeps; intro p t; exact Keeps.upd rfl rfl rfl rfl rfl rfl rfl rfl rfl rfl (fun c => ⟨⟨c.mem.granary, c.mem.hbm, c.mem.pond, c.mem.tiles, c.mem.clusters⟩, ⟨c.tab.parts, c.tab.stageObj, NatMap.wf_set _ _ c.tab.stageLen, c.tab.weirs, c.tab.querns, c.tab.resolves, c.tab.tollFails, c.tab.testNext, c.tab.testResults, c.tab.tiles, c.tab.clusters, c.tab.leats, c.tab.ctxs, c.tab.qps, c.tab.ports, c.tab.selects⟩⟩)) | exact State.onSelPart_keeps _ _ _ (fun _ _ => State.modWeir_keeps ..) | exact State.onSelPart_keeps _ _ _ (fun _ _ => State.modPart_keeps ..)  | exact State.onSelPart_keeps _ _ _ (fun _ _ => State.onSelDie_keeps _ _ _ (fun _ _ => State.modQuern_keeps ..)) | exact State.modSec_keeps _ _ (fun _ h => h) | exact State.modLife_keeps _ _ (fun _ => Otp.Le.refl _) | exact State.modPwr_keeps _ _ (fun _ h => h) | exact State.modRas_keeps _ _ (fun _ h => h) | (apply State.onSelDie_keeps; intro d t; apply Keeps.trans ?_ (State.retarget_keeps ..); exact State.modPwr_keeps _ _ (fun _ h => h)) | exact State.modBoard_keeps .. | exact State.setPtpCtrl_keeps .. | exact State.writeCoreCtrl_keeps .. | exact State.onSelPort_keeps _ _ _ (fun _ _ => State.setPortCfg_keeps ..) | exact State.onSelPort_keeps _ _ _ (fun _ _ => State.setMacsec_keeps ..) | exact State.lcReset_keeps .. | exact State.bcResponse_keeps .. | exact State.fatalClear_keeps .. | exact (Keeps.upd rfl rfl rfl rfl rfl rfl rfl rfl rfl rfl (fun c => ⟨⟨c.mem.granary, c.mem.hbm, c.mem.pond, c.mem.tiles, c.mem.clusters⟩, ⟨c.tab.parts, c.tab.stageObj, c.tab.stageLen, c.tab.weirs, c.tab.querns, c.tab.resolves, c.tab.tollFails, c.tab.testNext, c.tab.testResults, c.tab.tiles, c.tab.clusters, c.tab.leats, c.tab.ctxs, c.tab.qps, c.tab.ports, c.tab.selects⟩⟩)) | skip)
    | (refine State.wl_keeps _ _ _ ?_; first | (apply State.onSelPart_keeps; intro p t; exact Keeps.upd rfl rfl rfl rfl rfl rfl rfl rfl rfl rfl (fun c => ⟨⟨c.mem.granary, c.mem.hbm, c.mem.pond, c.mem.tiles, c.mem.clusters⟩, ⟨c.tab.parts, NatMap.wf_set _ _ c.tab.stageObj, c.tab.stageLen, c.tab.weirs, c.tab.querns, c.tab.resolves, c.tab.tollFails, c.tab.testNext, c.tab.testResults, c.tab.tiles, c.tab.clusters, c.tab.leats, c.tab.ctxs, c.tab.qps, c.tab.ports, c.tab.selects⟩⟩)) | (apply State.onSelPart_keeps; intro p t; exact Keeps.upd rfl rfl rfl rfl rfl rfl rfl rfl rfl rfl (fun c => ⟨⟨c.mem.granary, c.mem.hbm, c.mem.pond, c.mem.tiles, c.mem.clusters⟩, ⟨c.tab.parts, c.tab.stageObj, NatMap.wf_set _ _ c.tab.stageLen, c.tab.weirs, c.tab.querns, c.tab.resolves, c.tab.tollFails, c.tab.testNext, c.tab.testResults, c.tab.tiles, c.tab.clusters, c.tab.leats, c.tab.ctxs, c.tab.qps, c.tab.ports, c.tab.selects⟩⟩)) | exact State.onSelPart_keeps _ _ _ (fun _ _ => State.modWeir_keeps ..) | exact State.onSelPart_keeps _ _ _ (fun _ _ => State.modPart_keeps ..)  | exact State.onSelPart_keeps _ _ _ (fun _ _ => State.onSelDie_keeps _ _ _ (fun _ _ => State.modQuern_keeps ..)) | exact State.modSec_keeps _ _ (fun _ h => h) | exact State.modLife_keeps _ _ (fun _ => Otp.Le.refl _) | exact State.modPwr_keeps _ _ (fun _ h => h) | exact State.modRas_keeps _ _ (fun _ h => h) | (apply State.onSelDie_keeps; intro d t; apply Keeps.trans ?_ (State.retarget_keeps ..); exact State.modPwr_keeps _ _ (fun _ h => h)) | exact State.modBoard_keeps .. | exact State.setPtpCtrl_keeps .. | exact State.writeCoreCtrl_keeps .. | exact State.onSelPort_keeps _ _ _ (fun _ _ => State.setPortCfg_keeps ..) | exact State.onSelPort_keeps _ _ _ (fun _ _ => State.setMacsec_keeps ..) | exact State.lcReset_keeps .. | exact State.bcResponse_keeps .. | exact State.fatalClear_keeps .. | exact (Keeps.upd rfl rfl rfl rfl rfl rfl rfl rfl rfl rfl (fun c => ⟨⟨c.mem.granary, c.mem.hbm, c.mem.pond, c.mem.tiles, c.mem.clusters⟩, ⟨c.tab.parts, c.tab.stageObj, c.tab.stageLen, c.tab.weirs, c.tab.querns, c.tab.resolves, c.tab.tollFails, c.tab.testNext, c.tab.testResults, c.tab.tiles, c.tab.clusters, c.tab.leats, c.tab.ctxs, c.tab.qps, c.tab.ports, c.tab.selects⟩⟩)) | skip)
    | skip
  all_goals try split
  all_goals
    first
    | with_reducible exact State.keep_keeps _
    | with_reducible exact RegKeeps.none _
    | exact State.done_keeps (State.lcCmd_keeps _ _ _ State.transition_keeps)
    | exact State.done_keeps (State.lcReset_keeps ..)
    | (refine State.done_keeps ?_; exact (Keeps.upd rfl rfl rfl rfl rfl rfl rfl rfl rfl rfl (fun c => ⟨⟨c.mem.granary, c.mem.hbm, c.mem.pond, c.mem.tiles, c.mem.clusters⟩, ⟨c.tab.parts, c.tab.stageObj, c.tab.stageLen, c.tab.weirs, c.tab.querns, c.tab.resolves, c.tab.tollFails, c.tab.testNext, c.tab.testResults, c.tab.tiles, c.tab.clusters, c.tab.leats, c.tab.ctxs, c.tab.qps, c.tab.ports, c.tab.selects⟩⟩)))
    | skip

theorem State.writeEth_keeps (s : State) (rq : Req) (off : Nat) (v : Word64) : RegKeeps s (s.writeEth rq off v) := by
  unfold State.writeEth
  try dsimp only
  split
  all_goals
    first
    | with_reducible exact State.keep_keeps _
    | with_reducible exact RegKeeps.none _
    | with_reducible exact State.select_keeps ..
    | with_reducible exact State.writeLock_keeps ..
    | with_reducible exact State.portWl_keeps ..
    | with_reducible exact State.qpSet_keeps ..
    | (refine State.done_keeps ?_; first | (apply State.onSelPart_keeps; intro p t; exact Keeps.upd rfl rfl rfl rfl rfl rfl rfl rfl rfl rfl (fun c => ⟨⟨c.mem.granary, c.mem.hbm, c.mem.pond, c.mem.tiles, c.mem.clusters⟩, ⟨c.tab.parts, NatMap.wf_set _ _ c.tab.stageObj, c.tab.stageLen, c.tab.weirs, c.tab.querns, c.tab.resolves, c.tab.tollFails, c.tab.testNext, c.tab.testResults, c.tab.tiles, c.tab.clusters, c.tab.leats, c.tab.ctxs, c.tab.qps, c.tab.ports, c.tab.selects⟩⟩)) | (apply State.onSelPart_keeps; intro p t; exact Keeps.upd rfl rfl rfl rfl rfl rfl rfl rfl rfl rfl (fun c => ⟨⟨c.mem.granary, c.mem.hbm, c.mem.pond, c.mem.tiles, c.mem.clusters⟩, ⟨c.tab.parts, c.tab.stageObj, NatMap.wf_set _ _ c.tab.stageLen, c.tab.weirs, c.tab.querns, c.tab.resolves, c.tab.tollFails, c.tab.testNext, c.tab.testResults, c.tab.tiles, c.tab.clusters, c.tab.leats, c.tab.ctxs, c.tab.qps, c.tab.ports, c.tab.selects⟩⟩)) | exact State.onSelPart_keeps _ _ _ (fun _ _ => State.modWeir_keeps ..) | exact State.onSelPart_keeps _ _ _ (fun _ _ => State.modPart_keeps ..)  | exact State.onSelPart_keeps _ _ _ (fun _ _ => State.onSelDie_keeps _ _ _ (fun _ _ => State.modQuern_keeps ..)) | exact State.modSec_keeps _ _ (fun _ h => h) | exact State.modLife_keeps _ _ (fun _ => Otp.Le.refl _) | exact State.modPwr_keeps _ _ (fun _ h => h) | exact State.modRas_keeps _ _ (fun _ h => h) | (apply State.onSelDie_keeps; intro d t; apply Keeps.trans ?_ (State.retarget_keeps ..); exact State.modPwr_keeps _ _ (fun _ h => h)) | exact State.modBoard_keeps .. | exact State.setPtpCtrl_keeps .. | exact State.writeCoreCtrl_keeps .. | exact State.onSelPort_keeps _ _ _ (fun _ _ => State.setPortCfg_keeps ..) | exact State.onSelPort_keeps _ _ _ (fun _ _ => State.setMacsec_keeps ..) | exact State.lcReset_keeps .. | exact State.bcResponse_keeps .. | exact State.fatalClear_keeps .. | exact (Keeps.upd rfl rfl rfl rfl rfl rfl rfl rfl rfl rfl (fun c => ⟨⟨c.mem.granary, c.mem.hbm, c.mem.pond, c.mem.tiles, c.mem.clusters⟩, ⟨c.tab.parts, c.tab.stageObj, c.tab.stageLen, c.tab.weirs, c.tab.querns, c.tab.resolves, c.tab.tollFails, c.tab.testNext, c.tab.testResults, c.tab.tiles, c.tab.clusters, c.tab.leats, c.tab.ctxs, c.tab.qps, c.tab.ports, c.tab.selects⟩⟩)) | skip)
    | (refine State.wl_keeps _ _ _ ?_; first | (apply State.onSelPart_keeps; intro p t; exact Keeps.upd rfl rfl rfl rfl rfl rfl rfl rfl rfl rfl (fun c => ⟨⟨c.mem.granary, c.mem.hbm, c.mem.pond, c.mem.tiles, c.mem.clusters⟩, ⟨c.tab.parts, NatMap.wf_set _ _ c.tab.stageObj, c.tab.stageLen, c.tab.weirs, c.tab.querns, c.tab.resolves, c.tab.tollFails, c.tab.testNext, c.tab.testResults, c.tab.tiles, c.tab.clusters, c.tab.leats, c.tab.ctxs, c.tab.qps, c.tab.ports, c.tab.selects⟩⟩)) | (apply State.onSelPart_keeps; intro p t; exact Keeps.upd rfl rfl rfl rfl rfl rfl rfl rfl rfl rfl (fun c => ⟨⟨c.mem.granary, c.mem.hbm, c.mem.pond, c.mem.tiles, c.mem.clusters⟩, ⟨c.tab.parts, c.tab.stageObj, NatMap.wf_set _ _ c.tab.stageLen, c.tab.weirs, c.tab.querns, c.tab.resolves, c.tab.tollFails, c.tab.testNext, c.tab.testResults, c.tab.tiles, c.tab.clusters, c.tab.leats, c.tab.ctxs, c.tab.qps, c.tab.ports, c.tab.selects⟩⟩)) | exact State.onSelPart_keeps _ _ _ (fun _ _ => State.modWeir_keeps ..) | exact State.onSelPart_keeps _ _ _ (fun _ _ => State.modPart_keeps ..)  | exact State.onSelPart_keeps _ _ _ (fun _ _ => State.onSelDie_keeps _ _ _ (fun _ _ => State.modQuern_keeps ..)) | exact State.modSec_keeps _ _ (fun _ h => h) | exact State.modLife_keeps _ _ (fun _ => Otp.Le.refl _) | exact State.modPwr_keeps _ _ (fun _ h => h) | exact State.modRas_keeps _ _ (fun _ h => h) | (apply State.onSelDie_keeps; intro d t; apply Keeps.trans ?_ (State.retarget_keeps ..); exact State.modPwr_keeps _ _ (fun _ h => h)) | exact State.modBoard_keeps .. | exact State.setPtpCtrl_keeps .. | exact State.writeCoreCtrl_keeps .. | exact State.onSelPort_keeps _ _ _ (fun _ _ => State.setPortCfg_keeps ..) | exact State.onSelPort_keeps _ _ _ (fun _ _ => State.setMacsec_keeps ..) | exact State.lcReset_keeps .. | exact State.bcResponse_keeps .. | exact State.fatalClear_keeps .. | exact (Keeps.upd rfl rfl rfl rfl rfl rfl rfl rfl rfl rfl (fun c => ⟨⟨c.mem.granary, c.mem.hbm, c.mem.pond, c.mem.tiles, c.mem.clusters⟩, ⟨c.tab.parts, c.tab.stageObj, c.tab.stageLen, c.tab.weirs, c.tab.querns, c.tab.resolves, c.tab.tollFails, c.tab.testNext, c.tab.testResults, c.tab.tiles, c.tab.clusters, c.tab.leats, c.tab.ctxs, c.tab.qps, c.tab.ports, c.tab.selects⟩⟩)) | skip)
    | skip
  all_goals try split
  all_goals
    first
    | with_reducible exact State.keep_keeps _
    | with_reducible exact RegKeeps.none _
    | exact State.ran_keeps _ _ (execConnect_keeps ..)
    | exact State.ran_keeps _ _ (execQpReset_keeps ..)
    | exact State.done_keeps (State.lcCmd_keeps _ _ _ State.transition_keeps)
    | exact State.done_keeps (State.lcReset_keeps ..)
    | (refine State.done_keeps ?_; exact (Keeps.upd rfl rfl rfl rfl rfl rfl rfl rfl rfl rfl (fun c => ⟨⟨c.mem.granary, c.mem.hbm, c.mem.pond, c.mem.tiles, c.mem.clusters⟩, ⟨c.tab.parts, c.tab.stageObj, c.tab.stageLen, c.tab.weirs, c.tab.querns, c.tab.resolves, c.tab.tollFails, c.tab.testNext, c.tab.testResults, c.tab.tiles, c.tab.clusters, c.tab.leats, c.tab.ctxs, c.tab.qps, c.tab.ports, c.tab.selects⟩⟩)))
    | skip

theorem State.writeSec_keeps (s : State) (rq : Req) (off : Nat) (v : Word64) : RegKeeps s (s.writeSec rq off v) := by
  unfold State.writeSec
  try dsimp only
  split
  all_goals
    first
    | with_reducible exact State.keep_keeps _
    | with_reducible exact RegKeeps.none _
    | with_reducible exact State.select_keeps ..
    | with_reducible exact State.writeLock_keeps ..
    | with_reducible exact State.portWl_keeps ..
    | with_reducible exact State.qpSet_keeps ..
    | (refine State.done_keeps ?_; first | (apply State.onSelPart_keeps; intro p t; exact Keeps.upd rfl rfl rfl rfl rfl rfl rfl rfl rfl rfl (fun c => ⟨⟨c.mem.granary, c.mem.hbm, c.mem.pond, c.mem.tiles, c.mem.clusters⟩, ⟨c.tab.parts, NatMap.wf_set _ _ c.tab.stageObj, c.tab.stageLen, c.tab.weirs, c.tab.querns, c.tab.resolves, c.tab.tollFails, c.tab.testNext, c.tab.testResults, c.tab.tiles, c.tab.clusters, c.tab.leats, c.tab.ctxs, c.tab.qps, c.tab.ports, c.tab.selects⟩⟩)) | (apply State.onSelPart_keeps; intro p t; exact Keeps.upd rfl rfl rfl rfl rfl rfl rfl rfl rfl rfl (fun c => ⟨⟨c.mem.granary, c.mem.hbm, c.mem.pond, c.mem.tiles, c.mem.clusters⟩, ⟨c.tab.parts, c.tab.stageObj, NatMap.wf_set _ _ c.tab.stageLen, c.tab.weirs, c.tab.querns, c.tab.resolves, c.tab.tollFails, c.tab.testNext, c.tab.testResults, c.tab.tiles, c.tab.clusters, c.tab.leats, c.tab.ctxs, c.tab.qps, c.tab.ports, c.tab.selects⟩⟩)) | exact State.onSelPart_keeps _ _ _ (fun _ _ => State.modWeir_keeps ..) | exact State.onSelPart_keeps _ _ _ (fun _ _ => State.modPart_keeps ..)  | exact State.onSelPart_keeps _ _ _ (fun _ _ => State.onSelDie_keeps _ _ _ (fun _ _ => State.modQuern_keeps ..)) | exact State.modSec_keeps _ _ (fun _ h => h) | exact State.modLife_keeps _ _ (fun _ => Otp.Le.refl _) | exact State.modPwr_keeps _ _ (fun _ h => h) | exact State.modRas_keeps _ _ (fun _ h => h) | (apply State.onSelDie_keeps; intro d t; apply Keeps.trans ?_ (State.retarget_keeps ..); exact State.modPwr_keeps _ _ (fun _ h => h)) | exact State.modBoard_keeps .. | exact State.setPtpCtrl_keeps .. | exact State.writeCoreCtrl_keeps .. | exact State.onSelPort_keeps _ _ _ (fun _ _ => State.setPortCfg_keeps ..) | exact State.onSelPort_keeps _ _ _ (fun _ _ => State.setMacsec_keeps ..) | exact State.lcReset_keeps .. | exact State.bcResponse_keeps .. | exact State.fatalClear_keeps .. | exact (Keeps.upd rfl rfl rfl rfl rfl rfl rfl rfl rfl rfl (fun c => ⟨⟨c.mem.granary, c.mem.hbm, c.mem.pond, c.mem.tiles, c.mem.clusters⟩, ⟨c.tab.parts, c.tab.stageObj, c.tab.stageLen, c.tab.weirs, c.tab.querns, c.tab.resolves, c.tab.tollFails, c.tab.testNext, c.tab.testResults, c.tab.tiles, c.tab.clusters, c.tab.leats, c.tab.ctxs, c.tab.qps, c.tab.ports, c.tab.selects⟩⟩)) | skip)
    | (refine State.wl_keeps _ _ _ ?_; first | (apply State.onSelPart_keeps; intro p t; exact Keeps.upd rfl rfl rfl rfl rfl rfl rfl rfl rfl rfl (fun c => ⟨⟨c.mem.granary, c.mem.hbm, c.mem.pond, c.mem.tiles, c.mem.clusters⟩, ⟨c.tab.parts, NatMap.wf_set _ _ c.tab.stageObj, c.tab.stageLen, c.tab.weirs, c.tab.querns, c.tab.resolves, c.tab.tollFails, c.tab.testNext, c.tab.testResults, c.tab.tiles, c.tab.clusters, c.tab.leats, c.tab.ctxs, c.tab.qps, c.tab.ports, c.tab.selects⟩⟩)) | (apply State.onSelPart_keeps; intro p t; exact Keeps.upd rfl rfl rfl rfl rfl rfl rfl rfl rfl rfl (fun c => ⟨⟨c.mem.granary, c.mem.hbm, c.mem.pond, c.mem.tiles, c.mem.clusters⟩, ⟨c.tab.parts, c.tab.stageObj, NatMap.wf_set _ _ c.tab.stageLen, c.tab.weirs, c.tab.querns, c.tab.resolves, c.tab.tollFails, c.tab.testNext, c.tab.testResults, c.tab.tiles, c.tab.clusters, c.tab.leats, c.tab.ctxs, c.tab.qps, c.tab.ports, c.tab.selects⟩⟩)) | exact State.onSelPart_keeps _ _ _ (fun _ _ => State.modWeir_keeps ..) | exact State.onSelPart_keeps _ _ _ (fun _ _ => State.modPart_keeps ..)  | exact State.onSelPart_keeps _ _ _ (fun _ _ => State.onSelDie_keeps _ _ _ (fun _ _ => State.modQuern_keeps ..)) | exact State.modSec_keeps _ _ (fun _ h => h) | exact State.modLife_keeps _ _ (fun _ => Otp.Le.refl _) | exact State.modPwr_keeps _ _ (fun _ h => h) | exact State.modRas_keeps _ _ (fun _ h => h) | (apply State.onSelDie_keeps; intro d t; apply Keeps.trans ?_ (State.retarget_keeps ..); exact State.modPwr_keeps _ _ (fun _ h => h)) | exact State.modBoard_keeps .. | exact State.setPtpCtrl_keeps .. | exact State.writeCoreCtrl_keeps .. | exact State.onSelPort_keeps _ _ _ (fun _ _ => State.setPortCfg_keeps ..) | exact State.onSelPort_keeps _ _ _ (fun _ _ => State.setMacsec_keeps ..) | exact State.lcReset_keeps .. | exact State.bcResponse_keeps .. | exact State.fatalClear_keeps .. | exact (Keeps.upd rfl rfl rfl rfl rfl rfl rfl rfl rfl rfl (fun c => ⟨⟨c.mem.granary, c.mem.hbm, c.mem.pond, c.mem.tiles, c.mem.clusters⟩, ⟨c.tab.parts, c.tab.stageObj, c.tab.stageLen, c.tab.weirs, c.tab.querns, c.tab.resolves, c.tab.tollFails, c.tab.testNext, c.tab.testResults, c.tab.tiles, c.tab.clusters, c.tab.leats, c.tab.ctxs, c.tab.qps, c.tab.ports, c.tab.selects⟩⟩)) | skip)
    | skip
  all_goals try split
  all_goals
    first
    | with_reducible exact State.keep_keeps _
    | with_reducible exact RegKeeps.none _
    | exact State.ran_keeps _ _ (execKeyWrite_keeps ..)
    | exact State.ran_keeps _ _ (execKeyErase_keeps ..)
    | exact State.ran_keeps _ _ (execLoadPubkey_keeps ..)
    | exact State.ran_keeps _ _ (execLoadCharter_keeps ..)
    | exact State.ran_keeps _ _ (execUnloadCharter_keeps ..)
    | exact State.ran_keeps _ _ (execRelRequest_keeps ..)
    | exact State.ran_keeps _ _ (execRelRun_keeps ..)
    | exact State.ran_keeps _ _ (execRelCancel_keeps ..)
    | exact State.ran_keeps _ _ (execRollover_keeps ..)
    | exact State.done_keeps (State.lcCmd_keeps _ _ _ State.transition_keeps)
    | exact State.done_keeps (State.lcReset_keeps ..)
    | (refine State.done_keeps ?_; exact (Keeps.upd rfl rfl rfl rfl rfl rfl rfl rfl rfl rfl (fun c => ⟨⟨c.mem.granary, c.mem.hbm, c.mem.pond, c.mem.tiles, c.mem.clusters⟩, ⟨c.tab.parts, c.tab.stageObj, c.tab.stageLen, c.tab.weirs, c.tab.querns, c.tab.resolves, c.tab.tollFails, c.tab.testNext, c.tab.testResults, c.tab.tiles, c.tab.clusters, c.tab.leats, c.tab.ctxs, c.tab.qps, c.tab.ports, c.tab.selects⟩⟩)))
    | skip

theorem State.writeLc_keeps (s : State) (rq : Req) (off : Nat) (v : Word64) : RegKeeps s (s.writeLc rq off v) := by
  unfold State.writeLc
  try dsimp only
  split
  all_goals
    first
    | with_reducible exact State.keep_keeps _
    | with_reducible exact RegKeeps.none _
    | with_reducible exact State.select_keeps ..
    | with_reducible exact State.writeLock_keeps ..
    | with_reducible exact State.portWl_keeps ..
    | with_reducible exact State.qpSet_keeps ..
    | (refine State.done_keeps ?_; first | (apply State.onSelPart_keeps; intro p t; exact Keeps.upd rfl rfl rfl rfl rfl rfl rfl rfl rfl rfl (fun c => ⟨⟨c.mem.granary, c.mem.hbm, c.mem.pond, c.mem.tiles, c.mem.clusters⟩, ⟨c.tab.parts, NatMap.wf_set _ _ c.tab.stageObj, c.tab.stageLen, c.tab.weirs, c.tab.querns, c.tab.resolves, c.tab.tollFails, c.tab.testNext, c.tab.testResults, c.tab.tiles, c.tab.clusters, c.tab.leats, c.tab.ctxs, c.tab.qps, c.tab.ports, c.tab.selects⟩⟩)) | (apply State.onSelPart_keeps; intro p t; exact Keeps.upd rfl rfl rfl rfl rfl rfl rfl rfl rfl rfl (fun c => ⟨⟨c.mem.granary, c.mem.hbm, c.mem.pond, c.mem.tiles, c.mem.clusters⟩, ⟨c.tab.parts, c.tab.stageObj, NatMap.wf_set _ _ c.tab.stageLen, c.tab.weirs, c.tab.querns, c.tab.resolves, c.tab.tollFails, c.tab.testNext, c.tab.testResults, c.tab.tiles, c.tab.clusters, c.tab.leats, c.tab.ctxs, c.tab.qps, c.tab.ports, c.tab.selects⟩⟩)) | exact State.onSelPart_keeps _ _ _ (fun _ _ => State.modWeir_keeps ..) | exact State.onSelPart_keeps _ _ _ (fun _ _ => State.modPart_keeps ..)  | exact State.onSelPart_keeps _ _ _ (fun _ _ => State.onSelDie_keeps _ _ _ (fun _ _ => State.modQuern_keeps ..)) | exact State.modSec_keeps _ _ (fun _ h => h) | exact State.modLife_keeps _ _ (fun _ => Otp.Le.refl _) | exact State.modPwr_keeps _ _ (fun _ h => h) | exact State.modRas_keeps _ _ (fun _ h => h) | (apply State.onSelDie_keeps; intro d t; apply Keeps.trans ?_ (State.retarget_keeps ..); exact State.modPwr_keeps _ _ (fun _ h => h)) | exact State.modBoard_keeps .. | exact State.setPtpCtrl_keeps .. | exact State.writeCoreCtrl_keeps .. | exact State.onSelPort_keeps _ _ _ (fun _ _ => State.setPortCfg_keeps ..) | exact State.onSelPort_keeps _ _ _ (fun _ _ => State.setMacsec_keeps ..) | exact State.lcReset_keeps .. | exact State.bcResponse_keeps .. | exact State.fatalClear_keeps .. | exact (Keeps.upd rfl rfl rfl rfl rfl rfl rfl rfl rfl rfl (fun c => ⟨⟨c.mem.granary, c.mem.hbm, c.mem.pond, c.mem.tiles, c.mem.clusters⟩, ⟨c.tab.parts, c.tab.stageObj, c.tab.stageLen, c.tab.weirs, c.tab.querns, c.tab.resolves, c.tab.tollFails, c.tab.testNext, c.tab.testResults, c.tab.tiles, c.tab.clusters, c.tab.leats, c.tab.ctxs, c.tab.qps, c.tab.ports, c.tab.selects⟩⟩)) | skip)
    | (refine State.wl_keeps _ _ _ ?_; first | (apply State.onSelPart_keeps; intro p t; exact Keeps.upd rfl rfl rfl rfl rfl rfl rfl rfl rfl rfl (fun c => ⟨⟨c.mem.granary, c.mem.hbm, c.mem.pond, c.mem.tiles, c.mem.clusters⟩, ⟨c.tab.parts, NatMap.wf_set _ _ c.tab.stageObj, c.tab.stageLen, c.tab.weirs, c.tab.querns, c.tab.resolves, c.tab.tollFails, c.tab.testNext, c.tab.testResults, c.tab.tiles, c.tab.clusters, c.tab.leats, c.tab.ctxs, c.tab.qps, c.tab.ports, c.tab.selects⟩⟩)) | (apply State.onSelPart_keeps; intro p t; exact Keeps.upd rfl rfl rfl rfl rfl rfl rfl rfl rfl rfl (fun c => ⟨⟨c.mem.granary, c.mem.hbm, c.mem.pond, c.mem.tiles, c.mem.clusters⟩, ⟨c.tab.parts, c.tab.stageObj, NatMap.wf_set _ _ c.tab.stageLen, c.tab.weirs, c.tab.querns, c.tab.resolves, c.tab.tollFails, c.tab.testNext, c.tab.testResults, c.tab.tiles, c.tab.clusters, c.tab.leats, c.tab.ctxs, c.tab.qps, c.tab.ports, c.tab.selects⟩⟩)) | exact State.onSelPart_keeps _ _ _ (fun _ _ => State.modWeir_keeps ..) | exact State.onSelPart_keeps _ _ _ (fun _ _ => State.modPart_keeps ..)  | exact State.onSelPart_keeps _ _ _ (fun _ _ => State.onSelDie_keeps _ _ _ (fun _ _ => State.modQuern_keeps ..)) | exact State.modSec_keeps _ _ (fun _ h => h) | exact State.modLife_keeps _ _ (fun _ => Otp.Le.refl _) | exact State.modPwr_keeps _ _ (fun _ h => h) | exact State.modRas_keeps _ _ (fun _ h => h) | (apply State.onSelDie_keeps; intro d t; apply Keeps.trans ?_ (State.retarget_keeps ..); exact State.modPwr_keeps _ _ (fun _ h => h)) | exact State.modBoard_keeps .. | exact State.setPtpCtrl_keeps .. | exact State.writeCoreCtrl_keeps .. | exact State.onSelPort_keeps _ _ _ (fun _ _ => State.setPortCfg_keeps ..) | exact State.onSelPort_keeps _ _ _ (fun _ _ => State.setMacsec_keeps ..) | exact State.lcReset_keeps .. | exact State.bcResponse_keeps .. | exact State.fatalClear_keeps .. | exact (Keeps.upd rfl rfl rfl rfl rfl rfl rfl rfl rfl rfl (fun c => ⟨⟨c.mem.granary, c.mem.hbm, c.mem.pond, c.mem.tiles, c.mem.clusters⟩, ⟨c.tab.parts, c.tab.stageObj, c.tab.stageLen, c.tab.weirs, c.tab.querns, c.tab.resolves, c.tab.tollFails, c.tab.testNext, c.tab.testResults, c.tab.tiles, c.tab.clusters, c.tab.leats, c.tab.ctxs, c.tab.qps, c.tab.ports, c.tab.selects⟩⟩)) | skip)
    | skip
  all_goals try split
  all_goals
    first
    | with_reducible exact State.keep_keeps _
    | with_reducible exact RegKeeps.none _
    | exact State.ran_keeps _ _ (execRaiseSvn_keeps ..)
    | exact State.ran_keeps _ _ (execRevokeKey_keeps ..)
    | exact State.ran_keeps _ _ (execGenIdentity_keeps ..)
    | exact State.ran_keeps _ _ (execFuseDigest_keeps ..)
    | exact State.done_keeps (State.lcCmd_keeps _ _ _ State.transition_keeps)
    | exact State.done_keeps (State.lcReset_keeps ..)
    | (refine State.done_keeps ?_; exact (Keeps.upd rfl rfl rfl rfl rfl rfl rfl rfl rfl rfl (fun c => ⟨⟨c.mem.granary, c.mem.hbm, c.mem.pond, c.mem.tiles, c.mem.clusters⟩, ⟨c.tab.parts, c.tab.stageObj, c.tab.stageLen, c.tab.weirs, c.tab.querns, c.tab.resolves, c.tab.tollFails, c.tab.testNext, c.tab.testResults, c.tab.tiles, c.tab.clusters, c.tab.leats, c.tab.ctxs, c.tab.qps, c.tab.ports, c.tab.selects⟩⟩)))
    | skip

theorem State.writePwr_keeps (s : State) (rq : Req) (off : Nat) (v : Word64) : RegKeeps s (s.writePwr rq off v) := by
  unfold State.writePwr
  try dsimp only
  split
  all_goals
    first
    | with_reducible exact State.keep_keeps _
    | with_reducible exact RegKeeps.none _
    | with_reducible exact State.select_keeps ..
    | with_reducible exact State.writeLock_keeps ..
    | with_reducible exact State.portWl_keeps ..
    | with_reducible exact State.qpSet_keeps ..
    | (refine State.done_keeps ?_; first | (apply State.onSelPart_keeps; intro p t; exact Keeps.upd rfl rfl rfl rfl rfl rfl rfl rfl rfl rfl (fun c => ⟨⟨c.mem.granary, c.mem.hbm, c.mem.pond, c.mem.tiles, c.mem.clusters⟩, ⟨c.tab.parts, NatMap.wf_set _ _ c.tab.stageObj, c.tab.stageLen, c.tab.weirs, c.tab.querns, c.tab.resolves, c.tab.tollFails, c.tab.testNext, c.tab.testResults, c.tab.tiles, c.tab.clusters, c.tab.leats, c.tab.ctxs, c.tab.qps, c.tab.ports, c.tab.selects⟩⟩)) | (apply State.onSelPart_keeps; intro p t; exact Keeps.upd rfl rfl rfl rfl rfl rfl rfl rfl rfl rfl (fun c => ⟨⟨c.mem.granary, c.mem.hbm, c.mem.pond, c.mem.tiles, c.mem.clusters⟩, ⟨c.tab.parts, c.tab.stageObj, NatMap.wf_set _ _ c.tab.stageLen, c.tab.weirs, c.tab.querns, c.tab.resolves, c.tab.tollFails, c.tab.testNext, c.tab.testResults, c.tab.tiles, c.tab.clusters, c.tab.leats, c.tab.ctxs, c.tab.qps, c.tab.ports, c.tab.selects⟩⟩)) | exact State.onSelPart_keeps _ _ _ (fun _ _ => State.modWeir_keeps ..) | exact State.onSelPart_keeps _ _ _ (fun _ _ => State.modPart_keeps ..)  | exact State.onSelPart_keeps _ _ _ (fun _ _ => State.onSelDie_keeps _ _ _ (fun _ _ => State.modQuern_keeps ..)) | exact State.modSec_keeps _ _ (fun _ h => h) | exact State.modLife_keeps _ _ (fun _ => Otp.Le.refl _) | exact State.modPwr_keeps _ _ (fun _ h => h) | exact State.modRas_keeps _ _ (fun _ h => h) | (apply State.onSelDie_keeps; intro d t; apply Keeps.trans ?_ (State.retarget_keeps ..); exact State.modPwr_keeps _ _ (fun _ h => h)) | exact State.modBoard_keeps .. | exact State.setPtpCtrl_keeps .. | exact State.writeCoreCtrl_keeps .. | exact State.onSelPort_keeps _ _ _ (fun _ _ => State.setPortCfg_keeps ..) | exact State.onSelPort_keeps _ _ _ (fun _ _ => State.setMacsec_keeps ..) | exact State.lcReset_keeps .. | exact State.bcResponse_keeps .. | exact State.fatalClear_keeps .. | exact (Keeps.upd rfl rfl rfl rfl rfl rfl rfl rfl rfl rfl (fun c => ⟨⟨c.mem.granary, c.mem.hbm, c.mem.pond, c.mem.tiles, c.mem.clusters⟩, ⟨c.tab.parts, c.tab.stageObj, c.tab.stageLen, c.tab.weirs, c.tab.querns, c.tab.resolves, c.tab.tollFails, c.tab.testNext, c.tab.testResults, c.tab.tiles, c.tab.clusters, c.tab.leats, c.tab.ctxs, c.tab.qps, c.tab.ports, c.tab.selects⟩⟩)) | skip)
    | (refine State.wl_keeps _ _ _ ?_; first | (apply State.onSelPart_keeps; intro p t; exact Keeps.upd rfl rfl rfl rfl rfl rfl rfl rfl rfl rfl (fun c => ⟨⟨c.mem.granary, c.mem.hbm, c.mem.pond, c.mem.tiles, c.mem.clusters⟩, ⟨c.tab.parts, NatMap.wf_set _ _ c.tab.stageObj, c.tab.stageLen, c.tab.weirs, c.tab.querns, c.tab.resolves, c.tab.tollFails, c.tab.testNext, c.tab.testResults, c.tab.tiles, c.tab.clusters, c.tab.leats, c.tab.ctxs, c.tab.qps, c.tab.ports, c.tab.selects⟩⟩)) | (apply State.onSelPart_keeps; intro p t; exact Keeps.upd rfl rfl rfl rfl rfl rfl rfl rfl rfl rfl (fun c => ⟨⟨c.mem.granary, c.mem.hbm, c.mem.pond, c.mem.tiles, c.mem.clusters⟩, ⟨c.tab.parts, c.tab.stageObj, NatMap.wf_set _ _ c.tab.stageLen, c.tab.weirs, c.tab.querns, c.tab.resolves, c.tab.tollFails, c.tab.testNext, c.tab.testResults, c.tab.tiles, c.tab.clusters, c.tab.leats, c.tab.ctxs, c.tab.qps, c.tab.ports, c.tab.selects⟩⟩)) | exact State.onSelPart_keeps _ _ _ (fun _ _ => State.modWeir_keeps ..) | exact State.onSelPart_keeps _ _ _ (fun _ _ => State.modPart_keeps ..)  | exact State.onSelPart_keeps _ _ _ (fun _ _ => State.onSelDie_keeps _ _ _ (fun _ _ => State.modQuern_keeps ..)) | exact State.modSec_keeps _ _ (fun _ h => h) | exact State.modLife_keeps _ _ (fun _ => Otp.Le.refl _) | exact State.modPwr_keeps _ _ (fun _ h => h) | exact State.modRas_keeps _ _ (fun _ h => h) | (apply State.onSelDie_keeps; intro d t; apply Keeps.trans ?_ (State.retarget_keeps ..); exact State.modPwr_keeps _ _ (fun _ h => h)) | exact State.modBoard_keeps .. | exact State.setPtpCtrl_keeps .. | exact State.writeCoreCtrl_keeps .. | exact State.onSelPort_keeps _ _ _ (fun _ _ => State.setPortCfg_keeps ..) | exact State.onSelPort_keeps _ _ _ (fun _ _ => State.setMacsec_keeps ..) | exact State.lcReset_keeps .. | exact State.bcResponse_keeps .. | exact State.fatalClear_keeps .. | exact (Keeps.upd rfl rfl rfl rfl rfl rfl rfl rfl rfl rfl (fun c => ⟨⟨c.mem.granary, c.mem.hbm, c.mem.pond, c.mem.tiles, c.mem.clusters⟩, ⟨c.tab.parts, c.tab.stageObj, c.tab.stageLen, c.tab.weirs, c.tab.querns, c.tab.resolves, c.tab.tollFails, c.tab.testNext, c.tab.testResults, c.tab.tiles, c.tab.clusters, c.tab.leats, c.tab.ctxs, c.tab.qps, c.tab.ports, c.tab.selects⟩⟩)) | skip)
    | skip
  all_goals try split
  all_goals
    first
    | with_reducible exact State.keep_keeps _
    | with_reducible exact RegKeeps.none _
    | exact State.done_keeps (State.lcCmd_keeps _ _ _ State.transition_keeps)
    | exact State.done_keeps (State.lcReset_keeps ..)
    | (refine State.done_keeps ?_; exact (Keeps.upd rfl rfl rfl rfl rfl rfl rfl rfl rfl rfl (fun c => ⟨⟨c.mem.granary, c.mem.hbm, c.mem.pond, c.mem.tiles, c.mem.clusters⟩, ⟨c.tab.parts, c.tab.stageObj, c.tab.stageLen, c.tab.weirs, c.tab.querns, c.tab.resolves, c.tab.tollFails, c.tab.testNext, c.tab.testResults, c.tab.tiles, c.tab.clusters, c.tab.leats, c.tab.ctxs, c.tab.qps, c.tab.ports, c.tab.selects⟩⟩)))
    | skip

theorem State.writeRas_keeps (s : State) (rq : Req) (off : Nat) (v : Word64) : RegKeeps s (s.writeRas rq off v) := by
  unfold State.writeRas
  try dsimp only
  split
  all_goals
    first
    | with_reducible exact State.keep_keeps _
    | with_reducible exact RegKeeps.none _
    | with_reducible exact State.select_keeps ..
    | with_reducible exact State.writeLock_keeps ..
    | with_reducible exact State.portWl_keeps ..
    | with_reducible exact State.qpSet_keeps ..
    | (refine State.done_keeps ?_; first | (apply State.onSelPart_keeps; intro p t; exact Keeps.upd rfl rfl rfl rfl rfl rfl rfl rfl rfl rfl (fun c => ⟨⟨c.mem.granary, c.mem.hbm, c.mem.pond, c.mem.tiles, c.mem.clusters⟩, ⟨c.tab.parts, NatMap.wf_set _ _ c.tab.stageObj, c.tab.stageLen, c.tab.weirs, c.tab.querns, c.tab.resolves, c.tab.tollFails, c.tab.testNext, c.tab.testResults, c.tab.tiles, c.tab.clusters, c.tab.leats, c.tab.ctxs, c.tab.qps, c.tab.ports, c.tab.selects⟩⟩)) | (apply State.onSelPart_keeps; intro p t; exact Keeps.upd rfl rfl rfl rfl rfl rfl rfl rfl rfl rfl (fun c => ⟨⟨c.mem.granary, c.mem.hbm, c.mem.pond, c.mem.tiles, c.mem.clusters⟩, ⟨c.tab.parts, c.tab.stageObj, NatMap.wf_set _ _ c.tab.stageLen, c.tab.weirs, c.tab.querns, c.tab.resolves, c.tab.tollFails, c.tab.testNext, c.tab.testResults, c.tab.tiles, c.tab.clusters, c.tab.leats, c.tab.ctxs, c.tab.qps, c.tab.ports, c.tab.selects⟩⟩)) | exact State.onSelPart_keeps _ _ _ (fun _ _ => State.modWeir_keeps ..) | exact State.onSelPart_keeps _ _ _ (fun _ _ => State.modPart_keeps ..)  | exact State.onSelPart_keeps _ _ _ (fun _ _ => State.onSelDie_keeps _ _ _ (fun _ _ => State.modQuern_keeps ..)) | exact State.modSec_keeps _ _ (fun _ h => h) | exact State.modLife_keeps _ _ (fun _ => Otp.Le.refl _) | exact State.modPwr_keeps _ _ (fun _ h => h) | exact State.modRas_keeps _ _ (fun _ h => h) | (apply State.onSelDie_keeps; intro d t; apply Keeps.trans ?_ (State.retarget_keeps ..); exact State.modPwr_keeps _ _ (fun _ h => h)) | exact State.modBoard_keeps .. | exact State.setPtpCtrl_keeps .. | exact State.writeCoreCtrl_keeps .. | exact State.onSelPort_keeps _ _ _ (fun _ _ => State.setPortCfg_keeps ..) | exact State.onSelPort_keeps _ _ _ (fun _ _ => State.setMacsec_keeps ..) | exact State.lcReset_keeps .. | exact State.bcResponse_keeps .. | exact State.fatalClear_keeps .. | exact (Keeps.upd rfl rfl rfl rfl rfl rfl rfl rfl rfl rfl (fun c => ⟨⟨c.mem.granary, c.mem.hbm, c.mem.pond, c.mem.tiles, c.mem.clusters⟩, ⟨c.tab.parts, c.tab.stageObj, c.tab.stageLen, c.tab.weirs, c.tab.querns, c.tab.resolves, c.tab.tollFails, c.tab.testNext, c.tab.testResults, c.tab.tiles, c.tab.clusters, c.tab.leats, c.tab.ctxs, c.tab.qps, c.tab.ports, c.tab.selects⟩⟩)) | skip)
    | (refine State.wl_keeps _ _ _ ?_; first | (apply State.onSelPart_keeps; intro p t; exact Keeps.upd rfl rfl rfl rfl rfl rfl rfl rfl rfl rfl (fun c => ⟨⟨c.mem.granary, c.mem.hbm, c.mem.pond, c.mem.tiles, c.mem.clusters⟩, ⟨c.tab.parts, NatMap.wf_set _ _ c.tab.stageObj, c.tab.stageLen, c.tab.weirs, c.tab.querns, c.tab.resolves, c.tab.tollFails, c.tab.testNext, c.tab.testResults, c.tab.tiles, c.tab.clusters, c.tab.leats, c.tab.ctxs, c.tab.qps, c.tab.ports, c.tab.selects⟩⟩)) | (apply State.onSelPart_keeps; intro p t; exact Keeps.upd rfl rfl rfl rfl rfl rfl rfl rfl rfl rfl (fun c => ⟨⟨c.mem.granary, c.mem.hbm, c.mem.pond, c.mem.tiles, c.mem.clusters⟩, ⟨c.tab.parts, c.tab.stageObj, NatMap.wf_set _ _ c.tab.stageLen, c.tab.weirs, c.tab.querns, c.tab.resolves, c.tab.tollFails, c.tab.testNext, c.tab.testResults, c.tab.tiles, c.tab.clusters, c.tab.leats, c.tab.ctxs, c.tab.qps, c.tab.ports, c.tab.selects⟩⟩)) | exact State.onSelPart_keeps _ _ _ (fun _ _ => State.modWeir_keeps ..) | exact State.onSelPart_keeps _ _ _ (fun _ _ => State.modPart_keeps ..)  | exact State.onSelPart_keeps _ _ _ (fun _ _ => State.onSelDie_keeps _ _ _ (fun _ _ => State.modQuern_keeps ..)) | exact State.modSec_keeps _ _ (fun _ h => h) | exact State.modLife_keeps _ _ (fun _ => Otp.Le.refl _) | exact State.modPwr_keeps _ _ (fun _ h => h) | exact State.modRas_keeps _ _ (fun _ h => h) | (apply State.onSelDie_keeps; intro d t; apply Keeps.trans ?_ (State.retarget_keeps ..); exact State.modPwr_keeps _ _ (fun _ h => h)) | exact State.modBoard_keeps .. | exact State.setPtpCtrl_keeps .. | exact State.writeCoreCtrl_keeps .. | exact State.onSelPort_keeps _ _ _ (fun _ _ => State.setPortCfg_keeps ..) | exact State.onSelPort_keeps _ _ _ (fun _ _ => State.setMacsec_keeps ..) | exact State.lcReset_keeps .. | exact State.bcResponse_keeps .. | exact State.fatalClear_keeps .. | exact (Keeps.upd rfl rfl rfl rfl rfl rfl rfl rfl rfl rfl (fun c => ⟨⟨c.mem.granary, c.mem.hbm, c.mem.pond, c.mem.tiles, c.mem.clusters⟩, ⟨c.tab.parts, c.tab.stageObj, c.tab.stageLen, c.tab.weirs, c.tab.querns, c.tab.resolves, c.tab.tollFails, c.tab.testNext, c.tab.testResults, c.tab.tiles, c.tab.clusters, c.tab.leats, c.tab.ctxs, c.tab.qps, c.tab.ports, c.tab.selects⟩⟩)) | skip)
    | skip
  all_goals try split
  all_goals
    first
    | with_reducible exact State.keep_keeps _
    | with_reducible exact RegKeeps.none _
    | exact State.done_keeps (State.lcCmd_keeps _ _ _ State.transition_keeps)
    | exact State.done_keeps (State.lcReset_keeps ..)
    | (refine State.done_keeps ?_; exact (Keeps.upd rfl rfl rfl rfl rfl rfl rfl rfl rfl rfl (fun c => ⟨⟨c.mem.granary, c.mem.hbm, c.mem.pond, c.mem.tiles, c.mem.clusters⟩, ⟨c.tab.parts, c.tab.stageObj, c.tab.stageLen, c.tab.weirs, c.tab.querns, c.tab.resolves, c.tab.tollFails, c.tab.testNext, c.tab.testResults, c.tab.tiles, c.tab.clusters, c.tab.leats, c.tab.ctxs, c.tab.qps, c.tab.ports, c.tab.selects⟩⟩)))
    | skip

theorem State.writeTest_keeps (s : State) (rq : Req) (off : Nat) (v : Word64) : RegKeeps s (s.writeTest rq off v) := by
  unfold State.writeTest
  try dsimp only
  split
  all_goals
    first
    | with_reducible exact State.keep_keeps _
    | with_reducible exact RegKeeps.none _
    | with_reducible exact State.select_keeps ..
    | with_reducible exact State.writeLock_keeps ..
    | with_reducible exact State.portWl_keeps ..
    | with_reducible exact State.qpSet_keeps ..
    | (refine State.done_keeps ?_; first | (apply State.onSelPart_keeps; intro p t; exact Keeps.upd rfl rfl rfl rfl rfl rfl rfl rfl rfl rfl (fun c => ⟨⟨c.mem.granary, c.mem.hbm, c.mem.pond, c.mem.tiles, c.mem.clusters⟩, ⟨c.tab.parts, NatMap.wf_set _ _ c.tab.stageObj, c.tab.stageLen, c.tab.weirs, c.tab.querns, c.tab.resolves, c.tab.tollFails, c.tab.testNext, c.tab.testResults, c.tab.tiles, c.tab.clusters, c.tab.leats, c.tab.ctxs, c.tab.qps, c.tab.ports, c.tab.selects⟩⟩)) | (apply State.onSelPart_keeps; intro p t; exact Keeps.upd rfl rfl rfl rfl rfl rfl rfl rfl rfl rfl (fun c => ⟨⟨c.mem.granary, c.mem.hbm, c.mem.pond, c.mem.tiles, c.mem.clusters⟩, ⟨c.tab.parts, c.tab.stageObj, NatMap.wf_set _ _ c.tab.stageLen, c.tab.weirs, c.tab.querns, c.tab.resolves, c.tab.tollFails, c.tab.testNext, c.tab.testResults, c.tab.tiles, c.tab.clusters, c.tab.leats, c.tab.ctxs, c.tab.qps, c.tab.ports, c.tab.selects⟩⟩)) | exact State.onSelPart_keeps _ _ _ (fun _ _ => State.modWeir_keeps ..) | exact State.onSelPart_keeps _ _ _ (fun _ _ => State.modPart_keeps ..)  | exact State.onSelPart_keeps _ _ _ (fun _ _ => State.onSelDie_keeps _ _ _ (fun _ _ => State.modQuern_keeps ..)) | exact State.modSec_keeps _ _ (fun _ h => h) | exact State.modLife_keeps _ _ (fun _ => Otp.Le.refl _) | exact State.modPwr_keeps _ _ (fun _ h => h) | exact State.modRas_keeps _ _ (fun _ h => h) | (apply State.onSelDie_keeps; intro d t; apply Keeps.trans ?_ (State.retarget_keeps ..); exact State.modPwr_keeps _ _ (fun _ h => h)) | exact State.modBoard_keeps .. | exact State.setPtpCtrl_keeps .. | exact State.writeCoreCtrl_keeps .. | exact State.onSelPort_keeps _ _ _ (fun _ _ => State.setPortCfg_keeps ..) | exact State.onSelPort_keeps _ _ _ (fun _ _ => State.setMacsec_keeps ..) | exact State.lcReset_keeps .. | exact State.bcResponse_keeps .. | exact State.fatalClear_keeps .. | exact (Keeps.upd rfl rfl rfl rfl rfl rfl rfl rfl rfl rfl (fun c => ⟨⟨c.mem.granary, c.mem.hbm, c.mem.pond, c.mem.tiles, c.mem.clusters⟩, ⟨c.tab.parts, c.tab.stageObj, c.tab.stageLen, c.tab.weirs, c.tab.querns, c.tab.resolves, c.tab.tollFails, c.tab.testNext, c.tab.testResults, c.tab.tiles, c.tab.clusters, c.tab.leats, c.tab.ctxs, c.tab.qps, c.tab.ports, c.tab.selects⟩⟩)) | skip)
    | (refine State.wl_keeps _ _ _ ?_; first | (apply State.onSelPart_keeps; intro p t; exact Keeps.upd rfl rfl rfl rfl rfl rfl rfl rfl rfl rfl (fun c => ⟨⟨c.mem.granary, c.mem.hbm, c.mem.pond, c.mem.tiles, c.mem.clusters⟩, ⟨c.tab.parts, NatMap.wf_set _ _ c.tab.stageObj, c.tab.stageLen, c.tab.weirs, c.tab.querns, c.tab.resolves, c.tab.tollFails, c.tab.testNext, c.tab.testResults, c.tab.tiles, c.tab.clusters, c.tab.leats, c.tab.ctxs, c.tab.qps, c.tab.ports, c.tab.selects⟩⟩)) | (apply State.onSelPart_keeps; intro p t; exact Keeps.upd rfl rfl rfl rfl rfl rfl rfl rfl rfl rfl (fun c => ⟨⟨c.mem.granary, c.mem.hbm, c.mem.pond, c.mem.tiles, c.mem.clusters⟩, ⟨c.tab.parts, c.tab.stageObj, NatMap.wf_set _ _ c.tab.stageLen, c.tab.weirs, c.tab.querns, c.tab.resolves, c.tab.tollFails, c.tab.testNext, c.tab.testResults, c.tab.tiles, c.tab.clusters, c.tab.leats, c.tab.ctxs, c.tab.qps, c.tab.ports, c.tab.selects⟩⟩)) | exact State.onSelPart_keeps _ _ _ (fun _ _ => State.modWeir_keeps ..) | exact State.onSelPart_keeps _ _ _ (fun _ _ => State.modPart_keeps ..)  | exact State.onSelPart_keeps _ _ _ (fun _ _ => State.onSelDie_keeps _ _ _ (fun _ _ => State.modQuern_keeps ..)) | exact State.modSec_keeps _ _ (fun _ h => h) | exact State.modLife_keeps _ _ (fun _ => Otp.Le.refl _) | exact State.modPwr_keeps _ _ (fun _ h => h) | exact State.modRas_keeps _ _ (fun _ h => h) | (apply State.onSelDie_keeps; intro d t; apply Keeps.trans ?_ (State.retarget_keeps ..); exact State.modPwr_keeps _ _ (fun _ h => h)) | exact State.modBoard_keeps .. | exact State.setPtpCtrl_keeps .. | exact State.writeCoreCtrl_keeps .. | exact State.onSelPort_keeps _ _ _ (fun _ _ => State.setPortCfg_keeps ..) | exact State.onSelPort_keeps _ _ _ (fun _ _ => State.setMacsec_keeps ..) | exact State.lcReset_keeps .. | exact State.bcResponse_keeps .. | exact State.fatalClear_keeps .. | exact (Keeps.upd rfl rfl rfl rfl rfl rfl rfl rfl rfl rfl (fun c => ⟨⟨c.mem.granary, c.mem.hbm, c.mem.pond, c.mem.tiles, c.mem.clusters⟩, ⟨c.tab.parts, c.tab.stageObj, c.tab.stageLen, c.tab.weirs, c.tab.querns, c.tab.resolves, c.tab.tollFails, c.tab.testNext, c.tab.testResults, c.tab.tiles, c.tab.clusters, c.tab.leats, c.tab.ctxs, c.tab.qps, c.tab.ports, c.tab.selects⟩⟩)) | skip)
    | skip
  all_goals try split
  all_goals
    first
    | with_reducible exact State.keep_keeps _
    | with_reducible exact RegKeeps.none _
    | exact State.ran_keeps _ _ (execRetest_keeps ..)
    | exact State.done_keeps (State.lcCmd_keeps _ _ _ State.transition_keeps)
    | exact State.done_keeps (State.lcReset_keeps ..)
    | (refine State.done_keeps ?_; exact (Keeps.upd rfl rfl rfl rfl rfl rfl rfl rfl rfl rfl (fun c => ⟨⟨c.mem.granary, c.mem.hbm, c.mem.pond, c.mem.tiles, c.mem.clusters⟩, ⟨c.tab.parts, c.tab.stageObj, c.tab.stageLen, c.tab.weirs, c.tab.querns, c.tab.resolves, c.tab.tollFails, c.tab.testNext, c.tab.testResults, c.tab.tiles, c.tab.clusters, c.tab.leats, c.tab.ctxs, c.tab.qps, c.tab.ports, c.tab.selects⟩⟩)))
    | skip

theorem State.readP_keeps (s : State) (rq : Req) (a : Nat) : RegKeeps s (s.readP rq a) := by
  unfold State.readP
  try dsimp only
  split
  all_goals
    first
    | with_reducible exact State.readGlb_keeps ..
    | with_reducible exact State.readGov_keeps ..
    | with_reducible exact State.readWeir_keeps ..
    | with_reducible exact State.readSync_keeps ..
    | with_reducible exact State.readCtx_keeps ..
    | with_reducible exact State.readPart_keeps ..
    | with_reducible exact State.readTile_keeps ..
    | with_reducible exact State.readQrn_keeps ..
    | with_reducible exact State.readMem_keeps ..
    | with_reducible exact State.readMce_keeps ..
    | with_reducible exact State.readEth_keeps ..
    | with_reducible exact State.readSec_keeps ..
    | with_reducible exact State.readLc_keeps ..
    | with_reducible exact State.readPwr_keeps ..
    | with_reducible exact State.readRas_keeps ..
    | with_reducible exact State.readTest_keeps ..
    | exact RegKeeps.none _

theorem State.writeP_keeps (s : State) (rq : Req) (a : Nat) (v : Word64) : RegKeeps s (s.writeP rq a v) := by
  unfold State.writeP
  try dsimp only
  split
  all_goals
    first
    | with_reducible exact State.writeGlb_keeps ..
    | with_reducible exact State.writeGov_keeps ..
    | with_reducible exact State.writeWeir_keeps ..
    | with_reducible exact State.writeSync_keeps ..
    | with_reducible exact State.writeCtx_keeps ..
    | with_reducible exact State.writePart_keeps ..
    | with_reducible exact State.writeTile_keeps ..
    | with_reducible exact State.writeQrn_keeps ..
    | with_reducible exact State.writeMem_keeps ..
    | with_reducible exact State.writeMce_keeps ..
    | with_reducible exact State.writeEth_keeps ..
    | with_reducible exact State.writeSec_keeps ..
    | with_reducible exact State.writeLc_keeps ..
    | with_reducible exact State.writePwr_keeps ..
    | with_reducible exact State.writeRas_keeps ..
    | with_reducible exact State.writeTest_keeps ..
    | exact RegKeeps.none _

theorem State.readU_keeps (s : State) (rq : Req) (x off : Nat) : RegKeeps s (s.readU rq x off) := by
  unfold State.readU
  dsimp only
  split
  all_goals
    first
    | exact State.ro_keeps ..
    | (split; exact State.ro_keeps ..; exact RegKeeps.none _)

theorem State.writeU_keeps (s : State) (rq : Req) (x off : Nat) (v : Word64) : RegKeeps s (s.writeU rq x off v) := by
  unfold State.writeU
  split
  · exact State.select_keeps ..
  · split
    · exact State.keep_keeps _
    · exact State.ran_keeps _ _ (execUFree_keeps ..)
  · split
    · exact State.keep_keeps _
    · exact RegKeeps.none _

theorem State.readBc_keeps (s : State) (off : Nat) : RegKeeps s (s.readBc off) := by
  unfold State.readBc
  dsimp only
  split
  all_goals
    first
    | with_reducible exact State.ro_keeps ..
    | with_reducible exact RegKeeps.none _
    | exact RegKeeps.some (State.bcChallenge_keeps ..)

theorem State.writeBc_keeps (s : State) (off : Nat) (v : Word64) : RegKeeps s (s.writeBc off v) := by
  unfold State.writeBc
  split
  all_goals
    first
    | with_reducible exact State.keep_keeps _
    | with_reducible exact RegKeeps.none _
    | exact State.done_keeps (State.modBoard_keeps ..)
    | exact State.done_keeps (State.bcResponse_keeps ..)
    | exact State.done_keeps (State.fatalClear_keeps ..)

theorem State.readDone_keeps (s : State) (r : RegAns) (h : RegKeeps s r) : Keeps s (s.readDone r).2.2 := by
  unfold State.readDone
  split
  · exact h.keeps _ rfl
  · exact Keeps.refl s

theorem State.writeDone_keeps (s : State) (r : RegSet) (h : RegKeeps s r) : Keeps s (s.writeDone r).2 := by
  unfold State.writeDone
  split
  · exact h.keeps _ rfl
  · exact Keeps.refl s

theorem State.regRead_keeps (s : State) (rq : Req) (a : Nat) : Keeps s (s.regRead rq a).2.2 := by
  unfold State.regRead
  repeat' split
  all_goals
    first
    | with_reducible exact Keeps.refl s
    | exact State.readDone_keeps _ _ (State.readBc_keeps ..)
    | exact State.readDone_keeps _ _ (State.readP_keeps ..)
    | (dsimp only; split; exact State.readDone_keeps _ _ (State.readU_keeps ..); exact Keeps.refl s)

theorem State.regWrite_keeps (s : State) (rq : Req) (a : Nat) (v : Word64) : Keeps s (s.regWrite rq a v).2 := by
  unfold State.regWrite
  repeat' split
  all_goals
    first
    | with_reducible exact Keeps.refl s
    | exact State.writeDone_keeps _ _ (State.writeBc_keeps ..)
    | exact State.writeDone_keeps _ _ (State.writeP_keeps ..)
    | (dsimp only; split; exact State.writeDone_keeps _ _ (State.writeU_keeps ..); exact Keeps.refl s)

theorem State.readOne_keeps (s : State) (rq : Req) (a : Nat) : Keeps s (s.readOne rq a) :=
  (State.regRead_keeps s rq a).trans (State.respondOne_keeps ..)

theorem execCounterRead_keeps (rq : Req) (addr : Nat) (s : State) : ∃ t, execCounterRead rq addr s = .next t ∧ Keeps s t :=
  ⟨_, rfl, State.readOne_keeps ..⟩

end Sys2Proof.Machine
end

