-- ==== Sys2Proof/Laws/Keeps/Resets.lean ====
section
/-! SUPPORT. What the commands keep that reset the device, start its firmware, correct mill time or access a list of registers. -/
namespace Sys2Proof.Machine
open Sys2Proof

/-- What an operation keeps that may set mill time. -/
structure KeepsT (s t : State) : Prop where
  pending : t.pending = s.pending
  fuses : Otp.Le s.life.otp t.life.otp
  locks : s.LocksKept t
  canon : s.Canon → t.Canon

/-- What an operation keeps that may end in a reset: the lock bits and mill time, unless it leaves the device held in reset. -/
structure KeepsR (s t : State) : Prop where
  pending : t.pending = s.pending
  fuses : Otp.Le s.life.otp t.life.otp
  locks : s.LocksKept t ∨ t.life.phase = .held
  now : t.mill.now = s.mill.now ∨ t.life.phase = .held
  canon : s.Canon → t.Canon

theorem Keeps.toT {s t : State} (h : Keeps s t) : KeepsT s t := ⟨h.pending, h.fuses, h.locks, h.canon⟩

theorem KeepsT.refl (s : State) : KeepsT s s := (Keeps.refl s).toT

theorem KeepsT.trans {s t u : State} (h : KeepsT s t) (g : KeepsT t u) : KeepsT s u :=
  ⟨g.pending.trans h.pending, h.fuses.trans g.fuses, fun b x => g.locks b (h.locks b x), fun c => g.canon (h.canon c)⟩

theorem KeepsT.ite {s : State} {c : Prop} [Decidable c] {a b : State} (ha : c → KeepsT s a) (hb : ¬c → KeepsT s b) :
    KeepsT s (if c then a else b) := by
  split
  · exact ha ‹_›
  · exact hb ‹_›

theorem Keeps.toR {s t : State} (h : Keeps s t) : KeepsR s t := ⟨h.pending, h.fuses, .inl h.locks, .inl h.now, h.canon⟩

theorem KeepsR.refl (s : State) : KeepsR s s := (Keeps.refl s).toR

theorem Keeps.thenR {s t u : State} (h : Keeps s t) (g : KeepsR t u) : KeepsR s u :=
  ⟨g.pending.trans h.pending, h.fuses.trans g.fuses, g.locks.imp_left fun k b x => k b (h.locks b x),
    g.now.imp_left fun e => e.trans h.now, fun c => g.canon (h.canon c)⟩

theorem State.modMill_keepsT (s : State) (f : Mill → Mill) (hf : ∀ x, x.lock = true → (f x).lock = true) : KeepsT s (s.modMill f) :=
  ⟨rfl, Otp.Le.refl _, fun b h => by cases b <;> first | exact h | exact hf _ h, fun c =>
    ⟨⟨c.mem.granary, c.mem.hbm, c.mem.pond, c.mem.tiles, c.mem.clusters⟩, ⟨c.tab.parts, c.tab.stageObj, c.tab.stageLen, c.tab.weirs,
      c.tab.querns, c.tab.resolves, c.tab.tollFails, c.tab.testNext, c.tab.testResults, c.tab.tiles, c.tab.clusters, c.tab.leats,
      c.tab.ctxs, c.tab.qps, c.tab.ports, c.tab.selects⟩⟩⟩

/-! ### Resets -/

/-- A reset keeps HBM and Pond; every table and every other memory is empty after it. -/
theorem State.deviceReset_canon {s : State} (c : s.Canon) : s.deviceReset.Canon :=
  ⟨⟨rfl, c.mem.hbm, c.mem.pond, (fun _ h => nomatch h), (fun _ h => nomatch h)⟩,
    ⟨rfl, rfl, rfl, rfl, rfl, rfl, rfl, rfl, rfl, rfl, rfl, rfl, rfl, rfl, rfl, rfl⟩⟩

theorem State.deviceReset_keepsR (s : State) : KeepsR s s.deviceReset :=
  ⟨rfl, Otp.Le.refl _, .inr rfl, .inr rfl, State.deviceReset_canon⟩

theorem State.takeReset_keepsR (s : State) : KeepsR s s.takeReset := by
  unfold State.takeReset
  split
  · exact s.deviceReset_keepsR
  · exact KeepsR.refl s

theorem State.heldPower_keepsR (s : State) (v : Bool) : KeepsR s (s.deviceReset.modLife fun l => { l with powerGood := v }) :=
  ⟨rfl, Otp.Le.refl _, .inr rfl, .inr rfl, fun c =>
    ((State.modLife_keeps s.deviceReset (fun l => { l with powerGood := v }) fun _ => Otp.Le.refl _).canon (State.deviceReset_canon c))⟩

/-- Powering down also clears the frame counters of the package links. -/
theorem execPwrGoodLow_keepsR (s : State) : ∃ t, execPwrGoodLow s = .next t ∧ KeepsR s t :=
  ⟨_, rfl, rfl, Otp.Le.refl _, .inr rfl, .inr rfl, fun c =>
    (State.modMce_keeps _ (fun x => { x with linkFrames := [] }) fun _ h => h).canon ((s.heldPower_keepsR false).canon c)⟩

theorem execPwrGoodRise_keepsR (s : State) : ∃ t, execPwrGoodRise s = .next t ∧ KeepsR s t := by
  refine ⟨_, rfl, ?_⟩
  split
  · exact KeepsR.refl s
  · exact s.heldPower_keepsR true

theorem execResetNLow_keepsR (s : State) : ∃ t, execResetNLow s = .next t ∧ KeepsR s t := ⟨_, rfl, s.deviceReset_keepsR⟩

theorem execTransition_keepsR (rq : Req) (s : State) : ∃ t, execTransition rq s = .next t ∧ KeepsR s t :=
  ⟨_, rfl, (State.lcCmd_keeps s rq _ State.transition_keeps).thenR (State.takeReset_keepsR _)⟩

theorem execLcReset_keepsR (rq : Req) (s : State) : ∃ t, execLcReset rq s = .next t ∧ KeepsR s t :=
  ⟨_, rfl, (State.lcReset_keeps s rq).thenR (State.takeReset_keepsR _)⟩

theorem execWakeEvent_keepsR (w : WakeCause) (s : State) : ∃ t, execWakeEvent w s = .next t ∧ KeepsR s t := by
  refine ⟨_, rfl, ?_⟩
  unfold State.wakeEvent
  dsimp only
  split
  · split
    · exact (State.modPwr_keeps s (fun x => { x with mode := 0, entryStatus := 3 }) fun _ h => h).toR
    · exact KeepsR.refl s
  · split
    · exact KeepsR.refl s
    · split
      · exact s.deviceReset_keepsR
      · refine Keeps.toR (Keeps.trans ?_ (Keeps.foldl State.leaseExpire_keeps _ _))
        have h := State.modPwr_keeps s (fun x => { x with state := 0, mode := 0 }) fun _ h => h
        exact Keeps.ite (fun _ => h.trans (State.modMill_keeps _ (fun x => x.acquire) fun _ => ⟨id, rfl⟩)) fun _ => h

/-! ### Registers -/

theorem State.writeOne_keepsR (s : State) (rq : Req) (a : Nat) (v : Word64) : KeepsR s (s.writeOne rq a v) :=
  ((State.regWrite_keeps s rq a v).trans (State.respondOne_keeps ..)).thenR (State.takeReset_keepsR _)

theorem execRegWrite_keepsR (rq : Req) (addr : Nat) (v : Word64) (s : State) : ∃ t, execRegWrite rq addr v s = .next t ∧ KeepsR s t :=
  ⟨_, rfl, State.writeOne_keepsR ..⟩

theorem execLockSet_keepsR (rq : Req) (b : LockBlock) (s : State) : ∃ t, execLockSet rq b s = .next t ∧ KeepsR s t :=
  ⟨_, rfl, State.writeOne_keepsR ..⟩

@[simp] theorem RegRun.note_st (r : RegRun) (i status : Nat) : (r.note i status).st = r.st := by
  unfold RegRun.note
  split
  · rfl
  · rfl

theorem Pkt.readStep_keeps (p : Pkt) (rq : Req) (r : RegRun) (i : Nat) : Keeps r.st (p.readStep rq r i).st := by
  unfold Pkt.readStep
  rw [RegRun.note_st]
  exact State.regRead_keeps ..

theorem Pkt.writeStep_keeps (p : Pkt) (rq : Req) (r : RegRun) (i : Nat) : Keeps r.st (p.writeStep rq r i).st := by
  unfold Pkt.writeStep
  rw [RegRun.note_st]
  exact State.regWrite_keeps ..

theorem RegRun.foldl_keeps (f : RegRun → Nat → RegRun) (h : ∀ r i, Keeps r.st (f r i).st) (l : List Nat) (r : RegRun) :
    Keeps r.st (l.foldl f r).st := by
  induction l generalizing r with
  | nil => exact Keeps.refl _
  | cons a l ih => exact (h r a).trans (ih _)

theorem State.regRequest_keepsR (s : State) (rq : Req) (p : Pkt) : KeepsR s (s.regRequest rq p) := by
  unfold State.regRequest
  split
  · exact (State.respond_keeps ..).toR
  · refine Keeps.thenR (t := RegRun.st _) ?_ ((State.respond_keeps ..).thenR (State.takeReset_keepsR _))
    refine RegRun.foldl_keeps _ (fun r i => ?_) _ { st := s }
    split
    · exact p.readStep_keeps ..
    · exact p.writeStep_keeps ..

theorem State.onReg_keepsR (s : State) (p : Pkt) (type : Nat) : KeepsR s (s.onReg p type) := by
  unfold State.onReg
  split
  · exact State.regRequest_keepsR ..
  · unfold State.onPkt
    split
    · dsimp only
      split
      · exact (State.takePkt_keeps s p).thenR (State.regRequest_keepsR ..)
      · exact (State.takePkt_keeps s p).toR
    · exact KeepsR.refl s

theorem execRegRd_keepsR (p : Pkt) (s : State) : ∃ t, execRegRd p s = .next t ∧ KeepsR s t := ⟨_, rfl, State.onReg_keepsR ..⟩
theorem execRegWr_keepsR (p : Pkt) (s : State) : ∃ t, execRegWr p s = .next t ∧ KeepsR s t := ⟨_, rfl, State.onReg_keepsR ..⟩

/-! ### Mill time set: firmware starts, PTP steps, the tick -/

theorem State.releaseFirmware_keepsT (s : State) (src : ImageSrc) (l : Lenhar) (k : Nat) : KeepsT s (s.releaseFirmware src l k) := by
  unfold State.releaseFirmware
  extract_lets net a b c d e
  have ha : KeepsT s a := by
    refine (State.modLife_keeps s _ fun _ => ?_).toT
    exact Otp.Le.refl _
  have hb : KeepsT s b := ha.trans (State.modMill_keepsT a (fun m => { m with now := 0 }) fun _ h => h)
  have hc : KeepsT s c := by
    exact hb.trans (((State.genAttKey_keeps b).trans (State.linksStart_keeps _)).trans
      ((State.assignKey_keeps ..).trans (State.assignKey_keeps ..))).toT
  have hd : KeepsT s d := KeepsT.ite (fun _ => hc.trans (State.raise_keeps ..).toT) fun _ => hc
  have he : KeepsT s e := KeepsT.ite (fun _ => hd.trans (State.raise_keeps ..).toT) fun _ => hd
  exact KeepsT.ite (fun _ => he.trans (State.raise_keeps ..).toT) fun _ => he

theorem execFirmwareAccepted_keepsT (src : ImageSrc) (s : State) : ∃ t, execFirmwareAccepted src s = .next t ∧ KeepsT s t := by
  refine ⟨_, rfl, ?_⟩
  unfold State.firmwareAccepted
  split
  · exact KeepsT.refl s
  · split
    · exact State.releaseFirmware_keepsT ..
    · exact KeepsT.refl s

theorem State.correct_keepsT (s : State) (off freq : Int) : KeepsT s (s.correct off freq) := by
  unfold State.correct
  split
  · exact (State.checkBlocked_keeps ..).toT
  · refine KeepsT.ite (fun _ => ?_) fun _ => ?_
    · exact State.modMill_keepsT s (fun m => { m with now := ((m.now : Int) - off).toNat, freqPpb := clampPpb freq, stepBlocked := false })
        fun _ h => h
    · extract_lets r
      exact ((State.slewFreq_keeps s freq off).toT.trans (State.modMill_keepsT r.2 (fun m => { m with freqPpb := r.1 }) fun _ h => h)).trans
        (State.checkBlocked_keeps ..).toT

theorem State.takeSync_keepsT (s : State) (m : PtpMeas) : KeepsT s (s.takeSync m) := by
  unfold State.takeSync
  extract_lets a b
  have ha : KeepsT s a := (State.modMill_keepsT s (fun x => { x with gotSync := true, twoStep := none }) fun _ h => h).trans
    (State.send_keeps ..).toT
  have hb : KeepsT s b := KeepsT.ite (fun _ => ha.trans (((State.modMill_keepsT a (fun x => { x with offset := m.offset }) fun _ h => h).trans
    (State.correct_keepsT ..)).trans (State.modMill_keepsT _ (fun x => x.countSync m.offset) fun _ h => h))) fun _ => ha
  exact hb.trans (State.modMill_keepsT b (fun x => { x with lastSync := x.now }) fun _ h => h)

theorem execPtpSync_keepsT (m : PtpMeas) (s : State) : ∃ t, execPtpSync m s = .next t ∧ KeepsT s t := by
  refine ⟨_, rfl, ?_⟩
  unfold State.ptpSync
  split
  · exact KeepsT.refl s
  · split
    · exact State.takeSync_keepsT ..
    · exact State.modMill_keepsT s (fun x => { x with twoStep := some (m.port, x.now) }) fun _ h => h
    · extract_lets a
      have ha : KeepsT s a := State.modMill_keepsT s (fun x => { x with delay := m.delay, offset := m.offset, gotDelay := true }) fun _ h => h
      exact KeepsT.ite (fun _ => ha.trans (State.correct_keepsT ..)) fun _ => ha

theorem execPtpFollowUp_keepsT (m : PtpMeas) (s : State) : ∃ t, execPtpFollowUp m s = .next t ∧ KeepsT s t := by
  refine ⟨_, rfl, ?_⟩
  unfold State.ptpFollowUp
  exact KeepsT.ite (fun _ => State.takeSync_keepsT ..) fun _ => KeepsT.refl s

theorem idle_keepsT (s : State) : KeepsT s (idle s) := by
  unfold idle
  split
  · exact KeepsT.refl s
  · exact State.modMill_keepsT s (fun m => { m with now := m.now + 1 }) fun _ h => h

end Sys2Proof.Machine
end

