-- ==== Sys2Proof/Laws/Keeps/Exec.lean ====
section
/-! SUPPORT. What every command keeps: each answers a next state with the queue, the fuses, the lock bits, mill time and the canonical
form as `KeepsR` or `KeepsT` says. -/
namespace Sys2Proof.Machine
open Sys2Proof

/-- Every command answers a next state; what it keeps, a reset and the three commands that set mill time apart. -/
theorem exec_all (i : Instr) (s : State) : ∃ t, exec i s = .next t ∧ (KeepsR s t ∨ KeepsT s t) := by
  cases i with
  | regWrite _ _ _ => exact (let ⟨t, h, k⟩ := execRegWrite_keepsR _ _ _ s; ⟨t, h, .inl k⟩)
  | lockSet _ _ => exact (let ⟨t, h, k⟩ := execLockSet_keepsR _ _ s; ⟨t, h, .inl k⟩)
  | counterRead _ _ => exact (let ⟨t, h, k⟩ := execCounterRead_keeps _ _ s; ⟨t, h, .inl k.toR⟩)
  | regRd _ => exact (let ⟨t, h, k⟩ := execRegRd_keepsR _ s; ⟨t, h, .inl k⟩)
  | regWr _ => exact (let ⟨t, h, k⟩ := execRegWr_keepsR _ s; ⟨t, h, .inl k⟩)
  | ihlakInvalid _ => exact (let ⟨t, h, k⟩ := execIhlakInvalid_keeps _ s; ⟨t, h, .inl k.toR⟩)
  | stage _ => exact (let ⟨t, h, k⟩ := execStage_keeps _ s; ⟨t, h, .inl k.toR⟩)
  | bind _ => exact (let ⟨t, h, k⟩ := execBind_keeps _ s; ⟨t, h, .inl k.toR⟩)
  | unbind _ => exact (let ⟨t, h, k⟩ := execUnbind_keeps _ s; ⟨t, h, .inl k.toR⟩)
  | rebind _ => exact (let ⟨t, h, k⟩ := execRebind_keeps _ s; ⟨t, h, .inl k.toR⟩)
  | discard _ => exact (let ⟨t, h, k⟩ := execDiscard_keeps _ s; ⟨t, h, .inl k.toR⟩)
  | drainComplete _ => exact (let ⟨t, h, k⟩ := execDrainComplete_keeps _ s; ⟨t, h, .inl k.toR⟩)
  | drainLimitExpiry _ => exact (let ⟨t, h, k⟩ := execDrainLimitExpiry_keeps _ s; ⟨t, h, .inl k.toR⟩)
  | scrubComplete _ => exact (let ⟨t, h, k⟩ := execScrubComplete_keeps _ s; ⟨t, h, .inl k.toR⟩)
  | retireComplete _ => exact (let ⟨t, h, k⟩ := execRetireComplete_keeps _ s; ⟨t, h, .inl k.toR⟩)
  | keyDestroyTimeout _ => exact (let ⟨t, h, k⟩ := execKeyDestroyTimeout_keeps _ s; ⟨t, h, .inl k.toR⟩)
  | loadComplete _ => exact (let ⟨t, h, k⟩ := execLoadComplete_keeps _ s; ⟨t, h, .inl k.toR⟩)
  | millracePacket _ _ _ => exact (let ⟨t, h, k⟩ := execMillracePacket_keeps _ _ _ s; ⟨t, h, .inl k.toR⟩)
  | linkFrameAuthFail _ => exact (let ⟨t, h, k⟩ := execLinkFrameAuthFail_keeps _ s; ⟨t, h, .inl k.toR⟩)
  | ptpSync _ => exact (let ⟨t, h, k⟩ := execPtpSync_keepsT _ s; ⟨t, h, .inr k⟩)
  | ptpUnsupported v0 => exact (let ⟨t, h, k⟩ := execPtpUnsupported_keeps v0 s; ⟨t, h, .inl k.toR⟩)
  | ptpHoldover  => exact (let ⟨t, h, k⟩ := execPtpHoldover_keeps  s; ⟨t, h, .inl k.toR⟩)
  | ppsInEdge  => exact (let ⟨t, h, k⟩ := execPpsInEdge_keeps  s; ⟨t, h, .inl k.toR⟩)
  | ppsOutEdge  => exact (let ⟨t, h, k⟩ := execPpsOutEdge_keeps  s; ⟨t, h, .inl k.toR⟩)
  | revolutionStart _ => exact (let ⟨t, h, k⟩ := execRevolutionStart_keeps _ s; ⟨t, h, .inl k.toR⟩)
  | leaseExpiry _ => exact (let ⟨t, h, k⟩ := execLeaseExpiry_keeps _ s; ⟨t, h, .inl k.toR⟩)
  | phaseStart _ _ => exact (let ⟨t, h, k⟩ := execPhaseStart_keeps _ _ s; ⟨t, h, .inl k.toR⟩)
  | heldPhaseStart _ _ => exact (let ⟨t, h, k⟩ := execHeldPhaseStart_keeps _ _ s; ⟨t, h, .inl k.toR⟩)
  | collectiveWindow _ _ => exact (let ⟨t, h, k⟩ := execCollectiveWindow_keeps _ _ s; ⟨t, h, .inl k.toR⟩)
  | windowClose _ _ => exact (let ⟨t, h, k⟩ := execWindowClose_keeps _ _ s; ⟨t, h, .inl k.toR⟩)
  | queueScan _ _ => exact (let ⟨t, h, k⟩ := execQueueScan_keeps _ _ s; ⟨t, h, .inl k.toR⟩)
  | leaseCheck _ _ => exact (let ⟨t, h, k⟩ := execLeaseCheck_keeps _ _ s; ⟨t, h, .inl k.toR⟩)
  | digestCompare _ _ => exact (let ⟨t, h, k⟩ := execDigestCompare_keeps _ _ s; ⟨t, h, .inl k.toR⟩)
  | testSlot _ _ => exact (let ⟨t, h, k⟩ := execTestSlot_keeps _ _ s; ⟨t, h, .inl k.toR⟩)
  | versionRelease _ _ => exact (let ⟨t, h, k⟩ := execVersionRelease_keeps _ _ s; ⟨t, h, .inl k.toR⟩)
  | powerHint _ _ => exact (let ⟨t, h, k⟩ := execPowerHint_keeps _ _ s; ⟨t, h, .inl k.toR⟩)
  | hintLapse _ => exact (let ⟨t, h, k⟩ := execHintLapse_keeps _ s; ⟨t, h, .inl k.toR⟩)
  | deadlineMiss _ _ => exact (let ⟨t, h, k⟩ := execDeadlineMiss_keeps _ _ s; ⟨t, h, .inl k.toR⟩)
  | brakeComplete _ => exact (let ⟨t, h, k⟩ := execBrakeComplete_keeps _ s; ⟨t, h, .inl k.toR⟩)
  | brakeNFall  => exact (let ⟨t, h, k⟩ := execBrakeNFall_keeps  s; ⟨t, h, .inl k.toR⟩)
  | release _ => exact (let ⟨t, h, k⟩ := execRelease_keeps _ s; ⟨t, h, .inl k.toR⟩)
  | halt _ => exact (let ⟨t, h, k⟩ := execHalt_keeps _ s; ⟨t, h, .inl k.toR⟩)
  | abort _ => exact (let ⟨t, h, k⟩ := execAbort_keeps _ s; ⟨t, h, .inl k.toR⟩)
  | topLoStore _ _ => exact (let ⟨t, h, k⟩ := execTopLoStore_keeps _ _ s; ⟨t, h, .inl k.toR⟩)
  | topHiStore _ _ => exact (let ⟨t, h, k⟩ := execTopHiStore_keeps _ _ s; ⟨t, h, .inl k.toR⟩)
  | topEnqueue _ => exact (let ⟨t, h, k⟩ := execTopEnqueue_keeps _ s; ⟨t, h, .inl k.toR⟩)
  | topDispatch _ => exact (let ⟨t, h, k⟩ := execTopDispatch_keeps _ s; ⟨t, h, .inl k.toR⟩)
  | nop _ => exact (let ⟨t, h, k⟩ := execNop_keeps _ s; ⟨t, h, .inl k.toR⟩)
  | mma _ _ => exact (let ⟨t, h, k⟩ := execMma_keeps _ _ s; ⟨t, h, .inl k.toR⟩)
  | weightLoadDone _ _ => exact (let ⟨t, h, k⟩ := execWeightLoadDone_keeps _ _ s; ⟨t, h, .inl k.toR⟩)
  | mmaComplete _ _ => exact (let ⟨t, h, k⟩ := execMmaComplete_keeps _ _ s; ⟨t, h, .inl k.toR⟩)
  | load _ => exact (let ⟨t, h, k⟩ := execLoad_keeps _ s; ⟨t, h, .inl k.toR⟩)
  | store _ => exact (let ⟨t, h, k⟩ := execStore_keeps _ s; ⟨t, h, .inl k.toR⟩)
  | transferComplete _ _ => exact (let ⟨t, h, k⟩ := execTransferComplete_keeps _ _ s; ⟨t, h, .inl k.toR⟩)
  | drainReg _ => exact (let ⟨t, h, k⟩ := execDrainReg_keeps _ s; ⟨t, h, .inl k.toR⟩)
  | drainMem _ => exact (let ⟨t, h, k⟩ := execDrainMem_keeps _ s; ⟨t, h, .inl k.toR⟩)
  | drainTin _ => exact (let ⟨t, h, k⟩ := execDrainTin_keeps _ s; ⟨t, h, .inl k.toR⟩)
  | drainDiscard _ => exact (let ⟨t, h, k⟩ := execDrainDiscard_keeps _ s; ⟨t, h, .inl k.toR⟩)
  | drainCompleteTop _ _ => exact (let ⟨t, h, k⟩ := execDrainCompleteTop_keeps _ _ s; ⟨t, h, .inl k.toR⟩)
  | tinCvt _ => exact (let ⟨t, h, k⟩ := execTinCvt_keeps _ s; ⟨t, h, .inl k.toR⟩)
  | tollAlloc _ => exact (let ⟨t, h, k⟩ := execTollAlloc_keeps _ s; ⟨t, h, .inl k.toR⟩)
  | tollFree _ => exact (let ⟨t, h, k⟩ := execTollFree_keeps _ s; ⟨t, h, .inl k.toR⟩)
  | tollServe  => exact (let ⟨t, h, k⟩ := execTollServe_keeps  s; ⟨t, h, .inl k.toR⟩)
  | wait _ => exact (let ⟨t, h, k⟩ := execWait_keeps _ s; ⟨t, h, .inl k.toR⟩)
  | signal _ => exact (let ⟨t, h, k⟩ := execSignal_keeps _ s; ⟨t, h, .inl k.toR⟩)
  | fence _ => exact (let ⟨t, h, k⟩ := execFence_keeps _ s; ⟨t, h, .inl k.toR⟩)
  | fenceComplete _ => exact (let ⟨t, h, k⟩ := execFenceComplete_keeps _ s; ⟨t, h, .inl k.toR⟩)
  | add _ => exact (let ⟨t, h, k⟩ := execAdd_keeps _ s; ⟨t, h, .inl k.toR⟩)
  | sub _ => exact (let ⟨t, h, k⟩ := execSub_keeps _ s; ⟨t, h, .inl k.toR⟩)
  | mul _ => exact (let ⟨t, h, k⟩ := execMul_keeps _ s; ⟨t, h, .inl k.toR⟩)
  | fma _ => exact (let ⟨t, h, k⟩ := execFma_keeps _ s; ⟨t, h, .inl k.toR⟩)
  | fnma _ => exact (let ⟨t, h, k⟩ := execFnma_keeps _ s; ⟨t, h, .inl k.toR⟩)
  | aff _ => exact (let ⟨t, h, k⟩ := execAff_keeps _ s; ⟨t, h, .inl k.toR⟩)
  | mull _ => exact (let ⟨t, h, k⟩ := execMull_keeps _ s; ⟨t, h, .inl k.toR⟩)
  | fmal _ => exact (let ⟨t, h, k⟩ := execFmal_keeps _ s; ⟨t, h, .inl k.toR⟩)
  | vmin _ => exact (let ⟨t, h, k⟩ := execVmin_keeps _ s; ⟨t, h, .inl k.toR⟩)
  | vmax _ => exact (let ⟨t, h, k⟩ := execVmax_keeps _ s; ⟨t, h, .inl k.toR⟩)
  | vabs _ => exact (let ⟨t, h, k⟩ := execVabs_keeps _ s; ⟨t, h, .inl k.toR⟩)
  | vneg _ => exact (let ⟨t, h, k⟩ := execVneg_keeps _ s; ⟨t, h, .inl k.toR⟩)
  | cmpgt _ => exact (let ⟨t, h, k⟩ := execCmpgt_keeps _ s; ⟨t, h, .inl k.toR⟩)
  | vsel _ => exact (let ⟨t, h, k⟩ := execVsel_keeps _ s; ⟨t, h, .inl k.toR⟩)
  | mov _ => exact (let ⟨t, h, k⟩ := execMov_keeps _ s; ⟨t, h, .inl k.toR⟩)
  | fill _ => exact (let ⟨t, h, k⟩ := execFill_keeps _ s; ⟨t, h, .inl k.toR⟩)
  | movt _ => exact (let ⟨t, h, k⟩ := execMovt_keeps _ s; ⟨t, h, .inl k.toR⟩)
  | rcp _ => exact (let ⟨t, h, k⟩ := execRcp_keeps _ s; ⟨t, h, .inl k.toR⟩)
  | sqrt _ => exact (let ⟨t, h, k⟩ := execSqrt_keeps _ s; ⟨t, h, .inl k.toR⟩)
  | rsqrt _ => exact (let ⟨t, h, k⟩ := execRsqrt_keeps _ s; ⟨t, h, .inl k.toR⟩)
  | exp _ => exact (let ⟨t, h, k⟩ := execExp_keeps _ s; ⟨t, h, .inl k.toR⟩)
  | exp2 _ => exact (let ⟨t, h, k⟩ := execExp2_keeps _ s; ⟨t, h, .inl k.toR⟩)
  | log _ => exact (let ⟨t, h, k⟩ := execLog_keeps _ s; ⟨t, h, .inl k.toR⟩)
  | log2 _ => exact (let ⟨t, h, k⟩ := execLog2_keeps _ s; ⟨t, h, .inl k.toR⟩)
  | tanh _ => exact (let ⟨t, h, k⟩ := execTanh_keeps _ s; ⟨t, h, .inl k.toR⟩)
  | sigmoid _ => exact (let ⟨t, h, k⟩ := execSigmoid_keeps _ s; ⟨t, h, .inl k.toR⟩)
  | erf _ => exact (let ⟨t, h, k⟩ := execErf_keeps _ s; ⟨t, h, .inl k.toR⟩)
  | rsum _ => exact (let ⟨t, h, k⟩ := execRsum_keeps _ s; ⟨t, h, .inl k.toR⟩)
  | rsumsq _ => exact (let ⟨t, h, k⟩ := execRsumsq_keeps _ s; ⟨t, h, .inl k.toR⟩)
  | rdot _ => exact (let ⟨t, h, k⟩ := execRdot_keeps _ s; ⟨t, h, .inl k.toR⟩)
  | rmax _ => exact (let ⟨t, h, k⟩ := execRmax_keeps _ s; ⟨t, h, .inl k.toR⟩)
  | rmin _ => exact (let ⟨t, h, k⟩ := execRmin_keeps _ s; ⟨t, h, .inl k.toR⟩)
  | ramax _ => exact (let ⟨t, h, k⟩ := execRamax_keeps _ s; ⟨t, h, .inl k.toR⟩)
  | iadd _ => exact (let ⟨t, h, k⟩ := execIadd_keeps _ s; ⟨t, h, .inl k.toR⟩)
  | isub _ => exact (let ⟨t, h, k⟩ := execIsub_keeps _ s; ⟨t, h, .inl k.toR⟩)
  | iand _ => exact (let ⟨t, h, k⟩ := execIand_keeps _ s; ⟨t, h, .inl k.toR⟩)
  | ior _ => exact (let ⟨t, h, k⟩ := execIor_keeps _ s; ⟨t, h, .inl k.toR⟩)
  | ixor _ => exact (let ⟨t, h, k⟩ := execIxor_keeps _ s; ⟨t, h, .inl k.toR⟩)
  | ishl _ => exact (let ⟨t, h, k⟩ := execIshl_keeps _ s; ⟨t, h, .inl k.toR⟩)
  | ishr _ => exact (let ⟨t, h, k⟩ := execIshr_keeps _ s; ⟨t, h, .inl k.toR⟩)
  | ilsr _ => exact (let ⟨t, h, k⟩ := execIlsr_keeps _ s; ⟨t, h, .inl k.toR⟩)
  | cvt _ => exact (let ⟨t, h, k⟩ := execCvt_keeps _ s; ⟨t, h, .inl k.toR⟩)
  | srSet _ => exact (let ⟨t, h, k⟩ := execSrSet_keeps _ s; ⟨t, h, .inl k.toR⟩)
  | srKeyReady _ => exact (let ⟨t, h, k⟩ := execSrKeyReady_keeps _ s; ⟨t, h, .inl k.toR⟩)
  | statRead _ => exact (let ⟨t, h, k⟩ := execStatRead_keeps _ s; ⟨t, h, .inl k.toR⟩)
  | vecComplete _ _ => exact (let ⟨t, h, k⟩ := execVecComplete_keeps _ _ s; ⟨t, h, .inl k.toR⟩)
  | phaseDone _ => exact (let ⟨t, h, k⟩ := execPhaseDone_keeps _ s; ⟨t, h, .inl k.toR⟩)
  | coreTrap _ _ _ => exact (let ⟨t, h, k⟩ := execCoreTrap_keeps _ _ _ s; ⟨t, h, .inl k.toR⟩)
  | resumeStore _ _ => exact (let ⟨t, h, k⟩ := execResumeStore_keeps _ _ s; ⟨t, h, .inl k.toR⟩)
  | coreHalt _ _ => exact (let ⟨t, h, k⟩ := execCoreHalt_keeps _ _ s; ⟨t, h, .inl k.toR⟩)
  | coreResume _ => exact (let ⟨t, h, k⟩ := execCoreResume_keeps _ s; ⟨t, h, .inl k.toR⟩)
  | syncSignal _ _ _ => exact (let ⟨t, h, k⟩ := execSyncSignal_keeps _ _ _ s; ⟨t, h, .inl k.toR⟩)
  | waitRelease _ => exact (let ⟨t, h, k⟩ := execWaitRelease_keeps _ s; ⟨t, h, .inl k.toR⟩)
  | quernIngest _ _ _ _ => exact (let ⟨t, h, k⟩ := execQuernIngest_keeps _ _ _ _ s; ⟨t, h, .inl k.toR⟩)
  | ingestComplete _ _ _ => exact (let ⟨t, h, k⟩ := execIngestComplete_keeps _ _ _ s; ⟨t, h, .inl k.toR⟩)
  | ruleLatch _ _ => exact (let ⟨t, h, k⟩ := execRuleLatch_keeps _ _ s; ⟨t, h, .inl k.toR⟩)
  | quernSweep _ _ _ => exact (let ⟨t, h, k⟩ := execQuernSweep_keeps _ _ _ s; ⟨t, h, .inl k.toR⟩)
  | sweepComplete _ _ => exact (let ⟨t, h, k⟩ := execSweepComplete_keeps _ _ s; ⟨t, h, .inl k.toR⟩)
  | flipPass _ _ => exact (let ⟨t, h, k⟩ := execFlipPass_keeps _ _ s; ⟨t, h, .inl k.toR⟩)
  | flipComplete _ _ => exact (let ⟨t, h, k⟩ := execFlipComplete_keeps _ _ s; ⟨t, h, .inl k.toR⟩)
  | laggedSweep _ _ _ _ => exact (let ⟨t, h, k⟩ := execLaggedSweep_keeps _ _ _ _ s; ⟨t, h, .inl k.toR⟩)
  | laggedCommit _ _ _ => exact (let ⟨t, h, k⟩ := execLaggedCommit_keeps _ _ _ s; ⟨t, h, .inl k.toR⟩)
  | qrnLoad _ => exact (let ⟨t, h, k⟩ := execQrnLoad_keeps _ s; ⟨t, h, .inl k.toR⟩)
  | qrnUnload _ => exact (let ⟨t, h, k⟩ := execQrnUnload_keeps _ s; ⟨t, h, .inl k.toR⟩)
  | memFree _ _ => exact (let ⟨t, h, k⟩ := execMemFree_keeps _ _ s; ⟨t, h, .inl k.toR⟩)
  | uFree _ _ _ => exact (let ⟨t, h, k⟩ := execUFree_keeps _ _ _ s; ⟨t, h, .inl k.toR⟩)
  | freeComplete _ _ => exact (let ⟨t, h, k⟩ := execFreeComplete_keeps _ _ s; ⟨t, h, .inl k.toR⟩)
  | leatPassStart _ _ => exact (let ⟨t, h, k⟩ := execLeatPassStart_keeps _ _ s; ⟨t, h, .inl k.toR⟩)
  | leatSegmentIssue _ _ => exact (let ⟨t, h, k⟩ := execLeatSegmentIssue_keeps _ _ s; ⟨t, h, .inl k.toR⟩)
  | leatSegmentDone _ _ => exact (let ⟨t, h, k⟩ := execLeatSegmentDone_keeps _ _ s; ⟨t, h, .inl k.toR⟩)
  | leatPassEnd _ _ => exact (let ⟨t, h, k⟩ := execLeatPassEnd_keeps _ _ s; ⟨t, h, .inl k.toR⟩)
  | weirLoad _ => exact (let ⟨t, h, k⟩ := execWeirLoad_keeps _ s; ⟨t, h, .inl k.toR⟩)
  | weirUnload _ => exact (let ⟨t, h, k⟩ := execWeirUnload_keeps _ s; ⟨t, h, .inl k.toR⟩)
  | promote _ => exact (let ⟨t, h, k⟩ := execPromote_keeps _ s; ⟨t, h, .inl k.toR⟩)
  | readmit _ => exact (let ⟨t, h, k⟩ := execReadmit_keeps _ s; ⟨t, h, .inl k.toR⟩)
  | collectiveStart _ _ => exact (let ⟨t, h, k⟩ := execCollectiveStart_keeps _ _ s; ⟨t, h, .inl k.toR⟩)
  | collChunk _ => exact (let ⟨t, h, k⟩ := execCollChunk_keeps _ s; ⟨t, h, .inl k.toR⟩)
  | collCredit _ => exact (let ⟨t, h, k⟩ := execCollCredit_keeps _ s; ⟨t, h, .inl k.toR⟩)
  | collNack _ => exact (let ⟨t, h, k⟩ := execCollNack_keeps _ s; ⟨t, h, .inl k.toR⟩)
  | collAck _ => exact (let ⟨t, h, k⟩ := execCollAck_keeps _ s; ⟨t, h, .inl k.toR⟩)
  | creditReturn _ => exact (let ⟨t, h, k⟩ := execCreditReturn_keeps _ s; ⟨t, h, .inl k.toR⟩)
  | weirMessage _ => exact (let ⟨t, h, k⟩ := execWeirMessage_keeps _ s; ⟨t, h, .inl k.toR⟩)
  | rootWaitExpiry _ _ => exact (let ⟨t, h, k⟩ := execRootWaitExpiry_keeps _ _ s; ⟨t, h, .inl k.toR⟩)
  | weirNodeEcc _ _ => exact (let ⟨t, h, k⟩ := execWeirNodeEcc_keeps _ _ s; ⟨t, h, .inl k.toR⟩)
  | leafRecomputeDone _ _ => exact (let ⟨t, h, k⟩ := execLeafRecomputeDone_keeps _ _ s; ⟨t, h, .inl k.toR⟩)
  | rdmaWrite _ => exact (let ⟨t, h, k⟩ := execRdmaWrite_keeps _ s; ⟨t, h, .inl k.toR⟩)
  | rdmaRead _ => exact (let ⟨t, h, k⟩ := execRdmaRead_keeps _ s; ⟨t, h, .inl k.toR⟩)
  | roceUnsupported _ _ => exact (let ⟨t, h, k⟩ := execRoceUnsupported_keeps _ _ s; ⟨t, h, .inl k.toR⟩)
  | roceAck _ _ _ => exact (let ⟨t, h, k⟩ := execRoceAck_keeps _ _ _ s; ⟨t, h, .inl k.toR⟩)
  | roceCnp _ => exact (let ⟨t, h, k⟩ := execRoceCnp_keeps _ s; ⟨t, h, .inl k.toR⟩)
  | roceRateRecover _ => exact (let ⟨t, h, k⟩ := execRoceRateRecover_keeps _ s; ⟨t, h, .inl k.toR⟩)
  | roceRetransmit _ => exact (let ⟨t, h, k⟩ := execRoceRetransmit_keeps _ s; ⟨t, h, .inl k.toR⟩)
  | cmdNop _ _ => exact (let ⟨t, h, k⟩ := execCmdNop_keeps _ _ s; ⟨t, h, .inl k.toR⟩)
  | cmdAlloc _ _ => exact (let ⟨t, h, k⟩ := execCmdAlloc_keeps _ _ s; ⟨t, h, .inl k.toR⟩)
  | cmdFree _ _ => exact (let ⟨t, h, k⟩ := execCmdFree_keeps _ _ s; ⟨t, h, .inl k.toR⟩)
  | cmdCopy _ _ => exact (let ⟨t, h, k⟩ := execCmdCopy_keeps _ _ s; ⟨t, h, .inl k.toR⟩)
  | cmdWait _ _ => exact (let ⟨t, h, k⟩ := execCmdWait_keeps _ _ s; ⟨t, h, .inl k.toR⟩)
  | cmdWaitTimeout _ _ => exact (let ⟨t, h, k⟩ := execCmdWaitTimeout_keeps _ _ s; ⟨t, h, .inl k.toR⟩)
  | cmdSignal _ _ => exact (let ⟨t, h, k⟩ := execCmdSignal_keeps _ _ s; ⟨t, h, .inl k.toR⟩)
  | unsealObj _ _ => exact (let ⟨t, h, k⟩ := execUnseal_keeps _ _ s; ⟨t, h, .inl k.toR⟩)
  | copyEngineComplete  => exact (let ⟨t, h, k⟩ := execCopyEngineComplete_keeps  s; ⟨t, h, .inl k.toR⟩)
  | eventRecordWrite _ => exact (let ⟨t, h, k⟩ := execEventRecordWrite_keeps _ s; ⟨t, h, .inl k.toR⟩)
  | create _ => exact (let ⟨t, h, k⟩ := execCreate_keeps _ s; ⟨t, h, .inl k.toR⟩)
  | ctxLoad _ => exact (let ⟨t, h, k⟩ := execCtxLoad_keeps _ s; ⟨t, h, .inl k.toR⟩)
  | evict _ => exact (let ⟨t, h, k⟩ := execEvict_keeps _ s; ⟨t, h, .inl k.toR⟩)
  | evictComplete _ => exact (let ⟨t, h, k⟩ := execEvictComplete_keeps _ s; ⟨t, h, .inl k.toR⟩)
  | ctxEnd _ => exact (let ⟨t, h, k⟩ := execCtxEnd_keeps _ s; ⟨t, h, .inl k.toR⟩)
  | destroy _ => exact (let ⟨t, h, k⟩ := execDestroy_keeps _ s; ⟨t, h, .inl k.toR⟩)
  | connect _ => exact (let ⟨t, h, k⟩ := execConnect_keeps _ s; ⟨t, h, .inl k.toR⟩)
  | qpReset _ => exact (let ⟨t, h, k⟩ := execQpReset_keeps _ s; ⟨t, h, .inl k.toR⟩)
  | sluiceRefused _ => exact (let ⟨t, h, k⟩ := execSluiceRefused_keeps _ s; ⟨t, h, .inl k.toR⟩)
  | brake _ => exact (let ⟨t, h, k⟩ := execBrake_keeps _ s; ⟨t, h, .inl k.toR⟩)
  | lease _ => exact (let ⟨t, h, k⟩ := execLease_keeps _ s; ⟨t, h, .inl k.toR⟩)
  | haltPart _ => exact (let ⟨t, h, k⟩ := execHaltPart_keeps _ s; ⟨t, h, .inl k.toR⟩)
  | abortCtx _ => exact (let ⟨t, h, k⟩ := execAbortCtx_keeps _ s; ⟨t, h, .inl k.toR⟩)
  | quarantinePort _ => exact (let ⟨t, h, k⟩ := execQuarantinePort_keeps _ s; ⟨t, h, .inl k.toR⟩)
  | hello _ => exact (let ⟨t, h, k⟩ := execHello_keeps _ s; ⟨t, h, .inl k.toR⟩)
  | attest _ => exact (let ⟨t, h, k⟩ := execAttest_keeps _ s; ⟨t, h, .inl k.toR⟩)
  | finish _ _ => exact (let ⟨t, h, k⟩ := execFinish_keeps _ _ s; ⟨t, h, .inl k.toR⟩)
  | done _ => exact (let ⟨t, h, k⟩ := execDone_keeps _ s; ⟨t, h, .inl k.toR⟩)
  | setupTimeout _ => exact (let ⟨t, h, k⟩ := execSetupTimeout_keeps _ s; ⟨t, h, .inl k.toR⟩)
  | wrappedKey _ => exact (let ⟨t, h, k⟩ := execWrappedKey_keeps _ s; ⟨t, h, .inl k.toR⟩)
  | approve _ => exact (let ⟨t, h, k⟩ := execApprove_keeps _ s; ⟨t, h, .inl k.toR⟩)
  | close _ => exact (let ⟨t, h, k⟩ := execClose_keeps _ s; ⟨t, h, .inl k.toR⟩)
  | bcChallengeRead  => exact (let ⟨t, h, k⟩ := execBcChallengeRead_keeps  s; ⟨t, h, .inl k.toR⟩)
  | bcResponseWrite _ => exact (let ⟨t, h, k⟩ := execBcResponseWrite_keeps _ s; ⟨t, h, .inl k.toR⟩)
  | bcAuthIdle  => exact (let ⟨t, h, k⟩ := execBcAuthIdle_keeps  s; ⟨t, h, .inl k.toR⟩)
  | fatalClear _ => exact (let ⟨t, h, k⟩ := execFatalClear_keeps _ s; ⟨t, h, .inl k.toR⟩)
  | keyWrite _ => exact (let ⟨t, h, k⟩ := execKeyWrite_keeps _ s; ⟨t, h, .inl k.toR⟩)
  | keyErase _ => exact (let ⟨t, h, k⟩ := execKeyErase_keeps _ s; ⟨t, h, .inl k.toR⟩)
  | loadPubkey _ => exact (let ⟨t, h, k⟩ := execLoadPubkey_keeps _ s; ⟨t, h, .inl k.toR⟩)
  | keyCheckSweep _ => exact (let ⟨t, h, k⟩ := execKeyCheckSweep_keeps _ s; ⟨t, h, .inl k.toR⟩)
  | loadCharter _ => exact (let ⟨t, h, k⟩ := execLoadCharter_keeps _ s; ⟨t, h, .inl k.toR⟩)
  | unloadCharter _ => exact (let ⟨t, h, k⟩ := execUnloadCharter_keeps _ s; ⟨t, h, .inl k.toR⟩)
  | relRequest _ => exact (let ⟨t, h, k⟩ := execRelRequest_keeps _ s; ⟨t, h, .inl k.toR⟩)
  | relRun _ => exact (let ⟨t, h, k⟩ := execRelRun_keeps _ s; ⟨t, h, .inl k.toR⟩)
  | releaseComplete _ => exact (let ⟨t, h, k⟩ := execReleaseComplete_keeps _ s; ⟨t, h, .inl k.toR⟩)
  | relCancel _ => exact (let ⟨t, h, k⟩ := execRelCancel_keeps _ s; ⟨t, h, .inl k.toR⟩)
  | rollover _ => exact (let ⟨t, h, k⟩ := execRollover_keeps _ s; ⟨t, h, .inl k.toR⟩)
  | attKeyReady  => exact (let ⟨t, h, k⟩ := execAttKeyReady_keeps  s; ⟨t, h, .inl k.toR⟩)
  | macsecFrame _ _ => exact (let ⟨t, h, k⟩ := execMacsecFrame_keeps _ _ s; ⟨t, h, .inl k.toR⟩)
  | mkaFrame _ _ => exact (let ⟨t, h, k⟩ := execMkaFrame_keeps _ _ s; ⟨t, h, .inl k.toR⟩)
  | sakRekey _ _ => exact (let ⟨t, h, k⟩ := execSakRekey_keeps _ _ s; ⟨t, h, .inl k.toR⟩)
  | macsecLost _ => exact (let ⟨t, h, k⟩ := execMacsecLost_keeps _ s; ⟨t, h, .inl k.toR⟩)
  | tamper _ => exact (let ⟨t, h, k⟩ := execTamper_keeps _ s; ⟨t, h, .inl k.toR⟩)
  | pwrGoodLow  => exact (let ⟨t, h, k⟩ := execPwrGoodLow_keepsR  s; ⟨t, h, .inl k⟩)
  | resetNLow  => exact (let ⟨t, h, k⟩ := execResetNLow_keepsR  s; ⟨t, h, .inl k⟩)
  | bootStart  => exact (let ⟨t, h, k⟩ := execBootStart_keeps  s; ⟨t, h, .inl k.toR⟩)
  | firmwareAccepted _ => exact (let ⟨t, h, k⟩ := execFirmwareAccepted_keepsT _ s; ⟨t, h, .inr k⟩)
  | firmwareRejected _ => exact (let ⟨t, h, k⟩ := execFirmwareRejected_keeps _ s; ⟨t, h, .inl k.toR⟩)
  | memoryTrained _ => exact (let ⟨t, h, k⟩ := execMemoryTrained_keeps _ s; ⟨t, h, .inl k.toR⟩)
  | bootReady  => exact (let ⟨t, h, k⟩ := execBootReady_keeps  s; ⟨t, h, .inl k.toR⟩)
  | recoveryReq  => exact (let ⟨t, h, k⟩ := execRecoveryReq_keeps  s; ⟨t, h, .inl k.toR⟩)
  | recoveryData _ _ => exact (let ⟨t, h, k⟩ := execRecoveryData_keeps _ _ s; ⟨t, h, .inl k.toR⟩)
  | recoverySourceTimeout  => exact (let ⟨t, h, k⟩ := execRecoverySourceTimeout_keeps  s; ⟨t, h, .inl k.toR⟩)
  | transition _ => exact (let ⟨t, h, k⟩ := execTransition_keepsR _ s; ⟨t, h, .inl k⟩)
  | raiseSvn _ => exact (let ⟨t, h, k⟩ := execRaiseSvn_keeps _ s; ⟨t, h, .inl k.toR⟩)
  | revokeKey _ => exact (let ⟨t, h, k⟩ := execRevokeKey_keeps _ s; ⟨t, h, .inl k.toR⟩)
  | genIdentity _ => exact (let ⟨t, h, k⟩ := execGenIdentity_keeps _ s; ⟨t, h, .inl k.toR⟩)
  | identityGenerated  => exact (let ⟨t, h, k⟩ := execIdentityGenerated_keeps  s; ⟨t, h, .inl k.toR⟩)
  | lcReset _ => exact (let ⟨t, h, k⟩ := execLcReset_keepsR _ s; ⟨t, h, .inl k⟩)
  | fuseDigest _ => exact (let ⟨t, h, k⟩ := execFuseDigest_keeps _ s; ⟨t, h, .inl k.toR⟩)
  | arbitrationStart _ => exact (let ⟨t, h, k⟩ := execArbitrationStart_keeps _ s; ⟨t, h, .inl k.toR⟩)
  | arbitrationDecision _ _ _ => exact (let ⟨t, h, k⟩ := execArbitrationDecision_keeps _ _ _ s; ⟨t, h, .inl k.toR⟩)
  | patrolRead _ _ => exact (let ⟨t, h, k⟩ := execPatrolRead_keeps _ _ s; ⟨t, h, .inl k.toR⟩)
  | testSlotComplete _ _ => exact (let ⟨t, h, k⟩ := execTestSlotComplete_keeps _ _ s; ⟨t, h, .inl k.toR⟩)
  | retest _ => exact (let ⟨t, h, k⟩ := execRetest_keeps _ s; ⟨t, h, .inl k.toR⟩)
  | retestComplete _ => exact (let ⟨t, h, k⟩ := execRetestComplete_keeps _ s; ⟨t, h, .inl k.toR⟩)
  | wfiAll _ => exact (let ⟨t, h, k⟩ := execWfiAll_keeps _ s; ⟨t, h, .inl k.toR⟩)
  | wakeEvent _ => exact (let ⟨t, h, k⟩ := execWakeEvent_keepsR _ s; ⟨t, h, .inl k⟩)
  | domainGate _ => exact (let ⟨t, h, k⟩ := execDomainGate_keeps _ s; ⟨t, h, .inl k.toR⟩)
  | domainWake _ => exact (let ⟨t, h, k⟩ := execDomainWake_keeps _ s; ⟨t, h, .inl k.toR⟩)
  | wakeTimeout _ => exact (let ⟨t, h, k⟩ := execWakeTimeout_keeps _ s; ⟨t, h, .inl k.toR⟩)
  | voltageSettled _ => exact (let ⟨t, h, k⟩ := execVoltageSettled_keeps _ s; ⟨t, h, .inl k.toR⟩)
  | vrMismatch _ _ => exact (let ⟨t, h, k⟩ := execVrMismatch_keeps _ _ s; ⟨t, h, .inl k.toR⟩)
  | avsTimeout _ => exact (let ⟨t, h, k⟩ := execAvsTimeout_keeps _ s; ⟨t, h, .inl k.toR⟩)
  | thermalSample _ _ _ => exact (let ⟨t, h, k⟩ := execThermalSample_keeps _ _ _ s; ⟨t, h, .inl k.toR⟩)
  | powerCapWindow _ => exact (let ⟨t, h, k⟩ := execPowerCapWindow_keeps _ s; ⟨t, h, .inl k.toR⟩)
  | pmbusPoll _ => exact (let ⟨t, h, k⟩ := execPmbusPoll_keeps _ s; ⟨t, h, .inl k.toR⟩)
  | refLost _ => exact (let ⟨t, h, k⟩ := execRefLost_keeps _ s; ⟨t, h, .inl k.toR⟩)
  | operatorQueueScan  => exact (let ⟨t, h, k⟩ := execOperatorQueueScan_keeps  s; ⟨t, h, .inl k.toR⟩)
  | brakeNRise  => exact (let ⟨t, h, k⟩ := execBrakeNRise_keeps  s; ⟨t, h, .inl k.toR⟩)
  | pwrGoodRise  => exact (let ⟨t, h, k⟩ := execPwrGoodRise_keepsR  s; ⟨t, h, .inl k⟩)
  | referenceRestored _ => exact (let ⟨t, h, k⟩ := execReferenceRestored_keeps _ s; ⟨t, h, .inl k.toR⟩)
  | portLinkChange _ _ _ => exact (let ⟨t, h, k⟩ := execPortLinkChange_keeps _ _ _ s; ⟨t, h, .inl k.toR⟩)
  | pfcPauseFrame _ _ _ => exact (let ⟨t, h, k⟩ := execPfcPauseFrame_keeps _ _ _ s; ⟨t, h, .inl k.toR⟩)
  | ptpAnnounce _ _ => exact (let ⟨t, h, k⟩ := execPtpAnnounce_keeps _ _ s; ⟨t, h, .inl k.toR⟩)
  | ptpFollowUp _ => exact (let ⟨t, h, k⟩ := execPtpFollowUp_keepsT _ s; ⟨t, h, .inr k⟩)
  | ptpDelayReq _ => exact (let ⟨t, h, k⟩ := execPtpDelayReq_keeps _ s; ⟨t, h, .inl k.toR⟩)
  | ptpMasterSync _ => exact (let ⟨t, h, k⟩ := execPtpMasterSync_keeps _ s; ⟨t, h, .inl k.toR⟩)
  | quantizedLatch  => exact (let ⟨t, h, k⟩ := execQuantizedLatch_keeps  s; ⟨t, h, .inl k.toR⟩)
  | entdaa _ => exact (let ⟨t, h, k⟩ := execEntdaa_keeps _ s; ⟨t, h, .inl k.toR⟩)
  | attestReceived _ _ => exact (let ⟨t, h, k⟩ := execAttestReceived_keeps _ _ s; ⟨t, h, .inl k.toR⟩)
  | doneReceived _ => exact (let ⟨t, h, k⟩ := execDoneReceived_keeps _ s; ⟨t, h, .inl k.toR⟩)
end Sys2Proof.Machine
end

