-- ==== Sys2Proof/Laws/State.lean ====
section
/-! SUPPORT. The state's fields after each of its updates: one lemma per field per update, true by definition. What an update writes
is said by the lemmas at the end. -/
namespace Sys2Proof.Machine
open Sys2Proof

variable (s : State)


/-! ### setPart -/

@[simp] theorem State.setPart_pending (p : Nat) (v : Part) : (s.setPart p v).pending = s.pending := rfl
@[simp] theorem State.setPart_mill (p : Nat) (v : Part) : (s.setPart p v).mill = s.mill := rfl
@[simp] theorem State.setPart_stagedFull (p : Nat) (v : Part) : (s.setPart p v).stagedFull = s.stagedFull := rfl
@[simp] theorem State.setPart_device (p : Nat) (v : Part) : (s.setPart p v).device = s.device := rfl
@[simp] theorem State.setPart_stageObj (p : Nat) (v : Part) : (s.setPart p v).stageObj = s.stageObj := rfl
@[simp] theorem State.setPart_stageLen (p : Nat) (v : Part) : (s.setPart p v).stageLen = s.stageLen := rfl
@[simp] theorem State.setPart_partLock (p : Nat) (v : Part) : (s.setPart p v).partLock = s.partLock := rfl
@[simp] theorem State.setPart_weirs (p : Nat) (v : Part) : (s.setPart p v).weirs = s.weirs := rfl
@[simp] theorem State.setPart_querns (p : Nat) (v : Part) : (s.setPart p v).querns = s.querns := rfl
@[simp] theorem State.setPart_resolves (p : Nat) (v : Part) : (s.setPart p v).resolves = s.resolves := rfl
@[simp] theorem State.setPart_tollFails (p : Nat) (v : Part) : (s.setPart p v).tollFails = s.tollFails := rfl
@[simp] theorem State.setPart_testNext (p : Nat) (v : Part) : (s.setPart p v).testNext = s.testNext := rfl
@[simp] theorem State.setPart_testResults (p : Nat) (v : Part) : (s.setPart p v).testResults = s.testResults := rfl
@[simp] theorem State.setPart_tiles (p : Nat) (v : Part) : (s.setPart p v).tiles = s.tiles := rfl
@[simp] theorem State.setPart_clusters (p : Nat) (v : Part) : (s.setPart p v).clusters = s.clusters := rfl
@[simp] theorem State.setPart_tollQueue (p : Nat) (v : Part) : (s.setPart p v).tollQueue = s.tollQueue := rfl
@[simp] theorem State.setPart_granary (p : Nat) (v : Part) : (s.setPart p v).granary = s.granary := rfl
@[simp] theorem State.setPart_hbm (p : Nat) (v : Part) : (s.setPart p v).hbm = s.hbm := rfl
@[simp] theorem State.setPart_pond (p : Nat) (v : Part) : (s.setPart p v).pond = s.pond := rfl
@[simp] theorem State.setPart_leats (p : Nat) (v : Part) : (s.setPart p v).leats = s.leats := rfl
@[simp] theorem State.setPart_mem (p : Nat) (v : Part) : (s.setPart p v).mem = s.mem := rfl
@[simp] theorem State.setPart_ctxs (p : Nat) (v : Part) : (s.setPart p v).ctxs = s.ctxs := rfl
@[simp] theorem State.setPart_ctxRegs (p : Nat) (v : Part) : (s.setPart p v).ctxRegs = s.ctxRegs := rfl
@[simp] theorem State.setPart_pendingFrees (p : Nat) (v : Part) : (s.setPart p v).pendingFrees = s.pendingFrees := rfl
@[simp] theorem State.setPart_copyJobs (p : Nat) (v : Part) : (s.setPart p v).copyJobs = s.copyJobs := rfl
@[simp] theorem State.setPart_qps (p : Nat) (v : Part) : (s.setPart p v).qps = s.qps := rfl
@[simp] theorem State.setPart_ports (p : Nat) (v : Part) : (s.setPart p v).ports = s.ports := rfl
@[simp] theorem State.setPart_eth (p : Nat) (v : Part) : (s.setPart p v).eth = s.eth := rfl
@[simp] theorem State.setPart_sec (p : Nat) (v : Part) : (s.setPart p v).sec = s.sec := rfl
@[simp] theorem State.setPart_board (p : Nat) (v : Part) : (s.setPart p v).board = s.board := rfl
@[simp] theorem State.setPart_mce (p : Nat) (v : Part) : (s.setPart p v).mce = s.mce := rfl
@[simp] theorem State.setPart_life (p : Nat) (v : Part) : (s.setPart p v).life = s.life := rfl
@[simp] theorem State.setPart_ras (p : Nat) (v : Part) : (s.setPart p v).ras = s.ras := rfl
@[simp] theorem State.setPart_pwr (p : Nat) (v : Part) : (s.setPart p v).pwr = s.pwr := rfl
@[simp] theorem State.setPart_selects (p : Nat) (v : Part) : (s.setPart p v).selects = s.selects := rfl
@[simp] theorem State.setPart_selFactory (p : Nat) (v : Part) : (s.setPart p v).selFactory = s.selFactory := rfl
@[simp] theorem State.setPart_selBoard (p : Nat) (v : Part) : (s.setPart p v).selBoard = s.selBoard := rfl
@[simp] theorem State.setPart_out (p : Nat) (v : Part) : (s.setPart p v).out = s.out := rfl
@[simp] theorem State.setPart_draws (p : Nat) (v : Part) : (s.setPart p v).draws = s.draws := rfl
@[simp] theorem State.setPart_weir (p : Nat) (v : Part) (j : Nat) : (s.setPart p v).weir j = s.weir j := rfl
@[simp] theorem State.setPart_tile (p : Nat) (v : Part) (j : Nat) : (s.setPart p v).tile j = s.tile j := rfl
@[simp] theorem State.setPart_cluster (p : Nat) (v : Part) (j : Nat) : (s.setPart p v).cluster j = s.cluster j := rfl
@[simp] theorem State.setPart_ctx (p : Nat) (v : Part) (j : Nat) : (s.setPart p v).ctx j = s.ctx j := rfl
@[simp] theorem State.setPart_qp (p : Nat) (v : Part) (j : Nat) : (s.setPart p v).qp j = s.qp j := rfl
@[simp] theorem State.setPart_port (p : Nat) (v : Part) (j : Nat) : (s.setPart p v).port j = s.port j := rfl
@[simp] theorem State.setPart_quern (p : Nat) (v : Part) (i j : Nat) : (s.setPart p v).quern i j = s.quern i j := rfl
@[simp] theorem State.setPart_leat (p : Nat) (v : Part) (i j : Nat) : (s.setPart p v).leat i j = s.leat i j := rfl
@[simp] theorem State.setPart_now (p : Nat) (v : Part) : (s.setPart p v).now = s.now := rfl

/-! ### modPart -/

@[simp] theorem State.modPart_pending (p : Nat) (f : Part → Part) : (s.modPart p f).pending = s.pending := rfl
@[simp] theorem State.modPart_mill (p : Nat) (f : Part → Part) : (s.modPart p f).mill = s.mill := rfl
@[simp] theorem State.modPart_stagedFull (p : Nat) (f : Part → Part) : (s.modPart p f).stagedFull = s.stagedFull := rfl
@[simp] theorem State.modPart_device (p : Nat) (f : Part → Part) : (s.modPart p f).device = s.device := rfl
@[simp] theorem State.modPart_stageObj (p : Nat) (f : Part → Part) : (s.modPart p f).stageObj = s.stageObj := rfl
@[simp] theorem State.modPart_stageLen (p : Nat) (f : Part → Part) : (s.modPart p f).stageLen = s.stageLen := rfl
@[simp] theorem State.modPart_partLock (p : Nat) (f : Part → Part) : (s.modPart p f).partLock = s.partLock := rfl
@[simp] theorem State.modPart_weirs (p : Nat) (f : Part → Part) : (s.modPart p f).weirs = s.weirs := rfl
@[simp] theorem State.modPart_querns (p : Nat) (f : Part → Part) : (s.modPart p f).querns = s.querns := rfl
@[simp] theorem State.modPart_resolves (p : Nat) (f : Part → Part) : (s.modPart p f).resolves = s.resolves := rfl
@[simp] theorem State.modPart_tollFails (p : Nat) (f : Part → Part) : (s.modPart p f).tollFails = s.tollFails := rfl
@[simp] theorem State.modPart_testNext (p : Nat) (f : Part → Part) : (s.modPart p f).testNext = s.testNext := rfl
@[simp] theorem State.modPart_testResults (p : Nat) (f : Part → Part) : (s.modPart p f).testResults = s.testResults := rfl
@[simp] theorem State.modPart_tiles (p : Nat) (f : Part → Part) : (s.modPart p f).tiles = s.tiles := rfl
@[simp] theorem State.modPart_clusters (p : Nat) (f : Part → Part) : (s.modPart p f).clusters = s.clusters := rfl
@[simp] theorem State.modPart_tollQueue (p : Nat) (f : Part → Part) : (s.modPart p f).tollQueue = s.tollQueue := rfl
@[simp] theorem State.modPart_granary (p : Nat) (f : Part → Part) : (s.modPart p f).granary = s.granary := rfl
@[simp] theorem State.modPart_hbm (p : Nat) (f : Part → Part) : (s.modPart p f).hbm = s.hbm := rfl
@[simp] theorem State.modPart_pond (p : Nat) (f : Part → Part) : (s.modPart p f).pond = s.pond := rfl
@[simp] theorem State.modPart_leats (p : Nat) (f : Part → Part) : (s.modPart p f).leats = s.leats := rfl
@[simp] theorem State.modPart_mem (p : Nat) (f : Part → Part) : (s.modPart p f).mem = s.mem := rfl
@[simp] theorem State.modPart_ctxs (p : Nat) (f : Part → Part) : (s.modPart p f).ctxs = s.ctxs := rfl
@[simp] theorem State.modPart_ctxRegs (p : Nat) (f : Part → Part) : (s.modPart p f).ctxRegs = s.ctxRegs := rfl
@[simp] theorem State.modPart_pendingFrees (p : Nat) (f : Part → Part) : (s.modPart p f).pendingFrees = s.pendingFrees := rfl
@[simp] theorem State.modPart_copyJobs (p : Nat) (f : Part → Part) : (s.modPart p f).copyJobs = s.copyJobs := rfl
@[simp] theorem State.modPart_qps (p : Nat) (f : Part → Part) : (s.modPart p f).qps = s.qps := rfl
@[simp] theorem State.modPart_ports (p : Nat) (f : Part → Part) : (s.modPart p f).ports = s.ports := rfl
@[simp] theorem State.modPart_eth (p : Nat) (f : Part → Part) : (s.modPart p f).eth = s.eth := rfl
@[simp] theorem State.modPart_sec (p : Nat) (f : Part → Part) : (s.modPart p f).sec = s.sec := rfl
@[simp] theorem State.modPart_board (p : Nat) (f : Part → Part) : (s.modPart p f).board = s.board := rfl
@[simp] theorem State.modPart_mce (p : Nat) (f : Part → Part) : (s.modPart p f).mce = s.mce := rfl
@[simp] theorem State.modPart_life (p : Nat) (f : Part → Part) : (s.modPart p f).life = s.life := rfl
@[simp] theorem State.modPart_ras (p : Nat) (f : Part → Part) : (s.modPart p f).ras = s.ras := rfl
@[simp] theorem State.modPart_pwr (p : Nat) (f : Part → Part) : (s.modPart p f).pwr = s.pwr := rfl
@[simp] theorem State.modPart_selects (p : Nat) (f : Part → Part) : (s.modPart p f).selects = s.selects := rfl
@[simp] theorem State.modPart_selFactory (p : Nat) (f : Part → Part) : (s.modPart p f).selFactory = s.selFactory := rfl
@[simp] theorem State.modPart_selBoard (p : Nat) (f : Part → Part) : (s.modPart p f).selBoard = s.selBoard := rfl
@[simp] theorem State.modPart_out (p : Nat) (f : Part → Part) : (s.modPart p f).out = s.out := rfl
@[simp] theorem State.modPart_draws (p : Nat) (f : Part → Part) : (s.modPart p f).draws = s.draws := rfl
@[simp] theorem State.modPart_weir (p : Nat) (f : Part → Part) (j : Nat) : (s.modPart p f).weir j = s.weir j := rfl
@[simp] theorem State.modPart_tile (p : Nat) (f : Part → Part) (j : Nat) : (s.modPart p f).tile j = s.tile j := rfl
@[simp] theorem State.modPart_cluster (p : Nat) (f : Part → Part) (j : Nat) : (s.modPart p f).cluster j = s.cluster j := rfl
@[simp] theorem State.modPart_ctx (p : Nat) (f : Part → Part) (j : Nat) : (s.modPart p f).ctx j = s.ctx j := rfl
@[simp] theorem State.modPart_qp (p : Nat) (f : Part → Part) (j : Nat) : (s.modPart p f).qp j = s.qp j := rfl
@[simp] theorem State.modPart_port (p : Nat) (f : Part → Part) (j : Nat) : (s.modPart p f).port j = s.port j := rfl
@[simp] theorem State.modPart_quern (p : Nat) (f : Part → Part) (i j : Nat) : (s.modPart p f).quern i j = s.quern i j := rfl
@[simp] theorem State.modPart_leat (p : Nat) (f : Part → Part) (i j : Nat) : (s.modPart p f).leat i j = s.leat i j := rfl
@[simp] theorem State.modPart_now (p : Nat) (f : Part → Part) : (s.modPart p f).now = s.now := rfl

/-! ### setWeir -/

@[simp] theorem State.setWeir_pending (p : Nat) (v : Weir) : (s.setWeir p v).pending = s.pending := rfl
@[simp] theorem State.setWeir_mill (p : Nat) (v : Weir) : (s.setWeir p v).mill = s.mill := rfl
@[simp] theorem State.setWeir_parts (p : Nat) (v : Weir) : (s.setWeir p v).parts = s.parts := rfl
@[simp] theorem State.setWeir_stagedFull (p : Nat) (v : Weir) : (s.setWeir p v).stagedFull = s.stagedFull := rfl
@[simp] theorem State.setWeir_device (p : Nat) (v : Weir) : (s.setWeir p v).device = s.device := rfl
@[simp] theorem State.setWeir_stageObj (p : Nat) (v : Weir) : (s.setWeir p v).stageObj = s.stageObj := rfl
@[simp] theorem State.setWeir_stageLen (p : Nat) (v : Weir) : (s.setWeir p v).stageLen = s.stageLen := rfl
@[simp] theorem State.setWeir_partLock (p : Nat) (v : Weir) : (s.setWeir p v).partLock = s.partLock := rfl
@[simp] theorem State.setWeir_querns (p : Nat) (v : Weir) : (s.setWeir p v).querns = s.querns := rfl
@[simp] theorem State.setWeir_resolves (p : Nat) (v : Weir) : (s.setWeir p v).resolves = s.resolves := rfl
@[simp] theorem State.setWeir_tollFails (p : Nat) (v : Weir) : (s.setWeir p v).tollFails = s.tollFails := rfl
@[simp] theorem State.setWeir_testNext (p : Nat) (v : Weir) : (s.setWeir p v).testNext = s.testNext := rfl
@[simp] theorem State.setWeir_testResults (p : Nat) (v : Weir) : (s.setWeir p v).testResults = s.testResults := rfl
@[simp] theorem State.setWeir_tiles (p : Nat) (v : Weir) : (s.setWeir p v).tiles = s.tiles := rfl
@[simp] theorem State.setWeir_clusters (p : Nat) (v : Weir) : (s.setWeir p v).clusters = s.clusters := rfl
@[simp] theorem State.setWeir_tollQueue (p : Nat) (v : Weir) : (s.setWeir p v).tollQueue = s.tollQueue := rfl
@[simp] theorem State.setWeir_granary (p : Nat) (v : Weir) : (s.setWeir p v).granary = s.granary := rfl
@[simp] theorem State.setWeir_hbm (p : Nat) (v : Weir) : (s.setWeir p v).hbm = s.hbm := rfl
@[simp] theorem State.setWeir_pond (p : Nat) (v : Weir) : (s.setWeir p v).pond = s.pond := rfl
@[simp] theorem State.setWeir_leats (p : Nat) (v : Weir) : (s.setWeir p v).leats = s.leats := rfl
@[simp] theorem State.setWeir_mem (p : Nat) (v : Weir) : (s.setWeir p v).mem = s.mem := rfl
@[simp] theorem State.setWeir_ctxs (p : Nat) (v : Weir) : (s.setWeir p v).ctxs = s.ctxs := rfl
@[simp] theorem State.setWeir_ctxRegs (p : Nat) (v : Weir) : (s.setWeir p v).ctxRegs = s.ctxRegs := rfl
@[simp] theorem State.setWeir_pendingFrees (p : Nat) (v : Weir) : (s.setWeir p v).pendingFrees = s.pendingFrees := rfl
@[simp] theorem State.setWeir_copyJobs (p : Nat) (v : Weir) : (s.setWeir p v).copyJobs = s.copyJobs := rfl
@[simp] theorem State.setWeir_qps (p : Nat) (v : Weir) : (s.setWeir p v).qps = s.qps := rfl
@[simp] theorem State.setWeir_ports (p : Nat) (v : Weir) : (s.setWeir p v).ports = s.ports := rfl
@[simp] theorem State.setWeir_eth (p : Nat) (v : Weir) : (s.setWeir p v).eth = s.eth := rfl
@[simp] theorem State.setWeir_sec (p : Nat) (v : Weir) : (s.setWeir p v).sec = s.sec := rfl
@[simp] theorem State.setWeir_board (p : Nat) (v : Weir) : (s.setWeir p v).board = s.board := rfl
@[simp] theorem State.setWeir_mce (p : Nat) (v : Weir) : (s.setWeir p v).mce = s.mce := rfl
@[simp] theorem State.setWeir_life (p : Nat) (v : Weir) : (s.setWeir p v).life = s.life := rfl
@[simp] theorem State.setWeir_ras (p : Nat) (v : Weir) : (s.setWeir p v).ras = s.ras := rfl
@[simp] theorem State.setWeir_pwr (p : Nat) (v : Weir) : (s.setWeir p v).pwr = s.pwr := rfl
@[simp] theorem State.setWeir_selects (p : Nat) (v : Weir) : (s.setWeir p v).selects = s.selects := rfl
@[simp] theorem State.setWeir_selFactory (p : Nat) (v : Weir) : (s.setWeir p v).selFactory = s.selFactory := rfl
@[simp] theorem State.setWeir_selBoard (p : Nat) (v : Weir) : (s.setWeir p v).selBoard = s.selBoard := rfl
@[simp] theorem State.setWeir_out (p : Nat) (v : Weir) : (s.setWeir p v).out = s.out := rfl
@[simp] theorem State.setWeir_draws (p : Nat) (v : Weir) : (s.setWeir p v).draws = s.draws := rfl
@[simp] theorem State.setWeir_part (p : Nat) (v : Weir) (j : Nat) : (s.setWeir p v).part j = s.part j := rfl
@[simp] theorem State.setWeir_tile (p : Nat) (v : Weir) (j : Nat) : (s.setWeir p v).tile j = s.tile j := rfl
@[simp] theorem State.setWeir_cluster (p : Nat) (v : Weir) (j : Nat) : (s.setWeir p v).cluster j = s.cluster j := rfl
@[simp] theorem State.setWeir_ctx (p : Nat) (v : Weir) (j : Nat) : (s.setWeir p v).ctx j = s.ctx j := rfl
@[simp] theorem State.setWeir_qp (p : Nat) (v : Weir) (j : Nat) : (s.setWeir p v).qp j = s.qp j := rfl
@[simp] theorem State.setWeir_port (p : Nat) (v : Weir) (j : Nat) : (s.setWeir p v).port j = s.port j := rfl
@[simp] theorem State.setWeir_quern (p : Nat) (v : Weir) (i j : Nat) : (s.setWeir p v).quern i j = s.quern i j := rfl
@[simp] theorem State.setWeir_leat (p : Nat) (v : Weir) (i j : Nat) : (s.setWeir p v).leat i j = s.leat i j := rfl
@[simp] theorem State.setWeir_now (p : Nat) (v : Weir) : (s.setWeir p v).now = s.now := rfl

/-! ### modWeir -/

@[simp] theorem State.modWeir_pending (p : Nat) (f : Weir → Weir) : (s.modWeir p f).pending = s.pending := rfl
@[simp] theorem State.modWeir_mill (p : Nat) (f : Weir → Weir) : (s.modWeir p f).mill = s.mill := rfl
@[simp] theorem State.modWeir_parts (p : Nat) (f : Weir → Weir) : (s.modWeir p f).parts = s.parts := rfl
@[simp] theorem State.modWeir_stagedFull (p : Nat) (f : Weir → Weir) : (s.modWeir p f).stagedFull = s.stagedFull := rfl
@[simp] theorem State.modWeir_device (p : Nat) (f : Weir → Weir) : (s.modWeir p f).device = s.device := rfl
@[simp] theorem State.modWeir_stageObj (p : Nat) (f : Weir → Weir) : (s.modWeir p f).stageObj = s.stageObj := rfl
@[simp] theorem State.modWeir_stageLen (p : Nat) (f : Weir → Weir) : (s.modWeir p f).stageLen = s.stageLen := rfl
@[simp] theorem State.modWeir_partLock (p : Nat) (f : Weir → Weir) : (s.modWeir p f).partLock = s.partLock := rfl
@[simp] theorem State.modWeir_querns (p : Nat) (f : Weir → Weir) : (s.modWeir p f).querns = s.querns := rfl
@[simp] theorem State.modWeir_resolves (p : Nat) (f : Weir → Weir) : (s.modWeir p f).resolves = s.resolves := rfl
@[simp] theorem State.modWeir_tollFails (p : Nat) (f : Weir → Weir) : (s.modWeir p f).tollFails = s.tollFails := rfl
@[simp] theorem State.modWeir_testNext (p : Nat) (f : Weir → Weir) : (s.modWeir p f).testNext = s.testNext := rfl
@[simp] theorem State.modWeir_testResults (p : Nat) (f : Weir → Weir) : (s.modWeir p f).testResults = s.testResults := rfl
@[simp] theorem State.modWeir_tiles (p : Nat) (f : Weir → Weir) : (s.modWeir p f).tiles = s.tiles := rfl
@[simp] theorem State.modWeir_clusters (p : Nat) (f : Weir → Weir) : (s.modWeir p f).clusters = s.clusters := rfl
@[simp] theorem State.modWeir_tollQueue (p : Nat) (f : Weir → Weir) : (s.modWeir p f).tollQueue = s.tollQueue := rfl
@[simp] theorem State.modWeir_granary (p : Nat) (f : Weir → Weir) : (s.modWeir p f).granary = s.granary := rfl
@[simp] theorem State.modWeir_hbm (p : Nat) (f : Weir → Weir) : (s.modWeir p f).hbm = s.hbm := rfl
@[simp] theorem State.modWeir_pond (p : Nat) (f : Weir → Weir) : (s.modWeir p f).pond = s.pond := rfl
@[simp] theorem State.modWeir_leats (p : Nat) (f : Weir → Weir) : (s.modWeir p f).leats = s.leats := rfl
@[simp] theorem State.modWeir_mem (p : Nat) (f : Weir → Weir) : (s.modWeir p f).mem = s.mem := rfl
@[simp] theorem State.modWeir_ctxs (p : Nat) (f : Weir → Weir) : (s.modWeir p f).ctxs = s.ctxs := rfl
@[simp] theorem State.modWeir_ctxRegs (p : Nat) (f : Weir → Weir) : (s.modWeir p f).ctxRegs = s.ctxRegs := rfl
@[simp] theorem State.modWeir_pendingFrees (p : Nat) (f : Weir → Weir) : (s.modWeir p f).pendingFrees = s.pendingFrees := rfl
@[simp] theorem State.modWeir_copyJobs (p : Nat) (f : Weir → Weir) : (s.modWeir p f).copyJobs = s.copyJobs := rfl
@[simp] theorem State.modWeir_qps (p : Nat) (f : Weir → Weir) : (s.modWeir p f).qps = s.qps := rfl
@[simp] theorem State.modWeir_ports (p : Nat) (f : Weir → Weir) : (s.modWeir p f).ports = s.ports := rfl
@[simp] theorem State.modWeir_eth (p : Nat) (f : Weir → Weir) : (s.modWeir p f).eth = s.eth := rfl
@[simp] theorem State.modWeir_sec (p : Nat) (f : Weir → Weir) : (s.modWeir p f).sec = s.sec := rfl
@[simp] theorem State.modWeir_board (p : Nat) (f : Weir → Weir) : (s.modWeir p f).board = s.board := rfl
@[simp] theorem State.modWeir_mce (p : Nat) (f : Weir → Weir) : (s.modWeir p f).mce = s.mce := rfl
@[simp] theorem State.modWeir_life (p : Nat) (f : Weir → Weir) : (s.modWeir p f).life = s.life := rfl
@[simp] theorem State.modWeir_ras (p : Nat) (f : Weir → Weir) : (s.modWeir p f).ras = s.ras := rfl
@[simp] theorem State.modWeir_pwr (p : Nat) (f : Weir → Weir) : (s.modWeir p f).pwr = s.pwr := rfl
@[simp] theorem State.modWeir_selects (p : Nat) (f : Weir → Weir) : (s.modWeir p f).selects = s.selects := rfl
@[simp] theorem State.modWeir_selFactory (p : Nat) (f : Weir → Weir) : (s.modWeir p f).selFactory = s.selFactory := rfl
@[simp] theorem State.modWeir_selBoard (p : Nat) (f : Weir → Weir) : (s.modWeir p f).selBoard = s.selBoard := rfl
@[simp] theorem State.modWeir_out (p : Nat) (f : Weir → Weir) : (s.modWeir p f).out = s.out := rfl
@[simp] theorem State.modWeir_draws (p : Nat) (f : Weir → Weir) : (s.modWeir p f).draws = s.draws := rfl
@[simp] theorem State.modWeir_part (p : Nat) (f : Weir → Weir) (j : Nat) : (s.modWeir p f).part j = s.part j := rfl
@[simp] theorem State.modWeir_tile (p : Nat) (f : Weir → Weir) (j : Nat) : (s.modWeir p f).tile j = s.tile j := rfl
@[simp] theorem State.modWeir_cluster (p : Nat) (f : Weir → Weir) (j : Nat) : (s.modWeir p f).cluster j = s.cluster j := rfl
@[simp] theorem State.modWeir_ctx (p : Nat) (f : Weir → Weir) (j : Nat) : (s.modWeir p f).ctx j = s.ctx j := rfl
@[simp] theorem State.modWeir_qp (p : Nat) (f : Weir → Weir) (j : Nat) : (s.modWeir p f).qp j = s.qp j := rfl
@[simp] theorem State.modWeir_port (p : Nat) (f : Weir → Weir) (j : Nat) : (s.modWeir p f).port j = s.port j := rfl
@[simp] theorem State.modWeir_quern (p : Nat) (f : Weir → Weir) (i j : Nat) : (s.modWeir p f).quern i j = s.quern i j := rfl
@[simp] theorem State.modWeir_leat (p : Nat) (f : Weir → Weir) (i j : Nat) : (s.modWeir p f).leat i j = s.leat i j := rfl
@[simp] theorem State.modWeir_now (p : Nat) (f : Weir → Weir) : (s.modWeir p f).now = s.now := rfl

/-! ### setTile -/

@[simp] theorem State.setTile_pending (t : Nat) (v : Tile) : (s.setTile t v).pending = s.pending := rfl
@[simp] theorem State.setTile_mill (t : Nat) (v : Tile) : (s.setTile t v).mill = s.mill := rfl
@[simp] theorem State.setTile_parts (t : Nat) (v : Tile) : (s.setTile t v).parts = s.parts := rfl
@[simp] theorem State.setTile_stagedFull (t : Nat) (v : Tile) : (s.setTile t v).stagedFull = s.stagedFull := rfl
@[simp] theorem State.setTile_device (t : Nat) (v : Tile) : (s.setTile t v).device = s.device := rfl
@[simp] theorem State.setTile_stageObj (t : Nat) (v : Tile) : (s.setTile t v).stageObj = s.stageObj := rfl
@[simp] theorem State.setTile_stageLen (t : Nat) (v : Tile) : (s.setTile t v).stageLen = s.stageLen := rfl
@[simp] theorem State.setTile_partLock (t : Nat) (v : Tile) : (s.setTile t v).partLock = s.partLock := rfl
@[simp] theorem State.setTile_weirs (t : Nat) (v : Tile) : (s.setTile t v).weirs = s.weirs := rfl
@[simp] theorem State.setTile_querns (t : Nat) (v : Tile) : (s.setTile t v).querns = s.querns := rfl
@[simp] theorem State.setTile_resolves (t : Nat) (v : Tile) : (s.setTile t v).resolves = s.resolves := rfl
@[simp] theorem State.setTile_tollFails (t : Nat) (v : Tile) : (s.setTile t v).tollFails = s.tollFails := rfl
@[simp] theorem State.setTile_testNext (t : Nat) (v : Tile) : (s.setTile t v).testNext = s.testNext := rfl
@[simp] theorem State.setTile_testResults (t : Nat) (v : Tile) : (s.setTile t v).testResults = s.testResults := rfl
@[simp] theorem State.setTile_clusters (t : Nat) (v : Tile) : (s.setTile t v).clusters = s.clusters := rfl
@[simp] theorem State.setTile_tollQueue (t : Nat) (v : Tile) : (s.setTile t v).tollQueue = s.tollQueue := rfl
@[simp] theorem State.setTile_granary (t : Nat) (v : Tile) : (s.setTile t v).granary = s.granary := rfl
@[simp] theorem State.setTile_hbm (t : Nat) (v : Tile) : (s.setTile t v).hbm = s.hbm := rfl
@[simp] theorem State.setTile_pond (t : Nat) (v : Tile) : (s.setTile t v).pond = s.pond := rfl
@[simp] theorem State.setTile_leats (t : Nat) (v : Tile) : (s.setTile t v).leats = s.leats := rfl
@[simp] theorem State.setTile_mem (t : Nat) (v : Tile) : (s.setTile t v).mem = s.mem := rfl
@[simp] theorem State.setTile_ctxs (t : Nat) (v : Tile) : (s.setTile t v).ctxs = s.ctxs := rfl
@[simp] theorem State.setTile_ctxRegs (t : Nat) (v : Tile) : (s.setTile t v).ctxRegs = s.ctxRegs := rfl
@[simp] theorem State.setTile_pendingFrees (t : Nat) (v : Tile) : (s.setTile t v).pendingFrees = s.pendingFrees := rfl
@[simp] theorem State.setTile_copyJobs (t : Nat) (v : Tile) : (s.setTile t v).copyJobs = s.copyJobs := rfl
@[simp] theorem State.setTile_qps (t : Nat) (v : Tile) : (s.setTile t v).qps = s.qps := rfl
@[simp] theorem State.setTile_ports (t : Nat) (v : Tile) : (s.setTile t v).ports = s.ports := rfl
@[simp] theorem State.setTile_eth (t : Nat) (v : Tile) : (s.setTile t v).eth = s.eth := rfl
@[simp] theorem State.setTile_sec (t : Nat) (v : Tile) : (s.setTile t v).sec = s.sec := rfl
@[simp] theorem State.setTile_board (t : Nat) (v : Tile) : (s.setTile t v).board = s.board := rfl
@[simp] theorem State.setTile_mce (t : Nat) (v : Tile) : (s.setTile t v).mce = s.mce := rfl
@[simp] theorem State.setTile_life (t : Nat) (v : Tile) : (s.setTile t v).life = s.life := rfl
@[simp] theorem State.setTile_ras (t : Nat) (v : Tile) : (s.setTile t v).ras = s.ras := rfl
@[simp] theorem State.setTile_pwr (t : Nat) (v : Tile) : (s.setTile t v).pwr = s.pwr := rfl
@[simp] theorem State.setTile_selects (t : Nat) (v : Tile) : (s.setTile t v).selects = s.selects := rfl
@[simp] theorem State.setTile_selFactory (t : Nat) (v : Tile) : (s.setTile t v).selFactory = s.selFactory := rfl
@[simp] theorem State.setTile_selBoard (t : Nat) (v : Tile) : (s.setTile t v).selBoard = s.selBoard := rfl
@[simp] theorem State.setTile_out (t : Nat) (v : Tile) : (s.setTile t v).out = s.out := rfl
@[simp] theorem State.setTile_draws (t : Nat) (v : Tile) : (s.setTile t v).draws = s.draws := rfl
@[simp] theorem State.setTile_part (t : Nat) (v : Tile) (j : Nat) : (s.setTile t v).part j = s.part j := rfl
@[simp] theorem State.setTile_weir (t : Nat) (v : Tile) (j : Nat) : (s.setTile t v).weir j = s.weir j := rfl
@[simp] theorem State.setTile_cluster (t : Nat) (v : Tile) (j : Nat) : (s.setTile t v).cluster j = s.cluster j := rfl
@[simp] theorem State.setTile_ctx (t : Nat) (v : Tile) (j : Nat) : (s.setTile t v).ctx j = s.ctx j := rfl
@[simp] theorem State.setTile_qp (t : Nat) (v : Tile) (j : Nat) : (s.setTile t v).qp j = s.qp j := rfl
@[simp] theorem State.setTile_port (t : Nat) (v : Tile) (j : Nat) : (s.setTile t v).port j = s.port j := rfl
@[simp] theorem State.setTile_quern (t : Nat) (v : Tile) (i j : Nat) : (s.setTile t v).quern i j = s.quern i j := rfl
@[simp] theorem State.setTile_leat (t : Nat) (v : Tile) (i j : Nat) : (s.setTile t v).leat i j = s.leat i j := rfl
@[simp] theorem State.setTile_now (t : Nat) (v : Tile) : (s.setTile t v).now = s.now := rfl

/-! ### modTile -/

@[simp] theorem State.modTile_pending (t : Nat) (f : Tile → Tile) : (s.modTile t f).pending = s.pending := rfl
@[simp] theorem State.modTile_mill (t : Nat) (f : Tile → Tile) : (s.modTile t f).mill = s.mill := rfl
@[simp] theorem State.modTile_parts (t : Nat) (f : Tile → Tile) : (s.modTile t f).parts = s.parts := rfl
@[simp] theorem State.modTile_stagedFull (t : Nat) (f : Tile → Tile) : (s.modTile t f).stagedFull = s.stagedFull := rfl
@[simp] theorem State.modTile_device (t : Nat) (f : Tile → Tile) : (s.modTile t f).device = s.device := rfl
@[simp] theorem State.modTile_stageObj (t : Nat) (f : Tile → Tile) : (s.modTile t f).stageObj = s.stageObj := rfl
@[simp] theorem State.modTile_stageLen (t : Nat) (f : Tile → Tile) : (s.modTile t f).stageLen = s.stageLen := rfl
@[simp] theorem State.modTile_partLock (t : Nat) (f : Tile → Tile) : (s.modTile t f).partLock = s.partLock := rfl
@[simp] theorem State.modTile_weirs (t : Nat) (f : Tile → Tile) : (s.modTile t f).weirs = s.weirs := rfl
@[simp] theorem State.modTile_querns (t : Nat) (f : Tile → Tile) : (s.modTile t f).querns = s.querns := rfl
@[simp] theorem State.modTile_resolves (t : Nat) (f : Tile → Tile) : (s.modTile t f).resolves = s.resolves := rfl
@[simp] theorem State.modTile_tollFails (t : Nat) (f : Tile → Tile) : (s.modTile t f).tollFails = s.tollFails := rfl
@[simp] theorem State.modTile_testNext (t : Nat) (f : Tile → Tile) : (s.modTile t f).testNext = s.testNext := rfl
@[simp] theorem State.modTile_testResults (t : Nat) (f : Tile → Tile) : (s.modTile t f).testResults = s.testResults := rfl
@[simp] theorem State.modTile_clusters (t : Nat) (f : Tile → Tile) : (s.modTile t f).clusters = s.clusters := rfl
@[simp] theorem State.modTile_tollQueue (t : Nat) (f : Tile → Tile) : (s.modTile t f).tollQueue = s.tollQueue := rfl
@[simp] theorem State.modTile_granary (t : Nat) (f : Tile → Tile) : (s.modTile t f).granary = s.granary := rfl
@[simp] theorem State.modTile_hbm (t : Nat) (f : Tile → Tile) : (s.modTile t f).hbm = s.hbm := rfl
@[simp] theorem State.modTile_pond (t : Nat) (f : Tile → Tile) : (s.modTile t f).pond = s.pond := rfl
@[simp] theorem State.modTile_leats (t : Nat) (f : Tile → Tile) : (s.modTile t f).leats = s.leats := rfl
@[simp] theorem State.modTile_mem (t : Nat) (f : Tile → Tile) : (s.modTile t f).mem = s.mem := rfl
@[simp] theorem State.modTile_ctxs (t : Nat) (f : Tile → Tile) : (s.modTile t f).ctxs = s.ctxs := rfl
@[simp] theorem State.modTile_ctxRegs (t : Nat) (f : Tile → Tile) : (s.modTile t f).ctxRegs = s.ctxRegs := rfl
@[simp] theorem State.modTile_pendingFrees (t : Nat) (f : Tile → Tile) : (s.modTile t f).pendingFrees = s.pendingFrees := rfl
@[simp] theorem State.modTile_copyJobs (t : Nat) (f : Tile → Tile) : (s.modTile t f).copyJobs = s.copyJobs := rfl
@[simp] theorem State.modTile_qps (t : Nat) (f : Tile → Tile) : (s.modTile t f).qps = s.qps := rfl
@[simp] theorem State.modTile_ports (t : Nat) (f : Tile → Tile) : (s.modTile t f).ports = s.ports := rfl
@[simp] theorem State.modTile_eth (t : Nat) (f : Tile → Tile) : (s.modTile t f).eth = s.eth := rfl
@[simp] theorem State.modTile_sec (t : Nat) (f : Tile → Tile) : (s.modTile t f).sec = s.sec := rfl
@[simp] theorem State.modTile_board (t : Nat) (f : Tile → Tile) : (s.modTile t f).board = s.board := rfl
@[simp] theorem State.modTile_mce (t : Nat) (f : Tile → Tile) : (s.modTile t f).mce = s.mce := rfl
@[simp] theorem State.modTile_life (t : Nat) (f : Tile → Tile) : (s.modTile t f).life = s.life := rfl
@[simp] theorem State.modTile_ras (t : Nat) (f : Tile → Tile) : (s.modTile t f).ras = s.ras := rfl
@[simp] theorem State.modTile_pwr (t : Nat) (f : Tile → Tile) : (s.modTile t f).pwr = s.pwr := rfl
@[simp] theorem State.modTile_selects (t : Nat) (f : Tile → Tile) : (s.modTile t f).selects = s.selects := rfl
@[simp] theorem State.modTile_selFactory (t : Nat) (f : Tile → Tile) : (s.modTile t f).selFactory = s.selFactory := rfl
@[simp] theorem State.modTile_selBoard (t : Nat) (f : Tile → Tile) : (s.modTile t f).selBoard = s.selBoard := rfl
@[simp] theorem State.modTile_out (t : Nat) (f : Tile → Tile) : (s.modTile t f).out = s.out := rfl
@[simp] theorem State.modTile_draws (t : Nat) (f : Tile → Tile) : (s.modTile t f).draws = s.draws := rfl
@[simp] theorem State.modTile_part (t : Nat) (f : Tile → Tile) (j : Nat) : (s.modTile t f).part j = s.part j := rfl
@[simp] theorem State.modTile_weir (t : Nat) (f : Tile → Tile) (j : Nat) : (s.modTile t f).weir j = s.weir j := rfl
@[simp] theorem State.modTile_cluster (t : Nat) (f : Tile → Tile) (j : Nat) : (s.modTile t f).cluster j = s.cluster j := rfl
@[simp] theorem State.modTile_ctx (t : Nat) (f : Tile → Tile) (j : Nat) : (s.modTile t f).ctx j = s.ctx j := rfl
@[simp] theorem State.modTile_qp (t : Nat) (f : Tile → Tile) (j : Nat) : (s.modTile t f).qp j = s.qp j := rfl
@[simp] theorem State.modTile_port (t : Nat) (f : Tile → Tile) (j : Nat) : (s.modTile t f).port j = s.port j := rfl
@[simp] theorem State.modTile_quern (t : Nat) (f : Tile → Tile) (i j : Nat) : (s.modTile t f).quern i j = s.quern i j := rfl
@[simp] theorem State.modTile_leat (t : Nat) (f : Tile → Tile) (i j : Nat) : (s.modTile t f).leat i j = s.leat i j := rfl
@[simp] theorem State.modTile_now (t : Nat) (f : Tile → Tile) : (s.modTile t f).now = s.now := rfl

/-! ### setCluster -/

@[simp] theorem State.setCluster_pending (c : Nat) (v : Cluster) : (s.setCluster c v).pending = s.pending := rfl
@[simp] theorem State.setCluster_mill (c : Nat) (v : Cluster) : (s.setCluster c v).mill = s.mill := rfl
@[simp] theorem State.setCluster_parts (c : Nat) (v : Cluster) : (s.setCluster c v).parts = s.parts := rfl
@[simp] theorem State.setCluster_stagedFull (c : Nat) (v : Cluster) : (s.setCluster c v).stagedFull = s.stagedFull := rfl
@[simp] theorem State.setCluster_device (c : Nat) (v : Cluster) : (s.setCluster c v).device = s.device := rfl
@[simp] theorem State.setCluster_stageObj (c : Nat) (v : Cluster) : (s.setCluster c v).stageObj = s.stageObj := rfl
@[simp] theorem State.setCluster_stageLen (c : Nat) (v : Cluster) : (s.setCluster c v).stageLen = s.stageLen := rfl
@[simp] theorem State.setCluster_partLock (c : Nat) (v : Cluster) : (s.setCluster c v).partLock = s.partLock := rfl
@[simp] theorem State.setCluster_weirs (c : Nat) (v : Cluster) : (s.setCluster c v).weirs = s.weirs := rfl
@[simp] theorem State.setCluster_querns (c : Nat) (v : Cluster) : (s.setCluster c v).querns = s.querns := rfl
@[simp] theorem State.setCluster_resolves (c : Nat) (v : Cluster) : (s.setCluster c v).resolves = s.resolves := rfl
@[simp] theorem State.setCluster_tollFails (c : Nat) (v : Cluster) : (s.setCluster c v).tollFails = s.tollFails := rfl
@[simp] theorem State.setCluster_testNext (c : Nat) (v : Cluster) : (s.setCluster c v).testNext = s.testNext := rfl
@[simp] theorem State.setCluster_testResults (c : Nat) (v : Cluster) : (s.setCluster c v).testResults = s.testResults := rfl
@[simp] theorem State.setCluster_tiles (c : Nat) (v : Cluster) : (s.setCluster c v).tiles = s.tiles := rfl
@[simp] theorem State.setCluster_tollQueue (c : Nat) (v : Cluster) : (s.setCluster c v).tollQueue = s.tollQueue := rfl
@[simp] theorem State.setCluster_granary (c : Nat) (v : Cluster) : (s.setCluster c v).granary = s.granary := rfl
@[simp] theorem State.setCluster_hbm (c : Nat) (v : Cluster) : (s.setCluster c v).hbm = s.hbm := rfl
@[simp] theorem State.setCluster_pond (c : Nat) (v : Cluster) : (s.setCluster c v).pond = s.pond := rfl
@[simp] theorem State.setCluster_leats (c : Nat) (v : Cluster) : (s.setCluster c v).leats = s.leats := rfl
@[simp] theorem State.setCluster_mem (c : Nat) (v : Cluster) : (s.setCluster c v).mem = s.mem := rfl
@[simp] theorem State.setCluster_ctxs (c : Nat) (v : Cluster) : (s.setCluster c v).ctxs = s.ctxs := rfl
@[simp] theorem State.setCluster_ctxRegs (c : Nat) (v : Cluster) : (s.setCluster c v).ctxRegs = s.ctxRegs := rfl
@[simp] theorem State.setCluster_pendingFrees (c : Nat) (v : Cluster) : (s.setCluster c v).pendingFrees = s.pendingFrees := rfl
@[simp] theorem State.setCluster_copyJobs (c : Nat) (v : Cluster) : (s.setCluster c v).copyJobs = s.copyJobs := rfl
@[simp] theorem State.setCluster_qps (c : Nat) (v : Cluster) : (s.setCluster c v).qps = s.qps := rfl
@[simp] theorem State.setCluster_ports (c : Nat) (v : Cluster) : (s.setCluster c v).ports = s.ports := rfl
@[simp] theorem State.setCluster_eth (c : Nat) (v : Cluster) : (s.setCluster c v).eth = s.eth := rfl
@[simp] theorem State.setCluster_sec (c : Nat) (v : Cluster) : (s.setCluster c v).sec = s.sec := rfl
@[simp] theorem State.setCluster_board (c : Nat) (v : Cluster) : (s.setCluster c v).board = s.board := rfl
@[simp] theorem State.setCluster_mce (c : Nat) (v : Cluster) : (s.setCluster c v).mce = s.mce := rfl
@[simp] theorem State.setCluster_life (c : Nat) (v : Cluster) : (s.setCluster c v).life = s.life := rfl
@[simp] theorem State.setCluster_ras (c : Nat) (v : Cluster) : (s.setCluster c v).ras = s.ras := rfl
@[simp] theorem State.setCluster_pwr (c : Nat) (v : Cluster) : (s.setCluster c v).pwr = s.pwr := rfl
@[simp] theorem State.setCluster_selects (c : Nat) (v : Cluster) : (s.setCluster c v).selects = s.selects := rfl
@[simp] theorem State.setCluster_selFactory (c : Nat) (v : Cluster) : (s.setCluster c v).selFactory = s.selFactory := rfl
@[simp] theorem State.setCluster_selBoard (c : Nat) (v : Cluster) : (s.setCluster c v).selBoard = s.selBoard := rfl
@[simp] theorem State.setCluster_out (c : Nat) (v : Cluster) : (s.setCluster c v).out = s.out := rfl
@[simp] theorem State.setCluster_draws (c : Nat) (v : Cluster) : (s.setCluster c v).draws = s.draws := rfl
@[simp] theorem State.setCluster_part (c : Nat) (v : Cluster) (j : Nat) : (s.setCluster c v).part j = s.part j := rfl
@[simp] theorem State.setCluster_weir (c : Nat) (v : Cluster) (j : Nat) : (s.setCluster c v).weir j = s.weir j := rfl
@[simp] theorem State.setCluster_tile (c : Nat) (v : Cluster) (j : Nat) : (s.setCluster c v).tile j = s.tile j := rfl
@[simp] theorem State.setCluster_ctx (c : Nat) (v : Cluster) (j : Nat) : (s.setCluster c v).ctx j = s.ctx j := rfl
@[simp] theorem State.setCluster_qp (c : Nat) (v : Cluster) (j : Nat) : (s.setCluster c v).qp j = s.qp j := rfl
@[simp] theorem State.setCluster_port (c : Nat) (v : Cluster) (j : Nat) : (s.setCluster c v).port j = s.port j := rfl
@[simp] theorem State.setCluster_quern (c : Nat) (v : Cluster) (i j : Nat) : (s.setCluster c v).quern i j = s.quern i j := rfl
@[simp] theorem State.setCluster_leat (c : Nat) (v : Cluster) (i j : Nat) : (s.setCluster c v).leat i j = s.leat i j := rfl
@[simp] theorem State.setCluster_now (c : Nat) (v : Cluster) : (s.setCluster c v).now = s.now := rfl

/-! ### modCluster -/

@[simp] theorem State.modCluster_pending (c : Nat) (f : Cluster → Cluster) : (s.modCluster c f).pending = s.pending := rfl
@[simp] theorem State.modCluster_mill (c : Nat) (f : Cluster → Cluster) : (s.modCluster c f).mill = s.mill := rfl
@[simp] theorem State.modCluster_parts (c : Nat) (f : Cluster → Cluster) : (s.modCluster c f).parts = s.parts := rfl
@[simp] theorem State.modCluster_stagedFull (c : Nat) (f : Cluster → Cluster) : (s.modCluster c f).stagedFull = s.stagedFull := rfl
@[simp] theorem State.modCluster_device (c : Nat) (f : Cluster → Cluster) : (s.modCluster c f).device = s.device := rfl
@[simp] theorem State.modCluster_stageObj (c : Nat) (f : Cluster → Cluster) : (s.modCluster c f).stageObj = s.stageObj := rfl
@[simp] theorem State.modCluster_stageLen (c : Nat) (f : Cluster → Cluster) : (s.modCluster c f).stageLen = s.stageLen := rfl
@[simp] theorem State.modCluster_partLock (c : Nat) (f : Cluster → Cluster) : (s.modCluster c f).partLock = s.partLock := rfl
@[simp] theorem State.modCluster_weirs (c : Nat) (f : Cluster → Cluster) : (s.modCluster c f).weirs = s.weirs := rfl
@[simp] theorem State.modCluster_querns (c : Nat) (f : Cluster → Cluster) : (s.modCluster c f).querns = s.querns := rfl
@[simp] theorem State.modCluster_resolves (c : Nat) (f : Cluster → Cluster) : (s.modCluster c f).resolves = s.resolves := rfl
@[simp] theorem State.modCluster_tollFails (c : Nat) (f : Cluster → Cluster) : (s.modCluster c f).tollFails = s.tollFails := rfl
@[simp] theorem State.modCluster_testNext (c : Nat) (f : Cluster → Cluster) : (s.modCluster c f).testNext = s.testNext := rfl
@[simp] theorem State.modCluster_testResults (c : Nat) (f : Cluster → Cluster) : (s.modCluster c f).testResults = s.testResults := rfl
@[simp] theorem State.modCluster_tiles (c : Nat) (f : Cluster → Cluster) : (s.modCluster c f).tiles = s.tiles := rfl
@[simp] theorem State.modCluster_tollQueue (c : Nat) (f : Cluster → Cluster) : (s.modCluster c f).tollQueue = s.tollQueue := rfl
@[simp] theorem State.modCluster_granary (c : Nat) (f : Cluster → Cluster) : (s.modCluster c f).granary = s.granary := rfl
@[simp] theorem State.modCluster_hbm (c : Nat) (f : Cluster → Cluster) : (s.modCluster c f).hbm = s.hbm := rfl
@[simp] theorem State.modCluster_pond (c : Nat) (f : Cluster → Cluster) : (s.modCluster c f).pond = s.pond := rfl
@[simp] theorem State.modCluster_leats (c : Nat) (f : Cluster → Cluster) : (s.modCluster c f).leats = s.leats := rfl
@[simp] theorem State.modCluster_mem (c : Nat) (f : Cluster → Cluster) : (s.modCluster c f).mem = s.mem := rfl
@[simp] theorem State.modCluster_ctxs (c : Nat) (f : Cluster → Cluster) : (s.modCluster c f).ctxs = s.ctxs := rfl
@[simp] theorem State.modCluster_ctxRegs (c : Nat) (f : Cluster → Cluster) : (s.modCluster c f).ctxRegs = s.ctxRegs := rfl
@[simp] theorem State.modCluster_pendingFrees (c : Nat) (f : Cluster → Cluster) : (s.modCluster c f).pendingFrees = s.pendingFrees := rfl
@[simp] theorem State.modCluster_copyJobs (c : Nat) (f : Cluster → Cluster) : (s.modCluster c f).copyJobs = s.copyJobs := rfl
@[simp] theorem State.modCluster_qps (c : Nat) (f : Cluster → Cluster) : (s.modCluster c f).qps = s.qps := rfl
@[simp] theorem State.modCluster_ports (c : Nat) (f : Cluster → Cluster) : (s.modCluster c f).ports = s.ports := rfl
@[simp] theorem State.modCluster_eth (c : Nat) (f : Cluster → Cluster) : (s.modCluster c f).eth = s.eth := rfl
@[simp] theorem State.modCluster_sec (c : Nat) (f : Cluster → Cluster) : (s.modCluster c f).sec = s.sec := rfl
@[simp] theorem State.modCluster_board (c : Nat) (f : Cluster → Cluster) : (s.modCluster c f).board = s.board := rfl
@[simp] theorem State.modCluster_mce (c : Nat) (f : Cluster → Cluster) : (s.modCluster c f).mce = s.mce := rfl
@[simp] theorem State.modCluster_life (c : Nat) (f : Cluster → Cluster) : (s.modCluster c f).life = s.life := rfl
@[simp] theorem State.modCluster_ras (c : Nat) (f : Cluster → Cluster) : (s.modCluster c f).ras = s.ras := rfl
@[simp] theorem State.modCluster_pwr (c : Nat) (f : Cluster → Cluster) : (s.modCluster c f).pwr = s.pwr := rfl
@[simp] theorem State.modCluster_selects (c : Nat) (f : Cluster → Cluster) : (s.modCluster c f).selects = s.selects := rfl
@[simp] theorem State.modCluster_selFactory (c : Nat) (f : Cluster → Cluster) : (s.modCluster c f).selFactory = s.selFactory := rfl
@[simp] theorem State.modCluster_selBoard (c : Nat) (f : Cluster → Cluster) : (s.modCluster c f).selBoard = s.selBoard := rfl
@[simp] theorem State.modCluster_out (c : Nat) (f : Cluster → Cluster) : (s.modCluster c f).out = s.out := rfl
@[simp] theorem State.modCluster_draws (c : Nat) (f : Cluster → Cluster) : (s.modCluster c f).draws = s.draws := rfl
@[simp] theorem State.modCluster_part (c : Nat) (f : Cluster → Cluster) (j : Nat) : (s.modCluster c f).part j = s.part j := rfl
@[simp] theorem State.modCluster_weir (c : Nat) (f : Cluster → Cluster) (j : Nat) : (s.modCluster c f).weir j = s.weir j := rfl
@[simp] theorem State.modCluster_tile (c : Nat) (f : Cluster → Cluster) (j : Nat) : (s.modCluster c f).tile j = s.tile j := rfl
@[simp] theorem State.modCluster_ctx (c : Nat) (f : Cluster → Cluster) (j : Nat) : (s.modCluster c f).ctx j = s.ctx j := rfl
@[simp] theorem State.modCluster_qp (c : Nat) (f : Cluster → Cluster) (j : Nat) : (s.modCluster c f).qp j = s.qp j := rfl
@[simp] theorem State.modCluster_port (c : Nat) (f : Cluster → Cluster) (j : Nat) : (s.modCluster c f).port j = s.port j := rfl
@[simp] theorem State.modCluster_quern (c : Nat) (f : Cluster → Cluster) (i j : Nat) : (s.modCluster c f).quern i j = s.quern i j := rfl
@[simp] theorem State.modCluster_leat (c : Nat) (f : Cluster → Cluster) (i j : Nat) : (s.modCluster c f).leat i j = s.leat i j := rfl
@[simp] theorem State.modCluster_now (c : Nat) (f : Cluster → Cluster) : (s.modCluster c f).now = s.now := rfl

/-! ### setCtx -/

@[simp] theorem State.setCtx_pending (x : Nat) (v : Ctx) : (s.setCtx x v).pending = s.pending := rfl
@[simp] theorem State.setCtx_mill (x : Nat) (v : Ctx) : (s.setCtx x v).mill = s.mill := rfl
@[simp] theorem State.setCtx_parts (x : Nat) (v : Ctx) : (s.setCtx x v).parts = s.parts := rfl
@[simp] theorem State.setCtx_stagedFull (x : Nat) (v : Ctx) : (s.setCtx x v).stagedFull = s.stagedFull := rfl
@[simp] theorem State.setCtx_device (x : Nat) (v : Ctx) : (s.setCtx x v).device = s.device := rfl
@[simp] theorem State.setCtx_stageObj (x : Nat) (v : Ctx) : (s.setCtx x v).stageObj = s.stageObj := rfl
@[simp] theorem State.setCtx_stageLen (x : Nat) (v : Ctx) : (s.setCtx x v).stageLen = s.stageLen := rfl
@[simp] theorem State.setCtx_partLock (x : Nat) (v : Ctx) : (s.setCtx x v).partLock = s.partLock := rfl
@[simp] theorem State.setCtx_weirs (x : Nat) (v : Ctx) : (s.setCtx x v).weirs = s.weirs := rfl
@[simp] theorem State.setCtx_querns (x : Nat) (v : Ctx) : (s.setCtx x v).querns = s.querns := rfl
@[simp] theorem State.setCtx_resolves (x : Nat) (v : Ctx) : (s.setCtx x v).resolves = s.resolves := rfl
@[simp] theorem State.setCtx_tollFails (x : Nat) (v : Ctx) : (s.setCtx x v).tollFails = s.tollFails := rfl
@[simp] theorem State.setCtx_testNext (x : Nat) (v : Ctx) : (s.setCtx x v).testNext = s.testNext := rfl
@[simp] theorem State.setCtx_testResults (x : Nat) (v : Ctx) : (s.setCtx x v).testResults = s.testResults := rfl
@[simp] theorem State.setCtx_tiles (x : Nat) (v : Ctx) : (s.setCtx x v).tiles = s.tiles := rfl
@[simp] theorem State.setCtx_clusters (x : Nat) (v : Ctx) : (s.setCtx x v).clusters = s.clusters := rfl
@[simp] theorem State.setCtx_tollQueue (x : Nat) (v : Ctx) : (s.setCtx x v).tollQueue = s.tollQueue := rfl
@[simp] theorem State.setCtx_granary (x : Nat) (v : Ctx) : (s.setCtx x v).granary = s.granary := rfl
@[simp] theorem State.setCtx_hbm (x : Nat) (v : Ctx) : (s.setCtx x v).hbm = s.hbm := rfl
@[simp] theorem State.setCtx_pond (x : Nat) (v : Ctx) : (s.setCtx x v).pond = s.pond := rfl
@[simp] theorem State.setCtx_leats (x : Nat) (v : Ctx) : (s.setCtx x v).leats = s.leats := rfl
@[simp] theorem State.setCtx_mem (x : Nat) (v : Ctx) : (s.setCtx x v).mem = s.mem := rfl
@[simp] theorem State.setCtx_ctxRegs (x : Nat) (v : Ctx) : (s.setCtx x v).ctxRegs = s.ctxRegs := rfl
@[simp] theorem State.setCtx_pendingFrees (x : Nat) (v : Ctx) : (s.setCtx x v).pendingFrees = s.pendingFrees := rfl
@[simp] theorem State.setCtx_copyJobs (x : Nat) (v : Ctx) : (s.setCtx x v).copyJobs = s.copyJobs := rfl
@[simp] theorem State.setCtx_qps (x : Nat) (v : Ctx) : (s.setCtx x v).qps = s.qps := rfl
@[simp] theorem State.setCtx_ports (x : Nat) (v : Ctx) : (s.setCtx x v).ports = s.ports := rfl
@[simp] theorem State.setCtx_eth (x : Nat) (v : Ctx) : (s.setCtx x v).eth = s.eth := rfl
@[simp] theorem State.setCtx_sec (x : Nat) (v : Ctx) : (s.setCtx x v).sec = s.sec := rfl
@[simp] theorem State.setCtx_board (x : Nat) (v : Ctx) : (s.setCtx x v).board = s.board := rfl
@[simp] theorem State.setCtx_mce (x : Nat) (v : Ctx) : (s.setCtx x v).mce = s.mce := rfl
@[simp] theorem State.setCtx_life (x : Nat) (v : Ctx) : (s.setCtx x v).life = s.life := rfl
@[simp] theorem State.setCtx_ras (x : Nat) (v : Ctx) : (s.setCtx x v).ras = s.ras := rfl
@[simp] theorem State.setCtx_pwr (x : Nat) (v : Ctx) : (s.setCtx x v).pwr = s.pwr := rfl
@[simp] theorem State.setCtx_selects (x : Nat) (v : Ctx) : (s.setCtx x v).selects = s.selects := rfl
@[simp] theorem State.setCtx_selFactory (x : Nat) (v : Ctx) : (s.setCtx x v).selFactory = s.selFactory := rfl
@[simp] theorem State.setCtx_selBoard (x : Nat) (v : Ctx) : (s.setCtx x v).selBoard = s.selBoard := rfl
@[simp] theorem State.setCtx_out (x : Nat) (v : Ctx) : (s.setCtx x v).out = s.out := rfl
@[simp] theorem State.setCtx_draws (x : Nat) (v : Ctx) : (s.setCtx x v).draws = s.draws := rfl
@[simp] theorem State.setCtx_part (x : Nat) (v : Ctx) (j : Nat) : (s.setCtx x v).part j = s.part j := rfl
@[simp] theorem State.setCtx_weir (x : Nat) (v : Ctx) (j : Nat) : (s.setCtx x v).weir j = s.weir j := rfl
@[simp] theorem State.setCtx_tile (x : Nat) (v : Ctx) (j : Nat) : (s.setCtx x v).tile j = s.tile j := rfl
@[simp] theorem State.setCtx_cluster (x : Nat) (v : Ctx) (j : Nat) : (s.setCtx x v).cluster j = s.cluster j := rfl
@[simp] theorem State.setCtx_qp (x : Nat) (v : Ctx) (j : Nat) : (s.setCtx x v).qp j = s.qp j := rfl
@[simp] theorem State.setCtx_port (x : Nat) (v : Ctx) (j : Nat) : (s.setCtx x v).port j = s.port j := rfl
@[simp] theorem State.setCtx_quern (x : Nat) (v : Ctx) (i j : Nat) : (s.setCtx x v).quern i j = s.quern i j := rfl
@[simp] theorem State.setCtx_leat (x : Nat) (v : Ctx) (i j : Nat) : (s.setCtx x v).leat i j = s.leat i j := rfl
@[simp] theorem State.setCtx_now (x : Nat) (v : Ctx) : (s.setCtx x v).now = s.now := rfl

/-! ### modCtx -/

@[simp] theorem State.modCtx_pending (x : Nat) (f : Ctx → Ctx) : (s.modCtx x f).pending = s.pending := rfl
@[simp] theorem State.modCtx_mill (x : Nat) (f : Ctx → Ctx) : (s.modCtx x f).mill = s.mill := rfl
@[simp] theorem State.modCtx_parts (x : Nat) (f : Ctx → Ctx) : (s.modCtx x f).parts = s.parts := rfl
@[simp] theorem State.modCtx_stagedFull (x : Nat) (f : Ctx → Ctx) : (s.modCtx x f).stagedFull = s.stagedFull := rfl
@[simp] theorem State.modCtx_device (x : Nat) (f : Ctx → Ctx) : (s.modCtx x f).device = s.device := rfl
@[simp] theorem State.modCtx_stageObj (x : Nat) (f : Ctx → Ctx) : (s.modCtx x f).stageObj = s.stageObj := rfl
@[simp] theorem State.modCtx_stageLen (x : Nat) (f : Ctx → Ctx) : (s.modCtx x f).stageLen = s.stageLen := rfl
@[simp] theorem State.modCtx_partLock (x : Nat) (f : Ctx → Ctx) : (s.modCtx x f).partLock = s.partLock := rfl
@[simp] theorem State.modCtx_weirs (x : Nat) (f : Ctx → Ctx) : (s.modCtx x f).weirs = s.weirs := rfl
@[simp] theorem State.modCtx_querns (x : Nat) (f : Ctx → Ctx) : (s.modCtx x f).querns = s.querns := rfl
@[simp] theorem State.modCtx_resolves (x : Nat) (f : Ctx → Ctx) : (s.modCtx x f).resolves = s.resolves := rfl
@[simp] theorem State.modCtx_tollFails (x : Nat) (f : Ctx → Ctx) : (s.modCtx x f).tollFails = s.tollFails := rfl
@[simp] theorem State.modCtx_testNext (x : Nat) (f : Ctx → Ctx) : (s.modCtx x f).testNext = s.testNext := rfl
@[simp] theorem State.modCtx_testResults (x : Nat) (f : Ctx → Ctx) : (s.modCtx x f).testResults = s.testResults := rfl
@[simp] theorem State.modCtx_tiles (x : Nat) (f : Ctx → Ctx) : (s.modCtx x f).tiles = s.tiles := rfl
@[simp] theorem State.modCtx_clusters (x : Nat) (f : Ctx → Ctx) : (s.modCtx x f).clusters = s.clusters := rfl
@[simp] theorem State.modCtx_tollQueue (x : Nat) (f : Ctx → Ctx) : (s.modCtx x f).tollQueue = s.tollQueue := rfl
@[simp] theorem State.modCtx_granary (x : Nat) (f : Ctx → Ctx) : (s.modCtx x f).granary = s.granary := rfl
@[simp] theorem State.modCtx_hbm (x : Nat) (f : Ctx → Ctx) : (s.modCtx x f).hbm = s.hbm := rfl
@[simp] theorem State.modCtx_pond (x : Nat) (f : Ctx → Ctx) : (s.modCtx x f).pond = s.pond := rfl
@[simp] theorem State.modCtx_leats (x : Nat) (f : Ctx → Ctx) : (s.modCtx x f).leats = s.leats := rfl
@[simp] theorem State.modCtx_mem (x : Nat) (f : Ctx → Ctx) : (s.modCtx x f).mem = s.mem := rfl
@[simp] theorem State.modCtx_ctxRegs (x : Nat) (f : Ctx → Ctx) : (s.modCtx x f).ctxRegs = s.ctxRegs := rfl
@[simp] theorem State.modCtx_pendingFrees (x : Nat) (f : Ctx → Ctx) : (s.modCtx x f).pendingFrees = s.pendingFrees := rfl
@[simp] theorem State.modCtx_copyJobs (x : Nat) (f : Ctx → Ctx) : (s.modCtx x f).copyJobs = s.copyJobs := rfl
@[simp] theorem State.modCtx_qps (x : Nat) (f : Ctx → Ctx) : (s.modCtx x f).qps = s.qps := rfl
@[simp] theorem State.modCtx_ports (x : Nat) (f : Ctx → Ctx) : (s.modCtx x f).ports = s.ports := rfl
@[simp] theorem State.modCtx_eth (x : Nat) (f : Ctx → Ctx) : (s.modCtx x f).eth = s.eth := rfl
@[simp] theorem State.modCtx_sec (x : Nat) (f : Ctx → Ctx) : (s.modCtx x f).sec = s.sec := rfl
@[simp] theorem State.modCtx_board (x : Nat) (f : Ctx → Ctx) : (s.modCtx x f).board = s.board := rfl
@[simp] theorem State.modCtx_mce (x : Nat) (f : Ctx → Ctx) : (s.modCtx x f).mce = s.mce := rfl
@[simp] theorem State.modCtx_life (x : Nat) (f : Ctx → Ctx) : (s.modCtx x f).life = s.life := rfl
@[simp] theorem State.modCtx_ras (x : Nat) (f : Ctx → Ctx) : (s.modCtx x f).ras = s.ras := rfl
@[simp] theorem State.modCtx_pwr (x : Nat) (f : Ctx → Ctx) : (s.modCtx x f).pwr = s.pwr := rfl
@[simp] theorem State.modCtx_selects (x : Nat) (f : Ctx → Ctx) : (s.modCtx x f).selects = s.selects := rfl
@[simp] theorem State.modCtx_selFactory (x : Nat) (f : Ctx → Ctx) : (s.modCtx x f).selFactory = s.selFactory := rfl
@[simp] theorem State.modCtx_selBoard (x : Nat) (f : Ctx → Ctx) : (s.modCtx x f).selBoard = s.selBoard := rfl
@[simp] theorem State.modCtx_out (x : Nat) (f : Ctx → Ctx) : (s.modCtx x f).out = s.out := rfl
@[simp] theorem State.modCtx_draws (x : Nat) (f : Ctx → Ctx) : (s.modCtx x f).draws = s.draws := rfl
@[simp] theorem State.modCtx_part (x : Nat) (f : Ctx → Ctx) (j : Nat) : (s.modCtx x f).part j = s.part j := rfl
@[simp] theorem State.modCtx_weir (x : Nat) (f : Ctx → Ctx) (j : Nat) : (s.modCtx x f).weir j = s.weir j := rfl
@[simp] theorem State.modCtx_tile (x : Nat) (f : Ctx → Ctx) (j : Nat) : (s.modCtx x f).tile j = s.tile j := rfl
@[simp] theorem State.modCtx_cluster (x : Nat) (f : Ctx → Ctx) (j : Nat) : (s.modCtx x f).cluster j = s.cluster j := rfl
@[simp] theorem State.modCtx_qp (x : Nat) (f : Ctx → Ctx) (j : Nat) : (s.modCtx x f).qp j = s.qp j := rfl
@[simp] theorem State.modCtx_port (x : Nat) (f : Ctx → Ctx) (j : Nat) : (s.modCtx x f).port j = s.port j := rfl
@[simp] theorem State.modCtx_quern (x : Nat) (f : Ctx → Ctx) (i j : Nat) : (s.modCtx x f).quern i j = s.quern i j := rfl
@[simp] theorem State.modCtx_leat (x : Nat) (f : Ctx → Ctx) (i j : Nat) : (s.modCtx x f).leat i j = s.leat i j := rfl
@[simp] theorem State.modCtx_now (x : Nat) (f : Ctx → Ctx) : (s.modCtx x f).now = s.now := rfl

/-! ### setQp -/

@[simp] theorem State.setQp_pending (q : Nat) (v : Qp) : (s.setQp q v).pending = s.pending := rfl
@[simp] theorem State.setQp_mill (q : Nat) (v : Qp) : (s.setQp q v).mill = s.mill := rfl
@[simp] theorem State.setQp_parts (q : Nat) (v : Qp) : (s.setQp q v).parts = s.parts := rfl
@[simp] theorem State.setQp_stagedFull (q : Nat) (v : Qp) : (s.setQp q v).stagedFull = s.stagedFull := rfl
@[simp] theorem State.setQp_device (q : Nat) (v : Qp) : (s.setQp q v).device = s.device := rfl
@[simp] theorem State.setQp_stageObj (q : Nat) (v : Qp) : (s.setQp q v).stageObj = s.stageObj := rfl
@[simp] theorem State.setQp_stageLen (q : Nat) (v : Qp) : (s.setQp q v).stageLen = s.stageLen := rfl
@[simp] theorem State.setQp_partLock (q : Nat) (v : Qp) : (s.setQp q v).partLock = s.partLock := rfl
@[simp] theorem State.setQp_weirs (q : Nat) (v : Qp) : (s.setQp q v).weirs = s.weirs := rfl
@[simp] theorem State.setQp_querns (q : Nat) (v : Qp) : (s.setQp q v).querns = s.querns := rfl
@[simp] theorem State.setQp_resolves (q : Nat) (v : Qp) : (s.setQp q v).resolves = s.resolves := rfl
@[simp] theorem State.setQp_tollFails (q : Nat) (v : Qp) : (s.setQp q v).tollFails = s.tollFails := rfl
@[simp] theorem State.setQp_testNext (q : Nat) (v : Qp) : (s.setQp q v).testNext = s.testNext := rfl
@[simp] theorem State.setQp_testResults (q : Nat) (v : Qp) : (s.setQp q v).testResults = s.testResults := rfl
@[simp] theorem State.setQp_tiles (q : Nat) (v : Qp) : (s.setQp q v).tiles = s.tiles := rfl
@[simp] theorem State.setQp_clusters (q : Nat) (v : Qp) : (s.setQp q v).clusters = s.clusters := rfl
@[simp] theorem State.setQp_tollQueue (q : Nat) (v : Qp) : (s.setQp q v).tollQueue = s.tollQueue := rfl
@[simp] theorem State.setQp_granary (q : Nat) (v : Qp) : (s.setQp q v).granary = s.granary := rfl
@[simp] theorem State.setQp_hbm (q : Nat) (v : Qp) : (s.setQp q v).hbm = s.hbm := rfl
@[simp] theorem State.setQp_pond (q : Nat) (v : Qp) : (s.setQp q v).pond = s.pond := rfl
@[simp] theorem State.setQp_leats (q : Nat) (v : Qp) : (s.setQp q v).leats = s.leats := rfl
@[simp] theorem State.setQp_mem (q : Nat) (v : Qp) : (s.setQp q v).mem = s.mem := rfl
@[simp] theorem State.setQp_ctxs (q : Nat) (v : Qp) : (s.setQp q v).ctxs = s.ctxs := rfl
@[simp] theorem State.setQp_ctxRegs (q : Nat) (v : Qp) : (s.setQp q v).ctxRegs = s.ctxRegs := rfl
@[simp] theorem State.setQp_pendingFrees (q : Nat) (v : Qp) : (s.setQp q v).pendingFrees = s.pendingFrees := rfl
@[simp] theorem State.setQp_copyJobs (q : Nat) (v : Qp) : (s.setQp q v).copyJobs = s.copyJobs := rfl
@[simp] theorem State.setQp_ports (q : Nat) (v : Qp) : (s.setQp q v).ports = s.ports := rfl
@[simp] theorem State.setQp_eth (q : Nat) (v : Qp) : (s.setQp q v).eth = s.eth := rfl
@[simp] theorem State.setQp_sec (q : Nat) (v : Qp) : (s.setQp q v).sec = s.sec := rfl
@[simp] theorem State.setQp_board (q : Nat) (v : Qp) : (s.setQp q v).board = s.board := rfl
@[simp] theorem State.setQp_mce (q : Nat) (v : Qp) : (s.setQp q v).mce = s.mce := rfl
@[simp] theorem State.setQp_life (q : Nat) (v : Qp) : (s.setQp q v).life = s.life := rfl
@[simp] theorem State.setQp_ras (q : Nat) (v : Qp) : (s.setQp q v).ras = s.ras := rfl
@[simp] theorem State.setQp_pwr (q : Nat) (v : Qp) : (s.setQp q v).pwr = s.pwr := rfl
@[simp] theorem State.setQp_selects (q : Nat) (v : Qp) : (s.setQp q v).selects = s.selects := rfl
@[simp] theorem State.setQp_selFactory (q : Nat) (v : Qp) : (s.setQp q v).selFactory = s.selFactory := rfl
@[simp] theorem State.setQp_selBoard (q : Nat) (v : Qp) : (s.setQp q v).selBoard = s.selBoard := rfl
@[simp] theorem State.setQp_out (q : Nat) (v : Qp) : (s.setQp q v).out = s.out := rfl
@[simp] theorem State.setQp_draws (q : Nat) (v : Qp) : (s.setQp q v).draws = s.draws := rfl
@[simp] theorem State.setQp_part (q : Nat) (v : Qp) (j : Nat) : (s.setQp q v).part j = s.part j := rfl
@[simp] theorem State.setQp_weir (q : Nat) (v : Qp) (j : Nat) : (s.setQp q v).weir j = s.weir j := rfl
@[simp] theorem State.setQp_tile (q : Nat) (v : Qp) (j : Nat) : (s.setQp q v).tile j = s.tile j := rfl
@[simp] theorem State.setQp_cluster (q : Nat) (v : Qp) (j : Nat) : (s.setQp q v).cluster j = s.cluster j := rfl
@[simp] theorem State.setQp_ctx (q : Nat) (v : Qp) (j : Nat) : (s.setQp q v).ctx j = s.ctx j := rfl
@[simp] theorem State.setQp_port (q : Nat) (v : Qp) (j : Nat) : (s.setQp q v).port j = s.port j := rfl
@[simp] theorem State.setQp_quern (q : Nat) (v : Qp) (i j : Nat) : (s.setQp q v).quern i j = s.quern i j := rfl
@[simp] theorem State.setQp_leat (q : Nat) (v : Qp) (i j : Nat) : (s.setQp q v).leat i j = s.leat i j := rfl
@[simp] theorem State.setQp_now (q : Nat) (v : Qp) : (s.setQp q v).now = s.now := rfl

/-! ### modQp -/

@[simp] theorem State.modQp_pending (q : Nat) (f : Qp → Qp) : (s.modQp q f).pending = s.pending := rfl
@[simp] theorem State.modQp_mill (q : Nat) (f : Qp → Qp) : (s.modQp q f).mill = s.mill := rfl
@[simp] theorem State.modQp_parts (q : Nat) (f : Qp → Qp) : (s.modQp q f).parts = s.parts := rfl
@[simp] theorem State.modQp_stagedFull (q : Nat) (f : Qp → Qp) : (s.modQp q f).stagedFull = s.stagedFull := rfl
@[simp] theorem State.modQp_device (q : Nat) (f : Qp → Qp) : (s.modQp q f).device = s.device := rfl
@[simp] theorem State.modQp_stageObj (q : Nat) (f : Qp → Qp) : (s.modQp q f).stageObj = s.stageObj := rfl
@[simp] theorem State.modQp_stageLen (q : Nat) (f : Qp → Qp) : (s.modQp q f).stageLen = s.stageLen := rfl
@[simp] theorem State.modQp_partLock (q : Nat) (f : Qp → Qp) : (s.modQp q f).partLock = s.partLock := rfl
@[simp] theorem State.modQp_weirs (q : Nat) (f : Qp → Qp) : (s.modQp q f).weirs = s.weirs := rfl
@[simp] theorem State.modQp_querns (q : Nat) (f : Qp → Qp) : (s.modQp q f).querns = s.querns := rfl
@[simp] theorem State.modQp_resolves (q : Nat) (f : Qp → Qp) : (s.modQp q f).resolves = s.resolves := rfl
@[simp] theorem State.modQp_tollFails (q : Nat) (f : Qp → Qp) : (s.modQp q f).tollFails = s.tollFails := rfl
@[simp] theorem State.modQp_testNext (q : Nat) (f : Qp → Qp) : (s.modQp q f).testNext = s.testNext := rfl
@[simp] theorem State.modQp_testResults (q : Nat) (f : Qp → Qp) : (s.modQp q f).testResults = s.testResults := rfl
@[simp] theorem State.modQp_tiles (q : Nat) (f : Qp → Qp) : (s.modQp q f).tiles = s.tiles := rfl
@[simp] theorem State.modQp_clusters (q : Nat) (f : Qp → Qp) : (s.modQp q f).clusters = s.clusters := rfl
@[simp] theorem State.modQp_tollQueue (q : Nat) (f : Qp → Qp) : (s.modQp q f).tollQueue = s.tollQueue := rfl
@[simp] theorem State.modQp_granary (q : Nat) (f : Qp → Qp) : (s.modQp q f).granary = s.granary := rfl
@[simp] theorem State.modQp_hbm (q : Nat) (f : Qp → Qp) : (s.modQp q f).hbm = s.hbm := rfl
@[simp] theorem State.modQp_pond (q : Nat) (f : Qp → Qp) : (s.modQp q f).pond = s.pond := rfl
@[simp] theorem State.modQp_leats (q : Nat) (f : Qp → Qp) : (s.modQp q f).leats = s.leats := rfl
@[simp] theorem State.modQp_mem (q : Nat) (f : Qp → Qp) : (s.modQp q f).mem = s.mem := rfl
@[simp] theorem State.modQp_ctxs (q : Nat) (f : Qp → Qp) : (s.modQp q f).ctxs = s.ctxs := rfl
@[simp] theorem State.modQp_ctxRegs (q : Nat) (f : Qp → Qp) : (s.modQp q f).ctxRegs = s.ctxRegs := rfl
@[simp] theorem State.modQp_pendingFrees (q : Nat) (f : Qp → Qp) : (s.modQp q f).pendingFrees = s.pendingFrees := rfl
@[simp] theorem State.modQp_copyJobs (q : Nat) (f : Qp → Qp) : (s.modQp q f).copyJobs = s.copyJobs := rfl
@[simp] theorem State.modQp_ports (q : Nat) (f : Qp → Qp) : (s.modQp q f).ports = s.ports := rfl
@[simp] theorem State.modQp_eth (q : Nat) (f : Qp → Qp) : (s.modQp q f).eth = s.eth := rfl
@[simp] theorem State.modQp_sec (q : Nat) (f : Qp → Qp) : (s.modQp q f).sec = s.sec := rfl
@[simp] theorem State.modQp_board (q : Nat) (f : Qp → Qp) : (s.modQp q f).board = s.board := rfl
@[simp] theorem State.modQp_mce (q : Nat) (f : Qp → Qp) : (s.modQp q f).mce = s.mce := rfl
@[simp] theorem State.modQp_life (q : Nat) (f : Qp → Qp) : (s.modQp q f).life = s.life := rfl
@[simp] theorem State.modQp_ras (q : Nat) (f : Qp → Qp) : (s.modQp q f).ras = s.ras := rfl
@[simp] theorem State.modQp_pwr (q : Nat) (f : Qp → Qp) : (s.modQp q f).pwr = s.pwr := rfl
@[simp] theorem State.modQp_selects (q : Nat) (f : Qp → Qp) : (s.modQp q f).selects = s.selects := rfl
@[simp] theorem State.modQp_selFactory (q : Nat) (f : Qp → Qp) : (s.modQp q f).selFactory = s.selFactory := rfl
@[simp] theorem State.modQp_selBoard (q : Nat) (f : Qp → Qp) : (s.modQp q f).selBoard = s.selBoard := rfl
@[simp] theorem State.modQp_out (q : Nat) (f : Qp → Qp) : (s.modQp q f).out = s.out := rfl
@[simp] theorem State.modQp_draws (q : Nat) (f : Qp → Qp) : (s.modQp q f).draws = s.draws := rfl
@[simp] theorem State.modQp_part (q : Nat) (f : Qp → Qp) (j : Nat) : (s.modQp q f).part j = s.part j := rfl
@[simp] theorem State.modQp_weir (q : Nat) (f : Qp → Qp) (j : Nat) : (s.modQp q f).weir j = s.weir j := rfl
@[simp] theorem State.modQp_tile (q : Nat) (f : Qp → Qp) (j : Nat) : (s.modQp q f).tile j = s.tile j := rfl
@[simp] theorem State.modQp_cluster (q : Nat) (f : Qp → Qp) (j : Nat) : (s.modQp q f).cluster j = s.cluster j := rfl
@[simp] theorem State.modQp_ctx (q : Nat) (f : Qp → Qp) (j : Nat) : (s.modQp q f).ctx j = s.ctx j := rfl
@[simp] theorem State.modQp_port (q : Nat) (f : Qp → Qp) (j : Nat) : (s.modQp q f).port j = s.port j := rfl
@[simp] theorem State.modQp_quern (q : Nat) (f : Qp → Qp) (i j : Nat) : (s.modQp q f).quern i j = s.quern i j := rfl
@[simp] theorem State.modQp_leat (q : Nat) (f : Qp → Qp) (i j : Nat) : (s.modQp q f).leat i j = s.leat i j := rfl
@[simp] theorem State.modQp_now (q : Nat) (f : Qp → Qp) : (s.modQp q f).now = s.now := rfl

/-! ### setPort -/

@[simp] theorem State.setPort_pending (k : Nat) (v : Port) : (s.setPort k v).pending = s.pending := rfl
@[simp] theorem State.setPort_mill (k : Nat) (v : Port) : (s.setPort k v).mill = s.mill := rfl
@[simp] theorem State.setPort_parts (k : Nat) (v : Port) : (s.setPort k v).parts = s.parts := rfl
@[simp] theorem State.setPort_stagedFull (k : Nat) (v : Port) : (s.setPort k v).stagedFull = s.stagedFull := rfl
@[simp] theorem State.setPort_device (k : Nat) (v : Port) : (s.setPort k v).device = s.device := rfl
@[simp] theorem State.setPort_stageObj (k : Nat) (v : Port) : (s.setPort k v).stageObj = s.stageObj := rfl
@[simp] theorem State.setPort_stageLen (k : Nat) (v : Port) : (s.setPort k v).stageLen = s.stageLen := rfl
@[simp] theorem State.setPort_partLock (k : Nat) (v : Port) : (s.setPort k v).partLock = s.partLock := rfl
@[simp] theorem State.setPort_weirs (k : Nat) (v : Port) : (s.setPort k v).weirs = s.weirs := rfl
@[simp] theorem State.setPort_querns (k : Nat) (v : Port) : (s.setPort k v).querns = s.querns := rfl
@[simp] theorem State.setPort_resolves (k : Nat) (v : Port) : (s.setPort k v).resolves = s.resolves := rfl
@[simp] theorem State.setPort_tollFails (k : Nat) (v : Port) : (s.setPort k v).tollFails = s.tollFails := rfl
@[simp] theorem State.setPort_testNext (k : Nat) (v : Port) : (s.setPort k v).testNext = s.testNext := rfl
@[simp] theorem State.setPort_testResults (k : Nat) (v : Port) : (s.setPort k v).testResults = s.testResults := rfl
@[simp] theorem State.setPort_tiles (k : Nat) (v : Port) : (s.setPort k v).tiles = s.tiles := rfl
@[simp] theorem State.setPort_clusters (k : Nat) (v : Port) : (s.setPort k v).clusters = s.clusters := rfl
@[simp] theorem State.setPort_tollQueue (k : Nat) (v : Port) : (s.setPort k v).tollQueue = s.tollQueue := rfl
@[simp] theorem State.setPort_granary (k : Nat) (v : Port) : (s.setPort k v).granary = s.granary := rfl
@[simp] theorem State.setPort_hbm (k : Nat) (v : Port) : (s.setPort k v).hbm = s.hbm := rfl
@[simp] theorem State.setPort_pond (k : Nat) (v : Port) : (s.setPort k v).pond = s.pond := rfl
@[simp] theorem State.setPort_leats (k : Nat) (v : Port) : (s.setPort k v).leats = s.leats := rfl
@[simp] theorem State.setPort_mem (k : Nat) (v : Port) : (s.setPort k v).mem = s.mem := rfl
@[simp] theorem State.setPort_ctxs (k : Nat) (v : Port) : (s.setPort k v).ctxs = s.ctxs := rfl
@[simp] theorem State.setPort_ctxRegs (k : Nat) (v : Port) : (s.setPort k v).ctxRegs = s.ctxRegs := rfl
@[simp] theorem State.setPort_pendingFrees (k : Nat) (v : Port) : (s.setPort k v).pendingFrees = s.pendingFrees := rfl
@[simp] theorem State.setPort_copyJobs (k : Nat) (v : Port) : (s.setPort k v).copyJobs = s.copyJobs := rfl
@[simp] theorem State.setPort_qps (k : Nat) (v : Port) : (s.setPort k v).qps = s.qps := rfl
@[simp] theorem State.setPort_eth (k : Nat) (v : Port) : (s.setPort k v).eth = s.eth := rfl
@[simp] theorem State.setPort_sec (k : Nat) (v : Port) : (s.setPort k v).sec = s.sec := rfl
@[simp] theorem State.setPort_board (k : Nat) (v : Port) : (s.setPort k v).board = s.board := rfl
@[simp] theorem State.setPort_mce (k : Nat) (v : Port) : (s.setPort k v).mce = s.mce := rfl
@[simp] theorem State.setPort_life (k : Nat) (v : Port) : (s.setPort k v).life = s.life := rfl
@[simp] theorem State.setPort_ras (k : Nat) (v : Port) : (s.setPort k v).ras = s.ras := rfl
@[simp] theorem State.setPort_pwr (k : Nat) (v : Port) : (s.setPort k v).pwr = s.pwr := rfl
@[simp] theorem State.setPort_selects (k : Nat) (v : Port) : (s.setPort k v).selects = s.selects := rfl
@[simp] theorem State.setPort_selFactory (k : Nat) (v : Port) : (s.setPort k v).selFactory = s.selFactory := rfl
@[simp] theorem State.setPort_selBoard (k : Nat) (v : Port) : (s.setPort k v).selBoard = s.selBoard := rfl
@[simp] theorem State.setPort_out (k : Nat) (v : Port) : (s.setPort k v).out = s.out := rfl
@[simp] theorem State.setPort_draws (k : Nat) (v : Port) : (s.setPort k v).draws = s.draws := rfl
@[simp] theorem State.setPort_part (k : Nat) (v : Port) (j : Nat) : (s.setPort k v).part j = s.part j := rfl
@[simp] theorem State.setPort_weir (k : Nat) (v : Port) (j : Nat) : (s.setPort k v).weir j = s.weir j := rfl
@[simp] theorem State.setPort_tile (k : Nat) (v : Port) (j : Nat) : (s.setPort k v).tile j = s.tile j := rfl
@[simp] theorem State.setPort_cluster (k : Nat) (v : Port) (j : Nat) : (s.setPort k v).cluster j = s.cluster j := rfl
@[simp] theorem State.setPort_ctx (k : Nat) (v : Port) (j : Nat) : (s.setPort k v).ctx j = s.ctx j := rfl
@[simp] theorem State.setPort_qp (k : Nat) (v : Port) (j : Nat) : (s.setPort k v).qp j = s.qp j := rfl
@[simp] theorem State.setPort_quern (k : Nat) (v : Port) (i j : Nat) : (s.setPort k v).quern i j = s.quern i j := rfl
@[simp] theorem State.setPort_leat (k : Nat) (v : Port) (i j : Nat) : (s.setPort k v).leat i j = s.leat i j := rfl
@[simp] theorem State.setPort_now (k : Nat) (v : Port) : (s.setPort k v).now = s.now := rfl

/-! ### modPort -/

@[simp] theorem State.modPort_pending (k : Nat) (f : Port → Port) : (s.modPort k f).pending = s.pending := rfl
@[simp] theorem State.modPort_mill (k : Nat) (f : Port → Port) : (s.modPort k f).mill = s.mill := rfl
@[simp] theorem State.modPort_parts (k : Nat) (f : Port → Port) : (s.modPort k f).parts = s.parts := rfl
@[simp] theorem State.modPort_stagedFull (k : Nat) (f : Port → Port) : (s.modPort k f).stagedFull = s.stagedFull := rfl
@[simp] theorem State.modPort_device (k : Nat) (f : Port → Port) : (s.modPort k f).device = s.device := rfl
@[simp] theorem State.modPort_stageObj (k : Nat) (f : Port → Port) : (s.modPort k f).stageObj = s.stageObj := rfl
@[simp] theorem State.modPort_stageLen (k : Nat) (f : Port → Port) : (s.modPort k f).stageLen = s.stageLen := rfl
@[simp] theorem State.modPort_partLock (k : Nat) (f : Port → Port) : (s.modPort k f).partLock = s.partLock := rfl
@[simp] theorem State.modPort_weirs (k : Nat) (f : Port → Port) : (s.modPort k f).weirs = s.weirs := rfl
@[simp] theorem State.modPort_querns (k : Nat) (f : Port → Port) : (s.modPort k f).querns = s.querns := rfl
@[simp] theorem State.modPort_resolves (k : Nat) (f : Port → Port) : (s.modPort k f).resolves = s.resolves := rfl
@[simp] theorem State.modPort_tollFails (k : Nat) (f : Port → Port) : (s.modPort k f).tollFails = s.tollFails := rfl
@[simp] theorem State.modPort_testNext (k : Nat) (f : Port → Port) : (s.modPort k f).testNext = s.testNext := rfl
@[simp] theorem State.modPort_testResults (k : Nat) (f : Port → Port) : (s.modPort k f).testResults = s.testResults := rfl
@[simp] theorem State.modPort_tiles (k : Nat) (f : Port → Port) : (s.modPort k f).tiles = s.tiles := rfl
@[simp] theorem State.modPort_clusters (k : Nat) (f : Port → Port) : (s.modPort k f).clusters = s.clusters := rfl
@[simp] theorem State.modPort_tollQueue (k : Nat) (f : Port → Port) : (s.modPort k f).tollQueue = s.tollQueue := rfl
@[simp] theorem State.modPort_granary (k : Nat) (f : Port → Port) : (s.modPort k f).granary = s.granary := rfl
@[simp] theorem State.modPort_hbm (k : Nat) (f : Port → Port) : (s.modPort k f).hbm = s.hbm := rfl
@[simp] theorem State.modPort_pond (k : Nat) (f : Port → Port) : (s.modPort k f).pond = s.pond := rfl
@[simp] theorem State.modPort_leats (k : Nat) (f : Port → Port) : (s.modPort k f).leats = s.leats := rfl
@[simp] theorem State.modPort_mem (k : Nat) (f : Port → Port) : (s.modPort k f).mem = s.mem := rfl
@[simp] theorem State.modPort_ctxs (k : Nat) (f : Port → Port) : (s.modPort k f).ctxs = s.ctxs := rfl
@[simp] theorem State.modPort_ctxRegs (k : Nat) (f : Port → Port) : (s.modPort k f).ctxRegs = s.ctxRegs := rfl
@[simp] theorem State.modPort_pendingFrees (k : Nat) (f : Port → Port) : (s.modPort k f).pendingFrees = s.pendingFrees := rfl
@[simp] theorem State.modPort_copyJobs (k : Nat) (f : Port → Port) : (s.modPort k f).copyJobs = s.copyJobs := rfl
@[simp] theorem State.modPort_qps (k : Nat) (f : Port → Port) : (s.modPort k f).qps = s.qps := rfl
@[simp] theorem State.modPort_eth (k : Nat) (f : Port → Port) : (s.modPort k f).eth = s.eth := rfl
@[simp] theorem State.modPort_sec (k : Nat) (f : Port → Port) : (s.modPort k f).sec = s.sec := rfl
@[simp] theorem State.modPort_board (k : Nat) (f : Port → Port) : (s.modPort k f).board = s.board := rfl
@[simp] theorem State.modPort_mce (k : Nat) (f : Port → Port) : (s.modPort k f).mce = s.mce := rfl
@[simp] theorem State.modPort_life (k : Nat) (f : Port → Port) : (s.modPort k f).life = s.life := rfl
@[simp] theorem State.modPort_ras (k : Nat) (f : Port → Port) : (s.modPort k f).ras = s.ras := rfl
@[simp] theorem State.modPort_pwr (k : Nat) (f : Port → Port) : (s.modPort k f).pwr = s.pwr := rfl
@[simp] theorem State.modPort_selects (k : Nat) (f : Port → Port) : (s.modPort k f).selects = s.selects := rfl
@[simp] theorem State.modPort_selFactory (k : Nat) (f : Port → Port) : (s.modPort k f).selFactory = s.selFactory := rfl
@[simp] theorem State.modPort_selBoard (k : Nat) (f : Port → Port) : (s.modPort k f).selBoard = s.selBoard := rfl
@[simp] theorem State.modPort_out (k : Nat) (f : Port → Port) : (s.modPort k f).out = s.out := rfl
@[simp] theorem State.modPort_draws (k : Nat) (f : Port → Port) : (s.modPort k f).draws = s.draws := rfl
@[simp] theorem State.modPort_part (k : Nat) (f : Port → Port) (j : Nat) : (s.modPort k f).part j = s.part j := rfl
@[simp] theorem State.modPort_weir (k : Nat) (f : Port → Port) (j : Nat) : (s.modPort k f).weir j = s.weir j := rfl
@[simp] theorem State.modPort_tile (k : Nat) (f : Port → Port) (j : Nat) : (s.modPort k f).tile j = s.tile j := rfl
@[simp] theorem State.modPort_cluster (k : Nat) (f : Port → Port) (j : Nat) : (s.modPort k f).cluster j = s.cluster j := rfl
@[simp] theorem State.modPort_ctx (k : Nat) (f : Port → Port) (j : Nat) : (s.modPort k f).ctx j = s.ctx j := rfl
@[simp] theorem State.modPort_qp (k : Nat) (f : Port → Port) (j : Nat) : (s.modPort k f).qp j = s.qp j := rfl
@[simp] theorem State.modPort_quern (k : Nat) (f : Port → Port) (i j : Nat) : (s.modPort k f).quern i j = s.quern i j := rfl
@[simp] theorem State.modPort_leat (k : Nat) (f : Port → Port) (i j : Nat) : (s.modPort k f).leat i j = s.leat i j := rfl
@[simp] theorem State.modPort_now (k : Nat) (f : Port → Port) : (s.modPort k f).now = s.now := rfl

/-! ### modGov -/

@[simp] theorem State.modGov_pending (p : Nat) (f : Gov → Gov) : (s.modGov p f).pending = s.pending := rfl
@[simp] theorem State.modGov_mill (p : Nat) (f : Gov → Gov) : (s.modGov p f).mill = s.mill := rfl
@[simp] theorem State.modGov_stagedFull (p : Nat) (f : Gov → Gov) : (s.modGov p f).stagedFull = s.stagedFull := rfl
@[simp] theorem State.modGov_device (p : Nat) (f : Gov → Gov) : (s.modGov p f).device = s.device := rfl
@[simp] theorem State.modGov_stageObj (p : Nat) (f : Gov → Gov) : (s.modGov p f).stageObj = s.stageObj := rfl
@[simp] theorem State.modGov_stageLen (p : Nat) (f : Gov → Gov) : (s.modGov p f).stageLen = s.stageLen := rfl
@[simp] theorem State.modGov_partLock (p : Nat) (f : Gov → Gov) : (s.modGov p f).partLock = s.partLock := rfl
@[simp] theorem State.modGov_weirs (p : Nat) (f : Gov → Gov) : (s.modGov p f).weirs = s.weirs := rfl
@[simp] theorem State.modGov_querns (p : Nat) (f : Gov → Gov) : (s.modGov p f).querns = s.querns := rfl
@[simp] theorem State.modGov_resolves (p : Nat) (f : Gov → Gov) : (s.modGov p f).resolves = s.resolves := rfl
@[simp] theorem State.modGov_tollFails (p : Nat) (f : Gov → Gov) : (s.modGov p f).tollFails = s.tollFails := rfl
@[simp] theorem State.modGov_testNext (p : Nat) (f : Gov → Gov) : (s.modGov p f).testNext = s.testNext := rfl
@[simp] theorem State.modGov_testResults (p : Nat) (f : Gov → Gov) : (s.modGov p f).testResults = s.testResults := rfl
@[simp] theorem State.modGov_tiles (p : Nat) (f : Gov → Gov) : (s.modGov p f).tiles = s.tiles := rfl
@[simp] theorem State.modGov_clusters (p : Nat) (f : Gov → Gov) : (s.modGov p f).clusters = s.clusters := rfl
@[simp] theorem State.modGov_tollQueue (p : Nat) (f : Gov → Gov) : (s.modGov p f).tollQueue = s.tollQueue := rfl
@[simp] theorem State.modGov_granary (p : Nat) (f : Gov → Gov) : (s.modGov p f).granary = s.granary := rfl
@[simp] theorem State.modGov_hbm (p : Nat) (f : Gov → Gov) : (s.modGov p f).hbm = s.hbm := rfl
@[simp] theorem State.modGov_pond (p : Nat) (f : Gov → Gov) : (s.modGov p f).pond = s.pond := rfl
@[simp] theorem State.modGov_leats (p : Nat) (f : Gov → Gov) : (s.modGov p f).leats = s.leats := rfl
@[simp] theorem State.modGov_mem (p : Nat) (f : Gov → Gov) : (s.modGov p f).mem = s.mem := rfl
@[simp] theorem State.modGov_ctxs (p : Nat) (f : Gov → Gov) : (s.modGov p f).ctxs = s.ctxs := rfl
@[simp] theorem State.modGov_ctxRegs (p : Nat) (f : Gov → Gov) : (s.modGov p f).ctxRegs = s.ctxRegs := rfl
@[simp] theorem State.modGov_pendingFrees (p : Nat) (f : Gov → Gov) : (s.modGov p f).pendingFrees = s.pendingFrees := rfl
@[simp] theorem State.modGov_copyJobs (p : Nat) (f : Gov → Gov) : (s.modGov p f).copyJobs = s.copyJobs := rfl
@[simp] theorem State.modGov_qps (p : Nat) (f : Gov → Gov) : (s.modGov p f).qps = s.qps := rfl
@[simp] theorem State.modGov_ports (p : Nat) (f : Gov → Gov) : (s.modGov p f).ports = s.ports := rfl
@[simp] theorem State.modGov_eth (p : Nat) (f : Gov → Gov) : (s.modGov p f).eth = s.eth := rfl
@[simp] theorem State.modGov_sec (p : Nat) (f : Gov → Gov) : (s.modGov p f).sec = s.sec := rfl
@[simp] theorem State.modGov_board (p : Nat) (f : Gov → Gov) : (s.modGov p f).board = s.board := rfl
@[simp] theorem State.modGov_mce (p : Nat) (f : Gov → Gov) : (s.modGov p f).mce = s.mce := rfl
@[simp] theorem State.modGov_life (p : Nat) (f : Gov → Gov) : (s.modGov p f).life = s.life := rfl
@[simp] theorem State.modGov_ras (p : Nat) (f : Gov → Gov) : (s.modGov p f).ras = s.ras := rfl
@[simp] theorem State.modGov_pwr (p : Nat) (f : Gov → Gov) : (s.modGov p f).pwr = s.pwr := rfl
@[simp] theorem State.modGov_selects (p : Nat) (f : Gov → Gov) : (s.modGov p f).selects = s.selects := rfl
@[simp] theorem State.modGov_selFactory (p : Nat) (f : Gov → Gov) : (s.modGov p f).selFactory = s.selFactory := rfl
@[simp] theorem State.modGov_selBoard (p : Nat) (f : Gov → Gov) : (s.modGov p f).selBoard = s.selBoard := rfl
@[simp] theorem State.modGov_out (p : Nat) (f : Gov → Gov) : (s.modGov p f).out = s.out := rfl
@[simp] theorem State.modGov_draws (p : Nat) (f : Gov → Gov) : (s.modGov p f).draws = s.draws := rfl
@[simp] theorem State.modGov_weir (p : Nat) (f : Gov → Gov) (j : Nat) : (s.modGov p f).weir j = s.weir j := rfl
@[simp] theorem State.modGov_tile (p : Nat) (f : Gov → Gov) (j : Nat) : (s.modGov p f).tile j = s.tile j := rfl
@[simp] theorem State.modGov_cluster (p : Nat) (f : Gov → Gov) (j : Nat) : (s.modGov p f).cluster j = s.cluster j := rfl
@[simp] theorem State.modGov_ctx (p : Nat) (f : Gov → Gov) (j : Nat) : (s.modGov p f).ctx j = s.ctx j := rfl
@[simp] theorem State.modGov_qp (p : Nat) (f : Gov → Gov) (j : Nat) : (s.modGov p f).qp j = s.qp j := rfl
@[simp] theorem State.modGov_port (p : Nat) (f : Gov → Gov) (j : Nat) : (s.modGov p f).port j = s.port j := rfl
@[simp] theorem State.modGov_quern (p : Nat) (f : Gov → Gov) (i j : Nat) : (s.modGov p f).quern i j = s.quern i j := rfl
@[simp] theorem State.modGov_leat (p : Nat) (f : Gov → Gov) (i j : Nat) : (s.modGov p f).leat i j = s.leat i j := rfl
@[simp] theorem State.modGov_now (p : Nat) (f : Gov → Gov) : (s.modGov p f).now = s.now := rfl

/-! ### setQuern -/

@[simp] theorem State.setQuern_pending (p d : Nat) (v : Quern) : (s.setQuern p d v).pending = s.pending := rfl
@[simp] theorem State.setQuern_mill (p d : Nat) (v : Quern) : (s.setQuern p d v).mill = s.mill := rfl
@[simp] theorem State.setQuern_parts (p d : Nat) (v : Quern) : (s.setQuern p d v).parts = s.parts := rfl
@[simp] theorem State.setQuern_stagedFull (p d : Nat) (v : Quern) : (s.setQuern p d v).stagedFull = s.stagedFull := rfl
@[simp] theorem State.setQuern_device (p d : Nat) (v : Quern) : (s.setQuern p d v).device = s.device := rfl
@[simp] theorem State.setQuern_stageObj (p d : Nat) (v : Quern) : (s.setQuern p d v).stageObj = s.stageObj := rfl
@[simp] theorem State.setQuern_stageLen (p d : Nat) (v : Quern) : (s.setQuern p d v).stageLen = s.stageLen := rfl
@[simp] theorem State.setQuern_partLock (p d : Nat) (v : Quern) : (s.setQuern p d v).partLock = s.partLock := rfl
@[simp] theorem State.setQuern_weirs (p d : Nat) (v : Quern) : (s.setQuern p d v).weirs = s.weirs := rfl
@[simp] theorem State.setQuern_resolves (p d : Nat) (v : Quern) : (s.setQuern p d v).resolves = s.resolves := rfl
@[simp] theorem State.setQuern_tollFails (p d : Nat) (v : Quern) : (s.setQuern p d v).tollFails = s.tollFails := rfl
@[simp] theorem State.setQuern_testNext (p d : Nat) (v : Quern) : (s.setQuern p d v).testNext = s.testNext := rfl
@[simp] theorem State.setQuern_testResults (p d : Nat) (v : Quern) : (s.setQuern p d v).testResults = s.testResults := rfl
@[simp] theorem State.setQuern_tiles (p d : Nat) (v : Quern) : (s.setQuern p d v).tiles = s.tiles := rfl
@[simp] theorem State.setQuern_clusters (p d : Nat) (v : Quern) : (s.setQuern p d v).clusters = s.clusters := rfl
@[simp] theorem State.setQuern_tollQueue (p d : Nat) (v : Quern) : (s.setQuern p d v).tollQueue = s.tollQueue := rfl
@[simp] theorem State.setQuern_granary (p d : Nat) (v : Quern) : (s.setQuern p d v).granary = s.granary := rfl
@[simp] theorem State.setQuern_hbm (p d : Nat) (v : Quern) : (s.setQuern p d v).hbm = s.hbm := rfl
@[simp] theorem State.setQuern_pond (p d : Nat) (v : Quern) : (s.setQuern p d v).pond = s.pond := rfl
@[simp] theorem State.setQuern_leats (p d : Nat) (v : Quern) : (s.setQuern p d v).leats = s.leats := rfl
@[simp] theorem State.setQuern_mem (p d : Nat) (v : Quern) : (s.setQuern p d v).mem = s.mem := rfl
@[simp] theorem State.setQuern_ctxs (p d : Nat) (v : Quern) : (s.setQuern p d v).ctxs = s.ctxs := rfl
@[simp] theorem State.setQuern_ctxRegs (p d : Nat) (v : Quern) : (s.setQuern p d v).ctxRegs = s.ctxRegs := rfl
@[simp] theorem State.setQuern_pendingFrees (p d : Nat) (v : Quern) : (s.setQuern p d v).pendingFrees = s.pendingFrees := rfl
@[simp] theorem State.setQuern_copyJobs (p d : Nat) (v : Quern) : (s.setQuern p d v).copyJobs = s.copyJobs := rfl
@[simp] theorem State.setQuern_qps (p d : Nat) (v : Quern) : (s.setQuern p d v).qps = s.qps := rfl
@[simp] theorem State.setQuern_ports (p d : Nat) (v : Quern) : (s.setQuern p d v).ports = s.ports := rfl
@[simp] theorem State.setQuern_eth (p d : Nat) (v : Quern) : (s.setQuern p d v).eth = s.eth := rfl
@[simp] theorem State.setQuern_sec (p d : Nat) (v : Quern) : (s.setQuern p d v).sec = s.sec := rfl
@[simp] theorem State.setQuern_board (p d : Nat) (v : Quern) : (s.setQuern p d v).board = s.board := rfl
@[simp] theorem State.setQuern_mce (p d : Nat) (v : Quern) : (s.setQuern p d v).mce = s.mce := rfl
@[simp] theorem State.setQuern_life (p d : Nat) (v : Quern) : (s.setQuern p d v).life = s.life := rfl
@[simp] theorem State.setQuern_ras (p d : Nat) (v : Quern) : (s.setQuern p d v).ras = s.ras := rfl
@[simp] theorem State.setQuern_pwr (p d : Nat) (v : Quern) : (s.setQuern p d v).pwr = s.pwr := rfl
@[simp] theorem State.setQuern_selects (p d : Nat) (v : Quern) : (s.setQuern p d v).selects = s.selects := rfl
@[simp] theorem State.setQuern_selFactory (p d : Nat) (v : Quern) : (s.setQuern p d v).selFactory = s.selFactory := rfl
@[simp] theorem State.setQuern_selBoard (p d : Nat) (v : Quern) : (s.setQuern p d v).selBoard = s.selBoard := rfl
@[simp] theorem State.setQuern_out (p d : Nat) (v : Quern) : (s.setQuern p d v).out = s.out := rfl
@[simp] theorem State.setQuern_draws (p d : Nat) (v : Quern) : (s.setQuern p d v).draws = s.draws := rfl
@[simp] theorem State.setQuern_part (p d : Nat) (v : Quern) (j : Nat) : (s.setQuern p d v).part j = s.part j := rfl
@[simp] theorem State.setQuern_weir (p d : Nat) (v : Quern) (j : Nat) : (s.setQuern p d v).weir j = s.weir j := rfl
@[simp] theorem State.setQuern_tile (p d : Nat) (v : Quern) (j : Nat) : (s.setQuern p d v).tile j = s.tile j := rfl
@[simp] theorem State.setQuern_cluster (p d : Nat) (v : Quern) (j : Nat) : (s.setQuern p d v).cluster j = s.cluster j := rfl
@[simp] theorem State.setQuern_ctx (p d : Nat) (v : Quern) (j : Nat) : (s.setQuern p d v).ctx j = s.ctx j := rfl
@[simp] theorem State.setQuern_qp (p d : Nat) (v : Quern) (j : Nat) : (s.setQuern p d v).qp j = s.qp j := rfl
@[simp] theorem State.setQuern_port (p d : Nat) (v : Quern) (j : Nat) : (s.setQuern p d v).port j = s.port j := rfl
@[simp] theorem State.setQuern_leat (p d : Nat) (v : Quern) (i j : Nat) : (s.setQuern p d v).leat i j = s.leat i j := rfl
@[simp] theorem State.setQuern_now (p d : Nat) (v : Quern) : (s.setQuern p d v).now = s.now := rfl

/-! ### modQuern -/

@[simp] theorem State.modQuern_pending (p d : Nat) (f : Quern → Quern) : (s.modQuern p d f).pending = s.pending := rfl
@[simp] theorem State.modQuern_mill (p d : Nat) (f : Quern → Quern) : (s.modQuern p d f).mill = s.mill := rfl
@[simp] theorem State.modQuern_parts (p d : Nat) (f : Quern → Quern) : (s.modQuern p d f).parts = s.parts := rfl
@[simp] theorem State.modQuern_stagedFull (p d : Nat) (f : Quern → Quern) : (s.modQuern p d f).stagedFull = s.stagedFull := rfl
@[simp] theorem State.modQuern_device (p d : Nat) (f : Quern → Quern) : (s.modQuern p d f).device = s.device := rfl
@[simp] theorem State.modQuern_stageObj (p d : Nat) (f : Quern → Quern) : (s.modQuern p d f).stageObj = s.stageObj := rfl
@[simp] theorem State.modQuern_stageLen (p d : Nat) (f : Quern → Quern) : (s.modQuern p d f).stageLen = s.stageLen := rfl
@[simp] theorem State.modQuern_partLock (p d : Nat) (f : Quern → Quern) : (s.modQuern p d f).partLock = s.partLock := rfl
@[simp] theorem State.modQuern_weirs (p d : Nat) (f : Quern → Quern) : (s.modQuern p d f).weirs = s.weirs := rfl
@[simp] theorem State.modQuern_resolves (p d : Nat) (f : Quern → Quern) : (s.modQuern p d f).resolves = s.resolves := rfl
@[simp] theorem State.modQuern_tollFails (p d : Nat) (f : Quern → Quern) : (s.modQuern p d f).tollFails = s.tollFails := rfl
@[simp] theorem State.modQuern_testNext (p d : Nat) (f : Quern → Quern) : (s.modQuern p d f).testNext = s.testNext := rfl
@[simp] theorem State.modQuern_testResults (p d : Nat) (f : Quern → Quern) : (s.modQuern p d f).testResults = s.testResults := rfl
@[simp] theorem State.modQuern_tiles (p d : Nat) (f : Quern → Quern) : (s.modQuern p d f).tiles = s.tiles := rfl
@[simp] theorem State.modQuern_clusters (p d : Nat) (f : Quern → Quern) : (s.modQuern p d f).clusters = s.clusters := rfl
@[simp] theorem State.modQuern_tollQueue (p d : Nat) (f : Quern → Quern) : (s.modQuern p d f).tollQueue = s.tollQueue := rfl
@[simp] theorem State.modQuern_granary (p d : Nat) (f : Quern → Quern) : (s.modQuern p d f).granary = s.granary := rfl
@[simp] theorem State.modQuern_hbm (p d : Nat) (f : Quern → Quern) : (s.modQuern p d f).hbm = s.hbm := rfl
@[simp] theorem State.modQuern_pond (p d : Nat) (f : Quern → Quern) : (s.modQuern p d f).pond = s.pond := rfl
@[simp] theorem State.modQuern_leats (p d : Nat) (f : Quern → Quern) : (s.modQuern p d f).leats = s.leats := rfl
@[simp] theorem State.modQuern_mem (p d : Nat) (f : Quern → Quern) : (s.modQuern p d f).mem = s.mem := rfl
@[simp] theorem State.modQuern_ctxs (p d : Nat) (f : Quern → Quern) : (s.modQuern p d f).ctxs = s.ctxs := rfl
@[simp] theorem State.modQuern_ctxRegs (p d : Nat) (f : Quern → Quern) : (s.modQuern p d f).ctxRegs = s.ctxRegs := rfl
@[simp] theorem State.modQuern_pendingFrees (p d : Nat) (f : Quern → Quern) : (s.modQuern p d f).pendingFrees = s.pendingFrees := rfl
@[simp] theorem State.modQuern_copyJobs (p d : Nat) (f : Quern → Quern) : (s.modQuern p d f).copyJobs = s.copyJobs := rfl
@[simp] theorem State.modQuern_qps (p d : Nat) (f : Quern → Quern) : (s.modQuern p d f).qps = s.qps := rfl
@[simp] theorem State.modQuern_ports (p d : Nat) (f : Quern → Quern) : (s.modQuern p d f).ports = s.ports := rfl
@[simp] theorem State.modQuern_eth (p d : Nat) (f : Quern → Quern) : (s.modQuern p d f).eth = s.eth := rfl
@[simp] theorem State.modQuern_sec (p d : Nat) (f : Quern → Quern) : (s.modQuern p d f).sec = s.sec := rfl
@[simp] theorem State.modQuern_board (p d : Nat) (f : Quern → Quern) : (s.modQuern p d f).board = s.board := rfl
@[simp] theorem State.modQuern_mce (p d : Nat) (f : Quern → Quern) : (s.modQuern p d f).mce = s.mce := rfl
@[simp] theorem State.modQuern_life (p d : Nat) (f : Quern → Quern) : (s.modQuern p d f).life = s.life := rfl
@[simp] theorem State.modQuern_ras (p d : Nat) (f : Quern → Quern) : (s.modQuern p d f).ras = s.ras := rfl
@[simp] theorem State.modQuern_pwr (p d : Nat) (f : Quern → Quern) : (s.modQuern p d f).pwr = s.pwr := rfl
@[simp] theorem State.modQuern_selects (p d : Nat) (f : Quern → Quern) : (s.modQuern p d f).selects = s.selects := rfl
@[simp] theorem State.modQuern_selFactory (p d : Nat) (f : Quern → Quern) : (s.modQuern p d f).selFactory = s.selFactory := rfl
@[simp] theorem State.modQuern_selBoard (p d : Nat) (f : Quern → Quern) : (s.modQuern p d f).selBoard = s.selBoard := rfl
@[simp] theorem State.modQuern_out (p d : Nat) (f : Quern → Quern) : (s.modQuern p d f).out = s.out := rfl
@[simp] theorem State.modQuern_draws (p d : Nat) (f : Quern → Quern) : (s.modQuern p d f).draws = s.draws := rfl
@[simp] theorem State.modQuern_part (p d : Nat) (f : Quern → Quern) (j : Nat) : (s.modQuern p d f).part j = s.part j := rfl
@[simp] theorem State.modQuern_weir (p d : Nat) (f : Quern → Quern) (j : Nat) : (s.modQuern p d f).weir j = s.weir j := rfl
@[simp] theorem State.modQuern_tile (p d : Nat) (f : Quern → Quern) (j : Nat) : (s.modQuern p d f).tile j = s.tile j := rfl
@[simp] theorem State.modQuern_cluster (p d : Nat) (f : Quern → Quern) (j : Nat) : (s.modQuern p d f).cluster j = s.cluster j := rfl
@[simp] theorem State.modQuern_ctx (p d : Nat) (f : Quern → Quern) (j : Nat) : (s.modQuern p d f).ctx j = s.ctx j := rfl
@[simp] theorem State.modQuern_qp (p d : Nat) (f : Quern → Quern) (j : Nat) : (s.modQuern p d f).qp j = s.qp j := rfl
@[simp] theorem State.modQuern_port (p d : Nat) (f : Quern → Quern) (j : Nat) : (s.modQuern p d f).port j = s.port j := rfl
@[simp] theorem State.modQuern_leat (p d : Nat) (f : Quern → Quern) (i j : Nat) : (s.modQuern p d f).leat i j = s.leat i j := rfl
@[simp] theorem State.modQuern_now (p d : Nat) (f : Quern → Quern) : (s.modQuern p d f).now = s.now := rfl

/-! ### setLeat -/

@[simp] theorem State.setLeat_pending (c k : Nat) (v : LeatRun) : (s.setLeat c k v).pending = s.pending := rfl
@[simp] theorem State.setLeat_mill (c k : Nat) (v : LeatRun) : (s.setLeat c k v).mill = s.mill := rfl
@[simp] theorem State.setLeat_parts (c k : Nat) (v : LeatRun) : (s.setLeat c k v).parts = s.parts := rfl
@[simp] theorem State.setLeat_stagedFull (c k : Nat) (v : LeatRun) : (s.setLeat c k v).stagedFull = s.stagedFull := rfl
@[simp] theorem State.setLeat_device (c k : Nat) (v : LeatRun) : (s.setLeat c k v).device = s.device := rfl
@[simp] theorem State.setLeat_stageObj (c k : Nat) (v : LeatRun) : (s.setLeat c k v).stageObj = s.stageObj := rfl
@[simp] theorem State.setLeat_stageLen (c k : Nat) (v : LeatRun) : (s.setLeat c k v).stageLen = s.stageLen := rfl
@[simp] theorem State.setLeat_partLock (c k : Nat) (v : LeatRun) : (s.setLeat c k v).partLock = s.partLock := rfl
@[simp] theorem State.setLeat_weirs (c k : Nat) (v : LeatRun) : (s.setLeat c k v).weirs = s.weirs := rfl
@[simp] theorem State.setLeat_querns (c k : Nat) (v : LeatRun) : (s.setLeat c k v).querns = s.querns := rfl
@[simp] theorem State.setLeat_resolves (c k : Nat) (v : LeatRun) : (s.setLeat c k v).resolves = s.resolves := rfl
@[simp] theorem State.setLeat_tollFails (c k : Nat) (v : LeatRun) : (s.setLeat c k v).tollFails = s.tollFails := rfl
@[simp] theorem State.setLeat_testNext (c k : Nat) (v : LeatRun) : (s.setLeat c k v).testNext = s.testNext := rfl
@[simp] theorem State.setLeat_testResults (c k : Nat) (v : LeatRun) : (s.setLeat c k v).testResults = s.testResults := rfl
@[simp] theorem State.setLeat_tiles (c k : Nat) (v : LeatRun) : (s.setLeat c k v).tiles = s.tiles := rfl
@[simp] theorem State.setLeat_clusters (c k : Nat) (v : LeatRun) : (s.setLeat c k v).clusters = s.clusters := rfl
@[simp] theorem State.setLeat_tollQueue (c k : Nat) (v : LeatRun) : (s.setLeat c k v).tollQueue = s.tollQueue := rfl
@[simp] theorem State.setLeat_granary (c k : Nat) (v : LeatRun) : (s.setLeat c k v).granary = s.granary := rfl
@[simp] theorem State.setLeat_hbm (c k : Nat) (v : LeatRun) : (s.setLeat c k v).hbm = s.hbm := rfl
@[simp] theorem State.setLeat_pond (c k : Nat) (v : LeatRun) : (s.setLeat c k v).pond = s.pond := rfl
@[simp] theorem State.setLeat_mem (c k : Nat) (v : LeatRun) : (s.setLeat c k v).mem = s.mem := rfl
@[simp] theorem State.setLeat_ctxs (c k : Nat) (v : LeatRun) : (s.setLeat c k v).ctxs = s.ctxs := rfl
@[simp] theorem State.setLeat_ctxRegs (c k : Nat) (v : LeatRun) : (s.setLeat c k v).ctxRegs = s.ctxRegs := rfl
@[simp] theorem State.setLeat_pendingFrees (c k : Nat) (v : LeatRun) : (s.setLeat c k v).pendingFrees = s.pendingFrees := rfl
@[simp] theorem State.setLeat_copyJobs (c k : Nat) (v : LeatRun) : (s.setLeat c k v).copyJobs = s.copyJobs := rfl
@[simp] theorem State.setLeat_qps (c k : Nat) (v : LeatRun) : (s.setLeat c k v).qps = s.qps := rfl
@[simp] theorem State.setLeat_ports (c k : Nat) (v : LeatRun) : (s.setLeat c k v).ports = s.ports := rfl
@[simp] theorem State.setLeat_eth (c k : Nat) (v : LeatRun) : (s.setLeat c k v).eth = s.eth := rfl
@[simp] theorem State.setLeat_sec (c k : Nat) (v : LeatRun) : (s.setLeat c k v).sec = s.sec := rfl
@[simp] theorem State.setLeat_board (c k : Nat) (v : LeatRun) : (s.setLeat c k v).board = s.board := rfl
@[simp] theorem State.setLeat_mce (c k : Nat) (v : LeatRun) : (s.setLeat c k v).mce = s.mce := rfl
@[simp] theorem State.setLeat_life (c k : Nat) (v : LeatRun) : (s.setLeat c k v).life = s.life := rfl
@[simp] theorem State.setLeat_ras (c k : Nat) (v : LeatRun) : (s.setLeat c k v).ras = s.ras := rfl
@[simp] theorem State.setLeat_pwr (c k : Nat) (v : LeatRun) : (s.setLeat c k v).pwr = s.pwr := rfl
@[simp] theorem State.setLeat_selects (c k : Nat) (v : LeatRun) : (s.setLeat c k v).selects = s.selects := rfl
@[simp] theorem State.setLeat_selFactory (c k : Nat) (v : LeatRun) : (s.setLeat c k v).selFactory = s.selFactory := rfl
@[simp] theorem State.setLeat_selBoard (c k : Nat) (v : LeatRun) : (s.setLeat c k v).selBoard = s.selBoard := rfl
@[simp] theorem State.setLeat_out (c k : Nat) (v : LeatRun) : (s.setLeat c k v).out = s.out := rfl
@[simp] theorem State.setLeat_draws (c k : Nat) (v : LeatRun) : (s.setLeat c k v).draws = s.draws := rfl
@[simp] theorem State.setLeat_part (c k : Nat) (v : LeatRun) (j : Nat) : (s.setLeat c k v).part j = s.part j := rfl
@[simp] theorem State.setLeat_weir (c k : Nat) (v : LeatRun) (j : Nat) : (s.setLeat c k v).weir j = s.weir j := rfl
@[simp] theorem State.setLeat_tile (c k : Nat) (v : LeatRun) (j : Nat) : (s.setLeat c k v).tile j = s.tile j := rfl
@[simp] theorem State.setLeat_cluster (c k : Nat) (v : LeatRun) (j : Nat) : (s.setLeat c k v).cluster j = s.cluster j := rfl
@[simp] theorem State.setLeat_ctx (c k : Nat) (v : LeatRun) (j : Nat) : (s.setLeat c k v).ctx j = s.ctx j := rfl
@[simp] theorem State.setLeat_qp (c k : Nat) (v : LeatRun) (j : Nat) : (s.setLeat c k v).qp j = s.qp j := rfl
@[simp] theorem State.setLeat_port (c k : Nat) (v : LeatRun) (j : Nat) : (s.setLeat c k v).port j = s.port j := rfl
@[simp] theorem State.setLeat_quern (c k : Nat) (v : LeatRun) (i j : Nat) : (s.setLeat c k v).quern i j = s.quern i j := rfl
@[simp] theorem State.setLeat_now (c k : Nat) (v : LeatRun) : (s.setLeat c k v).now = s.now := rfl

/-! ### modLeat -/

@[simp] theorem State.modLeat_pending (c k : Nat) (f : LeatRun → LeatRun) : (s.modLeat c k f).pending = s.pending := rfl
@[simp] theorem State.modLeat_mill (c k : Nat) (f : LeatRun → LeatRun) : (s.modLeat c k f).mill = s.mill := rfl
@[simp] theorem State.modLeat_parts (c k : Nat) (f : LeatRun → LeatRun) : (s.modLeat c k f).parts = s.parts := rfl
@[simp] theorem State.modLeat_stagedFull (c k : Nat) (f : LeatRun → LeatRun) : (s.modLeat c k f).stagedFull = s.stagedFull := rfl
@[simp] theorem State.modLeat_device (c k : Nat) (f : LeatRun → LeatRun) : (s.modLeat c k f).device = s.device := rfl
@[simp] theorem State.modLeat_stageObj (c k : Nat) (f : LeatRun → LeatRun) : (s.modLeat c k f).stageObj = s.stageObj := rfl
@[simp] theorem State.modLeat_stageLen (c k : Nat) (f : LeatRun → LeatRun) : (s.modLeat c k f).stageLen = s.stageLen := rfl
@[simp] theorem State.modLeat_partLock (c k : Nat) (f : LeatRun → LeatRun) : (s.modLeat c k f).partLock = s.partLock := rfl
@[simp] theorem State.modLeat_weirs (c k : Nat) (f : LeatRun → LeatRun) : (s.modLeat c k f).weirs = s.weirs := rfl
@[simp] theorem State.modLeat_querns (c k : Nat) (f : LeatRun → LeatRun) : (s.modLeat c k f).querns = s.querns := rfl
@[simp] theorem State.modLeat_resolves (c k : Nat) (f : LeatRun → LeatRun) : (s.modLeat c k f).resolves = s.resolves := rfl
@[simp] theorem State.modLeat_tollFails (c k : Nat) (f : LeatRun → LeatRun) : (s.modLeat c k f).tollFails = s.tollFails := rfl
@[simp] theorem State.modLeat_testNext (c k : Nat) (f : LeatRun → LeatRun) : (s.modLeat c k f).testNext = s.testNext := rfl
@[simp] theorem State.modLeat_testResults (c k : Nat) (f : LeatRun → LeatRun) : (s.modLeat c k f).testResults = s.testResults := rfl
@[simp] theorem State.modLeat_tiles (c k : Nat) (f : LeatRun → LeatRun) : (s.modLeat c k f).tiles = s.tiles := rfl
@[simp] theorem State.modLeat_clusters (c k : Nat) (f : LeatRun → LeatRun) : (s.modLeat c k f).clusters = s.clusters := rfl
@[simp] theorem State.modLeat_tollQueue (c k : Nat) (f : LeatRun → LeatRun) : (s.modLeat c k f).tollQueue = s.tollQueue := rfl
@[simp] theorem State.modLeat_granary (c k : Nat) (f : LeatRun → LeatRun) : (s.modLeat c k f).granary = s.granary := rfl
@[simp] theorem State.modLeat_hbm (c k : Nat) (f : LeatRun → LeatRun) : (s.modLeat c k f).hbm = s.hbm := rfl
@[simp] theorem State.modLeat_pond (c k : Nat) (f : LeatRun → LeatRun) : (s.modLeat c k f).pond = s.pond := rfl
@[simp] theorem State.modLeat_mem (c k : Nat) (f : LeatRun → LeatRun) : (s.modLeat c k f).mem = s.mem := rfl
@[simp] theorem State.modLeat_ctxs (c k : Nat) (f : LeatRun → LeatRun) : (s.modLeat c k f).ctxs = s.ctxs := rfl
@[simp] theorem State.modLeat_ctxRegs (c k : Nat) (f : LeatRun → LeatRun) : (s.modLeat c k f).ctxRegs = s.ctxRegs := rfl
@[simp] theorem State.modLeat_pendingFrees (c k : Nat) (f : LeatRun → LeatRun) : (s.modLeat c k f).pendingFrees = s.pendingFrees := rfl
@[simp] theorem State.modLeat_copyJobs (c k : Nat) (f : LeatRun → LeatRun) : (s.modLeat c k f).copyJobs = s.copyJobs := rfl
@[simp] theorem State.modLeat_qps (c k : Nat) (f : LeatRun → LeatRun) : (s.modLeat c k f).qps = s.qps := rfl
@[simp] theorem State.modLeat_ports (c k : Nat) (f : LeatRun → LeatRun) : (s.modLeat c k f).ports = s.ports := rfl
@[simp] theorem State.modLeat_eth (c k : Nat) (f : LeatRun → LeatRun) : (s.modLeat c k f).eth = s.eth := rfl
@[simp] theorem State.modLeat_sec (c k : Nat) (f : LeatRun → LeatRun) : (s.modLeat c k f).sec = s.sec := rfl
@[simp] theorem State.modLeat_board (c k : Nat) (f : LeatRun → LeatRun) : (s.modLeat c k f).board = s.board := rfl
@[simp] theorem State.modLeat_mce (c k : Nat) (f : LeatRun → LeatRun) : (s.modLeat c k f).mce = s.mce := rfl
@[simp] theorem State.modLeat_life (c k : Nat) (f : LeatRun → LeatRun) : (s.modLeat c k f).life = s.life := rfl
@[simp] theorem State.modLeat_ras (c k : Nat) (f : LeatRun → LeatRun) : (s.modLeat c k f).ras = s.ras := rfl
@[simp] theorem State.modLeat_pwr (c k : Nat) (f : LeatRun → LeatRun) : (s.modLeat c k f).pwr = s.pwr := rfl
@[simp] theorem State.modLeat_selects (c k : Nat) (f : LeatRun → LeatRun) : (s.modLeat c k f).selects = s.selects := rfl
@[simp] theorem State.modLeat_selFactory (c k : Nat) (f : LeatRun → LeatRun) : (s.modLeat c k f).selFactory = s.selFactory := rfl
@[simp] theorem State.modLeat_selBoard (c k : Nat) (f : LeatRun → LeatRun) : (s.modLeat c k f).selBoard = s.selBoard := rfl
@[simp] theorem State.modLeat_out (c k : Nat) (f : LeatRun → LeatRun) : (s.modLeat c k f).out = s.out := rfl
@[simp] theorem State.modLeat_draws (c k : Nat) (f : LeatRun → LeatRun) : (s.modLeat c k f).draws = s.draws := rfl
@[simp] theorem State.modLeat_part (c k : Nat) (f : LeatRun → LeatRun) (j : Nat) : (s.modLeat c k f).part j = s.part j := rfl
@[simp] theorem State.modLeat_weir (c k : Nat) (f : LeatRun → LeatRun) (j : Nat) : (s.modLeat c k f).weir j = s.weir j := rfl
@[simp] theorem State.modLeat_tile (c k : Nat) (f : LeatRun → LeatRun) (j : Nat) : (s.modLeat c k f).tile j = s.tile j := rfl
@[simp] theorem State.modLeat_cluster (c k : Nat) (f : LeatRun → LeatRun) (j : Nat) : (s.modLeat c k f).cluster j = s.cluster j := rfl
@[simp] theorem State.modLeat_ctx (c k : Nat) (f : LeatRun → LeatRun) (j : Nat) : (s.modLeat c k f).ctx j = s.ctx j := rfl
@[simp] theorem State.modLeat_qp (c k : Nat) (f : LeatRun → LeatRun) (j : Nat) : (s.modLeat c k f).qp j = s.qp j := rfl
@[simp] theorem State.modLeat_port (c k : Nat) (f : LeatRun → LeatRun) (j : Nat) : (s.modLeat c k f).port j = s.port j := rfl
@[simp] theorem State.modLeat_quern (c k : Nat) (f : LeatRun → LeatRun) (i j : Nat) : (s.modLeat c k f).quern i j = s.quern i j := rfl
@[simp] theorem State.modLeat_now (c k : Nat) (f : LeatRun → LeatRun) : (s.modLeat c k f).now = s.now := rfl

/-! ### setObj -/

@[simp] theorem State.setObj_pending (x i : Nat) (o : Obj) : (s.setObj x i o).pending = s.pending := rfl
@[simp] theorem State.setObj_mill (x i : Nat) (o : Obj) : (s.setObj x i o).mill = s.mill := rfl
@[simp] theorem State.setObj_parts (x i : Nat) (o : Obj) : (s.setObj x i o).parts = s.parts := rfl
@[simp] theorem State.setObj_stagedFull (x i : Nat) (o : Obj) : (s.setObj x i o).stagedFull = s.stagedFull := rfl
@[simp] theorem State.setObj_device (x i : Nat) (o : Obj) : (s.setObj x i o).device = s.device := rfl
@[simp] theorem State.setObj_stageObj (x i : Nat) (o : Obj) : (s.setObj x i o).stageObj = s.stageObj := rfl
@[simp] theorem State.setObj_stageLen (x i : Nat) (o : Obj) : (s.setObj x i o).stageLen = s.stageLen := rfl
@[simp] theorem State.setObj_partLock (x i : Nat) (o : Obj) : (s.setObj x i o).partLock = s.partLock := rfl
@[simp] theorem State.setObj_weirs (x i : Nat) (o : Obj) : (s.setObj x i o).weirs = s.weirs := rfl
@[simp] theorem State.setObj_querns (x i : Nat) (o : Obj) : (s.setObj x i o).querns = s.querns := rfl
@[simp] theorem State.setObj_resolves (x i : Nat) (o : Obj) : (s.setObj x i o).resolves = s.resolves := rfl
@[simp] theorem State.setObj_tollFails (x i : Nat) (o : Obj) : (s.setObj x i o).tollFails = s.tollFails := rfl
@[simp] theorem State.setObj_testNext (x i : Nat) (o : Obj) : (s.setObj x i o).testNext = s.testNext := rfl
@[simp] theorem State.setObj_testResults (x i : Nat) (o : Obj) : (s.setObj x i o).testResults = s.testResults := rfl
@[simp] theorem State.setObj_tiles (x i : Nat) (o : Obj) : (s.setObj x i o).tiles = s.tiles := rfl
@[simp] theorem State.setObj_clusters (x i : Nat) (o : Obj) : (s.setObj x i o).clusters = s.clusters := rfl
@[simp] theorem State.setObj_tollQueue (x i : Nat) (o : Obj) : (s.setObj x i o).tollQueue = s.tollQueue := rfl
@[simp] theorem State.setObj_granary (x i : Nat) (o : Obj) : (s.setObj x i o).granary = s.granary := rfl
@[simp] theorem State.setObj_hbm (x i : Nat) (o : Obj) : (s.setObj x i o).hbm = s.hbm := rfl
@[simp] theorem State.setObj_pond (x i : Nat) (o : Obj) : (s.setObj x i o).pond = s.pond := rfl
@[simp] theorem State.setObj_leats (x i : Nat) (o : Obj) : (s.setObj x i o).leats = s.leats := rfl
@[simp] theorem State.setObj_mem (x i : Nat) (o : Obj) : (s.setObj x i o).mem = s.mem := rfl
@[simp] theorem State.setObj_ctxRegs (x i : Nat) (o : Obj) : (s.setObj x i o).ctxRegs = s.ctxRegs := rfl
@[simp] theorem State.setObj_pendingFrees (x i : Nat) (o : Obj) : (s.setObj x i o).pendingFrees = s.pendingFrees := rfl
@[simp] theorem State.setObj_copyJobs (x i : Nat) (o : Obj) : (s.setObj x i o).copyJobs = s.copyJobs := rfl
@[simp] theorem State.setObj_qps (x i : Nat) (o : Obj) : (s.setObj x i o).qps = s.qps := rfl
@[simp] theorem State.setObj_ports (x i : Nat) (o : Obj) : (s.setObj x i o).ports = s.ports := rfl
@[simp] theorem State.setObj_eth (x i : Nat) (o : Obj) : (s.setObj x i o).eth = s.eth := rfl
@[simp] theorem State.setObj_sec (x i : Nat) (o : Obj) : (s.setObj x i o).sec = s.sec := rfl
@[simp] theorem State.setObj_board (x i : Nat) (o : Obj) : (s.setObj x i o).board = s.board := rfl
@[simp] theorem State.setObj_mce (x i : Nat) (o : Obj) : (s.setObj x i o).mce = s.mce := rfl
@[simp] theorem State.setObj_life (x i : Nat) (o : Obj) : (s.setObj x i o).life = s.life := rfl
@[simp] theorem State.setObj_ras (x i : Nat) (o : Obj) : (s.setObj x i o).ras = s.ras := rfl
@[simp] theorem State.setObj_pwr (x i : Nat) (o : Obj) : (s.setObj x i o).pwr = s.pwr := rfl
@[simp] theorem State.setObj_selects (x i : Nat) (o : Obj) : (s.setObj x i o).selects = s.selects := rfl
@[simp] theorem State.setObj_selFactory (x i : Nat) (o : Obj) : (s.setObj x i o).selFactory = s.selFactory := rfl
@[simp] theorem State.setObj_selBoard (x i : Nat) (o : Obj) : (s.setObj x i o).selBoard = s.selBoard := rfl
@[simp] theorem State.setObj_out (x i : Nat) (o : Obj) : (s.setObj x i o).out = s.out := rfl
@[simp] theorem State.setObj_draws (x i : Nat) (o : Obj) : (s.setObj x i o).draws = s.draws := rfl
@[simp] theorem State.setObj_part (x i : Nat) (o : Obj) (j : Nat) : (s.setObj x i o).part j = s.part j := rfl
@[simp] theorem State.setObj_weir (x i : Nat) (o : Obj) (j : Nat) : (s.setObj x i o).weir j = s.weir j := rfl
@[simp] theorem State.setObj_tile (x i : Nat) (o : Obj) (j : Nat) : (s.setObj x i o).tile j = s.tile j := rfl
@[simp] theorem State.setObj_cluster (x i : Nat) (o : Obj) (j : Nat) : (s.setObj x i o).cluster j = s.cluster j := rfl
@[simp] theorem State.setObj_qp (x i : Nat) (o : Obj) (j : Nat) : (s.setObj x i o).qp j = s.qp j := rfl
@[simp] theorem State.setObj_port (x i : Nat) (o : Obj) (j : Nat) : (s.setObj x i o).port j = s.port j := rfl
@[simp] theorem State.setObj_quern (x i : Nat) (o : Obj) (i2 j2 : Nat) : (s.setObj x i o).quern i2 j2 = s.quern i2 j2 := rfl
@[simp] theorem State.setObj_leat (x i : Nat) (o : Obj) (i2 j2 : Nat) : (s.setObj x i o).leat i2 j2 = s.leat i2 j2 := rfl
@[simp] theorem State.setObj_now (x i : Nat) (o : Obj) : (s.setObj x i o).now = s.now := rfl

/-! ### modSec -/

@[simp] theorem State.modSec_pending (f : Security → Security) : (s.modSec f).pending = s.pending := rfl
@[simp] theorem State.modSec_mill (f : Security → Security) : (s.modSec f).mill = s.mill := rfl
@[simp] theorem State.modSec_parts (f : Security → Security) : (s.modSec f).parts = s.parts := rfl
@[simp] theorem State.modSec_stagedFull (f : Security → Security) : (s.modSec f).stagedFull = s.stagedFull := rfl
@[simp] theorem State.modSec_device (f : Security → Security) : (s.modSec f).device = s.device := rfl
@[simp] theorem State.modSec_stageObj (f : Security → Security) : (s.modSec f).stageObj = s.stageObj := rfl
@[simp] theorem State.modSec_stageLen (f : Security → Security) : (s.modSec f).stageLen = s.stageLen := rfl
@[simp] theorem State.modSec_partLock (f : Security → Security) : (s.modSec f).partLock = s.partLock := rfl
@[simp] theorem State.modSec_weirs (f : Security → Security) : (s.modSec f).weirs = s.weirs := rfl
@[simp] theorem State.modSec_querns (f : Security → Security) : (s.modSec f).querns = s.querns := rfl
@[simp] theorem State.modSec_resolves (f : Security → Security) : (s.modSec f).resolves = s.resolves := rfl
@[simp] theorem State.modSec_tollFails (f : Security → Security) : (s.modSec f).tollFails = s.tollFails := rfl
@[simp] theorem State.modSec_testNext (f : Security → Security) : (s.modSec f).testNext = s.testNext := rfl
@[simp] theorem State.modSec_testResults (f : Security → Security) : (s.modSec f).testResults = s.testResults := rfl
@[simp] theorem State.modSec_tiles (f : Security → Security) : (s.modSec f).tiles = s.tiles := rfl
@[simp] theorem State.modSec_clusters (f : Security → Security) : (s.modSec f).clusters = s.clusters := rfl
@[simp] theorem State.modSec_tollQueue (f : Security → Security) : (s.modSec f).tollQueue = s.tollQueue := rfl
@[simp] theorem State.modSec_granary (f : Security → Security) : (s.modSec f).granary = s.granary := rfl
@[simp] theorem State.modSec_hbm (f : Security → Security) : (s.modSec f).hbm = s.hbm := rfl
@[simp] theorem State.modSec_pond (f : Security → Security) : (s.modSec f).pond = s.pond := rfl
@[simp] theorem State.modSec_leats (f : Security → Security) : (s.modSec f).leats = s.leats := rfl
@[simp] theorem State.modSec_mem (f : Security → Security) : (s.modSec f).mem = s.mem := rfl
@[simp] theorem State.modSec_ctxs (f : Security → Security) : (s.modSec f).ctxs = s.ctxs := rfl
@[simp] theorem State.modSec_ctxRegs (f : Security → Security) : (s.modSec f).ctxRegs = s.ctxRegs := rfl
@[simp] theorem State.modSec_pendingFrees (f : Security → Security) : (s.modSec f).pendingFrees = s.pendingFrees := rfl
@[simp] theorem State.modSec_copyJobs (f : Security → Security) : (s.modSec f).copyJobs = s.copyJobs := rfl
@[simp] theorem State.modSec_qps (f : Security → Security) : (s.modSec f).qps = s.qps := rfl
@[simp] theorem State.modSec_ports (f : Security → Security) : (s.modSec f).ports = s.ports := rfl
@[simp] theorem State.modSec_eth (f : Security → Security) : (s.modSec f).eth = s.eth := rfl
@[simp] theorem State.modSec_board (f : Security → Security) : (s.modSec f).board = s.board := rfl
@[simp] theorem State.modSec_mce (f : Security → Security) : (s.modSec f).mce = s.mce := rfl
@[simp] theorem State.modSec_life (f : Security → Security) : (s.modSec f).life = s.life := rfl
@[simp] theorem State.modSec_ras (f : Security → Security) : (s.modSec f).ras = s.ras := rfl
@[simp] theorem State.modSec_pwr (f : Security → Security) : (s.modSec f).pwr = s.pwr := rfl
@[simp] theorem State.modSec_selects (f : Security → Security) : (s.modSec f).selects = s.selects := rfl
@[simp] theorem State.modSec_selFactory (f : Security → Security) : (s.modSec f).selFactory = s.selFactory := rfl
@[simp] theorem State.modSec_selBoard (f : Security → Security) : (s.modSec f).selBoard = s.selBoard := rfl
@[simp] theorem State.modSec_out (f : Security → Security) : (s.modSec f).out = s.out := rfl
@[simp] theorem State.modSec_draws (f : Security → Security) : (s.modSec f).draws = s.draws := rfl
@[simp] theorem State.modSec_part (f : Security → Security) (j : Nat) : (s.modSec f).part j = s.part j := rfl
@[simp] theorem State.modSec_weir (f : Security → Security) (j : Nat) : (s.modSec f).weir j = s.weir j := rfl
@[simp] theorem State.modSec_tile (f : Security → Security) (j : Nat) : (s.modSec f).tile j = s.tile j := rfl
@[simp] theorem State.modSec_cluster (f : Security → Security) (j : Nat) : (s.modSec f).cluster j = s.cluster j := rfl
@[simp] theorem State.modSec_ctx (f : Security → Security) (j : Nat) : (s.modSec f).ctx j = s.ctx j := rfl
@[simp] theorem State.modSec_qp (f : Security → Security) (j : Nat) : (s.modSec f).qp j = s.qp j := rfl
@[simp] theorem State.modSec_port (f : Security → Security) (j : Nat) : (s.modSec f).port j = s.port j := rfl
@[simp] theorem State.modSec_quern (f : Security → Security) (i j : Nat) : (s.modSec f).quern i j = s.quern i j := rfl
@[simp] theorem State.modSec_leat (f : Security → Security) (i j : Nat) : (s.modSec f).leat i j = s.leat i j := rfl
@[simp] theorem State.modSec_now (f : Security → Security) : (s.modSec f).now = s.now := rfl

/-! ### modMce -/

@[simp] theorem State.modMce_pending (f : Mce → Mce) : (s.modMce f).pending = s.pending := rfl
@[simp] theorem State.modMce_mill (f : Mce → Mce) : (s.modMce f).mill = s.mill := rfl
@[simp] theorem State.modMce_parts (f : Mce → Mce) : (s.modMce f).parts = s.parts := rfl
@[simp] theorem State.modMce_stagedFull (f : Mce → Mce) : (s.modMce f).stagedFull = s.stagedFull := rfl
@[simp] theorem State.modMce_device (f : Mce → Mce) : (s.modMce f).device = s.device := rfl
@[simp] theorem State.modMce_stageObj (f : Mce → Mce) : (s.modMce f).stageObj = s.stageObj := rfl
@[simp] theorem State.modMce_stageLen (f : Mce → Mce) : (s.modMce f).stageLen = s.stageLen := rfl
@[simp] theorem State.modMce_partLock (f : Mce → Mce) : (s.modMce f).partLock = s.partLock := rfl
@[simp] theorem State.modMce_weirs (f : Mce → Mce) : (s.modMce f).weirs = s.weirs := rfl
@[simp] theorem State.modMce_querns (f : Mce → Mce) : (s.modMce f).querns = s.querns := rfl
@[simp] theorem State.modMce_resolves (f : Mce → Mce) : (s.modMce f).resolves = s.resolves := rfl
@[simp] theorem State.modMce_tollFails (f : Mce → Mce) : (s.modMce f).tollFails = s.tollFails := rfl
@[simp] theorem State.modMce_testNext (f : Mce → Mce) : (s.modMce f).testNext = s.testNext := rfl
@[simp] theorem State.modMce_testResults (f : Mce → Mce) : (s.modMce f).testResults = s.testResults := rfl
@[simp] theorem State.modMce_tiles (f : Mce → Mce) : (s.modMce f).tiles = s.tiles := rfl
@[simp] theorem State.modMce_clusters (f : Mce → Mce) : (s.modMce f).clusters = s.clusters := rfl
@[simp] theorem State.modMce_tollQueue (f : Mce → Mce) : (s.modMce f).tollQueue = s.tollQueue := rfl
@[simp] theorem State.modMce_granary (f : Mce → Mce) : (s.modMce f).granary = s.granary := rfl
@[simp] theorem State.modMce_hbm (f : Mce → Mce) : (s.modMce f).hbm = s.hbm := rfl
@[simp] theorem State.modMce_pond (f : Mce → Mce) : (s.modMce f).pond = s.pond := rfl
@[simp] theorem State.modMce_leats (f : Mce → Mce) : (s.modMce f).leats = s.leats := rfl
@[simp] theorem State.modMce_mem (f : Mce → Mce) : (s.modMce f).mem = s.mem := rfl
@[simp] theorem State.modMce_ctxs (f : Mce → Mce) : (s.modMce f).ctxs = s.ctxs := rfl
@[simp] theorem State.modMce_ctxRegs (f : Mce → Mce) : (s.modMce f).ctxRegs = s.ctxRegs := rfl
@[simp] theorem State.modMce_pendingFrees (f : Mce → Mce) : (s.modMce f).pendingFrees = s.pendingFrees := rfl
@[simp] theorem State.modMce_copyJobs (f : Mce → Mce) : (s.modMce f).copyJobs = s.copyJobs := rfl
@[simp] theorem State.modMce_qps (f : Mce → Mce) : (s.modMce f).qps = s.qps := rfl
@[simp] theorem State.modMce_ports (f : Mce → Mce) : (s.modMce f).ports = s.ports := rfl
@[simp] theorem State.modMce_eth (f : Mce → Mce) : (s.modMce f).eth = s.eth := rfl
@[simp] theorem State.modMce_sec (f : Mce → Mce) : (s.modMce f).sec = s.sec := rfl
@[simp] theorem State.modMce_board (f : Mce → Mce) : (s.modMce f).board = s.board := rfl
@[simp] theorem State.modMce_life (f : Mce → Mce) : (s.modMce f).life = s.life := rfl
@[simp] theorem State.modMce_ras (f : Mce → Mce) : (s.modMce f).ras = s.ras := rfl
@[simp] theorem State.modMce_pwr (f : Mce → Mce) : (s.modMce f).pwr = s.pwr := rfl
@[simp] theorem State.modMce_selects (f : Mce → Mce) : (s.modMce f).selects = s.selects := rfl
@[simp] theorem State.modMce_selFactory (f : Mce → Mce) : (s.modMce f).selFactory = s.selFactory := rfl
@[simp] theorem State.modMce_selBoard (f : Mce → Mce) : (s.modMce f).selBoard = s.selBoard := rfl
@[simp] theorem State.modMce_out (f : Mce → Mce) : (s.modMce f).out = s.out := rfl
@[simp] theorem State.modMce_draws (f : Mce → Mce) : (s.modMce f).draws = s.draws := rfl
@[simp] theorem State.modMce_part (f : Mce → Mce) (j : Nat) : (s.modMce f).part j = s.part j := rfl
@[simp] theorem State.modMce_weir (f : Mce → Mce) (j : Nat) : (s.modMce f).weir j = s.weir j := rfl
@[simp] theorem State.modMce_tile (f : Mce → Mce) (j : Nat) : (s.modMce f).tile j = s.tile j := rfl
@[simp] theorem State.modMce_cluster (f : Mce → Mce) (j : Nat) : (s.modMce f).cluster j = s.cluster j := rfl
@[simp] theorem State.modMce_ctx (f : Mce → Mce) (j : Nat) : (s.modMce f).ctx j = s.ctx j := rfl
@[simp] theorem State.modMce_qp (f : Mce → Mce) (j : Nat) : (s.modMce f).qp j = s.qp j := rfl
@[simp] theorem State.modMce_port (f : Mce → Mce) (j : Nat) : (s.modMce f).port j = s.port j := rfl
@[simp] theorem State.modMce_quern (f : Mce → Mce) (i j : Nat) : (s.modMce f).quern i j = s.quern i j := rfl
@[simp] theorem State.modMce_leat (f : Mce → Mce) (i j : Nat) : (s.modMce f).leat i j = s.leat i j := rfl
@[simp] theorem State.modMce_now (f : Mce → Mce) : (s.modMce f).now = s.now := rfl

/-! ### modLife -/

@[simp] theorem State.modLife_pending (f : Life → Life) : (s.modLife f).pending = s.pending := rfl
@[simp] theorem State.modLife_mill (f : Life → Life) : (s.modLife f).mill = s.mill := rfl
@[simp] theorem State.modLife_parts (f : Life → Life) : (s.modLife f).parts = s.parts := rfl
@[simp] theorem State.modLife_stagedFull (f : Life → Life) : (s.modLife f).stagedFull = s.stagedFull := rfl
@[simp] theorem State.modLife_device (f : Life → Life) : (s.modLife f).device = s.device := rfl
@[simp] theorem State.modLife_stageObj (f : Life → Life) : (s.modLife f).stageObj = s.stageObj := rfl
@[simp] theorem State.modLife_stageLen (f : Life → Life) : (s.modLife f).stageLen = s.stageLen := rfl
@[simp] theorem State.modLife_partLock (f : Life → Life) : (s.modLife f).partLock = s.partLock := rfl
@[simp] theorem State.modLife_weirs (f : Life → Life) : (s.modLife f).weirs = s.weirs := rfl
@[simp] theorem State.modLife_querns (f : Life → Life) : (s.modLife f).querns = s.querns := rfl
@[simp] theorem State.modLife_resolves (f : Life → Life) : (s.modLife f).resolves = s.resolves := rfl
@[simp] theorem State.modLife_tollFails (f : Life → Life) : (s.modLife f).tollFails = s.tollFails := rfl
@[simp] theorem State.modLife_testNext (f : Life → Life) : (s.modLife f).testNext = s.testNext := rfl
@[simp] theorem State.modLife_testResults (f : Life → Life) : (s.modLife f).testResults = s.testResults := rfl
@[simp] theorem State.modLife_tiles (f : Life → Life) : (s.modLife f).tiles = s.tiles := rfl
@[simp] theorem State.modLife_clusters (f : Life → Life) : (s.modLife f).clusters = s.clusters := rfl
@[simp] theorem State.modLife_tollQueue (f : Life → Life) : (s.modLife f).tollQueue = s.tollQueue := rfl
@[simp] theorem State.modLife_granary (f : Life → Life) : (s.modLife f).granary = s.granary := rfl
@[simp] theorem State.modLife_hbm (f : Life → Life) : (s.modLife f).hbm = s.hbm := rfl
@[simp] theorem State.modLife_pond (f : Life → Life) : (s.modLife f).pond = s.pond := rfl
@[simp] theorem State.modLife_leats (f : Life → Life) : (s.modLife f).leats = s.leats := rfl
@[simp] theorem State.modLife_mem (f : Life → Life) : (s.modLife f).mem = s.mem := rfl
@[simp] theorem State.modLife_ctxs (f : Life → Life) : (s.modLife f).ctxs = s.ctxs := rfl
@[simp] theorem State.modLife_ctxRegs (f : Life → Life) : (s.modLife f).ctxRegs = s.ctxRegs := rfl
@[simp] theorem State.modLife_pendingFrees (f : Life → Life) : (s.modLife f).pendingFrees = s.pendingFrees := rfl
@[simp] theorem State.modLife_copyJobs (f : Life → Life) : (s.modLife f).copyJobs = s.copyJobs := rfl
@[simp] theorem State.modLife_qps (f : Life → Life) : (s.modLife f).qps = s.qps := rfl
@[simp] theorem State.modLife_ports (f : Life → Life) : (s.modLife f).ports = s.ports := rfl
@[simp] theorem State.modLife_eth (f : Life → Life) : (s.modLife f).eth = s.eth := rfl
@[simp] theorem State.modLife_sec (f : Life → Life) : (s.modLife f).sec = s.sec := rfl
@[simp] theorem State.modLife_board (f : Life → Life) : (s.modLife f).board = s.board := rfl
@[simp] theorem State.modLife_mce (f : Life → Life) : (s.modLife f).mce = s.mce := rfl
@[simp] theorem State.modLife_ras (f : Life → Life) : (s.modLife f).ras = s.ras := rfl
@[simp] theorem State.modLife_pwr (f : Life → Life) : (s.modLife f).pwr = s.pwr := rfl
@[simp] theorem State.modLife_selects (f : Life → Life) : (s.modLife f).selects = s.selects := rfl
@[simp] theorem State.modLife_selFactory (f : Life → Life) : (s.modLife f).selFactory = s.selFactory := rfl
@[simp] theorem State.modLife_selBoard (f : Life → Life) : (s.modLife f).selBoard = s.selBoard := rfl
@[simp] theorem State.modLife_out (f : Life → Life) : (s.modLife f).out = s.out := rfl
@[simp] theorem State.modLife_draws (f : Life → Life) : (s.modLife f).draws = s.draws := rfl
@[simp] theorem State.modLife_part (f : Life → Life) (j : Nat) : (s.modLife f).part j = s.part j := rfl
@[simp] theorem State.modLife_weir (f : Life → Life) (j : Nat) : (s.modLife f).weir j = s.weir j := rfl
@[simp] theorem State.modLife_tile (f : Life → Life) (j : Nat) : (s.modLife f).tile j = s.tile j := rfl
@[simp] theorem State.modLife_cluster (f : Life → Life) (j : Nat) : (s.modLife f).cluster j = s.cluster j := rfl
@[simp] theorem State.modLife_ctx (f : Life → Life) (j : Nat) : (s.modLife f).ctx j = s.ctx j := rfl
@[simp] theorem State.modLife_qp (f : Life → Life) (j : Nat) : (s.modLife f).qp j = s.qp j := rfl
@[simp] theorem State.modLife_port (f : Life → Life) (j : Nat) : (s.modLife f).port j = s.port j := rfl
@[simp] theorem State.modLife_quern (f : Life → Life) (i j : Nat) : (s.modLife f).quern i j = s.quern i j := rfl
@[simp] theorem State.modLife_leat (f : Life → Life) (i j : Nat) : (s.modLife f).leat i j = s.leat i j := rfl
@[simp] theorem State.modLife_now (f : Life → Life) : (s.modLife f).now = s.now := rfl

/-! ### modRas -/

@[simp] theorem State.modRas_pending (f : Ras → Ras) : (s.modRas f).pending = s.pending := rfl
@[simp] theorem State.modRas_mill (f : Ras → Ras) : (s.modRas f).mill = s.mill := rfl
@[simp] theorem State.modRas_parts (f : Ras → Ras) : (s.modRas f).parts = s.parts := rfl
@[simp] theorem State.modRas_stagedFull (f : Ras → Ras) : (s.modRas f).stagedFull = s.stagedFull := rfl
@[simp] theorem State.modRas_device (f : Ras → Ras) : (s.modRas f).device = s.device := rfl
@[simp] theorem State.modRas_stageObj (f : Ras → Ras) : (s.modRas f).stageObj = s.stageObj := rfl
@[simp] theorem State.modRas_stageLen (f : Ras → Ras) : (s.modRas f).stageLen = s.stageLen := rfl
@[simp] theorem State.modRas_partLock (f : Ras → Ras) : (s.modRas f).partLock = s.partLock := rfl
@[simp] theorem State.modRas_weirs (f : Ras → Ras) : (s.modRas f).weirs = s.weirs := rfl
@[simp] theorem State.modRas_querns (f : Ras → Ras) : (s.modRas f).querns = s.querns := rfl
@[simp] theorem State.modRas_resolves (f : Ras → Ras) : (s.modRas f).resolves = s.resolves := rfl
@[simp] theorem State.modRas_tollFails (f : Ras → Ras) : (s.modRas f).tollFails = s.tollFails := rfl
@[simp] theorem State.modRas_testNext (f : Ras → Ras) : (s.modRas f).testNext = s.testNext := rfl
@[simp] theorem State.modRas_testResults (f : Ras → Ras) : (s.modRas f).testResults = s.testResults := rfl
@[simp] theorem State.modRas_tiles (f : Ras → Ras) : (s.modRas f).tiles = s.tiles := rfl
@[simp] theorem State.modRas_clusters (f : Ras → Ras) : (s.modRas f).clusters = s.clusters := rfl
@[simp] theorem State.modRas_tollQueue (f : Ras → Ras) : (s.modRas f).tollQueue = s.tollQueue := rfl
@[simp] theorem State.modRas_granary (f : Ras → Ras) : (s.modRas f).granary = s.granary := rfl
@[simp] theorem State.modRas_hbm (f : Ras → Ras) : (s.modRas f).hbm = s.hbm := rfl
@[simp] theorem State.modRas_pond (f : Ras → Ras) : (s.modRas f).pond = s.pond := rfl
@[simp] theorem State.modRas_leats (f : Ras → Ras) : (s.modRas f).leats = s.leats := rfl
@[simp] theorem State.modRas_mem (f : Ras → Ras) : (s.modRas f).mem = s.mem := rfl
@[simp] theorem State.modRas_ctxs (f : Ras → Ras) : (s.modRas f).ctxs = s.ctxs := rfl
@[simp] theorem State.modRas_ctxRegs (f : Ras → Ras) : (s.modRas f).ctxRegs = s.ctxRegs := rfl
@[simp] theorem State.modRas_pendingFrees (f : Ras → Ras) : (s.modRas f).pendingFrees = s.pendingFrees := rfl
@[simp] theorem State.modRas_copyJobs (f : Ras → Ras) : (s.modRas f).copyJobs = s.copyJobs := rfl
@[simp] theorem State.modRas_qps (f : Ras → Ras) : (s.modRas f).qps = s.qps := rfl
@[simp] theorem State.modRas_ports (f : Ras → Ras) : (s.modRas f).ports = s.ports := rfl
@[simp] theorem State.modRas_eth (f : Ras → Ras) : (s.modRas f).eth = s.eth := rfl
@[simp] theorem State.modRas_sec (f : Ras → Ras) : (s.modRas f).sec = s.sec := rfl
@[simp] theorem State.modRas_board (f : Ras → Ras) : (s.modRas f).board = s.board := rfl
@[simp] theorem State.modRas_mce (f : Ras → Ras) : (s.modRas f).mce = s.mce := rfl
@[simp] theorem State.modRas_life (f : Ras → Ras) : (s.modRas f).life = s.life := rfl
@[simp] theorem State.modRas_pwr (f : Ras → Ras) : (s.modRas f).pwr = s.pwr := rfl
@[simp] theorem State.modRas_selects (f : Ras → Ras) : (s.modRas f).selects = s.selects := rfl
@[simp] theorem State.modRas_selFactory (f : Ras → Ras) : (s.modRas f).selFactory = s.selFactory := rfl
@[simp] theorem State.modRas_selBoard (f : Ras → Ras) : (s.modRas f).selBoard = s.selBoard := rfl
@[simp] theorem State.modRas_out (f : Ras → Ras) : (s.modRas f).out = s.out := rfl
@[simp] theorem State.modRas_draws (f : Ras → Ras) : (s.modRas f).draws = s.draws := rfl
@[simp] theorem State.modRas_part (f : Ras → Ras) (j : Nat) : (s.modRas f).part j = s.part j := rfl
@[simp] theorem State.modRas_weir (f : Ras → Ras) (j : Nat) : (s.modRas f).weir j = s.weir j := rfl
@[simp] theorem State.modRas_tile (f : Ras → Ras) (j : Nat) : (s.modRas f).tile j = s.tile j := rfl
@[simp] theorem State.modRas_cluster (f : Ras → Ras) (j : Nat) : (s.modRas f).cluster j = s.cluster j := rfl
@[simp] theorem State.modRas_ctx (f : Ras → Ras) (j : Nat) : (s.modRas f).ctx j = s.ctx j := rfl
@[simp] theorem State.modRas_qp (f : Ras → Ras) (j : Nat) : (s.modRas f).qp j = s.qp j := rfl
@[simp] theorem State.modRas_port (f : Ras → Ras) (j : Nat) : (s.modRas f).port j = s.port j := rfl
@[simp] theorem State.modRas_quern (f : Ras → Ras) (i j : Nat) : (s.modRas f).quern i j = s.quern i j := rfl
@[simp] theorem State.modRas_leat (f : Ras → Ras) (i j : Nat) : (s.modRas f).leat i j = s.leat i j := rfl
@[simp] theorem State.modRas_now (f : Ras → Ras) : (s.modRas f).now = s.now := rfl

/-! ### modPwr -/

@[simp] theorem State.modPwr_pending (f : Power → Power) : (s.modPwr f).pending = s.pending := rfl
@[simp] theorem State.modPwr_mill (f : Power → Power) : (s.modPwr f).mill = s.mill := rfl
@[simp] theorem State.modPwr_parts (f : Power → Power) : (s.modPwr f).parts = s.parts := rfl
@[simp] theorem State.modPwr_stagedFull (f : Power → Power) : (s.modPwr f).stagedFull = s.stagedFull := rfl
@[simp] theorem State.modPwr_device (f : Power → Power) : (s.modPwr f).device = s.device := rfl
@[simp] theorem State.modPwr_stageObj (f : Power → Power) : (s.modPwr f).stageObj = s.stageObj := rfl
@[simp] theorem State.modPwr_stageLen (f : Power → Power) : (s.modPwr f).stageLen = s.stageLen := rfl
@[simp] theorem State.modPwr_partLock (f : Power → Power) : (s.modPwr f).partLock = s.partLock := rfl
@[simp] theorem State.modPwr_weirs (f : Power → Power) : (s.modPwr f).weirs = s.weirs := rfl
@[simp] theorem State.modPwr_querns (f : Power → Power) : (s.modPwr f).querns = s.querns := rfl
@[simp] theorem State.modPwr_resolves (f : Power → Power) : (s.modPwr f).resolves = s.resolves := rfl
@[simp] theorem State.modPwr_tollFails (f : Power → Power) : (s.modPwr f).tollFails = s.tollFails := rfl
@[simp] theorem State.modPwr_testNext (f : Power → Power) : (s.modPwr f).testNext = s.testNext := rfl
@[simp] theorem State.modPwr_testResults (f : Power → Power) : (s.modPwr f).testResults = s.testResults := rfl
@[simp] theorem State.modPwr_tiles (f : Power → Power) : (s.modPwr f).tiles = s.tiles := rfl
@[simp] theorem State.modPwr_clusters (f : Power → Power) : (s.modPwr f).clusters = s.clusters := rfl
@[simp] theorem State.modPwr_tollQueue (f : Power → Power) : (s.modPwr f).tollQueue = s.tollQueue := rfl
@[simp] theorem State.modPwr_granary (f : Power → Power) : (s.modPwr f).granary = s.granary := rfl
@[simp] theorem State.modPwr_hbm (f : Power → Power) : (s.modPwr f).hbm = s.hbm := rfl
@[simp] theorem State.modPwr_pond (f : Power → Power) : (s.modPwr f).pond = s.pond := rfl
@[simp] theorem State.modPwr_leats (f : Power → Power) : (s.modPwr f).leats = s.leats := rfl
@[simp] theorem State.modPwr_mem (f : Power → Power) : (s.modPwr f).mem = s.mem := rfl
@[simp] theorem State.modPwr_ctxs (f : Power → Power) : (s.modPwr f).ctxs = s.ctxs := rfl
@[simp] theorem State.modPwr_ctxRegs (f : Power → Power) : (s.modPwr f).ctxRegs = s.ctxRegs := rfl
@[simp] theorem State.modPwr_pendingFrees (f : Power → Power) : (s.modPwr f).pendingFrees = s.pendingFrees := rfl
@[simp] theorem State.modPwr_copyJobs (f : Power → Power) : (s.modPwr f).copyJobs = s.copyJobs := rfl
@[simp] theorem State.modPwr_qps (f : Power → Power) : (s.modPwr f).qps = s.qps := rfl
@[simp] theorem State.modPwr_ports (f : Power → Power) : (s.modPwr f).ports = s.ports := rfl
@[simp] theorem State.modPwr_eth (f : Power → Power) : (s.modPwr f).eth = s.eth := rfl
@[simp] theorem State.modPwr_sec (f : Power → Power) : (s.modPwr f).sec = s.sec := rfl
@[simp] theorem State.modPwr_board (f : Power → Power) : (s.modPwr f).board = s.board := rfl
@[simp] theorem State.modPwr_mce (f : Power → Power) : (s.modPwr f).mce = s.mce := rfl
@[simp] theorem State.modPwr_life (f : Power → Power) : (s.modPwr f).life = s.life := rfl
@[simp] theorem State.modPwr_ras (f : Power → Power) : (s.modPwr f).ras = s.ras := rfl
@[simp] theorem State.modPwr_selects (f : Power → Power) : (s.modPwr f).selects = s.selects := rfl
@[simp] theorem State.modPwr_selFactory (f : Power → Power) : (s.modPwr f).selFactory = s.selFactory := rfl
@[simp] theorem State.modPwr_selBoard (f : Power → Power) : (s.modPwr f).selBoard = s.selBoard := rfl
@[simp] theorem State.modPwr_out (f : Power → Power) : (s.modPwr f).out = s.out := rfl
@[simp] theorem State.modPwr_draws (f : Power → Power) : (s.modPwr f).draws = s.draws := rfl
@[simp] theorem State.modPwr_part (f : Power → Power) (j : Nat) : (s.modPwr f).part j = s.part j := rfl
@[simp] theorem State.modPwr_weir (f : Power → Power) (j : Nat) : (s.modPwr f).weir j = s.weir j := rfl
@[simp] theorem State.modPwr_tile (f : Power → Power) (j : Nat) : (s.modPwr f).tile j = s.tile j := rfl
@[simp] theorem State.modPwr_cluster (f : Power → Power) (j : Nat) : (s.modPwr f).cluster j = s.cluster j := rfl
@[simp] theorem State.modPwr_ctx (f : Power → Power) (j : Nat) : (s.modPwr f).ctx j = s.ctx j := rfl
@[simp] theorem State.modPwr_qp (f : Power → Power) (j : Nat) : (s.modPwr f).qp j = s.qp j := rfl
@[simp] theorem State.modPwr_port (f : Power → Power) (j : Nat) : (s.modPwr f).port j = s.port j := rfl
@[simp] theorem State.modPwr_quern (f : Power → Power) (i j : Nat) : (s.modPwr f).quern i j = s.quern i j := rfl
@[simp] theorem State.modPwr_leat (f : Power → Power) (i j : Nat) : (s.modPwr f).leat i j = s.leat i j := rfl
@[simp] theorem State.modPwr_now (f : Power → Power) : (s.modPwr f).now = s.now := rfl

/-! ### modBoard -/

@[simp] theorem State.modBoard_pending (f : Board → Board) : (s.modBoard f).pending = s.pending := rfl
@[simp] theorem State.modBoard_mill (f : Board → Board) : (s.modBoard f).mill = s.mill := rfl
@[simp] theorem State.modBoard_parts (f : Board → Board) : (s.modBoard f).parts = s.parts := rfl
@[simp] theorem State.modBoard_stagedFull (f : Board → Board) : (s.modBoard f).stagedFull = s.stagedFull := rfl
@[simp] theorem State.modBoard_device (f : Board → Board) : (s.modBoard f).device = s.device := rfl
@[simp] theorem State.modBoard_stageObj (f : Board → Board) : (s.modBoard f).stageObj = s.stageObj := rfl
@[simp] theorem State.modBoard_stageLen (f : Board → Board) : (s.modBoard f).stageLen = s.stageLen := rfl
@[simp] theorem State.modBoard_partLock (f : Board → Board) : (s.modBoard f).partLock = s.partLock := rfl
@[simp] theorem State.modBoard_weirs (f : Board → Board) : (s.modBoard f).weirs = s.weirs := rfl
@[simp] theorem State.modBoard_querns (f : Board → Board) : (s.modBoard f).querns = s.querns := rfl
@[simp] theorem State.modBoard_resolves (f : Board → Board) : (s.modBoard f).resolves = s.resolves := rfl
@[simp] theorem State.modBoard_tollFails (f : Board → Board) : (s.modBoard f).tollFails = s.tollFails := rfl
@[simp] theorem State.modBoard_testNext (f : Board → Board) : (s.modBoard f).testNext = s.testNext := rfl
@[simp] theorem State.modBoard_testResults (f : Board → Board) : (s.modBoard f).testResults = s.testResults := rfl
@[simp] theorem State.modBoard_tiles (f : Board → Board) : (s.modBoard f).tiles = s.tiles := rfl
@[simp] theorem State.modBoard_clusters (f : Board → Board) : (s.modBoard f).clusters = s.clusters := rfl
@[simp] theorem State.modBoard_tollQueue (f : Board → Board) : (s.modBoard f).tollQueue = s.tollQueue := rfl
@[simp] theorem State.modBoard_granary (f : Board → Board) : (s.modBoard f).granary = s.granary := rfl
@[simp] theorem State.modBoard_hbm (f : Board → Board) : (s.modBoard f).hbm = s.hbm := rfl
@[simp] theorem State.modBoard_pond (f : Board → Board) : (s.modBoard f).pond = s.pond := rfl
@[simp] theorem State.modBoard_leats (f : Board → Board) : (s.modBoard f).leats = s.leats := rfl
@[simp] theorem State.modBoard_mem (f : Board → Board) : (s.modBoard f).mem = s.mem := rfl
@[simp] theorem State.modBoard_ctxs (f : Board → Board) : (s.modBoard f).ctxs = s.ctxs := rfl
@[simp] theorem State.modBoard_ctxRegs (f : Board → Board) : (s.modBoard f).ctxRegs = s.ctxRegs := rfl
@[simp] theorem State.modBoard_pendingFrees (f : Board → Board) : (s.modBoard f).pendingFrees = s.pendingFrees := rfl
@[simp] theorem State.modBoard_copyJobs (f : Board → Board) : (s.modBoard f).copyJobs = s.copyJobs := rfl
@[simp] theorem State.modBoard_qps (f : Board → Board) : (s.modBoard f).qps = s.qps := rfl
@[simp] theorem State.modBoard_ports (f : Board → Board) : (s.modBoard f).ports = s.ports := rfl
@[simp] theorem State.modBoard_eth (f : Board → Board) : (s.modBoard f).eth = s.eth := rfl
@[simp] theorem State.modBoard_sec (f : Board → Board) : (s.modBoard f).sec = s.sec := rfl
@[simp] theorem State.modBoard_mce (f : Board → Board) : (s.modBoard f).mce = s.mce := rfl
@[simp] theorem State.modBoard_life (f : Board → Board) : (s.modBoard f).life = s.life := rfl
@[simp] theorem State.modBoard_ras (f : Board → Board) : (s.modBoard f).ras = s.ras := rfl
@[simp] theorem State.modBoard_pwr (f : Board → Board) : (s.modBoard f).pwr = s.pwr := rfl
@[simp] theorem State.modBoard_selects (f : Board → Board) : (s.modBoard f).selects = s.selects := rfl
@[simp] theorem State.modBoard_selFactory (f : Board → Board) : (s.modBoard f).selFactory = s.selFactory := rfl
@[simp] theorem State.modBoard_selBoard (f : Board → Board) : (s.modBoard f).selBoard = s.selBoard := rfl
@[simp] theorem State.modBoard_out (f : Board → Board) : (s.modBoard f).out = s.out := rfl
@[simp] theorem State.modBoard_draws (f : Board → Board) : (s.modBoard f).draws = s.draws := rfl
@[simp] theorem State.modBoard_part (f : Board → Board) (j : Nat) : (s.modBoard f).part j = s.part j := rfl
@[simp] theorem State.modBoard_weir (f : Board → Board) (j : Nat) : (s.modBoard f).weir j = s.weir j := rfl
@[simp] theorem State.modBoard_tile (f : Board → Board) (j : Nat) : (s.modBoard f).tile j = s.tile j := rfl
@[simp] theorem State.modBoard_cluster (f : Board → Board) (j : Nat) : (s.modBoard f).cluster j = s.cluster j := rfl
@[simp] theorem State.modBoard_ctx (f : Board → Board) (j : Nat) : (s.modBoard f).ctx j = s.ctx j := rfl
@[simp] theorem State.modBoard_qp (f : Board → Board) (j : Nat) : (s.modBoard f).qp j = s.qp j := rfl
@[simp] theorem State.modBoard_port (f : Board → Board) (j : Nat) : (s.modBoard f).port j = s.port j := rfl
@[simp] theorem State.modBoard_quern (f : Board → Board) (i j : Nat) : (s.modBoard f).quern i j = s.quern i j := rfl
@[simp] theorem State.modBoard_leat (f : Board → Board) (i j : Nat) : (s.modBoard f).leat i j = s.leat i j := rfl
@[simp] theorem State.modBoard_now (f : Board → Board) : (s.modBoard f).now = s.now := rfl

/-! ### modMill -/

@[simp] theorem State.modMill_pending (f : Mill → Mill) : (s.modMill f).pending = s.pending := rfl
@[simp] theorem State.modMill_parts (f : Mill → Mill) : (s.modMill f).parts = s.parts := rfl
@[simp] theorem State.modMill_stagedFull (f : Mill → Mill) : (s.modMill f).stagedFull = s.stagedFull := rfl
@[simp] theorem State.modMill_device (f : Mill → Mill) : (s.modMill f).device = s.device := rfl
@[simp] theorem State.modMill_stageObj (f : Mill → Mill) : (s.modMill f).stageObj = s.stageObj := rfl
@[simp] theorem State.modMill_stageLen (f : Mill → Mill) : (s.modMill f).stageLen = s.stageLen := rfl
@[simp] theorem State.modMill_partLock (f : Mill → Mill) : (s.modMill f).partLock = s.partLock := rfl
@[simp] theorem State.modMill_weirs (f : Mill → Mill) : (s.modMill f).weirs = s.weirs := rfl
@[simp] theorem State.modMill_querns (f : Mill → Mill) : (s.modMill f).querns = s.querns := rfl
@[simp] theorem State.modMill_resolves (f : Mill → Mill) : (s.modMill f).resolves = s.resolves := rfl
@[simp] theorem State.modMill_tollFails (f : Mill → Mill) : (s.modMill f).tollFails = s.tollFails := rfl
@[simp] theorem State.modMill_testNext (f : Mill → Mill) : (s.modMill f).testNext = s.testNext := rfl
@[simp] theorem State.modMill_testResults (f : Mill → Mill) : (s.modMill f).testResults = s.testResults := rfl
@[simp] theorem State.modMill_tiles (f : Mill → Mill) : (s.modMill f).tiles = s.tiles := rfl
@[simp] theorem State.modMill_clusters (f : Mill → Mill) : (s.modMill f).clusters = s.clusters := rfl
@[simp] theorem State.modMill_tollQueue (f : Mill → Mill) : (s.modMill f).tollQueue = s.tollQueue := rfl
@[simp] theorem State.modMill_granary (f : Mill → Mill) : (s.modMill f).granary = s.granary := rfl
@[simp] theorem State.modMill_hbm (f : Mill → Mill) : (s.modMill f).hbm = s.hbm := rfl
@[simp] theorem State.modMill_pond (f : Mill → Mill) : (s.modMill f).pond = s.pond := rfl
@[simp] theorem State.modMill_leats (f : Mill → Mill) : (s.modMill f).leats = s.leats := rfl
@[simp] theorem State.modMill_mem (f : Mill → Mill) : (s.modMill f).mem = s.mem := rfl
@[simp] theorem State.modMill_ctxs (f : Mill → Mill) : (s.modMill f).ctxs = s.ctxs := rfl
@[simp] theorem State.modMill_ctxRegs (f : Mill → Mill) : (s.modMill f).ctxRegs = s.ctxRegs := rfl
@[simp] theorem State.modMill_pendingFrees (f : Mill → Mill) : (s.modMill f).pendingFrees = s.pendingFrees := rfl
@[simp] theorem State.modMill_copyJobs (f : Mill → Mill) : (s.modMill f).copyJobs = s.copyJobs := rfl
@[simp] theorem State.modMill_qps (f : Mill → Mill) : (s.modMill f).qps = s.qps := rfl
@[simp] theorem State.modMill_ports (f : Mill → Mill) : (s.modMill f).ports = s.ports := rfl
@[simp] theorem State.modMill_eth (f : Mill → Mill) : (s.modMill f).eth = s.eth := rfl
@[simp] theorem State.modMill_sec (f : Mill → Mill) : (s.modMill f).sec = s.sec := rfl
@[simp] theorem State.modMill_board (f : Mill → Mill) : (s.modMill f).board = s.board := rfl
@[simp] theorem State.modMill_mce (f : Mill → Mill) : (s.modMill f).mce = s.mce := rfl
@[simp] theorem State.modMill_life (f : Mill → Mill) : (s.modMill f).life = s.life := rfl
@[simp] theorem State.modMill_ras (f : Mill → Mill) : (s.modMill f).ras = s.ras := rfl
@[simp] theorem State.modMill_pwr (f : Mill → Mill) : (s.modMill f).pwr = s.pwr := rfl
@[simp] theorem State.modMill_selects (f : Mill → Mill) : (s.modMill f).selects = s.selects := rfl
@[simp] theorem State.modMill_selFactory (f : Mill → Mill) : (s.modMill f).selFactory = s.selFactory := rfl
@[simp] theorem State.modMill_selBoard (f : Mill → Mill) : (s.modMill f).selBoard = s.selBoard := rfl
@[simp] theorem State.modMill_out (f : Mill → Mill) : (s.modMill f).out = s.out := rfl
@[simp] theorem State.modMill_draws (f : Mill → Mill) : (s.modMill f).draws = s.draws := rfl
@[simp] theorem State.modMill_part (f : Mill → Mill) (j : Nat) : (s.modMill f).part j = s.part j := rfl
@[simp] theorem State.modMill_weir (f : Mill → Mill) (j : Nat) : (s.modMill f).weir j = s.weir j := rfl
@[simp] theorem State.modMill_tile (f : Mill → Mill) (j : Nat) : (s.modMill f).tile j = s.tile j := rfl
@[simp] theorem State.modMill_cluster (f : Mill → Mill) (j : Nat) : (s.modMill f).cluster j = s.cluster j := rfl
@[simp] theorem State.modMill_ctx (f : Mill → Mill) (j : Nat) : (s.modMill f).ctx j = s.ctx j := rfl
@[simp] theorem State.modMill_qp (f : Mill → Mill) (j : Nat) : (s.modMill f).qp j = s.qp j := rfl
@[simp] theorem State.modMill_port (f : Mill → Mill) (j : Nat) : (s.modMill f).port j = s.port j := rfl
@[simp] theorem State.modMill_quern (f : Mill → Mill) (i j : Nat) : (s.modMill f).quern i j = s.quern i j := rfl
@[simp] theorem State.modMill_leat (f : Mill → Mill) (i j : Nat) : (s.modMill f).leat i j = s.leat i j := rfl

/-! ### modEth -/

@[simp] theorem State.modEth_pending (f : EthRegs → EthRegs) : (s.modEth f).pending = s.pending := rfl
@[simp] theorem State.modEth_mill (f : EthRegs → EthRegs) : (s.modEth f).mill = s.mill := rfl
@[simp] theorem State.modEth_parts (f : EthRegs → EthRegs) : (s.modEth f).parts = s.parts := rfl
@[simp] theorem State.modEth_stagedFull (f : EthRegs → EthRegs) : (s.modEth f).stagedFull = s.stagedFull := rfl
@[simp] theorem State.modEth_device (f : EthRegs → EthRegs) : (s.modEth f).device = s.device := rfl
@[simp] theorem State.modEth_stageObj (f : EthRegs → EthRegs) : (s.modEth f).stageObj = s.stageObj := rfl
@[simp] theorem State.modEth_stageLen (f : EthRegs → EthRegs) : (s.modEth f).stageLen = s.stageLen := rfl
@[simp] theorem State.modEth_partLock (f : EthRegs → EthRegs) : (s.modEth f).partLock = s.partLock := rfl
@[simp] theorem State.modEth_weirs (f : EthRegs → EthRegs) : (s.modEth f).weirs = s.weirs := rfl
@[simp] theorem State.modEth_querns (f : EthRegs → EthRegs) : (s.modEth f).querns = s.querns := rfl
@[simp] theorem State.modEth_resolves (f : EthRegs → EthRegs) : (s.modEth f).resolves = s.resolves := rfl
@[simp] theorem State.modEth_tollFails (f : EthRegs → EthRegs) : (s.modEth f).tollFails = s.tollFails := rfl
@[simp] theorem State.modEth_testNext (f : EthRegs → EthRegs) : (s.modEth f).testNext = s.testNext := rfl
@[simp] theorem State.modEth_testResults (f : EthRegs → EthRegs) : (s.modEth f).testResults = s.testResults := rfl
@[simp] theorem State.modEth_tiles (f : EthRegs → EthRegs) : (s.modEth f).tiles = s.tiles := rfl
@[simp] theorem State.modEth_clusters (f : EthRegs → EthRegs) : (s.modEth f).clusters = s.clusters := rfl
@[simp] theorem State.modEth_tollQueue (f : EthRegs → EthRegs) : (s.modEth f).tollQueue = s.tollQueue := rfl
@[simp] theorem State.modEth_granary (f : EthRegs → EthRegs) : (s.modEth f).granary = s.granary := rfl
@[simp] theorem State.modEth_hbm (f : EthRegs → EthRegs) : (s.modEth f).hbm = s.hbm := rfl
@[simp] theorem State.modEth_pond (f : EthRegs → EthRegs) : (s.modEth f).pond = s.pond := rfl
@[simp] theorem State.modEth_leats (f : EthRegs → EthRegs) : (s.modEth f).leats = s.leats := rfl
@[simp] theorem State.modEth_mem (f : EthRegs → EthRegs) : (s.modEth f).mem = s.mem := rfl
@[simp] theorem State.modEth_ctxs (f : EthRegs → EthRegs) : (s.modEth f).ctxs = s.ctxs := rfl
@[simp] theorem State.modEth_ctxRegs (f : EthRegs → EthRegs) : (s.modEth f).ctxRegs = s.ctxRegs := rfl
@[simp] theorem State.modEth_pendingFrees (f : EthRegs → EthRegs) : (s.modEth f).pendingFrees = s.pendingFrees := rfl
@[simp] theorem State.modEth_copyJobs (f : EthRegs → EthRegs) : (s.modEth f).copyJobs = s.copyJobs := rfl
@[simp] theorem State.modEth_qps (f : EthRegs → EthRegs) : (s.modEth f).qps = s.qps := rfl
@[simp] theorem State.modEth_ports (f : EthRegs → EthRegs) : (s.modEth f).ports = s.ports := rfl
@[simp] theorem State.modEth_sec (f : EthRegs → EthRegs) : (s.modEth f).sec = s.sec := rfl
@[simp] theorem State.modEth_board (f : EthRegs → EthRegs) : (s.modEth f).board = s.board := rfl
@[simp] theorem State.modEth_mce (f : EthRegs → EthRegs) : (s.modEth f).mce = s.mce := rfl
@[simp] theorem State.modEth_life (f : EthRegs → EthRegs) : (s.modEth f).life = s.life := rfl
@[simp] theorem State.modEth_ras (f : EthRegs → EthRegs) : (s.modEth f).ras = s.ras := rfl
@[simp] theorem State.modEth_pwr (f : EthRegs → EthRegs) : (s.modEth f).pwr = s.pwr := rfl
@[simp] theorem State.modEth_selects (f : EthRegs → EthRegs) : (s.modEth f).selects = s.selects := rfl
@[simp] theorem State.modEth_selFactory (f : EthRegs → EthRegs) : (s.modEth f).selFactory = s.selFactory := rfl
@[simp] theorem State.modEth_selBoard (f : EthRegs → EthRegs) : (s.modEth f).selBoard = s.selBoard := rfl
@[simp] theorem State.modEth_out (f : EthRegs → EthRegs) : (s.modEth f).out = s.out := rfl
@[simp] theorem State.modEth_draws (f : EthRegs → EthRegs) : (s.modEth f).draws = s.draws := rfl
@[simp] theorem State.modEth_part (f : EthRegs → EthRegs) (j : Nat) : (s.modEth f).part j = s.part j := rfl
@[simp] theorem State.modEth_weir (f : EthRegs → EthRegs) (j : Nat) : (s.modEth f).weir j = s.weir j := rfl
@[simp] theorem State.modEth_tile (f : EthRegs → EthRegs) (j : Nat) : (s.modEth f).tile j = s.tile j := rfl
@[simp] theorem State.modEth_cluster (f : EthRegs → EthRegs) (j : Nat) : (s.modEth f).cluster j = s.cluster j := rfl
@[simp] theorem State.modEth_ctx (f : EthRegs → EthRegs) (j : Nat) : (s.modEth f).ctx j = s.ctx j := rfl
@[simp] theorem State.modEth_qp (f : EthRegs → EthRegs) (j : Nat) : (s.modEth f).qp j = s.qp j := rfl
@[simp] theorem State.modEth_port (f : EthRegs → EthRegs) (j : Nat) : (s.modEth f).port j = s.port j := rfl
@[simp] theorem State.modEth_quern (f : EthRegs → EthRegs) (i j : Nat) : (s.modEth f).quern i j = s.quern i j := rfl
@[simp] theorem State.modEth_leat (f : EthRegs → EthRegs) (i j : Nat) : (s.modEth f).leat i j = s.leat i j := rfl
@[simp] theorem State.modEth_now (f : EthRegs → EthRegs) : (s.modEth f).now = s.now := rfl

/-! ### modMem -/

@[simp] theorem State.modMem_pending (f : MemRegs → MemRegs) : (s.modMem f).pending = s.pending := rfl
@[simp] theorem State.modMem_mill (f : MemRegs → MemRegs) : (s.modMem f).mill = s.mill := rfl
@[simp] theorem State.modMem_parts (f : MemRegs → MemRegs) : (s.modMem f).parts = s.parts := rfl
@[simp] theorem State.modMem_stagedFull (f : MemRegs → MemRegs) : (s.modMem f).stagedFull = s.stagedFull := rfl
@[simp] theorem State.modMem_device (f : MemRegs → MemRegs) : (s.modMem f).device = s.device := rfl
@[simp] theorem State.modMem_stageObj (f : MemRegs → MemRegs) : (s.modMem f).stageObj = s.stageObj := rfl
@[simp] theorem State.modMem_stageLen (f : MemRegs → MemRegs) : (s.modMem f).stageLen = s.stageLen := rfl
@[simp] theorem State.modMem_partLock (f : MemRegs → MemRegs) : (s.modMem f).partLock = s.partLock := rfl
@[simp] theorem State.modMem_weirs (f : MemRegs → MemRegs) : (s.modMem f).weirs = s.weirs := rfl
@[simp] theorem State.modMem_querns (f : MemRegs → MemRegs) : (s.modMem f).querns = s.querns := rfl
@[simp] theorem State.modMem_resolves (f : MemRegs → MemRegs) : (s.modMem f).resolves = s.resolves := rfl
@[simp] theorem State.modMem_tollFails (f : MemRegs → MemRegs) : (s.modMem f).tollFails = s.tollFails := rfl
@[simp] theorem State.modMem_testNext (f : MemRegs → MemRegs) : (s.modMem f).testNext = s.testNext := rfl
@[simp] theorem State.modMem_testResults (f : MemRegs → MemRegs) : (s.modMem f).testResults = s.testResults := rfl
@[simp] theorem State.modMem_tiles (f : MemRegs → MemRegs) : (s.modMem f).tiles = s.tiles := rfl
@[simp] theorem State.modMem_clusters (f : MemRegs → MemRegs) : (s.modMem f).clusters = s.clusters := rfl
@[simp] theorem State.modMem_tollQueue (f : MemRegs → MemRegs) : (s.modMem f).tollQueue = s.tollQueue := rfl
@[simp] theorem State.modMem_granary (f : MemRegs → MemRegs) : (s.modMem f).granary = s.granary := rfl
@[simp] theorem State.modMem_hbm (f : MemRegs → MemRegs) : (s.modMem f).hbm = s.hbm := rfl
@[simp] theorem State.modMem_pond (f : MemRegs → MemRegs) : (s.modMem f).pond = s.pond := rfl
@[simp] theorem State.modMem_leats (f : MemRegs → MemRegs) : (s.modMem f).leats = s.leats := rfl
@[simp] theorem State.modMem_ctxs (f : MemRegs → MemRegs) : (s.modMem f).ctxs = s.ctxs := rfl
@[simp] theorem State.modMem_ctxRegs (f : MemRegs → MemRegs) : (s.modMem f).ctxRegs = s.ctxRegs := rfl
@[simp] theorem State.modMem_pendingFrees (f : MemRegs → MemRegs) : (s.modMem f).pendingFrees = s.pendingFrees := rfl
@[simp] theorem State.modMem_copyJobs (f : MemRegs → MemRegs) : (s.modMem f).copyJobs = s.copyJobs := rfl
@[simp] theorem State.modMem_qps (f : MemRegs → MemRegs) : (s.modMem f).qps = s.qps := rfl
@[simp] theorem State.modMem_ports (f : MemRegs → MemRegs) : (s.modMem f).ports = s.ports := rfl
@[simp] theorem State.modMem_eth (f : MemRegs → MemRegs) : (s.modMem f).eth = s.eth := rfl
@[simp] theorem State.modMem_sec (f : MemRegs → MemRegs) : (s.modMem f).sec = s.sec := rfl
@[simp] theorem State.modMem_board (f : MemRegs → MemRegs) : (s.modMem f).board = s.board := rfl
@[simp] theorem State.modMem_mce (f : MemRegs → MemRegs) : (s.modMem f).mce = s.mce := rfl
@[simp] theorem State.modMem_life (f : MemRegs → MemRegs) : (s.modMem f).life = s.life := rfl
@[simp] theorem State.modMem_ras (f : MemRegs → MemRegs) : (s.modMem f).ras = s.ras := rfl
@[simp] theorem State.modMem_pwr (f : MemRegs → MemRegs) : (s.modMem f).pwr = s.pwr := rfl
@[simp] theorem State.modMem_selects (f : MemRegs → MemRegs) : (s.modMem f).selects = s.selects := rfl
@[simp] theorem State.modMem_selFactory (f : MemRegs → MemRegs) : (s.modMem f).selFactory = s.selFactory := rfl
@[simp] theorem State.modMem_selBoard (f : MemRegs → MemRegs) : (s.modMem f).selBoard = s.selBoard := rfl
@[simp] theorem State.modMem_out (f : MemRegs → MemRegs) : (s.modMem f).out = s.out := rfl
@[simp] theorem State.modMem_draws (f : MemRegs → MemRegs) : (s.modMem f).draws = s.draws := rfl
@[simp] theorem State.modMem_part (f : MemRegs → MemRegs) (j : Nat) : (s.modMem f).part j = s.part j := rfl
@[simp] theorem State.modMem_weir (f : MemRegs → MemRegs) (j : Nat) : (s.modMem f).weir j = s.weir j := rfl
@[simp] theorem State.modMem_tile (f : MemRegs → MemRegs) (j : Nat) : (s.modMem f).tile j = s.tile j := rfl
@[simp] theorem State.modMem_cluster (f : MemRegs → MemRegs) (j : Nat) : (s.modMem f).cluster j = s.cluster j := rfl
@[simp] theorem State.modMem_ctx (f : MemRegs → MemRegs) (j : Nat) : (s.modMem f).ctx j = s.ctx j := rfl
@[simp] theorem State.modMem_qp (f : MemRegs → MemRegs) (j : Nat) : (s.modMem f).qp j = s.qp j := rfl
@[simp] theorem State.modMem_port (f : MemRegs → MemRegs) (j : Nat) : (s.modMem f).port j = s.port j := rfl
@[simp] theorem State.modMem_quern (f : MemRegs → MemRegs) (i j : Nat) : (s.modMem f).quern i j = s.quern i j := rfl
@[simp] theorem State.modMem_leat (f : MemRegs → MemRegs) (i j : Nat) : (s.modMem f).leat i j = s.leat i j := rfl
@[simp] theorem State.modMem_now (f : MemRegs → MemRegs) : (s.modMem f).now = s.now := rfl

/-! ### send -/

@[simp] theorem State.send_pending (m : OutMsg) : (s.send m).pending = s.pending := rfl
@[simp] theorem State.send_mill (m : OutMsg) : (s.send m).mill = s.mill := rfl
@[simp] theorem State.send_parts (m : OutMsg) : (s.send m).parts = s.parts := rfl
@[simp] theorem State.send_stagedFull (m : OutMsg) : (s.send m).stagedFull = s.stagedFull := rfl
@[simp] theorem State.send_device (m : OutMsg) : (s.send m).device = s.device := rfl
@[simp] theorem State.send_stageObj (m : OutMsg) : (s.send m).stageObj = s.stageObj := rfl
@[simp] theorem State.send_stageLen (m : OutMsg) : (s.send m).stageLen = s.stageLen := rfl
@[simp] theorem State.send_partLock (m : OutMsg) : (s.send m).partLock = s.partLock := rfl
@[simp] theorem State.send_weirs (m : OutMsg) : (s.send m).weirs = s.weirs := rfl
@[simp] theorem State.send_querns (m : OutMsg) : (s.send m).querns = s.querns := rfl
@[simp] theorem State.send_resolves (m : OutMsg) : (s.send m).resolves = s.resolves := rfl
@[simp] theorem State.send_tollFails (m : OutMsg) : (s.send m).tollFails = s.tollFails := rfl
@[simp] theorem State.send_testNext (m : OutMsg) : (s.send m).testNext = s.testNext := rfl
@[simp] theorem State.send_testResults (m : OutMsg) : (s.send m).testResults = s.testResults := rfl
@[simp] theorem State.send_tiles (m : OutMsg) : (s.send m).tiles = s.tiles := rfl
@[simp] theorem State.send_clusters (m : OutMsg) : (s.send m).clusters = s.clusters := rfl
@[simp] theorem State.send_tollQueue (m : OutMsg) : (s.send m).tollQueue = s.tollQueue := rfl
@[simp] theorem State.send_granary (m : OutMsg) : (s.send m).granary = s.granary := rfl
@[simp] theorem State.send_hbm (m : OutMsg) : (s.send m).hbm = s.hbm := rfl
@[simp] theorem State.send_pond (m : OutMsg) : (s.send m).pond = s.pond := rfl
@[simp] theorem State.send_leats (m : OutMsg) : (s.send m).leats = s.leats := rfl
@[simp] theorem State.send_mem (m : OutMsg) : (s.send m).mem = s.mem := rfl
@[simp] theorem State.send_ctxs (m : OutMsg) : (s.send m).ctxs = s.ctxs := rfl
@[simp] theorem State.send_ctxRegs (m : OutMsg) : (s.send m).ctxRegs = s.ctxRegs := rfl
@[simp] theorem State.send_pendingFrees (m : OutMsg) : (s.send m).pendingFrees = s.pendingFrees := rfl
@[simp] theorem State.send_copyJobs (m : OutMsg) : (s.send m).copyJobs = s.copyJobs := rfl
@[simp] theorem State.send_qps (m : OutMsg) : (s.send m).qps = s.qps := rfl
@[simp] theorem State.send_ports (m : OutMsg) : (s.send m).ports = s.ports := rfl
@[simp] theorem State.send_eth (m : OutMsg) : (s.send m).eth = s.eth := rfl
@[simp] theorem State.send_sec (m : OutMsg) : (s.send m).sec = s.sec := rfl
@[simp] theorem State.send_board (m : OutMsg) : (s.send m).board = s.board := rfl
@[simp] theorem State.send_mce (m : OutMsg) : (s.send m).mce = s.mce := rfl
@[simp] theorem State.send_life (m : OutMsg) : (s.send m).life = s.life := rfl
@[simp] theorem State.send_ras (m : OutMsg) : (s.send m).ras = s.ras := rfl
@[simp] theorem State.send_pwr (m : OutMsg) : (s.send m).pwr = s.pwr := rfl
@[simp] theorem State.send_selects (m : OutMsg) : (s.send m).selects = s.selects := rfl
@[simp] theorem State.send_selFactory (m : OutMsg) : (s.send m).selFactory = s.selFactory := rfl
@[simp] theorem State.send_selBoard (m : OutMsg) : (s.send m).selBoard = s.selBoard := rfl
@[simp] theorem State.send_draws (m : OutMsg) : (s.send m).draws = s.draws := rfl
@[simp] theorem State.send_part (m : OutMsg) (j : Nat) : (s.send m).part j = s.part j := rfl
@[simp] theorem State.send_weir (m : OutMsg) (j : Nat) : (s.send m).weir j = s.weir j := rfl
@[simp] theorem State.send_tile (m : OutMsg) (j : Nat) : (s.send m).tile j = s.tile j := rfl
@[simp] theorem State.send_cluster (m : OutMsg) (j : Nat) : (s.send m).cluster j = s.cluster j := rfl
@[simp] theorem State.send_ctx (m : OutMsg) (j : Nat) : (s.send m).ctx j = s.ctx j := rfl
@[simp] theorem State.send_qp (m : OutMsg) (j : Nat) : (s.send m).qp j = s.qp j := rfl
@[simp] theorem State.send_port (m : OutMsg) (j : Nat) : (s.send m).port j = s.port j := rfl
@[simp] theorem State.send_quern (m : OutMsg) (i j : Nat) : (s.send m).quern i j = s.quern i j := rfl
@[simp] theorem State.send_leat (m : OutMsg) (i j : Nat) : (s.send m).leat i j = s.leat i j := rfl
@[simp] theorem State.send_now (m : OutMsg) : (s.send m).now = s.now := rfl

/-! ### draw -/

@[simp] theorem State.draw_pending : (s.draw).pending = s.pending := rfl
@[simp] theorem State.draw_mill : (s.draw).mill = s.mill := rfl
@[simp] theorem State.draw_parts : (s.draw).parts = s.parts := rfl
@[simp] theorem State.draw_stagedFull : (s.draw).stagedFull = s.stagedFull := rfl
@[simp] theorem State.draw_device : (s.draw).device = s.device := rfl
@[simp] theorem State.draw_stageObj : (s.draw).stageObj = s.stageObj := rfl
@[simp] theorem State.draw_stageLen : (s.draw).stageLen = s.stageLen := rfl
@[simp] theorem State.draw_partLock : (s.draw).partLock = s.partLock := rfl
@[simp] theorem State.draw_weirs : (s.draw).weirs = s.weirs := rfl
@[simp] theorem State.draw_querns : (s.draw).querns = s.querns := rfl
@[simp] theorem State.draw_resolves : (s.draw).resolves = s.resolves := rfl
@[simp] theorem State.draw_tollFails : (s.draw).tollFails = s.tollFails := rfl
@[simp] theorem State.draw_testNext : (s.draw).testNext = s.testNext := rfl
@[simp] theorem State.draw_testResults : (s.draw).testResults = s.testResults := rfl
@[simp] theorem State.draw_tiles : (s.draw).tiles = s.tiles := rfl
@[simp] theorem State.draw_clusters : (s.draw).clusters = s.clusters := rfl
@[simp] theorem State.draw_tollQueue : (s.draw).tollQueue = s.tollQueue := rfl
@[simp] theorem State.draw_granary : (s.draw).granary = s.granary := rfl
@[simp] theorem State.draw_hbm : (s.draw).hbm = s.hbm := rfl
@[simp] theorem State.draw_pond : (s.draw).pond = s.pond := rfl
@[simp] theorem State.draw_leats : (s.draw).leats = s.leats := rfl
@[simp] theorem State.draw_mem : (s.draw).mem = s.mem := rfl
@[simp] theorem State.draw_ctxs : (s.draw).ctxs = s.ctxs := rfl
@[simp] theorem State.draw_ctxRegs : (s.draw).ctxRegs = s.ctxRegs := rfl
@[simp] theorem State.draw_pendingFrees : (s.draw).pendingFrees = s.pendingFrees := rfl
@[simp] theorem State.draw_copyJobs : (s.draw).copyJobs = s.copyJobs := rfl
@[simp] theorem State.draw_qps : (s.draw).qps = s.qps := rfl
@[simp] theorem State.draw_ports : (s.draw).ports = s.ports := rfl
@[simp] theorem State.draw_eth : (s.draw).eth = s.eth := rfl
@[simp] theorem State.draw_sec : (s.draw).sec = s.sec := rfl
@[simp] theorem State.draw_board : (s.draw).board = s.board := rfl
@[simp] theorem State.draw_mce : (s.draw).mce = s.mce := rfl
@[simp] theorem State.draw_life : (s.draw).life = s.life := rfl
@[simp] theorem State.draw_ras : (s.draw).ras = s.ras := rfl
@[simp] theorem State.draw_pwr : (s.draw).pwr = s.pwr := rfl
@[simp] theorem State.draw_selects : (s.draw).selects = s.selects := rfl
@[simp] theorem State.draw_selFactory : (s.draw).selFactory = s.selFactory := rfl
@[simp] theorem State.draw_selBoard : (s.draw).selBoard = s.selBoard := rfl
@[simp] theorem State.draw_out : (s.draw).out = s.out := rfl
@[simp] theorem State.draw_part  (j : Nat) : (s.draw).part j = s.part j := rfl
@[simp] theorem State.draw_weir  (j : Nat) : (s.draw).weir j = s.weir j := rfl
@[simp] theorem State.draw_tile  (j : Nat) : (s.draw).tile j = s.tile j := rfl
@[simp] theorem State.draw_cluster  (j : Nat) : (s.draw).cluster j = s.cluster j := rfl
@[simp] theorem State.draw_ctx  (j : Nat) : (s.draw).ctx j = s.ctx j := rfl
@[simp] theorem State.draw_qp  (j : Nat) : (s.draw).qp j = s.qp j := rfl
@[simp] theorem State.draw_port  (j : Nat) : (s.draw).port j = s.port j := rfl
@[simp] theorem State.draw_quern  (i j : Nat) : (s.draw).quern i j = s.quern i j := rfl
@[simp] theorem State.draw_leat  (i j : Nat) : (s.draw).leat i j = s.leat i j := rfl
@[simp] theorem State.draw_now : (s.draw).now = s.now := rfl

/-! ### What an update writes -/

@[simp] theorem State.modSec_sec (f : Security → Security) : (s.modSec f).sec = f s.sec := rfl
@[simp] theorem State.modMce_mce (f : Mce → Mce) : (s.modMce f).mce = f s.mce := rfl
@[simp] theorem State.modLife_life (f : Life → Life) : (s.modLife f).life = f s.life := rfl
@[simp] theorem State.modRas_ras (f : Ras → Ras) : (s.modRas f).ras = f s.ras := rfl
@[simp] theorem State.modPwr_pwr (f : Power → Power) : (s.modPwr f).pwr = f s.pwr := rfl
@[simp] theorem State.modBoard_board (f : Board → Board) : (s.modBoard f).board = f s.board := rfl
@[simp] theorem State.modMill_mill (f : Mill → Mill) : (s.modMill f).mill = f s.mill := rfl
@[simp] theorem State.modEth_eth (f : EthRegs → EthRegs) : (s.modEth f).eth = f s.eth := rfl
@[simp] theorem State.modMem_mem (f : MemRegs → MemRegs) : (s.modMem f).mem = f s.mem := rfl
@[simp] theorem State.send_out (m : OutMsg) : (s.send m).out = m :: s.out := rfl
@[simp] theorem State.draw_draws : s.draw.draws = s.draws + 1 := rfl
/-- A read of entry `j` after a write of entry `p` in a canonical table. -/
theorem State.part_setPart (h : NatMap.wf {} s.parts = true) (p j : Nat) (v : Part) : (s.setPart p v).part j = if j = p then v else s.part j :=
  NatMap.get_set h p j v
/-- A read of entry `j` after a write of entry `p` in a canonical table. -/
theorem State.weir_setWeir (h : NatMap.wf {} s.weirs = true) (p j : Nat) (v : Weir) : (s.setWeir p v).weir j = if j = p then v else s.weir j :=
  NatMap.get_set h p j v
/-- A read of entry `j` after a write of entry `t` in a canonical table. -/
theorem State.tile_setTile (h : NatMap.wf {} s.tiles = true) (t j : Nat) (v : Tile) : (s.setTile t v).tile j = if j = t then v else s.tile j :=
  NatMap.get_set h t j v
/-- A read of entry `j` after a write of entry `c` in a canonical table. -/
theorem State.cluster_setCluster (h : NatMap.wf {} s.clusters = true) (c j : Nat) (v : Cluster) : (s.setCluster c v).cluster j = if j = c then v else s.cluster j :=
  NatMap.get_set h c j v
/-- A read of entry `j` after a write of entry `x` in a canonical table. -/
theorem State.ctx_setCtx (h : NatMap.wf {} s.ctxs = true) (x j : Nat) (v : Ctx) : (s.setCtx x v).ctx j = if j = x then v else s.ctx j :=
  NatMap.get_set h x j v
/-- A read of entry `j` after a write of entry `q` in a canonical table. -/
theorem State.qp_setQp (h : NatMap.wf {} s.qps = true) (q j : Nat) (v : Qp) : (s.setQp q v).qp j = if j = q then v else s.qp j :=
  NatMap.get_set h q j v
/-- A read of entry `j` after a write of entry `k` in a canonical table. -/
theorem State.port_setPort (h : NatMap.wf {} s.ports = true) (k j : Nat) (v : Port) : (s.setPort k v).port j = if j = k then v else s.port j :=
  NatMap.get_set h k j v
/-- A read of a Quern after a write of one, both on dies 0 to 7. -/
theorem State.quern_setQuern (h : NatMap.wf {} s.querns = true) (p d i j : Nat) (v : Quern) :
    (s.setQuern p d v).quern i j = if 8 * i + j = 8 * p + d then v else s.quern i j :=
  NatMap.get_set h (8 * p + d) (8 * i + j) v
/-- A read of a stream after a write of one. -/
theorem State.leat_setLeat (h : NatMap.wf {} s.leats = true) (c k i j : Nat) (v : LeatRun) :
    (s.setLeat c k v).leat i j = if 16 * i + j = 16 * c + k then v else s.leat i j :=
  NatMap.get_set h (16 * c + k) (16 * i + j) v


end Sys2Proof.Machine
end

