-- ==== Sys2Proof/Laws/Ops.lean ====
section
/-! SUPPORT. What recording a fault and sending a message change: the outbox, the sessions' sequence numbers and the ports'
drop counts, and for a fault the fault record and the board controller's alert. Every other field stays, one lemma per field. -/
namespace Sys2Proof.Machine
open Sys2Proof

/-- A packet that leaves on a port changes the outbox, or the count of what the quarantined port drops. -/
theorem State.sendPacket_only (s : State) (k : Nat) (h : PktHead) (m : IhlakMsg) :
    s.sendPacket k h m = { s with ports := (s.sendPacket k h m).ports, out := (s.sendPacket k h m).out } := by
  unfold State.sendPacket
  split
  · rfl
  · split <;> rfl

/-- A message on a session changes the sessions, the ports' drop counts and the outbox alone. -/
theorem State.sendOn_only (s : State) (n : Nat) (m : IhlakMsg) :
    s.sendOn n m = { s with sec := (s.sendOn n m).sec, ports := (s.sendOn n m).ports, out := (s.sendOn n m).out } := by
  unfold State.sendOn
  extract_lets c
  split
  · rfl
  · rw [State.sendPacket_only]
    rfl

/-- An unsealed message likewise. -/
theorem State.sendPlain_only (s : State) (k : Nat) (m : IhlakMsg) :
    s.sendPlain k m = { s with sec := (s.sendPlain k m).sec, ports := (s.sendPlain k m).ports, out := (s.sendPlain k m).out } := by
  unfold State.sendPlain
  rw [State.sendPacket_only]
  rfl

theorem State.sendOns_only (l : List (Nat × List Byte)) (s : State) :
    l.foldl (fun s m => s.sendOn m.1 (.event m.2)) s =
      { s with sec := (l.foldl (fun s m => s.sendOn m.1 (.event m.2)) s).sec
               ports := (l.foldl (fun s m => s.sendOn m.1 (.event m.2)) s).ports
               out := (l.foldl (fun s m => s.sendOn m.1 (.event m.2)) s).out } := by
  induction l generalizing s with
  | nil => rfl
  | cons a l ih => rw [List.foldl_cons, ih, State.sendOn_only]

/-- A fault changes the fault record, the alert of the board controller, and what its EVENT packets change. -/
theorem State.raise_only (s : State) (f : FaultRec) :
    s.raise f = { s with ras := (s.raise f).ras, board := (s.raise f).board, sec := (s.raise f).sec, ports := (s.raise f).ports
                         out := (s.raise f).out } := by
  unfold State.raise
  split
  · rfl
  · dsimp only
    rw [State.sendOns_only]

/-- An answer to a register request changes what its packet changes. -/
theorem State.respond_only (s : State) (rq : Req) (tag st fi n : Nat) (d : List Word64) :
    s.respond rq tag st fi n d =
      { s with sec := (s.respond rq tag st fi n d).sec, ports := (s.respond rq tag st fi n d).ports, out := (s.respond rq tag st fi n d).out } := by
  unfold State.respond
  extract_lets m
  split
  · split
    · rfl
    · rw [State.sendOn_only]
  · rw [State.sendPlain_only]
  · rfl

/-- An answer to one access changes that, or the board controller's registers. -/
theorem State.respondOne_only (s : State) (rq : Req) (a st : Nat) (d : List Word64) :
    s.respondOne rq a st d = { s with
      sec := (s.respondOne rq a st d).sec, ports := (s.respondOne rq a st d).ports, out := (s.respondOne rq a st d).out
      board := (s.respondOne rq a st d).board } := by
  unfold State.respondOne
  split
  · unfold State.boardAnswer
    split <;> rfl
  · rw [State.respond_only]

/-- An acknowledgement is a message on its session. -/
theorem State.ack_only (s : State) (n code : Nat) (b : List Byte) :
    s.ack n code b = { s with sec := (s.ack n code b).sec, ports := (s.ack n code b).ports, out := (s.ack n code b).out } :=
  State.sendOn_only ..

variable (s : State)


/-! ### sendOn -/

@[simp] theorem State.sendOn_pending (n : Nat) (m : IhlakMsg) : (s.sendOn n m).pending = s.pending := (congrArg State.pending (s.sendOn_only n m) :)
@[simp] theorem State.sendOn_mill (n : Nat) (m : IhlakMsg) : (s.sendOn n m).mill = s.mill := (congrArg State.mill (s.sendOn_only n m) :)
@[simp] theorem State.sendOn_parts (n : Nat) (m : IhlakMsg) : (s.sendOn n m).parts = s.parts := (congrArg State.parts (s.sendOn_only n m) :)
@[simp] theorem State.sendOn_stagedFull (n : Nat) (m : IhlakMsg) : (s.sendOn n m).stagedFull = s.stagedFull := (congrArg State.stagedFull (s.sendOn_only n m) :)
@[simp] theorem State.sendOn_device (n : Nat) (m : IhlakMsg) : (s.sendOn n m).device = s.device := (congrArg State.device (s.sendOn_only n m) :)
@[simp] theorem State.sendOn_stageObj (n : Nat) (m : IhlakMsg) : (s.sendOn n m).stageObj = s.stageObj := (congrArg State.stageObj (s.sendOn_only n m) :)
@[simp] theorem State.sendOn_stageLen (n : Nat) (m : IhlakMsg) : (s.sendOn n m).stageLen = s.stageLen := (congrArg State.stageLen (s.sendOn_only n m) :)
@[simp] theorem State.sendOn_partLock (n : Nat) (m : IhlakMsg) : (s.sendOn n m).partLock = s.partLock := (congrArg State.partLock (s.sendOn_only n m) :)
@[simp] theorem State.sendOn_weirs (n : Nat) (m : IhlakMsg) : (s.sendOn n m).weirs = s.weirs := (congrArg State.weirs (s.sendOn_only n m) :)
@[simp] theorem State.sendOn_querns (n : Nat) (m : IhlakMsg) : (s.sendOn n m).querns = s.querns := (congrArg State.querns (s.sendOn_only n m) :)
@[simp] theorem State.sendOn_resolves (n : Nat) (m : IhlakMsg) : (s.sendOn n m).resolves = s.resolves := (congrArg State.resolves (s.sendOn_only n m) :)
@[simp] theorem State.sendOn_tollFails (n : Nat) (m : IhlakMsg) : (s.sendOn n m).tollFails = s.tollFails := (congrArg State.tollFails (s.sendOn_only n m) :)
@[simp] theorem State.sendOn_testNext (n : Nat) (m : IhlakMsg) : (s.sendOn n m).testNext = s.testNext := (congrArg State.testNext (s.sendOn_only n m) :)
@[simp] theorem State.sendOn_testResults (n : Nat) (m : IhlakMsg) : (s.sendOn n m).testResults = s.testResults := (congrArg State.testResults (s.sendOn_only n m) :)
@[simp] theorem State.sendOn_tiles (n : Nat) (m : IhlakMsg) : (s.sendOn n m).tiles = s.tiles := (congrArg State.tiles (s.sendOn_only n m) :)
@[simp] theorem State.sendOn_clusters (n : Nat) (m : IhlakMsg) : (s.sendOn n m).clusters = s.clusters := (congrArg State.clusters (s.sendOn_only n m) :)
@[simp] theorem State.sendOn_tollQueue (n : Nat) (m : IhlakMsg) : (s.sendOn n m).tollQueue = s.tollQueue := (congrArg State.tollQueue (s.sendOn_only n m) :)
@[simp] theorem State.sendOn_granary (n : Nat) (m : IhlakMsg) : (s.sendOn n m).granary = s.granary := (congrArg State.granary (s.sendOn_only n m) :)
@[simp] theorem State.sendOn_hbm (n : Nat) (m : IhlakMsg) : (s.sendOn n m).hbm = s.hbm := (congrArg State.hbm (s.sendOn_only n m) :)
@[simp] theorem State.sendOn_pond (n : Nat) (m : IhlakMsg) : (s.sendOn n m).pond = s.pond := (congrArg State.pond (s.sendOn_only n m) :)
@[simp] theorem State.sendOn_leats (n : Nat) (m : IhlakMsg) : (s.sendOn n m).leats = s.leats := (congrArg State.leats (s.sendOn_only n m) :)
@[simp] theorem State.sendOn_mem (n : Nat) (m : IhlakMsg) : (s.sendOn n m).mem = s.mem := (congrArg State.mem (s.sendOn_only n m) :)
@[simp] theorem State.sendOn_ctxs (n : Nat) (m : IhlakMsg) : (s.sendOn n m).ctxs = s.ctxs := (congrArg State.ctxs (s.sendOn_only n m) :)
@[simp] theorem State.sendOn_ctxRegs (n : Nat) (m : IhlakMsg) : (s.sendOn n m).ctxRegs = s.ctxRegs := (congrArg State.ctxRegs (s.sendOn_only n m) :)
@[simp] theorem State.sendOn_pendingFrees (n : Nat) (m : IhlakMsg) : (s.sendOn n m).pendingFrees = s.pendingFrees := (congrArg State.pendingFrees (s.sendOn_only n m) :)
@[simp] theorem State.sendOn_copyJobs (n : Nat) (m : IhlakMsg) : (s.sendOn n m).copyJobs = s.copyJobs := (congrArg State.copyJobs (s.sendOn_only n m) :)
@[simp] theorem State.sendOn_qps (n : Nat) (m : IhlakMsg) : (s.sendOn n m).qps = s.qps := (congrArg State.qps (s.sendOn_only n m) :)
@[simp] theorem State.sendOn_eth (n : Nat) (m : IhlakMsg) : (s.sendOn n m).eth = s.eth := (congrArg State.eth (s.sendOn_only n m) :)
@[simp] theorem State.sendOn_board (n : Nat) (m : IhlakMsg) : (s.sendOn n m).board = s.board := (congrArg State.board (s.sendOn_only n m) :)
@[simp] theorem State.sendOn_mce (n : Nat) (m : IhlakMsg) : (s.sendOn n m).mce = s.mce := (congrArg State.mce (s.sendOn_only n m) :)
@[simp] theorem State.sendOn_life (n : Nat) (m : IhlakMsg) : (s.sendOn n m).life = s.life := (congrArg State.life (s.sendOn_only n m) :)
@[simp] theorem State.sendOn_ras (n : Nat) (m : IhlakMsg) : (s.sendOn n m).ras = s.ras := (congrArg State.ras (s.sendOn_only n m) :)
@[simp] theorem State.sendOn_pwr (n : Nat) (m : IhlakMsg) : (s.sendOn n m).pwr = s.pwr := (congrArg State.pwr (s.sendOn_only n m) :)
@[simp] theorem State.sendOn_selects (n : Nat) (m : IhlakMsg) : (s.sendOn n m).selects = s.selects := (congrArg State.selects (s.sendOn_only n m) :)
@[simp] theorem State.sendOn_selFactory (n : Nat) (m : IhlakMsg) : (s.sendOn n m).selFactory = s.selFactory := (congrArg State.selFactory (s.sendOn_only n m) :)
@[simp] theorem State.sendOn_selBoard (n : Nat) (m : IhlakMsg) : (s.sendOn n m).selBoard = s.selBoard := (congrArg State.selBoard (s.sendOn_only n m) :)
@[simp] theorem State.sendOn_draws (n : Nat) (m : IhlakMsg) : (s.sendOn n m).draws = s.draws := (congrArg State.draws (s.sendOn_only n m) :)
@[simp] theorem State.sendOn_part (n : Nat) (m : IhlakMsg) (j : Nat) : (s.sendOn n m).part j = s.part j := (congrArg (fun x => State.part x j) (s.sendOn_only n m) :)
@[simp] theorem State.sendOn_weir (n : Nat) (m : IhlakMsg) (j : Nat) : (s.sendOn n m).weir j = s.weir j := (congrArg (fun x => State.weir x j) (s.sendOn_only n m) :)
@[simp] theorem State.sendOn_tile (n : Nat) (m : IhlakMsg) (j : Nat) : (s.sendOn n m).tile j = s.tile j := (congrArg (fun x => State.tile x j) (s.sendOn_only n m) :)
@[simp] theorem State.sendOn_cluster (n : Nat) (m : IhlakMsg) (j : Nat) : (s.sendOn n m).cluster j = s.cluster j := (congrArg (fun x => State.cluster x j) (s.sendOn_only n m) :)
@[simp] theorem State.sendOn_ctx (n : Nat) (m : IhlakMsg) (j : Nat) : (s.sendOn n m).ctx j = s.ctx j := (congrArg (fun x => State.ctx x j) (s.sendOn_only n m) :)
@[simp] theorem State.sendOn_qp (n : Nat) (m : IhlakMsg) (j : Nat) : (s.sendOn n m).qp j = s.qp j := (congrArg (fun x => State.qp x j) (s.sendOn_only n m) :)
@[simp] theorem State.sendOn_quern (n : Nat) (m : IhlakMsg) (i j : Nat) : (s.sendOn n m).quern i j = s.quern i j := (congrArg (fun x => State.quern x i j) (s.sendOn_only n m) :)
@[simp] theorem State.sendOn_leat (n : Nat) (m : IhlakMsg) (i j : Nat) : (s.sendOn n m).leat i j = s.leat i j := (congrArg (fun x => State.leat x i j) (s.sendOn_only n m) :)
@[simp] theorem State.sendOn_now (n : Nat) (m : IhlakMsg) : (s.sendOn n m).now = s.now := (congrArg (fun x => State.now x) (s.sendOn_only n m) :)

/-! ### sendPlain -/

@[simp] theorem State.sendPlain_pending (k : Nat) (m : IhlakMsg) : (s.sendPlain k m).pending = s.pending := (congrArg State.pending (s.sendPlain_only k m) :)
@[simp] theorem State.sendPlain_mill (k : Nat) (m : IhlakMsg) : (s.sendPlain k m).mill = s.mill := (congrArg State.mill (s.sendPlain_only k m) :)
@[simp] theorem State.sendPlain_parts (k : Nat) (m : IhlakMsg) : (s.sendPlain k m).parts = s.parts := (congrArg State.parts (s.sendPlain_only k m) :)
@[simp] theorem State.sendPlain_stagedFull (k : Nat) (m : IhlakMsg) : (s.sendPlain k m).stagedFull = s.stagedFull := (congrArg State.stagedFull (s.sendPlain_only k m) :)
@[simp] theorem State.sendPlain_device (k : Nat) (m : IhlakMsg) : (s.sendPlain k m).device = s.device := (congrArg State.device (s.sendPlain_only k m) :)
@[simp] theorem State.sendPlain_stageObj (k : Nat) (m : IhlakMsg) : (s.sendPlain k m).stageObj = s.stageObj := (congrArg State.stageObj (s.sendPlain_only k m) :)
@[simp] theorem State.sendPlain_stageLen (k : Nat) (m : IhlakMsg) : (s.sendPlain k m).stageLen = s.stageLen := (congrArg State.stageLen (s.sendPlain_only k m) :)
@[simp] theorem State.sendPlain_partLock (k : Nat) (m : IhlakMsg) : (s.sendPlain k m).partLock = s.partLock := (congrArg State.partLock (s.sendPlain_only k m) :)
@[simp] theorem State.sendPlain_weirs (k : Nat) (m : IhlakMsg) : (s.sendPlain k m).weirs = s.weirs := (congrArg State.weirs (s.sendPlain_only k m) :)
@[simp] theorem State.sendPlain_querns (k : Nat) (m : IhlakMsg) : (s.sendPlain k m).querns = s.querns := (congrArg State.querns (s.sendPlain_only k m) :)
@[simp] theorem State.sendPlain_resolves (k : Nat) (m : IhlakMsg) : (s.sendPlain k m).resolves = s.resolves := (congrArg State.resolves (s.sendPlain_only k m) :)
@[simp] theorem State.sendPlain_tollFails (k : Nat) (m : IhlakMsg) : (s.sendPlain k m).tollFails = s.tollFails := (congrArg State.tollFails (s.sendPlain_only k m) :)
@[simp] theorem State.sendPlain_testNext (k : Nat) (m : IhlakMsg) : (s.sendPlain k m).testNext = s.testNext := (congrArg State.testNext (s.sendPlain_only k m) :)
@[simp] theorem State.sendPlain_testResults (k : Nat) (m : IhlakMsg) : (s.sendPlain k m).testResults = s.testResults := (congrArg State.testResults (s.sendPlain_only k m) :)
@[simp] theorem State.sendPlain_tiles (k : Nat) (m : IhlakMsg) : (s.sendPlain k m).tiles = s.tiles := (congrArg State.tiles (s.sendPlain_only k m) :)
@[simp] theorem State.sendPlain_clusters (k : Nat) (m : IhlakMsg) : (s.sendPlain k m).clusters = s.clusters := (congrArg State.clusters (s.sendPlain_only k m) :)
@[simp] theorem State.sendPlain_tollQueue (k : Nat) (m : IhlakMsg) : (s.sendPlain k m).tollQueue = s.tollQueue := (congrArg State.tollQueue (s.sendPlain_only k m) :)
@[simp] theorem State.sendPlain_granary (k : Nat) (m : IhlakMsg) : (s.sendPlain k m).granary = s.granary := (congrArg State.granary (s.sendPlain_only k m) :)
@[simp] theorem State.sendPlain_hbm (k : Nat) (m : IhlakMsg) : (s.sendPlain k m).hbm = s.hbm := (congrArg State.hbm (s.sendPlain_only k m) :)
@[simp] theorem State.sendPlain_pond (k : Nat) (m : IhlakMsg) : (s.sendPlain k m).pond = s.pond := (congrArg State.pond (s.sendPlain_only k m) :)
@[simp] theorem State.sendPlain_leats (k : Nat) (m : IhlakMsg) : (s.sendPlain k m).leats = s.leats := (congrArg State.leats (s.sendPlain_only k m) :)
@[simp] theorem State.sendPlain_mem (k : Nat) (m : IhlakMsg) : (s.sendPlain k m).mem = s.mem := (congrArg State.mem (s.sendPlain_only k m) :)
@[simp] theorem State.sendPlain_ctxs (k : Nat) (m : IhlakMsg) : (s.sendPlain k m).ctxs = s.ctxs := (congrArg State.ctxs (s.sendPlain_only k m) :)
@[simp] theorem State.sendPlain_ctxRegs (k : Nat) (m : IhlakMsg) : (s.sendPlain k m).ctxRegs = s.ctxRegs := (congrArg State.ctxRegs (s.sendPlain_only k m) :)
@[simp] theorem State.sendPlain_pendingFrees (k : Nat) (m : IhlakMsg) : (s.sendPlain k m).pendingFrees = s.pendingFrees := (congrArg State.pendingFrees (s.sendPlain_only k m) :)
@[simp] theorem State.sendPlain_copyJobs (k : Nat) (m : IhlakMsg) : (s.sendPlain k m).copyJobs = s.copyJobs := (congrArg State.copyJobs (s.sendPlain_only k m) :)
@[simp] theorem State.sendPlain_qps (k : Nat) (m : IhlakMsg) : (s.sendPlain k m).qps = s.qps := (congrArg State.qps (s.sendPlain_only k m) :)
@[simp] theorem State.sendPlain_eth (k : Nat) (m : IhlakMsg) : (s.sendPlain k m).eth = s.eth := (congrArg State.eth (s.sendPlain_only k m) :)
@[simp] theorem State.sendPlain_board (k : Nat) (m : IhlakMsg) : (s.sendPlain k m).board = s.board := (congrArg State.board (s.sendPlain_only k m) :)
@[simp] theorem State.sendPlain_mce (k : Nat) (m : IhlakMsg) : (s.sendPlain k m).mce = s.mce := (congrArg State.mce (s.sendPlain_only k m) :)
@[simp] theorem State.sendPlain_life (k : Nat) (m : IhlakMsg) : (s.sendPlain k m).life = s.life := (congrArg State.life (s.sendPlain_only k m) :)
@[simp] theorem State.sendPlain_ras (k : Nat) (m : IhlakMsg) : (s.sendPlain k m).ras = s.ras := (congrArg State.ras (s.sendPlain_only k m) :)
@[simp] theorem State.sendPlain_pwr (k : Nat) (m : IhlakMsg) : (s.sendPlain k m).pwr = s.pwr := (congrArg State.pwr (s.sendPlain_only k m) :)
@[simp] theorem State.sendPlain_selects (k : Nat) (m : IhlakMsg) : (s.sendPlain k m).selects = s.selects := (congrArg State.selects (s.sendPlain_only k m) :)
@[simp] theorem State.sendPlain_selFactory (k : Nat) (m : IhlakMsg) : (s.sendPlain k m).selFactory = s.selFactory := (congrArg State.selFactory (s.sendPlain_only k m) :)
@[simp] theorem State.sendPlain_selBoard (k : Nat) (m : IhlakMsg) : (s.sendPlain k m).selBoard = s.selBoard := (congrArg State.selBoard (s.sendPlain_only k m) :)
@[simp] theorem State.sendPlain_draws (k : Nat) (m : IhlakMsg) : (s.sendPlain k m).draws = s.draws := (congrArg State.draws (s.sendPlain_only k m) :)
@[simp] theorem State.sendPlain_part (k : Nat) (m : IhlakMsg) (j : Nat) : (s.sendPlain k m).part j = s.part j := (congrArg (fun x => State.part x j) (s.sendPlain_only k m) :)
@[simp] theorem State.sendPlain_weir (k : Nat) (m : IhlakMsg) (j : Nat) : (s.sendPlain k m).weir j = s.weir j := (congrArg (fun x => State.weir x j) (s.sendPlain_only k m) :)
@[simp] theorem State.sendPlain_tile (k : Nat) (m : IhlakMsg) (j : Nat) : (s.sendPlain k m).tile j = s.tile j := (congrArg (fun x => State.tile x j) (s.sendPlain_only k m) :)
@[simp] theorem State.sendPlain_cluster (k : Nat) (m : IhlakMsg) (j : Nat) : (s.sendPlain k m).cluster j = s.cluster j := (congrArg (fun x => State.cluster x j) (s.sendPlain_only k m) :)
@[simp] theorem State.sendPlain_ctx (k : Nat) (m : IhlakMsg) (j : Nat) : (s.sendPlain k m).ctx j = s.ctx j := (congrArg (fun x => State.ctx x j) (s.sendPlain_only k m) :)
@[simp] theorem State.sendPlain_qp (k : Nat) (m : IhlakMsg) (j : Nat) : (s.sendPlain k m).qp j = s.qp j := (congrArg (fun x => State.qp x j) (s.sendPlain_only k m) :)
@[simp] theorem State.sendPlain_quern (k : Nat) (m : IhlakMsg) (i j : Nat) : (s.sendPlain k m).quern i j = s.quern i j := (congrArg (fun x => State.quern x i j) (s.sendPlain_only k m) :)
@[simp] theorem State.sendPlain_leat (k : Nat) (m : IhlakMsg) (i j : Nat) : (s.sendPlain k m).leat i j = s.leat i j := (congrArg (fun x => State.leat x i j) (s.sendPlain_only k m) :)
@[simp] theorem State.sendPlain_now (k : Nat) (m : IhlakMsg) : (s.sendPlain k m).now = s.now := (congrArg (fun x => State.now x) (s.sendPlain_only k m) :)

/-! ### raise -/

@[simp] theorem State.raise_pending (f : FaultRec) : (s.raise f).pending = s.pending := (congrArg State.pending (s.raise_only f) :)
@[simp] theorem State.raise_mill (f : FaultRec) : (s.raise f).mill = s.mill := (congrArg State.mill (s.raise_only f) :)
@[simp] theorem State.raise_parts (f : FaultRec) : (s.raise f).parts = s.parts := (congrArg State.parts (s.raise_only f) :)
@[simp] theorem State.raise_stagedFull (f : FaultRec) : (s.raise f).stagedFull = s.stagedFull := (congrArg State.stagedFull (s.raise_only f) :)
@[simp] theorem State.raise_device (f : FaultRec) : (s.raise f).device = s.device := (congrArg State.device (s.raise_only f) :)
@[simp] theorem State.raise_stageObj (f : FaultRec) : (s.raise f).stageObj = s.stageObj := (congrArg State.stageObj (s.raise_only f) :)
@[simp] theorem State.raise_stageLen (f : FaultRec) : (s.raise f).stageLen = s.stageLen := (congrArg State.stageLen (s.raise_only f) :)
@[simp] theorem State.raise_partLock (f : FaultRec) : (s.raise f).partLock = s.partLock := (congrArg State.partLock (s.raise_only f) :)
@[simp] theorem State.raise_weirs (f : FaultRec) : (s.raise f).weirs = s.weirs := (congrArg State.weirs (s.raise_only f) :)
@[simp] theorem State.raise_querns (f : FaultRec) : (s.raise f).querns = s.querns := (congrArg State.querns (s.raise_only f) :)
@[simp] theorem State.raise_resolves (f : FaultRec) : (s.raise f).resolves = s.resolves := (congrArg State.resolves (s.raise_only f) :)
@[simp] theorem State.raise_tollFails (f : FaultRec) : (s.raise f).tollFails = s.tollFails := (congrArg State.tollFails (s.raise_only f) :)
@[simp] theorem State.raise_testNext (f : FaultRec) : (s.raise f).testNext = s.testNext := (congrArg State.testNext (s.raise_only f) :)
@[simp] theorem State.raise_testResults (f : FaultRec) : (s.raise f).testResults = s.testResults := (congrArg State.testResults (s.raise_only f) :)
@[simp] theorem State.raise_tiles (f : FaultRec) : (s.raise f).tiles = s.tiles := (congrArg State.tiles (s.raise_only f) :)
@[simp] theorem State.raise_clusters (f : FaultRec) : (s.raise f).clusters = s.clusters := (congrArg State.clusters (s.raise_only f) :)
@[simp] theorem State.raise_tollQueue (f : FaultRec) : (s.raise f).tollQueue = s.tollQueue := (congrArg State.tollQueue (s.raise_only f) :)
@[simp] theorem State.raise_granary (f : FaultRec) : (s.raise f).granary = s.granary := (congrArg State.granary (s.raise_only f) :)
@[simp] theorem State.raise_hbm (f : FaultRec) : (s.raise f).hbm = s.hbm := (congrArg State.hbm (s.raise_only f) :)
@[simp] theorem State.raise_pond (f : FaultRec) : (s.raise f).pond = s.pond := (congrArg State.pond (s.raise_only f) :)
@[simp] theorem State.raise_leats (f : FaultRec) : (s.raise f).leats = s.leats := (congrArg State.leats (s.raise_only f) :)
@[simp] theorem State.raise_mem (f : FaultRec) : (s.raise f).mem = s.mem := (congrArg State.mem (s.raise_only f) :)
@[simp] theorem State.raise_ctxs (f : FaultRec) : (s.raise f).ctxs = s.ctxs := (congrArg State.ctxs (s.raise_only f) :)
@[simp] theorem State.raise_ctxRegs (f : FaultRec) : (s.raise f).ctxRegs = s.ctxRegs := (congrArg State.ctxRegs (s.raise_only f) :)
@[simp] theorem State.raise_pendingFrees (f : FaultRec) : (s.raise f).pendingFrees = s.pendingFrees := (congrArg State.pendingFrees (s.raise_only f) :)
@[simp] theorem State.raise_copyJobs (f : FaultRec) : (s.raise f).copyJobs = s.copyJobs := (congrArg State.copyJobs (s.raise_only f) :)
@[simp] theorem State.raise_qps (f : FaultRec) : (s.raise f).qps = s.qps := (congrArg State.qps (s.raise_only f) :)
@[simp] theorem State.raise_eth (f : FaultRec) : (s.raise f).eth = s.eth := (congrArg State.eth (s.raise_only f) :)
@[simp] theorem State.raise_mce (f : FaultRec) : (s.raise f).mce = s.mce := (congrArg State.mce (s.raise_only f) :)
@[simp] theorem State.raise_life (f : FaultRec) : (s.raise f).life = s.life := (congrArg State.life (s.raise_only f) :)
@[simp] theorem State.raise_pwr (f : FaultRec) : (s.raise f).pwr = s.pwr := (congrArg State.pwr (s.raise_only f) :)
@[simp] theorem State.raise_selects (f : FaultRec) : (s.raise f).selects = s.selects := (congrArg State.selects (s.raise_only f) :)
@[simp] theorem State.raise_selFactory (f : FaultRec) : (s.raise f).selFactory = s.selFactory := (congrArg State.selFactory (s.raise_only f) :)
@[simp] theorem State.raise_selBoard (f : FaultRec) : (s.raise f).selBoard = s.selBoard := (congrArg State.selBoard (s.raise_only f) :)
@[simp] theorem State.raise_draws (f : FaultRec) : (s.raise f).draws = s.draws := (congrArg State.draws (s.raise_only f) :)
@[simp] theorem State.raise_part (f : FaultRec) (j : Nat) : (s.raise f).part j = s.part j := (congrArg (fun x => State.part x j) (s.raise_only f) :)
@[simp] theorem State.raise_weir (f : FaultRec) (j : Nat) : (s.raise f).weir j = s.weir j := (congrArg (fun x => State.weir x j) (s.raise_only f) :)
@[simp] theorem State.raise_tile (f : FaultRec) (j : Nat) : (s.raise f).tile j = s.tile j := (congrArg (fun x => State.tile x j) (s.raise_only f) :)
@[simp] theorem State.raise_cluster (f : FaultRec) (j : Nat) : (s.raise f).cluster j = s.cluster j := (congrArg (fun x => State.cluster x j) (s.raise_only f) :)
@[simp] theorem State.raise_ctx (f : FaultRec) (j : Nat) : (s.raise f).ctx j = s.ctx j := (congrArg (fun x => State.ctx x j) (s.raise_only f) :)
@[simp] theorem State.raise_qp (f : FaultRec) (j : Nat) : (s.raise f).qp j = s.qp j := (congrArg (fun x => State.qp x j) (s.raise_only f) :)
@[simp] theorem State.raise_quern (f : FaultRec) (i j : Nat) : (s.raise f).quern i j = s.quern i j := (congrArg (fun x => State.quern x i j) (s.raise_only f) :)
@[simp] theorem State.raise_leat (f : FaultRec) (i j : Nat) : (s.raise f).leat i j = s.leat i j := (congrArg (fun x => State.leat x i j) (s.raise_only f) :)
@[simp] theorem State.raise_now (f : FaultRec) : (s.raise f).now = s.now := (congrArg (fun x => State.now x) (s.raise_only f) :)

/-! ### respond -/

@[simp] theorem State.respond_pending (rq : Req) (tag st fi n : Nat) (d : List Word64) : (s.respond rq tag st fi n d).pending = s.pending := (congrArg State.pending (s.respond_only rq tag st fi n d) :)
@[simp] theorem State.respond_mill (rq : Req) (tag st fi n : Nat) (d : List Word64) : (s.respond rq tag st fi n d).mill = s.mill := (congrArg State.mill (s.respond_only rq tag st fi n d) :)
@[simp] theorem State.respond_parts (rq : Req) (tag st fi n : Nat) (d : List Word64) : (s.respond rq tag st fi n d).parts = s.parts := (congrArg State.parts (s.respond_only rq tag st fi n d) :)
@[simp] theorem State.respond_stagedFull (rq : Req) (tag st fi n : Nat) (d : List Word64) : (s.respond rq tag st fi n d).stagedFull = s.stagedFull := (congrArg State.stagedFull (s.respond_only rq tag st fi n d) :)
@[simp] theorem State.respond_device (rq : Req) (tag st fi n : Nat) (d : List Word64) : (s.respond rq tag st fi n d).device = s.device := (congrArg State.device (s.respond_only rq tag st fi n d) :)
@[simp] theorem State.respond_stageObj (rq : Req) (tag st fi n : Nat) (d : List Word64) : (s.respond rq tag st fi n d).stageObj = s.stageObj := (congrArg State.stageObj (s.respond_only rq tag st fi n d) :)
@[simp] theorem State.respond_stageLen (rq : Req) (tag st fi n : Nat) (d : List Word64) : (s.respond rq tag st fi n d).stageLen = s.stageLen := (congrArg State.stageLen (s.respond_only rq tag st fi n d) :)
@[simp] theorem State.respond_partLock (rq : Req) (tag st fi n : Nat) (d : List Word64) : (s.respond rq tag st fi n d).partLock = s.partLock := (congrArg State.partLock (s.respond_only rq tag st fi n d) :)
@[simp] theorem State.respond_weirs (rq : Req) (tag st fi n : Nat) (d : List Word64) : (s.respond rq tag st fi n d).weirs = s.weirs := (congrArg State.weirs (s.respond_only rq tag st fi n d) :)
@[simp] theorem State.respond_querns (rq : Req) (tag st fi n : Nat) (d : List Word64) : (s.respond rq tag st fi n d).querns = s.querns := (congrArg State.querns (s.respond_only rq tag st fi n d) :)
@[simp] theorem State.respond_resolves (rq : Req) (tag st fi n : Nat) (d : List Word64) : (s.respond rq tag st fi n d).resolves = s.resolves := (congrArg State.resolves (s.respond_only rq tag st fi n d) :)
@[simp] theorem State.respond_tollFails (rq : Req) (tag st fi n : Nat) (d : List Word64) : (s.respond rq tag st fi n d).tollFails = s.tollFails := (congrArg State.tollFails (s.respond_only rq tag st fi n d) :)
@[simp] theorem State.respond_testNext (rq : Req) (tag st fi n : Nat) (d : List Word64) : (s.respond rq tag st fi n d).testNext = s.testNext := (congrArg State.testNext (s.respond_only rq tag st fi n d) :)
@[simp] theorem State.respond_testResults (rq : Req) (tag st fi n : Nat) (d : List Word64) : (s.respond rq tag st fi n d).testResults = s.testResults := (congrArg State.testResults (s.respond_only rq tag st fi n d) :)
@[simp] theorem State.respond_tiles (rq : Req) (tag st fi n : Nat) (d : List Word64) : (s.respond rq tag st fi n d).tiles = s.tiles := (congrArg State.tiles (s.respond_only rq tag st fi n d) :)
@[simp] theorem State.respond_clusters (rq : Req) (tag st fi n : Nat) (d : List Word64) : (s.respond rq tag st fi n d).clusters = s.clusters := (congrArg State.clusters (s.respond_only rq tag st fi n d) :)
@[simp] theorem State.respond_tollQueue (rq : Req) (tag st fi n : Nat) (d : List Word64) : (s.respond rq tag st fi n d).tollQueue = s.tollQueue := (congrArg State.tollQueue (s.respond_only rq tag st fi n d) :)
@[simp] theorem State.respond_granary (rq : Req) (tag st fi n : Nat) (d : List Word64) : (s.respond rq tag st fi n d).granary = s.granary := (congrArg State.granary (s.respond_only rq tag st fi n d) :)
@[simp] theorem State.respond_hbm (rq : Req) (tag st fi n : Nat) (d : List Word64) : (s.respond rq tag st fi n d).hbm = s.hbm := (congrArg State.hbm (s.respond_only rq tag st fi n d) :)
@[simp] theorem State.respond_pond (rq : Req) (tag st fi n : Nat) (d : List Word64) : (s.respond rq tag st fi n d).pond = s.pond := (congrArg State.pond (s.respond_only rq tag st fi n d) :)
@[simp] theorem State.respond_leats (rq : Req) (tag st fi n : Nat) (d : List Word64) : (s.respond rq tag st fi n d).leats = s.leats := (congrArg State.leats (s.respond_only rq tag st fi n d) :)
@[simp] theorem State.respond_mem (rq : Req) (tag st fi n : Nat) (d : List Word64) : (s.respond rq tag st fi n d).mem = s.mem := (congrArg State.mem (s.respond_only rq tag st fi n d) :)
@[simp] theorem State.respond_ctxs (rq : Req) (tag st fi n : Nat) (d : List Word64) : (s.respond rq tag st fi n d).ctxs = s.ctxs := (congrArg State.ctxs (s.respond_only rq tag st fi n d) :)
@[simp] theorem State.respond_ctxRegs (rq : Req) (tag st fi n : Nat) (d : List Word64) : (s.respond rq tag st fi n d).ctxRegs = s.ctxRegs := (congrArg State.ctxRegs (s.respond_only rq tag st fi n d) :)
@[simp] theorem State.respond_pendingFrees (rq : Req) (tag st fi n : Nat) (d : List Word64) : (s.respond rq tag st fi n d).pendingFrees = s.pendingFrees := (congrArg State.pendingFrees (s.respond_only rq tag st fi n d) :)
@[simp] theorem State.respond_copyJobs (rq : Req) (tag st fi n : Nat) (d : List Word64) : (s.respond rq tag st fi n d).copyJobs = s.copyJobs := (congrArg State.copyJobs (s.respond_only rq tag st fi n d) :)
@[simp] theorem State.respond_qps (rq : Req) (tag st fi n : Nat) (d : List Word64) : (s.respond rq tag st fi n d).qps = s.qps := (congrArg State.qps (s.respond_only rq tag st fi n d) :)
@[simp] theorem State.respond_eth (rq : Req) (tag st fi n : Nat) (d : List Word64) : (s.respond rq tag st fi n d).eth = s.eth := (congrArg State.eth (s.respond_only rq tag st fi n d) :)
@[simp] theorem State.respond_board (rq : Req) (tag st fi n : Nat) (d : List Word64) : (s.respond rq tag st fi n d).board = s.board := (congrArg State.board (s.respond_only rq tag st fi n d) :)
@[simp] theorem State.respond_mce (rq : Req) (tag st fi n : Nat) (d : List Word64) : (s.respond rq tag st fi n d).mce = s.mce := (congrArg State.mce (s.respond_only rq tag st fi n d) :)
@[simp] theorem State.respond_life (rq : Req) (tag st fi n : Nat) (d : List Word64) : (s.respond rq tag st fi n d).life = s.life := (congrArg State.life (s.respond_only rq tag st fi n d) :)
@[simp] theorem State.respond_ras (rq : Req) (tag st fi n : Nat) (d : List Word64) : (s.respond rq tag st fi n d).ras = s.ras := (congrArg State.ras (s.respond_only rq tag st fi n d) :)
@[simp] theorem State.respond_pwr (rq : Req) (tag st fi n : Nat) (d : List Word64) : (s.respond rq tag st fi n d).pwr = s.pwr := (congrArg State.pwr (s.respond_only rq tag st fi n d) :)
@[simp] theorem State.respond_selects (rq : Req) (tag st fi n : Nat) (d : List Word64) : (s.respond rq tag st fi n d).selects = s.selects := (congrArg State.selects (s.respond_only rq tag st fi n d) :)
@[simp] theorem State.respond_selFactory (rq : Req) (tag st fi n : Nat) (d : List Word64) : (s.respond rq tag st fi n d).selFactory = s.selFactory := (congrArg State.selFactory (s.respond_only rq tag st fi n d) :)
@[simp] theorem State.respond_selBoard (rq : Req) (tag st fi n : Nat) (d : List Word64) : (s.respond rq tag st fi n d).selBoard = s.selBoard := (congrArg State.selBoard (s.respond_only rq tag st fi n d) :)
@[simp] theorem State.respond_draws (rq : Req) (tag st fi n : Nat) (d : List Word64) : (s.respond rq tag st fi n d).draws = s.draws := (congrArg State.draws (s.respond_only rq tag st fi n d) :)
@[simp] theorem State.respond_part (rq : Req) (tag st fi n : Nat) (d : List Word64) (j : Nat) : (s.respond rq tag st fi n d).part j = s.part j := (congrArg (fun x => State.part x j) (s.respond_only rq tag st fi n d) :)
@[simp] theorem State.respond_weir (rq : Req) (tag st fi n : Nat) (d : List Word64) (j : Nat) : (s.respond rq tag st fi n d).weir j = s.weir j := (congrArg (fun x => State.weir x j) (s.respond_only rq tag st fi n d) :)
@[simp] theorem State.respond_tile (rq : Req) (tag st fi n : Nat) (d : List Word64) (j : Nat) : (s.respond rq tag st fi n d).tile j = s.tile j := (congrArg (fun x => State.tile x j) (s.respond_only rq tag st fi n d) :)
@[simp] theorem State.respond_cluster (rq : Req) (tag st fi n : Nat) (d : List Word64) (j : Nat) : (s.respond rq tag st fi n d).cluster j = s.cluster j := (congrArg (fun x => State.cluster x j) (s.respond_only rq tag st fi n d) :)
@[simp] theorem State.respond_ctx (rq : Req) (tag st fi n : Nat) (d : List Word64) (j : Nat) : (s.respond rq tag st fi n d).ctx j = s.ctx j := (congrArg (fun x => State.ctx x j) (s.respond_only rq tag st fi n d) :)
@[simp] theorem State.respond_qp (rq : Req) (tag st fi n : Nat) (d : List Word64) (j : Nat) : (s.respond rq tag st fi n d).qp j = s.qp j := (congrArg (fun x => State.qp x j) (s.respond_only rq tag st fi n d) :)
@[simp] theorem State.respond_quern (rq : Req) (tag st fi n : Nat) (d : List Word64) (i j : Nat) : (s.respond rq tag st fi n d).quern i j = s.quern i j := (congrArg (fun x => State.quern x i j) (s.respond_only rq tag st fi n d) :)
@[simp] theorem State.respond_leat (rq : Req) (tag st fi n : Nat) (d : List Word64) (i j : Nat) : (s.respond rq tag st fi n d).leat i j = s.leat i j := (congrArg (fun x => State.leat x i j) (s.respond_only rq tag st fi n d) :)
@[simp] theorem State.respond_now (rq : Req) (tag st fi n : Nat) (d : List Word64) : (s.respond rq tag st fi n d).now = s.now := (congrArg (fun x => State.now x) (s.respond_only rq tag st fi n d) :)

/-! ### respondOne -/

@[simp] theorem State.respondOne_pending (rq : Req) (a st : Nat) (d : List Word64) : (s.respondOne rq a st d).pending = s.pending := (congrArg State.pending (s.respondOne_only rq a st d) :)
@[simp] theorem State.respondOne_mill (rq : Req) (a st : Nat) (d : List Word64) : (s.respondOne rq a st d).mill = s.mill := (congrArg State.mill (s.respondOne_only rq a st d) :)
@[simp] theorem State.respondOne_parts (rq : Req) (a st : Nat) (d : List Word64) : (s.respondOne rq a st d).parts = s.parts := (congrArg State.parts (s.respondOne_only rq a st d) :)
@[simp] theorem State.respondOne_stagedFull (rq : Req) (a st : Nat) (d : List Word64) : (s.respondOne rq a st d).stagedFull = s.stagedFull := (congrArg State.stagedFull (s.respondOne_only rq a st d) :)
@[simp] theorem State.respondOne_device (rq : Req) (a st : Nat) (d : List Word64) : (s.respondOne rq a st d).device = s.device := (congrArg State.device (s.respondOne_only rq a st d) :)
@[simp] theorem State.respondOne_stageObj (rq : Req) (a st : Nat) (d : List Word64) : (s.respondOne rq a st d).stageObj = s.stageObj := (congrArg State.stageObj (s.respondOne_only rq a st d) :)
@[simp] theorem State.respondOne_stageLen (rq : Req) (a st : Nat) (d : List Word64) : (s.respondOne rq a st d).stageLen = s.stageLen := (congrArg State.stageLen (s.respondOne_only rq a st d) :)
@[simp] theorem State.respondOne_partLock (rq : Req) (a st : Nat) (d : List Word64) : (s.respondOne rq a st d).partLock = s.partLock := (congrArg State.partLock (s.respondOne_only rq a st d) :)
@[simp] theorem State.respondOne_weirs (rq : Req) (a st : Nat) (d : List Word64) : (s.respondOne rq a st d).weirs = s.weirs := (congrArg State.weirs (s.respondOne_only rq a st d) :)
@[simp] theorem State.respondOne_querns (rq : Req) (a st : Nat) (d : List Word64) : (s.respondOne rq a st d).querns = s.querns := (congrArg State.querns (s.respondOne_only rq a st d) :)
@[simp] theorem State.respondOne_resolves (rq : Req) (a st : Nat) (d : List Word64) : (s.respondOne rq a st d).resolves = s.resolves := (congrArg State.resolves (s.respondOne_only rq a st d) :)
@[simp] theorem State.respondOne_tollFails (rq : Req) (a st : Nat) (d : List Word64) : (s.respondOne rq a st d).tollFails = s.tollFails := (congrArg State.tollFails (s.respondOne_only rq a st d) :)
@[simp] theorem State.respondOne_testNext (rq : Req) (a st : Nat) (d : List Word64) : (s.respondOne rq a st d).testNext = s.testNext := (congrArg State.testNext (s.respondOne_only rq a st d) :)
@[simp] theorem State.respondOne_testResults (rq : Req) (a st : Nat) (d : List Word64) : (s.respondOne rq a st d).testResults = s.testResults := (congrArg State.testResults (s.respondOne_only rq a st d) :)
@[simp] theorem State.respondOne_tiles (rq : Req) (a st : Nat) (d : List Word64) : (s.respondOne rq a st d).tiles = s.tiles := (congrArg State.tiles (s.respondOne_only rq a st d) :)
@[simp] theorem State.respondOne_clusters (rq : Req) (a st : Nat) (d : List Word64) : (s.respondOne rq a st d).clusters = s.clusters := (congrArg State.clusters (s.respondOne_only rq a st d) :)
@[simp] theorem State.respondOne_tollQueue (rq : Req) (a st : Nat) (d : List Word64) : (s.respondOne rq a st d).tollQueue = s.tollQueue := (congrArg State.tollQueue (s.respondOne_only rq a st d) :)
@[simp] theorem State.respondOne_granary (rq : Req) (a st : Nat) (d : List Word64) : (s.respondOne rq a st d).granary = s.granary := (congrArg State.granary (s.respondOne_only rq a st d) :)
@[simp] theorem State.respondOne_hbm (rq : Req) (a st : Nat) (d : List Word64) : (s.respondOne rq a st d).hbm = s.hbm := (congrArg State.hbm (s.respondOne_only rq a st d) :)
@[simp] theorem State.respondOne_pond (rq : Req) (a st : Nat) (d : List Word64) : (s.respondOne rq a st d).pond = s.pond := (congrArg State.pond (s.respondOne_only rq a st d) :)
@[simp] theorem State.respondOne_leats (rq : Req) (a st : Nat) (d : List Word64) : (s.respondOne rq a st d).leats = s.leats := (congrArg State.leats (s.respondOne_only rq a st d) :)
@[simp] theorem State.respondOne_mem (rq : Req) (a st : Nat) (d : List Word64) : (s.respondOne rq a st d).mem = s.mem := (congrArg State.mem (s.respondOne_only rq a st d) :)
@[simp] theorem State.respondOne_ctxs (rq : Req) (a st : Nat) (d : List Word64) : (s.respondOne rq a st d).ctxs = s.ctxs := (congrArg State.ctxs (s.respondOne_only rq a st d) :)
@[simp] theorem State.respondOne_ctxRegs (rq : Req) (a st : Nat) (d : List Word64) : (s.respondOne rq a st d).ctxRegs = s.ctxRegs := (congrArg State.ctxRegs (s.respondOne_only rq a st d) :)
@[simp] theorem State.respondOne_pendingFrees (rq : Req) (a st : Nat) (d : List Word64) : (s.respondOne rq a st d).pendingFrees = s.pendingFrees := (congrArg State.pendingFrees (s.respondOne_only rq a st d) :)
@[simp] theorem State.respondOne_copyJobs (rq : Req) (a st : Nat) (d : List Word64) : (s.respondOne rq a st d).copyJobs = s.copyJobs := (congrArg State.copyJobs (s.respondOne_only rq a st d) :)
@[simp] theorem State.respondOne_qps (rq : Req) (a st : Nat) (d : List Word64) : (s.respondOne rq a st d).qps = s.qps := (congrArg State.qps (s.respondOne_only rq a st d) :)
@[simp] theorem State.respondOne_eth (rq : Req) (a st : Nat) (d : List Word64) : (s.respondOne rq a st d).eth = s.eth := (congrArg State.eth (s.respondOne_only rq a st d) :)
@[simp] theorem State.respondOne_mce (rq : Req) (a st : Nat) (d : List Word64) : (s.respondOne rq a st d).mce = s.mce := (congrArg State.mce (s.respondOne_only rq a st d) :)
@[simp] theorem State.respondOne_life (rq : Req) (a st : Nat) (d : List Word64) : (s.respondOne rq a st d).life = s.life := (congrArg State.life (s.respondOne_only rq a st d) :)
@[simp] theorem State.respondOne_ras (rq : Req) (a st : Nat) (d : List Word64) : (s.respondOne rq a st d).ras = s.ras := (congrArg State.ras (s.respondOne_only rq a st d) :)
@[simp] theorem State.respondOne_pwr (rq : Req) (a st : Nat) (d : List Word64) : (s.respondOne rq a st d).pwr = s.pwr := (congrArg State.pwr (s.respondOne_only rq a st d) :)
@[simp] theorem State.respondOne_selects (rq : Req) (a st : Nat) (d : List Word64) : (s.respondOne rq a st d).selects = s.selects := (congrArg State.selects (s.respondOne_only rq a st d) :)
@[simp] theorem State.respondOne_selFactory (rq : Req) (a st : Nat) (d : List Word64) : (s.respondOne rq a st d).selFactory = s.selFactory := (congrArg State.selFactory (s.respondOne_only rq a st d) :)
@[simp] theorem State.respondOne_selBoard (rq : Req) (a st : Nat) (d : List Word64) : (s.respondOne rq a st d).selBoard = s.selBoard := (congrArg State.selBoard (s.respondOne_only rq a st d) :)
@[simp] theorem State.respondOne_draws (rq : Req) (a st : Nat) (d : List Word64) : (s.respondOne rq a st d).draws = s.draws := (congrArg State.draws (s.respondOne_only rq a st d) :)
@[simp] theorem State.respondOne_part (rq : Req) (a st : Nat) (d : List Word64) (j : Nat) : (s.respondOne rq a st d).part j = s.part j := (congrArg (fun x => State.part x j) (s.respondOne_only rq a st d) :)
@[simp] theorem State.respondOne_weir (rq : Req) (a st : Nat) (d : List Word64) (j : Nat) : (s.respondOne rq a st d).weir j = s.weir j := (congrArg (fun x => State.weir x j) (s.respondOne_only rq a st d) :)
@[simp] theorem State.respondOne_tile (rq : Req) (a st : Nat) (d : List Word64) (j : Nat) : (s.respondOne rq a st d).tile j = s.tile j := (congrArg (fun x => State.tile x j) (s.respondOne_only rq a st d) :)
@[simp] theorem State.respondOne_cluster (rq : Req) (a st : Nat) (d : List Word64) (j : Nat) : (s.respondOne rq a st d).cluster j = s.cluster j := (congrArg (fun x => State.cluster x j) (s.respondOne_only rq a st d) :)
@[simp] theorem State.respondOne_ctx (rq : Req) (a st : Nat) (d : List Word64) (j : Nat) : (s.respondOne rq a st d).ctx j = s.ctx j := (congrArg (fun x => State.ctx x j) (s.respondOne_only rq a st d) :)
@[simp] theorem State.respondOne_qp (rq : Req) (a st : Nat) (d : List Word64) (j : Nat) : (s.respondOne rq a st d).qp j = s.qp j := (congrArg (fun x => State.qp x j) (s.respondOne_only rq a st d) :)
@[simp] theorem State.respondOne_quern (rq : Req) (a st : Nat) (d : List Word64) (i j : Nat) : (s.respondOne rq a st d).quern i j = s.quern i j := (congrArg (fun x => State.quern x i j) (s.respondOne_only rq a st d) :)
@[simp] theorem State.respondOne_leat (rq : Req) (a st : Nat) (d : List Word64) (i j : Nat) : (s.respondOne rq a st d).leat i j = s.leat i j := (congrArg (fun x => State.leat x i j) (s.respondOne_only rq a st d) :)
@[simp] theorem State.respondOne_now (rq : Req) (a st : Nat) (d : List Word64) : (s.respondOne rq a st d).now = s.now := (congrArg (fun x => State.now x) (s.respondOne_only rq a st d) :)

/-! ### ack -/

@[simp] theorem State.ack_pending (n code : Nat) (b : List Byte) : (s.ack n code b).pending = s.pending := (congrArg State.pending (s.ack_only n code b) :)
@[simp] theorem State.ack_mill (n code : Nat) (b : List Byte) : (s.ack n code b).mill = s.mill := (congrArg State.mill (s.ack_only n code b) :)
@[simp] theorem State.ack_parts (n code : Nat) (b : List Byte) : (s.ack n code b).parts = s.parts := (congrArg State.parts (s.ack_only n code b) :)
@[simp] theorem State.ack_stagedFull (n code : Nat) (b : List Byte) : (s.ack n code b).stagedFull = s.stagedFull := (congrArg State.stagedFull (s.ack_only n code b) :)
@[simp] theorem State.ack_device (n code : Nat) (b : List Byte) : (s.ack n code b).device = s.device := (congrArg State.device (s.ack_only n code b) :)
@[simp] theorem State.ack_stageObj (n code : Nat) (b : List Byte) : (s.ack n code b).stageObj = s.stageObj := (congrArg State.stageObj (s.ack_only n code b) :)
@[simp] theorem State.ack_stageLen (n code : Nat) (b : List Byte) : (s.ack n code b).stageLen = s.stageLen := (congrArg State.stageLen (s.ack_only n code b) :)
@[simp] theorem State.ack_partLock (n code : Nat) (b : List Byte) : (s.ack n code b).partLock = s.partLock := (congrArg State.partLock (s.ack_only n code b) :)
@[simp] theorem State.ack_weirs (n code : Nat) (b : List Byte) : (s.ack n code b).weirs = s.weirs := (congrArg State.weirs (s.ack_only n code b) :)
@[simp] theorem State.ack_querns (n code : Nat) (b : List Byte) : (s.ack n code b).querns = s.querns := (congrArg State.querns (s.ack_only n code b) :)
@[simp] theorem State.ack_resolves (n code : Nat) (b : List Byte) : (s.ack n code b).resolves = s.resolves := (congrArg State.resolves (s.ack_only n code b) :)
@[simp] theorem State.ack_tollFails (n code : Nat) (b : List Byte) : (s.ack n code b).tollFails = s.tollFails := (congrArg State.tollFails (s.ack_only n code b) :)
@[simp] theorem State.ack_testNext (n code : Nat) (b : List Byte) : (s.ack n code b).testNext = s.testNext := (congrArg State.testNext (s.ack_only n code b) :)
@[simp] theorem State.ack_testResults (n code : Nat) (b : List Byte) : (s.ack n code b).testResults = s.testResults := (congrArg State.testResults (s.ack_only n code b) :)
@[simp] theorem State.ack_tiles (n code : Nat) (b : List Byte) : (s.ack n code b).tiles = s.tiles := (congrArg State.tiles (s.ack_only n code b) :)
@[simp] theorem State.ack_clusters (n code : Nat) (b : List Byte) : (s.ack n code b).clusters = s.clusters := (congrArg State.clusters (s.ack_only n code b) :)
@[simp] theorem State.ack_tollQueue (n code : Nat) (b : List Byte) : (s.ack n code b).tollQueue = s.tollQueue := (congrArg State.tollQueue (s.ack_only n code b) :)
@[simp] theorem State.ack_granary (n code : Nat) (b : List Byte) : (s.ack n code b).granary = s.granary := (congrArg State.granary (s.ack_only n code b) :)
@[simp] theorem State.ack_hbm (n code : Nat) (b : List Byte) : (s.ack n code b).hbm = s.hbm := (congrArg State.hbm (s.ack_only n code b) :)
@[simp] theorem State.ack_pond (n code : Nat) (b : List Byte) : (s.ack n code b).pond = s.pond := (congrArg State.pond (s.ack_only n code b) :)
@[simp] theorem State.ack_leats (n code : Nat) (b : List Byte) : (s.ack n code b).leats = s.leats := (congrArg State.leats (s.ack_only n code b) :)
@[simp] theorem State.ack_mem (n code : Nat) (b : List Byte) : (s.ack n code b).mem = s.mem := (congrArg State.mem (s.ack_only n code b) :)
@[simp] theorem State.ack_ctxs (n code : Nat) (b : List Byte) : (s.ack n code b).ctxs = s.ctxs := (congrArg State.ctxs (s.ack_only n code b) :)
@[simp] theorem State.ack_ctxRegs (n code : Nat) (b : List Byte) : (s.ack n code b).ctxRegs = s.ctxRegs := (congrArg State.ctxRegs (s.ack_only n code b) :)
@[simp] theorem State.ack_pendingFrees (n code : Nat) (b : List Byte) : (s.ack n code b).pendingFrees = s.pendingFrees := (congrArg State.pendingFrees (s.ack_only n code b) :)
@[simp] theorem State.ack_copyJobs (n code : Nat) (b : List Byte) : (s.ack n code b).copyJobs = s.copyJobs := (congrArg State.copyJobs (s.ack_only n code b) :)
@[simp] theorem State.ack_qps (n code : Nat) (b : List Byte) : (s.ack n code b).qps = s.qps := (congrArg State.qps (s.ack_only n code b) :)
@[simp] theorem State.ack_eth (n code : Nat) (b : List Byte) : (s.ack n code b).eth = s.eth := (congrArg State.eth (s.ack_only n code b) :)
@[simp] theorem State.ack_board (n code : Nat) (b : List Byte) : (s.ack n code b).board = s.board := (congrArg State.board (s.ack_only n code b) :)
@[simp] theorem State.ack_mce (n code : Nat) (b : List Byte) : (s.ack n code b).mce = s.mce := (congrArg State.mce (s.ack_only n code b) :)
@[simp] theorem State.ack_life (n code : Nat) (b : List Byte) : (s.ack n code b).life = s.life := (congrArg State.life (s.ack_only n code b) :)
@[simp] theorem State.ack_ras (n code : Nat) (b : List Byte) : (s.ack n code b).ras = s.ras := (congrArg State.ras (s.ack_only n code b) :)
@[simp] theorem State.ack_pwr (n code : Nat) (b : List Byte) : (s.ack n code b).pwr = s.pwr := (congrArg State.pwr (s.ack_only n code b) :)
@[simp] theorem State.ack_selects (n code : Nat) (b : List Byte) : (s.ack n code b).selects = s.selects := (congrArg State.selects (s.ack_only n code b) :)
@[simp] theorem State.ack_selFactory (n code : Nat) (b : List Byte) : (s.ack n code b).selFactory = s.selFactory := (congrArg State.selFactory (s.ack_only n code b) :)
@[simp] theorem State.ack_selBoard (n code : Nat) (b : List Byte) : (s.ack n code b).selBoard = s.selBoard := (congrArg State.selBoard (s.ack_only n code b) :)
@[simp] theorem State.ack_draws (n code : Nat) (b : List Byte) : (s.ack n code b).draws = s.draws := (congrArg State.draws (s.ack_only n code b) :)
@[simp] theorem State.ack_part (n code : Nat) (b : List Byte) (j : Nat) : (s.ack n code b).part j = s.part j := (congrArg (fun x => State.part x j) (s.ack_only n code b) :)
@[simp] theorem State.ack_weir (n code : Nat) (b : List Byte) (j : Nat) : (s.ack n code b).weir j = s.weir j := (congrArg (fun x => State.weir x j) (s.ack_only n code b) :)
@[simp] theorem State.ack_tile (n code : Nat) (b : List Byte) (j : Nat) : (s.ack n code b).tile j = s.tile j := (congrArg (fun x => State.tile x j) (s.ack_only n code b) :)
@[simp] theorem State.ack_cluster (n code : Nat) (b : List Byte) (j : Nat) : (s.ack n code b).cluster j = s.cluster j := (congrArg (fun x => State.cluster x j) (s.ack_only n code b) :)
@[simp] theorem State.ack_ctx (n code : Nat) (b : List Byte) (j : Nat) : (s.ack n code b).ctx j = s.ctx j := (congrArg (fun x => State.ctx x j) (s.ack_only n code b) :)
@[simp] theorem State.ack_qp (n code : Nat) (b : List Byte) (j : Nat) : (s.ack n code b).qp j = s.qp j := (congrArg (fun x => State.qp x j) (s.ack_only n code b) :)
@[simp] theorem State.ack_quern (n code : Nat) (b : List Byte) (i j : Nat) : (s.ack n code b).quern i j = s.quern i j := (congrArg (fun x => State.quern x i j) (s.ack_only n code b) :)
@[simp] theorem State.ack_leat (n code : Nat) (b : List Byte) (i j : Nat) : (s.ack n code b).leat i j = s.leat i j := (congrArg (fun x => State.leat x i j) (s.ack_only n code b) :)
@[simp] theorem State.ack_now (n code : Nat) (b : List Byte) : (s.ack n code b).now = s.now := (congrArg (fun x => State.now x) (s.ack_only n code b) :)

end Sys2Proof.Machine
end

