-- ==== Sys2Proof/WellFormed.lean ====
section
/-! DEFINITION. Which commands are well-formed: every operand lies in the range the spec gives the thing it names. The
meanings are total and never ask for it; an index outside the device names nothing. -/
namespace Sys2Proof
open Sys2Proof.Machine

/-- SESSION values are 32 bits wide (Table 11.1). -/
def Machine.Req.wf : Req → Bool
  | .session id => decide (0 < id) && decide (id < 4294967296)
  | .factory => true
  | .board => true

/-- The fields of an Ihlak header in their widths (Table 11.1), on one of the nine ports. -/
def Machine.Pkt.wf (p : Pkt) : Bool :=
  decide (p.port < 9) && decide (p.type < 256) && decide (p.part < 256) && decide (p.session < 4294967296)
    && decide (p.sender < 4294967296) && decide (p.length < 65536) && decide (p.seq < 18446744073709551616)

def Machine.MemWord.wf : MemWord → Bool
  | .cell t m r => decide (t < 512) && decide (m < 6) && decide (m ≠ 3) && decide (r < 1048576)
  | .scratch t a => decide (t < 512) && decide (a < 1048576)
  | .sram c a => decide (c < 64) && decide (a < 16777216)
  | .granary s a => decide (s < 64) && decide (a < 100663296)
  | .ctrl c a => decide (c < 64) && decide (a < 1048576)
  | .sync p i => decide (p < 16) && decide (i < 65536)
  | .hbm l => decide (l < 4831838208)
  | .pond l => decide (l < 1099511627776)

/-- The places a hardware check names. -/
def Machine.HwCheck.wf : HwCheck → Bool
  | .ok => true
  | .corrected w bit => w.wf && decide (bit < 256)
  | .uncorrectable memory _ _ bit => decide (memory < 9) && decide (bit < 256)
  | .rowFail => true
  | .residue => true
  | .residueAgain => true
  | .column _ v n _ rhoE => decide (v < 128) && decide (n < 32) && decide (rhoE < 65535)

def Machine.SignalSrc.wf : SignalSrc → Bool
  | .tile t => decide (t < 512)
  | .core c => decide (c < 64)
  | .leat c k => decide (c < 64) && decide (k < 16)
  | .quern p d => decide (p < 16) && decide (d < 8)
  | .host x q => decide (x < 4096) && decide (q < 8)
  | .collective p => decide (p < 16)

def Machine.Waiter.wf : Waiter → Bool
  | .tile t => decide (t < 512)
  | .queue x q => decide (x < 4096) && decide (q < 8)

def Machine.MillDest.wf : MillDest → Bool
  | .cluster c => decide (c < 64)
  | .granary s => decide (s < 64)
  | .hbmSet n => decide (n < 64)
  | .pond _ => true
  | .port k => decide (k < 9)
  | .control => true

def Machine.MillSrc.wf : MillSrc → Bool
  | .part p x => decide (p < 16) && decide (x < 4096)
  | _ => true

def Machine.PkgLink.wf : PkgLink → Bool
  | .ring d => decide (d < 8)
  | .chord d => decide (d < 8)
  | .io d => decide (d < 8)
  | .ctrl d => decide (d < 8)

def Machine.PtpMeas.wf (m : PtpMeas) : Bool := decide (m.port < 9) && decide (m.kind < 3)

def Machine.RoceReq.wf (r : RoceReq) : Bool :=
  decide (r.qp < 8192) && decide (r.psn < 16777216) && decide (r.port < 9) && decide (r.rkey < 4294967296)

def Machine.SubId.wf (c : SubId) : Bool := decide (c.port < 9) && decide (c.sub < 8)

def Machine.MkaMsg.wf (m : MkaMsg) : Bool := decide (m.priority < 256) && decide (m.sub < 8)

def Machine.LeafVote.wf (v : LeafVote) : Bool := decide (v.die < 8) && decide (v.shard < 65536)

/-- A command whose operands name things that exist. -/
def Instr.wf : Instr → Bool
  | .regWrite rq addr _ => rq.wf && decide (addr < 1099511627776)
  | .lockSet rq _ => rq.wf
  | .counterRead rq addr => rq.wf && decide (addr < 1099511627776)
  | .regRd p => p.wf
  | .regWr p => p.wf
  | .ihlakInvalid p => p.wf
  | .stage rq => rq.wf
  | .bind rq => rq.wf
  | .unbind rq => rq.wf
  | .rebind rq => rq.wf
  | .discard rq => rq.wf
  | .drainComplete part => decide (part < 16)
  | .drainLimitExpiry part => decide (part < 16)
  | .scrubComplete part => decide (part < 16)
  | .retireComplete part => decide (part < 16)
  | .keyDestroyTimeout kid => decide (kid < 64)
  | .loadComplete part => decide (part < 16)
  | .millracePacket src die dst => src.wf && decide (die < 11) && dst.wf
  | .linkFrameAuthFail link => link.wf
  | .ptpSync m => m.wf
  | .ptpUnsupported port => decide (port < 9)
  | .ptpHoldover => true
  | .ppsInEdge => true
  | .ppsOutEdge => true
  | .revolutionStart part => decide (part < 16)
  | .leaseExpiry part => decide (part < 16)
  | .phaseStart part entry => decide (part < 16) && decide (entry < 4096)
  | .heldPhaseStart part entry => decide (part < 16) && decide (entry < 4096)
  | .collectiveWindow part entry => decide (part < 16) && decide (entry < 4096)
  | .windowClose part entry => decide (part < 16) && decide (entry < 4096)
  | .queueScan part entry => decide (part < 16) && decide (entry < 4096)
  | .leaseCheck part entry => decide (part < 16) && decide (entry < 4096)
  | .digestCompare part entry => decide (part < 16) && decide (entry < 4096)
  | .testSlot part entry => decide (part < 16) && decide (entry < 4096)
  | .versionRelease part entry => decide (part < 16) && decide (entry < 4096)
  | .powerHint part entry => decide (part < 16) && decide (entry < 4096)
  | .hintLapse part => decide (part < 16)
  | .deadlineMiss part entry => decide (part < 16) && decide (entry < 4096)
  | .brakeComplete part => decide (part < 16)
  | .brakeNFall => true
  | .release rq => rq.wf
  | .halt rq => rq.wf
  | .abort rq => rq.wf
  | .topLoStore cluster _ => decide (cluster < 64)
  | .topHiStore cluster _ => decide (cluster < 64)
  | .topEnqueue cluster => decide (cluster < 64)
  | .topDispatch tile => decide (tile < 512)
  | .nop tile => decide (tile < 512)
  | .mma tile hw => decide (tile < 512) && hw.wf
  | .weightLoadDone tile hw => decide (tile < 512) && hw.wf
  | .mmaComplete tile hw => decide (tile < 512) && hw.wf
  | .load tile => decide (tile < 512)
  | .store tile => decide (tile < 512)
  | .transferComplete tile hw => decide (tile < 512) && hw.wf
  | .drainReg tile => decide (tile < 512)
  | .drainMem tile => decide (tile < 512)
  | .drainTin tile => decide (tile < 512)
  | .drainDiscard tile => decide (tile < 512)
  | .drainCompleteTop tile hw => decide (tile < 512) && hw.wf
  | .tinCvt tile => decide (tile < 512)
  | .tollAlloc tile => decide (tile < 512)
  | .tollFree tile => decide (tile < 512)
  | .tollServe => true
  | .wait tile => decide (tile < 512)
  | .signal tile => decide (tile < 512)
  | .fence tile => decide (tile < 512)
  | .fenceComplete tile => decide (tile < 512)
  | .add tile => decide (tile < 512)
  | .sub tile => decide (tile < 512)
  | .mul tile => decide (tile < 512)
  | .fma tile => decide (tile < 512)
  | .fnma tile => decide (tile < 512)
  | .aff tile => decide (tile < 512)
  | .mull tile => decide (tile < 512)
  | .fmal tile => decide (tile < 512)
  | .vmin tile => decide (tile < 512)
  | .vmax tile => decide (tile < 512)
  | .vabs tile => decide (tile < 512)
  | .vneg tile => decide (tile < 512)
  | .cmpgt tile => decide (tile < 512)
  | .vsel tile => decide (tile < 512)
  | .mov tile => decide (tile < 512)
  | .fill tile => decide (tile < 512)
  | .movt tile => decide (tile < 512)
  | .rcp tile => decide (tile < 512)
  | .sqrt tile => decide (tile < 512)
  | .rsqrt tile => decide (tile < 512)
  | .exp tile => decide (tile < 512)
  | .exp2 tile => decide (tile < 512)
  | .log tile => decide (tile < 512)
  | .log2 tile => decide (tile < 512)
  | .tanh tile => decide (tile < 512)
  | .sigmoid tile => decide (tile < 512)
  | .erf tile => decide (tile < 512)
  | .rsum tile => decide (tile < 512)
  | .rsumsq tile => decide (tile < 512)
  | .rdot tile => decide (tile < 512)
  | .rmax tile => decide (tile < 512)
  | .rmin tile => decide (tile < 512)
  | .ramax tile => decide (tile < 512)
  | .iadd tile => decide (tile < 512)
  | .isub tile => decide (tile < 512)
  | .iand tile => decide (tile < 512)
  | .ior tile => decide (tile < 512)
  | .ixor tile => decide (tile < 512)
  | .ishl tile => decide (tile < 512)
  | .ishr tile => decide (tile < 512)
  | .ilsr tile => decide (tile < 512)
  | .cvt tile => decide (tile < 512)
  | .srSet tile => decide (tile < 512)
  | .srKeyReady cluster => decide (cluster < 64)
  | .statRead tile => decide (tile < 512)
  | .vecComplete tile hw => decide (tile < 512) && hw.wf
  | .phaseDone cluster => decide (cluster < 64)
  | .coreTrap cluster cause _ => decide (cluster < 64) && decide (cause < 65536)
  | .resumeStore cluster mask => decide (cluster < 64) && decide (mask < 256)
  | .coreHalt rq _ => rq.wf
  | .coreResume rq => rq.wf
  | .syncSignal src idx _ => src.wf && decide (idx < 16384)
  | .waitRelease w => w.wf
  | .quernIngest part die shard hw => decide (part < 16) && decide (die < 8) && decide (shard < 65536) && hw.wf
  | .ingestComplete part die shard => decide (part < 16) && decide (die < 8) && decide (shard < 65536)
  | .ruleLatch part die => decide (part < 16) && decide (die < 8)
  | .quernSweep part die hw => decide (part < 16) && decide (die < 8) && hw.wf
  | .sweepComplete part die => decide (part < 16) && decide (die < 8)
  | .flipPass part die => decide (part < 16) && decide (die < 8)
  | .flipComplete part die => decide (part < 16) && decide (die < 8)
  | .laggedSweep part die group hw => decide (part < 16) && decide (die < 8) && decide (group < 64) && hw.wf
  | .laggedCommit part die group => decide (part < 16) && decide (die < 8) && decide (group < 64)
  | .qrnLoad rq => rq.wf
  | .qrnUnload rq => rq.wf
  | .memFree rq handle => rq.wf && decide (handle < 4294967296)
  | .uFree rq ctx handle => rq.wf && decide (ctx < 4096) && decide (handle < 4294967296)
  | .freeComplete ctx index => decide (ctx < 4096) && decide (index < 1048576)
  | .leatPassStart cluster k => decide (cluster < 64) && decide (k < 16)
  | .leatSegmentIssue cluster k => decide (cluster < 64) && decide (k < 16)
  | .leatSegmentDone cluster k => decide (cluster < 64) && decide (k < 16)
  | .leatPassEnd cluster k => decide (cluster < 64) && decide (k < 16)
  | .weirLoad rq => rq.wf
  | .weirUnload rq => rq.wf
  | .promote rq => rq.wf
  | .readmit rq => rq.wf
  | .collectiveStart part coll => decide (part < 16) && decide (coll < 65536)
  | .collChunk p => p.wf
  | .collCredit p => p.wf
  | .collNack p => p.wf
  | .collAck p => p.wf
  | .creditReturn session => decide (session < 4294967296)
  | .weirMessage p => p.wf
  | .rootWaitExpiry part idx => decide (part < 16) && decide (idx < 16384)
  | .weirNodeEcc part idx => decide (part < 16) && decide (idx < 16384)
  | .leafRecomputeDone part vote => decide (part < 16) && vote.wf
  | .rdmaWrite r => r.wf
  | .rdmaRead r => r.wf
  | .roceUnsupported qp psn => decide (qp < 8192) && decide (psn < 16777216)
  | .roceAck qp psn nak => decide (qp < 8192) && decide (psn < 16777216) && decide (nak < 256)
  | .roceCnp qp => decide (qp < 8192)
  | .roceRateRecover qp => decide (qp < 8192)
  | .roceRetransmit qp => decide (qp < 8192)
  | .cmdNop ctx queue => decide (ctx < 4096) && decide (queue < 8)
  | .cmdAlloc ctx queue => decide (ctx < 4096) && decide (queue < 8)
  | .cmdFree ctx queue => decide (ctx < 4096) && decide (queue < 8)
  | .cmdCopy ctx queue => decide (ctx < 4096) && decide (queue < 8)
  | .cmdWait ctx queue => decide (ctx < 4096) && decide (queue < 8)
  | .cmdWaitTimeout ctx queue => decide (ctx < 4096) && decide (queue < 8)
  | .cmdSignal ctx queue => decide (ctx < 4096) && decide (queue < 8)
  | .unsealObj ctx queue => decide (ctx < 4096) && decide (queue < 8)
  | .copyEngineComplete => true
  | .eventRecordWrite ctx => decide (ctx < 4096)
  | .create rq => rq.wf
  | .ctxLoad rq => rq.wf
  | .evict rq => rq.wf
  | .evictComplete ctx => decide (ctx < 4096)
  | .ctxEnd rq => rq.wf
  | .destroy rq => rq.wf
  | .connect rq => rq.wf
  | .qpReset rq => rq.wf
  | .sluiceRefused p => p.wf
  | .brake p => p.wf
  | .lease p => p.wf
  | .haltPart p => p.wf
  | .abortCtx p => p.wf
  | .quarantinePort p => p.wf
  | .hello p => p.wf
  | .attest setup => decide (setup < 4294967296)
  | .finish setup p => decide (setup < 4294967296) && p.wf
  | .done setup => decide (setup < 4294967296)
  | .setupTimeout setup => decide (setup < 4294967296)
  | .wrappedKey p => p.wf
  | .approve p => p.wf
  | .close p => p.wf
  | .bcChallengeRead => true
  | .bcResponseWrite _ => true
  | .bcAuthIdle => true
  | .fatalClear _ => true
  | .keyWrite rq => rq.wf
  | .keyErase rq => rq.wf
  | .loadPubkey rq => rq.wf
  | .keyCheckSweep disturbed => disturbed.all (decide <| · < 256)
  | .loadCharter rq => rq.wf
  | .unloadCharter rq => rq.wf
  | .relRequest rq => rq.wf
  | .relRun rq => rq.wf
  | .releaseComplete slot => decide (slot < 16)
  | .relCancel rq => rq.wf
  | .rollover rq => rq.wf
  | .attKeyReady => true
  | .macsecFrame port _ => decide (port < 9)
  | .mkaFrame port m => decide (port < 9) && m.wf
  | .sakRekey ch pn => ch.wf && decide (pn < 18446744073709551616)
  | .macsecLost ch => ch.wf
  | .tamper _ => true
  | .pwrGoodLow => true
  | .resetNLow => true
  | .bootStart => true
  | .firmwareAccepted _ => true
  | .firmwareRejected _ => true
  | .memoryTrained pondGib => decide (pondGib < 65536)
  | .bootReady => true
  | .recoveryReq => true
  | .recoveryData _ _ => true
  | .recoverySourceTimeout => true
  | .transition rq => rq.wf
  | .raiseSvn rq => rq.wf
  | .revokeKey rq => rq.wf
  | .genIdentity rq => rq.wf
  | .identityGenerated => true
  | .lcReset rq => rq.wf
  | .fuseDigest rq => rq.wf
  | .arbitrationStart die => decide (die < 8)
  | .arbitrationDecision die _ _ => decide (die < 8)
  | .patrolRead w _ => w.wf
  | .testSlotComplete tile _ => decide (tile < 512)
  | .retest rq => rq.wf
  | .retestComplete _ => true
  | .wfiAll _ => true
  | .wakeEvent _ => true
  | .domainGate dom => decide (dom < 691)
  | .domainWake dom => decide (dom < 691)
  | .wakeTimeout dom => decide (dom < 691)
  | .voltageSettled die => decide (die < 8)
  | .vrMismatch die mv => decide (die < 8) && decide (mv < 4096)
  | .avsTimeout die => decide (die < 8)
  | .thermalSample die dieQ hbmQ => decide (die < 8) && decide (dieQ < 4096) && decide (hbmQ < 4096)
  | .powerCapWindow watts => decide (watts < 65536)
  | .pmbusPoll _ => true
  | .refLost _ => true
  | .operatorQueueScan => true
  | .brakeNRise => true
  | .pwrGoodRise => true
  | .referenceRestored _ => true
  | .portLinkChange port _ lanes => decide (port < 9) && decide (lanes < 256)
  | .pfcPauseFrame port mask _ => decide (port < 9) && decide (mask < 256)
  | .ptpAnnounce port slave => decide (port < 9) && decide (slave < 16)
  | .ptpFollowUp m => m.wf
  | .ptpDelayReq port => decide (port < 9)
  | .ptpMasterSync port => decide (port < 9)
  | .quantizedLatch => true
  | .entdaa addr => decide (addr < 1099511627776)
  | .attestReceived _ p => p.wf
  | .doneReceived p => p.wf

end Sys2Proof
end

