-- ==== Sys2Proof/Laws/PerInstr.lean ====
section
/-! SUPPORT. What being well-formed says of each command, constructor by constructor: who may send it, and that the tile, the partition and
the context it names exist. -/
namespace Sys2Proof
open Sys2Proof.Machine

/-- The requester a command comes from. -/
def Instr.requester : Instr → Option Req
  | .regWrite x _ _ | .lockSet x _ | .counterRead x _ | .stage x | .bind x | .unbind x | .rebind x | .discard x | .release x
  | .halt x | .abort x | .coreHalt x _ | .coreResume x | .qrnLoad x | .qrnUnload x | .memFree x _ | .uFree x _ _ | .weirLoad x
  | .weirUnload x | .promote x | .readmit x | .create x | .ctxLoad x | .evict x | .ctxEnd x | .destroy x | .connect x
  | .qpReset x | .keyWrite x | .keyErase x | .loadPubkey x | .loadCharter x | .unloadCharter x | .relRequest x | .relRun x
  | .relCancel x | .rollover x | .transition x | .raiseSvn x | .revokeKey x | .genIdentity x | .lcReset x | .fuseDigest x
  | .retest x => some x
  | _ => none

/-- The tile a command names. -/
def Instr.tileNamed : Instr → Option Nat
  | .topDispatch x | .nop x | .mma x _ | .weightLoadDone x _ | .mmaComplete x _ | .load x | .store x | .transferComplete x _
  | .drainReg x | .drainMem x | .drainTin x | .drainDiscard x | .drainCompleteTop x _ | .tinCvt x | .tollAlloc x | .tollFree x
  | .wait x | .signal x | .fence x | .fenceComplete x | .add x | .sub x | .mul x | .fma x | .fnma x | .aff x | .mull x | .fmal x
  | .vmin x | .vmax x | .vabs x | .vneg x | .cmpgt x | .vsel x | .mov x | .fill x | .movt x | .rcp x | .sqrt x | .rsqrt x
  | .exp x | .exp2 x | .log x | .log2 x | .tanh x | .sigmoid x | .erf x | .rsum x | .rsumsq x | .rdot x | .rmax x | .rmin x
  | .ramax x | .iadd x | .isub x | .iand x | .ior x | .ixor x | .ishl x | .ishr x | .ilsr x | .cvt x | .srSet x | .statRead x
  | .vecComplete x _ | .testSlotComplete x _ => some x
  | _ => none

/-- The partition a command names. -/
def Instr.partNamed : Instr → Option Nat
  | .drainComplete x | .drainLimitExpiry x | .scrubComplete x | .retireComplete x | .loadComplete x | .revolutionStart x
  | .leaseExpiry x | .phaseStart x _ | .heldPhaseStart x _ | .collectiveWindow x _ | .windowClose x _ | .queueScan x _
  | .leaseCheck x _ | .digestCompare x _ | .testSlot x _ | .versionRelease x _ | .powerHint x _ | .hintLapse x
  | .deadlineMiss x _ | .brakeComplete x | .quernIngest x _ _ _ | .ingestComplete x _ _ | .ruleLatch x _ | .quernSweep x _ _
  | .sweepComplete x _ | .flipPass x _ | .flipComplete x _ | .laggedSweep x _ _ _ | .laggedCommit x _ _ | .collectiveStart x _
  | .rootWaitExpiry x _ | .weirNodeEcc x _ | .leafRecomputeDone x _ => some x
  | _ => none

namespace Laws.Named

/-- A well-formed command comes from a requester that can exist, and names a tile and a partition of the device. -/
def Statement (i : Instr) : Prop :=
  i.wf = true → (∀ r, i.requester = some r → r.wf = true) ∧ (∀ t, i.tileNamed = some t → t < 512) ∧ (∀ p, i.partNamed = some p → p < 16)

theorem regWrite (a0 : Req) (a1 : Nat) (a2 : Word64) : Statement (.regWrite a0 a1 a2) := fun h => ⟨fun _ e => by cases e; exact (Bool.and_eq_true_iff.mp h).1, nofun, nofun⟩
theorem lockSet (a0 : Req) (a1 : LockBlock) : Statement (.lockSet a0 a1) := fun h => ⟨fun _ e => by cases e; exact h, nofun, nofun⟩
theorem counterRead (a0 : Req) (a1 : Nat) : Statement (.counterRead a0 a1) := fun h => ⟨fun _ e => by cases e; exact (Bool.and_eq_true_iff.mp h).1, nofun, nofun⟩
theorem regRd (a0 : Pkt) : Statement (.regRd a0) := fun _ => ⟨nofun, nofun, nofun⟩
theorem regWr (a0 : Pkt) : Statement (.regWr a0) := fun _ => ⟨nofun, nofun, nofun⟩
theorem ihlakInvalid (a0 : Pkt) : Statement (.ihlakInvalid a0) := fun _ => ⟨nofun, nofun, nofun⟩
theorem stage (a0 : Req) : Statement (.stage a0) := fun h => ⟨fun _ e => by cases e; exact h, nofun, nofun⟩
theorem bind (a0 : Req) : Statement (.bind a0) := fun h => ⟨fun _ e => by cases e; exact h, nofun, nofun⟩
theorem unbind (a0 : Req) : Statement (.unbind a0) := fun h => ⟨fun _ e => by cases e; exact h, nofun, nofun⟩
theorem rebind (a0 : Req) : Statement (.rebind a0) := fun h => ⟨fun _ e => by cases e; exact h, nofun, nofun⟩
theorem discard (a0 : Req) : Statement (.discard a0) := fun h => ⟨fun _ e => by cases e; exact h, nofun, nofun⟩
theorem drainComplete (a0 : Nat) : Statement (.drainComplete a0) := fun h => ⟨nofun, nofun, fun _ e => by cases e; exact of_decide_eq_true h⟩
theorem drainLimitExpiry (a0 : Nat) : Statement (.drainLimitExpiry a0) := fun h => ⟨nofun, nofun, fun _ e => by cases e; exact of_decide_eq_true h⟩
theorem scrubComplete (a0 : Nat) : Statement (.scrubComplete a0) := fun h => ⟨nofun, nofun, fun _ e => by cases e; exact of_decide_eq_true h⟩
theorem retireComplete (a0 : Nat) : Statement (.retireComplete a0) := fun h => ⟨nofun, nofun, fun _ e => by cases e; exact of_decide_eq_true h⟩
theorem keyDestroyTimeout (a0 : Nat) : Statement (.keyDestroyTimeout a0) := fun _ => ⟨nofun, nofun, nofun⟩
theorem loadComplete (a0 : Nat) : Statement (.loadComplete a0) := fun h => ⟨nofun, nofun, fun _ e => by cases e; exact of_decide_eq_true h⟩
theorem millracePacket (a0 : MillSrc) (a1 : Nat) (a2 : MillDest) : Statement (.millracePacket a0 a1 a2) := fun _ => ⟨nofun, nofun, nofun⟩
theorem linkFrameAuthFail (a0 : PkgLink) : Statement (.linkFrameAuthFail a0) := fun _ => ⟨nofun, nofun, nofun⟩
theorem ptpSync (a0 : PtpMeas) : Statement (.ptpSync a0) := fun _ => ⟨nofun, nofun, nofun⟩
theorem ptpUnsupported (a0 : Nat) : Statement (.ptpUnsupported a0) := fun _ => ⟨nofun, nofun, nofun⟩
theorem ptpHoldover : Statement .ptpHoldover := fun _ => ⟨nofun, nofun, nofun⟩
theorem ppsInEdge : Statement .ppsInEdge := fun _ => ⟨nofun, nofun, nofun⟩
theorem ppsOutEdge : Statement .ppsOutEdge := fun _ => ⟨nofun, nofun, nofun⟩
theorem revolutionStart (a0 : Nat) : Statement (.revolutionStart a0) := fun h => ⟨nofun, nofun, fun _ e => by cases e; exact of_decide_eq_true h⟩
theorem leaseExpiry (a0 : Nat) : Statement (.leaseExpiry a0) := fun h => ⟨nofun, nofun, fun _ e => by cases e; exact of_decide_eq_true h⟩
theorem phaseStart (a0 : Nat) (a1 : Nat) : Statement (.phaseStart a0 a1) := fun h => ⟨nofun, nofun, fun _ e => by cases e; exact of_decide_eq_true (Bool.and_eq_true_iff.mp h).1⟩
theorem heldPhaseStart (a0 : Nat) (a1 : Nat) : Statement (.heldPhaseStart a0 a1) := fun h => ⟨nofun, nofun, fun _ e => by cases e; exact of_decide_eq_true (Bool.and_eq_true_iff.mp h).1⟩
theorem collectiveWindow (a0 : Nat) (a1 : Nat) : Statement (.collectiveWindow a0 a1) := fun h => ⟨nofun, nofun, fun _ e => by cases e; exact of_decide_eq_true (Bool.and_eq_true_iff.mp h).1⟩
theorem windowClose (a0 : Nat) (a1 : Nat) : Statement (.windowClose a0 a1) := fun h => ⟨nofun, nofun, fun _ e => by cases e; exact of_decide_eq_true (Bool.and_eq_true_iff.mp h).1⟩
theorem queueScan (a0 : Nat) (a1 : Nat) : Statement (.queueScan a0 a1) := fun h => ⟨nofun, nofun, fun _ e => by cases e; exact of_decide_eq_true (Bool.and_eq_true_iff.mp h).1⟩
theorem leaseCheck (a0 : Nat) (a1 : Nat) : Statement (.leaseCheck a0 a1) := fun h => ⟨nofun, nofun, fun _ e => by cases e; exact of_decide_eq_true (Bool.and_eq_true_iff.mp h).1⟩
theorem digestCompare (a0 : Nat) (a1 : Nat) : Statement (.digestCompare a0 a1) := fun h => ⟨nofun, nofun, fun _ e => by cases e; exact of_decide_eq_true (Bool.and_eq_true_iff.mp h).1⟩
theorem testSlot (a0 : Nat) (a1 : Nat) : Statement (.testSlot a0 a1) := fun h => ⟨nofun, nofun, fun _ e => by cases e; exact of_decide_eq_true (Bool.and_eq_true_iff.mp h).1⟩
theorem versionRelease (a0 : Nat) (a1 : Nat) : Statement (.versionRelease a0 a1) := fun h => ⟨nofun, nofun, fun _ e => by cases e; exact of_decide_eq_true (Bool.and_eq_true_iff.mp h).1⟩
theorem powerHint (a0 : Nat) (a1 : Nat) : Statement (.powerHint a0 a1) := fun h => ⟨nofun, nofun, fun _ e => by cases e; exact of_decide_eq_true (Bool.and_eq_true_iff.mp h).1⟩
theorem hintLapse (a0 : Nat) : Statement (.hintLapse a0) := fun h => ⟨nofun, nofun, fun _ e => by cases e; exact of_decide_eq_true h⟩
theorem deadlineMiss (a0 : Nat) (a1 : Nat) : Statement (.deadlineMiss a0 a1) := fun h => ⟨nofun, nofun, fun _ e => by cases e; exact of_decide_eq_true (Bool.and_eq_true_iff.mp h).1⟩
theorem brakeComplete (a0 : Nat) : Statement (.brakeComplete a0) := fun h => ⟨nofun, nofun, fun _ e => by cases e; exact of_decide_eq_true h⟩
theorem brakeNFall : Statement .brakeNFall := fun _ => ⟨nofun, nofun, nofun⟩
theorem release (a0 : Req) : Statement (.release a0) := fun h => ⟨fun _ e => by cases e; exact h, nofun, nofun⟩
theorem halt (a0 : Req) : Statement (.halt a0) := fun h => ⟨fun _ e => by cases e; exact h, nofun, nofun⟩
theorem abort (a0 : Req) : Statement (.abort a0) := fun h => ⟨fun _ e => by cases e; exact h, nofun, nofun⟩
theorem topLoStore (a0 : Nat) (a1 : Word64) : Statement (.topLoStore a0 a1) := fun _ => ⟨nofun, nofun, nofun⟩
theorem topHiStore (a0 : Nat) (a1 : Word64) : Statement (.topHiStore a0 a1) := fun _ => ⟨nofun, nofun, nofun⟩
theorem topEnqueue (a0 : Nat) : Statement (.topEnqueue a0) := fun _ => ⟨nofun, nofun, nofun⟩
theorem topDispatch (a0 : Nat) : Statement (.topDispatch a0) := fun h => ⟨nofun, fun _ e => by cases e; exact of_decide_eq_true h, nofun⟩
theorem nop (a0 : Nat) : Statement (.nop a0) := fun h => ⟨nofun, fun _ e => by cases e; exact of_decide_eq_true h, nofun⟩
theorem mma (a0 : Nat) (a1 : HwCheck) : Statement (.mma a0 a1) := fun h => ⟨nofun, fun _ e => by cases e; exact of_decide_eq_true (Bool.and_eq_true_iff.mp h).1, nofun⟩
theorem weightLoadDone (a0 : Nat) (a1 : HwCheck) : Statement (.weightLoadDone a0 a1) := fun h => ⟨nofun, fun _ e => by cases e; exact of_decide_eq_true (Bool.and_eq_true_iff.mp h).1, nofun⟩
theorem mmaComplete (a0 : Nat) (a1 : HwCheck) : Statement (.mmaComplete a0 a1) := fun h => ⟨nofun, fun _ e => by cases e; exact of_decide_eq_true (Bool.and_eq_true_iff.mp h).1, nofun⟩
theorem load (a0 : Nat) : Statement (.load a0) := fun h => ⟨nofun, fun _ e => by cases e; exact of_decide_eq_true h, nofun⟩
theorem store (a0 : Nat) : Statement (.store a0) := fun h => ⟨nofun, fun _ e => by cases e; exact of_decide_eq_true h, nofun⟩
theorem transferComplete (a0 : Nat) (a1 : HwCheck) : Statement (.transferComplete a0 a1) := fun h => ⟨nofun, fun _ e => by cases e; exact of_decide_eq_true (Bool.and_eq_true_iff.mp h).1, nofun⟩
theorem drainReg (a0 : Nat) : Statement (.drainReg a0) := fun h => ⟨nofun, fun _ e => by cases e; exact of_decide_eq_true h, nofun⟩
theorem drainMem (a0 : Nat) : Statement (.drainMem a0) := fun h => ⟨nofun, fun _ e => by cases e; exact of_decide_eq_true h, nofun⟩
theorem drainTin (a0 : Nat) : Statement (.drainTin a0) := fun h => ⟨nofun, fun _ e => by cases e; exact of_decide_eq_true h, nofun⟩
theorem drainDiscard (a0 : Nat) : Statement (.drainDiscard a0) := fun h => ⟨nofun, fun _ e => by cases e; exact of_decide_eq_true h, nofun⟩
theorem drainCompleteTop (a0 : Nat) (a1 : HwCheck) : Statement (.drainCompleteTop a0 a1) := fun h => ⟨nofun, fun _ e => by cases e; exact of_decide_eq_true (Bool.and_eq_true_iff.mp h).1, nofun⟩
theorem tinCvt (a0 : Nat) : Statement (.tinCvt a0) := fun h => ⟨nofun, fun _ e => by cases e; exact of_decide_eq_true h, nofun⟩
theorem tollAlloc (a0 : Nat) : Statement (.tollAlloc a0) := fun h => ⟨nofun, fun _ e => by cases e; exact of_decide_eq_true h, nofun⟩
theorem tollFree (a0 : Nat) : Statement (.tollFree a0) := fun h => ⟨nofun, fun _ e => by cases e; exact of_decide_eq_true h, nofun⟩
theorem tollServe : Statement .tollServe := fun _ => ⟨nofun, nofun, nofun⟩
theorem wait (a0 : Nat) : Statement (.wait a0) := fun h => ⟨nofun, fun _ e => by cases e; exact of_decide_eq_true h, nofun⟩
theorem signal (a0 : Nat) : Statement (.signal a0) := fun h => ⟨nofun, fun _ e => by cases e; exact of_decide_eq_true h, nofun⟩
theorem fence (a0 : Nat) : Statement (.fence a0) := fun h => ⟨nofun, fun _ e => by cases e; exact of_decide_eq_true h, nofun⟩
theorem fenceComplete (a0 : Nat) : Statement (.fenceComplete a0) := fun h => ⟨nofun, fun _ e => by cases e; exact of_decide_eq_true h, nofun⟩
theorem add (a0 : Nat) : Statement (.add a0) := fun h => ⟨nofun, fun _ e => by cases e; exact of_decide_eq_true h, nofun⟩
theorem sub (a0 : Nat) : Statement (.sub a0) := fun h => ⟨nofun, fun _ e => by cases e; exact of_decide_eq_true h, nofun⟩
theorem mul (a0 : Nat) : Statement (.mul a0) := fun h => ⟨nofun, fun _ e => by cases e; exact of_decide_eq_true h, nofun⟩
theorem fma (a0 : Nat) : Statement (.fma a0) := fun h => ⟨nofun, fun _ e => by cases e; exact of_decide_eq_true h, nofun⟩
theorem fnma (a0 : Nat) : Statement (.fnma a0) := fun h => ⟨nofun, fun _ e => by cases e; exact of_decide_eq_true h, nofun⟩
theorem aff (a0 : Nat) : Statement (.aff a0) := fun h => ⟨nofun, fun _ e => by cases e; exact of_decide_eq_true h, nofun⟩
theorem mull (a0 : Nat) : Statement (.mull a0) := fun h => ⟨nofun, fun _ e => by cases e; exact of_decide_eq_true h, nofun⟩
theorem fmal (a0 : Nat) : Statement (.fmal a0) := fun h => ⟨nofun, fun _ e => by cases e; exact of_decide_eq_true h, nofun⟩
theorem vmin (a0 : Nat) : Statement (.vmin a0) := fun h => ⟨nofun, fun _ e => by cases e; exact of_decide_eq_true h, nofun⟩
theorem vmax (a0 : Nat) : Statement (.vmax a0) := fun h => ⟨nofun, fun _ e => by cases e; exact of_decide_eq_true h, nofun⟩
theorem vabs (a0 : Nat) : Statement (.vabs a0) := fun h => ⟨nofun, fun _ e => by cases e; exact of_decide_eq_true h, nofun⟩
theorem vneg (a0 : Nat) : Statement (.vneg a0) := fun h => ⟨nofun, fun _ e => by cases e; exact of_decide_eq_true h, nofun⟩
theorem cmpgt (a0 : Nat) : Statement (.cmpgt a0) := fun h => ⟨nofun, fun _ e => by cases e; exact of_decide_eq_true h, nofun⟩
theorem vsel (a0 : Nat) : Statement (.vsel a0) := fun h => ⟨nofun, fun _ e => by cases e; exact of_decide_eq_true h, nofun⟩
theorem mov (a0 : Nat) : Statement (.mov a0) := fun h => ⟨nofun, fun _ e => by cases e; exact of_decide_eq_true h, nofun⟩
theorem fill (a0 : Nat) : Statement (.fill a0) := fun h => ⟨nofun, fun _ e => by cases e; exact of_decide_eq_true h, nofun⟩
theorem movt (a0 : Nat) : Statement (.movt a0) := fun h => ⟨nofun, fun _ e => by cases e; exact of_decide_eq_true h, nofun⟩
theorem rcp (a0 : Nat) : Statement (.rcp a0) := fun h => ⟨nofun, fun _ e => by cases e; exact of_decide_eq_true h, nofun⟩
theorem sqrt (a0 : Nat) : Statement (.sqrt a0) := fun h => ⟨nofun, fun _ e => by cases e; exact of_decide_eq_true h, nofun⟩
theorem rsqrt (a0 : Nat) : Statement (.rsqrt a0) := fun h => ⟨nofun, fun _ e => by cases e; exact of_decide_eq_true h, nofun⟩
theorem exp (a0 : Nat) : Statement (.exp a0) := fun h => ⟨nofun, fun _ e => by cases e; exact of_decide_eq_true h, nofun⟩
theorem exp2 (a0 : Nat) : Statement (.exp2 a0) := fun h => ⟨nofun, fun _ e => by cases e; exact of_decide_eq_true h, nofun⟩
theorem log (a0 : Nat) : Statement (.log a0) := fun h => ⟨nofun, fun _ e => by cases e; exact of_decide_eq_true h, nofun⟩
theorem log2 (a0 : Nat) : Statement (.log2 a0) := fun h => ⟨nofun, fun _ e => by cases e; exact of_decide_eq_true h, nofun⟩
theorem tanh (a0 : Nat) : Statement (.tanh a0) := fun h => ⟨nofun, fun _ e => by cases e; exact of_decide_eq_true h, nofun⟩
theorem sigmoid (a0 : Nat) : Statement (.sigmoid a0) := fun h => ⟨nofun, fun _ e => by cases e; exact of_decide_eq_true h, nofun⟩
theorem erf (a0 : Nat) : Statement (.erf a0) := fun h => ⟨nofun, fun _ e => by cases e; exact of_decide_eq_true h, nofun⟩
theorem rsum (a0 : Nat) : Statement (.rsum a0) := fun h => ⟨nofun, fun _ e => by cases e; exact of_decide_eq_true h, nofun⟩
theorem rsumsq (a0 : Nat) : Statement (.rsumsq a0) := fun h => ⟨nofun, fun _ e => by cases e; exact of_decide_eq_true h, nofun⟩
theorem rdot (a0 : Nat) : Statement (.rdot a0) := fun h => ⟨nofun, fun _ e => by cases e; exact of_decide_eq_true h, nofun⟩
theorem rmax (a0 : Nat) : Statement (.rmax a0) := fun h => ⟨nofun, fun _ e => by cases e; exact of_decide_eq_true h, nofun⟩
theorem rmin (a0 : Nat) : Statement (.rmin a0) := fun h => ⟨nofun, fun _ e => by cases e; exact of_decide_eq_true h, nofun⟩
theorem ramax (a0 : Nat) : Statement (.ramax a0) := fun h => ⟨nofun, fun _ e => by cases e; exact of_decide_eq_true h, nofun⟩
theorem iadd (a0 : Nat) : Statement (.iadd a0) := fun h => ⟨nofun, fun _ e => by cases e; exact of_decide_eq_true h, nofun⟩
theorem isub (a0 : Nat) : Statement (.isub a0) := fun h => ⟨nofun, fun _ e => by cases e; exact of_decide_eq_true h, nofun⟩
theorem iand (a0 : Nat) : Statement (.iand a0) := fun h => ⟨nofun, fun _ e => by cases e; exact of_decide_eq_true h, nofun⟩
theorem ior (a0 : Nat) : Statement (.ior a0) := fun h => ⟨nofun, fun _ e => by cases e; exact of_decide_eq_true h, nofun⟩
theorem ixor (a0 : Nat) : Statement (.ixor a0) := fun h => ⟨nofun, fun _ e => by cases e; exact of_decide_eq_true h, nofun⟩
theorem ishl (a0 : Nat) : Statement (.ishl a0) := fun h => ⟨nofun, fun _ e => by cases e; exact of_decide_eq_true h, nofun⟩
theorem ishr (a0 : Nat) : Statement (.ishr a0) := fun h => ⟨nofun, fun _ e => by cases e; exact of_decide_eq_true h, nofun⟩
theorem ilsr (a0 : Nat) : Statement (.ilsr a0) := fun h => ⟨nofun, fun _ e => by cases e; exact of_decide_eq_true h, nofun⟩
theorem cvt (a0 : Nat) : Statement (.cvt a0) := fun h => ⟨nofun, fun _ e => by cases e; exact of_decide_eq_true h, nofun⟩
theorem srSet (a0 : Nat) : Statement (.srSet a0) := fun h => ⟨nofun, fun _ e => by cases e; exact of_decide_eq_true h, nofun⟩
theorem srKeyReady (a0 : Nat) : Statement (.srKeyReady a0) := fun _ => ⟨nofun, nofun, nofun⟩
theorem statRead (a0 : Nat) : Statement (.statRead a0) := fun h => ⟨nofun, fun _ e => by cases e; exact of_decide_eq_true h, nofun⟩
theorem vecComplete (a0 : Nat) (a1 : HwCheck) : Statement (.vecComplete a0 a1) := fun h => ⟨nofun, fun _ e => by cases e; exact of_decide_eq_true (Bool.and_eq_true_iff.mp h).1, nofun⟩
theorem phaseDone (a0 : Nat) : Statement (.phaseDone a0) := fun _ => ⟨nofun, nofun, nofun⟩
theorem coreTrap (a0 : Nat) (a1 : Nat) (a2 : Word64) : Statement (.coreTrap a0 a1 a2) := fun _ => ⟨nofun, nofun, nofun⟩
theorem resumeStore (a0 : Nat) (a1 : Nat) : Statement (.resumeStore a0 a1) := fun _ => ⟨nofun, nofun, nofun⟩
theorem coreHalt (a0 : Req) (a1 : Word64) : Statement (.coreHalt a0 a1) := fun h => ⟨fun _ e => by cases e; exact h, nofun, nofun⟩
theorem coreResume (a0 : Req) : Statement (.coreResume a0) := fun h => ⟨fun _ e => by cases e; exact h, nofun, nofun⟩
theorem syncSignal (a0 : SignalSrc) (a1 : Nat) (a2 : Word64) : Statement (.syncSignal a0 a1 a2) := fun _ => ⟨nofun, nofun, nofun⟩
theorem waitRelease (a0 : Waiter) : Statement (.waitRelease a0) := fun _ => ⟨nofun, nofun, nofun⟩
theorem quernIngest (a0 : Nat) (a1 : Nat) (a2 : Nat) (a3 : HwCheck) : Statement (.quernIngest a0 a1 a2 a3) := fun h => ⟨nofun, nofun, fun _ e => by cases e; exact of_decide_eq_true (Bool.and_eq_true_iff.mp (Bool.and_eq_true_iff.mp (Bool.and_eq_true_iff.mp h).1).1).1⟩
theorem ingestComplete (a0 : Nat) (a1 : Nat) (a2 : Nat) : Statement (.ingestComplete a0 a1 a2) := fun h => ⟨nofun, nofun, fun _ e => by cases e; exact of_decide_eq_true (Bool.and_eq_true_iff.mp (Bool.and_eq_true_iff.mp h).1).1⟩
theorem ruleLatch (a0 : Nat) (a1 : Nat) : Statement (.ruleLatch a0 a1) := fun h => ⟨nofun, nofun, fun _ e => by cases e; exact of_decide_eq_true (Bool.and_eq_true_iff.mp h).1⟩
theorem quernSweep (a0 : Nat) (a1 : Nat) (a2 : HwCheck) : Statement (.quernSweep a0 a1 a2) := fun h => ⟨nofun, nofun, fun _ e => by cases e; exact of_decide_eq_true (Bool.and_eq_true_iff.mp (Bool.and_eq_true_iff.mp h).1).1⟩
theorem sweepComplete (a0 : Nat) (a1 : Nat) : Statement (.sweepComplete a0 a1) := fun h => ⟨nofun, nofun, fun _ e => by cases e; exact of_decide_eq_true (Bool.and_eq_true_iff.mp h).1⟩
theorem flipPass (a0 : Nat) (a1 : Nat) : Statement (.flipPass a0 a1) := fun h => ⟨nofun, nofun, fun _ e => by cases e; exact of_decide_eq_true (Bool.and_eq_true_iff.mp h).1⟩
theorem flipComplete (a0 : Nat) (a1 : Nat) : Statement (.flipComplete a0 a1) := fun h => ⟨nofun, nofun, fun _ e => by cases e; exact of_decide_eq_true (Bool.and_eq_true_iff.mp h).1⟩
theorem laggedSweep (a0 : Nat) (a1 : Nat) (a2 : Nat) (a3 : HwCheck) : Statement (.laggedSweep a0 a1 a2 a3) := fun h => ⟨nofun, nofun, fun _ e => by cases e; exact of_decide_eq_true (Bool.and_eq_true_iff.mp (Bool.and_eq_true_iff.mp (Bool.and_eq_true_iff.mp h).1).1).1⟩
theorem laggedCommit (a0 : Nat) (a1 : Nat) (a2 : Nat) : Statement (.laggedCommit a0 a1 a2) := fun h => ⟨nofun, nofun, fun _ e => by cases e; exact of_decide_eq_true (Bool.and_eq_true_iff.mp (Bool.and_eq_true_iff.mp h).1).1⟩
theorem qrnLoad (a0 : Req) : Statement (.qrnLoad a0) := fun h => ⟨fun _ e => by cases e; exact h, nofun, nofun⟩
theorem qrnUnload (a0 : Req) : Statement (.qrnUnload a0) := fun h => ⟨fun _ e => by cases e; exact h, nofun, nofun⟩
theorem memFree (a0 : Req) (a1 : Nat) : Statement (.memFree a0 a1) := fun h => ⟨fun _ e => by cases e; exact (Bool.and_eq_true_iff.mp h).1, nofun, nofun⟩
theorem uFree (a0 : Req) (a1 : Nat) (a2 : Nat) : Statement (.uFree a0 a1 a2) := fun h => ⟨fun _ e => by cases e; exact (Bool.and_eq_true_iff.mp (Bool.and_eq_true_iff.mp h).1).1, nofun, nofun⟩
theorem freeComplete (a0 : Nat) (a1 : Nat) : Statement (.freeComplete a0 a1) := fun _ => ⟨nofun, nofun, nofun⟩
theorem leatPassStart (a0 : Nat) (a1 : Nat) : Statement (.leatPassStart a0 a1) := fun _ => ⟨nofun, nofun, nofun⟩
theorem leatSegmentIssue (a0 : Nat) (a1 : Nat) : Statement (.leatSegmentIssue a0 a1) := fun _ => ⟨nofun, nofun, nofun⟩
theorem leatSegmentDone (a0 : Nat) (a1 : Nat) : Statement (.leatSegmentDone a0 a1) := fun _ => ⟨nofun, nofun, nofun⟩
theorem leatPassEnd (a0 : Nat) (a1 : Nat) : Statement (.leatPassEnd a0 a1) := fun _ => ⟨nofun, nofun, nofun⟩
theorem weirLoad (a0 : Req) : Statement (.weirLoad a0) := fun h => ⟨fun _ e => by cases e; exact h, nofun, nofun⟩
theorem weirUnload (a0 : Req) : Statement (.weirUnload a0) := fun h => ⟨fun _ e => by cases e; exact h, nofun, nofun⟩
theorem promote (a0 : Req) : Statement (.promote a0) := fun h => ⟨fun _ e => by cases e; exact h, nofun, nofun⟩
theorem readmit (a0 : Req) : Statement (.readmit a0) := fun h => ⟨fun _ e => by cases e; exact h, nofun, nofun⟩
theorem collectiveStart (a0 : Nat) (a1 : Nat) : Statement (.collectiveStart a0 a1) := fun h => ⟨nofun, nofun, fun _ e => by cases e; exact of_decide_eq_true (Bool.and_eq_true_iff.mp h).1⟩
theorem collChunk (a0 : Pkt) : Statement (.collChunk a0) := fun _ => ⟨nofun, nofun, nofun⟩
theorem collCredit (a0 : Pkt) : Statement (.collCredit a0) := fun _ => ⟨nofun, nofun, nofun⟩
theorem collNack (a0 : Pkt) : Statement (.collNack a0) := fun _ => ⟨nofun, nofun, nofun⟩
theorem collAck (a0 : Pkt) : Statement (.collAck a0) := fun _ => ⟨nofun, nofun, nofun⟩
theorem creditReturn (a0 : Nat) : Statement (.creditReturn a0) := fun _ => ⟨nofun, nofun, nofun⟩
theorem weirMessage (a0 : Pkt) : Statement (.weirMessage a0) := fun _ => ⟨nofun, nofun, nofun⟩
theorem rootWaitExpiry (a0 : Nat) (a1 : Nat) : Statement (.rootWaitExpiry a0 a1) := fun h => ⟨nofun, nofun, fun _ e => by cases e; exact of_decide_eq_true (Bool.and_eq_true_iff.mp h).1⟩
theorem weirNodeEcc (a0 : Nat) (a1 : Nat) : Statement (.weirNodeEcc a0 a1) := fun h => ⟨nofun, nofun, fun _ e => by cases e; exact of_decide_eq_true (Bool.and_eq_true_iff.mp h).1⟩
theorem leafRecomputeDone (a0 : Nat) (a1 : LeafVote) : Statement (.leafRecomputeDone a0 a1) := fun h => ⟨nofun, nofun, fun _ e => by cases e; exact of_decide_eq_true (Bool.and_eq_true_iff.mp h).1⟩
theorem rdmaWrite (a0 : RoceReq) : Statement (.rdmaWrite a0) := fun _ => ⟨nofun, nofun, nofun⟩
theorem rdmaRead (a0 : RoceReq) : Statement (.rdmaRead a0) := fun _ => ⟨nofun, nofun, nofun⟩
theorem roceUnsupported (a0 : Nat) (a1 : Nat) : Statement (.roceUnsupported a0 a1) := fun _ => ⟨nofun, nofun, nofun⟩
theorem roceAck (a0 : Nat) (a1 : Nat) (a2 : Nat) : Statement (.roceAck a0 a1 a2) := fun _ => ⟨nofun, nofun, nofun⟩
theorem roceCnp (a0 : Nat) : Statement (.roceCnp a0) := fun _ => ⟨nofun, nofun, nofun⟩
theorem roceRateRecover (a0 : Nat) : Statement (.roceRateRecover a0) := fun _ => ⟨nofun, nofun, nofun⟩
theorem roceRetransmit (a0 : Nat) : Statement (.roceRetransmit a0) := fun _ => ⟨nofun, nofun, nofun⟩
theorem cmdNop (a0 : Nat) (a1 : Nat) : Statement (.cmdNop a0 a1) := fun _ => ⟨nofun, nofun, nofun⟩
theorem cmdAlloc (a0 : Nat) (a1 : Nat) : Statement (.cmdAlloc a0 a1) := fun _ => ⟨nofun, nofun, nofun⟩
theorem cmdFree (a0 : Nat) (a1 : Nat) : Statement (.cmdFree a0 a1) := fun _ => ⟨nofun, nofun, nofun⟩
theorem cmdCopy (a0 : Nat) (a1 : Nat) : Statement (.cmdCopy a0 a1) := fun _ => ⟨nofun, nofun, nofun⟩
theorem cmdWait (a0 : Nat) (a1 : Nat) : Statement (.cmdWait a0 a1) := fun _ => ⟨nofun, nofun, nofun⟩
theorem cmdWaitTimeout (a0 : Nat) (a1 : Nat) : Statement (.cmdWaitTimeout a0 a1) := fun _ => ⟨nofun, nofun, nofun⟩
theorem cmdSignal (a0 : Nat) (a1 : Nat) : Statement (.cmdSignal a0 a1) := fun _ => ⟨nofun, nofun, nofun⟩
theorem unsealObj (a0 : Nat) (a1 : Nat) : Statement (.unsealObj a0 a1) := fun _ => ⟨nofun, nofun, nofun⟩
theorem copyEngineComplete : Statement .copyEngineComplete := fun _ => ⟨nofun, nofun, nofun⟩
theorem eventRecordWrite (a0 : Nat) : Statement (.eventRecordWrite a0) := fun _ => ⟨nofun, nofun, nofun⟩
theorem create (a0 : Req) : Statement (.create a0) := fun h => ⟨fun _ e => by cases e; exact h, nofun, nofun⟩
theorem ctxLoad (a0 : Req) : Statement (.ctxLoad a0) := fun h => ⟨fun _ e => by cases e; exact h, nofun, nofun⟩
theorem evict (a0 : Req) : Statement (.evict a0) := fun h => ⟨fun _ e => by cases e; exact h, nofun, nofun⟩
theorem evictComplete (a0 : Nat) : Statement (.evictComplete a0) := fun _ => ⟨nofun, nofun, nofun⟩
theorem ctxEnd (a0 : Req) : Statement (.ctxEnd a0) := fun h => ⟨fun _ e => by cases e; exact h, nofun, nofun⟩
theorem destroy (a0 : Req) : Statement (.destroy a0) := fun h => ⟨fun _ e => by cases e; exact h, nofun, nofun⟩
theorem connect (a0 : Req) : Statement (.connect a0) := fun h => ⟨fun _ e => by cases e; exact h, nofun, nofun⟩
theorem qpReset (a0 : Req) : Statement (.qpReset a0) := fun h => ⟨fun _ e => by cases e; exact h, nofun, nofun⟩
theorem sluiceRefused (a0 : Pkt) : Statement (.sluiceRefused a0) := fun _ => ⟨nofun, nofun, nofun⟩
theorem brake (a0 : Pkt) : Statement (.brake a0) := fun _ => ⟨nofun, nofun, nofun⟩
theorem lease (a0 : Pkt) : Statement (.lease a0) := fun _ => ⟨nofun, nofun, nofun⟩
theorem haltPart (a0 : Pkt) : Statement (.haltPart a0) := fun _ => ⟨nofun, nofun, nofun⟩
theorem abortCtx (a0 : Pkt) : Statement (.abortCtx a0) := fun _ => ⟨nofun, nofun, nofun⟩
theorem quarantinePort (a0 : Pkt) : Statement (.quarantinePort a0) := fun _ => ⟨nofun, nofun, nofun⟩
theorem hello (a0 : Pkt) : Statement (.hello a0) := fun _ => ⟨nofun, nofun, nofun⟩
theorem attest (a0 : Nat) : Statement (.attest a0) := fun _ => ⟨nofun, nofun, nofun⟩
theorem finish (a0 : Nat) (a1 : Pkt) : Statement (.finish a0 a1) := fun _ => ⟨nofun, nofun, nofun⟩
theorem done (a0 : Nat) : Statement (.done a0) := fun _ => ⟨nofun, nofun, nofun⟩
theorem setupTimeout (a0 : Nat) : Statement (.setupTimeout a0) := fun _ => ⟨nofun, nofun, nofun⟩
theorem wrappedKey (a0 : Pkt) : Statement (.wrappedKey a0) := fun _ => ⟨nofun, nofun, nofun⟩
theorem approve (a0 : Pkt) : Statement (.approve a0) := fun _ => ⟨nofun, nofun, nofun⟩
theorem close (a0 : Pkt) : Statement (.close a0) := fun _ => ⟨nofun, nofun, nofun⟩
theorem bcChallengeRead : Statement .bcChallengeRead := fun _ => ⟨nofun, nofun, nofun⟩
theorem bcResponseWrite (a0 : Word64) : Statement (.bcResponseWrite a0) := fun _ => ⟨nofun, nofun, nofun⟩
theorem bcAuthIdle : Statement .bcAuthIdle := fun _ => ⟨nofun, nofun, nofun⟩
theorem fatalClear (a0 : Word64) : Statement (.fatalClear a0) := fun _ => ⟨nofun, nofun, nofun⟩
theorem keyWrite (a0 : Req) : Statement (.keyWrite a0) := fun h => ⟨fun _ e => by cases e; exact h, nofun, nofun⟩
theorem keyErase (a0 : Req) : Statement (.keyErase a0) := fun h => ⟨fun _ e => by cases e; exact h, nofun, nofun⟩
theorem loadPubkey (a0 : Req) : Statement (.loadPubkey a0) := fun h => ⟨fun _ e => by cases e; exact h, nofun, nofun⟩
theorem keyCheckSweep (a0 : List Nat) : Statement (.keyCheckSweep a0) := fun _ => ⟨nofun, nofun, nofun⟩
theorem loadCharter (a0 : Req) : Statement (.loadCharter a0) := fun h => ⟨fun _ e => by cases e; exact h, nofun, nofun⟩
theorem unloadCharter (a0 : Req) : Statement (.unloadCharter a0) := fun h => ⟨fun _ e => by cases e; exact h, nofun, nofun⟩
theorem relRequest (a0 : Req) : Statement (.relRequest a0) := fun h => ⟨fun _ e => by cases e; exact h, nofun, nofun⟩
theorem relRun (a0 : Req) : Statement (.relRun a0) := fun h => ⟨fun _ e => by cases e; exact h, nofun, nofun⟩
theorem releaseComplete (a0 : Nat) : Statement (.releaseComplete a0) := fun _ => ⟨nofun, nofun, nofun⟩
theorem relCancel (a0 : Req) : Statement (.relCancel a0) := fun h => ⟨fun _ e => by cases e; exact h, nofun, nofun⟩
theorem rollover (a0 : Req) : Statement (.rollover a0) := fun h => ⟨fun _ e => by cases e; exact h, nofun, nofun⟩
theorem attKeyReady : Statement .attKeyReady := fun _ => ⟨nofun, nofun, nofun⟩
theorem macsecFrame (a0 : Nat) (a1 : MacsecDrop) : Statement (.macsecFrame a0 a1) := fun _ => ⟨nofun, nofun, nofun⟩
theorem mkaFrame (a0 : Nat) (a1 : MkaMsg) : Statement (.mkaFrame a0 a1) := fun _ => ⟨nofun, nofun, nofun⟩
theorem sakRekey (a0 : SubId) (a1 : Nat) : Statement (.sakRekey a0 a1) := fun _ => ⟨nofun, nofun, nofun⟩
theorem macsecLost (a0 : SubId) : Statement (.macsecLost a0) := fun _ => ⟨nofun, nofun, nofun⟩
theorem tamper (a0 : Bool) : Statement (.tamper a0) := fun _ => ⟨nofun, nofun, nofun⟩
theorem pwrGoodLow : Statement .pwrGoodLow := fun _ => ⟨nofun, nofun, nofun⟩
theorem resetNLow : Statement .resetNLow := fun _ => ⟨nofun, nofun, nofun⟩
theorem bootStart : Statement .bootStart := fun _ => ⟨nofun, nofun, nofun⟩
theorem firmwareAccepted (a0 : ImageSrc) : Statement (.firmwareAccepted a0) := fun _ => ⟨nofun, nofun, nofun⟩
theorem firmwareRejected (a0 : ImageSrc) : Statement (.firmwareRejected a0) := fun _ => ⟨nofun, nofun, nofun⟩
theorem memoryTrained (a0 : Nat) : Statement (.memoryTrained a0) := fun _ => ⟨nofun, nofun, nofun⟩
theorem bootReady : Statement .bootReady := fun _ => ⟨nofun, nofun, nofun⟩
theorem recoveryReq : Statement .recoveryReq := fun _ => ⟨nofun, nofun, nofun⟩
theorem recoveryData (a0 : Nat) (a1 : List Byte) : Statement (.recoveryData a0 a1) := fun _ => ⟨nofun, nofun, nofun⟩
theorem recoverySourceTimeout : Statement .recoverySourceTimeout := fun _ => ⟨nofun, nofun, nofun⟩
theorem transition (a0 : Req) : Statement (.transition a0) := fun h => ⟨fun _ e => by cases e; exact h, nofun, nofun⟩
theorem raiseSvn (a0 : Req) : Statement (.raiseSvn a0) := fun h => ⟨fun _ e => by cases e; exact h, nofun, nofun⟩
theorem revokeKey (a0 : Req) : Statement (.revokeKey a0) := fun h => ⟨fun _ e => by cases e; exact h, nofun, nofun⟩
theorem genIdentity (a0 : Req) : Statement (.genIdentity a0) := fun h => ⟨fun _ e => by cases e; exact h, nofun, nofun⟩
theorem identityGenerated : Statement .identityGenerated := fun _ => ⟨nofun, nofun, nofun⟩
theorem lcReset (a0 : Req) : Statement (.lcReset a0) := fun h => ⟨fun _ e => by cases e; exact h, nofun, nofun⟩
theorem fuseDigest (a0 : Req) : Statement (.fuseDigest a0) := fun h => ⟨fun _ e => by cases e; exact h, nofun, nofun⟩
theorem arbitrationStart (a0 : Nat) : Statement (.arbitrationStart a0) := fun _ => ⟨nofun, nofun, nofun⟩
theorem arbitrationDecision (a0 : Nat) (a1 : Int) (a2 : Int) : Statement (.arbitrationDecision a0 a1 a2) := fun _ => ⟨nofun, nofun, nofun⟩
theorem patrolRead (a0 : MemWord) (a1 : WordCheck) : Statement (.patrolRead a0 a1) := fun _ => ⟨nofun, nofun, nofun⟩
theorem testSlotComplete (a0 : Nat) (a1 : BistResult) : Statement (.testSlotComplete a0 a1) := fun h => ⟨nofun, fun _ e => by cases e; exact of_decide_eq_true h, nofun⟩
theorem retest (a0 : Req) : Statement (.retest a0) := fun h => ⟨fun _ e => by cases e; exact h, nofun, nofun⟩
theorem retestComplete (a0 : BistResult) : Statement (.retestComplete a0) := fun _ => ⟨nofun, nofun, nofun⟩
theorem wfiAll (a0 : Bool) : Statement (.wfiAll a0) := fun _ => ⟨nofun, nofun, nofun⟩
theorem wakeEvent (a0 : WakeCause) : Statement (.wakeEvent a0) := fun _ => ⟨nofun, nofun, nofun⟩
theorem domainGate (a0 : Nat) : Statement (.domainGate a0) := fun _ => ⟨nofun, nofun, nofun⟩
theorem domainWake (a0 : Nat) : Statement (.domainWake a0) := fun _ => ⟨nofun, nofun, nofun⟩
theorem wakeTimeout (a0 : Nat) : Statement (.wakeTimeout a0) := fun _ => ⟨nofun, nofun, nofun⟩
theorem voltageSettled (a0 : Nat) : Statement (.voltageSettled a0) := fun _ => ⟨nofun, nofun, nofun⟩
theorem vrMismatch (a0 : Nat) (a1 : Nat) : Statement (.vrMismatch a0 a1) := fun _ => ⟨nofun, nofun, nofun⟩
theorem avsTimeout (a0 : Nat) : Statement (.avsTimeout a0) := fun _ => ⟨nofun, nofun, nofun⟩
theorem thermalSample (a0 : Nat) (a1 : Nat) (a2 : Nat) : Statement (.thermalSample a0 a1 a2) := fun _ => ⟨nofun, nofun, nofun⟩
theorem powerCapWindow (a0 : Nat) : Statement (.powerCapWindow a0) := fun _ => ⟨nofun, nofun, nofun⟩
theorem pmbusPoll (a0 : PowerMeas) : Statement (.pmbusPoll a0) := fun _ => ⟨nofun, nofun, nofun⟩
theorem refLost (a0 : Bool) : Statement (.refLost a0) := fun _ => ⟨nofun, nofun, nofun⟩
theorem operatorQueueScan : Statement .operatorQueueScan := fun _ => ⟨nofun, nofun, nofun⟩
theorem brakeNRise : Statement .brakeNRise := fun _ => ⟨nofun, nofun, nofun⟩
theorem pwrGoodRise : Statement .pwrGoodRise := fun _ => ⟨nofun, nofun, nofun⟩
theorem referenceRestored (a0 : Bool) : Statement (.referenceRestored a0) := fun _ => ⟨nofun, nofun, nofun⟩
theorem portLinkChange (a0 : Nat) (a1 : Bool) (a2 : Nat) : Statement (.portLinkChange a0 a1 a2) := fun _ => ⟨nofun, nofun, nofun⟩
theorem pfcPauseFrame (a0 : Nat) (a1 : Nat) (a2 : List Nat) : Statement (.pfcPauseFrame a0 a1 a2) := fun _ => ⟨nofun, nofun, nofun⟩
theorem ptpAnnounce (a0 : Nat) (a1 : Nat) : Statement (.ptpAnnounce a0 a1) := fun _ => ⟨nofun, nofun, nofun⟩
theorem ptpFollowUp (a0 : PtpMeas) : Statement (.ptpFollowUp a0) := fun _ => ⟨nofun, nofun, nofun⟩
theorem ptpDelayReq (a0 : Nat) : Statement (.ptpDelayReq a0) := fun _ => ⟨nofun, nofun, nofun⟩
theorem ptpMasterSync (a0 : Nat) : Statement (.ptpMasterSync a0) := fun _ => ⟨nofun, nofun, nofun⟩
theorem quantizedLatch : Statement .quantizedLatch := fun _ => ⟨nofun, nofun, nofun⟩
theorem entdaa (a0 : Nat) : Statement (.entdaa a0) := fun _ => ⟨nofun, nofun, nofun⟩
theorem attestReceived (a0 : List Byte) (a1 : Pkt) : Statement (.attestReceived a0 a1) := fun _ => ⟨nofun, nofun, nofun⟩
theorem doneReceived (a0 : Pkt) : Statement (.doneReceived a0) := fun _ => ⟨nofun, nofun, nofun⟩

end Laws.Named
end Sys2Proof
end

