-- ==== Sys2Proof/Tests/Slice0.lean ====
section
/-! SUPPORT. The modeller's own tests: an ill-formed command for each check of WellFormed, known answers of the standard functions, and for each
statement of Certificates/Slice0/Obligations.lean a state and operands that meet its hypotheses (the witnesses, one section per piece). -/
namespace Sys2Proof.Test
open Sys2Proof Sys2Proof.Machine
set_option Elab.async false

/-! ### Well-formed commands -/

def okPkt : Pkt := { port := 0, version := 1, type := 1, part := 0, session := 1, sender := 1, length := 0, seq := 0, payload := [], tagOk := true }
def okMka : MkaMsg := { icvOk := true, priority := 0, sciLower := true, sak := none, up := true }
def okReq : RoceReq := { qp := 0, psn := 0, port := 0, first := true, last := true, va := 0, rkey := 0, len := 0, data := [] }

/-- Each check of the operands' own types refuses a value just outside its range. -/
theorem test_operands_refused :
    ([Req.session 0, .session 4294967296].all fun x => !x.wf) = true ∧
    (([{ okPkt with port := 9 }, { okPkt with type := 256 }, { okPkt with part := 256 }, { okPkt with session := 4294967296 },
       { okPkt with sender := 4294967296 }, { okPkt with length := 65536 }, { okPkt with seq := 18446744073709551616 }] : List Pkt).all fun x => !x.wf) = true ∧
    ([MemWord.cell 512 0 0, .cell 0 6 0, .cell 0 3 0, .cell 0 0 1048576, .scratch 512 0, .scratch 0 1048576, .sram 64 0, .sram 0 16777216, .granary 64 0,
      .granary 0 100663296, .ctrl 64 0, .ctrl 0 1048576, .sync 16 0, .sync 0 65536, .hbm 4831838208, .pond 1099511627776].all fun x => !x.wf) = true ∧
    ([HwCheck.corrected (.hbm 4831838208) 0, .corrected (.hbm 0) 256, .uncorrectable 9 0 0 0, .uncorrectable 0 0 0 256, .column true 128 0 0 0,
      .column true 0 32 0 0, .column true 0 0 0 65535].all fun x => !x.wf) = true ∧
    ([SignalSrc.tile 512, .core 64, .leat 64 0, .leat 0 16, .quern 16 0, .quern 0 8, .host 4096 0, .host 0 8, .collective 16].all fun x => !x.wf) = true ∧
    ([Waiter.tile 512, .queue 4096 0, .queue 0 8].all fun x => !x.wf) = true ∧
    ([MillDest.cluster 64, .granary 64, .hbmSet 64, .port 9].all fun x => !x.wf) = true ∧
    ([PkgLink.ring 8, .chord 8, .io 8, .ctrl 8].all fun x => !x.wf) = true ∧
    (([⟨9, 0, 0, 0, 0⟩, ⟨0, 3, 0, 0, 0⟩] : List PtpMeas).all fun x => !x.wf) = true ∧
    (([{ okReq with qp := 8192 }, { okReq with psn := 16777216 }, { okReq with port := 9 }, { okReq with rkey := 4294967296 }] : List RoceReq).all
      fun x => !x.wf) = true ∧
    (([{ okMka with priority := 256 }, { okMka with sub := 8 }] : List MkaMsg).all fun x => !x.wf) = true ∧
    (([⟨9, 0⟩, ⟨0, 8⟩] : List SubId).all fun x => !x.wf) = true ∧
    ([MillSrc.part 16 0, .part 0 4096].all fun x => !x.wf) = true ∧
    (([⟨8, 0, 0, 0, false, []⟩, ⟨0, 65536, 0, 0, false, []⟩] : List LeafVote).all fun x => !x.wf) = true := by decide +kernel

/-- Each check of each command refuses an operand just outside its range; a few operands have several checks. -/
theorem test_ill_formed_0 : (([
    .regWrite (.session 0) 0 0, .regWrite .factory 1099511627776 0, .lockSet (.session 0) .gov, .counterRead (.session 0) 0,
     .counterRead .factory 1099511627776, .regRd { okPkt with port := 9 }, .regWr { okPkt with port := 9 },
     .ihlakInvalid { okPkt with port := 9 }, .stage (.session 0), .bind (.session 0), .unbind (.session 0), .rebind (.session 0),
     .discard (.session 0), .drainComplete 16, .drainLimitExpiry 16, .scrubComplete 16, .retireComplete 16, .keyDestroyTimeout 64,
     .loadComplete 16, .millracePacket (.part 16 0) 0 .control, .millracePacket .control 11 .control,
     .millracePacket .control 0 (.port 9), .linkFrameAuthFail (.ring 8), .ptpSync ⟨9, 0, 0, 0, 0⟩, .ptpUnsupported 9,
     .revolutionStart 16, .leaseExpiry 16, .phaseStart 16 0, .phaseStart 0 4096, .heldPhaseStart 16 0, .heldPhaseStart 0 4096,
     .collectiveWindow 16 0, .collectiveWindow 0 4096, .windowClose 16 0, .windowClose 0 4096, .queueScan 16 0, .queueScan 0 4096,
     .leaseCheck 16 0, .leaseCheck 0 4096, .digestCompare 16 0, .digestCompare 0 4096, .testSlot 16 0, .testSlot 0 4096,
     .versionRelease 16 0, .versionRelease 0 4096, .powerHint 16 0, .powerHint 0 4096, .hintLapse 16, .deadlineMiss 16 0,
     .deadlineMiss 0 4096, .brakeComplete 16, .release (.session 0), .halt (.session 0), .abort (.session 0), .topLoStore 64 0,
     .topHiStore 64 0, .topEnqueue 64, .topDispatch 512, .nop 512, .mma 512 .ok] : List Instr).all fun c => !c.wf) = true := by decide +kernel
theorem test_ill_formed_1 : (([
    .mma 0 (.corrected (.hbm 0) 256), .weightLoadDone 512 .ok, .weightLoadDone 0 (.corrected (.hbm 0) 256), .mmaComplete 512 .ok,
     .mmaComplete 0 (.corrected (.hbm 0) 256), .load 512, .store 512, .transferComplete 512 .ok,
     .transferComplete 0 (.corrected (.hbm 0) 256), .drainReg 512, .drainMem 512, .drainTin 512, .drainDiscard 512,
     .drainCompleteTop 512 .ok, .drainCompleteTop 0 (.corrected (.hbm 0) 256), .tinCvt 512, .tollAlloc 512, .tollFree 512, .wait 512,
     .signal 512, .fence 512, .fenceComplete 512, .add 512, .sub 512, .mul 512, .fma 512, .fnma 512, .aff 512, .mull 512, .fmal 512,
     .vmin 512, .vmax 512, .vabs 512, .vneg 512, .cmpgt 512, .vsel 512, .mov 512, .fill 512, .movt 512, .rcp 512, .sqrt 512, .rsqrt 512,
     .exp 512, .exp2 512, .log 512, .log2 512, .tanh 512, .sigmoid 512, .erf 512, .rsum 512, .rsumsq 512, .rdot 512, .rmax 512,
     .rmin 512, .ramax 512, .iadd 512, .isub 512, .iand 512, .ior 512, .ixor 512] : List Instr).all fun c => !c.wf) = true := by decide +kernel
theorem test_ill_formed_2 : (([
    .ishl 512, .ishr 512, .ilsr 512, .cvt 512, .srSet 512, .srKeyReady 64, .statRead 512, .vecComplete 512 .ok,
     .vecComplete 0 (.corrected (.hbm 0) 256), .phaseDone 64, .coreTrap 64 0 0, .coreTrap 0 65536 0, .resumeStore 64 0,
     .resumeStore 0 256, .coreHalt (.session 0) 0, .coreResume (.session 0), .syncSignal (.tile 512) 0 0, .syncSignal (.tile 0) 16384 0,
     .waitRelease (.tile 512), .quernIngest 16 0 0 .ok, .quernIngest 0 8 0 .ok, .quernIngest 0 0 65536 .ok,
     .quernIngest 0 0 0 (.corrected (.hbm 0) 256), .ingestComplete 16 0 0, .ingestComplete 0 8 0, .ingestComplete 0 0 65536,
     .ruleLatch 16 0, .ruleLatch 0 8, .quernSweep 16 0 .ok, .quernSweep 0 8 .ok, .quernSweep 0 0 (.corrected (.hbm 0) 256),
     .sweepComplete 16 0, .sweepComplete 0 8, .flipPass 16 0, .flipPass 0 8, .flipComplete 16 0, .flipComplete 0 8,
     .laggedSweep 16 0 0 .ok, .laggedSweep 0 8 0 .ok, .laggedSweep 0 0 64 .ok, .laggedSweep 0 0 0 (.corrected (.hbm 0) 256),
     .laggedCommit 16 0 0, .laggedCommit 0 8 0, .laggedCommit 0 0 64, .qrnLoad (.session 0), .qrnUnload (.session 0),
     .memFree (.session 0) 0, .memFree .factory 4294967296, .uFree (.session 0) 0 0, .uFree .factory 4096 0,
     .uFree .factory 0 4294967296, .freeComplete 4096 0, .freeComplete 0 1048576, .leatPassStart 64 0, .leatPassStart 0 16,
     .leatSegmentIssue 64 0, .leatSegmentIssue 0 16, .leatSegmentDone 64 0, .leatSegmentDone 0 16, .leatPassEnd 64 0] : List Instr).all fun c => !c.wf) = true := by decide +kernel
theorem test_ill_formed_3 : (([
    .leatPassEnd 0 16, .weirLoad (.session 0), .weirUnload (.session 0), .promote (.session 0), .readmit (.session 0),
     .collectiveStart 16 0, .collectiveStart 0 65536, .collChunk { okPkt with port := 9 }, .collCredit { okPkt with port := 9 },
     .collNack { okPkt with port := 9 }, .collAck { okPkt with port := 9 }, .creditReturn 4294967296,
     .weirMessage { okPkt with port := 9 }, .rootWaitExpiry 16 0, .rootWaitExpiry 0 16384, .weirNodeEcc 16 0, .weirNodeEcc 0 16384,
     .leafRecomputeDone 16 ⟨0, 0, 0, 0, false, []⟩, .leafRecomputeDone 0 ⟨8, 0, 0, 0, false, []⟩, .rdmaWrite { okReq with qp := 8192 },
     .rdmaRead { okReq with qp := 8192 }, .roceUnsupported 8192 0, .roceUnsupported 0 16777216, .roceAck 8192 0 0, .roceAck 0 16777216 0,
     .roceAck 0 0 256, .roceCnp 8192, .roceRateRecover 8192, .roceRetransmit 8192, .cmdNop 4096 0, .cmdNop 0 8, .cmdAlloc 4096 0,
     .cmdAlloc 0 8, .cmdFree 4096 0, .cmdFree 0 8, .cmdCopy 4096 0, .cmdCopy 0 8, .cmdWait 4096 0, .cmdWait 0 8, .cmdWaitTimeout 4096 0,
     .cmdWaitTimeout 0 8, .cmdSignal 4096 0, .cmdSignal 0 8, .unsealObj 4096 0, .unsealObj 0 8, .eventRecordWrite 4096,
     .create (.session 0), .ctxLoad (.session 0), .evict (.session 0), .evictComplete 4096, .ctxEnd (.session 0), .destroy (.session 0),
     .connect (.session 0), .qpReset (.session 0), .sluiceRefused { okPkt with port := 9 }, .brake { okPkt with port := 9 },
     .lease { okPkt with port := 9 }, .haltPart { okPkt with port := 9 }, .abortCtx { okPkt with port := 9 },
     .quarantinePort { okPkt with port := 9 }] : List Instr).all fun c => !c.wf) = true := by decide +kernel
theorem test_ill_formed_4 : (([
    .hello { okPkt with port := 9 }, .attest 4294967296, .finish 4294967296 okPkt, .finish 0 { okPkt with port := 9 }, .done 4294967296,
     .setupTimeout 4294967296, .wrappedKey { okPkt with port := 9 }, .approve { okPkt with port := 9 }, .close { okPkt with port := 9 },
     .keyWrite (.session 0), .keyErase (.session 0), .loadPubkey (.session 0), .keyCheckSweep [256], .loadCharter (.session 0),
     .unloadCharter (.session 0), .relRequest (.session 0), .relRun (.session 0), .releaseComplete 16, .relCancel (.session 0),
     .rollover (.session 0), .macsecFrame 9 .icvFail, .mkaFrame 9 okMka, .mkaFrame 0 { okMka with sub := 8 }, .sakRekey ⟨9, 0⟩ 0,
     .sakRekey ⟨0, 0⟩ 18446744073709551616, .macsecLost ⟨9, 0⟩, .memoryTrained 65536, .transition (.session 0), .raiseSvn (.session 0),
     .revokeKey (.session 0), .genIdentity (.session 0), .lcReset (.session 0), .fuseDigest (.session 0), .arbitrationStart 8,
     .arbitrationDecision 8 0 0, .patrolRead (.hbm 4831838208) .ok, .testSlotComplete 512 ⟨0, 0, []⟩, .retest (.session 0),
     .domainGate 691, .domainWake 691, .wakeTimeout 691, .voltageSettled 8, .vrMismatch 8 0, .vrMismatch 0 4096, .avsTimeout 8,
     .thermalSample 8 0 0, .thermalSample 0 4096 0, .thermalSample 0 0 4096, .powerCapWindow 65536, .portLinkChange 9 true 0,
     .portLinkChange 0 true 256, .pfcPauseFrame 9 0 [], .pfcPauseFrame 0 256 [], .ptpAnnounce 9 0, .ptpAnnounce 0 16,
     .ptpFollowUp ⟨9, 0, 0, 0, 0⟩, .ptpDelayReq 9, .ptpMasterSync 9, .entdaa 1099511627776, .attestReceived [] { okPkt with port := 9 }] : List Instr).all fun c => !c.wf) = true := by decide +kernel
theorem test_ill_formed_5 : (([
    .doneReceived { okPkt with port := 9 }] : List Instr).all fun c => !c.wf) = true := by decide +kernel

/-- Each command with operands in range is accepted. -/
theorem test_well_formed_0 : (([
    .regWrite .factory 0 0, .lockSet .factory .gov, .counterRead .factory 0, .regRd okPkt, .regWr okPkt, .ihlakInvalid okPkt,
     .stage .factory, .bind .factory, .unbind .factory, .rebind .factory, .discard .factory, .drainComplete 0, .drainLimitExpiry 0,
     .scrubComplete 0, .retireComplete 0, .keyDestroyTimeout 0, .loadComplete 0, .millracePacket .control 0 .control,
     .linkFrameAuthFail (.ring 0), .ptpSync ⟨0, 0, 0, 0, 0⟩, .ptpUnsupported 0, .ptpHoldover, .ppsInEdge, .ppsOutEdge,
     .revolutionStart 0, .leaseExpiry 0, .phaseStart 0 0, .heldPhaseStart 0 0, .collectiveWindow 0 0, .windowClose 0 0, .queueScan 0 0,
     .leaseCheck 0 0, .digestCompare 0 0, .testSlot 0 0, .versionRelease 0 0, .powerHint 0 0, .hintLapse 0, .deadlineMiss 0 0,
     .brakeComplete 0, .brakeNFall, .release .factory, .halt .factory, .abort .factory, .topLoStore 0 0, .topHiStore 0 0, .topEnqueue 0,
     .topDispatch 0, .nop 0, .mma 0 .ok, .weightLoadDone 0 .ok, .mmaComplete 0 .ok, .load 0, .store 0, .transferComplete 0 .ok,
     .drainReg 0, .drainMem 0, .drainTin 0, .drainDiscard 0, .drainCompleteTop 0 .ok, .tinCvt 0] : List Instr).all fun c => c.wf) = true := by decide +kernel
theorem test_well_formed_1 : (([
    .tollAlloc 0, .tollFree 0, .tollServe, .wait 0, .signal 0, .fence 0, .fenceComplete 0, .add 0, .sub 0, .mul 0, .fma 0, .fnma 0,
     .aff 0, .mull 0, .fmal 0, .vmin 0, .vmax 0, .vabs 0, .vneg 0, .cmpgt 0, .vsel 0, .mov 0, .fill 0, .movt 0, .rcp 0, .sqrt 0,
     .rsqrt 0, .exp 0, .exp2 0, .log 0, .log2 0, .tanh 0, .sigmoid 0, .erf 0, .rsum 0, .rsumsq 0, .rdot 0, .rmax 0, .rmin 0, .ramax 0,
     .iadd 0, .isub 0, .iand 0, .ior 0, .ixor 0, .ishl 0, .ishr 0, .ilsr 0, .cvt 0, .srSet 0, .srKeyReady 0, .statRead 0,
     .vecComplete 0 .ok, .phaseDone 0, .coreTrap 0 0 0, .resumeStore 0 0, .coreHalt .factory 0, .coreResume .factory,
     .syncSignal (.tile 0) 0 0, .waitRelease (.tile 0)] : List Instr).all fun c => c.wf) = true := by decide +kernel
theorem test_well_formed_2 : (([
    .quernIngest 0 0 0 .ok, .ingestComplete 0 0 0, .ruleLatch 0 0, .quernSweep 0 0 .ok, .sweepComplete 0 0, .flipPass 0 0,
     .flipComplete 0 0, .laggedSweep 0 0 0 .ok, .laggedCommit 0 0 0, .qrnLoad .factory, .qrnUnload .factory, .memFree .factory 0,
     .uFree .factory 0 0, .freeComplete 0 0, .leatPassStart 0 0, .leatSegmentIssue 0 0, .leatSegmentDone 0 0, .leatPassEnd 0 0,
     .weirLoad .factory, .weirUnload .factory, .promote .factory, .readmit .factory, .collectiveStart 0 0, .collChunk okPkt,
     .collCredit okPkt, .collNack okPkt, .collAck okPkt, .creditReturn 0, .weirMessage okPkt, .rootWaitExpiry 0 0, .weirNodeEcc 0 0,
     .leafRecomputeDone 0 ⟨0, 0, 0, 0, false, []⟩, .rdmaWrite okReq, .rdmaRead okReq, .roceUnsupported 0 0, .roceAck 0 0 0, .roceCnp 0,
     .roceRateRecover 0, .roceRetransmit 0, .cmdNop 0 0, .cmdAlloc 0 0, .cmdFree 0 0, .cmdCopy 0 0, .cmdWait 0 0, .cmdWaitTimeout 0 0,
     .cmdSignal 0 0, .unsealObj 0 0, .copyEngineComplete, .eventRecordWrite 0, .create .factory, .ctxLoad .factory, .evict .factory,
     .evictComplete 0, .ctxEnd .factory, .destroy .factory, .connect .factory, .qpReset .factory, .sluiceRefused okPkt, .brake okPkt,
     .lease okPkt] : List Instr).all fun c => c.wf) = true := by decide +kernel
theorem test_well_formed_3 : (([
    .haltPart okPkt, .abortCtx okPkt, .quarantinePort okPkt, .hello okPkt, .attest 0, .finish 0 okPkt, .done 0, .setupTimeout 0,
     .wrappedKey okPkt, .approve okPkt, .close okPkt, .bcChallengeRead, .bcResponseWrite 0, .bcAuthIdle, .fatalClear 0,
     .keyWrite .factory, .keyErase .factory, .loadPubkey .factory, .keyCheckSweep [], .loadCharter .factory, .unloadCharter .factory,
     .relRequest .factory, .relRun .factory, .releaseComplete 0, .relCancel .factory, .rollover .factory, .attKeyReady,
     .macsecFrame 0 .icvFail, .mkaFrame 0 okMka, .sakRekey ⟨0, 0⟩ 0, .macsecLost ⟨0, 0⟩, .tamper true, .pwrGoodLow, .resetNLow,
     .bootStart, .firmwareAccepted .network, .firmwareRejected .network, .memoryTrained 0, .bootReady, .recoveryReq, .recoveryData 0 [],
     .recoverySourceTimeout, .transition .factory, .raiseSvn .factory, .revokeKey .factory, .genIdentity .factory, .identityGenerated,
     .lcReset .factory, .fuseDigest .factory, .arbitrationStart 0, .arbitrationDecision 0 0 0, .patrolRead (.hbm 0) .ok,
     .testSlotComplete 0 ⟨0, 0, []⟩, .retest .factory, .retestComplete ⟨0, 0, []⟩, .wfiAll true, .wakeEvent .pin, .domainGate 0,
     .domainWake 0, .wakeTimeout 0] : List Instr).all fun c => c.wf) = true := by decide +kernel
theorem test_well_formed_4 : (([
    .voltageSettled 0, .vrMismatch 0 0, .avsTimeout 0, .thermalSample 0 0 0, .powerCapWindow 0, .pmbusPoll ⟨0, 0, [], []⟩, .refLost true,
     .operatorQueueScan, .brakeNRise, .pwrGoodRise, .referenceRestored true, .portLinkChange 0 true 0, .pfcPauseFrame 0 0 [],
     .ptpAnnounce 0 0, .ptpFollowUp ⟨0, 0, 0, 0, 0⟩, .ptpDelayReq 0, .ptpMasterSync 0, .quantizedLatch, .entdaa 0,
     .attestReceived [] okPkt, .doneReceived okPkt] : List Instr).all fun c => c.wf) = true := by decide +kernel

/-! ### Known answers of the published standards -/

/-- SHAKE256 of the empty string (FIPS 202). -/
theorem test_shake256 : shake 8 [] = [0x46, 0xB9, 0xDD, 0x2B, 0x0B, 0xA8, 0x8D, 0x13] := by decide +kernel

/-- The AES-256 example of FIPS 197, appendix C.3. -/
theorem test_aes256 :
    aesBlock (aesRoundKeys ((List.range 32).map (BitVec.ofNat 8))) ((List.range 16).map fun i => BitVec.ofNat 8 (17 * i)) =
      [0x8E, 0xA2, 0xB7, 0xCA, 0x51, 0x67, 0x45, 0xBF, 0xEA, 0xFC, 0x49, 0x90, 0x4B, 0x49, 0x60, 0x89] := by decide +kernel

/-- Test case 13 of the GCM specification: a key and nonce of zeros, nothing to seal. -/
theorem test_gcm :
    gcmSeal (List.replicate 32 0) (List.replicate 12 0) [] [] =
      ([], [0x53, 0x0F, 0x8A, 0xFB, 0xC7, 0x45, 0x36, 0xB9, 0xA9, 0x63, 0xB4, 0xF1, 0xC4, 0xCB, 0x73, 0x8B]) := by decide +kernel

/-- The check value of CRC-32C: the digits 1 to 9. -/
theorem test_crc32c : crc32c (ascii "123456789") = 0xE3069283 := by decide +kernel

/-- The next state of an outcome. -/
def nx (o : Host.Outcome State Fault Refusal) : State := match o with | .next t => t | _ => State.reset

/-- A device with one session of the operator, SESSION 1, whose select registers are `x`. -/
def priv (x : Selects := {}) : State := { State.reset with sec := { sessions := [(1, { role := 3, part := 0xFF })] }, selects := [(1, x)] }
/-- The requester of that session. -/
abbrev op : Req := .session 1

/-! ### Partitions -/

/-- A stream for partition 15: cluster 7, two key identifiers, a timetable of one entry, period 4,096 beats, grid 2. -/
def tinyStream : Stream :=
  { target := 15
    sections := [{ type := 1, part := 15, data := leBytes 8 0x80 ++ leBytes 8 0 ++ leBytes 8 0 ++ [0, 2] ++ leBytes 2 0 ++ leBytes 2 16 ++ leBytes 2 0 },
      { type := 9, part := 15, data := leBytes 4 4096 ++ leBytes 4 2 ++ leBytes 8 0 ++ leBytes 4 100 ++ leBytes 2 1 ++ [8] ++ List.replicate 41 0 ++
        leBytes 16 0 }] }
def partSt (v : Part) : State := { priv { part := 15 } with parts := [(15, v)], stageLen := [(15, 64)] }

/-- Two small streams staged, one of them full, with PART_SEL.ALL set. -/
def allSt (v : Part) : State :=
  { partSt v with selects := [(1, { part := 15, partAll := true })], stagedFull := some tinyStream }
theorem wit_stageAndDiscard :
    (let s := partSt { status := 1 }
     s.Canon ∧ s.mayP op 0x50008 = true ∧ (s.sel op).part = 15 ∧ (s.sel op).partAll = false ∧ s.partBusy = false ∧ NatMap.get 0 s.stageLen 15 ≠ 0) ∧
    (let s := allSt { staged := some tinyStream }
     s.Canon ∧ s.mayP op 0x50008 = true ∧ (s.sel op).part = 15 ∧ (s.sel op).partAll = true ∧ s.partBusy = false ∧ NatMap.get 0 s.stageLen 15 ≠ 0) ∧
    NatMap.get 0 ({ partSt {} with stageLen := [] } : State).stageLen 15 = 0 :=
  ⟨⟨State.canon_of_check _ (by decide +kernel), by decide +kernel⟩, ⟨State.canon_of_check _ (by decide +kernel), by decide +kernel⟩, by decide +kernel⟩
theorem wit_partCommandsRefused :
    ((partSt { rebind := { inProgress := true } }).mayP op 0x50008 = true ∧ ((partSt { rebind := { inProgress := true } }).sel op).part = 15 ∧
     (partSt { rebind := { inProgress := true } }).partBusy = true) ∧
    (([.free, .armed, .running, .braked] : List PartState).all fun st => let s := partSt { state := st }
      (s.part 15).state == st && (s.part 15).staged.isNone && !s.partBusy && !(s.sel op).partAll) = true ∧
    ((allSt { state := .armed }).partBusy = false ∧ ((allSt { state := .armed }).sel op).partAll = true ∧ ((allSt { state := .armed }).part 15).state ≠ .free ∧
     (∀ q, q < 16 → ((allSt {}).part q).state = .free) ∧ ({ allSt {} with stagedFull := none } : State).stagedFull = none) := by decide +kernel

theorem wit_partitionCommands :
    (let s := partSt { staged := some tinyStream }
     s.Canon ∧ s.mayP op 0x50008 = true ∧ (s.sel op).part = 15 ∧ (s.sel op).partAll = false ∧ s.partBusy = false ∧
     (s.part 15).staged = some tinyStream ∧ s.bindChecks tinyStream [15] = 0 ∧ (s.part 15).state = .free ∧
     (partMapOf (tinyStream.get 15 1)).keyCount = 2 ∧ 2 ≤ s.freeKeyIds.length) ∧
    (let s := partSt { staged := some tinyStream, state := .braked }
     s.Canon ∧ s.mayP op 0x50008 = true ∧ (s.sel op).part = 15 ∧ (s.sel op).partAll = false ∧ s.partBusy = false ∧
     (s.part 15).state = .braked ∧ (s.part 15).staged = some tinyStream ∧ s.bindChecks tinyStream [15] = 0) :=
  ⟨⟨State.canon_of_check _ (by decide +kernel), by decide +kernel⟩, State.canon_of_check _ (by decide +kernel), by decide +kernel⟩

theorem wit_rebindingSteps :
    (let s := partSt { state := .draining, map := { clusters := 0x80 } }
     s.Canon ∧ (s.part 15).state = .draining ∧ s.drained 15 = true ∧ 56 ∈ s.partTiles 15) ∧
    (let s : State := { partSt { state := .draining } with mill := { now := 2000000 } }
     s.Canon ∧ (s.part 15).state = .draining ∧ (s.part 15).rebind.braked = false ∧
     (s.part 15).rebind.drainStart + 1000 * (s.part 15).rebind.limit ≤ s.mill.now) ∧
    (let s := partSt { state := .scrubbing, keyIds := [63] }
     s.Canon ∧ (s.part 15).state = .scrubbing) ∧
    (let s : State := { partSt { state := .retiring, keyIds := [63] } with mce := { keyIds := [(63, { state := .retiring, part := 15, gen := 1 })] } }
     s.Canon ∧ (s.part 15).state = .retiring ∧ (s.part 15).rebind.toLoad = false ∧ ∀ k ∈ (s.part 15).keyIds, 0 < (s.mce.keyId k).gen) :=
  ⟨⟨State.canon_of_check _ (by decide +kernel), by decide +kernel⟩, ⟨State.canon_of_check _ (by decide +kernel), by decide +kernel⟩,
   ⟨State.canon_of_check _ (by decide +kernel), by decide +kernel⟩, State.canon_of_check _ (by decide +kernel), by decide +kernel⟩

theorem wit_loadComplete :
    let s := partSt { state := .loading, stream := some tinyStream }
    let r : State := { s with mill := { brakeLow := true } }
    s.Canon ∧ r.Canon ∧ (s.part 15).state = .loading ∧ (s.part 15).stream = some tinyStream ∧ (s.part 15).rebind.causes = 0 ∧
      0 < (timetableOf (tinyStream.get 15 9)).grid ∧ 0 < (timetableOf (tinyStream.get 15 9)).period ∧ s.mill.brakeLow = false ∧
      r.mill.brakeLow = true := ⟨State.canon_of_check _ (by decide +kernel), State.canon_of_check _ (by decide +kernel), by decide +kernel⟩

theorem wit_unconfirmedKeys : (let s : State := { State.reset with mce := { keyIds := [(63, { state := .retiring, part := 15, gen := 1 })] } }
     (s.mce.keyId 63).state = .retiring ∧ ¬ ((s.mce.keyId 2).state = .retiring ∨ (s.mce.tampered = true ∧ (s.mce.keyId 2).state = .free))) ∧
    (let s : State := { State.reset with mce := { tampered := true } }
     s.mce.tampered = true ∧ (s.mce.keyId 2).state = .free) := by decide +kernel

/-- 15 failures within the last millisecond at each link of `l`. -/
def linkSt (n : Nat) : State := { State.reset with mill := { now := 999999 }, mce := { linkFails := [(1, List.replicate n 0)] } }
/-- Partition 15 with HBM set 0 and identifier 63, and every package link up. -/
def millSt (st : KeyIdState := .assigned) : State :=
  { partSt { firewallOn := true, map := { hbmSets := 1 }, keyIds := [63] } with
    mce := { keyIds := [(63, { state := st, part := 15, gen := 1 })], ring := 0xFF, chord := 0xFF, io := 0xFF, ctrl := 0xFF } }
theorem wit_packageTraffic :
    (let s := millSt
     s.millAdmits (.part 15 0) (.hbmSet 0) = true ∧ (route s.mce.linkUp 3 (MillDest.hbmSet 0).die).isSome = true ∧
     (millSt .retiring).millAdmits (.part 15 0) (.hbmSet 0) = false ∧ s.millAdmits (.part 15 0) (.cluster 0) = false ∧
     (s.part 15).firewallOn = true ∧ (s.part 15).map.admits (.hbmSet 0) = true ∧ (MillDest.hbmSet 0).inMemory = true) ∧
    (let s : State := { millSt with mce := { millSt.mce with ring := 0, chord := 0, io := 0, ctrl := 0 } }
     s.millAdmits (.part 15 0) (.hbmSet 0) = true ∧ route s.mce.linkUp 3 (MillDest.hbmSet 0).die = none) ∧
    (let l : PkgLink := .ring 1
     let n := fun s : State => ((s.mill.now :: NatMap.get [] s.mce.linkFails l.num).filter fun t => decide (s.mill.now < t + 1000000)).length
     (linkSt 14).mce.linkDown.contains l.num = false ∧ n (linkSt 14) = 15 ∧ n (linkSt 15) = 16) := by decide +kernel

/-! ### Registers -/

def selSt : State := priv { tile := 511 }
theorem wit_selectWrites : (0x60000, fun v x => { x with tile := bits v 0 9 }) ∈ selectRegs ∧ selSt.Canon ∧ selSt.mayP op 0x60000 = true ∧
    selSt.life.resetPending = false := ⟨by simp [selectRegs], State.canon_of_check _ (by decide +kernel), by decide +kernel, by decide +kernel⟩
theorem wit_selectWindows :
    (selSt.mayP op 0x30000 = true ∧ (selSt.sel op).part? = some 0 ∧ selSt.mayP op 0x70038 = true ∧ (selSt.sel op).die? = some 0) ∧
    (let s := priv { partAll := true, die := 8 }
     s.mayP op 0x30000 = true ∧ (s.sel op).part? = none ∧ s.mayP op 0x70038 = true ∧ (s.sel op).die? = none ∧
     s.life.resetPending = false) := by decide +kernel

def lockSt : State := { priv {} with mill := { lock := true }, partLock := true, eth := { lock := true }, pwr := { lock := true }, ras := { lock := true } }
theorem wit_protectedRegisters : (0x10008, LockBlock.gov) ∈ wlRegs ∧ lockSt.mayP op 0x10008 = true ∧ lockSt.life.resetPending = false ∧
    lockSt.locked .gov = true ∧ 0x00000 ∈ roRegs ∧ lockSt.mayP op 0 = true := by decide +kernel

theorem wit_lockSet : (priv {}).mayP op LockBlock.sec.addr = true ∧ (priv {}).life.resetPending = false := by decide +kernel

theorem wit_locksKept : (let s : State := { lockSt with life := { phase := .running } }
     s.locked .gov = true ∧ (nx (step s)).life.phase ≠ .held ∧ ∃ t, step s = .next t) := ⟨by decide, by decide +kernel, _, rfl⟩

/-- No session lives: the operator's packets have no session. -/
theorem wit_refusedAccesses : (0x10009 < 2 ^ 39 ∧ (priv {}).life.resetPending = false ∧ 0x10009 % 8 ≠ 0) ∧
    (0x10008 % 8 = 0 ∧ State.reset.mayP op 0x10008 = false ∧ State.reset.life.resetPending = false) := by decide +kernel

def tollSt : State := { priv { part := 15 } with
  parts := [(15, { charter := [1] })], tollFails := [(15, { live := 5000, latch := 3000 })]
  sec := { (priv {}).sec with charters := [] } }
theorem wit_counterReads : (∃ e ∈ mceCounters, (priv {}).mayP op e.1 = true ∧ op ≠ .board) ∧
    (tollSt.Canon ∧ tollSt.mayP op 0x80020 = true ∧ op ≠ .board ∧ (tollSt.sel op).part? = some 15) :=
  ⟨⟨_, List.mem_cons_self .., by decide +kernel⟩, State.canon_of_check _ (by decide +kernel), by decide +kernel, by decide, by decide +kernel⟩

def latchSt : State := { State.reset with mill := { now := 3000000 }, weirs := [(3, { late := { live := 9 } })], tiles := [(511, { topCount := 7 })] }
theorem wit_countersLatch : (∃ s : State, s.mill.now % 1000000 ≠ 0) ∧ (latchSt.mill.now % 1000000 = 0 ∧ latchSt.Canon) :=
  ⟨⟨{ State.reset with mill := { now := 1 } }, by decide⟩, by decide, State.canon_of_check _ (by decide +kernel)⟩

/-- A register request of one register on session 1, or of factory access on the management port. -/
def regPkt (type addr : Nat) (data : List Byte) (session : Nat := 1) (seq : Nat := 0) (count : Nat := 1) : Pkt :=
  let b := beBytes 4 7 ++ beBytes 1 count ++ beBytes 3 0 ++ beBytes 8 addr ++ data
  { port := 8, version := 1, type := type, part := 0xFF, session := session, sender := 1, length := b.length, seq := seq, payload := b, tagOk := true }
theorem wit_registerPackets :
    (let s := lockSt
     s.factoryPkt (regPkt 2 0x10008 (beBytes 8 1)) = false ∧ s.portDrops 8 = false ∧ s.pktFate (regPkt 2 0x10008 (beBytes 8 1)) = .accepted ∧
     s.pktFate (regPkt 1 0x10008 []) = .accepted ∧ (regPkt 2 0x10008 (beBytes 8 1)).regOk = true ∧ (regPkt 1 0x10008 []).regOk = true ∧
     (regPkt 1 0x10008 [] 1 0 17).regOk = false ∧ (regPkt 2 0x10008 []).regOk = false ∧ (regPkt 1 0x10008 []).regCount = 1 ∧
     (regPkt 2 0x10008 (beBytes 8 1)).regAddr = 0x10008) ∧
    (State.reset.factoryPkt (regPkt 2 0x10008 (beBytes 8 1) 0) = true ∧ State.reset.factoryPkt (regPkt 1 0x10008 [] 0) = true) := by decide +kernel
theorem wit_lockedPackets :
    (0x10008, LockBlock.gov) ∈ wlRegs ∧
    (let s := lockSt
     let u := s.modSec fun x => x.setSession 1 ((x.session 1).take 0)
     u.mayP op 0x10008 = true ∧ u.life.resetPending = false ∧ u.locked .gov = true) := by decide +kernel
theorem wit_invalidPackets :
    (let s := priv {}
     let k := { regPkt 1 0x10008 [] with tagOk := false }
     k.sluice = false ∧ s.hears k = true ∧ s.factoryPkt k = false ∧ k.type = 1 ∧ s.awaitsDone k = false ∧ s.portDrops k.port = false ∧
     s.pktFate k = .auth ∧ (s.sec.session k.session).role ≠ 0 ∧ (s.sec.session k.session).lastDrop = none ∧
     s.pktFate (regPkt 1 0x10008 []) = .accepted ∧ (s.sec.session 2).role = 0 ∧ s.pktFate (regPkt 1 0x10008 [] 2) = .auth ∧
     s.hears { k with prio := 3 } = false ∧ s.hears { k with type := 0x30, session := 0 } = true) ∧
    ({ priv {} with ports := [(8, { quarantined := true })] } : State).portDrops 8 = true ∧
    (let s : State := { State.reset with sec := { sessions := [(1, { role := 3, part := 0xFF, seqHigh := some 1024, seqSeen := [1024, 1]
                                                                     lastDrop := some 0 })] } }
     s.pktFate (regPkt 1 0x10008 [] 1 0) = .replay ∧ s.pktFate (regPkt 1 0x10008 [] 1 1) = .replay ∧
     s.pktFate (regPkt 1 0x10008 [] 1 2) = .accepted ∧ s.mill.now < 0 + 1000000) := by decide +kernel

/-! ### Mill time, PTP and the pins -/

/-- A boundary clock whose slave port is port 3; port 4 is enabled too. -/
def ptpSt (m : Mill := {}) : State :=
  { State.reset with mill := { m with ctrl := 2 * 2 ^ 24 + 2 ^ 35 + 2 ^ 36, slavePort := 3 }, ports := [(3, { link := true }), (4, { link := true })] }
def sync20 : PtpMeas := { port := 3, kind := 0, offset := -20, delay := 0, freqPpb := 0 }

theorem wit_ptpMessages :
    ((ptpSt {}).fromParent 3 = true ∧ (ptpSt {}).sluiceOpen = true ∧ (ptpSt {}).mill.role ≠ 0 ∧ (ptpSt {}).ptpOn 3 = true ∧
     (ptpSt {}).mill.slavePort ≠ 0xF ∧ (ptpSt {}).fromParent 4 = false ∧
     ({ ptpSt {} with mce := { tampered := true } } : State).sluiceOpen = false) ∧
    (let s := ptpSt { state := .locked, now := 4000000000 }
     s.mill.state = .locked ∧ s.mill.lastSync + 4 * s.mill.syncInterval ≤ s.mill.now) ∧
    (let s := ptpSt { goodSyncs := 15, gotDelay := true }
     s.mill.gotDelay = true ∧ s.fromParent sync20.port = true ∧ sync20.kind = 0 ∧ sync20.offset.natAbs ≤ 20) ∧
    (let s := ptpSt { goodSyncs := 15, twoStep := some (3, 0) }
     s.mill.gotDelay = false ∧ s.fromParent sync20.port = true ∧ ∃ a, s.mill.twoStep = some (sync20.port, a)) ∧
    ((ptpSt { state := .acquiring }).mayStep = true ∧ ((ptpSt { state := .holdover }).mill.state = .holdover) ∧
     (ptpSt { state := .locked }).mill.state ≠ .holdover ∧ (ptpSt { state := .locked }).mill.state ≠ .acquiring) ∧
    ((ptpSt {}).masterPort 4 = true ∧ (ptpSt {}).masterPort 3 = false) :=
  ⟨by decide +kernel, by decide +kernel, by decide +kernel, ⟨by decide +kernel, by decide +kernel, 0, by decide +kernel⟩, by decide +kernel,
   by decide +kernel⟩

theorem wit_stepsOnly :
    (let s : State := { ptpSt { gotDelay := true } with parts := [(15, { state := .armed })] }
     exec (.ptpSync { sync20 with offset := 1001 }) s = .next (nx (exec (.ptpSync { sync20 with offset := 1001 }) s)) ∧
     s.mayStep = false ∧ s.fromParent 3 = true ∧ s.mill.gotDelay = true ∧ s.mill.stepLimit < (1001 : Int).natAbs) ∧
    (let s : State := ptpSt { gotDelay := true, now := 5000, state := .acquiring }
     (nx (exec (.ptpSync { sync20 with offset := 1001 }) s)).mill.now ≠ s.mill.now) :=
  ⟨⟨rfl, by decide +kernel⟩, by decide +kernel⟩

theorem wit_pins :
    (State.reset.life.phase = .held) ∧
    (let s : State := { State.reset with life := { phase := .running } }
     s.life.phase ≠ .held ∧ (s.mill.role ≠ 0 ∨ bit s.mill.ctrl 29 = false)) ∧
    (let s : State := { State.reset with life := { phase := .running }, mill := { ctrl := 2 ^ 29 } }
     s.life.phase ≠ .held ∧ s.mill.role = 0 ∧ bit s.mill.ctrl 29 = true) ∧
    (let s : State := partSt { state := .draining, map := { clusters := 1 } }
     s.Canon ∧ (s.part 15).state = .draining) ∧
    (let s : State := { State.reset with mill := { ctrl := 2 ^ 30 } }
     bit s.mill.ctrl 30 = true ∧ s.mill.now % 1000000000 = 0 ∧ s.mill.ppsOutLast ≠ some s.mill.now) ∧
    (let s : State := partSt { state := .armed, map := { clusters := 1 } }
     s.Canon ∧ (s.part 15).state = .armed ∧ (s.part 15).gov.braking = false) :=
  ⟨by decide +kernel, by decide +kernel, by decide +kernel, ⟨State.canon_of_check _ (by decide +kernel), by decide +kernel⟩,
   by decide +kernel, State.canon_of_check _ (by decide +kernel), by decide +kernel⟩

/-! ### The Governor -/

/-- A timetable of nine entries, one of each kind but for two power hints, the last with policy RECORD and a deadline. -/
def tinyTt : Timetable :=
  { period := 4096, grid := 2, leaseMs := 100, abortLimit := 8
    entries := [{ offset := 0, kind := 1, deadline := 0, policy := 1, arg := 0 }, { offset := 0, kind := 2, deadline := 4, policy := 1, arg := 0 },
      { offset := 0, kind := 3, deadline := 0, policy := 0, arg := 0 }, { offset := 0, kind := 4, deadline := 0, policy := 0, arg := 0 },
      { offset := 0, kind := 5, deadline := 0, policy := 1, arg := 0 }, { offset := 0, kind := 6, deadline := 0, policy := 0, arg := 0 },
      { offset := 0, kind := 7, deadline := 0, policy := 1, arg := 0 }, { offset := 0, kind := 8, deadline := 0, policy := 0, arg := 0 },
      { offset := 0, kind := 8, deadline := 4, policy := 0, arg := 0 }] }
/-- Partition 15 with cluster 63 in its first revolution, whose entries before `i` are complete. -/
def govSt (i : Nat) (g : Gov := {}) (now : Nat := 0) : State :=
  { priv { part := 15 } with
    mill := { now := now }
    parts := [(15, { state := .running, map := { clusters := 2 ^ 63, syncQuota := 16 }
                     gov := { g with tt := tinyTt, nextRev := 1, leaseExpiry := 1000000
                                     runs := (List.range i).map fun j => (j, { status := .complete }) } })] }

theorem wit_revolutions :
    (let s := partSt { state := .armed, gov := { tt := tinyTt, leaseExpiry := 1 } }
     s.Canon ∧ (s.part 15).state = .armed ∧ (s.part 15).gov.braking = false ∧ (s.part 15).gov.revStart (s.part 15).gov.nextRev ≤ s.mill.now ∧
     s.leaseLapsed 15 = false ∧ (s.part 15).gov.missesAt ((s.part 15).gov.revStart (s.part 15).gov.nextRev) = [] ∧ (s.part 15).gov.revOpen = false) ∧
    (let s := govSt 9 { abortStreak := 0 } 262144
     s.Canon ∧ (s.part 15).state = .running ∧ (s.part 15).gov.braking = false ∧ (s.part 15).gov.revStart (s.part 15).gov.nextRev ≤ s.mill.now ∧
     s.leaseLapsed 15 = false ∧ (s.part 15).gov.missesAt ((s.part 15).gov.revStart (s.part 15).gov.nextRev) = [] ∧ (s.part 15).gov.revOpen = true ∧
     (if (s.part 15).gov.aborted then (s.part 15).gov.abortStreak + 1 else 0) < (s.part 15).gov.tt.abortLimit) ∧
    (let s := partSt { state := .armed, gov := { tt := tinyTt } }
     s.Canon ∧ (s.part 15).state = .armed ∧ (s.part 15).gov.braking = false ∧ (s.part 15).gov.revStart (s.part 15).gov.nextRev ≤ s.mill.now ∧
     s.leaseLapsed 15 = true) :=
  ⟨⟨State.canon_of_check _ (by decide +kernel), by decide +kernel⟩, ⟨State.canon_of_check _ (by decide +kernel), by decide +kernel⟩,
   State.canon_of_check _ (by decide +kernel), by decide +kernel⟩

theorem wit_entriesStart : ∀ i < 9, (govSt i).due 15 i = true ∧ (govSt i).startAllowed 15 = true ∧ (govSt i).leaseLapsed 15 = false ∧
    ((govSt i).part 15).gov.tt.entries[i]?.isSome ∧ ((govSt i).part 15).gov.aborted = false := by decide +kernel
theorem wit_entriesSkipped :
    (∀ i < 8, let s := govSt i {} 1000000
      s.due 15 i = true ∧ s.startAllowed 15 = true ∧ s.leaseLapsed 15 = true) ∧
    (∀ i ∈ [0, 1, 4], let s := govSt i { aborted := true }
      s.due 15 i = true ∧ s.leaseLapsed 15 = false ∧ (s.part 15).gov.aborted = true ∧
      ((s.part 15).gov.tt.entries[i]?.any fun e => endsEntry false e.kind) = true) := by decide +kernel

/-- The first revolution with its phase held, and cluster 63 with a kernel image whose entry point 0 is at 0x800. -/
def heldSt : State :=
  { govSt 0 with
    parts := [(15, { state := .running, map := { clusters := 2 ^ 63 }
                     gov := { tt := tinyTt, nextRev := 1, leaseExpiry := 1000000, step := 2 ^ 32 + 5, runs := [(0, { status := .held })] } })]
    clusters := [(63, { imem := [(1, 8)] })], tiles := [(504, { faultCode := 7 })] }
theorem wit_phases :
    heldSt.Canon ∧ (heldSt.part 15).gov.tt.entries[0]? = some (tinyTt.entries.getD 0 ⟨1, 1, 1, 1, 1⟩) ∧ (heldSt.part 15).gov.phases .running = [] ∧
    ((heldSt.part 15).gov.phases .held).head? = some 0 ∧ 0 % 4096 = 0 ∧ (heldSt.part 15).state = .running ∧ (heldSt.part 15).gov.braking = false ∧
    heldSt.startAllowed 15 = true ∧ (heldSt.cluster 63).unstall.halted = false ∧ 63 ∈ heldSt.partClusters 15 ∧ (heldSt.cluster 63).halted = false ∧
    entryValid (ofLe (NatMap.getList 0 (heldSt.cluster 63).imem (8 * bits 0 16 8) 8)) = true ∧ 504 ∈ heldSt.partTiles 15 ∧
    (heldSt.tile 504).arrA.groups = [] ∧ (heldSt.tile 504).arrB.groups = [] := ⟨State.canon_of_check _ (by decide +kernel), by decide +kernel⟩
theorem wit_freshPhase : (govSt 0).Canon ∧ (let g := ((govSt 0).part 15).gov
    (g.tt.entries[0]?.any fun e => !g.unpreceded e) = true ∧ g.phases .running = [] ∧ g.phases .held = []) :=
  ⟨State.canon_of_check _ (by decide +kernel), by decide +kernel⟩

/-- The window of entry 1 is open and its deadline has come. -/
def windowSt : State :=
  { govSt 0 with
    mill := { now := 256 }
    parts := [(15, { state := .running, map := { clusters := 2 ^ 63 }
                     gov := { tt := tinyTt, nextRev := 1, leaseExpiry := 256, runs := [(1, { status := .running, windowOpen := true })] } })]
    pwr := { hints := [(15, some { index := 3, lapse := some 256 })] } }
/-- Entry 8, of policy RECORD, has missed, and the entries before it are complete. -/
def missSt : State := govSt 8 {} 256
theorem wit_governor :
    (windowSt.Canon ∧ (((windowSt.part 15).gov.runs.filter fun e => e.1 % 4096 == 1 && e.2.windowOpen).head?).isSome ∧
      (windowSt.part 15).gov.tt.entries[1]?.isSome ∧ 0 + 64 * 4 ≤ windowSt.mill.now) ∧
    ((windowSt.part 15).state = .running ∧ (windowSt.part 15).gov.lapsed = false ∧ (windowSt.part 15).gov.leaseExpiry ≤ windowSt.mill.now) ∧
    (NatMap.get none windowSt.pwr.hints 15 = some { index := 3, lapse := some 256 } ∧ 256 ≤ windowSt.mill.now) ∧
    (missSt.Canon ∧ (missSt.part 15).state = .running ∧ (missSt.part 15).gov.braking = false ∧
      ((missSt.part 15).gov.openKeys.filter fun k => k % 4096 == 8 && decide ((missSt.part 15).gov.missAt k ≤ missSt.mill.now)).head? = some 8 ∧
      (missSt.part 15).gov.missesAt ((missSt.part 15).gov.missAt 8) = [⟨8, 0, false⟩]) ∧
    ((govSt 0).Canon ∧ (govSt 0).mayP op 0x10128 = true ∧ ((govSt 0).sel op).part? = some 15 ∧ ((govSt 0).part 15).state = .running ∧
      ((govSt 0).part 15).gov.braking = false ∧ ((govSt 0).part 15).gov.committed = false ∧ ((govSt 0).part 15).gov.aborted = false ∧
      ((govSt 0).weir 15).awaitsCommit = false) ∧
    (((govSt 0 { braking := true }).part 15).gov.braking = true ∧ (govSt 0 { braking := true }).brakeDone 15 = true) ∧
    (let s : State := { partSt { state := .braked, gov := { leaseExpiry := 1 } } with mill := { brakeLow := true } }
     s.Canon ∧ s.mayP op 0x10128 = true ∧ (s.sel op).part? = some 15 ∧ (s.part 15).state = .braked ∧ s.mill.brakeLow = true) ∧
    (let s : State := partSt { state := .braked, gov := { leaseExpiry := 1 } }
     s.Canon ∧ (s.part 15).state = .braked ∧ s.mill.brakeLow = false ∧ s.mill.now < (s.part 15).gov.leaseExpiry ∧
     (s.part 15).rebind.inProgress = false ∧ (s.weir 15).awaitsCommit = false) :=
  ⟨⟨State.canon_of_check _ (by decide +kernel), by decide +kernel⟩, by decide +kernel, by decide +kernel,
   ⟨State.canon_of_check _ (by decide +kernel), by decide +kernel⟩, ⟨State.canon_of_check _ (by decide +kernel), by decide +kernel⟩,
   by decide +kernel, ⟨State.canon_of_check _ (by decide +kernel), by decide +kernel⟩, State.canon_of_check _ (by decide +kernel), by decide +kernel⟩

/-- Entry 1, with the policy given, has missed. -/
def policySt (policy : Nat) (g : Gov := {}) : State :=
  { govSt 0 with
    mill := { now := 256 }
    parts := [(15, { state := .running, map := { clusters := 2 ^ 63 }
                     gov := { g with tt := { tinyTt with entries := [{ offset := 0, kind := 8, deadline := 4, policy := policy, arg := 0 }] }
                                     nextRev := 1, leaseExpiry := 1000000 } })] }
/-- Partition 15 BRAKED while it awaits the release of counter 0, the COMMIT counter. -/
def awaitSt : State :=
  { partSt { state := .braked, gov := { leaseExpiry := 1 } } with
    weirs := [(15, { loaded := true, sync := [(0, { arrived := true })]
                     tbl := { counters := [{ index := 0, scope := 2, commit := true, tiles := 0, fences := [], rootWait := 0 }] } })] }
theorem wit_governorMore :
    (∀ st ∈ [PartState.draining, .scrubbing], let s : State := partSt { state := st }
      (s.part 15).state = st ∧ (s.part 15).gov.lapsed = false ∧ (s.part 15).gov.leaseExpiry ≤ s.mill.now ∧ s.pwr.state = 0) ∧
    (∀ policy ∈ [1, 2], let s := policySt policy
      s.Canon ∧ (s.part 15).state = .running ∧ (s.part 15).gov.braking = false ∧
      ((s.part 15).gov.openKeys.filter fun k => k % 4096 == 0 && decide ((s.part 15).gov.missAt k ≤ s.mill.now)).head? = some 0 ∧
      (s.part 15).gov.missesAt ((s.part 15).gov.missAt 0) = [⟨0, policy, false⟩] ∧ (s.part 15).gov.committed = false ∧
      (s.weir 15).awaitsCommit = false) ∧
    (let s : State := partSt { state := .braked }
     s.mill.brakeLow = false ∧ (s.part 15).gov.leaseExpiry ≤ s.mill.now) ∧
    (let s : State := partSt { state := .braked, gov := { leaseExpiry := 1 }, rebind := { inProgress := true } }
     s.mill.now < (s.part 15).gov.leaseExpiry ∧ (s.part 15).rebind.inProgress = true) ∧
    (awaitSt.Canon ∧ awaitSt.mill.brakeLow = false ∧ awaitSt.mill.now < (awaitSt.part 15).gov.leaseExpiry ∧
     (awaitSt.part 15).rebind.inProgress = false ∧ (awaitSt.weir 15).awaitsCommit = true ∧ ((awaitSt.weir 15).commitEntry).isSome) := by
  refine ⟨by decide +kernel, fun policy h => ⟨State.canon_of_check _ ?_, ?_⟩, by decide +kernel, by decide +kernel, State.canon_of_check _ (by decide +kernel), by decide +kernel⟩
  all_goals revert policy; decide +kernel

/-! ### Compute tiles -/

/-- A TOP from its fields: the lowest bit, the width and the value of each. -/
def mk (l : List (Nat × Nat × Nat)) : Top := BitVec.ofNat 128 (pack l)
/-- Partition 15 in its first revolution, with tile 504 as `x` and the core of its cluster 63 as `c`. -/
def tileSt (x : Tile) (c : Cluster := { running := true }) : State := { govSt 1 with tiles := NatMap.set {} [] 504 x, clusters := [(63, c)] }
/-- Tile 504 with one TOP in flight that has not started. -/
def topSt (t : Top) : State := tileSt { flight := [{ top := t }] }
/-- Tile 504 with one TOP at work. -/
def atWorkSt (t : Top) : State := tileSt { flight := [{ top := t, phase := .running }] }
/-- Flight `i` of tile 504 may start. -/
def readyB (s : State) (want : Top → Bool) : Bool :=
  s.startable 504 want == some 0 && !(s.tile 504).arbitrating &&
    ((s.tile 504).flight[0]?.any fun f => (topFault (s.tileEnv 504) ((s.tile 504).under f) f.top).isNone)

def nopTop : Top := mk [(8, 8, 1)]
/-- WAIT of object 15 for the value 1. -/
def waitTop : Top := mk [(0, 8, 12), (8, 8, 1), (16, 14, 15), (64, 64, 1)]

theorem wit_coreStores :
    ((tileSt { queue := List.replicate 63 0 }).Canon ∧ ((tileSt { queue := List.replicate 63 0 }).cluster 63).executes = true ∧
      (tileSt { queue := List.replicate 63 0 }).queuesTake 63 ((0x100 : Word64) ++ ((tileSt { queue := List.replicate 63 0 }).cluster 63).topLo) = true) ∧
    (((tileSt { queue := List.replicate 64 0 }).cluster 63).executes = true ∧
      (tileSt { queue := List.replicate 64 0 } { running := true, topLo := 0x100 }).queuesTake 63 ((0 : Word64) ++ (0x100 : Word64)) = false) ∧
    (let s := tileSt {} { running := true, stalled := some nopTop }
     s.Canon ∧ (s.cluster 63).stalled = some nopTop ∧ s.queuesTake 63 nopTop = true ∧ 504 ∈ topTiles 63 nopTop ∧ (s.tile 504).drops = false ∧
     505 ∉ topTiles 63 nopTop) ∧
    (let s := tileSt { halted := true } { running := true, stalled := some nopTop }
     (s.cluster 63).stalled = some nopTop ∧ s.queuesTake 63 nopTop = true ∧ (s.tile 504).drops = true) ∧
    (let s := tileSt { queue := List.replicate 64 0 } { running := true, stalled := some nopTop }
     (s.cluster 63).stalled = some nopTop ∧ s.queuesTake 63 nopTop = false) ∧
    (let s := tileSt {} { running := true, halted := true }
     (s.cluster 63).executes = false ∧ (s.cluster 63).stalled = none) :=
  ⟨⟨State.canon_of_check _ (by decide +kernel), by decide +kernel⟩, by decide +kernel, ⟨State.canon_of_check _ (by decide +kernel), by decide +kernel⟩,
   by decide +kernel, by decide +kernel, by decide +kernel⟩

theorem wit_controlCores :
    (let s := tileSt { halted := true } { running := true, extInt := true }
     s.Canon ∧ (s.cluster 63).running = true ∧ (s.cluster 63).halted = false ∧ (s.cluster 63).trapped = false ∧ (s.cluster 63).executes = true) ∧
    (let s := priv { tile := 511 }
     s.mayP op 0x60038 = true ∧ (s.sel op).tile < 512 ∧ 63 = (s.sel op).tile / 8) ∧
    (let s := tileSt {}
     let t : State := { s with parts := [(15, { s.part 15 with gov := (s.part 15).gov.setRun 0 { status := .running } })] }
     t.Canon ∧ t.clusterPart 63 = some 15 ∧ (t.cluster 63).running = true ∧ (t.cluster 63).halted = false ∧ (t.cluster 63).trapped = false ∧
     ((t.part 15).gov.phases .running).head? = some 0 ∧ (t.partClusters 15).all (fun x => x == 63 || (t.cluster x).phaseDone) = true) ∧
    (let s : State := { tileSt {} { running := true, trapped := true } with selects := [(1, { tile := 511 })] }
     ¬ ((s.cluster 63).running = true ∧ (s.cluster 63).halted = false ∧ (s.cluster 63).trapped = false) ∧
     s.mayP op 0x60038 = true ∧ 63 = (s.sel op).tile / 8 ∧ (s.cluster 63).stalled = none) ∧
    (let s : State := { tileSt {} { running := true, stalled := some nopTop } with selects := [(1, { tile := 511 })] }
     s.mayP op 0x60038 = true ∧ 63 = (s.sel op).tile / 8 ∧ (s.cluster 63).stalled ≠ none) ∧
    (priv {}).mayP .board 0x60038 = false :=
  ⟨⟨State.canon_of_check _ (by decide +kernel), by decide +kernel⟩, by decide +kernel, ⟨State.canon_of_check _ (by decide +kernel), by decide +kernel⟩,
   by decide +kernel, by decide +kernel, by decide +kernel⟩

def fillTop (n : Nat) : Top := mk [(0, 8, 8), (8, 8, 1), (16, 8, 0x11), (24, 5, 31), (45, 6, 63), (51, 7, n), (64, 64, 0xFFFFFFFF)]
def addTop : Top := mk [(0, 8, 8), (8, 8, 1), (16, 8, 0x01), (24, 5, 1), (29, 5, 2), (34, 5, 31), (45, 6, 63), (51, 7, 1)]
def fmaTop : Top := mk [(0, 8, 8), (8, 8, 1), (16, 8, 0x04), (24, 5, 1), (29, 5, 2), (34, 5, 31), (39, 5, 1), (45, 6, 63), (51, 7, 1)]
def srSetTop : Top := mk [(0, 8, 8), (8, 8, 1), (16, 8, 0x60), (51, 7, 1)]
def tinCvtTop (n : Nat) : Top := mk [(0, 8, 9), (8, 8, 1), (18, 5, 1), (23, 5, 2), (28, 5, 3), (39, 7, n)]
def loadTop (op n : Nat) : Top := mk [(0, 8, op), (8, 8, 1), (19, 5, 31), (27, 9, 63), (36, 10, n), (46, 6, 63), (52, 7, 1)]
def drainRegTop (n : Nat) : Top := mk [(0, 8, 4), (8, 8, 1), (17, 3, 7), (29, 8, n), (37, 7, 0)]
def drainMemTop (n : Nat) : Top := mk [(0, 8, 5), (8, 8, 1), (17, 3, 7), (29, 8, n)]
def drainTinTop (n : Nat) : Top := mk [(0, 8, 6), (8, 8, 1), (17, 3, 7), (29, 8, n), (37, 7, 64), (66, 2, 1)]
def discardTop : Top := mk [(0, 8, 7), (8, 8, 1), (17, 3, 7), (21, 1, 1)]
/-- An FP32 product of `n` vectors on array A, opening group 7, which keeps the block of the buffer where `k` is 1. -/
def mmaTopOf (n k : Nat) : Top := mk [(0, 8, 1), (8, 8, 1), (42, 8, n), (60, 1, k), (61, 3, 7), (71, 1, 1)]
def signalTop : Top := mk [(0, 8, 13), (8, 8, 1), (16, 14, 15), (64, 64, 1)]
def fenceTop : Top := mk [(0, 8, 14), (8, 8, 1)]
def tollAllocTop (n : Nat) : Top := mk [(0, 8, 10), (8, 8, 1), (24, 40, n)]
def tollFreeTop : Top := mk [(0, 8, 11), (8, 8, 1), (16, 32, 0x10002)]

/-- Tile 504 with a NOP at the head of its queue and one WAIT that has ended behind it. -/
def queueSt : State := tileSt { queue := [waitTop, nopTop], flight := [{ top := fillTop 1 }] }
theorem wit_topsIssued :
    (queueSt.Canon ∧ (queueSt.tile 504).queue = waitTop :: [nopTop] ∧ (queueSt.tile 504).issues = true ∧
      (queueSt.tile 504).flight.any Flight.holdsQueue = false ∧ (topUnits waitTop).all (unitAccepts (queueSt.tile 504).flight) = true ∧
      queueSt.startable 504 rowless = none ∧ topUnits waitTop ≠ []) ∧
    (let s := tileSt { queue := [nopTop] }
     s.Canon ∧ (s.tile 504).queue = nopTop :: [] ∧ (s.tile 504).issues = true ∧ (s.tile 504).flight.any Flight.holdsQueue = false ∧
     (topUnits nopTop).all (unitAccepts (s.tile 504).flight) = true ∧ topOpcode nopTop = 0 ∧ topZeroFrom nopTop 16 = true) ∧
    (readyB (topSt waitTop) (topOpcode · == 12) ∧ readyB (topSt signalTop) (topOpcode · == 13) ∧ readyB (topSt fenceTop) (topOpcode · == 14) ∧
      readyB (topSt (tollAllocTop 1)) (topOpcode · == 10) ∧ tollAllocSize (tollAllocTop 1) ≠ 0 ∧ readyB (topSt tollFreeTop) (topOpcode · == 11) ∧
      readyB (topSt srSetTop) isSrSet ∧ (vecTop srSetTop).count ≠ 0) ∧
    (let run := fun t want => (atWorkSt t).runningTop 504 want = some 0
     run (loadTop 2 1) (fun top => topOpcode top == 2 || topOpcode top == 3) ∧
     run (fillTop 1) (fun top => (topOpcode top == 8 && !isSrSet top) || topOpcode top == 9) ∧ run fenceTop (topOpcode · == 14) ∧
     run srSetTop isSrSet) ∧
    (let s := tileSt { flight := [{ top := srSetTop, phase := .running }] } { keyQueue := [504, 505] }
     s.Canon ∧ (s.cluster 63).keyQueue = 504 :: [505] ∧ s.runningTop 504 isSrSet = some 0) :=
  ⟨⟨State.canon_of_check _ (by decide +kernel), by decide +kernel⟩, ⟨State.canon_of_check _ (by decide +kernel), by decide +kernel⟩, by decide +kernel,
   by decide +kernel, State.canon_of_check _ (by decide +kernel), by decide +kernel⟩

theorem wit_vectorCommands :
    ((0x11, Instr.fill) ∈ vecRows ∧ readyB (topSt (fillTop 0)) (fun top => topOpcode top == 8 && (vecTop top).vop == 0x11) ∧
      (vecTop (fillTop 0)).count = 0 ∧ readyB (topSt (fillTop 1)) (fun top => topOpcode top == 8 && (vecTop top).vop == 0x11) ∧
      (vecTop (fillTop 1)).count ≠ 0) ∧
    (readyB (topSt (tinCvtTop 0)) (topOpcode · == 9) ∧ (tinTop (tinCvtTop 0)).count = 0 ∧ readyB (topSt (tinCvtTop 64)) (topOpcode · == 9) ∧
      (tinTop (tinCvtTop 64)).count ≠ 0) := ⟨⟨by simp [vecRows], by decide +kernel⟩, by decide +kernel⟩

theorem wit_vectorElements :
    ((topSt (fillTop 1)).Canon ∧ readyB (topSt (fillTop 1)) (fun top => topOpcode top == 8 && (vecTop top).vop == 0x11) ∧
      (vecTop (fillTop 1)).axis = 0 ∧ (vecTop (fillTop 1)).first + (vecTop (fillTop 1)).count ≤ 64) ∧
    ((topSt fmaTop).Canon ∧ readyB (topSt fmaTop) (fun top => topOpcode top == 8 && (vecTop top).vop == 0x04) ∧ (vecTop fmaTop).count ≠ 0 ∧
      (vecTop fmaTop).axis = 0 ∧ (vecTop fmaTop).fmt = 0 ∧ (vecTop fmaTop).first + (vecTop fmaTop).count ≤ 64) :=
  ⟨⟨State.canon_of_check _ (by decide +kernel), by decide +kernel⟩, State.canon_of_check _ (by decide +kernel), by decide +kernel⟩

/-- A LOAD with TR of `n` 16-bit columns 4 and 5, and a STORE of two rows at the stride given. -/
def loadTr (n : Nat) : Top := mk [(0, 8, 2), (8, 8, 1), (19, 5, 31), (24, 1, 1), (25, 2, 1), (27, 9, 4), (36, 10, n), (52, 7, 64), (92, 20, 128)]
def storeTwo (stride : Nat) : Top := mk [(0, 8, 3), (8, 8, 1), (19, 5, 31), (27, 9, 2), (36, 10, 2), (52, 7, 64), (92, 20, stride)]
theorem wit_transfers : (topSt (loadTop 2 1)).Canon ∧ readyB (topSt (loadTop 2 1)) (topOpcode · == 2) ∧ (xferTop (loadTop 2 1)).count = 1 ∧
    (xferTop (loadTop 2 1)).tr = false ∧ (xferTop (loadTop 2 1)).first + 1 ≤ 64 ∧ (xferTop (loadTop 2 1)).cell0 + (xferTop (loadTop 2 1)).cells ≤ 64 ∧
    readyB (topSt (loadTop 2 0)) (topOpcode · == 2) ∧ (xferTop (loadTop 2 0)).count = 0 ∧ readyB (topSt (loadTop 3 1)) (topOpcode · == 3) ∧
    readyB (topSt (loadTop 3 0)) (topOpcode · == 3) ∧
    (let d := xferTop (loadTr 2); (topSt (loadTr 2)).Canon ∧ readyB (topSt (loadTr 2)) (topOpcode · == 2) ∧ d.tr = true ∧ d.count = 2) ∧
    (let d := xferTop (storeTwo 256); (topSt (storeTwo 256)).Canon ∧ readyB (topSt (storeTwo 256)) (topOpcode · == 3) ∧ d.space ≤ 1 ∧
      d.rowBytes ≤ d.stride ∧ d.count = 2) :=
  ⟨State.canon_of_check _ (by decide +kernel), by decide +kernel, by decide +kernel, by decide +kernel, by decide +kernel, by decide +kernel,
   by decide +kernel, by decide +kernel, by decide +kernel, by decide +kernel, ⟨State.canon_of_check _ (by decide +kernel), by decide +kernel⟩,
   State.canon_of_check _ (by decide +kernel), by decide +kernel⟩

/-- Tile 504 with group 7 of array A closed and one TOP in flight. -/
def drainSt (t : Top) (p : FlightPhase := .waiting) : State :=
  tileSt { arrA := { groups := [(7, { state := .closed })] }, flight := [{ top := t, phase := p }] }
/-- Tile 504 with a drain at work that met an exponent mismatch. -/
def mismatchSt : State := tileSt { arrA := { groups := [(7, { state := .closed })] }
                                   flight := [{ top := drainRegTop 1, phase := .running, mismatch := true }] }
theorem wit_drains :
    readyB (drainSt (drainRegTop 0)) (topOpcode · == 4) ∧ readyB (drainSt (drainRegTop 1)) (topOpcode · == 4) ∧
    readyB (drainSt (drainMemTop 1)) (topOpcode · == 5) ∧ readyB (drainSt (drainTinTop 1)) (topOpcode · == 6) ∧
    readyB (drainSt discardTop) (topOpcode · == 7) ∧
    (drainSt (drainRegTop 1) .running).runningTop 504 (fun top => topOpcode top == 4 || topOpcode top == 5 || topOpcode top == 6) = some 0 ∧
    mismatchSt.Canon ∧ (mismatchSt.tile 504).owed = [] ∧ (drainTop (drainRegTop 1)).accClose = false ∧
    mismatchSt.runningTop 504 (fun top => topOpcode top == 4 || topOpcode top == 5 || topOpcode top == 6) = some 0 :=
  ⟨by decide +kernel, by decide +kernel, by decide +kernel, by decide +kernel, by decide +kernel, by decide +kernel,
   State.canon_of_check _ (by decide +kernel), by decide +kernel⟩

theorem wit_products :
    (readyB (topSt (mmaTopOf 0 0)) isMma ∧ mmaStreams (mmaTopOf 0 0) = false) ∧
    (readyB (topSt (mmaTopOf 1 0)) isMma ∧ mmaStreams (mmaTopOf 1 0) = true ∧ mmaLoads (mmaTopOf 1 0) = true) ∧
    (let s := tileSt { arrA := { last := some true }, flight := [{ top := mmaTopOf 128 1 }] }
     readyB s isMma ∧ mmaStreams (mmaTopOf 128 1) = true ∧ mmaLoads (mmaTopOf 128 1) = false) ∧
    (let s := tileSt { flight := [{ top := mmaTopOf 1 0, phase := .loading }] }
     s.loadingMma 504 = some 0 ∧ (s.tile 504).arbitrating = false) ∧
    (atWorkSt (mmaTopOf 1 0)).runningTop 504 isMma = some 0 := by decide +kernel

/-! ### Sync objects, objects, the Quern and Leat streams -/

/-- Context 4095, the home of partition 15, resident, with its queue object at index 1, an HBM object of 4,096 bytes at index 2 and one of
65,536 bytes at index 3. Partition 15 runs on cluster 63, channel set 1 and Granary slice 63, under key identifier 63. -/
def homeCtx : Ctx :=
  { state := .resident, slot := 0
    desc := { part := 15, home := true, queues := 1, ringLog2 := 6, objMax := 16, hbmSets := 2, hbmLen := 1048576,
              granary := List.replicate 7 (0, 0) ++ [(0, 8192)] }
    objects := [(1, { live := true, base := 65536, size := 65536 }), (2, { live := true, base := 131072, size := 4096 }),
      (3, { live := true, base := 196608, size := 65536 })] }
def homeSt (x : Tile := {}) (v : Part := {}) : State :=
  { priv { ctx := 4095, part := 15, die := 7 } with
    parts := [(15, { v with state := .running, map := { clusters := 2 ^ 63, hbmSets := 2, granary := 2 ^ 63, syncQuota := 16 }, keyIds := [63] })]
    mce := { keyIds := [(63, { state := .assigned, part := 15, gen := 1, epoch := 1 })] }
    ctxs := [(4095, homeCtx)], tiles := NatMap.set {} [] 504 x, clusters := [(63, { running := true })] }

/-- Tile 504 runs a Toll call, which is at the head of Toll's queue. -/
def tollCallSt (t : Top) (p : FlightPhase := .running) : State :=
  { homeSt { flight := [{ top := t, phase := p }] } with tollQueue := [.tile 504] }
/-- A TOLL_ALLOC of one byte in the tier and with the flags given, its result at offset 16 of the scratchpad; a TOLL_FREE of handle `h`. -/
def allocTop (flags : Nat) : Top := mk [(0, 8, 10), (8, 8, 1), (16, 5, flags), (24, 40, 1), (64, 20, 16)]
def freeTop (h : Nat) : Top := mk [(0, 8, 11), (8, 8, 1), (16, 32, h), (48, 20, 16)]
/-- A segment in flight of a stream of cluster 63 holds object 2 of context 4095 at its first generation. -/
def holding : NatMap LeatRun := [(16 * 63 + 3, { running := true, holds := [[(4095, 2)]] })]
theorem wit_objects :
    (let s : State := { homeSt { flight := [{ top := mk [(0, 8, 10), (8, 8, 1), (16, 5, 4), (24, 40, 1)], phase := .running }] } with tollQueue := [.tile 504] }
     let f := (s.tile 504).flight.headD { top := 0 }
     let s' : State := { s with tollQueue := [] }
     let r := s'.allocate 4095 (clusterDie (tileCluster 504)) (tollAllocFlags f.top) (tollAllocSize f.top)
     s.tollQueue = .tile 504 :: [] ∧ s.tilePart 504 = some 15 ∧ s.runningTop 504 (fun top => topOpcode top == 10 || topOpcode top == 11) = some 0 ∧
     topOpcode f.top = 10 ∧ s.home 15 = some 4095 ∧ r.1 ≠ 0 ∧ r.2.2.tilePart 504 = some 15) ∧
    (let s : State := { homeSt { flight := [{ top := mk [(0, 8, 10), (8, 8, 1), (16, 5, 2), (24, 40, 1)], phase := .running }] } with tollQueue := [.tile 504] }
     let f := (s.tile 504).flight.headD { top := 0 }
     let s' : State := { s with tollQueue := [] }
     let r := s'.allocate 4095 (clusterDie (tileCluster 504)) (tollAllocFlags f.top) (tollAllocSize f.top)
     s.home 15 = some 4095 ∧ r.1 = 0 ∧ (r.2.2.obj 4095 (handleIndex r.2.1)).tier ≠ .granary) ∧
    (let s : State := { tileSt { flight := [{ top := tollFreeTop, phase := .running }] } with tollQueue := [.tile 504] }
     s.tollQueue = .tile 504 :: [] ∧ s.tilePart 504 = some 15 ∧ s.runningTop 504 (fun top => topOpcode top == 10 || topOpcode top == 11) = some 0 ∧
     topOpcode tollFreeTop = 11 ∧ s.home 15 = none) ∧
    (homeSt.Canon ∧ homeSt.ctxLive 4095 = true ∧ homeSt.mayP op 0x80010 = true ∧ (homeSt.sel op).ctx = 4095 ∧ homeSt.current 4095 5 = none ∧
      (homeSt.current 4095 2).isSome = true ∧ homeSt.mayU op 4095 = true ∧ handleIndex 2 ≠ 1 ∧ handleIndex 1 = 1) ∧
    (let s : State := { homeSt with pendingFrees := [{ ctx := 4095, index := 2, gen := 0, tier := .hbm, die := 0, base := 131072, size := 4096 }] }
     s.pendingFrees.length = 1 ∧ s.objBusy 4095 2 0 = false ∧ (s.ctx 4095).ending = 0) ∧
    (let s := tollCallSt (allocTop 9)
     let s' : State := { s with tollQueue := [] }
     let r := s'.allocate 4095 (clusterDie (tileCluster 504)) (tollAllocFlags (allocTop 9)) (tollAllocSize (allocTop 9))
     s.home 15 = some 4095 ∧ r.1 = 0 ∧ (r.2.2.obj 4095 (handleIndex r.2.1)).tier = .granary) ∧
    (let s : State := { tollCallSt (allocTop 2) with ctxs := [] }
     s.tilePart 504 = some 15 ∧ topOpcode (allocTop 2) = 10 ∧ s.home 15 = none) ∧
    ((tollCallSt (freeTop 5)).current 4095 5 = none ∧ ((tollCallSt (freeTop 2)).current 4095 2).isSome ∧
     (tollCallSt (freeTop 2)).objBusy 4095 2 0 = false ∧ (tollCallSt (freeTop 2)).home 15 = some 4095) ∧
    (let s : State := { tollCallSt (freeTop 2) with leats := holding }
     s.Canon ∧ s.objBusy 4095 2 0 = true ∧ (s.current 4095 2).isSome) ∧
    (let s : State := { tollCallSt (freeTop 2) .taken with
       pendingFrees := [{ ctx := 4095, index := 2, gen := 0, tier := .hbm, die := 0, base := 131072, size := 4096, origin := 3 }] }
     s.tollQueue = .tile 504 :: [] ∧ (s.tile 504).flight.findIdx? (·.phase == .taken) = some 0 ∧ s.objBusy 4095 2 0 = false) :=
  ⟨by decide +kernel, by decide +kernel, by decide +kernel, ⟨State.canon_of_check _ (by decide +kernel), by decide +kernel⟩, by decide +kernel,
   by decide +kernel, by decide +kernel, by decide +kernel, ⟨State.canon_of_check _ (by decide +kernel), by decide +kernel⟩, by decide +kernel⟩

def waitCmd : List Byte := leBytes 64 (4 + 256 ^ 8 * 15 + 256 ^ 16 * 1 + 256 ^ 12 * 5)
theorem wit_fences :
    (let s := homeSt { flight := [{ top := waitTop, phase := .running }] }
     s.Canon ∧ (s.weir 15).loaded = false ∧ (s.weir 15).tbl = {} ∧ (s.weir 15).repeatWindow = false ∧ s.clusterPart 63 = some 15 ∧
     15 < (s.part 15).map.syncQuota ∧ 1 ≤ ((2 ^ 63 - 1 : Word64) - s.syncValue 15 15).toNat ∧
     ((2 ^ 63 - 1 : Word64) - s.syncValue 15 15).toNat < 2 ^ 63 ∧
     ¬ (1 ≤ ((2 ^ 63 : Word64) - s.syncValue 15 15).toNat ∧ ((2 ^ 63 : Word64) - s.syncValue 15 15).toNat < 2 ^ 63) ∧
     ¬ (1 ≤ ((0 : Word64) - s.syncValue 15 15).toNat ∧ ((0 : Word64) - s.syncValue 15 15).toNat < 2 ^ 63) ∧
     s.tilePart 504 = some 15 ∧ s.runningTop 504 (topOpcode · == 12) = some 0) ∧
    (let s := homeSt.modQueue 4095 0 fun u => { u with current := some (0, waitCmd) }
     s.Canon ∧ (s.ctx 4095).desc.part = 15 ∧ ((s.ctx 4095).queue 0).current = some (0, waitCmd) ∧ cmdOpcode waitCmd = 4) :=
  ⟨⟨State.canon_of_check _ (by decide +kernel), by decide +kernel⟩, State.canon_of_check _ (by decide +kernel), by decide +kernel⟩

/-- A shard of 16 elements of rule 0 in object 2, and a lagged one of group 5 behind it. -/
def tinyShard : Shard :=
  { tensor := 1, ruleset := 0, lagged := false, group := 0, rowLen := 16, first := 0, count := 16, obj := 2, gradSync := 1, freeSync := 2
    offA := 0, offB := 2048, offF := 0, gradOff := 0, wFmt := 0, rndQ := 0 }
/-- Home context with the lines of object 2, of the rule sets and of commit word 0 written in object 3, and `q` on die 7; sync objects 0 to 2 at 1. -/
def quernSt (q : Quern) (g : Gov := {}) : State :=
  let line := fun n => (n, ({ written := true, kid := 63, keyGen := 1, la := n } : LineMeta))
  let a := (HBM_SET + 196608) / 64
  { homeSt {} { gov := g } with
    weirs := [(15, { sync := [(0, { value := 1 }), (1, { value := 1 }), (2, { value := 1 })] })]
    querns := [(8 * 15 + 7, { q with loaded := true, loadedTable := 3 })]
    hbm := { lines := (List.range 64).map (fun i => line (a - 1024 + i)) ++ (List.range 16).map (fun i => line (a + 4 + i)) ++ [line (a + 32)] } }

theorem wit_quernKeeps :
    (let s := quernSt { shards := [tinyShard], loadRules := [(0, 1)], ready := [0] }
     let q := s.quern 15 7
     let cw := s.commitWord 4095 q 0
     s.Canon ∧ s.home 15 = some 4095 ∧ q.shards[0]? = some tinyShard ∧ s.ingestDue 15 7 0 tinyShard = true ∧ cw.2.1 = none ∧
     (q.runs.any fun e => e.2.ingesting) = false ∧ q.ready.head? ≠ some 1 ∧
     (cw.2.2.quernWrites 4095 2 (q.epoch 0 (!bit cw.1 0) false)
       [((if bit cw.1 0 then 0 else 2048) + partOffset tinyShard (q.layoutRule tinyShard) .grad,
         padded (ingestBytes (readGran cw.2.2.granary ((cw.2.2.part 15).map.slices 7) 0 128)).1)]).1 = none) := by
  exact ⟨State.canon_of_check _ (by decide +kernel), by decide +kernel⟩

theorem wit_quernKeeps2 :
    (let s := quernSt { shards := [tinyShard], runs := [(0, { ingesting := true })] }
     let q := s.quern 15 7
     q.shards[0]? = some tinyShard ∧ (q.run 0).ingesting = true ∧ s.quernOn 15 7 = true ∧ s.stepOn 15 (q.shardStep tinyShard) = true) ∧
    (let s := quernSt { step := 1, groups := [(5, { d := 1, nslot := 2, slots := [(0, { state := .committed }), (1, { state := .committed, version := 1 })] })] }
     s.laggedDue 15 7 5 = true ∧ ∀ k < 2, ((NatMap.get {} (s.quern 15 7).groups 5).slot k).state = .committed) ∧
    (let s := quernSt { step := 1, groups := [(5, { d := 1, nslot := 2, slots := [(0, { state := .committed })] })] }
     s.laggedDue 15 7 5 = true ∧ ((NatMap.get {} (s.quern 15 7).groups 5).slot 1).state = .free ∧
     (∀ j < 2, ((NatMap.get {} (s.quern 15 7).groups 5).slot j).state ≠ .writing) ∧
     ∀ j < 1, ((NatMap.get {} (s.quern 15 7).groups 5).slot j).state ≠ .free) ∧
    (let s := quernSt { step := 1, groups := [(5, { d := 1, nslot := 2, slots := [(1, { state := .writing })] })] }
     s.laggedDue 15 7 5 = true ∧ ((NatMap.get {} (s.quern 15 7).groups 5).slot 1).state = .writing ∧
     ∀ j < 1, ((NatMap.get {} (s.quern 15 7).groups 5).slot j).state ≠ .writing) ∧
    (let s := quernSt { step := 1, groups := [(5, { d := 1, nslot := 2, slots := [(1, { state := .writing })], sweeping := some (0, 1) })] }
     (NatMap.get {} (s.quern 15 7).groups 5).sweeping = some (0, 1) ∧ s.quernOn 15 7 = true ∧
     (s.flipShards 4095 15 7 0 ((s.quern 15 7).groupShards 5)).1 = none) ∧
    (let g : LagGroup := { d := 1, nslot := 2, slots := [(0, { state := .committed })] }
     ∃ e ∈ ((quernSt { step := 1, groups := [(4, g), (5, g)] }).quern 15 7).groups, e.1 < 5 ∧
       e.2.nextStep ≤ (NatMap.get {} ((quernSt { step := 1, groups := [(4, g), (5, g)] }).quern 15 7).groups 5).nextStep) := by decide +kernel

theorem wit_quernSweeps :
    (let s := quernSt { shards := [tinyShard], goSync := 1 }
     let q := s.quern 15 7
     s.Canon ∧ s.home 15 = some 4095 ∧ s.quernOn 15 7 = true ∧ s.stepOn 15 q.step = true ∧ q.latchedFor ≠ some q.step ∧ q.goAwait ≠ q.step + 1 ∧
     waitOk (s.syncValue 15 q.goSync) (BitVec.ofNat 64 (q.step + 1)) = true ∧ (s.readRules 4095 q).2.1 = none) := by
  exact ⟨State.canon_of_check _ (by decide +kernel), by decide +kernel⟩
theorem wit_quernSweeps2 :
    (let s := quernSt { latchedFor := some 0 }
     s.sweepDue 15 7 = true ∧ (s.sweepShards 4095 15 7 0 0 0 (s.quern 15 7).latched (s.quern 15 7).sweepClass).1 = none) ∧
    (let s := quernSt { sweeping := true, sweptSync := 2 }
     (s.quern 15 7).sweeping = true ∧ s.quernOn 15 7 = true ∧ s.stepOn 15 0 = true) ∧
    (let s := quernSt { shards := [tinyShard], swept := true, commitSync := 0 } { step := 1 }
     let q := s.quern 15 7
     let cw := s.commitWord 4095 q 0
     q.loaded = true ∧ q.stopped = false ∧ s.pwr.stopped = false ∧ (s.part 15).state = .running ∧ q.swept = true ∧ q.flipping = false ∧
     waitOk (s.syncValue 15 q.commitSync) (BitVec.ofNat 64 (q.step + 1)) = true ∧ q.step < (s.part 15).gov.step.toNat ∧
     q.sweepClass = [(0, tinyShard)] ∧ cw.2.1 = none ∧
     (cw.2.2.quernWrites 4095 q.loadedTable 0 [(0x800, leBytes 8 (pack [(0, 1, flag (if (q.run 0).skipped then bit cw.1 0 else !bit cw.1 0)),
        (1, 1, flag (q.run 0).skipped), (16, 48, q.step + 1)]))]).1 = none) ∧
    (let s := quernSt { flipping := true, doneSync := 0xFFFF }
     (s.quern 15 7).flipping = true ∧ (s.quern 15 7).doneSync = 0xFFFF ∧ (s.part 15).gov.brakeAfterCommit = false) := by decide +kernel

/-- Stream 15 of cluster 63 with a descriptor of `k` segments of kind FILL into a window of slots of 256 bytes, GO_SYNC 1, target 1. -/
def leatSt (kind : Nat) (segs : List (Nat × Byte)) (r : LeatRun) : State :=
  let a := 0xFFFC00 + 64 * 15
  let d : List (Nat × Byte) := [(0, BitVec.ofNat 8 kind), (4, 1), (6, 2), (8, 3), (10, 1), (0x18, 1), (0x31, 1)].map fun e => (a + e.1, e.2)
  let line : LineMeta := { written := true, kid := 63, keyGen := 1, la := (HBM_SET + 131072) / 64 }
  let s := homeSt
  { s with
    clusters := [(63, { sram := segs ++ d })]
    weirs := [(15, { sync := [(1, { value := 1 }), (3, { value := 1 })] })]
    ctxs := [(4095, { homeCtx with objects := homeCtx.objects ++ [(4, { live := true, flags := 9, tier := .granary, die := 7, size := 4096 })] })]
    hbm := { lines := [((HBM_SET + 131072) / 64, line)], bytes := [(HBM_SET + 131072, 0x5A)] }
    leats := NatMap.set {} [] (16 * 63 + 15) r }
/-- The same stream in a pass of kind `kind` with descriptor bytes `d` beside it; object 5 is an OPEN Pond object. -/
def passSt (d : List (Nat × Byte)) (segs : List (Nat × Byte)) (r : LeatRun) (other : List (Nat × Byte) := []) : State :=
  let base := leatSt 1 segs {}
  { base with
    clusters := [(63, { sram := segs ++ other ++ d.map fun e => (0xFFFC00 + 64 * 15 + e.1, e.2) })]
    ctxs := [(4095, { homeCtx with objects := homeCtx.objects ++ [(4, { live := true, flags := 9, tier := .granary, die := 7, size := 4096 }),
      (5, { live := true, flags := 3, tier := .pond, base := 0, size := 1048576, state := .opened })] })]
    leats := NatMap.set {} [] (16 * 63 + 15) { r with running := true, desc := leBytes 64 ((d.map fun e => e.2.toNat * 256 ^ e.1).sum) } }
def spillBytes : List (Nat × Byte) := [(0, 2), (4, 1), (6, 2), (8, 3), (10, 1), (0x18, 1), (0x31, 1)]
/-- A COPY into handle `h` with SEAL, its segment table at 0x100 and its output table at 0x200. -/
def copyBytes (h : Byte) : List (Nat × Byte) := [(0, 3), (1, 1), (4, 1), (6, 2), (10, 1), (13, 1), (17, 2), (20, h), (0x18, 1)]
/-- A segment of 64 bytes of object 2 at address `a`. -/
def seg64 (a : Nat) : List (Nat × Byte) := [(a, 2), (a + 11, 64)]
/-- The descriptor that stream 15 has latched. -/
def leatDesc : List Byte := NatMap.getList 0 ((leatSt 1 [] {}).cluster 63).sram (0xFFFC00 + 64 * 15) 64

theorem wit_leats :
    (let s := leatSt 1 [] {}
     let d := leatDescOf leatDesc
     s.Canon ∧ 15 < 16 ∧ s.clusterPart 63 = some 15 ∧ d.kind ≠ 0 ∧ (s.leat 63 15).running = false ∧ s.stepRuns 15 = true ∧
     d.goSync < (s.part 15).map.syncQuota ∧ waitOk (s.syncValue 15 d.goSync) (BitVec.ofNat 64 d.goTarget) = true ∧
     d.ok (s.part 15).map.syncQuota = true) ∧
    (let d := leatDescOf (NatMap.getList 0 ((leatSt 4 [] {}).cluster 63).sram (0xFFFC00 + 64 * 15) 64)
     (leatSt 4 [] {}).Canon ∧ d.kind ≠ 0 ∧ d.ok 16 = false) ∧
    (let s := leatSt 1 [] { running := true, desc := leatDesc }
     let r := s.leat 63 15
     let d := leatDescOf r.desc
     s.Canon ∧ r.running = true ∧ r.stopping = false ∧ r.issued < d.count ∧ d.kind = 1 ∧
     waitOk (s.syncValue 15 d.releaseSync) (BitVec.ofNat 64 (d.segBase + r.issued + 1 + 2 ^ 64 - (s.part 15).window)) = true ∧
     (leatSegOf (NatMap.getList 0 (s.cluster 63).sram (d.segTable + 16 * r.issued) 16)).len = 0) ∧
    (let s := leatSt 1 [(0, 2), (11, 64)] { running := true, desc := leatDesc }
     let g := leatSegOf (NatMap.getList 0 (s.cluster 63).sram 0 16)
     s.Canon ∧ g.len = 64 ∧ g.len ≤ (leatDescOf leatDesc).slotBytes ∧ (s.streamObj 15 (clusterDie 63) 0 256).isSome = true ∧ g.src = 0 ∧ g.coded = 0 ∧
     s.home 15 = some 4095 ∧ (s.checkObj 4095 g.handle g.off g.len .leatRead).isOk = true ∧
     ((s.segRead 4095 g.handle (s.obj 4095 2) g.off g.len).1.toOption.map (·.fail)) = some none) ∧
    (let s := leatSt 1 [(0, 2), (6, 64), (11, 64)] { running := true, desc := leatDesc }
     let g := leatSegOf (NatMap.getList 0 (s.cluster 63).sram 0 16)
     s.Canon ∧ g.len = 64 ∧ (s.checkObj 4095 g.handle g.off g.len .leatRead).isOk = true ∧
     (((s.segRead 4095 g.handle (s.obj 4095 2) g.off g.len).1.toOption.bind (·.fail)).isSome = true)) ∧
    (let s := passSt spillBytes (seg64 0) {}
     let r := s.leat 63 15
     let d := leatDescOf r.desc
     let g := leatSegOf (NatMap.getList 0 (s.cluster 63).sram d.segTable 16)
     s.Canon ∧ r.running = true ∧ r.stopping = false ∧ r.issued < d.count ∧ d.kind = 2 ∧
     waitOk (s.syncValue 15 d.releaseSync) (BitVec.ofNat 64 (d.segBase + r.issued + 1)) = true ∧ g.len ≠ 0 ∧ g.len ≤ d.slotBytes ∧
     (s.streamObj 15 (clusterDie 63) d.winOff ((s.part 15).window * d.slotBytes)).isSome = true ∧ g.src = 0 ∧ g.coded = 0 ∧
     (s.checkObj 4095 g.handle g.off g.len .hbmWrite).isOk = true ∧
     (s.writeObj 4095 (s.obj 4095 2) g.off (readGran s.granary ((s.part 15).map.slices (clusterDie 63)) 0 g.len)).1 = none) ∧
    (leatSegOf (NatMap.getList 0 ((passSt spillBytes [] {}).cluster 63).sram 0 16)).len = 0 ∧
    (let s := passSt (copyBytes 3) (seg64 0x100) {}
     let r := s.leat 63 15
     let d := leatDescOf r.desc
     let g := leatSegOf (NatMap.getList 0 (s.cluster 63).sram (d.segTable + 16 * r.issued) 16)
     s.Canon ∧ r.running = true ∧ r.stopping = false ∧ r.issued < d.count ∧ d.kind = 3 ∧ r.done = r.issued ∧ g.bad = false ∧ g.src = 0 ∧ g.len ≠ 0 ∧
     s.home 15 = some 4095 ∧ (s.current 4095 d.dst).map (·.tier) = some .hbm ∧ (s.current 4095 g.handle).map (·.tier) = some .hbm) ∧
    (let s := passSt (copyBytes 5) (seg64 0x100) { issued := 1, done := 1 }
     let d := leatDescOf (s.leat 63 15).desc
     s.Canon ∧ (s.leat 63 15).stopping = false ∧ d.count ≤ (s.leat 63 15).done ∧ d.copy = true ∧ d.seal = true ∧
     (s.current 4095 d.dst).map (fun o => (o.tier, o.state)) = some (.pond, .opened)) ∧
    (let s := passSt (copyBytes 5) (seg64 0x100) { issued := 1 }
     (s.leat 63 15).done < (s.leat 63 15).issued ∧ (leatDescOf (s.leat 63 15).desc).copy = true) ∧
    (let s := leatSt 1 [] { running := true, desc := leatDesc, issued := 1 }
     (s.leat 63 15).stopping = false ∧ (s.leat 63 15).done < (s.leat 63 15).issued ∧ (leatDescOf leatDesc).copy = false) ∧
    (let s := leatSt 1 [] { running := true, desc := leatDesc, issued := 1, done := 1 }
     (s.leat 63 15).stopping = false ∧ (leatDescOf leatDesc).count ≤ (s.leat 63 15).done) :=
  ⟨⟨State.canon_of_check _ (by decide +kernel), by decide +kernel⟩, ⟨State.canon_of_check _ (by decide +kernel), by decide +kernel⟩,
   ⟨State.canon_of_check _ (by decide +kernel), by decide +kernel⟩, ⟨State.canon_of_check _ (by decide +kernel), by decide +kernel⟩,
   ⟨State.canon_of_check _ (by decide +kernel), by decide +kernel⟩, ⟨State.canon_of_check _ (by decide +kernel), by decide +kernel⟩, by decide +kernel,
   ⟨State.canon_of_check _ (by decide +kernel), by decide +kernel⟩, ⟨State.canon_of_check _ (by decide +kernel), by decide +kernel⟩, by decide +kernel,
   by decide +kernel, by decide +kernel⟩

/-! ### Tables of the die, collectives and the Weir -/

/-- Partition 15 braked, with a collective table of one MIRROR in object 2 of its home context. -/
def tableSt (w : Weir := {}) (q : Quern := {}) (st : PartState := .braked) : State :=
  let line := fun n => (n, ({ written := true, kid := 63, keyGen := 1, la := n } : LineMeta))
  let a := HBM_SET + 131072
  { homeSt with
    parts := [(15, { (homeSt.part 15) with state := st })]
    weirs := NatMap.set {} [] 15 { w with table := 2 }, querns := NatMap.set {} [] (8 * 15 + 7) q
    hbm := { lines := [line (a / 64), line (a / 64 + 1)]
             bytes := [(a, 1), (a + 2, 1), (a + 8, 2), (a + 9, 1), (a + 10, 1), (a + 11, 1), (a + 64, 8), (a + 70, 0xFF), (a + 71, 0xFF),
               (a + 72, 0xFF), (a + 73, 0xFF)] } }

/-- Partition 15 braked with a shard table of one shard of 32 elements of rule 0 in object 3, and half A of the shard written in object 2. -/
def shardTableSt : State :=
  let line := fun n => (n, ({ written := true, kid := 63, keyGen := 1, la := n } : LineMeta))
  let a := HBM_SET + 196608
  let fmt : List Byte := leBytes 96 (2 ^ 16 + 256 ^ 66 + 256 ^ 72)
  let s := tableSt {} { table := 3 }
  { s with
    parts := [(15, { s.part 15 with format := fmt })]
    hbm := { lines := ((List.range 32).map fun i => line (a / 64 - 1024 + i)) ++ (List.range 546).map fun i => line (a / 64 + i)
             bytes := [(a, 1), (a + 2, 1), (a + 256 + 26, 0x80), (a + 256 + 27, 0x3F), (a + 34816, 1), (a + 34816 + 16, 32), (a + 34816 + 24, 2),
               (a + 34816 + 41, 8)] } }
def mirrorObj : Obj := { live := true, flags := 0x14, tier := .pond, base := 0, size := 8192, epoch := 2, epochB := 3 }
def mirrorDesc : CollDesc :=
  { kind := 8, fmt := 0, headroom := 0, scope := 0, die := 7, rootPos := 0, inSync := 0xFFFF, doneSync := 0xFFFF, src := 0, dst := 6, expLen := 0
    srcOff := 0, dstOff := 0, piece := 4096, expOff := 0 }
/-- Partition 15 braked with a collective table of one MIRROR of 4,096 bytes into object 6, whose slots hold the trailers of versions `a` and `b`. -/
def mirrorSt (a b : Option Nat) : State :=
  let line := fun n e => (n, ({ written := true, kid := 63, keyGen := 1, la := n, epoch := e } : LineMeta))
  let slot := fun (v : Option Nat) (at_ : Nat) => match v with
    | none => []
    | some n => (List.range 4).map (fun j => (at_ + j, BitVec.ofNat 8 (mirrorMagic / 256 ^ j))) ++ [(at_ + 8, BitVec.ofNat 8 n)]
  let s := tableSt { loaded := true, argHandle := 6, tbl := { colls := [mirrorDesc] } }
  { s with
    ctxs := [(4095, { homeCtx with desc := { homeCtx.desc with pondLen := 1048576 }, objects := homeCtx.objects ++ [(6, mirrorObj)] })]
    parts := [(15, { s.part 15 with map := { (s.part 15).map with pond := [(0, 4)] } })]
    pond := { lines := [line 0 2, line 64 3], bytes := slot a 0 ++ slot b 4096 } }

theorem wit_tables :
    ((tableSt).Canon ∧ ((tableSt).sel op).part? = some 15 ∧ ((tableSt).sel op).die? = some 7 ∧ ((tableSt).part 15).state = .braked ∧
      (tableSt).mayP op 0x70008 = true ∧ ((tableSt).quern 15 7).cmdBusy = false ∧ ((tableSt).quern 15 7).idle = true ∧
      ((tableSt).checkShardTable 15 7 0).1 ≠ 0 ∧ ((tableSt).checkShardTable 15 7 0).2.2.1 = none ∧ (tableSt).mayP op 0x20008 = true ∧
      ((tableSt).weir 15).cmdBusy = false ∧ ((tableSt).checkCollTable 15).1 = 0 ∧ ((tableSt).checkCollTable 15).2.2.1 = none ∧
      ((tableSt).weir 15).fleetRoot = false ∧ (tableSt).home 15 = some 4095 ∧ (tableSt).current 4095 ((tableSt).weir 15).argHandle = none) ∧
    (let s := tableSt {} { sweeping := true }
     (s.quern 15 7).idle = false ∧ (s.quern 15 7).cmdBusy = false) ∧
    (let s := tableSt {} {} .running
     (s.part 15).state ≠ .armed ∧ (s.part 15).state ≠ .braked ∧ (s.weir 15).cmdBusy = false) ∧
    (let s := tableSt { loaded := true, members := 3, tbl := { replicas := 2, domainSize := 1 } }
     (s.weir 15).fleetRoot = true ∧ (s.weir 15).cmdBusy = false) :=
  ⟨⟨State.canon_of_check _ (by decide +kernel), by decide +kernel⟩, by decide +kernel, by decide +kernel, by decide +kernel⟩
/-- The seeding of the table of `shardTableSt`. -/
def seeding : Seeding :=
  let s := shardTableSt
  let tb := (s.checkShardTable 15 7 3).2.1
  let u := (s.checkShardTable 15 7 3).2.2.2
  let ep := if tb.shards.any (·.lagged) then u.takeEpoch (s.ctxKid 4095) else (0, u)
  let w := ep.2.quernWrites 4095 3 0 [(0x800, seedWords tb 0)]
  (tb.shards.zipIdx.map fun e => (e.2, e.1)).foldl (fun z e => Seeding.shard z 4095 15 tb ep.1 e) { s := w.2, fail := w.1 }
theorem wit_shardTable : shardTableSt.Canon ∧ (shardTableSt.part 15).state = .braked ∧ shardTableSt.mayP op 0x70008 = true ∧
    (shardTableSt.quern 15 7).idle = true ∧ (shardTableSt.quern 15 7).table = 3 ∧ shardTableSt.home 15 = some 4095 :=
  ⟨State.canon_of_check _ (by decide +kernel), by decide +kernel⟩
/-- The object of the shard table of `shardTableSt`. -/
def tblObj : Obj := { live := true, tier := .hbm, base := 196608, size := 65536, state := .plain }
/-- The runs of Mill addresses of its first 0x8800 bytes. -/
def tblRuns : List (Nat × Nat) := ((List.range 8).map fun k => (9663873024 + 4096 * k, 4096)) ++ [(9663905792, 2048)]
/-- The bytes of those runs. -/
def tblBytes : List Byte := (tblRuns.map fun r => (List.range r.2).map fun i => shardTableSt.hbm.get (r.1 + i)).flatten
/-- Every line of a run passes the checks of the memory engine. -/
def tblGood (r : Nat × Nat) : Bool := (linesOf r.1 r.2).all fun n => decide ((shardTableSt.hbm.line n).find (shardTableSt.cred 4095 0) n = .good)
theorem tbl_lines1 : ((tblRuns.take 3).all tblGood) = true := by decide +kernel
theorem tbl_lines2 : (((tblRuns.drop 3).take 3).all tblGood) = true := by decide +kernel
theorem tbl_lines3 : ((tblRuns.drop 6).all tblGood) = true := by decide +kernel
theorem tbl_lines : (tblRuns.all tblGood) = true := by
  have h : tblRuns = tblRuns.take 3 ++ ((tblRuns.drop 3).take 3 ++ tblRuns.drop 6) := by decide
  rw [h, List.all_append, List.all_append, tbl_lines1, tbl_lines2, tbl_lines3]; rfl
theorem tbl_home : shardTableSt.home 15 = some 4095 := by decide +kernel
theorem tbl_obj : shardTableSt.quernObj 4095 3 0 0x8800 = some tblObj := by decide +kernel
theorem tbl_runs : shardTableSt.objRuns 4095 tblObj (0x8800 / 4096 + 2) 0 0x8800 = tblRuns := by decide +kernel
theorem tbl_mce : shardTableSt.mce.count {} = shardTableSt.mce := by decide +kernel
theorem tbl_tier : tblObj.tier = Tier.hbm := rfl
/-- The first 0x8800 bytes of the table read as they stand, and no line fails. -/
theorem tbl_read : shardTableSt.readObj 4095 tblObj 0 0x8800 = (tblBytes, none, shardTableSt) := by
  have h : Dram.readRuns (shardTableSt.cred 4095 0) tblRuns shardTableSt.hbm = (tblBytes, shardTableSt.hbm, {}) := Dram.readRuns_good tbl_lines
  simp only [State.readObj, tbl_runs, h, tbl_mce, tbl_tier]
theorem tbl_epoch : ({ tblObj with epoch := 0 } : Obj) = tblObj := rfl
theorem tbl_reads : shardTableSt.quernReads 4095 3 0 [(0, 0x8800)] = ([tblBytes], none, shardTableSt) := by
  simp only [State.quernReads, tbl_obj, tbl_epoch, tbl_read]
  rfl
/-- The table as it is read. -/
def tblRead : ShardTable :=
  let e := (shardTableSt.quernReads 4095 3 0 [(0x8800, 64)]).1.headD []
  let entries := (chunksOf 64 e).take 1
  { head := tblBytes, entries := entries, shards := entries.map fun b => shardOf b (shardTableSt.part 15).format }
theorem tbl_count : field tblBytes 2 2 = 1 := by decide +kernel
theorem tbl_entry : (shardTableSt.quernReads 4095 3 0 [(0x8800, 64)]).2 = (none, shardTableSt) := by decide +kernel
theorem wit_shardTableOk : shardTableSt.checkShardTable 15 7 3 = (0, tblRead, none, shardTableSt) := by
  have e1 : (shardTableSt.quernReads 4095 3 0 [(0x8800, 64)]).2.1 = none := by rw [tbl_entry]
  have e2 : (shardTableSt.quernReads 4095 3 0 [(0x8800, 64)]).2.2 = shardTableSt := by rw [tbl_entry]
  simp only [State.checkShardTable, tbl_home, tbl_obj, tbl_tier, tbl_reads, List.headD_cons, tbl_count, ne_eq, not_true_eq_false, if_false, Nat.mul_one, e1, e2]
  rw [if_neg (by decide +kernel), if_neg (by decide +kernel), if_neg (by decide +kernel), if_neg (by decide +kernel), if_neg (by decide +kernel)]
  rfl
theorem wit_shardTableSeeded : seeding.fail = none := by
  simp only [seeding, wit_shardTableOk]
  decide +kernel
theorem wit_mirrors : ∀ e ∈ [(none, none), (some 3, none), (some 4, some 4), (none, some 3), (some 3, some 5)], let s := mirrorSt e.1 e.2
    s.Canon ∧ (s.part 15).state = .braked ∧ s.mayP op 0x20008 = true ∧ (s.weir 15).cmdBusy = false ∧ s.home 15 = some 4095 ∧
    s.current 4095 (s.weir 15).argHandle = some mirrorObj ∧ mirrorObj.flags = 0x14 ∧ 2 * 4096 ≤ mirrorObj.size ∧
    ((s.quern 15 7).mirrorLayout).2 + 64 ≤ 4096 ∧
    ∃ c, (s.weir 15).tbl.colls.find? (fun c => c.kind == 8 && c.dst == (s.weir 15).argHandle) = some c ∧ c.piece = 4096 ∧ c.die = 7 ∧
      (s.mirrorVersion 15 4095 mirrorObj c 0).1 = e.1 ∧ ((s.mirrorVersion 15 4095 mirrorObj c 0).2.mirrorVersion 15 4095 mirrorObj c 1).1 = e.2 := by
  intro e h
  refine ⟨State.canon_of_check _ ?_, ?_, ?_, ?_, ?_, ?_, ?_, ?_, ?_, mirrorDesc, ?_⟩
  all_goals revert e; decide +kernel

/-- Partition 15 in its first revolution with the window of entry 1 open, a table of one fence, one commit counter and one MIRROR,
and SESSION 2, on which a member is reached, as `e`. -/
def collSt (w : Weir := {}) (e : Session := {}) : State :=
  { govSt 1 with
    parts := [(15, { state := .running, map := { clusters := 2 ^ 63, syncQuota := 16 }
                     gov := { tt := tinyTt, nextRev := 1, leaseExpiry := 1000000, revCount := 1
                              runs := [(1, { status := .running, windowOpen := true, grants := [(7, 1)] })] } })]
    mill := { now := 2000 }
    weirs := [(15, { w with
      loaded := true, members := 3
      tbl := { replica := 1, replicas := 2, domainSize := 2, excludeAfter := 1, minMembers := 1
               counters := [{ index := 5, scope := 1, commit := true, tiles := 0, fences := [], rootWait := 31 },
                 { index := 6, scope := 2, commit := false, tiles := 0, fences := [], rootWait := 31 }]
               colls := [{ kind := 8, fmt := 0, headroom := 0, scope := 0, die := 0, rootPos := 0, inSync := 0xFFFF, doneSync := 0xFFFF
                           src := 0, dst := 0, expLen := 0, srcOff := 0, dstOff := 0, piece := 0, expOff := 0 }] } })]
    sec := { sessions := [(2, { e with role := 4, part := 15, port := 7 })] }, ports := [(7, { mac := 0x77 })] }
/-- A packet of SESSION 2 with its next SEQ. -/
def memberPkt (type : Nat) (b : List Byte) : Pkt :=
  { port := 7, prio := typePrio type, version := 1, type := type, part := 15, session := 2, sender := 1, length := b.length, seq := 1, payload := b, tagOk := true }
/-- A chunk of collective 0 of domain `rep` and step `step`, with no block. -/
def chunkOf (rep step : Nat) : List Byte := (ChunkHead.bytes { coll := 0, kind := 7, level := 0, rep := rep, pos := 1, blocks := 0, step := step, first := 4, digest := 0 })
/-- The chunk of the MIRROR's sender. -/
def mirrorChunk : List Byte :=
  ChunkHead.bytes { coll := 0, kind := 8, level := 0, rep := 1, pos := 1, blocks := 0, step := 0, first := 4, digest := 0 }
def nackOf : List Byte := leBytes 2 0 ++ [0, 1, 1, 0, 0, 0] ++ leBytes 8 4 ++ leBytes 8 0

theorem wit_collectives :
    ((collSt { colls := [(0, { rev := 1 })] }).Canon ∧ ((collSt { colls := [(0, { rev := 1 })] }).collDesc 15 0).isSome = true ∧
      (collSt { colls := [(0, { rev := 1 })] }).collWindow 15 0 = .isOpen ∧
      (collSt { colls := [(0, { rev := 1 })] }).coll 15 0 = (collSt { colls := [(0, { rev := 1 })] }).freshColl 15 0 ∧
      ((collSt { colls := [(0, { rev := 1 })] }).coll 15 0).started = false) ∧
    (let k := memberPkt 0x20 (chunkOf 1 1)
     let s := collSt {} { owed := 6 }
     (s.takePkt k).1 = true ∧ (chunkHead k.payload).step ≠ ((s.takePkt k).2.part 15).gov.step.toNat ∧ ((s.takePkt k).2.sec.session 2).owed < 7) ∧
    (let k := memberPkt 0x20 (chunkOf 2 0)
     let s := collSt {} { owed := 6 }
     (s.takePkt k).1 = true ∧ bit ((s.takePkt k).2.weir 15).members (chunkHead k.payload).rep = false) ∧
    ((collSt {}).takePkt (memberPkt 0x21 (leBytes 4 3))).1 = true ∧
    (let s := collSt { colls := [(0, { rev := 1, sent := [(2, chunkOf 1 0)] })] } { credits := 1 }
     let k := memberPkt 0x22 nackOf
     (s.takePkt k).1 = true ∧ s.collWindow 15 0 = .isOpen ∧ s.maySend 15 0 = true ∧ 0 < (s.sec.session 2).credits ∧ (s.sec.session 2).waiting = [] ∧
     ((s.coll 15 0).sent.find? fun e => e.1 == 2 && (chunkHead e.2).key == (field nackOf 2 1, field nackOf 3 1, field nackOf 4 1, field nackOf 8 8)
       && (chunkHead e.2).step == field nackOf 16 8) = some (2, chunkOf 1 0)) ∧
    (let k := memberPkt 0x23 nackOf
     let s := collSt { colls := [(0, { rev := 1, sent := [(2, chunkOf 1 0)] })] }
     (s.takePkt k).1 = true ∧ ((s.takePkt k).2.collDesc 15 0).isSome = true ∧
     ((s.coll 15 0).sent.filter (·.1 == 2)).getLast? = some (2, chunkOf 1 0) ∧ (chunkHead (chunkOf 1 0)).first = field nackOf 8 8 ∧
     (chunkHead (chunkOf 1 0)).step = field nackOf 16 8) ∧
    (let k := memberPkt 0x20 mirrorChunk
     let s := collSt { colls := [(0, { rev := 1 })] }
     let u := (s.takePkt k).2
     let h := chunkHead k.payload
     (s.takePkt k).1 = true ∧ h.step = (u.part 15).gov.step.toNat ∧ bit (u.weir 15).members h.rep = true ∧ u.collWindow 15 h.coll ≠ .closed ∧
     (u.collDesc 15 h.coll).any (fun d => d.senderOk (u.weir 15) h) = true ∧ (u.coll 15 h.coll).failed = false ∧
     (u.coll 15 h.coll).complete = false ∧ h.key ∉ (u.coll 15 h.coll).received ∧ (u.coll 15 h.coll).started = false) ∧
    ((collSt {} {}).sec.session 2).waiting = [] ∧
    (let s := collSt { colls := [(0, { rev := 1, sent := [(2, chunkOf 1 0)] })] } { credits := 0 }
     s.maySend 15 0 = true ∧ ((s.takePkt (memberPkt 0x22 nackOf)).2.sec.session 2).credits = 0) ∧
    (let s := collSt {} { owed := 7, owedSince := 0 }
     s.mill.now < (s.sec.session 2).owedSince + 2001 ∧ s.portsStopped 15 = false ∧ (s.port 7).mac ≠ 0 ∧ s.portDrops 7 = false) ∧
    (let s := collSt {} { owed := 7, owedSince := 1 }
     s.mill.now < (s.sec.session 2).owedSince + 2000) ∧
    (let s := collSt {} { owed := 7, owedSince := 0 }
     s.Canon ∧ (s.sec.session 2).owedSince + 2000 ≤ s.mill.now ∧ (s.sec.session 2).role = 4 ∧ (s.sec.session 2).owed ≠ 0) :=
  ⟨⟨State.canon_of_check _ (by decide +kernel), by decide +kernel⟩, by decide +kernel, by decide +kernel, by decide +kernel, by decide +kernel,
   by decide +kernel, by decide +kernel, by decide +kernel, by decide +kernel, by decide +kernel, by decide +kernel,
   State.canon_of_check _ (by decide +kernel), by decide +kernel⟩

/-- An arrival on counter 5 for epoch 1. -/
def arrivalOf : List Byte := leBytes 2 0 ++ leBytes 2 5 ++ leBytes 4 1 ++ leBytes 24 1
theorem wit_weirEvents :
    (let s := collSt {}
     let k := memberPkt 0x28 arrivalOf
     let w := (s.takePkt k).2.weir 15
     s.Canon ∧ (s.takePkt k).1 = true ∧ (w.counterEntry 5).isSome = true ∧ (weirMsgOf arrivalOf).kind = 0 ∧ (weirMsgOf arrivalOf).index = 5 ∧
     (w.counterEntry 5).any w.isRoot = true ∧ (w.obj 5).epoch ≠ (weirMsgOf arrivalOf).epoch) ∧
    (let s := collSt { sync := [(5, { firstArrival := some 16 })] }
     ((s.weir 15).counterEntry 5).any (s.weir 15).isRoot = true ∧ ((s.weir 15).obj 5).firstArrival = some 16 ∧
     ((s.weir 15).obj 5).failed = false ∧ 16 + 64 * 31 ≤ s.mill.now) ∧
    (let s := collSt {}
     ((s.weir 15).counterEntry 6).isSome = true ∧ ((s.weir 15).counterEntry 6).any (s.weir 15).isRoot = false ∧ ((s.weir 15).obj 6).failed = false ∧
     ((s.weir 15).counterEntry 5).any (s.weir 15).isRoot = true ∧ ((s.weir 15).obj 5).failed = false) ∧
    (let s := collSt { sync := [(5, { failed := true })] }
     ((s.weir 15).counterEntry 5).isSome = true ∧ ((s.weir 15).obj 5).failed = true) ∧
    (let s : State := { quernSt { shards := [tinyShard] } with resolves := [(15, { busy := true, shards := [(7, 0)] })] }
     let v : LeafVote := { die := 7, shard := 0, leaf := 0, leaves := 65, versionDiffers := false, twins := [(0, 0)] }
     let cw := s.commitWord 4095 (s.quern 15 7) 0
     let r := cw.2.2.quernReads 4095 2 ((s.quern 15 7).epoch 0 (bit cw.1 0) false) [((if bit cw.1 0 then 2048 else 0) + 8, 8)]
     s.Canon ∧ s.home 15 = some 4095 ∧ (s.quern 15 v.die).shards[v.shard]? = some tinyShard ∧ (NatMap.get {} s.resolves 15).busy = true ∧
     (v.die, v.shard) ∈ (NatMap.get {} s.resolves 15).shards ∧ 64 < v.leaves ∧ cw.2.1 = none ∧ r.1 = [leBytes 8 0] ∧ r.2.1 = none ∧
     ∀ e ∈ v.twins, e.1 = 0) :=
  ⟨⟨State.canon_of_check _ (by decide +kernel), by decide +kernel⟩, by decide +kernel, by decide +kernel, by decide +kernel,
   State.canon_of_check _ (by decide +kernel), by decide +kernel⟩

/-! ### RoCEv2, queue pairs, command queues and contexts -/

/-- Home context 4095 with queue pair 8191 as `q` on port 7, whose MAC address is 1, and line 0 of object 2 written. -/
def roceSt (q : Qp) : State :=
  let line : LineMeta := { written := true, kid := 63, keyGen := 1, la := (HBM_SET + 131072) / 64 }
  { homeSt with
    qps := NatMap.set {} [] 8191 q, ports := [(7, { mac := 1 })], mill := { now := 55000 }
    selects := [(1, { ctx := 4095, part := 15, qp := 8191 })]
    hbm := { lines := [((HBM_SET + 131072) / 64, line)], bytes := [(HBM_SET + 131072, 0x5A)] } }
def rtsQp : Qp := { state := .rts, onPart := 15, onCtx := 4095, onPort := 7, expPsn := 2 ^ 24 - 1 }
/-- A request of queue pair 8191 in sequence. -/
def roceReq (len rkey : Nat) (bs : List Byte) (last : Bool) : RoceReq :=
  { qp := 8191, psn := 2 ^ 24 - 1, port := 7, prio := 3, first := true, last := last, rkey := rkey, va := 0, len := len, data := bs }

theorem wit_remoteRequests :
    (let s := roceSt rtsQp
     s.Canon ∧ s.portDrops 7 = false ∧ (s.port 7).mac ≠ 0 ∧ s.mce.tampered = false ∧ (s.qp 8191).state = .rts ∧ (s.qp 8191).onPort = 7 ∧
     s.roceBlocked 8191 = false ∧ (s.qp 8191).expPsn = 2 ^ 24 - 1 ∧ 2 ^ 31 < (roceReq (2 ^ 31 + 1) 2 [] false).len ∧
     (s.checkObj 4095 2 0 64 .hbmWrite).isOk = true ∧ (s.writeObj 4095 (s.obj 4095 2) 0 (List.replicate 64 1)).1 = none ∧ handleIndex 2 ≠ 1 ∧
     (s.checkObj 4095 1 0 64 .hbmWrite).isOk = true ∧ handleIndex 1 = 1 ∧
     ((s.setQp 8191 { rtsQp with held := [] }).writeObj 4095 (s.obj 4095 1) 0 (List.replicate 64 1)).1 = none ∧
     (s.checkObj 4095 1 0 4097 .hbmWrite).isOk = true ∧ (s.checkObj 4095 9 0 64 .hbmWrite).isOk = false ∧
     s.chartered (s.ctx 4095).desc.part = false ∧ (s.checkObj 4095 2 0 64 .rdmaRead).isOk = true ∧
     (s.readObj 4095 (s.obj 4095 2) 0 64).2.1 = none ∧ s.netOpen = true ∧
     (2 ^ 24 - 1 + 2 ^ 24 - (2 ^ 24 - 2)) % 2 ^ 24 < 2 ^ 23) ∧
    ({ roceSt rtsQp with ports := [(7, { mac := 1, quarantined := true })] } : State).portDrops 7 = true ∧
    ((roceSt { rtsQp with onPort := 6 }).qp 8191).onPort ≠ 7 ∧ ((roceSt {}).qp 8191).state ≠ .rts ∧
    (let s : State := { roceSt rtsQp with parts := [(15, { ((roceSt rtsQp).part 15) with gov := { braking := true } })] }
     s.roceBlocked 8191 = false ∧ (s.qp 8191).onCtx ≠ 0 ∧ (s.qp 8191).onPart < 16 ∧ (s.part (s.qp 8191).onPart).gov.braking = true) ∧
    ((roceSt rtsQp).part (((roceSt rtsQp).qp 8191).onPart)).gov.braking = false ∧
    ((roceSt rtsQp).part (((roceSt rtsQp).qp 8191).onPart)).state ≠ .braked ∧
    (let s := roceSt rtsQp
     s.Canon ∧ 8191 < 8192 ∧ (s.qp 8191).state = .rts ∧ s.roceBlocked 8191 = false ∧ (s.port (s.qp 8191).onPort).mac ≠ 0 ∧
     s.portDrops (s.qp 8191).onPort = false) ∧
    (let s := roceSt { rtsQp with rate := 1 / 2, unacked := [(5, 0, 0, [])], retries := 6 }
     (s.qp 8191).state = .rts ∧ (s.qp 8191).rate < 1 ∧ (s.qp 8191).lastCnp + 55000 ≤ s.mill.now ∧ (s.qp 8191).unacked ≠ [] ∧ (s.qp 8191).retries < 7) ∧
    (let s := roceSt { port := 7, rqPsn := 5, sqPsn := 6 }
     s.mayP op 0xA0070 = true ∧ (s.sel op).qp = 8191 ∧ (s.qp 8191).state = .reset ∧ (s.qp 8191).ctx = 0 ∧ (s.qp 8191).port < 8) ∧
    ((roceSt { state := .error }).qp 8191).state ≠ .reset :=
  ⟨⟨State.canon_of_check _ (by decide +kernel), by decide +kernel⟩, by decide +kernel, by decide +kernel, by decide +kernel, by decide +kernel,
   by decide +kernel, by decide +kernel, ⟨State.canon_of_check _ (by decide +kernel), by decide +kernel⟩, by decide +kernel,
   by decide +kernel, by decide +kernel⟩

/-- A 64-byte command from its fields: the byte offset and the value of each. -/
def cmd (l : List (Nat × Nat)) : List Byte := leBytes 64 ((l.map fun e => e.2 * 256 ^ e.1).foldl (· + ·) 0)
/-- Home context 4095 with one fetched command at the head of queue 0. -/
def cmdSt (b : List Byte) : State :=
  let line : LineMeta := { written := true, kid := 63, keyGen := 1, la := (HBM_SET + 131072) / 64 }
  let s : State := { homeSt with hbm := { lines := [((HBM_SET + 131072) / 64, line)], bytes := [(HBM_SET + 131072, 0x5A)] }, mill := { now := 7 } }
  s.modQueue 4095 0 fun u => { u with fetched := [(65535, b)] }
def startsB (b : List Byte) : Bool :=
  let s := cmdSt b
  s.canonCheck && ((s.ctx 4095).queue 0).fetched == [(65535, b)] && ctxRuns (s.ctx 4095) 4095 && s.ctxStarts 4095
    && decide (0 < (s.ctx 4095).desc.queues) && !((s.ctx 4095).queue 0).stopped && ((s.ctx 4095).queue 0).current.isNone
    && (s.ctx 4095).recWait.isEmpty
/-- The state in which the command's own checks run. -/
def takenSt (b : List Byte) : State := (cmdSt b).modQueue 4095 0 fun k => { k with fetched := [], current := some (65535, b), since := 7 }
def nopCmd : List Byte := cmd [(0, 0)]
def allocCmd (n : Nat) : List Byte := cmd [(0, 1), (8, 2), (0x10, n)]
def freeCmd (h : Nat) : List Byte := cmd [(0, 2), (8, h)]
def copyCmd (len h : Nat) : List Byte := cmd [(0, 3), (8, 2), (0xC, h), (0x20, len)]
def waitCmdOf (i : Nat) : List Byte := cmd [(0, 4), (8, i), (0xC, 1), (0x10, 1)]
def signalCmd : List Byte := cmd [(0, 5), (8, 15), (0x10, 1)]
def unsealCmd (len : Nat) : List Byte := cmd [(0, 6), (8, 2), (0xC, 3), (0x20, len), (0x28, 4)]

theorem wit_queueCommands :
    (([nopCmd, allocCmd 0, allocCmd 1, freeCmd 9, freeCmd 2, copyCmd 0 3, copyCmd 1 3, copyCmd 1 9, waitCmdOf 15, signalCmd, unsealCmd 0,
       unsealCmd 96].all fun b => startsB b && (cmdSt b).cmdFieldsOk 4095 b) = true) ∧
    ((takenSt (allocCmd 1)).allocate 4095 0 2 1).1 = 0 ∧ (takenSt (freeCmd 9)).current 4095 9 = none ∧
    ((takenSt (freeCmd 2)).current 4095 2).isSome = true ∧ ((takenSt (copyCmd 1 3)).copyChecks 4095 (copyCmd 1 3) false).isOk = true ∧
    ((takenSt (copyCmd 1 9)).copyChecks 4095 (copyCmd 1 9) false).isOk = false ∧
    ((takenSt (unsealCmd 96)).copyChecks 4095 (unsealCmd 96) true).isOk = true ∧ ((takenSt (unsealCmd 96)).unsealKey 4095 4).1 = none ∧
    (startsB (waitCmdOf 16) = true ∧ (cmdSt (waitCmdOf 16)).cmdFieldsOk 4095 (waitCmdOf 16) = false) := by decide +kernel

/-- Toll serves a call of tile 0 meanwhile. -/
def tollBusySt (b : List Byte) : State := { cmdSt b with tollQueue := [.tile 0] }
theorem wit_queueCommandsToll :
    (tollBusySt (allocCmd 1)).tollQueue ≠ [] ∧ (cmdSt (allocCmd 1)).tollQueue = [] ∧
    (let s : State := { takenSt (freeCmd 2) with leats := holding }
     s.objBusy 4095 2 0 = true ∧ s.tollQueue = []) := by decide +kernel

/-- A sealed input of no bytes for handle 7 at the start of object 2, the charter with an UNSEAL key in slot 4 bound to partition 15. -/
def unsealSt (s : State := takenSt (unsealCmd 96)) : State :=
  let line : LineMeta := { written := true, kid := 63, keyGen := 1, la := (HBM_SET + 131072) / 64 }
  let head : List Byte := leBytes 4 0x4E554E53 ++ leBytes 4 1 ++ leBytes 4 7 ++ leBytes 4 0 ++ leBytes 16 0 ++ leBytes 32 0 ++ leBytes 32 5
  let a := HBM_SET + 131072
  let k : KeySlot := { valid := true, key := List.replicate 32 1, handle := 7, perm := 0x20, owner := 2, charter := 3, life := 2, uses := 1 }
  { s with
    hbm := { lines := [(a / 64, line), (a / 64 + 1, { line with la := a / 64 + 1 })], bytes := NatMap.setList 0 [] a head }
    parts := [(15, { (s.part 15) with charter := leBytes 32 5 })]
    sec := { s.sec with slots := [(4, { k with check := k.checkOf 4 })], charters := [(3, { state := .bound, part := 15, digest := leBytes 32 5 })] } }
theorem wit_unseal :
    let b := unsealCmd 96
    let s := unsealSt
    let r := s.unsealKey 4095 4
    let w := ((r.2.countUse 4).readObj 4095 (s.obj 4095 2) 0 96).2.2
    ((s.copyChecks 4095 b true).isOk = true ∧ r.1.isSome = true ∧ ((r.2.countUse 4).readObj 4095 (s.obj 4095 2) 0 96).2.1 = none) ∧
    sealedHeaderOk ((r.2.countUse 4).readObj 4095 (s.obj 4095 2) 0 96).1 (w.keySlot 4).handle
      (((w.boundCharter (w.ctx 4095).desc.part).map fun c => (w.sec.charter c).digest).getD []) 96 = true := by decide +kernel

theorem wit_queueCommandsAtWork :
    (let s := takenSt (waitCmdOf 15)
     s.Canon ∧ ((s.ctx 4095).queue 0).current = some (65535, waitCmdOf 15) ∧ cmdOpcode (waitCmdOf 15) = 4 ∧ field (waitCmdOf 15) 0xC 4 ≠ 0) ∧
    (let s : State := { homeSt with copyJobs := [{ ctx := 4095 }] }
     s.copyJobs.map (·.kind) = [0]) ∧
    (let s : State := { takenSt (allocCmd 1) with tollQueue := [.host 4095 0 false] }
     s.tollQueue = .host 4095 0 false :: [] ∧ ((s.ctx 4095).queue 0).current = some (65535, allocCmd 1)) ∧
    (let s : State := { takenSt (freeCmd 2) with
       tollQueue := [.host 4095 0 true]
       pendingFrees := [{ ctx := 4095, index := 2, gen := 0, tier := .hbm, die := 0, base := 131072, size := 4096, origin := 2 }] }
     s.tollQueue = .host 4095 0 true :: [] ∧ s.objBusy 4095 2 0 = false) ∧
    (let c : Ctx := { homeCtx with desc := { homeCtx.desc with eventQp := 8191, eventLog2 := 6 }, recWait := [{ type := 1 }], recCount := 63 }
     let s : State := { roceSt rtsQp with ctxs := [(4095, c)] }
     s.Canon ∧ (s.ctx 4095).recWait = [{ type := 1 }] ∧ (s.ctx 4095).ringFull = false ∧ s.ringOpen 4095 = true) :=
  ⟨⟨State.canon_of_check _ (by decide +kernel), by decide +kernel⟩, by decide +kernel, by decide +kernel, by decide +kernel,
   State.canon_of_check _ (by decide +kernel), by decide +kernel⟩

/-- A descriptor of context 4094 for partition 15: one queue of 64 commands, 2 objects, 1 MiB of heap after the home context's. -/
def ctxDesc4094 : List Byte :=
  leBytes 2 1 ++ [15, 0, 1, 6, 6, 0] ++ leBytes 4 2 ++ leBytes 4 9 ++ leBytes 2 0xFFFF ++ List.replicate 22 0 ++ leBytes 8 2 ++ leBytes 8 1048576 ++
    leBytes 8 1048576 ++ List.replicate 96 0
def ctxSt (b : List Byte) (c : Ctx) (st : PartState := .running) : State :=
  { homeSt with
    parts := [(15, { (homeSt.part 15) with state := st })]
    ctxs := NatMap.set {} homeSt.ctxs 4094 c
    ctxRegs := { arg := 47, desc := (List.range 20).map fun k => (k, BitVec.ofNat 64 (field b (8 * k) 8)) }
    selects := [(1, { ctx := 4094 })] }

/-- A slot that no listed context holds is free. -/
theorem slot_free (s : State) (k : Nat) (h : (s.ctxs.all fun e => e.2.state != .resident || e.2.slot != k) = true) :
    ∀ y, (s.ctx y).state = .resident → (s.ctx y).slot ≠ k := by
  intro y
  unfold State.ctx
  generalize s.ctxs = l at h
  induction l with
  | nil => intro hr; simp [NatMap.get] at hr
  | cons e l ih =>
    obtain ⟨n, c⟩ := e
    simp only [List.all_cons, Bool.and_eq_true] at h
    simp only [NatMap.get]
    split
    · intro hr; simpa [hr] using h.1
    · split
      · intro hr; simp at hr
      · exact ih h.2

theorem wit_contexts :
    (let s := ctxSt ctxDesc4094 {}
     let u := s.ctxDescBytes.2
     s.Canon ∧ s.mayP op 0x40008 = true ∧ (s.sel op).ctx = 4094 ∧ s.ctxBusy = false ∧ s.ctxDescBytes.1 = some ctxDesc4094 ∧
     ctxFormatOk ctxDesc4094 4094 = true ∧ (u.ctx 4094).state = .undefined ∧ u.homeFree 4094 (ctxDescOf ctxDesc4094) = true ∧
     u.ctxConflict 4094 (ctxDescOf ctxDesc4094) = false ∧
     (ctxDescOf ctxDesc4094).tableBytes + roundUp (ctxDescOf ctxDesc4094).queueBytes 65536 ≤
       (bitsOf 64 (ctxDescOf ctxDesc4094).hbmSets).length * (ctxDescOf ctxDesc4094).hbmLen) ∧
    (let s := ctxSt (List.replicate 160 0) {}
     s.ctxBusy = false ∧ s.ctxDescBytes.1 = some (List.replicate 160 0) ∧ ctxFormatOk (List.replicate 160 0) 4094 = false) ∧
    (let s := ctxSt [] { state := .defined, desc := { part := 15 } } .braked
     s.Canon ∧ (s.ctx 4094).state = .defined ∧ (s.part (s.ctx 4094).desc.part).state = .braked ∧ s.ctxRegs.arg < 48 ∧
     (∀ y, (s.ctx y).state = .resident → (s.ctx y).slot ≠ s.ctxRegs.arg) ∧ s.ctxLive 4094 = true ∧ (s.ctx 4094).ending = 0) ∧
    (let s := ctxSt [] { state := .resident, slot := 47 }
     s.ctxBusy = false ∧ (s.ctx 4094).state = .resident ∧ (s.ctx 4094).recWait = [] ∧ (s.ctx 4094).queues = []) ∧
    (let s := ctxSt [] { state := .resident, slot := 47, evicting := true, queues := [(0, { head := 5 })] }
     (s.ctx 4094).evicting = true ∧ (s.ctx 4094).quiet = true) ∧
    (let s := ctxSt [] { state := .resident, slot := 47, queues := [(0, { current := some (0, nopCmd) })] }
     s.ctxBusy = false ∧ (s.ctx 4094).state = .resident ∧ (s.ctx 4094).quiet = false) ∧
    (let s := ctxSt [] { state := .resident, slot := 47, evicting := true, queues := [(0, { current := some (0, nopCmd) })] }
     s.mayP op 0x40008 = true ∧ s.ctxBusy = true ∧ (s.ctx 4094).quiet = false) ∧
    (let s : State := { ctxSt [] { state := .ended, ending := 1 } with
       pendingFrees := [{ ctx := 4094, index := 2, gen := 0, tier := .hbm, die := 0, base := 131072, size := 4096, origin := 4 }] }
     let c := s.ctx 4094
     c.ending = 1 ∧ c.queues = [] ∧ (NatMap.keysWhere c.objects fun _ o => o.live) = [] ∧ s.objBusy 4094 2 0 = false) ∧
    ((ctxSt [] {}).ctxLive 4094 = false ∧ ((ctxSt [] {}).ctx 4094).state ≠ .resident) :=
  ⟨⟨State.canon_of_check _ (by decide +kernel), by decide +kernel⟩, by decide +kernel,
   ⟨State.canon_of_check _ (by decide +kernel), by decide +kernel, by decide +kernel, by decide +kernel, slot_free _ _ (by decide +kernel),
    by decide +kernel⟩, by decide +kernel, by decide +kernel, by decide +kernel, by decide +kernel, by decide +kernel, by decide +kernel⟩

/-! ### The Sluice, session setup and parties -/

/-- A SLUICE key in slot 255, and the home context of partition 15. -/
def sluiceSt (e : EthRegs := {}) : State :=
  let k : KeySlot := { valid := true, key := List.replicate 32 1, perm := 2, owner := 1, life := 1 }
  { homeSt with eth := e, sec := { sessions := [(1, { role := 3, part := 0xFF })], slots := [(255, { k with check := k.checkOf 255 })] } }
/-- The fuses of the life-cycle counter with this value, burned and settled. -/
def otpAt (n : Nat) : Otp := { counter := ⟨n, n⟩, intent := ⟨n, n⟩, done := ⟨n, n⟩ }
/-- A Sluice packet of sender 16 on port 7 from its payload's fields. -/
def sluicePkt (l : List (Nat × Nat)) (seq : Nat := 0) (tagOk : Bool := true) : Pkt :=
  { port := 7, prio := 7, version := 1, type := 0x10, part := 0xFF, session := 0xFFFFFFFF, sender := 16, length := 32, seq := seq
    payload := leBytes 32 ((l.map fun e => e.2 * 256 ^ e.1).foldl (· + ·) 0), tagOk := tagOk }

theorem wit_sluice :
    (let s := sluiceSt
     s.Canon ∧ ([1, 2, 3, 4, 5].all fun kind => (s.sluiceAccepts (sluicePkt [(0, kind), (2, 2 ^ 15), (4, 4095), (6, 7)])).1) = true ∧
     field (sluicePkt [(0, 3), (2, 2 ^ 15)]).payload 2 2 = 2 ^ 15 ∧
     (s.sluiceAccepts (sluicePkt [(0, 4), (4, 4095)])).2.ctxLive 4095 = true ∧
     ([1, 2, 3, 4, 5].all fun kind => !(s.sluiceAccepts (sluicePkt [(0, kind)] 0 false)).1) = true) ∧
    (let s := sluiceSt { sluiceSeq := [(16, 5)] }
     s.Canon ∧ (s.sluiceAccepts (sluicePkt [(0, 1)] 4)).1 = false ∧ (s.sluiceAccepts (sluicePkt [(0, 1)] 5)).1 = true) ∧
    (sluicePkt [(0, 1)]).sluice = true ∧ { sluicePkt [(0, 1)] with session := 9 }.sluice = false ∧ sluiceSt.sluiceOpen = true ∧
    ({ sluiceSt with mce := { sluiceSt.mce with tampered := true } } : State).sluiceOpen = false ∧
    (let s : State := { sluiceSt with ctxs := [] }
     (s.sluiceAccepts (sluicePkt [(0, 4), (4, 4095)])).1 = true ∧ (s.sluiceAccepts (sluicePkt [(0, 4), (4, 4095)])).2.ctxLive 4095 = false) :=
  ⟨⟨State.canon_of_check _ (by decide +kernel), by decide +kernel⟩, ⟨State.canon_of_check _ (by decide +kernel), by decide +kernel⟩, by decide +kernel⟩

/-- A SETUP packet of session 0. -/
def setupPkt (sub : Nat) (body : List Byte) (code : Nat := 0) : Pkt :=
  let b := leBytes 1 sub ++ leBytes 3 code ++ body
  { port := 0, prio := 5, version := 1, type := 0x30, part := 0, session := 0, sender := 0, length := b.length, seq := 0, payload := b, tagOk := true }
/-- A well-formed HELLO of role 2 for partition 15. -/
def hello2 : List Byte := leBytes 72 (2 + 256 ^ 2 * 15)
/-- A ready device with its keys and setup 2³¹ in a phase. -/
def setupSt (e : Setup := {}) (more : NatMap Session := []) (slots : NatMap KeySlot := []) : State :=
  { State.reset with
    life := { State.reset.life with ready := true, otp := otpAt 0b1110 }
    ports := [(0, { mac := 5 })]
    mill := { now := 2000000000 }
    sec := { lastSession := 2 ^ 31, setups := NatMap.set {} [] (2 ^ 31) e, identity := some 4, wordA := idWord 3, bootCert := List.replicate 2980 2
             attKey := some 3, attIndex := 65534, sessions := more, slots := slots } }
/-- The body of a FINISH with this authentication field. -/
def finishBody (auth : List Byte) : List Byte := leBytes 4 77 ++ leBytes 2 auth.length ++ List.replicate 1570 0 ++ auth
/-- A setup of role `role` that awaits FINISH, in time. -/
def attestedOf (role : Nat) (macsec : Nat := 0) : Setup :=
  { phase := .attested, role := role, part := 0xFF, hello := hello2, since := 1000000000, macsec := macsec }
/-- Sessions that fill the device; key slots 2 to 255, all valid. -/
def fullSessions : NatMap Session := (List.range 512).map fun n => (n + 1, { role := 3 })
def fullSlots : NatMap KeySlot := (List.range 254).map fun n => (n + 2, { valid := true })
/-- A HELLO of role 4 for partition 15, which holds an operator's stream, and the FABRIC key in slot 2. -/
def hello4 : List Byte := leBytes 72 (4 + 256 ^ 2 * 15)
def peerSt (key : Bool) : State :=
  let k : KeySlot := { valid := true, key := List.replicate 32 3, perm := 16, owner := 1, life := 1 }
  { setupSt {} [] (if key then [(2, { k with check := k.checkOf 2 })] else []) with parts := [(15, { stream := some { target := 15 } })] }
def attestPkt : Pkt := setupPkt 2 (List.replicate 4856 0)

theorem wit_setups :
    (let s := setupSt
     s.portDrops 0 = false ∧ s.netOpen = true ∧ (setupPkt 1 hello2).setupOk = true ∧ (setupPkt 1 hello2).sub = 1 ∧
     (setupPkt 1 []).setupOk = true ∧ s.helloCode (setupPkt 1 []) = 2 ∧ s.helloCode (setupPkt 1 hello2) = 0) ∧
    (let s := setupSt { phase := .hello, role := 2, part := 15, hello := hello2 }
     2 ^ 31 ∈ s.sec.setups.map (·.1) ∧ (s.sec.setup (2 ^ 31)).phase = .hello ∧ (s.sec.setup (2 ^ 31)).role ≠ 4 ∧ s.sec.attKey.isSome = true ∧
     s.sec.attGen = false ∧ s.sec.attIndex + 1 ≠ 65536) ∧
    ((setupPkt 3 []).setupOk = true ∧ (setupPkt 3 []).sub = 3 ∧ 5 ∉ setupSt.sec.setups.map (·.1)) ∧
    (let s := setupSt (attestedOf 2)
     2 ^ 31 ∈ s.sec.setups.map (·.1) ∧ (s.sec.setup (2 ^ 31)).phase = .attested ∧ s.mill.now ≤ (s.sec.setup (2 ^ 31)).since + 1000000000 ∧
     (s.sec.setup (2 ^ 31)).since + 1000000000 ≤ s.mill.now) ∧
    (let s := setupSt { attestedOf 2 with since := 999999999 }
     (s.sec.setup (2 ^ 31)).since + 1000000000 < s.mill.now) ∧
    (let s := setupSt { attestedOf 2 with since := 1000000001 }
     s.mill.now < (s.sec.setup (2 ^ 31)).since + 1000000000) ∧
    ((setupSt { phase := .finished }).sec.setup (2 ^ 31)).phase = .finished ∧
    (let s := setupSt { phase := .hello, role := 4, hello := hello4 }
     (s.sec.setup (2 ^ 31)).phase = .hello ∧ (s.sec.setup (2 ^ 31)).role = 4) ∧
    ({ setupSt with pwr := { setupSt.pwr with state := 2 } } : State).netOpen = false ∧
    ({ setupSt with ports := [(0, { mac := 5, quarantined := true })] } : State).portDrops 0 = true ∧
    (setupPkt 2 []).setupOk = true ∧ (setupPkt 2 []).sub = 2 ∧ helloOk [] = false := by decide +kernel

/-- FINISH of setup 2³¹ is well-formed. -/
def finishOk (s : State) (k : Pkt) : Bool :=
  let e := s.sec.setup (2 ^ 31)
  k.setupOk && k.sub == 3 && k.headOk && decide (1576 ≤ k.body.length) && decide ((k.body.drop 1576).length = field k.body 4 2) &&
    field k.body 6 2 == 0 && !(e.role == 2 && field k.body 4 2 != 0) && s.helloCharterOk e.hello && (e.role != 1 || s.charterHeld e)
theorem wit_finishes :
    finishOk (setupSt (attestedOf 2)) (setupPkt 3 (finishBody [])) = true ∧
    finishOk (setupSt (attestedOf 2)) (setupPkt 3 (finishBody [1])) = false ∧
    (let s := setupSt { attestedOf 1 with hello := leBytes 72 1 }
     s.helloCharterOk (s.sec.setup (2 ^ 31)).hello = false) ∧
    (let s := setupSt (attestedOf 3)
     finishOk s (setupPkt 3 (finishBody [1])) = true ∧ (s.setupZ 3 0xFF []).1 = none ∧
     ∀ th auth, (s.setupZ 3 0xFF []).2.authOk (attestedOf 3) none th auth = false) ∧
    (∀ s : State, ∀ z th auth, s.authOk (attestedOf 2) z th auth = true) ∧
    (setupSt (attestedOf 2)).sessionsFull = false ∧ (setupSt (attestedOf 2) fullSessions).sessionsFull = true ∧
    (setupSt (attestedOf 2 8) [] fullSlots).freeSlot = none ∧ (attestedOf 2 8).macsec ≠ 0 ∧ (setupSt (attestedOf 2 8)).freeSlot ≠ none :=
  ⟨by decide +kernel, by decide +kernel, by decide +kernel, ⟨by decide +kernel, by decide +kernel, fun _ _ => rfl⟩, fun _ _ _ _ => rfl,
   by decide +kernel, by decide +kernel, by decide +kernel, by decide +kernel, by decide +kernel⟩

theorem wit_peers :
    (attestPkt.setupOk = true ∧ attestPkt.sub = 2 ∧ attestPkt.headOk = true ∧ attestPkt.body.length = 4856) ∧
    (∀ key ∈ [true, false], let s := peerSt key
      helloOk hello4 = true ∧ field hello4 0 1 = 4 ∧ s.helloCharterOk hello4 = true ∧ s.sessionsFull = false ∧
      ((s.setupZ 4 (field hello4 2 1) (slice hello4 40 32)).1 == if key then some (List.replicate 32 3) else none) = true) := by decide +kernel

/-- A sealed SETUP message of party 31 on session 9. -/
def sealedPkt (sub : Nat) (body : List Byte) : Pkt :=
  let b := leBytes 4 sub ++ body
  { port := 7, prio := 5, version := 1, type := 0x30, part := 15, session := 9, sender := 31, length := b.length, seq := 77, payload := b, tagOk := true }
/-- Charter slot 15 with one AES key of party 31, and a release by rule 0 of which party 31 is an approver. -/
def partySt (approvers : Nat := 2 ^ 31) : State :=
  let rule : CharterRule := { source := 0, k := 1, approvers := approvers, recipients := 1, tensorLo := 0, tensorHi := 1 }
  let ch : Charter := { (State.reset.sec.charter 0).charter with keys := [{ handle := 7, party := 31, purpose := 1 }], rules := [rule] }
  let c : CharterSlot := { state := .bound, part := 15, digest := leBytes 32 5, charter := ch
                           release := { state := .waiting, rule := 0, digest := leBytes 32 6 } }
  let n : Session := { role := 1, party := 31, part := 15, charter := 15, peerSender := 31, kek := List.replicate 32 8 }
  { State.reset with sec := { sessions := [(9, n)], charters := [(15, c)] } }
/-- The body of a WRAPPED_KEY for handle 7: 32 bytes of 9 sealed under the party's key-wrapping key, or one that is cut short. -/
def keyBody (good : Bool) : List Byte :=
  leBytes 4 7 ++ [1, 1] ++ leBytes 10 0 ++ (if good then leBytes 48 0x9ECB7114320B26E452FCB24E727A18DC3AAE8E7B9ACEFCA0896C471CFD85F42C4D93BD53A57E687B46661B230547B285 else [])

/-- What unwrapping a WRAPPED_KEY gives. -/
def unwrapped (b : List Byte) : Nat × List Byte :=
  let u := (partySt.takePkt (sealedPkt 6 b)).2
  u.unwrap (u.sec.session 9) (sealedPkt 6 b)
theorem wit_wrappedKeyShort : unwrapped (keyBody false) = (2, []) := by decide +kernel
theorem wit_wrappedKey : unwrapped (keyBody true) = (0, List.replicate 32 9) := by decide +kernel
theorem wit_sealed :
    (let s := partySt
     ([keyBody true, keyBody false].all fun b => (s.takePkt (sealedPkt 6 b)).1) = true ∧ s.awaitsDone (sealedPkt 6 []) = false) ∧
    (let s := partySt
     let k := sealedPkt 7 (leBytes 32 6)
     (s.takePkt k).1 = true ∧ k.headOk = true ∧ k.body.length = 32 ∧ (s.sec.charter 15).release.state = .waiting ∧
     k.body = (s.sec.charter 15).release.digest ∧ (sealedPkt 7 (leBytes 32 7)).body ≠ (s.sec.charter 15).release.digest) ∧
    ((partySt.takePkt (sealedPkt 9 [])).1 = true) ∧
    ((partySt.takePkt { sealedPkt 9 [] with part := 3 }).1 = false) ∧
    ((partySt.takePkt (sealedPkt 7 [])).1 = true ∧ (sealedPkt 7 []).body.length ≠ 32) ∧
    (let s : State := { State.reset with sec := { peerSetups := [(9, { part := 15, confirm := [1] })] } }
     let k : Pkt := { sealedPkt 4 [1] with sender := 0 }
     s.awaitsDone k = true ∧ k.sub = 4 ∧ k.headerOk = true ∧ s.hears k = true ∧ { k with part := 14 }.part ≠ (NatMap.get {} s.sec.peerSetups k.session).part ∧ s.portDrops k.port = false ∧ k.headOk = true ∧
     k.body = (NatMap.get {} s.sec.peerSetups k.session).confirm ∧ k.part = (NatMap.get {} s.sec.peerSetups k.session).part) := by
  decide +kernel

/-! ### The board controller, keys, charters and protection -/

def prvKey : KeySlot := { valid := true, key := List.replicate 32 1, perm := 4, owner := 1 }
/-- A device in MISSION, with an operator key in slot 255 (MACSEC, LIFE 1) and, where `k0` says so, a device key for the board controller in
slot 0. -/
def missionSt (b : Board := {}) (x : Security := {}) (k0 : KeySlot := prvKey) : State :=
  let m : KeySlot := { valid := true, key := List.replicate 32 2, perm := 8, owner := 1, life := 1 }
  { State.reset with
    life := { otp := otpAt 0b1110 }
    mill := { now := 10000000000 }, board := b, selects := [(1, { key := 255, charterSlot := 15, charterPart := 15 })]
    sec := { x with sessions := [(1, { role := 3, part := 0xFF })]
                    slots := NatMap.set {} [(255, { m with check := m.checkOf 255 })] 0 (if k0.valid then { k0 with check := k0.checkOf 0 } else k0) } }
/-- The right response of the board controller to the challenge [7]. -/
def goodResponse : List Byte := hmacShake (List.replicate 32 1) (ascii "NBC1" ++ [7])
def lastWord : Word64 := BitVec.ofNat 64 (field goodResponse 24 8)
def challengedBoard : Board :=
  { challenge := some [7], resp0 := BitVec.ofNat 64 (field goodResponse 0 8), resp1 := BitVec.ofNat 64 (field goodResponse 8 8)
    resp2 := BitVec.ofNat 64 (field goodResponse 16 8), fails := 255 }
/-- The installation window, with or without a key in slot 1 and slot 0 selected. -/
def installSt (k1 : Bool) : State :=
  let s := missionSt {} {} {}
  { s with board := {}, selects := [(255, { key := 0 })],
           sec := if k1 then s.sec.setSlot 1 { prvKey with check := prvKey.checkOf 1 } else s.sec }
/-- Operator objects 1 and 2 of context 0. -/
def opCtx : Ctx := { state := .resident, slot := 1, desc := { objMax := 4 }
                     objects := [(1, { live := true, size := 4096 }), (2, { live := true, base := 4096, size := 4096 })] }
/-- Registers for LOAD_PUBKEY of `len` bytes of object 1, with `n` public keys held. -/
def pubSt (len n : Nat) : State :=
  { missionSt {} { obj := 1, len := len, pubKeys := (List.range n).map fun i => (100 + i, [1]) } with ctxs := [(0, opCtx)] }

theorem wit_boardMay :
    (missionSt.boardMay 0x7FFFFF0000 = true ∧ missionSt.boardMay 0x7FFFFF0038 = true) ∧
    (missionSt { isOpen := true }).boardMay 0x7FFFFF0048 = true ∧
    (let s : State := { missionSt with life := { otp := otpAt 0b111110 } }
     s.boardMay 0x7FFFFF0000 = false ∧ s.boardMay 0x7FFFFF0038 = false ∧ s.boardMay 0x7FFFFF0048 = false) ∧
    ((missionSt { isOpen := true }).board.isOpen = true ∧
     (missionSt { isOpen := true }).board.lastAccess + 10000000000 ≤ (missionSt { isOpen := true }).mill.now) ∧
    missionSt.board.isOpen = false := by decide +kernel
theorem wit_boardResponseGood :
    Board.response { challengedBoard with resp3 := lastWord } = hmacShake (List.replicate 32 1) (ascii "NBC1" ++ [7]) := by decide +kernel
theorem wit_boardResponseBad :
    Board.response { challengedBoard with resp3 := 0 } ≠ hmacShake (List.replicate 32 1) (ascii "NBC1" ++ [7]) := by decide +kernel
theorem wit_boardResponse :
    ((missionSt challengedBoard).useKey 0 4).1 = some (List.replicate 32 1) ∧ challengedBoard.challenge = some [7] ∧
    (let s := missionSt challengedBoard {} { prvKey with life := 2, uses := 2 }
     (s.useKey 0 4).1.isSome = true ∧ (s.keySlot 0).life = 2 ∧ 1 < (s.keySlot 0).uses) ∧
    (missionSt.keySlot 0).life ≠ 2 := by decide +kernel
theorem wit_keyWrite :
    (let s := missionSt {} { keyNew := 2 ^ 24 * 8 + 2 ^ 16 * 1 }
     s.mayP op 0xB0040 = true ∧ (s.sel op).key = 255 ∧ s.sec.busy = false ∧ s.sec.lock = false ∧
     s.keyWriteStatus 255 (bits s.sec.keyNew 24 8) (bits s.sec.keyNew 16 2) (bits s.sec.keyNew 32 32) = 0 ∧ (s.keySlot 255).owner = 1) ∧
    (let s := missionSt {} { keyNew := 2 ^ 24 * 3 }
     s.keyWriteStatus 255 (bits s.sec.keyNew 24 8) (bits s.sec.keyNew 16 2) (bits s.sec.keyNew 32 32) ≠ 0) ∧
    (let s := installSt true
     s.mayP .board 0xB0040 = true ∧ (s.sel .board).key = 0 ∧ (s.keySlot 1).valid = true ∧ s.keyWriteStatus 0 4 0 0 = 0) ∧
    ((installSt false).mayP .board 0xB0040 = true ∧ ¬ ((0 : Nat) = 1 ∨ 0 = 0 ∧ ((installSt false).keySlot 1).valid = true)) ∧
    (missionSt {} { busy := true }).sec.busy = true ∧
    (let s : State := { missionSt with selects := [(1, { key := 2 })] }
     (s.sel op).key = 2 ∧ (s.keySlot 2).owner ≠ 1) := by decide +kernel
theorem wit_loadPubkey :
    (missionSt {} { lock := true }).sec.lock = true ∧
    ((pubSt 69 0).sec.len ≠ 68 ∧ (pubSt 69 0).sec.len ≠ 2592) ∧
    (let s := pubSt 68 16
     (NatMap.get [] s.sec.pubKeys 255).isEmpty = true ∧ 16 ≤ s.sec.pubKeys.length) ∧
    ((pubSt 68 15).operatorBytes 1 68).1.isSome = false ∧
    (let s := { missionSt {} { obj := 1, len := 2592 } with ctxs := [(0, { opCtx with objects := [] })] }
     s.operatorBytes 1 2592 = (none, s)) := by decide +kernel
theorem wit_keyCheckSweep :
    (let s := missionSt
     ∀ n ∈ [0, 255], (s.keySlot n).valid = true ∧ (s.keySlot n).check = (s.keySlot n).checkOf n) := by decide +kernel

/-- `n` lines of operator object 1 written under identifier 1 with zeros, at the start of its heap, and the context's channel set. -/
def opLines (s : State) (n : Nat) : State :=
  let c := s.ctx 0
  let a := (c.desc.hbmAddr 0) / 64
  { s with hbm := { lines := (List.range n).map fun i => (a + i, ({ written := true, kid := 1, la := a + i } : LineMeta)) } }
theorem wit_loadPubkeyGood :
    (let s := opLines (pubSt 68 15) 2
     (s.operatorBytes 1 68).1 = some (List.replicate 68 0) ∧ ¬ ((NatMap.get [] s.sec.pubKeys 255).isEmpty = true ∧ 16 ≤ s.sec.pubKeys.length)) := by
  decide +kernel

/-! Charter slots. LOAD_CHARTER's last clause rests on a signature that verifies, which the opaque check leaves open: no closed witness. -/

/-- A charter in slot 15 for partition 15 with a one-approver rule, and party 0's output key in slot 200 where `out` says so. -/
def charterSt (st : CharterState) (r : Release) (x : Security := {}) (regs : RelRegs := {}) (out : Bool := false) (ps : PartState := .armed) : State :=
  let rule : CharterRule := { source := 0, k := 1, approvers := 1, recipients := 2 ^ 15, tensorLo := 0, tensorHi := 0 }
  let ch : Charter := { rules := [rule], keys := [{ handle := 7, party := 0, purpose := 2 }] }
  let c : CharterSlot := { state := st, part := 15, digest := leBytes 32 5, charter := ch, release := r, relRegs := regs }
  let s := missionSt {} { x with obj := 1, charters := NatMap.set {} [] 15 c }
  let k : KeySlot := { valid := true, key := List.replicate 32 3, perm := 0x40, owner := 2, charter := 15, handle := 7 }
  { s with ctxs := [(0, opCtx), (4095, homeCtx)], parts := [(15, { charter := leBytes 32 5, state := ps })]
           sec := if out then s.sec.setSlot 200 { k with check := k.checkOf 200 } else s.sec }
/-- A request of party 15 by rule 0 for 1,024 bytes of object 2 of context 4095, to object 2 of context 0. -/
def relSt : State := charterSt .bound {} { nextReq := 2 ^ 32 - 1 } { src := 2 ^ 44 * 15 + 2 ^ 32 * 4095 + 2, len := 1024, dst := 2 }
/-- A release for party 0 of `len` bytes of object 2 of context 4095, waiting with its approval. -/
def approvedRel (len : Nat) : Release := { state := .waiting, approved := 1, ctx := 4095, handle := 2, len := len, dst := 2 }
/-- A release of `len` bytes running, to offset `off`, with the source's first line written where `src` says so and lines 2 and 3 of its
destination where `dst` does. -/
def runningSt (len off : Nat) (src dst : Bool) : State :=
  let so : Obj := { live := true, base := 131072, size := 4096 }
  let j : CopyJob := { ctx := 4095, kind := 2, key := 15, keyBytes := List.replicate 32 3, srcIdx := 2, dstIdx := 2, dstOff := off, len := len
                       srcObj := so, dstObj := { live := true, base := 4096, size := 4096 } }
  let s : State := { charterSt .bound { approvedRel len with state := .running, dstOff := off } with copyJobs := [j] }
  let line (kid a : Nat) : Nat × LineMeta := (a / 64, { written := true, kid := kid, keyGen := 0, la := a / 64 })
  let d := (s.ctx 0).desc.hbmAddr (4096 + 128)
  let l1 := if dst then [line 1 d, line 1 (d + 64)] else []
  let l2 := if src then [line 0 ((s.ctx 4095).desc.hbmAddr 131072)] else []
  { s with hbm := { lines := if d < (s.ctx 4095).desc.hbmAddr 131072 then l1 ++ l2 else l2 ++ l1 } }
/-- What sealing the chunks of charter 15's job answers, and what writing the header then answers. -/
def sealing (s : State) : Option (Nat × Nat) × Option (Nat × Nat) :=
  match s.copyJobs with
  | j :: _ =>
    let r := (s.sec.charter 15).release
    let hdr := s.releaseHeader r
    let key := shake32 (ascii "NRK1" ++ j.keyBytes ++ s.sec.deviceId ++ leBytes 4 s.life.bootCount ++ leBytes 4 r.reqId)
    let q := s.sealChunks j key hdr (j.len / 65536 + 2) 0 j.len
    (q.1, (q.2.writeObj 0 j.dstObj j.dstOff hdr).1)
  | [] => (none, none)

theorem wit_loadCharter :
    (let s := charterSt .bound {}
     s.mayP op 0xB0068 = true ∧ (s.sel op).charterSlot = 15 ∧ s.sec.busy = false ∧ (s.sec.charter 15).state ≠ .empty ∧ s.lcState = 3) ∧
    ((charterSt .empty {} { len := 4097 }).current 0 1 = some { live := true, size := 4096 }) ∧
    (let s := { charterSt .empty {} { len := 262145 } with ctxs := [(0, { opCtx with objects := [(1, { live := true, size := 2 ^ 20 })] })] }
     s.lcState = 3 ∧ (s.sec.charter 15).state = .empty ∧ s.current 0 s.sec.obj = some { live := true, size := 2 ^ 20 }) ∧
    ((charterSt .empty {} { len := 64 }).operatorBytes 1 64).1 = none ∧
    (let s := opLines (charterSt .empty {} { len := 64 }) 1
     (s.operatorBytes 1 64).1 = some (List.replicate 64 0) ∧ s.charterStatus (List.replicate 64 0) = (4, none)) := by decide +kernel
theorem wit_unloadAndRequest :
    ((charterSt .pending {}).sec.charter 15).state = .pending ∧ ((charterSt .pending {}).sec.charter 15).release.state ≠ .running ∧
    (charterSt .bound {}).relRequestStatus ((charterSt .bound {}).sec.charter 15) ≠ 0 ∧
    (let s := relSt
     s.relRequestStatus (s.sec.charter 15) = 0 ∧ (s.sec.charter 15).release.state ≠ .running) := by decide +kernel
theorem wit_relRun :
    (let s := charterSt .bound { state := .waiting, approved := 0 }
     (s.sec.charter 15).release.state = .waiting ∧
     (bitsOf 16 (s.sec.charter 15).release.approved).length < ((s.sec.charter 15).rule (s.sec.charter 15).release.rule).k) ∧
    (let s := charterSt .bound (approvedRel 1024)
     let k := s.sec.charter 15
     (k.rule k.release.rule).k ≤ (bitsOf 16 k.release.approved).length ∧ s.outputSlot 15 k k.release.recipient = none) ∧
    (let s := charterSt .bound (approvedRel 1024) {} {} true
     let u : State := { s with sec := s.sec.setSlot 200 { s.keySlot 200 with check := 0 } }
     u.outputSlot 15 (u.sec.charter 15) 0 = some 200 ∧ (u.useKey 200 0x40).1 = none) ∧
    (let s := charterSt .bound (approvedRel 1024) {} {} true
     let k := s.sec.charter 15
     s.outputSlot 15 k k.release.recipient = some 200 ∧ s.useKey 200 0x40 = (some (List.replicate 32 3), s) ∧ relStateOk 0 (s.part 15).state = true ∧
     (s.checkObj 4095 2 0 1024 (.release false)).isOk = true ∧ (s.checkObj 0 2 0 (releaseLen 1024) .hbmWrite).isOk = true) ∧
    (let s := charterSt .bound (approvedRel 1024) {} {} true .draining
     relStateOk 0 (s.part 15).state = false) := by decide +kernel
theorem wit_releaseEnds :
    (sealing (runningSt 48 0 true false) = (none, none) ∧ (sealing (runningSt 48 0 false false)).1.isSome = true ∧
     (sealing (runningSt 48 32 true true)).1 = none ∧ (sealing (runningSt 48 32 true true)).2.isSome = true) ∧
    (((runningSt 48 0 true false).sec.charter 15).release.state = .running ∧ (runningSt 48 0 true false).copyJobs.length = 1) ∧
    (∀ j ∈ missionSt.copyJobs, ¬ (j.kind = 2 ∧ j.key = 15)) ∧
    ((charterSt .bound { state := .done }).sec.charter 15).release.state = .done := by decide +kernel
theorem wit_rollover :
    (missionSt.sec.attGen = false ∧ missionSt.signs = false) ∧ (missionSt {} { identity := some 1, wordA := idWord 0 }).signs = true ∧
    (missionSt {} { attGen := true }).sec.attGen = true ∧
    (let s := missionSt {} { attGen := true, identity := some 1, wordA := idWord 5 }
     s.lcState = 3 ∧ s.sec.identity = some 1 ∧ s.sec.idValue = some 5 ∧ 5 < idLimit ∧ s.sec.idDisabled = false) := by decide +kernel

/-- Port 7 with MACsec on the key of slot 255. -/
def macsecSt (x : Port) : State :=
  { missionSt with ports := [(7, { x with macsecEn := true, cakSlot := 255, ksPriority := 0 })], granary := [(0, 1)] }
/-- Sub-port 0 with its SAK in force, and the last key number. -/
def upSub (server : Bool) : SubPort := { up := true, sak := [9], sakKn := 2 ^ 32 - 1, sakAn := 3, keyServer := server }
def mkaOf (icv : Bool) (priority : Nat := 1) (sak : Option (Nat × Nat × List Byte) := none) : MkaMsg :=
  { icvOk := icv, priority := priority, sciLower := false, sak := sak, up := true }
/-- The port's secure channel up, and a queue pair of a chartered partition on it. -/
def charterRoceSt : State :=
  { macsecSt { subs := [(0, upSub true)] } with parts := [(15, { charter := [1] })], qps := [(8191, { state := .rts, onPart := 15, onCtx := 4095, onPort := 7 })] }

theorem wit_macsec :
    (let s := macsecSt { macsecRequire := true, subs := [(0, upSub true)] }
     s.Canon ∧ (s.port 7).macsecRequire = true ∧ (s.port 7).macsecEn = true ∧ ((s.port 7).sub 0).sakKn ≠ 0 ∧ ((s.port 7).sub 0).keyServer = true ∧
     (s.port 6).macsecEn = false ∧ (s.port 6).macsecRequire = false ∧ ((s.port 7).sub 1).sakKn = 0 ∧
     s.useOnce (s.port 7).cakSlot 8 = (some (List.replicate 32 2), s) ∧ s.charterRoce 7 = [] ∧ NatMap.wf {} (s.port 7).subs = true ∧ 0 < s.subPorts 7) ∧
    (((macsecSt { subs := [(0, upSub false)] }).port 7).sub 0).keyServer = false ∧
    (let s := macsecSt { subs := [(0, upSub true)] }
     let u : State := { s with sec := s.sec.setSlot 255 { s.keySlot 255 with check := 0 } }
     u.Canon ∧ (u.useOnce (u.port 7).cakSlot 8).1 = none) ∧
    (charterRoceSt.Canon ∧ charterRoceSt.charterRoce 7 = [15] ∧ charterRoceSt.macsecUp 7 = true) :=
  ⟨⟨State.canon_of_check _ (by decide +kernel), by decide +kernel⟩, by decide +kernel,
   ⟨State.canon_of_check _ (by decide +kernel), by decide +kernel⟩, State.canon_of_check _ (by decide +kernel), by decide +kernel⟩
theorem wit_mka :
    (let s := macsecSt {}
     s.Canon ∧ s.netOpen = true ∧ (s.port 7).macsecEn = true ∧ (mkaOf true).icvOk = true ∧ (mkaOf true).sub < s.subPorts 7 ∧
     s.useOnce (s.port 7).cakSlot 8 = (some (List.replicate 32 2), s) ∧ (s.port 7).serves (mkaOf true) = true ∧ ((s.port 7).sub 0).sakKn = 0 ∧
     (s.port 6).macsecEn = false ∧ (mkaOf false).icvOk = false ∧ s.subPorts 7 ≤ ({ mkaOf true with sub := 1 } : MkaMsg).sub) ∧
    (let s := macsecSt { subs := [(0, upSub true)] }
     (s.port 7).serves (mkaOf true) = true ∧ ((s.port 7).sub 0).sakKn ≠ 0) ∧
    (let s := macsecSt {}
     let s : State := { s with ports := [(7, { s.port 7 with ksPriority := 0xFF })] }
     s.Canon ∧ (s.port 7).serves (mkaOf true) = false ∧ (mkaOf true).sak = none ∧ (mkaOf true 1 (some (5, 1, [7]))).sak = some (5, 1, [7]) ∧
     ¬ (5 = ((s.port 7).sub 0).sakKn ∧ 1 = ((s.port 7).sub 0).sakAn) ∧ (s.useOnce (s.port 7).cakSlot 8).1.isSome = true ∧ s.netOpen = true) :=
  ⟨⟨State.canon_of_check _ (by decide +kernel), by decide +kernel⟩, by decide +kernel, State.canon_of_check _ (by decide +kernel), by decide +kernel⟩
/-- Partition 15 LOADING with context 4095, and partition 14 running. -/
def tamperSt : State :=
  { macsecSt { subs := [(0, upSub true)] } with
    parts := [(14, { state := .running }), (15, { state := .loading })], ctxs := [(4095, homeCtx)]
    mce := { keyIds := [(2, { state := .assigned, part := 15, k1 := [1], k2 := [2], kt := [3] })], linkKeys := [(0, [1])] } }
theorem wit_tamper :
    (tamperSt.Canon ∧ tamperSt.mce.tampered = false) ∧
    (let s : State := { missionSt with mce := { tampered := true } }
     s.Canon ∧ s.mce.tampered = true) :=
  ⟨⟨State.canon_of_check _ (by decide +kernel), by decide +kernel⟩, State.canon_of_check _ (by decide +kernel), by decide +kernel⟩

/-- Two lines of one device: line 0 as it was written under identifier 2, and line 5 with an error in one symbol. -/
def lineSt : Dram := { bytes := [(1, 7)], lines := [(0, { written := true, kid := 2, keyGen := 1 }), (5, { written := true, kid := 2, keyGen := 1, la := 5, error := 6 }), (6, { written := true, kid := 2, keyGen := 1, la := 5, error := 6 })] }
theorem wit_lines :
    (lineSt.Canon ∧ (List.replicate 64 (1 : Byte)).length = 64 ∧ (⟨3, 1, 0⟩ : Cred) ≠ ⟨2, 1, 0⟩) ∧
    (0 < (lineSt.line 5).error ∧ errorSymbols (lineSt.line 5).error ≤ 1 ∧ (lineSt.line 5).poisoned = false ∧ (lineSt.line 5).tagOk ⟨2, 1, 0⟩ 5 = true ∧
     (lineSt.line 5).tagOk ⟨2, 2, 0⟩ 5 = false ∧ (lineSt.line 6).la ≠ 6) :=
  ⟨⟨⟨by decide +kernel, by decide +kernel⟩, by decide +kernel⟩, by decide +kernel⟩
theorem wit_pondPlace : pondUsable (pondPlace (65536 * 7 - 1)).1 (pondPlace (65536 * 7 - 1)).2 = some (65536 * 7 - 1) ∧
    (pondUsable 15 28671 = some (65536 * 7 - 1) ∧ 15 < 16) := by decide +kernel
/-- Tile 504 of a chartered partition 15, and the life-cycle states. -/
def debugSt (n : Nat) (x : Tile := {}) : State :=
  { homeSt x { charter := [1] } with life := { otp := otpAt n }, granary := [(0, 1)] }
theorem wit_debug :
    (let s := debugSt 0b1110
     s.tilePart 504 = some 15 ∧ s.chartered 15 = true ∧ DebugAccess.kept .sram = false ∧ s.lcState = 3) ∧
    (debugSt 0b1110 { test := some {} }).debugOpen (.scanTile 504) = true ∧ (debugSt 0b1110).debugOpen (.scanTile 0) = true ∧
    (debugSt 0b111110).lcState = 5 := by decide +kernel

/-! ### Resets, the boot and the life cycle -/

/-- A PROVISIONED device with keys of both kinds, some state to lose, and a life cycle of its own. -/
def bootSt (l : Life) (p : Power := {}) : State :=
  let k : KeySlot := { valid := true, key := List.replicate 32 1, perm := 4, owner := 1 }
  { State.reset with
    life := l, pwr := p, granary := [(0, 1)], mce := { linkKeys := [(0, [1])], linkFrames := [(0, 7)] }, mill := { now := 2000000000 }, selects := [(1, { tile := 5 })]
    sec := { sessions := [(1, { role := 3, part := 0xFF })], windowShut := true, pubKeys := [(4, [1])], bootCert := [1], slots := [(0, k), (2, { k with life := 1 }), (3, { k with owner := 2 })]
             attKey := some 3, identity := some 4, wordA := idWord 9, wordB := idWord 8, obj := 2 } }

theorem wit_resets :
    ((bootSt { otp := otpAt 0b110, bootCount := 2 ^ 32 - 1, powerGood := false }).life.powerGood = false ∧
     (bootSt { otp := otpAt 0b110 }).mayP op 0xC0008 = true ∧ (bootSt { otp := otpAt 0b110 } { state := 4 }).pwr.state = 4) ∧
    ((List.all [0b110, 0b111110] fun c => let s := bootSt { otp := otpAt c, bootCount := 2 ^ 32 - 1 }
       s.life.phase == .held && s.life.powerGood && !s.mce.tampered && s.life.otp.pendingPair == none) = true) ∧
    (let s := bootSt { otp := { otpAt 0b110 with intent := ⟨0b100110, 0b110⟩ } }
     s.life.phase = .held ∧ s.life.powerGood = true ∧ s.mce.tampered = false ∧ s.life.otp.pendingPair = some 5) ∧
    (bootSt { otp := otpAt 0b110, phase := .rom }).life.phase ≠ .held := by decide +kernel
def keptB (s t : State) : Bool :=
  decide (t.life.otp = s.life.otp ∧ t.life.bootCount = s.life.bootCount ∧ t.life.phase = .held ∧ t.life.ready = false ∧ t.life.targets = [] ∧
    t.life.released = [] ∧ t.hbm = s.hbm ∧ t.pond = s.pond ∧ t.mill.now = 0 ∧ t.sec.identity = s.sec.identity ∧ t.sec.windowShut = s.sec.windowShut ∧
    t.sec.wordA = s.sec.wordA ∧ t.sec.wordB = s.sec.wordB ∧ t.sec.pubKeys = s.sec.pubKeys ∧ t.sec.slots = s.sec.slots.take 1 ∧ t.sec.setups = [] ∧
    t.sec.sessions = [] ∧ t.sec.charters = [] ∧ t.sec.attKey = none ∧ t.sec.bootCert = [] ∧ t.mce.linkKeys = [] ∧ t.mce.tampered = false ∧
    t.parts = [] ∧ t.ctxs = [] ∧ t.tiles = [] ∧ t.granary = [] ∧ t.qps = [] ∧ t.selects = [] ∧ t.copyJobs = [] ∧ t.ports = [] ∧ t.ras = {} ∧
    t.board = {} ∧ t.eth = {})

/-- An accepted DATA packet: 16 of 32 bytes from OFFSET 16. -/
def dataPkt (off total len : Nat) : List Byte :=
  beBytes 4 0x4E524454 ++ beBytes 4 0 ++ beBytes 8 off ++ beBytes 8 total ++ beBytes 2 len ++ leBytes 6 0 ++ List.replicate len 7
def recovering (l : Life) : State := bootSt { l with otp := otpAt 0b110, phase := .recovery }

theorem wit_firmware :
    ({ bootSt {} with mce := { tampered := true } } : State).mce.tampered = true ∧
    (let s := bootSt { otp := otpAt 0b110, phase := .rom }
     s.mce.tampered = false ∧ s.imageOf (.flash none) = some none ∧ s.life.phase = .rom ∧ s.fwCheck none = (1, none)) ∧
    (let s := recovering { recvBytes := [1], total := 1, attempts := 255 }
     s.imageOf .network = some (some [1]) ∧ s.fwCheck (some [1]) = (2, none)) ∧
    ((recovering {}).reqDue = true ∧ (recovering { lastReq := some 1000000000 }).reqDue = true ∧
     (recovering { lastReq := some 1000000001 }).reqDue = false) ∧
    ((recovering { recvBytes := List.replicate 16 1, total := 32, server := some 9 }).life.accepts 9 (dataPkt 16 32 16) = true ∧
     (recovering { recvBytes := List.replicate 16 1, total := 32, server := some 9 }).life.accepts 8 (dataPkt 16 32 16) = false ∧
     (recovering { recvBytes := List.replicate 16 1, total := 32, server := some 9 }).life.accepts 9 (dataPkt 15 32 17) = false ∧
     (recovering {}).life.accepts 9 (dataPkt 0 1 1) = true) ∧
    (let s := recovering { recvBytes := [1], total := 2, lastData := 1000000000 }
     0 < s.life.recvBytes.length ∧ s.life.recvBytes.length < s.life.total ∧ s.life.lastData + 1000000000 ≤ s.mill.now) ∧
    (let s := bootSt { otp := otpAt 0b110, phase := .running, hbmTrained := true, pondTrained := true }
     s.life.phase = .running ∧ s.life.hbmTrained = true ∧ s.life.pondTrained = true ∧ s.sec.attKey.isSome = true) := by decide +kernel

/-- A PROVISIONED device before GEN_IDENTITY, with an operator object 2 for the public key. -/
def provSt (l : Life) (id : Option Nat := none) : State :=
  let op0 : Ctx := { state := .resident, slot := 1, desc := { objMax := 4 }, objects := [(1, { live := true, size := 4096 }), (2, { live := true, base := 4096, size := 4096 })] }
  { bootSt { l with otp := { otpAt 0b110 with digests := l.otp.digests, revoked := l.otp.revoked, svn := l.otp.svn } } with
    ctxs := [(0, op0)], sec := { sessions := [(1, { role := 3, part := 0xFF })], obj := 2, identity := id } }
def tokenZeros : List Byte := shake32 (List.replicate 32 0)

theorem wit_lifeCycle :
    ((provSt { arg := 64, fwSvn := 64 }).mayP op 0xC0008 = true ∧ (provSt {}).life.busy = false ∧ (provSt { arg := 64, fwSvn := 64 }).life.fwSvn = 64) ∧
    ((provSt { arg := 1, fwSvn := 0 }).life.fwSvn < 1) ∧
    ((provSt { arg := 3, vendorKey := 2 }).life.otp.revoked.value ||| 2 ^ 3 ≠ 15 ∧
     (provSt { arg := 3, vendorKey := 2, otp := { revoked := ⟨3, 4⟩ } }).life.otp.revoked.value ||| 2 ^ 3 = 15) ∧
    ((provSt {} (some 1)).sec.identity.isSome = true ∧
     (let s := provSt {}
      s.lcState = 2 ∧ s.sec.identity = none ∧ (s.checkObj 0 s.sec.obj 0 68 .hbmWrite).isOk = true) ∧
     (provSt { busy := true, genObj := some 2 }).life.genObj = some 2 ∧
     (provSt { arg := 5 }).life.otp.digest 5 = none) ∧
    (let s := provSt { arg := 5, tokenFails := 7, otp := { digests := [(5, (tokenZeros, tokenZeros))] } }
     s.life.tokenFails < 8 ∧ s.life.resetPending = false ∧ s.targetDigest s.lcState 5 = some tokenZeros ∧ s.missionReady 5 = true ∧ s.parts = [] ∧
     shake32 s.life.token = tokenZeros ∧ shake32 ({ s.life with token3 := 1 }).token ≠ tokenZeros) ∧
    (let s := provSt { arg := 3, otp := { digests := [(3, (tokenZeros, tokenZeros)), (4, ([1], [0])), (5, ([2], [2]))] } } (some 1)
     s.targetDigest s.lcState 3 = some tokenZeros ∧ s.missionReady 3 = true) := by decide +kernel

theorem wit_lifeCycleRefusals :
    ((provSt { busy := true }).life.busy = true ∧ (provSt { busy := true }).life.resetPending = false) ∧
    ((provSt {}).sec.identity = none ∧ (let s := { provSt {} with ctxs := [] }; s.lcState = 2 ∧ (s.checkObj 0 s.sec.obj 0 68 .hbmWrite).isOk = false)) ∧
    ((provSt { arg := 4 }).life.arg = 4 ∧ (provSt { tokenFails := 8 }).life.tokenFails = 8) ∧
    ((provSt { arg := 1 }).targetDigest 2 1 = none ∧ (provSt { arg := 1 }).lcState = 2) ∧
    (provSt { otp := { digests := [(5, (tokenZeros, tokenZeros))] } }).life.otp.digest 5 ≠ none ∧
    (provSt { arg := 3, otp := { digests := [(3, (tokenZeros, tokenZeros))] } }).missionReady 3 = false ∧
    ({ provSt {} with parts := [(3, { state := .armed })] } : State).parts.any (fun e => e.2.state != .free) = true ∧
    (provSt {}).life.genObj = none := by decide +kernel
theorem wit_firmwareElsewhere :
    (recovering {}).imageOf .network = none ∧ (recovering {}).imageOf (.flash none) = none ∧ (recovering {}).life.phase ≠ .running ∧
    (bootSt {}).life.phase ≠ .recovery ∧
    ¬ ((recovering {}).life.phase = .recovery ∧ 0 < (recovering {}).life.recvBytes.length) := by decide +kernel

/-! ### Self-test, reliability and power -/

/-- Tile 511 with something queued, in a slice of a logic test of a partition's entry or in a RETEST. -/
def testTile (mode : Nat) : Tile := { test := some { mode := mode }, nextSlice := 31, queue := [1], regs := [(0, 1)] }
def testSt (x : Tile) (r : Ras := {}) : State :=
  { priv { tile := 511 } with tiles := NatMap.set {} [(3, { halted := true })] 511 x, ras := r }
def bist (a : Word64) : BistResult := { misr := a, golden := 1, fails := [] }
def arb511 : Arbitration := { tile := 511, arrB := false, v := 0, n := 1, xo := -3, rhoE := 0, halted := false }

theorem wit_tests :
    (let s := testSt (testTile 0)
     s.Canon ∧ (s.tile 511).test = some { mode := 0 } ∧ s.tilePart 511 = none ∧ (bist 1).misr = (bist 1).golden ∧ (bist 2).misr ≠ (bist 2).golden) ∧
    (let s := testSt { quarantined := true }
     s.Canon ∧ s.mayP op 0xF0010 = true ∧ (s.sel op).tile = 511 ∧ s.ras.retest = none ∧ s.tilePart 511 = none ∧ s.ras.patrolEn = true) ∧
    (let s : State := { testSt {} with parts := [(15, { state := .running, map := { clusters := 2 ^ 63 } })] }
     s.tilePart 511 = some 15) ∧
    (let s := testSt (testTile 3) { retest := some 511 }
     s.Canon ∧ s.ras.retest = some 511 ∧ (bist 1).fails = []) ∧
    (let s := testSt { quarantined := true, arbitrating := true } { spares := [(7, { queue := [arb511] })] }
     (s.ras.spare 7).running = none ∧ (s.ras.spare 7).queue = arb511 :: []) ∧
    (let s := testSt { quarantined := true, arbitrating := true } { spares := [(7, { running := some arb511 })] }
     s.Canon ∧ (s.ras.spare 7).running = some arb511 ∧ arb511.tile = 511 ∧ arb511.arrB = false) :=
  ⟨⟨State.canon_of_check _ (by decide +kernel), by decide +kernel⟩, ⟨State.canon_of_check _ (by decide +kernel), by decide +kernel⟩,
   by decide +kernel, ⟨State.canon_of_check _ (by decide +kernel), by decide +kernel⟩, by decide +kernel,
   State.canon_of_check _ (by decide +kernel), by decide +kernel⟩

/-- A test of both kinds as a timetable entry of partition 15, and a row that fails and is mapped to a spare. -/
def slotSt (mode : Nat) : State :=
  { testSt { testTile mode with test := some { mode := mode, entry := 3 } } with
    parts := [(15, { state := .running, map := { clusters := 2 ^ 63 }, gov := { runs := [(3, { status := .running })] } })] }
def badCell : BistResult := { misr := 1, golden := 1, fails := [{ memory := 0, column := false, addr := 5, bit := 3 }] }
theorem wit_testSlots :
    (let s := slotSt 2
     s.Canon ∧ (s.tile 511).test = some { mode := 2, entry := 3 } ∧ s.tilePart 511 = some 15 ∧ ((s.part 15).gov.run 3).status = .running ∧
     (s.repairAll 511 (bist 1).fails).2.all (·.1) = true ∧ (s.repairAll 511 badCell.fails).2.all (·.1) = true) ∧
    ((testSt (testTile 3)).tile 511).test = some { mode := 3 } ∧ ((testSt {}).tile 511).test = none ∧
    (testSt {} { retest := some 3 }).ras.retest ≠ none ∧ (testSt {} { patrolEn := false }).ras.patrolEn = false :=
  ⟨⟨State.canon_of_check _ (by decide +kernel), by decide +kernel⟩, by decide +kernel, by decide +kernel, by decide +kernel, by decide +kernel⟩
theorem wit_arbitration :
    (let s := testSt { quarantined := true, arbitrating := true } { spares := [(7, { running := some { arb511 with arrB := true }, aFailed := true })] }
     s.Canon ∧ (s.ras.spare 7).aFailed = true ∧ (5 : Int) ≠ arb511.xo ∧ residuesAgree 5 5 = true ∧ residuesAgree arb511.rhoE 5 = false) ∧
    ((testSt {}).ras.spare 7).running = none ∧ ((testSt {}).ras.spare 7).queue = [] :=
  ⟨⟨State.canon_of_check _ (by decide +kernel), by decide +kernel⟩, by decide +kernel⟩

/-- A device in a power state, with one BRAKED partition. -/
def pwrSt (p : Power) (st : PartState := .braked) : State := { State.reset with pwr := p, parts := [(15, { state := st, map := { clusters := 2 ^ 63 }, gov := { leaseExpiry := 10 } })], granary := [(0, 1)] }

theorem wit_power :
    ((pwrSt { state := 1 }).pwr.state ≠ 0 ∧ (pwrSt { mode := 5 }).pwr.target = 0) ∧
    ((pwrSt { mode := 4 }).pwr.state = 0 ∧ (pwrSt { mode := 4 }).pwr.target ≠ 0 ∧ (pwrSt { mode := 4 }).mayEnter 4 = false ∧
     (pwrSt { mode := 3 }).mayEnter 3 = false ∧ (pwrSt { mode := 2 }).mayEnter 2 = true ∧ (pwrSt { mode := 2 }).pwr.target < 3 ∧
     (pwrSt { mode := 2 } .draining).mayEnter 2 = false ∧
     (let s : State := { pwrSt { mode := 3 } with parts := [] }; s.mayEnter s.pwr.target = true ∧ 3 ≤ s.pwr.target)) ∧
    ((pwrSt { state := 2 }).wakes 2 .pin = true ∧ (pwrSt { state := 1 }).wakes 1 .pin = false ∧ (pwrSt { state := 2 }).wakes 2 .other = false ∧
     (pwrSt { state := 1, wakeAt := 1 }).wakes 1 .timer = false ∧ (let s : State := { pwrSt { state := 1, wakeAt := 1 } with mill := { now := 1 } }; s.wakes 1 .timer = true)) ∧
    ((pwrSt {}).pwr.state = 0 ∧ ((pwrSt {}).pwr.domain 511).gated = false ∧ (pwrSt {}).mayGate 511 = true ∧ (pwrSt {}).mayGate 575 = false) ∧
    (let s : State := { pwrSt {} with tiles := [(511, { queue := [1] })] }
     (s.tile 511).queue ≠ [] ∧ s.mayGate 511 = false) ∧
    ((pwrSt { domains := [(679, { gated := true, wakes := 0xFFFFFFFF })] }).pwr.domain 679).gated = true := by decide +kernel

theorem wit_powerEvents :
    (let s : State := { pwrSt { state := 3 } with mill := { state := .locked } }
     1 ≤ s.pwr.state ∧ s.pwr.state ≤ 3 ∧ s.wakes s.pwr.state .pin = true ∧ s.mill.state ≠ .freerun) ∧
    ((pwrSt { state := 2 }).mill.now < ((pwrSt { state := 2 }).part 15).gov.leaseExpiry ∧ (pwrSt { state := 4 }).pwr.state = 4) ∧
    ((pwrSt { mode := 2 }).wakes (pwrSt { mode := 2 }).pwr.target .pin = true) ∧
    (let s := pwrSt {} .free
     s.Canon ∧ s.pwr.state = 0 ∧ (s.pwr.domain 576).gated = false ∧ s.mayGate 576 = true ∧ s.mayGate 672 = true ∧ s.mayGate 641 = true) ∧
    (let s : State := { pwrSt {} with ports := [(7, { mac := 1 })] }
     (s.port 7).mac ≠ 0 ∧ s.mayGate 679 = false) :=
  ⟨by decide +kernel, by decide +kernel, by decide +kernel, ⟨State.canon_of_check _ (by decide +kernel), by decide +kernel⟩, by decide +kernel⟩

def dieSt (x : DiePower) (st : PartState := .free) : State := { pwrSt { dies := [(7, x)], capWatts := 1000 } st with mill := { now := 5 } }

theorem wit_limits :
    (let s := dieSt { move := some (4, false), inForce := 4, power := 4 }
     s.Canon ∧ (s.pwr.die 7).move = some (4, false) ∧ (s.pwr.die 7).avsRetried = false ∧ oppMv (s.pwr.die 7).inForce ≤ 550 ∧
     549 < oppMv (s.pwr.die 7).inForce ∧ s.boundParts = [] ∧ s.pwr.capWatts ≠ 0 ∧ s.pwr.capWatts < 1001) ∧
    (let s := dieSt { move := some (0, true), inForce := 1, avsRetried := true, critical := true }
     s.Canon ∧ (s.pwr.die 7).move = some (0, true) ∧ (s.pwr.die 7).avsRetried = true ∧ (s.pwr.die 7).critical = true) :=
  ⟨⟨State.canon_of_check _ (by decide +kernel), by decide +kernel⟩, State.canon_of_check _ (by decide +kernel), by decide +kernel⟩

theorem wit_ports :
    (let s : State := { dieSt {} with ports := [(7, { link := true, subs := [(0, { up := true })], pfcEn := 0x40 })] }
     s.Canon ∧ s.pwr.ref156Lost = false ∧ bit 0x40 6 = true ∧ bit (s.port 7).pfcEn 6 = true ∧ 0 < s.mill.now ∧
     (s.ctx 0).state ≠ .defined ∧ (s.ctx 0).state ≠ .resident) ∧
    (pwrSt { ref156Lost := true }).pwr.ref156Lost = true ∧
    (let line : LineMeta := { written := true, kid := 1, keyGen := 1 }
     let a := hbmSetBase 0
     let op0 : Ctx := { state := .defined, desc := { objMax := 4, hbmSets := 1, hbmLen := 1048576 }, objects := [(1, { live := true, size := 65536 })] }
     let s : State := { State.reset with
       ctxs := [(0, op0)], mce := { keyIds := [(1, { state := .assigned, gen := 1, epoch := 1 })] }
       hbm := { lines := (List.range 4).map (fun i => (a / 64 + i, { line with la := a / 64 + i })), bytes := [(a, 9)] } }
     s.Canon ∧ (s.ctx 0).state = .defined ∧ (s.ctx 0).evicting = false ∧ (s.current 0 1).isSome = true ∧
     (s.readObj 0 (s.obj 0 1) 0 256).2.1 = none ∧ field (s.readObj 0 (s.obj 0 1) 0 256).1 0 4 = 9 ∧ (s.ctx 0).desc.queues = 0) :=
  ⟨⟨State.canon_of_check _ (by decide +kernel), by decide +kernel⟩, by decide +kernel, State.canon_of_check _ (by decide +kernel), by decide +kernel⟩

/-! ### The block as a whole -/

/-- A running device with a burned fuse, a lock bit and a command in its queue. -/
def blockSt : State :=
  { missionSt with pending := [.recoveryReq, .bcAuthIdle]
                   life := { missionSt.life with phase := .running }, ras := { lock := true } }

theorem wit_block :
    blockSt.Canon ∧ blockSt.pending ≠ [] ∧ blockSt.locked .ras = true ∧ bit blockSt.life.otp.counter.a 3 = true ∧
    (∃ t : State, step blockSt = .next t ∧ t.life.phase ≠ .held ∧ t.pending = [.bcAuthIdle]) ∧
    (∃ t : State, exec .recoveryReq blockSt = .next t ∧ t.life.phase ≠ .held) ∧
    State.reset.pending = [] ∧ State.reset.pwr.state < 3 ∧
    (let s : State := { State.reset with pwr := { state := 3 } }; s.pending = [] ∧ 3 ≤ s.pwr.state) :=
  ⟨State.canon_of_check _ (by decide +kernel), by decide +kernel, by decide +kernel, by decide +kernel,
   ⟨nx (step blockSt), rfl, by decide +kernel⟩, ⟨nx (exec .recoveryReq blockSt), rfl, by decide +kernel⟩, by decide +kernel, by decide +kernel,
   by decide +kernel⟩

/-! ### Commands whose success rests on a signature

The model leaves open which signatures verify and which vendor keys a device holds, so these witnesses take one that does as a hypothesis. -/

def fwKey : List Byte := List.replicate 68 5
/-- A firmware body of one section: one byte for the security die. -/
def fwBody : List Byte :=
  leBytes 4 0x4E465731 ++ leBytes 2 1 ++ [63, 31] ++ leBytes 2 1 ++ leBytes 22 0 ++ fwKey ++ leBytes 28 0
  ++ ([1] ++ leBytes 7 0 ++ leBytes 8 160 ++ leBytes 8 1 ++ leBytes 8 0) ++ [9]
/-- A container of a kind with one empty signature of a key. -/
def container (kind alg : Nat) (keyId body : List Byte) : List Byte :=
  leBytes 4 0x4C4E4852 ++ leBytes 2 1 ++ leBytes 2 kind ++ leBytes 8 (128 + body.length + 40) ++ leBytes 8 128 ++ leBytes 8 body.length
  ++ shake32 body ++ leBytes 8 (128 + body.length) ++ leBytes 4 1 ++ leBytes 52 0 ++ body
  ++ (leBytes 2 alg ++ leBytes 6 0 ++ keyId)
def contained (kind alg : Nat) (keyId body : List Byte) : Lenhar :=
  { kind := kind, digest := shake32 body, signed := (container kind alg keyId body).take 64, body := body, sigs := [{ alg := alg, keyId := keyId, sig := [] }] }

theorem wit_firmwareImage :
    lenhar (container 1 3 (shake32 fwKey) fwBody) = some (contained 1 3 (shake32 fwKey) fwBody) := by decide +kernel
theorem fwCheck_passes {s : State} {image : List Byte} {l : Lenhar} {k : Nat} (h0 : ¬ (image.isEmpty ∨ field image 0 4 = 0xFFFFFFFF))
    (h1 : lenhar image = some l) (h2 : ¬ (l.kind ≠ 1 ∨ 67108864 < field image 8 8)) (h3 : l.digestOk = true) (h4 : s.vendorOf l = some k)
    (h5 : fwBodyOk l.body = true) (h6 : ¬ field l.body 6 1 < s.life.otp.floor)
    (h7 : ¬ (!bit (field l.body 7 1) s.lcState ∨ Config.romVersion < field l.body 0xC 4)) : s.fwCheck (some image) = (0, some (l, k)) := by
  simp only [State.fwCheck, if_neg h0, h1, if_neg h2, h3, h4, h5, if_neg h6, if_neg h7, Bool.not_true, Bool.false_eq_true, if_false]
theorem wit_firmwareAccepted (hk : Config.vendorKeyDigest 0 = shake32 fwKey)
    (hs : ∀ m, Config.sigVerify 3 fwKey m [] = true) (hr : 1 ≤ Config.firmwareRoom 1) :
    let s := bootSt { otp := otpAt 0b110, phase := .rom }
    let image := container 1 3 (shake32 fwKey) fwBody
    s.mce.tampered = false ∧ s.imageOf (.flash (some image)) = some (some image) ∧
      s.fwCheck (some image) = (0, some (contained 1 3 (shake32 fwKey) fwBody, 0)) := by
  have hv (s : State) (hbit : bit s.life.otp.revoked.value 0 = false) : s.vendorOf (contained 1 3 (shake32 fwKey) fwBody) = some 0 := by
    have hpk : slice fwBody 0x20 68 = fwKey := by decide +kernel
    have hlen : fwKey.length = 68 := by decide
    simp only [State.vendorOf, show List.range 4 = [0, 1, 2, 3] from rfl, contained, hpk]
    rw [List.find?_cons_of_pos]
    simp [hbit, hk, SigEntry.verifies, hlen, algKeyLen, hs]
  have hb : fwBodyOk fwBody = true := by
    have hrec : (records 32 1 (fwBody.drop 0x80)).map fwSectionOf = [{ target := 1, load := 0, off := 160, len := 1, reservedZero := true }] := by
      decide +kernel
    have hn : field fwBody 8 2 = 1 := by decide +kernel
    have hl : fwBody.length = 161 := by decide +kernel
    have hrest : (field fwBody 0 4 == 0x4E465731 && field fwBody 4 2 == 1 && decide (field fwBody 6 1 ≤ 63) && decide (field fwBody 7 1 < 32)
        && allZero (slice fwBody 0xA 2) && allZero (slice fwBody 0x10 16) && allZero (slice fwBody 0x64 28)) = true := by decide +kernel
    simp only [Bool.and_eq_true] at hrest
    obtain ⟨⟨⟨⟨⟨⟨h1, h2⟩, h3⟩, h4⟩, h5⟩, h6⟩, h7⟩ := hrest
    simp only [fwBodyOk, hn, hrec, hl, h1, h2, h3, h4, h5, h6, h7]
    simp [fwSectionsOk, hr]
  have hd : (contained 1 3 (shake32 fwKey) fwBody).digestOk = true := by simp only [Lenhar.digestOk, contained, beq_self_eq_true]
  have hver : field fwBody 0xC 4 = 0 := by decide +kernel
  refine ⟨rfl, rfl, fwCheck_passes (by decide +kernel) wit_firmwareImage (by decide +kernel) hd (hv _ (by decide)) hb
    (by decide +kernel) ?_⟩
  have : bit (field fwBody 7 1) 2 = true := by decide +kernel
  show ¬ (!bit (field fwBody 7 1) 2 ∨ Config.romVersion < field fwBody 0xC 4)
  rw [hver, this]
  simp

/-- A charter body of one party, whose key is `fwKey`, with one key-wrapping handle and one stream. -/
def charterBody : List Byte :=
  leBytes 2 1 ++ [1, 0] ++ leBytes 2 1 ++ leBytes 2 1 ++ [0] ++ leBytes 7 0 ++ leBytes 48 0
  ++ (leBytes 2 1 ++ [0, 0] ++ leBytes 4 68 ++ leBytes 8 168 ++ leBytes 16 0 ++ shake32 fwKey) ++ leBytes 32 77
  ++ (leBytes 4 7 ++ [0, 3] ++ leBytes 2 0) ++ fwKey
theorem wit_charterImage :
    lenhar (container 4 1 (shake32 fwKey) charterBody) = some (contained 4 1 (shake32 fwKey) charterBody) ∧
    charterOk (contained 4 1 (shake32 fwKey) charterBody) = true ∧ (charterOf charterBody).parties.map (fun p => (p.alg, p.pk)) = [(1, fwKey)] ∧
    (charterOf charterBody).firmware = [] := by decide +kernel
/-- The container in operator object 1, and an EMPTY charter slot. -/
def loadCharterSt : State :=
  let s := opLines (charterSt .empty {} { len := 404 }) 7
  let a := (s.ctx 0).desc.hbmAddr 0
  { s with hbm := { s.hbm with bytes := ((container 4 1 (shake32 fwKey) charterBody).zipIdx.filter fun e => e.1 != 0).map fun e => (a + e.2, e.1) } }
theorem wit_charterLoaded (hs : ∀ m, Config.sigVerify 1 fwKey m [] = true) :
    let s := loadCharterSt
    s.lcState = 3 ∧ (s.sec.charter 15).state = .empty ∧ (s.current 0 s.sec.obj).isSome = true ∧ s.sec.len ≤ 4096 ∧
      (s.operatorBytes s.sec.obj s.sec.len).1 = some (container 4 1 (shake32 fwKey) charterBody) ∧
      s.charterStatus (container 4 1 (shake32 fwKey) charterBody) = (0, some (contained 4 1 (shake32 fwKey) charterBody)) := by
  have h (s : State) (he : s.sec.charters.any (fun e => e.2.state != .empty && e.2.digest == (contained 4 1 (shake32 fwKey) charterBody).digest) = false) :
      s.charterStatus (container 4 1 (shake32 fwKey) charterBody) = (0, some (contained 4 1 (shake32 fwKey) charterBody)) := by
    obtain ⟨h1, h2, h3, h4⟩ := wit_charterImage
    have hd : (contained 4 1 (shake32 fwKey) charterBody).digestOk = true := by simp only [Lenhar.digestOk, contained, beq_self_eq_true]
    have hsig : (charterOf charterBody).signed (contained 4 1 (shake32 fwKey) charterBody) = true := by
      obtain ⟨p, hp⟩ := List.length_eq_one_iff.mp (by simpa using congrArg List.length h3 : (charterOf charterBody).parties.length = 1)
      have hpk : p.pk = fwKey := by rw [hp] at h3; simpa using (congrArg (·.map (·.2)) h3)
      have hlen : fwKey.length = 68 := by decide
      simp [Charter.signed, hp, contained, SigEntry.verifies, hpk, hlen, algKeyLen, hs]
    have hk : (contained 4 1 (shake32 fwKey) charterBody).kind = 4 := rfl
    have hb : (contained 4 1 (shake32 fwKey) charterBody).body = charterBody := rfl
    simp only [State.charterStatus, h1, h2, hk, hb, hd, hsig, he, h4, List.isEmpty_nil, Bool.not_true, Bool.false_eq_true, if_false, ne_eq,
      not_true_eq_false, Bool.or_self, Bool.false_and]
  exact ⟨by decide +kernel, by decide +kernel, by decide +kernel, by decide +kernel, by decide +kernel, h _ (by decide +kernel)⟩

end Sys2Proof.Test
end

/-! PROOFS. Lock bits and the fields they guard (R12, R433): a WL register under its lock takes no write, whatever the requester and the
way its write comes, and no step short of a reset clears a lock bit. -/
namespace Sys2Proof.Machine
open Sys2Proof

/-! ### Writes of WL registers -/

/-- Under its lock a WL field keeps the state and notes the violation (R12). -/
@[simp] theorem State.wl_locked (s : State) (f : State → State) : s.wl true f = some (true, s) := rfl

/-- The P-view addresses of the WL registers are multiples of 8, below the board controller's own addresses and the U-view. -/
theorem wlRegs_addr : ∀ e ∈ wlRegs, e.1 % 8 = 0 ∧ e.1 < 0x7FFFFF0000 := by decide

/-- A WL register's write is guarded by the lock bit that `wlRegs` gives it. -/
theorem State.writeP_wlRegs (s : State) (rq : Req) (v : Word64) : ∀ e ∈ wlRegs, ∃ f, s.writeP rq e.1 v = s.wl (s.locked e.2) f := by
  simp only [wlRegs, List.forall_mem_cons, List.not_mem_nil, false_imp_iff, implies_true, and_true]
  simp only [State.writeP, State.writeGov, State.writePart, State.writeEth, State.writeSec, State.writePwr, State.writeRas, State.portWl]
  and_intros <;> exact ⟨_, rfl⟩

/-- A P-view register outside the board controller's own addresses is written by every requester that reaches it in the same way. -/
theorem State.regWrite_of_mayP {s : State} {rq : Req} {a : Nat} (ha : a % 8 = 0) (hlt : a < 0x7FFFFF0000) (hmay : s.mayP rq a = true)
    (v : Word64) : s.regWrite rq a v = s.writeDone (s.writeP rq a v) := by
  have hal : ¬a % 8 ≠ 0 := by omega
  have hown : ¬0x7FFFFF0000 ≤ a := by omega
  have hu : a < uBase := by unfold uBase; omega
  unfold State.regWrite
  rw [if_neg hal]
  by_cases hb : rq = .board
  · subst hb
    have hboard : s.boardMay a = true := hmay
    simp [hboard, hown]
  · simp [hb, hu, hmay]

/-- A write of a locked WL register is told LOCKED and leaves the state (R12). -/
theorem State.regWrite_locked {s : State} {rq : Req} {e : Nat × LockBlock} (he : e ∈ wlRegs) (hmay : s.mayP rq e.1 = true)
    (hlock : s.locked e.2 = true) (v : Word64) : s.regWrite rq e.1 v = (2, s) := by
  obtain ⟨hal, hlt⟩ := wlRegs_addr e he
  obtain ⟨f, hf⟩ := s.writeP_wlRegs rq v e he
  rw [State.regWrite_of_mayP hal hlt hmay, hf, hlock, State.wl_locked]
  rfl

/-! ### Answers -/

/-- No reset is taken where none is asked for. -/
theorem State.takeReset_of_not_pending {s : State} (h : s.life.resetPending = false) : s.takeReset = s := by
  simp [State.takeReset, h]

/-- With what an answer changes put back, the state is the one before it. -/
theorem State.respondOne_restored (s : State) (rq : Req) (a st : Nat) (d : List Word64) :
    { s.respondOne rq a st d with out := s.out, board := s.board, sec := s.sec, ports := s.ports } = s := by
  rw [State.respondOne_only]

/-- REG_WRITE of a locked WL register answers LOCKED and does nothing else (R12). -/
theorem execRegWrite_locked {s : State} {rq : Req} {e : Nat × LockBlock} (he : e ∈ wlRegs) (hmay : s.mayP rq e.1 = true)
    (hreset : s.life.resetPending = false) (hlock : s.locked e.2 = true) (v : Word64) :
    execRegWrite rq e.1 v s = .next (s.respondOne rq e.1 2 []) := by
  have haddr : e.1 % 2 ^ 40 = e.1 := Nat.mod_eq_of_lt (by have := (wlRegs_addr e he).2; omega)
  rw [execRegWrite, haddr, State.writeOne, State.regWrite_locked he hmay hlock]
  exact congrArg _ (State.takeReset_of_not_pending (by simpa using hreset))

/-! ### REG_WR packets -/

/-- The only register of a request for one stands at its ADDR. -/
theorem Pkt.regAt_zero (p : Pkt) : p.regAt 0 = p.regAddr := by
  simp [Pkt.regAt, Pkt.regAddr]

/-- A REG_WR of one locked WL register writes nothing, and its response tells LOCKED for register 0. -/
theorem State.regRequest_locked {s : State} {rq : Req} {p : Pkt} {e : Nat × LockBlock} (he : e ∈ wlRegs) (hok : p.regOk = true)
    (hcount : p.regCount = 1) (htype : p.type = 2) (haddr : p.regAddr = e.1) (hmay : s.mayP rq e.1 = true)
    (hreset : s.life.resetPending = false) (hlock : s.locked e.2 = true) :
    s.regRequest rq p = s.respond rq p.regTag 2 0 1 [] := by
  have hrun : p.writeStep rq { st := s } 0 = { st := s, refusal := some (2, 0) } := by
    rw [Pkt.writeStep, Pkt.regAt_zero, haddr, State.regWrite_locked he hmay hlock]
    rfl
  have hfold : (List.range p.regCount).foldl (if p.type = 1 then p.readStep rq else p.writeStep rq) { st := s }
      = { st := s, refusal := some (2, 0) } := by
    rw [hcount, htype, ← hrun]
    rfl
  rw [State.regRequest, hok, hfold, RegRun.finish, hcount]
  exact State.takeReset_of_not_pending (by simpa using hreset)

/-- A register packet of factory access runs for the factory (R373). -/
theorem State.onReg_factory {s : State} {p : Pkt} {type : Nat} (htype : p.type = type) (hf : s.factoryPkt p = true) :
    s.onReg p type = s.regRequest .factory p := if_pos ⟨htype, hf⟩

/-- A register packet that a session accepts runs for it, once its SEQ is taken (R277). -/
theorem State.onReg_session {s : State} {p : Pkt} {type : Nat} (htype : p.type = type) (hf : s.factoryPkt p = false)
    (hport : s.portDrops p.port = false) (hfate : s.pktFate p = .accepted) :
    s.onReg p type =
      (s.modSec fun x => x.setSession p.session ((x.session p.session).take p.seq)).regRequest (.session p.session) p := by
  simp [State.onReg, State.onPkt, State.takePkt, htype, hf, hport, hfate]

/-! ### Steps -/

/-- A command keeps every lock bit, unless it leaves the device held in reset. -/
theorem exec_locksKept {i : Instr} {s t : State} (h : exec i s = .next t) : s.LocksKept t ∨ t.life.phase = .held := by
  obtain ⟨u, hu, hkeeps⟩ := exec_all i s
  obtain rfl : u = t := Host.Outcome.next.inj (hu.symm.trans h)
  rcases hkeeps with hR | hT
  · exact hR.locks
  · exact .inl hT.locks

/-- So does a step (R12, R433). -/
theorem step_locksKept {s t : State} (h : step s = .next t) : s.LocksKept t ∨ t.life.phase = .held := by
  unfold step at h
  split at h
  · obtain rfl := Host.Outcome.next.inj h
    exact .inl (idle_keepsT s).locks
  · next c rest _ =>
    have hpop : s.LocksKept { s with pending := rest } := fun b hb => by cases b <;> exact hb
    exact (exec_locksKept h).imp_left fun hk b hb => hk b (hpop b hb)

/-- Settles O2: the write path of each WL register is `State.wl` of its block's lock bit, which under the lock leaves the state; and every
command keeps the lock bits or ends in reset. -/
theorem lockedFieldsStayUntilReset : Obligations.LockedFieldsStayUntilReset := by
  unfold Obligations.LockedFieldsStayUntilReset
  refine ⟨?write, ?packet, ?steps⟩
  case write =>
    intro e he s rq v hmay hreset hlock
    exact ⟨execRegWrite_locked he hmay hreset hlock v, s.respondOne_restored rq e.1 2 []⟩
  case packet =>
    intro e he s u p rq hsender hok hcount htype haddr hmay hreset hlock
    have hrun := State.regRequest_locked he hok hcount htype haddr hmay hreset hlock
    rw [← hrun]
    rcases hsender with ⟨hf, rfl, rfl⟩ | ⟨hf, hport, hfate, rfl, rfl⟩
    · exact congrArg _ (State.onReg_factory htype hf)
    · exact congrArg _ (State.onReg_session htype hf hport hfate)
  case steps =>
    intro s t hstep hrunning
    exact (step_locksKept hstep).resolve_right hrunning

end Sys2Proof.Machine

/-! PROOFS. PART_CMDs that may not run (R29). Each PART_CMD goes through `State.partCmd`, which answers BUSY; a BIND or REBIND tests the
partition's state before it looks for a staged stream. So each refusal writes one window's status, and `State.StatusOnly` says what that
leaves unchanged. -/
namespace Sys2Proof.Machine
open Sys2Proof

/-! ### What a status leaves unchanged -/

/-- From `s` to `t` nothing changes but the status words of partitions, and some window shows `st`. -/
def State.StatusOnly (s t : State) (st : Nat) : Prop :=
  { t with parts := s.parts } = s ∧ (∀ q, t.part q = { s.part q with status := (t.part q).status, secNo := (t.part q).secNo }) ∧
    ∃ q, q < 16 ∧ (t.part q).status = st

theorem State.part_modPart {s : State} (hs : s.Canon) (p q : Nat) (f : Part → Part) :
    (s.modPart p f).part q = if q = p then f (s.part p) else s.part q := s.part_setPart hs.tab.parts p q _

theorem State.StatusOnly.of_modPart {s : State} (hs : s.Canon) {p st : Nat} (hp : p < 16) {f : Part → Part}
    (hf : ∀ v, f v = { v with status := st, secNo := (f v).secNo }) : s.StatusOnly (s.modPart p f) st := by
  refine ⟨rfl, fun q => ?_, p, hp, ?_⟩
  · rw [s.part_modPart hs]
    split
    next h => rw [h, hf]
    next => rfl
  · rw [s.part_modPart hs, if_pos rfl, hf]

theorem State.StatusOnly.of_partStatus {s : State} (hs : s.Canon) {p : Nat} (hp : p < 16) (st : Nat) :
    s.StatusOnly (s.partStatus p st) st := .of_modPart hs hp fun _ => rfl

/-! ### Whether a PART_CMD runs -/

section
variable {s : State} {rq : Req} (hmay : s.mayP rq 0x50008 = true) (hp : (s.sel rq).part < 16)
include hmay hp

theorem State.partCmd_busy (hbusy : s.partBusy = true) (f : Bool → Nat → State → State) :
    s.partCmd rq f = s.modPart (s.sel rq).part fun v => { v with status := 1 } := by
  simp [State.partCmd, hmay, hp, hbusy]

theorem State.partCmd_idle (hidle : s.partBusy = false) (f : Bool → Nat → State → State) :
    s.partCmd rq f = f (s.sel rq).partAll (s.sel rq).part s := by
  simp [State.partCmd, hmay, hp, hidle]

theorem State.partCmdOne_idle (hidle : s.partBusy = false) (hone : (s.sel rq).partAll = false) (f : Nat → State → State) :
    s.partCmdOne rq f = f (s.sel rq).part s := by
  simp [State.partCmdOne, State.partCmd_idle hmay hp hidle, hone]

/-- Every PART_CMD is refused with BUSY while one is in progress; PART_SEL.ALL makes no difference. -/
theorem exec_partCmd_busy (hbusy : s.partBusy = true) {c : Instr} (hc : c ∈ [Instr.stage rq, .bind rq, .unbind rq, .rebind rq, .discard rq]) :
    exec c s = .next (s.modPart (s.sel rq).part fun v => { v with status := 1 }) := by
  simp only [List.mem_cons, List.not_mem_nil, or_false] at hc
  rcases hc with rfl | rfl | rfl | rfl | rfl <;> exact congrArg _ (State.partCmd_busy hmay hp hbusy _)

theorem exec_bind_idle (hidle : s.partBusy = false) :
    exec (.bind rq) s = .next (s.bind (s.sel rq).partAll (s.sel rq).part) := congrArg _ (State.partCmd_idle hmay hp hidle _)

theorem exec_unbind_idle (hidle : s.partBusy = false) (hone : (s.sel rq).partAll = false) :
    exec (.unbind rq) s = .next (s.unbind (s.sel rq).part) := congrArg _ (State.partCmdOne_idle hmay hp hidle hone _)

theorem exec_rebind_idle (hidle : s.partBusy = false) (hone : (s.sel rq).partAll = false) :
    exec (.rebind rq) s = .next (s.rebind (s.sel rq).part) := congrArg _ (State.partCmdOne_idle hmay hp hidle hone _)

end

/-! ### BIND, UNBIND and REBIND where they may not run -/

/-- The states of Table 01.5 from which a BIND goes on: FREE of the partition, or of all 16 for a full stream. -/
def State.Bindable (s : State) (all : Bool) (p : Nat) : Prop :=
  if all then ∀ q, q < 16 → (s.part q).state = .free else (s.part p).state = .free

/-- The test that BIND makes of the states is `State.Bindable`. -/
theorem State.bindable_iff (s : State) (all : Bool) (p : Nat) :
    (if all then (List.range 16).all fun q => (s.part q).state == .free else (s.part p).state == .free) = true ↔ s.Bindable all p := by
  cases all <;> simp [State.Bindable]

theorem State.bind_badState {s : State} {all : Bool} {p : Nat} (h : ¬ s.Bindable all p) : s.bind all p = s.partStatus p 2 := by
  rw [← State.bindable_iff, Bool.not_eq_true] at h
  simp only [State.bind, h, Bool.not_false, if_true]

theorem State.bind_noneStaged {s : State} {all : Bool} {p : Nat} (h : s.Bindable all p) (hst : s.stagedOf all p = none) :
    s.bind all p = s.partStatus p 0xA := by
  rw [← State.bindable_iff] at h
  simp only [State.bind, h, hst, Bool.not_true, Bool.false_eq_true, if_false]

theorem State.unbind_badState {s : State} {p : Nat} (hrun : (s.part p).state ≠ .running) (hbrake : (s.part p).state ≠ .braked) :
    s.unbind p = s.partStatus p 2 := by
  unfold State.unbind
  split
  next h => exact absurd h hrun
  next h => exact absurd h hbrake
  next => rfl

theorem State.rebind_badState {s : State} {p : Nat} (hfree : (s.part p).state ≠ .free) (hrun : (s.part p).state ≠ .running)
    (hbrake : (s.part p).state ≠ .braked) : s.rebind p = s.partStatus p 2 := if_pos ⟨hfree, hrun, hbrake⟩

theorem State.rebind_noneStaged {s : State} {p : Nat}
    (hstate : (s.part p).state = .free ∨ (s.part p).state = .running ∨ (s.part p).state = .braked) (hst : (s.part p).staged = none) :
    s.rebind p = s.partStatus p 0xA := by
  have hgood : ¬ ((s.part p).state ≠ .free ∧ (s.part p).state ≠ .running ∧ (s.part p).state ≠ .braked) := by tauto
  simp only [State.rebind, if_neg hgood, hst]

/-- Settles O11: while a PART_CMD is in progress every other shows BUSY, whatever PART_SEL.ALL says; otherwise BIND, UNBIND and REBIND
check the partition's state and then the staged stream, and what they refuse shows in a status alone. -/
theorem partCommandsAreRefused : Obligations.PartCommandsAreRefused := by
  unfold Obligations.PartCommandsAreRefused
  rintro s rq _ hs hmay rfl hp
  refine ⟨fun hone => ⟨?partBusy, ?partIdle⟩, fun hall => ⟨?fullBusy, ?fullIdle⟩⟩
  case partBusy => exact fun hbusy _ hc => exec_partCmd_busy hmay hp hbusy hc
  case partIdle =>
    intro hidle
    have hbind := exec_bind_idle hmay hp hidle
    rw [hone] at hbind
    have hunbind := exec_unbind_idle hmay hp hidle hone
    have hrebind := exec_rebind_idle hmay hp hidle hone
    refine ⟨fun hfree => ?_, fun hrun hbrake => ?_, fun hfree hrun hbrake => ?_, fun hfree hst => ?_, fun hstate hst => ?_⟩
    · exact hbind.trans (congrArg _ (State.bind_badState hfree))
    · exact hunbind.trans (congrArg _ (State.unbind_badState hrun hbrake))
    · exact hrebind.trans (congrArg _ (State.rebind_badState hfree hrun hbrake))
    · exact hbind.trans (congrArg _ (State.bind_noneStaged hfree hst))
    · exact hrebind.trans (congrArg _ (State.rebind_noneStaged hstate hst))
  case fullBusy =>
    intro hbusy c hc
    have hmem : c ∈ [Instr.stage rq, .bind rq, .unbind rq, .rebind rq, .discard rq] := by
      simp only [List.mem_cons, List.not_mem_nil, or_false] at hc ⊢
      rcases hc with h | h | h <;> simp [h]
    exact ⟨_, exec_partCmd_busy hmay hp hbusy hmem, State.StatusOnly.of_modPart hs hp fun _ => rfl⟩
  case fullIdle =>
    intro hidle
    have hbind := exec_bind_idle hmay hp hidle
    rw [hall] at hbind
    refine ⟨fun ⟨q, hq, hbound⟩ => ?_, fun hfree hst => ?_⟩
    · have hbad : ¬ s.Bindable true (s.sel rq).part := fun h => hbound (h q hq)
      exact ⟨_, hbind.trans (congrArg _ (State.bind_badState hbad)), State.StatusOnly.of_partStatus hs hp 2⟩
    · exact ⟨_, hbind.trans (congrArg _ (State.bind_noneStaged hfree hst)), State.StatusOnly.of_partStatus hs hp 0xA⟩

end Sys2Proof.Machine

/-! PROOFS. What every step holds: the canonical form, the fuses, mill time. `exec_all` says what each command keeps, a reset among them;
`step_keeps` says it of a step, which takes a command off the queue or idles. -/
namespace Sys2Proof.Machine
open Sys2Proof

/-! ### What a step keeps -/

/-- Taking the front command off the queue touches neither the canonical form nor the fuses. -/
theorem State.canon_pop {s : State} (h : s.Canon) (rest : List Instr) : ({ s with pending := rest } : State).Canon :=
  ⟨⟨h.mem.granary, h.mem.hbm, h.mem.pond, h.mem.tiles, h.mem.clusters⟩,
    ⟨h.tab.parts, h.tab.stageObj, h.tab.stageLen, h.tab.weirs, h.tab.querns, h.tab.resolves, h.tab.tollFails, h.tab.testNext,
      h.tab.testResults, h.tab.tiles, h.tab.clusters, h.tab.leats, h.tab.ctxs, h.tab.qps, h.tab.ports, h.tab.selects⟩⟩

theorem step_nil {s : State} (h : s.pending = []) : step s = .next (idle s) := by
  unfold step
  rw [h]

theorem step_cons {s : State} {c : Instr} {rest : List Instr} (h : s.pending = c :: rest) :
    step s = exec c { s with pending := rest } := by
  unfold step
  rw [h]

/-- A command burns fuses and clears none, and keeps the canonical form, whatever else it does. -/
theorem exec_keeps_fuses_canon {c : Instr} {s t : State} (h : exec c s = .next t) :
    Otp.Le s.life.otp t.life.otp ∧ (s.Canon → t.Canon) := by
  obtain ⟨u, hu, hkeeps⟩ := exec_all c s
  obtain rfl : u = t := Host.Outcome.next.inj (hu.symm.trans h)
  rcases hkeeps with hR | hT
  · exact ⟨hR.fuses, hR.canon⟩
  · exact ⟨hT.fuses, hT.canon⟩

/-- So does a step. -/
theorem step_keeps_fuses_canon {s t : State} (h : step s = .next t) : Otp.Le s.life.otp t.life.otp ∧ (s.Canon → t.Canon) := by
  cases hq : s.pending with
  | nil =>
    obtain rfl := Host.Outcome.next.inj ((step_nil hq).symm.trans h)
    exact ⟨(idle_keepsT s).fuses, (idle_keepsT s).canon⟩
  | cons c rest =>
    obtain ⟨hfuses, hcanon⟩ := exec_keeps_fuses_canon ((step_cons hq).symm.trans h)
    exact ⟨hfuses, fun hs => hcanon (State.canon_pop hs rest)⟩

/-- Settles O57: what `step_keeps_fuses_canon` says of the canonical form. -/
theorem everyStepKeepsTheCanonicalForm : Obligations.EveryStepKeepsTheCanonicalForm := by
  unfold Obligations.EveryStepKeepsTheCanonicalForm
  exact fun _ _ hs h => (step_keeps_fuses_canon h).2 hs

/-- Settles O59: what `step_keeps_fuses_canon` says of the fuses. -/
theorem fusesAreNeverCleared : Obligations.FusesAreNeverCleared := by
  unfold Obligations.FusesAreNeverCleared
  exact fun _ _ h => (step_keeps_fuses_canon h).1

/-- Settles O58: every arm of `exec` answers a next state and leaves the queue. -/
theorem everyCommandAnswersAState : Obligations.EveryCommandAnswersAState := by
  unfold Obligations.EveryCommandAnswersAState
  intro c s
  obtain ⟨t, ht, hkeeps⟩ := exec_all c s
  exact ⟨t, ht, hkeeps.elim (·.pending) (·.pending)⟩

/-- Settles O55. -/
theorem stepTakesTheFrontCommand : Obligations.StepTakesTheFrontCommand := by
  unfold Obligations.StepTakesTheFrontCommand
  refine ⟨fun s c rest h => step_cons h, fun s h hrun => ?_, fun s h hoff => ?_⟩
  · rw [step_nil h, idle, if_neg (by omega)]
    rfl
  · rw [step_nil h, idle, if_pos hoff]

/-- Settles O56: the state after reset lists nothing, so every table reads as its default. -/
theorem resetStateIsCanonical : Obligations.ResetStateIsCanonical := by
  unfold Obligations.ResetStateIsCanonical
  refine ⟨State.canon_of_check _ (by decide), rfl, rfl, rfl, rfl, fun _ => ⟨rfl, rfl⟩, fun _ => rfl, fun _ _ => rfl, fun b => ?_,
    fun _ => rfl, fun _ _ _ _ => rfl, fun _ => rfl⟩
  cases b <;> rfl

end Sys2Proof.Machine

/-! PROOFS. Mill time (R39): every command but the three that set it keeps it, unless it leaves the device in reset. -/
namespace Sys2Proof.Machine
open Sys2Proof

theorem answersR {o : Answer} {s : State} (h : ∃ t, o = .next t ∧ Keeps s t) : ∃ t, o = .next t ∧ KeepsR s t :=
  let ⟨t, ht, hk⟩ := h
  ⟨t, ht, hk.toR⟩

/-- What a command keeps that is none of the three that set mill time. -/
theorem exec_keepsR (c : Instr) (s : State) (hFirmwareAccepted : ∀ src, c ≠ .firmwareAccepted src) (hPtpSync : ∀ m, c ≠ .ptpSync m)
    (hPtpFollowUp : ∀ m, c ≠ .ptpFollowUp m) : ∃ t, exec c s = .next t ∧ KeepsR s t := by
  cases c with
  | regWrite _ _ _ => exact execRegWrite_keepsR _ _ _ s
  | lockSet _ _ => exact execLockSet_keepsR _ _ s
  | counterRead _ _ => exact answersR (execCounterRead_keeps _ _ s)
  | regRd _ => exact execRegRd_keepsR _ s
  | regWr _ => exact execRegWr_keepsR _ s
  | ihlakInvalid _ => exact answersR (execIhlakInvalid_keeps _ s)
  | stage _ => exact answersR (execStage_keeps _ s)
  | bind _ => exact answersR (execBind_keeps _ s)
  | unbind _ => exact answersR (execUnbind_keeps _ s)
  | rebind _ => exact answersR (execRebind_keeps _ s)
  | discard _ => exact answersR (execDiscard_keeps _ s)
  | drainComplete _ => exact answersR (execDrainComplete_keeps _ s)
  | drainLimitExpiry _ => exact answersR (execDrainLimitExpiry_keeps _ s)
  | scrubComplete _ => exact answersR (execScrubComplete_keeps _ s)
  | retireComplete _ => exact answersR (execRetireComplete_keeps _ s)
  | keyDestroyTimeout _ => exact answersR (execKeyDestroyTimeout_keeps _ s)
  | loadComplete _ => exact answersR (execLoadComplete_keeps _ s)
  | millracePacket _ _ _ => exact answersR (execMillracePacket_keeps _ _ _ s)
  | linkFrameAuthFail _ => exact answersR (execLinkFrameAuthFail_keeps _ s)
  | ptpSync _ => exact absurd rfl (hPtpSync _)
  | ptpUnsupported v0 => exact answersR (execPtpUnsupported_keeps v0 s)
  | ptpHoldover => exact answersR (execPtpHoldover_keeps s)
  | ppsInEdge => exact answersR (execPpsInEdge_keeps s)
  | ppsOutEdge => exact answersR (execPpsOutEdge_keeps s)
  | revolutionStart _ => exact answersR (execRevolutionStart_keeps _ s)
  | leaseExpiry _ => exact answersR (execLeaseExpiry_keeps _ s)
  | phaseStart _ _ => exact answersR (execPhaseStart_keeps _ _ s)
  | heldPhaseStart _ _ => exact answersR (execHeldPhaseStart_keeps _ _ s)
  | collectiveWindow _ _ => exact answersR (execCollectiveWindow_keeps _ _ s)
  | windowClose _ _ => exact answersR (execWindowClose_keeps _ _ s)
  | queueScan _ _ => exact answersR (execQueueScan_keeps _ _ s)
  | leaseCheck _ _ => exact answersR (execLeaseCheck_keeps _ _ s)
  | digestCompare _ _ => exact answersR (execDigestCompare_keeps _ _ s)
  | testSlot _ _ => exact answersR (execTestSlot_keeps _ _ s)
  | versionRelease _ _ => exact answersR (execVersionRelease_keeps _ _ s)
  | powerHint _ _ => exact answersR (execPowerHint_keeps _ _ s)
  | hintLapse _ => exact answersR (execHintLapse_keeps _ s)
  | deadlineMiss _ _ => exact answersR (execDeadlineMiss_keeps _ _ s)
  | brakeComplete _ => exact answersR (execBrakeComplete_keeps _ s)
  | brakeNFall => exact answersR (execBrakeNFall_keeps s)
  | release _ => exact answersR (execRelease_keeps _ s)
  | halt _ => exact answersR (execHalt_keeps _ s)
  | abort _ => exact answersR (execAbort_keeps _ s)
  | topLoStore _ _ => exact answersR (execTopLoStore_keeps _ _ s)
  | topHiStore _ _ => exact answersR (execTopHiStore_keeps _ _ s)
  | topEnqueue _ => exact answersR (execTopEnqueue_keeps _ s)
  | topDispatch _ => exact answersR (execTopDispatch_keeps _ s)
  | nop _ => exact answersR (execNop_keeps _ s)
  | mma _ _ => exact answersR (execMma_keeps _ _ s)
  | weightLoadDone _ _ => exact answersR (execWeightLoadDone_keeps _ _ s)
  | mmaComplete _ _ => exact answersR (execMmaComplete_keeps _ _ s)
  | load _ => exact answersR (execLoad_keeps _ s)
  | store _ => exact answersR (execStore_keeps _ s)
  | transferComplete _ _ => exact answersR (execTransferComplete_keeps _ _ s)
  | drainReg _ => exact answersR (execDrainReg_keeps _ s)
  | drainMem _ => exact answersR (execDrainMem_keeps _ s)
  | drainTin _ => exact answersR (execDrainTin_keeps _ s)
  | drainDiscard _ => exact answersR (execDrainDiscard_keeps _ s)
  | drainCompleteTop _ _ => exact answersR (execDrainCompleteTop_keeps _ _ s)
  | tinCvt _ => exact answersR (execTinCvt_keeps _ s)
  | tollAlloc _ => exact answersR (execTollAlloc_keeps _ s)
  | tollFree _ => exact answersR (execTollFree_keeps _ s)
  | tollServe => exact answersR (execTollServe_keeps s)
  | wait _ => exact answersR (execWait_keeps _ s)
  | signal _ => exact answersR (execSignal_keeps _ s)
  | fence _ => exact answersR (execFence_keeps _ s)
  | fenceComplete _ => exact answersR (execFenceComplete_keeps _ s)
  | add _ => exact answersR (execAdd_keeps _ s)
  | sub _ => exact answersR (execSub_keeps _ s)
  | mul _ => exact answersR (execMul_keeps _ s)
  | fma _ => exact answersR (execFma_keeps _ s)
  | fnma _ => exact answersR (execFnma_keeps _ s)
  | aff _ => exact answersR (execAff_keeps _ s)
  | mull _ => exact answersR (execMull_keeps _ s)
  | fmal _ => exact answersR (execFmal_keeps _ s)
  | vmin _ => exact answersR (execVmin_keeps _ s)
  | vmax _ => exact answersR (execVmax_keeps _ s)
  | vabs _ => exact answersR (execVabs_keeps _ s)
  | vneg _ => exact answersR (execVneg_keeps _ s)
  | cmpgt _ => exact answersR (execCmpgt_keeps _ s)
  | vsel _ => exact answersR (execVsel_keeps _ s)
  | mov _ => exact answersR (execMov_keeps _ s)
  | fill _ => exact answersR (execFill_keeps _ s)
  | movt _ => exact answersR (execMovt_keeps _ s)
  | rcp _ => exact answersR (execRcp_keeps _ s)
  | sqrt _ => exact answersR (execSqrt_keeps _ s)
  | rsqrt _ => exact answersR (execRsqrt_keeps _ s)
  | exp _ => exact answersR (execExp_keeps _ s)
  | exp2 _ => exact answersR (execExp2_keeps _ s)
  | log _ => exact answersR (execLog_keeps _ s)
  | log2 _ => exact answersR (execLog2_keeps _ s)
  | tanh _ => exact answersR (execTanh_keeps _ s)
  | sigmoid _ => exact answersR (execSigmoid_keeps _ s)
  | erf _ => exact answersR (execErf_keeps _ s)
  | rsum _ => exact answersR (execRsum_keeps _ s)
  | rsumsq _ => exact answersR (execRsumsq_keeps _ s)
  | rdot _ => exact answersR (execRdot_keeps _ s)
  | rmax _ => exact answersR (execRmax_keeps _ s)
  | rmin _ => exact answersR (execRmin_keeps _ s)
  | ramax _ => exact answersR (execRamax_keeps _ s)
  | iadd _ => exact answersR (execIadd_keeps _ s)
  | isub _ => exact answersR (execIsub_keeps _ s)
  | iand _ => exact answersR (execIand_keeps _ s)
  | ior _ => exact answersR (execIor_keeps _ s)
  | ixor _ => exact answersR (execIxor_keeps _ s)
  | ishl _ => exact answersR (execIshl_keeps _ s)
  | ishr _ => exact answersR (execIshr_keeps _ s)
  | ilsr _ => exact answersR (execIlsr_keeps _ s)
  | cvt _ => exact answersR (execCvt_keeps _ s)
  | srSet _ => exact answersR (execSrSet_keeps _ s)
  | srKeyReady _ => exact answersR (execSrKeyReady_keeps _ s)
  | statRead _ => exact answersR (execStatRead_keeps _ s)
  | vecComplete _ _ => exact answersR (execVecComplete_keeps _ _ s)
  | phaseDone _ => exact answersR (execPhaseDone_keeps _ s)
  | coreTrap _ _ _ => exact answersR (execCoreTrap_keeps _ _ _ s)
  | resumeStore _ _ => exact answersR (execResumeStore_keeps _ _ s)
  | coreHalt _ _ => exact answersR (execCoreHalt_keeps _ _ s)
  | coreResume _ => exact answersR (execCoreResume_keeps _ s)
  | syncSignal _ _ _ => exact answersR (execSyncSignal_keeps _ _ _ s)
  | waitRelease _ => exact answersR (execWaitRelease_keeps _ s)
  | quernIngest _ _ _ _ => exact answersR (execQuernIngest_keeps _ _ _ _ s)
  | ingestComplete _ _ _ => exact answersR (execIngestComplete_keeps _ _ _ s)
  | ruleLatch _ _ => exact answersR (execRuleLatch_keeps _ _ s)
  | quernSweep _ _ _ => exact answersR (execQuernSweep_keeps _ _ _ s)
  | sweepComplete _ _ => exact answersR (execSweepComplete_keeps _ _ s)
  | flipPass _ _ => exact answersR (execFlipPass_keeps _ _ s)
  | flipComplete _ _ => exact answersR (execFlipComplete_keeps _ _ s)
  | laggedSweep _ _ _ _ => exact answersR (execLaggedSweep_keeps _ _ _ _ s)
  | laggedCommit _ _ _ => exact answersR (execLaggedCommit_keeps _ _ _ s)
  | qrnLoad _ => exact answersR (execQrnLoad_keeps _ s)
  | qrnUnload _ => exact answersR (execQrnUnload_keeps _ s)
  | memFree _ _ => exact answersR (execMemFree_keeps _ _ s)
  | uFree _ _ _ => exact answersR (execUFree_keeps _ _ _ s)
  | freeComplete _ _ => exact answersR (execFreeComplete_keeps _ _ s)
  | leatPassStart _ _ => exact answersR (execLeatPassStart_keeps _ _ s)
  | leatSegmentIssue _ _ => exact answersR (execLeatSegmentIssue_keeps _ _ s)
  | leatSegmentDone _ _ => exact answersR (execLeatSegmentDone_keeps _ _ s)
  | leatPassEnd _ _ => exact answersR (execLeatPassEnd_keeps _ _ s)
  | weirLoad _ => exact answersR (execWeirLoad_keeps _ s)
  | weirUnload _ => exact answersR (execWeirUnload_keeps _ s)
  | promote _ => exact answersR (execPromote_keeps _ s)
  | readmit _ => exact answersR (execReadmit_keeps _ s)
  | collectiveStart _ _ => exact answersR (execCollectiveStart_keeps _ _ s)
  | collChunk _ => exact answersR (execCollChunk_keeps _ s)
  | collCredit _ => exact answersR (execCollCredit_keeps _ s)
  | collNack _ => exact answersR (execCollNack_keeps _ s)
  | collAck _ => exact answersR (execCollAck_keeps _ s)
  | creditReturn _ => exact answersR (execCreditReturn_keeps _ s)
  | weirMessage _ => exact answersR (execWeirMessage_keeps _ s)
  | rootWaitExpiry _ _ => exact answersR (execRootWaitExpiry_keeps _ _ s)
  | weirNodeEcc _ _ => exact answersR (execWeirNodeEcc_keeps _ _ s)
  | leafRecomputeDone _ _ => exact answersR (execLeafRecomputeDone_keeps _ _ s)
  | rdmaWrite _ => exact answersR (execRdmaWrite_keeps _ s)
  | rdmaRead _ => exact answersR (execRdmaRead_keeps _ s)
  | roceUnsupported _ _ => exact answersR (execRoceUnsupported_keeps _ _ s)
  | roceAck _ _ _ => exact answersR (execRoceAck_keeps _ _ _ s)
  | roceCnp _ => exact answersR (execRoceCnp_keeps _ s)
  | roceRateRecover _ => exact answersR (execRoceRateRecover_keeps _ s)
  | roceRetransmit _ => exact answersR (execRoceRetransmit_keeps _ s)
  | cmdNop _ _ => exact answersR (execCmdNop_keeps _ _ s)
  | cmdAlloc _ _ => exact answersR (execCmdAlloc_keeps _ _ s)
  | cmdFree _ _ => exact answersR (execCmdFree_keeps _ _ s)
  | cmdCopy _ _ => exact answersR (execCmdCopy_keeps _ _ s)
  | cmdWait _ _ => exact answersR (execCmdWait_keeps _ _ s)
  | cmdWaitTimeout _ _ => exact answersR (execCmdWaitTimeout_keeps _ _ s)
  | cmdSignal _ _ => exact answersR (execCmdSignal_keeps _ _ s)
  | unsealObj _ _ => exact answersR (execUnseal_keeps _ _ s)
  | copyEngineComplete => exact answersR (execCopyEngineComplete_keeps s)
  | eventRecordWrite _ => exact answersR (execEventRecordWrite_keeps _ s)
  | create _ => exact answersR (execCreate_keeps _ s)
  | ctxLoad _ => exact answersR (execCtxLoad_keeps _ s)
  | evict _ => exact answersR (execEvict_keeps _ s)
  | evictComplete _ => exact answersR (execEvictComplete_keeps _ s)
  | ctxEnd _ => exact answersR (execCtxEnd_keeps _ s)
  | destroy _ => exact answersR (execDestroy_keeps _ s)
  | connect _ => exact answersR (execConnect_keeps _ s)
  | qpReset _ => exact answersR (execQpReset_keeps _ s)
  | sluiceRefused _ => exact answersR (execSluiceRefused_keeps _ s)
  | brake _ => exact answersR (execBrake_keeps _ s)
  | lease _ => exact answersR (execLease_keeps _ s)
  | haltPart _ => exact answersR (execHaltPart_keeps _ s)
  | abortCtx _ => exact answersR (execAbortCtx_keeps _ s)
  | quarantinePort _ => exact answersR (execQuarantinePort_keeps _ s)
  | hello _ => exact answersR (execHello_keeps _ s)
  | attest _ => exact answersR (execAttest_keeps _ s)
  | finish _ _ => exact answersR (execFinish_keeps _ _ s)
  | done _ => exact answersR (execDone_keeps _ s)
  | setupTimeout _ => exact answersR (execSetupTimeout_keeps _ s)
  | wrappedKey _ => exact answersR (execWrappedKey_keeps _ s)
  | approve _ => exact answersR (execApprove_keeps _ s)
  | close _ => exact answersR (execClose_keeps _ s)
  | bcChallengeRead => exact answersR (execBcChallengeRead_keeps s)
  | bcResponseWrite _ => exact answersR (execBcResponseWrite_keeps _ s)
  | bcAuthIdle => exact answersR (execBcAuthIdle_keeps s)
  | fatalClear _ => exact answersR (execFatalClear_keeps _ s)
  | keyWrite _ => exact answersR (execKeyWrite_keeps _ s)
  | keyErase _ => exact answersR (execKeyErase_keeps _ s)
  | loadPubkey _ => exact answersR (execLoadPubkey_keeps _ s)
  | keyCheckSweep _ => exact answersR (execKeyCheckSweep_keeps _ s)
  | loadCharter _ => exact answersR (execLoadCharter_keeps _ s)
  | unloadCharter _ => exact answersR (execUnloadCharter_keeps _ s)
  | relRequest _ => exact answersR (execRelRequest_keeps _ s)
  | relRun _ => exact answersR (execRelRun_keeps _ s)
  | releaseComplete _ => exact answersR (execReleaseComplete_keeps _ s)
  | relCancel _ => exact answersR (execRelCancel_keeps _ s)
  | rollover _ => exact answersR (execRollover_keeps _ s)
  | attKeyReady => exact answersR (execAttKeyReady_keeps s)
  | macsecFrame _ _ => exact answersR (execMacsecFrame_keeps _ _ s)
  | mkaFrame _ _ => exact answersR (execMkaFrame_keeps _ _ s)
  | sakRekey _ _ => exact answersR (execSakRekey_keeps _ _ s)
  | macsecLost _ => exact answersR (execMacsecLost_keeps _ s)
  | tamper _ => exact answersR (execTamper_keeps _ s)
  | pwrGoodLow => exact execPwrGoodLow_keepsR s
  | resetNLow => exact execResetNLow_keepsR s
  | bootStart => exact answersR (execBootStart_keeps s)
  | firmwareAccepted _ => exact absurd rfl (hFirmwareAccepted _)
  | firmwareRejected _ => exact answersR (execFirmwareRejected_keeps _ s)
  | memoryTrained _ => exact answersR (execMemoryTrained_keeps _ s)
  | bootReady => exact answersR (execBootReady_keeps s)
  | recoveryReq => exact answersR (execRecoveryReq_keeps s)
  | recoveryData _ _ => exact answersR (execRecoveryData_keeps _ _ s)
  | recoverySourceTimeout => exact answersR (execRecoverySourceTimeout_keeps s)
  | transition _ => exact execTransition_keepsR _ s
  | raiseSvn _ => exact answersR (execRaiseSvn_keeps _ s)
  | revokeKey _ => exact answersR (execRevokeKey_keeps _ s)
  | genIdentity _ => exact answersR (execGenIdentity_keeps _ s)
  | identityGenerated => exact answersR (execIdentityGenerated_keeps s)
  | lcReset _ => exact execLcReset_keepsR _ s
  | fuseDigest _ => exact answersR (execFuseDigest_keeps _ s)
  | arbitrationStart _ => exact answersR (execArbitrationStart_keeps _ s)
  | arbitrationDecision _ _ _ => exact answersR (execArbitrationDecision_keeps _ _ _ s)
  | patrolRead _ _ => exact answersR (execPatrolRead_keeps _ _ s)
  | testSlotComplete _ _ => exact answersR (execTestSlotComplete_keeps _ _ s)
  | retest _ => exact answersR (execRetest_keeps _ s)
  | retestComplete _ => exact answersR (execRetestComplete_keeps _ s)
  | wfiAll _ => exact answersR (execWfiAll_keeps _ s)
  | wakeEvent _ => exact execWakeEvent_keepsR _ s
  | domainGate _ => exact answersR (execDomainGate_keeps _ s)
  | domainWake _ => exact answersR (execDomainWake_keeps _ s)
  | wakeTimeout _ => exact answersR (execWakeTimeout_keeps _ s)
  | voltageSettled _ => exact answersR (execVoltageSettled_keeps _ s)
  | vrMismatch _ _ => exact answersR (execVrMismatch_keeps _ _ s)
  | avsTimeout _ => exact answersR (execAvsTimeout_keeps _ s)
  | thermalSample _ _ _ => exact answersR (execThermalSample_keeps _ _ _ s)
  | powerCapWindow _ => exact answersR (execPowerCapWindow_keeps _ s)
  | pmbusPoll _ => exact answersR (execPmbusPoll_keeps _ s)
  | refLost _ => exact answersR (execRefLost_keeps _ s)
  | operatorQueueScan => exact answersR (execOperatorQueueScan_keeps s)
  | brakeNRise => exact answersR (execBrakeNRise_keeps s)
  | pwrGoodRise => exact execPwrGoodRise_keepsR s
  | referenceRestored _ => exact answersR (execReferenceRestored_keeps _ s)
  | portLinkChange _ _ _ => exact answersR (execPortLinkChange_keeps _ _ _ s)
  | pfcPauseFrame _ _ _ => exact answersR (execPfcPauseFrame_keeps _ _ _ s)
  | ptpAnnounce _ _ => exact answersR (execPtpAnnounce_keeps _ _ s)
  | ptpFollowUp _ => exact absurd rfl (hPtpFollowUp _)
  | ptpDelayReq _ => exact answersR (execPtpDelayReq_keeps _ s)
  | ptpMasterSync _ => exact answersR (execPtpMasterSync_keeps _ s)
  | quantizedLatch => exact answersR (execQuantizedLatch_keeps s)
  | entdaa _ => exact answersR (execEntdaa_keeps _ s)
  | attestReceived _ _ => exact answersR (execAttestReceived_keeps _ _ s)
  | doneReceived _ => exact answersR (execDoneReceived_keeps _ s)

/-- Settles O60: `exec_keepsR`, whose other way out leaves the device held. -/
theorem millTimeMovesOnlyByItsClock : Obligations.MillTimeMovesOnlyByItsClock := by
  unfold Obligations.MillTimeMovesOnlyByItsClock
  intro s t c h hrunning hFirmware hSync hFollowUp
  obtain ⟨u, hu, hkeeps⟩ := exec_keepsR c s hFirmware hSync hFollowUp
  obtain rfl : u = t := Host.Outcome.next.inj (hu.symm.trans h)
  exact hkeeps.now.resolve_right hrunning

end Sys2Proof.Machine

/-! PROOFS. Single register accesses (R9, R12, R340, R424 to R433): the status an access is refused with, the lock bits, the registers that
take no write, and the counters whose read takes away what it answers. -/
namespace Sys2Proof.Machine
open Sys2Proof

/-! ### One access of the P-view -/

/-- A P-view register outside the board controller's own addresses is read by every requester that reaches it in the same way. -/
theorem State.regRead_of_mayP {s : State} {rq : Req} {a : Nat} (ha : a % 8 = 0) (hlt : a < 0x7FFFFF0000) (hmay : s.mayP rq a = true) :
    s.regRead rq a = s.readDone (s.readP rq a) := by
  have hal : ¬a % 8 ≠ 0 := by omega
  have hown : ¬0x7FFFFF0000 ≤ a := by omega
  have hu : a < uBase := by unfold uBase; omega
  unfold State.regRead
  rw [if_neg hal]
  by_cases hb : rq = .board
  · subst hb
    have hboard : s.boardMay a = true := hmay
    simp [hboard, hown]
  · simp [hb, hu, hmay]

/-- REG_WRITE of a register that the requester reaches, where no lock bars it. -/
theorem exec_regWrite_done {s t : State} {rq : Req} {a : Nat} {v : Word64} (ha : a % 8 = 0) (hlt : a < 0x7FFFFF0000)
    (hmay : s.mayP rq a = true) (hw : s.writeP rq a v = t.done) (hreset : t.life.resetPending = false) :
    exec (.regWrite rq a v) s = .next (t.respondOne rq a 0 []) := by
  have haddr : a % 2 ^ 40 = a := Nat.mod_eq_of_lt (by omega)
  have hwrite : s.regWrite rq a v = (0, t) := by rw [State.regWrite_of_mayP ha hlt hmay, hw]; rfl
  have hkept : (t.respondOne rq a 0 []).life.resetPending = false := by simpa using hreset
  refine congrArg Host.Outcome.next ?_
  rw [haddr, State.writeOne, hwrite]
  exact State.takeReset_of_not_pending hkept

/-- COUNTER_READ of a register that the requester reaches, by what its block answers. -/
theorem execCounterRead_of_readP {s t : State} {rq : Req} {a v : Nat} (ha : a % 8 = 0) (hlt : a < 0x7FFFFF0000)
    (hmay : s.mayP rq a = true) (hr : s.readP rq a = some (v, t)) :
    execCounterRead rq a s = .next (t.respondOne rq a 0 [BitVec.ofNat 64 v]) := by
  have haddr : a % 2 ^ 40 = a := Nat.mod_eq_of_lt (by omega)
  rw [execCounterRead, haddr, State.readOne, State.regRead_of_mayP ha hlt hmay, hr]
  rfl

/-! ### Registers that take no write (R432, R9) -/

theorem roRegs_addr : ∀ a ∈ roRegs, a % 8 = 0 ∧ a < 0x7FFFFF0000 := by decide

/-- The blocks keep the state where a read-only or clearing register is written. -/
theorem State.writeP_roRegs (s : State) (rq : Req) (v : Word64) : ∀ a ∈ roRegs, s.writeP rq a v = s.keep := by
  simp only [roRegs, List.forall_mem_cons, List.not_mem_nil, false_imp_iff, implies_true, and_true]
  and_intros <;> rfl

/-- Settles O4: `State.writeP_roRegs`, for a requester that reaches the register. -/
theorem readOnlyRegistersIgnoreWrites : Obligations.ReadOnlyRegistersIgnoreWrites := by
  unfold Obligations.ReadOnlyRegistersIgnoreWrites
  intro a ha s rq v hmay hreset
  obtain ⟨hal, hlt⟩ := roRegs_addr a ha
  exact exec_regWrite_done hal hlt hmay (s.writeP_roRegs rq v a ha) hreset

/-! ### Lock bits (R433) -/

theorem LockBlock.addr_bounds (b : LockBlock) : b.addr % 8 = 0 ∧ b.addr < 0x7FFFFF0000 := by cases b <;> decide

/-- A 1 written to a lock register sets its block's lock bit. -/
theorem State.writeP_lock (s : State) (rq : Req) (b : LockBlock) : s.writeP rq b.addr 1 = (s.setLock b).done := by cases b <;> rfl

theorem State.setLock_resetPending (s : State) (b : LockBlock) : (s.setLock b).life.resetPending = s.life.resetPending := by
  cases b <;> rfl

theorem State.locked_setLock (s : State) (b c : LockBlock) : (s.setLock b).locked c = if c = b then true else s.locked c := by
  cases b <;> cases c <;> rfl

/-- Settles O3: a lock register is written through `State.setLock`, which sets one field. -/
theorem lockSetSetsOneLock : Obligations.LockSetSetsOneLock := by
  unfold Obligations.LockSetSetsOneLock
  intro s rq b hmay hreset
  obtain ⟨hal, hlt⟩ := b.addr_bounds
  refine ⟨s.setLock b, ?_, ?_, fun c hc => ?_, ?_⟩
  · have hsame : exec (.lockSet rq b) s = exec (.regWrite rq b.addr 1) s := by
      have haddr : b.addr % 2 ^ 40 = b.addr := Nat.mod_eq_of_lt (by omega)
      exact congrArg (fun a => Host.Outcome.next (s.writeOne rq a 1)) haddr.symm
    rw [hsame]
    exact exec_regWrite_done hal hlt hmay (s.writeP_lock rq b) ((s.setLock_resetPending b).trans hreset)
  · rw [s.locked_setLock, if_pos rfl]
  · rw [s.locked_setLock, if_neg hc]
  · cases b <;> rfl

/-! ### Refused accesses (R424, R281) -/

/-- An access that both ways refuse with a status answers that status and changes nothing. -/
theorem exec_refused {s : State} {rq : Req} {a st : Nat} {v : Word64} (ha : a < 2 ^ 40) (hreset : s.life.resetPending = false)
    (hw : s.regWrite rq a v = (st, s)) (hr : s.regRead rq a = (st, 0, s)) :
    exec (.regWrite rq a v) s = .next (s.respondOne rq a st []) ∧ exec (.counterRead rq a) s = .next (s.respondOne rq a st [0]) := by
  have haddr : a % 2 ^ 40 = a := Nat.mod_eq_of_lt ha
  constructor
  · refine congrArg Host.Outcome.next ?_
    rw [haddr, State.writeOne, hw]
    exact State.takeReset_of_not_pending (by simpa using hreset)
  · refine congrArg Host.Outcome.next ?_
    rw [haddr, State.readOne, hr]
    rfl

/-- Settles O5: the checks of an access come in the order of R424, each before anything is written. -/
theorem refusedAccessesChangeNothing : Obligations.RefusedAccessesChangeNothing := by
  unfold Obligations.RefusedAccessesChangeNothing
  intro s rq a v ha hreset
  refine ⟨fun hal => ?_, fun hal hlt hmay => ?_, fun hal hb hge hlt hmay => ?_, fun hal hb hge => ?_⟩
  · exact exec_refused ha hreset (if_pos hal) (if_pos hal)
  · have hu : a < uBase := hlt
    by_cases hb : rq = .board
    · subst hb
      have hboard : s.boardMay a = false := hmay
      exact exec_refused ha hreset (by simp [State.regWrite, hal, hboard]) (by simp [State.regRead, hal, hboard])
    · exact exec_refused ha hreset (by simp [State.regWrite, hal, hb, hu, hmay]) (by simp [State.regRead, hal, hb, hu, hmay])
  · have hu : ¬a < uBase := by unfold uBase; omega
    have he : ¬uEnd ≤ a := by unfold uEnd; omega
    have hx : s.mayU rq ((a - uBase) / 4096) = false := hmay
    exact exec_refused ha hreset (by simp [State.regWrite, hal, hb, hu, he, hx]) (by simp [State.regRead, hal, hb, hu, he, hx])
  · have hu : ¬a < uBase := by unfold uBase; omega
    have he : uEnd ≤ a := hge
    exact exec_refused ha hreset (by simp [State.regWrite, hal, hb, hu, he]) (by simp [State.regRead, hal, hb, hu, he])

/-! ### Counters (R9, R340) -/

theorem mceCounters_addr : ∀ e ∈ mceCounters, e.1 % 8 = 0 ∧ e.1 < 0x7FFFFF0000 := by
  simp [mceCounters]

/-- A read of a clearing counter of the memory protection gives its value and leaves 0. -/
theorem State.readP_mceCounters (s : State) (rq : Req) :
    ∀ e ∈ mceCounters, s.readP rq e.1 = some (e.2.1 s.mce, s.modMce e.2.2) ∧ e.2.1 (e.2.2 s.mce) = 0 := by
  simp only [mceCounters, List.forall_mem_cons, List.not_mem_nil, false_imp_iff, implies_true, and_true]
  and_intros <;> rfl

/-- A read of the Toll failure counter of the selected partition. -/
theorem State.readP_tollFails {s : State} {rq : Req} {p : Nat} (hp : (s.sel rq).part? = some p) :
    s.readP rq 0x80020 =
      let r := (NatMap.get {} s.tollFails p).read (s.chartered p)
      some (r.1, { s with tollFails := NatMap.set {} s.tollFails p r.2 }) := by
  change s.pvRc rq _ = _
  rw [State.pvRc, hp]

/-- Settles O6. -/
theorem counterReadsGiveAndTake : Obligations.CounterReadsGiveAndTake := by
  unfold Obligations.CounterReadsGiveAndTake
  refine ⟨fun e he s rq hmay _ => ?_, fun s rq p hs hmay _ hp => ?_⟩
  · obtain ⟨hal, hlt⟩ := mceCounters_addr e he
    obtain ⟨hread, hzero⟩ := s.readP_mceCounters rq e he
    exact ⟨execCounterRead_of_readP hal hlt hmay hread, hzero⟩
  · exact ⟨_, execCounterRead_of_readP (by decide) (by decide) hmay (State.readP_tollFails hp), NatMap.get_set_self hs.tab.tollFails p _,
      fun k hk => NatMap.get_set_other hs.tab.tollFails _ hk, rfl⟩

end Sys2Proof.Machine

/-! PROOFS. The quantized counters' boundary (R340), and register packets (R280, R373). -/
namespace Sys2Proof.Machine
open Sys2Proof

/-! ### The boundary of a millisecond -/

/-- The tables after the boundary, entry by entry: an entry that is not there has nothing to latch. -/
theorem State.latchCounters_reads {s : State} (hs : s.Canon) :
    (∀ p, s.latchCounters.weir p = (s.weir p).latched) ∧ (∀ p d, s.latchCounters.quern p d = (s.quern p d).latchCounters) ∧
    (∀ p, NatMap.get ({} : Counter) s.latchCounters.tollFails p = (NatMap.get ({} : Counter) s.tollFails p).latched) ∧
    (∀ n, s.latchCounters.tile n = { s.tile n with topLatch := (s.tile n).topCount }) ∧
    (∀ p, s.latchCounters.part p = { s.part p with topTotalLatch := (s.part p).topTotal }) :=
  ⟨fun p => NatMap.get_mapVals hs.tab.weirs _ (fun _ => rfl) p, fun _ _ => NatMap.get_mapVals hs.tab.querns _ (fun _ => rfl) _,
    fun p => NatMap.get_mapVals hs.tab.tollFails _ (fun _ => rfl) p, fun n => NatMap.get_mapVals hs.tab.tiles _ (fun _ => rfl) n,
    fun p => NatMap.get_mapVals hs.tab.parts _ (fun _ => rfl) p⟩

/-- Settles O7. -/
theorem countersLatchEachMillisecond : Obligations.CountersLatchEachMillisecond := by
  unfold Obligations.CountersLatchEachMillisecond
  refine fun s => ⟨fun h => congrArg Host.Outcome.next (if_neg h), fun h hs => ?_⟩
  obtain ⟨hweir, hquern, htoll, htile, hpart⟩ := State.latchCounters_reads hs
  exact ⟨s.latchCounters, congrArg Host.Outcome.next (if_pos h), hweir, hquern, htoll, htile, hpart, rfl, rfl⟩

/-! ### Register packets -/

/-- What taking a register packet comes to: `u` is the state in which the request of sender `rq` runs. -/
theorem exec_regPacket {s u : State} {p : Pkt} {rq : Req}
    (hsender : (s.factoryPkt p = true ∧ rq = .factory ∧ u = s) ∨
      (s.factoryPkt p = false ∧ s.portDrops p.port = false ∧ s.pktFate p = .accepted ∧ rq = .session p.session ∧
        u = s.modSec fun x => x.setSession p.session ((x.session p.session).take p.seq))) :
    (p.type = 1 → exec (.regRd p) s = .next (u.regRequest rq p)) ∧ (p.type = 2 → exec (.regWr p) s = .next (u.regRequest rq p)) := by
  rcases hsender with ⟨hf, rfl, rfl⟩ | ⟨hf, hport, hfate, rfl, rfl⟩
  · exact ⟨fun h => congrArg _ (State.onReg_factory h hf), fun h => congrArg _ (State.onReg_factory h hf)⟩
  · exact ⟨fun h => congrArg _ (State.onReg_session h hf hport hfate), fun h => congrArg _ (State.onReg_session h hf hport hfate)⟩

theorem State.regRequest_malformed (s : State) (rq : Req) {p : Pkt} (h : p.regOk = false) :
    s.regRequest rq p = s.respond rq p.regTag 4 0xFF p.regCount [] := by
  simp [State.regRequest, h]

/-- A well-formed request runs its registers in order, by its type. -/
theorem State.regRequest_runs (s : State) (rq : Req) {p : Pkt} (h : p.regOk = true) :
    s.regRequest rq p = ((List.range p.regCount).foldl (if p.type = 1 then p.readStep rq else p.writeStep rq) { st := s }).finish rq p := by
  simp [State.regRequest, h]

/-- The response of a request for one register tells that register's status. -/
theorem RegRun.finish_one (t : State) (data : List Word64) (st : Nat) (rq : Req) {p : Pkt} (hcount : p.regCount = 1) :
    ((({ st := t, data := data } : RegRun).note 0 st).finish rq p) =
      (t.respond rq p.regTag st (if st = 0 then 0xFF else 0) 1 data).takeReset := by
  by_cases h : st = 0 <;> simp [RegRun.note, RegRun.finish, h, hcount]

/-- Settles O8: a request is `State.regRequest`, whoever sends it; one register is the fold of one step. -/
theorem registerPacketsAccessRegisters : Obligations.RegisterPacketsAccessRegisters := by
  unfold Obligations.RegisterPacketsAccessRegisters
  intro s u p rq hsender
  obtain ⟨hread, hwrite⟩ := exec_regPacket hsender
  refine ⟨fun hbad => ⟨fun ht => ?_, fun ht => ?_⟩, fun hok => ⟨fun ht => ?_, fun ht => ?_⟩, fun hok hcount => ⟨fun ht => ?_, fun ht => ?_⟩⟩
  · rw [hread ht, State.regRequest_malformed u rq hbad]
  · rw [hwrite ht, State.regRequest_malformed u rq hbad]
  · rw [hread ht, State.regRequest_runs u rq hok, if_pos ht]
  · rw [hwrite ht, State.regRequest_runs u rq hok, if_neg (by omega)]
  · rw [hread ht, State.regRequest_runs u rq hok, if_pos ht, hcount, List.range_one, List.foldl_cons, List.foldl_nil, Pkt.readStep,
      p.regAt_zero, RegRun.finish_one _ _ _ rq hcount]
    rfl
  · rw [hwrite ht, State.regRequest_runs u rq hok, if_neg (by omega), hcount, List.range_one, List.foldl_cons, List.foldl_nil, Pkt.writeStep,
      p.regAt_zero, RegRun.finish_one _ _ _ rq hcount]

end Sys2Proof.Machine

/-! PROOFS. Invalid packets (R277): `State.invalidPkt` goes through its checks in the order of the rule; a packet that fails one comes to
`State.dropPkt`. -/
namespace Sys2Proof.Machine
open Sys2Proof

theorem State.pktFate_ne_unheard {s : State} {p : Pkt} (h : s.hears p = true) : s.pktFate p ≠ .unheard := by
  unfold State.pktFate
  simp only [h, Bool.not_true, Bool.false_eq_true, if_false]
  split_ifs <;> simp

/-- The counter of ETH_IHLAK_DROPS that a drop of a cause adds to. -/
theorem State.dropPkt_eq (s : State) (p : Pkt) (f : PktFate) :
    let n := s.sec.session p.session
    let counted : State := { s with eth := if f = .replay then { s.eth with dropReplay := min (s.eth.dropReplay + 1) 0xFFFFFFFF }
      else { s.eth with dropAuth := min (s.eth.dropAuth + 1) 0xFFFFFFFF } }
    (n.role = 0 ∨ (∃ t0, n.lastDrop = some t0 ∧ s.mill.now < t0 + 1000000) → s.dropPkt p f = counted) ∧
    (n.role ≠ 0 → (∀ t0, n.lastDrop = some t0 → t0 + 1000000 ≤ s.mill.now) →
      s.dropPkt p f = ({ counted with sec := counted.sec.setSession p.session { n with lastDrop := some s.mill.now } } : State).raise
        { code := 0x0709, loc := locEth n.part p.port }) := by
  intro n counted
  have hany : (n.lastDrop.any fun t => decide (s.mill.now < t + 1000000)) = true ↔ ∃ t0, n.lastDrop = some t0 ∧ s.mill.now < t0 + 1000000 := by
    simp [Option.any_eq_true]
  constructor
  · rintro h
    exact if_pos (h.imp_right hany.mpr)
  · intro hrole hlast
    refine if_neg ?_
    rintro (h | h)
    · exact hrole h
    · obtain ⟨t0, ht0, hlt⟩ := hany.mp h
      have := hlast t0 ht0
      omega

/-- A session's packet that is heard and none of the cases with a rule of its own is judged by its port and its fate. -/
theorem State.invalidPkt_session {s : State} {p : Pkt} (hsluice : p.sluice = false) (hhears : s.hears p = true)
    (hreg : ¬ ((p.type = 1 ∨ p.type = 2) ∧ s.factoryPkt p = true)) (hsetup : ¬ (p.type = 0x30 ∧ p.session = 0)) (hdone : s.awaitsDone p = false) :
    (s.portDrops p.port = true → s.invalidPkt p = s.countPortDrop p.port) ∧
    (s.portDrops p.port = false → s.pktFate p = .accepted → s.invalidPkt p = s) ∧
    (s.portDrops p.port = false → s.pktFate p ≠ .accepted → s.invalidPkt p = s.dropPkt p (s.pktFate p)) := by
  have hfirst : ¬ (p.sluice = true ∨ (!s.hears p) = true) := by simp [hsluice, hhears]
  have hinv : s.invalidPkt p = if s.portDrops p.port then s.countPortDrop p.port else
      match s.pktFate p with | .accepted | .unheard => s | f => s.dropPkt p f := by
    rw [State.invalidPkt, if_neg hfirst, if_neg hreg, if_neg hsetup, hdone]
    rfl
  rw [hinv]
  refine ⟨fun h => if_pos h, fun h hf => ?_, fun h hf => ?_⟩
  · rw [h, hf]; rfl
  · have hheard := State.pktFate_ne_unheard hhears
    rw [h]
    cases hfate : s.pktFate p <;> first | rfl | exact absurd hfate hf | exact absurd hfate hheard

/-- Settles O9. -/
theorem invalidPacketsAreDroppedAndCounted : Obligations.InvalidPacketsAreDroppedAndCounted := by
  unfold Obligations.InvalidPacketsAreDroppedAndCounted
  intro s p
  refine ⟨fun hsluice hhears hreg hsetup hdone => ?_, fun hhears htype hsession => ?_, fun h => ?_⟩
  · obtain ⟨hport, haccepted, hdrop⟩ := State.invalidPkt_session hsluice hhears hreg hsetup hdone
    refine ⟨fun h => congrArg _ (hport h), fun h hf => congrArg _ (haccepted h hf), fun h hf => ⟨fun hquiet => ?_, fun hrole hlast => ?_⟩⟩
    · exact congrArg _ ((hdrop h hf).trans ((s.dropPkt_eq p _).1 hquiet))
    · exact congrArg _ ((hdrop h hf).trans ((s.dropPkt_eq p _).2 hrole hlast))
  · have hsluice : p.sluice = false := by simp [Pkt.sluice, htype]
    have hfirst : ¬ (p.sluice = true ∨ (!s.hears p) = true) := by simp [hsluice, hhears]
    have hreg : ¬ ((p.type = 1 ∨ p.type = 2) ∧ s.factoryPkt p = true) := by omega
    exact congrArg _ (show s.invalidPkt p = _ by rw [State.invalidPkt, if_neg hfirst, if_neg hreg, if_pos ⟨htype, hsession⟩])
  · exact congrArg _ (show s.invalidPkt p = s from if_pos (h.imp_right fun h => by rw [h]; rfl))

end Sys2Proof.Machine

/-! PROOFS. What the shared operations leave unchanged. `State.sansSec` and `State.sansPwr` put a group of fields at their reset values; an
operation that writes in its group alone keeps the rest, `(op s).sansSec = s.sansSec`, and every field outside the group follows from that
one equation. -/
namespace Sys2Proof.Machine
open Sys2Proof

/-- A fold leaves what each of its steps leaves. -/
theorem foldl_same {α β γ : Type} {f : β → α → β} (g : β → γ) (h : ∀ b a, g (f b a) = g b) (l : List α) (b : β) : g (l.foldl f b) = g b := by
  induction l generalizing b with
  | nil => rfl
  | cons a l ih => rw [List.foldl_cons, ih, h]

/-! ### Keys, sessions, charters and faults -/

/-- The state without what keys, sessions, charters, faults and the packets they send write. -/
def State.sansSec (s : State) : State :=
  { s with sec := {}, ports := [], out := [], board := {}, ras := {}, eth := {}, selects := [], copyJobs := [] }

@[simp] theorem State.raise_sansSec (s : State) (f : FaultRec) : (s.raise f).sansSec = s.sansSec := by rw [State.raise_only]; rfl
@[simp] theorem State.modSec_sansSec (s : State) (f : Security → Security) : (s.modSec f).sansSec = s.sansSec := rfl

@[simp] theorem State.setKeySlot_sansSec (s : State) (n : Nat) (k : KeySlot) : (s.setKeySlot n k).sansSec = s.sansSec := rfl

@[simp] theorem State.sluiceChanged_sansSec (s : State) (n : Nat) (k : KeySlot) : (s.sluiceChanged n k).sansSec = s.sansSec := by
  unfold State.sluiceChanged
  split <;> rfl

@[simp] theorem State.installKey_sansSec (s : State) (n : Nat) (k : KeySlot) : (s.installKey n k).sansSec = s.sansSec := by
  have hrest : (s.installKey n k).sansSec = (s.sluiceChanged n k).sansSec := by
    unfold State.installKey
    generalize s.sluiceChanged n k = u
    split_ifs <;> simp only [State.setKeySlot_sansSec, State.modSec_sansSec]
  rw [hrest, State.sluiceChanged_sansSec]

@[simp] theorem State.eraseKey_sansSec (s : State) (n : Nat) : (s.eraseKey n).sansSec = s.sansSec := s.installKey_sansSec n {}

@[simp] theorem State.eraseKeys_sansSec (s : State) (p : KeySlot → Bool) : (s.eraseKeys p).sansSec = s.sansSec :=
  foldl_same State.sansSec State.eraseKey_sansSec _ s

@[simp] theorem State.endUse_sansSec (s : State) (n : Nat) : (s.endUse n).sansSec = s.sansSec := by
  simp only [State.endUse]
  split
  · exact s.eraseKey_sansSec n
  · rfl

@[simp] theorem State.endSession_sansSec (s : State) (n : Nat) : (s.endSession n).sansSec = s.sansSec := rfl

@[simp] theorem State.endSessions_sansSec (s : State) (p : Session → Bool) : (s.endSessions p).sansSec = s.sansSec :=
  foldl_same State.sansSec State.endSession_sansSec _ s

@[simp] theorem State.stopRelease_sansSec (s : State) (c : Nat) : (s.stopRelease c).sansSec = s.sansSec := by
  simp only [State.stopRelease]
  split
  · rw [State.raise_sansSec, foldl_same State.sansSec State.endUse_sansSec]
    rfl
  · rfl

@[simp] theorem State.clearCharter_sansSec (s : State) (c : Nat) (f : CharterSlot → CharterSlot) : (s.clearCharter c f).sansSec = s.sansSec := by
  simp only [State.clearCharter, State.modSec_sansSec, State.endSessions_sansSec, State.eraseKeys_sansSec, State.stopRelease_sansSec]

@[simp] theorem State.dropCharter_sansSec (s : State) (p : Nat) : (s.dropCharter p).sansSec = s.sansSec := by
  unfold State.dropCharter
  split
  · exact s.clearCharter_sansSec _ _
  · rfl

/-! ### Operating points -/

/-- The state without the power registers and what is sent. -/
def State.sansPwr (s : State) : State := { s with pwr := {}, out := [] }

@[simp] theorem State.retarget_sansPwr (s : State) (d : Nat) : (s.retarget d).sansPwr = s.sansPwr := by
  simp only [State.retarget]
  split_ifs <;> rfl

@[simp] theorem State.retargetAll_sansPwr (s : State) : s.retargetAll.sansPwr = s.sansPwr :=
  foldl_same State.sansPwr State.retarget_sansPwr _ s

@[simp] theorem State.endHint_sansPwr (s : State) (p : Nat) : (s.endHint p).sansPwr = s.sansPwr :=
  foldl_same State.sansPwr State.retarget_sansPwr _ _

/-! ### Tables -/

/-- A change of a table's entries one after another, the same for each: an entry that is listed has changed, any other stays. -/
theorem State.tile_foldl_modTile {s : State} (hs : NatMap.wf {} s.tiles = true) {f : Tile → Tile} (hf : ∀ x, f (f x) = f x) (l : List Nat)
    (n : Nat) : (l.foldl (fun s t => s.modTile t f) s).tile n = if n ∈ l then f (s.tile n) else s.tile n := by
  induction l generalizing s with
  | nil => rfl
  | cons t l ih =>
    have hread : (s.modTile t f).tile n = if n = t then f (s.tile t) else s.tile n := s.tile_setTile hs t n _
    rw [List.foldl_cons, ih (NatMap.wf_set t _ hs), hread]
    by_cases hn : n = t
    · subst hn; simp [hf]
    · simp [hn]

end Sys2Proof.Machine

/-! PROOFS. PART_CMDs that are accepted (R27 to R31): binding assigns key identifiers, unbinding and rebinding begin DRAINING, and a full
stream is staged, discarded and bound under PART_SEL.ALL. -/
namespace Sys2Proof.Machine
open Sys2Proof

/-! ### Key identifiers (R20, R347) -/

/-- The state without the memory protection and the count of draws. -/
def State.sansKeys (s : State) : State := { s with mce := {}, draws := 0 }

/-- An identifier assigned to partition `p` with the three keys drawn from draw `n` on. -/
def KeyId.drawn (p gen n : Nat) : KeyId :=
  { state := .assigned, part := p, gen := gen, epoch := 1, k1 := padTo 32 (Config.trng n)
    k2 := padTo 32 (Config.trng (n + 1)), kt := padTo 32 (Config.trng (n + 2)) }

theorem KeyId.drawn_ne_default (p gen n : Nat) : KeyId.drawn p gen n ≠ {} := fun h => by
  have := congrArg KeyId.epoch h
  simp [KeyId.drawn] at this

theorem State.assignKey_keyId (s : State) (p k j : Nat) :
    (s.assignKey p k).mce.keyId j = if j = k then KeyId.drawn p ((s.mce.keyId k).gen + 1) s.draws else s.mce.keyId j := by
  have hne := KeyId.drawn_ne_default p ((s.mce.keyId k).gen + 1) s.draws
  split
  next h => rw [h]; exact NatMap.get_set_same _ _ hne
  next h => exact NatMap.get_set_ne _ hne h

/-- Each identifier of a list gets keys from draws of its own; no other changes. -/
theorem State.assignKeys_keyId (p : Nat) (l : List Nat) (hl : l.Nodup) (s : State) :
    let t := l.foldl (State.assignKey · p) s
    s.draws ≤ t.draws ∧ (∀ k ∉ l, t.mce.keyId k = s.mce.keyId k) ∧
    ∀ k ∈ l, ∃ n, s.draws ≤ n ∧ n + 3 ≤ t.draws ∧ t.mce.keyId k = KeyId.drawn p ((s.mce.keyId k).gen + 1) n := by
  induction l generalizing s with
  | nil => simp
  | cons a l ih =>
    obtain ⟨ha, hl⟩ := List.nodup_cons.mp hl
    obtain ⟨hdraws, hother, hmem⟩ := ih hl (s.assignKey p a)
    have hstep : (s.assignKey p a).draws = s.draws + 3 := rfl
    rw [List.foldl_cons]
    refine ⟨by omega, fun k hk => ?_, fun k hk => ?_⟩
    · obtain ⟨hka, hkl⟩ := not_or.mp (fun h => hk (List.mem_cons.mpr h))
      rw [hother k hkl, State.assignKey_keyId, if_neg hka]
    · by_cases hka : k = a
      · subst hka
        exact ⟨s.draws, by omega, by omega, by rw [hother k ha, State.assignKey_keyId, if_pos rfl]⟩
      · obtain ⟨n, hn, hlast, hkey⟩ := hmem k ((List.mem_cons.mp hk).resolve_left hka)
        exact ⟨n, by omega, hlast, by rw [hkey, State.assignKey_keyId, if_neg hka]⟩

theorem State.assignKeys_sansKeys (p : Nat) (l : List Nat) (s : State) : (l.foldl (State.assignKey · p) s).sansKeys = s.sansKeys :=
  foldl_same State.sansKeys (by intro _ _; rfl) l s

theorem State.freeKeyIds_nodup (s : State) : s.freeKeyIds.Nodup := List.Nodup.filter _ List.nodup_range

/-! ### LOADING begins -/

/-- What step 5 makes of a partition that gets identifiers `ids`. -/
def Part.loads (v : Part) (st : Stream) (p : Nat) (ids : List Nat) : Part :=
  { v with state := .loading, stream := some (st.of p), map := partMapOf (st.get p 1), keyIds := ids, charter := (st.section? p 10).getD [], seed := [] }

/-- With identifiers enough, step 5 assigns the lowest free ones and takes the stream's resources. -/
theorem State.enterLoading_enough {s : State} {p : Nat} {st : Stream} (h : (partMapOf (st.get p 1)).keyCount ≤ s.freeKeyIds.length) :
    let ids := s.freeKeyIds.take (partMapOf (st.get p 1)).keyCount
    s.enterLoading p st = (ids.foldl (State.assignKey · p) s).modPart p (·.loads st p ids) := if_neg (by omega)

/-- With too few, the partition is FREE again (R37). -/
theorem State.enterLoading_short {s : State} {p : Nat} {st : Stream} (h : ¬ (partMapOf (st.get p 1)).keyCount ≤ s.freeKeyIds.length) :
    s.enterLoading p st = (s.dropCharter p).modPart p (·.unbound 9) := if_pos (by omega)

/-- Step 5 writes to its own partition, to no other, and not to the DEVICE section. -/
theorem State.enterLoading_frame (s : State) (p : Nat) (st : Stream) :
    ∃ (u : State) (f : Part → Part), s.enterLoading p st = u.modPart p f ∧ u.parts = s.parts ∧ u.device = s.device := by
  by_cases h : (partMapOf (st.get p 1)).keyCount ≤ s.freeKeyIds.length
  · have hrest := State.assignKeys_sansKeys p (s.freeKeyIds.take (partMapOf (st.get p 1)).keyCount) s
    exact ⟨_, _, State.enterLoading_enough h, (congrArg State.parts hrest :), (congrArg State.device hrest :)⟩
  · have hrest := s.dropCharter_sansSec p
    exact ⟨_, _, State.enterLoading_short h, (congrArg State.parts hrest :), (congrArg State.device hrest :)⟩

theorem State.enterLoading_part_other {s : State} (hs : NatMap.wf {} s.parts = true) {p q : Nat} (hq : q ≠ p) (st : Stream) :
    (s.enterLoading p st).part q = s.part q := by
  obtain ⟨u, f, h, hparts, _⟩ := s.enterLoading_frame p st
  rw [h]
  refine (u.part_setPart (hparts ▸ hs) p q _).trans ((if_neg hq).trans ?_)
  exact congrArg (NatMap.get {} · q) hparts

theorem State.enterLoading_device (s : State) (p : Nat) (st : Stream) : (s.enterLoading p st).device = s.device := by
  obtain ⟨u, f, h, _, hdevice⟩ := s.enterLoading_frame p st
  rw [h]
  exact hdevice

theorem State.bindParts_device (st : Stream) (ps : List Nat) (s : State) : (s.bindParts st ps).device = s.device :=
  foldl_same State.device (fun s p => (s.modPart p (·.begin s.now true)).enterLoading_device p st) ps s

/-- Binding writes to the partitions that it binds alone. -/
theorem State.bindParts_part_other {s : State} (hs : s.Canon) (st : Stream) {ps : List Nat} {q : Nat} (hq : q ∉ ps) :
    (s.bindParts st ps).part q = s.part q := by
  induction ps generalizing s with
  | nil => rfl
  | cons p ps ih =>
    obtain ⟨hqp, hqps⟩ := not_or.mp (fun h => hq (List.mem_cons.mpr h))
    have hbegun : (s.modPart p (·.begin s.now true)).Canon := (s.modPart_keeps p _).canon hs
    refine (ih ((State.enterLoading_keeps _ p st).canon hbegun) hqps).trans ?_
    rw [State.enterLoading_part_other hbegun.tab.parts hqp, State.part_modPart hs, if_neg hqp]

/-- Binding of one FREE partition. -/
theorem State.bindParts_one {s : State} (hs : s.Canon) {p : Nat} {st : Stream} (h : (partMapOf (st.get p 1)).keyCount ≤ s.freeKeyIds.length) :
    let m := partMapOf (st.get p 1)
    let t := s.bindParts st [p]
    (t.part p).state = .loading ∧ (t.part p).map = m ∧ (t.part p).keyIds = s.freeKeyIds.take m.keyCount ∧
      (∀ k ∈ (t.part p).keyIds, ∃ n, s.draws ≤ n ∧ n + 3 ≤ t.draws ∧ t.mce.keyId k = KeyId.drawn p ((s.mce.keyId k).gen + 1) n) ∧
      (∀ q, q ≠ p → t.part q = s.part q) ∧ { t with parts := s.parts, mce := s.mce, draws := s.draws } = s := by
  intro m t
  let b := s.modPart p (·.begin s.now true)
  let ids := s.freeKeyIds.take m.keyCount
  let u := ids.foldl (State.assignKey · p) b
  have ht : t = u.modPart p (·.loads st p ids) := State.enterLoading_enough (s := b) h
  have hrest : u.sansKeys = b.sansKeys := State.assignKeys_sansKeys p ids b
  have hparts : u.parts = b.parts := (congrArg State.parts hrest :)
  have hwf : NatMap.wf {} u.parts = true := hparts ▸ NatMap.wf_set p _ hs.tab.parts
  have hpart : t.part p = (u.part p).loads st p ids := by
    rw [ht]
    exact (u.part_setPart hwf p p _).trans (if_pos rfl)
  obtain ⟨_, _, hkeys⟩ := State.assignKeys_keyId p ids (List.Nodup.sublist (List.take_sublist _ _) s.freeKeyIds_nodup) b
  refine ⟨by rw [hpart]; rfl, by rw [hpart]; rfl, by rw [hpart]; rfl, ?_, fun q hq => ?_, ?_⟩
  · rw [hpart, ht]
    exact hkeys
  · exact State.bindParts_part_other hs st (by simpa using hq)
  · rw [ht]
    exact congrArg (fun x : State => { x with parts := s.parts, mce := s.mce, draws := s.draws }) hrest

/-! ### DRAINING begins (R31) -/

/-- What step 1 makes of the partition. -/
def Part.drains (v : Part) (now : Nat) (load : Bool) : Part :=
  let v := v.begin now load
  { v with
    state := .draining, brakedDrain := false
    rebind := { v.rebind with drainStart := now }
    gov := { v.gov.drainEntries with braking := false } }

@[simp] theorem State.stopLeats_parts (s : State) (c : Nat) : (s.stopLeats c).parts = s.parts := foldl_same State.parts (by intro _ _; rfl) _ s

@[simp] theorem State.foldQuerns_parts (s : State) (p : Nat) (f : Quern → Quern) : (s.foldQuerns p f).parts = s.parts :=
  foldl_same State.parts (by intro _ _; rfl) _ s

@[simp] theorem State.endHint_parts (s : State) (p : Nat) : (s.endHint p).parts = s.parts := (congrArg State.parts (s.endHint_sansPwr p) :)

/-- Step 1 changes its own partition alone, whatever release, stream or sweep it stops. -/
theorem State.enterDraining_parts (s : State) (p : Nat) (load : Bool) :
    (s.enterDraining p load).parts = (s.modPart p (·.drains s.now load)).parts := by
  have hstop : ∀ o : Option Nat, (match o with | some c => s.stopRelease c | none => s).sansSec = s.sansSec := by
    rintro (_ | c)
    · rfl
    · exact s.stopRelease_sansSec c
  simp only [State.enterDraining, State.endHint_parts, State.foldQuerns_parts]
  rw [foldl_same State.parts (by intro b c; exact State.stopLeats_parts _ c)]
  exact (congrArg (fun x : State => (x.modPart p (·.drains x.now load)).parts) (hstop (s.boundCharter p)) :)

theorem State.enterDraining_part {s : State} (hs : s.Canon) (p q : Nat) (load : Bool) :
    (s.enterDraining p load).part q = if q = p then (s.part p).drains s.now load else s.part q := by
  rw [State.part, s.enterDraining_parts p load]
  exact State.part_modPart hs p q _

theorem State.unbind_drains {s : State} {p : Nat} (h : (s.part p).state = .running ∨ (s.part p).state = .braked) :
    s.unbind p = s.enterDraining p false := by
  unfold State.unbind
  rcases h with h | h <;> rw [h]

theorem State.rebind_drains {s : State} {p : Nat} {st : Stream} (h : (s.part p).state = .running ∨ (s.part p).state = .braked)
    (hst : (s.part p).staged = some st) (hchecks : s.bindChecks st [p] = 0) : s.rebind p = s.enterDraining p true := by
  rcases h with h | h <;> simp [State.rebind, h, hst, hchecks]

theorem State.bind_loads {s : State} {p : Nat} {st : Stream} (hfree : (s.part p).state = .free) (hst : (s.part p).staged = some st)
    (hchecks : s.bindChecks st [p] = 0) : s.bind false p = s.bindParts st [p] ∧ s.rebind p = s.bindParts st [p] := by
  constructor
  · simp [State.bind, State.stagedOf, hfree, hst, hchecks]
  · simp [State.rebind, hfree, hst, hchecks]

/-! ### The full stream (R27, R28, R38) -/

section
variable {s : State} {rq : Req} (hmay : s.mayP rq 0x50008 = true) (hp : (s.sel rq).part < 16) (hidle : s.partBusy = false)
include hmay hp hidle

theorem exec_stage_idle : exec (.stage rq) s = .next (s.stage (s.sel rq).partAll (s.sel rq).part) :=
  congrArg _ (State.partCmd_idle hmay hp hidle _)

theorem exec_discard_idle : exec (.discard rq) s =
    .next ((s.setStaged (s.sel rq).partAll (s.sel rq).part none).partStatus (s.sel rq).part 0) :=
  congrArg _ (State.partCmd_idle hmay hp hidle _)

/-- UNBIND and REBIND are none of the commands of the full stream. -/
theorem State.partCmdOne_all (hall : (s.sel rq).partAll = true) (f : Nat → State → State) : s.partCmdOne rq f = s := by
  rw [State.partCmdOne, State.partCmd_idle hmay hp hidle, hall]
  rfl

end

/-- A full STAGE replaces the full stream and, where a stream passed, discards those of the partitions. -/
theorem State.stage_all {s : State} (hs : s.Canon) {p : Nat} (hn : NatMap.get 0 s.stageLen p ≠ 0) :
    let r := s.stageRun true p (NatMap.get 0 s.stageObj p) (NatMap.get 0 s.stageLen p)
    let u := r.2.2.2
    let t := s.stage true p
    t.stagedFull = r.2.2.1 ∧
    (∀ q, t.part q = { u.part q with staged := if r.2.2.1.isSome then none else (u.part q).staged
                                     status := if q = p then r.1 else (u.part q).status
                                     secNo := if q = p then r.2.1 else (u.part q).secNo }) ∧
    { t with parts := u.parts, stagedFull := u.stagedFull } = u := by
  intro r u t
  have hu : u.Canon := (s.stageRun_keeps true p _ _).canon hs
  let x : State := if r.2.2.1.isSome
    then { u with stagedFull := r.2.2.1, parts := NatMap.mapVals {} (fun _ v => { v with staged := none }) u.parts }
    else { u with stagedFull := r.2.2.1 }
  have ht : t = x.partStatus p r.1 r.2.1 := if_neg hn
  have hread : NatMap.wf {} x.parts = true ∧ ∀ q, x.part q = { u.part q with staged := if r.2.2.1.isSome then none else (u.part q).staged } := by
    unfold x
    split
    · exact ⟨NatMap.wf_mapVals _ hu.tab.parts, fun q => NatMap.get_mapVals hu.tab.parts _ (fun _ => rfl) q⟩
    · exact ⟨hu.tab.parts, fun _ => rfl⟩
  obtain ⟨hwf, hparts⟩ := hread
  have hrest : x.stagedFull = r.2.2.1 ∧ { x with parts := u.parts, stagedFull := u.stagedFull } = u := by
    unfold x
    split <;> exact ⟨rfl, rfl⟩
  rw [ht]
  refine ⟨hrest.1, fun q => ?_, hrest.2⟩
  refine (x.part_setPart hwf p q _).trans ?_
  split
  next h => rw [hparts, h]
  next => exact hparts q

/-- Settles O12. -/
theorem partitionCommandsStartTheirSteps : Obligations.PartitionCommandsStartTheirSteps := by
  unfold Obligations.PartitionCommandsStartTheirSteps
  constructor
  · rintro s rq _ hs hmay rfl hp hone hidle
    have hbind := exec_bind_idle hmay hp hidle
    rw [hone] at hbind
    have hunbind := exec_unbind_idle hmay hp hidle hone
    have hrebind := exec_rebind_idle hmay hp hidle hone
    refine ⟨fun st hst hchecks hfree hcount => ?_, fun hstate => ⟨?_, fun st hst hchecks => ?_⟩⟩
    · obtain ⟨hb, hr⟩ := State.bind_loads hfree hst hchecks
      exact ⟨_, hbind.trans (congrArg _ hb), hrebind.trans (congrArg _ hr), State.bindParts_one hs hcount⟩
    · refine ⟨_, hunbind.trans (congrArg _ (State.unbind_drains hstate)), ?_⟩
      simp only [State.enterDraining_part hs, if_pos]
      exact ⟨rfl, rfl, rfl, rfl, fun q hq => if_neg hq⟩
    · refine ⟨_, hrebind.trans (congrArg _ (State.rebind_drains hstate hst hchecks)), ?_⟩
      simp only [State.enterDraining_part hs, if_pos]
      exact ⟨rfl, rfl, rfl, rfl, fun q hq => if_neg hq⟩
  · rintro s rq _ hs hmay rfl hp hall hidle
    have hstage := exec_stage_idle hmay hp hidle
    have hdiscard := exec_discard_idle hmay hp hidle
    have hbind := exec_bind_idle hmay hp hidle
    rw [hall] at hstage hdiscard hbind
    refine ⟨fun hn => hstage.trans (congrArg _ (if_pos hn)), fun hn => ⟨_, hstage, State.stage_all hs hn⟩, ⟨_, hdiscard, rfl, ?_, fun q hq => ?_, rfl⟩,
      fun st hfree hst hchecks => ?_, congrArg _ (State.partCmdOne_all hmay hp hidle hall _), congrArg _ (State.partCmdOne_all hmay hp hidle hall _)⟩
    · exact (State.part_setPart _ hs.tab.parts _ _ _).trans (if_pos rfl)
    · exact (State.part_setPart _ hs.tab.parts _ _ _).trans (if_neg hq)
    · have hb : s.bind true (s.sel rq).part =
          { (s.partStatus (s.sel rq).part 0).bindParts st st.parts with device := st.get 0xFF 12 } := by
        have hall16 : ((List.range 16).all fun q => (s.part q).state == .free) = true := by simpa using hfree
        simp [State.bind, State.stagedOf, hall16, hst, hchecks]
      have hcanon := (s.modPart_keeps (s.sel rq).part fun v => { v with status := 0, secNo := 0xFFFF }).canon hs
      refine ⟨_, hbind.trans (congrArg _ hb), rfl, ?_, fun q hq hmem => ?_⟩
      · have hdevice := State.bindParts_device st st.parts (s.partStatus (s.sel rq).part 0)
        exact congrArg (fun d => { (s.partStatus (s.sel rq).part 0).bindParts st st.parts with device := d }) hdevice.symm
      · refine (State.bindParts_part_other hcanon st hmem).trans ?_
        rw [State.part_modPart hs, if_neg hq]

end Sys2Proof.Machine

/-! PROOFS. What contexts, their queues and their event records leave unchanged. -/
namespace Sys2Proof.Machine
open Sys2Proof

/-- The state without what contexts, queue pairs and the operations of `State.sansSec` write. -/
def State.sansCtx (s : State) : State := { s.sansSec with ctxs := [], qps := [], pendingFrees := [] }

theorem State.sansCtx_of_sansSec {s t : State} (h : t.sansSec = s.sansSec) : t.sansCtx = s.sansCtx := by
  rw [State.sansCtx, h]; rfl

@[simp] theorem State.raise_sansCtx (s : State) (f : FaultRec) : (s.raise f).sansCtx = s.sansCtx := State.sansCtx_of_sansSec (s.raise_sansSec f)
@[simp] theorem State.setCtx_sansCtx (s : State) (x : Nat) (c : Ctx) : (s.setCtx x c).sansCtx = s.sansCtx := rfl
@[simp] theorem State.modCtx_sansCtx (s : State) (x : Nat) (f : Ctx → Ctx) : (s.modCtx x f).sansCtx = s.sansCtx := rfl
@[simp] theorem State.setObj_sansCtx (s : State) (x i : Nat) (o : Obj) : (s.setObj x i o).sansCtx = s.sansCtx := rfl
@[simp] theorem State.modQueue_sansCtx (s : State) (x q : Nat) (f : HQueue → HQueue) : (s.modQueue x q f).sansCtx = s.sansCtx := rfl
@[simp] theorem State.setQp_sansCtx (s : State) (q : Nat) (v : Qp) : (s.setQp q v).sansCtx = s.sansCtx := rfl

@[simp] theorem State.sendRoce_sansCtx (s : State) (n : Nat) (m : OutMsg) : (s.sendRoce n m).sansCtx = s.sansCtx := by
  unfold State.sendRoce
  split_ifs <;> rfl

@[simp] theorem State.putRecord_sansCtx (s : State) (x : Nat) (r : EventRec) : (s.putRecord x r).sansCtx = s.sansCtx := by
  simp only [State.putRecord, State.sendRoce_sansCtx, State.setQp_sansCtx, State.setCtx_sansCtx]

@[simp] theorem State.record_sansCtx (s : State) (x : Nat) (r : EventRec) : (s.record x r).sansCtx = s.sansCtx := by
  simp only [State.record]
  split_ifs <;> simp only [State.putRecord_sansCtx, State.setCtx_sansCtx]

@[simp] theorem State.freeIdx_sansCtx (s : State) (x i origin : Nat) : (s.freeIdx x i origin).sansCtx = s.sansCtx := by
  simp only [State.freeIdx]
  split <;> rfl

@[simp] theorem State.endStep_sansCtx (s : State) (x : Nat) : (s.endStep x).sansCtx = s.sansCtx := by
  have hfree : ∀ l : List Nat, (l.foldl (fun s i => s.freeIdx x i 4) s).sansCtx = s.sansCtx :=
    fun l => foldl_same State.sansCtx (by intro t i; exact t.freeIdx_sansCtx x i 4) l s
  simp only [State.endStep]
  split_ifs <;> simp only [State.record_sansCtx, State.modCtx_sansCtx, hfree]

@[simp] theorem State.discardQueue_sansCtx (s : State) (x q : Nat) (dropWait recs : Bool) :
    (s.discardQueue x q dropWait recs).sansCtx = s.sansCtx := by
  simp only [State.discardQueue]
  split
  · exact foldl_same State.sansCtx (by intro t c; exact t.record_sansCtx x _) _ _
  · rfl

@[simp] theorem State.endCtx_sansCtx (s : State) (x how : Nat) : (s.endCtx x how).sansCtx = s.sansCtx := by
  simp only [State.endCtx, State.endStep_sansCtx]
  exact foldl_same State.sansCtx (by intro t q; exact t.discardQueue_sansCtx x q _ _) _ _

end Sys2Proof.Machine

/-! PROOFS. What stopping a partition's work leaves unchanged (R54, R57): of the partitions' own fields it writes the Governor's alone. -/
namespace Sys2Proof.Machine
open Sys2Proof

/-- The state without what the work of partitions writes: tiles, clusters, streams, Querns, Weirs, the power registers, Toll's queue, and the
group of `State.sansSec`. -/
def State.sansWork (s : State) : State :=
  { s.sansSec with tiles := [], clusters := [], leats := [], querns := [], weirs := [], pwr := {}, tollQueue := [] }

theorem State.sansWork_of_sansSec {s t : State} (h : t.sansSec = s.sansSec) : t.sansWork = s.sansWork := by
  rw [State.sansWork, h]; rfl

theorem State.sansWork_of_sansPwr {s t : State} (h : t.sansPwr = s.sansPwr) : t.sansWork = s.sansWork :=
  (congrArg State.sansWork h : t.sansPwr.sansWork = s.sansPwr.sansWork)

@[simp] theorem State.raise_sansWork (s : State) (f : FaultRec) : (s.raise f).sansWork = s.sansWork := State.sansWork_of_sansSec (s.raise_sansSec f)
@[simp] theorem State.endHint_sansWork (s : State) (p : Nat) : (s.endHint p).sansWork = s.sansWork :=
  State.sansWork_of_sansPwr (s.endHint_sansPwr p)
@[simp] theorem State.setTile_sansWork (s : State) (t : Nat) (v : Tile) : (s.setTile t v).sansWork = s.sansWork := rfl
@[simp] theorem State.modTile_sansWork (s : State) (t : Nat) (f : Tile → Tile) : (s.modTile t f).sansWork = s.sansWork := rfl
@[simp] theorem State.modCluster_sansWork (s : State) (c : Nat) (f : Cluster → Cluster) : (s.modCluster c f).sansWork = s.sansWork := rfl
@[simp] theorem State.modWeir_sansWork (s : State) (p : Nat) (f : Weir → Weir) : (s.modWeir p f).sansWork = s.sansWork := rfl
@[simp] theorem State.modSec_sansWork (s : State) (f : Security → Security) : (s.modSec f).sansWork = s.sansWork := rfl
@[simp] theorem State.sendOn_sansWork (s : State) (n : Nat) (m : IhlakMsg) : (s.sendOn n m).sansWork = s.sansWork := by
  rw [State.sendOn_only]; rfl

@[simp] theorem State.statNext_sansWork (s : State) (t : Nat) : (s.statNext t).sansWork = s.sansWork := by
  simp only [State.statNext]
  split
  · rfl
  · split
    · unfold State.statLost
      split <;> simp only [State.raise_sansWork, State.modTile_sansWork, State.setTile_sansWork]
    · rfl

@[simp] theorem State.settleStats_sansWork (s : State) (t : Nat) : (s.settleStats t).sansWork = s.sansWork :=
  foldl_same State.sansWork (by intro u _; exact u.statNext_sansWork t) _ s

@[simp] theorem State.stopLeats_sansWork (s : State) (c : Nat) : (s.stopLeats c).sansWork = s.sansWork :=
  foldl_same State.sansWork (by intro _ _; rfl) _ s

@[simp] theorem State.foldQuerns_sansWork (s : State) (p : Nat) (f : Quern → Quern) : (s.foldQuerns p f).sansWork = s.sansWork :=
  foldl_same State.sansWork (by intro _ _; rfl) _ s

@[simp] theorem State.foldGroups_sansWork (s : State) (p : Nat) (f : LagGroup → LagGroup) : (s.foldGroups p f).sansWork = s.sansWork :=
  s.foldQuerns_sansWork p _

@[simp] theorem State.settleRefs_sansWork (s : State) (p : Nat) : (s.settleRefs p).sansWork = s.sansWork := by
  unfold State.settleRefs
  split
  · rfl
  · exact s.foldGroups_sansWork p _

@[simp] theorem State.returnCredit_sansWork (s : State) (n : Nat) : (s.returnCredit n).sansWork = s.sansWork := by
  simp only [State.returnCredit]
  split
  · rfl
  · rw [State.sendOn_sansWork, State.modSec_sansWork]

@[simp] theorem State.oweCredit_sansWork (s : State) (n : Nat) : (s.oweCredit n).sansWork = s.sansWork := by
  simp only [State.oweCredit]
  split
  · rw [State.returnCredit_sansWork, State.modSec_sansWork]
  · rfl

@[simp] theorem State.dropColls_sansWork (s : State) (p : Nat) : (s.dropColls p).sansWork = s.sansWork :=
  foldl_same State.sansWork (by intro u e; exact u.oweCredit_sansWork e.1) _ _

/-- Stopping the work of a partition writes its Governor, and what `State.sansWork` leaves out. -/
theorem State.stopWork_sansWork (s : State) (p : Nat) (brake : Bool) :
    (s.stopWork p brake).sansWork = (s.modGov p (·.endEntries brake)).sansWork := by
  have hclusters : ∀ (l : List Nat) (u : State), (l.foldl (fun s c =>
      (s.modCluster c fun x => { x.unstall with running := false, extInt := x.extInt && brake }).stopLeats c) u).sansWork = u.sansWork :=
    fun l u => foldl_same State.sansWork (by intro v c; exact State.stopLeats_sansWork _ c) l u
  have htiles : ∀ (l : List Nat) (u : State), (l.foldl (fun s t => (s.modTile t (·.abandon brake)).settleStats t) u).sansWork = u.sansWork :=
    fun l u => foldl_same State.sansWork (by intro v t; exact State.settleStats_sansWork _ t) l u
  have hqueue : ∀ (u : State) (l : List TollCall), ({ u with tollQueue := l } : State).sansWork = u.sansWork := fun _ _ => rfl
  unfold State.stopWork
  simp only [State.endHint_sansWork]
  split <;> simp only [State.foldQuerns_sansWork, hqueue, htiles, hclusters]

/-- So does abandoning its step. -/
theorem State.abandonWork_sansWork (s : State) (p : Nat) (brake : Bool) :
    (s.abandonWork p brake).sansWork = ((s.modGov p fun g => { g with aborted := true }).modGov p (·.endEntries brake)).sansWork := by
  simp only [State.abandonWork, State.settleRefs_sansWork, State.modWeir_sansWork, State.dropColls_sansWork, State.foldGroups_sansWork,
    State.foldQuerns_sansWork, State.stopWork_sansWork]

theorem State.abandonWork_parts (s : State) (p : Nat) (brake : Bool) :
    (s.abandonWork p brake).parts = ((s.modGov p fun g => { g with aborted := true }).modGov p (·.endEntries brake)).parts :=
  (congrArg State.parts (s.abandonWork_sansWork p brake) :)

theorem State.part_modGov {s : State} (hs : s.Canon) (p q : Nat) (f : Gov → Gov) :
    (s.modGov p f).part q = if q = p then { s.part p with gov := f (s.part p).gov } else s.part q := State.part_modPart hs p q _

/-- Of the partitions' own fields an abandoned step writes its Governor. -/
theorem State.abandonWork_part {s : State} (hs : s.Canon) (p q : Nat) (brake : Bool) :
    (s.abandonWork p brake).part q =
      if q = p then { s.part p with gov := Gov.endEntries { (s.part p).gov with aborted := true } brake } else s.part q := by
  have hs1 : (s.modGov p fun g => { g with aborted := true }).Canon := (s.modGov_keeps p _).canon hs
  rw [State.part, s.abandonWork_parts p brake]
  refine (State.part_modGov hs1 p q _).trans ?_
  rw [State.part_modGov hs, State.part_modGov hs]
  by_cases h : q = p <;> simp [h]

end Sys2Proof.Machine

/-! PROOFS. The later steps of a rebinding (R31, R33, R34, R349): draining, scrubbing and retiring, each by what it writes. -/
namespace Sys2Proof.Machine
open Sys2Proof

/-! ### DRAINING ends -/

theorem State.endCtxNow_frame (s : State) (x : Nat) : (s.endCtxNow x).parts = s.parts ∧ (s.endCtxNow x).tiles = s.tiles := by
  let b := s.modCtx x fun c => { c with queues := NatMap.mapVals {} (fun _ q => { q with current := none, fetched := [] }) c.queues }
  have hend : (b.endCtx x 3).sansCtx = b.sansCtx := b.endCtx_sansCtx x 3
  exact ⟨(congrArg State.parts hend :), (congrArg State.tiles hend :)⟩

/-- The contexts of a partition that drains end and its queue pairs reset: neither writes partitions or tiles. -/
theorem State.endCtxsNow_frame (s : State) (xs : List Nat) (p : Nat) :
    ((xs.foldl State.endCtxNow s).resetPartQps p).parts = s.parts ∧ ((xs.foldl State.endCtxNow s).resetPartQps p).tiles = s.tiles :=
  ⟨foldl_same State.parts (fun u x => (u.endCtxNow_frame x).1) xs s, foldl_same State.tiles (fun u x => (u.endCtxNow_frame x).2) xs s⟩

/-- A tile that step 2 will scrub. -/
def Tile.toScrub (x : Tile) : Tile := { x with scrubbing := true }

theorem State.scrubTiles_parts (l : List Nat) (s : State) : (l.foldl (fun s t => s.modTile t Tile.toScrub) s).parts = s.parts :=
  foldl_same State.parts (by intro _ _; rfl) l s

/-- What DRAIN_COMPLETE makes of the partition. -/
def Part.scrubs (v : Part) : Part :=
  { v with state := .scrubbing, firewall := [], route := [], firewallOn := false, gov := v.gov.endEntries true }

/-- DRAIN_COMPLETE where the partition has drained: the contexts that end leave its own fields, and every tile of it scrubs. -/
theorem State.drainComplete_drained {s : State} (hs : s.Canon) {p : Nat} (hstate : (s.part p).state = .draining) (hd : s.drained p = true) :
    (s.drainComplete p).part p = (s.part p).scrubs ∧ ∀ n ∈ s.partTiles p, ((s.drainComplete p).tile n).scrubbing = true := by
  obtain ⟨xs, ht⟩ : ∃ xs : List Nat, s.drainComplete p =
      ((((xs.foldl State.endCtxNow (s.modPart p Part.scrubs)).resetPartQps p).partTiles p).foldl
        (fun s t => s.modTile t Tile.toScrub) ((xs.foldl State.endCtxNow (s.modPart p Part.scrubs)).resetPartQps p)) :=
    ⟨_, if_pos ⟨hstate, hd⟩⟩
  obtain ⟨hparts, htiles⟩ := (s.modPart p Part.scrubs).endCtxsNow_frame xs p
  rw [ht]
  generalize (xs.foldl State.endCtxNow (s.modPart p Part.scrubs)).resetPartQps p = u at hparts htiles
  have hpart : u.part p = (s.part p).scrubs := by
    rw [State.part, hparts]
    exact (State.part_modPart hs p p _).trans (if_pos rfl)
  have hmine : u.partTiles p = s.partTiles p := by simp only [State.partTiles, State.partClusters, hpart]; rfl
  have hwf : NatMap.wf {} u.tiles = true := htiles ▸ hs.tab.tiles
  refine ⟨?_, fun n hn => ?_⟩
  · rw [State.part, State.scrubTiles_parts]
    exact hpart
  · rw [hmine, State.tile_foldl_modTile hwf (by intro _; rfl), if_pos hn]
    rfl

/-! ### The limit (R34) -/

/-- Abandoning a draining partition marks it braked and leaves its state. -/
theorem State.abandonDrain_braked {s : State} (hs : s.Canon) (p q : Nat) :
    (s.abandonDrain p).part q =
      if q = p then { s.part p with
        brakedDrain := true, rebind := { (s.part p).rebind with braked := true }
        gov := Gov.endEntries { (s.part p).gov with aborted := true } true } else s.part q := by
  let b := s.modPart p fun v => { v with brakedDrain := true, rebind := { v.rebind with braked := true } }
  have hb : b.Canon := (s.modPart_keeps p _).canon hs
  have hread : ∀ q, b.part q = if q = p then { s.part p with brakedDrain := true, rebind := { (s.part p).rebind with braked := true } } else s.part q :=
    fun q => State.part_modPart hs p q _
  obtain ⟨u, hu, hparts, hcanon⟩ : ∃ u : State, s.abandonDrain p = u.abandonWork p true ∧ u.parts = b.parts ∧ u.Canon :=
    ⟨_, rfl, rfl, ⟨⟨hb.mem.granary, hb.mem.hbm, hb.mem.pond, hb.mem.tiles, hb.mem.clusters⟩,
      { hb.tab with qps := NatMap.wf_mapVals _ hb.tab.qps }⟩⟩
  have hpart : ∀ q, u.part q = b.part q := fun q => by rw [State.part, hparts]; rfl
  rw [hu, State.abandonWork_part hcanon, hpart, hpart, hread, hread, if_pos rfl]
  by_cases h : q = p <;> simp [h]

/-! ### SCRUBBING -/

/-- The state without what scrubbing writes beside tiles, clusters, streams and the partition's Weir. -/
def State.sansScrub (s : State) : State := { s.sansCtx with querns := [], granary := [] }

theorem State.releaseShards_sansScrub (s : State) (x p d : Nat) (l : List Shard) : (s.releaseShards x p d l).sansScrub = s.sansScrub := by
  refine foldl_same State.sansScrub (fun u sh => ?_) l s
  split
  · rfl
  · split <;> rfl

/-- Die `d`'s Quern is cleared, with the holds of its shards. -/
def State.wipeQuern (s : State) (p d : Nat) : State := (s.quernClear p d).setQuern p d {}

theorem State.wipeQuern_sansScrub (s : State) (p d : Nat) : (s.wipeQuern p d).sansScrub = s.sansScrub := by
  have hrelease : ∀ o : Option Nat, (match o with | some x => s.releaseShards x p d (s.quern p d).shards | none => s).sansScrub = s.sansScrub := by
    rintro (_ | x)
    · rfl
    · exact s.releaseShards_sansScrub x p d _
  exact hrelease (s.home p)

theorem State.wipeQuerns_sansScrub (s : State) (p : Nat) (l : List Nat) : (l.foldl (State.wipeQuern · p ·) s).sansScrub = s.sansScrub :=
  foldl_same State.sansScrub (fun u d => u.wipeQuern_sansScrub p d) l s

theorem State.zeroSlices_sansScrub (s : State) (l : List Nat) : (l.foldl State.zeroSlice s).sansScrub = s.sansScrub :=
  foldl_same State.sansScrub (by intro _ _; rfl) l s

/-- A cluster and its streams are cleared. -/
def State.wipeCluster (s : State) (c : Nat) : State := (List.range 16).foldl (fun s k => s.setLeat c k {}) (s.setCluster c {})

theorem State.wipeCluster_frame (s : State) (c : Nat) :
    { s.wipeCluster c with leats := [], clusters := [] } = { s with leats := [], clusters := [] } ∧
      (s.wipeCluster c).clusters = NatMap.set {} s.clusters c {} :=
  ⟨foldl_same (fun s : State => { s with leats := [], clusters := [] }) (by intro _ _; rfl) _ (s.setCluster c {}),
    foldl_same State.clusters (by intro _ _; rfl) _ (s.setCluster c {})⟩

theorem State.cluster_foldl_wipe {s : State} (hs : NatMap.wf {} s.clusters = true) (l : List Nat) (n : Nat) :
    (l.foldl State.wipeCluster s).cluster n = if n ∈ l then {} else s.cluster n := by
  induction l generalizing s with
  | nil => rfl
  | cons c l ih =>
    have hclusters := (s.wipeCluster_frame c).2
    have hread : (s.wipeCluster c).cluster n = if n = c then {} else s.cluster n := by
      rw [State.cluster, hclusters]
      exact s.cluster_setCluster hs c n {}
    rw [List.foldl_cons, ih (hclusters ▸ NatMap.wf_set c _ hs), hread]
    by_cases hn : n = c <;> simp [hn]

/-- A tile of the partition after scrubbing. -/
def Tile.scrubbed (x : Tile) : Tile := { x.scrub with scrubbing := false, halted := false }

theorem State.wipeClusters_frame (s : State) (l : List Nat) :
    { l.foldl State.wipeCluster s with leats := [], clusters := [] } = { s with leats := [], clusters := [] } :=
  foldl_same (fun s : State => { s with leats := [], clusters := [] }) (fun u c => (u.wipeCluster_frame c).1) l s

theorem State.scrubbedTiles_frame (s : State) (l : List Nat) :
    { l.foldl (fun s t => s.modTile t Tile.scrubbed) s with tiles := [] } = { s with tiles := [] } :=
  foldl_same (fun s : State => { s with tiles := [] }) (by intro _ _; rfl) l s

/-- What scrubbing writes after tiles and clusters. -/
def State.scrubLast (s : State) (p : Nat) (l : List Nat) : State :=
  let d := (l.foldl State.zeroSlice ((List.range 8).foldl (State.wipeQuern · p ·) s)).setWeir p {}
  { d with resolves := NatMap.set {} d.resolves p {} }

theorem State.scrubLast_frame (s : State) (p : Nat) (l : List Nat) : (s.scrubLast p l).parts = s.parts ∧ (s.scrubLast p l).mce = s.mce ∧
    (s.scrubLast p l).tiles = s.tiles ∧ (s.scrubLast p l).clusters = s.clusters ∧ (s.scrubLast p l).weirs = NatMap.set {} s.weirs p {} := by
  have h := (State.zeroSlices_sansScrub ((List.range 8).foldl (State.wipeQuern · p ·) s) l).trans (s.wipeQuerns_sansScrub p _)
  exact ⟨(congrArg State.parts h :), (congrArg State.mce h :), (congrArg State.tiles h :), (congrArg State.clusters h :),
    (congrArg (fun u : State => NatMap.set {} u.weirs p {}) h :)⟩

/-- Table 01.11, field by field. -/
theorem State.scrubPart_clears {s : State} (hs : s.Canon) (p : Nat) :
    (s.scrubPart p).parts = s.parts ∧ (s.scrubPart p).mce = s.mce ∧ (s.scrubPart p).weir p = {} ∧
      (∀ c ∈ s.partClusters p, (s.scrubPart p).cluster c = {}) ∧ ∀ n ∈ s.partTiles p, (s.scrubPart p).tile n = (s.tile n).scrubbed := by
  let a := (s.partTiles p).foldl (fun s t => s.modTile t Tile.scrubbed) s
  let b := (a.partClusters p).foldl State.wipeCluster a
  obtain ⟨l, ht⟩ : ∃ l : List Nat, s.scrubPart p = b.scrubLast p l := ⟨_, rfl⟩
  obtain ⟨hparts, hmce, htiles, hclusters, hweirs⟩ := b.scrubLast_frame p l
  have hba := a.wipeClusters_frame (a.partClusters p)
  have has := s.scrubbedTiles_frame (s.partTiles p)
  have haparts : a.parts = s.parts := (congrArg State.parts has :)
  have hmine : a.partClusters p = s.partClusters p := by simp only [State.partClusters, State.part, haparts]
  rw [ht]
  refine ⟨hparts.trans ((congrArg State.parts hba :).trans haparts), hmce.trans ((congrArg State.mce hba :).trans (congrArg State.mce has :)), ?_,
    fun k hk => ?_, fun n hn => ?_⟩
  · have hbs : b.weirs = s.weirs := (congrArg State.weirs hba :).trans (congrArg State.weirs has :)
    rw [State.weir, hweirs, hbs]
    exact NatMap.get_set_self hs.tab.weirs p _
  · have haclusters : a.clusters = s.clusters := (congrArg State.clusters has :)
    have hwf : NatMap.wf {} a.clusters = true := haclusters ▸ hs.tab.clusters
    rw [State.cluster, hclusters]
    exact (State.cluster_foldl_wipe hwf (a.partClusters p) k).trans (if_pos (hmine ▸ hk))
  · have hbtiles : b.tiles = a.tiles := (congrArg State.tiles hba :)
    rw [State.tile, htiles, hbtiles]
    exact (State.tile_foldl_modTile hs.tab.tiles (by intro _; rfl) (s.partTiles p) n).trans (if_pos hn)

/-! ### Identifiers, one after another -/

/-- What every step of a walk over identifiers establishes of its own and keeps of the others holds of each of them at the end. -/
theorem Mce.keyId_foldl {f : Mce → Nat → Mce} {P : KeyId → Prop} (hset : ∀ x k, P ((f x k).keyId k))
    (hkeep : ∀ x k j, P (x.keyId j) → P ((f x k).keyId j)) (l : List Nat) (x : Mce) : ∀ k ∈ l, P ((l.foldl f x).keyId k) := by
  have hall : ∀ (l : List Nat) (x : Mce) (j : Nat), P (x.keyId j) → P ((l.foldl f x).keyId j) := by
    intro l
    induction l with
    | nil => exact fun _ _ h => h
    | cons k l ih => exact fun x j h => ih (f x k) j (hkeep x k j h)
  induction l generalizing x with
  | nil => simp
  | cons k l ih =>
    intro j hj
    rcases List.mem_cons.mp hj with rfl | hj
    · exact hall l _ _ (hset x _)
    · exact ih (f x k) j hj

theorem Mce.keyId_setKeyId (x : Mce) {k : Nat} (j : Nat) {v : KeyId} (hv : v ≠ {}) :
    (x.setKeyId k v).keyId j = if j = k then v else x.keyId j := by
  split
  next h => rw [h]; exact NatMap.get_set_same _ _ hv
  next h => exact NatMap.get_set_ne _ hv h

theorem KeyId.retire_ne_default (i : KeyId) : i.retire ≠ {} := fun h => by
  have := congrArg KeyId.state h
  simp [KeyId.retire] at this

theorem KeyId.freed_ne_default (i : KeyId) : i.freed ≠ {} := fun h => by
  have := congrArg KeyId.confirmed h
  simp [KeyId.freed, allEngines] at this

/-- Step 4 begins: every identifier of the partition is RETIRING. -/
theorem Mce.retire_all (l : List Nat) (x : Mce) :
    ∀ k ∈ l, ((l.foldl (fun x k => x.setKeyId k (x.keyId k).retire) x).keyId k).state = .retiring := by
  refine Mce.keyId_foldl (P := fun i => i.state = .retiring) (fun x k => ?_) (fun x k j h => ?_) l x
  · rw [x.keyId_setKeyId k (KeyId.retire_ne_default _), if_pos rfl]; rfl
  · rw [x.keyId_setKeyId j (KeyId.retire_ne_default _)]
    split
    · rfl
    · exact h

/-- Step 4 ends: none of them is RETIRING any more. -/
theorem Mce.free_all (l : List Nat) (x : Mce) : ∀ k ∈ l,
    ((l.foldl (fun x k => if (x.keyId k).state = .retiring then x.setKeyId k (x.keyId k).freed else x) x).keyId k).state ≠ .retiring := by
  refine Mce.keyId_foldl (P := fun i => i.state ≠ .retiring) (fun x k => ?_) (fun x k j h => ?_) l x
  · split
    next => rw [x.keyId_setKeyId k (KeyId.freed_ne_default _), if_pos rfl]; simp [KeyId.freed]
    next h => exact h
  · split
    · rw [x.keyId_setKeyId j (KeyId.freed_ne_default _)]
      split
      · simp [KeyId.freed]
      · exact h
    · exact h

/-! ### RETIRING ends -/

theorem State.retireComplete_free {s : State} (hs : s.Canon) {p : Nat} (hstate : (s.part p).state = .retiring)
    (hload : (s.part p).rebind.toLoad = false) :
    let t := s.retireComplete p
    t.part p = (s.part p).unbound 0 ∧ ∀ k ∈ (s.part p).keyIds, (t.mce.keyId k).state ≠ .retiring := by
  intro t
  let f := fun (x : Mce) (k : Nat) => if (x.keyId k).state = .retiring then x.setKeyId k (x.keyId k).freed else x
  let b := s.modMce fun x => (s.part p).keyIds.foldl f x
  have ht : t = (b.dropCharter p).modPart p (·.unbound 0) := by
    simp only [t, State.retireComplete, hstate, hload]
    rfl
  have hrest := b.dropCharter_sansSec p
  have hparts : (b.dropCharter p).parts = s.parts := (congrArg State.parts hrest :)
  have hmce : (b.dropCharter p).mce = b.mce := (congrArg State.mce hrest :)
  rw [ht]
  refine ⟨?_, ?_⟩
  · refine ((b.dropCharter p).part_setPart (hparts ▸ hs.tab.parts) p p _).trans ((if_pos rfl).trans ?_)
    rw [State.part, hparts, State.part]
  · change ∀ k ∈ (s.part p).keyIds, ((b.dropCharter p).mce.keyId k).state ≠ .retiring
    rw [hmce]
    exact Mce.free_all _ s.mce

/-- Settles O13. -/
theorem rebindingStepsFollowInOrder : Obligations.RebindingStepsFollowInOrder := by
  unfold Obligations.RebindingStepsFollowInOrder
  refine ⟨fun s p hs => ⟨fun hstate hd => ?_, fun hstate hbraked hlimit => ?_, fun hstate => ?_, fun hstate hload => ?_⟩,
    fun s k => ⟨fun h => congrArg _ (if_pos h), fun h => congrArg _ (if_neg h)⟩⟩
  · obtain ⟨hpart, htiles⟩ := State.drainComplete_drained hs hstate hd
    exact ⟨_, rfl, congrArg Part.state hpart, congrArg Part.firewall hpart, congrArg Part.route hpart, congrArg Part.firewallOn hpart, htiles⟩
  · have hdue : s.drainLimitExpiry p = s.abandonDrain p := if_pos ⟨hstate, by simp [hbraked], hlimit⟩
    have hpart := (State.abandonDrain_braked hs p p).trans (if_pos rfl)
    exact ⟨_, congrArg Host.Outcome.next hdue, by rw [hpart], by rw [hpart], by rw [hpart]; exact hstate⟩
  · obtain ⟨hparts, hmce, hweir, hclusters, htiles⟩ := State.scrubPart_clears hs p
    have hrun : s.scrubComplete p = ((s.scrubPart p).modPart p fun v => { v with state := .retiring, gov := {}, tags := [] }).modMce fun x =>
        ((((s.scrubPart p).modPart p fun v => { v with state := .retiring, gov := {}, tags := [] })).part p).keyIds.foldl
          (fun x k => x.setKeyId k (x.keyId k).retire) x := if_pos hstate
    have hpart : ((s.scrubPart p).modPart p fun v => { v with state := .retiring, gov := {}, tags := [] }).part p =
        { s.part p with state := .retiring, gov := {}, tags := [] } := by
      refine (State.part_setPart _ (hparts ▸ hs.tab.parts) p p _).trans ((if_pos rfl).trans ?_)
      rw [State.part, hparts, State.part]
    rw [hpart] at hrun
    refine ⟨_, congrArg Host.Outcome.next hrun, ?_, ?_, ?_, hweir, hclusters, fun n hn => ?_, ?_⟩
    · exact congrArg Part.state hpart
    · exact congrArg Part.gov hpart
    · exact congrArg Part.tags hpart
    · change ((s.scrubPart p).tile n).regs = [] ∧ _
      exact ⟨congrArg Tile.regs (htiles n hn), congrArg Tile.scratch (htiles n hn), congrArg Tile.halted (htiles n hn)⟩
    · exact Mce.retire_all _ _
  · obtain ⟨hpart, hkeys⟩ := State.retireComplete_free hs hstate hload
    exact ⟨_, rfl, hpart, hkeys⟩

end Sys2Proof.Machine

/-! PROOFS. LOAD_COMPLETE (R31, R43, R60): what the stream makes of the partition, and the start time. -/
namespace Sys2Proof.Machine
open Sys2Proof

theorem le_roundUp (n : Nat) {m : Nat} (hm : 0 < m) : n ≤ roundUp n m := by
  unfold roundUp
  have h := Nat.div_add_mod (n + m - 1) m
  have hlt := Nat.mod_lt (n + m - 1) hm
  have hcomm : (n + m - 1) / m * m = m * ((n + m - 1) / m) := Nat.mul_comm _ _
  omega

/-- T₀ lies at or after one beat from now (R43). -/
theorem Timetable.le_origin {t : Timetable} (hgrid : 0 < t.grid) (hperiod : 0 < t.period) (now : Nat) : now + 64 ≤ t.origin now := by
  unfold Timetable.origin
  split
  · exact le_roundUp _ (by omega)
  · split
    next h => exact h
    next => have := le_roundUp (now + 64 - t.absStart) (m := 64 * t.period) (by omega); omega

/-- A partition to which the sections of a stream have been applied. -/
def Part.applied (v : Part) (st : Stream) (p : Nat) (seed : List Byte) (now : Nat) : Part :=
  let tt := timetableOf (st.get p 9)
  let order := st.get p 11
  { v with
    firewall := st.get p 2, route := st.get p 3, firewallOn := true
    tags := groupTags (st.get p 5)
    site0 := field order 2 1, site1 := field order 3 1, site2 := field order 4 1
    format := st.get p 7, seed := seed, pairing := st.get p 4
    mbQuota := tt.quota, topTotal := 0, topTotalLatch := 0
    gov := { tt := tt, t0 := tt.origin now, leaseExpiry := now + 1000000 * tt.leaseMs } }

theorem State.loadSeed_frame (s : State) (st : Stream) (p : Nat) : { (s.loadSeed st p).2 with draws := 0 } = { s with draws := 0 } := by
  simp only [State.loadSeed]
  split
  · rfl
  · split <;> rfl

/-- Of the partitions a stream that is applied writes its own, and it leaves mill time. -/
theorem State.applyStream_frame (s : State) (p : Nat) (st : Stream) :
    ∃ (u : State) (seed : List Byte), s.applyStream p st = u.modPart p (·.applied st p seed u.mill.now) ∧ u.parts = s.parts ∧ u.mill = s.mill := by
  have hseed := s.loadSeed_frame st p
  have hcharter : ∀ (b : State) (o : Option Nat), let u := match o with
      | some c => b.modSec fun x => x.setCharter c { x.charter c with state := .bound }
      | none => b
      u.parts = b.parts ∧ u.mill = b.mill := by
    rintro b (_ | c) <;> exact ⟨rfl, rfl⟩
  have hclusters : ∀ (l : List Nat) (b : State), let u := l.foldl (fun s c => s.modCluster c (·.load st p c)) b
      u.parts = b.parts ∧ u.mill = b.mill :=
    fun l b => ⟨foldl_same State.parts (by intro _ _; rfl) l b, foldl_same State.mill (by intro _ _; rfl) l b⟩
  refine ⟨_, _, rfl, ?_, ?_⟩
  · exact (hclusters _ _).1.trans ((hcharter _ _).1.trans (congrArg State.parts hseed :))
  · exact (hclusters _ _).2.trans ((hcharter _ _).2.trans (congrArg State.mill hseed :))

/-- LOAD_COMPLETE where no brake arrived, by the level of BRAKE_N. -/
theorem State.loadComplete_part {s : State} (hs : s.Canon) {p : Nat} {st : Stream} (hstate : (s.part p).state = .loading)
    (hstream : (s.part p).stream = some st) (hcauses : (s.part p).rebind.causes = 0) :
    ∃ seed, let t := s.loadComplete p
      let v := (s.part p).applied st p seed s.mill.now
      (s.mill.brakeLow = false → (t.part p).state = .armed ∧ (t.part p).gov = v.gov) ∧
      (s.mill.brakeLow = true → (t.part p).state = .braked ∧ (t.part p).gov.byPin = true) := by
  obtain ⟨u, seed, happly, hparts, hmill⟩ := s.applyStream_frame p st
  have hwf : NatMap.wf {} (s.applyStream p st).parts = true := by
    rw [happly]; exact NatMap.wf_set p _ (hparts ▸ hs.tab.parts)
  have hpart : (s.applyStream p st).part p = (s.part p).applied st p seed s.mill.now := by
    rw [happly]
    refine (u.part_setPart (hparts ▸ hs.tab.parts) p p _).trans ((if_pos rfl).trans ?_)
    rw [State.part, hparts, hmill]
    rfl
  have hlow : (s.applyStream p st).mill.brakeLow = s.mill.brakeLow := by rw [happly]; exact congrArg Mill.brakeLow hmill
  have hzero : bit 0 1 = false := rfl
  have hbit : bit (s.part p).rebind.causes 1 = false := by rw [hcauses, hzero]
  have hmine : ((s.part p).applied st p seed s.mill.now).rebind.causes = 0 := hcauses
  refine ⟨seed, fun hhigh => ?_, fun hpin => ?_⟩
  · rw [hhigh] at hlow
    simp only [State.loadComplete, hstate, hstream, hlow, hcauses]
    refine ⟨?_, ?_⟩
    · refine (congrArg Part.state ((State.part_setPart _ hwf p p _).trans (if_pos rfl))).trans ?_
      simp [hzero]
    · refine (congrArg Part.gov ((State.part_setPart _ hwf p p _).trans (if_pos rfl))).trans ?_
      simp [hpart, hzero]
  · rw [hpin] at hlow
    simp only [State.loadComplete, hstate, hstream, hbit, hlow, Bool.or_true, Bool.true_or, if_true, State.raise_part]
    refine ⟨?_, ?_⟩
    · exact congrArg Part.state ((State.part_setPart _ hwf p p _).trans (if_pos rfl))
    · refine (congrArg (fun v : Part => v.gov.byPin) ((State.part_setPart _ hwf p p _).trans (if_pos rfl))).trans ?_
      simp [Gov.brakedByAll, hpart, hmine, bit, flag]

/-- Settles O14. -/
theorem loadCompleteArmsOrBrakes : Obligations.LoadCompleteArmsOrBrakes := by
  unfold Obligations.LoadCompleteArmsOrBrakes
  intro s p st hs hstate hstream hcauses hgrid hperiod
  obtain ⟨seed, harmed, hbraked⟩ := State.loadComplete_part hs hstate hstream hcauses
  refine ⟨fun hhigh => ?_, fun hpin => ⟨_, rfl, hbraked hpin⟩⟩
  obtain ⟨hnow, hgov⟩ := harmed hhigh
  refine ⟨_, rfl, hnow, congrArg Gov.tt hgov, ?_, congrArg Gov.leaseExpiry hgov⟩
  rw [congrArg Gov.t0 hgov]
  exact Timetable.le_origin hgrid hperiod _

end Sys2Proof.Machine

/-! PROOFS. What braking, abandoning and the Weir do to a partition (R54, R57, R261 to R268). `WorksOn p s t` says what every operation from `s`
to `t` of that kind keeps: the other partitions, and of partition `p` all but its Governor, of which `Gov.Worked` says what stays. -/
namespace Sys2Proof.Machine
open Sys2Proof

/-- The state without what the work of a partition, its Weir and its brakes write. -/
def State.sansWeir (s : State) : State := { s.sansWork with parts := [], granary := [] }

theorem State.sansWeir_of_sansWork {s t : State} (h : t.sansWork = s.sansWork) : t.sansWeir = s.sansWeir := by
  rw [State.sansWeir, h]; rfl

/-- What stays of a Governor whose partition is not BRAKED: a brake or an abandonment that is under way is not taken back, the commit point of
an abandoned step is not passed, and the timetable, the lease, the causes of a brake and the record of misses stay. -/
structure Gov.Worked (g h : Gov) : Prop where
  kept : ∃ r s c a b t l, h = { g with runs := r, step := s, committed := c, aborted := a, braking := b, brakeAt := t, brakeAfterCommit := l }
  braking : g.braking = true → h.braking = true ∧ h.brakeAt = g.brakeAt
  aborted : g.aborted = true → h.aborted = true ∧ h.step = g.step ∧ h.committed = g.committed

theorem Gov.Worked.refl (g : Gov) : g.Worked g := ⟨⟨_, _, _, _, _, _, _, rfl⟩, fun h => ⟨h, rfl⟩, fun h => ⟨h, rfl, rfl⟩⟩

theorem Gov.Worked.trans {g h k : Gov} (p : g.Worked h) (q : h.Worked k) : g.Worked k := by
  refine ⟨?_, fun hb => ?_, fun ha => ?_⟩
  · obtain ⟨_, _, _, _, _, _, _, rfl⟩ := p.kept
    obtain ⟨_, _, _, _, _, _, _, rfl⟩ := q.kept
    exact ⟨_, _, _, _, _, _, _, rfl⟩
  · obtain ⟨hb, hat⟩ := p.braking hb
    exact ⟨(q.braking hb).1, (q.braking hb).2.trans hat⟩
  · obtain ⟨ha, hstep, hcommitted⟩ := p.aborted ha
    exact ⟨(q.aborted ha).1, (q.aborted ha).2.1.trans hstep, (q.aborted ha).2.2.trans hcommitted⟩

/-- Ending entries writes the runs alone. -/
theorem Gov.endEntries_runs (g : Gov) (brake : Bool) : ∃ r, g.endEntries brake = { g with runs := r } := by
  have hfold : ∀ (l : List (TtEntry × Nat)) (h : Gov), (∃ r, h = { g with runs := r }) → ∃ r, l.foldl (fun g e =>
      if (g.run (g.key e.2)).status == .idle then
        g.setRun (g.key e.2) { g.run (g.key e.2) with status := .ended }
      else g) h = { g with runs := r } := by
    intro l
    induction l with
    | nil => exact fun _ h => h
    | cons e l ih =>
      rintro _ ⟨r, rfl⟩
      refine ih _ ?_
      beta_reduce
      split <;> exact ⟨_, rfl⟩
  unfold Gov.endEntries
  dsimp only
  split
  · exact ⟨_, rfl⟩
  · exact hfold _ _ ⟨_, rfl⟩

theorem Gov.worked_endEntries (g : Gov) (brake : Bool) : g.Worked (g.endEntries brake) := by
  obtain ⟨r, h⟩ := g.endEntries_runs brake
  rw [h]
  exact ⟨⟨_, _, _, _, _, _, _, rfl⟩, fun h => ⟨h, rfl⟩, fun h => ⟨h, rfl, rfl⟩⟩

/-- Reads of the partitions after a write of partition `p` see what was written: the table is canonical, or the partition is bound, so that no
write to it is dropped. -/
def Reads (p : Nat) (s : State) : Prop := NatMap.wf {} s.parts = true ∨ (s.part p).state ≠ .free

theorem Reads.of_canon {s : State} (hs : s.Canon) (p : Nat) : Reads p s := .inl hs.tab.parts

theorem Reads.part_modPart {p : Nat} {s : State} (h : Reads p s) {f : Part → Part}
    (hf : (s.part p).state ≠ .free → (f (s.part p)).state ≠ .free) (q : Nat) :
    (s.modPart p f).part q = if q = p then f (s.part p) else s.part q := by
  rcases h with hwf | hstate
  · exact State.part_setPart s hwf p q _
  · have hv : f (s.part p) ≠ {} := fun h => hf hstate (by rw [h])
    split
    next hq => subst hq; exact NatMap.get_set_same _ _ hv
    next hq => exact NatMap.get_set_ne _ hv hq

theorem Reads.modPart {p : Nat} {s : State} (h : Reads p s) {f : Part → Part}
    (hf : (s.part p).state ≠ .free → (f (s.part p)).state ≠ .free) : Reads p (s.modPart p f) := by
  have hpart := h.part_modPart hf p
  rw [if_pos rfl] at hpart
  rcases h with hwf | hstate
  · exact .inl (NatMap.wf_set p _ hwf)
  · exact .inr (by rw [hpart]; exact hf hstate)

theorem Reads.part_modGov {p : Nat} {s : State} (h : Reads p s) (f : Gov → Gov) (q : Nat) :
    (s.modGov p f).part q = if q = p then { s.part p with gov := f (s.part p).gov } else s.part q := h.part_modPart (f := fun v => { v with gov := f v.gov }) id q

theorem Reads.modGov {p : Nat} {s : State} (h : Reads p s) (f : Gov → Gov) : Reads p (s.modGov p f) :=
  h.modPart (f := fun v => { v with gov := f v.gov }) id

theorem Reads.of_parts {p : Nat} {s t : State} (h : Reads p s) (hparts : t.parts = s.parts) : Reads p t := by
  unfold Reads State.part
  rw [hparts]
  exact h

theorem Reads.abandonWork_part {p : Nat} {s : State} (h : Reads p s) (q : Nat) (brake : Bool) : (s.abandonWork p brake).part q =
    if q = p then { s.part p with gov := Gov.endEntries { (s.part p).gov with aborted := true } brake } else s.part q := by
  rw [State.part, s.abandonWork_parts p brake]
  refine ((h.modGov _).part_modGov (·.endEntries brake) q).trans ?_
  rw [h.part_modGov, h.part_modGov]
  by_cases hq : q = p <;> simp [hq]

/-- What the work on partition `p` keeps. -/
structure WorksOn (p : Nat) (s t : State) : Prop where
  canon : s.Canon → t.Canon
  rest : t.sansWeir = s.sansWeir
  reads : Reads p s → Reads p t
  other : Reads p s → ∀ q, q ≠ p → t.part q = s.part q
  own : Reads p s → (s.part p).state ≠ .braked → ∃ g, t.part p = { s.part p with gov := g } ∧ (s.part p).gov.Worked g

theorem WorksOn.refl (p : Nat) (s : State) : WorksOn p s s := ⟨id, rfl, id, fun _ _ _ => rfl, fun _ _ => ⟨_, rfl, .refl _⟩⟩

theorem WorksOn.trans {p : Nat} {s t u : State} (h : WorksOn p s t) (k : WorksOn p t u) : WorksOn p s u := by
  refine ⟨k.canon ∘ h.canon, k.rest.trans h.rest, k.reads ∘ h.reads, fun hs q hq => (k.other (h.reads hs) q hq).trans (h.other hs q hq), fun hs hstate => ?_⟩
  obtain ⟨g, hg, hwork⟩ := h.own hs hstate
  obtain ⟨g', hg', hwork'⟩ := k.own (h.reads hs) (by rw [hg]; exact hstate)
  rw [hg] at hg' hwork'
  exact ⟨g', hg', hwork.trans hwork'⟩

theorem WorksOn.ite {p : Nat} {s : State} {c : Prop} [Decidable c] {a b : State} (ha : c → WorksOn p s a) (hb : ¬c → WorksOn p s b) :
    WorksOn p s (if c then a else b) := by
  split
  next h => exact ha h
  next h => exact hb h

theorem WorksOn.foldl {α : Type} {p : Nat} {f : State → α → State} (h : ∀ s a, WorksOn p s (f s a)) (l : List α) (s : State) :
    WorksOn p s (l.foldl f s) := by
  induction l generalizing s with
  | nil => exact .refl p s
  | cons a l ih => exact (h s a).trans (ih _)

theorem WorksOn.of_parts {p : Nat} {s t : State} (hk : Keeps s t) (hrest : t.sansWeir = s.sansWeir) (hparts : t.parts = s.parts) :
    WorksOn p s t := by
  have hpart : ∀ q, t.part q = s.part q := fun q => by rw [State.part, hparts]; rfl
  exact ⟨hk.canon, hrest, fun h => h.of_parts hparts, fun _ q _ => hpart q, fun _ _ => ⟨_, hpart p, .refl _⟩⟩

theorem WorksOn.of_sansWork {p : Nat} {s t : State} (hk : Keeps s t) (h : t.sansWork = s.sansWork) : WorksOn p s t :=
  .of_parts hk (State.sansWeir_of_sansWork h) (congrArg State.parts h :)

/-- Work that comes to a change of the Governor. -/
theorem WorksOn.of_modGov {p : Nat} {s t : State} {f : Gov → Gov} (hk : Keeps s t) (h : t.sansWork = (s.modGov p f).sansWork)
    (hf : (s.part p).gov.Worked (f (s.part p).gov)) : WorksOn p s t := by
  have hparts : t.parts = (s.modGov p f).parts := (congrArg State.parts h :)
  have hpart : Reads p s → ∀ q, t.part q = if q = p then { s.part p with gov := f (s.part p).gov } else s.part q := fun hs q => by
    rw [State.part, hparts]
    exact hs.part_modGov f q
  exact ⟨hk.canon, (State.sansWeir_of_sansWork h).trans rfl, fun hs => (hs.modGov f).of_parts hparts,
    fun hs q hq => (hpart hs q).trans (if_neg hq), fun hs _ => ⟨_, (hpart hs p).trans (if_pos rfl), hf⟩⟩

theorem WorksOn.modGov (p : Nat) (s : State) {f : Gov → Gov} (hf : (s.part p).gov.Worked (f (s.part p).gov)) : WorksOn p s (s.modGov p f) :=
  .of_modGov (s.modGov_keeps p f) rfl hf

theorem WorksOn.raise (p : Nat) (s : State) (f : FaultRec) : WorksOn p s (s.raise f) := .of_sansWork (s.raise_keeps f) (s.raise_sansWork f)
theorem WorksOn.setWeir (p q : Nat) (s : State) (w : Weir) : WorksOn p s (s.setWeir q w) := .of_sansWork (s.setWeir_keeps q w) rfl
theorem WorksOn.modWeir (p q : Nat) (s : State) (f : Weir → Weir) : WorksOn p s (s.modWeir q f) := .setWeir p q s _
theorem WorksOn.modCluster (p : Nat) (s : State) (c : Nat) {f : Cluster → Cluster} (hf : ∀ x : Cluster, x.Canon → (f x).Canon) :
    WorksOn p s (s.modCluster c f) := .of_sansWork (s.modCluster_keeps c f hf) (s.modCluster_sansWork c f)

/-! ### Stopping work -/

theorem State.stopWork_worksOn (s : State) (p : Nat) (brake : Bool) : WorksOn p s (s.stopWork p brake) :=
  .of_modGov (s.stopWork_keeps p brake) (s.stopWork_sansWork p brake) (Gov.worked_endEntries _ brake)

theorem State.abandonWork_worksOn (s : State) (p : Nat) (brake : Bool) : WorksOn p s (s.abandonWork p brake) := by
  have haborted : WorksOn p s (s.modGov p fun g => { g with aborted := true }) :=
    .modGov p s ⟨⟨_, _, _, _, _, _, _, rfl⟩, fun h => ⟨h, rfl⟩, fun _ => ⟨rfl, rfl, rfl⟩⟩
  have hended : WorksOn p _ ((s.modGov p fun g => { g with aborted := true }).modGov p (·.endEntries brake)) :=
    .modGov p _ (Gov.worked_endEntries _ brake)
  have hboth := haborted.trans hended
  refine ⟨(s.abandonWork_keeps p brake).canon, (State.sansWeir_of_sansWork (s.abandonWork_sansWork p brake)).trans rfl,
    fun hs => (hboth.reads hs).of_parts (s.abandonWork_parts p brake), fun hs q hq => ?_, fun hs hstate => ?_⟩
  · rw [State.part, s.abandonWork_parts]
    exact hboth.other hs q hq
  · rw [State.part, s.abandonWork_parts]
    exact hboth.own hs hstate

theorem State.brakeWork_worksOn (s : State) (p : Nat) : WorksOn p s (s.brakeWork p) := by
  simp only [State.brakeWork]
  split
  · exact .refl p s
  next h =>
    have hnot : ¬ (s.part p).gov.braking = true := fun hb => h (.inr hb)
    refine .trans (.modGov p s (f := fun g => { g with braking := true, brakeAt := s.now, brakeAfterCommit := false })
      ⟨⟨_, _, _, _, _, _, _, rfl⟩, fun hb => absurd hb hnot, fun ha => ⟨ha, rfl, rfl⟩⟩) ?_
    exact .ite (fun _ => State.abandonWork_worksOn _ p true) fun _ => State.stopWork_worksOn _ p true

/-! ### Weir messages and the commit point -/

theorem State.weirTo_worksOn (s : State) (p q : Nat) (dest : List (Nat × Nat)) (m : WeirMsg) : WorksOn p s (s.weirTo q dest m) := by
  refine .of_sansWork (s.weirTo_keeps q dest m) (foldl_same State.sansWork (fun u d => ?_) dest s)
  split
  · exact u.sendOn_sansWork _ _
  · rfl

theorem State.noteSignal_worksOn (s : State) (p q i : Nat) (v : Word64) : WorksOn p s (s.noteSignal q i v) := by
  refine .of_sansWork (s.noteSignal_keeps q i v) ?_
  simp only [State.noteSignal, State.queueIngests, State.foldQuerns_sansWork]
  split
  · exact s.foldQuerns_sansWork q _
  · rfl

theorem State.commitStaged_worksOn (s : State) (p q : Nat) (d : CollDesc) (c : CollRun) : WorksOn p s (s.commitStaged q d c) := by
  have hgran : ∀ g : NatMap Byte, ({ s with granary := g } : State).sansWeir = s.sansWeir ∧ ({ s with granary := g } : State).parts = s.parts :=
    fun _ => ⟨rfl, rfl⟩
  refine .of_parts (s.commitStaged_keeps q d c) ?_ ?_ <;> simp only [State.commitStaged] <;> split
  · exact (State.sansWeir_of_sansWork (State.raise_sansWork _ _)).trans (hgran _).1
  · exact (hgran _).1
  · exact (State.raise_parts _ _).trans (hgran _).2
  · exact (hgran _).2

theorem State.commitPoint_worksOn (s : State) (p : Nat) : WorksOn p s (s.commitPoint p) := by
  simp only [State.commitPoint]
  split
  · exact .refl p s
  next h =>
    have hrun : WorksOn p s ((s.weir p).tbl.colls.zipIdx.foldl (fun t e =>
        if ((s.weir p).coll e.2).complete && ((s.weir p).coll e.2).step == (s.part p).gov.step then
          t.commitStaged p e.1 ((s.weir p).coll e.2) else t) s) :=
      .foldl (fun t e => .ite (fun _ => t.commitStaged_worksOn p p e.1 _) fun _ => .refl p t) _ s
    have hweir := hrun.trans (.modWeir p p _ fun w =>
      { w with repeatWindow := false, colls := NatMap.mapVals {} (fun _ c => { c with staged := [] }) w.colls })
    refine ⟨fun hs => (State.modGov_keeps _ p _).canon (hweir.canon hs), ((WorksOn.modGov p _ (f := id) (.refl _)).rest).trans hweir.rest,
      fun hs => (hweir.reads hs).modGov _, fun hs q hq => ?_, fun hs hstate => ?_⟩
    · rw [(hweir.reads hs).part_modGov, if_neg hq]
      exact hweir.other hs q hq
    · obtain ⟨g, hg, hwork⟩ := hweir.own hs hstate
      rw [(hweir.reads hs).part_modGov, if_pos rfl, hg]
      refine ⟨_, rfl, ?_⟩
      obtain ⟨_, _, _, _, _, _, _, rfl⟩ := hwork.kept
      exact ⟨⟨_, _, _, _, _, _, _, rfl⟩, hwork.braking, fun ha => absurd (.inr ha) h⟩

theorem Cluster.Canon.withSram {x : Cluster} (h : x.Canon) {m : NatMap Byte} (hm : NatMap.wf 0 m = true) : Cluster.Canon { x with sram := m } :=
  ⟨hm, h.imem, h.dmem⟩

theorem State.takeMembers_worksOn (s : State) (p step members : Nat) : WorksOn p s (s.takeMembers p step members) := by
  unfold State.takeMembers
  extract_lets -lift +onlyGivenNames u w out v
  have hcluster : ∀ x : Cluster, x.Canon →
      Cluster.Canon { x with sram := NatMap.setList 0 x.sram 0xFFFBC0 (membershipRecord step members) } :=
    fun x h => h.withSram (NatMap.wf_setList _ _ h.sram)
  have hrecord : WorksOn p s u := .foldl (fun t c => .modCluster p t c hcluster) _ s
  refine hrecord.trans (.trans (t := v) (.setWeir p p u _) (.ite (fun _ => ?_) fun _ => .refl p v))
  exact (State.brakeWork_worksOn _ p).trans (.raise p _ _)

/-! ### Releases -/

/-- Only a BRAKED partition enters RUNNING. -/
theorem State.enterRunning_worksOn {s : State} {p : Nat} (h : (s.part p).state = .braked) : WorksOn p s (s.enterRunning p) := by
  obtain ⟨f, hparts, hf⟩ : ∃ f : Part → Part, (s.enterRunning p).sansWork = (s.modPart p f).sansWork ∧ ∀ v, (f v).state ≠ .free := by
    unfold State.enterRunning
    extract_lets -lift +onlyGivenNames g per n u v
    have hv : v.sansWork = u.sansWork := foldl_same State.sansWork (by intro _ _; rfl) _ u
    exact ⟨_, (foldl_same State.sansWork (by intro _ _; rfl) _ v).trans hv, fun _ => nofun⟩
  have hp : (s.enterRunning p).parts = (s.modPart p f).parts := (congrArg State.parts hparts :)
  refine ⟨(s.enterRunning_keeps p).canon, (State.sansWeir_of_sansWork hparts).trans rfl,
    fun hs => (hs.modPart fun _ => hf _).of_parts hp, fun hs q hq => ?_, fun _ hn => absurd h hn⟩
  rw [State.part, hp]
  exact (hs.part_modPart (fun _ => hf _) q).trans (if_neg hq)

theorem State.releaseAborts_worksOn (s : State) (p : Nat) (commit : Bool) (o : SyncObj) : WorksOn p s (s.releaseAborts p commit o) := by
  refine .ite (fun _ => ?_) fun _ => .refl p s
  refine .trans ((s.abandonWork_worksOn p _).trans (.raise p _ _)) (.ite (fun _ => .refl p _) fun _ => .modWeir p p _ _)

theorem State.applyRelease_worksOn (s : State) (p i : Nat) (r : Outcome3) (members : Nat) : WorksOn p s (s.applyRelease p i r members) := by
  unfold State.applyRelease
  extract_lets -lift +onlyGivenNames w o e commit step u noted counted v x
  have houtcome : WorksOn p u v := by
    cases r with
    | pass => exact .trans (t := noted) (u.noteSignal_worksOn p p i _) (.ite (fun _ => noted.commitPoint_worksOn p) fun _ => .refl p noted)
    | abortStep => exact u.releaseAborts_worksOn p commit o
    | abortEcc => exact .trans (t := counted) (WorksOn.modWeir p p u _) (.ite (fun _ => .raise p counted _) fun _ => .refl p counted)
  have hout : WorksOn p s v := .trans (t := u) (.setWeir p p s _) houtcome
  have htaken : WorksOn p v x := .ite (fun _ => v.takeMembers_worksOn p step members) fun _ => .refl p v
  refine (hout.trans htaken).trans (.ite (fun h => State.enterRunning_worksOn ?_) fun _ => .refl p x)
  simp only [Bool.and_eq_true, decide_eq_true_eq] at h
  exact h.2

theorem State.rootRelease_worksOn (s : State) (p i : Nat) (r : Outcome3) (members : Nat) (quorum : Bool) :
    WorksOn p s (s.rootRelease p i r members quorum) := by
  have htell : ∀ (u : State) (o : Option CounterEntry) (m : WeirMsg), WorksOn p u (match o with
      | some e => u.weirTo p ((u.weir p).others e) m
      | none => u) := by
    rintro u (_ | e) m
    · exact .refl p u
    · exact u.weirTo_worksOn p p _ m
  exact .trans (.modWeir p p s _) (.trans (htell _ _ _) (State.applyRelease_worksOn _ p i r members))

theorem State.abortOthers_worksOn (s : State) (p : Nat) (e : CounterEntry) : WorksOn p s (s.abortOthers p e) := by
  unfold State.abortOthers
  extract_lets w
  refine .foldl (fun u c => ?_) _ s
  exact u.rootRelease_worksOn p c.index .abortStep (u.weir p).members false

theorem State.rootDecide_worksOn (s : State) (p : Nat) (e : CounterEntry) (r : Outcome3) : WorksOn p s (s.rootDecide p e r) := by
  unfold State.rootDecide
  extract_lets -lift +onlyGivenNames w o
  refine .ite (fun _ => s.rootRelease_worksOn p _ r _ false) fun _ => ?_
  extract_lets -lift +onlyGivenNames lead t m u v x
  have hreleased : WorksOn p s v := .trans (t := u) (.setWeir p p s _) (u.rootRelease_worksOn p _ r _ _)
  have hbraked : WorksOn p v x := .ite (fun _ => (v.brakeWork_worksOn p).trans (.raise p _ _)) fun _ => .refl p v
  exact (hreleased.trans hbraked).trans (.ite (fun _ => x.abortOthers_worksOn p e) fun _ => .refl p x)

theorem State.rootArrive_worksOn (s : State) (p : Nat) (e : CounterEntry) (epoch replica position : Nat) (abort : Bool) (blame : Nat) :
    WorksOn p s (s.rootArrive p e epoch replica position abort blame) := by
  unfold State.rootArrive
  extract_lets -lift +onlyGivenNames w o
  refine .ite (fun _ => .setWeir p p s _) fun _ => .ite (fun _ => .refl p s) fun _ => ?_
  extract_lets -lift +onlyGivenNames o u
  refine .trans (t := u) (.setWeir p p s _) ?_
  exact .ite (fun _ => u.rootDecide_worksOn p e _) fun _ => .ite (fun _ => u.rootDecide_worksOn p e _) fun _ => .refl p u

theorem State.carryArrival_worksOn (s : State) (p : Nat) (e : CounterEntry) : WorksOn p s (s.carryArrival p e) :=
  .ite (fun _ => s.rootArrive_worksOn p e _ _ _ _ _) fun _ => s.weirTo_worksOn p p _ _

theorem State.checkArrival_worksOn (s : State) (p : Nat) (e : CounterEntry) : WorksOn p s (s.checkArrival p e) :=
  .ite (fun _ => .trans (.modWeir p p s _) (State.carryArrival_worksOn _ p e)) fun _ => .refl p s

theorem State.weirAbort_worksOn (s : State) (p blame : Nat) : WorksOn p s (s.weirAbort p blame) := by
  unfold State.weirAbort
  split
  · exact .refl p s
  · exact .ite (fun _ => .refl p s) fun _ => .trans (.modWeir p p s _) (State.carryArrival_worksOn _ p _)

theorem State.brakeStep_worksOn (s : State) (p blame : Nat) : WorksOn p s (s.brakeStep p blame) :=
  (s.brakeWork_worksOn p).trans (.ite (fun _ => State.weirAbort_worksOn _ p blame) fun _ => .refl p _)

theorem State.fenceAdvanced_worksOn (s : State) (p i : Nat) : WorksOn p s (s.fenceAdvanced p i) :=
  .ite (fun _ => .foldl (fun u e => u.checkArrival_worksOn p e) _ s) fun _ => .refl p s

theorem State.settleWeir_worksOn (n : Nat) (s : State) (p : Nat) : WorksOn p s (s.settleWeir p n) := by
  induction n generalizing s with
  | zero => exact .refl p s
  | succ n ih =>
    unfold State.settleWeir
    refine .ite (fun _ => ?_) fun _ => ?_
    · exact .trans (.setWeir p p s _) (.trans (State.weirAbort_worksOn _ p 0xFF) (ih _))
    · split
      · exact .refl p s
      · exact .trans (.setWeir p p s _) (.trans (State.checkArrival_worksOn _ p _) (ih _))

/-! ### Brakes -/

theorem State.brake_rest (s : State) (p : Nat) : (s.brake p).sansWeir = s.sansWeir := by
  simp only [State.brake]
  split
  · exact (State.brakeStep_worksOn _ p _).rest.trans rfl
  · exact (s.brakeStep_worksOn p _).rest

theorem State.brake_other {s : State} {p q : Nat} (hs : Reads p s) (hq : q ≠ p) : (s.brake p).part q = s.part q := by
  have htaken : ∀ n, (s.modGov p (·.takeBack n)).part q = s.part q := fun n => (hs.part_modGov _ q).trans (if_neg hq)
  simp only [State.brake]
  split
  · exact ((State.brakeStep_worksOn _ p _).other (hs.modGov _) q hq).trans (htaken _)
  · exact (s.brakeStep_worksOn p _).other hs q hq

/-- What an operation that stops a partition leaves of a brake that is under way. -/
theorem WorksOn.keeps_braking {p : Nat} {s t : State} (h : WorksOn p s t) (hs : Reads p s) (hstate : (s.part p).state ≠ .braked)
    (hb : (s.part p).gov.braking = true) : (t.part p).gov.braking = true ∧ (t.part p).gov.brakeAt = (s.part p).gov.brakeAt := by
  obtain ⟨g, hg, hwork⟩ := h.own hs hstate
  rw [hg]
  exact hwork.braking hb

/-- A partition that may be braked. -/
def PartState.active (x : PartState) : Prop := x = .running ∨ x = .armed

theorem PartState.active.not_braked {x : PartState} (h : x.active) : x ≠ .braked := by
  rcases h with rfl | rfl <;> decide

theorem State.brakeWork_braking {s : State} {p : Nat} (hs : Reads p s) (h : (s.part p).state.active) :
    ((s.brakeWork p).part p).gov.braking = true ∧
      ((s.part p).gov.braking = false → ((s.brakeWork p).part p).gov.brakeAt = s.now) := by
  simp only [State.brakeWork]
  split
  next hno =>
    have hb : (s.part p).gov.braking = true := hno.resolve_left fun ⟨harmed, hrunning⟩ => h.elim hrunning harmed
    exact ⟨hb, fun hf => absurd hb (by rw [hf]; exact Bool.false_ne_true)⟩
  next hno =>
    have hu := hs.part_modGov (fun g => { g with braking := true, brakeAt := s.now, brakeAfterCommit := false }) p
    rw [if_pos rfl] at hu
    have hreads := hs.modGov fun g => { g with braking := true, brakeAt := s.now, brakeAfterCommit := false }
    generalize s.modGov p (fun g => { g with braking := true, brakeAt := s.now, brakeAfterCommit := false }) = u at hu hreads ⊢
    have hstate : (u.part p).state ≠ .braked := by rw [hu]; exact h.not_braked
    have hb : (u.part p).gov.braking = true := by rw [hu]
    have hat : (u.part p).gov.brakeAt = s.now := by rw [hu]
    rw [← hat]
    split
    · have hwork := (u.abandonWork_worksOn p true).keeps_braking hreads hstate hb
      exact ⟨hwork.1, fun _ => hwork.2⟩
    · have hwork := (u.stopWork_worksOn p true).keeps_braking hreads hstate hb
      exact ⟨hwork.1, fun _ => hwork.2⟩

theorem State.brakeStep_braking {s : State} {p : Nat} (hs : Reads p s) (h : (s.part p).state.active) (blame : Nat) :
    ((s.brakeStep p blame).part p).gov.braking = true ∧
      ((s.part p).gov.braking = false → ((s.brakeStep p blame).part p).gov.brakeAt = s.now) := by
  obtain ⟨hb, hat⟩ := State.brakeWork_braking hs h
  obtain ⟨g, hg, -⟩ := (s.brakeWork_worksOn p).own hs h.not_braked
  have hstate : ((s.brakeWork p).part p).state ≠ .braked := by rw [hg]; exact h.not_braked
  simp only [State.brakeStep]
  split
  · have hwork := (State.weirAbort_worksOn (s.brakeWork p) p blame).keeps_braking ((s.brakeWork_worksOn p).reads hs) hstate hb
    exact ⟨hwork.1, fun hf => hwork.2.trans (hat hf)⟩
  · exact ⟨hb, hat⟩

/-- What a brake makes of a Governor. -/
structure Gov.BrakedFrom (now : Nat) (g h : Gov) : Prop where
  braking : h.braking = true
  brakeAt : g.braking = false → h.brakeAt = now
  causes : (h.byPin, h.byLease, h.byHalt, h.byDeadline, h.cmdStatus) = (g.byPin, g.byLease, g.byHalt, g.byDeadline, g.cmdStatus)
  timetable : h.tt = g.tt ∧ h.leaseExpiry = g.leaseExpiry ∧ h.lapsed = g.lapsed

theorem State.brakeStep_own {s : State} {p : Nat} (hs : Reads p s) (h : (s.part p).state.active) (blame : Nat) :
    ∃ g, (s.brakeStep p blame).part p = { s.part p with gov := g } ∧ (s.part p).gov.BrakedFrom s.now g ∧ (s.part p).gov.Worked g := by
  obtain ⟨hb, hat⟩ := State.brakeStep_braking hs h blame
  obtain ⟨g, hg, hwork⟩ := (s.brakeStep_worksOn p blame).own hs h.not_braked
  rw [hg] at hb hat
  refine ⟨g, hg, ⟨hb, hat, ?_, ?_⟩, hwork⟩ <;> obtain ⟨_, _, _, _, _, _, _, rfl⟩ := hwork.kept
  · rfl
  · exact ⟨rfl, rfl, rfl⟩

theorem Gov.takeBack_kept (g : Gov) (now : Nat) :
    ∃ a b c d, g.takeBack now = { g with missCount := a, lastMiss := b, missRef := c, beatMisses := d } := by
  simp only [Gov.takeBack]
  split <;> exact ⟨_, _, _, _, rfl⟩

theorem State.brake_own {s : State} {p : Nat} (hs : Reads p s) (h : (s.part p).state.active) :
    ∃ g, (s.brake p).part p = { s.part p with gov := g } ∧ (s.part p).gov.BrakedFrom s.now g := by
  simp only [State.brake]
  split
  · have hu := hs.part_modGov (·.takeBack s.now) p
    rw [if_pos rfl] at hu
    have hreads := hs.modGov (·.takeBack s.now)
    have hnow : (s.modGov p (·.takeBack s.now)).now = s.now := rfl
    obtain ⟨_, _, _, _, htaken⟩ := (s.part p).gov.takeBack_kept s.now
    rw [htaken] at hu
    generalize s.modGov p (·.takeBack s.now) = u at hu hreads hnow ⊢
    have hactive : (u.part p).state.active := by rw [hu]; exact h
    obtain ⟨g, hg, hbraked, -⟩ := State.brakeStep_own hreads hactive 0xFF
    rw [hu] at hg hbraked
    exact ⟨g, hg, hbraked.braking, fun hf => (hbraked.brakeAt hf).trans hnow, hbraked.causes, hbraked.timetable⟩
  · obtain ⟨g, hg, hbraked, -⟩ := State.brakeStep_own hs h 0xFF
    exact ⟨g, hg, hbraked⟩

theorem State.brakeDeadline_own {s : State} {p : Nat} (hs : Reads p s) (h : (s.part p).state.active) (blame : Nat) :
    ∃ g, (s.brakeDeadline p blame).part p = { s.part p with gov := g } ∧
      Gov.BrakedFrom s.now { (s.part p).gov with byDeadline := true } g ∧ Gov.Worked { (s.part p).gov with byDeadline := true } g := by
  have hu := hs.part_modGov (fun g => { g with byDeadline := true }) p
  rw [if_pos rfl] at hu
  have hreads := hs.modGov fun g => { g with byDeadline := true }
  have hnow : (s.modGov p fun g => { g with byDeadline := true }).now = s.now := rfl
  unfold State.brakeDeadline
  generalize s.modGov p (fun g => { g with byDeadline := true }) = u at hu hreads hnow ⊢
  have hactive : (u.part p).state.active := by rw [hu]; exact h
  obtain ⟨g, hg, hbraked, hwork⟩ := State.brakeStep_own hreads hactive blame
  rw [hu, hnow] at hbraked
  rw [hu] at hg hwork
  exact ⟨g, hg, hbraked, hwork⟩

/-- A brake of an active partition by a cause names the cause. -/
theorem State.brakeBy_own {s : State} {p : Nat} (hs : Reads p s) (h : (s.part p).state.active) (c : BrakeCause) :
    ∃ g, (s.brakeBy p c).part p = { s.part p with gov := g } ∧ ((s.part p).gov.brakedBy c).BrakedFrom s.now g := by
  have hby : s.brakeBy p c = ((s.modGov p (·.brakedBy c)).brake p).raise (govFault p c.code 1) := by
    unfold State.brakeBy
    dsimp only
    rcases h with h | h <;> rw [h]
  have hu := hs.part_modGov (·.brakedBy c) p
  rw [if_pos rfl] at hu
  have hreads := hs.modGov (·.brakedBy c)
  have hnow : (s.modGov p (·.brakedBy c)).now = s.now := rfl
  rw [hby, State.raise_part]
  generalize s.modGov p (·.brakedBy c) = u at hu hreads hnow ⊢
  have hactive : (u.part p).state.active := by rw [hu]; exact h
  obtain ⟨g, hg, hbraked⟩ := State.brake_own hreads hactive
  rw [hu] at hg hbraked
  exact ⟨g, hg, hbraked.braking, fun hf => (hbraked.brakeAt hf).trans hnow, hbraked.causes, hbraked.timetable⟩

/-! ### Causes of a brake -/

/-- The state without what a brake with its cause writes: abandoned drains write queue pairs. -/
def State.sansBrake (s : State) : State := { s.sansWeir with qps := [] }

theorem State.sansBrake_of_sansWeir {s t : State} (h : t.sansWeir = s.sansWeir) : t.sansBrake = s.sansBrake := by
  rw [State.sansBrake, h]; rfl

theorem State.mill_of_sansBrake {s t : State} (h : t.sansBrake = s.sansBrake) : t.mill = s.mill := (congrArg State.mill h :)

@[simp] theorem State.raise_sansBrake (s : State) (f : FaultRec) : (s.raise f).sansBrake = s.sansBrake :=
  State.sansBrake_of_sansWeir (State.sansWeir_of_sansWork (s.raise_sansWork f))

@[simp] theorem State.brake_sansBrake (s : State) (p : Nat) : (s.brake p).sansBrake = s.sansBrake := State.sansBrake_of_sansWeir (s.brake_rest p)
@[simp] theorem State.modPart_sansBrake (s : State) (p : Nat) (f : Part → Part) : (s.modPart p f).sansBrake = s.sansBrake := rfl
@[simp] theorem State.modGov_sansBrake (s : State) (p : Nat) (f : Gov → Gov) : (s.modGov p f).sansBrake = s.sansBrake := rfl

/-- What an abandoned drain makes of its partition. -/
def Part.drainBraked (v : Part) : Part := { v with brakedDrain := true, rebind := { v.rebind with braked := true } }

theorem State.abandonDrain_eq (s : State) (p : Nat) : ∃ u : State, s.abandonDrain p = u.abandonWork p true ∧ u.sansBrake = s.sansBrake ∧
    u.parts = (s.modPart p Part.drainBraked).parts := by
  unfold State.abandonDrain
  extract_lets u mine v
  exact ⟨v, rfl, rfl, rfl⟩

@[simp] theorem State.abandonDrain_sansBrake (s : State) (p : Nat) : (s.abandonDrain p).sansBrake = s.sansBrake := by
  obtain ⟨u, h, hrest, -⟩ := s.abandonDrain_eq p
  rw [h, State.sansBrake_of_sansWeir (u.abandonWork_worksOn p true).rest, hrest]

theorem State.abandonDrain_part {s : State} {p : Nat} (hs : Reads p s) (q : Nat) : ∃ g, (s.abandonDrain p).part q =
    if q = p then { (s.part p).drainBraked with gov := g } else s.part q := by
  obtain ⟨u, h, -, hparts⟩ := s.abandonDrain_eq p
  have hu : ∀ r, u.part r = if r = p then (s.part p).drainBraked else s.part r := fun r => by
    rw [State.part, hparts]
    exact hs.part_modPart (f := Part.drainBraked) id r
  refine ⟨Gov.endEntries { (s.part p).gov with aborted := true } true, ?_⟩
  rw [h, ((hs.modPart (f := Part.drainBraked) id).of_parts hparts).abandonWork_part, hu, hu, if_pos rfl]
  by_cases hq : q = p
  · rw [if_pos hq, if_pos hq]; rfl
  · rw [if_neg hq, if_neg hq, if_neg hq]

@[simp] theorem State.brakeBy_sansBrake (s : State) (p : Nat) (c : BrakeCause) : (s.brakeBy p c).sansBrake = s.sansBrake := by
  simp only [State.brakeBy]
  split
  · rw [State.raise_sansBrake, State.brake_sansBrake, State.modGov_sansBrake]
  · rw [State.raise_sansBrake, State.brake_sansBrake, State.modGov_sansBrake]
  · split
    · rw [State.raise_sansBrake, State.modGov_sansBrake]
    · rfl
  · rw [State.raise_sansBrake]
    split
    · rfl
    · rw [State.abandonDrain_sansBrake, State.modPart_sansBrake]
  case h_8 => rfl
  all_goals
    split
    · split
      · rfl
      · rw [State.raise_sansBrake, State.modPart_sansBrake]
    · rfl

/-- What a cause that comes while a partition is rebound makes of it. -/
def Part.withCause (c : BrakeCause) (v : Part) : Part := { v with rebind := { v.rebind with causes := v.rebind.causes ||| c.bit } }

theorem State.brakeBy_other {s : State} {p q : Nat} (hs : Reads p s) (hq : q ≠ p) (c : BrakeCause) : (s.brakeBy p c).part q = s.part q := by
  have hgov : ∀ f, (s.modGov p f).part q = s.part q := fun f => (hs.part_modGov f q).trans (if_neg hq)
  have hpart : ∀ f : Part → Part, (∀ v, (f v).state = v.state) → (s.modPart p f).part q = s.part q := fun f hf =>
    (hs.part_modPart (fun h => (hf _).trans_ne h) q).trans (if_neg hq)
  simp only [State.brakeBy]
  split
  · rw [State.raise_part, State.brake_other (hs.modGov _) hq, hgov]
  · rw [State.raise_part, State.brake_other (hs.modGov _) hq, hgov]
  · split
    · rw [State.raise_part, hgov]
    · rfl
  · rw [State.raise_part]
    split
    · exact hpart _ fun _ => rfl
    · obtain ⟨g, hg⟩ := State.abandonDrain_part (hs.modPart (f := Part.withCause c) id) q
      exact hg.trans ((if_neg hq).trans (hpart _ fun _ => rfl))
  case h_8 => rfl
  all_goals
    split
    · split
      · exact hpart _ fun _ => rfl
      · exact (State.raise_part ..).trans (hpart _ fun _ => rfl)
    · rfl

theorem State.brakeBy_draining_eq {s : State} {p : Nat} (h : (s.part p).state = .draining) (c : BrakeCause) :
    s.brakeBy p c = State.raise (if (s.part p).rebind.braked then s.modPart p (Part.withCause c)
      else (s.modPart p (Part.withCause c)).abandonDrain p) (govFault p c.code 1) := by
  unfold State.brakeBy
  dsimp only
  rw [h]
  rfl

/-- A cause that comes to a DRAINING partition abandons what it has in flight. -/
theorem State.brakeBy_draining {s : State} {p : Nat} (hs : Reads p s) (h : (s.part p).state = .draining) (c : BrakeCause) :
    ((s.brakeBy p c).part p).rebind.braked = true ∧ ((s.brakeBy p c).part p).rebind.causes = (s.part p).rebind.causes ||| c.bit ∧
      ((s.brakeBy p c).part p).state = .draining := by
  have hpart : (s.modPart p (Part.withCause c)).part p = (s.part p).withCause c :=
    (hs.part_modPart (f := Part.withCause c) id p).trans (if_pos rfl)
  rw [State.brakeBy_draining_eq h, State.raise_part]
  split
  next hb => rw [hpart]; exact ⟨hb, rfl, h⟩
  next =>
    obtain ⟨g, hg⟩ := State.abandonDrain_part (hs.modPart (f := Part.withCause c) id) p
    rw [hg, if_pos rfl, hpart]
    exact ⟨rfl, rfl, h⟩

/-! ### One partition after another -/

/-- A change of one entry after another, that writes of the entries its own alone, leaves those that are not listed. -/
theorem foldl_other {σ α : Type} {P : σ → Prop} {f : σ → Nat → σ} {rd : σ → Nat → α} (hP : ∀ s p, P s → P (f s p))
    (hother : ∀ s p q, P s → q ≠ p → rd (f s p) q = rd s q) {p : Nat} {l : List Nat} (hmem : p ∉ l) {s : σ} (hs : P s) :
    rd (l.foldl f s) p = rd s p := by
  induction l generalizing s with
  | nil => rfl
  | cons q l ih =>
    rw [List.mem_cons, not_or] at hmem
    rw [List.foldl_cons, ih hmem.2 (hP _ _ hs), hother _ _ _ hs hmem.1]

/-- What it makes of one that is listed is what its own step makes of it, in a state that has all the fold keeps. -/
theorem foldl_own {σ α : Type} {P : σ → Prop} {f : σ → Nat → σ} {rd : σ → Nat → α} (hP : ∀ s p, P s → P (f s p))
    (hother : ∀ s p q, P s → q ≠ p → rd (f s p) q = rd s q) {p : Nat} {l : List Nat} (hl : l.Nodup) (hmem : p ∈ l) {s : σ} (hs : P s) :
    ∃ t, P t ∧ rd t p = rd s p ∧ rd (l.foldl f s) p = rd (f t p) p := by
  induction l generalizing s with
  | nil => cases hmem
  | cons q l ih =>
    rw [List.nodup_cons] at hl
    by_cases hq : p = q
    · subst hq
      exact ⟨s, hs, rfl, foldl_other hP hother hl.1 (hP _ _ hs)⟩
    · obtain ⟨t, ht, hpart, hfold⟩ := ih hl.2 ((List.mem_cons.mp hmem).resolve_left hq) (hP _ q hs)
      exact ⟨t, ht, hpart.trans (hother _ _ _ hs hq), hfold⟩

end Sys2Proof.Machine

/-! PROOFS. O15: the Millrace's admission, its ways and its links (R17, R18, R358, R359). -/
namespace Sys2Proof.Machine
open Sys2Proof

/-! ### Admission -/

theorem State.millAdmits_part (s : State) (p x : Nat) (dst : MillDest) : s.millAdmits (.part p x) dst = true ↔
    (s.part p).firewallOn = true ∧ (s.part p).map.admits dst = true ∧
      (dst.inMemory = true → (s.mce.keyId ((s.part p).keyIds.getD (x % max (s.part p).keyIds.length 1) 0)).state = .assigned) := by
  simp only [State.millAdmits, State.millKid, Bool.and_eq_true, Bool.or_eq_true, Bool.not_eq_true', beq_iff_eq, and_assoc, ← imp_iff_not_or,
    ← Bool.not_eq_true]

theorem exec_millracePacket_sent {s : State} {src : MillSrc} {die : Nat} {dst : MillDest} {way : List Nat} (h : s.millAdmits src dst = true)
    (hway : route s.mce.linkUp die dst.die = some way) :
    exec (.millracePacket src die dst) s = .next (({ s with mce := s.mce.crossed way } : State).send
      (.millrace src.num (s.millKid src) dst (way.map fun l => (l, NatMap.get 0 s.mce.linkFrames l)))) := by
  refine congrArg Host.Outcome.next ((if_pos h).trans ?_)
  rw [hway]
  rfl

theorem exec_millracePacket_lost {s : State} {src : MillSrc} {die : Nat} {dst : MillDest} (h : s.millAdmits src dst = true)
    (hway : route s.mce.linkUp die dst.die = none) : exec (.millracePacket src die dst) s = .next s := by
  refine congrArg Host.Outcome.next ((if_pos h).trans ?_)
  rw [hway]

theorem exec_millracePacket_dropped {s : State} {src : MillSrc} {die : Nat} {dst : MillDest} (h : s.millAdmits src dst = false) :
    exec (.millracePacket src die dst) s =
      .next (s.setPart src.num { s.part src.num with firewallDrops := sat32n ((s.part src.num).firewallDrops + 1) }) :=
  congrArg Host.Outcome.next (if_neg (by simp [h]))

/-! ### Ways -/

/-- A frame on each link of the way: a link's counter goes on by as many frames as it takes. -/
theorem Mce.linkFrames_crossed (x : Mce) (way : List Nat) (l : Nat) :
    NatMap.get 0 (x.crossed way).linkFrames l = NatMap.get 0 x.linkFrames l + way.count l := by
  have hframes : ∀ (way : List Nat) (m : NatMap Nat),
      NatMap.get 0 (way.foldl (fun m l => NatMap.set 0 m l (NatMap.get 0 m l + 1)) m) l = NatMap.get 0 m l + way.count l := by
    intro way
    induction way with
    | nil => intro m; rfl
    | cons k way ih =>
      intro m
      have hcount : NatMap.get 0 m k + 1 ≠ 0 := Nat.succ_ne_zero _
      rw [List.foldl_cons, ih]
      by_cases h : k = l
      · subst h
        rw [NatMap.get_set_same _ _ hcount, List.count_cons_self]
        omega
      · rw [NatMap.get_set_ne _ hcount (Ne.symm h), List.count_cons_of_ne h]
  exact hframes way x.linkFrames

/-- Whether two dies are at most three links apart with one link down. -/
def wayWithin3 (down a b : Nat) : Bool := (route (fun n => n != down) a b).any fun way => decide (way.length ≤ 3) && !way.contains down

theorem wayWithin3_all : ((32 :: List.range 16).all fun down => (List.range 8).all fun a => (List.range 8).all fun b => wayWithin3 down a b) = true := by
  decide +kernel

theorem route_without_one {down a b : Nat} (hdown : down < 16 ∨ down = 32) (ha : a < 8) (hb : b < 8) :
    ∃ way, route (fun n => n != down) a b = some way ∧ way.length ≤ 3 ∧ down ∉ way := by
  have hmem : down ∈ 32 :: List.range 16 := by simp only [List.mem_cons, List.mem_range]; exact hdown.symm
  have hway : wayWithin3 down a b = true :=
    List.all_eq_true.mp (List.all_eq_true.mp (List.all_eq_true.mp wayWithin3_all down hmem) a (List.mem_range.mpr ha)) b (List.mem_range.mpr hb)
  simpa [wayWithin3, Option.any_eq_true] using hway

/-! ### Links -/

theorem NatSet.contains_insert_self (n : Nat) (l : List Nat) : (NatSet.insert n l).contains n = true := by
  induction l with
  | nil => simp [NatSet.insert]
  | cons k l ih =>
    unfold NatSet.insert
    split_ifs with hlt heq
    · simp
    · simp [heq]
    · rw [List.contains_cons, ih, Bool.or_true]

theorem State.linkDown_down (s : State) (l : PkgLink) : (s.linkDown l).mce.linkDown.contains l.num = true := by
  unfold State.linkDown
  extract_lets u ps v
  have hv : v.sansWeir = u.sansWeir := foldl_same State.sansWeir State.brake_rest ps u
  have hmce : ∀ f, (v.raise f).mce = u.mce := fun f =>
    (congrArg State.mce (State.sansWeir_of_sansWork (v.raise_sansWork f)) :).trans (congrArg State.mce hv :)
  rw [hmce]
  exact NatSet.contains_insert_self _ _

/-- Settles O15. The admission and the links go by the branches of the operation; the ways by the 17 cases of the link that is down. -/
theorem packageTrafficIsAdmittedOrDropped : Obligations.PackageTrafficIsAdmittedOrDropped := by
  unfold Obligations.PackageTrafficIsAdmittedOrDropped
  refine ⟨fun s src die dst => ⟨fun h => ⟨fun way => exec_millracePacket_sent h, exec_millracePacket_lost h⟩, exec_millracePacket_dropped⟩,
    State.millAdmits_part, Mce.linkFrames_crossed, fun down a b => route_without_one, fun s l hup => ?_⟩
  extract_lets recent _ m
  have hopen : ¬ s.mce.linkDown.contains l.num = true := by rw [hup]; exact Bool.false_ne_true
  refine ⟨fun hfew => congrArg Host.Outcome.next ((if_neg hopen).trans (if_neg (Nat.not_le.mpr hfew))), fun hmany => ?_⟩
  exact ⟨_, congrArg Host.Outcome.next ((if_neg hopen).trans (if_pos hmany)), State.linkDown_down _ l⟩

end Sys2Proof.Machine

/-! PROOFS. O16 and O17: PTP and mill time (R40 to R42). -/
namespace Sys2Proof.Machine
open Sys2Proof

/-! ### Correcting an offset -/

/-- The check writes STEP_BLOCKED alone of the clock. -/
theorem State.checkBlocked_mill (s : State) (off : Int) : ∃ b, (s.checkBlocked off).mill = { s.mill with stepBlocked := b } := by
  unfold State.checkBlocked
  split_ifs
  · exact ⟨_, rfl⟩
  · exact ⟨true, State.raise_mill _ _⟩
  · exact ⟨_, rfl⟩
  · exact ⟨_, rfl⟩

/-- An offset beyond STEP_LIMIT that may not be stepped is blocked. -/
theorem State.checkBlocked_blocked {s : State} {off : Int} (hfar : s.mill.stepLimit < off.natAbs) (hno : s.mayStep = false) :
    (s.checkBlocked off).mill.stepBlocked = true := by
  unfold State.checkBlocked
  rw [if_pos ⟨hfar, by rw [hno]; rfl⟩]
  split
  next h => exact h
  next => rw [State.raise_mill]; rfl

theorem clampPpb_mono {a b : Int} (h : a ≤ b) : clampPpb a ≤ clampPpb b := by
  unfold clampPpb
  omega

theorem State.slewFreq_mill (s : State) (freq off : Int) : (s.slewFreq freq off).2.mill = s.mill := by
  unfold State.slewFreq
  split <;> rfl

theorem State.slewFreq_mayStep (s : State) (freq off : Int) : (s.slewFreq freq off).2.mayStep = s.mayStep := by
  unfold State.slewFreq
  split <;> rfl

/-- While an offset is slewed, up to 100 ppm go against it. -/
theorem State.slewFreq_bounds (s : State) (freq off : Int) :
    (off = 0 → (s.slewFreq freq off).1 = clampPpb freq) ∧
    (0 < off → clampPpb (freq - 100000) ≤ (s.slewFreq freq off).1 ∧ (s.slewFreq freq off).1 ≤ clampPpb freq) ∧
    (off < 0 → clampPpb freq ≤ (s.slewFreq freq off).1 ∧ (s.slewFreq freq off).1 ≤ clampPpb (freq + 100000)) := by
  have hpart : (Config.freeValue s.draws).toNat % 100001 ≤ 100000 := by omega
  unfold State.slewFreq
  generalize (Config.freeValue s.draws).toNat % 100001 = a at hpart ⊢
  refine ⟨fun h => by rw [if_pos h], fun h => ?_, fun h => ?_⟩
  · dsimp only
    rw [if_neg (by omega), if_pos h]
    exact ⟨clampPpb_mono (by omega), clampPpb_mono (by omega)⟩
  · dsimp only
    rw [if_neg (by omega), if_neg (by omega)]
    exact ⟨clampPpb_mono (by omega), clampPpb_mono (by omega)⟩

theorem State.correct_holdover {s : State} (h : s.mill.state = .holdover) (off freq : Int) : s.correct off freq = s.checkBlocked off := by
  unfold State.correct
  rw [h]

theorem State.correct_step {s : State} (h : s.mill.state = .acquiring) (hmay : s.mayStep = true) (off freq : Int) :
    s.correct off freq =
      s.modMill fun m => { m with now := ((m.now : Int) - off).toNat, freqPpb := clampPpb freq, stepBlocked := false } := by
  unfold State.correct
  rw [h]
  exact if_pos ⟨rfl, hmay⟩

theorem State.correct_slew {s : State} (h : s.mill.state ≠ .holdover) (hno : ¬ (s.mill.state = .acquiring ∧ s.mayStep = true))
    (off freq : Int) : s.correct off freq =
      ((s.slewFreq freq off).2.modMill fun m => { m with freqPpb := (s.slewFreq freq off).1 }).checkBlocked off := by
  unfold State.correct
  split
  next hold => exact absurd hold h
  next => exact if_neg hno

/-- What is slewed keeps mill time; the frequency is the measured one less up to 100 ppm against the offset. -/
theorem State.correct_slew_mill {s : State} (h : s.mill.state ≠ .holdover) (hno : ¬ (s.mill.state = .acquiring ∧ s.mayStep = true))
    (off freq : Int) : ∃ b, (s.correct off freq).mill = { s.mill with freqPpb := (s.slewFreq freq off).1, stepBlocked := b } := by
  obtain ⟨b, hb⟩ := State.checkBlocked_mill ((s.slewFreq freq off).2.modMill fun m => { m with freqPpb := (s.slewFreq freq off).1 }) off
  refine ⟨b, ?_⟩
  rw [State.correct_slew h hno, hb]
  show ({ (s.slewFreq freq off).2.mill with freqPpb := (s.slewFreq freq off).1, stepBlocked := b } : Mill) = _
  rw [State.slewFreq_mill]

/-! ### Messages -/

/-- What a Sync that is taken leaves, before a Delay_Resp and after it. -/
theorem State.takeSync_undelayed {s : State} (m : PtpMeas) (h : s.mill.gotDelay = false) :
    s.takeSync m = { s with mill := { s.mill with gotSync := true, twoStep := none, lastSync := s.mill.now }
                            out := .ptp 1 m.port s.mill.now :: s.out } := by
  have hno : ¬ ((s.modMill fun x => { x with gotSync := true, twoStep := none }).send (.ptp 1 m.port s.now)).mill.gotDelay = true := by
    show ¬ s.mill.gotDelay = true
    rw [h]; exact Bool.false_ne_true
  unfold State.takeSync
  dsimp only
  rw [if_neg hno]
  rfl

/-- The count of a measured offset, in the words of Table 02.2. -/
theorem Mill.countSync_eq (m : Mill) (off : Int) : m.countSync off = { m with
    goodSyncs := if off.natAbs ≤ 20 then min (m.goodSyncs + 1) 16 else 0
    state := if off.natAbs ≤ 20 ∧ 15 ≤ m.goodSyncs then .locked else m.state } := by
  unfold Mill.countSync
  by_cases h : off.natAbs ≤ 20
  · by_cases hn : 15 ≤ m.goodSyncs
    · simp [h, hn]
    · simp [h, hn, show ¬ 16 ≤ m.goodSyncs + 1 by omega]
  · simp [h]

theorem State.takeSync_delayed {s : State} (m : PtpMeas) (h : s.mill.gotDelay = true) :
    s.takeSync m =
      let v := State.correct { s with mill := { s.mill with gotSync := true, twoStep := none, offset := m.offset }
                                      out := .ptp 1 m.port s.mill.now :: s.out } m.offset m.freqPpb
      { v with mill := { v.mill with
        lastSync := v.mill.now
        goodSyncs := if m.offset.natAbs ≤ 20 then min (v.mill.goodSyncs + 1) 16 else 0
        state := if m.offset.natAbs ≤ 20 ∧ 15 ≤ v.mill.goodSyncs then .locked else v.mill.state } } := by
  have hyes : ((s.modMill fun x => { x with gotSync := true, twoStep := none }).send (.ptp 1 m.port s.now)).mill.gotDelay = true := h
  unfold State.takeSync
  dsimp only
  rw [if_pos hyes]
  simp only [State.modMill, Mill.countSync_eq, State.send, State.now]

theorem exec_ptpSync_other {s : State} {m : PtpMeas} (h : s.fromParent m.port = false) : exec (.ptpSync m) s = .next s := by
  refine congrArg Host.Outcome.next (if_pos ?_)
  rw [h]; rfl

theorem State.ptpSync_parent {s : State} {m : PtpMeas} (h : s.fromParent m.port = true) : s.ptpSync m = match m.kind with
    | 0 => s.takeSync m
    | 1 => s.modMill fun x => { x with twoStep := some (m.port, x.now) }
    | _ =>
      let s := s.modMill fun x => { x with delay := m.delay, offset := m.offset, gotDelay := true }
      if s.mill.gotSync then s.correct m.offset m.freqPpb else s := by
  refine if_neg ?_
  rw [h]; exact Bool.false_ne_true

theorem exec_ptpSync_taken {s : State} {m : PtpMeas} (h : s.fromParent m.port = true) (hkind : m.kind = 0) :
    exec (.ptpSync m) s = .next (s.takeSync m) := by
  refine congrArg Host.Outcome.next ((State.ptpSync_parent h).trans ?_)
  rw [hkind]
  rfl

theorem exec_ptpSync_twoStep {s : State} {m : PtpMeas} (h : s.fromParent m.port = true) (hkind : m.kind = 1) :
    exec (.ptpSync m) s = .next { s with mill := { s.mill with twoStep := some (m.port, s.mill.now) } } := by
  refine congrArg Host.Outcome.next ((State.ptpSync_parent h).trans ?_)
  rw [hkind]
  rfl

theorem exec_ptpSync_delayResp {s : State} {m : PtpMeas} (h : s.fromParent m.port = true) (hkind : 2 ≤ m.kind) :
    exec (.ptpSync m) s =
      let x : State := { s with mill := { s.mill with delay := m.delay, offset := m.offset, gotDelay := true } }
      .next (if s.mill.gotSync then x.correct m.offset m.freqPpb else x) := by
  refine congrArg Host.Outcome.next ((State.ptpSync_parent h).trans ?_)
  obtain ⟨k, hk⟩ : ∃ k, m.kind = k + 2 := ⟨m.kind - 2, by omega⟩
  rw [hk]
  rfl

/-- A two-step Sync waits for the Follow_Up of its port. -/
theorem PtpMeas.waits_iff (m : PtpMeas) (w : Option (Nat × Nat)) : w.any (·.1 == m.port) = true ↔ ∃ at_, w = some (m.port, at_) := by
  cases w with
  | none => simp
  | some e =>
    obtain ⟨port, at_⟩ := e
    simp [Option.any]

theorem exec_ptpFollowUp_taken {s : State} {m : PtpMeas} (h : s.fromParent m.port = true)
    (hwaits : ∃ at_, s.mill.twoStep = some (m.port, at_)) : exec (.ptpFollowUp m) s = .next (s.takeSync m) := by
  refine congrArg Host.Outcome.next (if_pos ?_)
  rw [h, (m.waits_iff _).mpr hwaits]; rfl

theorem exec_ptpFollowUp_other {s : State} {m : PtpMeas}
    (h : s.fromParent m.port = false ∨ ¬ ∃ at_, s.mill.twoStep = some (m.port, at_)) : exec (.ptpFollowUp m) s = .next s := by
  refine congrArg Host.Outcome.next (if_neg ?_)
  rw [Bool.and_eq_true, m.waits_iff]
  rintro ⟨hparent, hwaits⟩
  exact h.elim (fun hn => absurd hparent (by rw [hn]; exact Bool.false_ne_true)) fun hn => hn hwaits

theorem exec_ptpAnnounce_taken {s : State} {port slave : Nat}
    (h : s.sluiceOpen = true ∧ s.mill.role ≠ 0 ∧ s.ptpOn port = true ∧ (slave = 0xF ∨ s.ptpOn slave = true)) :
    exec (.ptpAnnounce port slave) s = .next { s with mill := { s.mill with
      slavePort := slave, twoStep := if s.mill.slavePort = slave then s.mill.twoStep else none } } := by
  refine congrArg Host.Outcome.next ((if_pos h).trans ?_)
  by_cases hslave : s.mill.slavePort = slave
  · subst hslave
    simp [State.modMill]
  · simp [State.modMill, hslave]

theorem State.masterPort_of_shut {s : State} (h : s.sluiceOpen = false) (port : Nat) : s.masterPort port = false := by
  simp [State.masterPort, h]

theorem State.fromParent_of_shut {s : State} (h : s.sluiceOpen = false) (port : Nat) : s.fromParent port = false := by
  simp [State.fromParent, h]

theorem exec_ptp_slave {s : State} {port : Nat} (h : s.masterPort port = false) :
    exec (.ptpDelayReq port) s = .next s ∧ exec (.ptpMasterSync port) s = .next s := by
  have hno : ¬ s.masterPort port = true := by rw [h]; exact Bool.false_ne_true
  exact ⟨congrArg Host.Outcome.next (if_neg hno), congrArg Host.Outcome.next (if_neg hno)⟩

theorem exec_ptp_master {s : State} {port : Nat} (h : s.masterPort port = true) :
    exec (.ptpDelayReq port) s = .next { s with out := .ptp 9 port s.mill.now :: s.out } ∧
    exec (.ptpMasterSync port) s =
      .next { s with out := .ptp 11 port s.mill.now :: .ptp 8 port s.mill.now :: .ptp 0 port s.mill.now :: s.out } :=
  ⟨congrArg Host.Outcome.next (if_pos h), congrArg Host.Outcome.next (if_pos h)⟩

theorem exec_ptpUnsupported (s : State) (port : Nat) :
    (s.sluiceOpen = true → exec (.ptpUnsupported port) s = .next { s with mill := { s.mill with discards := s.mill.discards + 1 } }) ∧
    (s.sluiceOpen = false → exec (.ptpUnsupported port) s = .next s) :=
  ⟨fun h => congrArg Host.Outcome.next (if_pos h),
   fun h => congrArg Host.Outcome.next (if_neg (by rw [h]; exact Bool.false_ne_true))⟩

/-- Settles O16. Each message goes by the branches of its operation; a correction by the clock's state (`State.correct_step`,
`State.correct_slew`). -/
theorem ptpMessagesSetTheClock : Obligations.PtpMessagesSetTheClock := by
  unfold Obligations.PtpMessagesSetTheClock
  refine ⟨fun s => ⟨fun port => (exec_ptpUnsupported s port).1, fun hshut => ⟨fun port => (exec_ptpUnsupported s port).2 hshut, fun m =>
      exec_ptpSync_other (State.fromParent_of_shut hshut _), fun port => exec_ptp_slave (State.masterPort_of_shut hshut port)⟩,
      fun port slave => ⟨fun hopen hrole hport hslave => exec_ptpAnnounce_taken ⟨hopen, hrole, hport, hslave⟩,
        fun h => congrArg Host.Outcome.next (if_neg h)⟩,
      fun hstate hlate => congrArg Host.Outcome.next (if_pos ⟨hstate, hlate⟩), fun h => congrArg Host.Outcome.next (if_neg h)⟩,
    fun s m => ?_, fun s off freq => ?_, fun s port => ⟨exec_ptp_master, exec_ptp_slave⟩⟩
  · intro waits u v r
    have htaken : r (s.takeSync m) := ⟨State.takeSync_undelayed m, State.takeSync_delayed m⟩
    exact ⟨exec_ptpSync_other, exec_ptpFollowUp_other, fun h hkind => ⟨_, exec_ptpSync_taken h hkind, htaken⟩,
      fun h hwaits => ⟨_, exec_ptpFollowUp_taken h hwaits, htaken⟩, exec_ptpSync_twoStep, exec_ptpSync_delayResp⟩
  · intro t
    refine ⟨fun hstate hmay => State.correct_step hstate hmay off freq, fun hold => ?_, fun hno hslew => ?_⟩
    · obtain ⟨b, hb⟩ := s.checkBlocked_mill off
      rw [show t = s.checkBlocked off from State.correct_holdover hold off freq, hb]
    · obtain ⟨b, hb⟩ := State.correct_slew_mill hno hslew off freq
      rw [show t.mill = _ from hb]
      exact ⟨rfl, s.slewFreq_bounds freq off⟩

/-! ### Steps of mill time -/

/-- A correction moves mill time by a step alone. -/
theorem State.correct_now (s : State) (off freq : Int) (h : ¬ (s.mill.state = .acquiring ∧ s.mayStep = true)) :
    (s.correct off freq).mill.now = s.mill.now := by
  by_cases hold : s.mill.state = .holdover
  · obtain ⟨b, hb⟩ := s.checkBlocked_mill off
    rw [State.correct_holdover hold, hb]
  · obtain ⟨b, hb⟩ := State.correct_slew_mill hold h off freq
    rw [hb]

theorem State.takeSync_now (s : State) (m : PtpMeas) (h : ¬ (s.mill.state = .acquiring ∧ s.mayStep = true)) :
    (s.takeSync m).mill.now = s.mill.now := by
  cases hdelay : s.mill.gotDelay with
  | false => rw [State.takeSync_undelayed m hdelay]
  | true =>
    rw [State.takeSync_delayed m hdelay]
    exact State.correct_now _ _ _ h

theorem State.ptpSync_now (s : State) (m : PtpMeas) (h : ¬ (s.mill.state = .acquiring ∧ s.mayStep = true)) :
    (s.ptpSync m).mill.now = s.mill.now := by
  unfold State.ptpSync
  split
  · rfl
  · split
    · exact s.takeSync_now m h
    · rfl
    · dsimp only
      split
      · exact State.correct_now _ _ _ h
      · rfl

/-- A correction that may not step sets STEP_BLOCKED beyond STEP_LIMIT. -/
theorem State.correct_blocked {s : State} {off : Int} (freq : Int) (hno : s.mayStep = false) (hfar : s.mill.stepLimit < off.natAbs) :
    (s.correct off freq).mill.stepBlocked = true := by
  by_cases hold : s.mill.state = .holdover
  · rw [State.correct_holdover hold]
    exact State.checkBlocked_blocked hfar hno
  · rw [State.correct_slew hold (by rw [hno]; exact fun h => Bool.false_ne_true h.2)]
    refine State.checkBlocked_blocked ?_ ?_
    · show (s.slewFreq freq off).2.mill.stepLimit < _
      rw [State.slewFreq_mill]; exact hfar
    · exact (s.slewFreq_mayStep freq off).trans hno

/-- Settles O17. Only a correction of ACQUIRING with no partition in the way moves mill time (`State.correct_now`). -/
theorem stepsOnlyWithoutPartitions : Obligations.StepsOnlyWithoutPartitions := by
  intro s t m h
  obtain rfl : s.ptpSync m = t := Host.Outcome.next.inj h
  refine ⟨fun hno => s.ptpSync_now m (by rw [hno]; exact fun h => Bool.false_ne_true h.2),
    fun hmoved => by_contra fun hstep => hmoved (s.ptpSync_now m hstep), fun hparent hkind hdelay hno hfar => ?_⟩
  have htaken : s.ptpSync m = s.takeSync m := Host.Outcome.next.inj (exec_ptpSync_taken hparent hkind)
  rw [htaken, State.takeSync_delayed m hdelay]
  exact State.correct_blocked _ hno hfar

end Sys2Proof.Machine

/-! PROOFS. O18: the time pins and BRAKE_N (R40, R60, R61, R441, R443). -/
namespace Sys2Proof.Machine
open Sys2Proof

/-- A servo that starts from 0 stays within 100 ppm. -/
theorem State.slewFreq_zero_bounds (s : State) (off : Int) : -100000 ≤ (s.slewFreq 0 off).1 ∧ (s.slewFreq 0 off).1 ≤ 100000 := by
  obtain ⟨hzero, hpos, hneg⟩ := s.slewFreq_bounds 0 off
  unfold clampPpb at hzero hpos hneg
  rcases Int.lt_trichotomy off 0 with h | h | h
  · have := hneg h; omega
  · have := hzero h; omega
  · have := hpos h; omega

theorem State.slewFreq_rest (s : State) (freq off : Int) (m : Mill) (n : Nat) :
    ({ (s.slewFreq freq off).2 with mill := m, draws := n } : State) = { s with mill := m, draws := n } := by
  unfold State.slewFreq
  split <;> rfl

/-- PPS_IN's edge with no discipline, and with it. -/
theorem State.ppsIn_stamped {s : State} (h : s.mill.role ≠ 0 ∨ bit s.mill.ctrl 29 = false) :
    s.ppsIn = { s with mill := { s.mill with ppsLast := s.mill.now } } := by
  have hno : ¬ (s.mill.role = 0 ∧ bit s.mill.ctrl 29 = true) := fun ⟨hrole, hbit⟩ =>
    h.elim (fun hr => hr hrole) fun hb => by rw [hb] at hbit; exact Bool.false_ne_true hbit
  exact if_neg hno

theorem State.ppsIn_disciplines {s : State} (hrole : s.mill.role = 0) (hen : bit s.mill.ctrl 29 = true) :
    ∃ off, s.ppsIn =
      let u : State := { s with mill := { s.mill with ppsLast := s.mill.now } }
      (u.slewFreq 0 off).2.modMill fun m => { m with freqPpb := (u.slewFreq 0 off).1 } :=
  ⟨_, if_pos ⟨hrole, hen⟩⟩

/-- BRAKE_N's fall brakes one partition after another. -/
def State.pinFalls (s : State) : State := (List.range 16).foldl (fun s p => s.brakeBy p .pin) (s.modMill fun m => { m with brakeLow := true })

theorem State.pinFalls_mill (s : State) : s.pinFalls.mill.brakeLow = true := by
  have hrest := foldl_same State.sansBrake (by intro t p; exact t.brakeBy_sansBrake p .pin) (List.range 16)
    (s.modMill fun m => { m with brakeLow := true })
  rw [State.pinFalls, State.mill_of_sansBrake hrest]
  rfl

/-- Each partition meets the pin as it stood before the fall. -/
theorem State.pinFalls_part {s : State} (hs : s.Canon) {p : Nat} (hp : p < 16) :
    ∃ t : State, t.Canon ∧ t.part p = s.part p ∧ s.pinFalls.part p = (t.brakeBy p .pin).part p := by
  have hlow : (s.modMill fun m => { m with brakeLow := true }).Canon :=
    ⟨{ hs.mem with }, { hs.tab with }⟩
  obtain ⟨t, ht, hpart, hfold⟩ := foldl_own (P := State.Canon) (rd := State.part) (f := fun s p => s.brakeBy p .pin)
    (fun t q ht => (t.brakeBy_keeps q .pin).canon ht) (fun t q r ht hr => State.brakeBy_other (.of_canon ht _) hr .pin) List.nodup_range (List.mem_range.mpr hp) hlow
  exact ⟨t, ht, hpart.trans (State.modMill_part ..), hfold⟩

theorem bit_or_two (n : Nat) : bit (n ||| 2) 1 = true := by
  have h : bit (n ||| 2) 1 = (n ||| 2).testBit 1 := by simp [bit, Nat.testBit, Nat.shiftRight_eq_div_pow]
  rw [h, Nat.testBit_or]
  simp [show Nat.testBit 2 1 = true by decide]

theorem State.pinFalls_active {s : State} (hs : s.Canon) {p : Nat} (hp : p < 16) (h : (s.part p).state.active) :
    (s.pinFalls.part p).gov.byPin = true ∧ (s.pinFalls.part p).gov.braking = true := by
  obtain ⟨t, ht, hpart, hfall⟩ := State.pinFalls_part hs hp
  obtain ⟨g, hg, hbraked⟩ := State.brakeBy_own (.of_canon ht _) (by rw [hpart]; exact h) .pin
  have hpin : g.byPin = true := (congrArg Prod.fst hbraked.causes).trans rfl
  rw [hfall, hg]
  exact ⟨hpin, hbraked.braking⟩

theorem State.pinFalls_draining {s : State} (hs : s.Canon) {p : Nat} (hp : p < 16) (h : (s.part p).state = .draining) :
    (s.pinFalls.part p).rebind.braked = true ∧ bit (s.pinFalls.part p).rebind.causes 1 = true := by
  obtain ⟨t, ht, hpart, hfall⟩ := State.pinFalls_part hs hp
  obtain ⟨hbraked, hcauses, -⟩ := State.brakeBy_draining (.of_canon ht _) (by rw [hpart]; exact h) .pin
  rw [hfall]
  exact ⟨hbraked, by rw [hcauses]; exact bit_or_two _⟩

/-- Settles O18. The pins go by the branches of their operations; BRAKE_N's fall meets each partition as it stood (`State.pinFalls_part`). -/
theorem pinsAreStampedAndHeld : Obligations.PinsAreStampedAndHeld := by
  intro s
  refine ⟨fun h => congrArg Host.Outcome.next (if_pos h),
    fun h hno => congrArg Host.Outcome.next ((if_neg h).trans (State.ppsIn_stamped hno)), fun h hrole hen => ?_,
    fun hen hsec hlast => congrArg Host.Outcome.next (if_pos ⟨hen, hsec, hlast⟩), fun hno => congrArg Host.Outcome.next (if_neg hno), rfl,
    s.pinFalls, rfl, s.pinFalls_mill, fun hs p hp => ⟨fun hstate => State.pinFalls_active hs hp hstate, State.pinFalls_draining hs hp⟩⟩
  obtain ⟨off, hoff⟩ := State.ppsIn_disciplines hrole hen
  refine ⟨_, congrArg Host.Outcome.next ((if_neg h).trans hoff), ?_, ?_, ?_, ?_⟩
  · show ({ (State.slewFreq _ 0 off).2.mill with freqPpb := _ } : Mill) = _
    rw [State.slewFreq_mill]
    rfl
  · exact (State.slewFreq_zero_bounds _ off).1
  · exact (State.slewFreq_zero_bounds _ off).2
  · exact State.slewFreq_rest _ 0 off s.mill s.draws

end Sys2Proof.Machine

/-! PROOFS. O19: revolutions (R43, R53, R56, R58). -/
namespace Sys2Proof.Machine
open Sys2Proof

theorem State.takeMisses_nil (s : State) (p at_ : Nat) : s.takeMisses p at_ [] = s := rfl

/-! ### The next revolution -/

/-- What the start of a revolution makes of its partition. -/
def Part.beginsRevolution (v : Part) (now : Nat) (late : Bool) : Part :=
  { v with
    state := .running
    rebindNs := if v.rebind.timing then min (now - v.rebind.start) 0xFFFFFFFF else v.rebindNs
    rebind := { v.rebind with timing := false }
    gov := { v.gov with
      nextRev := v.gov.nextRev + 1, revCount := v.gov.revCount + 1, released := false, aborted := false, committed := late
      phasesStarted := 0
      runs := v.gov.runs.filter fun e => e.2.status == .running || e.2.status == .held } }

/-- A U phase that committed late runs on. -/
def Gov.lateCommit (g : Gov) : Bool :=
  g.committed && (g.phases .running).any fun k => ((g.tt.entries[k % 4096]?).map (·.phase)) == some 2

theorem Gov.lateCommit_iff (g : Gov) : g.lateCommit = true ↔
    g.committed = true ∧ ∃ k e, k ∈ g.phases .running ∧ g.tt.entries[k % 4096]? = some e ∧ e.phase = 2 := by
  simp only [Gov.lateCommit, Bool.and_eq_true, List.any_eq_true, beq_iff_eq, Option.map_eq_some_iff]
  refine and_congr_right fun _ => ⟨?_, ?_⟩
  · rintro ⟨k, hk, e, he, hphase⟩
    exact ⟨k, e, hk, he, hphase⟩
  · rintro ⟨k, e, hk, he, hphase⟩
    exact ⟨k, hk, e, he, hphase⟩

/-- What it makes of the partition's Weir. -/
def Weir.beginsRevolution (w : Weir) (again : Bool) : Weir :=
  { w with
    repeatWindow := again
    sync := NatMap.mapVals {} (fun _ o => { o with failed := false, recheck := o.recheck || o.failed }) w.sync }

/-- The state in which a revolution has started, before its Weir settles. -/
def State.revolutionBegun (s : State) (p : Nat) : State :=
  (s.modPart p (·.beginsRevolution s.now (s.part p).gov.lateCommit)).modWeir p (·.beginsRevolution (s.part p).gov.aborted)

theorem State.beginRevolution_eq (s : State) (p : Nat) : s.beginRevolution p = (s.revolutionBegun p).settleWeir p weirFuel := by
  refine congrArg (fun u : State => u.settleWeir p weirFuel) ?_
  simp only [State.revolutionBegun, State.modPart, Part.beginsRevolution, Gov.lateCommit, Weir.beginsRevolution]

theorem State.revolutionBegun_part {s : State} (hs : s.Canon) (p q : Nat) : (s.revolutionBegun p).part q =
    if q = p then (s.part p).beginsRevolution s.now (s.part p).gov.lateCommit else s.part q :=
  State.part_modPart hs p q (·.beginsRevolution s.now (s.part p).gov.lateCommit)

theorem State.revolutionBegun_weir {s : State} (hs : s.Canon) (p : Nat) :
    (s.revolutionBegun p).weir p = (s.weir p).beginsRevolution (s.part p).gov.aborted :=
  (State.weir_setWeir (s.modPart p _) hs.tab.weirs p p _).trans (if_pos rfl)

/-- With no counter and no abort to send nothing settles. -/
theorem State.settleWeir_idle {s : State} {p : Nat} (hcounters : (s.weir p).tbl.counters = []) (habort : (s.weir p).abortDue = false) (n : Nat) :
    s.settleWeir p n = s := by
  cases n with
  | zero => rfl
  | succ n =>
    unfold State.settleWeir
    dsimp only
    rw [habort, hcounters]
    rfl

/-- The abandoned revolutions in a row, as a revolution ends. -/
def Gov.streak (g : Gov) : Nat := if g.revOpen then (if g.aborted then g.abortStreak + 1 else 0) else g.abortStreak

theorem State.revolutionStart_begins {s : State} {p : Nat} (hactive : (s.part p).state = .armed ∨ (s.part p).state = .running)
    (hbraking : (s.part p).gov.braking = false) (hdue : (s.part p).gov.revStart (s.part p).gov.nextRev ≤ s.mill.now)
    (hlease : s.leaseLapsed p = false) (hmisses : (s.part p).gov.missesAt ((s.part p).gov.revStart (s.part p).gov.nextRev) = [])
    (hlimit : (s.part p).gov.revOpen = true → (if (s.part p).gov.aborted then (s.part p).gov.abortStreak + 1 else 0) < (s.part p).gov.tt.abortLimit) :
    s.revolutionStart p = (s.modGov p fun g => { g with abortStreak := (s.part p).gov.streak }).beginRevolution p := by
  have hguard : (((s.part p).state == .armed || (s.part p).state == .running) && !(s.part p).gov.braking &&
      decide ((s.part p).gov.revStart (s.part p).gov.nextRev ≤ s.now)) = true := by
    simp [hactive, hbraking]
    exact hdue
  have hspent : ¬ ((s.part p).gov.revOpen && decide ((s.part p).gov.tt.abortLimit ≤ (s.part p).gov.streak)) = true := by
    rw [Bool.and_eq_true, decide_eq_true_eq]
    rintro ⟨hopen, hspent⟩
    rw [Gov.streak, if_pos hopen] at hspent
    exact absurd (hlimit hopen) (Nat.not_lt.mpr hspent)
  unfold State.revolutionStart
  dsimp only
  rw [if_pos hguard, hlease, hmisses, State.takeMisses_nil, ite_self, hbraking]
  rw [if_neg Bool.false_ne_true, if_neg Bool.false_ne_true]
  exact (if_neg hspent).trans (congrArg (fun u : State => u.beginRevolution p) (if_neg hspent))

/-! ### A lapsed lease -/

/-- A brake that may have come first leaves the partition active. -/
theorem State.spent_active {s : State} (hs : s.Canon) {p : Nat} (h : (s.part p).state.active) (c : Prop) [Decidable c] (blame : Nat) (f : FaultRec) :
    (if c then (s.brakeDeadline p blame).raise f else s).Canon ∧
      ((if c then (s.brakeDeadline p blame).raise f else s).part p).state.active := by
  split
  · obtain ⟨g, hg, -⟩ := State.brakeDeadline_own (.of_canon hs _) h blame
    exact ⟨((s.brakeDeadline_keeps p blame).trans (State.raise_keeps _ f)).canon hs, by rw [State.raise_part, hg]; exact h⟩
  · exact ⟨hs, h⟩

theorem State.revolutionStart_lapsed {s : State} (hs : s.Canon) {p : Nat} (hactive : (s.part p).state = .armed ∨ (s.part p).state = .running)
    (hbraking : (s.part p).gov.braking = false) (hdue : (s.part p).gov.revStart (s.part p).gov.nextRev ≤ s.mill.now)
    (hlease : s.leaseLapsed p = true) :
    ∃ u : State, s.revolutionStart p = u.brakeBy p .lease ∧ u.Canon ∧ (u.part p).state.active := by
  have hguard : (((s.part p).state == .armed || (s.part p).state == .running) && !(s.part p).gov.braking &&
      decide ((s.part p).gov.revStart (s.part p).gov.nextRev ≤ s.now)) = true := by
    simp [hactive, hbraking]
    exact hdue
  unfold State.revolutionStart
  dsimp only
  rw [if_pos hguard, hlease, Bool.not_true, Bool.and_false, if_neg Bool.false_ne_true, hbraking, if_neg Bool.false_ne_true, if_pos rfl]
  have hcanon := (s.modGov_keeps p fun g => { g with abortStreak := (s.part p).gov.streak }).canon hs
  have hu := State.part_modGov hs p p fun g => { g with abortStreak := (s.part p).gov.streak }
  rw [if_pos rfl] at hu
  have hact : ((s.modGov p fun g => { g with abortStreak := (s.part p).gov.streak }).part p).state.active := by rw [hu]; exact hactive.symm
  exact ⟨_, rfl, State.spent_active hcanon hact _ _ _⟩

/-! ### O19 -/

/-- Settles O19. The start of a revolution is `State.revolutionBegun`, settled; a lapsed lease brakes (`State.brakeBy_own`). -/
theorem revolutionsStartAtLatticePoints : Obligations.RevolutionsStartAtLatticePoints := by
  intro s p hs hactive hbraking g hdue
  refine ⟨fun hlease hmisses hlimit => ?_, fun hlease => ?_⟩
  · have hstart := (State.revolutionStart_begins hactive hbraking hdue hlease hmisses hlimit).trans (State.beginRevolution_eq _ p)
    have hu := fun q => State.part_modGov hs p q fun g => { g with abortStreak := (s.part p).gov.streak }
    have hcanon := (s.modGov_keeps p fun g => { g with abortStreak := (s.part p).gov.streak }).canon hs
    have hrest : { (s.modGov p fun g => { g with abortStreak := (s.part p).gov.streak }) with parts := s.parts } = s := rfl
    have hweir := s.modGov_weir p (fun g => { g with abortStreak := (s.part p).gov.streak }) p
    generalize s.modGov p (fun g => { g with abortStreak := (s.part p).gov.streak }) = u at hstart hu hcanon hrest hweir
    have hown := State.revolutionBegun_part hcanon p p
    rw [if_pos rfl, hu, if_pos rfl] at hown
    have hbegun := State.revolutionBegun_weir hcanon p
    rw [hweir, hu, if_pos rfl] at hbegun
    refine ⟨u.revolutionBegun p, congrArg Host.Outcome.next hstart, ?_, ?_, ?_, ?_, ?_, ?_, ?_, fun q hq => ?_, ?_, fun hcounters habort => ?_⟩
    · rw [hown]; rfl
    · rw [hown]; rfl
    · rw [hown]; rfl
    · rw [hown]; rfl
    · rw [hown]; exact g.lateCommit_iff
    · rw [hown]; rfl
    · rw [hbegun]; rfl
    · rw [State.revolutionBegun_part hcanon, if_neg hq, hu, if_neg hq]
    · exact (congrArg (fun x : State => ({ x with weirs := s.weirs } : State)) hrest :)
    · refine State.settleWeir_idle ?_ ?_ weirFuel
      · rw [hbegun]; exact hcounters
      · rw [hbegun]; exact habort
  · obtain ⟨u, hstart, hcanon, hact⟩ := State.revolutionStart_lapsed hs hactive hbraking hdue hlease
    obtain ⟨b, hb, hbraked⟩ := State.brakeBy_own (.of_canon hcanon _) hact .lease
    have hby : b.byLease = true := (congrArg (fun x => x.2.1) hbraked.causes).trans rfl
    exact ⟨_, congrArg Host.Outcome.next hstart, by rw [hb]; exact hby, by rw [hb]; exact hbraked.braking⟩

end Sys2Proof.Machine

/-! PROOFS. O21: phases (R51, R73, R121, R143). -/
namespace Sys2Proof.Machine
open Sys2Proof

/-! ### Held phases -/

theorem Gov.heldReady_of {g : Gov} {k : Nat} (hrunning : g.phases .running = []) (hheld : (g.phases .held).head? = some k) :
    g.heldReady = some k := by
  rw [Gov.heldReady, hrunning]
  exact hheld

theorem exec_heldPhaseStart {s : State} {p i k : Nat} {e : TtEntry} (hentry : (s.part p).gov.tt.entries[i]? = some e)
    (hready : (s.part p).gov.heldReady = some k) (hi : k % 4096 = i) (hstate : (s.part p).state = .running)
    (hbraking : (s.part p).gov.braking = false) (hallowed : s.startAllowed p = true) :
    exec (.heldPhaseStart p i) s = .next (s.countStart.runPhase p k e) := by
  refine congrArg Host.Outcome.next ?_
  unfold State.heldPhaseStart
  dsimp only
  rw [hready, hentry]
  refine if_pos ?_
  rw [hstate, hbraking, hallowed, hi]
  simp

/-- A write that is taken back leaves no entry that was not there. -/
theorem NatMap.mem_of_mem_erase_set {α : Type} [DecidableEq α] {d v : α} {m : NatMap α} {n : Nat} {e : Nat × α} (he : e.2 ≠ d)
    (h : e ∈ NatMap.set d (NatMap.set d m n v) n d) : e ∈ m := by
  induction m with
  | nil =>
    by_cases hv : v = d
    · simp [NatMap.set, hv] at h
    · simp [NatMap.set, hv] at h
  | cons f t ih =>
    obtain ⟨k, w⟩ := f
    by_cases hlt : n < k
    · by_cases hv : v = d
      · simpa [NatMap.set, hlt, hv] using h
      · simpa [NatMap.set, hlt, hv] using h
    · by_cases heq : n = k
      · subst heq
        by_cases hv : v = d
        · rw [NatMap.set, if_neg hlt, if_pos rfl, if_pos hv] at h
          rcases NatMap.mem_set h with rfl | h
          · exact absurd rfl he
          · exact List.mem_cons_of_mem _ h
        · simp [NatMap.set, hv] at h
          exact List.mem_cons_of_mem _ h
      · simp only [NatMap.set, hlt, heq, if_false, List.mem_cons] at h
        exact h.elim (fun h => h ▸ List.mem_cons_self) fun h => List.mem_cons_of_mem _ (ih h)

/-- A run that has just been entered, and taken away again, adds no open phase. -/
theorem Gov.phases_erased {g : Gov} {st : EntryStatus} (hst : st ≠ .idle) (h : g.phases st = []) (k : Nat) (r : EntryRun) :
    Gov.phases { g with runs := NatMap.set {} (NatMap.set {} g.runs k r) k {} } st = [] := by
  unfold Gov.phases at h ⊢
  rw [List.map_eq_nil_iff, List.filter_eq_nil_iff] at h ⊢
  intro e he hphase
  have hrun : e.2 ≠ {} := fun hidle => by
    rw [hidle] at hphase
    exact hst (beq_iff_eq.mp (Bool.and_eq_true_iff.mp hphase).1).symm
  exact h e (NatMap.mem_of_mem_erase_set hrun he) hphase

/-- With no phase open or held, a phase whose entry has just been entered starts at once. -/
theorem State.phaseEntry_starts {s : State} (hs : s.Canon) {p i : Nat} {e : TtEntry} (r : EntryRun)
    (hpreceded : (s.part p).gov.unpreceded e = false) (hrunning : (s.part p).gov.phases .running = []) (hheld : (s.part p).gov.phases .held = []) :
    let k := (s.part p).gov.key i
    let u := s.setPart p { s.part p with gov := (s.part p).gov.setRun k r }
    u.phaseEntry p i e = u.runPhase p k e := by
  intro k u
  have hu : u.part p = { s.part p with gov := (s.part p).gov.setRun k r } := (State.part_setPart s hs.tab.parts p p _).trans (if_pos rfl)
  have hholds : Gov.holdsPhase { (s.part p).gov with runs := NatMap.set {} (NatMap.set {} (s.part p).gov.runs k r) k {} } = false := by
    have hnone : ∀ st, st ≠ .idle → (s.part p).gov.phases st = [] →
        Gov.phases { (s.part p).gov with runs := NatMap.set {} (NatMap.set {} (s.part p).gov.runs k r) k {} } st = [] :=
      fun st hst h => Gov.phases_erased hst h k r
    unfold Gov.holdsPhase
    rw [hnone .running (by decide) hrunning, hnone .held (by decide) hheld]
    rfl
  unfold State.phaseEntry
  rw [hu]
  exact (if_neg fun h => Bool.false_ne_true (hpreceded.symm.trans h)).trans (if_neg fun h => Bool.false_ne_true (hholds.symm.trans h))

/-! ### Cores and tiles -/

theorem bitsOf_nodup (n v : Nat) : (bitsOf n v).Nodup := List.nodup_range.filter _

theorem State.partTiles_nodup (s : State) (p : Nat) : (s.partTiles p).Nodup := by
  unfold State.partTiles State.partClusters
  rw [List.nodup_flatten, List.pairwise_map]
  refine ⟨fun l hl => ?_, (bitsOf_nodup 64 _).imp fun {c d} hne => ?_⟩
  · obtain ⟨c, -, rfl⟩ := List.mem_map.mp hl
    exact List.nodup_range.map fun a b h => by simpa using h
  · rw [List.disjoint_left]
    intro n hc hd
    obtain ⟨a, ha, rfl⟩ := List.mem_map.mp hc
    obtain ⟨b, hb, hab⟩ := List.mem_map.mp hd
    rw [List.mem_range] at ha hb
    omega

/-- What the control core of a cluster starts with. -/
def Cluster.enters (x : Cluster) (a : Nat) (phase mb step : Nat) : Cluster :=
  { x with
    running := true, trapped := false, phaseDone := false, pc := BitVec.ofNat 64 a
    coreRegs := NatMap.set 0 (NatMap.set 0 (NatMap.set 0 x.coreRegs 10 (BitVec.ofNat 64 phase)) 11 (BitVec.ofNat 64 mb)) 12
      (BitVec.ofNat 64 (step % 2 ^ 32)) }

theorem State.corePhase_other {s : State} (hs : s.Canon) (entry phase mb step : Nat) {c d : Nat} (h : d ≠ c) :
    (s.corePhase entry phase mb step c).cluster d = s.cluster d := by
  have hset : ∀ x, (s.setCluster c x).cluster d = s.cluster d := fun x => (s.cluster_setCluster hs.tab.clusters c d x).trans (if_neg h)
  unfold State.corePhase
  dsimp only
  split
  · exact hset _
  · split
    · exact hset _
    · rw [State.raise_cluster]
      exact hset _

theorem State.corePhase_enters {s : State} (hs : s.Canon) {entry phase mb step c : Nat} (hhalted : (s.cluster c).unstall.halted = false)
    (hvalid : entryValid (ofLe (NatMap.getList 0 (s.cluster c).imem (8 * entry) 8)) = true) :
    (s.corePhase entry phase mb step c).cluster c =
      (s.cluster c).unstall.enters (ofLe (NatMap.getList 0 (s.cluster c).imem (8 * entry) 8)) phase mb step := by
  have hset : s.corePhase entry phase mb step c =
      s.setCluster c ((s.cluster c).unstall.enters (ofLe (NatMap.getList 0 (s.cluster c).imem (8 * entry) 8)) phase mb step) :=
    (if_neg (by rw [hhalted]; exact Bool.false_ne_true)).trans (if_pos hvalid)
  rw [hset]
  exact (s.cluster_setCluster hs.tab.clusters c c _).trans (if_pos rfl)

theorem State.tilePhase_other {s : State} (hs : s.Canon) (key : Word64 × Word64) {t n : Nat} (h : n ≠ t) : (s.tilePhase key t).tile n = s.tile n := by
  have hset : ∀ x, (s.setTile t x).tile n = s.tile n := fun x => (s.tile_setTile hs.tab.tiles t n x).trans (if_neg h)
  unfold State.tilePhase
  dsimp only
  split
  · rw [State.raise_tile]
    exact hset _
  · exact hset _

/-- A tile with no group open or closed starts with a cleared statistics block and SR context, and nothing else. -/
theorem State.tilePhase_own {s : State} (hs : s.Canon) (key : Word64 × Word64) {n : Nat} (ha : (s.tile n).arrA.groups = [])
    (hb : (s.tile n).arrB.groups = []) : (s.tilePhase key n).tile n =
      Tile.freeGroups { s.tile n with stats := [], sr := { tensor := 0, base := 0, k0 := key.1, k1 := key.2 } } := by
  have hphase : (s.tile n).phaseStart key =
      (Tile.freeGroups { s.tile n with stats := [], sr := { tensor := 0, base := 0, k0 := key.1, k1 := key.2 } }, false) := by
    unfold Tile.phaseStart
    dsimp only
    rw [ha, hb]
    rfl
  unfold State.tilePhase
  dsimp only
  rw [hphase, if_neg Bool.false_ne_true]
  exact (s.tile_setTile hs.tab.tiles n n _).trans (if_pos rfl)

/-! ### A phase that starts -/

theorem State.takeVersionRefs_clusters (s : State) (p mb : Nat) : (s.takeVersionRefs p mb).clusters = s.clusters :=
  foldl_same State.clusters (by intro _ _; rfl) _ s
theorem State.takeVersionRefs_tiles (s : State) (p mb : Nat) : (s.takeVersionRefs p mb).tiles = s.tiles :=
  foldl_same State.tiles (by intro _ _; rfl) _ s

theorem State.tilePhase_rest (s : State) (key : Word64 × Word64) (t : Nat) :
    (s.tilePhase key t).clusters = s.clusters ∧ (s.tilePhase key t).parts = s.parts := by
  unfold State.tilePhase
  dsimp only
  split
  · exact ⟨State.raise_clusters .., State.raise_parts ..⟩
  · exact ⟨rfl, rfl⟩

theorem State.corePhase_tiles (s : State) (entry phase mb step c : Nat) : (s.corePhase entry phase mb step c).tiles = s.tiles := by
  unfold State.corePhase
  dsimp only
  split
  · rfl
  · split
    · rfl
    · exact State.raise_tiles ..

/-- A phase starts on the tiles, then on the cores, then takes its references to versions. -/
theorem State.runPhase_eq {s : State} (hs : s.Canon) (p k : Nat) (e : TtEntry) : ∃ (u : State) (key : Word64 × Word64),
    u.Canon ∧ u.tiles = s.tiles ∧ u.clusters = s.clusters ∧
    ∃ w : State, w = (s.partClusters p).foldl (fun w c => w.corePhase (bits e.arg 16 8) e.phase (bits e.arg 8 8) (s.part p).gov.step.toNat c)
        ((s.partTiles p).foldl (fun u t => u.tilePhase key t) u) ∧
      (s.runPhase p k e).clusters = w.clusters ∧ (s.runPhase p k e).tiles = w.tiles := by
  unfold State.runPhase
  extract_lets -lift +onlyGivenNames g step mb u key v w
  have hmap : (u.part p).map = (s.part p).map := by
    rw [State.part_modGov hs, if_pos rfl]
  have hv : v.parts = u.parts := foldl_same State.parts (by intro x t; exact (x.tilePhase_rest key t).2) _ u
  have hclusters : v.partClusters p = s.partClusters p := by
    rw [State.partClusters, State.part, hv, ← State.part, hmap]; rfl
  have htiles : u.partTiles p = s.partTiles p := by
    rw [State.partTiles, State.partClusters, hmap]; rfl
  refine ⟨u, key, (s.modGov_keeps p _).canon hs, rfl, rfl, w, ?_, ?_, ?_⟩
  · rw [← hclusters, ← htiles]
  · split
    · exact State.takeVersionRefs_clusters ..
    · rfl
  · split
    · exact State.takeVersionRefs_tiles ..
    · rfl

theorem State.runPhase_cluster {s : State} (hs : s.Canon) (p k : Nat) (e : TtEntry) {c : Nat} (hc : c ∈ s.partClusters p) :
    ∃ t : State, t.Canon ∧ t.cluster c = s.cluster c ∧ (s.runPhase p k e).cluster c =
      (t.corePhase (bits e.arg 16 8) e.phase (bits e.arg 8 8) (s.part p).gov.step.toNat c).cluster c := by
  obtain ⟨u, key, hu, -, huc, w, hw, hclusters, -⟩ := State.runPhase_eq hs p k e
  have hv : ((s.partTiles p).foldl (fun u t => u.tilePhase key t) u).clusters = u.clusters :=
    foldl_same State.clusters (by intro x t; exact (x.tilePhase_rest key t).1) _ u
  have hcanon : ((s.partTiles p).foldl (fun u t => u.tilePhase key t) u).Canon :=
    (Keeps.foldl (fun x t => x.tilePhase_keeps key t) _ u).canon hu
  obtain ⟨t, ht, hread, hfold⟩ := foldl_own (P := State.Canon) (rd := State.cluster)
    (f := fun w c => w.corePhase (bits e.arg 16 8) e.phase (bits e.arg 8 8) (s.part p).gov.step.toNat c)
    (fun x c hx => (x.corePhase_keeps _ _ _ _ c).canon hx) (fun x c d hx hd => State.corePhase_other hx _ _ _ _ hd) (bitsOf_nodup _ _) hc hcanon
  refine ⟨t, ht, ?_, ?_⟩
  · rw [hread, State.cluster, hv, huc]; rfl
  · rw [State.cluster, hclusters, hw]
    exact hfold

theorem State.runPhase_tile {s : State} (hs : s.Canon) (p k : Nat) (e : TtEntry) {n : Nat} (hn : n ∈ s.partTiles p) :
    ∃ (t : State) (key : Word64 × Word64), t.Canon ∧ t.tile n = s.tile n ∧ (s.runPhase p k e).tile n = (t.tilePhase key n).tile n := by
  obtain ⟨u, key, hu, hut, -, w, hw, -, htiles⟩ := State.runPhase_eq hs p k e
  have hcores : w.tiles = ((s.partTiles p).foldl (fun u t => u.tilePhase key t) u).tiles := by
    rw [hw]
    exact foldl_same State.tiles (by intro x c; exact x.corePhase_tiles _ _ _ _ c) _ _
  obtain ⟨t, ht, hread, hfold⟩ := foldl_own (P := State.Canon) (rd := State.tile) (f := fun u t => u.tilePhase key t)
    (fun x t hx => (x.tilePhase_keeps key t).canon hx) (fun x t n hx hd => State.tilePhase_other hx key hd) (s.partTiles_nodup p) hn hu
  refine ⟨t, key, ht, ?_, ?_⟩
  · rw [hread, State.tile, hut]; rfl
  · rw [State.tile, htiles, hcores]
    exact hfold

/-- Settles O21. A phase that starts meets each core and tile as it stood (`State.runPhase_cluster`, `State.runPhase_tile`). -/
theorem phasesStartCoresAndTiles : Obligations.PhasesStartCoresAndTiles := by
  intro s p i e hs hentry
  refine ⟨fun k hrunning hheld hi hstate hbraking hallowed =>
      exec_heldPhaseStart hentry (Gov.heldReady_of hrunning hheld) hi hstate hbraking hallowed,
    fun r => State.phaseEntry_starts hs r, fun k c hc hhalted => ?_, fun k n hn ha hb => ?_⟩
  · intro a hvalid x
    obtain ⟨t, ht, hread, hphase⟩ := State.runPhase_cluster hs p k e hc
    rw [State.corePhase_enters ht (by rw [hread]; exact hhalted) (by rw [hread]; exact hvalid), hread] at hphase
    rw [show x = _ from hphase]
    exact ⟨rfl, rfl, rfl, rfl, rfl⟩
  · intro x
    obtain ⟨t, key, ht, hread, hphase⟩ := State.runPhase_tile hs p k e hn
    rw [State.tilePhase_own ht key (by rw [hread]; exact ha) (by rw [hread]; exact hb), hread] at hphase
    rw [show x = _ from hphase]
    exact ⟨rfl, rfl, rfl, rfl⟩

end Sys2Proof.Machine

/-! PROOFS. O22: the Governor's instants and GOV_CMD (R52, R53, R57, R58, R61, R265, R415). -/
namespace Sys2Proof.Machine
open Sys2Proof

/-! ### Windows, leases and hints -/

theorem exec_windowClose_open {s : State} {p i k : Nat} {r : EntryRun} {e : TtEntry}
    (hrun : ((s.part p).gov.runs.filter fun e => e.1 % 4096 == i && e.2.windowOpen).head? = some (k, r))
    (hentry : (s.part p).gov.tt.entries[i]? = some e) :
    exec (.windowClose p i) s = .next (if r.start + 64 * e.deadline ≤ s.mill.now then
      s.setPart p { s.part p with gov := (s.part p).gov.setRun k { r with windowOpen := false, grants := [] } } else s) := by
  refine congrArg Host.Outcome.next ?_
  unfold State.windowClose
  dsimp only
  rw [hrun, hentry]
  rfl

theorem exec_windowClose_shut {s : State} {p i : Nat}
    (h : ((s.part p).gov.runs.filter fun e => e.1 % 4096 == i && e.2.windowOpen).head? = none ∨ (s.part p).gov.tt.entries[i]? = none) :
    exec (.windowClose p i) s = .next s := by
  refine congrArg Host.Outcome.next ?_
  unfold State.windowClose
  dsimp only
  split
  next hrun hentry => rcases h with h | h <;> simp_all
  next => rfl

/-- The states of a partition whose lease may lapse in Run. -/
def PartState.leased (x : PartState) : Bool := x == .armed || x == .running || x == .braked || x == .draining || x == .scrubbing

theorem State.leaseExpire_lapses {s : State} {p : Nat} (hpwr : s.pwr.state = 0) (hlapsed : (s.part p).gov.lapsed = false)
    (hdue : (s.part p).gov.leaseExpiry ≤ s.mill.now) (hstate : (s.part p).state.leased = true) :
    s.leaseExpire p =
      let lapsed := s.setPart p { s.part p with gov := { (s.part p).gov with lapsed := true } }
      if (s.part p).state = .draining ∨ (s.part p).state = .scrubbing then lapsed.brakeBy p .lease else lapsed := by
  have hlease : s.leaseLapsed p = true := decide_eq_true hdue
  have hguard : ((s.part p).state.leased && s.leaseLapsed p && !(s.part p).gov.lapsed && s.pwr.state == 0) = true := by
    rw [hstate, hlease, hlapsed, hpwr]; rfl
  exact if_pos hguard

theorem State.leaseExpire_not {s : State} {p : Nat}
    (h : (s.part p).state.leased = false ∨ s.pwr.state ≠ 0 ∨ (s.part p).gov.lapsed = true ∨ s.mill.now < (s.part p).gov.leaseExpiry) :
    s.leaseExpire p = s := by
  have hguard : ¬ ((s.part p).state.leased && s.leaseLapsed p && !(s.part p).gov.lapsed && s.pwr.state == 0) = true := by
    simp only [Bool.and_eq_true, Bool.not_eq_true', beq_iff_eq, State.leaseLapsed, decide_eq_true_eq]
    rintro ⟨⟨⟨hstate, hdue⟩, hlapsed⟩, hpwr⟩
    rcases h with h | h | h | h
    · rw [hstate] at h; exact absurd h nofun
    · exact h hpwr
    · rw [hlapsed] at h; exact absurd h nofun
    · exact absurd hdue (Nat.not_le.mpr h)
  exact if_neg hguard

theorem exec_hintLapse_ends {s : State} {p : Nat} {h : PowerHint} {t : Nat} (hhint : NatMap.get none s.pwr.hints p = some h)
    (hlapse : h.lapse = some t) (hdue : t ≤ s.mill.now) : exec (.hintLapse p) s = .next (s.endHint p) := by
  refine congrArg Host.Outcome.next ?_
  unfold State.hintLapse
  rw [hhint]
  dsimp only
  rw [hlapse]
  exact if_pos hdue

theorem exec_hintLapse_holds {s : State} {p : Nat}
    (h : ∀ h t, NatMap.get none s.pwr.hints p = some h → h.lapse = some t → s.mill.now < t) : exec (.hintLapse p) s = .next s := by
  refine congrArg Host.Outcome.next ?_
  unfold State.hintLapse
  split
  next hint hhint =>
    split
    next t hlapse => exact if_neg (Nat.not_le.mpr (h _ _ hhint hlapse))
    next => rfl
  next => rfl

/-! ### Misses -/

theorem State.abandonStep_own {s : State} {p : Nat} (hs : Reads p s) (hstate : (s.part p).state = .running) (blame : Nat) :
    ∃ g b, (s.abandonStep p blame).part p = { s.part p with gov := g } ∧ Gov.Worked { (s.part p).gov with byDeadline := b } g := by
  unfold State.abandonStep
  dsimp only
  split
  · exact ⟨_, _, rfl, .refl _⟩
  · split
    · obtain ⟨g, hg, -, hwork⟩ := State.brakeDeadline_own hs (.inl hstate) blame
      exact ⟨g, true, (State.raise_part ..).trans hg, hwork⟩
    · obtain ⟨g, hg, hwork⟩ := ((s.abandonWork_worksOn p false).trans (State.weirAbort_worksOn _ p blame)).own hs (by rw [hstate]; nofun)
      exact ⟨g, _, hg, hwork⟩

theorem State.abandonStep_other {s : State} {p q : Nat} (hs : Reads p s) (hq : q ≠ p) (blame : Nat) :
    (s.abandonStep p blame).part q = s.part q := by
  unfold State.abandonStep
  dsimp only
  split
  · rfl
  · split
    · rw [State.raise_part, (State.brakeStep_worksOn _ p blame).other (hs.modGov _) q hq, hs.part_modGov, if_neg hq]
    · exact ((s.abandonWork_worksOn p false).trans (State.weirAbort_worksOn _ p blame)).other hs q hq

/-- An abandoned step is abandoned in its Governor; it stays at its step, and its commit point is not passed. -/
theorem State.abandonStep_aborts {s : State} {p : Nat} (hs : Reads p s) (hstate : (s.part p).state = .running)
    (hcommitted : (s.part p).gov.committed = false) (hbraking : (s.part p).gov.braking = false) (hawaits : (s.weir p).awaitsCommit = false)
    (blame : Nat) : ∃ g, (s.abandonStep p blame).part p = { s.part p with gov := g } ∧ g.aborted = true ∧ g.step = (s.part p).gov.step ∧
      (s.part p).gov.Worked g := by
  unfold State.abandonStep
  dsimp only
  split
  next h =>
    have haborted : (s.part p).gov.aborted = true := by
      simpa [hstate, hcommitted, hbraking] using h
    exact ⟨_, rfl, haborted, rfl, .refl _⟩
  next h =>
    rw [hawaits, if_neg Bool.false_ne_true]
    have hu := hs.abandonWork_part p false
    rw [if_pos rfl] at hu
    obtain ⟨r, hr⟩ := Gov.endEntries_runs { (s.part p).gov with aborted := true } false
    rw [hr] at hu
    have hreads := (s.abandonWork_worksOn p false).reads hs
    obtain ⟨g, hg, hwork⟩ := (State.weirAbort_worksOn (s.abandonWork p false) p blame).own hreads (by rw [hu, hstate]; nofun)
    obtain ⟨haborted, hstep, -⟩ := hwork.aborted (by rw [hu])
    obtain ⟨g', hg', hwork'⟩ := ((s.abandonWork_worksOn p false).trans (State.weirAbort_worksOn _ p blame)).own hs (by rw [hstate]; nofun)
    rw [hg] at hg'
    obtain rfl : g = g' := congrArg Part.gov hg'
    exact ⟨g, by rw [hg, hu], haborted, by rw [hstep, hu], hwork'⟩

/-- What one recorded miss makes of a Governor. -/
def Gov.missed (g : Gov) (beat at_ eff : Nat) (demoted : Bool) (m : Miss) : Gov :=
  let g := { g with missBeat := beat, beatMisses := [m.key], missBefore := g.lastMiss }
  { g.setRun m.key { g.run m.key with missed := true } with
    missCount := min (g.missCount + 1) 0xFFFFFFFF
    lastMiss := { late := 0xFFFFFFF, implicit := m.implicit, demoted := demoted && m.policy == 1, policy := eff
                  kind := ((g.tt.entries[m.key % 4096]?).map (·.kind)).getD 0, entry := m.key % 4096 }
    missRef := some (m.key, at_) }

/-- The state in which one miss has been recorded. -/
def State.missRecorded (s : State) (p at_ eff : Nat) (demoted : Bool) (m : Miss) : State :=
  (s.modGov p fun g => { g with missBeat := at_ / 64, beatMisses := [m.key], missBefore := g.lastMiss }).recordMiss p at_ eff demoted m

theorem State.missRecorded_part {s : State} {p : Nat} (hs : Reads p s) (at_ eff : Nat) (demoted : Bool) (m : Miss) (q : Nat) :
    (s.missRecorded p at_ eff demoted m).part q =
      if q = p then { s.part p with gov := (s.part p).gov.missed (at_ / 64) at_ eff demoted m } else s.part q := by
  unfold State.missRecorded State.recordMiss
  dsimp only
  rw [State.raise_part, (hs.modGov _).part_modGov, hs.part_modGov, if_pos rfl]
  split
  · rfl
  next hq => exact (hs.part_modGov _ q).trans (if_neg hq)

theorem State.missRecorded_rest (s : State) (p at_ eff : Nat) (demoted : Bool) (m : Miss) :
    { s.missRecorded p at_ eff demoted m with parts := s.parts, ras := s.ras, board := s.board, sec := s.sec, ports := s.ports, out := s.out } = s := by
  unfold State.missRecorded State.recordMiss
  dsimp only
  rw [State.raise_only]
  rfl

theorem State.missRecorded_weir (s : State) (p at_ eff : Nat) (demoted : Bool) (m : Miss) :
    (s.missRecorded p at_ eff demoted m).weir p = s.weir p :=
  (congrArg (fun u : State => u.weir p) (s.missRecorded_rest p at_ eff demoted m) :)

/-- One miss of a policy: recorded, and then its policy's work. -/
theorem State.takeMisses_single (s : State) (p at_ : Nat) (m : Miss) :
    s.takeMisses p at_ [m] =
      let demoted := m.policy == 1 && (s.part p).gov.committed
      let eff := if demoted then 0 else m.policy
      let u := s.missRecorded p at_ eff demoted m
      match eff with
      | 2 =>
        if (s.part p).gov.committed && !u.flipsDone p then u.modGov p fun g => { g with byDeadline := true, brakeAfterCommit := true }
        else u.brakeDeadline p (s.missBlame p [m])
      | 1 => u.abandonStep p (s.missBlame p [m])
      | _ => u := by
  have hstrong : [m].foldl (fun a m => max a m.policy) 0 = m.policy := Nat.zero_max _
  unfold State.takeMisses
  dsimp only
  rw [if_neg (by exact Bool.false_ne_true), hstrong]
  rfl

/-- Whatever its policy, a miss counts, is named, and leaves its partition RUNNING and every other alone. -/
theorem State.takeMisses_single_own {s : State} {p : Nat} (hs : Reads p s) (hstate : (s.part p).state = .running) (at_ : Nat) (m : Miss) :
    ∃ g b, (s.takeMisses p at_ [m]).part p = { s.part p with gov := g } ∧
      Gov.Worked { (s.part p).gov.missed (at_ / 64) at_ (if m.policy == 1 && (s.part p).gov.committed then 0 else m.policy)
        (m.policy == 1 && (s.part p).gov.committed) m with byDeadline := b } g := by
  rw [State.takeMisses_single]
  dsimp only
  generalize (m.policy == 1 && (s.part p).gov.committed) = demoted
  generalize (if demoted = true then 0 else m.policy) = eff
  have hu := State.missRecorded_part hs at_ eff demoted m p
  rw [if_pos rfl] at hu
  have hreads : Reads p (s.missRecorded p at_ eff demoted m) := .inr (by rw [hu, hstate]; nofun)
  generalize s.missRecorded p at_ eff demoted m = u at hu hreads ⊢
  generalize (s.part p).gov.missed (at_ / 64) at_ eff demoted m = g at hu ⊢
  have hrunning : (u.part p).state = .running := by rw [hu]; exact hstate
  split
  · split
    · refine ⟨{ g with byDeadline := true, brakeAfterCommit := true }, true, ?_, ⟨⟨_, _, _, _, _, _, _, rfl⟩, fun h => ⟨h, rfl⟩, fun h => ⟨h, rfl, rfl⟩⟩⟩
      rw [hreads.part_modGov, if_pos rfl, hu]
    · obtain ⟨g', hg', -, hwork⟩ := State.brakeDeadline_own hreads (.inl hrunning) (s.missBlame p [m])
      rw [hu] at hg' hwork
      exact ⟨g', true, hg', hwork⟩
  · obtain ⟨g', b, hg', hwork⟩ := State.abandonStep_own hreads hrunning (s.missBlame p [m])
    rw [hu] at hg' hwork
    exact ⟨g', b, hg', hwork⟩
  · exact ⟨g, _, hu, .refl _⟩

theorem State.takeMisses_single_other {s : State} {p q : Nat} (hs : Reads p s) (hstate : (s.part p).state = .running) (at_ : Nat) (m : Miss)
    (hq : q ≠ p) : (s.takeMisses p at_ [m]).part q = s.part q := by
  rw [State.takeMisses_single]
  dsimp only
  generalize (m.policy == 1 && (s.part p).gov.committed) = demoted
  generalize (if demoted = true then 0 else m.policy) = eff
  have hown := State.missRecorded_part hs at_ eff demoted m p
  rw [if_pos rfl] at hown
  have hreads : Reads p (s.missRecorded p at_ eff demoted m) := .inr (by rw [hown, hstate]; nofun)
  have hu := State.missRecorded_part hs at_ eff demoted m q
  rw [if_neg hq] at hu
  rw [← hu]
  split
  · split
    · rw [hreads.part_modGov, if_neg hq]
    · unfold State.brakeDeadline
      rw [(State.brakeStep_worksOn _ p _).other (hreads.modGov _) q hq, hreads.part_modGov, if_neg hq]
  · exact State.abandonStep_other hreads hq _
  · rfl

/-- A miss that lets the step go on is recorded, and nothing else. -/
theorem State.takeMisses_report (s : State) (p at_ k : Nat) (implicit : Bool) :
    s.takeMisses p at_ [⟨k, 0, implicit⟩] = s.missRecorded p at_ 0 false ⟨k, 0, implicit⟩ := s.takeMisses_single p at_ _

theorem State.takeMisses_abort {s : State} {p : Nat} (hcommitted : (s.part p).gov.committed = false) (at_ k : Nat) (implicit : Bool) :
    s.takeMisses p at_ [⟨k, 1, implicit⟩] =
      (s.missRecorded p at_ 1 false ⟨k, 1, implicit⟩).abandonStep p (s.missBlame p [⟨k, 1, implicit⟩]) := by
  rw [State.takeMisses_single, hcommitted]
  rfl

theorem State.takeMisses_brake {s : State} {p : Nat} (hcommitted : (s.part p).gov.committed = false) (at_ k : Nat) (implicit : Bool) :
    s.takeMisses p at_ [⟨k, 2, implicit⟩] =
      (s.missRecorded p at_ 2 false ⟨k, 2, implicit⟩).brakeDeadline p (s.missBlame p [⟨k, 2, implicit⟩]) := by
  rw [State.takeMisses_single, hcommitted]
  rfl

theorem exec_deadlineMiss {s : State} {p i k : Nat} (hstate : (s.part p).state = .running) (hbraking : (s.part p).gov.braking = false)
    (hopen : ((s.part p).gov.openKeys.filter fun k => k % 4096 == i && decide ((s.part p).gov.missAt k ≤ s.mill.now)).head? = some k) :
    exec (.deadlineMiss p i) s = .next (s.takeMisses p ((s.part p).gov.missAt k) ((s.part p).gov.missesAt ((s.part p).gov.missAt k))) := by
  refine congrArg Host.Outcome.next ?_
  unfold State.deadlineMiss
  dsimp only
  rw [if_pos ⟨hstate, by rw [hbraking]; rfl⟩, State.now, hopen]

/-- What one miss leaves, by its policy. -/
theorem State.takeMisses_single_outcome {s : State} {p : Nat} (hs : s.Canon) (hstate : (s.part p).state = .running)
    (hbraking : (s.part p).gov.braking = false) (at_ k policy : Nat) (implicit : Bool) :
    let t := s.takeMisses p at_ [⟨k, policy, implicit⟩]
    (t.part p).gov.missCount = min ((s.part p).gov.missCount + 1) 0xFFFFFFFF ∧ (t.part p).gov.lastMiss.entry = k % 4096 ∧
    (t.part p).gov.lastMiss.implicit = implicit ∧ (t.part p).state = .running ∧ (∀ q, q ≠ p → t.part q = s.part q) ∧
    (policy = 0 → (t.part p).gov.aborted = (s.part p).gov.aborted ∧ (t.part p).gov.lastMiss.policy = 0 ∧
      { t with parts := s.parts, ras := s.ras, board := s.board, sec := s.sec, ports := s.ports, out := s.out } = s) ∧
    (policy = 1 → (s.part p).gov.committed = false → (s.weir p).awaitsCommit = false →
      (t.part p).gov.aborted = true ∧ (t.part p).gov.lastMiss.policy = 1) ∧
    (policy = 2 → (s.part p).gov.committed = false →
      (t.part p).gov.byDeadline = true ∧ (t.part p).gov.braking = true ∧ (t.part p).gov.lastMiss.policy = 2) := by
  intro t
  have hreads := Reads.of_canon hs p
  obtain ⟨g, b, hg, hwork⟩ := State.takeMisses_single_own hreads hstate at_ ⟨k, policy, implicit⟩
  have hkept : g.missCount = min ((s.part p).gov.missCount + 1) 0xFFFFFFFF ∧ g.lastMiss.entry = k % 4096 ∧ g.lastMiss.implicit = implicit := by
    obtain ⟨_, _, _, _, _, _, _, rfl⟩ := hwork.kept
    exact ⟨rfl, rfl, rfl⟩
  have hu : ∀ eff, (s.missRecorded p at_ eff false ⟨k, policy, implicit⟩).part p =
      { s.part p with gov := (s.part p).gov.missed (at_ / 64) at_ eff false ⟨k, policy, implicit⟩ } := fun eff =>
    (State.missRecorded_part hreads at_ eff false _ p).trans (if_pos rfl)
  have hru : ∀ eff, Reads p (s.missRecorded p at_ eff false ⟨k, policy, implicit⟩) := fun eff => .inr (by rw [hu, hstate]; nofun)
  refine ⟨by rw [hg]; exact hkept.1, by rw [hg]; exact hkept.2.1, by rw [hg]; exact hkept.2.2, by rw [hg]; exact hstate,
    fun q hq => State.takeMisses_single_other hreads hstate at_ _ hq, ?_, ?_, ?_⟩
  · rintro rfl
    rw [show t = _ from s.takeMisses_report p at_ k implicit, hu]
    exact ⟨rfl, rfl, s.missRecorded_rest p at_ 0 false _⟩
  · rintro rfl hcommitted hawaits
    rw [show t = _ from State.takeMisses_abort hcommitted at_ k implicit]
    obtain ⟨g', hg', haborted, -, hwork'⟩ := State.abandonStep_aborts (hru 1) (by rw [hu]; exact hstate) (by rw [hu]; exact hcommitted)
      (by rw [hu]; exact hbraking) (by rw [State.missRecorded_weir]; exact hawaits) (s.missBlame p [⟨k, 1, implicit⟩])
    rw [hg']
    refine ⟨haborted, ?_⟩
    rw [hu] at hwork'
    obtain ⟨_, _, _, _, _, _, _, rfl⟩ := hwork'.kept
    rfl
  · rintro rfl hcommitted
    rw [show t = _ from State.takeMisses_brake hcommitted at_ k implicit]
    obtain ⟨g', hg', hbraked, hwork'⟩ := State.brakeDeadline_own (hru 2) (.inl (by rw [hu]; exact hstate)) (s.missBlame p [⟨k, 2, implicit⟩])
    rw [hg']
    rw [hu] at hwork'
    have hlast : g'.byDeadline = true ∧ g'.lastMiss.policy = 2 := by
      obtain ⟨_, _, _, _, _, _, _, rfl⟩ := hwork'.kept
      exact ⟨rfl, rfl⟩
    exact ⟨hlast.1, hbraked.braking, hlast.2⟩

/-! ### GOV_CMD -/

/-- A command on the partition that its requester has selected. -/
theorem State.onPart_selected {s : State} {rq : Req} {a p : Nat} (hmay : s.mayP rq a = true) (hp : (s.sel rq).part? = some p)
    (f : Nat → State → State) : s.onPart rq a f = f p s := by
  unfold State.onPart
  rw [if_pos hmay, hp]

theorem State.part_govStatus {s : State} (hs : s.Canon) (p st q : Nat) : (s.govStatus p st).part q =
    if q = p then { s.part p with gov := { (s.part p).gov with cmdStatus := st } } else s.part q :=
  State.part_modGov hs p q fun g => { g with cmdStatus := st }

theorem State.halt_own {s : State} (hs : s.Canon) {p : Nat} (hstate : (s.part p).state = .running) :
    let t := s.halt p
    (t.part p).gov.byHalt = true ∧ (t.part p).gov.braking = true ∧ ((s.part p).gov.braking = false → (t.part p).gov.brakeAt = s.mill.now) ∧
      (t.part p).gov.cmdStatus = 0 := by
  intro t
  have ht : t = (s.govStatus p 0).brakeBy p .halt := if_neg (not_not_intro hstate)
  have hu := State.part_govStatus hs p 0 p
  rw [if_pos rfl] at hu
  have hcanon := (s.modGov_keeps p fun g => { g with cmdStatus := 0 }).canon hs
  obtain ⟨g, hg, hbraked⟩ := State.brakeBy_own (s := s.govStatus p 0) (.of_canon hcanon p) (.inl (by rw [hu]; exact hstate)) .halt
  rw [ht, hg]
  rw [hu] at hbraked
  have hcauses := hbraked.causes
  simp only [Prod.mk.injEq] at hcauses
  exact ⟨hcauses.2.2.1, hbraked.braking, hbraked.brakeAt, hcauses.2.2.2.2⟩

theorem State.abort_own {s : State} (hs : s.Canon) {p : Nat} (hstate : (s.part p).state = .running) (hbraking : (s.part p).gov.braking = false)
    (hcommitted : (s.part p).gov.committed = false) (hawaits : (s.weir p).awaitsCommit = false) :
    let t := s.abort p
    (t.part p).gov.aborted = true ∧ (t.part p).gov.cmdStatus = 0 ∧ (t.part p).state = .running ∧ (t.part p).gov.step = (s.part p).gov.step := by
  intro t
  have ht : t = (s.govStatus p 0).abandonStep p 0xFF := if_neg (not_not_intro hstate)
  have hu := State.part_govStatus hs p 0 p
  rw [if_pos rfl] at hu
  have hcanon := (s.modGov_keeps p fun g => { g with cmdStatus := 0 }).canon hs
  obtain ⟨g, hg, haborted, hstep, hwork⟩ := State.abandonStep_aborts (s := s.govStatus p 0) (.of_canon hcanon p) (by rw [hu]; exact hstate)
    (by rw [hu]; exact hcommitted) (by rw [hu]; exact hbraking) hawaits 0xFF
  rw [ht, hg]
  rw [hu] at hstep hwork ⊢
  refine ⟨haborted, ?_, hstate, hstep⟩
  obtain ⟨_, _, _, _, _, _, _, rfl⟩ := hwork.kept
  rfl

/-- ABORT behind the commit point, of an abandoned step, or under a brake does nothing. -/
theorem State.abort_late {s : State} (hs : s.Canon) {p : Nat} (hstate : (s.part p).state = .running)
    (h : (s.part p).gov.braking = true ∨ (s.part p).gov.committed = true ∨ (s.part p).gov.aborted = true) : s.abort p = s.govStatus p 0 := by
  have ht : s.abort p = (s.govStatus p 0).abandonStep p 0xFF := if_neg (not_not_intro hstate)
  have hu := State.part_govStatus hs p 0 p
  rw [if_pos rfl] at hu
  rw [ht]
  refine if_pos ?_
  rw [hu]
  exact .inr (by rcases h with h | h | h <;> simp [h])

theorem State.foldGroups_rest (s : State) (p : Nat) (f : LagGroup → LagGroup) (q : NatMap Quern) :
    { s.foldGroups p f with querns := q } = { s with querns := q } :=
  foldl_same (fun u : State => ({ u with querns := q } : State)) (by intro _ _; rfl) _ s

theorem State.brakeComplete_own {s : State} (hs : s.Canon) {p : Nat} (hstate : (s.part p).state = .armed ∨ (s.part p).state = .running)
    (hbraking : (s.part p).gov.braking = true) (hdone : s.brakeDone p = true) :
    let t := s.brakeComplete p
    (t.part p).state = .braked ∧ (t.part p).gov.braking = false ∧ { t with parts := s.parts, querns := s.querns } = s := by
  intro t
  have hguard : (((s.part p).state == .armed || (s.part p).state == .running) && (s.part p).gov.braking && s.brakeDone p) = true := by
    simp [hstate, hbraking, hdone]
  obtain ⟨u, hu, ht⟩ : ∃ u : State, u = s.modPart p (fun v => { v with state := .braked, gov := { v.gov with braking := false } }) ∧
      t = u.foldGroups p fun g => g.dropRefs.settle := ⟨_, rfl, if_pos hguard⟩
  have hrest := u.foldGroups_rest p (fun g => g.dropRefs.settle) s.querns
  have hpart : t.part p = { s.part p with state := .braked, gov := { (s.part p).gov with braking := false } } := by
    have hparts : t.parts = u.parts := by rw [ht]; exact (congrArg State.parts hrest :)
    rw [State.part, hparts, hu]
    exact (State.part_modPart hs p p _).trans (if_pos rfl)
  refine ⟨by rw [hpart], by rw [hpart], ?_⟩
  rw [ht, show ({ u.foldGroups p (fun g => g.dropRefs.settle) with parts := s.parts, querns := s.querns } : State) =
    { u with parts := s.parts, querns := s.querns } from congrArg (fun x : State => ({ x with parts := s.parts } : State)) hrest, hu]
  rfl

/-- What a BRAKED partition that runs again becomes. -/
def Part.entersRunning (v : Part) (now : Nat) : Part :=
  { v with
    state := .running
    gov := { v.gov with
      braking := false, byDeadline := false, byHalt := false, byPin := false, byLease := false
      abortStreak := 0, released := true
      nextRev := if now + 64 ≤ v.gov.t0 then 0 else (now + 64 - v.gov.t0 + 64 * max v.gov.tt.period 1 - 1) / (64 * max v.gov.tt.period 1)
      runs := [], missRef := none, brakeAfterCommit := false } }

theorem State.enterRunning_eq (s : State) (p : Nat) : ∃ cs ts,
    s.enterRunning p = { s.modPart p (·.entersRunning s.now) with clusters := cs, tiles := ts } := by
  unfold State.enterRunning
  extract_lets -lift +onlyGivenNames g per n u v
  have hv := foldl_same (fun x : State => ({ x with clusters := [] } : State)) (f := fun s c => s.modCluster c fun x => { x with extInt := false })
    (by intro _ _; rfl) (u.partClusters p) u
  have hw := foldl_same (fun x : State => ({ x with tiles := [] } : State)) (f := fun s t => s.modTile t fun x => { x.freeGroups with halted := false })
    (by intro _ _; rfl) (v.partTiles p) v
  generalize (v.partTiles p).foldl (fun s t => s.modTile t fun x => { x.freeGroups with halted := false }) v = w at hw ⊢
  have hall : ({ w with clusters := [], tiles := [] } : State) = { u with clusters := [], tiles := [] } :=
    (congrArg (fun x : State => ({ x with clusters := [] } : State)) hw).trans (congrArg (fun x : State => ({ x with tiles := [] } : State)) hv)
  exact ⟨w.clusters, w.tiles, (congrArg (fun x : State => ({ x with clusters := w.clusters, tiles := w.tiles } : State)) hall :)⟩

theorem State.release_runs {s : State} {p : Nat} (hstate : (s.part p).state = .braked) (hpin : s.mill.brakeLow = false)
    (hlease : s.mill.now < (s.part p).gov.leaseExpiry) (hrebind : (s.part p).rebind.inProgress = false) :
    s.release p = match (s.weir p).commitEntry with
      | some e => if (s.weir p).awaitsCommit then (s.govStatus p 0).askOutcome p e else (s.govStatus p 0).enterRunning p
      | none => (s.govStatus p 0).enterRunning p := by
  have hnot : s.leaseLapsed p = false := decide_eq_false (Nat.not_le.mpr hlease)
  unfold State.release
  dsimp only
  rw [if_neg (not_not_intro hstate), hpin, if_neg Bool.false_ne_true, hnot, if_neg Bool.false_ne_true, hrebind, if_neg Bool.false_ne_true]
  rfl

theorem State.release_enters {s : State} (hs : s.Canon) {p : Nat} (hstate : (s.part p).state = .braked) (hpin : s.mill.brakeLow = false)
    (hlease : s.mill.now < (s.part p).gov.leaseExpiry) (hrebind : (s.part p).rebind.inProgress = false)
    (hawaits : (s.weir p).awaitsCommit = false) :
    let t := s.release p
    (t.part p).state = .running ∧ (t.part p).gov.cmdStatus = 0 ∧ (t.part p).gov.byLease = false ∧ (t.part p).gov.byPin = false ∧
      (t.part p).gov.byHalt = false ∧ (t.part p).gov.byDeadline = false ∧
      { t with parts := s.parts, clusters := s.clusters, tiles := s.tiles } = s := by
  intro t
  have ht : t = (s.govStatus p 0).enterRunning p := by
    rw [show t = _ from State.release_runs hstate hpin hlease hrebind, hawaits]
    cases (s.weir p).commitEntry <;> rfl
  obtain ⟨cs, ts, hrun⟩ := (s.govStatus p 0).enterRunning_eq p
  have hcanon := (s.modGov_keeps p fun g => { g with cmdStatus := 0 }).canon hs
  have hu := State.part_govStatus hs p 0 p
  rw [if_pos rfl] at hu
  have hpart : t.part p = Part.entersRunning { s.part p with gov := { (s.part p).gov with cmdStatus := 0 } } s.now := by
    rw [ht, hrun, ← hu]
    exact (State.part_modPart (s := s.govStatus p 0) hcanon p p (·.entersRunning s.now)).trans (if_pos rfl)
  rw [hpart, ht, hrun]
  exact ⟨rfl, rfl, rfl, rfl, rfl, rfl, rfl⟩

theorem State.release_refused {s : State} {p : Nat} (hstate : (s.part p).state = .braked) :
    (s.mill.brakeLow = true → s.release p = s.govStatus p 2) ∧
    (s.mill.brakeLow = false → (s.part p).gov.leaseExpiry ≤ s.mill.now → s.release p = s.govStatus p 3) ∧
    (s.mill.brakeLow = false → s.mill.now < (s.part p).gov.leaseExpiry → (s.part p).rebind.inProgress = true → s.release p = s.govStatus p 4) := by
  have hgo : ∀ {b}, s.mill.brakeLow = b → s.release p = if b then s.govStatus p 2 else if s.leaseLapsed p then s.govStatus p 3
      else if (s.part p).rebind.inProgress then s.govStatus p 4 else s.release p := by
    rintro b rfl
    conv_lhs => unfold State.release
    dsimp only
    rw [if_neg (not_not_intro hstate)]
    split
    · rfl
    · split
      · rfl
      · split
        · rfl
        next hb hl hr =>
          unfold State.release
          dsimp only
          rw [if_neg (not_not_intro hstate), if_neg hb, if_neg hl, if_neg hr]
  refine ⟨fun h => hgo h, fun h hl => (hgo h).trans ?_, fun h hl hr => (hgo h).trans ?_⟩
  · rw [if_neg Bool.false_ne_true, show s.leaseLapsed p = true from decide_eq_true hl, if_pos rfl]
  · rw [if_neg Bool.false_ne_true, show s.leaseLapsed p = false from decide_eq_false (Nat.not_le.mpr hl), if_neg Bool.false_ne_true, hr, if_pos rfl]

/-- Settles O22. Each instant and command goes by the branches of its operation; misses by their policy (`State.takeMisses_single_outcome`), brakes by
`State.brakeBy_own`. -/
theorem governorInstantsAndCommandsTakeEffect : Obligations.GovernorInstantsAndCommandsTakeEffect := by
  refine ⟨fun s p i hs => ⟨⟨fun k r e hrun hentry => exec_windowClose_open hrun hentry, exec_windowClose_shut⟩, ⟨fun hpwr hlapsed hdue => ?_, fun h => ?_⟩,
      ⟨fun h t => exec_hintLapse_ends, exec_hintLapse_holds⟩, fun k hstate hbraking hopen => ⟨exec_deadlineMiss hstate hbraking hopen,
        fun policy implicit hmiss _ => ?_⟩⟩, fun s rq p hs hmay hp => ?_⟩
  · refine ⟨fun hstate => congrArg Host.Outcome.next ?_, fun hstate => congrArg Host.Outcome.next ?_, fun hstate => congrArg Host.Outcome.next ?_⟩
    · rw [State.leaseExpire_lapses hpwr hlapsed hdue (by rcases hstate with h | h | h <;> rw [h] <;> rfl)]
      exact if_neg (by rcases hstate with h | h | h <;> rw [h] <;> decide)
    · rw [State.leaseExpire_lapses hpwr hlapsed hdue (by rcases hstate with h | h <;> rw [h] <;> rfl)]
      exact if_pos hstate
    · exact State.leaseExpire_not (.inl (by rcases hstate with h | h | h <;> rw [h] <;> rfl))
  · exact congrArg Host.Outcome.next (State.leaseExpire_not (.inr h))
  · refine ⟨_, (exec_deadlineMiss hstate hbraking hopen).trans (by rw [hmiss]), State.takeMisses_single_outcome hs hstate hbraking _ k policy implicit⟩
  · have hhalt : exec (.halt rq) s = .next (s.halt p) := congrArg Host.Outcome.next (State.onPart_selected hmay hp _)
    have habort : exec (.abort rq) s = .next (s.abort p) := congrArg Host.Outcome.next (State.onPart_selected hmay hp _)
    have hrelease : exec (.release rq) s = .next (s.release p) := congrArg Host.Outcome.next (State.onPart_selected hmay hp _)
    refine ⟨fun hstate => ⟨⟨_, hhalt, State.halt_own hs hstate⟩, fun hbraking hcommitted _ hawaits =>
          ⟨_, habort, State.abort_own hs hstate hbraking hcommitted hawaits⟩,
          fun h => habort.trans (congrArg Host.Outcome.next (State.abort_late hs hstate h))⟩,
      fun hstate => ⟨hhalt.trans (congrArg Host.Outcome.next (if_pos hstate)), habort.trans (congrArg Host.Outcome.next (if_pos hstate))⟩,
      fun hstate hbraking hdone => ⟨_, rfl, State.brakeComplete_own hs hstate hbraking hdone⟩,
      fun hstate => hrelease.trans (congrArg Host.Outcome.next (if_pos hstate)), fun hstate => ?_⟩
    obtain ⟨hpin, hlapsed, hrebind⟩ := State.release_refused hstate
    refine ⟨fun h => hrelease.trans (congrArg Host.Outcome.next (hpin h)), fun h hl => hrelease.trans (congrArg Host.Outcome.next (hlapsed h hl)),
      fun h hl hr => hrelease.trans (congrArg Host.Outcome.next (hrebind h hl hr)), fun h hl hr => ⟨fun hawaits =>
        ⟨_, hrelease, State.release_enters hs hstate h hl hr hawaits⟩, fun e hawaits hentry => ?_⟩⟩
    refine hrelease.trans (congrArg Host.Outcome.next ((State.release_runs hstate h hl hr).trans ?_))
    rw [hentry, hawaits]
    rfl

end Sys2Proof.Machine

/-! PROOFS. O23: the stores of a control core that send TOPs (R74, R85, R91). -/
namespace Sys2Proof.Machine
open Sys2Proof

/-! ### Delivery -/

/-- A TOP that is sent to a tile: one that drops it counts it, another queues it. -/
def Tile.receives (x : Tile) (top : Top) : Tile :=
  if x.drops then { x with dropped := min (x.dropped + 1) 0xFFFF, dropRaised := true } else { x with queue := x.queue ++ [top] }

theorem Tile.receives_drops {x : Tile} (h : x.drops = true) (top : Top) :
    x.receives top = { x with dropped := min (x.dropped + 1) 0xFFFF, dropRaised := true } := if_pos h

theorem Tile.receives_takes {x : Tile} (h : x.drops = false) (top : Top) : x.receives top = { x with queue := x.queue ++ [top] } :=
  if_neg (by rw [h]; exact Bool.false_ne_true)

theorem State.deliver_tile {s : State} (hs : s.Canon) (top : Top) (t n : Nat) :
    (s.deliver top t).tile n = if n = t then (s.tile t).receives top else s.tile n := by
  have hset : ∀ x, (s.setTile t x).tile n = if n = t then x else s.tile n := s.tile_setTile hs.tab.tiles t n
  unfold State.deliver Tile.receives
  dsimp only
  split
  · split
    · exact hset _
    · rw [State.raise_tile]
      exact hset _
  · exact hset _

theorem State.deliver_takes {s : State} {t : Nat} (h : (s.tile t).drops = false) (top : Top) :
    s.deliver top t = s.setTile t { s.tile t with queue := (s.tile t).queue ++ [top] } :=
  if_neg (by rw [h]; exact Bool.false_ne_true)

theorem topTiles_nodup (c : Nat) (top : Top) : (topTiles c top).Nodup :=
  (bitsOf_nodup 8 _).map fun a b h => by simpa using h

theorem State.deliverAll_tile {s : State} (hs : s.Canon) (c : Nat) (top : Top) {n : Nat} (hn : n ∈ topTiles c top) :
    (s.deliverAll c top).tile n = (s.tile n).receives top := by
  obtain ⟨t, ht, hread, hfold⟩ := foldl_own (P := State.Canon) (rd := State.tile) (f := fun u t => u.deliver top t)
    (fun u t hu => (u.deliver_keeps top t).canon hu) (fun u t m hu hm => (State.deliver_tile hu top t m).trans (if_neg hm))
    (topTiles_nodup c top) hn hs
  rw [State.deliver_tile ht, if_pos rfl, hread] at hfold
  exact hfold

theorem State.deliverAll_other {s : State} (hs : s.Canon) (c : Nat) (top : Top) {n : Nat} (hn : n ∉ topTiles c top) :
    (s.deliverAll c top).tile n = s.tile n :=
  foldl_other (P := State.Canon) (rd := State.tile) (f := fun u t => u.deliver top t) (fun u t hu => (u.deliver_keeps top t).canon hu)
    (fun _ t m hu hm => (State.deliver_tile hu top t m).trans (if_neg hm)) hn hs

/-- What no tile drops changes the queues alone. -/
theorem State.deliverAll_rest {s : State} (hs : s.Canon) (c : Nat) (top : Top) (h : ∀ n ∈ topTiles c top, (s.tile n).drops = false)
    (ts : NatMap Tile) : { s.deliverAll c top with tiles := ts } = { s with tiles := ts } := by
  unfold State.deliverAll
  generalize topTiles c top = l at h
  induction l generalizing s with
  | nil => rfl
  | cons t l ih =>
    have ht : (s.tile t).drops = false := h t List.mem_cons_self
    rw [List.foldl_cons, ih ((s.deliver_keeps top t).canon hs), State.deliver_takes ht]
    · rfl
    · intro n hn
      rw [State.deliver_tile hs, Tile.receives_takes ht]
      split
      · exact ht
      · exact h n (List.mem_cons_of_mem _ hn)

/-! ### Stores -/

theorem exec_topLoStore {s : State} {c : Nat} (h : (s.cluster c).executes = true) (w : Word64) :
    exec (.topLoStore c w) s = .next (s.setCluster c { s.cluster c with topLo := w }) := congrArg Host.Outcome.next (if_pos h)

theorem State.topHiStore_sends {s : State} {c : Nat} {w : Word64} (h : (s.cluster c).executes = true)
    (hroom : s.queuesTake c (w ++ (s.cluster c).topLo) = true) : s.topHiStore c w = s.deliverAll c (w ++ (s.cluster c).topLo) :=
  (if_pos h).trans (if_pos hroom)

theorem State.topHiStore_stalls {s : State} {c : Nat} {w : Word64} (h : (s.cluster c).executes = true)
    (hroom : s.queuesTake c (w ++ (s.cluster c).topLo) = false) :
    s.topHiStore c w = s.setCluster c { s.cluster c with stalled := some (w ++ (s.cluster c).topLo) } :=
  (if_pos h).trans (if_neg (by rw [hroom]; exact Bool.false_ne_true))

theorem State.topEnqueue_stalled {s : State} {c : Nat} {top : Top} (h : (s.cluster c).stalled = some top) :
    s.topEnqueue c = if s.queuesTake c top then (s.deliverAll c top).modCluster c Cluster.unstall else s := by
  unfold State.topEnqueue
  rw [h]

/-- Delivery leaves the clusters. -/
theorem State.deliverAll_clusters (s : State) (c : Nat) (top : Top) : (s.deliverAll c top).clusters = s.clusters := by
  refine foldl_same State.clusters ?_ _ s
  intro u t
  unfold State.deliver
  dsimp only
  split
  · split
    · rfl
    · exact State.raise_clusters ..
  · rfl

/-- Settles O23. A TOP that is sent meets each addressed tile as it stood (`State.deliverAll_tile`). -/
theorem coreStoresSendTops : Obligations.CoreStoresSendTops := by
  intro s c w hs sent
  have hsent : ∀ top, sent s (s.deliverAll c top) top := fun top =>
    ⟨fun n hn hd => (State.deliverAll_tile hs c top hn).trans (Tile.receives_takes hd top), fun n hn hd => by
      rw [State.deliverAll_tile hs c top hn, Tile.receives_drops hd]; exact ⟨rfl, rfl⟩, fun n hn => State.deliverAll_other hs c top hn,
      fun h => State.deliverAll_rest hs c top h s.tiles⟩
  refine ⟨fun h => ⟨exec_topLoStore h w, fun hroom => congrArg Host.Outcome.next (State.topHiStore_stalls h hroom), fun hroom =>
      ⟨_, congrArg Host.Outcome.next (State.topHiStore_sends h hroom), hsent _⟩⟩, fun h => ?_, fun top h => ⟨fun hroom => ?_, fun hroom => ?_⟩, fun h => ?_⟩
  · have hno : ¬ (s.cluster c).executes = true := by rw [h]; exact Bool.false_ne_true
    exact ⟨congrArg Host.Outcome.next (if_neg hno), congrArg Host.Outcome.next (if_neg hno)⟩
  · refine congrArg Host.Outcome.next ((State.topEnqueue_stalled h).trans (if_neg ?_))
    rw [hroom]; exact Bool.false_ne_true
  · obtain ⟨hqueued, hdropped, hother, hrest⟩ := hsent top
    refine ⟨_, congrArg Host.Outcome.next ((State.topEnqueue_stalled h).trans (if_pos hroom)), hqueued, hdropped, hother, fun hall => ?_⟩
    have hcluster : (s.deliverAll c top).cluster c = s.cluster c := by
      rw [State.cluster, State.deliverAll_clusters]; rfl
    rw [State.modCluster, hcluster]
    exact (congrArg (fun u : State => u.setCluster c (s.cluster c).unstall) (hrest hall) :)
  · refine congrArg Host.Outcome.next ?_
    unfold State.topEnqueue
    rw [h]

end Sys2Proof.Machine

/-! PROOFS. Bytes of a word, and lists of cells in a memory. -/
namespace Sys2Proof.Machine
open Sys2Proof

theorem length_leBytes (n v : Nat) : (leBytes n v).length = n := by
  induction n generalizing v with
  | zero => rfl
  | succ n ih => rw [leBytes, List.length_cons, ih]

theorem ofLe_leBytes (n v : Nat) : ofLe (leBytes n v) = v % 256 ^ n := by
  induction n generalizing v with
  | zero => rw [leBytes, ofLe, Nat.pow_zero, Nat.mod_one]
  | succ n ih =>
    rw [leBytes, ofLe, ih, BitVec.toNat_ofNat, pow_succ' 256 n, show 2 ^ 8 = 256 from rfl, Nat.mod_mul]

theorem ofLe_leBytes_word (w : Word64) : BitVec.ofNat 64 (ofLe (leBytes 8 w.toNat)) = w := by
  rw [ofLe_leBytes, Nat.mod_eq_of_lt (lt_of_lt_of_eq w.isLt (by norm_num)), BitVec.ofNat_toNat, BitVec.setWidth_eq]

/-- What a list that is written reads back. -/
theorem NatMap.get_setList {α : Type} [DecidableEq α] {d : α} {m : NatMap α} (h : NatMap.wf d m = true) (n : Nat) (l : List α) {i : Nat}
    (hi : i < l.length) : NatMap.get d (NatMap.setList d m n l) (n + i) = l[i] := by
  induction l generalizing m n i with
  | nil => exact absurd hi (Nat.not_lt_zero _)
  | cons v t ih =>
    rw [NatMap.setList]
    cases i with
    | zero =>
      show NatMap.get d _ n = v
      rw [NatMap.get_setList_other (NatMap.wf_set n v h) (n + 1) n t (.inl (Nat.lt_succ_self n)), NatMap.get_set h, if_pos rfl]
    | succ i =>
      have hi' : i < t.length := Nat.lt_of_succ_lt_succ hi
      rw [show n + (i + 1) = n + 1 + i by omega, ih (NatMap.wf_set n v h) (n + 1) hi']
      rfl

theorem NatMap.getList_setList {α : Type} [DecidableEq α] {d : α} {m : NatMap α} (h : NatMap.wf d m = true) (n : Nat) (l : List α) :
    NatMap.getList d (NatMap.setList d m n l) n l.length = l := by
  refine List.ext_getElem (by simp [NatMap.getList]) fun i h1 h2 => ?_
  simp only [NatMap.getList, List.getElem_map, List.getElem_range]
  exact NatMap.get_setList h n l h2

end Sys2Proof.Machine

/-! PROOFS. O24: control cores (R73, R88, R91, Table 03.5). -/
namespace Sys2Proof.Machine
open Sys2Proof

/-! ### Traps, HALT and RESUME -/

theorem State.coreTrap_live {s : State} {c : Nat} (h : (s.cluster c).running = true ∧ (s.cluster c).halted = false ∧ (s.cluster c).trapped = false)
    (cause : Nat) (pc : Word64) : s.coreTrap c cause pc = (s.setCluster c { s.cluster c with
      running := false, trapped := true, cause := cause % 65536, pc := pc, stalled := none, haltAt := none
      halted := (s.cluster c).haltAt.isSome }).raise
        { code := 0x0206, loc := s.locCluster c 7, severity := 0, addr := some pc.toNat } := by
  obtain ⟨hrunning, hhalted, htrapped⟩ := h
  refine (if_pos (by rw [hrunning, hhalted, htrapped]; rfl)).trans ?_
  unfold Cluster.unstall
  rw [hhalted, Bool.false_or]

theorem State.coreTrap_dead {s : State} {c : Nat}
    (h : ¬ ((s.cluster c).running = true ∧ (s.cluster c).halted = false ∧ (s.cluster c).trapped = false)) (cause : Nat) (pc : Word64) :
    s.coreTrap c cause pc = s := by
  refine if_neg fun hlive => h ?_
  simpa only [Bool.and_eq_true, Bool.not_eq_true', and_assoc] using hlive

theorem State.onCore_selected {s : State} {rq : Req} (hmay : s.mayP rq 0x60038 = true) (htile : (s.sel rq).tile < 512) (f : Nat → State → State) :
    s.onCore rq f = f ((s.sel rq).tile / 8) s := if_pos (by rw [hmay, decide_eq_true htile]; rfl)

theorem State.onCore_refused {s : State} {rq : Req} (h : s.mayP rq 0x60038 = false ∨ 512 ≤ (s.sel rq).tile) (f : Nat → State → State) :
    s.onCore rq f = s := by
  refine if_neg ?_
  rw [Bool.and_eq_true, decide_eq_true_eq]
  rintro ⟨hmay, htile⟩
  rcases h with h | h
  · rw [hmay] at h; exact absurd h nofun
  · exact absurd htile (Nat.not_lt.mpr h)

theorem State.coreHalt_unstalled {s : State} {c : Nat} (h : (s.cluster c).stalled = none) (pc : Word64) :
    s.coreHalt c pc = s.setCluster c { s.cluster c with
      halted := true, pc := if (s.cluster c).running && !(s.cluster c).halted && !(s.cluster c).trapped then pc else (s.cluster c).pc } :=
  congrArg (s.setCluster c) (if_neg (by rw [h]; exact Bool.false_ne_true))

theorem State.coreHalt_stalled {s : State} {c : Nat} (h : (s.cluster c).stalled ≠ none) (pc : Word64) :
    s.coreHalt c pc = s.setCluster c { s.cluster c with haltAt := some pc } :=
  congrArg (s.setCluster c) (if_pos (Option.isSome_iff_ne_none.mpr h))

/-! ### The RESUME store -/

/-- A halted tile that runs again. -/
def Tile.resumes (x : Tile) : Tile := { x with halted := false, quarCause := if x.quarCause = .ecc then .none else x.quarCause }

/-- The tiles of a cluster that a RESUME store names run again. -/
def State.resumeTiles (s : State) (c mask : Nat) : State := (bitsOf 8 mask).foldl (fun s j => s.modTile (8 * c + j) Tile.resumes) s

theorem State.resumeStore_runs {s : State} {c : Nat} (h : (s.cluster c).executes = true) (mask : Nat) :
    s.resumeStore c mask = (s.resumeTiles c mask).modCluster c fun x =>
      { x with extInt := x.extInt && (List.range 8).any fun j => ((s.resumeTiles c mask).tile (8 * c + j)).halted } := if_pos h

theorem State.resumeTile_keeps (s : State) (n : Nat) : Keeps s (s.modTile n Tile.resumes) := s.modTile_keeps n _ fun _ h => ⟨h.1, h.2⟩

theorem State.resumeTiles_tile {s : State} (hs : s.Canon) (c mask : Nat) {j : Nat} (hj : j < 8) :
    (s.resumeTiles c mask).tile (8 * c + j) = if bit mask j then (s.tile (8 * c + j)).resumes else s.tile (8 * c + j) := by
  have hread : ∀ (u : State) (i k : Nat), u.Canon →
      (u.modTile (8 * c + i) Tile.resumes).tile (8 * c + k) = if k = i then (u.tile (8 * c + i)).resumes else u.tile (8 * c + k) := fun u i k hu =>
    (u.tile_setTile hu.tab.tiles (8 * c + i) (8 * c + k) _).trans (by simp only [Nat.add_left_cancel_iff])
  have hP : ∀ (u : State) (i : Nat), u.Canon → (u.modTile (8 * c + i) Tile.resumes).Canon := fun u i hu => (u.resumeTile_keeps _).canon hu
  have hother : ∀ (u : State) (i k : Nat), u.Canon → k ≠ i → (u.modTile (8 * c + i) Tile.resumes).tile (8 * c + k) = u.tile (8 * c + k) :=
    fun u i k hu hk => (hread u i k hu).trans (if_neg hk)
  have hmem : j ∈ bitsOf 8 mask ↔ bit mask j = true := by simp [bitsOf, hj]
  split
  next hbit =>
    obtain ⟨t, ht, htile, hfold⟩ := foldl_own (P := State.Canon) (rd := fun u k => u.tile (8 * c + k))
      (f := fun u i => u.modTile (8 * c + i) Tile.resumes) hP hother (bitsOf_nodup 8 mask) (hmem.mpr hbit) hs
    rw [hread t j j ht, if_pos rfl, show t.tile (8 * c + j) = _ from htile] at hfold
    exact hfold
  next hbit =>
    exact foldl_other (P := State.Canon) (rd := fun u k => u.tile (8 * c + k)) (f := fun u i => u.modTile (8 * c + i) Tile.resumes) hP hother
      (fun h => hbit (hmem.mp h)) hs

theorem State.resumeTiles_rest (s : State) (c mask : Nat) (ts : NatMap Tile) : { s.resumeTiles c mask with tiles := ts } = { s with tiles := ts } :=
  foldl_same (fun u : State => ({ u with tiles := ts } : State)) (by intro _ _; rfl) _ s

theorem State.resumeStore_own {s : State} (hs : s.Canon) {c : Nat} (h : (s.cluster c).executes = true) (mask : Nat) :
    let t := s.resumeStore c mask
    (∀ j, j < 8 → t.tile (8 * c + j) = if bit mask j then (s.tile (8 * c + j)).resumes else s.tile (8 * c + j)) ∧
    (t.cluster c).extInt = ((s.cluster c).extInt && (List.range 8).any fun j => (t.tile (8 * c + j)).halted) ∧
    { t with tiles := s.tiles, clusters := s.clusters } = s := by
  intro t
  have hrest := s.resumeTiles_rest c mask s.tiles
  have hclusters : (s.resumeTiles c mask).clusters = s.clusters := (congrArg State.clusters hrest :)
  rw [show t = _ from State.resumeStore_runs h mask]
  refine ⟨fun j hj => State.resumeTiles_tile hs c mask hj, ?_, ?_⟩
  · have hwf : NatMap.wf {} (s.resumeTiles c mask).clusters = true := by rw [hclusters]; exact hs.tab.clusters
    have hcluster : (s.resumeTiles c mask).cluster c = s.cluster c := by rw [State.cluster, hclusters]; rfl
    rw [State.modCluster, State.cluster_setCluster _ hwf, if_pos rfl, hcluster]
    rfl
  · exact (congrArg (fun u : State => ({ u with clusters := s.clusters } : State)) hrest :)

/-! ### PHASE_DONE -/

theorem Gov.completeRun_run (g : Gov) (k now : Nat) : ((g.completeRun k now).run k).status = .complete := by
  have hset : (g.setRun k { g.run k with status := .complete }).run k = { g.run k with status := .complete } :=
    NatMap.get_set_same _ _ fun h => EntryStatus.noConfusion (congrArg EntryRun.status h)
  unfold Gov.completeRun
  dsimp only
  split
  · split
    · rw [Gov.run]; exact congrArg EntryRun.status hset
    · exact congrArg EntryRun.status hset
  · exact congrArg EntryRun.status hset

/-- The references that a completed phase gives back, and the commit point that goes on, touch no run. -/
theorem State.phaseDone_runs {s : State} (hs : s.Canon) {c p k : Nat} (hpart : s.clusterPart c = some p) (h : (s.cluster c).executes = true)
    (hopen : ((s.part p).gov.phases .running).head? = some k) :
    let t := s.phaseDone c
    (t.cluster c).phaseDone = true ∧
      ((s.partClusters p).all (fun x => x == c || (s.cluster x).phaseDone) = true → ((t.part p).gov.run k).status = .complete) := by
  intro t
  obtain ⟨u, hu⟩ : ∃ u, u = s.setCluster c { s.cluster c with phaseDone := true } := ⟨_, rfl⟩
  have hcanon : u.Canon := by rw [hu]; exact (s.modCluster_keeps c (fun x => { x with phaseDone := true }) fun _ h => ⟨h.1, h.2, h.3⟩).canon hs
  have hparts : u.parts = s.parts := by rw [hu]; rfl
  have hup : u.part p = s.part p := by rw [State.part, hparts]; rfl
  have hclusters : ∀ x, u.cluster x = if x = c then { s.cluster c with phaseDone := true } else s.cluster x := fun x => by
    rw [hu]; exact s.cluster_setCluster hs.tab.clusters c x _
  have ht : t = if (u.partClusters p).all fun c => (u.cluster c).phaseDone then
      let s := u.completeRun p k
      let phase := ((s.part p).gov.tt.entries[k % 4096]?).map (·.phase)
      if phase == some 1 then s.dropVersionRefs p
      else if phase == some 2 && decide (k / 4096 < (s.part p).gov.rev) then s.modGov p fun g => { g with committed := false }
      else s
      else u := by
    show s.phaseDone c = _
    unfold State.phaseDone
    dsimp only
    rw [hpart]
    dsimp only
    rw [if_pos h, ← hu, hup, hopen]
  have hdone : (u.cluster c).phaseDone = true := by rw [hclusters, if_pos rfl]
  have hrun : ((u.completeRun p k).part p).gov.run k = ((s.part p).gov.completeRun k u.now).run k := by
    rw [State.completeRun, State.part_modGov hcanon, if_pos rfl, hup]
  have hrefs : ∀ v : State, (v.dropVersionRefs p).clusters = v.clusters ∧ (v.dropVersionRefs p).parts = v.parts := fun v =>
    ⟨foldl_same State.clusters (by intro _ _; rfl) _ v, foldl_same State.parts (by intro _ _; rfl) _ v⟩
  have hcomplete : ((u.completeRun p k).part p).gov.run k = (((u.completeRun p k).modGov p fun g => { g with committed := false }).part p).gov.run k := by
    rw [State.part_modGov (s := u.completeRun p k) ((State.modGov_keeps u p _).canon hcanon), if_pos rfl]
    rfl
  have hall : (s.partClusters p).all (fun x => x == c || (s.cluster x).phaseDone) = true →
      ((u.partClusters p).all fun c => (u.cluster c).phaseDone) = true := by
    have hlist : u.partClusters p = s.partClusters p := by rw [State.partClusters, hup]; rfl
    rw [hlist]
    refine fun hall => List.all_eq_true.mpr fun x hx => ?_
    have hx' := List.all_eq_true.mp hall x hx
    rw [hclusters]
    split
    · rfl
    next hne => simpa [hne] using hx'
  rw [ht]
  split
  next hyes =>
    dsimp only
    split
    · refine ⟨?_, fun _ => ?_⟩
      · rw [State.cluster, (hrefs _).1]; exact hdone
      · rw [State.part, (hrefs _).2]
        exact (congrArg EntryRun.status hrun).trans (Gov.completeRun_run _ k _)
    · split
      · refine ⟨hdone, fun _ => ?_⟩
        rw [← hcomplete, hrun]
        exact Gov.completeRun_run _ k _
      · refine ⟨hdone, fun _ => ?_⟩
        rw [hrun]
        exact Gov.completeRun_run _ k _
  next hno => exact ⟨hdone, fun h => absurd (hall h) hno⟩

/-! ### The map of a core (Table 03.5) -/

/-- A store to a region of Table 03.5. -/
def State.storeIn (s : State) (c : Nat) (pc : Word64) (bs : List Byte) : Option CoreRegion → State
  | some (.imem o) => s.modCluster c fun x => { x with imem := NatMap.setList 0 x.imem o bs }
  | some (.dmem o) => s.modCluster c fun x => { x with dmem := NatMap.setList 0 x.dmem o bs }
  | some (.sram o) => s.modCluster c fun x => { x with sram := NatMap.setList 0 x.sram o bs }
  | some .topLo => s.topLoStore c (BitVec.ofNat 64 (ofLe bs))
  | some .topHi => s.topHiStore c (BitVec.ofNat 64 (ofLe bs))
  | some .phaseDone => s.phaseDone c
  | some .resume => s.resumeStore c ((BitVec.ofNat 64 (ofLe bs)).toNat % 256)
  | some (.done _) | some (.fault _) => s
  | none => s.coreTrap c 7 pc

/-- A load from a region of Table 03.5. -/
def State.loadIn (s : State) (c size : Nat) : Option CoreRegion → CoreAnswer
  | some (.imem o) => .value (ofLe (NatMap.getList 0 (s.cluster c).imem o size))
  | some (.dmem o) => .value (ofLe (NatMap.getList 0 (s.cluster c).dmem o size))
  | some (.sram o) => .value (ofLe (NatMap.getList 0 (s.cluster c).sram o size))
  | some (.done j) => .value (s.doneWord (8 * c + j))
  | some (.fault j) => .value (s.faultWord (8 * c + j))
  | some .topLo | some .topHi | some .phaseDone | some .resume => .unstated
  | none => .trap 5

theorem State.coreStore_region {s : State} {c a : Nat} {bs : List Byte} (h : (s.cluster c).executes = true) (pc : Word64) {r : Option CoreRegion}
    (hr : coreRegion a bs.length = r) : s.coreStore c a pc bs = s.storeIn c pc bs r := by
  unfold State.coreStore
  dsimp only
  rw [if_neg (by rw [h]; exact Bool.false_ne_true), hr]
  rcases r with _ | r
  · rfl
  · cases r <;> rfl

theorem State.coreLoad_region (s : State) (c : Nat) {a size : Nat} {r : Option CoreRegion} (hr : coreRegion a size = r) :
    s.coreLoad c a size = s.loadIn c size r := by
  unfold State.coreLoad
  dsimp only
  rw [hr]
  rcases r with _ | r
  · rfl
  · cases r <;> rfl

theorem coreRegion_tiles : ∀ j < 8, coreRegion (0x01000100 + 8 * j) 8 = some (.done j) ∧ coreRegion (0x01000300 + 8 * j) 8 = some (.fault j) := by
  decide

/-- What lies in a core's own data memory or the cluster SRAM is memory. -/
theorem coreRegion_memory {a n : Nat} (h : (0x40000 ≤ a ∧ a + n ≤ 0x80000) ∨ (0x10000000 ≤ a ∧ a + n ≤ 0x11000000)) :
    ∃ o, coreRegion a n = some (.imem o) ∨ coreRegion a n = some (.dmem o) ∨ coreRegion a n = some (.sram o) := by
  rcases h with ⟨hlow, hhigh⟩ | ⟨hlow, hhigh⟩
  · by_cases hi : a + n ≤ 0x40000
    · exact ⟨a, .inl (if_pos (by simp; omega))⟩
    · exact ⟨a - 0x40000, .inr (.inl ((if_neg (by simp; omega)).trans (if_pos (by simp; omega))))⟩
  · refine ⟨a - 0x10000000, .inr (.inr ?_)⟩
    unfold coreRegion
    dsimp only
    repeat rw [if_neg (by simp; omega)]
    exact if_pos (by simp; omega)

/-- Outside the map no bytes lie in a region. -/
theorem coreRegion_outside {a n : Nat} (hn : n ≠ 0)
    (h : (0x80000 ≤ a ∧ a < 0x01000000) ∨ (0x01000408 ≤ a ∧ a < 0x10000000) ∨ 0x11000000 ≤ a) : coreRegion a n = none := by
  unfold coreRegion
  dsimp only
  repeat rw [if_neg (by simp; omega)]

theorem State.cluster_modCluster {s : State} (hs : s.Canon) (c : Nat) (f : Cluster → Cluster) : (s.modCluster c f).cluster c = f (s.cluster c) :=
  (s.cluster_setCluster hs.tab.clusters c c _).trans (if_pos rfl)

/-- What a core stores in a memory it reads back. -/
theorem State.coreLoad_coreStore {s : State} (hs : s.Canon) {c a : Nat} {bs : List Byte} (h : (s.cluster c).executes = true) (pc : Word64)
    (hrange : (0x40000 ≤ a ∧ a + bs.length ≤ 0x80000) ∨ (0x10000000 ≤ a ∧ a + bs.length ≤ 0x11000000)) :
    (s.coreStore c a pc bs).coreLoad c a bs.length = .value (ofLe bs) := by
  have hx := hs.cluster c
  obtain ⟨o, hr | hr | hr⟩ := coreRegion_memory hrange
  · rw [State.coreStore_region h pc hr, State.coreLoad_region _ c hr]
    unfold State.storeIn State.loadIn
    dsimp only
    rw [State.cluster_modCluster hs, NatMap.getList_setList hx.imem]
  · rw [State.coreStore_region h pc hr, State.coreLoad_region _ c hr]
    unfold State.storeIn State.loadIn
    dsimp only
    rw [State.cluster_modCluster hs, NatMap.getList_setList hx.dmem]
  · rw [State.coreStore_region h pc hr, State.coreLoad_region _ c hr]
    unfold State.storeIn State.loadIn
    dsimp only
    rw [State.cluster_modCluster hs, NatMap.getList_setList hx.sram]

/-- Settles O24. Each event goes by the branches of its operation; the map by the region an access lies in (`coreRegion`). -/
theorem controlCoresStopAndResume : Obligations.ControlCoresStopAndResume := by
  refine ⟨fun s c pc hs => ?_, fun s c pc w hs h => ⟨?_, fun j hj => ?_, fun a bs => State.coreLoad_coreStore hs h pc, fun a bs hbs hout => ?_⟩⟩
  · intro live
    refine ⟨fun cause hlive => congrArg Host.Outcome.next (State.coreTrap_live hlive cause pc),
      fun cause hdead => congrArg Host.Outcome.next (State.coreTrap_dead hdead cause pc), fun rq hmay htile hc => ?_, fun rq hno => ?_,
      fun mask h => ⟨_, rfl, State.resumeStore_own hs h mask⟩, fun p k hpart h hopen => ⟨_, rfl, State.phaseDone_runs hs hpart h hopen⟩⟩
    · subst hc
      exact ⟨fun h => congrArg Host.Outcome.next ((State.onCore_selected hmay htile _).trans (State.coreHalt_unstalled h pc)),
        fun h => congrArg Host.Outcome.next ((State.onCore_selected hmay htile _).trans (State.coreHalt_stalled h pc)),
        congrArg Host.Outcome.next (State.onCore_selected hmay htile _)⟩
    · exact ⟨congrArg Host.Outcome.next (State.onCore_refused hno _), congrArg Host.Outcome.next (State.onCore_refused hno _)⟩
  · have hlen : (leBytes 8 w.toNat).length = 8 := length_leBytes 8 _
    have hregion : ∀ a, coreRegion a (leBytes 8 w.toNat).length = coreRegion a 8 := fun a => by rw [hlen]
    have hw := ofLe_leBytes_word w
    refine ⟨congrArg Host.Outcome.next ?_, congrArg Host.Outcome.next ?_, congrArg Host.Outcome.next ?_, congrArg Host.Outcome.next ?_⟩
    · rw [State.coreStore_region h pc ((hregion _).trans (by decide : coreRegion 0x01000000 8 = some .topLo)), State.storeIn, hw]
    · rw [State.coreStore_region h pc ((hregion _).trans (by decide : coreRegion 0x01000008 8 = some .topHi)), State.storeIn, hw]
    · rw [State.coreStore_region h pc ((hregion _).trans (by decide : coreRegion 0x01000200 8 = some .phaseDone)), State.storeIn]
    · rw [State.coreStore_region h pc ((hregion _).trans (by decide : coreRegion 0x01000400 8 = some .resume)), State.storeIn, hw]
  · obtain ⟨hdone, hfault⟩ := coreRegion_tiles j hj
    exact ⟨State.coreLoad_region s c hdone, State.coreLoad_region s c hfault, fun bs hbs =>
      ⟨State.coreStore_region h pc ((congrArg (coreRegion _) hbs).trans hdone), State.coreStore_region h pc ((congrArg (coreRegion _) hbs).trans hfault)⟩⟩
  · have hnone := coreRegion_outside (n := bs.length) (fun h0 => hbs (List.length_eq_zero_iff.mp h0)) hout
    have hstore := State.coreStore_region h pc hnone
    exact ⟨⟨5, State.coreLoad_region s c hnone⟩, 7, hstore, congrArg Host.Outcome.next hstore.symm⟩

end Sys2Proof.Machine

/-! PROOFS. What a TOP that ends, and the statistics it owes, leave of a tile (R84, R88, R141, R143, R144). -/
namespace Sys2Proof.Machine
open Sys2Proof

/-! ### Tiles after a write of one -/

theorem State.tile_modTile {s : State} (hs : s.Canon) (t q : Nat) (f : Tile → Tile) :
    (s.modTile t f).tile q = if q = t then f (s.tile t) else s.tile q := s.tile_setTile hs.tab.tiles t q _

/-- The tile without its statistics block, what it owes it, and the fault that a lost update leaves. -/
def Tile.sansStats (x : Tile) : Tile := { x with stats := [], owed := [], faultCode := 0, faultOpcode := 0, faultTop := 0 }

theorem Tile.statUpdate_sansStats (x : Tile) (tag : Nat) (a : StatAdd) : (x.statUpdate tag a).1.sansStats = x.sansStats := by
  unfold Tile.statUpdate
  split
  · rfl
  · split <;> rfl

/-- What an operation on the statistics of tile `t` leaves of the tiles: every other tile, and of `t` all but its statistics. -/
structure StatsOn (t : Nat) (s u : State) : Prop where
  canon : s.Canon → u.Canon
  own : s.Canon → (u.tile t).sansStats = (s.tile t).sansStats
  other : s.Canon → ∀ q, q ≠ t → u.tile q = s.tile q
  rest : { u with tiles := s.tiles, ras := s.ras, board := s.board, sec := s.sec, ports := s.ports, out := s.out } = s

theorem StatsOn.refl (t : Nat) (s : State) : StatsOn t s s := ⟨id, fun _ => rfl, fun _ _ _ => rfl, rfl⟩

theorem StatsOn.trans {t : Nat} {s u v : State} (h : StatsOn t s u) (k : StatsOn t u v) : StatsOn t s v :=
  ⟨k.canon ∘ h.canon, fun hs => (k.own (h.canon hs)).trans (h.own hs), fun hs q hq => (k.other (h.canon hs) q hq).trans (h.other hs q hq),
    (congrArg (fun w : State => ({ w with tiles := s.tiles, ras := s.ras, board := s.board, sec := s.sec, ports := s.ports, out := s.out } : State))
      k.rest).trans h.rest⟩

theorem StatsOn.modTile {t : Nat} {s : State} {f : Tile → Tile} (hk : Keeps s (s.modTile t f)) (hf : ∀ x, (f x).sansStats = x.sansStats) :
    StatsOn t s (s.modTile t f) :=
  ⟨hk.canon, fun hs => by rw [State.tile_modTile hs, if_pos rfl, hf], fun hs q hq => (State.tile_modTile hs t q f).trans (if_neg hq), rfl⟩

theorem StatsOn.raise (t : Nat) (s : State) (f : FaultRec) : StatsOn t s (s.raise f) :=
  ⟨(s.raise_keeps f).canon, fun _ => by rw [State.raise_tile], fun _ _ _ => State.raise_tile .., by rw [State.raise_only]⟩

theorem State.statLost_statsOn (s : State) (t : Nat) (top : Top) (lost : Bool) : StatsOn t s (s.statLost t top lost) := by
  unfold State.statLost
  split
  · have hlost : StatsOn t s (s.modTile t fun x => { x with faultCode := 0x0303, faultOpcode := topOpcode top, faultTop := top }) :=
      .modTile (s.modTile_keeps t _ fun _ h => ⟨h.1, h.2⟩) fun _ => rfl
    exact hlost.trans (.raise t _ _)
  · exact .refl t s

theorem State.statNext_statsOn (s : State) (t : Nat) : StatsOn t s (s.statNext t) := by
  unfold State.statNext
  dsimp only
  split
  · exact .refl t s
  next o rest _ =>
    split
    · refine StatsOn.trans (u := s.setTile t ({ s.tile t with owed := rest }.statUpdate o.tensor o.add).1) ?_ (State.statLost_statsOn _ t _ _)
      refine ⟨fun hs => (s.setTile_keeps t _ fun c => Tile.statUpdate_canon (t := { s.tile t with owed := rest }) _ _ ⟨(c.tile t).1, (c.tile t).2⟩).canon hs, fun hs => ?_, fun hs q hq => ?_, rfl⟩
      · rw [State.tile_setTile _ hs.tab.tiles, if_pos rfl, Tile.statUpdate_sansStats]
        rfl
      · rw [State.tile_setTile _ hs.tab.tiles, if_neg hq]
    · exact .refl t s

theorem State.settleStats_statsOn (s : State) (t : Nat) : StatsOn t s (s.settleStats t) := by
  unfold State.settleStats
  generalize (s.tile t).owed = l
  induction l generalizing s with
  | nil => exact .refl t s
  | cons o l ih => exact (s.statNext_statsOn t).trans (ih _)

theorem State.settleRefs_rest (s : State) (p : Nat) (q : NatMap Quern) : { s.settleRefs p with querns := q } = { s with querns := q } := by
  unfold State.settleRefs
  split
  · rfl
  · exact foldl_same (fun u : State => ({ u with querns := q } : State)) (by intro _ _; rfl) _ s

/-- What waited for a TOP of tile `t` is settled: its groups that are to be freed, its statistics, and references to versions. -/
theorem State.settled_eq (s : State) (t : Nat) : ∃ q, s.settled t = { (s.modTile t Tile.settle).settleStats t with querns := q } := by
  unfold State.settled
  dsimp only
  split
  · exact ⟨_, rfl⟩
  next p _ =>
    refine ⟨(State.settleRefs ((s.modTile t Tile.settle).settleStats t) p).querns, ?_⟩
    exact (State.settleRefs_rest _ p (State.settleRefs ((s.modTile t Tile.settle).settleStats t) p).querns :)

theorem State.settled_tile {s : State} (hs : s.Canon) (t : Nat) : ((s.settled t).tile t).sansStats = (s.tile t).settle.sansStats := by
  obtain ⟨q, h⟩ := s.settled_eq t
  have hcanon : (s.modTile t Tile.settle).Canon := (s.modTile_keeps t _ fun _ h => Tile.settle_canon h).canon hs
  rw [h]
  show ((State.settleStats (s.modTile t Tile.settle) t).tile t).sansStats = _
  rw [(State.settleStats_statsOn _ t).own hcanon, State.tile_modTile hs, if_pos rfl]

theorem State.settled_other {s : State} (hs : s.Canon) {t n : Nat} (hn : n ≠ t) : (s.settled t).tile n = s.tile n := by
  obtain ⟨q, h⟩ := s.settled_eq t
  have hcanon : (s.modTile t Tile.settle).Canon := (s.modTile_keeps t _ fun _ h => Tile.settle_canon h).canon hs
  rw [h]
  show (State.settleStats (s.modTile t Tile.settle) t).tile n = _
  rw [(State.settleStats_statsOn _ t).other hcanon n hn, State.tile_modTile hs, if_neg hn]

/-- A tile that owes no update settles without one. -/
theorem State.settleStats_owed {s : State} {t : Nat} (h : (s.tile t).owed = []) : s.settleStats t = s := by
  unfold State.settleStats
  rw [h]
  rfl

/-! ### The parts of a tile that settling leaves -/

theorem Tile.settle_kept (x : Tile) : ∃ a b c, x.settle = { x with arrA := { x.arrA with groups := a }, arrB := { x.arrB with groups := b }, freeing := c } := by
  unfold Tile.settle Tile.freeGroups
  split <;> exact ⟨_, _, _, rfl⟩

theorem Tile.settle_flight (x : Tile) : x.settle.flight = x.flight := by
  obtain ⟨_, _, _, h⟩ := x.settle_kept; rw [h]
theorem Tile.settle_queue (x : Tile) : x.settle.queue = x.queue := by
  obtain ⟨_, _, _, h⟩ := x.settle_kept; rw [h]
theorem Tile.settle_topCount (x : Tile) : x.settle.topCount = x.topCount := by
  obtain ⟨_, _, _, h⟩ := x.settle_kept; rw [h]
theorem Tile.settle_halted (x : Tile) : x.settle.halted = x.halted := by
  obtain ⟨_, _, _, h⟩ := x.settle_kept; rw [h]

theorem State.settled_flight {s : State} (hs : s.Canon) (t : Nat) : ((s.settled t).tile t).flight = (s.tile t).flight :=
  (congrArg Tile.flight (State.settled_tile hs t) :).trans (Tile.settle_flight _)
theorem State.settled_queue {s : State} (hs : s.Canon) (t : Nat) : ((s.settled t).tile t).queue = (s.tile t).queue :=
  (congrArg Tile.queue (State.settled_tile hs t) :).trans (Tile.settle_queue _)
theorem State.settled_topCount {s : State} (hs : s.Canon) (t : Nat) : ((s.settled t).tile t).topCount = (s.tile t).topCount :=
  (congrArg Tile.topCount (State.settled_tile hs t) :).trans (Tile.settle_topCount _)
theorem State.settled_halted {s : State} (hs : s.Canon) (t : Nat) : ((s.settled t).tile t).halted = (s.tile t).halted :=
  (congrArg Tile.halted (State.settled_tile hs t) :).trans (Tile.settle_halted _)

/-! ### A TOP that ends -/

/-- The tile without the TOP that has ended, counted. -/
def Tile.ended (x : Tile) (i : Nat) : Tile := { x with flight := x.flight.eraseIdx i, topCount := x.topCount + 1 }

/-- A TOP that ends is counted in its tile and its partition, and then settled. -/
theorem State.finishTop_eq (s : State) (t i : Nat) : ∃ u : State, s.finishTop t i = u.settled t ∧ (s.Canon → u.Canon) ∧
    u.tiles = (s.modTile t (·.ended i)).tiles ∧ { u with tiles := s.tiles, parts := s.parts } = s := by
  have hk : Keeps s (s.modTile t (·.ended i)) := s.modTile_keeps t _ fun _ h => ⟨h.1, h.2⟩
  unfold State.finishTop
  dsimp only
  split
  · exact ⟨s.modTile t (·.ended i), rfl, hk.canon, rfl, rfl⟩
  next p _ =>
    exact ⟨(s.modTile t (·.ended i)).modPart p fun v => { v with topTotal := v.topTotal + 1 }, rfl, (hk.trans (State.modPart_keeps ..)).canon, rfl, rfl⟩

theorem State.finishTop_own {s : State} (hs : s.Canon) (t i : Nat) : ((s.finishTop t i).tile t).flight = (s.tile t).flight.eraseIdx i ∧
    ((s.finishTop t i).tile t).topCount = (s.tile t).topCount + 1 ∧ ((s.finishTop t i).tile t).queue = (s.tile t).queue ∧
    ((s.finishTop t i).tile t).halted = (s.tile t).halted := by
  obtain ⟨u, h, hcanon, htiles, -⟩ := s.finishTop_eq t i
  have hu : u.tile t = (s.tile t).ended i := by
    rw [State.tile, htiles]
    exact (State.tile_modTile hs t t (·.ended i)).trans (if_pos rfl)
  rw [h, State.settled_flight (hcanon hs), State.settled_topCount (hcanon hs), State.settled_queue (hcanon hs), State.settled_halted (hcanon hs), hu]
  exact ⟨rfl, rfl, rfl, rfl⟩

theorem State.finishTop_other {s : State} (hs : s.Canon) {t n : Nat} (hn : n ≠ t) (i : Nat) : (s.finishTop t i).tile n = s.tile n := by
  obtain ⟨u, h, hcanon, htiles, -⟩ := s.finishTop_eq t i
  rw [h, State.settled_other (hcanon hs) hn, State.tile, htiles]
  exact (State.tile_modTile hs t n (·.ended i)).trans (if_neg hn)

/-! ### A TOP that starts, and one that is at work -/

/-- A TOP that is ready starts. -/
theorem State.ready.starts {s : State} {t i : Nat} {want : Top → Bool} {f : Flight} (h : s.ready t want i f) (act : Nat → Flight → State → State) :
    s.startTop t want act = act i f s := by
  obtain ⟨hstart, hflight, harb, hfault⟩ := h
  unfold State.startTop
  rw [hstart]
  dsimp only
  rw [hflight]
  dsimp only
  rw [harb, if_neg Bool.false_ne_true, hfault]

/-- A TOP at work whose hardware checks pass completes. -/
theorem State.atWork.completes {s : State} {t i : Nat} {want : Top → Bool} {f : Flight} (h : s.atWork t want i f) (code : Nat) (cause : QuarCause)
    (act : Nat → Flight → State → State) : s.completeTop t code cause .ok want act = act i f s := by
  obtain ⟨hwork, hflight⟩ := h
  unfold State.completeTop
  rw [hwork]
  dsimp only
  rw [hflight]
  rfl

end Sys2Proof.Machine

/-! PROOFS. O25: TOPs are issued in order and take their unit (R75, R82 to R85, R121, R162). -/
namespace Sys2Proof.Machine
open Sys2Proof

/-! ### The head of the queue -/

/-- The tile whose queue head has been passed to its unit. -/
def State.issued (s : State) (n : Nat) (top : Top) (rest : List Top) : State :=
  s.setTile n { s.tile n with
    queue := rest, seq := (s.tile n).seq + 1
    flight := (s.tile n).flight ++ [{ top := top, sr := (s.tile n).sr, seq := (s.tile n).seq }]
    sr := srAfter (s.part ((s.tilePart n).getD 16)).seed (s.part ((s.tilePart n).getD 16)).gov.phaseStep (s.tile n).sr top }

/-- A head that its unit accepts, and that nothing holds, is passed on; one that no unit runs ends. -/
theorem State.dispatchHead_passes {s : State} {n : Nat} {top : Top} {rest : List Top} {want : Top → Bool} (hqueue : (s.tile n).queue = top :: rest)
    (hwant : want top = true) (hissues : (s.tile n).issues = true) (hstopped : s.pwr.stopped = false)
    (hholds : (s.tile n).flight.any Flight.holdsQueue = false) (haccepts : (topUnits top).all (unitAccepts (s.tile n).flight) = true) :
    s.dispatchHead n want = if (topUnits top).isEmpty then (s.issued n top rest).endNow n (s.tile n).flight.length top else s.issued n top rest := by
  unfold State.dispatchHead
  dsimp only
  rw [hqueue]
  dsimp only
  rw [if_pos (by rw [hwant, hissues, hstopped, hholds, haccepts]; rfl)]
  rfl

theorem State.issued_canon {s : State} (hs : s.Canon) (n : Nat) (top : Top) (rest : List Top) : (s.issued n top rest).Canon :=
  (s.setTile_keeps n _ fun c => (⟨(c.tile n).1, (c.tile n).2⟩ : Tile.Canon { s.tile n with
    queue := rest, seq := (s.tile n).seq + 1
    flight := (s.tile n).flight ++ [{ top := top, sr := (s.tile n).sr, seq := (s.tile n).seq }]
    sr := srAfter (s.part ((s.tilePart n).getD 16)).seed (s.part ((s.tilePart n).getD 16)).gov.phaseStep (s.tile n).sr top })).canon hs

theorem State.issued_tile {s : State} (hs : s.Canon) (n : Nat) (top : Top) (rest : List Top) :
    ((s.issued n top rest).tile n).flight = (s.tile n).flight ++ [{ top := top, sr := (s.tile n).sr, seq := (s.tile n).seq }] ∧
    ((s.issued n top rest).tile n).topCount = (s.tile n).topCount ∧ ((s.issued n top rest).tile n).queue = rest := by
  have h : (s.issued n top rest).tile n = _ := (s.tile_setTile hs.tab.tiles n n _).trans (if_pos rfl)
  rw [h]
  exact ⟨rfl, rfl, rfl⟩

/-- A NOP has no unit, and no field that fails. -/
theorem topUnits_nop {top : Top} (h : topOpcode top = 0) : topUnits top = [] := by
  unfold topUnits
  rw [h]
  rfl

theorem topFault_nop {top : Top} (h : topOpcode top = 0) (hzero : topZeroFrom top 16 = true) (env : TileEnv) (x : Tile) : topFault env x top = none := by
  unfold topFault
  rw [h]
  simp [hzero]

/-! ### The sync unit's TOPs, and TOPs that end -/

theorem exec_fenceComplete {s : State} {n : Nat} {f : Flight} (h : s.atWork n (topOpcode · == 14) 0 f) :
    exec (.fenceComplete n) s = .next (s.finishTop n 0) := by
  refine congrArg Host.Outcome.next ?_
  unfold State.fenceComplete
  rw [h.1]
  rfl

theorem exec_srKeyReady {s : State} {n i c : Nat} {f : Flight} {rest : List Nat} (hqueue : (s.cluster c).keyQueue = n :: rest)
    (h : s.atWork n isSrSet i f) : exec (.srKeyReady c) s = .next ((s.setCluster c { s.cluster c with keyQueue := rest }).finishTop n i) := by
  refine congrArg Host.Outcome.next ?_
  have hwork : (s.setCluster c { s.cluster c with keyQueue := rest }).runningTop n isSrSet = some i := h.1
  unfold State.srKeyReady
  rw [hqueue]
  dsimp only
  rw [show State.runningTop (s.modCluster c fun x => { x with keyQueue := rest }) n isSrSet = some i from hwork]
  rfl

/-! ### A unit holds no more than it may -/

/-- Flights of a unit (`p`), of which some are done (`d`): how many there are, how many have not started, and whether one runs. The bound of R85,
with that of the transfer unit. -/
def UnitBound (p : Flight → Bool) (transfer : Prop) (l : List Flight) : Prop :=
  l.countP (fun f => p f && !f.done) ≤ 2 ∧ ((l.any fun f => p f && f.done) = true → l.countP (fun f => p f && !f.done) ≤ 1) ∧
    (transfer → l.countP p ≤ 2)

/-- Fewer TOPs in flight stay within it. -/
theorem UnitBound.sublist {p : Flight → Bool} {transfer : Prop} {l m : List Flight} (h : UnitBound p transfer l) (hsub : m.Sublist l) :
    UnitBound p transfer m := by
  obtain ⟨hwaits, hruns, hheld⟩ := h
  refine ⟨hsub.countP_le.trans hwaits, fun hr => hsub.countP_le.trans (hruns ?_), fun hu => hsub.countP_le.trans (hheld hu)⟩
  obtain ⟨f, hf, hrun⟩ := List.any_eq_true.mp hr
  exact List.any_eq_true.mpr ⟨f, hsub.subset hf, hrun⟩

/-- What a unit holds runs or waits. -/
theorem countP_waits_le (p : Flight → Bool) (l : List Flight) :
    l.countP (fun f => p f && !f.done) + (if (l.any fun f => p f && f.done) = true then 1 else 0) ≤ l.countP p := by
  have hsplit : l.countP p = l.countP (fun f => p f && f.done) + l.countP (fun f => p f && !f.done) := by
    have h := List.countP_eq_countP_filter_add l p Flight.done
    rw [List.countP_filter, List.countP_filter] at h
    simpa using h
  split
  next h =>
    obtain ⟨f, hf, hrun⟩ := List.any_eq_true.mp h
    have hpos : 0 < l.countP (fun f => p f && f.done) := List.countP_pos_iff.mpr ⟨f, hf, hrun⟩
    omega
  next => omega

/-- A TOP that its unit accepts leaves the bound. -/
theorem UnitBound.append {p : Flight → Bool} {transfer : Prop} {l : List Flight} {f : Flight} (h : UnitBound p transfer l) (hf : f.done = false)
    (haccepts : p f = true → (transfer → l.countP p < 2) ∧ (¬ transfer →
      if (l.any fun f => p f && f.done) = true then l.countP (fun f => p f && !f.done) = 0 else l.countP (fun f => p f && !f.done) ≤ 1)) :
    UnitBound p transfer (l ++ [f]) := by
  obtain ⟨hwaits, hruns, hheld⟩ := h
  have hle := countP_waits_le p l
  unfold UnitBound
  rw [List.countP_append, List.countP_append, List.any_append, List.countP_singleton, List.countP_singleton, List.any_cons, List.any_nil, hf]
  cases hp : p f with
  | false =>
    simp only [Bool.false_and, Bool.and_false, Bool.or_false, Bool.false_eq_true, if_false, Nat.add_zero]
    exact ⟨hwaits, hruns, hheld⟩
  | true =>
    obtain ⟨htransfer, hother⟩ := haccepts hp
    by_cases ht : transfer
    · have := htransfer ht
      simp only [Bool.and_false, Bool.or_false, Bool.not_false, Bool.and_self, if_true]
      refine ⟨?_, fun hr => ?_, fun _ => ?_⟩
      · split at hle <;> omega
      · rw [if_pos hr] at hle; omega
      · omega
    · have := hother ht
      simp only [Bool.and_false, Bool.or_false, Bool.not_false, Bool.and_self, if_true]
      refine ⟨?_, fun hr => ?_, fun h => absurd h ht⟩
      · split at this <;> omega
      · rw [if_pos hr] at this; omega

/-- What a unit accepts. -/
theorem unitAccepts_bound {u : TileUnit} {l : List Flight} (h : unitAccepts l u = true) :
    (u = .transfer → l.countP (fun f => (topUnits f.top).contains u) < 2) ∧ (u ≠ .transfer →
      if (l.any fun f => (topUnits f.top).contains u && f.done) = true then l.countP (fun f => (topUnits f.top).contains u && !f.done) = 0
      else l.countP (fun f => (topUnits f.top).contains u && !f.done) ≤ 1) := by
  have hwaits : ((l.filter fun f => (topUnits f.top).contains u).filter fun f => !f.done).length =
      l.countP (fun f => (topUnits f.top).contains u && !f.done) := by
    rw [List.countP_eq_length_filter, List.filter_filter]
    exact congrArg List.length (congrArg (List.filter · l) (funext fun f => Bool.and_comm ..))
  unfold unitAccepts at h
  dsimp only at h
  rw [hwaits, List.any_filter, ← List.countP_eq_length_filter] at h
  refine ⟨fun hu => ?_, fun hu => ?_⟩
  · rw [if_pos hu] at h
    exact decide_eq_true_eq.mp h
  · rw [if_neg hu] at h
    split
    next hr => rw [if_pos hr] at h; exact beq_iff_eq.mp h
    next hr => rw [if_neg hr] at h; exact decide_eq_true_eq.mp h

/-! ### What is in flight after a TOP has ended or failed -/

theorem take_append_filter_sublist {α : Type} (l : List α) (n : Nat) (p : α → Bool) : (l.take n ++ (l.drop n).filter p).Sublist l := by
  conv_rhs => rw [← List.take_append_drop n l]
  exact (List.Sublist.refl _).append List.filter_sublist

theorem State.haltTile_flight {s : State} (hs : s.Canon) (t n code : Nat) (top : Top) :
    (((s.haltTile t n code top).tile t).flight).Sublist (s.tile t).flight := by
  unfold State.haltTile
  extract_lets u
  have hu : u.Canon := by
    refine (s.modTile_keeps t _ ?_).canon hs
    exact fun _ h => ⟨h.1, h.2⟩
  have hflight : (u.tile t).flight = (s.tile t).flight.take n ++ ((s.tile t).flight.drop n).filter Flight.runsOn := by
    rw [State.tile_modTile hs, if_pos rfl]
  rw [State.modCluster_tile, State.settled_flight hu, hflight]
  exact take_append_filter_sublist ..

theorem State.topFails_flight {s : State} (hs : s.Canon) (t i code : Nat) :
    (((s.topFails t i code).tile t).flight).Sublist (s.tile t).flight := by
  unfold State.topFails
  dsimp only
  split
  · exact List.Sublist.refl _
  next f _ =>
    rw [State.raise_tile]
    generalize srAfterAll _ _ _ _ = sr
    have hset := fun x => (s.tile_setTile hs.tab.tiles t t x).trans (if_pos rfl)
    refine (State.haltTile_flight ((s.setTile_keeps t _ fun c => (⟨(c.tile t).1, (c.tile t).2⟩ : Tile.Canon { s.tile t with
      flight := (s.tile t).flight.take i ++ ((s.tile t).flight.drop (i + 1)).filter Flight.runsOn, sr := sr })).canon hs) t _ code f.top).trans ?_
    rw [hset]
    have hdrop : ((s.tile t).flight.drop (i + 1)).Sublist ((s.tile t).flight.drop i) := by
      rw [← List.tail_drop]
      exact List.tail_sublist _
    conv_rhs => rw [← List.take_append_drop i (s.tile t).flight]
    exact (List.Sublist.refl _).append (List.filter_sublist.trans hdrop)

theorem State.endNow_flight {s : State} (hs : s.Canon) (t i : Nat) (top : Top) :
    (((s.endNow t i top).tile t).flight).Sublist (s.tile t).flight := by
  unfold State.endNow
  split
  · exact State.topFails_flight hs t i _
  · rw [(State.finishTop_own hs t i).1]
    exact List.eraseIdx_sublist ..

/-- Starting a TOP that has no command of its own can refuse it, and nothing else. -/
theorem State.startTop_flight {s : State} (hs : s.Canon) (t : Nat) (want : Top → Bool) :
    (((s.startTop t want fun _ _ s => s).tile t).flight).Sublist (s.tile t).flight := by
  unfold State.startTop
  split
  · exact List.Sublist.refl _
  · dsimp only
    split
    · exact List.Sublist.refl _
    · split
      · exact List.Sublist.refl _
      · split
        · exact State.topFails_flight hs t _ _
        · exact List.Sublist.refl _

theorem State.dispatchHead_bound {s : State} (hs : s.Canon) (n : Nat) (want : Top → Bool) (u : TileUnit)
    (h : UnitBound (fun f => (topUnits f.top).contains u) (u = .transfer) (s.tile n).flight) :
    UnitBound (fun f => (topUnits f.top).contains u) (u = .transfer) ((s.dispatchHead n want).tile n).flight := by
  unfold State.dispatchHead
  dsimp only
  split
  · exact h
  next top rest hqueue =>
    split
    next hgo =>
      have haccepts : (topUnits top).all (unitAccepts (s.tile n).flight) = true := (Bool.and_eq_true_iff.mp hgo).2
      have hissued : UnitBound (fun f => (topUnits f.top).contains u) (u = .transfer) ((s.issued n top rest).tile n).flight := by
        rw [(State.issued_tile hs n top rest).1]
        exact h.append (f := { top := top, sr := (s.tile n).sr, seq := (s.tile n).seq }) rfl fun hmine =>
          unitAccepts_bound (List.all_eq_true.mp haccepts u (List.contains_iff_mem.mp hmine))
      split
      · exact hissued.sublist (State.endNow_flight (State.issued_canon hs n top rest) n _ top)
      · exact hissued
    next => exact h

theorem State.dispatch_bound {s : State} (hs : s.Canon) (n : Nat) (u : TileUnit)
    (h : UnitBound (fun f => (topUnits f.top).contains u) (u = .transfer) (s.tile n).flight) :
    UnitBound (fun f => (topUnits f.top).contains u) (u = .transfer) ((s.dispatch n).tile n).flight := by
  unfold State.dispatch
  split
  · exact h.sublist (State.startTop_flight hs n rowless)
  · exact State.dispatchHead_bound hs n _ u h

/-- Settles O25. The head goes by the branches of its issue, a TOP that is ready or at work by `State.ready.starts` and `State.atWork.completes`,
and the bound by what a unit accepts (`UnitBound.append`). -/
theorem topsAreIssuedAndTakeTheirUnit : Obligations.TopsAreIssuedAndTakeTheirUnit := by
  refine ⟨fun s n top rest hs hqueue hissues hstopped hholds haccepts => ⟨fun hnone hunit => ?_, fun hop hzero => ?_⟩, fun s n i f => ?_,
    fun s n u hs => ?_⟩
  · refine congrArg Host.Outcome.next ?_
    unfold State.dispatch
    rw [hnone]
    exact (State.dispatchHead_passes hqueue rfl hissues hstopped hholds haccepts).trans (if_neg (by simpa using hunit))
  · have hcanon := State.issued_canon hs n top rest
    obtain ⟨hflight, hcount, hrest⟩ := State.issued_tile hs n top rest
    obtain ⟨-, htop, hq, -⟩ := State.finishTop_own hcanon n (s.tile n).flight.length
    have hend : (s.issued n top rest).endNow n (s.tile n).flight.length top = (s.issued n top rest).finishTop n (s.tile n).flight.length := by
      unfold State.endNow
      rw [topFault_nop hop hzero]
    refine ⟨congrArg Host.Outcome.next ?_, htop.trans (congrArg (· + 1) hcount), hq.trans hrest⟩
    exact (State.dispatchHead_passes hqueue (by rw [hop]; rfl) hissues hstopped hholds haccepts).trans
      ((if_pos (by rw [topUnits_nop hop]; rfl)).trans hend)
  · refine ⟨fun h => congrArg Host.Outcome.next (h.starts _), fun h => congrArg Host.Outcome.next (h.starts _),
      fun h => congrArg Host.Outcome.next (h.starts _), fun h hsize => congrArg Host.Outcome.next ((h.starts _).trans (if_neg fun hc => hsize hc.2)),
      fun h hsize => congrArg Host.Outcome.next ((h.starts _).trans ((if_pos ⟨rfl, hsize⟩).trans rfl)),
      fun h => congrArg Host.Outcome.next ((h.starts _).trans (if_neg fun hc => absurd hc.1 (by decide))),
      fun h hcount => congrArg Host.Outcome.next ((h.starts _).trans (if_neg hcount)),
      fun h hcount => congrArg Host.Outcome.next ((h.starts _).trans (if_pos hcount)),
      fun h => congrArg Host.Outcome.next (h.completes _ _ _), fun h => congrArg Host.Outcome.next (h.completes _ _ _), exec_fenceComplete,
      fun c rest hqueue h => exec_srKeyReady hqueue h, fun hs => ⟨(State.finishTop_own hs n i).2.1, (State.finishTop_own hs n i).1⟩⟩
  · intro held waits runs bound h
    have hbound : ∀ x : Tile, bound x ↔ UnitBound (fun f => (topUnits f.top).contains u) (u = .transfer) x.flight := fun x => by
      unfold UnitBound
      rw [List.countP_eq_length_filter, List.countP_eq_length_filter]
    exact ⟨_, rfl, (hbound _).mpr (State.dispatch_bound hs n u ((hbound _).mp h))⟩

end Sys2Proof.Machine

/-! PROOFS. Exact conversions to FP32 (R92, R109, R157). -/
namespace Sys2Proof.Machine
open Sys2Proof

theorem pow2_eq (e : Int) : pow2 e = (2 : Rat) ^ e := by
  unfold pow2
  split
  next h =>
    obtain ⟨n, rfl⟩ := Int.eq_ofNat_of_zero_le h
    rw [Int.toNat_natCast, zpow_natCast]
    push_cast
    rfl
  next h =>
    obtain ⟨n, hn⟩ : ∃ n : Nat, e = -(n : Int) := ⟨(-e).toNat, by omega⟩
    subst hn
    rw [neg_neg, Int.toNat_natCast, Rat.mkRat_eq_div, zpow_neg, zpow_natCast]
    push_cast
    rw [one_div]

theorem natLog2_le {n : Nat} (hn : n ≠ 0) : (2 : Rat) ^ (n.log2 : Int) ≤ n := by
  rw [zpow_natCast]; exact_mod_cast Nat.log2_self_le hn

theorem lt_natLog2 (n : Nat) : (n : Rat) < (2 : Rat) ^ ((n.log2 : Int) + 1) := by
  rw [show ((n.log2 : Int) + 1) = ((n.log2 + 1 : Nat) : Int) by push_cast; rfl, zpow_natCast]
  exact_mod_cast Nat.lt_log2_self

/-- The exponents of the numerator and the denominator bound a quotient from above … -/
theorem quotient_lt {n d : Nat} (hd : d ≠ 0) : (n : Rat) / d < (2 : Rat) ^ ((n.log2 : Int) - d.log2 + 1) := by
  have hdpos : (0 : Rat) < d := by exact_mod_cast Nat.pos_of_ne_zero hd
  rw [div_lt_iff₀ hdpos]
  calc (n : Rat) < (2 : Rat) ^ ((n.log2 : Int) + 1) := lt_natLog2 n
    _ = (2 : Rat) ^ ((n.log2 : Int) - d.log2 + 1) * (2 : Rat) ^ (d.log2 : Int) := by
      rw [← zpow_add₀ (by norm_num)]
      exact congrArg _ (by omega)
    _ ≤ _ := mul_le_mul_of_nonneg_left (natLog2_le hd) (le_of_lt (zpow_pos (by norm_num) _))

/-- … and from below. -/
theorem lt_quotient {n d : Nat} (hn : n ≠ 0) (hd : d ≠ 0) : (2 : Rat) ^ ((n.log2 : Int) - d.log2 - 1) < (n : Rat) / d := by
  have hdpos : (0 : Rat) < d := by exact_mod_cast Nat.pos_of_ne_zero hd
  rw [lt_div_iff₀ hdpos]
  calc (2 : Rat) ^ ((n.log2 : Int) - d.log2 - 1) * (d : Rat)
      < (2 : Rat) ^ ((n.log2 : Int) - d.log2 - 1) * (2 : Rat) ^ ((d.log2 : Int) + 1) :=
        mul_lt_mul_of_pos_left (lt_natLog2 d) (zpow_pos (by norm_num) _)
    _ = (2 : Rat) ^ (n.log2 : Int) := by
      rw [← zpow_add₀ (by norm_num)]
      exact congrArg _ (by omega)
    _ ≤ n := natLog2_le hn

/-- What lies between two powers of 2 has the lower one's exponent as its logarithm. -/
theorem floorLog2_eq {q : Rat} {e : Int} (hlow : (2 : Rat) ^ e ≤ q) (hhigh : q < (2 : Rat) ^ (e + 1)) : floorLog2 q = e := by
  have hnum : 0 < q.num := Rat.num_pos.mpr (lt_of_lt_of_le (zpow_pos (by norm_num) e) hlow)
  have hnat : ((q.num.natAbs : Nat) : Rat) / (q.den : Rat) = q := by
    conv_rhs => rw [← Rat.num_div_den q]
    rw [← Int.cast_natCast, Int.natAbs_of_nonneg hnum.le]
  have hupper := quotient_lt (n := q.num.natAbs) q.den_nz
  have hlower := lt_quotient (n := q.num.natAbs) (by omega) q.den_nz
  rw [hnat] at hupper hlower
  have hlt : ∀ {a b : Int}, (2 : Rat) ^ a < (2 : Rat) ^ b → a < b := fun h => (zpow_lt_zpow_iff_right₀ (by norm_num)).mp h
  have hle := hlt (lt_of_le_of_lt hlow hupper)
  have hge := hlt (lt_trans hlower hhigh)
  unfold floorLog2
  dsimp only
  rw [pow2_eq]
  split
  next h =>
    have := hlt (lt_of_le_of_lt hlow h)
    omega
  next h =>
    have := hlt (lt_of_le_of_lt (not_lt.mp h) hhigh)
    omega

/-- A magnitude that FP32 holds: `k` steps of the grid of exponent `e`, normal or on the subnormal grid. -/
structure Fp32Exact (k : Nat) (e : Int) : Prop where
  low : 2 ^ 23 ≤ k ∨ e = -126
  high : k < 2 ^ 24
  eMin : -126 ≤ e
  eMax : e ≤ 127

/-- Its value. -/
def gridValue (k : Nat) (e : Int) : Rat := (k : Rat) * (2 : Rat) ^ (e - 23)

theorem gridValue_lt {k : Nat} {e : Int} {n : Nat} (h : k < 2 ^ n) : gridValue k e < (2 : Rat) ^ (e + n - 23) := by
  unfold gridValue
  rw [show e + n - 23 = (n : Int) + (e - 23) by omega, zpow_add₀ (by norm_num), zpow_natCast]
  exact mul_lt_mul_of_pos_right (by exact_mod_cast h) (zpow_pos (by norm_num) _)

theorem le_gridValue {k : Nat} {e : Int} {n : Nat} (h : 2 ^ n ≤ k) : (2 : Rat) ^ (e + n - 23) ≤ gridValue k e := by
  unfold gridValue
  rw [show e + n - 23 = (n : Int) + (e - 23) by omega, zpow_add₀ (by norm_num), zpow_natCast]
  exact mul_le_mul_of_nonneg_right (by exact_mod_cast h) (le_of_lt (zpow_pos (by norm_num) _))

theorem gridValue_ne_zero {k : Nat} (hk : k ≠ 0) (e : Int) : gridValue k e ≠ 0 :=
  mul_ne_zero (by exact_mod_cast hk) (zpow_ne_zero _ (by norm_num))

/-- The exponent that FP32 takes for it. -/
theorem Fp32Exact.exponent {k : Nat} {e : Int} (h : Fp32Exact k e) (hk : k ≠ 0) : max (floorLog2 (gridValue k e)) fp32Fmt.eMin = e := by
  have hmin : fp32Fmt.eMin = -126 := by decide
  rw [hmin]
  by_cases hnormal : 2 ^ 23 ≤ k
  · have hlog : floorLog2 (gridValue k e) = e :=
      floorLog2_eq (by simpa using le_gridValue (e := e) hnormal) (by
        have := gridValue_lt (e := e) h.high
        rwa [show e + ((24 : Nat) : Int) - 23 = e + 1 by push_cast; ring] at this)
    rw [hlog]
    exact max_eq_left h.eMin
  · have he : e = -126 := h.low.resolve_left hnormal
    subst he
    refine max_eq_right ?_
    have hlow := le_gridValue (e := -126) (Nat.log2_self_le hk)
    have hhigh := gridValue_lt (e := -126) (Nat.lt_log2_self (n := k))
    have hlog : floorLog2 (gridValue k (-126)) = -126 + (k.log2 : Int) - 23 := floorLog2_eq hlow (by
      rwa [show -126 + ((k.log2 + 1 : Nat) : Int) - 23 = -126 + (k.log2 : Int) - 23 + 1 by push_cast; ring] at hhigh)
    have hbits : k.log2 < 23 := (Nat.log2_lt hk).mpr (not_le.mp hnormal)
    rw [hlog]
    omega

theorem fp32_eMin : fp32Fmt.eMin = -126 := by decide

/-- The spacing of the grid there (R118). -/
theorem Fp32Exact.ulp {k : Nat} {e : Int} (h : Fp32Exact k e) (hk : k ≠ 0) : fp32Fmt.ulp (gridValue k e) = (2 : Rat) ^ (e - 23) := by
  unfold FloatFmt.ulp
  dsimp only
  rw [if_neg (gridValue_ne_zero hk e), h.exponent hk, pow2_eq]
  rfl

theorem gridValue_div (k : Nat) (e : Int) : gridValue k e / (2 : Rat) ^ (e - 23) = (k : Rat) :=
  mul_div_cancel_right₀ _ (zpow_ne_zero _ (by norm_num))

/-- A value on the grid rounds to itself, in every mode. -/
theorem roundMag_exact (r : Rnd) (k : Nat) (e : Int) : roundMag r (gridValue k e) ((2 : Rat) ^ (e - 23)) = k := by
  have hfloor : (k : Rat).floor.toNat = k := by rw [← Int.cast_natCast, Rat.floor_intCast]; rfl
  unfold roundMag
  dsimp only
  rw [gridValue_div, hfloor, if_pos (sub_self _)]

/-- No such value exceeds the largest one. -/
theorem Fp32Exact.le_maxFinite {k : Nat} {e : Int} (h : Fp32Exact k e) : gridValue k e ≤ fp32Fmt.maxFinite := by
  have hmax : fp32Fmt.maxFinite = ((2 ^ 24 - 1 : Nat) : Rat) * (2 : Rat) ^ ((127 : Int) - 23) := by
    have h : fp32Fmt.maxFinite = ((2 ^ 24 - 1 : Nat) : Rat) * pow2 ((127 : Int) - 23) := rfl
    rw [h, pow2_eq]
  rw [hmax]
  have hk : k ≤ 2 ^ 24 - 1 := by have := h.high; omega
  exact mul_le_mul (by exact_mod_cast hk) (zpow_le_zpow_right₀ (by norm_num) (by have := h.eMax; omega))
    (le_of_lt (zpow_pos (by norm_num) _)) (by positivity)

/-- The bits of such a value's magnitude. -/
def fp32Bits (k : Nat) (e : Int) : Nat := if k < 2 ^ 23 then k else (e + 127).toNat * 2 ^ 23 + (k - 2 ^ 23)

theorem Fp32Exact.encodeMag {k : Nat} {e : Int} (h : Fp32Exact k e) (hk : k ≠ 0) : fp32Fmt.encodeMag (gridValue k e) = fp32Bits k e := by
  have hfloor : (k : Rat).floor.toNat = k := by rw [← Int.cast_natCast, Rat.floor_intCast]; rfl
  unfold FloatFmt.encodeMag
  dsimp only
  rw [if_neg (gridValue_ne_zero hk e), h.exponent hk, pow2_eq, show (e - (fp32Fmt.fBits : Int)) = e - 23 from rfl, gridValue_div, hfloor]
  rfl

/-- R109: narrowing such a value to FP32 is exact and counts nothing. -/
theorem Fp32Exact.narrow {k : Nat} {e : Int} (h : Fp32Exact k e) (hk : k ≠ 0) (r : Rnd) (n : Bool) :
    (fp32Fmt.narrow r (.fin n (gridValue k e))).bits = fp32Fmt.signBit n + fp32Bits k e := by
  have hq : (roundMag r (gridValue k e) (fp32Fmt.ulp (gridValue k e)) : Rat) * fp32Fmt.ulp (gridValue k e) = gridValue k e := by
    rw [h.ulp hk, roundMag_exact]
    rfl
  unfold FloatFmt.narrow
  dsimp only
  rw [hq, if_neg (not_lt.mpr h.le_maxFinite), h.encodeMag hk]

/-- The three fields of a format's bits. -/
structure FieldsOf (f : FloatFmt) (v : Nat) (s : Bool) (e m : Nat) : Prop where
  sign : bit v (f.eBits + f.fBits) = s
  exponent : bits v f.fBits f.eBits = e
  fraction : bits v 0 f.fBits = m

/-- FP32's bits of a sign, an exponent code and a fraction have those fields. -/
theorem fields_fp32 (s : Bool) {e m : Nat} (he : e < 256) (hm : m < 2 ^ 23) : FieldsOf fp32Fmt (fp32Fmt.signBit s + (e * 2 ^ 23 + m)) s e m := by
  have hs : fp32Fmt.signBit s = flag s * 2 ^ 31 := rfl
  have hv : ∀ b : Bool, flag b ≤ 1 := by decide
  have hv := hv s
  refine ⟨?_, ?_, ?_⟩
  · have h : (flag s * 2 ^ 31 + (e * 2 ^ 23 + m)) / 2 ^ 31 % 2 = flag s := by omega
    show ((fp32Fmt.signBit s + (e * 2 ^ 23 + m)) / 2 ^ 31 % 2 == 1) = s
    rw [hs, h]
    cases s <;> rfl
  · show (fp32Fmt.signBit s + (e * 2 ^ 23 + m)) / 2 ^ 23 % 2 ^ 8 = e
    omega
  · show (fp32Fmt.signBit s + (e * 2 ^ 23 + m)) / 2 ^ 0 % 2 ^ 23 = m
    omega

/-- R92: what bits of a format with infinities stand for, by their fields. -/
theorem FieldsOf.decode {f : FloatFmt} {v : Nat} {s : Bool} {e m : Nat} (h : FieldsOf f v s e m) (ht : f.top = .ieee) :
    f.decode v = if e = 2 ^ f.eBits - 1 then (if m = 0 then .inf s else .nan)
      else if e = 0 then .fin s ((m : Rat) * pow2 (f.eMin - f.fBits))
      else .fin s (((2 ^ f.fBits + m : Nat) : Rat) * pow2 ((e : Int) - f.bias - f.fBits)) := by
  unfold FloatFmt.decode
  dsimp only
  rw [h.sign, h.exponent, h.fraction, ht]
  simp

/-- R109: the bits decode to the value they were narrowed from. -/
theorem Fp32Exact.decode_bits {k : Nat} {e : Int} (h : Fp32Exact k e) (n : Bool) :
    fp32Fmt.decode (fp32Fmt.signBit n + fp32Bits k e) = .fin n (gridValue k e) := by
  have hhigh := h.high
  have hlow := h.eMin
  have hmax := h.eMax
  by_cases hnormal : k < 2 ^ 23
  · have he : e = -126 := h.low.resolve_left (by omega)
    have hb : fp32Bits k e = 0 * 2 ^ 23 + k := by rw [fp32Bits, if_pos hnormal]; omega
    rw [hb, (fields_fp32 n (by omega) hnormal).decode rfl, if_neg (by decide), if_pos rfl, he, pow2_eq]
    rfl
  · obtain ⟨c, hc⟩ : ∃ c : Nat, e + 127 = c := ⟨(e + 127).toNat, by omega⟩
    have hb : fp32Bits k e = c * 2 ^ 23 + (k - 2 ^ 23) := by rw [fp32Bits, if_neg hnormal, hc]; rfl
    have hk : 2 ^ fp32Fmt.fBits + (k - 2 ^ 23) = k := by show 2 ^ 23 + (k - 2 ^ 23) = k; omega
    have hx : (c : Int) - fp32Fmt.bias - fp32Fmt.fBits = e - 23 := by show (c : Int) - 127 - 23 = e - 23; omega
    rw [hb, (fields_fp32 n (by omega) (by omega)).decode rfl, if_neg (by show ¬ c = 255; omega), if_neg (by omega), hk, hx, pow2_eq]
    rfl

/-- R109: a value that FP32 holds keeps its value. -/
theorem Fp32Exact.kept {k : Nat} {e : Int} (h : Fp32Exact k e) (hk : k ≠ 0) (r : Rnd) (n : Bool) :
    fp32Fmt.decode (fp32Fmt.narrow r (.fin n (gridValue k e))).bits = .fin n (gridValue k e) := by
  rw [h.narrow hk, h.decode_bits]

/-- R92, R109: narrowing to FP32 keeps the value, whatever the rounding. -/
def KeptByFp32 (x : Num) : Prop := ∀ r : Rnd, fp32Fmt.decode (fp32Fmt.narrow r x).bits = x

theorem keptByFp32_nan : KeptByFp32 .nan := by
  intro r
  have hb : (fp32Fmt.narrow r .nan).bits = fp32Fmt.signBit false + (255 * 2 ^ 23 + 2 ^ 22) := rfl
  rw [hb, (fields_fp32 false (by omega) (by omega)).decode rfl, if_pos (by decide), if_neg (by omega)]

theorem keptByFp32_inf (n : Bool) : KeptByFp32 (.inf n) := by
  intro r
  have hb : (fp32Fmt.narrow r (.inf n)).bits = fp32Fmt.signBit n + (255 * 2 ^ 23 + 0) := rfl
  rw [hb, (fields_fp32 n (by omega) (by omega)).decode rfl, if_pos (by decide), if_pos rfl]

theorem keptByFp32_zero (n : Bool) : KeptByFp32 (.fin n 0) := by
  intro r
  have hround : roundMag r 0 (fp32Fmt.ulp 0) = 0 := by
    have h : (0 : Rat) / fp32Fmt.ulp 0 = 0 := zero_div _
    have hzero : (0 : Rat).floor.toNat = 0 := rfl
    unfold roundMag
    dsimp only
    rw [h, hzero, if_pos (by rw [Nat.cast_zero, sub_zero])]
  have hmax : ¬ fp32Fmt.maxFinite < 0 := by
    have h : Fp32Exact 0 (-126) := ⟨.inr rfl, by omega, by omega, by omega⟩
    have := h.le_maxFinite
    rw [gridValue, Nat.cast_zero, zero_mul] at this
    exact not_lt.mpr this
  have hb : (fp32Fmt.narrow r (.fin n 0)).bits = fp32Fmt.signBit n + (0 * 2 ^ 23 + 0) := by
    unfold FloatFmt.narrow
    dsimp only
    rw [hround, Nat.cast_zero, zero_mul, if_neg hmax]
    rfl
  rw [hb, (fields_fp32 n (by omega) (by omega)).decode rfl, if_neg (by decide), if_pos rfl, Nat.cast_zero, zero_mul]

theorem gridValue_shift (m a : Nat) (x e : Int) (h : e = x + 23 - a) : (m : Rat) * pow2 x = gridValue (m * 2 ^ a) e := by
  rw [pow2_eq, gridValue, Nat.cast_mul, Nat.cast_pow, Nat.cast_ofNat, mul_assoc, ← zpow_natCast, ← zpow_add₀ (by norm_num)]
  exact congrArg (fun t : Int => (m : Rat) * (2 : Rat) ^ t) (by omega)

/-- A value of at most 24 bits, on a grid no finer than that of FP32's subnormals, is one that FP32 holds. -/
theorem keptByFp32_fin (n : Bool) {m w : Nat} {x : Int} (hw : w < 24) (hm : m < 2 ^ (w + 1)) (hlow : -149 ≤ x) (hhigh : w + x ≤ 127) :
    KeptByFp32 (.fin n ((m : Rat) * pow2 x)) := by
  by_cases h0 : m = 0
  · rw [h0, Nat.cast_zero, zero_mul]
    exact keptByFp32_zero n
  have hj : m.log2 ≤ w := Nat.le_of_lt_succ ((Nat.log2_lt h0).mpr hm)
  have hmj : m < 2 ^ (m.log2 + 1) := Nat.lt_log2_self
  have hjm : 2 ^ m.log2 ≤ m := Nat.log2_self_le h0
  intro r
  by_cases hnormal : -126 ≤ m.log2 + x
  -- its first bit is the first of FP32's 24
  · have hsum : m.log2 + (23 - m.log2) = 23 := by omega
    have hsum1 : m.log2 + 1 + (23 - m.log2) = 24 := by omega
    have hexact : Fp32Exact (m * 2 ^ (23 - m.log2)) (m.log2 + x) := by
      refine ⟨.inl ?_, ?_, hnormal, by omega⟩
      · calc 2 ^ 23 = 2 ^ m.log2 * 2 ^ (23 - m.log2) := by rw [← pow_add, hsum]
          _ ≤ _ := Nat.mul_le_mul_right _ hjm
      · calc m * 2 ^ (23 - m.log2) < 2 ^ (m.log2 + 1) * 2 ^ (23 - m.log2) := Nat.mul_lt_mul_of_pos_right hmj (by positivity)
          _ = 2 ^ 24 := by rw [← pow_add, hsum1]
    rw [gridValue_shift m (23 - m.log2) x (m.log2 + x) (by omega)]
    exact hexact.kept (Nat.mul_ne_zero h0 (by positivity)) r n
  -- or it lies on the grid of FP32's subnormals
  · obtain ⟨a, ha⟩ : ∃ a : Nat, x + 149 = a := ⟨(x + 149).toNat, by omega⟩
    have hexact : Fp32Exact (m * 2 ^ a) (-126) := by
      refine ⟨.inr rfl, ?_, le_rfl, by omega⟩
      calc m * 2 ^ a < 2 ^ (m.log2 + 1) * 2 ^ a := Nat.mul_lt_mul_of_pos_right hmj (by positivity)
        _ = 2 ^ (m.log2 + 1 + a) := (pow_add ..).symm
        _ ≤ 2 ^ 24 := Nat.pow_le_pow_right (by omega) (by omega)
    rw [gridValue_shift m a x (-126) (by omega)]
    exact hexact.kept (Nat.mul_ne_zero h0 (by positivity)) r n

/-- R92, R109: FP32 holds every value of bf16 and of FP16. -/
theorem keptByFp32_decode {f : FloatFmt} (hf : f = bf16Fmt ∨ f = fp16Fmt) (v : Nat) : KeptByFp32 (f.decode v) := by
  have hfields : FieldsOf f v (bit v (f.eBits + f.fBits)) (bits v f.fBits f.eBits) (bits v 0 f.fBits) := ⟨rfl, rfl, rfl⟩
  have htop : f.top = .ieee := by rcases hf with rfl | rfl <;> rfl
  have hm : bits v 0 f.fBits < 2 ^ f.fBits := Nat.mod_lt _ (by positivity)
  have he : bits v f.fBits f.eBits < 2 ^ f.eBits := Nat.mod_lt _ (by positivity)
  rw [hfields.decode htop]
  split
  · split
    · exact keptByFp32_inf _
    · exact keptByFp32_nan
  · split
    · rcases hf with rfl | rfl
      · exact keptByFp32_fin _ (w := 7) (by decide) (hm.trans (by decide)) (by decide) (by decide)
      · exact keptByFp32_fin _ (w := 10) (by decide) (hm.trans (by decide)) (by decide) (by decide)
    next htopCode _ =>
      rcases hf with rfl | rfl
      · have hm : bits v 0 7 < 2 ^ 7 := hm
        have he : bits v 7 8 < 2 ^ 8 := he
        have hc : ¬ bits v 7 8 = 2 ^ 8 - 1 := htopCode
        exact keptByFp32_fin _ (w := 7) (by decide) (show 2 ^ 7 + bits v 0 7 < 2 ^ 8 by omega)
          (show -149 ≤ (bits v 7 8 : Int) - 127 - 7 by omega) (show 7 + ((bits v 7 8 : Int) - 127 - 7) ≤ 127 by omega)
      · have hm : bits v 0 10 < 2 ^ 10 := hm
        have he : bits v 10 5 < 2 ^ 5 := he
        exact keptByFp32_fin _ (w := 10) (by decide) (show 2 ^ 10 + bits v 0 10 < 2 ^ 11 by omega)
          (show -149 ≤ (bits v 10 5 : Int) - 15 - 10 by omega) (show 10 + ((bits v 10 5 : Int) - 15 - 10) ≤ 127 by omega)

end Sys2Proof.Machine

/-! PROOFS. The vector engine's TOPs and exact conversions (R80, R108, R121, R148, R157). -/
namespace Sys2Proof.Machine
open Sys2Proof

/-- Every VEC is the start of its operation. -/
theorem exec_vecRows (s : State) (n : Nat) : ∀ e ∈ vecRows, exec (e.2 n) s = .next (s.startVec n e.1) :=
  List.map_inj_left.mp (rfl : vecRows.map (fun e => exec (e.2 n) s) = vecRows.map fun e => .next (s.startVec n e.1))

/-- R157: a conversion of bf16 or FP16 to FP32 is the narrowing of the element, counted as nothing. -/
theorem cvtElem_widens {y : VecTop} (hfmt : y.fmt = 1 ∨ y.fmt = 2) (himm : bits y.imm 0 4 = 0) (rnd : Rnd) (e : Nat) :
    cvtElem y rnd e = { bits := (fp32Fmt.narrow rnd (fmtElem y.fmt 0 e)).bits } := by
  have hwiden : cvtWidens y = true := by
    unfold cvtWidens
    rw [himm]
    rcases hfmt with h | h <;> rw [h] <;> rfl
  have hsrc : cvtScaled y.fmt = false := by rcases hfmt with h | h <;> rw [h] <;> rfl
  have htgt : cvtScaled 0 = false := rfl
  have hf : (fmtFloat 0).getD fp32Fmt = fp32Fmt := rfl
  unfold cvtElem
  dsimp only
  rw [if_pos hwiden, himm, if_neg (by decide), hf, hsrc, htgt]
  cases fmtElem y.fmt 0 e <;> rfl

/-- R92: an element of bf16 or FP16 is one that FP32 holds. -/
theorem keptByFp32_elem {c : Nat} (hc : c = 1 ∨ c = 2) (e : Nat) : KeptByFp32 (fmtElem c 0 e) := by
  rcases hc with rfl | rfl
  · exact keptByFp32_decode (.inl rfl) e
  · exact keptByFp32_decode (.inr rfl) e

/-- Settles O26. -/
theorem vectorCommandsRunTheirOperation : Obligations.VectorCommandsRunTheirOperation := by
  unfold Obligations.VectorCommandsRunTheirOperation
  refine ⟨?_, ?_⟩
  · intro s n i f
    refine ⟨fun e he hready => ?_, fun hready => ?_⟩
    · have hexec : exec (e.2 n) s = .next (if (vecTop f.top).count = 0 then s.finishTop n i else s.runVector n i f runVec) := by
        rw [exec_vecRows s n e he, State.startVec, hready.starts]
      exact ⟨fun h => hexec.trans (congrArg _ (if_pos h)), fun h => hexec.trans (congrArg _ (if_neg h))⟩
    · have hexec : exec (.tinCvt n) s = .next (if (tinTop f.top).count = 0 then s.finishTop n i
          else s.runVector n i f fun _ x top => runTinCvt x top) :=
        congrArg Host.Outcome.next (hready.starts _)
      exact ⟨fun h => hexec.trans (congrArg _ (if_pos h)), fun h => hexec.trans (congrArg _ (if_neg h))⟩
  · intro y rnd e hfmt himm he
    show _ ∧ _ ∧ _
    rw [cvtElem_widens hfmt himm]
    exact ⟨rfl, rfl, keptByFp32_elem hfmt e rnd⟩

end Sys2Proof.Machine

/-! PROOFS. The frame of the vector operations: a statistics update that waits behind a VEC may raise a fault (R144, R146). -/
namespace Sys2Proof.Machine
open Sys2Proof

/-- MOV of row 0 of register 0 into register 1. -/
def movRow : Top := BitVec.ofNat 128 (8 + 0x10 * 2 ^ 16 + 2 ^ 24 + 2 ^ 51)

def movFlight : Flight := { top := movRow, seq := 1 }

/-- A tile that starts `movRow` while an earlier TOP's update is owed: tensor 0 has no record among the eight, which hold tensor 1. -/
def tileOwing : Tile :=
  { flight := [movFlight], stats := (List.range 8).map fun k => (k, { valid := true, tag := 1 })
    owed := [{ top := movRow, add := { values := 1 } }], seq := 2 }

def stateOwing : State := { tiles := [(0, tileOwing)] }

theorem stateOwing_canon : stateOwing.Canon := State.canon_of_check _ (by decide)

theorem stateOwing_ready : stateOwing.ready 0 (fun top => topOpcode top == 8 && (vecTop top).vop == 0x10) 0 movFlight := by
  refine ⟨?_, ?_, ?_, ?_⟩ <;> decide

/-- The lost update raises 0x0303, which is recorded. -/
theorem stateOwing_raises : (stateOwing.startVec 0 0x10).ras.recCount = 1 := by decide

/-- Refutes O27: as a MOV leaves the tile's waiting TOPs, a statistics update of an earlier TOP that was owed behind it is applied; where no
record of the block is free for its tensor it raises 0x0303, so that more than the tiles changes. -/
theorem not_vectorElementsAreComputed : ¬ Obligations.VectorElementsAreComputed := by
  unfold Obligations.VectorElementsAreComputed
  rintro ⟨hcells, -⟩
  have hmov := hcells (0x10, .mov, fun a _ _ => a) (List.mem_cons_self ..) stateOwing 0 0 movFlight stateOwing_canon stateOwing_ready
    (by decide) (by decide) (by decide)
  obtain ⟨t, hexec, -, -, hframe⟩ := hmov
  obtain rfl : stateOwing.startVec 0 0x10 = t := Host.Outcome.next.inj hexec
  have hsame : (stateOwing.startVec 0 0x10).ras.recCount = 0 := (congrArg (·.ras.recCount) hframe :)
  rw [stateOwing_raises] at hsame
  exact absurd hsame (by decide)

end Sys2Proof.Machine

/-! PROOFS. The cells and elements of a tile's registers after a write of one (R66). -/
namespace Sys2Proof.Machine
open Sys2Proof

/-! ### Bit fields -/

/-- `v` in place of the `w` bits of `n` from `lo`. -/
def replaceBits (n lo w v : Nat) : Nat := n - bits n lo w * 2 ^ lo + v * 2 ^ lo

theorem replaceBits_eq (n lo w v : Nat) : replaceBits n lo w v = (n / 2 ^ lo / 2 ^ w * 2 ^ w + v) * 2 ^ lo + n % 2 ^ lo := by
  have hlow : n = n / 2 ^ lo * 2 ^ lo + n % 2 ^ lo := (Nat.div_add_mod' n (2 ^ lo)).symm
  have hhigh : n / 2 ^ lo = n / 2 ^ lo / 2 ^ w * 2 ^ w + n / 2 ^ lo % 2 ^ w := (Nat.div_add_mod' _ (2 ^ w)).symm
  have hsplit : n = n / 2 ^ lo / 2 ^ w * 2 ^ w * 2 ^ lo + n / 2 ^ lo % 2 ^ w * 2 ^ lo + n % 2 ^ lo := by
    rw [← Nat.add_mul, ← hhigh, ← hlow]
  unfold replaceBits bits
  rw [Nat.add_mul]
  omega

theorem bits_replaceBits (n lo : Nat) {w v : Nat} (hv : v < 2 ^ w) : bits (replaceBits n lo w v) lo w = v := by
  rw [replaceBits_eq]
  unfold bits
  rw [Nat.mul_comm _ (2 ^ lo), Nat.mul_add_div (by positivity), Nat.div_eq_of_lt (Nat.mod_lt n (by positivity)), Nat.add_zero,
    Nat.mul_add_mod_self_right, Nat.mod_eq_of_lt hv]

theorem bits_replaceBits_above (n lo : Nat) {w v hi u : Nat} (hv : v < 2 ^ w) (h : lo + w ≤ hi) :
    bits (replaceBits n lo w v) hi u = bits n hi u := by
  obtain ⟨d, rfl⟩ := Nat.exists_eq_add_of_le h
  have hsame : replaceBits n lo w v / 2 ^ (lo + w) = n / 2 ^ (lo + w) := by
    rw [replaceBits_eq, pow_add, ← Nat.div_div_eq_div_mul, ← Nat.div_div_eq_div_mul, Nat.mul_comm _ (2 ^ lo), Nat.mul_add_div (by positivity),
      Nat.div_eq_of_lt (Nat.mod_lt n (by positivity)), Nat.add_zero, Nat.mul_comm _ (2 ^ w), Nat.mul_add_div (by positivity),
      Nat.div_eq_of_lt hv, Nat.add_zero]
  unfold bits
  rw [pow_add 2 (lo + w) d, ← Nat.div_div_eq_div_mul, ← Nat.div_div_eq_div_mul, hsame]

theorem bits_replaceBits_below (n w v u : Nat) {lo lo' : Nat} (h : lo' + u ≤ lo) : bits (replaceBits n lo w v) lo' u = bits n lo' u := by
  obtain ⟨d, rfl⟩ := Nat.exists_eq_add_of_le h
  have hmod : ∀ m : Nat, bits m lo' u = m % 2 ^ (lo' + u + d) / 2 ^ lo' % 2 ^ u := by
    intro m
    have hdvd : 2 ^ (lo' + u) ∣ 2 ^ (lo' + u + d) := pow_dvd_pow 2 (by omega)
    have hbits : ∀ k : Nat, k / 2 ^ lo' % 2 ^ u = k % 2 ^ (lo' + u) / 2 ^ lo' := fun k => by rw [pow_add, Nat.mod_mul_right_div_self]
    unfold bits
    rw [hbits, hbits, Nat.mod_mod_of_dvd _ hdvd]
  rw [hmod, hmod n, replaceBits_eq, Nat.mul_add_mod_self_right, Nat.mod_mod]

/-- A field of a word that is replaced leaves the word one of its width. -/
theorem replaceBits_lt {n lo w v k : Nat} (hn : n < 2 ^ k) (hv : v < 2 ^ w) (h : lo + w ≤ k) : replaceBits n lo w v < 2 ^ k := by
  have hsame : replaceBits n lo w v / 2 ^ k = n / 2 ^ k := by
    have := bits_replaceBits_above n lo (u := replaceBits n lo w v + n) hv h
    have hlt : ∀ m ≤ replaceBits n lo w v + n, bits m k (replaceBits n lo w v + n) = m / 2 ^ k := fun m hm =>
      Nat.mod_eq_of_lt (lt_of_le_of_lt (Nat.div_le_self m _) (lt_of_le_of_lt hm Nat.lt_two_pow_self))
    rwa [hlt _ (by omega), hlt _ (by omega)] at this
  rw [Nat.div_eq_of_lt hn] at hsame
  exact (Nat.div_eq_zero_iff_lt (by positivity)).mp hsame

/-! ### Cells -/

theorem Tile.cell_setCell {t : Tile} (h : NatMap.wf 0 t.regs = true) (r i j r' i' j' : Nat) (v : Word32) :
    (t.setCell r i j v).cell r' i' j' = if cellKey r' i' j' = cellKey r i j then v else t.cell r' i' j' := NatMap.get_set h ..

theorem cellKey_inj {r i j r' i' j' : Nat} (hi : i < 64) (hi' : i' < 64) (hj : j < 64) (hj' : j' < 64) :
    cellKey r' i' j' = cellKey r i j ↔ r' = r ∧ i' = i ∧ j' = j := by
  unfold cellKey
  omega

theorem cellKey_row {r i i' j j' : Nat} (hj : j < 64) (hj' : j' < 64) (h : cellKey r i' j' = cellKey r i j) : i' = i ∧ j' = j := by
  unfold cellKey at h
  omega

/-! ### Elements -/

/-- The element widths, which divide a cell. -/
structure DividesCell (w : Nat) : Prop where
  pos : 0 < w
  dvd : w * (32 / w) = 32

theorem DividesCell.fits {w : Nat} (h : DividesCell w) (j : Nat) : w * (j % (32 / w)) + w ≤ 32 := by
  have hpos : 0 < 32 / w := Nat.pos_of_ne_zero fun h0 => by have := h.dvd; rw [h0] at this; omega
  have hlt := Nat.mod_lt j hpos
  calc w * (j % (32 / w)) + w = w * (j % (32 / w) + 1) := by rw [Nat.mul_add, Nat.mul_one]
    _ ≤ w * (32 / w) := Nat.mul_le_mul_left w hlt
    _ = 32 := h.dvd

theorem DividesCell.column_lt {w j : Nat} (h : DividesCell w) (hj : j < elemColumns w) : j / (32 / w) < 64 := by
  have hpos : 0 < 32 / w := Nat.pos_of_ne_zero fun h0 => by have := h.dvd; rw [h0] at this; omega
  exact (Nat.div_lt_iff_lt_mul hpos).mpr hj

theorem Tile.setElem_eq (t : Tile) (w r i j v : Nat) : t.setElem w r i j v =
    t.setCell r i (j / (32 / w)) (BitVec.ofNat 32 (replaceBits (t.cell r i (j / (32 / w))).toNat (w * (j % (32 / w))) w (v % 2 ^ w))) := rfl

/-- An element reads back as it was written. -/
theorem Tile.elem_setElem_same {t : Tile} (h : NatMap.wf 0 t.regs = true) {w : Nat} (hw : DividesCell w) (r i j v : Nat) :
    (t.setElem w r i j v).elem w r i j = v % 2 ^ w := by
  have hv : v % 2 ^ w < 2 ^ w := Nat.mod_lt v (by positivity)
  rw [Tile.setElem_eq, Tile.elem, Tile.cell_setCell h, if_pos rfl, BitVec.toNat_ofNat,
    Nat.mod_eq_of_lt (replaceBits_lt (BitVec.isLt _) hv (hw.fits j)), bits_replaceBits _ _ hv]

/-- Another element of the register keeps its value. -/
theorem Tile.elem_setElem_other {t : Tile} (h : NatMap.wf 0 t.regs = true) {w : Nat} (hw : DividesCell w) (r : Nat) {i j i' j' : Nat} (v : Nat)
    (hj : j < elemColumns w) (hj' : j' < elemColumns w) (hne : i' ≠ i ∨ j' ≠ j) :
    (t.setElem w r i j v).elem w r i' j' = t.elem w r i' j' := by
  have hv : v % 2 ^ w < 2 ^ w := Nat.mod_lt v (by positivity)
  have hc := hw.column_lt hj
  have hc' := hw.column_lt hj'
  rw [Tile.setElem_eq, Tile.elem, Tile.cell_setCell h]
  by_cases hkey : cellKey r i' (j' / (32 / w)) = cellKey r i (j / (32 / w))
  -- two elements of one cell
  · obtain ⟨hi, hcell⟩ := cellKey_row hc hc' hkey
    have hpos : j' % (32 / w) ≠ j % (32 / w) := fun hp => by
      refine hne.elim (absurd hi ·) fun hj => hj ?_
      rw [← Nat.div_add_mod j' (32 / w), hcell, hp, Nat.div_add_mod]
    rw [if_pos hkey, BitVec.toNat_ofNat, Nat.mod_eq_of_lt (replaceBits_lt (BitVec.isLt _) hv (hw.fits j)), Tile.elem, hi, hcell]
    rcases Nat.lt_or_gt_of_ne hpos with hlt | hgt
    · exact bits_replaceBits_below _ _ _ _ (by rw [← Nat.mul_succ]; exact Nat.mul_le_mul_left w hlt)
    · exact bits_replaceBits_above _ _ hv (by rw [← Nat.mul_succ]; exact Nat.mul_le_mul_left w hgt)
  · rw [if_neg hkey, Tile.elem]

end Sys2Proof.Machine

/-! PROOFS. Rows of cells and elements between memory and a tile's registers (R78). -/
namespace Sys2Proof.Machine
open Sys2Proof

/-- A fold over `0 … m - 1` in which step `p` alone writes what `rd` reads leaves there what that step wrote. -/
theorem foldl_range_own {σ α : Type} {P : σ → Prop} {f : σ → Nat → σ} {rd : σ → α} {v : α} {m p : Nat} (hp : p < m)
    (hP : ∀ s i, i < m → P s → P (f s i)) (hset : ∀ s, P s → rd (f s p) = v) (hkeep : ∀ s i, i < m → i ≠ p → P s → rd (f s i) = rd s)
    {s : σ} (hs : P s) : rd ((List.range m).foldl f s) = v := by
  induction m with
  | zero => exact absurd hp (Nat.not_lt_zero p)
  | succ m ih =>
    have hlast : P ((List.range m).foldl f s) :=
      List.foldlRecOn _ _ hs fun b hb i hi => hP b i (Nat.lt_succ_of_lt (List.mem_range.mp hi)) hb
    rw [List.range_succ, List.foldl_append]
    by_cases hpm : p = m
    · subst hpm
      exact hset _ hlast
    · exact (hkeep _ m (Nat.lt_succ_self m) (Ne.symm hpm) hlast).trans
        (ih (by omega) (fun b i hi => hP b i (by omega)) (fun b i hi => hkeep b i (by omega)))

/-! ### One row of a LOAD -/

/-- What `topFault` leaves of a LOAD or STORE that it does not refuse: the cells and columns it names are those of its register. -/
structure XferTop.Fits (d : XferTop) : Prop where
  rows : d.tr = false → d.first + d.count ≤ 64
  cells : d.tr = false → d.cell0 + d.cells ≤ 64
  columns : d.tr = true → d.first + d.count ≤ elemColumns d.width

theorem XferTop.width_divides (d : XferTop) : DividesCell d.width := by
  unfold XferTop.width
  split <;> exact ⟨by decide, by decide⟩

theorem Tile.loadRow_scratch (x : Tile) (d : XferTop) (i : Nat) (bs : List Byte) : (x.loadRow d i bs).scratch = x.scratch := by
  unfold Tile.loadRow
  split
  · exact foldl_same Tile.scratch (by intro _ _; rfl) _ x
  · exact foldl_same Tile.scratch (by intro _ _; rfl) _ x

/-- The cells of a row take the words of its memory row. -/
theorem Tile.cell_loadRow_own {x : Tile} (hx : x.Canon) {d : XferTop} (htr : d.tr = false) (i : Nat) (bs : List Byte) {j : Nat} (hj : j < d.cells) :
    (x.loadRow d i bs).cell d.reg (d.first + i) (d.cell0 + j) = BitVec.ofNat 32 (field bs (4 * j) 4) := by
  unfold Tile.loadRow
  rw [htr, if_neg Bool.false_ne_true]
  exact foldl_range_own (P := Tile.Canon) (rd := fun x : Tile => x.cell d.reg (d.first + i) (d.cell0 + j))
    (f := fun x j => x.setCell d.reg (d.first + i) (d.cell0 + j) (BitVec.ofNat 32 (field bs (4 * j) 4))) hj
    (fun _ _ _ h => Tile.setCell_canon _ _ _ _ h) (fun _ h => (Tile.cell_setCell h.regs ..).trans (if_pos rfl))
    (fun _ q _ hq h => (Tile.cell_setCell h.regs ..).trans (if_neg fun hkey => hq (by unfold cellKey at hkey; omega))) hx

/-- Every other row keeps its cells. -/
theorem Tile.cell_loadRow_other {x : Tile} (hx : x.Canon) {d : XferTop} (htr : d.tr = false) (hd : d.Fits) (i : Nat) (bs : List Byte) {r j : Nat}
    (hr : r ≠ d.first + i) (hj : j < 64) : (x.loadRow d i bs).cell d.reg r j = x.cell d.reg r j := by
  have hcells := hd.cells htr
  unfold Tile.loadRow
  rw [htr, if_neg Bool.false_ne_true]
  refine (List.foldlRecOn (motive := fun y : Tile => y.Canon ∧ y.cell d.reg r j = x.cell d.reg r j) _ _ ⟨hx, rfl⟩ fun y hy c hc => ?_).2
  have hc := List.mem_range.mp hc
  exact ⟨Tile.setCell_canon _ _ _ _ hy.1,
    ((Tile.cell_setCell hy.1.regs ..).trans (if_neg fun hkey => hr (cellKey_row (by omega) hj hkey).1)).trans hy.2⟩

/-- With TR the elements of a column take those of its memory row. -/
theorem Tile.elem_loadRow_own {x : Tile} (hx : x.Canon) {d : XferTop} (htr : d.tr = true) {i : Nat} (hi : d.first + i < elemColumns d.width)
    (bs : List Byte) {j : Nat} (hj : j < 64) :
    (x.loadRow d i bs).elem d.width d.reg j (d.first + i) = bits (ofLe bs) (d.width * j) d.width := by
  unfold Tile.loadRow
  rw [htr, if_pos rfl]
  exact foldl_range_own (P := Tile.Canon) (rd := fun x : Tile => x.elem d.width d.reg j (d.first + i))
    (f := fun x k => x.setElem d.width d.reg k (d.first + i) (bits (ofLe bs) (d.width * k) d.width)) hj
    (fun _ _ _ h => Tile.setElem_canon _ _ _ _ _ h)
    (fun _ h => (Tile.elem_setElem_same h.regs d.width_divides ..).trans (Nat.mod_mod _ _))
    (fun _ q _ hq h => Tile.elem_setElem_other h.regs d.width_divides d.reg _ hi hi (.inl (Ne.symm hq))) hx

/-- Every other column keeps its elements. -/
theorem Tile.elem_loadRow_other {x : Tile} (hx : x.Canon) {d : XferTop} (htr : d.tr = true) {i c : Nat} (hi : d.first + i < elemColumns d.width)
    (hc : c < elemColumns d.width) (hne : c ≠ d.first + i) (bs : List Byte) (j : Nat) :
    (x.loadRow d i bs).elem d.width d.reg j c = x.elem d.width d.reg j c := by
  unfold Tile.loadRow
  rw [htr, if_pos rfl]
  refine (List.foldlRecOn (motive := fun y : Tile => y.Canon ∧ y.elem d.width d.reg j c = x.elem d.width d.reg j c) _ _ ⟨hx, rfl⟩
    fun y hy k _ => ?_).2
  exact ⟨Tile.setElem_canon _ _ _ _ _ hy.1, (Tile.elem_setElem_other hy.1.regs d.width_divides d.reg _ hi hc (.inr hne)).trans hy.2⟩

/-! ### The rows of a LOAD -/

/-- What a LOAD leaves: memory, every other tile and everything but the tiles. -/
structure RegsOn (n : Nat) (s t : State) : Prop where
  canon : t.Canon
  scratch : (t.tile n).scratch = (s.tile n).scratch
  other : ∀ q, q ≠ n → t.tile q = s.tile q
  rest : { t with tiles := s.tiles } = s

theorem RegsOn.refl {n : Nat} {s : State} (hs : s.Canon) : RegsOn n s s := ⟨hs, rfl, fun _ _ => rfl, rfl⟩

theorem RegsOn.loadRow {n : Nat} {s t : State} (h : RegsOn n s t) (d : XferTop) (i : Nat) (bs : List Byte) :
    RegsOn n s (t.modTile n fun x => x.loadRow d i bs) := by
  refine ⟨(t.modTile_keeps n _ fun x hx => Tile.loadRow_canon _ _ _ hx).canon h.canon, ?_, fun q hq => ?_, h.rest⟩
  · rw [State.tile_modTile h.canon, if_pos rfl, Tile.loadRow_scratch, h.scratch]
  · rw [State.tile_modTile h.canon, if_neg hq, h.other q hq]

/-- Memory reads as before. -/
theorem RegsOn.spaceRead {n : Nat} {s t : State} (h : RegsOn n s t) (space off len : Nat) :
    t.spaceRead n space off len = s.spaceRead n space off len := by
  unfold State.spaceRead
  split
  · rw [h.scratch]
  · exact (congrArg (fun u : State => NatMap.getList 0 (u.cluster (tileCluster n)).sram off len) h.rest :)
  · exact (congrArg (fun u : State => readGran u.granary (u.tileSlices n) off len) h.rest :)

theorem State.loadRows_regsOn {s : State} (hs : s.Canon) (n : Nat) (d : XferTop) : RegsOn n s (s.loadRows n d) :=
  List.foldlRecOn _ _ (.refl hs) fun _ h i _ => h.loadRow d i _

/-- The tile after one row more. -/
theorem RegsOn.tile_loadRow {n : Nat} {s t : State} (h : RegsOn n s t) (d : XferTop) (i : Nat) :
    (t.modTile n fun x => x.loadRow d i (t.spaceRead n d.space (d.offset + i * d.stride) d.rowBytes)).tile n =
      (t.tile n).loadRow d i (s.spaceRead n d.space (d.offset + i * d.stride) d.rowBytes) := by
  rw [State.tile_modTile h.canon, if_pos rfl, h.spaceRead]

/-- The cells that a LOAD names hold the words of its memory rows. -/
theorem State.cell_loadRows {s : State} (hs : s.Canon) (n : Nat) {d : XferTop} (htr : d.tr = false) (hd : d.Fits) {k j : Nat}
    (hk : k < d.count) (hj : j < d.cells) :
    ((s.loadRows n d).tile n).cell d.reg (d.first + k) (d.cell0 + j) =
      BitVec.ofNat 32 (field (s.spaceRead n d.space (d.offset + k * d.stride) d.rowBytes) (4 * j) 4) := by
  have hcells := hd.cells htr
  refine foldl_range_own (P := RegsOn n s) (rd := fun t : State => (t.tile n).cell d.reg (d.first + k) (d.cell0 + j)) hk
    (fun _ i _ h => h.loadRow d i _) (fun t h => ?_) (fun t i _ hik h => ?_) (.refl hs)
  · show (State.tile _ n).cell _ _ _ = _
    rw [h.tile_loadRow, Tile.cell_loadRow_own (h.canon.tile n) htr k _ hj]
  · show (State.tile _ n).cell _ _ _ = _
    rw [h.tile_loadRow, Tile.cell_loadRow_other (h.canon.tile n) htr hd i _ (by omega) (by omega)]

/-- The elements that a LOAD with TR names hold those of its memory rows. -/
theorem State.elem_loadRows {s : State} (hs : s.Canon) (n : Nat) {d : XferTop} (htr : d.tr = true) (hd : d.Fits) {k j : Nat}
    (hk : k < d.count) (hj : j < 64) :
    ((s.loadRows n d).tile n).elem d.width d.reg j (d.first + k) =
      bits (ofLe (s.spaceRead n d.space (d.offset + k * d.stride) d.rowBytes)) (d.width * j) d.width := by
  have hcolumns := hd.columns htr
  refine foldl_range_own (P := RegsOn n s) (rd := fun t : State => (t.tile n).elem d.width d.reg j (d.first + k)) hk
    (fun _ i _ h => h.loadRow d i _) (fun t h => ?_) (fun t i hi hik h => ?_) (.refl hs)
  · show (State.tile _ n).elem _ _ _ _ = _
    rw [h.tile_loadRow, Tile.elem_loadRow_own (h.canon.tile n) htr (by omega) _ hj]
  · show (State.tile _ n).elem _ _ _ _ = _
    rw [h.tile_loadRow, Tile.elem_loadRow_other (h.canon.tile n) htr (by omega) (by omega) (by omega)]

/-! ### The rows of a STORE -/

/-- A row that is stored depends on the registers alone. -/
theorem Tile.storeRow_of_regs {x y : Tile} (h : x.regs = y.regs) (d : XferTop) (i : Nat) : x.storeRow d i = y.storeRow d i := by
  have hx : ∀ z : Tile, z.storeRow d i = ({ regs := z.regs } : Tile).storeRow d i := fun _ => rfl
  rw [hx x, hx y, h]

theorem length_flatten_const {α : Type} {n : Nat} {l : List (List α)} (h : ∀ a ∈ l, a.length = n) : l.flatten.length = n * l.length := by
  induction l with
  | nil => rfl
  | cons a l ih =>
    rw [List.flatten_cons, List.length_append, h a (List.mem_cons_self ..), ih fun b hb => h b (List.mem_cons_of_mem _ hb), List.length_cons,
      Nat.mul_succ, Nat.add_comm]

theorem Tile.length_storeRow (x : Tile) (d : XferTop) (i : Nat) : (x.storeRow d i).length = d.rowBytes := by
  unfold Tile.storeRow XferTop.rowBytes
  cases d.tr
  case true => exact length_leBytes _ _
  case false =>
    rw [if_neg Bool.false_ne_true, if_neg Bool.false_ne_true, length_flatten_const (n := 4), List.length_map, List.length_range]
    intro a ha
    obtain ⟨j, -, rfl⟩ := List.mem_map.mp ha
    exact length_leBytes 4 _

/-- What a STORE leaves: the registers of its tile. -/
theorem State.spaceWrite_regs {s : State} (hs : s.Canon) (n space off : Nat) (bs : List Byte) :
    ((s.spaceWrite n space off bs).tile n).regs = (s.tile n).regs := by
  unfold State.spaceWrite
  split
  · rw [State.tile_modTile hs, if_pos rfl]
  · rfl
  · rfl

/-- What is written in the tile's scratch memory or its cluster's SRAM is what is read back. -/
theorem State.spaceRead_spaceWrite {s : State} (hs : s.Canon) (n : Nat) {space : Nat} (h : space ≤ 1) (off : Nat) (bs : List Byte) :
    (s.spaceWrite n space off bs).spaceRead n space off bs.length = bs := by
  have hspace : space = 0 ∨ space = 1 := by omega
  rcases hspace with rfl | rfl
  · show NatMap.getList 0 (State.tile _ n).scratch off bs.length = bs
    rw [State.spaceWrite, State.tile_modTile hs, if_pos rfl]
    exact NatMap.getList_setList (hs.tile n).scratch off bs
  · show NatMap.getList 0 (State.cluster _ (tileCluster n)).sram off bs.length = bs
    rw [State.spaceWrite, State.cluster_modCluster hs]
    exact NatMap.getList_setList (hs.cluster _).sram off bs

theorem NatMap.getList_setList_other {α : Type} [DecidableEq α] {d : α} {m : NatMap α} (h : NatMap.wf d m = true) {a b len : Nat} {l : List α}
    (hd : b + len ≤ a ∨ a + l.length ≤ b) : NatMap.getList d (NatMap.setList d m a l) b len = NatMap.getList d m b len := by
  refine List.map_congr_left fun i hi => ?_
  have hi := List.mem_range.mp hi
  exact NatMap.get_setList_other h a (b + i) l (by omega)

/-- A place apart from what is written reads as before. -/
theorem State.spaceRead_spaceWrite_other {s : State} (hs : s.Canon) (n : Nat) {space : Nat} (h : space ≤ 1) {a b len : Nat} {bs : List Byte}
    (hd : b + len ≤ a ∨ a + bs.length ≤ b) : (s.spaceWrite n space a bs).spaceRead n space b len = s.spaceRead n space b len := by
  have hspace : space = 0 ∨ space = 1 := by omega
  rcases hspace with rfl | rfl
  · show NatMap.getList 0 (State.tile _ n).scratch b len = _
    rw [State.spaceWrite, State.tile_modTile hs, if_pos rfl]
    exact NatMap.getList_setList_other (hs.tile n).scratch hd
  · show NatMap.getList 0 (State.cluster _ (tileCluster n)).sram b len = _
    rw [State.spaceWrite, State.cluster_modCluster hs]
    exact NatMap.getList_setList_other (hs.cluster _).sram hd

/-- A state of a STORE: canonical, with the registers as it found them. -/
structure StoresOf (n : Nat) (s t : State) : Prop where
  canon : t.Canon
  regs : (t.tile n).regs = (s.tile n).regs

theorem StoresOf.write {n : Nat} {s t : State} (h : StoresOf n s t) (space off : Nat) (bs : List Byte) :
    StoresOf n s (t.spaceWrite n space off bs) :=
  ⟨(t.spaceWrite_keeps ..).canon h.canon, (State.spaceWrite_regs h.canon ..).trans h.regs⟩

theorem State.storeRows_storesOf {s : State} (hs : s.Canon) (n : Nat) (d : XferTop) : StoresOf n s (s.storeRows n d) :=
  List.foldlRecOn _ _ ⟨hs, rfl⟩ fun _ h _ _ => h.write ..

/-- Rows that do not overlap read back as they were stored. -/
theorem State.spaceRead_storeRows {s : State} (hs : s.Canon) (n : Nat) {d : XferTop} (hspace : d.space ≤ 1) (hstride : d.rowBytes ≤ d.stride)
    {k : Nat} (hk : k < d.count) :
    (s.storeRows n d).spaceRead n d.space (d.offset + k * d.stride) d.rowBytes = (s.tile n).storeRow d k := by
  refine foldl_range_own (P := StoresOf n s) (rd := fun t : State => t.spaceRead n d.space (d.offset + k * d.stride) d.rowBytes) hk
    (fun _ _ _ h => h.write ..) (fun t h => ?_) (fun t i _ hik h => ?_) ⟨hs, rfl⟩
  · show State.spaceRead _ n d.space _ _ = _
    have hread := State.spaceRead_spaceWrite h.canon n hspace (d.offset + k * d.stride) ((t.tile n).storeRow d k)
    rw [Tile.length_storeRow] at hread
    rw [hread, Tile.storeRow_of_regs h.regs]
  · refine State.spaceRead_spaceWrite_other h.canon n hspace ?_
    rw [Tile.length_storeRow]
    have hmul : ∀ {a b : Nat}, a < b → a * d.stride + d.rowBytes ≤ b * d.stride := fun {a b} hab => by
      calc a * d.stride + d.rowBytes ≤ a * d.stride + d.stride := Nat.add_le_add_left hstride _
        _ = (a + 1) * d.stride := (Nat.succ_mul ..).symm
        _ ≤ b * d.stride := Nat.mul_le_mul_right _ hab
    rcases Nat.lt_or_gt_of_ne hik with hlt | hgt
    · have := hmul hlt
      omega
    · have := hmul hgt
      omega

/-! ### LOAD and STORE -/

/-- A LOAD or STORE that is not refused names cells of its register. -/
theorem XferTop.Fits.of_noFault {env : TileEnv} {x : Tile} {top : Top} (hop : topOpcode top = 2 ∨ topOpcode top = 3) (h : topFault env x top = none) :
    (xferTop top).Fits := by
  have hfault : topFault env x top = (([(xferFieldBad top, 0x0202), (xferBoundsBad env top, 0x0203)] : List (Bool × Nat)).find? (·.1)).map (·.2) := by
    unfold topFault
    rcases hop with h | h <;> (rw [h]; rfl)
  rw [hfault] at h
  have hbounds : xferBoundsBad env top = false := by
    cases hfield : xferFieldBad top <;> cases hbounds : xferBoundsBad env top <;> simp [hfield, hbounds] at h ⊢
  unfold xferBoundsBad at hbounds
  simp only [Bool.or_eq_false_iff] at hbounds
  obtain ⟨⟨-, hd⟩, -⟩ := hbounds
  refine ⟨fun htr => ?_, fun htr => ?_, fun htr => ?_⟩ <;> simp [htr] at hd <;> omega

/-- What `topOpcode` says of a TOP that is ready to start. -/
theorem State.ready.wanted {s : State} {t i : Nat} {want : Top → Bool} {f : Flight} (h : s.ready t want i f) : want f.top = true := by
  obtain ⟨hstart, hflight, -, -⟩ := h
  unfold State.startable at hstart
  dsimp only at hstart
  split at hstart
  · cases hstart
  · have hfound := List.find?_some hstart
    rw [hflight] at hfound
    exact (Bool.and_eq_true_iff.mp hfound).1

theorem State.setPhase_tile {s : State} (hs : s.Canon) (n i : Nat) (ph : FlightPhase) :
    (s.setPhase n i ph).tile n = { s.tile n with flight := (s.tile n).flight.modify i fun f => { f with phase := ph } } :=
  (State.tile_modTile hs n n _).trans (if_pos rfl)

theorem RegsOn.setPhase {n : Nat} {s t : State} (h : RegsOn n s t) (i : Nat) (ph : FlightPhase) : RegsOn n s (t.setPhase n i ph) :=
  ⟨(t.setPhase_keeps n i ph).canon h.canon, (congrArg Tile.scratch (State.setPhase_tile h.canon n i ph)).trans h.scratch,
    fun q hq => ((State.tile_modTile h.canon n q _).trans (if_neg hq)).trans (h.other q hq), h.rest⟩

/-- A LOAD that is ready moves its rows, and is complete at once where it has none. -/
theorem State.ready.load {s : State} {n i : Nat} {f : Flight} (h : s.ready n (fun top => topOpcode top == 2) i f) :
    exec (.load n) s = .next (if (xferTop f.top).count = 0 then s.finishTop n i else (s.loadRows n (xferTop f.top)).setPhase n i .running) :=
  congrArg Host.Outcome.next (h.starts _)

theorem State.ready.store {s : State} {n i : Nat} {f : Flight} (h : s.ready n (fun top => topOpcode top == 3) i f) :
    exec (.store n) s = .next (if (xferTop f.top).count = 0 then s.finishTop n i else (s.storeRows n (xferTop f.top)).setPhase n i .running) :=
  congrArg Host.Outcome.next (h.starts _)

/-- Settles O28: `cell_loadRows` and `elem_loadRows` for LOAD, `storeRows_storesOf` and `spaceRead_storeRows` for STORE. -/
theorem transfersMoveRows : Obligations.TransfersMoveRows := by
  unfold Obligations.TransfersMoveRows
  intro s n i f hs
  refine ⟨fun hready => ⟨fun h => ?_, fun h => ?_⟩, fun hready => ⟨fun h => ?_, fun h => ⟨?_, ?_, fun h1 => ?_, fun hspace hstride k hk => ?_⟩⟩⟩
  · rw [hready.load, if_pos h]
  · have ⟨_, _, _, hnofault⟩ := hready
    have hfits : (xferTop f.top).Fits := .of_noFault (.inl (beq_iff_eq.mp hready.wanted)) hnofault
    have hregs := State.loadRows_regsOn hs n (xferTop f.top)
    have hend := hregs.setPhase i .running
    refine ⟨(s.loadRows n (xferTop f.top)).setPhase n i .running, ?_, fun htr k j hk hj => ?_, fun htr k j hk hj => ?_, hend.scratch, hend.other, hend.rest⟩
    · rw [hready.load, if_neg h]
    · rw [State.setPhase_tile hregs.canon]
      exact State.cell_loadRows hs n htr hfits hk hj
    · rw [State.setPhase_tile hregs.canon]
      exact State.elem_loadRows hs n htr hfits hk hj
  · rw [hready.store, if_pos h]
  · rw [hready.store, if_neg h]
  · exact (State.storeRows_storesOf hs n _).regs
  · unfold State.storeRows
    rw [h1]
    show s.spaceWrite n _ ((xferTop f.top).offset + 0 * (xferTop f.top).stride) _ = _
    rw [Nat.zero_mul, Nat.add_zero]
  · exact State.spaceRead_storeRows hs n hspace hstride hk

end Sys2Proof.Machine

/-! PROOFS. Drains: the new state of a group, and the mismatch that halts a tile (R79, R88, R129, R131, R141, R142). -/
namespace Sys2Proof.Machine
open Sys2Proof

/-! ### A TOP that halts its tile -/

/-- A tile that owes no update settles its groups alone. -/
theorem State.settled_tile_owed {s : State} (hs : s.Canon) {t : Nat} (h : (s.tile t).owed = []) : (s.settled t).tile t = (s.tile t).settle := by
  obtain ⟨q, hq⟩ := s.settled_eq t
  have hset : (s.modTile t Tile.settle).tile t = (s.tile t).settle := (State.tile_modTile hs t t _).trans (if_pos rfl)
  have howed : ((s.modTile t Tile.settle).tile t).owed = [] := by
    obtain ⟨_, _, _, hk⟩ := (s.tile t).settle_kept
    rw [hset, hk]
    exact h
  rw [hq, State.settleStats_owed howed]
  exact hset

/-- A tile halted by a TOP with a fault (R88). -/
def Tile.haltedBy (x : Tile) (n code : Nat) (top : Top) : Tile :=
  { x with faultCode := code, faultOpcode := topOpcode top, faultTop := top, queue := []
           flight := x.flight.take n ++ (x.flight.drop n).filter Flight.runsOn, halted := true, dropRaised := false }

theorem State.haltTile_eq (s : State) (t n code : Nat) (top : Top) : s.haltTile t n code top =
    ((s.modTile t (·.haltedBy n code top)).settled t).modCluster (tileCluster t) fun c => { c with extInt := true } := rfl

theorem State.haltedBy_canon {s : State} (hs : s.Canon) (t n code : Nat) (top : Top) : (s.modTile t (·.haltedBy n code top)).Canon :=
  (s.modTile_keeps t (·.haltedBy n code top) fun _ h => ⟨h.1, h.2⟩).canon hs

theorem State.haltTile_own {s : State} (hs : s.Canon) (t n code : Nat) (top : Top) :
    ((s.haltTile t n code top).tile t).halted = true ∧ ((s.haltTile t n code top).tile t).topCount = (s.tile t).topCount := by
  have hu := State.haltedBy_canon hs t n code top
  rw [State.haltTile_eq, State.modCluster_tile, State.settled_halted hu, State.settled_topCount hu, State.tile_modTile hs, if_pos rfl]
  exact ⟨rfl, rfl⟩

theorem State.haltTile_extInt {s : State} (hs : s.Canon) (t n code : Nat) (top : Top) :
    ((s.haltTile t n code top).cluster (t / 8)).extInt = true := by
  have hu := ((s.modTile t (·.haltedBy n code top)).settled_keeps t).canon (State.haltedBy_canon hs t n code top)
  rw [State.haltTile_eq, show t / 8 = tileCluster t from rfl, State.cluster_modCluster hu]

/-- The tile holds the fault, where no update that it owed leaves another. -/
theorem State.haltTile_fault {s : State} (hs : s.Canon) {t : Nat} (h : (s.tile t).owed = []) (n code : Nat) (top : Top) :
    ((s.haltTile t n code top).tile t).faultCode = code ∧ ((s.haltTile t n code top).tile t).faultTop = top := by
  have hu := State.haltedBy_canon hs t n code top
  have hx : (s.modTile t (·.haltedBy n code top)).tile t = (s.tile t).haltedBy n code top := (State.tile_modTile hs t t _).trans (if_pos rfl)
  have howed : ((s.modTile t (·.haltedBy n code top)).tile t).owed = [] := by rw [hx]; exact h
  obtain ⟨_, _, _, hk⟩ := ((s.tile t).haltedBy n code top).settle_kept
  rw [State.haltTile_eq, State.modCluster_tile, State.settled_tile_owed hu howed, hx, hk]
  exact ⟨rfl, rfl⟩

/-- A TOP in flight that fails halts its tile, in a state that has the tile's other fields. -/
theorem State.topFails_eq {s : State} (hs : s.Canon) {t i : Nat} {f : Flight} (h : (s.tile t).flight[i]? = some f) (code : Nat) :
    ∃ (u : State) (n : Nat) (r : FaultRec), s.topFails t i code = (u.haltTile t n code f.top).raise r ∧ u.Canon ∧
      (u.tile t).topCount = (s.tile t).topCount ∧ (u.tile t).owed = (s.tile t).owed := by
  unfold State.topFails
  dsimp only
  rw [h]
  dsimp only
  refine ⟨_, _, _, rfl, (State.setTile_keeps s t _ ?_).canon hs, ?_, ?_⟩
  · exact fun c => ⟨(c.tile t).1, (c.tile t).2⟩
  · rw [State.tile_setTile _ hs.tab.tiles, if_pos rfl]
  · rw [State.tile_setTile _ hs.tab.tiles, if_pos rfl]

theorem State.topFails_own {s : State} (hs : s.Canon) {t i : Nat} {f : Flight} (h : (s.tile t).flight[i]? = some f) (code : Nat) :
    ((s.topFails t i code).tile t).halted = true ∧ ((s.topFails t i code).tile t).topCount = (s.tile t).topCount ∧
      ((s.topFails t i code).cluster (t / 8)).extInt = true ∧
      ((s.tile t).owed = [] → ((s.topFails t i code).tile t).faultCode = code ∧ ((s.topFails t i code).tile t).faultTop = f.top) := by
  obtain ⟨u, n, r, heq, hu, hcount, howed⟩ := State.topFails_eq hs h code
  obtain ⟨hhalted, htop⟩ := State.haltTile_own hu t n code f.top
  rw [heq, State.raise_tile, State.raise_cluster]
  exact ⟨hhalted, htop.trans hcount, State.haltTile_extInt hu t n code f.top, fun h0 => State.haltTile_fault hu (howed.trans h0) n code f.top⟩

/-! ### The group of a drain -/

/-- R129: the new state of the group. -/
theorem drainFinish_eq (x : Tile) (top : Top) : (drainFinish x top).1 =
    x.setArr (drainTop top).array ((x.arr (drainTop top).array).setGroup (drainTop top).group
      (if (drainTop top).accClose then {} else if (drainTop top).accOpen then { (x.arr (drainTop top).array).group (drainTop top).group with state := .opened }
        else { (x.arr (drainTop top).array).group (drainTop top).group with state := .closed })) := by
  unfold drainFinish drainNewState
  dsimp only
  cases (drainTop top).accClose <;> cases (drainTop top).accOpen <;> rfl

/-- A group that stays rolls up nothing (R131). -/
theorem drainFinish_stats {top : Top} (h : (drainTop top).accClose = false) (x : Tile) : (drainFinish x top).2 = {} := by
  unfold drainFinish drainNewState
  dsimp only
  rw [h]
  cases (drainTop top).accOpen <;> rfl

/-- An update is owed behind those of earlier TOPs, and those that are ready are applied. -/
theorem State.oweStats_statsOn (s : State) (t : Nat) (f : Flight) (a : StatAdd) : StatsOn t s (s.oweStats t f a) := by
  unfold State.oweStats
  split
  · refine StatsOn.trans ?_ (State.settleStats_statsOn _ t)
    refine StatsOn.modTile (State.modTile_keeps s t _ ?_) fun _ => rfl
    exact fun _ h => ⟨h.1, h.2⟩
  · exact State.settleStats_statsOn s t

/-- The tile with the group of drain `f` in its new state. -/
def Tile.drained (x : Tile) (f : Flight) : Tile := { (drainFinish (x.under f) f.top).1 with sr := x.sr }

theorem State.endDrainGroup_eq (s : State) (t : Nat) (f : Flight) :
    s.endDrainGroup t f = (s.setTile t ((s.tile t).drained f)).oweStats t f (drainFinish ((s.tile t).under f) f.top).2 := rfl

theorem Tile.setArr_kept (x : Tile) (b : Bool) (a : MatrixArray) : ∃ p q, x.setArr b a = { x with arrA := p, arrB := q } := by
  cases b
  · exact ⟨a, x.arrB, rfl⟩
  · exact ⟨x.arrA, a, rfl⟩

theorem Tile.drained_kept (x : Tile) (f : Flight) : ∃ p q, x.drained f = { x with arrA := p, arrB := q } := by
  obtain ⟨p, q, h⟩ := (x.under f).setArr_kept (drainTop f.top).array _
  refine ⟨p, q, ?_⟩
  rw [Tile.drained, drainFinish_eq, h]
  rfl

theorem State.drained_canon {s : State} (hs : s.Canon) (t : Nat) (f : Flight) : (s.setTile t ((s.tile t).drained f)).Canon := by
  obtain ⟨p, q, h⟩ := (s.tile t).drained_kept f
  rw [h]
  refine (State.setTile_keeps s t _ ?_).canon hs
  exact fun c => ⟨(c.tile t).1, (c.tile t).2⟩

theorem State.endDrainGroup_own {s : State} (hs : s.Canon) (t : Nat) (f : Flight) :
    ((s.endDrainGroup t f).tile t).sansStats = ((s.tile t).drained f).sansStats := by
  rw [State.endDrainGroup_eq, (State.oweStats_statsOn _ t f _).own (State.drained_canon hs t f), State.tile_setTile _ hs.tab.tiles, if_pos rfl]

theorem State.endDrainGroup_owed {s : State} (hs : s.Canon) {t : Nat} {f : Flight} (howed : (s.tile t).owed = [])
    (hclose : (drainTop f.top).accClose = false) : ((s.endDrainGroup t f).tile t).owed = [] := by
  have hx : ((s.setTile t ((s.tile t).drained f)).tile t).owed = [] := by
    obtain ⟨p, q, h⟩ := (s.tile t).drained_kept f
    rw [State.tile_setTile _ hs.tab.tiles, if_pos rfl, h]
    exact howed
  rw [State.endDrainGroup_eq, drainFinish_stats hclose, State.oweStats, if_neg (by decide), State.settleStats_owed hx, hx]

/-! ### The drain that met a mismatch -/

/-- R141: the drain is counted and halts its tile. -/
theorem State.drainMismatch_own {s : State} (hs : s.Canon) {t i : Nat} {f g : Flight} (h : (s.tile t).flight[i]? = some g) :
    ((s.drainMismatch t i f).tile t).halted = true ∧ ((s.drainMismatch t i f).tile t).topCount = (s.tile t).topCount + 1 ∧
      ((s.drainMismatch t i f).cluster (t / 8)).extInt = true ∧
      ((s.tile t).owed = [] → ((s.drainMismatch t i f).tile t).faultCode = 0x0301 ∧ ((s.drainMismatch t i f).tile t).faultTop = g.top) := by
  unfold State.drainMismatch
  extract_lets v u
  have hu : u.Canon := by
    refine (State.modTile_keeps s t _ ?_).canon hs
    exact fun _ h => ⟨h.1, h.2⟩
  have htile : u.tile t = { s.tile t with topCount := (s.tile t).topCount + 1, flight := (s.tile t).flight.modify i fun g =>
      { g with sr := srAfter v.seed v.gov.phaseStep f.sr f.top } } := (State.tile_modTile hs t t _).trans (if_pos rfl)
  have hflight : (u.tile t).flight[i]? = some { g with sr := srAfter v.seed v.gov.phaseStep f.sr f.top } := by
    rw [htile]
    show ((s.tile t).flight.modify i _)[i]? = _
    rw [List.getElem?_modify_eq, h]
    rfl
  obtain ⟨hhalted, hcount, hint, hfault⟩ := State.topFails_own hu hflight 0x0301
  rw [htile] at hcount hfault
  exact ⟨hhalted, hcount, hint, hfault⟩

/-- Settles O29. -/
theorem drainsRunAndEnd : Obligations.DrainsRunAndEnd := by
  unfold Obligations.DrainsRunAndEnd
  intro s n i f
  refine ⟨fun h => congrArg _ (h.starts _), fun h => congrArg _ (h.starts _), fun h => congrArg _ (h.starts _),
    fun h => congrArg _ (h.starts _), fun h => ⟨fun hm => ?_, fun hm hs => ?_⟩, fun hs => ⟨?_, ?_, rfl⟩⟩
  · have hrun : exec (.drainCompleteTop n .ok) s = .next (if f.mismatch then (s.endDrainGroup n f).drainMismatch n i f
        else (s.endDrainGroup n f).finishTop n i) := congrArg _ (h.completes 0x0A06 .drain _)
    rw [hrun, hm, if_neg Bool.false_ne_true]
  · have hrun : exec (.drainCompleteTop n .ok) s = .next (if f.mismatch then (s.endDrainGroup n f).drainMismatch n i f
        else (s.endDrainGroup n f).finishTop n i) := congrArg _ (h.completes 0x0A06 .drain _)
    have hown := State.endDrainGroup_own hs n f
    obtain ⟨p, q, hkept⟩ := (s.tile n).drained_kept f
    rw [hkept] at hown
    have hflight : ((s.endDrainGroup n f).tile n).flight[i]? = some f := by
      have hsame : ((s.endDrainGroup n f).tile n).flight = (s.tile n).flight := (congrArg Tile.flight hown :)
      rw [hsame]
      exact h.2
    obtain ⟨hhalted, hcount, hint, hfault⟩ := State.drainMismatch_own ((s.endDrainGroup_keeps n f).canon hs) (f := f) hflight
    refine ⟨_, by rw [hrun, hm, if_pos rfl], hhalted, ?_, hint, fun howed hclose => hfault (State.endDrainGroup_owed hs howed hclose)⟩
    have hsame : ((s.endDrainGroup n f).tile n).topCount = (s.tile n).topCount := (congrArg Tile.topCount hown :)
    rw [hcount, hsame]
  · have hown := congrArg (Tile.arr · (drainTop f.top).array) (State.endDrainGroup_own hs n f)
    rw [Tile.drained, drainFinish_eq] at hown
    have harr : ∀ (x : Tile) (b : Bool) (a : MatrixArray), (x.setArr b a).arr b = a := by
      intro x b a
      cases b <;> rfl
    refine Eq.trans (b := (Tile.sansStats _).arr _) rfl (hown.trans ?_)
    exact harr _ _ _
  · have hown := congrArg (Tile.arr · (!(drainTop f.top).array)) (State.endDrainGroup_own hs n f)
    rw [Tile.drained, drainFinish_eq] at hown
    have harr : ∀ (x : Tile) (b : Bool) (a : MatrixArray), (x.setArr b a).arr (!b) = x.arr (!b) := by
      intro x b a
      cases b <;> rfl
    refine Eq.trans (b := (Tile.sansStats _).arr _) rfl (hown.trans ?_)
    exact harr _ _ _

end Sys2Proof.Machine

/-! PROOFS. A failed hallmark column check on a die whose spare arrays are both disabled (R385). -/
namespace Sys2Proof.Machine
open Sys2Proof

/-- An MMA at work. -/
def mmaRunning : Flight := { top := 1, phase := .running }

/-- Tile 0 at work on an MMA, on a die whose spare tile has no array left. -/
def stateNoSpare : State :=
  { tiles := [(0, { flight := [mmaRunning] })], ras := { spares := [(0, { aFailed := true, bFailed := true })] } }

theorem stateNoSpare_canon : stateNoSpare.Canon := State.canon_of_check _ (by decide)

theorem stateNoSpare_atWork : stateNoSpare.atWork 0 isMma 0 mmaRunning := by
  refine ⟨?_, ?_⟩ <;> decide

/-- The array is found wrong at once: no arbitration runs. -/
theorem stateNoSpare_decided : ((stateNoSpare.mmaDone 0 (.column false 0 0 1 0)).tile 0).arbitrating = false := by decide

/-- Refutes O30: where both arrays of the die's spare tile are disabled, a failed column check of an MMA leads to no arbitration: the array is
found wrong at once and its tile quarantined. -/
theorem not_matrixProductsLoadStreamAndClose : ¬ Obligations.MatrixProductsLoadStreamAndClose := by
  unfold Obligations.MatrixProductsLoadStreamAndClose
  intro h
  obtain ⟨-, -, hwork⟩ := h stateNoSpare 0 0 mmaRunning
  obtain ⟨-, hcheck⟩ := hwork stateNoSpare_atWork
  obtain ⟨-, hfail⟩ := hcheck false 0 0 1 0
  obtain ⟨t, hexec, -, harb, -⟩ := hfail stateNoSpare_canon (by decide) (by decide)
  obtain rfl : stateNoSpare.mmaDone 0 (.column false 0 0 1 0) = t := Host.Outcome.next.inj hexec
  rw [stateNoSpare_decided] at harb
  exact Bool.false_ne_true harb

end Sys2Proof.Machine

/-! PROOFS. Toll's calls and the frees by handle (R82, R217 to R219, R233). -/
namespace Sys2Proof.Machine
open Sys2Proof

/-! ### A free by handle -/

theorem State.ctx_modCtx {s : State} (hs : s.Canon) (x j : Nat) (f : Ctx → Ctx) :
    (s.modCtx x f).ctx j = if j = x then f (s.ctx x) else s.ctx j := s.ctx_setCtx hs.tab.ctxs x j _

theorem State.current_eq_some {s : State} {x h : Nat} {o : Obj} (hc : s.current x h = some o) :
    handleIndex h ≠ 0 ∧ o = s.obj x (handleIndex h) ∧ h < 4294967296 := by
  unfold State.current at hc
  dsimp only at hc
  split at hc
  next hlive =>
    obtain ⟨hidx, -, -, hh⟩ := hlive
    exact ⟨hidx, (Option.some.inj hc).symm, hh⟩
  · cases hc

/-- A freed object's place: dead, of the next generation. -/
theorem State.obj_setObj {s : State} (hs : s.Canon) (x i j : Nat) {o : Obj} (ho : o ≠ {}) :
    (s.setObj x i o).obj x j = if j = i then o else s.obj x j := by
  have hctx : (s.setObj x i o).ctx x = { s.ctx x with objects := NatMap.set {} (s.ctx x).objects i o } :=
    (State.ctx_modCtx hs x x _).trans (if_pos rfl)
  rw [State.obj, hctx]
  split
  next h => rw [h]; exact NatMap.get_set_same _ _ ho
  next h => exact NatMap.get_set_ne _ ho h

theorem Obj.next_ne (g : Nat) : ({ gen := g + 1 } : Obj) ≠ {} := fun h => absurd (congrArg Obj.gen h) (Nat.succ_ne_zero g)

/-- A free writes the object's place, and notes the object where a transfer holds it. -/
theorem State.freeIdx_eq (s : State) (x i origin : Nat) : ∃ l, s.freeIdx x i origin = { s.setObj x i { gen := (s.obj x i).gen + 1 } with pendingFrees := l } ∧
    l.length = s.pendingFrees.length + (if s.objBusy x i (s.obj x i).gen then 1 else 0) := by
  unfold State.freeIdx
  dsimp only
  cases s.objBusy x i (s.obj x i).gen
  · exact ⟨s.pendingFrees, rfl, rfl⟩
  · exact ⟨_, rfl, rfl⟩

theorem State.freeIdx_obj {s : State} (hs : s.Canon) (x i origin j : Nat) :
    (s.freeIdx x i origin).obj x j = if j = i then { gen := (s.obj x i).gen + 1 } else s.obj x j := by
  obtain ⟨l, h, -⟩ := s.freeIdx_eq x i origin
  rw [h]
  exact State.obj_setObj hs x i j (Obj.next_ne _)

theorem State.freeIdx_pendingFrees (s : State) (x i origin : Nat) :
    (s.freeIdx x i origin).pendingFrees.length = s.pendingFrees.length + (if s.objBusy x i (s.obj x i).gen then 1 else 0) := by
  obtain ⟨l, h, hlen⟩ := s.freeIdx_eq x i origin
  rw [h]
  exact hlen

theorem State.freeIdx_rest (s : State) (x i origin : Nat) :
    { s.freeIdx x i origin with ctxs := s.ctxs, pendingFrees := s.pendingFrees } = s := by
  obtain ⟨l, h, -⟩ := s.freeIdx_eq x i origin
  rw [h]
  rfl

/-- A handle whose object is dead is not current. -/
theorem State.current_of_dead {s : State} {x h : Nat} (hdead : (s.obj x (handleIndex h)).live = false) : s.current x h = none := by
  unfold State.current
  dsimp only
  rw [hdead, if_neg]
  rintro ⟨-, hlive, -⟩
  exact Bool.false_ne_true hlive

theorem State.freeIdx_current {s : State} (hs : s.Canon) (x h origin : Nat) : (s.freeIdx x (handleIndex h) origin).current x h = none :=
  State.current_of_dead (by rw [State.freeIdx_obj hs, if_pos rfl])

theorem State.freeHandle_some {s : State} {x h : Nat} {o : Obj} (hc : s.current x h = some o) (origin : Nat) :
    s.freeHandle x h origin = (0, s.freeIdx x (handleIndex h) origin) := by
  unfold State.freeHandle
  rw [hc]

theorem State.freeHandle_none {s : State} {x h : Nat} (hc : s.current x h = none) (origin : Nat) : s.freeHandle x h origin = (6, s) := by
  unfold State.freeHandle
  rw [hc]

/-! ### Toll serves a tile's call -/

/-- Toll takes up the call at the head of its queue, where its tile has a call at work. -/
theorem State.atWork.serves {s : State} {n i : Nat} {f : Flight} {rest : List TollCall} (hq : s.tollQueue = .tile n :: rest)
    (h : s.atWork n (fun top => topOpcode top == 10 || topOpcode top == 11) i f) : exec .tollServe s =
      .next (if topOpcode f.top = 10 then State.serveAlloc { s with tollQueue := rest } n i f.top else State.serveFree { s with tollQueue := rest } n i f.top) := by
  obtain ⟨hwork, hflight⟩ := h
  have hserve : s.tollServe = s.serveTile n rest := by
    unfold State.tollServe
    rw [hq]
  have htop : (((s.tile n).flight[i]?).map (·.top)).getD 0 = f.top := by rw [hflight]; rfl
  refine congrArg Host.Outcome.next (hserve.trans ?_)
  unfold State.serveTile
  rw [hwork]
  dsimp only
  rw [htop]

/-- The answer to a call that succeeds. -/
theorem State.tollResult_ok (s : State) (n i result handle : Nat) :
    s.tollResult n i result handle 0 = (s.spaceWrite n 0 result (leBytes 8 handle)).finishTop n i := by
  unfold State.tollResult
  dsimp only
  rw [if_pos rfl, Nat.zero_mul, Nat.add_zero]

/-- The answer to a call that fails, which is counted. -/
theorem State.tollResult_fails {s : State} {n p : Nat} (hp : s.tilePart n = some p) (i result : Nat) {status : Nat} (h : status ≠ 0) :
    s.tollResult n i result 0 status = State.finishTop { s.spaceWrite n 0 result (leBytes 8 (status * 2 ^ 32)) with
      tollFails := NatMap.set {} s.tollFails p ((NatMap.get {} s.tollFails p).add 1) } n i := by
  have htile : (s.spaceWrite n 0 result (leBytes 8 (status * 2 ^ 32))).tilePart n = some p := hp
  unfold State.tollResult
  dsimp only
  rw [Nat.zero_add, if_neg h, htile]
  rfl

/-- TOLL_ALLOC of a tile whose partition has a home context, taken and refused. -/
theorem State.serveAlloc_taken {s u : State} {n p x h : Nat} (hp : s.tilePart n = some p) (hx : s.home p = some x) (i : Nat) {top : Top}
    (hu : s.allocate x (clusterDie (tileCluster n)) (tollAllocFlags top) (tollAllocSize top) = (0, h, u)) :
    s.serveAlloc n i top = u.allocDone n i x top h := by
  unfold State.serveAlloc
  rw [hp, Option.bind_some, hx]
  dsimp only
  rw [hu]
  rfl

theorem State.serveAlloc_refused {s u : State} {n p x st h : Nat} (hp : s.tilePart n = some p) (hx : s.home p = some x) (i : Nat) {top : Top}
    (hu : s.allocate x (clusterDie (tileCluster n)) (tollAllocFlags top) (tollAllocSize top) = (st, h, u)) (hst : st ≠ 0) :
    s.serveAlloc n i top = u.tollResult n i (tollAllocResult top) 0 st := by
  obtain ⟨k, rfl⟩ := Nat.exists_eq_succ_of_ne_zero hst
  unfold State.serveAlloc
  rw [hp, Option.bind_some, hx]
  dsimp only
  rw [hu]
  rfl

theorem State.allocDone_eq (s : State) (n i x : Nat) (top : Top) (h : Nat) : s.allocDone n i x top h =
    ((if (s.obj x (handleIndex h)).tier = .granary then
        s.spaceWrite n 0 (tollAllocResult top + 8) (leBytes 8 (s.objAddr x (s.obj x (handleIndex h)) 0)) else s).spaceWrite n 0
      (tollAllocResult top) (leBytes 8 h)).finishTop n i := State.tollResult_ok ..

/-- One without. -/
theorem State.serveAlloc_homeless {s : State} {n p : Nat} (hp : s.tilePart n = some p) (hx : s.home p = none) (i : Nat) (top : Top) :
    s.serveAlloc n i top = s.tollResult n i (tollAllocResult top) 0 (if (flagsTier (tollAllocFlags top)).isNone then 3 else 5) := by
  unfold State.serveAlloc
  rw [hp, Option.bind_some, hx]

theorem State.serveFree_homeless {s : State} {n p : Nat} (hp : s.tilePart n = some p) (hx : s.home p = none) (i : Nat) (top : Top) :
    s.serveFree n i top = s.tollResult n i (tollFreeResult top) 0 6 := by
  unfold State.serveFree
  dsimp only
  rw [hp, Option.bind_some, hx]

/-- TOLL_FREE of a handle that is not current, and of one that is. -/
theorem State.serveFree_stale {s : State} {n p x : Nat} (hp : s.tilePart n = some p) (hx : s.home p = some x) (i : Nat) {top : Top}
    (hc : s.current x (tollFreeHandle top) = none) : s.serveFree n i top = s.tollResult n i (tollFreeResult top) 0 6 := by
  unfold State.serveFree
  dsimp only
  rw [hp, Option.bind_some, hx]
  dsimp only
  rw [State.freeHandle_none hc, if_pos (Nat.succ_ne_zero 5)]

theorem State.serveFree_current {s : State} {n p x : Nat} (hp : s.tilePart n = some p) (hx : s.home p = some x) (i : Nat) {top : Top} {o : Obj}
    (hc : s.current x (tollFreeHandle top) = some o) : s.serveFree n i top =
      (if s.objBusy x (handleIndex (tollFreeHandle top)) o.gen then
        { (s.freeIdx x (handleIndex (tollFreeHandle top)) 3).setPhase n i .taken with
          tollQueue := .tile n :: (s.freeIdx x (handleIndex (tollFreeHandle top)) 3).tollQueue }
      else (s.freeIdx x (handleIndex (tollFreeHandle top)) 3).tollResult n i (tollFreeResult top) (tollFreeHandle top) 0) := by
  obtain ⟨-, rfl, -⟩ := State.current_eq_some hc
  have hlen := s.freeIdx_pendingFrees x (handleIndex (tollFreeHandle top)) 3
  unfold State.serveFree
  dsimp only
  rw [hp, Option.bind_some, hx]
  dsimp only
  rw [State.freeHandle_some hc, if_neg (not_not_intro rfl)]
  dsimp only
  rw [hlen]
  cases s.objBusy x (handleIndex (tollFreeHandle top)) (s.obj x (handleIndex (tollFreeHandle top))).gen
  · rw [if_neg (by simp), if_neg Bool.false_ne_true]
  · rw [if_pos (by simp), if_pos rfl]

/-- Toll serves no other call while the one at the head of its queue waits for transfers. -/
theorem State.tollServe_waits {s : State} {n : Nat} {rest : List TollCall} (hq : s.tollQueue = .tile n :: rest)
    (hrun : s.runningTop n (fun top => topOpcode top == 10 || topOpcode top == 11) = none) (htaken : (s.tile n).flight.any (·.phase == .taken) = true) :
    s.tollServe = s := by
  unfold State.tollServe
  rw [hq]
  dsimp only
  unfold State.serveTile
  rw [hrun]
  exact if_pos htaken

/-- With the call taken, and no other of the tile, none is at work. -/
theorem runningToll_none {l : List Flight} {i : Nat} (h : ∀ j g, j ≠ i → l[j]? = some g → g.isToll = false) :
    ((l.modify i fun f => { f with phase := .taken }).findIdx? fun f => f.phase == .running && (topOpcode f.top == 10 || topOpcode f.top == 11)) = none := by
  rw [List.findIdx?_eq_none_iff]
  intro g hg
  obtain ⟨j, hj⟩ := List.mem_iff_getElem?.mp hg
  by_cases hji : j = i
  · subst hji
    rw [List.getElem?_modify_eq] at hj
    obtain ⟨f, -, rfl⟩ := Option.map_eq_some_iff.mp hj
    rfl
  · rw [List.getElem?_modify_ne _ _ (Ne.symm hji)] at hj
    have htoll : (topOpcode g.top == 10 || topOpcode g.top == 11) = false := h j g hji hj
    rw [htoll, Bool.and_false]

theorem any_taken_modify {l : List Flight} {i : Nat} {f : Flight} (h : l[i]? = some f) :
    ((l.modify i fun f => { f with phase := .taken }).any (·.phase == .taken)) = true := by
  refine List.any_eq_true.mpr ⟨{ f with phase := .taken }, List.mem_iff_getElem?.mpr ⟨i, ?_⟩, rfl⟩
  rw [List.getElem?_modify_eq, h]
  rfl

/-! ### FREE_COMPLETE -/

/-- The call that waited for its object's transfers is answered. -/
theorem State.tollFreed_taken {s : State} {n i : Nat} {g : Flight} {rest : List TollCall} (hq : s.tollQueue = .tile n :: rest)
    (htaken : (s.tile n).flight.findIdx? (·.phase == .taken) = some i) (hflight : (s.tile n).flight[i]? = some g) :
    s.tollFreed = (State.spaceWrite { s with tollQueue := rest } n 0 (tollFreeResult g.top) (leBytes 8 (tollFreeHandle g.top))).finishTop n i := by
  have htop : (((s.tile n).flight[i]?).map (·.top)).getD 0 = g.top := by rw [hflight]; rfl
  unfold State.tollFreed
  rw [hq]
  dsimp only
  rw [htaken]
  dsimp only
  rw [htop, State.tollResult_ok]

/-- The only free that waits ends. -/
theorem State.freeComplete_single {s : State} {f : PendingFree} (hf : s.pendingFrees = [f]) (hbusy : s.objBusy f.ctx f.index f.gen = false) :
    s.freeComplete f.ctx f.index = State.freed { s with pendingFrees := [] } f := by
  have hl : (s.pendingFrees.filter fun g => g.ctx == f.ctx && g.index == f.index && !s.objBusy f.ctx f.index g.gen) = [f] := by
    rw [hf, List.filter_singleton, hbusy, beq_self_eq_true, beq_self_eq_true]
    rfl
  have hrest : (s.pendingFrees.filter fun g => !([f] : List PendingFree).contains g) = [] := by
    rw [hf, List.filter_singleton, List.contains_cons, beq_self_eq_true]
    rfl
  unfold State.freeComplete
  dsimp only
  rw [hl, hrest]
  rfl

/-- A context that does not end has nothing to do once a free is complete. -/
theorem State.endStep_of_running {s : State} {x : Nat} (h : (s.ctx x).ending = 0) : s.endStep x = s := by
  unfold State.endStep
  exact if_pos (.inl h)

/-! ### MEM_FREE and U_FREE -/

theorem State.memFree_zero (s : State) (x : Nat) : s.memFree x 0 = s := if_pos rfl

theorem State.memFree_eq {s : State} {x h : Nat} (hlive : s.ctxLive x = true) (h0 : h ≠ 0) (hh : h < 2 ^ 32) : s.memFree x h =
    (s.freeHandle x h 0).2.modMem fun m => { m with freeStatus := (s.freeHandle x h 0).1, freeBusy := (s.freeHandle x h 0).2.freeWaits x 0 } := by
  unfold State.memFree
  dsimp only
  rw [Nat.mod_eq_of_lt hh, if_neg h0, hlive, if_pos rfl]

/-- A context's U_FREE registers after a free. -/
def Ctx.uFreed (c : Ctx) (status : Nat) (busy : Bool) : Ctx := { c with uFreeStatus := status, uFreeBusy := busy }

theorem State.uFree_zero (s : State) (x : Nat) : s.uFree x 0 = s := if_pos rfl

theorem State.uFree_eq {s : State} {x h : Nat} (hlive : s.ctxLive x = true) (h0 : h ≠ 0) (hh : h < 2 ^ 32) {r : Nat × State}
    (hr : (if handleIndex h != 1 then s.freeHandle x h 1 else (6, s)) = r) :
    s.uFree x h = r.2.modCtx x (·.uFreed r.1 (r.2.freeWaits x 1)) := by
  subst hr
  unfold State.uFree
  dsimp only
  rw [Nat.mod_eq_of_lt hh, if_neg h0, hlive, Bool.true_and]
  rfl

/-- The objects of a context after its U_FREE registers are written. -/
theorem State.obj_modCtx {s : State} (hs : s.Canon) (x : Nat) {f : Ctx → Ctx} (hf : (f (s.ctx x)).objects = (s.ctx x).objects) (j : Nat) :
    (s.modCtx x f).obj x j = s.obj x j := by
  rw [State.obj, State.ctx_modCtx hs, if_pos rfl, hf, State.obj]

/-! ### The statement -/

theorem tollAnswers {s : State} {n i : Nat} {f : Flight} {rest : List TollCall} (hq : s.tollQueue = .tile n :: rest) (h : s.atWork n (fun top => topOpcode top == 10 || topOpcode top == 11) i f) :
    (topOpcode f.top = 10 → exec .tollServe s = .next (State.serveAlloc { s with tollQueue := rest } n i f.top)) ∧
    (topOpcode f.top = 11 → exec .tollServe s = .next (State.serveFree { s with tollQueue := rest } n i f.top)) := by
  rw [h.serves hq]
  exact ⟨fun hop => congrArg _ (if_pos hop), fun hop => congrArg _ (if_neg (by omega))⟩

/-- A TOLL_FREE whose object is held leaves its call at the head of the queue. -/
theorem State.serveFree_held {s : State} (hs : s.Canon) {n i p x : Nat} {f : Flight} {rest : List TollCall} {o : Obj}
    (hq : s.tollQueue = .tile n :: rest) (hp : s.tilePart n = some p) (hx : s.home p = some x) (hflight : (s.tile n).flight[i]? = some f)
    (hc : s.current x (tollFreeHandle f.top) = some o) (hbusy : s.objBusy x (handleIndex (tollFreeHandle f.top)) o.gen = true) {t : State}
    (ht : State.serveFree { s with tollQueue := rest } n i f.top = t) :
    t.tollQueue = s.tollQueue ∧ t.current x (tollFreeHandle f.top) = none ∧ (t.tile n).topCount = (s.tile n).topCount ∧
      ((∀ j g, j ≠ i → (s.tile n).flight[j]? = some g → g.isToll = false) → t.tollServe = t) := by
  let u : State := { s with tollQueue := rest }
  have hu : u.Canon := ⟨⟨hs.mem.granary, hs.mem.hbm, hs.mem.pond, hs.mem.tiles, hs.mem.clusters⟩,
    ⟨hs.tab.parts, hs.tab.stageObj, hs.tab.stageLen, hs.tab.weirs, hs.tab.querns, hs.tab.resolves, hs.tab.tollFails, hs.tab.testNext,
      hs.tab.testResults, hs.tab.tiles, hs.tab.clusters, hs.tab.leats, hs.tab.ctxs, hs.tab.qps, hs.tab.ports, hs.tab.selects⟩⟩
  have hserve := State.serveFree_current (s := u) hp hx i hc
  rw [if_pos (show u.objBusy x (handleIndex (tollFreeHandle f.top)) o.gen = true from hbusy)] at hserve
  rw [hserve] at ht
  have hfree := (u.freeIdx_keeps x (handleIndex (tollFreeHandle f.top)) 3).canon hu
  obtain ⟨l, hidx, -⟩ := u.freeIdx_eq x (handleIndex (tollFreeHandle f.top)) 3
  have hqueue : (u.freeIdx x (handleIndex (tollFreeHandle f.top)) 3).tollQueue = rest := by rw [hidx]; rfl
  have htile : (u.freeIdx x (handleIndex (tollFreeHandle f.top)) 3).tile n = s.tile n := by rw [hidx]; rfl
  have hphase := State.setPhase_tile hfree n i .taken
  rw [htile] at hphase
  have htn : t.tile n = { s.tile n with flight := (s.tile n).flight.modify i fun f => { f with phase := .taken } } := by
    rw [← ht]
    exact hphase
  have htq : t.tollQueue = .tile n :: rest := by
    rw [← ht, hqueue]
  refine ⟨htq.trans hq.symm, ?_, by rw [htn], fun hother => ?_⟩
  · rw [← ht]
    exact State.freeIdx_current hu x (tollFreeHandle f.top) 3
  · refine State.tollServe_waits htq ?_ ?_
    · unfold State.runningTop
      split
      · rfl
      · rw [htn]
        exact runningToll_none hother
    · rw [htn]
      exact any_taken_modify hflight

/-- Settles O31. -/
theorem objectsAreAllocatedAndFreed : Obligations.ObjectsAreAllocatedAndFreed := by
  unfold Obligations.ObjectsAreAllocatedAndFreed
  refine ⟨?_, ?_, ?_⟩
  · intro s n i p f rest hq hp hwork
    obtain ⟨halloc, hfree⟩ := tollAnswers hq hwork
    refine ⟨fun x st h u hop hx hu => ⟨fun hst hup => ?_, fun hst htier => ?_, fun hst htier => ?_⟩, fun hop hx => ?_, fun hop hx => ?_,
      fun x hop hx => ⟨fun hc => ?_, fun o hc => ⟨fun hbusy => ?_, fun hbusy hs => ?_⟩⟩⟩
    · rw [halloc hop, State.serveAlloc_refused (s := { s with tollQueue := rest }) hp hx i hu hst]
      exact congrArg _ (State.tollResult_fails hup i _ hst)
    · subst hst
      rw [halloc hop, State.serveAlloc_taken (s := { s with tollQueue := rest }) hp hx i hu, State.allocDone_eq, if_neg htier]
    · subst hst
      rw [halloc hop, State.serveAlloc_taken (s := { s with tollQueue := rest }) hp hx i hu, State.allocDone_eq, if_pos htier]
    · rw [halloc hop, State.serveAlloc_homeless (s := { s with tollQueue := rest }) hp hx]
      exact congrArg _ (State.tollResult_fails (s := { s with tollQueue := rest }) hp i _ (by split <;> decide))
    · rw [hfree hop, State.serveFree_homeless (s := { s with tollQueue := rest }) hp hx]
      exact congrArg _ (State.tollResult_fails (s := { s with tollQueue := rest }) hp i _ (by decide))
    · rw [hfree hop, State.serveFree_stale (s := { s with tollQueue := rest }) hp hx i hc]
      exact congrArg _ (State.tollResult_fails (s := { s with tollQueue := rest }) hp i _ (by decide))
    · rw [hfree hop, State.serveFree_current (s := { s with tollQueue := rest }) hp hx i hc, State.tollResult_ok]
      have hidle : State.objBusy { s with tollQueue := rest } x (handleIndex (tollFreeHandle f.top)) o.gen = false := hbusy
      rw [hidle, if_neg Bool.false_ne_true]
    · obtain ⟨hqueue, hnone, hcount, hwaits⟩ := State.serveFree_held hs hq hp hx hwork.2 hc hbusy rfl
      exact ⟨_, hfree hop, hqueue, hnone, hcount, fun hother => congrArg _ (hwaits hother)⟩
  · intro s n i f g rest hq htaken hflight hpend horigin hbusy
    have hfreed := State.tollFreed_taken (s := { s with pendingFrees := [] }) hq htaken hflight
    refine congrArg Host.Outcome.next ((State.freeComplete_single hpend hbusy).trans ?_)
    unfold State.freed
    rw [horigin]
    exact congrArg (State.endStep · f.ctx) hfreed
  · intro s rq x h hs hlive hh
    refine ⟨fun hmay hx => ⟨?_, fun hc h0 => ?_, fun o hc => ?_⟩, fun hmay hx => ⟨?_, fun h0 hc => ?_, fun o hc hi => ?_⟩,
      fun f hpend horigin hbusy => ⟨?_, fun hend => State.endStep_of_running hend⟩⟩
    · exact congrArg Host.Outcome.next ((if_pos hmay).trans (State.memFree_zero ..))
    · refine congrArg Host.Outcome.next ((if_pos hmay).trans ?_)
      rw [hx, State.memFree_eq hlive h0 hh, State.freeHandle_none hc]
      rfl
    · obtain ⟨hidx, rfl, -⟩ := State.current_eq_some hc
      have h0 : h ≠ 0 := by rintro rfl; exact hidx rfl
      have hexec : exec (.memFree rq h) s = .next ((s.freeIdx x (handleIndex h) 0).modMem fun m =>
          { m with freeStatus := 0, freeBusy := (s.freeIdx x (handleIndex h) 0).freeWaits x 0 }) := by
        refine congrArg Host.Outcome.next ((if_pos hmay).trans ?_)
        rw [hx, State.memFree_eq hlive h0 hh, State.freeHandle_some hc]
      refine ⟨_, hexec, rfl, State.freeIdx_current hs x h 0, ?_, fun i hi => ?_, s.freeIdx_pendingFrees x (handleIndex h) 0, ?_⟩
      · exact (congrArg Obj.gen ((State.freeIdx_obj hs x (handleIndex h) 0 _).trans (if_pos rfl)) :)
      · exact (State.freeIdx_obj hs x (handleIndex h) 0 i).trans (if_neg hi)
      · exact (congrArg (fun u : State => ({ u with mem := s.mem } : State)) (s.freeIdx_rest x (handleIndex h) 0) :)
    · exact congrArg Host.Outcome.next ((if_pos (by rw [hmay, decide_eq_true hx]; rfl)).trans (State.uFree_zero ..))
    · refine congrArg Host.Outcome.next ((if_pos (by rw [hmay, decide_eq_true hx]; rfl)).trans ?_)
      have hr : (if handleIndex h != 1 then s.freeHandle x h 1 else (6, s)) = (6, s) := by
        rcases hc with hc | hi
        · rw [State.freeHandle_none hc, ite_self]
        · rw [hi]; rfl
      rw [State.uFree_eq hlive h0 hh hr]
      rfl
    · obtain ⟨hidx, rfl, -⟩ := State.current_eq_some hc
      have h0 : h ≠ 0 := by rintro rfl; exact hidx rfl
      have hr : (if handleIndex h != 1 then s.freeHandle x h 1 else (6, s)) = (0, s.freeIdx x (handleIndex h) 1) := by
        rw [State.freeHandle_some hc, if_pos (bne_iff_ne.mpr hi)]
      have hfree := (s.freeIdx_keeps x (handleIndex h) 1).canon hs
      have hobj : ∀ busy j, ((s.freeIdx x (handleIndex h) 1).modCtx x (·.uFreed 0 busy)).obj x j =
          if j = handleIndex h then { gen := (s.obj x (handleIndex h)).gen + 1 } else s.obj x j :=
        fun busy j => (State.obj_modCtx (f := (·.uFreed 0 busy)) hfree x rfl j).trans (State.freeIdx_obj hs ..)
      refine ⟨_, congrArg Host.Outcome.next ((if_pos (by rw [hmay, decide_eq_true hx]; rfl)).trans (State.uFree_eq hlive h0 hh hr)), ?_, ?_, fun i hi => ?_, ?_⟩
      · rw [State.ctx_modCtx hfree, if_pos rfl]
        rfl
      · refine State.current_of_dead ?_
        rw [hobj, if_pos rfl]
      · rw [hobj, if_neg hi]
      · exact s.freeIdx_rest x (handleIndex h) 1
    · refine congrArg Host.Outcome.next ((State.freeComplete_single hpend hbusy).trans ?_)
      unfold State.freed
      rw [horigin]
      rfl

end Sys2Proof.Machine

/-! PROOFS. A signal while a step abandoned before still owes its arrival (R236, R264). -/
namespace Sys2Proof.Machine
open Sys2Proof

/-- Partition 0 has cluster 0 and one sync object; no collective table is loaded, and an ABORT arrival is still owed. -/
def stateOwingAbort : State :=
  { parts := [(0, { state := .armed, map := { clusters := 1, syncQuota := 1 } })], weirs := [(0, { abortDue := true })] }

theorem stateOwingAbort_canon : stateOwingAbort.Canon := State.canon_of_check _ (by decide)

/-- What is owed is looked at with the signal, so that it is owed no longer. -/
theorem stateOwingAbort_signalled : ((stateOwingAbort.syncSignal (.core 0) 0 0).weir 0).abortDue = false := by decide

/-- Refutes O32: a signal that is a regression still has the sync unit look at what it owes, so that an ABORT arrival that an abandoned step
owed is taken up with it; more changes than SYNC_REGRESS and the fault. -/
theorem not_fencesAdvanceAndReleaseWaits : ¬ Obligations.FencesAdvanceAndReleaseWaits := by
  unfold Obligations.FencesAdvanceAndReleaseWaits
  intro h
  obtain ⟨hsignal, -, -⟩ := h stateOwingAbort 0 stateOwingAbort_canon rfl rfl rfl
  obtain ⟨-, -, hregress⟩ := hsignal 0 0 0 (by decide) (by decide)
  have hexec := hregress (by decide) (by decide)
  have hstate := Host.Outcome.next.inj (hexec.symm.trans (show _ = Host.Outcome.next (stateOwingAbort.syncSignal (.core 0) 0 0) from rfl))
  have hdue := stateOwingAbort_signalled
  rw [← hstate, State.raise_weir] at hdue
  exact absurd hdue (by decide)

end Sys2Proof.Machine

/-! PROOFS. The Quern's ingests and lagged sweeps (R193, R194, R199). -/
namespace Sys2Proof.Machine
open Sys2Proof

/-! ### What the Quern's memory accesses leave -/

theorem State.readObj_querns (s : State) (x : Nat) (o : Obj) (off len : Nat) : (s.readObj x o off len).2.2.querns = s.querns := by
  unfold State.readObj
  dsimp only
  split <;> rfl

theorem State.writeObj_querns (s : State) (x : Nat) (o : Obj) (off : Nat) (bs : List Byte) : (s.writeObj x o off bs).2.querns = s.querns := by
  unfold State.writeObj
  dsimp only
  split <;> rfl

theorem State.quernReads_querns (s : State) (x h epoch : Nat) (l : List (Nat × Nat)) : (s.quernReads x h epoch l).2.2.querns = s.querns := by
  induction l generalizing s with
  | nil => rfl
  | cons a l ih =>
    unfold State.quernReads
    dsimp only
    split
    · rfl
    · exact (ih _).trans (State.readObj_querns ..)

theorem State.quernWrites_querns (s : State) (x h epoch : Nat) (l : List (Nat × List Byte)) : (s.quernWrites x h epoch l).2.querns = s.querns := by
  induction l generalizing s with
  | nil => rfl
  | cons a l ih =>
    unfold State.quernWrites
    dsimp only
    split
    · rfl
    · exact (ih _).trans (State.writeObj_querns ..)

/-- The state keeps its form, and every Quern its groups. -/
structure GroupsKept (s t : State) : Prop where
  canon : s.Canon → t.Canon
  groups : s.Canon → ∀ p d, (t.quern p d).groups = (s.quern p d).groups

theorem GroupsKept.refl (s : State) : GroupsKept s s := ⟨id, fun _ _ _ => rfl⟩

theorem GroupsKept.trans {s t u : State} (h : GroupsKept s t) (k : GroupsKept t u) : GroupsKept s u :=
  ⟨k.canon ∘ h.canon, fun hs p d => (k.groups (h.canon hs) p d).trans (h.groups hs p d)⟩

theorem GroupsKept.of_querns {s t : State} (hk : Keeps s t) (h : t.querns = s.querns) : GroupsKept s t :=
  ⟨hk.canon, fun _ p d => by rw [State.quern, State.quern, h]⟩

theorem State.quern_modQuern {s : State} (hs : s.Canon) (p d i j : Nat) (f : Quern → Quern) :
    (s.modQuern p d f).quern i j = if 8 * i + j = 8 * p + d then f (s.quern p d) else s.quern i j := s.quern_setQuern hs.tab.querns p d i j _

theorem State.quern_of_key (s : State) {p d i j : Nat} (h : 8 * i + j = 8 * p + d) : s.quern i j = s.quern p d := by
  rw [State.quern, State.quern, h]

theorem GroupsKept.modQuern (s : State) (p d : Nat) {f : Quern → Quern} (hf : ∀ q, (f q).groups = q.groups) : GroupsKept s (s.modQuern p d f) := by
  refine ⟨(s.modQuern_keeps p d f).canon, fun hs i j => ?_⟩
  rw [State.quern_modQuern hs]
  split
  next h => rw [hf, s.quern_of_key h]
  · rfl

theorem GroupsKept.raise (s : State) (f : FaultRec) : GroupsKept s (s.raise f) := .of_querns (s.raise_keeps f) (s.raise_querns f)

theorem GroupsKept.reads (s : State) (x h epoch : Nat) (l : List (Nat × Nat)) : GroupsKept s (s.quernReads x h epoch l).2.2 :=
  .of_querns (s.quernReads_keeps ..) (s.quernReads_querns ..)

theorem GroupsKept.writes (s : State) (x h epoch : Nat) (l : List (Nat × List Byte)) : GroupsKept s (s.quernWrites x h epoch l).2 :=
  .of_querns (s.quernWrites_keeps ..) (s.quernWrites_querns ..)

theorem GroupsKept.foldQuerns (s : State) (p : Nat) {f : Quern → Quern} (hf : ∀ q, (f q).groups = q.groups) : GroupsKept s (s.foldQuerns p f) :=
  List.foldlRecOn _ _ (.refl s) fun _ h d _ => h.trans (.modQuern _ p d hf)

theorem State.keepForward_groups (s : State) (x p d slot epoch : Nat) (sh : Shard) : GroupsKept s (s.keepForward x p d slot epoch sh).2 := by
  unfold State.keepForward
  dsimp only
  split
  · exact .refl s
  · split
    · exact .reads ..
    · exact (GroupsKept.reads ..).trans (.writes ..)

theorem State.sweepShard_groups (s : State) (x p d k step slot epoch : Nat) (rules : NatMap RuleSet) (sh : Shard) :
    GroupsKept s (s.sweepShard x p d k step slot epoch rules sh).2 := by
  have hskip : ∀ (u : State) (f : FaultRec), GroupsKept u ((u.modQuern p d fun q =>
      { q.setRun k { q.run k with skipped := true } with skips := q.skips.add 1 }).raise f) :=
    fun u f => by
      refine GroupsKept.trans ?_ (.raise ..)
      exact .modQuern u p d fun _ => rfl
  unfold State.sweepShard
  extract_lets q cw act rs base new h g src data u skip seed o w v z
  have hword : GroupsKept s cw.2.2 := .reads ..
  have hhalf : GroupsKept s h.2.2 := hword.trans (.reads ..)
  have hgrad : GroupsKept s u := hhalf.trans (.reads ..)
  have hskipped : ∀ code, GroupsKept s (skip u code).2 := by
    intro code
    refine hgrad.trans ?_
    show GroupsKept u (if sh.lagged = true then _ else _ : Option QFail × State).2
    split
    · exact (hskip u _).trans (State.keepForward_groups ..)
    · exact hskip u _
  have hwrites : GroupsKept s z := by
    have hw : GroupsKept s w.2 := hgrad.trans (.writes ..)
    have hv : GroupsKept s v.2 := by
      show GroupsKept s (if sh.lagged = true then _ else _ : Option QFail × State).2
      split
      · exact hw.trans (.writes ..)
      · exact hw
    exact hv.trans (.modQuern _ p d fun _ => rfl)
  split
  · exact hword
  · split
    · exact hword
    · split
      · exact hhalf
      · split
        · exact hgrad
        · split
          · exact hskipped _
          · split
            · exact hskipped _
            · exact hwrites

theorem State.sweepShards_groups (s : State) (x p d step slot epoch : Nat) (rules : NatMap RuleSet) (l : List (Nat × Shard)) :
    GroupsKept s (s.sweepShards x p d step slot epoch rules l).2 := by
  induction l generalizing s with
  | nil => exact .refl s
  | cons a l ih =>
    unfold State.sweepShards
    dsimp only
    split
    · exact State.sweepShard_groups ..
    · exact (State.sweepShard_groups ..).trans (ih _)

theorem State.queueIngests_groups (s : State) (p : Nat) : GroupsKept s (s.queueIngests p) := .foldQuerns s p fun _ => rfl

/-! ### Ingests -/

/-- An ingest that is due copies the gradient into the half that the commit word does not name. -/
theorem State.ingest_of_writes {s s1 u : State} {x p d k w : Nat} {sh : Shard} (hword : s.commitWord x (s.quern p d) k = (w, none, s1))
    (hwrites : s1.quernWrites x sh.obj ((s.quern p d).epoch k (!bit w 0) false)
      [((if bit w 0 then sh.offA else sh.offB) + partOffset sh ((s.quern p d).layoutRule sh) .grad,
        padded (ingestBytes (readGran s.granary ((s.part p).map.slices d) sh.gradOff (8 * sh.count))).1)] = (none, u)) :
    s.ingest x p d k sh = u.modQuern p d fun q =>
      { (q.setEpoch k (!bit w 0) true ((s.quern p d).epoch k (!bit w 0) false)).setRun k { q.run k with ingesting := true } with
        ready := q.ready.filter (· != k) } := by
  have hbase : (if !bit w 0 then sh.offB else sh.offA) = if bit w 0 then sh.offA else sh.offB := by cases bit w 0 <;> rfl
  unfold State.ingest
  dsimp only
  rw [hword]
  dsimp only
  rw [hbase, hwrites]

theorem State.quernCheck_ok (s : State) (p d : Nat) : s.quernCheck p d .ok = (true, s) := rfl

theorem ShardRun.ingesting_ne (r : ShardRun) : ({ r with ingesting := true } : ShardRun) ≠ {} := fun h => Bool.noConfusion (congrArg ShardRun.ingesting h)

theorem Quern.run_setRun (q : Quern) (k j : Nat) {r : ShardRun} (hr : r ≠ {}) : (q.setRun k r).run j = if j = k then r else q.run j := by
  split
  next h => rw [h]; exact NatMap.get_set_same _ _ hr
  next h => exact NatMap.get_set_ne _ hr h

/-! ### Lagged sweeps -/

theorem find?_range_eq_some {p : Nat → Bool} {n k : Nat} (hk : k < n) (hp : p k = true) (hfirst : ∀ j, j < k → p j = false) :
    (List.range n).find? p = some k := by
  rw [List.find?_range_eq_some]
  exact ⟨hp, List.mem_range.mpr hk, fun j hj => by rw [hfirst j hj]; rfl⟩

/-- The slot a lagged sweep takes (R199): its own, cut short, else the lowest FREE one. -/
theorem LagGroup.sweepSlot_eq {r : LagGroup} {k : Nat} (hk : k < r.nslot)
    (h : ((r.slot k).state = .writing ∧ ∀ j, j < k → (r.slot j).state ≠ .writing) ∨
      ((r.slot k).state = .free ∧ (∀ j, j < r.nslot → (r.slot j).state ≠ .writing) ∧ ∀ j, j < k → (r.slot j).state ≠ .free)) :
    r.sweepSlot = some k := by
  have hne : ∀ {a b : SlotState}, a ≠ b → (a == b) = false := fun h => beq_eq_false_iff_ne.mpr h
  unfold LagGroup.sweepSlot
  rcases h with ⟨hwriting, hfirst⟩ | ⟨hfree, hnone, hfirst⟩
  · rw [find?_range_eq_some hk (by rw [hwriting]; rfl) fun j hj => hne (hfirst j hj)]
    rfl
  · have hn : ((List.range r.nslot).find? fun k => (r.slot k).state == .writing) = none :=
      List.find?_eq_none.mpr fun j hj => by rw [hne (hnone j (List.mem_range.mp hj))]; exact Bool.false_ne_true
    rw [hn, find?_range_eq_some hk (by rw [hfree]; rfl) fun j hj => hne (hfirst j hj)]
    rfl

theorem LagGroup.sweepSlot_none {r : LagGroup} (h : ∀ k, k < r.nslot → (r.slot k).state = .committed) : r.sweepSlot = none := by
  have hn : ∀ st : SlotState, st ≠ .committed → ((List.range r.nslot).find? fun k => (r.slot k).state == st) = none := fun st hst =>
    List.find?_eq_none.mpr fun j hj => by
      rw [h j (List.mem_range.mp hj)]
      exact fun hbeq => hst (beq_iff_eq.mp hbeq).symm
  unfold LagGroup.sweepSlot
  rw [hn .writing (by decide), hn .free (by decide)]
  rfl

theorem LagGroup.slot_setSlot (r : LagGroup) (k j : Nat) {v : VersionSlot} (hv : v ≠ {}) : (r.setSlot k v).slot j = if j = k then v else r.slot j := by
  split
  next h => rw [h]; exact NatMap.get_set_same _ _ hv
  next h => exact NatMap.get_set_ne _ hv h

theorem State.takeEpoch_canon {s : State} (hs : s.Canon) (kid : Nat) : (s.takeEpoch kid).2.Canon := (s.takeEpoch_keeps kid).canon hs

/-- The group with a sweep that writes slot `k`. -/
def LagGroup.sweeps (r : LagGroup) (k epoch : Nat) (rules : NatMap RuleSet) : LagGroup :=
  { r.setSlot k { state := .writing, epoch := epoch } with sweeping := some (r.nextStep, k), slotWaitRaised := false, sweptRules := rules }

theorem LagGroup.sweeps_ne (r : LagGroup) (k epoch : Nat) (rules : NatMap RuleSet) : r.sweeps k epoch rules ≠ {} :=
  fun h => Option.some_ne_none _ (congrArg LagGroup.sweeping h)

theorem LagGroup.slot_sweeps (r : LagGroup) (k j epoch : Nat) (rules : NatMap RuleSet) :
    (r.sweeps k epoch rules).slot j = if j = k then { state := .writing, epoch := epoch } else r.slot j :=
  LagGroup.slot_setSlot r k j fun h => SlotState.noConfusion (congrArg VersionSlot.state h)

/-- The epoch its writes take: a sweep cut short keeps its own. -/
def State.sweepEpoch (s : State) (x p d g k : Nat) : Nat × State :=
  if ((NatMap.get {} (s.quern p d).groups g).slot k).state == .writing then (((NatMap.get {} (s.quern p d).groups g).slot k).epoch, s)
  else s.takeEpoch (s.ctxKid x)

theorem State.sweepEpoch_canon {s : State} (hs : s.Canon) (x p d g k : Nat) : (s.sweepEpoch x p d g k).2.Canon := by
  unfold State.sweepEpoch
  split
  · exact hs
  · exact State.takeEpoch_canon hs _

/-- The rule sets latched for its step. -/
def State.sweepRules (s : State) (p d g : Nat) : NatMap RuleSet :=
  NatMap.get [] (s.quern p d).laggedRules (NatMap.get {} (s.quern p d).groups g).nextStep

/-- The state in which it runs. -/
def State.sweepStarted (s : State) (x p d g k : Nat) : State :=
  let r := NatMap.get {} (s.quern p d).groups g
  let e := s.sweepEpoch x p d g k
  e.2.modQuern p d fun q => { q with groups := NatMap.set {} q.groups g (r.sweeps k e.1 (s.sweepRules p d g)) }

theorem State.sweepStarted_canon {s : State} (hs : s.Canon) (x p d g k : Nat) : (s.sweepStarted x p d g k).Canon := by
  unfold State.sweepStarted
  exact (State.modQuern_keeps _ p d _).canon (State.sweepEpoch_canon hs x p d g k)

/-- Its run over the group's shards. -/
def State.sweepRun (s : State) (x p d g k : Nat) : Option QFail × State :=
  (s.sweepStarted x p d g k).sweepShards x p d (NatMap.get {} (s.quern p d).groups g).nextStep k (s.sweepEpoch x p d g k).1 (s.sweepRules p d g)
    ((s.quern p d).groupShards g)

/-- A lagged sweep that has a slot runs over its group's shards, and stops the Quern where it fails. -/
theorem State.laggedSweep_eq {s : State} {p d x g k : Nat} (hx : s.home p = some x) (hdue : s.laggedDue p d g = true)
    (hslot : (NatMap.get {} (s.quern p d).groups g).sweepSlot = some k) :
    s.laggedSweep p d g .ok = ((s.sweepRun x p d g k).1.map ((s.sweepRun x p d g k).2.quernStop p d)).getD (s.sweepRun x p d g k).2 := by
  have hrun : s.laggedSweep p d g .ok = (match (s.sweepRun x p d g k).1 with
      | some f => (s.sweepRun x p d g k).2.quernStop p d f
      | none => (s.sweepRun x p d g k).2) := by
    unfold State.laggedSweep
    rw [hx]
    dsimp only
    rw [if_pos hdue, hslot]
    dsimp only
    rw [State.quernCheck_ok, if_neg (show ¬ (!(true, s).1) = true from Bool.false_ne_true)]
    rfl
  rw [hrun]
  cases (s.sweepRun x p d g k).1 <;> rfl

theorem State.quernStop_stopped {s : State} (hs : s.Canon) (p d : Nat) (f : QFail) : ((s.quernStop p d f).quern p d).stopped = true := by
  unfold State.quernStop
  rw [State.raise_quern, State.quern_modQuern hs, if_pos rfl]

/-- R194, R199: the slot is WRITING while the sweep runs. -/
theorem State.laggedSweep_slot {s : State} (hs : s.Canon) {p d x g k : Nat} (hx : s.home p = some x) (hdue : s.laggedDue p d g = true)
    (hslot : (NatMap.get {} (s.quern p d).groups g).sweepSlot = some k) {t : State} (ht : s.laggedSweep p d g .ok = t)
    (hrun : (t.quern p d).stopped = false) :
    ∃ epoch rules, NatMap.get {} (t.quern p d).groups g = (NatMap.get {} (s.quern p d).groups g).sweeps k epoch rules := by
  have hsweep := State.laggedSweep_eq hx hdue hslot
  have hcanon := State.sweepStarted_canon hs x p d g k
  have hkept : GroupsKept (s.sweepStarted x p d g k) (s.sweepRun x p d g k).2 := State.sweepShards_groups ..
  rw [ht] at hsweep
  cases hw : (s.sweepRun x p d g k).1 with
  | some f =>
    rw [hw] at hsweep
    rw [hsweep, Option.map_some, Option.getD_some, State.quernStop_stopped (hkept.canon hcanon)] at hrun
    exact absurd hrun.symm Bool.false_ne_true
  | none =>
    rw [hw] at hsweep
    refine ⟨(s.sweepEpoch x p d g k).1, s.sweepRules p d g, ?_⟩
    rw [hsweep, Option.map_none, Option.getD_none, hkept.groups hcanon, State.sweepStarted,
      State.quern_modQuern (State.sweepEpoch_canon hs ..), if_pos rfl]
    exact NatMap.get_set_same _ _ (LagGroup.sweeps_ne _ _ _ _)

theorem LagGroup.commit_ne (r : LagGroup) (step k : Nat) : r.commit step k ≠ {} := fun h => Nat.succ_ne_zero step (congrArg LagGroup.newest h)

/-- R194: the slot of a sweep that commits. -/
theorem LagGroup.slot_commit (r : LagGroup) (step k : Nat) :
    ((r.commit step k).slot k).state = .committed ∧ ((r.commit step k).slot k).version = step + 1 := by
  have hset : ∀ refs, (r.setSlot k { version := step + 1, refs := refs, state := .committed, epoch := (r.slot k).epoch }).slot k =
      { version := step + 1, refs := refs, state := .committed, epoch := (r.slot k).epoch } := fun refs =>
    (LagGroup.slot_setSlot r k k fun h => Nat.succ_ne_zero step (congrArg VersionSlot.version h)).trans (if_pos rfl)
  have hslot : (r.commit step k).slot k = _ := hset _
  rw [hslot]
  exact ⟨rfl, rfl⟩

theorem State.flipShards_canon {s : State} (hs : s.Canon) (x p d step : Nat) (l : List (Nat × Shard)) : (s.flipShards x p d step l).2.Canon :=
  (s.flipShards_keeps x p d step l).canon hs

/-- LAGGED_COMMIT of a sweep whose commit words are written. -/
theorem State.laggedCommit_group {s u : State} (hs : s.Canon) {p d x g step k : Nat} (hx : s.home p = some x)
    (hsweep : (NatMap.get {} (s.quern p d).groups g).sweeping = some (step, k)) (hon : s.quernOn p d = true)
    (hflip : s.flipShards x p d step ((s.quern p d).groupShards g) = (none, u)) :
    NatMap.get {} ((s.laggedCommit p d g).quern p d).groups g = (NatMap.get {} (u.quern p d).groups g).commit step k := by
  have hu : u.Canon := by
    have h := State.flipShards_canon hs x p d step ((s.quern p d).groupShards g)
    rwa [hflip] at h
  unfold State.laggedCommit
  dsimp only
  rw [hsweep, hx]
  dsimp only
  rw [if_pos hon, hflip]
  dsimp only
  refine (congrArg (NatMap.get {} · g) ((State.queueIngests_groups _ p).groups ((State.modQuern_keeps u p d _).canon hu) p d)).trans ?_
  rw [State.quern_modQuern hu, if_pos rfl]
  exact NatMap.get_set_same _ _ (LagGroup.commit_ne _ _ _)

/-- Settles O33. -/
theorem gradientsAndLaggedVersionsAreKept : Obligations.GradientsAndLaggedVersionsAreKept := by
  unfold Obligations.GradientsAndLaggedVersionsAreKept
  intro s p d x hs hx
  refine ⟨fun k sh w s1 u hsh hdue hword hwrites => ?_, fun k hw hnot => ?_, fun k sh hsh hing hon hstep => ⟨?_, ?_⟩,
    fun g hdue => ⟨fun hall => ?_, fun k hk hslot => ?_⟩, fun g hw ⟨e, he, hbad⟩ => ?_, fun g step k u hsweep hon hflip => ?_⟩
  · have hu : u.Canon := by
      have hs1 : s1.Canon := by
        have h := (s.commitWord_keeps x (s.quern p d) k).canon hs
        rwa [hword] at h
      rw [← show _ = u from congrArg Prod.snd hwrites]
      exact (State.quernWrites_keeps ..).canon hs1
    have hexec : s.quernIngest p d k .ok = s.ingest x p d k sh := by
      unfold State.quernIngest
      rw [hsh, hx]
      dsimp only
      rw [if_pos hdue, State.quernCheck_ok]
      rfl
    refine ⟨s.ingest x p d k sh, congrArg _ hexec, ?_⟩
    rw [State.ingest_of_writes hword hwrites]
    refine ⟨?_, ?_, fun j hj => ?_, rfl⟩
    · rw [State.quern_modQuern hu, if_pos rfl]
      exact (congrArg ShardRun.ingesting ((Quern.run_setRun _ k k (ShardRun.ingesting_ne _)).trans (if_pos rfl)) :)
    · rw [State.quern_modQuern hu, if_pos rfl]
    · rw [State.quern_modQuern hu, if_pos rfl]
      exact ((Quern.run_setRun _ k j (ShardRun.ingesting_ne _)).trans (if_neg hj) :)
  · have hdue : ∀ sh, s.ingestDue p d k sh = false := by
      intro sh
      unfold State.ingestDue
      dsimp only
      rcases hnot with hhead | hany
      · rw [beq_eq_false_iff_ne.mpr hhead, Bool.and_false]
      · rw [hany, Bool.not_true, Bool.and_false, Bool.false_and]
    refine congrArg Host.Outcome.next ?_
    unfold State.quernIngest
    split
    · rw [hdue, if_neg Bool.false_ne_true]
    · rfl
  · rw [State.quern_setQuern _ hs.tab.querns, if_pos rfl]
    refine (congrArg ShardRun.ingested ((Quern.run_setRun _ k k ?_).trans (if_pos rfl)) :)
    exact fun h => Bool.noConfusion (congrArg ShardRun.ingested h)
  · have hexec : s.ingestComplete p d k = State.quernSignal (s.setQuern p d ((s.quern p d).setRun k { (s.quern p d).run k with
        ingesting := false, ingested := true })) p d sh.freeSync ((s.quern p d).shardStep sh + 1) := by
      unfold State.ingestComplete
      dsimp only
      rw [hsh]
      dsimp only
      rw [hing, hon, hstep]
      exact if_pos rfl
    exact congrArg Host.Outcome.next hexec
  · refine congrArg Host.Outcome.next ?_
    unfold State.laggedSweep
    rw [hx]
    dsimp only
    rw [if_pos hdue, LagGroup.sweepSlot_none hall]
  · refine ⟨s.laggedSweep p d g .ok, rfl, fun hrun => ?_⟩
    obtain ⟨epoch, rules, hgroup⟩ := State.laggedSweep_slot hs hx hdue (LagGroup.sweepSlot_eq hk hslot) rfl hrun
    rw [hgroup]
    refine ⟨rfl, ?_, fun j hj => ?_⟩
    · rw [LagGroup.slot_sweeps, if_pos rfl]
    · rw [LagGroup.slot_sweeps, if_neg hj]
  · have hdue : s.laggedDue p d g = false := by
      have hall : ((s.quern p d).groups.all fun e => e.2.sweeping.isNone &&
          (decide (g ≤ e.1) || decide ((NatMap.get {} (s.quern p d).groups g).nextStep < e.2.nextStep))) = false := by
        refine List.all_eq_false.mpr ⟨e, he, ?_⟩
        rcases hbad with hsweep | ⟨hlt, hle⟩
        · rw [Option.isNone_eq_false_iff.mpr (Option.isSome_iff_ne_none.mpr hsweep)]
          exact Bool.false_ne_true
        · rw [decide_eq_false (by omega), decide_eq_false (by omega), Bool.or_self, Bool.and_false]
          exact Bool.false_ne_true
      unfold State.laggedDue
      dsimp only
      rw [hall, Bool.and_false]
    refine congrArg Host.Outcome.next ?_
    unfold State.laggedSweep
    rw [hx]
    dsimp only
    rw [hdue, if_neg Bool.false_ne_true]
  · obtain ⟨hstate, hversion⟩ := LagGroup.slot_commit (NatMap.get {} (u.quern p d).groups g) step k
    have hgroup := State.laggedCommit_group hs hx hsweep hon hflip
    refine ⟨s.laggedCommit p d g, rfl, ?_⟩
    rw [hgroup]
    exact ⟨hstate, hversion, rfl, rfl, rfl⟩

end Sys2Proof.Machine

/-! PROOFS. The Quern's latch, sweep and flip pass (Table 08.6, R188, R194, R196). -/
namespace Sys2Proof.Machine
open Sys2Proof

theorem bit_eq_testBit (v i : Nat) : bit v i = v.testBit i := by
  rw [Nat.testBit_eq_decide_div_mod_eq]
  rfl

/-- A mask has the bits that are listed. -/
theorem bit_maskOf (l : List Nat) (i : Nat) : bit (maskOf l) i = l.contains i := by
  have hfold : ∀ (l : List Nat) (a : Nat), (l.foldl (fun a i => a ||| 2 ^ i) a).testBit i = (a.testBit i || l.contains i) := by
    intro l
    induction l with
    | nil => intro a; rw [List.foldl_nil, List.contains_nil, Bool.or_false]
    | cons n l ih =>
      intro a
      rw [List.foldl_cons, ih, Nat.testBit_or, Nat.testBit_two_pow, List.contains_cons, Bool.or_assoc]
      congr 2
      rw [Bool.beq_eq_decide_eq, decide_eq_decide]
      exact eq_comm
  rw [bit_eq_testBit, maskOf, hfold, Nat.zero_testBit, Bool.false_or]

theorem contains_filter_range (f : Nat → Bool) {n k : Nat} (hk : k < n) : ((List.range n).filter f).contains k = f k := by
  rw [Bool.eq_iff_iff, List.contains_iff_mem, List.mem_filter, List.mem_range]
  exact ⟨fun h => h.2, fun h => ⟨hk, h⟩⟩

/-! ### The latch -/

/-- Rule set `k` is what VALID shows of it: one in use passes Table 08.5, one that is not has its VALID bit. -/
def Quern.ruleGood (q : Quern) (m : NatMap RuleSet) (k : Nat) : Bool :=
  if q.shards.any (·.ruleset == k) then q.ruleOk m k else (NatMap.get {} m k).valid

/-- A rule set in use breaks Table 08.5. -/
def Quern.rulesBad (q : Quern) (m : NatMap RuleSet) : Bool :=
  (List.range 16).any fun k => q.shards.any (·.ruleset == k) && !q.ruleGood m k

theorem Quern.rulesBad_iff (q : Quern) (m : NatMap RuleSet) :
    q.rulesBad m = true ↔ ∃ k sh, k < 16 ∧ sh ∈ q.shards ∧ sh.ruleset = k ∧ q.ruleOk m k = false := by
  have hgood : ∀ k, q.shards.any (·.ruleset == k) = true → q.ruleGood m k = q.ruleOk m k := fun k h => by rw [Quern.ruleGood, if_pos h]
  rw [Quern.rulesBad, List.any_eq_true]
  constructor
  · rintro ⟨k, hk, hbad⟩
    obtain ⟨hused, hgood'⟩ := Bool.and_eq_true_iff.mp hbad
    obtain ⟨sh, hsh, hrule⟩ := List.any_eq_true.mp hused
    rw [hgood k hused, Bool.not_eq_true'] at hgood'
    exact ⟨k, sh, List.mem_range.mp hk, hsh, beq_iff_eq.mp hrule, hgood'⟩
  · rintro ⟨k, sh, hk, hsh, hrule, hok⟩
    have hused : q.shards.any (·.ruleset == k) = true := List.any_eq_true.mpr ⟨sh, hsh, beq_iff_eq.mpr hrule⟩
    exact ⟨k, List.mem_range.mpr hk, Bool.and_eq_true_iff.mpr ⟨hused, by rw [hgood k hused, hok]; rfl⟩⟩

/-- The Quern with the rule sets `m` latched. -/
def Quern.latches (q r : Quern) (m : NatMap RuleSet) : Quern :=
  { q with latched := m, latchedFor := some q.step, latchBad := r.rulesBad m, ruleValid := maskOf ((List.range 16).filter (r.ruleGood m)) }

theorem State.readRules_querns (s : State) (x : Nat) (q : Quern) : (s.readRules x q).2.2.querns = s.querns := s.quernReads_querns ..

theorem State.ruleLatch_eq {s u : State} {p d x : Nat} {m : NatMap RuleSet} (hx : s.home p = some x)
    (hdue : (s.quernOn p d && s.stepOn p (s.quern p d).step && (s.quern p d).latchedFor != some (s.quern p d).step &&
      (s.quern p d).goAwait != (s.quern p d).step + 1 && waitOk (s.syncValue p (s.quern p d).goSync) (BitVec.ofNat 64 ((s.quern p d).step + 1))) = true)
    (hread : s.readRules x (s.quern p d) = (m, none, u)) :
    s.ruleLatch p d = if (s.quern p d).rulesBad m then (u.modQuern p d (·.latches (s.quern p d) m)).raise { code := 0x0406, loc := locQuern p d, severity := 0 }
      else u.modQuern p d (·.latches (s.quern p d) m) := by
  unfold State.ruleLatch
  dsimp only
  rw [if_pos hdue, hx]
  dsimp only
  rw [hread]
  rfl

theorem State.ruleLatch_quern {u : State} (hu : u.Canon) (p d : Nat) (q : Quern) (m : NatMap RuleSet) (r : FaultRec) :
    State.quern (if q.rulesBad m then (u.modQuern p d (·.latches q m)).raise r else u.modQuern p d (·.latches q m)) p d = (u.quern p d).latches q m := by
  split
  · rw [State.raise_quern, State.quern_modQuern hu, if_pos rfl]
  · rw [State.quern_modQuern hu, if_pos rfl]

/-- R188: with such a rule set the step's sweep does not start. -/
theorem State.quernSweep_latchBad {t : State} {p d : Nat} (h : (t.quern p d).latchBad = true) (hw : HwCheck) : t.quernSweep p d hw = t := by
  have hdue : t.sweepDue p d = false := by
    unfold State.sweepDue
    dsimp only
    rw [h, Bool.not_true, Bool.and_false, Bool.false_and, Bool.false_and, Bool.false_and, Bool.false_and, Bool.false_and]
  unfold State.quernSweep
  split
  · rfl
  · rw [hdue, if_neg Bool.false_ne_true]

/-! ### The flip pass -/

theorem Quern.sweepClass_flipped {q : Quern} {k : Nat} {sh : Shard} (h : (k, sh) ∈ q.sweepClass) (w step : Nat) : sh.flipped w step = false := by
  obtain ⟨-, hlagged⟩ := List.mem_filter.mp h
  have hl : sh.lagged = false := Bool.not_eq_true' _ |>.mp hlagged
  rw [Shard.flipped, hl, Bool.false_and]

/-- The flip pass over one shard of the sweep class. -/
theorem State.flipShards_single {s s1 u : State} {x p d k w step : Nat} {sh : Shard} (hsh : (k, sh) ∈ (s.quern p d).sweepClass)
    (hword : s.commitWord x (s.quern p d) k = (w, none, s1))
    (hwrites : s1.quernWrites x (s.quern p d).loadedTable 0 [(0x800 + 8 * k, leBytes 8 (pack
      [(0, 1, flag (if ((s.quern p d).run k).skipped then bit w 0 else !bit w 0)), (1, 1, flag ((s.quern p d).run k).skipped), (16, 48, step + 1)]))] = (none, u)) :
    s.flipShards x p d step [(k, sh)] = (none, u) := by
  unfold State.flipShards
  dsimp only
  rw [hword]
  dsimp only
  rw [Quern.sweepClass_flipped hsh, if_neg Bool.false_ne_true, hwrites]
  rfl

/-! ### The statement -/

/-- FLIP_COMPLETE goes to the next step. -/
def Quern.flips (q : Quern) : Quern :=
  { q with
    flipping := false, swept := false, step := q.step + 1, version := (q.step + 1) % 2 ^ 48
    runs := q.sweepClass.foldl (fun m e => NatMap.set {} m e.1 { await := (q.run e.1).await }) q.runs
    laggedRules := if q.groups.isEmpty then q.laggedRules else NatMap.set [] q.laggedRules q.step q.latched }

/-- Queued ingests aside, a Quern stays. -/
theorem State.queueIngests_quern {s : State} (hs : s.Canon) (p i j : Nat) : ∃ l, (s.queueIngests p).quern i j = { s.quern i j with ready := l } := by
  unfold State.queueIngests State.foldQuerns
  refine (List.foldlRecOn (motive := fun t : State => t.Canon ∧ ∃ l, t.quern i j = { s.quern i j with ready := l }) _ _ ⟨hs, _, rfl⟩ fun t ht d _ => ?_).2
  obtain ⟨hcanon, l, hl⟩ := ht
  refine ⟨(State.modQuern_keeps t p d _).canon hcanon, ?_⟩
  rw [State.quern_modQuern hcanon]
  split
  next hkey =>
    rw [← t.quern_of_key hkey, hl]
    exact ⟨_, rfl⟩
  · exact ⟨l, hl⟩

theorem State.foldQuerns_rest (s : State) (p : Nat) (f : Quern → Quern) (q : NatMap Quern) : { s.foldQuerns p f with querns := q } = { s with querns := q } :=
  foldl_same (fun s : State => { s with querns := q }) (by intro _ _; rfl) _ s

/-- Settles O34. -/
theorem quernLatchesSweepsAndFlips : Obligations.QuernLatchesSweepsAndFlips := by
  unfold Obligations.QuernLatchesSweepsAndFlips
  intro s p d x hs hx
  refine ⟨fun m u hon hstep hfor hawait hwait hread => ?_, fun u hdue hsweep => ?_, fun hsw hon hstep => ?_,
    fun k sh w s1 u hl hst hpw hrun hswept hfl hwait hlt hclass hword hwrites => ?_, fun hfl hdone hbrake => ?_⟩
  · have hquern : u.quern p d = s.quern p d := by
      have h := s.readRules_querns x (s.quern p d)
      rw [hread] at h
      rw [State.quern, State.quern, show u.querns = s.querns from h]
    have hu : u.Canon := by
      rw [← show _ = u from congrArg (·.2.2) hread]
      exact (State.readRules_keeps ..).canon hs
    have hlatch := State.ruleLatch_eq (d := d) hx (by
      rw [hon, hstep, bne_iff_ne.mpr hfor, bne_iff_ne.mpr hawait, hwait]
      rfl) hread
    have hq : (s.ruleLatch p d).quern p d = (s.quern p d).latches (s.quern p d) m := by
      rw [hlatch, State.ruleLatch_quern hu, hquern]
    refine ⟨s.ruleLatch p d, rfl, ?_⟩
    rw [hq]
    have hstopped : (s.quern p d).stopped = false := by
      have h := hon
      unfold State.quernOn at h
      simp only [Bool.and_eq_true, Bool.not_eq_true'] at h
      obtain ⟨⟨⟨⟨-, hstop⟩, -⟩, -⟩, -⟩ := h
      exact hstop
    refine ⟨rfl, rfl, hstopped, rfl, rfl, Quern.rulesBad_iff _ m, fun k hk => ?_, fun hbad hw => ?_⟩
    · exact (bit_maskOf _ k).trans (contains_filter_range _ hk)
    · exact congrArg Host.Outcome.next (State.quernSweep_latchBad (by rw [hq]; exact hbad) hw)
  · refine congrArg Host.Outcome.next ?_
    unfold State.quernSweep
    rw [hx]
    dsimp only
    rw [if_pos hdue, State.quernCheck_ok, if_neg (show ¬ (!(true, s).1) = true from Bool.false_ne_true)]
    dsimp only
    rw [hsweep]
    rfl
  · refine congrArg Host.Outcome.next ?_
    unfold State.sweepComplete
    dsimp only
    rw [hsw, hon, hstep]
    rfl
  · have hmem : (k, sh) ∈ (s.quern p d).sweepClass := by rw [hclass]; exact List.mem_singleton_self _
    refine congrArg Host.Outcome.next ?_
    unfold State.flipPass
    dsimp only
    rw [hx]
    dsimp only
    rw [if_pos (by rw [hl, hst, hpw, hrun, hswept, hfl, hwait, decide_eq_true hlt]; rfl), hclass, State.flipShards_single hmem hword hwrites]
    rfl
  · let v : State := s.setQuern p d (s.quern p d).flips
    have hv : v.Canon := (State.setQuern_keeps s p d _).canon hs
    have hparts : (v.queueIngests p).parts = s.parts :=
      (congrArg State.parts (State.foldQuerns_rest v p _ s.querns) :)
    have hpart : (v.queueIngests p).part p = s.part p := by rw [State.part, State.part, hparts]
    have hexec : s.flipComplete p d = v.queueIngests p := by
      unfold State.flipComplete
      dsimp only
      rw [if_pos hfl]
      have hsignal : (v.queueIngests p).quernSignal p d (s.quern p d).doneSync ((s.quern p d).step + 1) = v.queueIngests p := if_pos hdone
      refine (congrArg (fun z : State => if (z.part p).gov.brakeAfterCommit && z.flipsDone p then z.brakeStep p 0xFF else z) hsignal).trans ?_
      rw [hpart, hbrake, Bool.false_and, if_neg Bool.false_ne_true]
    obtain ⟨l, hl⟩ := State.queueIngests_quern hv p p d
    have hvq : v.quern p d = (s.quern p d).flips := by rw [State.quern_setQuern _ hs.tab.querns, if_pos rfl]
    rw [hvq] at hl
    refine ⟨v.queueIngests p, congrArg _ hexec, ?_⟩
    rw [hl]
    exact ⟨rfl, rfl, rfl, rfl, rfl, State.foldQuerns_rest v p _ s.querns⟩

end Sys2Proof.Machine

/-! PROOFS. Leat passes (R209, R221 to R223, R225). -/
namespace Sys2Proof.Machine
open Sys2Proof

theorem State.leat_setLeat_same {s : State} (hs : s.Canon) (c k : Nat) (r : LeatRun) : (s.setLeat c k r).leat c k = r :=
  (State.leat_setLeat _ hs.tab.leats c k c k r).trans (if_pos rfl)

theorem State.leat_modLeat_same {s : State} (hs : s.Canon) (c k : Nat) (f : LeatRun → LeatRun) : (s.modLeat c k f).leat c k = f (s.leat c k) :=
  State.leat_setLeat_same hs c k _

/-! ### The start of a pass -/

theorem State.leatPassStart_eq {s : State} {c k p : Nat} (hk : k < 16) (hp : s.clusterPart c = some p) (hpwr : s.pwr.stopped = false)
    {b : List Byte} (hb : NatMap.getList 0 (s.cluster c).sram (0xFFFC00 + 64 * k) 64 = b) (hkind : (leatDescOf b).kind ≠ 0)
    (hidle : (s.leat c k).running = false) (hrun : s.stepRuns p = true) (hgo : (leatDescOf b).goSync < (s.part p).map.syncQuota)
    (hwait : waitOk (s.syncValue p (leatDescOf b).goSync) (BitVec.ofNat 64 (leatDescOf b).goTarget) = true) :
    s.leatPassStart c k = if (leatDescOf b).ok (s.part p).map.syncQuota then
        s.setLeat c k { running := true, fault := (s.leat c k).fault, desc := b, nextSeg := (leatDescOf b).segBase, tag := s.leatTag p c (leatDescOf b) }
      else s.leatFault c k 0x0504 := by
  subst hb
  unfold State.leatPassStart
  rw [hp]
  dsimp only
  rw [if_neg, if_neg]
  · rfl
  · rw [show leatDescAt k = 0xFFFC00 + 64 * k from rfl, hwait]
    exact Bool.false_ne_true
  · rw [hpwr, hidle, hrun]
    rintro (h | h | h | h | h | h)
    · omega
    · exact Bool.false_ne_true h
    · exact hkind h
    · exact Bool.false_ne_true h
    · exact Bool.false_ne_true h
    · exact absurd hgo (by rw [show leatDescAt k = 0xFFFC00 + 64 * k from rfl] at h; omega)

/-! ### The segments -/

/-- The segment that a pass issues next. -/
def State.nextSegment (s : State) (c k : Nat) : LeatSeg :=
  leatSegOf (NatMap.getList 0 (s.cluster c).sram ((leatDescOf (s.leat c k).desc).segTable + 16 * (s.leat c k).issued) 16)

/-- A pass that runs issues its next segment, by its kind, once its release signal allows. -/
theorem State.leatIssue_copy {s : State} {c k p : Nat} (hp : s.clusterPart c = some p) (hpwr : s.pwr.stopped = false)
    (hrun : (s.leat c k).running = true) (hstop : (s.leat c k).stopping = false) (hmore : (s.leat c k).issued < (leatDescOf (s.leat c k).desc).count)
    (hkind : (leatDescOf (s.leat c k).desc).kind = 3) (hdone : (s.leat c k).done = (s.leat c k).issued) :
    s.leatIssue c k = s.issueCopy p c k (leatDescOf (s.leat c k).desc) (s.nextSegment c k) := by
  have hcopy : (leatDescOf (s.leat c k).desc).copy = true := by rw [LeatDesc.copy, hkind]; rfl
  unfold State.leatIssue
  dsimp only
  rw [hp]
  dsimp only
  rw [if_neg, if_pos hcopy, if_neg (by omega)]
  · rfl
  · rw [hrun, hpwr, hstop]
    rintro (h | h | h | h)
    · exact Bool.false_ne_true h
    · exact Bool.false_ne_true h
    · exact Bool.false_ne_true h
    · omega

/-- The slot of the window that the next segment takes. -/
def State.nextSlot (s : State) (p c k : Nat) : Nat :=
  let d := leatDescOf (s.leat c k).desc
  d.winOff + (d.segBase + (s.leat c k).issued) % (s.part p).window * d.slotBytes

/-- The window's object. -/
def State.passWindow (s : State) (p c k : Nat) : Option (Nat × Nat) :=
  let d := leatDescOf (s.leat c k).desc
  s.streamObj p (clusterDie c) d.winOff ((s.part p).window * d.slotBytes)

theorem State.leatIssue_window {s : State} {c k p : Nat} (hp : s.clusterPart c = some p) (hpwr : s.pwr.stopped = false)
    (hrun : (s.leat c k).running = true) (hstop : (s.leat c k).stopping = false) (hmore : (s.leat c k).issued < (leatDescOf (s.leat c k).desc).count)
    (hkind : (leatDescOf (s.leat c k).desc).kind ≠ 3)
    (hwait : waitOk (s.syncValue p (leatDescOf (s.leat c k).desc).releaseSync) (BitVec.ofNat 64
      (if (leatDescOf (s.leat c k).desc).kind = 1 then (leatDescOf (s.leat c k).desc).segBase + (s.leat c k).issued + 1 + 2 ^ 64 - (s.part p).window
        else (leatDescOf (s.leat c k).desc).segBase + (s.leat c k).issued + 1)) = true)
    (hfits : (s.nextSegment c k).len = 0 ∨ (s.passWindow p c k).isSome = true ∧ (s.nextSegment c k).len ≤ (leatDescOf (s.leat c k).desc).slotBytes) :
    s.leatIssue c k = if (leatDescOf (s.leat c k).desc).kind = 1 then
        s.issueFill p c k (leatDescOf (s.leat c k).desc) (s.nextSegment c k) (s.nextSlot p c k) (s.passWindow p c k).toList
      else s.issueSpill p c k (s.nextSegment c k) (s.nextSlot p c k) (s.passWindow p c k).toList := by
  have hcopy : (leatDescOf (s.leat c k).desc).copy = false := beq_eq_false_iff_ne.mpr hkind
  have hnofault : ¬ ((s.nextSegment c k).len ≠ 0 ∧ ((s.passWindow p c k).isNone = true ∨ (leatDescOf (s.leat c k).desc).slotBytes < (s.nextSegment c k).len)) := by
    rintro ⟨hlen, hbad⟩
    obtain ⟨hsome, hle⟩ := hfits.resolve_left hlen
    rcases hbad with hnone | hlt
    · rw [Option.isNone_iff_eq_none] at hnone
      rw [hnone] at hsome
      exact Bool.false_ne_true hsome
    · omega
  unfold State.leatIssue
  dsimp only
  rw [hp]
  dsimp only
  rw [if_neg, hcopy, if_neg Bool.false_ne_true, hwait, if_neg (show ¬ (!true) = true from Bool.false_ne_true)]
  · exact if_neg hnofault
  · rw [hrun, hpwr, hstop]
    rintro (h | h | h | h)
    · exact Bool.false_ne_true h
    · exact Bool.false_ne_true h
    · exact Bool.false_ne_true h
    · omega

/-- A segment of LEN 0 moves nothing. -/
theorem State.issueFill_empty {s : State} {g : LeatSeg} (h : g.len = 0) (p c k : Nat) (d : LeatDesc) (slot : Nat) (win : List (Nat × Nat)) :
    s.issueFill p c k d g slot win = s.leatIssued c k [] := if_pos h

theorem State.issueSpill_empty {s : State} {g : LeatSeg} (h : g.len = 0) (hsrc : g.src = 0) (hcoded : g.coded = 0) (p c k slot : Nat)
    (win : List (Nat × Nat)) : s.issueSpill p c k g slot win = s.leatIssued c k [] := by
  unfold State.issueSpill
  rw [if_neg (by omega), if_pos h]

/-- A FILL moves the bytes that its object gives. -/
theorem State.issueFill_object {s u : State} {p c x : Nat} {g : LeatSeg} {o : Obj} {q : SegSource} (hlen : g.len ≠ 0) (hsrc : g.src = 0)
    (hcoded : g.coded = 0) (hx : s.home p = some x) (hcheck : s.checkObj x g.handle g.off g.len .leatRead = .ok o)
    (hread : s.segRead x g.handle o g.off g.len = (.ok q, u)) (k : Nat) (d : LeatDesc) (slot : Nat) (win : List (Nat × Nat)) :
    s.issueFill p c k d g slot win = (match q.fail with
      | some f => (u.fillSlot p c slot q.runs).segFault c k f
      | none => (u.fillSlot p c slot q.runs).leatIssued c k (win ++ q.holds)) := by
  have hbad : g.bad = false := by
    unfold LeatSeg.bad
    rw [hsrc, hcoded]
    rfl
  have hsource : ∀ tag, s.leatSource p c d tag g = some (.ok q, u) := by
    intro tag
    unfold State.leatSource
    dsimp only
    rw [hbad, if_neg Bool.false_ne_true, hx, if_neg (show ¬ (some x).isNone = true from Bool.false_ne_true), hsrc, if_neg (by decide), hcoded, if_neg (by decide),
      Option.getD_some, hcheck]
    dsimp only
    rw [if_neg (by decide), hread]
  unfold State.issueFill
  rw [if_neg hlen, hsource] <;> rfl

/-- A SPILL moves the slot's bytes into its object. -/
theorem State.issueSpill_object {s u : State} {p c x slot : Nat} {g : LeatSeg} {o : Obj} (hlen : g.len ≠ 0) (hsrc : g.src = 0)
    (hcoded : g.coded = 0) (hx : s.home p = some x) (hcheck : s.checkObj x g.handle g.off g.len .hbmWrite = .ok o)
    (hwrite : s.writeObj x o g.off (readGran s.granary ((s.part p).map.slices (clusterDie c)) slot g.len) = (none, u)) (k : Nat)
    (win : List (Nat × Nat)) : s.issueSpill p c k g slot win = u.leatIssued c k (win ++ [(x, g.handle)]) := by
  unfold State.issueSpill
  rw [if_neg (by omega), if_neg hlen, hx]
  dsimp only
  rw [hcheck]
  dsimp only
  rw [hwrite]

/-- R223: a COPY between objects of one tier faults. -/
theorem State.issueCopy_sameTier {s : State} {p x : Nat} {d : LeatDesc} {g : LeatSeg} {a o : Obj} (hlen : g.len ≠ 0) (hbad : g.bad = false)
    (hsrc : g.src = 0) (hx : s.home p = some x) (ha : s.current x d.dst = some a) (ho : s.current x g.handle = some o) (htier : a.tier = o.tier)
    (c k : Nat) : s.issueCopy p c k d g = s.leatFault c k 0x0504 := by
  have hdst : ∀ off, s.copyDst x p c off d g = .error 0x0504 := by
    intro off
    have hseg : s.segTier x p c g = .ok o.tier := by
      unfold State.segTier
      rw [hsrc, if_neg (by decide), ho]
    unfold State.copyDst
    rw [hbad, if_neg Bool.false_ne_true, ha, hseg]
    exact if_pos (.inr (.inr (.inl htier)))
  unfold State.issueCopy
  dsimp only
  rw [if_neg hlen, hx]
  dsimp only
  rw [hdst]
  rfl

/-! ### The end of a segment and of a pass -/

theorem State.leatDone_eq {s : State} {c k p : Nat} (hp : s.clusterPart c = some p) (hrun : (s.leat c k).running = true)
    (hflight : (s.leat c k).done < (s.leat c k).issued) :
    s.leatDone c k =
      (let r := s.leat c k
       let d := leatDescOf r.desc
       let u := if d.copy then s.setCluster c { s.cluster c with
           sram := NatMap.setList 0 (s.cluster c).sram (d.outTable + 8 * r.done) (leBytes 8 r.segOff) }
         else s
       ((u.setLeat c k { r with done := r.done + 1, holds := r.holds.drop 1 }).signalled p d.readySync
         (BitVec.ofNat 64 (d.segBase + r.done + 1)) (.leat c k)).modLeat c k fun r =>
           if r.stopping && decide (r.issued ≤ r.done) then { r with running := false, stopping := false, holds := [] } else r) := by
  unfold State.leatDone
  dsimp only
  rw [hp]
  dsimp only
  rw [if_neg]
  · cases (leatDescOf (s.leat c k).desc).copy <;> rfl
  · rw [hrun]
    rintro (h | h)
    · exact Bool.false_ne_true h
    · omega

/-- The SRAM after a pass: a COPY's total, GO_TARGET and SEG_BASE. -/
def Cluster.passEnded (x : Cluster) (k : Nat) (d : LeatDesc) (outLen : Nat) : Cluster :=
  { x with sram := NatMap.setList 0 (NatMap.setList 0
      (if d.copy then NatMap.setList 0 x.sram (d.outTable + 8 * d.count) (leBytes 8 outLen) else x.sram)
      (0xFFFC00 + 64 * k + 0x18) (leBytes 8 (d.goTarget + 1))) (0xFFFC00 + 64 * k + 0x20) (leBytes 8 (d.segBase + d.count)) }

theorem Cluster.passEnded_sram {x : Cluster} (hx : x.Canon) (k : Nat) (d : LeatDesc) (outLen : Nat) :
    NatMap.getList 0 (x.passEnded k d outLen).sram (0xFFFC00 + 64 * k + 0x18) 8 = leBytes 8 (d.goTarget + 1) ∧
    NatMap.getList 0 (x.passEnded k d outLen).sram (0xFFFC00 + 64 * k + 0x20) 8 = leBytes 8 (d.segBase + d.count) := by
  unfold Cluster.passEnded
  generalize hm : (if d.copy then NatMap.setList 0 x.sram (d.outTable + 8 * d.count) (leBytes 8 outLen) else x.sram) = m
  have hwf : NatMap.wf 0 m = true := by
    rw [← hm]
    split
    · exact NatMap.wf_setList _ _ hx.sram
    · exact hx.sram
  have hwf' : NatMap.wf 0 (NatMap.setList 0 m (0xFFFC00 + 64 * k + 0x18) (leBytes 8 (d.goTarget + 1))) = true := NatMap.wf_setList _ _ hwf
  have hlen := length_leBytes 8
  constructor
  · rw [NatMap.getList_setList_other hwf' (by omega)]
    have h := NatMap.getList_setList hwf (0xFFFC00 + 64 * k + 0x18) (leBytes 8 (d.goTarget + 1))
    rwa [hlen] at h
  · have h := NatMap.getList_setList hwf' (0xFFFC00 + 64 * k + 0x20) (leBytes 8 (d.segBase + d.count))
    rwa [hlen] at h

/-- A pass ended: its SRAM words, its seal, and its stream idle. -/
theorem State.leatEnd_eq {s : State} {c k p : Nat} (hp : s.clusterPart c = some p) (hpwr : s.pwr.stopped = false)
    (hrun : (s.leat c k).running = true) (hstop : (s.leat c k).stopping = false) (hall : (leatDescOf (s.leat c k).desc).count ≤ (s.leat c k).done) :
    s.leatEnd c k =
      (let u := s.modCluster c (·.passEnded k (leatDescOf (s.leat c k).desc) (s.leat c k).outLen)
       ((s.home p).elim u (u.sealDst · (leatDescOf (s.leat c k).desc))).modLeat c k fun r => { r with running := false, holds := [] }) := by
  unfold State.leatEnd
  dsimp only
  rw [hp]
  dsimp only
  rw [if_neg]
  · rw [show ∀ u : State, (u.modCluster c _).home p = u.home p from fun _ => rfl]
    cases s.home p <;> rfl
  · rw [hrun, hpwr, hstop]
    rintro (h | h | h | h)
    · exact Bool.false_ne_true h
    · exact Bool.false_ne_true h
    · exact Bool.false_ne_true h
    · omega

/-- SEAL changes contexts alone, and nothing without SEAL. -/
theorem State.sealDst_rest (s : State) (x : Nat) (d : LeatDesc) : { s.sealDst x d with ctxs := s.ctxs } = s := by
  unfold State.sealDst
  split
  · rfl
  · split <;> rfl

theorem State.sealDst_none {s : State} {d : LeatDesc} (h : d.seal = false) (x : Nat) : s.sealDst x d = s := by
  unfold State.sealDst
  split
  · rfl
  · rw [h, if_neg]
    rintro ⟨h, -⟩
    exact Bool.false_ne_true h

/-- R209: an OPEN Pond destination becomes SEALED. -/
theorem State.sealDst_sealed {s : State} (hs : s.Canon) {x : Nat} {d : LeatDesc} {o : Obj} (hseal : d.seal = true) (ho : s.current x d.dst = some o)
    (htier : o.tier = .pond) (hopen : o.state = .opened) : ((s.sealDst x d).obj x (handleIndex d.dst)).state = .sealed := by
  unfold State.sealDst
  rw [ho]
  dsimp only
  rw [if_pos ⟨hseal, htier, hopen⟩, State.obj_setObj hs x _ _ (fun h => ObjState.noConfusion (congrArg Obj.state h)), if_pos rfl]

/-- The state in which the stream is set idle. -/
theorem State.passEnded_canon {s : State} (hs : s.Canon) (c k : Nat) (d : LeatDesc) (outLen : Nat) : (s.modCluster c (·.passEnded k d outLen)).Canon := by
  refine (State.modCluster_keeps s c _ fun x hx => ?_).canon hs
  unfold Cluster.passEnded
  refine hx.withSram (NatMap.wf_setList _ _ (NatMap.wf_setList _ _ ?_))
  split
  · exact NatMap.wf_setList _ _ hx.sram
  · exact hx.sram

theorem State.leatEnd_idle {s u v : State} (hs : s.Canon) {c k p : Nat}
    (hu : u = s.modCluster c (·.passEnded k (leatDescOf (s.leat c k).desc) (s.leat c k).outLen))
    (hv : v = (s.home p).elim u (u.sealDst · (leatDescOf (s.leat c k).desc))) :
    v.Canon ∧ { v with ctxs := u.ctxs } = u ∧ v.cluster c = (s.cluster c).passEnded k (leatDescOf (s.leat c k).desc) (s.leat c k).outLen := by
  have hcanon : u.Canon := hu ▸ State.passEnded_canon hs ..
  have hrest : { v with ctxs := u.ctxs } = u := by
    rw [hv]
    cases s.home p with
    | none => rfl
    | some x => exact State.sealDst_rest u x _
  refine ⟨?_, hrest, ?_⟩
  · rw [hv]
    cases s.home p with
    | none => exact hcanon
    | some x => exact (State.sealDst_keeps u x _).canon hcanon
  · have hc : v.cluster c = u.cluster c := (congrArg (fun w : State => w.cluster c) hrest :)
    rw [hc, hu, State.cluster_modCluster hs]

/-- Settles O35. -/
theorem leatPassesStartIssueAndEnd : Obligations.LeatPassesStartIssueAndEnd := by
  unfold Obligations.LeatPassesStartIssueAndEnd
  intro s c k p hs hk hp hpwr
  refine ⟨?_, ?_⟩
  · intro b d hkind hidle hrun hgo hwait
    have heq := State.leatPassStart_eq hk hp hpwr rfl hkind hidle hrun hgo hwait
    refine ⟨fun hok => ?_, fun hok => ?_⟩
    · rw [if_pos hok] at heq
      refine ⟨_, congrArg Host.Outcome.next heq, ?_⟩
      rw [State.leat_setLeat_same hs]
      exact ⟨rfl, rfl, rfl, rfl, rfl, rfl⟩
    · rw [if_neg (by rw [hok]; exact Bool.false_ne_true)] at heq
      exact congrArg Host.Outcome.next heq
  · intro r d n w slot g hrun
    refine ⟨fun hstop hmore hkind hwait => ?_, fun hstop hmore hkind hwait => ?_, fun hstop hmore hkind hdone hbad hsrc hlen x a o hx ha ho htier => ?_,
      fun hflight => ?_, fun hstop hall => ?_⟩
    · have hissue := fun hfits => State.leatIssue_window hp hpwr hrun hstop hmore (by rw [hkind]; decide) (by rw [if_pos hkind]; exact hwait) hfits
      rw [if_pos hkind] at hissue
      refine ⟨fun hlen => ?_, fun x o q u win hlen hle hwin hsrc hcoded hx hcheck hread => ?_⟩
      · exact congrArg Host.Outcome.next ((hissue (.inl hlen)).trans (State.issueFill_empty hlen ..))
      · have hwindow : s.passWindow p c k = some win := hwin
        have hfill := State.issueFill_object (c := c) hlen hsrc hcoded hx hcheck hread k d slot [win]
        have hissued := hissue (.inr ⟨by rw [hwindow]; rfl, hle⟩)
        rw [hwindow] at hissued
        have hrun' := hissued.trans hfill
        have hu : u.Canon := by
          rw [← show _ = u from congrArg Prod.snd hread]
          exact (State.segRead_keeps ..).canon hs
        refine ⟨fun hok => ⟨?_, ?_⟩, fun f hf => ?_⟩
        · rw [hok] at hrun'
          exact congrArg Host.Outcome.next hrun'
        · have hf : (u.fillSlot p c slot q.runs).Canon := (State.fillSlot_keeps ..).canon hu
          rw [State.leatIssued, State.leat_modLeat_same hf]
          rfl
        · rw [hf] at hrun'
          exact congrArg Host.Outcome.next hrun'
    · have hissue := fun hfits => State.leatIssue_window hp hpwr hrun hstop hmore (by rw [hkind]; decide) (by rw [if_neg (by rw [hkind]; decide)]; exact hwait) hfits
      rw [if_neg (by rw [hkind]; decide)] at hissue
      refine ⟨fun hlen hsrc hcoded => ?_, fun x o u win hlen hle hwin hsrc hcoded hx hcheck hwrite => ?_⟩
      · exact congrArg Host.Outcome.next ((hissue (.inl hlen)).trans (State.issueSpill_empty hlen hsrc hcoded ..))
      · have hwindow : s.passWindow p c k = some win := hwin
        have hspill := State.issueSpill_object hlen hsrc hcoded hx hcheck hwrite k [win]
        have hissued := hissue (.inr ⟨by rw [hwindow]; rfl, hle⟩)
        rw [hwindow] at hissued
        exact congrArg Host.Outcome.next (hissued.trans hspill)
    · exact congrArg Host.Outcome.next ((State.leatIssue_copy hp hpwr hrun hstop hmore hkind hdone).trans
        (State.issueCopy_sameTier hlen hbad hsrc hx ha ho htier c k))
    · exact congrArg Host.Outcome.next (State.leatDone_eq hp hrun hflight)
    · have hend := State.leatEnd_eq hp hpwr hrun hstop hall
      obtain ⟨hv, hrest, hcluster⟩ := State.leatEnd_idle (p := p) (c := c) (k := k) hs rfl rfl
      obtain ⟨hgo, hseg⟩ := Cluster.passEnded_sram (hs.cluster c) k d r.outLen
      refine ⟨_, congrArg Host.Outcome.next hend, ?_, ?_, ?_, fun hcopy => ?_, fun x o hcopy hseal hx ho htier hopen => ?_⟩
      · exact (congrArg LeatRun.running (State.leat_modLeat_same hv c k _) :)
      · exact (congrArg (fun z : Cluster => NatMap.getList 0 z.sram _ 8) hcluster :).trans hgo
      · exact (congrArg (fun z : Cluster => NatMap.getList 0 z.sram _ 8) hcluster :).trans hseg
      · have hseal : d.seal = false := by rw [LeatDesc.seal, hcopy, Bool.and_false]
        have hsame : ∀ u : State, (s.home p).elim u (u.sealDst · d) = u := by
          intro u
          cases s.home p with
          | none => rfl
          | some x => exact State.sealDst_none hseal x
        exact (congrArg (fun z : State => ({ z with leats := s.leats, clusters := s.clusters } : State)) (hsame _) :)
      · have hsealed := State.sealDst_sealed (s := s.modCluster c (·.passEnded k d r.outLen)) (x := x) (d := d) (o := o) (State.passEnded_canon hs ..) hseal ho htier hopen
        have hsame : ∀ u : State, (s.home p).elim u (u.sealDst · d) = u.sealDst x d := by
          intro u
          rw [hx]
          rfl
        exact (congrArg (fun z : State => (z.obj x (handleIndex d.dst)).state) (hsame _) :).trans hsealed

end Sys2Proof.Machine

/-! PROOFS. Shard tables and collective tables are loaded and unloaded (R202, R205, R239, R240, R269, R272). -/
namespace Sys2Proof.Machine
open Sys2Proof

/-! ### The Quern -/

theorem State.onPartDie_selected {s : State} {rq : Req} {a p d : Nat} (hmay : s.mayP rq a = true) (hp : (s.sel rq).part? = some p)
    (hd : (s.sel rq).die? = some d) (f : Nat → Nat → State → State) : s.onPartDie rq a f = f p d s := by
  rw [State.onPartDie, State.onPart_selected hmay hp, hd]

/-- QRN_CMD acts while the partition is ARMED or BRAKED and the Quern idles. -/
theorem State.qrnLoad_barred {s : State} {p d : Nat} (hbusy : (s.quern p d).cmdBusy = false)
    (h : ¬ (((s.part p).state = .armed ∨ (s.part p).state = .braked) ∧ (s.quern p d).idle = true)) :
    s.qrnLoad p d = s.setQuern p d { s.quern p d with cmdStatus := 2 } := by
  unfold State.qrnLoad
  dsimp only
  rw [hbusy, if_neg Bool.false_ne_true, if_pos]
  rw [Bool.not_eq_true', ← Bool.not_eq_true]
  tauto

theorem State.qrnUnload_barred {s : State} {p d : Nat} (hbusy : (s.quern p d).cmdBusy = false)
    (h : ¬ (((s.part p).state = .armed ∨ (s.part p).state = .braked) ∧ (s.quern p d).idle = true)) :
    s.qrnUnload p d = s.setQuern p d { s.quern p d with cmdStatus := 2 } := by
  unfold State.qrnUnload
  dsimp only
  rw [hbusy, if_neg Bool.false_ne_true, if_pos]
  rw [Bool.not_eq_true', ← Bool.not_eq_true]
  tauto

/-- The gate of QRN_CMD, open. -/
theorem qrnGate_open {s : State} {p d : Nat} (hidle : (s.part p).state = .armed ∨ (s.part p).state = .braked) (hq : (s.quern p d).idle = true) :
    ¬ (((s.part p).state ≠ .armed ∧ (s.part p).state ≠ .braked) ∨ (!(s.quern p d).idle) = true) := by
  rw [hq]
  rintro (⟨ha, hb⟩ | h)
  · exact hidle.elim ha hb
  · exact Bool.false_ne_true h

/-- A shard table that breaks a check. -/
theorem State.qrnLoad_refused {s u : State} {p d st : Nat} {tb : ShardTable} (hbusy : (s.quern p d).cmdBusy = false)
    (hidle : (s.part p).state = .armed ∨ (s.part p).state = .braked) (hq : (s.quern p d).idle = true) (hst : st ≠ 0)
    (hcheck : s.checkShardTable p d (s.quern p d).table = (st, tb, none, u)) :
    s.qrnLoad p d = u.setQuern p d { u.quern p d with cmdStatus := st } := by
  unfold State.qrnLoad
  dsimp only
  rw [hbusy, if_neg Bool.false_ne_true, if_neg (qrnGate_open hidle hq), hcheck]
  exact if_pos hst

theorem State.holdShards_querns (s : State) (x : Nat) (l : List Shard) : (s.holdShards x l).querns = s.querns := by
  refine foldl_same State.querns (fun b sh => ?_) l s
  split <;> rfl

/-- What LOAD makes of a Quern. -/
structure Quern.Loaded (q : Quern) (tb : ShardTable) (h step epoch : Nat) : Prop where
  loaded : q.loaded = true
  status : q.cmdStatus = 0
  shards : q.shards = tb.shards
  table : q.loadedTable = h
  atStep : q.step = step
  stopped : q.stopped = false
  groups : q.groups = seedGroups tb step epoch

theorem Quern.withTable_loaded (q : Quern) (tb : ShardTable) (h step : Nat) (redo : Bool) (epoch : Nat) (epochs : NatMap Nat) :
    (q.withTable tb h step redo (seedGroups tb step epoch) epochs).Loaded tb h step epoch := ⟨rfl, rfl, rfl, rfl, rfl, rfl, rfl⟩

theorem Quern.Loaded.ready {q : Quern} {tb : ShardTable} {h step epoch : Nat} (hq : q.Loaded tb h step epoch) (l : List Nat) :
    ({ q with ready := l } : Quern).Loaded tb h step epoch := ⟨hq.loaded, hq.status, hq.shards, hq.table, hq.atStep, hq.stopped, hq.groups⟩

/-- The epoch that LOAD takes for the slots of lagged shards. -/
def State.seedEpoch (s u : State) (x : Nat) (tb : ShardTable) : Nat × State :=
  if tb.shards.any (·.lagged) then u.takeEpoch (s.ctxKid x) else (0, u)

/-- The seeding of a table's shards. -/
def State.seeding (s u : State) (p d x : Nat) (tb : ShardTable) : Seeding :=
  let ep := s.seedEpoch u x tb
  let w := ep.2.quernWrites x (s.quern p d).table 0 [(0x800, seedWords tb (s.part p).gov.step.toNat)]
  (tb.shards.zipIdx.map fun e => (e.2, e.1)).foldl (fun z e => Seeding.shard z x p tb ep.1 e) { s := w.2, fail := w.1 }

theorem State.seeding_canon {u : State} (hu : u.Canon) (s : State) (p d x : Nat) (tb : ShardTable) : (s.seeding u p d x tb).s.Canon := by
  have hep : (s.seedEpoch u x tb).2.Canon := by
    unfold State.seedEpoch
    split
    · exact State.takeEpoch_canon hu _
    · exact hu
  exact (Seeding.foldl_keeps x p tb _ _ _).canon ((State.quernWrites_keeps ..).canon hep)

/-- The Pond epochs of a table's shards. -/
def State.shardEpochs (s : State) (x : Nat) (tb : ShardTable) : NatMap Nat :=
  tb.shards.zipIdx.foldl (fun m e =>
    (List.range 4).foldl (fun m j => NatMap.set 0 m (4 * e.2 + j) (s.obj x (handleIndex e.1.obj)).epoch) m) []

/-- A shard table that passes its checks and is seeded. -/
theorem State.qrnLoad_loads {s u : State} {p d x : Nat} {tb : ShardTable} (hu : u.Canon) (hbusy : (s.quern p d).cmdBusy = false)
    (hidle : (s.part p).state = .armed ∨ (s.part p).state = .braked) (hq : (s.quern p d).idle = true)
    (hcheck : s.checkShardTable p d (s.quern p d).table = (0, tb, none, u)) (hx : s.home p = some x)
    (hseed : (s.seeding u p d x tb).fail = none) :
    ((s.qrnLoad p d).quern p d).Loaded tb (s.quern p d).table (s.part p).gov.step.toNat (s.seedEpoch u x tb).1 := by
  let z := s.seeding u p d x tb
  let v := (z.s.modQuern p d fun q => { q with saturated := q.saturated.add z.saturated }).releaseShards x p d (s.quern p d).shards
  have hv : v.Canon := (State.releaseShards_keeps ..).canon ((State.modQuern_keeps z.s p d _).canon (State.seeding_canon hu s p d x tb))
  have hload : s.qrnLoad p d = (v.modQuern p d fun r => r.withTable tb (s.quern p d).table (s.part p).gov.step.toNat (v.part p).gov.aborted
      (seedGroups tb (s.part p).gov.step.toNat (s.seedEpoch u x tb).1) (v.shardEpochs x tb)).holdShards x tb.shards := by
    unfold State.qrnLoad
    dsimp only
    rw [hbusy, if_neg Bool.false_ne_true, if_neg (qrnGate_open hidle hq), hcheck]
    dsimp only
    rw [if_neg (not_not_intro rfl), hx, Option.getD_some]
    show (match z.fail with | some f => _ | none => _) = _
    rw [show z.fail = none from hseed]
    rfl
  rw [hload, State.quern, State.holdShards_querns]
  show (State.quern _ p d).Loaded _ _ _ _
  rw [State.quern_modQuern hv, if_pos rfl]
  exact Quern.withTable_loaded ..

theorem State.releaseShards_rest (s : State) (x p d : Nat) (l : List Shard) : { s.releaseShards x p d l with ctxs := s.ctxs } = s := by
  have h : ∀ (c : NatMap Ctx), { s.releaseShards x p d l with ctxs := c } = { s with ctxs := c } := fun c =>
    foldl_same (fun t : State => { t with ctxs := c }) (fun b sh => by
      split
      · rfl
      · split <;> rfl) l s
  exact h s.ctxs

/-- UNLOAD: the Quern without its table. -/
theorem State.qrnUnload_clears {s : State} {p d : Nat} (hbusy : (s.quern p d).cmdBusy = false)
    (hidle : (s.part p).state = .armed ∨ (s.part p).state = .braked) (hq : (s.quern p d).idle = true) :
    ∃ u : State, s.qrnUnload p d = u.setQuern p d { skips := (s.quern p d).skips.cleared, saturated := (s.quern p d).saturated.cleared } ∧
      { u with ctxs := s.ctxs } = s := by
  have hclear : s.qrnUnload p d = s.quernClear p d := by
    unfold State.qrnUnload
    dsimp only
    rw [hbusy, if_neg Bool.false_ne_true, if_neg (qrnGate_open hidle hq)]
  rw [hclear]
  unfold State.quernClear
  dsimp only
  split
  next x _ => exact ⟨s.releaseShards x p d (s.quern p d).shards, rfl, State.releaseShards_rest ..⟩
  · exact ⟨s, rfl, rfl⟩

/-! ### The Weir -/

theorem State.returnCredit_rest (s : State) (n : Nat) : { s.returnCredit n with sec := s.sec, ports := s.ports, out := s.out } = s := by
  unfold State.returnCredit
  dsimp only
  split
  · rfl
  · rw [State.sendOn_only]
    rfl

theorem State.oweCredit_rest (s : State) (n : Nat) : { s.oweCredit n with sec := s.sec, ports := s.ports, out := s.out } = s := by
  unfold State.oweCredit
  dsimp only
  split
  · exact (congrArg (fun t : State => ({ t with sec := s.sec, ports := s.ports, out := s.out } : State)) (State.returnCredit_rest _ n) :)
  · rfl

theorem State.dropEarly_rest (s : State) (l : List (Nat × List Byte)) : { s.dropEarly l with sec := s.sec, ports := s.ports, out := s.out } = s := by
  have h := foldl_same (f := fun (t : State) (e : Nat × List Byte) => t.oweCredit e.1)
    (fun t : State => ({ t with sec := s.sec, ports := s.ports, out := s.out } : State))
    (fun t e => (congrArg (fun u : State => ({ u with sec := s.sec, ports := s.ports, out := s.out } : State)) (State.oweCredit_rest t e.1) :)) l s
  exact h

/-- The collectives of a partition go with its table, and what they have kept early. -/
theorem State.dropColls_rest (s : State) (p : Nat) :
    { s.dropColls p with sec := s.sec, ports := s.ports, out := s.out } = s.modWeir p fun w => { w with colls := [] } := by
  unfold State.dropColls
  exact (congrArg (fun t : State => ({ t with sec := s.sec, ports := s.ports, out := s.out } : State)) (State.dropEarly_rest _ _) :)

theorem State.weir_modWeir {s : State} (hs : s.Canon) (p : Nat) (f : Weir → Weir) : (s.modWeir p f).weir p = f (s.weir p) :=
  (State.weir_setWeir _ hs.tab.weirs p p _).trans (if_pos rfl)

theorem State.dropColls_weir {s : State} (hs : s.Canon) (p : Nat) : (s.dropColls p).weir p = { s.weir p with colls := [] } :=
  (congrArg (fun t : State => t.weir p) (s.dropColls_rest p) :).trans (State.weir_modWeir hs p _)

theorem State.weirGate_barred {s : State} {p : Nat} (hbusy : (s.weir p).cmdBusy = false)
    (h : ¬ ((s.part p).state = .armed ∨ (s.part p).state = .braked)) (f : State → State) :
    s.weirGate p f = s.setWeir p { s.weir p with cmdStatus := 2 } := by
  unfold State.weirGate
  rw [hbusy, if_neg Bool.false_ne_true, if_pos (by tauto)]
  rfl

theorem State.weirGate_open {s : State} {p : Nat} (hbusy : (s.weir p).cmdBusy = false)
    (h : (s.part p).state = .armed ∨ (s.part p).state = .braked) (f : State → State) : s.weirGate p f = f s := by
  unfold State.weirGate
  rw [hbusy, if_neg Bool.false_ne_true, if_neg (by tauto)]

/-- R239: a table that passes its checks comes into force. -/
theorem State.weirLoad_loads {s u : State} {p : Nat} {tb : CollBytes} (hbusy : (s.weir p).cmdBusy = false)
    (h : (s.part p).state = .armed ∨ (s.part p).state = .braked) (hcheck : s.checkCollTable p = (0, tb, none, u)) :
    s.weirLoad p = ((u.dropColls p).modWeir p fun w => w.withTable (some tb.table)).barriers p := by
  rw [State.weirLoad, State.weirGate_open hbusy h]
  dsimp only
  rw [hcheck]
  rfl

theorem mem_natSet_insert (n : Nat) (l : List Nat) : n ∈ NatSet.insert n l :=
  List.contains_iff_mem.mp (NatSet.contains_insert_self n l)

/-! ### PROMOTE -/

/-- The slot of a MIRROR object that PROMOTE takes. -/
def pickSlot (a b : Option Nat) : Option Nat :=
  match a, b with
  | some u, some v => some (if u < v then 1 else 0)
  | some _, none => some 0
  | none, some _ => some 1
  | none, none => none

theorem pickSlot_first {m : Nat} {b : Option Nat} (h : ∀ n, b = some n → n ≤ m) : pickSlot (some m) b = some 0 := by
  cases b with
  | none => rfl
  | some n => exact congrArg some (if_neg (by have := h n rfl; omega))

theorem pickSlot_second {n : Nat} {a : Option Nat} (h : ∀ m, a = some m → m < n) : pickSlot a (some n) = some 1 := by
  cases a with
  | none => rfl
  | some m => exact congrArg some (if_pos (h m rfl))

/-- R272: PROMOTE of a MIRROR object whose two slots were looked at. -/
theorem State.promote_eq {s u v : State} {p x : Nat} {o : Obj} {c : CollDesc} {a b : Option Nat} (hbusy : (s.weir p).cmdBusy = false)
    (hx : s.home p = some x) (ho : s.current x (s.weir p).argHandle = some o)
    (hc : (s.weir p).tbl.colls.find? (fun c => c.kind == 8 && c.dst == (s.weir p).argHandle) = some c) (hflags : o.flags = 0x14)
    (hsize : 2 * c.piece ≤ o.size) (hlayout : ((s.quern p c.die).mirrorLayout).2 + 64 ≤ c.piece)
    (ha : s.mirrorVersion p x o c 0 = (a, u)) (hb : u.mirrorVersion p x o c 1 = (b, v)) :
    s.promote p = ((pickSlot a b).map fun k => (v.setWeir p { v.weir p with cmdStatus := 0 }).setObj x (handleIndex (s.weir p).argHandle)
      { o with flags := 0x04, state := .sealed, base := o.base + k * c.piece, size := c.piece, epoch := o.slotEpoch k, epochB := 0 }).getD
      (v.setWeir p { v.weir p with cmdStatus := 0x0E }) := by
  unfold State.promote
  dsimp only
  rw [hbusy, if_neg Bool.false_ne_true, hx]
  dsimp only
  rw [ho, hc]
  dsimp only
  rw [if_neg (by omega), ha]
  dsimp only
  rw [hb]
  cases a <;> cases b <;> rfl

/-- R269: READMIT elsewhere than at the fleet root. -/
theorem State.readmit_refused {s : State} {p : Nat} (hbusy : (s.weir p).cmdBusy = false) (hroot : (s.weir p).fleetRoot = false) :
    s.readmit p = s.weirStatus p 0x0F := by
  unfold State.readmit
  dsimp only
  rw [hbusy, if_neg Bool.false_ne_true, hroot]
  exact if_pos rfl

theorem State.promote_stale {s : State} {p x : Nat} (hbusy : (s.weir p).cmdBusy = false) (hx : s.home p = some x)
    (ho : s.current x (s.weir p).argHandle = none) : s.promote p = s.weirStatus p 3 := by
  unfold State.promote
  dsimp only
  rw [hbusy, if_neg Bool.false_ne_true, hx]
  dsimp only
  rw [ho]

/-- Settles O36. -/
theorem tablesLoadWhileArmedOrBraked : Obligations.TablesLoadWhileArmedOrBraked := by
  unfold Obligations.TablesLoadWhileArmedOrBraked
  intro s rq p d hs hp hd
  refine ⟨fun hmay hbusy => ⟨fun hbar => ⟨?_, ?_⟩, fun hidle hq => ⟨fun st tb u hst hcheck => ?_, fun tb u x hcheck hx hseed => ?_, ?_⟩⟩,
    fun hmay hbusy => ⟨fun hbar => ⟨?_, ?_⟩, fun hidle => ⟨fun tb u hcheck => ?_, ?_⟩, fun hroot => ?_, fun hroot => ?_,
      fun x hx => ⟨fun hc => ?_, fun o c a b u v ho hc hflags hsize hlayout ha hb => ⟨fun hna hnb => ?_, fun m hm hle => ?_, fun n hn hlt => ?_⟩⟩⟩⟩
  · refine congrArg Host.Outcome.next ((State.onPartDie_selected hmay hp hd _).trans ?_)
    rw [State.qrnLoad_barred hbusy hbar]
  · exact congrArg Host.Outcome.next ((State.onPartDie_selected hmay hp hd _).trans (State.qrnUnload_barred hbusy hbar))
  · refine congrArg Host.Outcome.next ((State.onPartDie_selected hmay hp hd _).trans ?_)
    rw [State.qrnLoad_refused hbusy hidle hq hst hcheck]
  · have hu : u.Canon := by
      rw [← show _ = u from congrArg (·.2.2.2) hcheck]
      exact (State.checkShardTable_keeps ..).canon hs
    have hload := State.qrnLoad_loads hu hbusy hidle hq hcheck hx hseed
    obtain ⟨l, hl⟩ := State.queueIngests_quern ((State.qrnLoad_keeps s p d).canon hs) p p d
    refine ⟨_, congrArg Host.Outcome.next (State.onPartDie_selected hmay hp hd _), ?_⟩
    have hready := hload.ready l
    rw [← hl] at hready
    exact ⟨hready.loaded, hready.status, hready.shards, hready.table, hready.atStep, hready.stopped, hready.groups⟩
  · obtain ⟨u, hun, hrest⟩ := State.qrnUnload_clears hbusy hidle hq
    have hquerns : u.querns = s.querns := (congrArg State.querns hrest :)
    have hquern := (State.quern_setQuern u (by rw [hquerns]; exact hs.tab.querns) p d p d
      { skips := (s.quern p d).skips.cleared, saturated := (s.quern p d).saturated.cleared }).trans (if_pos rfl)
    refine ⟨_, congrArg Host.Outcome.next ((State.onPartDie_selected hmay hp hd _).trans hun), ?_⟩
    rw [hquern]
    exact ⟨rfl, rfl, rfl, rfl, rfl, (congrArg (fun t : State => ({ t with querns := s.querns } : State)) hrest :)⟩
  · exact congrArg Host.Outcome.next ((State.onPart_selected hmay hp _).trans (State.weirGate_barred hbusy hbar _))
  · exact congrArg Host.Outcome.next ((State.onPart_selected hmay hp _).trans (State.weirGate_barred hbusy hbar _))
  · have hu : u.Canon := by
      rw [← show _ = u from congrArg (·.2.2.2) hcheck]
      exact (State.checkCollTable_keeps ..).canon hs
    refine ⟨((u.dropColls p).weir p).withTable (some tb.table),
      congrArg Host.Outcome.next ((State.onPart_selected hmay hp _).trans (State.weirLoad_loads hbusy hidle hcheck)), rfl, rfl, rfl, rfl, ?_⟩
    rw [State.dropColls_weir hu]
    rfl
  · have hdrop := (State.dropColls_keeps s p).canon hs
    refine ⟨(s.dropColls p).modWeir p Weir.unloaded,
      congrArg Host.Outcome.next ((State.onPart_selected hmay hp _).trans (State.weirGate_open hbusy hidle _)), ?_⟩
    rw [State.weir_modWeir hdrop, State.dropColls_weir hs]
    exact ⟨rfl, rfl, rfl, rfl, rfl, rfl, rfl, rfl, rfl, rfl, rfl,
      (congrArg (fun t : State => ({ t with weirs := s.weirs } : State)) (s.dropColls_rest p) :)⟩
  · exact congrArg Host.Outcome.next ((State.onPart_selected hmay hp _).trans (State.readmit_refused hbusy hroot))
  · have hreadmit : s.readmit p = s.setWeir p { s.weir p with cmdStatus := 0, readmit := NatSet.insert (s.weir p).argDomain (s.weir p).readmit } := by
      unfold State.readmit
      dsimp only
      rw [hbusy, if_neg Bool.false_ne_true, hroot]
      rfl
    refine ⟨_, congrArg Host.Outcome.next ((State.onPart_selected hmay hp _).trans hreadmit), ?_, rfl⟩
    rw [State.weir_setWeir _ hs.tab.weirs, if_pos rfl]
    exact mem_natSet_insert ..
  · exact congrArg Host.Outcome.next ((State.onPart_selected hmay hp _).trans (State.promote_stale hbusy hx hc))
  · subst hna hnb
    exact congrArg Host.Outcome.next ((State.onPart_selected hmay hp _).trans (State.promote_eq hbusy hx ho hc hflags hsize hlayout ha hb))
  · have hpromote := State.promote_eq hbusy hx ho hc hflags hsize hlayout ha hb
    rw [hm, pickSlot_first hle] at hpromote
    exact congrArg Host.Outcome.next ((State.onPart_selected hmay hp _).trans hpromote)
  · have hpromote := State.promote_eq hbusy hx ho hc hflags hsize hlayout ha hb
    rw [hn, pickSlot_second hlt] at hpromote
    exact congrArg Host.Outcome.next ((State.onPart_selected hmay hp _).trans hpromote)

end Sys2Proof.Machine
/-! PROOFS. What a port keeps as messages go out and faults are raised: everything but the count of what it drops. O54: links, pauses, the operator
scan and ENTDAA. -/
namespace Sys2Proof.Machine
open Sys2Proof

/-- A port but for the count of the packets it drops. -/
def Port.sansDrops (x : Port) : Port := { x with quarDrops := 0 }

/-- The ports of a state but for the counts of the packets they drop. -/
def State.portsSansDrops (s : State) (j : Nat) : Port := (s.port j).sansDrops

theorem State.port_of_sansDrops {s t : State} {α : Type} (h : t.portsSansDrops = s.portsSansDrops) (f : Port → α)
    (hf : ∀ x : Port, f x.sansDrops = f x) (j : Nat) : f (t.port j) = f (s.port j) := by
  rw [← hf (t.port j), ← hf (s.port j)]
  exact congrArg f (congrFun h j)

@[simp] theorem State.countPortDrop_portsSansDrops (s : State) (k : Nat) : (s.countPortDrop k).portsSansDrops = s.portsSansDrops := by
  funext j
  have hv : ({ s.port k with quarDrops := (s.port k).quarDrops + 1 } : Port) ≠ {} := fun h => nomatch congrArg Port.quarDrops h
  by_cases hj : j = k
  · subst hj
    exact (congrArg Port.sansDrops (NatMap.get_set_same s.ports j hv)).trans rfl
  · exact congrArg Port.sansDrops (NatMap.get_set_ne _ hv hj)

@[simp] theorem State.sendPacket_portsSansDrops (s : State) (k : Nat) (h : PktHead) (m : IhlakMsg) :
    (s.sendPacket k h m).portsSansDrops = s.portsSansDrops := by
  unfold State.sendPacket
  split
  · rfl
  · split
    · exact s.countPortDrop_portsSansDrops k
    · rfl

@[simp] theorem State.sendOn_portsSansDrops (s : State) (n : Nat) (m : IhlakMsg) : (s.sendOn n m).portsSansDrops = s.portsSansDrops := by
  unfold State.sendOn
  dsimp only
  split
  · rfl
  · exact State.sendPacket_portsSansDrops ..

@[simp] theorem State.raise_portsSansDrops (s : State) (f : FaultRec) : (s.raise f).portsSansDrops = s.portsSansDrops := by
  unfold State.raise
  split
  · rfl
  · exact foldl_same State.portsSansDrops (fun b a => b.sendOn_portsSansDrops ..) _ _

/-! ### The secure channel of a port -/

theorem State.macsecFell_portsSansDrops (s : State) (k : Nat) (was : Bool) : (s.macsecFell k was).portsSansDrops = s.portsSansDrops := by
  unfold State.macsecFell
  split
  · split
    · exact s.raise_portsSansDrops _
    · rfl
  · rfl

theorem State.subPorts_pos (s : State) (k : Nat) : 0 < s.subPorts k := by
  unfold State.subPorts
  split
  · exact Nat.one_pos
  · split <;> decide

/-- A port without sub-ports has no secure channel. -/
theorem State.macsecUp_of_subs {s : State} {k : Nat} (h : (s.port k).subs = []) : s.macsecUp k = false := by
  rw [State.macsecUp, List.all_eq_false]
  refine ⟨0, List.mem_range.mpr (s.subPorts_pos k), ?_⟩
  rw [Port.sub, h]
  exact Bool.false_ne_true

/-- A port whose link goes down. -/
def Port.down (x : Port) : Port := { x with link := false, lanes := 0 }

theorem State.linkLost_eq (s : State) (k : Nat) : s.linkLost k = (s.macsecEnds k).modPort k Port.down := rfl

theorem State.linkLost_port {s : State} (hs : s.Canon) (k j : Nat) :
    (s.linkLost k).port j = if j = k then ((s.macsecEnds k).port k).down else (s.macsecEnds k).port j :=
  State.port_setPort _ ((s.macsecEnds_keeps k).canon hs).tab.ports k j _

theorem State.macsecEnds_subs {s : State} (hs : s.Canon) (k j : Nat) :
    ((s.macsecEnds k).port j).subs = if j = k then [] else (s.port j).subs := by
  rw [State.macsecEnds, State.port_of_sansDrops (State.macsecFell_portsSansDrops ..) Port.subs (fun _ => rfl)]
  rw [State.modPort, State.port_setPort _ hs.tab.ports, apply_ite Port.subs]

theorem State.macsecEnds_link {s : State} (hs : s.Canon) (k j : Nat) : ((s.macsecEnds k).port j).link = (s.port j).link := by
  rw [State.macsecEnds, State.port_of_sansDrops (State.macsecFell_portsSansDrops ..) Port.link (fun _ => rfl)]
  rw [State.modPort, State.port_setPort _ hs.tab.ports, apply_ite Port.link]
  split
  · next h => rw [h]
  · rfl

/-- With no RoCEv2 under charter on the port nothing is raised as its secure channel ends. -/
theorem State.macsecEnds_of_none {s : State} {k : Nat} (h : s.charterRoce k = []) :
    s.macsecEnds k = s.modPort k fun x => { x with subs := [] } := by
  rw [State.macsecEnds, State.macsecFell]
  rw [show (s.modPort k fun x => { x with subs := [] }).charterRoce k = s.charterRoce k from rfl, h]

theorem State.linkLost_subs {s : State} (hs : s.Canon) (k j : Nat) : ((s.linkLost k).port j).subs = if j = k then [] else (s.port j).subs := by
  rw [State.linkLost_port hs]
  have h := State.macsecEnds_subs hs k
  split
  · next hj => exact (h k).trans (if_pos rfl)
  · next hj => exact (h j).trans (if_neg hj)

theorem State.linkLost_link {s : State} (hs : s.Canon) (k j : Nat) : ((s.linkLost k).port j).link = if j = k then false else (s.port j).link := by
  rw [State.linkLost_port hs]
  split
  · rfl
  · exact State.macsecEnds_link hs k j

theorem State.linkLost_macsecUp {s : State} (hs : s.Canon) (k : Nat) : (s.linkLost k).macsecUp k = false :=
  State.macsecUp_of_subs ((State.linkLost_subs hs k k).trans (if_pos rfl))

/-! ### PFC -/

/-- A table that takes values other than 0 under some keys. -/
theorem NatMap.get_foldl_set (g : Nat → Nat) (hg : ∀ i, g i ≠ 0) (l : List Nat) (m : NatMap Nat) (i : Nat) :
    NatMap.get 0 (l.foldl (fun m i => NatMap.set 0 m i (g i)) m) i = if i ∈ l then g i else NatMap.get 0 m i := by
  induction l generalizing m with
  | nil => exact (if_neg List.not_mem_nil).symm
  | cons a l ih =>
    rw [List.foldl_cons, ih]
    by_cases hl : i ∈ l
    · rw [if_pos hl, if_pos (List.mem_cons_of_mem a hl)]
    · rw [if_neg hl]
      by_cases ha : i = a
      · subst ha
        rw [if_pos List.mem_cons_self, NatMap.get_set_same _ _ (hg i)]
      · rw [if_neg fun h => (List.mem_cons.mp h).elim ha hl, NatMap.get_set_ne _ (hg a) ha]

theorem mem_bitsOf_and {n a b i : Nat} : i ∈ bitsOf n (a &&& b) ↔ i < n ∧ bit a i = true ∧ bit b i = true := by
  rw [bitsOf, List.mem_filter, List.mem_range, bit_eq_testBit, bit_eq_testBit, bit_eq_testBit, Nat.testBit_and, Bool.and_eq_true]

/-- R279: what a PFC frame does to its port. -/
theorem State.pfcPause_paused {s : State} (hs : s.Canon) (k mask : Nat) (ns : List Nat) (hnow : 0 < s.mill.now) (i : Nat) :
    NatMap.get 0 ((s.pfcPause k mask ns).port k).pausedUntil i =
      if i < 7 ∧ bit mask i = true ∧ bit (s.port k).pfcEn i = true then s.mill.now + ns.getD i 0 else NatMap.get 0 (s.port k).pausedUntil i := by
  rw [State.pfcPause, State.modPort, State.port_setPort _ hs.tab.ports, if_pos rfl]
  refine (NatMap.get_foldl_set (fun i => s.now + ns.getD i 0) (fun _ => by unfold State.now; omega) _ _ i).trans ?_
  simp only [mem_bitsOf_and, State.now]

/-! ### The scan of the operator context -/

theorem State.scanCtx_fetches {s u : State} {x : Nat} {o : Obj} {head : List Byte} (hruns : ctxRuns (s.ctx x) x = true)
    (hev : (s.ctx x).evicting = false) (ho : s.current x 1 = some o) (hread : s.readObj x o 0 256 = (head, none, u)) :
    s.scanCtx x = (List.range (s.ctx x).desc.queues).foldl (fun v q => v.scanQueue x o head q)
      (u.setCtx x { u.ctx x with eventHead := field head 0 4 }) := by
  unfold State.scanCtx
  dsimp only
  rw [if_neg (by simp [hruns, hev]), ho]
  dsimp only
  rw [hread]
  rfl

theorem State.scanCtx_fails {s u : State} {x : Nat} {o : Obj} {head : List Byte} {code a : Nat} (hruns : ctxRuns (s.ctx x) x = true)
    (hev : (s.ctx x).evicting = false) (ho : s.current x 1 = some o) (hread : s.readObj x o 0 256 = (head, some (code, a), u)) :
    s.scanCtx x = u.raise (s.ctxFault x code 0 (some a)) := by
  unfold State.scanCtx
  dsimp only
  rw [if_neg (by simp [hruns, hev]), ho]
  dsimp only
  rw [hread]

theorem State.scanCtx_idle {s : State} {x : Nat} (h : ctxRuns (s.ctx x) x = false) : s.scanCtx x = s := by
  unfold State.scanCtx
  dsimp only
  exact if_pos (by simp [h])

/-- Settles O54. -/
theorem linksPausesAndAddresses : Obligations.LinksPausesAndAddresses := by
  unfold Obligations.LinksPausesAndAddresses
  intro s hs
  refine ⟨fun k lanes href => ?_, fun k lanes href => ?_, fun k lanes => ⟨s.linkLost k, rfl, ?_, ?_, State.linkLost_macsecUp hs k, fun j hj => ⟨?_, ?_⟩,
    fun hroce => ⟨?_, fun j hj => ?_⟩⟩, fun k mask ns => ⟨s.pfcPause k mask ns, rfl, ?_, ?_, fun j hj => ?_, rfl⟩, fun hdef hres => ?_,
    fun u o head f hdef hev ho hread => ?_, fun a h => ?_, fun a h => ?_⟩
  · exact congrArg Host.Outcome.next (if_neg (show ¬ s.pwr.ref156Lost = true from by simp [href]))
  · exact congrArg Host.Outcome.next (if_pos href)
  · exact (State.linkLost_link hs k k).trans (if_pos rfl)
  · rw [State.linkLost_port hs, if_pos rfl]
    rfl
  · exact (State.linkLost_link hs k j).trans (if_neg hj)
  · exact (State.linkLost_subs hs k j).trans (if_neg hj)
  · rw [State.linkLost_eq, State.macsecEnds_of_none hroce]
    rfl
  · rw [State.linkLost_port hs, if_neg hj, State.macsecEnds_of_none hroce, State.modPort, State.port_setPort _ hs.tab.ports, if_neg hj]
  · exact fun i hi hmask hen hnow => (State.pfcPause_paused hs k mask ns hnow i).trans (if_pos ⟨hi, hmask, hen⟩)
  · refine fun i hi hnow => (State.pfcPause_paused hs k mask ns hnow i).trans (if_neg fun ⟨hlt, hmask, hen⟩ => ?_)
    obtain h | h | h := hi
    · omega
    · exact nomatch hmask.symm.trans h
    · exact nomatch hen.symm.trans h
  · exact (State.port_setPort _ hs.tab.ports k j _).trans (if_neg hj)
  · exact congrArg Host.Outcome.next (State.scanCtx_idle (by simp [ctxRuns, hdef, hres]))
  · have hruns : ctxRuns (s.ctx 0) 0 = true := by simp [ctxRuns, hdef]
    refine ⟨fun hf => ?_, fun code a hf => ?_⟩
    · subst hf
      exact congrArg Host.Outcome.next (State.scanCtx_fetches hruns hev ho hread)
    · subst hf
      exact congrArg Host.Outcome.next (State.scanCtx_fails hruns hev ho hread)
  · exact congrArg Host.Outcome.next (if_neg h)
  · exact congrArg Host.Outcome.next (if_pos h)

end Sys2Proof.Machine
/-! PROOFS. O53: operating points, limits and references of the dies. -/
namespace Sys2Proof.Machine
open Sys2Proof

/-! ### Dies and their moves -/

/-- A die but for its move and the point in force. -/
def DiePower.sansMove (x : DiePower) : DiePower := { x with inForce := 0, move := none }

/-- The dies of a state but for their moves. -/
def State.diesSansMove (s : State) (d : Nat) : DiePower := (s.pwr.die d).sansMove

theorem State.die_of_sansMove {s t : State} {α : Type} (h : t.diesSansMove = s.diesSansMove) (f : DiePower → α)
    (hf : ∀ x : DiePower, f x.sansMove = f x) (d : Nat) : f (t.pwr.die d) = f (s.pwr.die d) := by
  rw [← hf (t.pwr.die d), ← hf (s.pwr.die d)]
  exact congrArg f (congrFun h d)

theorem Power.die_setDie_same {x : Power} {d : Nat} {v : DiePower} (h : v ≠ {} ∨ NatMap.wf {} x.dies = true) : (x.setDie d v).die d = v := by
  obtain hv | hwf := h
  · exact NatMap.get_set_same x.dies d hv
  · exact (NatMap.get_set hwf d d v).trans (if_pos rfl)

theorem Power.die_setDie_other {x : Power} {d e : Nat} {v : DiePower} (h : v ≠ {} ∨ NatMap.wf {} x.dies = true) (he : e ≠ d) :
    (x.setDie d v).die e = x.die e := by
  obtain hv | hwf := h
  · exact NatMap.get_set_ne x.dies hv he
  · exact (NatMap.get_set hwf d e v).trans (if_neg he)

/-- A move that starts leaves all else of the dies. -/
theorem State.startMove_sansMove (s : State) (d i t : Nat) (up : Bool) :
    (s.modPwr fun p => p.setDie d { s.pwr.die d with inForce := i, move := some (t, up) }).diesSansMove = s.diesSansMove := by
  have hv : ({ s.pwr.die d with inForce := i, move := some (t, up) } : DiePower) ≠ {} := fun h => nomatch congrArg DiePower.move h
  funext e
  by_cases he : e = d
  · subst he
    exact (congrArg DiePower.sansMove (Power.die_setDie_same (.inl hv))).trans rfl
  · exact congrArg DiePower.sansMove (Power.die_setDie_other (.inl hv) he)

theorem State.retarget_diesSansMove (s : State) (d : Nat) : (s.retarget d).diesSansMove = s.diesSansMove := by
  unfold State.retarget
  dsimp only
  split
  · rfl
  · split
    · exact s.startMove_sansMove d _ _ _
    · exact s.startMove_sansMove d (s.pwr.die d).inForce _ _

/-- The state but for its dies and the outbox. -/
def State.sansDies (s : State) : State := { s with pwr := { s.pwr with dies := [] }, out := [] }

theorem State.overCap_of_sansDies {s t : State} (h : t.sansDies = s.sansDies) : t.pwr.overCap = s.pwr.overCap :=
  (congrArg (fun t : State => t.pwr.overCap) h :)
theorem State.ras_of_sansDies {s t : State} (h : t.sansDies = s.sansDies) : t.ras = s.ras := (congrArg State.ras h :)

theorem State.retarget_sansDies (s : State) (d : Nat) : (s.retarget d).sansDies = s.sansDies := by
  unfold State.retarget
  dsimp only
  split
  · rfl
  · split <;> rfl

theorem State.retarget_board (s : State) (d : Nat) : (s.retarget d).board = s.board := (congrArg State.board (s.retarget_sansDies d) :)
theorem State.retarget_parts (s : State) (d : Nat) : (s.retarget d).parts = s.parts := (congrArg State.parts (s.retarget_sansDies d) :)
theorem State.retarget_stopped (s : State) (d : Nat) : (s.retarget d).pwr.stopped = s.pwr.stopped :=
  (congrArg (fun t : State => t.pwr.stopped) (s.retarget_sansDies d) :)

theorem State.retargetAll_diesSansMove (s : State) : s.retargetAll.diesSansMove = s.diesSansMove :=
  foldl_same State.diesSansMove (fun b d => b.retarget_diesSansMove d) _ s

theorem State.retargetAll_sansDies (s : State) : s.retargetAll.sansDies = s.sansDies :=
  foldl_same State.sansDies (fun b d => b.retarget_sansDies d) _ s

/-! ### Thermal samples -/

/-- A die after a sample. -/
def DiePower.sampled (x : DiePower) (q h limit : Nat) : DiePower :=
  { x with dieQ := q, hbmQ := h
           thermal := if decide (420 ≤ max q h) then 4 else thermalIndex x.thermal (max q h) limit
           throttling := decide (4 * limit < max q h), critical := decide (420 ≤ max q h) }

/-- The sample is taken. -/
def State.sampleTaken (s : State) (d q h : Nat) : State :=
  s.modPwr fun p => { p.setDie d ((s.pwr.die d).sampled q h s.pwr.throttle) with stopped := p.stopped || decide (440 ≤ max q h) }

/-- The thermal alert ends once every die is below 100 °C. -/
def State.cooled (s : State) : State :=
  if (List.range 8).all (fun e => decide ((s.pwr.die e).temp < 400)) && !s.pwr.stopped then s.modBoard fun b => { b with thermal := false } else s

/-- The throttling fault, at the start of an excursion. -/
def State.throttles (s : State) (d : Nat) (b : Bool) : State := if b then s.raise (powerFault 0x0B02 d 3) else s

theorem State.thermalSample_eq (s : State) (d q h : Nat) :
    s.thermalSample d q h =
      let v := (s.sampleTaken d q h).throttles d (decide (4 * s.pwr.throttle < max q h) && !(s.pwr.die d).throttling)
      ((if decide (420 ≤ max q h) then v.thermalCritical d !(s.pwr.die d).critical else v).cooled).retarget d := rfl

theorem State.raise_thermal (s : State) (f : FaultRec) : (s.raise f).board.thermal = s.board.thermal := by
  unfold State.raise
  split
  · rfl
  · refine (foldl_same (fun t : State => t.board.thermal) (fun b a => ?_) _ _).trans ?_
    · rw [State.sendOn_board]
    · dsimp only
      split <;> rfl

/-- Two states with the same power state, partitions and thermal alert. -/
structure SameHeat (s t : State) : Prop where
  pwr : t.pwr = s.pwr
  parts : t.parts = s.parts
  thermal : t.board.thermal = s.board.thermal

theorem State.throttles_sameHeat (s : State) (d : Nat) (b : Bool) : SameHeat s (s.throttles d b) := by
  unfold State.throttles
  split
  · exact ⟨s.raise_pwr _, s.raise_parts _, s.raise_thermal _⟩
  · exact ⟨rfl, rfl, rfl⟩

theorem State.boundParts_congr {s t : State} (h : t.parts = s.parts) : t.boundParts = s.boundParts := by
  unfold State.boundParts State.part
  rw [h]

theorem State.partDies_congr {s t : State} (h : t.parts = s.parts) : t.partDies = s.partDies := by
  unfold State.partDies State.partClusters State.part
  rw [h]

/-- The partitions of a die. -/
def State.boundOn (s : State) (d : Nat) : List Nat := s.boundParts.filter fun p => (s.partDies p).contains d

theorem State.boundOn_congr {s t : State} (h : t.parts = s.parts) (d : Nat) : t.boundOn d = s.boundOn d := by
  rw [State.boundOn, State.boundOn, State.boundParts_congr h, State.partDies_congr h]

/-- On a die without partitions the alert alone is asserted. -/
theorem State.thermalCritical_free {s : State} {d : Nat} (h : s.boundOn d = []) (b : Bool) :
    (s.thermalCritical d b).pwr = s.pwr ∧ (s.thermalCritical d b).parts = s.parts ∧ (s.thermalCritical d b).board.thermal = true := by
  have hps : s.boundParts.filter (fun p => (s.partDies p).contains d) = [] := h
  unfold State.thermalCritical
  dsimp only
  rw [hps]
  split
  · exact ⟨State.raise_pwr _ _, State.raise_parts _ _, State.raise_thermal _ _⟩
  · exact ⟨rfl, rfl, rfl⟩

theorem State.cooled_pwr (s : State) : s.cooled.pwr = s.pwr := by
  unfold State.cooled
  split <;> rfl

theorem State.cooled_parts (s : State) : s.cooled.parts = s.parts := by
  unfold State.cooled
  split <;> rfl

/-- A hot die keeps the alert. -/
theorem State.cooled_of_hot {s : State} {d : Nat} (hd : d < 8) (h : 400 ≤ (s.pwr.die d).temp) : s.cooled = s := by
  refine if_neg fun hall => ?_
  have hcold := List.all_eq_true.mp (Bool.and_eq_true_iff.mp hall).1 d (List.mem_range.mpr hd)
  exact absurd (of_decide_eq_true hcold) (Nat.not_lt.mpr h)

theorem State.sampleTaken_die {s : State} {d q h : Nat} (hv : 0 < q ∨ NatMap.wf {} s.pwr.dies = true) :
    (s.sampleTaken d q h).pwr.die d = (s.pwr.die d).sampled q h s.pwr.throttle :=
  Power.die_setDie_same (x := s.pwr) (hv.imp (fun hq h0 => absurd (congrArg DiePower.dieQ h0) (Nat.pos_iff_ne_zero.mp hq)) id)

theorem DiePower.sample_of_sansMove {x y : DiePower} {q h limit : Nat} (hx : x.sansMove = (y.sampled q h limit).sansMove) :
    x.dieQ = q ∧ x.hbmQ = h ∧ x.throttling = decide (4 * limit < max q h) ∧
      x.thermal = (if decide (420 ≤ max q h) then 4 else thermalIndex y.thermal (max q h) limit) ∧ x.critical = decide (420 ≤ max q h) :=
  ⟨(congrArg DiePower.dieQ hx :), (congrArg DiePower.hbmQ hx :), (congrArg DiePower.throttling hx :), (congrArg DiePower.thermal hx :),
    (congrArg DiePower.critical hx :)⟩

theorem State.sampleTaken_stopped (s : State) (d q h : Nat) :
    (s.sampleTaken d q h).pwr.stopped = (s.pwr.stopped || decide (440 ≤ max q h)) := rfl
theorem State.sampleTaken_parts (s : State) (d q h : Nat) : (s.sampleTaken d q h).parts = s.parts := rfl
theorem State.sampleTaken_board (s : State) (d q h : Nat) : (s.sampleTaken d q h).board = s.board := rfl

/-- A sample that brakes nothing: the die shows it, and the alert follows a critical one. -/
theorem State.thermalSample_free {s : State} {d q h : Nat} (hd : d < 8) (hv : 0 < q ∨ NatMap.wf {} s.pwr.dies = true)
    (hfree : max q h < 420 ∨ s.boundOn d = []) :
    ((s.thermalSample d q h).pwr.die d).sansMove = ((s.pwr.die d).sampled q h s.pwr.throttle).sansMove ∧
      (s.thermalSample d q h).pwr.stopped = (s.pwr.stopped || decide (440 ≤ max q h)) ∧
      (s.thermalSample d q h).parts = s.parts ∧
      (420 ≤ max q h → (s.thermalSample d q h).board.thermal = true) ∧
      (400 ≤ max q h → max q h < 420 → (s.thermalSample d q h).board.thermal = s.board.thermal) := by
  have hthrottle := (s.sampleTaken d q h).throttles_sameHeat d (decide (4 * s.pwr.throttle < max q h) && !(s.pwr.die d).throttling)
  have hdie := State.sampleTaken_die (d := d) (h := h) hv
  rw [State.thermalSample_eq]
  dsimp only
  generalize (s.sampleTaken d q h).throttles d _ = v at hthrottle ⊢
  have hbound : v.boundOn d = s.boundOn d := State.boundOn_congr hthrottle.parts d
  have hcritical : ∃ w : State, (if decide (420 ≤ max q h) then v.thermalCritical d !(s.pwr.die d).critical else v) = w ∧ w.pwr = v.pwr ∧
      w.parts = v.parts ∧ w.board.thermal = if 420 ≤ max q h then true else v.board.thermal := by
    by_cases hhot : 420 ≤ max q h
    · obtain ⟨hpwr, hparts, halert⟩ := State.thermalCritical_free (hbound.trans (hfree.resolve_left (Nat.not_lt.mpr hhot))) !(s.pwr.die d).critical
      exact ⟨_, if_pos (decide_eq_true hhot), hpwr, hparts, halert.trans (if_pos hhot).symm⟩
    · exact ⟨_, if_neg (by simpa using hhot), rfl, rfl, (if_neg hhot).symm⟩
  obtain ⟨w, hw, hpwr, hparts, halert⟩ := hcritical
  rw [hw]
  have hwdie : w.pwr.die d = (s.pwr.die d).sampled q h s.pwr.throttle := by rw [hpwr, hthrottle.pwr, hdie]
  have hcooled : 400 ≤ max q h → w.cooled = w := fun h400 => State.cooled_of_hot hd (by rw [hwdie]; exact h400)
  refine ⟨?_, ?_, ?_, fun h420 => ?_, fun h400 h420 => ?_⟩
  · refine (congrFun (w.cooled.retarget_diesSansMove d) d).trans ?_
    rw [State.diesSansMove, State.cooled_pwr, hwdie]
  · rw [State.retarget_stopped, State.cooled_pwr, hpwr, hthrottle.pwr, State.sampleTaken_stopped]
  · rw [State.retarget_parts, State.cooled_parts, hparts, hthrottle.parts, State.sampleTaken_parts]
  · rw [State.retarget_board, hcooled (by omega), halert, if_pos h420]
  · rw [State.retarget_board, hcooled h400, halert, if_neg (Nat.not_le.mpr h420), hthrottle.thermal, State.sampleTaken_board]

/-- A critical sample brakes the partitions of the die. -/
def State.thermalBrake (s : State) (d : Nat) (braked : List Nat) (critical : Bool) : State :=
  let v := braked.foldl State.brake s
  let a : State := { v with board := { v.board with thermal := true } }
  if critical then a else a.raise (powerFault 0x0B04 d (if braked = [] then 3 else 1))

theorem State.thermalCritical_eq (s : State) (d : Nat) (critical : Bool) : s.thermalCritical d (!critical) = s.thermalBrake d (s.boundOn d) critical := by
  unfold State.thermalCritical State.thermalBrake
  dsimp only
  rw [show (s.boundParts.filter fun p => (s.partDies p).contains d) = s.boundOn d from rfl]
  cases critical with
  | true => rfl
  | false => cases s.boundOn d <;> rfl

theorem State.thermalSample_hot {s : State} {d q h : Nat} (hhot : 420 ≤ max q h) :
    s.thermalSample d q h =
      let x := s.pwr.die d
      let y := { x with dieQ := q, hbmQ := h, thermal := 4, throttling := decide (4 * s.pwr.throttle < max q h), critical := true }
      let u : State := { s with pwr := { s.pwr.setDie d y with stopped := s.pwr.stopped || decide (440 ≤ max q h) } }
      let w := (if x.throttling then u else u.raise (powerFault 0x0B02 d 3)).thermalBrake d (s.boundOn d) x.critical
      w.cooled.retarget d := by
  have hthrottle := (s.sampleTaken d q h).throttles_sameHeat d (decide (4 * s.pwr.throttle < max q h) && !(s.pwr.die d).throttling)
  have hlimit : 4 * s.pwr.throttle < max q h := by
    have : s.pwr.throttle ≤ 100 := Nat.min_le_right _ _
    omega
  rw [State.thermalSample_eq]
  dsimp only
  rw [if_pos (decide_eq_true hhot), State.thermalCritical_eq, State.boundOn_congr hthrottle.parts,
    State.boundOn_congr (s.sampleTaken_parts d q h)]
  rw [decide_eq_true hlimit, Bool.true_and, State.sampleTaken, DiePower.sampled, decide_eq_true hhot, decide_eq_true hlimit, if_pos rfl, State.throttles]
  cases (s.pwr.die d).throttling <;> rfl

/-! ### The power cap -/

/-- A die whose power-cap index changes. -/
def Power.dieStep (f : Nat → Nat) (x : Power) (d : Nat) : Power := x.setDie d { x.die d with power := f (x.die d).power }

theorem State.capIndex_eq (s : State) (f : Nat → Nat) :
    s.capIndex f = ({ s with pwr := (List.range 8).foldl (Power.dieStep f) s.pwr } : State).retargetAll := rfl

/-- Every die takes one step of its index. -/
theorem Power.dieSteps_power {f : Nat → Nat} {P : Power → Prop} (hP : ∀ x d, P x → P (x.dieStep f d))
    (hset : ∀ x d, P x → { x.die d with power := f (x.die d).power } ≠ ({} : DiePower) ∨ NatMap.wf {} x.dies = true) {x : Power} (hx : P x)
    {d : Nat} (hd : d < 8) : (((List.range 8).foldl (Power.dieStep f) x).die d).power = f (x.die d).power := by
  obtain ⟨y, hy, hyd, hfold⟩ := foldl_own (rd := Power.die) (f := Power.dieStep f) hP
    (fun y e g hy hg => Power.die_setDie_other (hset y e hy) hg) List.nodup_range (List.mem_range.mpr hd) hx
  rw [hfold, Power.dieStep, Power.die_setDie_same (hset y d hy), hyd]

/-- A window above the cap slows every die. -/
theorem Power.dieSteps_up {x : Power} {d : Nat} (hd : d < 8) :
    (((List.range 8).foldl (Power.dieStep fun i => min (i + 1) 4) x).die d).power = min ((x.die d).power + 1) 4 :=
  Power.dieSteps_power (P := fun _ => True) (fun _ _ _ => trivial)
    (fun y e _ => .inl fun h0 => absurd (congrArg DiePower.power h0) (show ¬ min ((y.die e).power + 1) 4 = 0 by omega)) trivial hd

/-- A window below the cap lets every die rise. -/
theorem Power.dieSteps_down {x : Power} {d : Nat} (hwf : NatMap.wf {} x.dies = true) (hd : d < 8) :
    (((List.range 8).foldl (Power.dieStep fun i => i - 1) x).die d).power = (x.die d).power - 1 :=
  Power.dieSteps_power (P := fun y => NatMap.wf {} y.dies = true) (fun _ _ h => NatMap.wf_set _ _ h) (fun _ _ h => .inr h) hwf hd

theorem State.capIndex_power (s : State) (f : Nat → Nat) (d : Nat) :
    ((s.capIndex f).pwr.die d).power = (((List.range 8).foldl (Power.dieStep f) s.pwr).die d).power := by
  rw [State.capIndex_eq]
  exact State.die_of_sansMove (State.retargetAll_diesSansMove _) DiePower.power (fun _ => rfl) d

theorem Power.dieSteps_sansDies (f : Nat → Nat) (x : Power) : { (List.range 8).foldl (Power.dieStep f) x with dies := [] } = { x with dies := [] } :=
  foldl_same (f := Power.dieStep f) (fun y : Power => { y with dies := [] }) (fun _ _ => rfl) _ x

theorem State.capIndex_sansDies (s : State) (f : Nat → Nat) : (s.capIndex f).sansDies = s.sansDies := by
  rw [State.capIndex_eq, State.retargetAll_sansDies]
  exact congrArg (fun y : Power => ({ s with pwr := y, out := [] } : State)) (Power.dieSteps_sansDies f s.pwr)

theorem State.capIndex_overCap (s : State) (f : Nat → Nat) : (s.capIndex f).pwr.overCap = s.pwr.overCap :=
  State.overCap_of_sansDies (s.capIndex_sansDies f)

theorem State.capIndex_ras (s : State) (f : Nat → Nat) : (s.capIndex f).ras = s.ras := State.ras_of_sansDies (s.capIndex_sansDies f)

theorem State.powerCapWindow_over {s : State} {w d : Nat} (hcap : s.pwr.capWatts ≠ 0) (hw : s.pwr.capWatts < w) (hd : d < 8) :
    (s.powerCapWindow w).pwr.overCap = true ∧ ((s.powerCapWindow w).pwr.die d).power = min ((s.pwr.die d).power + 1) 4 := by
  have hpwr : (s.powerCapWindow w).pwr = ((s.modPwr fun p => { p with overCap := true }).capIndex fun i => min (i + 1) 4).pwr := by
    unfold State.powerCapWindow
    dsimp only
    rw [if_pos ⟨hcap, hw⟩]
    split
    · exact State.raise_pwr _ _
    · rfl
  rw [hpwr]
  exact ⟨State.capIndex_overCap .., (State.capIndex_power ..).trans (Power.dieSteps_up hd)⟩

theorem State.powerCapWindow_under {s : State} {w d : Nat} (hwf : NatMap.wf {} s.pwr.dies = true) (hw : s.pwr.capWatts = 0 ∨ w ≤ s.pwr.capWatts)
    (hd : d < 8) :
    (s.powerCapWindow w).pwr.overCap = false ∧ (s.powerCapWindow w).ras = s.ras ∧
      ((s.powerCapWindow w).pwr.die d).power =
        if s.pwr.capWatts = 0 ∨ 100 * w < 95 * s.pwr.capWatts then (s.pwr.die d).power - 1 else (s.pwr.die d).power := by
  unfold State.powerCapWindow
  dsimp only
  rw [if_neg (by omega)]
  split
  · exact ⟨State.capIndex_overCap .., State.capIndex_ras .., (State.capIndex_power ..).trans (Power.dieSteps_down (x := { s.pwr with overCap := false }) hwf hd)⟩
  · exact ⟨rfl, rfl, rfl⟩

/-! ### Measured power -/

/-- What one of a list of measurements reads. -/
theorem get_measured (l : List Nat) (f : Nat → Nat) (hf : f 0 = 0) {p : Nat} (hp : p < 16) :
    NatMap.get 0 (NatMap.setList 0 [] 0 ((l.take 16).map f)) p = f (l.getD p 0) := by
  have hwf : NatMap.wf 0 ([] : NatMap Nat) = true := rfl
  by_cases hl : p < l.length
  · have h := NatMap.get_setList hwf 0 ((l.take 16).map f) (i := p) (by simp; omega)
    rw [Nat.zero_add] at h
    rw [h, List.getElem_map, List.getElem_take, List.getD_eq_getElem l 0 hl]
  · rw [NatMap.get_setList_other hwf 0 p _ (.inr (by simp; omega)), List.getD_eq_default l 0 (Nat.le_of_not_lt hl), hf]
    rfl

/-! ### Lost references -/

/-- The ports of a state have lost their links and secure channels. -/
theorem State.linksLost {s : State} (hs : s.Canon) (l : List Nat) (j : Nat) :
    (((l.foldl State.linkLost s).port j).link = if j ∈ l then false else (s.port j).link) ∧
      ((l.foldl State.linkLost s).port j).subs = if j ∈ l then [] else (s.port j).subs := by
  induction l generalizing s with
  | nil => exact ⟨(if_neg List.not_mem_nil).symm, (if_neg List.not_mem_nil).symm⟩
  | cons k l ih =>
    obtain ⟨hlink, hsubs⟩ := ih ((s.linkLost_keeps k).canon hs)
    rw [List.foldl_cons, hlink, hsubs, State.linkLost_link hs, State.linkLost_subs hs]
    by_cases hl : j ∈ l <;> by_cases hk : j = k <;> simp [hl, hk]

theorem State.linkLost_pwr (s : State) (k : Nat) : (s.linkLost k).pwr = s.pwr := by
  show (s.macsecEnds k).pwr = s.pwr
  unfold State.macsecEnds State.macsecFell
  split
  · split
    · exact State.raise_pwr _ _
    · rfl
  · rfl

/-- Settles O53. -/
theorem limitsSlowOrBrakeTheDies : Obligations.LimitsSlowOrBrakeTheDies := by
  unfold Obligations.LimitsSlowOrBrakeTheDies
  intro s d hd
  refine ⟨fun hmove => ⟨?_, ?_⟩, fun i up hmove => ⟨?_, fun hretried => ?_, fun hretried => ?_⟩, fun mv hmv => ?_, fun mv hmv => ?_,
    fun q h hv => ⟨fun hfree => ?_, fun hhot => ?_⟩, fun w hcap hw => ⟨s.powerCapWindow w, rfl, State.powerCapWindow_over hcap hw hd⟩,
    fun w hwf hw => ⟨s.powerCapWindow w, rfl, State.powerCapWindow_under hwf hw hd⟩,
    fun m => ⟨s.pmbusPoll m, rfl, rfl, rfl, fun p hp => ⟨get_measured m.parts100 (fun w => w / 10 * 10) rfl hp,
      get_measured m.parts1000 (fun w => w / 50 * 50) rfl hp⟩, rfl⟩, ?_, fun hs => ?_, rfl, rfl⟩
  · exact congrArg Host.Outcome.next (by rw [State.voltageSettled, hmove])
  · exact congrArg Host.Outcome.next (by rw [State.avsTimeout, hmove])
  · exact congrArg Host.Outcome.next (by rw [State.voltageSettled, hmove]; rfl)
  · refine congrArg Host.Outcome.next ?_
    rw [State.avsTimeout, hmove]
    exact if_neg (by simp [hretried])
  · refine congrArg Host.Outcome.next ?_
    rw [State.avsTimeout, hmove]
    exact if_pos hretried
  · exact congrArg Host.Outcome.next (if_neg (Nat.not_lt.mpr hmv))
  · exact congrArg Host.Outcome.next (if_pos hmv)
  · obtain ⟨hdie, hstopped, hparts, halert, hkept⟩ := State.thermalSample_free hd hv hfree
    obtain ⟨hq, hh, hthrottling, hthermal, hcritical⟩ := DiePower.sample_of_sansMove hdie
    refine ⟨s.thermalSample d q h, rfl, hq, hh, hthrottling, fun h420 => ?_,
      fun h420 => ?_, hkept, hstopped, hparts⟩
    · exact ⟨hthermal.trans (if_pos (decide_eq_true h420)), hcritical.trans (decide_eq_true h420), halert h420⟩
    · exact ⟨hthermal.trans (if_neg (by simpa using h420)), hcritical.trans (decide_eq_false (Nat.not_le.mpr h420))⟩
  · exact congrArg Host.Outcome.next (State.thermalSample_hot hhot)
  · exact congrArg Host.Outcome.next (show s.refLost true = _ from if_pos rfl)
  · have hfold : s.refLost false = (List.range 9).foldl State.linkLost (s.modPwr fun p => { p with ref156Lost := true }) := rfl
    refine ⟨s.refLost false, rfl, ?_, fun k hk => ?_⟩
    · rw [hfold, foldl_same State.pwr (fun b k => b.linkLost_pwr k)]
      rfl
    · rw [hfold]
      have hu := (s.modPwr_keeps (fun p => { p with ref156Lost := true }) fun _ h => h).canon hs
      obtain ⟨hlink, hsubs⟩ := State.linksLost hu (List.range 9) k
      rw [if_pos (List.mem_range.mpr hk)] at hlink hsubs
      exact ⟨hlink, State.macsecUp_of_subs hsubs⟩

end Sys2Proof.Machine
/-! PROOFS. O52: power states and domains. -/
namespace Sys2Proof.Machine
open Sys2Proof

/-! ### Deep sleep and Off -/

/-- Every value of a table after a change that gives each a property, which the absent value has. -/
theorem NatMap.get_mapVals_all {α : Type} [DecidableEq α] {d : α} {P : α → Prop} (hd : P d) {f : Nat → α → α} (hf : ∀ k x, P (f k x))
    (m : NatMap α) (n : Nat) : P (NatMap.get d (NatMap.mapVals d f m) n) := by
  refine NatMap.all_get hd ?_ n
  induction m with
  | nil => exact fun e he => nomatch he
  | cons a m ih =>
    obtain ⟨k, v⟩ := a
    simp only [NatMap.mapVals]
    split
    · exact ih
    · exact List.forall_mem_cons.mpr ⟨hf k v, ih⟩

/-- What Deep sleep and Off lose, and what they keep. -/
theorem State.loseState_loses (s : State) :
    s.loseState.granary = [] ∧ s.loseState.leats = [] ∧ s.loseState.sec.setups = [] ∧ s.loseState.sec.peerSetups = [] ∧
      (∀ k, (s.loseState.port k).link = false ∧ (s.loseState.port k).subs = []) ∧
      (∀ k, (s.loseState.tile k).regs = [] ∧ (s.loseState.tile k).scratch = []) ∧
      s.loseState.hbm = s.hbm ∧ s.loseState.pond = s.pond ∧ s.loseState.parts = s.parts ∧ s.loseState.pwr = s.pwr := by
  have hrest := s.endSessions_sansSec fun _ => true
  unfold State.loseState
  extract_lets u v
  refine ⟨rfl, rfl, rfl, rfl, fun k => ?_, fun k => ?_, (congrArg State.hbm hrest :), (congrArg State.pond hrest :), (congrArg State.parts hrest :),
    (congrArg State.pwr hrest :)⟩
  · exact NatMap.get_mapVals_all (P := fun x : Port => x.link = false ∧ x.subs = []) ⟨rfl, rfl⟩ (fun _ _ => ⟨rfl, rfl⟩) v.ports k
  · exact NatMap.get_mapVals_all (P := fun x : Tile => x.regs = [] ∧ x.scratch = []) ⟨rfl, rfl⟩ (fun _ _ => ⟨rfl, rfl⟩) v.tiles k

theorem State.wfiAll_idle {s : State} (h : s.pwr.state ≠ 0 ∨ s.pwr.target = 0) (c : Bool) : s.wfiAll c = s := if_pos h

theorem State.wfiAll_cancelled {s : State} (hrun : s.pwr.state = 0) (htarget : s.pwr.target ≠ 0) :
    s.wfiAll true = { s with pwr := { s.pwr with mode := 0, entryStatus := 3 } } := by
  unfold State.wfiAll
  dsimp only
  rw [if_neg (by tauto), if_pos rfl]
  rfl

theorem State.wfiAll_barred {s : State} (hrun : s.pwr.state = 0) (htarget : s.pwr.target ≠ 0) (hmay : s.mayEnter s.pwr.target = false) :
    s.wfiAll false = ({ s with pwr := { s.pwr with mode := 0, entryStatus := 2 } } : State).raise { code := 0x0B01, loc := { die := 10 } } := by
  unfold State.wfiAll
  dsimp only
  rw [if_neg (by tauto), if_neg Bool.false_ne_true, hmay, if_pos (show (!false) = true from rfl)]
  rfl

/-- R408: an entry that nothing bars. -/
theorem State.wfiAll_enters {s : State} (hrun : s.pwr.state = 0) (htarget : s.pwr.target ≠ 0) (hmay : s.mayEnter s.pwr.target = true) :
    s.wfiAll false =
      let u : State := { s with pwr := { s.pwr with state := s.pwr.target, entryStatus := 0 } }
      if 3 ≤ s.pwr.target then u.loseState else u := by
  unfold State.wfiAll
  dsimp only
  rw [if_neg (by tauto), if_neg Bool.false_ne_true, hmay, if_neg (show ¬ (!true) = true from Bool.false_ne_true)]
  rfl

/-! ### Wake events -/

/-- R409: a wake event of Idle, Sleep and Deep sleep. -/
theorem State.wakeEvent_wakes {s : State} {w : WakeCause} (hstate : 1 ≤ s.pwr.state ∧ s.pwr.state ≤ 3) (hwakes : s.wakes s.pwr.state w = true) :
    s.wakeEvent w =
      let u : State := { s with pwr := { s.pwr with state := 0, mode := 0 } }
      let v : State := if s.pwr.state = 3 ∧ s.mill.state ≠ .freerun then { u with mill := s.mill.acquire } else u
      (List.range 16).foldl State.leaseExpire v := by
  unfold State.wakeEvent
  dsimp only
  rw [if_neg (by omega), hwakes, if_neg (show ¬ (!true) = true from Bool.false_ne_true), if_neg (by omega)]
  rfl

theorem State.wakeEvent_other {s : State} {w : WakeCause} (hstate : s.pwr.state ≠ 0) (hwakes : s.wakes s.pwr.state w = false) :
    s.wakeEvent w = s := by
  unfold State.wakeEvent
  dsimp only
  rw [if_neg hstate, hwakes, if_pos (show (!false) = true from rfl)]

theorem State.wakeEvent_off {s : State} (hstate : s.pwr.state = 4) : s.wakeEvent .pin = s.deviceReset := by
  unfold State.wakeEvent
  dsimp only
  rw [hstate, if_neg (by decide), if_neg (show ¬ (!s.wakes 4 .pin) = true from Bool.false_ne_true), if_pos rfl]

theorem State.wakeEvent_run {s : State} (hstate : s.pwr.state = 0) (w : WakeCause) :
    s.wakeEvent w = if s.pwr.target ≠ 0 ∧ s.wakes s.pwr.target w = true then { s with pwr := { s.pwr with mode := 0, entryStatus := 3 } }
      else s := by
  unfold State.wakeEvent
  dsimp only
  rw [if_pos hstate]
  rfl

/-- A partition whose lease has not lapsed, or is marked already, stays. -/
theorem State.leaseExpire_none {s : State} {p : Nat}
    (h : (s.part p).state = .free ∨ s.mill.now < (s.part p).gov.leaseExpiry ∨ (s.part p).gov.lapsed = true) : s.leaseExpire p = s := by
  unfold State.leaseExpire State.leaseLapsed State.now
  dsimp only
  obtain h | h | h := h
  · rw [h]
    exact if_neg Bool.false_ne_true
  · rw [decide_eq_false (Nat.not_le.mpr h), Bool.and_false]
    exact if_neg Bool.false_ne_true
  · rw [h, Bool.not_true, Bool.and_false]
    exact if_neg Bool.false_ne_true

theorem foldl_fixed {α β : Type} {f : β → α → β} {b : β} {l : List α} (h : ∀ a ∈ l, f b a = b) : l.foldl f b = b := by
  induction l with
  | nil => rfl
  | cons a l ih =>
    rw [List.foldl_cons, h a List.mem_cons_self]
    exact ih fun c hc => h c (List.mem_cons_of_mem a hc)

/-! ### Domains -/

theorem NatMap.get_clearRange {α : Type} [DecidableEq α] {d : α} {m : NatMap α} (h : NatMap.wf d m = true) (lo len n : Nat) :
    NatMap.get d (NatMap.clearRange m lo len) n = if lo ≤ n ∧ n < lo + len then d else NatMap.get d m n := by
  induction m with
  | nil => exact (ite_self d).symm
  | cons e m ih =>
    obtain ⟨k, v⟩ := e
    obtain ⟨-, habove, hwf⟩ := NatMap.wf_cons.mp h
    have hrest : n ≤ k → NatMap.get d (NatMap.clearRange m lo len) n = d := fun hn =>
      NatMap.get_above d fun e he => Nat.lt_of_le_of_lt hn (NatMap.above_filter _ habove e he)
    have hget : NatMap.get d ((k, v) :: m) n = if n = k then v else if n < k then d else NatMap.get d m n := rfl
    by_cases hkeep : k < lo ∨ lo + len ≤ k
    · rw [show NatMap.clearRange ((k, v) :: m) lo len = (k, v) :: NatMap.clearRange m lo len from List.filter_cons_of_pos (by simpa using hkeep)]
      rw [show NatMap.get d ((k, v) :: NatMap.clearRange m lo len) n =
        if n = k then v else if n < k then d else NatMap.get d (NatMap.clearRange m lo len) n from rfl, ih hwf, hget]
      split_ifs <;> first | rfl | omega
    · rw [show NatMap.clearRange ((k, v) :: m) lo len = NatMap.clearRange m lo len from List.filter_cons_of_neg (by simpa using hkeep)]
      rw [hget]
      by_cases hn : n ≤ k
      · rw [hrest hn]
        split_ifs <;> first | rfl | omega
      · rw [ih hwf, if_neg (show ¬ n = k by omega), if_neg (show ¬ n < k by omega)]

theorem State.domainGate_gates {s : State} {n : Nat} (hrun : s.pwr.state = 0) (hgated : (s.pwr.domain n).gated = false) (hmay : s.mayGate n = true) :
    s.domainGate n = ({ s with pwr := s.pwr.setDomain n { s.pwr.domain n with gated := true } } : State).gateLoss n := by
  unfold State.domainGate
  dsimp only
  exact if_pos ⟨hrun, by rw [hgated]; rfl, hmay⟩

theorem State.domainGate_stays {s : State} {n : Nat} (h : s.pwr.state ≠ 0 ∨ (s.pwr.domain n).gated = true ∨ s.mayGate n = false) :
    s.domainGate n = s := by
  unfold State.domainGate
  dsimp only
  refine if_neg fun ⟨hrun, hgated, hmay⟩ => ?_
  obtain h | h | h := h
  · exact h hrun
  · rw [h] at hgated
    exact Bool.false_ne_true hgated
  · exact Bool.false_ne_true (h.symm.trans hmay)

/-- A gated Granary bank loses its contents. -/
theorem State.gateLoss_bank {s : State} {n : Nat} (h : 576 ≤ n ∧ n < 640) : s.gateLoss n = s.zeroSlice (n - 576) := if_pos h

/-- A gated port loses its link. -/
theorem State.gateLoss_port {s : State} {n : Nat} (h : 672 ≤ n ∧ n < 680) : s.gateLoss n = s.linkLost (n - 672) :=
  (if_neg (by omega)).trans (if_pos h)

theorem State.gateLoss_none {s : State} {n : Nat} (h : n < 576 ∨ 640 ≤ n ∧ n < 672) : s.gateLoss n = s :=
  (if_neg (by omega)).trans (if_neg (by omega))

/-- R413: a tile with queued work is kept on. -/
theorem State.mayGate_queued {s : State} {n : Nat} (hn : n < 512) (hq : (s.tile n).queue ≠ []) : s.mayGate n = false := by
  have hkept : s.keptOn n = true := by
    rw [State.keptOn, if_pos hn, Tile.keptOn, (List.isEmpty_eq_false_iff).mpr hq]
    rfl
  unfold State.mayGate
  dsimp only
  rw [if_pos hn, hkept]
  exact Bool.and_false _

theorem State.mayGate_usedPort {s : State} {n : Nat} (hn : 672 ≤ n) (hmac : (s.port (n - 672)).mac ≠ 0) : s.mayGate n = false := by
  unfold State.mayGate
  dsimp only
  rw [if_neg (by omega), if_neg (by omega), if_neg (by omega), if_neg (by omega)]
  split
  · rw [beq_false_of_ne hmac, Bool.and_false, Bool.false_and]
  · rfl

/-- Settles O52. -/
theorem powerStatesAndDomainsFollowTheirConditions : Obligations.PowerStatesAndDomainsFollowTheirConditions := by
  unfold Obligations.PowerStatesAndDomainsFollowTheirConditions
  intro s n
  refine ⟨fun c h => congrArg Host.Outcome.next (State.wfiAll_idle h c),
    fun hrun htarget => ⟨congrArg Host.Outcome.next (State.wfiAll_cancelled hrun htarget),
      fun hmay => congrArg Host.Outcome.next (State.wfiAll_barred hrun htarget hmay), fun hmay hsleep => ?_, fun hmay hdeep => ?_⟩,
    fun w hlow hhigh hwakes => ⟨congrArg Host.Outcome.next (State.wakeEvent_wakes ⟨hlow, hhigh⟩ hwakes), fun hleases hsleep => ?_⟩,
    fun hoff => congrArg Host.Outcome.next (State.wakeEvent_off hoff),
    fun w hstate hwakes => congrArg Host.Outcome.next (State.wakeEvent_other hstate hwakes), fun hidle => ?_,
    fun w hrun => congrArg Host.Outcome.next (State.wakeEvent_run hrun w),
    fun hrun hgated hmay => ⟨fun hn => ?_, fun hs hlow hhigh => ?_, fun hs hlow hhigh => ?_⟩,
    fun h => congrArg Host.Outcome.next (State.domainGate_stays h), State.mayGate_queued, State.mayGate_usedPort,
    fun hgated => ⟨congrArg Host.Outcome.next (if_pos hgated), congrArg Host.Outcome.next (if_pos hgated)⟩,
    fun hgated => ⟨congrArg Host.Outcome.next (if_neg (by simp [hgated])), congrArg Host.Outcome.next (if_neg (by simp [hgated]))⟩⟩
  · exact congrArg Host.Outcome.next ((State.wfiAll_enters hrun htarget hmay).trans (if_neg (Nat.not_le.mpr hsleep)))
  · have h := (State.wfiAll_enters hrun htarget hmay).trans (if_pos hdeep)
    refine ⟨_, congrArg Host.Outcome.next h, ?_⟩
    obtain ⟨hgranary, hleats, hsetups, hpeers, hports, htiles, hhbm, hpond, hparts, hpwr⟩ :=
      State.loseState_loses { s with pwr := { s.pwr with state := s.pwr.target, entryStatus := 0 } }
    exact ⟨by rw [hpwr], by rw [hpwr], hgranary, hleats, hsetups, hpeers, hports, htiles, hhbm, hpond, hparts⟩
  · refine congrArg Host.Outcome.next ((State.wakeEvent_wakes ⟨hlow, hhigh⟩ hwakes).trans ?_)
    dsimp only
    rw [if_neg fun h => absurd h.1 (Nat.ne_of_lt hsleep)]
    exact foldl_fixed fun p hp => State.leaseExpire_none (hleases p (List.mem_range.mp hp))
  · exact congrArg Host.Outcome.next (State.wakeEvent_other (by omega) (by rw [hidle]; rfl))
  · exact congrArg Host.Outcome.next ((State.domainGate_gates hrun hgated hmay).trans (State.gateLoss_none hn))
  · refine ⟨_, congrArg Host.Outcome.next ((State.domainGate_gates hrun hgated hmay).trans (State.gateLoss_bank ⟨hlow, hhigh⟩)), rfl, fun a => ?_⟩
    refine (NatMap.get_clearRange hs.mem.granary _ _ a).trans ?_
    rw [show sliceBytes * (n - 576) + sliceBytes = sliceBytes * (n - 575) from by
      rw [← Nat.mul_succ, show (n - 576).succ = n - 575 by omega]]
  · have hu := (s.modPwr_keeps (fun p => p.setDomain n { s.pwr.domain n with gated := true }) fun _ h => h).canon hs
    have hlost := (State.linkLost_port hu (n - 672) (n - 672)).trans (if_pos rfl)
    refine ⟨_, congrArg Host.Outcome.next ((State.domainGate_gates hrun hgated hmay).trans (State.gateLoss_port ⟨hlow, hhigh⟩)), ?_, ?_, ?_,
      State.linkLost_pwr _ _⟩
    · exact (congrArg Port.link hlost :)
    · exact (congrArg Port.lanes hlost :)
    · exact (State.linkLost_subs hu (n - 672) (n - 672)).trans (if_pos rfl)

end Sys2Proof.Machine
/-! PROOFS. O51: test slots, retests, arbitration and the patrol. -/
namespace Sys2Proof.Machine
open Sys2Proof

@[simp] theorem State.modRas_sansSec (s : State) (f : Ras → Ras) : (s.modRas f).sansSec = s.sansSec := rfl

/-- The reliability state without the fault record. -/
def Ras.sansRecord (r : Ras) : Ras := { r with ring := [], recCount := 0, keys := [] }

/-- A fault changes the fault record alone of the reliability state. -/
theorem State.raise_sansRecord (s : State) (f : FaultRec) : (s.raise f).ras.sansRecord = s.ras.sansRecord := by
  unfold State.raise
  split
  · rfl
  · refine (foldl_same (fun t : State => t.ras.sansRecord) (fun b a => ?_) _ _).trans rfl
    rw [State.sendOn_ras]

theorem State.raise_corr (s : State) (f : FaultRec) : (s.raise f).ras.corr = s.ras.corr := (congrArg Ras.corr (s.raise_sansRecord f) :)

/-! ### Repairs and the faults of a test -/

/-- Repairs change the reliability state alone. -/
theorem State.repairAll_rest (s : State) (t : Nat) (l : List CellFail) : { (s.repairAll t l).1 with ras := s.ras } = s := by
  have h : ∀ r : Ras, { (s.repairAll t l).1 with ras := r } = { s with ras := r } := fun r =>
    foldl_same (fun a : State × List (Bool × List Byte) => ({ a.1 with ras := r } : State)) (by intro _ _; rfl) (failLines t l) (s, [])
  exact h s.ras

theorem State.repairAll_canon {s : State} (hs : s.Canon) (t : Nat) (l : List CellFail) : (s.repairAll t l).1.Canon :=
  (State.repairAll_keeps s t l).canon hs

theorem State.repairAll_retest (s : State) (t : Nat) (l : List CellFail) : (s.repairAll t l).1.ras.retest = s.ras.retest :=
  foldl_same (fun a : State × List (Bool × List Byte) => a.1.ras.retest) (by intro _ _; rfl) (failLines t l) (s, [])

theorem State.raiseTest_sansSec (s : State) (t slice : Nat) (b : BistResult) (r : SliceResult) : (s.raiseTest t slice b r).sansSec = s.sansSec := by
  unfold State.raiseTest
  extract_lets loc u code
  refine (foldl_same State.sansSec (fun v e => v.raise_sansSec _) _ u).trans ?_
  show (if r.logicOk then s else _).sansSec = s.sansSec
  split
  · rfl
  · exact s.raise_sansSec _

theorem State.raiseTest_sansRecord (s : State) (t slice : Nat) (b : BistResult) (r : SliceResult) :
    (s.raiseTest t slice b r).ras.sansRecord = s.ras.sansRecord := by
  unfold State.raiseTest
  extract_lets loc u code
  refine (foldl_same (fun v : State => v.ras.sansRecord) (fun v e => v.raise_sansRecord _) _ u).trans ?_
  show (if r.logicOk then s else _).ras.sansRecord = s.ras.sansRecord
  split
  · rfl
  · exact s.raise_sansRecord _

/-! ### The tile after a test -/

/-- What a test leaves of its tile. -/
structure Tile.Tested (x y : Tile) (logicOk memoryOk logic memory : Prop) : Prop where
  test : y.test = none
  regs : y.regs = []
  scratch : y.scratch = []
  stats : y.stats = []
  passed : logicOk ∧ memoryOk → y.queue = x.queue ∧ y.quarantined = x.quarantined
  failed : ¬ (logicOk ∧ memoryOk) → y.queue = [] ∧ y.quarantined = true
  logicCause : ¬ logicOk → y.quarCause = .logicBist
  memoryCause : logicOk → ¬ memoryOk → y.quarCause = .memoryBist
  nextSlice : y.nextSlice = x.nextSlice ∧ ¬ logic ∨ y.nextSlice = (x.nextSlice + 1) % 32 ∧ logic
  coverLogic : logic → logicOk → bit y.coverLogic x.nextSlice = true
  coverMem : memory → memoryOk → y.coverMem = true

theorem bit_or_two_pow (v i : Nat) : bit (v ||| 2 ^ i) i = true := by
  rw [bit_eq_testBit, Nat.testBit_or, Nat.testBit_two_pow_self, Bool.or_true]

/-- The tile that a test returns or quarantines. -/
def Tile.returned (x : Tile) (r : SliceResult) (memory : Bool) : Tile :=
  let x := { x.scrub with test := none, coverMem := x.coverMem || (memory && r.memoryOk) }
  if r.ok then x
  else { x with quarantined := true, quarCause := if r.logicOk then .memoryBist else .logicBist,
                queue := [], dropped := min (x.dropped + x.queue.length) 0xFFFF }

/-- The rotation of the logic slices after a test. -/
def Tile.rotated (x : Tile) (r : SliceResult) (logic : Bool) : Tile :=
  if logic then
    { x with nextSlice := (x.nextSlice + 1) % 32, coverLogic := if r.logicOk then x.coverLogic ||| 2 ^ x.nextSlice else x.coverLogic }
  else x

theorem Tile.tested_eq (x : Tile) (r : SliceResult) (logic memory : Bool) : x.tested r logic memory = (x.returned r memory).rotated r logic := rfl

/-- What the rotation leaves of a tile. -/
theorem Tile.rotated_rest (x : Tile) (r : SliceResult) (logic : Bool) :
    { x.rotated r logic with nextSlice := x.nextSlice, coverLogic := x.coverLogic } = x := by
  unfold Tile.rotated
  split <;> rfl

theorem Tile.returned_passed {x : Tile} {r : SliceResult} (h : r.ok = true) (memory : Bool) :
    x.returned r memory = { x.scrub with test := none, coverMem := x.coverMem || (memory && r.memoryOk) } := if_pos h

theorem Tile.returned_failed {x : Tile} {r : SliceResult} (h : r.ok = false) (memory : Bool) :
    x.returned r memory = { x.scrub with
      test := none, coverMem := x.coverMem || (memory && r.memoryOk), quarantined := true
      quarCause := if r.logicOk then .memoryBist else .logicBist, queue := [], dropped := min (x.dropped + x.queue.length) 0xFFFF } :=
  if_neg (by simp [h])

/-- What a test leaves of its tile but for the rotation. -/
theorem Tile.returned_spec (x : Tile) (r : SliceResult) (memory : Bool) :
    let y := x.returned r memory
    y.test = none ∧ y.regs = [] ∧ y.scratch = [] ∧ y.stats = [] ∧ y.nextSlice = x.nextSlice ∧
      (r.logicOk = true ∧ r.memoryOk = true → y.queue = x.queue ∧ y.quarantined = x.quarantined) ∧
      (¬ (r.logicOk = true ∧ r.memoryOk = true) → y.queue = [] ∧ y.quarantined = true) ∧
      (¬ r.logicOk = true → y.quarCause = .logicBist) ∧ (r.logicOk = true → ¬ r.memoryOk = true → y.quarCause = .memoryBist) ∧
      (memory = true → r.memoryOk = true → y.coverMem = true) := by
  have hok : r.ok = true ↔ r.logicOk = true ∧ r.memoryOk = true := Bool.and_eq_true_iff
  have hcover : memory = true → r.memoryOk = true → (x.coverMem || (memory && r.memoryOk)) = true := fun h1 h2 => by
    rw [h1, h2, Bool.and_true, Bool.or_true]
  by_cases h : r.ok = true
  · obtain ⟨hlogic, hmemory⟩ := hok.mp h
    rw [Tile.returned_passed h]
    exact ⟨rfl, rfl, rfl, rfl, rfl, fun _ => ⟨rfl, rfl⟩, fun hno => absurd ⟨hlogic, hmemory⟩ hno, fun hno => absurd hlogic hno,
      fun _ hno => absurd hmemory hno, hcover⟩
  · rw [Tile.returned_failed (Bool.eq_false_of_not_eq_true h)]
    exact ⟨rfl, rfl, rfl, rfl, rfl, fun hyes => absurd (hok.mpr hyes) h, fun _ => ⟨rfl, rfl⟩, fun hno => if_neg hno, fun hyes _ => if_pos hyes, hcover⟩

theorem Tile.tested_spec (x : Tile) (r : SliceResult) (logic memory : Bool) :
    x.Tested (x.tested r logic memory) (r.logicOk = true) (r.memoryOk = true) (logic = true) (memory = true) := by
  rw [Tile.tested_eq]
  obtain ⟨htest, hregs, hscratch, hstats, hslice, hpassed, hfailed, hlogic, hmemory, hcover⟩ := x.returned_spec r memory
  have hrest := (x.returned r memory).rotated_rest r logic
  generalize x.returned r memory = y at *
  have hfield : ∀ {α : Type} (f : Tile → α), (∀ z : Tile, f { z with nextSlice := y.nextSlice, coverLogic := y.coverLogic } = f z) →
      f (y.rotated r logic) = f y := fun f hf => (hf _).symm.trans (congrArg f hrest)
  refine { test := (hfield Tile.test fun _ => rfl).trans htest, regs := (hfield Tile.regs fun _ => rfl).trans hregs
           scratch := (hfield Tile.scratch fun _ => rfl).trans hscratch, stats := (hfield Tile.stats fun _ => rfl).trans hstats
           passed := ?_, failed := ?_, logicCause := ?_, memoryCause := ?_, nextSlice := ?_, coverLogic := ?_, coverMem := ?_ }
  · rwa [hfield Tile.queue fun _ => rfl, hfield Tile.quarantined fun _ => rfl]
  · rwa [hfield Tile.queue fun _ => rfl, hfield Tile.quarantined fun _ => rfl]
  · rwa [hfield Tile.quarCause fun _ => rfl]
  · rwa [hfield Tile.quarCause fun _ => rfl]
  · cases logic with
    | false => exact .inl ⟨hslice, Bool.false_ne_true⟩
    | true => exact .inr ⟨congrArg (fun n => (n + 1) % 32) hslice, rfl⟩
  · intro hl hok
    subst hl
    rw [← hslice]
    refine (congrArg (bit · y.nextSlice) (if_pos hok)).trans (bit_or_two_pow y.coverLogic y.nextSlice)
  · rwa [hfield Tile.coverMem fun _ => rfl]

/-! ### TEST_SLOT_COMPLETE -/

/-- The repairs of a test, where its mode tests the memories. -/
def State.repaired (s : State) (t : Nat) (y : TileTest) (b : BistResult) : State × List (Bool × List Byte) :=
  if y.mode != 0 then s.repairAll t b.fails else (s, [])

/-- What the slices of a test found. -/
def State.slicesTested (s : State) (t : Nat) (y : TileTest) (b : BistResult) : SliceResult :=
  { logicOk := !(y.mode != 1) || b.misr == b.golden, repairs := (s.repaired t y b).2 }

/-- The record of a test. -/
def State.testResult (s : State) (t : Nat) (y : TileTest) (slice : Nat) (r : SliceResult) : TestResult :=
  { fault := r.fault, tile := t, slice := slice, mode := y.mode, ns := min (s.now - y.start) 0xFFFFFFFF }

/-- The end of a test for the tile's partition: its result, and its entry's completion. -/
def State.testEnds (s : State) (t : Nat) (y : TileTest) (slice : Nat) (r : SliceResult) : State :=
  match s.tilePart t with
  | none => s
  | some p =>
    let s := { s with testResults := NatMap.set {} s.testResults p (s.testResult t y slice r) }
    if ((s.part p).gov.run y.entry).status = .running then s.completeRun p y.entry else s

/-- The state as a test has decided on its tile. -/
def State.testDecided (s : State) (t : Nat) (y : TileTest) (b : BistResult) : State :=
  ((s.repaired t y b).1.setTile t ((s.tile t).tested (s.slicesTested t y b) (y.mode != 1) (y.mode != 0))).raiseTest t (s.tile t).nextSlice b
    (s.slicesTested t y b)

theorem State.testSlotComplete_eq {s : State} {t : Nat} {b : BistResult} {y : TileTest} (hx : (s.tile t).test = some y) (hmode : y.mode ≠ 3) :
    s.testSlotComplete t b = (s.testDecided t y b).testEnds t y (s.tile t).nextSlice (s.slicesTested t y b) := by
  unfold State.testSlotComplete
  dsimp only
  rw [hx]
  exact if_neg hmode

theorem State.repaired_rest (s : State) (t : Nat) (y : TileTest) (b : BistResult) : { (s.repaired t y b).1 with ras := s.ras } = s := by
  unfold State.repaired
  split
  · exact s.repairAll_rest t b.fails
  · rfl

theorem State.slicesTested_logicOk (s : State) (t : Nat) (y : TileTest) (b : BistResult) :
    (s.slicesTested t y b).logicOk = true ↔ y.mode = 1 ∨ b.misr = b.golden := by
  simp [State.slicesTested]

theorem State.slicesTested_memoryOk (s : State) (t : Nat) (y : TileTest) (b : BistResult) :
    (s.slicesTested t y b).memoryOk = true ↔ y.mode = 0 ∨ (s.repairAll t b.fails).2.all (·.1) = true := by
  unfold State.slicesTested State.repaired SliceResult.memoryOk
  by_cases h : y.mode = 0
  · simp [h]
  · rw [if_pos (by simpa using h)]
    exact (or_iff_right h).symm

theorem State.testDecided_sansSec (s : State) (t : Nat) (y : TileTest) (b : BistResult) :
    (s.testDecided t y b).sansSec =
      (s.setTile t ((s.tile t).tested (s.slicesTested t y b) (y.mode != 1) (y.mode != 0))).sansSec := by
  refine (State.raiseTest_sansSec ..).trans ?_
  have hrest := congrArg (fun u : State => (u.setTile t ((s.tile t).tested (s.slicesTested t y b) (y.mode != 1) (y.mode != 0))).sansSec)
    (s.repaired_rest t y b)
  exact hrest

theorem State.testDecided_tile {s : State} (hs : s.Canon) (t : Nat) (y : TileTest) (b : BistResult) (m : Nat) :
    (s.testDecided t y b).tile m =
      if m = t then (s.tile t).tested (s.slicesTested t y b) (y.mode != 1) (y.mode != 0) else s.tile m := by
  have h : (s.testDecided t y b).tiles = _ := (congrArg State.tiles (s.testDecided_sansSec t y b) :)
  rw [State.tile, h]
  exact s.tile_setTile hs.tab.tiles t m _

theorem State.testDecided_parts (s : State) (t : Nat) (y : TileTest) (b : BistResult) : (s.testDecided t y b).parts = s.parts :=
  (congrArg State.parts (s.testDecided_sansSec t y b) :)
theorem State.testDecided_testResults (s : State) (t : Nat) (y : TileTest) (b : BistResult) :
    (s.testDecided t y b).testResults = s.testResults := (congrArg State.testResults (s.testDecided_sansSec t y b) :)

theorem State.testEnds_tiles (s : State) (t : Nat) (y : TileTest) (slice : Nat) (r : SliceResult) : (s.testEnds t y slice r).tiles = s.tiles := by
  unfold State.testEnds
  split
  · rfl
  · dsimp only
    split <;> rfl

theorem State.tilePart_congr {s u : State} (h : u.parts = s.parts) : u.tilePart = s.tilePart := by
  unfold State.tilePart State.clusterPart State.part
  rw [h]

/-- R395: the partition of the tile reads the result, and its entry is complete. -/
theorem State.testEnds_part {s : State} {t p : Nat} (hp : s.tilePart t = some p) (hparts : NatMap.wf {} s.parts = true)
    (hresults : NatMap.wf {} s.testResults = true) (y : TileTest) (slice : Nat) (r : SliceResult) :
    NatMap.get {} (s.testEnds t y slice r).testResults p = s.testResult t y slice r ∧
      (((s.part p).gov.run y.entry).status = .running → (((s.testEnds t y slice r).part p).gov.run y.entry).status = .complete) := by
  have hget := NatMap.get_set_self hresults p (s.testResult t y slice r)
  unfold State.testEnds
  rw [hp]
  dsimp only
  split
  · refine ⟨hget, fun _ => ?_⟩
    refine (congrArg (fun v : Part => (v.gov.run y.entry).status) ((NatMap.get_set hparts p p _).trans (if_pos rfl))).trans ?_
    exact Gov.completeRun_run _ _ _
  · next hrunning => exact ⟨hget, fun h => absurd h hrunning⟩

/-! ### RETEST -/

/-- What a RETEST found. -/
def State.retestResult (s : State) (t : Nat) (b : BistResult) : SliceResult :=
  { logicOk := b.misr == b.golden, repairs := ((s.marched t).repairAll t b.fails).2 }

/-- A tile after a RETEST. -/
def Tile.retested (x : Tile) (r : SliceResult) : Tile :=
  { x.tested r false true with
    quarantined := !r.ok, halted := !r.ok && (x.tested r false true).halted
    quarCause := if r.ok then .none else (x.tested r false true).quarCause
    coverLogic := if r.logicOk then 0xFFFFFFFF else (x.tested r false true).coverLogic }

theorem State.retestComplete_eq {s : State} {t : Nat} (h : s.ras.retest = some t) (b : BistResult) :
    s.retestComplete b =
      ((((s.marched t).repairAll t b.fails).1.modRas fun y =>
        { y with retest := none, testStatus := if (s.retestResult t b).ok then 0 else 0x15 }).setTile t
          ((s.tile t).retested (s.retestResult t b))).raiseTest t (s.tile t).nextSlice b (s.retestResult t b) := by
  unfold State.retestComplete
  rw [h]
  rfl

/-- March C− leaves all but the cluster's SRAM and the Granary. -/
theorem State.marched_rest (s : State) (t : Nat) : { s.marched t with clusters := s.clusters, granary := s.granary } = s := rfl

theorem State.retestComplete_sansSec {s : State} {t : Nat} (h : s.ras.retest = some t) (b : BistResult) :
    (s.retestComplete b).sansSec = ((s.marched t).setTile t ((s.tile t).retested (s.retestResult t b))).sansSec := by
  rw [State.retestComplete_eq h]
  refine (State.raiseTest_sansSec ..).trans ?_
  have hrest := congrArg (fun u : State => (u.setTile t ((s.tile t).retested (s.retestResult t b))).sansSec)
    ((s.marched t).repairAll_rest t b.fails)
  exact hrest

theorem State.retestComplete_tile {s : State} (hs : s.Canon) {t : Nat} (h : s.ras.retest = some t) (b : BistResult) (m : Nat) :
    (s.retestComplete b).tile m = if m = t then (s.tile t).retested (s.retestResult t b) else s.tile m := by
  have htiles : (s.retestComplete b).tiles = _ := (congrArg State.tiles (State.retestComplete_sansSec h b) :)
  rw [State.tile, htiles]
  exact (s.marched t).tile_setTile hs.tab.tiles t m _

theorem State.retestComplete_sram {s : State} (hs : s.Canon) {t : Nat} (h : s.ras.retest = some t) (b : BistResult) :
    ((s.retestComplete b).cluster (tileCluster t)).sram = [] := by
  have hclusters : (s.retestComplete b).clusters = _ := (congrArg State.clusters (State.retestComplete_sansSec h b) :)
  rw [State.cluster, hclusters]
  exact congrArg Cluster.sram (State.cluster_modCluster hs (tileCluster t) fun c => { c with sram := [] })

theorem State.retestComplete_ras {s : State} {t : Nat} (h : s.ras.retest = some t) (b : BistResult) :
    (s.retestComplete b).ras.retest = none ∧ (s.retestComplete b).ras.testStatus = if (s.retestResult t b).ok then 0 else 0x15 := by
  rw [State.retestComplete_eq h]
  have hras := State.raiseTest_sansRecord ((((s.marched t).repairAll t b.fails).1.modRas fun y =>
        { y with retest := none, testStatus := if (s.retestResult t b).ok then 0 else 0x15 }).setTile t
          ((s.tile t).retested (s.retestResult t b))) t (s.tile t).nextSlice b (s.retestResult t b)
  exact ⟨(congrArg Ras.retest hras :), (congrArg Ras.testStatus hras :)⟩

/-- R397: what a RETEST leaves of its tile. -/
theorem Tile.retested_spec (x : Tile) (r : SliceResult) :
    (x.retested r).test = none ∧ (x.retested r).regs = [] ∧
      (r.ok = true → (x.retested r).quarantined = false ∧ (x.retested r).quarCause = .none) ∧
      (r.ok = false → (x.retested r).quarantined = true ∧ (x.retested r).queue = []) := by
  have htested := x.tested_spec r false true
  refine ⟨htested.test, htested.regs, fun hok => ⟨?_, if_pos hok⟩, fun hok => ⟨?_, ?_⟩⟩
  · exact congrArg not hok
  · exact congrArg not hok
  · refine (htested.failed fun hboth => ?_).1
    exact Bool.false_ne_true (hok.symm.trans (Bool.and_eq_true_iff.mpr hboth))

/-! ### Arbitration -/

/-- The tile to which the decision returns, its array's checker retired. -/
def Tile.checkerRetired (x : Tile) (arrB : Bool) : Tile :=
  let x := if arrB then { x with arrB := { x.arrB with checkerRetired := true } } else { x with arrA := { x.arrA with checkerRetired := true } }
  { x with quarantined := false, arbitrating := false
           flight := x.flight.map fun f => if f.heldMma arrB then { f with phase := .running } else f }

theorem Tile.checkerRetired_spec (x : Tile) (arrB : Bool) :
    (x.checkerRetired arrB).quarantined = false ∧ (x.checkerRetired arrB).arbitrating = false ∧
      (arrB = false → (x.checkerRetired arrB).arrA = { x.arrA with checkerRetired := true } ∧ (x.checkerRetired arrB).arrB = x.arrB) ∧
      (arrB = true → (x.checkerRetired arrB).arrB = { x.arrB with checkerRetired := true } ∧ (x.checkerRetired arrB).arrA = x.arrA) ∧
      (x.checkerRetired arrB).regs = x.regs := by
  cases arrB with
  | false => exact ⟨rfl, rfl, fun _ => ⟨rfl, rfl⟩, nofun, rfl⟩
  | true => exact ⟨rfl, rfl, nofun, fun _ => ⟨rfl, rfl⟩, rfl⟩

theorem State.checkerWrong_eq (s : State) (a : Arbitration) (xs x3 : Int) :
    s.checkerWrong a xs x3 = (s.modTile a.tile fun x => x.checkerRetired a.arrB).raise
      { code := 0x0A01, loc := s.locTile a.tile (if a.arrB then 2 else 1), severity := 2, detail := arbDetail a.xo xs x3 } := rfl

theorem State.checkerWrong_tile {s : State} (hs : s.Canon) (a : Arbitration) (xs x3 : Int) (m : Nat) :
    (s.checkerWrong a xs x3).tile m = if m = a.tile then (s.tile a.tile).checkerRetired a.arrB else s.tile m := by
  rw [State.checkerWrong_eq, State.raise_tile]
  exact State.tile_modTile hs a.tile m _

/-- The array A of a spare has failed. -/
def State.spareFails (s : State) (d : Nat) : State :=
  (s.modRas fun r => r.setSpare d { r.spare d with aFailed := true }).raise { code := 0x0A10, loc := { die := d, unit := 16 } }

theorem State.spareFails_tile (s : State) (d m : Nat) : (s.spareFails d).tile m = s.tile m := State.raise_tile ..

theorem State.spareFails_aFailed (s : State) (d : Nat) : ((s.spareFails d).ras.spare d).aFailed = true := by
  have hras := State.raise_sansRecord (s.modRas fun r => r.setSpare d { r.spare d with aFailed := true })
    { code := 0x0A10, loc := { die := d, unit := 16 } }
  have hspares : (s.spareFails d).ras.spares = _ := (congrArg Ras.spares hras :)
  rw [Ras.spare, hspares]
  have hne : ({ s.ras.spare d with aFailed := true } : Spare) ≠ {} := fun h => nomatch congrArg Spare.aFailed h
  exact congrArg Spare.aFailed (NatMap.get_set_same s.ras.spares d hne)

/-- R386: the state without the arbitration that the spare ran. -/
def State.spareFreed (s : State) (d : Nat) : State := { s with ras := s.ras.setSpare d { s.ras.spare d with running := none } }

theorem State.arbitrationDecision_eq {s : State} {d : Nat} {a : Arbitration} (h : (s.ras.spare d).running = some a) (xs x3 : Int) :
    s.arbitrationDecision d xs x3 =
      if xs = a.xo then (s.spareFreed d).checkerWrong a xs 0
      else if residuesAgree a.rhoE xs then (s.spareFreed d).arrayWrong a 0x0A02 .array xs 0
      else if (s.ras.spare d).aFailed then (s.spareFreed d).arrayWrong a 0x0A03 .noVote xs 0
      else if x3 = a.xo then ((s.spareFreed d).checkerWrong a xs x3).spareFails d
      else if x3 = xs then (s.spareFreed d).arrayWrong a 0x0A02 .array xs x3
      else (s.spareFreed d).arrayWrong a 0x0A03 .noVote xs x3 := by
  unfold State.arbitrationDecision
  dsimp only
  rw [h]
  rfl

/-! ### The patrol -/

/-- A corrected word's row is mapped to a spare where it was corrected before. -/
def State.rowMapped (s : State) (w : MemWord) (bit : Nat) : State :=
  match w.site with
  | none => s
  | some m =>
    let fresh := s.ras.corrected.filter fun e => decide (s.now < e.2.2.2 + dayNs)
    let same := fun (e : Nat × Nat × Nat × Nat) => e.1 == m.memory && e.2.1 == m.owner && e.2.2.1 == m.addr
    if fresh.any same then
      let r := s.repair m false bit 1
      let l := s.wordLoc w
      (r.2.2.modRas fun x => { x with corrected := fresh.filter (!same ·) }).raise
        { code := 0x0A08, loc := l.1, severity := 2, addr := l.2, detail := r.2.1 }
    else s.modRas fun x => { x with corrected := (m.memory, m.owner, m.addr, s.now) :: fresh }

theorem State.correctedWord_counted {s : State} {w : MemWord} {c : Nat} (hc : w.cls = some c) (b : Nat) :
    s.correctedWord w b = (s.countCorr c).rowMapped w b := by
  unfold State.correctedWord
  rw [hc]
  rfl

/-- An HBM or Pond line is counted by its channel alone. -/
theorem State.correctedWord_line {s : State} {w : MemWord} (hc : w.cls = none) (b : Nat) :
    s.correctedWord w b = (s.modMce fun m => { m with eccCorr := min (m.eccCorr + 1) 0xFFFFFFFF }).rowMapped w b := by
  unfold State.correctedWord
  rw [hc]
  rfl

theorem State.repair_sansSec (s : State) (m : MemSite) (column : Bool) (bit source : Nat) :
    (s.repair m column bit source).2.2.sansSec = s.sansSec := rfl
theorem State.repair_corr (s : State) (m : MemSite) (column : Bool) (bit source : Nat) :
    (s.repair m column bit source).2.2.ras.corr = s.ras.corr := rfl

/-- Mapping a row to a spare writes the reliability state, and may raise a fault. -/
theorem State.rowMapped_sansSec (s : State) (w : MemWord) (b : Nat) : (s.rowMapped w b).sansSec = s.sansSec := by
  unfold State.rowMapped
  split
  · rfl
  · dsimp only
    split
    · rw [State.raise_sansSec, State.modRas_sansSec, State.repair_sansSec]
    · rfl

/-- It leaves the counts of corrected words. -/
theorem State.rowMapped_corr (s : State) (w : MemWord) (b : Nat) : (s.rowMapped w b).ras.corr = s.ras.corr := by
  unfold State.rowMapped
  split
  · rfl
  · next m _ =>
    dsimp only
    split
    · rw [State.raise_corr]
      exact s.repair_corr m false b 1
    · rfl

theorem get_counted (m : NatMap Nat) (k : Nat) {top : Nat} (h : 0 < top) :
    NatMap.get 0 (NatMap.modify 0 m k fun n => min (n + 1) top) k = min (NatMap.get 0 m k + 1) top :=
  NatMap.get_set_same m k (show min (NatMap.get 0 m k + 1) top ≠ 0 by omega)

/-- Settles O51. -/
theorem testsAndArbitrationDecideOnTiles : Obligations.TestsAndArbitrationDecideOnTiles := by
  unfold Obligations.TestsAndArbitrationDecideOnTiles
  intro s n hs
  refine ⟨fun htest b => ?_, fun y b htest hmode => ?_, fun y b htest hmode => ?_, fun rq hmay hsel hn => ⟨fun hbusy => ?_, fun p hidle hp => ?_,
      fun hidle hp => ?_⟩, fun b hretest => ?_, fun b hidle => ?_, fun d a q hfree hqueue => ?_, fun d h => ?_, fun d xs x3 hfree => ?_,
    fun d a xs x3 hrun ha => ⟨fun h => ?_, fun hxs hres => ?_, fun hxs hres hfailed => ?_, fun hxs hres hfailed hx3 => ?_⟩,
    fun w f hen => ?_, fun hen => ⟨fun w => ?_, fun a b => ?_, fun a => ?_, fun l b => ?_, fun l => ?_⟩⟩
  · refine congrArg Host.Outcome.next ?_
    rw [State.testSlotComplete, htest]
  · refine congrArg Host.Outcome.next ?_
    rw [State.testSlotComplete, htest]
    exact if_pos hmode
  · have heq := State.testSlotComplete_eq (b := b) htest hmode
    have htile : ∀ m, (s.testSlotComplete n b).tile m =
        if m = n then (s.tile n).tested (s.slicesTested n y b) (y.mode != 1) (y.mode != 0) else s.tile m := fun m => by
      rw [heq, State.tile, State.testEnds_tiles]
      exact State.testDecided_tile hs n y b m
    have hown := (htile n).trans (if_pos rfl)
    have hspec := (s.tile n).tested_spec (s.slicesTested n y b) (y.mode != 1) (y.mode != 0)
    rw [← hown] at hspec
    have hlogic := s.slicesTested_logicOk n y b
    have hmemory := s.slicesTested_memoryOk n y b
    refine ⟨s.testSlotComplete n b, rfl, hspec.test, hspec.regs, hspec.scratch, hspec.stats, ?_, ?_, ?_, ?_, ?_, ?_, ?_, fun m hm => ?_,
      fun p hp => ?_⟩
    · by_cases hone : y.mode = 1
      · rw [if_pos hone]
        exact (hspec.nextSlice.resolve_right fun h => absurd hone (by simpa using h.2)).1
      · rw [if_neg hone]
        exact (hspec.nextSlice.resolve_left fun h => h.2 (by simpa using hone)).1
    · rw [← hlogic, ← hmemory]
      exact hspec.passed
    · rw [← hlogic, ← hmemory]
      exact hspec.failed
    · rw [← hlogic]
      exact hspec.logicCause
    · rw [← hlogic, ← hmemory]
      exact hspec.memoryCause
    · rw [← hlogic]
      exact fun hmode1 => hspec.coverLogic (by simpa using hmode1)
    · rw [← hmemory]
      exact fun hmode0 => hspec.coverMem (by simpa using hmode0)
    · exact (htile m).trans (if_neg hm)
    · have hparts := s.testDecided_parts n y b
      obtain ⟨hresult, hentry⟩ := State.testEnds_part (s := s.testDecided n y b) (t := n) (p := p) (by rw [State.tilePart_congr hparts, hp])
        (by rw [hparts]; exact hs.tab.parts) (by rw [State.testDecided_testResults]; exact hs.tab.testResults) y (s.tile n).nextSlice
        (s.slicesTested n y b)
      rw [heq, hresult]
      refine ⟨rfl, rfl, rfl, fun hrunning => hentry ?_⟩
      rwa [State.part, hparts]
  · have hsome := Option.isSome_iff_ne_none.mpr hbusy
    refine congrArg Host.Outcome.next ((if_pos (by rw [hmay, hsel, decide_eq_true hn]; rfl)).trans ?_)
    exact if_pos hsome
  · refine congrArg Host.Outcome.next ((if_pos (by rw [hmay, hsel, decide_eq_true hn]; rfl)).trans ?_)
    rw [State.startRetest, hsel, hidle, hp]
    rfl
  · have hstart : s.startRetest n = (s.modRas fun r => { r with testStatus := 0, retest := some n }).modTile n fun x =>
        { x.scrub with test := some { mode := 3, start := s.now } } := by
      rw [State.startRetest, hidle, hp]
      rfl
    have hexec : exec (.retest rq) s = .next (s.startRetest n) := by
      refine congrArg Host.Outcome.next ((if_pos (by rw [hmay, hsel, decide_eq_true hn]; rfl)).trans ?_)
      rw [hsel]
    have htile : (s.startRetest n).tile n = { (s.tile n).scrub with test := some { mode := 3, start := s.now } } := by
      rw [hstart]
      exact (State.tile_setTile _ hs.tab.tiles n n _).trans (if_pos rfl)
    refine ⟨s.startRetest n, hexec, ?_, ?_, ?_, ?_, ?_⟩
    · rw [hstart]
      rfl
    · rw [hstart]
      rfl
    · rw [htile]
      rfl
    · rw [htile]
      rfl
    · rw [hstart]
      rfl
  · have hok : (s.retestResult n b).ok = true ↔ b.misr = b.golden ∧ ((s.marched n).repairAll n b.fails).2.all (·.1) = true :=
      Bool.and_eq_true_iff.trans (and_congr_left' beq_iff_eq)
    have htile := State.retestComplete_tile hs hretest b
    obtain ⟨hretired, hstatus⟩ := State.retestComplete_ras hretest b
    obtain ⟨htest, hregs, hpass, hfail⟩ := (s.tile n).retested_spec (s.retestResult n b)
    have hown := (htile n).trans (if_pos rfl)
    rw [← hown] at htest hregs hpass hfail
    refine ⟨s.retestComplete b, rfl, hretired, htest, hregs, fun h => ?_, fun h => ?_, State.retestComplete_sram hs hretest b,
      fun m hm => (htile m).trans (if_neg hm)⟩
    · obtain ⟨hquar, hcause⟩ := hpass (hok.mpr h)
      exact ⟨hquar, hcause, hstatus.trans (if_pos (hok.mpr h))⟩
    · have hno : ¬ (s.retestResult n b).ok = true := fun hyes => h (hok.mp hyes)
      obtain ⟨hquar, hqueue⟩ := hfail (Bool.eq_false_of_not_eq_true hno)
      exact ⟨hquar, hqueue, hstatus.trans (if_neg hno)⟩
  · exact congrArg Host.Outcome.next (by rw [State.retestComplete, hidle])
  · refine congrArg Host.Outcome.next ?_
    unfold State.arbitrationStart
    dsimp only
    rw [hfree, hqueue]
    rfl
  · refine congrArg Host.Outcome.next ?_
    unfold State.arbitrationStart
    dsimp only
    split
    · next hfree hqueue => exact (h.elim (fun hne => hne hfree) fun hnil => nomatch hnil.symm.trans hqueue).elim
    · rfl
  · refine congrArg Host.Outcome.next ?_
    unfold State.arbitrationDecision
    dsimp only
    rw [hfree]
  · obtain ⟨hquar, harb, hA, hB, hregs⟩ := (s.tile n).checkerRetired_spec a.arrB
    have heq := State.arbitrationDecision_eq hrun xs x3
    have htile : ∀ m, (s.arbitrationDecision d xs x3).tile m = if m = n then (s.tile n).checkerRetired a.arrB else s.tile m := by
      intro m
      have hwrong : ∀ z, ((s.spareFreed d).checkerWrong a xs z).tile m = if m = n then (s.tile n).checkerRetired a.arrB else s.tile m := by
        intro z
        have hfreed : (s.spareFreed d).Canon :=
          (s.modRas_keeps (fun r => r.setSpare d { s.ras.spare d with running := none }) fun _ h => h).canon hs
        rw [State.checkerWrong_tile hfreed, ha]
        rfl
      rw [heq]
      obtain h | ⟨hres, hfailed, rfl⟩ := h
      · rw [if_pos h, hwrong]
      · split
        · exact hwrong 0
        · rw [hres, if_neg Bool.false_ne_true, hfailed, if_neg Bool.false_ne_true, if_pos rfl, State.spareFails_tile, hwrong]
    have hown := (htile n).trans (if_pos rfl)
    rw [← hown] at hquar harb hA hB hregs
    refine ⟨s.arbitrationDecision d xs x3, rfl, hquar, harb, hA, hB, hregs, fun hxs => ?_, fun m hm => (htile m).trans (if_neg hm)⟩
    obtain ⟨hres, hfailed, hx3⟩ := h.resolve_left hxs
    rw [heq, if_neg hxs, hres, if_neg Bool.false_ne_true, hfailed, if_neg Bool.false_ne_true, if_pos hx3]
    exact State.spareFails_aFailed _ d
  · refine congrArg Host.Outcome.next ((State.arbitrationDecision_eq hrun xs x3).trans ?_)
    rw [if_neg hxs, if_pos hres]
    rfl
  · refine congrArg Host.Outcome.next ((State.arbitrationDecision_eq hrun xs x3).trans ?_)
    rw [if_neg hxs, hres, if_neg Bool.false_ne_true, if_pos hfailed]
    rfl
  · refine congrArg Host.Outcome.next ((State.arbitrationDecision_eq hrun xs x3).trans ?_)
    rw [if_neg hxs, hres, if_neg Bool.false_ne_true, hfailed, if_neg Bool.false_ne_true, if_neg hx3]
    rfl
  · exact congrArg Host.Outcome.next (if_neg (by rw [hen]; exact Bool.false_ne_true))
  · exact congrArg Host.Outcome.next (ite_self s)
  · refine ⟨s.patrolRead (.scratch n a) (.corrected b), congrArg Host.Outcome.next (if_pos (by rw [hen]; rfl)), ?_, ?_⟩
    · show NatMap.get 0 (s.correctedWord (.scratch n a) b).ras.corr 1 = _
      rw [State.correctedWord_counted rfl, State.rowMapped_corr]
      exact get_counted s.ras.corr 1 (by decide)
    · show (s.correctedWord (.scratch n a) b).tiles = _
      rw [State.correctedWord_counted rfl]
      exact (congrArg State.tiles ((s.countCorr 1).rowMapped_sansSec _ b) :)
  · exact ⟨s.countUncorr 1, congrArg Host.Outcome.next (if_pos (by rw [hen]; rfl)), get_counted s.ras.uncorr 1 (by decide), rfl⟩
  · have hrest := ((s.lineError (.hbm l) 0).modMce fun m => { m with eccCorr := min (m.eccCorr + 1) 0xFFFFFFFF }).rowMapped_sansSec (.hbm l) b
    rw [← State.correctedWord_line rfl] at hrest
    exact ⟨(s.lineError (.hbm l) 0).correctedWord (.hbm l) b, congrArg Host.Outcome.next (if_pos (by rw [hen]; rfl)),
      (congrArg (fun t : State => t.mce.eccCorr) hrest :), (congrArg State.hbm hrest :)⟩
  · exact congrArg Host.Outcome.next (if_pos (by rw [hen]; rfl))

end Sys2Proof.Machine
/-! PROOFS. O48: resets and the start of the boot. O50: the LC commands. -/
namespace Sys2Proof.Machine
open Sys2Proof

/-! ### Erasure and the advance of the life cycle -/

theorem State.sluiceChanged_sec (s : State) (n : Nat) (k : KeySlot) : (s.sluiceChanged n k).sec = s.sec := by
  unfold State.sluiceChanged
  split <;> rfl

/-- A key that is erased takes its public key with it. -/
theorem State.eraseKey_sec (s : State) (n : Nat) :
    (s.eraseKey n).sec = ({ s.sec with pubKeys := NatMap.set [] s.sec.pubKeys n [] } : Security).setSlot n {} := by
  unfold State.eraseKey State.installKey
  dsimp only
  rw [if_neg (show ¬ (n = 0 ∧ false = true) from fun h => Bool.false_ne_true h.2), if_neg Bool.false_ne_true, ← s.sluiceChanged_sec n {}]
  rfl

theorem State.eraseKey_pubKeys (s : State) (n : Nat) : (s.eraseKey n).sec.pubKeys = NatMap.set [] s.sec.pubKeys n [] := by
  rw [State.eraseKey_sec]
  rfl

theorem State.endSessions_pubKeys (s : State) (p : Session → Bool) : (s.endSessions p).sec.pubKeys = s.sec.pubKeys :=
  foldl_same (fun t : State => t.sec.pubKeys) (by intro _ _; rfl) _ s

theorem State.eraseKeys_none (l : List Nat) (g : Nat → Nat) {s : State} (h : s.sec.pubKeys = []) :
    (l.foldl (fun s i => s.eraseKey (g i)) s).sec.pubKeys = [] := by
  induction l generalizing s with
  | nil => exact h
  | cons i l ih =>
    refine ih ?_
    rw [State.eraseKey_pubKeys, h]
    rfl

/-- Every identifier is freed, and the links' keys are gone. -/
def Mce.keysFreed (x : Mce) : Mce :=
  { (List.range 64).foldl (fun x k => x.setKeyId k { (x.keyId k).freed with gen := (x.keyId k).gen + 1 }) x with linkKeys := [] }

/-- The keys of the memories and links are destroyed, and what moves data stops. -/
def State.memKeysDestroyed (s : State) : State := { s.modMce Mce.keysFreed with copyJobs := [] }

/-- What the setups, charters and ports hold of keys is destroyed. -/
def State.setupKeysDestroyed (s : State) : State :=
  let s := s.modSec fun x => { x with setups := [], peerSetups := [], charters := [], attKey := none, attGen := false, bootCert := [] }
  { s with ports := NatMap.mapVals {} (fun _ x => { x with subs := [] }) s.ports }

/-- Every key slot but the board controller's is erased. -/
def State.upperKeysErased (s : State) : State := (List.range 254).foldl (fun s i => s.eraseKey (i + 2)) s

theorem State.destroyKeys_eq (s : State) :
    s.destroyKeys = (s.memKeysDestroyed.endSessions fun _ => true).upperKeysErased.setupKeysDestroyed := rfl

theorem State.setupKeysDestroyed_life (s : State) : s.setupKeysDestroyed.life = s.life := rfl
theorem State.setupKeysDestroyed_pubKeys (s : State) : s.setupKeysDestroyed.sec.pubKeys = s.sec.pubKeys := rfl
theorem State.memKeysDestroyed_life (s : State) : s.memKeysDestroyed.life = s.life := by
  cases s
  rfl
theorem State.memKeysDestroyed_sec (s : State) : s.memKeysDestroyed.sec = s.sec := by
  cases s
  rfl

theorem State.life_of_sansSec {s t : State} (h : t.sansSec = s.sansSec) : t.life = s.life := (congrArg State.life h :)

theorem State.upperKeysErased_life (s : State) : s.upperKeysErased.life = s.life :=
  State.life_of_sansSec (foldl_same State.sansSec (fun b _ => b.eraseKey_sansSec _) _ s)

theorem State.destroyKeys_life (s : State) : s.destroyKeys.life = s.life := by
  rw [State.destroyKeys_eq, State.setupKeysDestroyed_life, State.upperKeysErased_life, State.life_of_sansSec (State.endSessions_sansSec ..),
    State.memKeysDestroyed_life]

theorem State.destroyKeys_pubKeys {s : State} (h : s.sec.pubKeys = []) : s.destroyKeys.sec.pubKeys = [] := by
  rw [State.destroyKeys_eq, State.setupKeysDestroyed_pubKeys]
  refine State.eraseKeys_none _ (· + 2) ?_
  rw [State.endSessions_pubKeys, State.memKeysDestroyed_sec, h]

/-- The key slots and public keys as an erasure leaves them. -/
def State.slotsErased (s : State) : State :=
  ((List.range 256).foldl State.eraseKey s).modSec fun x => { x with pubKeys := [], windowShut := false }

/-- SCRAP takes the identity and the boot count. -/
def State.identityErased (s : State) : State :=
  (s.modSec fun x => { x with identity := none, wordA := 0, wordB := 0 }).modLife fun l => { l with bootCount := 0 }

theorem State.erase_eq (s : State) (n : Nat) :
    s.erase n = if n = 5 then s.slotsErased.destroyKeys.identityErased else s.slotsErased.destroyKeys := rfl

theorem State.slotsErased_life (s : State) : s.slotsErased.life = s.life :=
  (State.life_of_sansSec (State.modSec_sansSec _ _)).trans (State.life_of_sansSec (foldl_same State.sansSec (fun b _ => b.eraseKey_sansSec _) _ s))

theorem State.slotsErased_pubKeys (s : State) : s.slotsErased.sec.pubKeys = [] := rfl
theorem State.identityErased_pubKeys (s : State) : s.identityErased.sec.pubKeys = s.sec.pubKeys := rfl
theorem State.identityErased_identity (s : State) : s.identityErased.sec.identity = none := rfl
theorem State.identityErased_life (s : State) : s.identityErased.life = { s.life with bootCount := 0 } := rfl

theorem State.erase_pubKeys (s : State) (n : Nat) : (s.erase n).sec.pubKeys = [] := by
  have h := State.destroyKeys_pubKeys s.slotsErased_pubKeys
  rw [State.erase_eq]
  split
  · rw [State.identityErased_pubKeys, h]
  · exact h

theorem State.erase_life (s : State) (n : Nat) : (s.erase n).life = { s.life with bootCount := if n = 5 then 0 else s.life.bootCount } := by
  have h := s.slotsErased.destroyKeys_life.trans s.slotsErased_life
  rw [State.erase_eq]
  split
  · rw [State.identityErased_life, h]
  · exact h

theorem State.erase_identity {s : State} {n : Nat} (h : n = 5) : (s.erase n).sec.identity = none := by
  rw [State.erase_eq, if_pos h, State.identityErased_identity]

/-- R376: the fuses after an advance. -/
def Otp.advanced (o : Otp) (n : Nat) : Otp :=
  { o with counter := o.counter.burn (maskOf ((List.range n).map (· + 1))), done := o.done.burn (2 ^ n) }

theorem State.advance_life (s : State) (n : Nat) :
    (s.advance n).life = { s.life with bootCount := if n = 5 then 0 else s.life.bootCount, otp := s.life.otp.advanced n } := by
  show ({ (s.erase n).life with otp := (s.erase n).life.otp.advanced n } : Life) = _
  rw [State.erase_life]

theorem bit_lor (a b i : Nat) : bit (a ||| b) i = (bit a i || bit b i) := by
  rw [bit_eq_testBit, bit_eq_testBit, bit_eq_testBit, Nat.testBit_or]

theorem bit_two_pow_self (i : Nat) : bit (2 ^ i) i = true := by rw [bit_eq_testBit, Nat.testBit_two_pow_self]

/-- Both fuses of a bit that is burned. -/
theorem Fuses.bit_burn {f : Fuses} {m i : Nat} (h : bit m i = true) : bit (f.burn m).a i = true ∧ bit (f.burn m).b i = true := by
  simp only [Fuses.burn, bit_lor, h, Bool.or_true, and_self]

/-- R376: the counter holds every bit up to the target's. -/
theorem Otp.advanced_counter (o : Otp) {n k : Nat} (hk : 1 ≤ k) (hn : k ≤ n) :
    bit (o.advanced n).counter.a k = true ∧ bit (o.advanced n).counter.b k = true := by
  refine Fuses.bit_burn ((bit_maskOf _ k).trans (List.contains_iff_mem.mpr (List.mem_map.mpr ⟨k - 1, List.mem_range.mpr ?_, ?_⟩)))
  · omega
  · exact Nat.sub_add_cancel hk

/-! ### Resets -/

theorem mem_afterReset {x : Security} {e : Nat × KeySlot} : e ∈ x.afterReset.slots ↔ e ∈ x.slots ∧ e.2.life = 0 ∧ e.2.owner ≠ 2 := by
  rw [show x.afterReset.slots = x.slots.filter fun e => e.2.life == 0 && e.2.owner != 2 from rfl, List.mem_filter, Bool.and_eq_true, beq_iff_eq,
    bne_iff_ne]

theorem State.lcReset_takeReset {s : State} {rq : Req} (h : s.mayP rq 0xC0008 = true) :
    (s.lcReset rq).takeReset = (s.modLife fun l => { l.clearToken with resetPending := true }).deviceReset := by
  unfold State.lcReset State.takeReset
  rw [h]
  rfl

theorem State.bootStart_stays {s : State} (h : s.life.phase ≠ .held ∨ s.life.powerGood = false ∨ s.mce.tampered = true) : s.bootStart = s := by
  unfold State.bootStart
  refine if_neg fun ⟨hheld, hgood, htampered⟩ => ?_
  obtain h | h | h := h
  · exact h hheld
  · exact Bool.false_ne_true (h.symm.trans hgood)
  · rw [h] at htampered
    exact Bool.false_ne_true htampered

/-- The ROM starts. -/
def State.romStarts (s : State) : State :=
  let s := s.modSec Security.repairWords
  let stop := s.lcState = 5
  s.modLife fun l => { l with phase := if stop then .stopped else .rom, bootCount := (l.bootCount + 1) % 2 ^ 32 }

theorem State.bootStart_eq {s : State} (hheld : s.life.phase = .held) (hgood : s.life.powerGood = true) (htampered : s.mce.tampered = false) :
    s.bootStart = State.romStarts (match s.life.otp.pendingPair with
      | some n => (s.advance n).modLife fun l => { l with resumed := true }
      | none => s) := by
  unfold State.bootStart
  rw [if_pos ⟨hheld, hgood, by rw [htampered]; rfl⟩]
  rfl

theorem Security.repairWords_rest (x : Security) : { x.repairWords with wordA := x.wordA, wordB := x.wordB } = x := by
  unfold Security.repairWords
  split <;> rfl

theorem State.romStarts_life (s : State) : s.romStarts.life =
    { s.life with phase := if s.lcState = 5 then .stopped else .rom, bootCount := (s.life.bootCount + 1) % 2 ^ 32 } := rfl

theorem State.romStarts_sec (s : State) : s.romStarts.sec = s.sec.repairWords := rfl

/-- Settles O48. -/
theorem resetsKeepTheFusesAndBootOnce : Obligations.ResetsKeepTheFusesAndBootOnce := by
  unfold Obligations.ResetsKeepTheFusesAndBootOnce
  intro s
  refine ⟨⟨_, rfl, ?_, rfl, rfl⟩, ⟨_, rfl, ?_, rfl, rfl⟩, fun hlow => ⟨_, congrArg Host.Outcome.next (if_neg (by simp [hlow])), ?_, rfl⟩,
    fun hgood => congrArg Host.Outcome.next (if_pos hgood), fun rq hmay => ⟨_, congrArg Host.Outcome.next (State.lcReset_takeReset hmay), ?_⟩,
    fun hoff => congrArg Host.Outcome.next (State.wakeEvent_off hoff), fun h => congrArg Host.Outcome.next (State.bootStart_stays h),
    fun hheld hgood htampered hpair => ?_, fun n hheld hgood htampered hpair => ?_⟩
  iterate 4
    exact ⟨rfl, rfl, rfl, rfl, rfl, rfl, rfl, rfl, rfl, rfl, rfl, rfl, rfl, rfl, fun e => mem_afterReset, rfl, rfl, rfl, rfl, rfl, rfl, rfl, rfl, rfl, rfl, rfl,
      rfl, rfl, rfl, rfl, rfl, rfl, rfl⟩
  · have hboot := State.bootStart_eq hheld hgood htampered
    rw [hpair] at hboot
    exact ⟨s.romStarts, congrArg Host.Outcome.next hboot, rfl, rfl, rfl, rfl⟩
  · have hboot := State.bootStart_eq hheld hgood htampered
    rw [hpair] at hboot
    have hlife := s.advance_life n
    have hwords := (s.advance n).sec.repairWords_rest
    refine ⟨State.romStarts ((s.advance n).modLife fun l => { l with resumed := true }), congrArg Host.Outcome.next hboot, ?_⟩
    have hotp : ((s.advance n).life).otp = s.life.otp.advanced n := by rw [hlife]
    have hcount : ((s.advance n).life).bootCount = if n = 5 then 0 else s.life.bootCount := by rw [hlife]
    rw [State.romStarts_sec]
    refine ⟨?_, ?_, fun k hk hn => ?_, ?_, rfl, rfl, ?_, fun hscrap => ?_⟩
    · exact (congrArg (fun o : Otp => bit o.done.a n) hotp).trans (Fuses.bit_burn (bit_two_pow_self n)).1
    · exact (congrArg (fun o : Otp => bit o.done.b n) hotp).trans (Fuses.bit_burn (bit_two_pow_self n)).2
    · have h := s.life.otp.advanced_counter hk hn
      rw [← hotp] at h
      exact h
    · exact (congrArg Security.pubKeys hwords :).trans (s.erase_pubKeys n)
    · refine (congrArg (fun c => (c + 1) % 2 ^ 32) hcount).trans ?_
      split <;> rfl
    · exact (congrArg Security.identity hwords :).trans (State.erase_identity hscrap)

/-! ### The floor of SVN -/

/-- The burned bits of a number of 64 fuses. -/
def burned (v : Nat) : Nat := (List.range 64).countP (bit v)

theorem Otp.floor_eq (o : Otp) : o.floor = burned o.svn.value := (List.countP_eq_length_filter ..).symm

theorem Fuses.bit_value_burn (f : Fuses) (m i : Nat) : bit (f.burn m).value i = (bit f.value i || bit m i) := by
  simp only [Fuses.value, Fuses.burn, bit_lor]
  cases bit f.a i <;> cases bit f.b i <;> cases bit m i <;> rfl

theorem bit_two_pow (i j : Nat) : bit (2 ^ i) j = (j == i) := by
  rw [bit_eq_testBit, Nat.testBit_two_pow, beq_eq_decide]
  exact decide_eq_decide.mpr eq_comm

theorem countP_or_le {α : Type} (p q : α → Bool) (l : List α) : l.countP (fun x => p x || q x) ≤ l.countP p + l.countP q := by
  induction l with
  | nil => exact Nat.le_refl 0
  | cons x l ih =>
    simp only [List.countP_cons]
    cases p x <;> cases q x <;> simp <;> omega

/-- One more bit raises the count by one at most. -/
theorem burned_burn_le (f : Fuses) (i : Nat) : burned (f.burn (2 ^ i)).value ≤ burned f.value + 1 := by
  have hone : (List.range 64).countP (· == i) ≤ 1 := List.nodup_iff_count_le_one.mp List.nodup_range i
  have hor := countP_or_le (bit f.value) (· == i) (List.range 64)
  have heq : burned (f.burn (2 ^ i)).value = (List.range 64).countP fun j => bit f.value j || j == i :=
    List.countP_congr fun j _ => by rw [Fuses.bit_value_burn, bit_two_pow]
  rw [heq]
  exact hor.trans (Nat.add_le_add_left hone _)

theorem burned_mono {v w : Nat} (h : ∀ i, bit v i = true → bit w i = true) : burned v ≤ burned w := List.countP_mono_left fun i _ => h i

/-- One step towards a floor of `n`. -/
def Fuses.raiseStep (n : Nat) (f : Fuses) (i : Nat) : Fuses := if (bitsOf 64 f.value).length < n ∧ !bit f.value i then f.burn (2 ^ i) else f

theorem burned_eq_bitsOf (v : Nat) : (bitsOf 64 v).length = burned v := (List.countP_eq_length_filter ..).symm

theorem Fuses.raiseStep_burned (n : Nat) (f : Fuses) (i : Nat) : burned (f.raiseStep n i).value ≤ max (burned f.value) n := by
  unfold Fuses.raiseStep
  split
  · next h =>
    rw [burned_eq_bitsOf] at h
    have := burned_burn_le f i
    omega
  · exact Nat.le_max_left _ _

theorem Fuses.raiseStep_mono (n : Nat) (f : Fuses) (i j : Nat) (h : bit f.value j = true) : bit (f.raiseStep n i).value j = true := by
  unfold Fuses.raiseStep
  split
  · rw [Fuses.bit_value_burn, h, Bool.true_or]
  · exact h

/-- Below the floor a step leaves its bit burned. -/
theorem Fuses.raiseStep_own {n : Nat} {f : Fuses} (h : burned f.value < n) (i : Nat) : bit (f.raiseStep n i).value i = true := by
  unfold Fuses.raiseStep
  rw [burned_eq_bitsOf]
  split
  · rw [Fuses.bit_value_burn, bit_two_pow_self, Bool.or_true]
  · next hno => simpa [h] using hno

/-- The steps over a list of bits: the count keeps to the floor, and either reaches it or has every bit of the list. -/
theorem Fuses.raiseSteps (n : Nat) (l : List Nat) (f : Fuses) :
    let g := l.foldl (Fuses.raiseStep n) f
    burned g.value ≤ max (burned f.value) n ∧ (∀ i, bit f.value i = true → bit g.value i = true) ∧
      (n ≤ burned g.value ∨ ∀ i ∈ l, bit g.value i = true) := by
  induction l generalizing f with
  | nil => exact ⟨Nat.le_max_left _ _, fun _ h => h, .inr fun _ h => nomatch h⟩
  | cons i l ih =>
    obtain ⟨hle, hmono, hdone⟩ := ih (f.raiseStep n i)
    have hstep := f.raiseStep_burned n i
    refine ⟨hle.trans (by omega), fun j hj => hmono j (f.raiseStep_mono n i j hj), ?_⟩
    by_cases hlt : burned f.value < n
    · exact hdone.imp id fun hall => List.forall_mem_cons.mpr ⟨hmono i (Fuses.raiseStep_own hlt i), hall⟩
    · refine .inl ((Nat.not_lt.mp hlt).trans (burned_mono fun j hj => hmono j (f.raiseStep_mono n i j hj)))

theorem Otp.raiseTo_svn (o : Otp) (n : Nat) : (o.raiseTo n).svn = (List.range 64).foldl (Fuses.raiseStep n) o.svn := by
  unfold Otp.raiseTo
  exact List.foldl_ext _ _ _ fun _ _ _ => rfl

/-- R368: RAISE_SVN raises the floor to what it names. -/
theorem Otp.floor_raiseTo (o : Otp) {n : Nat} (hn : n ≤ 64) : (o.raiseTo n).floor = max o.floor n := by
  obtain ⟨hle, hmono, hdone⟩ := Fuses.raiseSteps n (List.range 64) o.svn
  have hge : n ≤ burned ((List.range 64).foldl (Fuses.raiseStep n) o.svn).value := hdone.elim id fun hall => by
    have hfull : burned ((List.range 64).foldl (Fuses.raiseStep n) o.svn).value = 64 := List.countP_eq_length.mpr hall
    omega
  have hkept := burned_mono hmono
  rw [Otp.floor_eq, Otp.floor_eq, Otp.raiseTo_svn]
  omega

theorem Fuses.value_burn (f : Fuses) (m : Nat) : (f.burn m).value = f.value ||| m := by
  refine Nat.eq_of_testBit_eq fun i => ?_
  simp only [Fuses.value, Fuses.burn, Nat.testBit_or]
  cases f.a.testBit i <;> cases f.b.testBit i <;> cases m.testBit i <;> rfl

/-! ### LC commands -/

/-- An LC command of a requester that reaches the register. -/
theorem State.lcCmd_reaches {s : State} {rq : Req} (h : s.mayP rq 0xC0008 = true) (f : State → State) :
    s.lcCmd rq f = (if s.life.busy then s.lcStatus 1 else f s).modLife Life.clearToken := if_pos h

theorem State.lcCmd_busy {s : State} {rq : Req} (h : s.mayP rq 0xC0008 = true) (hbusy : s.life.busy = true) (f : State → State) :
    s.lcCmd rq f = (s.lcStatus 1).modLife Life.clearToken := by rw [State.lcCmd_reaches h, if_pos hbusy]

theorem State.lcCmd_runs {s : State} {rq : Req} (h : s.mayP rq 0xC0008 = true) (hbusy : s.life.busy = false) (f : State → State) :
    s.lcCmd rq f = (f s).modLife Life.clearToken := by rw [State.lcCmd_reaches h, hbusy, if_neg Bool.false_ne_true]

theorem Life.clearToken_token (l : Life) : l.clearToken.token = List.replicate 32 0 := by
  show leBytes 8 (0 : Word64).toNat ++ leBytes 8 (0 : Word64).toNat ++ leBytes 8 (0 : Word64).toNat ++ leBytes 8 (0 : Word64).toNat = _
  decide

/-- The state of a right TRANSITION before its reset. -/
def State.advances (s : State) (n : Nat) : State :=
  ((s.modLife fun l => { l with otp := { l.otp with intent := l.otp.intent.burn (2 ^ n) } }).advance n).modLife fun l => { l with resetPending := true }

/-- A wrong token is counted. -/
def State.wrongToken (s : State) : State :=
  ((s.lcStatus 0x13).modLife fun l => { l with tokenFails := l.tokenFails + 1 }).raise (secFault 0x0902 3)

theorem State.transition_eq {s : State} {d : List Byte} (hfails : s.life.tokenFails < 8) (hd : s.targetDigest s.lcState s.life.arg = some d)
    (hready : s.missionReady s.life.arg = true) (hfree : s.parts.any (fun e => e.2.state != .free) = false) :
    s.transition = if shake32 s.life.token ≠ d then s.wrongToken else s.advances s.life.arg := by
  unfold State.transition
  dsimp only
  rw [if_neg (Nat.not_le.mpr hfails), hd]
  dsimp only
  rw [hready, hfree, if_neg (show ¬ (!true || false) = true from Bool.false_ne_true)]
  rfl

theorem State.transition_barred {s : State} {d : List Byte} (hfails : s.life.tokenFails < 8) (hd : s.targetDigest s.lcState s.life.arg = some d)
    (hbar : s.missionReady s.life.arg = false ∨ ¬ s.parts.any (fun e => e.2.state != .free) = false) : s.transition = s.lcStatus 2 := by
  unfold State.transition
  dsimp only
  rw [if_neg (Nat.not_le.mpr hfails), hd]
  refine if_pos ?_
  obtain h | h := hbar
  · rw [h]
    rfl
  · rw [Bool.eq_true_of_not_eq_false h, Bool.or_true]

theorem State.transition_exhausted {s : State} (hfails : 8 ≤ s.life.tokenFails) : s.transition = s.lcStatus 0x14 := if_pos hfails

theorem State.transition_untargeted {s : State} (hfails : s.life.tokenFails < 8) (hd : s.targetDigest s.lcState s.life.arg = none) :
    s.transition = s.lcStatus 2 := by
  unfold State.transition
  dsimp only
  rw [if_neg (Nat.not_le.mpr hfails), hd]

theorem State.wrongToken_life (s : State) : s.wrongToken.life = { s.life with cmdStatus := 0x13, tokenFails := s.life.tokenFails + 1 } :=
  State.raise_life ..

/-- R376: what a transition leaves after its reset. -/
theorem State.advances_life (s : State) (n : Nat) : (s.advances n).life =
    { s.life with
      resetPending := true, bootCount := if n = 5 then 0 else s.life.bootCount
      otp := ({ s.life.otp with intent := s.life.otp.intent.burn (2 ^ n) } : Otp).advanced n } := by
  show ({ ((s.modLife _).advance n).life with resetPending := true } : Life) = _
  rw [State.advance_life]
  rfl

theorem State.advances_pubKeys (s : State) (n : Nat) : (s.advances n).sec.pubKeys = [] := State.erase_pubKeys _ n
theorem State.advances_identity {s : State} {n : Nat} (h : n = 5) : (s.advances n).sec.identity = none := State.erase_identity h

/-- A reset that a command asked for. -/
theorem State.takeReset_cleared {s : State} (h : s.life.resetPending = true) : (s.modLife Life.clearToken).takeReset = (s.modLife Life.clearToken).deviceReset :=
  if_pos h

/-! ### The identity key -/

/-- What an object's bytes change. -/
theorem State.writeObj_rest (s : State) (x : Nat) (o : Obj) (off : Nat) (bs : List Byte) :
    { (s.writeObj x o off bs).2 with granary := s.granary, hbm := s.hbm, pond := s.pond, mce := s.mce } = s := by
  unfold State.writeObj
  cases o.tier <;> rfl

/-- The identity key is drawn. -/
def State.identityDrawn (s : State) : State :=
  (s.draw.modSec fun x => { x with identity := some s.draws, wordA := idWord 0, wordB := idWord 0, idDisabled := false }).modLife
    fun l => { l with busy := false, genObj := none, cmdStatus := 0 }

/-- Two states with the same keys, draws and end of a GEN_IDENTITY. -/
structure SameIdentity (s t : State) : Prop where
  sec : t.sec.identity = s.sec.identity ∧ t.sec.wordA = s.sec.wordA ∧ t.sec.wordB = s.sec.wordB
  busy : t.life.busy = s.life.busy
  genObj : t.life.genObj = s.life.genObj
  draws : t.draws = s.draws

/-- Its public key is written into the object. -/
def State.identityStored (s : State) (h : Nat) : State :=
  match s.checkObj 0 h 0 68 .hbmWrite with
  | .error _ => s.lcStatus 4
  | .ok o =>
    let r := s.writeObj 0 o 0 (padTo 68 s.sec.identityPk)
    match r.1 with
    | none => r.2
    | some f => (r.2.lcStatus 4).raise { code := f.1, loc := locSec 0xFF, severity := 0, ctx := 0, addr := some f.2 }

theorem State.identityGenerated_eq {s : State} {h : Nat} (hobj : s.life.genObj = some h) : s.identityGenerated = s.identityDrawn.identityStored h := by
  unfold State.identityGenerated
  rw [hobj]
  rfl

/-- A fault changes the sessions alone of the security die. -/
theorem State.raise_sec {α : Type} (s : State) (f : FaultRec) (g : Security → α) (hg : ∀ x n c, g (x.setSession n c) = g x) :
    g (s.raise f).sec = g s.sec := by
  unfold State.raise
  split
  · rfl
  · refine (foldl_same (fun t : State => g t.sec) (fun b a => ?_) _ _).trans rfl
    unfold State.sendOn
    dsimp only
    split
    · rfl
    · rw [State.sendPacket_only]
      exact hg _ _ _

theorem State.raise_identity (s : State) (f : FaultRec) : SameIdentity s (s.raise f) :=
  ⟨⟨s.raise_sec f _ fun _ _ _ => rfl, s.raise_sec f _ fun _ _ _ => rfl, s.raise_sec f _ fun _ _ _ => rfl⟩, by rw [State.raise_life],
    by rw [State.raise_life], State.raise_draws _ _⟩

theorem State.identityStored_same (s : State) (h : Nat) : SameIdentity s (s.identityStored h) := by
  unfold State.identityStored
  split
  · exact ⟨⟨rfl, rfl, rfl⟩, rfl, rfl, rfl⟩
  · next o _ =>
    have hrest := s.writeObj_rest 0 o 0 (padTo 68 s.sec.identityPk)
    have hsec : (s.writeObj 0 o 0 (padTo 68 s.sec.identityPk)).2.sec = s.sec := (congrArg State.sec hrest :)
    have hlife : (s.writeObj 0 o 0 (padTo 68 s.sec.identityPk)).2.life = s.life := (congrArg State.life hrest :)
    have hdraws : (s.writeObj 0 o 0 (padTo 68 s.sec.identityPk)).2.draws = s.draws := (congrArg State.draws hrest :)
    dsimp only
    split
    · exact ⟨by rw [hsec]; exact ⟨rfl, rfl, rfl⟩, by rw [hlife], by rw [hlife], hdraws⟩
    · next f _ =>
      obtain ⟨⟨hid, hA, hB⟩, hbusy, hgen, hdrawn⟩ := ((s.writeObj 0 o 0 (padTo 68 s.sec.identityPk)).2.lcStatus 4).raise_identity
        { code := f.1, loc := locSec 0xFF, severity := 0, ctx := 0, addr := some f.2 }
      exact ⟨⟨hid.trans (congrArg Security.identity hsec), hA.trans (congrArg Security.wordA hsec), hB.trans (congrArg Security.wordB hsec)⟩,
        hbusy.trans (congrArg Life.busy hlife :), hgen.trans (congrArg Life.genObj hlife :), hdrawn.trans hdraws⟩

/-- The state of an LC command that answers a status alone. -/
theorem State.lcCmd_status {s : State} {rq : Req} (h : s.mayP rq 0xC0008 = true) (hbusy : s.life.busy = false) {f : State → State} {v : Nat}
    (hf : f s = s.lcStatus v) : s.lcCmd rq f = { s with life := { s.life.clearToken with cmdStatus := v } } := by
  rw [State.lcCmd_runs h hbusy, hf]
  rfl

/-- What a reset after a command keeps of the fuses, the boot count and the keys. -/
def State.resetDone (s : State) : State := (s.modLife Life.clearToken).deviceReset

theorem State.resetDone_otp (s : State) : s.resetDone.life.otp = s.life.otp := by cases s; rfl
theorem State.resetDone_bootCount (s : State) : s.resetDone.life.bootCount = s.life.bootCount := by cases s; rfl
theorem State.resetDone_pubKeys (s : State) : s.resetDone.sec.pubKeys = s.sec.pubKeys := by cases s; rfl
theorem State.resetDone_identity (s : State) : s.resetDone.sec.identity = s.sec.identity := by cases s; rfl

theorem State.advances_otp (s : State) (n : Nat) :
    (s.advances n).life.otp = ({ s.life.otp with intent := s.life.otp.intent.burn (2 ^ n) } : Otp).advanced n := by rw [State.advances_life]

theorem State.advances_bootCount (s : State) (n : Nat) : (s.advances n).life.bootCount = if n = 5 then 0 else s.life.bootCount := by
  rw [State.advances_life]

theorem State.advances_resetPending (s : State) (n : Nat) : (s.advances n).life.resetPending = true := by rw [State.advances_life]

/-- Settles O50. -/
theorem lifeCycleCommandsBurnFuses : Obligations.LifeCycleCommandsBurnFuses := by
  unfold Obligations.LifeCycleCommandsBurnFuses
  intro s rq hmay
  have hstatus : ∀ {f : State → State} {v : Nat}, s.life.busy = false → f s = s.lcStatus v →
      (Host.Outcome.next (s.lcCmd rq f) : Host.Outcome State Fault Refusal) =
        .next { s with life := { s.life.clearToken with cmdStatus := v } } := fun hbusy hf =>
    congrArg Host.Outcome.next (State.lcCmd_status hmay hbusy hf)
  have hreset : ∀ {t : State}, s.life.busy = false → s.transition = t →
      exec (.transition rq) s = .next (t.modLife Life.clearToken).takeReset := fun hbusy hf =>
    congrArg Host.Outcome.next (congrArg State.takeReset ((State.lcCmd_runs hmay hbusy _).trans (by rw [hf])))
  refine ⟨fun hbusy => ?_, fun hbusy => ⟨fun hsvn hmax => ⟨?_, Otp.floor_raiseTo _ hmax⟩, fun h => ?_, fun hn hkey hlast => ?_, fun hn h => ?_,
      fun hn => ?_, fun h => ?_, fun hstate hid => ⟨fun o ho => ?_, fun e he => ?_⟩, ⟨fun htarget hnone => ?_, fun h => ?_⟩,
      fun hpending => ⟨fun hfails => ?_, fun hfails hd => ?_, fun d hfails hd => ⟨fun hbar => ?_, fun hready hfree => ⟨fun hwrong => ?_, fun hright => ?_⟩⟩⟩⟩,
    fun hnone => ?_, fun h hobj => ?_⟩
  · have h1 : ∀ f, (Host.Outcome.next (s.lcCmd rq f) : Host.Outcome State Fault Refusal) = .next ((s.lcStatus 1).modLife Life.clearToken) := fun f =>
      congrArg Host.Outcome.next (State.lcCmd_busy hmay hbusy f)
    exact ⟨h1 _, h1 _, h1 _, h1 _, fun hpending =>
      congrArg Host.Outcome.next ((congrArg State.takeReset (State.lcCmd_busy hmay hbusy _)).trans (State.takeReset_of_not_pending hpending))⟩
  · refine congrArg Host.Outcome.next ((State.lcCmd_runs hmay hbusy _).trans ?_)
    rw [State.raiseSvn, if_neg (by omega)]
    rfl
  · exact hstatus hbusy (if_pos h)
  · refine congrArg Host.Outcome.next ((State.lcCmd_runs hmay hbusy _).trans ?_)
    unfold State.revokeKey
    dsimp only
    rw [if_neg (Nat.not_lt.mpr hn), if_neg (by rw [Fuses.value_burn]; tauto)]
    rfl
  · refine hstatus hbusy ?_
    unfold State.revokeKey
    dsimp only
    rw [if_neg (Nat.not_lt.mpr hn), if_pos (by rw [Fuses.value_burn]; exact h)]
  · exact hstatus hbusy (if_pos hn)
  · exact hstatus hbusy (if_pos h)
  · refine congrArg Host.Outcome.next ((State.lcCmd_runs hmay hbusy _).trans ?_)
    unfold State.genIdentity
    rw [if_neg (by simp [hstate, hid]), ho]
    rfl
  · refine hstatus hbusy ?_
    unfold State.genIdentity
    rw [if_neg (by simp [hstate, hid]), he]
  · refine congrArg Host.Outcome.next ((State.lcCmd_runs hmay hbusy _).trans ?_)
    unfold State.fuseDigest
    dsimp only
    rw [if_pos ⟨htarget, by rw [hnone]; rfl⟩]
    rfl
  · refine hstatus hbusy ?_
    unfold State.fuseDigest
    dsimp only
    refine if_neg fun ⟨htarget, hnone⟩ => ?_
    exact h.elim (fun hno => hno htarget) fun hsome => hsome (Option.isNone_iff_eq_none.mp hnone)
  · exact (hreset hbusy (State.transition_exhausted hfails)).trans (congrArg Host.Outcome.next (State.takeReset_of_not_pending hpending))
  · exact (hreset hbusy (State.transition_untargeted hfails hd)).trans (congrArg Host.Outcome.next (State.takeReset_of_not_pending hpending))
  · exact (hreset hbusy (State.transition_barred hfails hd hbar)).trans (congrArg Host.Outcome.next (State.takeReset_of_not_pending hpending))
  · have hlife := s.wrongToken_life
    have hstays : (s.wrongToken.modLife Life.clearToken).takeReset = s.wrongToken.modLife Life.clearToken :=
      State.takeReset_of_not_pending ((congrArg Life.resetPending hlife).trans hpending)
    refine ⟨_, (hreset hbusy ((State.transition_eq hfails hd hready hfree).trans (if_pos hwrong))).trans (congrArg Host.Outcome.next hstays), ?_, ?_, ?_,
      Life.clearToken_token _⟩
    · exact (congrArg Life.cmdStatus hlife :)
    · exact (congrArg Life.tokenFails hlife :)
    · exact (congrArg Life.otp hlife :)
  · have htransition := (State.transition_eq hfails hd hready hfree).trans (if_neg (not_not_intro hright))
    have hdone : exec (.transition rq) s = .next (s.advances s.life.arg).resetDone :=
      (hreset hbusy htransition).trans (congrArg Host.Outcome.next (State.takeReset_cleared (s.advances_resetPending s.life.arg)))
    refine ⟨_, hdone, ?_⟩
    rw [State.resetDone_otp, State.resetDone_bootCount, State.resetDone_pubKeys, State.resetDone_identity, State.advances_otp]
    exact ⟨rfl, rfl, fun k hk hn => Otp.advanced_counter _ hk hn, rfl, s.advances_pubKeys _, s.advances_bootCount _, State.advances_identity,
      rfl, rfl, rfl⟩
  · refine congrArg Host.Outcome.next ?_
    rw [State.identityGenerated, hnone]
  · obtain ⟨⟨hid, hA, hB⟩, hbusy, hgen, hdrawn⟩ := s.identityDrawn.identityStored_same h
    rw [← State.identityGenerated_eq hobj] at hid hA hB hbusy hgen hdrawn
    exact ⟨s.identityGenerated, rfl, hid, hA, hB, hbusy, hgen, hdrawn⟩

end Sys2Proof.Machine
/-! PROOFS. O49: firmware and its recovery. -/
namespace Sys2Proof.Machine
open Sys2Proof

/-! ### The release of an image -/

/-- The faults that the ROM found are raised. -/
def State.romFaults (s : State) (net : Prop) [Decidable net] : State :=
  let s := if net then s.raise (secFault 0x0901 3) else s
  let s := if s.life.resumed then s.raise (secFault 0x0903 3) else s
  if s.life.attempts ≠ 0 then s.raise (secFault 0x0904 3) else s

/-- Two states with the same life cycle, mill time and end of an attestation key. -/
structure SameBoot (s t : State) : Prop where
  life : t.life = s.life
  mill : t.mill = s.mill
  attGen : t.sec.attGen = s.sec.attGen

theorem SameBoot.refl (s : State) : SameBoot s s := ⟨rfl, rfl, rfl⟩
theorem SameBoot.trans {s t u : State} (h : SameBoot s t) (k : SameBoot t u) : SameBoot s u :=
  ⟨k.life.trans h.life, k.mill.trans h.mill, k.attGen.trans h.attGen⟩

theorem SameBoot.raiseIf (s : State) (p : Prop) [Decidable p] (f : FaultRec) : SameBoot s (if p then s.raise f else s) := by
  split
  · exact ⟨s.raise_life f, s.raise_mill f, s.raise_sec f _ fun _ _ _ => rfl⟩
  · exact .refl s

theorem State.romFaults_same (s : State) (net : Prop) [Decidable net] : SameBoot s (s.romFaults net) :=
  ((SameBoot.raiseIf s net _).trans (.raiseIf _ _ _)).trans (.raiseIf _ _ _)

/-- The device as its targets leave reset. -/
def State.targetsReleased (s : State) (net : Prop) [Decidable net] (l : Lenhar) (k : Nat) : State :=
  let s := s.modLife fun v =>
    { (v.loadTargets l.body).releaseTargets with
      phase := .running, source := if net then 1 else 0, fwDigest := l.digest, vendorKey := k, fwSvn := field l.body 6 1
      recvBytes := [], total := 0, server := none, sinceReq := 0, lastReq := none }
  let s := s.modMill fun m => { m with now := 0 }
  (s.genAttKey.linksStart.assignKey 0 0).assignKey 0 1

theorem State.releaseFirmware_eq (s : State) (src : ImageSrc) (l : Lenhar) (k : Nat) :
    s.releaseFirmware src l k = (s.targetsReleased (src = .network) l k).romFaults (src = .network) := rfl

/-! ### Images -/

theorem State.imageOf_tampered {s : State} (h : s.mce.tampered = true) (src : ImageSrc) : s.imageOf src = none := if_pos h

theorem State.firmwareAccepted_none {s : State} {src : ImageSrc} (h : s.imageOf src = none) : s.firmwareAccepted src = s := by
  rw [State.firmwareAccepted, h]

theorem State.firmwareRejected_none {s : State} {src : ImageSrc} (h : s.imageOf src = none) : s.firmwareRejected src = s := by
  rw [State.firmwareRejected, h]

theorem State.imageOf_flash {s : State} (htampered : s.mce.tampered = false) (hrom : s.life.phase = .rom) (image : Option (List Byte)) :
    s.imageOf (.flash image) = some image := by
  rw [State.imageOf, htampered, if_neg Bool.false_ne_true, if_pos hrom]

/-- A DATA packet that is accepted goes on where the last ended. -/
theorem Life.accepts_offset {l : Life} {server : Nat} {b : List Byte} (h : l.accepts server b = true) : fieldBe b 8 8 = l.recvBytes.length := by
  unfold Life.accepts at h
  simp only [Bool.and_eq_true, beq_iff_eq, Life.received] at h
  exact h.1.1.2

/-- Settles O49. -/
theorem firmwareIsCheckedAndRecovered : Obligations.FirmwareIsCheckedAndRecovered := by
  unfold Obligations.FirmwareIsCheckedAndRecovered
  intro s
  refine ⟨fun htampered => ⟨congrArg Host.Outcome.next (if_neg (by simp [htampered])), fun src => ⟨?_, ?_⟩,
      fun g => congrArg Host.Outcome.next (if_neg (by simp [htampered])), congrArg Host.Outcome.next (if_neg (by simp [State.reqDue, htampered])),
      fun v b => congrArg Host.Outcome.next (if_neg (by simp [htampered])), congrArg Host.Outcome.next (if_neg (by simp [htampered]))⟩,
    fun htampered => ⟨fun src hnone => ⟨?_, ?_⟩, fun src image himage => ?_, fun image v hrom hcheck hv => ?_, fun image v himage hcheck hv => ?_,
      fun hdue => congrArg Host.Outcome.next (if_pos hdue), fun hdue => congrArg Host.Outcome.next (if_neg (by simp [hdue])),
      fun server b hphase haccepts => ⟨Life.accepts_offset haccepts, congrArg Host.Outcome.next (if_pos ⟨hphase, by simp [htampered], haccepts⟩)⟩,
      fun server b h => congrArg Host.Outcome.next (if_neg fun ⟨hphase, _, haccepts⟩ => ?_),
      ⟨fun ⟨hphase, hsome, hpart, hlate⟩ => congrArg Host.Outcome.next (if_pos ⟨hphase, by simp [htampered], hsome, hpart, hlate⟩),
        fun h => congrArg Host.Outcome.next (if_neg fun ⟨hphase, _, hsome, hpart, hlate⟩ => h ⟨hphase, hsome, hpart, hlate⟩)⟩,
      fun gib hphase => congrArg Host.Outcome.next (if_pos ⟨hphase, by simp [htampered]⟩),
      fun gib hphase => congrArg Host.Outcome.next (if_neg fun h => hphase h.1),
      ⟨fun ⟨hphase, hhbm, hpond, hkey⟩ => congrArg Host.Outcome.next (if_pos ⟨hphase, by simp [htampered], hhbm, hpond, hkey⟩),
        fun h => congrArg Host.Outcome.next (if_neg fun ⟨hphase, _, hhbm, hpond, hkey⟩ => h ⟨hphase, hhbm, hpond, hkey⟩)⟩⟩⟩
  · exact congrArg Host.Outcome.next (State.firmwareAccepted_none (State.imageOf_tampered htampered src))
  · exact congrArg Host.Outcome.next (State.firmwareRejected_none (State.imageOf_tampered htampered src))
  · exact congrArg Host.Outcome.next (State.firmwareAccepted_none hnone)
  · exact congrArg Host.Outcome.next (State.firmwareRejected_none hnone)
  · split
    · next l k hcheck =>
      have haccepted : s.firmwareAccepted src = s.releaseFirmware src l k := by
        rw [State.firmwareAccepted, himage]
        dsimp only
        rw [hcheck]
        rfl
      have hrejected : s.firmwareRejected src = s := by
        rw [State.firmwareRejected, himage]
        dsimp only
        rw [hcheck]
        exact if_pos rfl
      obtain ⟨hlife, hmill, hgen⟩ := (s.targetsReleased (src = .network) l k).romFaults_same (src = .network)
      rw [State.releaseFirmware_eq] at haccepted
      refine ⟨_, congrArg Host.Outcome.next haccepted, congrArg Host.Outcome.next hrejected, ?_⟩
      rw [hlife, hmill, hgen]
      exact ⟨rfl, rfl, rfl, rfl, rfl, rfl, rfl, rfl, rfl, rfl⟩
    · next hno =>
      refine congrArg Host.Outcome.next ?_
      rw [State.firmwareAccepted, himage]
      dsimp only
      split
      · next l k hcheck => exact absurd hcheck (hno l k)
      · rfl
  · refine congrArg Host.Outcome.next ?_
    rw [State.firmwareRejected, State.imageOf_flash htampered hrom]
    dsimp only
    rw [hcheck, if_neg hv]
    rfl
  · refine congrArg Host.Outcome.next ?_
    rw [State.firmwareRejected, himage]
    dsimp only
    rw [hcheck, if_neg hv]
    rfl
  · exact h.elim (fun hno => hno hphase) fun hno => Bool.false_ne_true (hno.symm.trans haccepts)

end Sys2Proof.Machine
/-! PROOFS. O45: the board controller's authentication and the key slots. -/
namespace Sys2Proof.Machine
open Sys2Proof

/-! ### Slots after a write of one -/

theorem Security.slot_setSlot {v : KeySlot} (hv : v.valid = true) (x : Security) (n j : Nat) : (x.setSlot n v).slot j = if j = n then v else x.slot j := by
  have hne : v ≠ {} := fun h => Bool.false_ne_true ((congrArg KeySlot.valid h).symm.trans hv)
  split
  · next h =>
    subst h
    exact NatMap.get_set_same x.slots j hne
  · next h => exact NatMap.get_set_ne x.slots hne h

/-- A key in place: the slot with its check; the public key of the slot goes, and slot 0 shuts the installation window. -/
def Security.installed (x : Security) (n : Nat) (k : KeySlot) : Security :=
  ({ x with pubKeys := NatMap.set [] x.pubKeys n [], windowShut := x.windowShut || n == 0 } : Security).setSlot n (k.withCheck n)

theorem State.installKey_sec {s : State} {k : KeySlot} (hk : k.valid = true) (n : Nat) : (s.installKey n k).sec = s.sec.installed n k := by
  unfold State.installKey
  dsimp only
  rw [if_pos hk, ← s.sluiceChanged_sec n k]
  by_cases hn : n = 0
  · rw [if_pos ⟨hn, hk⟩, Security.installed, beq_iff_eq.mpr hn, Bool.or_true]
    rfl
  · rw [if_neg fun h => hn h.1, Security.installed, beq_false_of_ne hn, Bool.or_false]
    rfl

/-- A key in place changes the security die, and a Sluice key the count of its SEQ. -/
theorem State.installKey_rest (s : State) (n : Nat) (k : KeySlot) : { s.installKey n k with sec := s.sec, eth := s.eth } = s := by
  have hsluice : { s.sluiceChanged n k with sec := s.sec, eth := s.eth } = s := by
    unfold State.sluiceChanged
    split <;> rfl
  unfold State.installKey
  generalize s.sluiceChanged n k = u at hsluice ⊢
  cases u
  dsimp only
  split_ifs <;> exact hsluice

/-! ### Verifying a slot -/

/-- A slot whose check fails. -/
def KeySlot.fails (k : KeySlot) (n : Nat) (disturbed : Bool) : Bool := k.valid && !k.checkFail && (disturbed || k.check != k.checkOf n)

/-- What verifying a slot leaves of it. -/
def KeySlot.verified (k : KeySlot) (n : Nat) (disturbed : Bool) : KeySlot := if k.fails n disturbed then { k with checkFail := true } else k

theorem KeySlot.verified_rest (k : KeySlot) (n : Nat) (disturbed : Bool) : { k.verified n disturbed with checkFail := k.checkFail } = k := by
  unfold KeySlot.verified
  split <;> rfl

theorem KeySlot.verified_verified (k : KeySlot) (n : Nat) (disturbed : Bool) : (k.verified n disturbed).verified n disturbed = k.verified n disturbed := by
  by_cases h : k.fails n disturbed = true
  · have hfixed : KeySlot.fails { k with checkFail := true } n disturbed = false := by
      rw [KeySlot.fails, Bool.not_true, Bool.and_false, Bool.false_and]
    rw [KeySlot.verified, KeySlot.verified, if_pos h, hfixed]
    exact if_neg Bool.false_ne_true
  · rw [KeySlot.verified, KeySlot.verified, if_neg h, if_neg h]

theorem State.verifySlot_eq (s : State) (n : Nat) (disturbed : Bool) :
    s.verifySlot n disturbed = if (s.keySlot n).fails n disturbed then
      (s.modSec fun x => x.setSlot n { s.keySlot n with checkFail := true }).raise (secFault 0x0803 3) else s := rfl

theorem State.raise_keySlot (s : State) (f : FaultRec) (n : Nat) : (s.raise f).keySlot n = s.keySlot n :=
  congrArg (fun m => NatMap.get ({} : KeySlot) m n) (s.raise_sec f Security.slots fun _ _ _ => rfl)

theorem State.verifySlot_keySlot (s : State) (n j : Nat) (disturbed : Bool) :
    (s.verifySlot n disturbed).keySlot j = if j = n then (s.keySlot n).verified n disturbed else s.keySlot j := by
  rw [State.verifySlot_eq]
  by_cases h : (s.keySlot n).fails n disturbed = true
  · have hvalid : (s.keySlot n).valid = true := (Bool.and_eq_true_iff.mp (Bool.and_eq_true_iff.mp h).1).1
    rw [if_pos h, State.raise_keySlot, KeySlot.verified, if_pos h]
    exact Security.slot_setSlot (v := { s.keySlot n with checkFail := true }) hvalid s.sec n j
  · rw [if_neg h, KeySlot.verified, if_neg h]
    split
    · next hj => rw [hj]
    · rfl

theorem State.verifySlot_stays {s : State} {n : Nat} {disturbed : Bool} (h : (s.keySlot n).fails n disturbed = false) :
    s.verifySlot n disturbed = s := by
  rw [State.verifySlot_eq, h]
  exact if_neg Bool.false_ne_true

/-- A fault that is not fatal leaves the board controller's registers. -/
theorem State.raise_board_of_severity (s : State) {f : FaultRec} (h : f.severity ≠ 1) : (s.raise f).board = s.board := by
  unfold State.raise
  split
  · rfl
  · refine (foldl_same State.board (fun b a => b.sendOn_board ..) _ _).trans ?_
    rfl

theorem State.verifySlot_board (s : State) (n : Nat) (disturbed : Bool) : (s.verifySlot n disturbed).board = s.board := by
  rw [State.verifySlot_eq]
  split
  · exact State.raise_board_of_severity _ (by decide)
  · rfl

/-- Verifying a slot changes the security die, and a failing one raises a fault. -/
theorem State.verifySlot_rest (s : State) (n : Nat) (disturbed : Bool) :
    { s.verifySlot n disturbed with sec := s.sec, ras := s.ras, out := s.out, ports := s.ports } = s := by
  have hboard := s.verifySlot_board n disturbed
  rw [State.verifySlot_eq] at hboard ⊢
  split at hboard
  · next h =>
    rw [if_pos h, State.raise_only, hboard]
    rfl
  · next h => rw [if_neg h]

/-! ### Uses of the board controller's key -/

theorem State.useKey_snd (s : State) (n perm : Nat) : (s.useKey n perm).2 = s.verifySlot n false := rfl

/-- The state after a use that is over within its command. -/
def State.usedOnce (s : State) (n perm : Nat) : State := (s.useOnce n perm).2

theorem State.usedOnce_eq (s : State) (n perm : Nat) :
    s.usedOnce n perm = if (s.useKey n perm).1.isSome then ((s.verifySlot n false).countUse n).endUse n else s.verifySlot n false := rfl

theorem State.eraseKey_board (s : State) (n : Nat) : (s.eraseKey n).board = s.board := (congrArg State.board (s.installKey_rest n {}) :)

theorem State.endUse_board (s : State) (n : Nat) : (s.endUse n).board = s.board := by
  unfold State.endUse
  dsimp only
  split
  · exact s.eraseKey_board n
  · rfl

theorem State.countUse_board (s : State) (n : Nat) : (s.countUse n).board = s.board := by
  unfold State.countUse
  dsimp only
  split <;> rfl

theorem State.usedOnce_board (s : State) (n perm : Nat) : (s.usedOnce n perm).board = s.board := by
  rw [State.usedOnce_eq]
  split
  · rw [State.endUse_board, State.countUse_board, State.verifySlot_board]
  · exact s.verifySlot_board n false

/-- A key that may be used is valid, and its check holds. -/
theorem State.useKey_some {s : State} {n perm : Nat} (h : (s.useKey n perm).1.isSome = true) :
    (s.keySlot n).valid = true ∧ s.verifySlot n false = s := by
  have hslot := (s.verifySlot_keySlot n n false).trans (if_pos rfl)
  have hgood : ((s.verifySlot n false).keySlot n).valid = true ∧ ((s.verifySlot n false).keySlot n).checkFail = false := by
    unfold State.useKey at h
    dsimp only at h
    split at h
    · next hc =>
      simp only [Bool.and_eq_true, Bool.not_eq_true'] at hc
      exact hc.1
    · exact nomatch h
  rw [hslot] at hgood
  have hvalid : (s.keySlot n).valid = true := (congrArg KeySlot.valid ((s.keySlot n).verified_rest n false) :).symm.trans hgood.1
  refine ⟨hvalid, State.verifySlot_stays (Bool.eq_false_of_not_eq_true fun hfails => ?_)⟩
  rw [KeySlot.verified, if_pos hfails] at hgood
  exact Bool.false_ne_true hgood.2.symm

/-- R324: a counted key with uses left loses one. -/
theorem State.usedOnce_counted {s : State} {n perm : Nat} (h : (s.useKey n perm).1.isSome = true) (hlife : (s.keySlot n).life = 2)
    (huses : 1 < (s.keySlot n).uses) :
    ((s.usedOnce n perm).keySlot n).uses = (s.keySlot n).uses - 1 ∧ ((s.usedOnce n perm).keySlot n).valid = true := by
  obtain ⟨hvalid, hstays⟩ := State.useKey_some h
  have hcount : (s.countUse n).keySlot n = KeySlot.withCheck { s.keySlot n with uses := (s.keySlot n).uses - 1 } n := by
    rw [State.countUse, if_pos hlife]
    exact (Security.slot_setSlot (v := KeySlot.withCheck { s.keySlot n with uses := (s.keySlot n).uses - 1 } n) hvalid s.sec n n).trans (if_pos rfl)
  have hend : (s.countUse n).endUse n = s.countUse n := by
    unfold State.endUse
    dsimp only
    rw [hcount]
    exact if_neg fun hzero => absurd (show (s.keySlot n).uses - 1 = 0 from hzero.2.2) (by omega)
  rw [State.usedOnce_eq, if_pos h, hstays, hend, hcount]
  exact ⟨rfl, hvalid⟩

/-- A use that is refused, and one of a key that is not counted, leaves every key. -/
theorem State.usedOnce_key {s : State} {n perm : Nat} (h : (s.useKey n perm).1 = none ∨ (s.keySlot n).life ≠ 2) (j : Nat) :
    ((s.usedOnce n perm).keySlot j).key = (s.keySlot j).key := by
  have hverified : ((s.verifySlot n false).keySlot j).key = (s.keySlot j).key := by
    rw [State.verifySlot_keySlot]
    split
    · next hj =>
      rw [hj]
      exact (congrArg KeySlot.key ((s.keySlot n).verified_rest n false) :)
    · rfl
  rw [State.usedOnce_eq]
  split
  · next hsome =>
    have hlife : (s.keySlot n).life ≠ 2 := h.resolve_left fun hnone => by rw [hnone] at hsome; exact nomatch hsome
    obtain ⟨-, hstays⟩ := State.useKey_some hsome
    have hcount : s.countUse n = s := if_neg hlife
    have hend : s.endUse n = s := if_neg fun hall => hlife hall.2.1
    rw [hstays, hcount, hend]
  · exact hverified

/-! ### The response of the board controller -/

/-- What the response leaves open. -/
def State.answered (s : State) (ok : Bool) : State :=
  let s := s.modBoard fun b => { b with challenge := none }
  if ok then s.modBoard fun b => { b with isOpen := true, lastAccess := s.now }
  else (s.modBoard fun b => { b with fails := min (b.fails + 1) 255 }).raise (secFault 0x0809 3)

/-- The response is the HMAC of the challenge under the key. -/
def Board.rightResponse (b : Board) (key : Option (List Byte)) : Bool :=
  match key, b.challenge with
  | some k, some c => b.response == hmacShake k (ascii "NBC1" ++ c)
  | _, _ => false

theorem Board.rightResponse_iff (b : Board) (key : Option (List Byte)) :
    b.rightResponse key = true ↔ ∃ k c, key = some k ∧ b.challenge = some c ∧ b.response = hmacShake k (ascii "NBC1" ++ c) := by
  unfold Board.rightResponse
  cases key with
  | none => exact iff_of_false Bool.false_ne_true fun ⟨_, _, h, _⟩ => nomatch h
  | some k =>
    cases hc : b.challenge with
    | none => exact iff_of_false Bool.false_ne_true fun ⟨_, _, _, h, _⟩ => nomatch h
    | some c =>
      refine beq_iff_eq.trans ⟨fun h => ⟨k, c, rfl, rfl, h⟩, fun ⟨k', c', hk, hc, h⟩ => ?_⟩
      cases hk
      cases hc
      exact h

/-- The response as written. -/
def State.responded (s : State) (w : Word64) : State := s.modBoard fun b => { b with resp3 := w }

theorem State.responded_useKey (s : State) (w : Word64) (n perm : Nat) : ((s.responded w).useKey n perm).1 = (s.useKey n perm).1 := by
  have hslot : ((s.responded w).verifySlot n false).keySlot n = (s.verifySlot n false).keySlot n := by
    rw [State.verifySlot_keySlot, State.verifySlot_keySlot]
    rfl
  unfold State.useKey
  dsimp only
  rw [hslot]

theorem State.bcResponse_eq (s : State) (w : Word64) :
    s.bcResponse w = ((s.responded w).usedOnce 0 4).answered
      (((s.responded w).usedOnce 0 4).board.rightResponse ((s.responded w).useKey 0 4).1) := rfl

theorem State.answered_keySlot (s : State) (ok : Bool) (n : Nat) : (s.answered ok).keySlot n = s.keySlot n := by
  unfold State.answered
  cases ok
  · exact State.raise_keySlot ..
  · rfl

/-- The board's registers after a response. -/
theorem State.answered_board (s : State) (ok : Bool) :
    (s.answered ok).board = if ok then { s.board with challenge := none, isOpen := true, lastAccess := s.mill.now }
      else { s.board with challenge := none, fails := min (s.board.fails + 1) 255 } := by
  unfold State.answered
  cases ok
  · exact State.raise_board_of_severity _ (by decide)
  · rfl

theorem State.verifySlot_now (s : State) (n : Nat) (disturbed : Bool) : (s.verifySlot n disturbed).mill.now = s.mill.now :=
  (congrArg (fun t : State => t.mill.now) (s.verifySlot_rest n disturbed) :)

theorem State.eraseKey_now (s : State) (n : Nat) : (s.eraseKey n).mill.now = s.mill.now :=
  (congrArg (fun t : State => t.mill.now) (s.installKey_rest n {}) :)

theorem State.endUse_now (s : State) (n : Nat) : (s.endUse n).mill.now = s.mill.now := by
  unfold State.endUse
  dsimp only
  split
  · exact s.eraseKey_now n
  · rfl

theorem State.countUse_now (s : State) (n : Nat) : (s.countUse n).mill.now = s.mill.now := by
  unfold State.countUse
  dsimp only
  split <;> rfl

theorem State.usedOnce_now (s : State) (n perm : Nat) : (s.usedOnce n perm).mill.now = s.mill.now := by
  rw [State.usedOnce_eq]
  split
  · rw [State.endUse_now, State.countUse_now, State.verifySlot_now]
  · exact s.verifySlot_now n false

theorem State.answered_now (s : State) (ok : Bool) : (s.answered ok).mill.now = s.mill.now := by
  unfold State.answered
  cases ok
  · exact congrArg Mill.now (State.raise_mill ..)
  · rfl

/-! ### The board controller's accesses -/

theorem State.boardMay_on {s : State} {a : Nat} (h : s.boardMay a = true) : s.pwr.state ≠ 4 := by
  unfold State.boardMay at h
  simp only [Bool.and_eq_true, bne_iff_ne] at h
  exact h.1.2

/-- An access that the board controller may make ends with its answer. -/
theorem State.boardAccess_done {s : State} {a : Nat} (h : s.boardMay a = true) (f : State → State) (g : State → List Word64) :
    s.boardAccess a f g = (f s).boardAnswer a 0 (g (f s)) := if_pos h

theorem State.boardAccess_denied {s : State} {a : Nat} (h : s.boardMay a = false) (f : State → State) (g : State → List Word64) :
    s.boardAccess a f g = s.boardAnswer a 3 ((g s).map fun _ => 0) := if_neg (by simp [h])

/-- The board's registers but for those of the interface itself. -/
theorem State.boardAnswer_board (s : State) (a st : Nat) (data : List Word64) :
    (s.boardAnswer a st data).board.challenge = s.board.challenge ∧ (s.boardAnswer a st data).board.isOpen = s.board.isOpen ∧
      (s.boardAnswer a st data).board.fatal = s.board.fatal ∧ (s.boardAnswer a st data).board.fails = s.board.fails ∧
      (s.board.isOpen = true → s.board.lastAccess = s.mill.now → (s.boardAnswer a st data).board.lastAccess = s.mill.now) := by
  unfold State.boardAnswer
  split
  · exact ⟨rfl, rfl, rfl, rfl, fun _ h => h⟩
  · exact ⟨rfl, rfl, rfl, rfl, fun h _ => if_pos h⟩

theorem State.boardAnswer_rest (s : State) (a st : Nat) (data : List Word64) : { s.boardAnswer a st data with board := s.board, out := s.out } = s := by
  unfold State.boardAnswer
  split <;> rfl

theorem State.boardAnswer_keySlot (s : State) (a st : Nat) (data : List Word64) (n : Nat) : (s.boardAnswer a st data).keySlot n = s.keySlot n :=
  congrArg (fun x : Security => x.slot n) (congrArg State.sec (s.boardAnswer_rest a st data) :)

/-! ### The sweep -/

theorem mem_keysWhere_of_get {α : Type} {d : α} {m : NatMap α} {n : Nat} (h : NatMap.get d m n ≠ d) : n ∈ NatMap.keysWhere m fun _ _ => true := by
  induction m with
  | nil => exact absurd rfl h
  | cons e m ih =>
    obtain ⟨k, v⟩ := e
    show n ∈ ((k, v) :: m.filter fun _ => true).map (·.1)
    simp only [NatMap.get] at h
    split at h
    · next hk => exact hk ▸ List.mem_cons_self
    · split at h
      · exact absurd rfl h
      · exact List.mem_cons_of_mem k (ih h)

/-- The slots that the sweep has verified. -/
theorem State.verifySlots_keySlot (s : State) (disturbed : List Nat) (l : List Nat) (n : Nat) :
    (l.foldl (fun s n => s.verifySlot n (disturbed.contains n)) s).keySlot n =
      if n ∈ l then (s.keySlot n).verified n (disturbed.contains n) else s.keySlot n := by
  induction l generalizing s with
  | nil => exact (if_neg List.not_mem_nil).symm
  | cons k l ih =>
    rw [List.foldl_cons, ih, State.verifySlot_keySlot]
    by_cases hk : n = k
    · subst hk
      rw [if_pos rfl, KeySlot.verified_verified, ite_self, if_pos List.mem_cons_self]
    · rw [if_neg hk]
      by_cases hl : n ∈ l
      · rw [if_pos hl, if_pos (List.mem_cons_of_mem k hl)]
      · rw [if_neg hl, if_neg fun h => (List.mem_cons.mp h).elim hk hl]

theorem State.verifySlots_rest (disturbed : List Nat) (l : List Nat) (s : State) :
    { l.foldl (fun s n => s.verifySlot n (disturbed.contains n)) s with sec := s.sec, ras := s.ras, out := s.out, ports := s.ports } = s := by
  have hone : ∀ (x : Security) (r : Ras) (o : List OutMsg) (p : NatMap Port) (b : State) (n : Nat),
      ({ b.verifySlot n (disturbed.contains n) with sec := x, ras := r, out := o, ports := p } : State) =
        { b with sec := x, ras := r, out := o, ports := p } := fun x r o p b n =>
    (congrArg (fun t : State => ({ t with sec := x, ras := r, out := o, ports := p } : State)) (b.verifySlot_rest n (disturbed.contains n)) :)
  exact foldl_same (f := fun (s : State) n => s.verifySlot n (disturbed.contains n))
    (fun t : State => ({ t with sec := s.sec, ras := s.ras, out := s.out, ports := s.ports } : State)) (hone s.sec s.ras s.out s.ports) l s

/-! ### The key commands -/

/-- A SEC_KEY_CMD of a requester that reaches it. -/
theorem State.onKey_reaches {s : State} {rq : Req} {n : Nat} (hmay : s.mayP rq 0xB0040 = true) (hsel : (s.sel rq).key = n) (hn : n < 256)
    (f : Nat → State → State) : s.onKey rq f = f n s := by
  rw [State.onKey, if_pos hmay, hsel, Nat.mod_eq_of_lt hn]

/-- The data registers as a WRITE leaves them. -/
def State.dataZeroed (s : State) (st : Nat) : State :=
  s.modSec fun x => { x with keyData0 := 0, keyData1 := 0, keyData2 := 0, keyData3 := 0, cmdStatus := st }

theorem Security.keyData_zero (x : Security) (h0 : x.keyData0 = 0) (h1 : x.keyData1 = 0) (h2 : x.keyData2 = 0) (h3 : x.keyData3 = 0) :
    x.keyData = List.replicate 32 0 := by
  rw [Security.keyData, h0, h1, h2, h3]
  decide

/-- The slot that a WRITE leaves. -/
def KeySlot.written (key : List Byte) (perm life uses : Nat) : KeySlot :=
  { valid := true, key := key, perm := perm, owner := 1, life := life, uses := if life = 2 then uses else 0 }

/-- The operands of a WRITE. -/
def Security.newPerm (x : Security) (rq : Req) : Nat := if rq = .board then 4 else bits x.keyNew 24 8
def Security.newLife (x : Security) (rq : Req) : Nat := if rq = .board then 0 else bits x.keyNew 16 2

def State.writeStatus (s : State) (rq : Req) (n : Nat) : Nat :=
  if s.boardSlotOk rq n then s.keyWriteStatus n (s.sec.newPerm rq) (s.sec.newLife rq) (bits s.sec.keyNew 32 32) else 2

theorem State.keyWrite_eq (s : State) (rq : Req) (n : Nat) :
    s.keyWrite rq n = if s.writeStatus rq n = 0 then
        (s.dataZeroed (s.writeStatus rq n)).installKey n
          (.written s.sec.keyData (s.sec.newPerm rq) (s.sec.newLife rq) (bits s.sec.keyNew 32 32))
      else s.dataZeroed (s.writeStatus rq n) := rfl

theorem State.boardSlotOk_iff (s : State) (rq : Req) (n : Nat) :
    s.boardSlotOk rq n = true ↔ ¬ (rq = .board ∧ ¬ (n = 1 ∨ n = 0 ∧ (s.keySlot 1).valid = true)) := by
  unfold State.boardSlotOk
  simp only [Bool.or_eq_true, Bool.and_eq_true, bne_iff_ne, beq_iff_eq]
  tauto

theorem State.writeStatus_eq (s : State) (rq : Req) (n : Nat) :
    s.writeStatus rq n = if rq = .board ∧ ¬ (n = 1 ∨ n = 0 ∧ (s.keySlot 1).valid = true) then 2
      else s.keyWriteStatus n (s.sec.newPerm rq) (s.sec.newLife rq) (bits s.sec.keyNew 32 32) := by
  unfold State.writeStatus
  by_cases h : s.boardSlotOk rq n = true
  · rw [if_pos h, if_neg ((s.boardSlotOk_iff rq n).mp h)]
  · rw [if_neg h, if_pos (not_not.mp fun hno => h ((s.boardSlotOk_iff rq n).mpr hno))]

/-- R325: a WRITE that is accepted. -/
theorem State.keyWrite_written {s : State} {rq : Req} {n : Nat} (h : s.writeStatus rq n = 0) :
    (s.keyWrite rq n).sec = (s.dataZeroed 0).sec.installed n
        (.written s.sec.keyData (s.sec.newPerm rq) (s.sec.newLife rq) (bits s.sec.keyNew 32 32)) ∧
      { s.keyWrite rq n with sec := s.sec, eth := s.eth } = s := by
  rw [State.keyWrite_eq, h, if_pos rfl]
  generalize hk : KeySlot.written s.sec.keyData (s.sec.newPerm rq) (s.sec.newLife rq) (bits s.sec.keyNew 32 32) = k
  have hvalid : k.valid = true := hk ▸ rfl
  have hrest := congrArg (fun t : State => ({ t with sec := s.sec } : State)) ((s.dataZeroed 0).installKey_rest n k)
  exact ⟨State.installKey_sec hvalid n, hrest⟩

theorem State.keyWrite_refused {s : State} {rq : Req} {n : Nat} (h : s.writeStatus rq n ≠ 0) :
    s.keyWrite rq n = s.dataZeroed (s.writeStatus rq n) := by rw [State.keyWrite_eq, if_neg h]

theorem KeySlot.withCheck_check (k : KeySlot) (n : Nat) : (k.withCheck n).check = (k.withCheck n).checkOf n := rfl

theorem Security.installed_slot {k : KeySlot} (hk : k.valid = true) (x : Security) (n j : Nat) :
    (x.installed n k).slot j = if j = n then k.withCheck n else x.slot j := Security.slot_setSlot (v := k.withCheck n) hk _ n j

/-- R326: the public key is loaded. -/
def State.pubkeyLoaded (s : State) (n : Nat) (pk : List Byte) : State :=
  ((s.secStatus 0).installKey n { valid := true, key := shake32 pk, perm := 1, owner := 1, life := 0 }).modSec
    fun x => { x with pubKeys := NatMap.set [] x.pubKeys n pk }

theorem State.pubkeyLoaded_sec (s : State) (n : Nat) (pk : List Byte) : (s.pubkeyLoaded n pk).sec =
    let x := (s.secStatus 0).sec.installed n { valid := true, key := shake32 pk, perm := 1, owner := 1, life := 0 }
    { x with pubKeys := NatMap.set [] x.pubKeys n pk } := by
  rw [← State.installKey_sec (s := s.secStatus 0) (k := { valid := true, key := shake32 pk, perm := 1, owner := 1, life := 0 }) rfl n]
  rfl

theorem State.pubkeyLoaded_rest (s : State) (n : Nat) (pk : List Byte) : { s.pubkeyLoaded n pk with sec := s.sec, eth := s.eth } = s := by
  have hrest := congrArg (fun t : State => ({ t with sec := s.sec } : State)) ((s.secStatus 0).installKey_rest n
    { valid := true, key := shake32 pk, perm := 1, owner := 1, life := 0 })
  exact hrest

theorem State.loadPubkey_eq {s : State} {rq : Req} {n : Nat} (hbusy : s.sec.busy = false) (hrq : rq ≠ .board) (hlock : s.sec.lock = false)
    (howner : (s.keySlot n).owner ≠ 2) :
    s.loadPubkey rq n = if s.sec.len ≠ 68 ∧ s.sec.len ≠ 2592 then s.secStatus 4
      else if (NatMap.get [] s.sec.pubKeys n).isEmpty ∧ 16 ≤ s.sec.pubKeys.length then s.secStatus 4
      else match (s.operatorBytes s.sec.obj s.sec.len).1 with
        | none => (s.operatorBytes s.sec.obj s.sec.len).2.secStatus 3
        | some pk => (s.operatorBytes s.sec.obj s.sec.len).2.pubkeyLoaded n pk := by
  unfold State.loadPubkey
  dsimp only
  rw [hbusy, if_neg Bool.false_ne_true, if_neg (by simp [hrq, hlock, howner])]
  rfl

/-- Settles O45. -/
theorem boardAccessAndKeySlots : Obligations.BoardAccessAndKeySlots := by
  unfold Obligations.BoardAccessAndKeySlots
  intro s
  refine ⟨fun hmay => ?_, fun w hmay => ?_, fun hread hwrite hfatal w => ?_, fun hopen hidle => ?_, fun h => ?_, fun w hmay => ?_,
    fun rq n hmay hsel hn => ⟨fun hok => ?_, fun hno => ?_, fun hbusy => ⟨?_, ?_⟩, fun hbusy => ⟨fun h => ?_, fun hrq howner => ?_, fun h => ?_,
      fun hrq hlock howner => ⟨fun h => ?_, fun r u hlen hfull hread => ⟨fun hnone => ?_, fun pk hpk => ?_⟩⟩⟩⟩, fun disturbed => ?_⟩
  · obtain ⟨hchallenge, hisOpen, -, -, -⟩ := s.bcChallenge.boardAnswer_board 0x7FFFFF0000 0
      [BitVec.ofNat 64 (field (s.bcChallenge.board.challenge.getD []) 0 8)]
    have hrest := s.bcChallenge.boardAnswer_rest 0x7FFFFF0000 0 [BitVec.ofNat 64 (field (s.bcChallenge.board.challenge.getD []) 0 8)]
    exact ⟨_, congrArg Host.Outcome.next (State.boardAccess_done hmay _ _), hchallenge, hisOpen, (congrArg State.draws hrest :),
      (congrArg (fun t : State => ({ t with board := s.board, draws := s.draws, out := s.out } : State)) hrest :)⟩
  · obtain ⟨hchallenge, hisOpen, -, hfails, hlast⟩ := (s.bcResponse w).boardAnswer_board 0x7FFFFF0038 0 []
    have hslot := fun n => (s.bcResponse w).boardAnswer_keySlot 0x7FFFFF0038 0 [] n
    have heq := s.bcResponse_eq w
    have hright : ((s.responded w).usedOnce 0 4).board.rightResponse ((s.responded w).useKey 0 4).1 = true ↔
        ∃ k c, (s.useKey 0 4).1 = some k ∧ s.board.challenge = some c ∧
          Board.response { s.board with resp3 := w } = hmacShake k (ascii "NBC1" ++ c) := by
      rw [State.usedOnce_board, State.responded_useKey]
      exact Board.rightResponse_iff { s.board with resp3 := w } _
    generalize ((s.responded w).usedOnce 0 4).board.rightResponse ((s.responded w).useKey 0 4).1 = ok at heq hright
    have hboard := ((s.responded w).usedOnce 0 4).answered_board ok
    have hnow := ((s.responded w).usedOnce 0 4).answered_now ok
    have hkey := fun n => ((s.responded w).usedOnce 0 4).answered_keySlot ok n
    rw [State.usedOnce_now] at hnow
    rw [State.usedOnce_board, State.usedOnce_now, ← heq] at hboard
    rw [← heq] at hkey hnow
    rw [hnow] at hlast
    refine ⟨_, congrArg Host.Outcome.next (State.boardAccess_done hmay _ _), ?_, fun h => ?_, fun h => ?_, fun hsome hlife huses => ?_, fun h n => ?_⟩
    · rw [hchallenge, hboard]
      cases ok <;> rfl
    · rw [hright.mpr h, if_pos rfl] at hboard
      rw [hisOpen, hfails, hboard]
      rw [hboard] at hlast
      exact ⟨rfl, rfl, hlast rfl rfl⟩
    · rw [if_neg fun hok => h (hright.mp hok)] at hboard
      rw [hisOpen, hfails, hboard]
      exact ⟨rfl, rfl⟩
    · rw [hslot, hkey]
      exact State.usedOnce_counted (s := s.responded w) (by rw [State.responded_useKey]; exact hsome) hlife huses
    · rw [hslot, hkey]
      exact State.usedOnce_key (s := s.responded w) (by rw [State.responded_useKey]; exact h) n
  · have h1 : exec .bcChallengeRead s = .next _ := congrArg Host.Outcome.next (State.boardAccess_denied hread _ _)
    have h2 : exec (.bcResponseWrite w) s = .next _ := congrArg Host.Outcome.next (State.boardAccess_denied hwrite _ _)
    have h3 : exec (.fatalClear w) s = .next _ := congrArg Host.Outcome.next (State.boardAccess_denied hfatal _ _)
    have hsame : ∀ (a st : Nat) (data : List Word64) (t : State), t = s.boardAnswer a st data →
        t.board.challenge = s.board.challenge ∧ t.board.isOpen = s.board.isOpen ∧ t.board.fatal = s.board.fatal ∧
          t.board.fails = s.board.fails ∧ { t with board := s.board, out := s.out } = s := by
      rintro a st data t rfl
      obtain ⟨hchallenge, hisOpen, hfatal, hfails, -⟩ := s.boardAnswer_board a st data
      exact ⟨hchallenge, hisOpen, hfatal, hfails, s.boardAnswer_rest a st data⟩
    refine ⟨_, _, _, h1, h2, h3, fun t ht => ?_⟩
    obtain ht | ht | ht := ht
    · exact hsame _ _ _ t ht
    · exact hsame _ _ _ t ht
    · exact hsame _ _ _ t ht
  · exact congrArg Host.Outcome.next (if_pos (by simp [hopen, State.now, hidle]))
  · refine congrArg Host.Outcome.next (if_neg fun hall => ?_)
    obtain ⟨hopen, hidle⟩ := Bool.and_eq_true_iff.mp hall
    have hidle : s.board.lastAccess + 10000000000 ≤ s.mill.now := of_decide_eq_true hidle
    obtain h | h := h
    · exact Bool.false_ne_true (h.symm.trans hopen)
    · omega
  · obtain ⟨-, -, hfatal, -, -⟩ := (s.fatalClear w).boardAnswer_board 0x7FFFFF0048 0 []
    have hrest := (s.fatalClear w).boardAnswer_rest 0x7FFFFF0048 0 []
    have hcleared : (s.fatalClear w).board.fatal = (s.board.fatal && !bit w.toNat 2) ∧ { s.fatalClear w with board := s.board } = s := by
      unfold State.fatalClear
      cases bit w.toNat 2
      · exact ⟨(Bool.and_true _).symm, rfl⟩
      · exact ⟨(Bool.and_false _).symm, rfl⟩
    refine ⟨_, congrArg Host.Outcome.next (State.boardAccess_done hmay _ _), hfatal.trans hcleared.1, ?_⟩
    have hout : (s.fatalClear w).out = s.out := (congrArg State.out hcleared.2 :)
    rw [hout] at hrest
    have hboard := congrArg (fun t : State => ({ t with board := s.board } : State)) hrest
    exact hboard.trans hcleared.2
  · have hstatus := (s.writeStatus_eq rq n).trans hok
    obtain ⟨hsec, hrest⟩ := State.keyWrite_written hstatus
    have hslot : ∀ j, (s.keyWrite rq n).keySlot j = if j = n then
        KeySlot.withCheck (.written s.sec.keyData (s.sec.newPerm rq) (s.sec.newLife rq) (bits s.sec.keyNew 32 32)) n else s.keySlot j := fun j => by
      rw [State.keySlot, hsec]
      exact Security.installed_slot (k := .written ..) rfl (s.dataZeroed 0).sec n j
    have hown := (hslot n).trans (if_pos rfl)
    refine ⟨s.keyWrite rq n, congrArg Host.Outcome.next (State.onKey_reaches hmay hsel hn _), ?_⟩
    rw [hown, hsec]
    exact ⟨rfl, rfl, rfl, rfl, rfl, rfl, KeySlot.withCheck_check _ n, fun j hj => (hslot j).trans (if_neg hj), rfl,
      Security.keyData_zero _ rfl rfl rfl rfl, rfl, hrest⟩
  · have hstatus := s.writeStatus_eq rq n
    have hkeep := State.keyWrite_refused (hstatus.trans_ne hno)
    refine ⟨s.keyWrite rq n, congrArg Host.Outcome.next (State.onKey_reaches hmay hsel hn _), ?_⟩
    rw [hkeep]
    exact ⟨rfl, hstatus, Security.keyData_zero _ rfl rfl rfl rfl, rfl⟩
  · exact congrArg Host.Outcome.next ((State.onKey_reaches hmay hsel hn _).trans (if_pos hbusy))
  · exact congrArg Host.Outcome.next ((State.onKey_reaches hmay hsel hn _).trans (if_pos hbusy))
  · exact congrArg Host.Outcome.next ((State.onKey_reaches hmay hsel hn _).trans ((if_neg (by simp [hbusy])).trans (if_pos h)))
  · refine ⟨_, congrArg Host.Outcome.next ((State.onKey_reaches hmay hsel hn _).trans ?_), rfl, ?_, ?_⟩
    · exact (if_neg (by simp [hbusy])).trans (if_neg (by simp [hrq, howner]))
    · rw [State.eraseKey_sec]
      rfl
    · rw [State.eraseKey_sec]
      rfl
  · exact congrArg Host.Outcome.next ((State.onKey_reaches hmay hsel hn _).trans ((if_neg (by simp [hbusy])).trans (if_pos h)))
  · refine congrArg Host.Outcome.next ((State.onKey_reaches hmay hsel hn _).trans ((State.loadPubkey_eq hbusy hrq hlock howner).trans ?_))
    by_cases hlen : s.sec.len ≠ 68 ∧ s.sec.len ≠ 2592
    · exact if_pos hlen
    · rw [if_neg hlen]
      exact if_pos (h.resolve_left hlen)
  · refine congrArg Host.Outcome.next ((State.onKey_reaches hmay hsel hn _).trans ((State.loadPubkey_eq hbusy hrq hlock howner).trans ?_))
    rw [if_neg (by omega), if_neg hfull, hread, hnone]
    rfl
  · have hload : s.loadPubkey rq n = u.pubkeyLoaded n pk := by
      rw [State.loadPubkey_eq hbusy hrq hlock howner, if_neg (by omega), if_neg hfull, hread, hpk]
    have hsec := u.pubkeyLoaded_sec n pk
    have hslot : ∀ j, (u.pubkeyLoaded n pk).keySlot j = if j = n then KeySlot.withCheck { valid := true, key := shake32 pk, perm := 1, owner := 1, life := 0 } n
        else u.keySlot j := fun j => by
      rw [State.keySlot, hsec]
      exact Security.installed_slot (k := { valid := true, key := shake32 pk, perm := 1, owner := 1, life := 0 }) rfl (u.secStatus 0).sec n j
    have hown := (hslot n).trans (if_pos rfl)
    refine ⟨_, congrArg Host.Outcome.next ((State.onKey_reaches hmay hsel hn _).trans hload), ?_, ?_, ?_, ?_, ?_, ?_,
      fun j hj => (hslot j).trans (if_neg hj), ?_, u.pubkeyLoaded_rest n pk⟩
    · rw [hsec]
      rfl
    · rw [hown]
      rfl
    · rw [hown]
      rfl
    · rw [hown]
      rfl
    · rw [hown]
      rfl
    · rw [hown]
      rfl
    · rw [hsec]
      rfl
  · have hfold := s.verifySlots_keySlot disturbed (NatMap.keysWhere s.sec.slots fun _ _ => true)
    have hrest := State.verifySlots_rest disturbed (NatMap.keysWhere s.sec.slots fun _ _ => true) s
    have hslot : ∀ n, ((NatMap.keysWhere s.sec.slots fun _ _ => true).foldl (fun s n => s.verifySlot n (disturbed.contains n)) s).keySlot n =
        (s.keySlot n).verified n (disturbed.contains n) := fun n => by
      rw [hfold]
      split
      · rfl
      · next hn =>
        have hempty : s.keySlot n = {} := by_contra fun hne => hn (mem_keysWhere_of_get hne)
        rw [hempty]
        rfl
    refine ⟨_, rfl, hslot, fun hall => ?_, hrest⟩
    refine foldl_fixed fun n _ => State.verifySlot_stays (Bool.eq_false_of_not_eq_true fun hfails => ?_)
    obtain ⟨hvalid, hbad⟩ := Bool.and_eq_true_iff.mp hfails
    obtain ⟨hcheck, hmem⟩ := hall n (Bool.and_eq_true_iff.mp hvalid).1
    rw [← hcheck, bne_self_eq_false, Bool.or_false] at hbad
    exact hmem (List.contains_iff_mem.mp hbad)

end Sys2Proof.Machine

/-! PROOFS. O41: the commands of a host context (R287 to R291, R305). -/
namespace Sys2Proof.Machine
open Sys2Proof

theorem NatMap.get_of_mem {α : Type} {d : α} {m : NatMap α} [DecidableEq α] (h : NatMap.wf d m = true) {e : Nat × α} (he : e ∈ m) :
    NatMap.get d m e.1 = e.2 := by
  induction m with
  | nil => cases he
  | cons p t ih =>
    obtain ⟨k, w⟩ := p
    obtain ⟨-, habove, ht⟩ := NatMap.wf_cons.mp h
    rcases List.mem_cons.mp he with rfl | he
    · exact if_pos rfl
    · have hlt : k < e.1 := habove e he
      exact (if_neg (Nat.ne_of_gt hlt)).trans ((if_neg (Nat.not_lt_of_gt hlt)).trans (ih ht he))

/-! ### What the end of a context's work leaves -/

/-- What CTX_FAULT shows of a context. -/
def Ctx.shownFault (c : Ctx) : Nat × Nat × Nat := (c.faultIndex, c.faultQueue, c.faultCode)

/-- The two states know the same contexts but for context `x`, and of that the same descriptor, state, slot and fault. -/
structure State.CtxKept (x : Nat) (s t : State) : Prop where
  canon : t.Canon
  desc : (t.ctx x).desc = (s.ctx x).desc
  state : (t.ctx x).state = (s.ctx x).state
  slot : (t.ctx x).slot = (s.ctx x).slot
  fault : (t.ctx x).shownFault = (s.ctx x).shownFault
  others : ∀ y, y ≠ x → t.ctx y = s.ctx y

theorem State.CtxKept.refl {s : State} (hs : s.Canon) (x : Nat) : CtxKept x s s := ⟨hs, rfl, rfl, rfl, rfl, fun _ _ => rfl⟩

theorem State.CtxKept.trans {x : Nat} {s t u : State} (h : CtxKept x s t) (k : CtxKept x t u) : CtxKept x s u :=
  ⟨k.canon, k.desc.trans h.desc, k.state.trans h.state, k.slot.trans h.slot, k.fault.trans h.fault, fun y hy => (k.others y hy).trans (h.others y hy)⟩

theorem State.CtxKept.of_ctxs {x : Nat} {s t : State} (ht : t.Canon) (h : t.ctxs = s.ctxs) : CtxKept x s t := by
  have hctx : ∀ y, t.ctx y = s.ctx y := fun y => congrArg (fun m => NatMap.get ({} : Ctx) m y) h
  exact ⟨ht, congrArg Ctx.desc (hctx x), congrArg Ctx.state (hctx x), congrArg Ctx.slot (hctx x), congrArg Ctx.shownFault (hctx x), fun y _ => hctx y⟩

theorem State.CtxKept.setCtx {s : State} (hs : s.Canon) {x : Nat} {v : Ctx} (hd : v.desc = (s.ctx x).desc) (hst : v.state = (s.ctx x).state)
    (hsl : v.slot = (s.ctx x).slot) (hf : v.shownFault = (s.ctx x).shownFault) : CtxKept x s (s.setCtx x v) := by
  have hx : (s.setCtx x v).ctx x = v := (s.ctx_setCtx hs.tab.ctxs x x v).trans (if_pos rfl)
  exact ⟨(s.setCtx_keeps x v).canon hs, (congrArg Ctx.desc hx).trans hd, (congrArg Ctx.state hx).trans hst, (congrArg Ctx.slot hx).trans hsl,
    (congrArg Ctx.shownFault hx).trans hf, fun y hy => (s.ctx_setCtx hs.tab.ctxs x y v).trans (if_neg hy)⟩

theorem State.CtxKept.modCtx {s : State} (hs : s.Canon) {x : Nat} {f : Ctx → Ctx} (hd : ∀ c, (f c).desc = c.desc) (hst : ∀ c, (f c).state = c.state)
    (hsl : ∀ c, (f c).slot = c.slot) (hf : ∀ c, (f c).shownFault = c.shownFault) : CtxKept x s (s.modCtx x f) :=
  .setCtx hs (hd _) (hst _) (hsl _) (hf _)

theorem State.CtxKept.foldl {α : Type} {x : Nat} {f : State → α → State} (hf : ∀ t a, t.Canon → CtxKept x t (f t a)) {s : State} (hs : s.Canon)
    (l : List α) : CtxKept x s (l.foldl f s) := by
  induction l generalizing s with
  | nil => exact .refl hs x
  | cons a l ih => exact (hf s a hs).trans (ih (hf s a hs).canon)

theorem State.sendRoce_ctxs (s : State) (n : Nat) (m : OutMsg) : (s.sendRoce n m).ctxs = s.ctxs := by
  unfold State.sendRoce
  split_ifs <;> rfl

theorem State.putRecord_ctxKept {s : State} (hs : s.Canon) (x : Nat) (r : EventRec) : CtxKept x s (s.putRecord x r) := by
  refine (State.CtxKept.setCtx hs (v := { s.ctx x with recCount := ((s.ctx x).recCount + 1) % 2 ^ 32 }) rfl rfl rfl rfl).trans ?_
  exact .of_ctxs ((s.putRecord_keeps x r).canon hs) (State.sendRoce_ctxs ..)

theorem State.record_ctxKept {s : State} (hs : s.Canon) (x : Nat) (r : EventRec) : CtxKept x s (s.record x r) := by
  simp only [State.record]
  split_ifs
  · exact .refl hs x
  · exact State.putRecord_ctxKept hs x _
  · exact .setCtx hs rfl rfl rfl rfl

theorem State.freeIdx_ctxKept {s : State} (hs : s.Canon) (x i origin : Nat) : CtxKept x s (s.freeIdx x i origin) := by
  refine (State.CtxKept.setCtx hs (v := { s.ctx x with objects := NatMap.set {} (s.ctx x).objects i { gen := (s.obj x i).gen + 1 } }) rfl rfl rfl rfl).trans ?_
  obtain ⟨l, h, -⟩ := s.freeIdx_eq x i origin
  exact .of_ctxs ((s.freeIdx_keeps x i origin).canon hs) (congrArg State.ctxs h :)

theorem State.endStep_ctxKept {s : State} (hs : s.Canon) (x : Nat) : CtxKept x s (s.endStep x) := by
  have hfrees := fun l : List Nat => State.CtxKept.foldl (x := x) (f := fun s i => s.freeIdx x i 4) (fun t i ht => State.freeIdx_ctxKept ht x i 4) hs l
  simp only [State.endStep]
  split_ifs
  · exact .refl hs x
  · exact hfrees _
  · exact (hfrees _).trans (.modCtx (hfrees _).canon (fun _ => rfl) (fun _ => rfl) (fun _ => rfl) fun _ => rfl)
  · have hended := (hfrees (NatMap.keysWhere (s.ctx x).objects fun _ o => o.live)).trans
      (.modCtx (f := fun c => { c with ending := 0 }) (hfrees _).canon (fun _ => rfl) (fun _ => rfl) (fun _ => rfl) fun _ => rfl)
    exact hended.trans (State.record_ctxKept hended.canon x _)

theorem State.modQueue_ctxKept {s : State} (hs : s.Canon) (x q : Nat) (f : HQueue → HQueue) : CtxKept x s (s.modQueue x q f) := .setCtx hs rfl rfl rfl rfl

theorem State.discardQueue_ctxKept {s : State} (hs : s.Canon) (x q : Nat) (dropWait recs : Bool) : CtxKept x s (s.discardQueue x q dropWait recs) := by
  simp only [State.discardQueue]
  split
  · exact (State.modQueue_ctxKept hs x q _).trans
      (.foldl (fun t c ht => State.record_ctxKept ht x _) (State.modQueue_ctxKept hs x q _).canon _)
  · exact .setCtx hs rfl rfl rfl rfl

/-- A context that ends is ENDED, of no slot, with the descriptor it had; no other context changes. -/
theorem State.endCtx_ctxKept {s : State} (hs : s.Canon) (x how : Nat) :
    CtxKept x (s.modCtx x fun c => { c with state := .ended, ending := how, evicting := false, slot := 63 }) (s.endCtx x how) := by
  have hmod := (s.modCtx_keeps x fun c => { c with state := .ended, ending := how, evicting := false, slot := 63 }).canon hs
  have hqueues := State.CtxKept.foldl (x := x) (f := fun s q => s.discardQueue x q (how != 1) (how != 3))
    (fun t q ht => State.discardQueue_ctxKept ht x q _ _) hmod (List.range (s.ctx x).desc.queues)
  exact hqueues.trans (State.endStep_ctxKept hqueues.canon x)

theorem State.endCtx_desc {s : State} (hs : s.Canon) (x how : Nat) : ((s.endCtx x how).ctx x).desc = (s.ctx x).desc :=
  by
  have hx : (s.modCtx x fun c => { c with state := .ended, ending := how, evicting := false, slot := 63 }).ctx x =
      { s.ctx x with state := .ended, ending := how, evicting := false, slot := 63 } := (State.ctx_modCtx hs x x _).trans (if_pos rfl)
  exact (State.endCtx_ctxKept hs x how).desc.trans (congrArg Ctx.desc hx :)

theorem State.endCtx_ended {s : State} (hs : s.Canon) (x how : Nat) :
    ((s.endCtx x how).ctx x).state = .ended ∧ ((s.endCtx x how).ctx x).slot = 63 ∧ ∀ y, y ≠ x → (s.endCtx x how).ctx y = s.ctx y := by
  have hx : (s.modCtx x fun c => { c with state := .ended, ending := how, evicting := false, slot := 63 }).ctx x =
      { s.ctx x with state := .ended, ending := how, evicting := false, slot := 63 } := (State.ctx_modCtx hs x x _).trans (if_pos rfl)
  have hkept := State.endCtx_ctxKept hs x how
  exact ⟨hkept.state.trans (congrArg Ctx.state hx :), hkept.slot.trans (congrArg Ctx.slot hx :),
    fun y hy => (hkept.others y hy).trans ((State.ctx_modCtx hs x y _).trans (if_neg hy))⟩

/-! ### The commands -/

theorem State.ctxCmd_runs {s : State} {rq : Req} {x : Nat} (hmay : s.mayP rq 0x40008 = true) (hx : (s.sel rq).ctx = x) (hlt : x < 4096)
    (hbusy : s.ctxBusy = false) (f : Nat → State → State) : s.ctxCmd rq f = f x s := by
  rw [State.ctxCmd, if_pos hmay, hx, Nat.mod_eq_of_lt hlt, hbusy]
  rfl

theorem State.ctxCmd_busy {s : State} {rq : Req} (hmay : s.mayP rq 0x40008 = true) (hbusy : s.ctxBusy = true) (f : Nat → State → State) :
    s.ctxCmd rq f = s.setCtx ((s.sel rq).ctx % 4096) { s.ctx ((s.sel rq).ctx % 4096) with cmdStatus := 1 } := by
  rw [State.ctxCmd, if_pos hmay, hbusy]
  rfl

theorem State.setCtx_modCtx {s : State} (hs : s.Canon) (x : Nat) (f : Ctx → Ctx) (v : Ctx) : (s.modCtx x f).setCtx x v = s.setCtx x v :=
  congrArg (fun m => { s with ctxs := m }) (NatMap.set_set hs.tab.ctxs x (f (s.ctx x)) v)

/-- The queue object that CREATE defines. -/
def CtxDesc.queueObj (d : CtxDesc) : Obj := { live := true, flags := 0x02, tier := .hbm, base := d.tableBytes, size := d.queueBytes }

theorem State.writeObj_ctxs (s : State) (x : Nat) (o : Obj) (off : Nat) (bs : List Byte) : (s.writeObj x o off bs).2.ctxs = s.ctxs := by
  unfold State.writeObj
  split <;> rfl

theorem State.ctxDefine_ctx {s : State} (hs : s.Canon) (x : Nat) (d : CtxDesc) (y : Nat) : (s.ctxDefine x d).ctx y =
    if y = x then { state := .defined, desc := d, objects := NatMap.set {} [] 1 d.queueObj } else s.ctx y :=
  (congrArg (fun m => NatMap.get ({} : Ctx) m y) (State.writeObj_ctxs ..)).trans (s.ctx_setCtx hs.tab.ctxs x y _)

/-- CREATE of a descriptor that passes every check. -/
theorem State.ctxCreate_defines {s u : State} {x : Nat} {b : List Byte} (hbytes : s.ctxDescBytes = (some b, u)) (hok : ctxFormatOk b x = true)
    (hundef : (u.ctx x).state = .undefined) (hhome : u.homeFree x (ctxDescOf b) = true) (hfree : u.ctxConflict x (ctxDescOf b) = false)
    (hroom : (ctxDescOf b).tableBytes + roundUp (ctxDescOf b).queueBytes 65536 ≤ (bitsOf 64 (ctxDescOf b).hbmSets).length * (ctxDescOf b).hbmLen) :
    s.ctxCreate x = u.ctxDefine x (ctxDescOf b) := by
  unfold State.ctxCreate
  rw [hbytes]
  refine (if_neg ?_).trans ((if_neg (by rw [hfree]; exact Bool.false_ne_true)).trans (if_neg (Nat.not_lt.mpr hroom)))
  rw [hok, hundef, hhome]
  rintro (h | h | h)
  · exact Bool.false_ne_true h
  · exact h rfl
  · exact Bool.false_ne_true h

theorem State.ctxCreate_malformed {s u : State} {x : Nat} {b : List Byte} (hbytes : s.ctxDescBytes = (some b, u)) (hbad : ctxFormatOk b x = false) :
    s.ctxCreate x = u.ctxStatus x 4 := by
  unfold State.ctxCreate
  rw [hbytes]
  exact if_pos (.inl (by rw [hbad]; rfl))

theorem State.ctxLoad_resident {s : State} (hs : s.Canon) {x : Nat} (hx : x ≠ 0) (hdef : (s.ctx x).state = .defined)
    (hpart : (s.part (s.ctx x).desc.part).state = .armed ∨ (s.part (s.ctx x).desc.part).state = .running ∨ (s.part (s.ctx x).desc.part).state = .braked)
    (harg : s.ctxRegs.arg < 48) (hslot : ∀ y, (s.ctx y).state = .resident → (s.ctx y).slot ≠ s.ctxRegs.arg) :
    s.ctxLoad x = s.setCtx x { s.ctx x with state := .resident, slot := s.ctxRegs.arg, cmdStatus := 0 } := by
  refine if_neg ?_
  rintro (h | h | ⟨ha, hr, hb⟩ | h | h)
  · exact hx h
  · exact h hdef
  · exact hpart.elim ha fun h => h.elim hr hb
  · exact Nat.not_lt.mpr h harg
  · obtain ⟨e, he, hused⟩ := List.any_eq_true.mp h
    rw [Bool.and_eq_true, beq_iff_eq, beq_iff_eq, ← NatMap.get_of_mem hs.tab.ctxs he] at hused
    exact hslot e.1 hused.1 hused.2

/-- EVICT of a resident context: DEFINED at once where it is quiet, else EVICTING. -/
theorem State.evict_resident {s : State} (hs : s.Canon) {x : Nat} (hres : (s.ctx x).state = .resident) :
    s.evict x = s.setCtx x (if (s.ctx x).quiet then { s.ctx x with state := .defined, slot := 63, evicting := false, cmdStatus := 0 }
      else { s.ctx x with evicting := true, cmdStatus := 0 }) := by
  have hx : (s.modCtx x fun c => { c with evicting := true, cmdStatus := 0 }).ctx x = { s.ctx x with evicting := true, cmdStatus := 0 } :=
    (State.ctx_modCtx hs x x _).trans (if_pos rfl)
  unfold State.evict State.evictDone
  dsimp only
  rw [if_neg (fun h => h hres), hx]
  have hquiet : Ctx.quiet { s.ctx x with evicting := true, cmdStatus := 0 } = (s.ctx x).quiet := rfl
  rw [Bool.true_and, hquiet]
  split
  · exact State.setCtx_modCtx hs x _ _
  · rfl

theorem Ctx.quiet_of_empty {c : Ctx} (hrec : c.recWait = []) (hqueues : c.queues = []) : c.quiet = true := by
  rw [Ctx.quiet, hrec, hqueues]
  rfl

theorem State.ctxDestroy_ctx {s : State} (hs : s.Canon) {x : Nat} (hstate : (s.ctx x).state = .defined ∨ (s.ctx x).state = .ended)
    (hending : (s.ctx x).ending = 0) : (s.ctxDestroy x).ctx x = {} ∧ ∀ y, y ≠ x → (s.ctxDestroy x).ctx y = s.ctx y := by
  have hruns : s.ctxDestroy x = State.setCtx ((NatMap.keysWhere (s.ctx x).objects fun _ o => o.live).foldl (fun s i => s.freeIdx x i 5) s) x {} := by
    refine if_neg ?_
    rintro (⟨hd, he⟩ | h)
    · exact hstate.elim hd he
    · exact h hending
  have hkept := State.CtxKept.foldl (f := fun s i => s.freeIdx x i 5) (fun t i ht => State.freeIdx_ctxKept ht x i 5) hs
    (NatMap.keysWhere (s.ctx x).objects fun _ o => o.live)
  rw [hruns]
  exact ⟨(State.ctx_setCtx _ hkept.canon.tab.ctxs x x {}).trans (if_pos rfl),
    fun y hy => (State.ctx_setCtx _ hkept.canon.tab.ctxs x y {}).trans ((if_neg hy).trans (hkept.others y hy))⟩

/-- The last object of an ending context comes back: its CONTEXT_ENDED record. -/
theorem State.freeComplete_ends {s : State} {x : Nat} {f : PendingFree} (hending : (s.ctx x).ending = 1 ∨ (s.ctx x).ending = 2)
    (hidle : ∀ e ∈ (s.ctx x).queues, e.2.current = none) (hlive : (NatMap.keysWhere (s.ctx x).objects fun _ o => o.live) = [])
    (hf : s.pendingFrees = [f]) (hx : f.ctx = x) (horigin : 4 ≤ f.origin) (hbusy : s.objBusy x f.index f.gen = false) :
    s.freeComplete x f.index = (State.setCtx { s with pendingFrees := [] } x { s.ctx x with ending := 0 }).record x { type := 3 } := by
  have hfreed : s.freeComplete x f.index = State.freed { s with pendingFrees := [] } f := by
    rw [← hx]
    exact State.freeComplete_single hf (hx ▸ hbusy)
  have hskip : State.freed { s with pendingFrees := [] } f = State.endStep { s with pendingFrees := [] } f.ctx := by
    obtain ⟨n, hn⟩ : ∃ n, f.origin = n + 4 := ⟨f.origin - 4, by omega⟩
    unfold State.freed
    rw [hn]
    rfl
  have hnone : (s.ctx x).queues.any (fun e => e.2.current.isSome) = false := by
    rw [List.any_eq_false]
    intro e he
    rw [hidle e he]
    exact Bool.false_ne_true
  have hruns : ¬ ((s.ctx x).ending = 0 ∨ false = true) := not_or.mpr ⟨by omega, Bool.false_ne_true⟩
  rw [hfreed, hskip, hx]
  unfold State.endStep
  dsimp only
  have hctx : State.ctx { s with pendingFrees := [] } x = s.ctx x := rfl
  rw [hctx, hnone, hlive, if_neg hruns, List.foldl_nil,
    if_neg (by exact Bool.false_ne_true), if_neg (by omega)]
  rfl

/-- Settles O41. -/
theorem contextsAreCreatedLoadedAndEnded : Obligations.ContextsAreCreatedLoadedAndEnded := by
  unfold Obligations.ContextsAreCreatedLoadedAndEnded
  refine ⟨fun s rq x hs hmay hx hlt hbusy => ?_, fun s rq hmay hbusy => ?_, fun s x => ⟨fun hev hquiet => ?_, fun hno => ?_, ?_⟩⟩
  · have hruns := fun f => congrArg (Host.Outcome.next (φ := Fault) (ρ := Refusal)) (State.ctxCmd_runs hmay hx hlt hbusy f)
    refine ⟨fun b u hbytes => ⟨fun hbad => (hruns _).trans (congrArg Host.Outcome.next (State.ctxCreate_malformed hbytes hbad)),
        fun hok hundef hhome hfree hroom => ?_⟩,
      fun hx0 hdef hpart harg hslot => (hruns _).trans (congrArg Host.Outcome.next (State.ctxLoad_resident hs hx0 hdef hpart harg hslot)),
      fun hres hrec hqueues => ?_, fun hno => (hruns _).trans (congrArg Host.Outcome.next (if_pos hno)), fun hres hquiet => ?_, fun hlive => ?_,
      fun hdead => ?_, fun hstate hending => ⟨s.ctxDestroy x, hruns _, State.ctxDestroy_ctx hs hstate hending⟩⟩
    · have hu : u.Canon := by
        have hkeeps := s.ctxDescBytes_keeps.canon hs
        rwa [hbytes] at hkeeps
      have hctx := State.ctxDefine_ctx hu x (ctxDescOf b)
      have hobj : (u.ctxDefine x (ctxDescOf b)).obj x 1 = (ctxDescOf b).queueObj := by
        rw [State.obj, hctx x, if_pos rfl]
        exact NatMap.get_set_same _ _ fun h => Bool.false_ne_true (congrArg Obj.live h).symm
      refine ⟨u.ctxDefine x (ctxDescOf b), (hruns _).trans (congrArg Host.Outcome.next (State.ctxCreate_defines hbytes hok hundef hhome hfree hroom)),
        by rw [hctx x, if_pos rfl], by rw [hctx x, if_pos rfl], by rw [hobj]; rfl, by rw [hobj]; rfl, fun y hy => (hctx y).trans (if_neg hy)⟩
    · refine (hruns _).trans (congrArg Host.Outcome.next ((State.evict_resident hs hres).trans ?_))
      rw [Ctx.quiet_of_empty hrec hqueues]
      rfl
    · refine (hruns _).trans (congrArg Host.Outcome.next ((State.evict_resident hs hres).trans ?_))
      rw [hquiet]
      rfl
    · have hcanon : (s.ctxStatus x 0).Canon := (s.modCtx_keeps x _).canon hs
      obtain ⟨hstate, hslot, hothers⟩ := State.endCtx_ended hcanon x 1
      refine ⟨(s.ctxStatus x 0).endCtx x 1, (hruns _).trans ?_, hstate, hslot,
        fun y hy => (hothers y hy).trans ((State.ctx_modCtx hs x y _).trans (if_neg hy))⟩
      rw [hlive]
      rfl
    · refine (hruns _).trans ?_
      rw [hdead]
      rfl
  · have hrefused := fun f => congrArg (Host.Outcome.next (φ := Fault) (ρ := Refusal)) (State.ctxCmd_busy hmay hbusy f)
    exact ⟨hrefused _, hrefused _, hrefused _, hrefused _, hrefused _⟩
  · refine congrArg Host.Outcome.next (if_pos ?_)
    rw [hev, hquiet]
    rfl
  · refine congrArg Host.Outcome.next (if_neg fun h => ?_)
    obtain ⟨hev, hquiet⟩ := Bool.and_eq_true_iff.mp h
    exact hno.elim (fun h => Bool.false_ne_true (h.symm.trans hev)) fun h => Bool.false_ne_true (h.symm.trans hquiet)
  · exact fun f hending hidle hlive hf hx horigin hbusy =>
      congrArg Host.Outcome.next (State.freeComplete_ends hending hidle hlive hf hx horigin hbusy)

end Sys2Proof.Machine
/-! PROOFS. O42: the Sluice. -/
namespace Sys2Proof.Machine
open Sys2Proof

/-! ### Acceptance -/

/-- R302: what asking for acceptance changes is what verifying the key's slot changes. -/
theorem State.sluiceAccepts_snd (s : State) (k : Pkt) : (s.sluiceAccepts k).2 = s ∨ ∃ n, (s.sluiceAccepts k).2 = s.verifySlot n false := by
  unfold State.sluiceAccepts
  cases s.slotOf 2 with
  | none => exact .inl rfl
  | some n => exact .inr ⟨n, rfl⟩

theorem State.sluiceAccepts_rest (s : State) (k : Pkt) :
    { (s.sluiceAccepts k).2 with sec := s.sec, ras := s.ras, out := s.out, ports := s.ports } = s := by
  obtain h | ⟨n, h⟩ := s.sluiceAccepts_snd k
  · rw [h]
  · rw [h]
    exact s.verifySlot_rest n false

theorem State.verifySlot_portsSansDrops (s : State) (n : Nat) (disturbed : Bool) : (s.verifySlot n disturbed).portsSansDrops = s.portsSansDrops := by
  rw [State.verifySlot_eq]
  split
  · exact State.raise_portsSansDrops _ _
  · rfl

theorem State.sluiceAccepts_portsSansDrops (s : State) (k : Pkt) : (s.sluiceAccepts k).2.portsSansDrops = s.portsSansDrops := by
  obtain h | ⟨n, h⟩ := s.sluiceAccepts_snd k
  · rw [h]
  · rw [h]
    exact s.verifySlot_portsSansDrops n false

/-- A packet whose SEQ has been taken is not accepted. -/
theorem State.sluiceAccepts_stale {s : State} {j : Pkt} (h : j.seq < NatMap.get 0 s.eth.sluiceSeq j.sender) : (s.sluiceAccepts j).1 = false := by
  unfold State.sluiceAccepts
  simp only [decide_eq_false (Nat.not_le.mpr h), Bool.and_false, Bool.false_and]

theorem State.sluiceTake_seq (s : State) (k : Pkt) : NatMap.get 0 (s.sluiceTake k).eth.sluiceSeq k.sender = k.seq + 1 :=
  NatMap.get_set_same s.eth.sluiceSeq k.sender (Nat.succ_ne_zero k.seq)

/-! ### One packet of a kind -/

theorem State.onSluice_shut {s : State} {k : Pkt} (h : k.sluice = false ∨ s.sluiceOpen = false) (kind : Nat) (f : State → State) :
    s.onSluice k kind f = s := by
  refine if_neg fun hall => ?_
  obtain ⟨hopen, -⟩ := Bool.and_eq_true_iff.mp hall
  obtain ⟨hsluice, hopen⟩ := Bool.and_eq_true_iff.mp hopen
  exact h.elim (fun hno => Bool.false_ne_true (hno.symm.trans hsluice)) fun hno => Bool.false_ne_true (hno.symm.trans hopen)

section
variable {s u : State} {k : Pkt} {kind : Nat} (hsluice : k.sluice = true) (hopen : s.sluiceOpen = true) (hkind : field k.payload 0 1 = kind)
include hsluice hopen hkind

theorem State.onSluice_accepted (h : s.sluiceAccepts k = (true, u)) (f : State → State) : s.onSluice k kind f = f (u.sluiceTake k) := by
  unfold State.onSluice
  rw [hsluice, hopen, beq_iff_eq.mpr hkind, if_pos (show (true && true && true) = true from rfl), h]
  rfl

theorem State.onSluice_refused (h : s.sluiceAccepts k = (false, u)) (f : State → State) : s.onSluice k kind f = u.sluiceRefuse k := by
  unfold State.onSluice
  rw [hsluice, hopen, beq_iff_eq.mpr hkind, if_pos (show (true && true && true) = true from rfl), h]
  rfl

end

/-- R301: a packet that is refused is counted. -/
theorem State.sluiceRefuse_spec (s : State) (k : Pkt) :
    (s.sluiceRefuse k).eth = { s.eth with sluiceRefused := min (s.eth.sluiceRefused + 1) 0xFFFFFFFF } ∧ (s.sluiceRefuse k).parts = s.parts ∧
      (s.sluiceRefuse k).ctxs = s.ctxs := by
  unfold State.sluiceRefuse
  extract_lets u
  split
  · exact ⟨rfl, rfl, rfl⟩
  · exact ⟨State.raise_eth _ _, State.raise_parts _ _, State.raise_ctxs _ _⟩

/-! ### LEASE -/

/-- The lease of a partition is renewed. -/
def Part.leased (v : Part) (now : Nat) : Part := { v with gov := { v.gov with leaseExpiry := now + v.gov.tt.leaseMs * 1000000, lapsed := false } }

/-- A partition whose lease LEASE renews. -/
def Part.leasable (v : Part) : Prop := v.state = .armed ∨ v.state = .running ∨ v.state = .braked

theorem State.leaseRenew_now (s : State) (p : Nat) : (s.leaseRenew p).now = s.now := by
  unfold State.leaseRenew
  dsimp only
  split <;> rfl

theorem State.leaseRenew_part {s : State} (hs : s.Canon) (p q : Nat) :
    (s.leaseRenew p).part q = if q = p ∧ ((s.part q).state = .armed ∨ (s.part q).state = .running ∨ (s.part q).state = .braked) then
      (s.part q).leased s.now else s.part q := by
  unfold State.leaseRenew
  dsimp only
  by_cases hst : (s.part p).state = .armed ∨ (s.part p).state = .running ∨ (s.part p).state = .braked
  · rw [if_pos hst, State.part_modGov hs]
    by_cases hq : q = p
    · subst hq
      rw [if_pos rfl, if_pos ⟨rfl, hst⟩]
      rfl
    · rw [if_neg hq, if_neg fun h => hq h.1]
  · rw [if_neg hst, if_neg]
    rintro ⟨rfl, h⟩
    exact hst h

/-- The named partitions have their leases renewed. -/
theorem State.leaseRenews_part {s : State} (hs : s.Canon) {l : List Nat} (hl : l.Nodup) (q : Nat) :
    (l.foldl State.leaseRenew s).part q =
      if q ∈ l ∧ ((s.part q).state = .armed ∨ (s.part q).state = .running ∨ (s.part q).state = .braked) then (s.part q).leased s.now else s.part q := by
  induction l generalizing s with
  | nil => exact (if_neg fun h => List.not_mem_nil h.1).symm
  | cons p l ih =>
    obtain ⟨hp, hl⟩ := List.nodup_cons.mp hl
    rw [List.foldl_cons, ih ((s.leaseRenew_keeps p).canon hs) hl, State.leaseRenew_now, State.leaseRenew_part hs]
    by_cases hq : q = p
    · subst hq
      rw [if_neg fun h => hp h.1]
      simp only [List.mem_cons, true_or, true_and]
    · rw [if_neg (c := q = p ∧ _) fun h => hq h.1]
      simp only [List.mem_cons, hq, false_or]

theorem mem_bitsOf {n v i : Nat} : i ∈ bitsOf n v ↔ i < n ∧ bit v i = true := by rw [bitsOf, List.mem_filter, List.mem_range]

/-! ### QUARANTINE_PORT -/

theorem State.quarantinePort_quarantined {s : State} (hs : s.Canon) (k action j : Nat) :
    ((s.quarantinePort k action).port j).quarantined = if j = k then action == 0 else (s.port j).quarantined := by
  unfold State.quarantinePort
  split
  · next h =>
    rw [State.port_of_sansDrops (State.raise_portsSansDrops ..) Port.quarantined (fun _ => rfl), State.modPort, State.port_setPort _ hs.tab.ports,
      apply_ite Port.quarantined, h]
    rfl
  · next h =>
    rw [State.modPort, State.port_setPort _ hs.tab.ports, apply_ite Port.quarantined, beq_false_of_ne h]

/-- Settles O42. -/
theorem sluicePacketsActOnce : Obligations.SluicePacketsActOnce := by
  unfold Obligations.SluicePacketsActOnce
  refine ⟨fun s k h => ?_, fun s k u hs hsluice hopen => ⟨fun hrefused => ?_, fun haccepted => ?_⟩⟩
  · have hshut := fun kind f => congrArg (Host.Outcome.next (φ := Fault) (ρ := Refusal)) (State.onSluice_shut h kind f)
    refine ⟨congrArg Host.Outcome.next (if_neg fun hall => ?_), hshut 1 _, hshut 2 _, hshut 3 _, hshut 4 _, hshut 5 _⟩
    obtain ⟨hsluice, hopen⟩ := Bool.and_eq_true_iff.mp hall
    exact h.elim (fun hno => Bool.false_ne_true (hno.symm.trans hsluice)) fun hno => Bool.false_ne_true (hno.symm.trans hopen)
  · obtain ⟨heth, hparts, hctxs⟩ := u.sluiceRefuse_spec k
    refine ⟨u.sluiceRefuse k, congrArg Host.Outcome.next ?_, by rw [heth], by rw [heth], hparts, hctxs,
      fun hk => congrArg Host.Outcome.next (State.onSluice_refused hsluice hopen hk hrefused _),
      fun hk => congrArg Host.Outcome.next (State.onSluice_refused hsluice hopen hk hrefused _),
      fun hk => congrArg Host.Outcome.next (State.onSluice_refused hsluice hopen hk hrefused _),
      fun hk => congrArg Host.Outcome.next (State.onSluice_refused hsluice hopen hk hrefused _),
      fun hk => congrArg Host.Outcome.next (State.onSluice_refused hsluice hopen hk hrefused _)⟩
    rw [hsluice, hopen, if_pos (show (true && true) = true from rfl), hrefused]
    rfl
  · have hu : (s.sluiceAccepts k).2 = u := congrArg Prod.snd haccepted
    have hcanon : (u.sluiceTake k).Canon := (u.sluiceTake_keeps k).canon (hu ▸ (s.sluiceAccepts_keeps k).canon hs)
    have hnow : (u.sluiceTake k).now = s.mill.now := by
      rw [← hu]
      exact (congrArg (fun t : State => t.mill.now) (s.sluiceAccepts_rest k) :)
    refine ⟨fun j hsender hseq => State.sluiceAccepts_stale ?_, fun hk => congrArg Host.Outcome.next (State.onSluice_accepted hsluice hopen hk haccepted _),
      fun hk => ⟨_, congrArg Host.Outcome.next (State.onSluice_accepted hsluice hopen hk haccepted _), fun p hp => ?_⟩,
      fun hk => congrArg Host.Outcome.next (State.onSluice_accepted hsluice hopen hk haccepted _), fun hk hdead => ?_, fun hk hlive => ?_,
      fun hk => ⟨_, congrArg Host.Outcome.next (State.onSluice_accepted hsluice hopen hk haccepted _), ?_, fun j hj => ?_, fun haction => ?_⟩⟩
    · rw [hsender, State.sluiceTake_seq]
      exact Nat.lt_succ_of_le hseq
    · refine (State.leaseRenews_part hcanon (bitsOf_nodup 16 _) p).trans ?_
      rw [hnow]
      refine if_congr ?_ rfl rfl
      rw [mem_bitsOf, Bool.and_eq_true, decide_eq_true_iff]
      exact and_congr_left' (and_iff_right hp)
    · refine congrArg Host.Outcome.next ((State.onSluice_accepted hsluice hopen hk haccepted _).trans ?_)
      refine if_neg fun (h : (u.ctx _).state = .defined ∨ (u.ctx _).state = .resident) => ?_
      rw [State.ctxLive, Bool.or_eq_false_iff, beq_eq_false_iff_ne, beq_eq_false_iff_ne] at hdead
      exact h.elim hdead.1 hdead.2
    · refine congrArg Host.Outcome.next ((State.onSluice_accepted hsluice hopen hk haccepted _).trans ?_)
      rw [State.ctxLive, Bool.or_eq_true, beq_iff_eq, beq_iff_eq] at hlive
      refine (if_pos (show ((u.sluiceTake k).ctx _).state = .defined ∨ ((u.sluiceTake k).ctx _).state = .resident from hlive)).trans ?_
      rw [State.ctxFault, State.ctxPart, State.ctxFault, State.ctxPart, State.endCtx_desc hcanon]
    · exact (State.quarantinePort_quarantined hcanon _ _ _).trans (if_pos rfl)
    · refine (State.quarantinePort_quarantined hcanon _ _ j).trans ((if_neg hj).trans ?_)
      show (u.port j).quarantined = _
      rw [← hu]
      exact State.port_of_sansDrops (s.sluiceAccepts_portsSansDrops k) Port.quarantined (fun _ => rfl) j
    · rw [haction]
      rfl

end Sys2Proof.Machine

/-! PROOFS. O43: the setup of a session, from HELLO to DONE (R313, R316 to R319). -/
namespace Sys2Proof.Machine
open Sys2Proof

/-! ### A SETUP packet of session 0 -/

theorem State.onSetup_runs {s : State} {k : Pkt} {sub : Nat} (hdrops : s.portDrops k.port = false) (hok : k.setupOk = true) (hopen : s.netOpen = true)
    (hsub : k.sub = sub) (f : State → State) : s.onSetup k sub f = f s := by
  rw [State.onSetup, hok, hopen, hsub, beq_self_eq_true, hdrops]
  rfl

theorem State.onSetup_dropped {s : State} {k : Pkt} {sub : Nat} (hdrops : s.portDrops k.port = true) (hok : k.setupOk = true) (hopen : s.netOpen = true)
    (hsub : k.sub = sub) (f : State → State) : s.onSetup k sub f = s.countPortDrop k.port := by
  rw [State.onSetup, hok, hopen, hsub, beq_self_eq_true, hdrops]
  rfl

theorem State.onSetup_ignored {s : State} {k : Pkt} (h : s.netOpen = false ∨ k.setupOk = false) (sub : Nat) (f : State → State) :
    s.onSetup k sub f = s := by
  refine if_neg fun hall => ?_
  obtain ⟨⟨hok, hopen⟩, -⟩ := (Bool.and_eq_true_iff.trans (and_congr_left' Bool.and_eq_true_iff)).mp hall
  exact h.elim (fun h => Bool.false_ne_true (h.symm.trans hopen)) fun h => Bool.false_ne_true (h.symm.trans hok)

theorem Security.setup_setSetup (x : Security) (n : Nat) {v : Setup} (hv : v ≠ {}) : (x.setSetup n v).setup n = v := NatMap.get_set_same _ _ hv

/-- What is sent plainly changes, of the security die, only the count of what is sent so. -/
theorem State.sendPlain_sec (s : State) (k : Nat) (m : IhlakMsg) : (s.sendPlain k m).sec = { s.sec with plainSeq := s.sec.plainSeq + 1 } := by
  unfold State.sendPlain State.sendPacket
  split_ifs <;> rfl

theorem State.sendPlain_rest (s : State) (k : Nat) (m : IhlakMsg) : { s.sendPlain k m with sec := s.sec, out := s.out, ports := s.ports } = s := by
  unfold State.sendPlain State.sendPacket
  split_ifs <;> rfl

/-! ### HELLO -/

/-- The setup that an accepted HELLO starts. -/
def State.helloSetup (s : State) (p : Pkt) : Setup :=
  let b := p.body
  let role := field b 0 1
  let c := (s.charterOf (slice b 40 32)).getD 0
  { role := role, party := field b 1 1, port := p.port, macsec := field b 3 1, charter := c
    part := match role with
      | 1 => (s.sec.charter c).part
      | 3 => 0xFF
      | _ => field b 2 1
    charterDigest := if role = 1 ∨ role = 4 then slice b 40 32 else [], nonce := slice b 8 32, hello := b, since := s.now }

theorem State.helloCode_role {s : State} {p : Pkt} (h : s.helloCode p = 0) : 1 ≤ field p.body 0 1 := by
  have hok : helloOk p.body = true := by
    by_contra hbad
    rw [Bool.not_eq_true] at hbad
    simp only [State.helloCode, hbad, Bool.not_false, Bool.or_true, if_true] at h
    split at h <;> cases h
  rw [helloOk] at hok
  simp only [Bool.and_eq_true, decide_eq_true_eq] at hok
  omega

theorem State.hello_starts {s : State} {p : Pkt} (h : s.helloCode p = 0) :
    (s.hello p).sec.lastSession = s.sec.lastSession + 1 ∧ (s.hello p).sec.setup (s.hello p).sec.lastSession = s.helloSetup p ∧
      (s.hello p).sec.sessions = s.sec.sessions ∧ { s.hello p with sec := s.sec } = s := by
  have hstarts : s.hello p = s.modSec fun x =>
      { x.setSetup s.nextSession (s.helloSetup p) with
        lastSession := s.nextSession
        hellos := (if field p.body 0 1 = 4 then [] else [s.now]) ++ x.hellos.filter fun t => decide (s.now < t + 1000000000) } :=
    if_neg fun hne => hne h
  have hne : s.helloSetup p ≠ {} := fun heq => absurd (congrArg Setup.role heq) (Nat.ne_of_gt (State.helloCode_role h))
  rw [hstarts]
  exact ⟨rfl, NatMap.get_set_same _ _ hne, rfl, rfl⟩

/-! ### ATTEST -/

theorem State.attestSetup_runs {s : State} {n : Nat} (hn : n ∈ s.sec.setups.map (·.1)) (hphase : (s.sec.setup n).phase = .hello)
    (hkey : (s.sec.setup n).role = 4 ∨ (s.sec.attKey.isSome = true ∧ s.sec.attGen = false)) : s.attestSetup n = s.sendAttest n := by
  obtain ⟨e, he, rfl⟩ := List.mem_map.mp hn
  have hany : s.sec.setups.any (·.1 == e.1) = true := List.any_eq_true.mpr ⟨e, he, beq_self_eq_true e.1⟩
  refine if_pos ?_
  rw [hany, hphase]
  rcases hkey with hrole | ⟨hsome, hgen⟩
  · rw [hrole]; rfl
  · rw [hsome, hgen, Bool.not_false, Bool.and_true, Bool.or_true]; rfl

theorem Setup.attested_ne (e : Setup) (attest : List Byte) (kemDraw since : Nat) :
    ({ e with phase := .attested, attest := attest, kemDraw := kemDraw, since := since } : Setup) ≠ {} := fun h => nomatch congrArg Setup.phase h

/-- The state in which the device has drawn and signed for its ATTEST, and the setup has it. -/
def State.attestMade (r : State) (n : Nat) (e : Setup) (attest : List Byte) (kemDraw since : Nat) : State :=
  (r.modSec fun x => x.setSetup n { e with phase := .attested, attest := attest, kemDraw := kemDraw, since := since }).sendPlain e.port (.setup 2 0 attest)

/-- ATTEST takes two draws, and but for role 4 a signature of the attestation key. -/
theorem State.sendAttest_eq (s : State) (n : Nat) : ∃ attest r, s.sendAttest n = r.attestMade n (s.sec.setup n) attest s.draws s.now ∧
    ((s.sec.setup n).role = 4 → r = s.draw.draw) ∧
    ((s.sec.setup n).role ≠ 4 → ∃ m, r = (s.draw.draw.attSign (s.sec.attKey.getD 0) m).2) := by
  unfold State.sendAttest
  dsimp only
  by_cases hrole : (s.sec.setup n).role = 4
  · rw [if_pos hrole]
    exact ⟨_, _, rfl, fun _ => rfl, fun h => absurd hrole h⟩
  · rw [if_neg hrole]
    exact ⟨_, _, rfl, fun h => absurd h hrole, fun _ =>
      ⟨s.draw.draw.statement n (s.sec.setup n) s.draw.drawn (padTo 1568 (Config.kemPublic s.draws)) s.draw.draw.sec.attIndex, rfl⟩⟩

theorem State.attestMade_setup (r : State) (n : Nat) (e : Setup) (attest : List Byte) (kemDraw since : Nat) :
    (r.attestMade n e attest kemDraw since).sec.setup n = { e with phase := .attested, attest := attest, kemDraw := kemDraw, since := since } := by
  rw [State.attestMade, State.sendPlain_sec]
  exact NatMap.get_set_same _ _ (e.attested_ne attest kemDraw since)

theorem State.attestMade_key (r : State) (n : Nat) (e : Setup) (attest : List Byte) (kemDraw since : Nat) :
    (r.attestMade n e attest kemDraw since).sec.attIndex = r.sec.attIndex ∧ (r.attestMade n e attest kemDraw since).sec.attGen = r.sec.attGen := by
  rw [State.attestMade, State.sendPlain_sec]
  exact ⟨rfl, rfl⟩

theorem State.attestMade_rest (r : State) (n : Nat) (e : Setup) (attest : List Byte) (kemDraw since : Nat) :
    { r.attestMade n e attest kemDraw since with sec := r.sec, out := r.out, ports := r.ports } = r :=
  congrArg (fun t : State => ({ t with sec := r.sec } : State)) (State.sendPlain_rest ..)

theorem State.attSign_next {s : State} (h : s.sec.attIndex + 1 ≠ 65536) (d : Nat) (m : List Byte) :
    (s.attSign d m).2 = s.modSec fun x => { x with attIndex := s.sec.attIndex + 1 } := if_neg h

/-- The last signature of an attestation key starts the next one's generation. -/
theorem State.attSign_last {s : State} (h : s.sec.attIndex + 1 = 65536) (d : Nat) (m : List Byte) :
    (s.attSign d m).2 = (s.modSec fun x => { x with attIndex := s.sec.attIndex + 1 }).startAttKey := if_pos h

theorem State.startAttKey_gen (s : State) : s.startAttKey.sec.attGen = true := State.raise_sec _ _ Security.attGen fun _ _ _ => rfl

theorem State.startAttKey_draws (s : State) : s.startAttKey.draws = s.draws := State.raise_draws _ _

/-- ATTEST of role 4 signs nothing. -/
theorem State.sendAttest_unsigned {s : State} {n : Nat} (hrole : (s.sec.setup n).role = 4) :
    ∃ t : State, s.sendAttest n = t ∧ (t.sec.setup n).phase = .attested ∧ (t.sec.setup n).since = s.mill.now ∧
      t.sec.attIndex = s.sec.attIndex ∧ { t with sec := s.sec, draws := s.draws, out := s.out, ports := s.ports } = s := by
  obtain ⟨attest, r, hsends, hr, -⟩ := s.sendAttest_eq n
  have hr := hr hrole
  have hrest := r.attestMade_rest n (s.sec.setup n) attest s.draws s.now
  refine ⟨_, hsends, by rw [State.attestMade_setup], by rw [State.attestMade_setup]; rfl, (State.attestMade_key ..).1.trans (by rw [hr]; rfl), ?_⟩
  generalize r.attestMade n (s.sec.setup n) attest s.draws s.now = t at hrest
  subst hr
  exact congrArg (fun t : State => ({ t with draws := s.draws } : State)) hrest

/-- ATTEST of roles 1 to 3 takes the next index of the attestation key. -/
theorem State.sendAttest_signed {s : State} {n : Nat} (hrole : (s.sec.setup n).role ≠ 4) (hgen : s.sec.attGen = false) :
    ∃ t : State, s.sendAttest n = t ∧ (t.sec.setup n).phase = .attested ∧ (t.sec.setup n).since = s.mill.now ∧
      (t.sec.setup n).hello = (s.sec.setup n).hello ∧ t.draws = s.draws + 2 ∧
      (s.sec.attIndex + 1 = 65536 → t.sec.attGen = true) ∧
      (s.sec.attIndex + 1 ≠ 65536 → t.sec.attIndex = s.sec.attIndex + 1 ∧ t.sec.attGen = false ∧
        { t with sec := s.sec, draws := s.draws, out := s.out, ports := s.ports } = s) := by
  obtain ⟨attest, r, hsends, -, hr⟩ := s.sendAttest_eq n
  obtain ⟨m, hr⟩ := hr hrole
  have hrest := r.attestMade_rest n (s.sec.setup n) attest s.draws s.now
  obtain ⟨hindex, hattGen⟩ := r.attestMade_key n (s.sec.setup n) attest s.draws s.now
  have hsetup := r.attestMade_setup n (s.sec.setup n) attest s.draws s.now
  generalize r.attestMade n (s.sec.setup n) attest s.draws s.now = t at hsends hrest hindex hattGen hsetup
  refine ⟨t, hsends, by rw [hsetup], by rw [hsetup]; rfl, by rw [hsetup], ?_, fun hlast => ?_, fun hnext => ?_⟩
  · refine (congrArg State.draws hrest).trans ?_
    by_cases hlast : s.sec.attIndex + 1 = 65536
    · rw [hr, State.attSign_last (s := s.draw.draw) hlast, State.startAttKey_draws]; rfl
    · rw [hr, State.attSign_next (s := s.draw.draw) hlast]; rfl
  · rw [hattGen, hr, State.attSign_last (s := s.draw.draw) hlast, State.startAttKey_gen]
  · rw [State.attSign_next (s := s.draw.draw) hnext] at hr
    refine ⟨hindex.trans (by rw [hr]; rfl), hattGen.trans (by rw [hr]; exact hgen), ?_⟩
    have hdrawn : ∀ f, { s.draw.draw.modSec f with sec := s.sec, draws := s.draws } = s := fun f => by cases s; rfl
    refine Eq.trans ?_ (hdrawn fun x => { x with attIndex := s.sec.attIndex + 1 })
    rw [hr] at hrest
    exact congrArg (fun t : State => ({ t with sec := s.sec, draws := s.draws } : State)) hrest

/-! ### FINISH -/

/-- What FINISH takes for well formed (R317). -/
def Pkt.finishOk (p : Pkt) (e : Setup) : Bool :=
  p.headOk && decide (1576 ≤ p.body.length) && decide ((p.body.drop 1576).length = field p.body 4 2) && field p.body 6 2 == 0 &&
    !(e.role == 2 && field p.body 4 2 != 0)

/-- The charter that FINISH's setup names is still held. -/
def State.setupHeld (s : State) (e : Setup) : Bool := s.helloCharterOk e.hello && (e.role != 1 || s.charterHeld e)

/-- The session that a FINISH makes. -/
def Setup.session (e : Setup) (p : Pkt) (okm : List Byte) : Session :=
  { role := e.role, party := e.party, part := e.part, port := e.port, charter := e.charter, peerSession := field p.body 0 4
    keyOut := slice okm 0 32, keyIn := slice okm 32 32, kek := if e.role = 1 then slice okm 96 32 else [] }

/-- The setup once its FINISH has passed. -/
def Setup.finished (e : Setup) (okm th : List Byte) : Setup := { e with phase := .finished, confirm := confirmOf okm th }

theorem State.finishSetup_malformed {s : State} {n : Nat} {p : Pkt} (h : p.finishOk (s.sec.setup n) = false) :
    s.finishSetup n p = s.refuseFinish n 2 := by
  refine if_pos ?_
  by_contra hall
  simp only [not_or, Bool.not_eq_true', Bool.not_eq_false, not_and, not_not, not_lt] at hall
  obtain ⟨hhead, hlen, hauth, hzero, hrole⟩ := hall
  refine Bool.false_ne_true (h.symm.trans ?_)
  rw [Pkt.finishOk, hhead, decide_eq_true hlen, decide_eq_true hauth, hzero, beq_self_eq_true]
  by_cases hr : (s.sec.setup n).role = 2
  · rw [hrole hr, bne_self_eq_false, Bool.and_false]; rfl
  · rw [beq_false_of_ne hr]; rfl

theorem Pkt.finishOk_iff {p : Pkt} {e : Setup} (h : p.finishOk e = true) :
    ¬ (!p.headOk ∨ p.body.length < 1576 ∨ (p.body.drop 1576).length ≠ field p.body 4 2 ∨ field p.body 6 2 ≠ 0 ∨ (e.role = 2 ∧ field p.body 4 2 ≠ 0)) := by
  simp only [Pkt.finishOk, Bool.and_eq_true, decide_eq_true_eq, beq_iff_eq, Bool.not_eq_true', Bool.and_eq_false_iff, bne_eq_false_iff_eq,
    beq_eq_false_iff_ne] at h
  obtain ⟨⟨⟨⟨hhead, hlen⟩, hauth⟩, hzero⟩, hrole⟩ := h
  rintro (h | h | h | h | ⟨hr, h⟩)
  · rw [hhead] at h; exact Bool.false_ne_true h
  · exact Nat.not_lt.mpr hlen h
  · exact h hauth
  · exact h hzero
  · exact hrole.elim (fun hno => hno hr) h

theorem State.setupHeld_iff {s : State} {e : Setup} : ¬ (!s.helloCharterOk e.hello ∨ (e.role = 1 ∧ !s.charterHeld e)) ↔ s.setupHeld e = true := by
  rw [State.setupHeld, Bool.and_eq_true, Bool.or_eq_true, bne_iff_ne, not_or, not_and, Bool.not_eq_true', Bool.not_eq_false, Bool.not_eq_true',
    Bool.not_eq_false]
  exact and_congr_right' imp_iff_not_or

theorem State.finishSetup_unheld {s : State} {n : Nat} {p : Pkt} (hok : p.finishOk (s.sec.setup n) = true) (h : s.setupHeld (s.sec.setup n) = false) :
    s.finishSetup n p = s.refuseFinish n 3 :=
  (if_neg (Pkt.finishOk_iff hok)).trans (if_pos (by
    by_contra hall
    exact Bool.false_ne_true (h.symm.trans (State.setupHeld_iff.mp hall))))

/-- The transcript hash of a FINISH. -/
def Setup.th (e : Setup) (p : Pkt) : List Byte := transcript e.hello e.attest (p.body.take 1576)

/-- The key of a setup's role, and the state that has taken it from its slot. -/
def State.finishZ (s : State) (e : Setup) : Option (List Byte) × State := s.setupZ e.role e.part e.charterDigest

/-- The 160 bytes of session keys of a FINISH. -/
def Setup.okm (e : Setup) (p : Pkt) (z : Option (List Byte)) : List Byte :=
  sessionOkm (Config.kemDecap e.kemDraw (slice p.body 8 1568)) (e.th p) (z.getD [])

/-- The session and the finished setup as FINISH leaves them. -/
def Security.sessionMade (x : Security) (n : Nat) (e : Setup) (p : Pkt) (okm : List Byte) : Security :=
  (x.setSession n (e.session p okm)).setSetup n (e.finished okm (e.th p))

section
variable {s u : State} {n : Nat} {p : Pkt} {e : Setup} {z : Option (List Byte)} (he : s.sec.setup n = e) (hz : s.finishZ e = (z, u))
  (hok : p.finishOk e = true) (hheld : s.setupHeld e = true)
include he hz hok hheld

theorem State.finishSetup_keyed : s.finishSetup n p = if !u.authOk e z (e.th p) (p.body.drop 1576) then u.refuseFinish n 4
    else if u.sessionsFull then u.refuseFinish n 5
    else match e.role == 2 && e.macsec != 0, u.freeSlot with
      | true, none => u.refuseFinish n 9
      | _, slot =>
        let v := if e.role == 2 && e.macsec != 0 then u.installCak e.macsec (slot.getD 2) (slice (e.okm p z) 64 32) (e.th p) else u
        v.modSec fun x => x.sessionMade n e p (e.okm p z) := by
  have hz' : s.setupZ e.role e.part e.charterDigest = (z, u) := hz
  unfold State.finishSetup
  dsimp only
  rw [he, if_neg (Pkt.finishOk_iff hok), if_neg (State.setupHeld_iff.mpr hheld), hz']
  rfl

theorem State.finishSetup_unauthentic (hauth : u.authOk e z (e.th p) (p.body.drop 1576) = false) : s.finishSetup n p = u.refuseFinish n 4 := by
  rw [State.finishSetup_keyed he hz hok hheld, hauth]
  rfl

theorem State.finishSetup_full (hauth : u.authOk e z (e.th p) (p.body.drop 1576) = true) (hfull : u.sessionsFull = true) :
    s.finishSetup n p = u.refuseFinish n 5 := by
  rw [State.finishSetup_keyed he hz hok hheld, hauth, hfull]
  rfl

theorem State.finishSetup_slotless (hauth : u.authOk e z (e.th p) (p.body.drop 1576) = true) (hfull : u.sessionsFull = false)
    (hrole : e.role = 2) (hmacsec : e.macsec ≠ 0) (hslot : u.freeSlot = none) : s.finishSetup n p = u.refuseFinish n 9 := by
  rw [State.finishSetup_keyed he hz hok hheld, hauth, hfull, hslot, beq_iff_eq.mpr hrole, bne_iff_ne.mpr hmacsec]
  rfl

theorem State.finishSetup_plain (hauth : u.authOk e z (e.th p) (p.body.drop 1576) = true) (hfull : u.sessionsFull = false)
    (hplain : ¬ (e.role = 2 ∧ e.macsec ≠ 0)) : s.finishSetup n p = u.modSec fun x => x.sessionMade n e p (e.okm p z) := by
  have hwants : (e.role == 2 && e.macsec != 0) = false := by
    rw [Bool.and_eq_false_iff, beq_eq_false_iff_ne, bne_eq_false_iff_eq]
    exact (not_and_or.mp hplain).imp id not_not.mp
  rw [State.finishSetup_keyed he hz hok hheld, hauth, hfull, hwants]
  rfl

theorem State.finishSetup_macsec {m : Nat} (hauth : u.authOk e z (e.th p) (p.body.drop 1576) = true) (hfull : u.sessionsFull = false)
    (hrole : e.role = 2) (hmacsec : e.macsec ≠ 0) (hslot : u.freeSlot = some m) :
    s.finishSetup n p = (u.installCak e.macsec m (slice (e.okm p z) 64 32) (e.th p)).modSec fun x => x.sessionMade n e p (e.okm p z) := by
  rw [State.finishSetup_keyed he hz hok hheld, hauth, hfull, hslot, beq_iff_eq.mpr hrole, bne_iff_ne.mpr hmacsec]
  rfl

end

/-! ### The CAK of a role 2 setup -/

/-- The slot of a CAK. -/
def cakSlotOf (cak : List Byte) : KeySlot := { valid := true, key := cak, perm := 8, owner := 1, life := 1 }

theorem State.installCak_sec (s : State) (macsec slot : Nat) (cak th : List Byte) :
    (s.installCak macsec slot cak th).sec = s.sec.installed slot (cakSlotOf cak) := State.installKey_sec rfl slot

theorem State.installCak_port (s : State) (macsec slot : Nat) (cak th : List Byte) (j : Nat) : (s.installCak macsec slot cak th).port j =
    if j = macsec - 1 then { s.port (macsec - 1) with macsecEn := true, cakSlot := slot, setupCkn := th.take 16 } else s.port j := by
  have hports : (s.installKey slot (cakSlotOf cak)).ports = s.ports := (congrArg State.ports (s.installKey_rest slot (cakSlotOf cak)) :)
  have hport : ∀ i, (s.installKey slot (cakSlotOf cak)).port i = s.port i := fun i => congrArg (fun m => NatMap.get ({} : Port) m i) hports
  have hne : ({ (s.installKey slot (cakSlotOf cak)).port (macsec - 1) with macsecEn := true, cakSlot := slot, setupCkn := th.take 16 } : Port) ≠ {} :=
    fun h => Bool.false_ne_true (congrArg Port.macsecEn h).symm
  rw [← hport j, ← hport (macsec - 1)]
  split
  · next h =>
    subst h
    exact NatMap.get_set_same _ _ hne
  · next h => exact NatMap.get_set_ne _ hne h

theorem State.installCak_key (s : State) (macsec slot : Nat) (cak th : List Byte) : ((s.installCak macsec slot cak th).sec.slot slot).key = cak := by
  rw [State.installCak_sec, Security.installed, Security.slot_setSlot rfl, if_pos rfl]
  rfl

/-! ### The device as the role 4 peer -/

/-- The checks of an ATTEST that the device awaits. -/
def State.peerAttestOk (s : State) (hello : List Byte) (p : Pkt) : Bool :=
  helloOk hello && field hello 0 1 == 4 && s.helloCharterOk hello && p.headOk && p.body.length == 4856 && !s.sessionsFull

theorem State.peerAttestOk_iff {s : State} {hello : List Byte} {p : Pkt} : s.peerAttestOk hello p = true ↔
    ¬ (!helloOk hello ∨ field hello 0 1 ≠ 4 ∨ !s.helloCharterOk hello ∨ !p.headOk ∨ p.body.length ≠ 4856 ∨ s.sessionsFull) := by
  simp only [State.peerAttestOk, Bool.and_eq_true, beq_iff_eq, Bool.not_eq_true', not_or, Bool.not_eq_false, not_not, Bool.not_eq_true, and_assoc, ne_eq]

/-- The FINISH's head: the new SESSION, the length of its HMAC and the encapsulation. -/
def State.peerHead (s : State) (p : Pkt) : List Byte :=
  leBytes 4 (s.sec.lastSession + 1) ++ leBytes 2 32 ++ leBytes 2 0 ++ padTo 1568 (Config.kemEncap (slice p.body 0 1568) s.draws).1

/-- The session keys of the role 4 peer. -/
def State.peerOkm (s : State) (hello : List Byte) (p : Pkt) (z : List Byte) : List Byte :=
  sessionOkm (Config.kemEncap (slice p.body 0 1568) s.draws).2 (transcript hello p.body (s.peerHead p)) z

/-- The setup that the role 4 peer keeps until DONE. -/
def State.peerSetup (s : State) (hello : List Byte) (p : Pkt) (z : List Byte) : PeerSetup :=
  { part := field hello 2 1, port := p.port, charter := (s.boundCharter (field hello 2 1)).getD 0
    remoteSession := field p.body (1568 + 68 + 2980 + 12) 4, keyOut := slice (s.peerOkm hello p z) 32 32, keyIn := slice (s.peerOkm hello p z) 0 32
    confirm := confirmOf (s.peerOkm hello p z) (transcript hello p.body (s.peerHead p)) }

/-- The role 4 peer in the state before it sends FINISH. -/
def State.peerMade (s : State) (hello : List Byte) (p : Pkt) (z : List Byte) : State :=
  s.draw.modSec fun x => { x with lastSession := s.sec.lastSession + 1
                                  peerSetups := NatMap.set {} x.peerSetups (s.sec.lastSession + 1) (s.peerSetup hello p z) }

theorem State.boundCharter_draw (s : State) (q : Nat) : s.draw.boundCharter q = s.boundCharter q := rfl

theorem State.attestReceived_answers {s u : State} {hello : List Byte} {p : Pkt} {z : List Byte} (hok : s.peerAttestOk hello p = true)
    (hz : s.setupZ 4 (field hello 2 1) (slice hello 40 32) = (some z, u)) :
    ∃ auth, s.attestReceived hello p = (u.peerMade hello p z).sendPlain p.port (.setup 3 0 (u.peerHead p ++ auth)) := by
  unfold State.attestReceived
  dsimp only
  rw [if_neg (State.peerAttestOk_iff.mp hok), hz]
  exact ⟨hmacShake z (ascii "NSA1" ++ transcript hello p.body (u.peerHead p)), rfl⟩

theorem State.peerMade_rest (s : State) (hello : List Byte) (p : Pkt) (z : List Byte) :
    (s.peerMade hello p z).sec = { s.sec with lastSession := s.sec.lastSession + 1
                                              peerSetups := NatMap.set {} s.sec.peerSetups (s.sec.lastSession + 1) (s.peerSetup hello p z) } ∧
      { s.peerMade hello p z with sec := s.sec, draws := s.draws } = s ∧ (s.peerMade hello p z).draws = s.draws + 1 := ⟨rfl, rfl, rfl⟩

theorem State.attestReceived_keyed {s u : State} {hello : List Byte} {p : Pkt} {z : List Byte} (hok : s.peerAttestOk hello p = true)
    (hz : s.setupZ 4 (field hello 2 1) (slice hello 40 32) = (some z, u)) :
    (s.attestReceived hello p).sec.lastSession = u.sec.lastSession + 1 ∧ (s.attestReceived hello p).draws = u.draws + 1 ∧
      (s.attestReceived hello p).sec.peerSetups = NatMap.set {} u.sec.peerSetups (u.sec.lastSession + 1) (u.peerSetup hello p z) ∧
      (s.attestReceived hello p).sec.sessions = u.sec.sessions ∧
      { s.attestReceived hello p with sec := u.sec, out := u.out, ports := u.ports, draws := u.draws } = u := by
  obtain ⟨auth, hanswer⟩ := State.attestReceived_answers hok hz
  obtain ⟨hsec, hrest, hdraws⟩ := u.peerMade_rest hello p z
  rw [hanswer]
  generalize u.peerMade hello p z = v at hsec hrest hdraws
  have hsent := v.sendPlain_sec p.port (.setup 3 0 (u.peerHead p ++ auth))
  have hkept := v.sendPlain_rest p.port (.setup 3 0 (u.peerHead p ++ auth))
  generalize v.sendPlain p.port (.setup 3 0 (u.peerHead p ++ auth)) = t at hsent hkept
  rw [hsent, hsec]
  refine ⟨rfl, (congrArg State.draws hkept :).trans hdraws, rfl, rfl, ?_⟩
  have hout : v.out = u.out := (congrArg State.out hrest :)
  have hports : v.ports = u.ports := (congrArg State.ports hrest :)
  rw [hout, hports] at hkept
  exact (congrArg (fun w : State => ({ w with sec := u.sec, draws := u.draws } : State)) hkept).trans hrest

/-! ### Settling -/

theorem State.finish_unknown {s : State} {n : Nat} (hn : n ∉ s.sec.setups.map (·.1)) (p : Pkt) : s.finish n p = s.refuseSetup p.port 7 := by
  have hany : s.sec.setups.any (·.1 == n) = false := by
    rw [List.any_eq_false]
    exact fun e he heq => hn (List.mem_map.mpr ⟨e, he, beq_iff_eq.mp heq⟩)
  exact if_pos (by rw [hany]; rfl)

theorem State.finish_known {s : State} {n : Nat} (hn : n ∈ s.sec.setups.map (·.1)) (p : Pkt) : s.finish n p =
    if (s.sec.setup n).phase = .attested then (if (s.sec.setup n).since + 1000000000 < s.now then s.refuseFinish n 7 else s.finishSetup n p) else s := by
  obtain ⟨e, he, rfl⟩ := List.mem_map.mp hn
  have hany : s.sec.setups.any (·.1 == e.1) = true := List.any_eq_true.mpr ⟨e, he, beq_self_eq_true e.1⟩
  unfold State.finish
  dsimp only
  rw [hany, Bool.not_true, if_neg Bool.false_ne_true]
  split
  · next hphase => rw [if_pos hphase]
  · next hphase => rw [if_neg hphase]

/-- Settles O43. -/
theorem setupsRunFromHelloToDone : Obligations.SetupsRunFromHelloToDone := by
  unfold Obligations.SetupsRunFromHelloToDone
  refine ⟨fun s k => ⟨fun h => ?_, fun hopen hok hdrops => ?_⟩, fun s k hdrops hok hopen => ⟨fun hsub hcode => ?_, fun hsub hcode => ?_, fun n hsub =>
    ⟨fun hn => ?_, fun hn hphase => ?_, fun hn hphase => ?_⟩, fun hello hsub => ⟨fun hbad => ?_, fun hgood hz => ?_, fun key hgood hz => ?_⟩⟩,
    fun s n hn => ⟨fun hphase hrole hkey hgen => ?_, fun hphase hrole => ?_, fun hphase => ?_, fun hphase hlate => ?_, fun hphase htime => ?_⟩⟩
  · have hignored := fun sub f => congrArg (Host.Outcome.next (φ := Fault) (ρ := Refusal)) (State.onSetup_ignored h sub f)
    exact ⟨hignored 1 _, fun n => hignored 3 _, fun h => hignored 2 _⟩
  · exact ⟨fun hsub => congrArg Host.Outcome.next (State.onSetup_dropped hdrops hok hopen hsub _),
      fun n hsub => congrArg Host.Outcome.next (State.onSetup_dropped hdrops hok hopen hsub _),
      fun h hsub => congrArg Host.Outcome.next (State.onSetup_dropped hdrops hok hopen hsub _)⟩
  · exact congrArg Host.Outcome.next ((State.onSetup_runs hdrops hok hopen hsub _).trans (if_pos hcode))
  · obtain ⟨hlast, hsetup, hsessions, hrest⟩ := State.hello_starts hcode
    refine ⟨s.hello k, congrArg Host.Outcome.next (State.onSetup_runs hdrops hok hopen hsub _), hlast, ?_⟩
    rw [hsetup]
    exact ⟨rfl, rfl, rfl, rfl, rfl, hsessions, hrest⟩
  · exact congrArg Host.Outcome.next ((State.onSetup_runs hdrops hok hopen hsub _).trans (State.finish_unknown hn k))
  · exact congrArg Host.Outcome.next ((State.onSetup_runs hdrops hok hopen hsub _).trans ((State.finish_known hn k).trans (if_neg hphase)))
  · intro refused e auth wellFormed held z th okm
    have hruns := (State.onSetup_runs hdrops hok hopen hsub fun t => t.finish n k).trans ((State.finish_known hn k).trans (if_pos hphase))
    refine ⟨fun hlate => congrArg Host.Outcome.next (hruns.trans (if_pos hlate)), fun hintime => ?_⟩
    have hruns := fun t (ht : s.finishSetup n k = t) => congrArg (Host.Outcome.next (φ := Fault) (ρ := Refusal))
      (hruns.trans ((if_neg (Nat.not_lt.mpr hintime)).trans ht))
    refine ⟨fun hbad => hruns _ (State.finishSetup_malformed hbad), fun hwell hlost => hruns _ (State.finishSetup_unheld hwell hlost),
      fun hwell hheld hauth => hruns _ (State.finishSetup_unauthentic rfl rfl hwell hheld hauth),
      fun hwell hheld hauth hfull => hruns _ (State.finishSetup_full rfl rfl hwell hheld hauth hfull),
      fun hwell hheld hauth hfull hrole hmacsec hslot => hruns _ (State.finishSetup_slotless rfl rfl hwell hheld hauth hfull hrole hmacsec hslot),
      fun hwell hheld hauth hfull hslot => ⟨fun hplain => hruns _ (State.finishSetup_plain rfl rfl hwell hheld hauth hfull hplain),
        fun hrole hmacsec => ?_⟩⟩
    obtain ⟨m, hm⟩ := Option.ne_none_iff_exists'.mp (hslot hrole hmacsec)
    have hport := z.2.installCak_port e.macsec m (slice okm 64 32) th
    have hport' : (z.2.installCak e.macsec m (slice okm 64 32) th).port (e.macsec - 1) = _ := (hport _).trans (if_pos rfl)
    have hkey := z.2.installCak_key e.macsec m (slice okm 64 32) th
    have hsec := z.2.installCak_sec e.macsec m (slice okm 64 32) th
    refine ⟨_, hruns _ (State.finishSetup_macsec rfl rfl hwell hheld hauth hfull hrole hmacsec hm), ?_, ?_, ?_, ?_, ?_, fun j hj => (hport j).trans (if_neg hj)⟩
    · exact congrArg (fun x : Security => NatMap.set {} x.sessions n (e.session k okm)) hsec
    · exact congrArg (fun x : Security => NatMap.set {} x.setups n (e.finished okm th)) hsec
    · exact congrArg Port.macsecEn hport'
    · exact (congrArg (fun x : Port => some x.cakSlot) hport').trans hm.symm
    · exact (congrArg (fun x : Port => ((z.2.installCak e.macsec m (slice okm 64 32) th).sec.slot x.cakSlot).key) hport').trans hkey
  · refine congrArg Host.Outcome.next ((State.onSetup_runs hdrops hok hopen hsub _).trans (if_pos ?_))
    by_contra hall
    exact Bool.false_ne_true (hbad.symm.trans (State.peerAttestOk_iff.mpr hall))
  · refine congrArg Host.Outcome.next ((State.onSetup_runs hdrops hok hopen hsub _).trans ((if_neg (State.peerAttestOk_iff.mp hgood)).trans ?_))
    rw [hz]
  · refine ⟨s.attestReceived hello k, congrArg Host.Outcome.next (State.onSetup_runs hdrops hok hopen hsub _), ?_⟩
    obtain ⟨hlast, hdraws, hpeers, hsessions, hrest⟩ := State.attestReceived_keyed hgood (Prod.ext hz rfl)
    exact ⟨hlast, hdraws, by rw [hlast]; exact hpeers, hsessions, hrest⟩
  · obtain ⟨t, hsends, hfacts⟩ := State.sendAttest_signed hrole hgen
    exact ⟨t, congrArg Host.Outcome.next ((State.attestSetup_runs hn hphase (.inr ⟨hkey, hgen⟩)).trans hsends), hfacts⟩
  · obtain ⟨t, hsends, hfacts⟩ := State.sendAttest_unsigned hrole
    exact ⟨t, congrArg Host.Outcome.next ((State.attestSetup_runs hn hphase (.inl hrole)).trans hsends), hfacts⟩
  · exact congrArg Host.Outcome.next (if_pos hphase)
  · exact congrArg Host.Outcome.next (if_pos ⟨hphase, hlate⟩)
  · exact congrArg Host.Outcome.next (if_neg fun h => Nat.not_le.mpr htime h.2)

end Sys2Proof.Machine

/-! PROOFS. A sealed packet opens to what was sealed (R275, R277), and O44: the sealed SETUP messages of a session. -/
namespace Sys2Proof.Machine
open Sys2Proof

/-! ### Bytes in network order -/

@[simp] theorem length_beBytes (n v : Nat) : (beBytes n v).length = n := by rw [beBytes, List.length_reverse, length_leBytes]

theorem beNat_reverse (l : List Byte) : beNat l.reverse = ofLe l := by
  rw [beNat, List.foldl_reverse]
  induction l with
  | nil => rfl
  | cons b l ih =>
    rw [List.foldr_cons, ih, ofLe]
    omega

theorem beNat_beBytes {n v : Nat} (h : v < 256 ^ n) : beNat (beBytes n v) = v := by
  rw [beBytes, beNat_reverse, ofLe_leBytes, Nat.mod_eq_of_lt h]

theorem slice_append_skip {a b : List Byte} {o n : Nat} (h : a.length ≤ o) : slice (a ++ b) o n = slice b (o - a.length) n := by
  rw [slice, slice, List.drop_append, List.drop_eq_nil_of_le h, List.nil_append]

theorem slice_append_head {a : List Byte} (b : List Byte) {n : Nat} (h : a.length = n) : slice (a ++ b) 0 n = a := by
  rw [slice, List.drop_zero, List.take_append_of_le_length (Nat.le_of_eq h.symm), List.take_of_length_le (Nat.le_of_eq h)]

@[simp] theorem PktHead.length_bytes (h : PktHead) : h.bytes.length = 24 := by
  simp only [PktHead.bytes, List.length_append, length_beBytes]

/-- The header of a datagram reads back where each field fits its bytes. -/
theorem pktHeadOf_bytes {h : PktHead} (hversion : h.version < 256) (htype : h.type < 256) (hflags : h.flags < 256) (hpart : h.part < 256)
    (hsession : h.session < 2 ^ 32) (hsender : h.sender < 2 ^ 32) (hlength : h.length < 2 ^ 16) (hreserved : h.reserved < 2 ^ 16)
    (hseq : h.seq < 2 ^ 64) (rest : List Byte) : pktHeadOf (h.bytes ++ rest) = h := by
  have hread : ∀ (n v : Nat) (l : List Byte), v < 256 ^ n → beNat (slice (beBytes n v ++ l) 0 n) = v := fun n v l hv => by
    rw [slice_append_head l (length_beBytes n v), beNat_beBytes hv]
  unfold pktHeadOf
  simp only [PktHead.bytes, List.append_assoc]
  simp (disch := simp) only [slice_append_skip, length_beBytes, Nat.reduceSub]
  rw [hread 1 _ _ (by omega), hread 1 _ _ (by omega), hread 1 _ _ (by omega), hread 1 _ _ (by omega), hread 4 _ _ (by omega), hread 4 _ _ (by omega),
    hread 2 _ _ (by omega), hread 2 _ _ (by omega), hread 8 _ _ (by omega)]

/-! ### AES-256-GCM opens what it sealed -/

theorem length_padTo (n : Nat) (l : List Byte) : (padTo n l).length = n := by
  rw [padTo, List.length_take, List.length_append, List.length_replicate]
  omega

theorem length_xorBytes (a b : List Byte) : (xorBytes a b).length = min a.length b.length := List.length_zipWith

theorem xorBytes_xorBytes {m k : List Byte} (h : m.length ≤ k.length) : xorBytes (xorBytes m k) k = m := by
  induction m generalizing k with
  | nil => rfl
  | cons b m ih =>
    cases k with
    | nil => cases h
    | cons c k =>
      rw [xorBytes, xorBytes, List.zipWith_cons_cons, List.zipWith_cons_cons, BitVec.xor_assoc, BitVec.xor_self, BitVec.xor_zero]
      exact congrArg (b :: ·) (ih (Nat.le_of_succ_le_succ h))

/-- The key schedule keeps its words at four bytes and makes one for each step. -/
theorem aesKeyWords_spec (n : Nat) : ∀ (i : Nat) (rcon : Byte) (rev : List (List Byte)), 8 ≤ rev.length → (∀ w ∈ rev, w.length = 4) →
    (aesKeyWords n i rcon rev).length = n + rev.length ∧ ∀ w ∈ aesKeyWords n i rcon rev, w.length = 4 := by
  induction n with
  | zero =>
    intro i rcon rev _ hw
    exact ⟨by rw [aesKeyWords, List.length_reverse, Nat.zero_add], fun w h => hw w (List.mem_reverse.mp h)⟩
  | succ n ih =>
    intro i rcon rev hlen hw
    have hget : ∀ j, j < 8 → (rev.getD j []).length = 4 := fun j hj => by
      have hj : j < rev.length := Nat.lt_of_lt_of_le hj hlen
      rw [List.getD_eq_getElem _ _ hj]
      exact hw _ (List.getElem_mem hj)
    have hprev := hget 0 (by decide)
    rw [aesKeyWords]
    refine (ih _ _ _ ?_ ?_).imp (fun h => h.trans (by rw [List.length_cons]; omega)) id
    · rw [List.length_cons]
      omega
    intro w hmem
    rcases List.mem_cons.mp hmem with rfl | hmem
    · rw [length_xorBytes, hget 7 (by decide)]
      refine (congrArg (min 4) ?_).trans (Nat.min_self 4)
      split
      · split
        · next hnil =>
          have := congrArg List.length hnil
          simp only [List.length_map, List.length_append, List.length_drop, List.length_take, hprev, List.length_nil] at this
          omega
        · next a l hcons =>
          have := congrArg List.length hcons
          simp only [List.length_map, List.length_append, List.length_drop, List.length_take, hprev, List.length_cons] at this
          rw [List.length_cons]
          omega
      · split
        · rw [List.length_map, hprev]
        · exact hprev
    · exact hw w hmem

theorem length_flatten_words {l : List (List Byte)} {n : Nat} (h : ∀ w ∈ l, w.length = n) : l.flatten.length = l.length * n := by
  induction l with
  | nil => exact (Nat.zero_mul n).symm
  | cons w l ih =>
    rw [List.flatten_cons, List.length_append, h w (List.mem_cons_self ..), ih fun v hv => h v (List.mem_cons_of_mem _ hv), List.length_cons,
      Nat.succ_mul, Nat.add_comm]

/-- The sixty words of the key schedule. -/
def aesSchedule (key : List Byte) : List (List Byte) := aesKeyWords 52 8 1 ((List.range 8).map fun i => slice (padTo 32 key) (4 * i) 4).reverse

/-- One round key: four words of the schedule. -/
def aesRoundKey (key : List Byte) (r : Nat) : List Byte := ((List.range 4).map fun j => (aesSchedule key).getD (4 * r + j) []).flatten

theorem aesRoundKeys_eq (key : List Byte) : aesRoundKeys key = (List.range 15).map (aesRoundKey key) := rfl

theorem length_aesRoundKey (key : List Byte) {r : Nat} (hr : r < 15) : ((aesRoundKeys key).getD r []).length = 16 := by
  obtain ⟨hlen, hword⟩ := aesKeyWords_spec 52 8 1 ((List.range 8).map fun i => slice (padTo 32 key) (4 * i) 4).reverse
    (by rw [List.length_reverse, List.length_map, List.length_range]) (fun w hw => by
      obtain ⟨i, hi, rfl⟩ := List.mem_map.mp (List.mem_reverse.mp hw)
      rw [slice, List.length_take, List.length_drop, length_padTo]
      have := List.mem_range.mp hi
      omega)
  rw [List.length_reverse, List.length_map, List.length_range] at hlen
  rw [aesRoundKeys_eq, List.getD_eq_getElem _ _ (by rw [List.length_map, List.length_range]; exact hr), List.getElem_map, List.getElem_range,
    aesRoundKey, length_flatten_words (n := 4), List.length_map, List.length_range]
  intro w hw
  obtain ⟨j, hj, rfl⟩ := List.mem_map.mp hw
  have hj := List.mem_range.mp hj
  rw [aesSchedule, List.getD_eq_getElem _ _ (by rw [hlen]; omega)]
  exact hword _ (List.getElem_mem _)

theorem length_aesBlock (key pt : List Byte) : (aesBlock (aesRoundKeys key) pt).length = 16 := by
  rw [aesBlock, length_xorBytes, length_aesRoundKey key (by decide), aesShiftRows, List.length_map, List.length_range, Nat.min_self]

theorem length_gcmTag (key iv aad ct : List Byte) : (gcmTag (aesRoundKeys key) iv aad ct).length = 16 := by
  rw [gcmTag, length_xorBytes, length_aesBlock, length_beBytes, Nat.min_self]

/-- The key stream of CTR mode for a text of `n` bytes. -/
def gcmStream (rk : List (List Byte)) (iv : List Byte) (ctr n : Nat) : List Byte :=
  ((List.range ((n + 15) / 16)).map fun i => aesBlock rk (iv ++ beBytes 4 (ctr + i))).flatten

theorem length_gcmStream (key iv : List Byte) (ctr n : Nat) : n ≤ (gcmStream (aesRoundKeys key) iv ctr n).length := by
  rw [gcmStream, length_flatten_words (n := 16), List.length_map, List.length_range]
  · omega
  · intro w hw
    obtain ⟨i, -, rfl⟩ := List.mem_map.mp hw
    exact length_aesBlock ..

theorem gcmCtr_eq (rk : List (List Byte)) (iv : List Byte) (ctr : Nat) (m : List Byte) : gcmCtr rk iv ctr m = xorBytes m (gcmStream rk iv ctr m.length) := rfl

theorem length_gcmCtr (key iv : List Byte) (ctr : Nat) (m : List Byte) : (gcmCtr (aesRoundKeys key) iv ctr m).length = m.length := by
  rw [gcmCtr_eq, length_xorBytes, Nat.min_eq_left (length_gcmStream ..)]

theorem gcmCtr_gcmCtr (key iv : List Byte) (ctr : Nat) (m : List Byte) :
    gcmCtr (aesRoundKeys key) iv ctr (gcmCtr (aesRoundKeys key) iv ctr m) = m := by
  rw [gcmCtr_eq, length_gcmCtr, gcmCtr_eq, xorBytes_xorBytes (length_gcmStream ..)]

theorem gcmOpen_gcmSeal (key iv aad pt : List Byte) : gcmOpen key iv aad (gcmSeal key iv aad pt).1 (gcmSeal key iv aad pt).2 = some pt := by
  unfold gcmOpen gcmSeal
  dsimp only
  rw [if_pos rfl, gcmCtr_gcmCtr]

/-- A receiver with the key opens a packet to its header and payload. -/
theorem openPacket_sealPacket (key payload : List Byte) {h : PktHead} (port prio : Nat) (hhead : ∀ rest, pktHeadOf (h.bytes ++ rest) = h) :
    openPacket key port prio (sealPacket key h payload) =
      { port := port, version := h.version, type := h.type, flags := h.flags, part := h.part, session := h.session, sender := h.sender
        length := h.length, reserved := h.reserved, seq := h.seq, payload := payload, tagOk := true, prio := prio } := by
  have hopen := gcmOpen_gcmSeal key h.nonce h.bytes payload
  have hct : (gcmSeal key h.nonce h.bytes payload).1.length = payload.length := length_gcmCtr ..
  have htag : (gcmSeal key h.nonce h.bytes payload).2.length = 16 := length_gcmTag ..
  generalize hc : gcmSeal key h.nonce h.bytes payload = c at hopen hct htag
  have hseal : sealPacket key h payload = h.bytes ++ (c.1 ++ c.2) := by
    rw [← hc]
    exact List.append_assoc ..
  have hlen : (h.bytes ++ (c.1 ++ c.2)).length - 40 = payload.length := by
    rw [List.length_append, List.length_append, h.length_bytes, hct, htag]
    omega
  have haad : (h.bytes ++ (c.1 ++ c.2)).take 24 = h.bytes := by
    rw [List.take_append_of_le_length (Nat.le_of_eq h.length_bytes.symm), List.take_of_length_le (Nat.le_of_eq h.length_bytes)]
  have htext : slice (h.bytes ++ (c.1 ++ c.2)) 24 payload.length = c.1 := by
    rw [slice_append_skip (Nat.le_of_eq h.length_bytes), h.length_bytes]
    exact slice_append_head _ hct
  have hseal16 : slice (h.bytes ++ (c.1 ++ c.2)) (24 + payload.length) 16 = c.2 := by
    rw [slice_append_skip (by rw [h.length_bytes]; omega), h.length_bytes, slice_append_skip (by rw [hct]; omega), hct, Nat.add_sub_cancel_left,
      Nat.sub_self, slice, List.drop_zero, List.take_of_length_le (Nat.le_of_eq htag)]
  unfold openPacket
  dsimp only
  rw [hseal, hhead, hlen, haad, htext, hseal16, hopen]
  rfl

/-! ### Sealed SETUP messages -/

theorem State.onSealed_takes {s u : State} {k : Pkt} {sub : Nat} {taken : Bool} (hsession : k.session ≠ 0) (htype : k.type = 0x30) (hsub : k.sub = sub)
    (hlive : s.awaitsDone k = false) (htake : s.takePkt k = (taken, u)) (f : State → State) : s.onSealed k sub f = if taken then f u else u := by
  unfold State.onSealed State.onPkt
  dsimp only
  rw [if_pos ⟨hsession, hsub, by rw [hlive]; rfl⟩, if_pos htype, htake]

/-- The code that an APPROVE is acknowledged with. -/
def Release.approveCode (r : Release) (rule : CharterRule) (party : Nat) (p : Pkt) : Nat :=
  if !p.headOk ∨ p.body.length ≠ 32 then 2
  else if r.state ≠ .waiting ∨ p.body ≠ r.digest then 11
  else if !bit rule.approvers party then 10
  else 0

/-- The rule that a charter slot's release was asked under. -/
def CharterSlot.approveRule (c : CharterSlot) : CharterRule :=
  c.charter.rules.getD c.release.rule { source := 0, k := 0, approvers := 0, recipients := 0, tensorLo := 0, tensorHi := 0 }

/-- The state in which a session's party has approved its charter slot's release. -/
def State.approvedBy (s : State) (n : Session) : State :=
  let c := s.sec.charter n.charter
  s.modSec fun x => x.setCharter n.charter { c with release := { c.release with approved := c.release.approved ||| 2 ^ n.party } }

theorem State.approve_acks {s : State} {p : Pkt} {n : Session} (hn : s.sec.session p.session = n) {code : Nat}
    (hcode : (s.sec.charter n.charter).release.approveCode (s.sec.charter n.charter).approveRule n.party p = code) :
    s.approve p = (if code = 0 then s.approvedBy n else s).ack p.session code (slice p.body 0 4) := by
  subst hn hcode
  rfl

section
variable {r : Release} {rule : CharterRule} {party : Nat} {p : Pkt}

theorem Release.approveCode_malformed (h : p.headOk = false ∨ p.body.length ≠ 32) : r.approveCode rule party p = 2 := by
  refine if_pos (h.imp_left fun h => ?_)
  rw [h]
  rfl

variable (hhead : p.headOk = true) (hlen : p.body.length = 32)
include hhead hlen

theorem Release.approveCode_formed : r.approveCode rule party p =
    if r.state ≠ .waiting ∨ p.body ≠ r.digest then 11 else if !bit rule.approvers party then 10 else 0 := by
  refine if_neg ?_
  rw [hhead, hlen]
  rintro (h | h)
  · exact Bool.false_ne_true h
  · exact h rfl

theorem Release.approveCode_other (h : r.state ≠ .waiting ∨ p.body ≠ r.digest) : r.approveCode rule party p = 11 :=
  (Release.approveCode_formed hhead hlen).trans (if_pos h)

theorem Release.approveCode_waiting (hstate : r.state = .waiting) (hdigest : p.body = r.digest) {b : Bool}
    (hparty : bit rule.approvers party = b) : r.approveCode rule party p = if b then 0 else 10 := by
  refine ((Release.approveCode_formed hhead hlen).trans (if_neg fun h => h.elim (fun h => h hstate) fun h => h hdigest)).trans ?_
  rw [hparty]
  cases b <;> rfl

end

/-! ### DONE to the role 4 peer -/

/-- The session that a DONE makes of a peer's setup. -/
def PeerSetup.session (e : PeerSetup) (port : Nat) : Session :=
  { role := 4, part := e.part, port := port, charter := e.charter, peerSession := e.remoteSession, peerSender := 0
    keyOut := e.keyOut, keyIn := e.keyIn }

theorem State.doneReceived_awaited {s : State} {k : Pkt} (hawaits : s.awaitsDone k = true) (hhears : s.hears k = true) (hsub : k.sub = 4)
    (hsender : k.sender = 0) (hheader : k.headerOk = true) {e : PeerSetup} (he : NatMap.get {} s.sec.peerSetups k.session = e) :
    s.doneReceived k = if s.portDrops k.port then s.countPortDrop k.port else
      let x : Security := { s.sec with peerSetups := NatMap.set {} s.sec.peerSetups k.session {} }
      if k.headOk && k.body == e.confirm && k.part == e.part then { s with sec := x.setSession k.session ((e.session k.port).take k.seq) }
      else { s with sec := x } := by
  subst he
  refine if_pos ?_
  rw [hawaits, hhears, hsub, hsender, hheader]
  rfl

/-- Settles O44. -/
theorem sessionsCarryKeysAndApprovals : Obligations.SessionsCarryKeysAndApprovals := by
  unfold Obligations.SessionsCarryKeysAndApprovals
  refine ⟨fun s k u hsession htype => ⟨fun hlive htake => ?_, fun hlive htake => ?_, fun hawaits hsub hsender hheader hhears => ?_⟩,
    fun key payload h port prio hversion htype hflags hpart hsession hsender hlength hreserved hseq => openPacket_sealPacket key payload port prio
      (pktHeadOf_bytes hversion htype hflags hpart hsession hsender hlength hreserved hseq)⟩
  · have hdrops := fun {sub : Nat} (hsub : k.sub = sub) f =>
      congrArg (Host.Outcome.next (φ := Fault) (ρ := Refusal)) (State.onSealed_takes hsession htype hsub hlive htake f)
    exact ⟨fun hsub => hdrops hsub _, fun hsub => hdrops hsub _, fun hsub => hdrops hsub _⟩
  · have htakes := fun {sub : Nat} (hsub : k.sub = sub) f t (hf : f u = t) =>
      congrArg (Host.Outcome.next (φ := Fault) (ρ := Refusal)) ((State.onSealed_takes hsession htype hsub hlive htake f).trans hf)
    have happroves := fun (hsub : k.sub = 7) code hcode =>
      htakes hsub (fun s => s.approve k) _ (State.approve_acks (s := u) (p := k) rfl (code := code) hcode)
    refine ⟨fun code hsub hcode hunwrap => htakes hsub _ _ ?_, fun key hsub hunwrap => htakes hsub _ _ ?_,
      fun hsub => ⟨fun hbad => happroves hsub 2 (Release.approveCode_malformed hbad), fun hhead hlen => ⟨fun hstate hdigest hparty =>
          happroves hsub 0 (Release.approveCode_waiting hhead hlen hstate hdigest hparty),
        fun hstate hdigest hparty => happroves hsub 10 (Release.approveCode_waiting hhead hlen hstate hdigest hparty),
        fun hother => happroves hsub 11 (Release.approveCode_other hhead hlen hother)⟩⟩,
      fun hsub => htakes hsub _ _ rfl⟩
    · unfold State.wrappedKey
      dsimp only
      rw [hunwrap, if_neg hcode]
    · unfold State.wrappedKey
      dsimp only
      rw [hunwrap, if_pos rfl]
  · have hdone := fun t (ht : _ = t) => congrArg (Host.Outcome.next (φ := Fault) (ρ := Refusal))
      ((State.doneReceived_awaited hawaits hhears hsub hsender hheader rfl).trans ht)
    refine ⟨fun hdrops => hdone _ (if_pos hdrops), fun hlets => ⟨fun hhead hbody hpart => hdone _ ?_, fun hno => hdone _ ?_⟩⟩
    · rw [hlets, hhead, hbody, hpart, beq_self_eq_true, beq_self_eq_true]
      rfl
    · refine (if_neg (by rw [hlets]; exact Bool.false_ne_true)).trans (if_neg fun hall => hno ?_)
      rw [Bool.and_eq_true, Bool.and_eq_true, beq_iff_eq, beq_iff_eq] at hall
      exact ⟨hall.1.1, hall.1.2, hall.2⟩

end Sys2Proof.Machine

/-! PROOFS. O46: the commands of a charter slot, and the attestation key's rollover (R311, R329, R330, R336 to R339). -/
namespace Sys2Proof.Machine
open Sys2Proof

/-! ### What operations on keys and sessions leave -/

/-- The security die without its key slots and sessions. -/
def Security.sansKeys (x : Security) : Security := { x with slots := [], pubKeys := [], windowShut := false, sessions := [] }

/-- The security die of a state, without its key slots and sessions. -/
def State.secSansKeys (s : State) : Security := s.sec.sansKeys

theorem State.raise_secSansKeys (s : State) (f : FaultRec) : (s.raise f).secSansKeys = s.secSansKeys := s.raise_sec f Security.sansKeys fun _ _ _ => rfl

theorem State.eraseKey_secSansKeys (s : State) (n : Nat) : (s.eraseKey n).secSansKeys = s.secSansKeys := by
  rw [State.secSansKeys, State.eraseKey_sec]
  rfl

theorem State.endUse_secSansKeys (s : State) (n : Nat) : (s.endUse n).secSansKeys = s.secSansKeys := by
  unfold State.endUse
  dsimp only
  split
  · exact s.eraseKey_secSansKeys n
  · rfl

theorem State.countUse_secSansKeys (s : State) (n : Nat) : (s.countUse n).secSansKeys = s.secSansKeys := by
  unfold State.countUse
  dsimp only
  split <;> rfl

theorem State.verifySlot_secSansKeys (s : State) (n : Nat) (disturbed : Bool) : (s.verifySlot n disturbed).secSansKeys = s.secSansKeys := by
  rw [State.verifySlot_eq]
  split
  · exact State.raise_secSansKeys ..
  · rfl

theorem State.eraseKeys_secSansKeys (s : State) (p : KeySlot → Bool) : (s.eraseKeys p).secSansKeys = s.secSansKeys :=
  foldl_same State.secSansKeys State.eraseKey_secSansKeys _ s

theorem State.endSessions_secSansKeys (s : State) (p : Session → Bool) : (s.endSessions p).secSansKeys = s.secSansKeys :=
  foldl_same (f := State.endSession) State.secSansKeys (fun _ _ => rfl) _ s

theorem State.eraseKey_copyJobs (s : State) (n : Nat) : (s.eraseKey n).copyJobs = s.copyJobs := (congrArg State.copyJobs (s.installKey_rest n {}) :)

theorem State.endUse_copyJobs (s : State) (n : Nat) : (s.endUse n).copyJobs = s.copyJobs := by
  unfold State.endUse
  dsimp only
  split
  · exact s.eraseKey_copyJobs n
  · rfl

theorem State.countUse_copyJobs (s : State) (n : Nat) : (s.countUse n).copyJobs = s.copyJobs := by
  unfold State.countUse
  dsimp only
  split <;> rfl

theorem State.charter_of_secSansKeys {s t : State} (h : t.secSansKeys = s.secSansKeys) (c : Nat) : t.sec.charter c = s.sec.charter c :=
  (congrArg (fun x : Security => x.charter c) h :)

/-! ### A release that is stopped -/

theorem State.stopRelease_stays {s : State} {c : Nat} (h : (s.sec.charter c).release.state ≠ .running) : s.stopRelease c = s := if_neg h

/-- The release of a charter slot, gone. -/
def State.releaseGone (s : State) (c : Nat) : State := s.modSec fun x => x.setCharter c { s.sec.charter c with release := {} }

theorem State.stopRelease_running {s : State} {c : Nat} (h : (s.sec.charter c).release.state = .running) :
    (s.stopRelease c).secSansKeys = (s.releaseGone c).secSansKeys ∧
      (s.stopRelease c).copyJobs = s.copyJobs.filter fun j => !(j.kind == 2 && j.key == c) := by
  unfold State.stopRelease
  dsimp only
  rw [if_pos h, State.raise_secSansKeys, State.raise_copyJobs, foldl_same State.secSansKeys State.endUse_secSansKeys,
    foldl_same State.copyJobs State.endUse_copyJobs]
  exact ⟨rfl, rfl⟩

/-- Stopping a release leaves every register of the security die. -/
theorem State.stopRelease_registers (s : State) (c : Nat) : { (s.stopRelease c).secSansKeys with charters := [] } = { s.secSansKeys with charters := [] } := by
  by_cases h : (s.sec.charter c).release.state = .running
  · rw [(State.stopRelease_running h).1]
    rfl
  · rw [State.stopRelease_stays h]

theorem Security.charter_setCharter (x : Security) (c : Nat) {v : CharterSlot} (hv : v ≠ {}) : (x.setCharter c v).charter c = v :=
  NatMap.get_set_same _ _ hv

theorem CharterSlot.ne_of_release {k : CharterSlot} (h : k.release.state ≠ .none) : k ≠ {} := fun heq => h (congrArg (fun k : CharterSlot => k.release.state) heq)

theorem RelState.done_ne : RelState.done ≠ .none := nofun
theorem RelState.running_ne : RelState.running ≠ .none := nofun
theorem RelState.waiting_ne : RelState.waiting ≠ .none := nofun

/-! ### The commands of SEC_CMD -/

theorem State.onSec_runs {s : State} {rq : Req} {c : Nat} (hmay : s.mayP rq 0xB0068 = true) (hc : (s.sel rq).charterSlot = c) (hlt : c < 16)
    (f : Nat → State → State) : s.onSec rq f = f c s := by
  rw [State.onSec, if_pos hmay, hc, Nat.mod_eq_of_lt hlt]

/-- The charter object's range covers the length asked for. -/
def State.charterCovered (s : State) : Bool := match s.current 0 s.sec.obj with | some o => decide (s.sec.len ≤ o.size) | none => false

theorem State.charterCovered_false {s : State} (h : ∀ o, s.current 0 s.sec.obj = some o → o.size < s.sec.len) : s.charterCovered = false := by
  unfold State.charterCovered
  split
  · next o ho => exact decide_eq_false (Nat.not_le.mpr (h o ho))
  · rfl

theorem State.charterCovered_true {s : State} {o : Obj} (ho : s.current 0 s.sec.obj = some o) (h : s.sec.len ≤ o.size) : s.charterCovered = true := by
  rw [State.charterCovered, ho]
  exact decide_eq_true h

/-- LOAD_CHARTER on a slot that it may fill: the checks of the object, then of the charter. -/
theorem State.loadCharter_eq {s : State} (c part : Nat) (hbusy : s.sec.busy = false) (hmission : s.lcState = 3) (hempty : (s.sec.charter c).state = .empty) :
    s.loadCharter c part = if s.charterCovered = false then s.charterFails 3 else if 262144 < s.sec.len then s.charterFails 5
      else match (s.operatorBytes s.sec.obj s.sec.len).1 with
        | none => (s.operatorBytes s.sec.obj s.sec.len).2.charterFails 3
        | some bs => match (s.operatorBytes s.sec.obj s.sec.len).2.charterStatus bs with
          | (_, some l) => ((s.operatorBytes s.sec.obj s.sec.len).2.secStatus 0).modSec fun x => x.setCharter c
              { state := .pending, part := part, digest := l.digest, charter := Machine.charterOf l.body, relRegs := (x.charter c).relRegs }
          | (st, none) => (s.operatorBytes s.sec.obj s.sec.len).2.charterFails st := by
  unfold State.loadCharter
  dsimp only
  rw [hbusy, if_neg Bool.false_ne_true, if_neg (not_or.mpr ⟨fun h => h hmission, fun h => h hempty⟩)]
  rfl

theorem State.loadCharter_refused {s : State} (c part : Nat) (hbusy : s.sec.busy = false) (h : s.lcState ≠ 3 ∨ (s.sec.charter c).state ≠ .empty) :
    s.loadCharter c part = s.secStatus 2 := (if_neg (by rw [hbusy]; exact Bool.false_ne_true)).trans (if_pos h)

theorem State.unloadCharter_refused {s : State} {c : Nat} (hbusy : s.sec.busy = false) (h : (s.sec.charter c).state = .empty ∨ (s.sec.charter c).state = .bound) :
    s.unloadCharter c = s.secStatus 2 := by
  unfold State.unloadCharter
  rw [hbusy, if_neg Bool.false_ne_true]
  rcases h with h | h <;> rw [h]

theorem State.unloadCharter_clears {s : State} {c : Nat} (hbusy : s.sec.busy = false)
    (h : (s.sec.charter c).state = .pending ∨ (s.sec.charter c).state = .active) : s.unloadCharter c = (s.secStatus 0).clearCharter c fun _ => {} := by
  unfold State.unloadCharter
  rw [hbusy, if_neg Bool.false_ne_true]
  rcases h with h | h <;> rw [h]

/-- Clearing a charter slot leaves the registers. -/
theorem State.clearCharter_cmdStatus (s : State) (c : Nat) (f : CharterSlot → CharterSlot) : (s.clearCharter c f).sec.cmdStatus = s.sec.cmdStatus := by
  have hkept : (((s.stopRelease c).eraseKeys fun k => k.owner == 2 && k.charter == c).endSessions fun n => n.role == 1 && n.charter == c).secSansKeys =
      (s.stopRelease c).secSansKeys := by rw [State.endSessions_secSansKeys, State.eraseKeys_secSansKeys]
  exact (congrArg Security.cmdStatus hkept :).trans (congrArg Security.cmdStatus (s.stopRelease_registers c) :)

theorem State.clearCharter_charters {s : State} {c : Nat} (h : (s.sec.charter c).release.state ≠ .running) (f : CharterSlot → CharterSlot) :
    (s.clearCharter c f).sec.charters = NatMap.set {} s.sec.charters c (f (s.sec.charter c)) := by
  have hkept : ((s.eraseKeys fun k => k.owner == 2 && k.charter == c).endSessions fun n => n.role == 1 && n.charter == c).secSansKeys =
      s.secSansKeys := by rw [State.endSessions_secSansKeys, State.eraseKeys_secSansKeys]
  unfold State.clearCharter
  dsimp only
  rw [State.stopRelease_stays h]
  generalize (s.eraseKeys fun k => k.owner == 2 && k.charter == c).endSessions (fun n => n.role == 1 && n.charter == c) = u at hkept
  have hcharters : u.sec.charters = s.sec.charters := (congrArg Security.charters hkept :)
  have hcharter : u.sec.charter c = s.sec.charter c := State.charter_of_secSansKeys hkept c
  rw [← hcharters, ← hcharter]
  rfl

/-! ### REL_REQUEST and REL_CANCEL -/

theorem State.relRequest_refused {s : State} {c : Nat} (hbusy : s.sec.busy = false) (h : s.relRequestStatus (s.sec.charter c) ≠ 0) :
    s.relRequest c = s.secStatus (s.relRequestStatus (s.sec.charter c)) := by
  unfold State.relRequest
  dsimp only
  rw [hbusy, if_neg Bool.false_ne_true, if_pos h]

/-- The request that REL_REQUEST writes, but for its digest. -/
def CharterSlot.request (k : CharterSlot) (reqId step : Nat) : Release :=
  { state := .waiting, reqId := reqId, rule := bits k.relRegs.src 48 5, recipient := bits k.relRegs.src 44 4, ctx := bits k.relRegs.src 32 12
    handle := bits k.relRegs.src 0 32, off := k.relRegs.off, len := k.relRegs.len, dst := k.relRegs.dst, dstOff := k.relRegs.dstOff, step := step }

theorem State.relRequest_waits {s : State} {c : Nat} (hbusy : s.sec.busy = false) (h : s.relRequestStatus (s.sec.charter c) = 0) :
    ∃ step digest, s.relRequest c = ((s.secStatus 0).stopRelease c).modSec fun x =>
      { x.setCharter c { s.sec.charter c with release := { (s.sec.charter c).request ((s.secStatus 0).stopRelease c).sec.nextReq step with digest := digest } } with
        nextReq := (x.nextReq + 1) % 2 ^ 32 } := by
  unfold State.relRequest
  dsimp only
  rw [hbusy, if_neg Bool.false_ne_true, h, if_neg (not_not.mpr rfl)]
  exact ⟨_, _, rfl⟩

theorem State.relCancel_eq {s : State} {c : Nat} (hbusy : s.sec.busy = false) : s.relCancel c =
    if (((s.secStatus 0).stopRelease c).sec.charter c).release.state = .waiting then
      ((s.secStatus 0).stopRelease c).modSec fun x => x.setCharter c { x.charter c with release := {} }
    else (s.secStatus 0).stopRelease c := if_neg (by rw [hbusy]; exact Bool.false_ne_true)

/-! ### REL_RUN -/

/-- A request with its approvals: the output key's slot, and then the key. -/
theorem State.relRun_approved {s : State} {c : Nat} (hbusy : s.sec.busy = false) (hwaiting : (s.sec.charter c).release.state = .waiting)
    (hk : ((s.sec.charter c).rule (s.sec.charter c).release.rule).k ≤ (bitsOf 16 (s.sec.charter c).release.approved).length) :
    s.relRun c = match s.outputSlot c (s.sec.charter c) (s.sec.charter c).release.recipient with
      | none => s.secStatus 0x10
      | some slot => match (s.useKey slot 0x40).1 with
        | none => (s.useKey slot 0x40).2.secStatus 0x10
        | some key => (s.useKey slot 0x40).2.relStart c (s.sec.charter c) slot key := by
  unfold State.relRun
  dsimp only
  rw [hbusy, if_neg Bool.false_ne_true, if_neg (not_not.mpr hwaiting)]
  exact if_neg (Nat.not_lt.mpr hk)

/-- The copy job of a sealed release. -/
def Release.job (r : Release) (c slot : Nat) (key : List Byte) (so d : Obj) : CopyJob :=
  { ctx := r.ctx, kind := 2, srcIdx := handleIndex r.handle, srcOff := r.off, dstIdx := handleIndex r.dst, dstOff := r.dstOff
    len := r.len, key := c, keyBytes := key, queue := slot, srcObj := so, dstObj := d }

theorem State.relStart_starts {s : State} {c slot : Nat} {k : CharterSlot} {key : List Byte} {so d : Obj}
    (hstate : relStateOk (k.rule k.release.rule).source (s.part k.part).state = true)
    (hso : s.checkObj k.release.ctx k.release.handle k.release.off k.release.len (.release ((k.rule k.release.rule).source == 1)) = .ok so)
    (hd : s.checkObj 0 k.release.dst k.release.dstOff (releaseLen k.release.len) .hbmWrite = .ok d) : s.relStart c k slot key =
      let u := (s.secStatus 0).countUse slot
      if k.release.len = 0 then (u.modSec fun x => x.setCharter c { k with release := { k.release with state := .done } }).endUse slot
      else { u.modSec fun x => x.setCharter c { k with release := { k.release with state := .running } } with
        copyJobs := u.copyJobs ++ [k.release.job c slot key so d] } := by
  unfold State.relStart
  dsimp only
  rw [hstate, Bool.not_true, if_neg Bool.false_ne_true, hso, hd]
  rfl

theorem State.relStart_spec {s : State} {c slot : Nat} {k : CharterSlot} {key : List Byte} {so d : Obj}
    (hstate : relStateOk (k.rule k.release.rule).source (s.part k.part).state = true)
    (hso : s.checkObj k.release.ctx k.release.handle k.release.off k.release.len (.release ((k.rule k.release.rule).source == 1)) = .ok so)
    (hd : s.checkObj 0 k.release.dst k.release.dstOff (releaseLen k.release.len) .hbmWrite = .ok d) :
    (s.relStart c k slot key).sec.cmdStatus = 0 ∧
      ((s.relStart c k slot key).sec.charter c).release = { k.release with state := if k.release.len = 0 then .done else .running } ∧
      (k.release.len ≠ 0 → (s.relStart c k slot key).copyJobs = s.copyJobs ++ [k.release.job c slot key so d]) := by
  have hcount : ((s.secStatus 0).countUse slot).sec.cmdStatus = 0 := (congrArg Security.cmdStatus ((s.secStatus 0).countUse_secSansKeys slot) :)
  have hjobs : ((s.secStatus 0).countUse slot).copyJobs = s.copyJobs := (s.secStatus 0).countUse_copyJobs slot
  rw [State.relStart_starts hstate hso hd]
  generalize (s.secStatus 0).countUse slot = u at hcount hjobs
  dsimp only
  by_cases hlen : k.release.len = 0
  · have hend := State.endUse_secSansKeys (u.modSec fun x => x.setCharter c { k with release := { k.release with state := .done } }) slot
    rw [if_pos hlen, if_pos hlen]
    refine ⟨(congrArg Security.cmdStatus hend :).trans hcount, ?_, fun h => absurd hlen h⟩
    rw [State.charter_of_secSansKeys hend]
    exact congrArg CharterSlot.release (Security.charter_setCharter _ c (CharterSlot.ne_of_release RelState.done_ne))
  · rw [if_neg hlen, if_neg hlen]
    exact ⟨hcount, congrArg CharterSlot.release (Security.charter_setCharter _ c (CharterSlot.ne_of_release RelState.running_ne)),
      fun _ => congrArg (· ++ _) hjobs⟩

/-! ### RELEASE_COMPLETE -/

theorem State.releaseComplete_idle {s : State} {c : Nat} (h : ∀ j ∈ s.copyJobs, ¬ (j.kind = 2 ∧ j.key = c)) : s.releaseComplete c = s := by
  have hnone : s.copyJobs.find? (fun j => j.kind == 2 && j.key == c) = none := by
    rw [List.find?_eq_none]
    intro j hj hmine
    rw [Bool.and_eq_true, beq_iff_eq, beq_iff_eq] at hmine
    exact h j hj hmine
  unfold State.releaseComplete
  rw [hnone]

/-- The key that a release's chunks are sealed with. -/
def State.releaseKey (s : State) (r : Release) (j : CopyJob) : List Byte :=
  shake32 (ascii "NRK1" ++ j.keyBytes ++ s.sec.deviceId ++ leBytes 4 s.life.bootCount ++ leBytes 4 r.reqId)

/-- A release in work: its chunks, then its header, then it is DONE. -/
theorem State.releaseComplete_works {s : State} {c : Nat} {j : CopyJob} (hj : s.copyJobs.find? (fun j => j.kind == 2 && j.key == c) = some j)
    {r : Release} (hr : (s.sec.charter c).release = r) {q : Option (Nat × Nat) × State}
    (hq : s.sealChunks j (s.releaseKey r j) (s.releaseHeader r) (j.len / 65536 + 2) 0 j.len = q) :
    s.releaseComplete c = match q.1 with
      | some f => q.2.releaseFails c j f
      | none => match (q.2.writeObj 0 j.dstObj j.dstOff (s.releaseHeader r)).1 with
        | some f => (q.2.writeObj 0 j.dstObj j.dstOff (s.releaseHeader r)).2.releaseFails c j f
        | none =>
          let w := (q.2.writeObj 0 j.dstObj j.dstOff (s.releaseHeader r)).2
          (State.modSec { w with copyJobs := w.copyJobs.erase j } fun x =>
            x.setCharter c { s.sec.charter c with release := { r with state := .done } }).endUse j.queue := by
  subst hr hq
  unfold State.releaseComplete
  rw [hj]
  rfl

theorem State.releaseDone_spec (w : State) (j : CopyJob) (c : Nat) (k : CharterSlot) (r : Release) :
    let t := (State.modSec { w with copyJobs := w.copyJobs.erase j } fun x =>
      x.setCharter c { k with release := { r with state := .done } }).endUse j.queue
    t.copyJobs = w.copyJobs.erase j ∧ (t.sec.charter c).release = { r with state := .done } ∧ t.pond = w.pond ∧ t.granary = w.granary := by
  intro t
  have hframe : t.sansSec = w.sansSec := State.endUse_sansSec ..
  refine ⟨State.endUse_copyJobs .., ?_, (congrArg State.pond hframe :), (congrArg State.granary hframe :)⟩
  rw [State.charter_of_secSansKeys (State.endUse_secSansKeys ..)]
  exact congrArg CharterSlot.release (Security.charter_setCharter _ c (CharterSlot.ne_of_release RelState.done_ne))

/-! ### The attestation key -/

theorem State.rollover_eq {s : State} (hbusy : s.sec.busy = false) : s.rollover =
    if s.sec.attGen then s.secStatus 1 else if !s.signs then s.secStatus 0x12 else (s.secStatus 0).startAttKey := by
  unfold State.rollover
  rw [hbusy, Bool.false_or]

/-- The state in which the new attestation key is there and its certificate is not. -/
def State.attKeyThere (s : State) : State :=
  s.draw.modSec fun x => { x with attGen := false, attKey := some s.draws, attIndex := 0, attKeys := s.sec.attKeys + 1 }

theorem State.attKeyReady_eq {s : State} (h : s.sec.attGen = true) : s.attKeyReady = s.attKeyThere.signBootCert s.draws s.sec.attKeys := if_pos h

/-- The attestation key's registers. -/
def State.attRegs (s : State) : Bool × Option Nat × Nat × Nat := (s.sec.attGen, s.sec.attKey, s.sec.attIndex, s.sec.attKeys)

theorem State.idFault_attRegs (s : State) : s.idFault.attRegs = s.attRegs ∧ s.idFault.draws = s.draws :=
  ⟨s.raise_sec _ (fun x => (x.attGen, x.attKey, x.attIndex, x.attKeys)) fun _ _ _ => rfl, s.raise_draws _⟩

theorem State.idFault_draws_le {s u : State} (h : s.draws ≤ u.draws) : s.draws ≤ u.idFault.draws := h.trans (State.idFault_attRegs u).2.ge

theorem State.idAdvance_attRegs (s : State) : s.idAdvance.2.attRegs = s.attRegs ∧ s.draws ≤ s.idAdvance.2.draws := by
  unfold State.idAdvance
  split
  · split_ifs
    · exact ⟨(State.idFault_attRegs _).1, State.idFault_draws_le (Nat.le_succ _)⟩
    · exact ⟨(State.idFault_attRegs _).1, State.idFault_draws_le (Nat.le_succ _)⟩
    · exact ⟨rfl, Nat.le_succ _⟩
    · exact ⟨(State.idFault_attRegs _).1, State.idFault_draws_le (Nat.le_refl _)⟩
  · exact ⟨(State.idFault_attRegs _).1, State.idFault_draws_le (Nat.le_refl _)⟩

theorem State.signBootCert_attRegs (s : State) (d seq : Nat) : (s.signBootCert d seq).attRegs = s.attRegs ∧ s.draws ≤ (s.signBootCert d seq).draws := by
  obtain ⟨hregs, hdraws⟩ := s.idAdvance_attRegs
  unfold State.signBootCert
  split
  · exact ⟨rfl, Nat.le_refl _⟩
  · dsimp only
    split <;> exact ⟨hregs, hdraws⟩

theorem State.bootCertHead_index (s : State) (seq index : Nat) (pk rest : List Byte) : field (s.bootCertHead seq index pk ++ rest) 12 4 = index % 2 ^ 32 := by
  unfold field State.bootCertHead
  simp only [List.append_assoc]
  rw [slice_append_skip ((length_leBytes _ _).le.trans (by omega)), length_leBytes, slice_append_skip ((length_leBytes _ _).le.trans (by omega)), length_leBytes,
    slice_append_skip ((length_leBytes _ _).le.trans (by omega)), length_leBytes, slice_append_skip ((length_leBytes _ _).le.trans (by omega)), length_leBytes,
    slice_append_head _ (length_leBytes 4 index), ofLe_leBytes]
  rfl

/-- The identity words read back as they are written. -/
def State.idWordsGood (s : State) (n : Nat) : Prop :=
  Config.mramWord s.draws 0 (idWord (n + 1)) = idWord (n + 1) ∧ Config.mramWord s.draws 1 (idWord (n + 1)) = idWord (n + 1)

theorem State.idAdvance_good {s : State} {n : Nat} (hn : s.sec.idValue = some n) (hlimit : n < idLimit) (hon : s.sec.idDisabled = false)
    (hgood : s.idWordsGood n) :
    s.idAdvance = (some n, s.draw.modSec fun x => { x with wordA := idWord (n + 1), wordB := idWord (n + 1) }) := by
  unfold State.idAdvance
  rw [hn]
  dsimp only
  rw [if_pos ⟨hlimit, by rw [hon]; rfl⟩, if_neg (not_not.mpr hgood.1), if_neg (not_not.mpr hgood.2)]

theorem State.idFault_certSeq (s : State) : s.idFault.sec.certSeq = s.sec.certSeq := s.raise_sec _ Security.certSeq fun _ _ _ => rfl

theorem State.idAdvance_bad {s : State} {n : Nat} (hn : s.sec.idValue = some n) (hlimit : n < idLimit) (hon : s.sec.idDisabled = false)
    (hbad : ¬ s.idWordsGood n) : s.idAdvance.1 = none ∧ s.idAdvance.2.sec.certSeq = s.sec.certSeq := by
  unfold State.idAdvance
  rw [hn]
  dsimp only
  rw [if_pos ⟨hlimit, by rw [hon]; rfl⟩]
  by_cases hA : Config.mramWord s.draws 0 (idWord (n + 1)) = idWord (n + 1)
  · have hB : Config.mramWord s.draws 1 (idWord (n + 1)) ≠ idWord (n + 1) := fun hB => hbad ⟨hA, hB⟩
    rw [if_neg (not_not.mpr hA), if_pos hB]
    exact ⟨rfl, State.idFault_certSeq _⟩
  · rw [if_pos hA]
    exact ⟨rfl, State.idFault_certSeq _⟩

section
variable {s : State} {d n : Nat} (hlc : s.lcState = 3 ∨ s.lcState = 4) (hidentity : s.sec.identity = some d) (hn : s.sec.idValue = some n)
  (hlimit : n < idLimit) (hon : s.sec.idDisabled = false) (draw seq : Nat)
include hlc hidentity hn hlimit hon

theorem State.signBootCert_good (hgood : s.idWordsGood n) :
    (s.signBootCert draw seq).sec.certSeq = seq ∧ (s.signBootCert draw seq).sec.wordA = idWord (n + 1) ∧
      (s.signBootCert draw seq).sec.wordB = idWord (n + 1) ∧ field (s.signBootCert draw seq).sec.bootCert 12 4 = n % 2 ^ 32 ∧
      (s.signBootCert draw seq).ras = s.ras := by
  unfold State.signBootCert
  rw [if_pos hlc, hidentity]
  dsimp only
  rw [State.idAdvance_good hn hlimit hon hgood]
  exact ⟨rfl, rfl, rfl, State.bootCertHead_index .., rfl⟩

theorem State.signBootCert_bad (hbad : ¬ s.idWordsGood n) :
    (s.signBootCert draw seq).sec.bootCert = [] ∧ (s.signBootCert draw seq).sec.certSeq = s.sec.certSeq := by
  obtain ⟨hnone, hcert⟩ := State.idAdvance_bad hn hlimit hon hbad
  unfold State.signBootCert
  rw [if_pos hlc, hidentity]
  dsimp only
  rw [hnone]
  exact ⟨rfl, hcert⟩

end

/-! ### Settling -/

theorem State.useKey_part (s : State) (n perm p : Nat) : (s.useKey n perm).2.part p = s.part p :=
  congrArg (fun m => NatMap.get ({} : Part) m p) (congrArg State.parts (s.verifySlot_rest n false) :)

/-- Settles O46. -/
theorem charterSlotsTakeTheirCommands : Obligations.CharterSlotsTakeTheirCommands := by
  unfold Obligations.CharterSlotsTakeTheirCommands
  refine fun s => ⟨fun rq c hmay hc hlt hbusy => ?_, fun hgen => ?_, fun hgen => congrArg Host.Outcome.next (if_neg (by rw [hgen]; exact Bool.false_ne_true)),
    fun c h => congrArg Host.Outcome.next (State.releaseComplete_idle h), fun c j hj => ?_⟩
  · intro k status
    have hruns := fun f t (ht : f c s = t) =>
      congrArg (Host.Outcome.next (φ := Fault) (ρ := Refusal)) ((State.onSec_runs hmay hc hlt f).trans ht)
    refine ⟨fun h => hruns _ _ (State.loadCharter_refused c _ hbusy h), fun hmission hempty huncovered => hruns _ _ ?_,
      fun o hmission hempty ho hlen => ?_, fun h => hruns _ _ (State.unloadCharter_refused hbusy h), fun h => ?_,
      fun h => hruns _ _ (State.relRequest_refused hbusy h), fun h => ?_, fun h => hruns _ _ ?_, fun hwaiting hfew => hruns _ _ ?_,
      fun hwaiting hk => ?_, fun hwaiting => hruns _ _ ?_, fun hrunning => ?_, fun hwaiting hrunning => hruns _ _ ?_,
      fun hgen => hruns _ _ ?_, fun hgen hsigns => hruns _ _ ?_, fun hgen hsigns => hruns _ _ ?_⟩
    · exact (State.loadCharter_eq c _ hbusy hmission hempty).trans (if_pos (State.charterCovered_false huncovered))
    · have hloads := (State.loadCharter_eq c ((s.sel rq).charterPart % 16) hbusy hmission hempty).trans
        (if_neg (by rw [State.charterCovered_true ho hlen]; exact Bool.noConfusion))
      refine ⟨fun hlong => hruns _ _ (hloads.trans (if_pos hlong)), fun r u hfits hbytes => ?_⟩
      have hreads := hloads.trans (if_neg (Nat.not_lt.mpr hfits))
      rw [hbytes] at hreads
      refine ⟨fun hr => hruns _ _ (hreads.trans ?_), fun bs v hr hstatus => hruns _ _ (hreads.trans ?_),
        fun bs v l hr hstatus => hruns _ _ (hreads.trans ?_)⟩
      · rw [hr]
        rfl
      · rw [hr]
        dsimp only
        rw [hstatus]
        rfl
      · rw [hr]
        dsimp only
        rw [hstatus]
        rfl
    · refine ⟨_, hruns _ _ (State.unloadCharter_clears hbusy h), rfl, State.clearCharter_cmdStatus .., fun hidle => ?_⟩
      exact State.clearCharter_charters (s := s.secStatus 0) hidle _
    · obtain ⟨step, digest, hwaits⟩ := State.relRequest_waits hbusy h
      have hregs := (s.secStatus 0).stopRelease_registers c
      have hstays := fun h => State.stopRelease_stays (s := s.secStatus 0) (c := c) h
      have hreq : ((s.secStatus 0).stopRelease c).sec.nextReq = s.sec.nextReq := (congrArg Security.nextReq hregs :)
      have hstatus : ((s.secStatus 0).stopRelease c).sec.cmdStatus = 0 := (congrArg Security.cmdStatus hregs :)
      generalize (s.secStatus 0).stopRelease c = u at hwaits hstays hreq hstatus
      rw [hreq] at hwaits
      have hcharter := Security.charter_setCharter u.sec c
        (v := { k with release := { k.request s.sec.nextReq step with digest := digest } }) (CharterSlot.ne_of_release RelState.waiting_ne)
      have hrelease := congrArg CharterSlot.release hcharter
      refine ⟨_, hruns _ _ hwaits, hstatus, (congrArg Release.state hrelease :), (congrArg Release.approved hrelease :),
        (congrArg Release.reqId hrelease :), (congrArg Release.rule hrelease :), (congrArg Release.recipient hrelease :),
        (congrArg Release.off hrelease :), (congrArg Release.len hrelease :), congrArg (fun r => (r + 1) % 2 ^ 32) hreq, fun hidle => ?_⟩
      rw [hstays hidle]
      rfl
    · exact (if_neg (by rw [hbusy]; exact Bool.false_ne_true)).trans (if_pos h)
    · exact (if_neg (by rw [hbusy]; exact Bool.false_ne_true)).trans ((if_neg fun h => h hwaiting).trans (if_pos hfew))
    · have happroved := State.relRun_approved hbusy hwaiting hk
      refine ⟨fun hslot => hruns _ _ (happroved.trans ?_), fun slot u hslot hkey => hruns _ _ (happroved.trans ?_), fun slot key u hslot hkey => ?_⟩
      · rw [hslot]
        rfl
      · rw [hslot]
        dsimp only
        rw [hkey]
        rfl
      · have hpart : u.part k.part = s.part k.part := by
          rw [← s.useKey_part slot 0x40 k.part, hkey]
        have hstarts : s.relRun c = u.relStart c k slot key := by
          rw [happroved, hslot]
          dsimp only
          rw [hkey]
        refine ⟨fun hstate => hruns _ _ (hstarts.trans (if_pos ?_)), fun so d hstate hso hd => ?_⟩
        · rw [hpart, hstate]
          rfl
        · rw [← hpart] at hstate
          obtain ⟨hstatus, hrelease, hjob⟩ := State.relStart_spec (c := c) (slot := slot) (key := key) hstate hso hd
          exact ⟨_, hruns _ _ hstarts, hstatus, hrelease,
            fun hlen => ⟨k.release.job c slot key so d, hjob hlen, rfl, rfl, rfl, rfl, rfl, rfl, rfl, rfl, rfl⟩⟩
    · have hstays : (s.secStatus 0).stopRelease c = s.secStatus 0 := State.stopRelease_stays (by rw [show ((s.secStatus 0).sec.charter c).release.state = .waiting from hwaiting]; exact nofun)
      rw [State.relCancel_eq hbusy, hstays]
      exact if_pos hwaiting
    · obtain ⟨hsec, hjobs⟩ := State.stopRelease_running (s := s.secStatus 0) hrunning
      have hstatus : ((s.secStatus 0).stopRelease c).sec.cmdStatus = 0 := (congrArg Security.cmdStatus hsec :)
      refine ⟨s.relCancel c, hruns _ _ rfl, ?_⟩
      rw [State.relCancel_eq hbusy]
      split
      · exact ⟨hstatus, hjobs⟩
      · exact ⟨hstatus, hjobs⟩
    · have hstays : (s.secStatus 0).stopRelease c = s.secStatus 0 := State.stopRelease_stays hrunning
      rw [State.relCancel_eq hbusy, hstays]
      exact if_neg hwaiting
    · rw [State.rollover_eq hbusy, hgen]
      rfl
    · rw [State.rollover_eq hbusy, hgen, hsigns]
      rfl
    · rw [State.rollover_eq hbusy, hgen, hsigns]
      rfl
  · obtain ⟨hregs, hdraws⟩ := s.attKeyThere.signBootCert_attRegs s.draws s.sec.attKeys
    refine ⟨_, congrArg Host.Outcome.next (State.attKeyReady_eq hgen), (congrArg (·.1) hregs :), (congrArg (·.2.1) hregs :), (congrArg (·.2.2.1) hregs :),
      (congrArg (·.2.2.2) hregs :), hdraws, fun d n hlc hidentity hn hlimit hon => ?_⟩
    split
    · next hgood => exact State.signBootCert_good (s := s.attKeyThere) hlc hidentity hn hlimit hon _ _ hgood
    · next hbad => exact State.signBootCert_bad (s := s.attKeyThere) hlc hidentity hn hlimit hon _ _ hbad
  · intro r hdr key q w
    have hworks := State.releaseComplete_works hj (r := r) rfl (q := q) rfl
    refine ⟨fun f hf => congrArg Host.Outcome.next (hworks.trans ?_), fun f hf hw => congrArg Host.Outcome.next (hworks.trans ?_), fun hf hw => ?_⟩
    · rw [hf]
    · rw [hf]
      dsimp only
      rw [show (q.2.writeObj 0 j.dstObj j.dstOff (s.releaseHeader r)).1 = some f from hw]
    · rw [hf] at hworks
      dsimp only at hworks
      rw [show (q.2.writeObj 0 j.dstObj j.dstOff (s.releaseHeader r)).1 = none from hw] at hworks
      exact ⟨_, congrArg Host.Outcome.next hworks, State.releaseDone_spec w.2 j c (s.sec.charter c) r⟩

end Sys2Proof.Machine

/-! PROOFS. O47: MACsec, the keys of memory, debug access and tamper events (R346, R347, R351, R353, R356, R357, R359, R360). -/
namespace Sys2Proof.Machine
open Sys2Proof

/-! ### Sub-ports -/

/-- A write on a write of an entry that is there to the same key, in any table. -/
theorem NatMap.set_set_ne {α : Type} [DecidableEq α] {d v : α} (hv : v ≠ d) (m : NatMap α) (n : Nat) (w : α) :
    NatMap.set d (NatMap.set d m n v) n w = NatMap.set d m n w := by
  induction m with
  | nil => by_cases hw : w = d <;> simp [NatMap.set, hv, hw]
  | cons e t ih =>
    obtain ⟨j, x⟩ := e
    by_cases h1 : n < j
    · by_cases hw : w = d <;> simp [NatMap.set, h1, hv, hw]
    · by_cases h2 : n = j
      · subst h2
        simp [NatMap.set, hv]
      · simp only [NatMap.set, h1, h2, if_false, ih]

theorem Port.setSub_setSub {v : SubPort} (hv : v ≠ {}) (x : Port) (n : Nat) (w : SubPort) : (x.setSub n v).setSub n w = x.setSub n w :=
  congrArg (fun m => { x with subs := m }) (NatMap.set_set_ne hv x.subs n w)

/-- The state with a sub-port written. -/
def State.withSub (s : State) (k n : Nat) (y : SubPort) : State := s.setPort k ((s.port k).setSub n y)

theorem State.withSub_port {s : State} (hs : s.Canon) (k n : Nat) (y : SubPort) : (s.withSub k n y).port k = (s.port k).setSub n y :=
  (s.port_setPort hs.tab.ports k k _).trans (if_pos rfl)

theorem State.withSub_sub {s : State} (hs : s.Canon) (k n : Nat) {y : SubPort} (hy : y ≠ {}) : ((s.withSub k n y).port k).sub n = y := by
  rw [State.withSub_port hs]
  exact NatMap.get_set_same _ _ hy

theorem State.withSub_withSub {s : State} (hs : s.Canon) (k n : Nat) {v : SubPort} (hv : v ≠ {}) (w : SubPort) :
    (s.withSub k n v).withSub k n w = s.withSub k n w := by
  rw [State.withSub, State.withSub_port hs, Port.setSub_setSub hv]
  exact congrArg (fun m => { s with ports := m }) (NatMap.set_set hs.tab.ports k _ _)

theorem SubPort.ne_of_peer {y : SubPort} {p : Nat} (h : y.peer = some p) : y ≠ {} := fun heq => nomatch h.symm.trans (congrArg SubPort.peer heq)

/-! ### MKA -/

/-- A sub-port as the election of a frame leaves it. -/
def Port.elected (x : Port) (m : MkaMsg) : SubPort := { x.sub m.sub with keyServer := x.serves m, peer := some m.priority }

/-- A sub-port with a new SAK. -/
def SubPort.rekeyed (y : SubPort) (sak : List Byte) : SubPort :=
  { y with sak := sak, sakKn := (y.sakKn + 1) % 2 ^ 32, sakAn := (y.sakAn + 1) % 4, nextPn := 1 }

theorem State.newSak_eq (s : State) (k n : Nat) : s.newSak k n =
    (s.draw.withSub k n (((s.port k).sub n).rekeyed s.drawn)).send
      (.mka k n ((((s.port k).sub n).sakKn + 1) % 2 ^ 32) ((((s.port k).sub n).sakAn + 1) % 4)) := rfl

/-- The last step of a frame: the channel is up as it says, where a SAK is in force. -/
def State.mkaUp (s : State) (k : Nat) (m : MkaMsg) : State :=
  if ((s.port k).sub m.sub).sakKn = 0 then s else s.withSub k m.sub { (s.port k).sub m.sub with up := m.up }

theorem State.mkaUp_withSub {s : State} (hs : s.Canon) (k : Nat) (m : MkaMsg) {y : SubPort} (hy : y ≠ {}) :
    (s.withSub k m.sub y).mkaUp k m = s.withSub k m.sub (if y.sakKn = 0 then y else { y with up := m.up }) := by
  rw [State.mkaUp, State.withSub_sub hs k m.sub hy]
  split
  · rfl
  · exact State.withSub_withSub hs k m.sub hy _

section
variable {s : State} {k : Nat} {m : MkaMsg}

/-- A frame that the peer's election took, in the state with the election noted. -/
def State.mkaFollows (s : State) (k : Nat) (m : MkaMsg) : State :=
  match m.sak with
  | some (kn, an, key) =>
    if kn = ((s.port k).elected m).sakKn ∧ an = ((s.port k).elected m).sakAn then s.withSub k m.sub ((s.port k).elected m)
    else (s.withSub k m.sub ((s.port k).elected m)).withSub k m.sub { (s.port k).elected m with sak := key, sakKn := kn, sakAn := an, nextPn := 1 }
  | none => s.withSub k m.sub ((s.port k).elected m)

theorem State.mkaTake_eq : s.mkaTake k m = State.mkaUp (if (s.port k).serves m then
    (if ((s.port k).elected m).sakKn = 0 then (s.withSub k m.sub ((s.port k).elected m)).newSak k m.sub
      else s.withSub k m.sub ((s.port k).elected m))
    else s.mkaFollows k m) k m := rfl

theorem State.mkaTake_serves (hserves : (s.port k).serves m = true) : s.mkaTake k m =
    (if ((s.port k).sub m.sub).sakKn = 0 then (s.withSub k m.sub ((s.port k).elected m)).newSak k m.sub
      else s.withSub k m.sub ((s.port k).elected m)).mkaUp k m := by
  rw [State.mkaTake_eq, if_pos hserves]
  rfl

theorem State.mkaTake_follows (hserves : (s.port k).serves m = false) : s.mkaTake k m = (s.mkaFollows k m).mkaUp k m := by
  rw [State.mkaTake_eq, hserves]
  rfl

theorem Port.elected_ne (x : Port) (m : MkaMsg) : x.elected m ≠ {} := SubPort.ne_of_peer (p := m.priority) rfl

/-- The key server of a channel with a SAK distributes none. -/
theorem State.mkaTake_holds (hs : s.Canon) (hserves : (s.port k).serves m = true) (hsak : ((s.port k).sub m.sub).sakKn ≠ 0) :
    s.mkaTake k m = s.withSub k m.sub { (s.port k).elected m with up := m.up } := by
  rw [State.mkaTake_serves hserves, if_neg hsak, State.mkaUp_withSub hs k m (Port.elected_ne _ m)]
  exact congrArg (s.withSub k m.sub) (if_neg hsak)

/-- The key server of a channel without one distributes the first. -/
theorem State.mkaTake_distributes (hs : s.Canon) (hserves : (s.port k).serves m = true) (hsak : ((s.port k).sub m.sub).sakKn = 0) :
    s.mkaTake k m = (s.draw.send (.mka k m.sub 1 ((((s.port k).sub m.sub).sakAn + 1) % 4))).withSub k m.sub
      { (s.port k).elected m with sak := s.drawn, sakKn := 1, sakAn := (((s.port k).sub m.sub).sakAn + 1) % 4, nextPn := 1, up := m.up } := by
  have hcanon : (s.draw.send (.mka k m.sub 1 ((((s.port k).sub m.sub).sakAn + 1) % 4))).Canon :=
    (State.send_keeps _ _).canon ((State.draw_keeps s).canon hs)
  have helected := State.withSub_sub hs k m.sub (Port.elected_ne (s.port k) m)
  rw [State.mkaTake_serves hserves, if_pos hsak, State.newSak_eq, helected]
  have hkn : ((s.port k).elected m).sakKn = 0 := hsak
  rw [hkn]
  have hmoved : ((s.withSub k m.sub ((s.port k).elected m)).draw.withSub k m.sub
      (((s.port k).elected m).rekeyed (s.withSub k m.sub ((s.port k).elected m)).drawn)).send
        (.mka k m.sub ((0 + 1) % 2 ^ 32) ((((s.port k).elected m).sakAn + 1) % 4)) =
      (s.draw.send (.mka k m.sub 1 ((((s.port k).sub m.sub).sakAn + 1) % 4))).withSub k m.sub (((s.port k).elected m).rekeyed s.drawn) :=
    (congrArg (fun t : State => (State.draw t).send (.mka k m.sub 1 ((((s.port k).sub m.sub).sakAn + 1) % 4)))
      (State.withSub_withSub hs k m.sub (Port.elected_ne (s.port k) m) (((s.port k).elected m).rekeyed s.drawn)) :)
  rw [hmoved, State.mkaUp_withSub hcanon k m (SubPort.ne_of_peer (p := m.priority) rfl), SubPort.rekeyed, hkn]
  rfl

/-- A frame that brings no other SAK to a channel that the peer serves. -/
theorem State.mkaTake_same (hs : s.Canon) (hserves : (s.port k).serves m = false)
    (hsame : ∀ kn an key, m.sak = some (kn, an, key) → kn = ((s.port k).sub m.sub).sakKn ∧ an = ((s.port k).sub m.sub).sakAn) :
    s.mkaTake k m = s.withSub k m.sub (if ((s.port k).sub m.sub).sakKn = 0 then (s.port k).elected m else { (s.port k).elected m with up := m.up }) := by
  rw [State.mkaTake_follows hserves]
  refine Eq.trans (congrArg (fun t : State => t.mkaUp k m) ?_) (State.mkaUp_withSub hs k m (Port.elected_ne _ m))
  unfold State.mkaFollows
  split
  · next kn an key hsak => exact if_pos (hsame kn an key hsak)
  · rfl

/-- A frame that brings another SAK. -/
theorem State.mkaTake_other (hs : s.Canon) (hserves : (s.port k).serves m = false) {kn an : Nat} {key : List Byte} (hsak : m.sak = some (kn, an, key))
    (hother : ¬ (kn = ((s.port k).sub m.sub).sakKn ∧ an = ((s.port k).sub m.sub).sakAn)) :
    s.mkaTake k m = s.withSub k m.sub { (s.port k).elected m with
      sak := key, sakKn := kn, sakAn := an, nextPn := 1, up := if kn = 0 then ((s.port k).sub m.sub).up else m.up } := by
  have hbrings : s.mkaFollows k m = s.withSub k m.sub { (s.port k).elected m with sak := key, sakKn := kn, sakAn := an, nextPn := 1 } := by
    unfold State.mkaFollows
    rw [hsak]
    exact (if_neg hother).trans (State.withSub_withSub hs k m.sub (Port.elected_ne _ m) _)
  rw [State.mkaTake_follows hserves, hbrings, State.mkaUp_withSub hs k m (SubPort.ne_of_peer (p := m.priority) rfl)]
  dsimp only
  split <;> rfl

end

theorem State.mkaFrame_taken {s u : State} {k : Nat} {m : MkaMsg} {r : Option (List Byte)} (hopen : s.netOpen = true)
    (hen : (s.port k).macsecEn = true) (hicv : m.icvOk = true) (hsub : m.sub < s.subPorts k) (huse : s.useOnce (s.port k).cakSlot 8 = (r, u)) :
    s.mkaFrame k m = if r.isNone then u else (u.mkaTake k m).macsecFell k (s.macsecUp k) := by
  unfold State.mkaFrame
  rw [if_neg]
  · dsimp only
    rw [huse]
  · rw [hopen, hen, hicv]
    rintro (h | h | h | h)
    · exact Bool.false_ne_true h
    · exact Bool.false_ne_true h
    · exact Bool.false_ne_true h
    · exact Nat.not_le.mpr hsub h

theorem State.mkaFrame_ignored {s : State} {k : Nat} {m : MkaMsg}
    (h : s.netOpen = false ∨ (s.port k).macsecEn = false ∨ m.icvOk = false ∨ s.subPorts k ≤ m.sub) : s.mkaFrame k m = s :=
  if_pos (by simpa only [Bool.not_eq_true'] using h)

theorem State.useOnce_canon {s u : State} {n perm : Nat} {r : Option (List Byte)} (hs : s.Canon) (h : s.useOnce n perm = (r, u)) : u.Canon := by
  have hkept := (s.useOnce_keeps n perm).canon hs
  rwa [h] at hkept

/-! ### Rekeying and losing the channel -/

theorem State.sakRekey_off {s : State} {k n : Nat} (h : (s.port k).macsecEn = false ∨ ((s.port k).sub n).sakKn = 0) (pn : Nat) : s.sakRekey k n pn = s := by
  refine if_neg fun hall => ?_
  obtain ⟨hen, hkn⟩ := Bool.and_eq_true_iff.mp hall
  exact h.elim (fun h => Bool.false_ne_true (h.symm.trans hen)) (bne_iff_ne.mp hkn)

theorem State.sakRekey_on {s : State} {k n : Nat} (hen : (s.port k).macsecEn = true) (hkn : ((s.port k).sub n).sakKn ≠ 0) (pn : Nat) :
    s.sakRekey k n pn = if ((s.port k).sub n).keyServer then
      (if (s.useOnce (s.port k).cakSlot 8).1.isSome then (s.useOnce (s.port k).cakSlot 8).2.newSak k n else (s.useOnce (s.port k).cakSlot 8).2)
      else s.withSub k n { (s.port k).sub n with nextPn := pn } :=
  if_pos (Bool.and_eq_true_iff.mpr ⟨hen, bne_iff_ne.mpr hkn⟩)

theorem State.macsecFell_plain {s : State} {k : Nat} (h : s.charterRoce k = []) (was : Bool) : s.macsecFell k was = s := by
  rw [State.macsecFell, h]

theorem State.macsecFell_charter {s : State} {k p : Nat} {l : List Nat} (h : s.charterRoce k = p :: l) (was : Bool) :
    s.macsecFell k was = if was && !s.macsecUp k then s.raise { code := 0x080D, loc := locEth p k } else s := by
  rw [State.macsecFell, h]

theorem State.charterRoce_withSub (s : State) (k n : Nat) (y : SubPort) (j : Nat) : (s.withSub k n y).charterRoce j = s.charterRoce j := rfl

/-- A sub-port that is cleared leaves its port without its secure channel. -/
theorem State.macsecUp_cleared {s : State} (hs : s.Canon) {k n : Nat} (hsubs : NatMap.wf {} (s.port k).subs = true) (hn : n < s.subPorts k) :
    (s.withSub k n {}).macsecUp k = false := by
  have hport := State.withSub_port hs k n {}
  have hcount : (s.withSub k n {}).subPorts k = s.subPorts k := by
    rw [State.subPorts, hport]
    rfl
  have hsub : ((s.withSub k n {}).port k).sub n = {} := by
    rw [hport]
    exact NatMap.get_set_self hsubs n {}
  rw [State.macsecUp, List.all_eq_false]
  exact ⟨n, List.mem_range.mpr (hcount ▸ hn), by rw [hsub]; exact Bool.false_ne_true⟩

/-! ### Tamper events -/

/-- What a tamper event leaves of the registers of the memory protection. -/
def Mce.flags (x : Mce) : Bool × Bool := (x.tampered, x.pin)

theorem State.endCtxNow_mce (s : State) (x : Nat) : (s.endCtxNow x).mce = s.mce := by
  let b := s.modCtx x fun c => { c with queues := NatMap.mapVals {} (fun _ q => { q with current := none, fetched := [] }) c.queues }
  have hend : (b.endCtx x 3).sansCtx = b.sansCtx := b.endCtx_sansCtx x 3
  exact (congrArg State.mce hend :)

theorem State.endCtxsNow_canon {s : State} (hs : s.Canon) (xs : List Nat) (p : Nat) : ((xs.foldl State.endCtxNow s).resetPartQps p).Canon := by
  refine (State.resetPartQps_keeps _ p).canon ?_
  induction xs generalizing s with
  | nil => exact hs
  | cons x xs ih => exact ih ((s.endCtxNow_keeps x).canon hs)

theorem State.freePart_mce {s : State} (hs : s.Canon) (p : Nat) : (s.freePart p).mce = s.mce := by
  unfold State.freePart
  dsimp only
  exact (State.scrubPart_clears (State.endCtxsNow_canon hs _ p) p).2.1.trans (foldl_same State.mce State.endCtxNow_mce _ s)

theorem State.mce_of_sansBrake {s t : State} (h : t.sansBrake = s.sansBrake) : t.mce = s.mce := (congrArg State.mce h :)

theorem State.tamperPart_mce {s : State} (hs : s.Canon) (p : Nat) : (s.tamperPart p).mce = s.mce := by
  unfold State.tamperPart
  split
  · exact State.freePart_mce hs p
  · exact State.freePart_mce hs p
  · exact State.freePart_mce hs p
  · exact State.freePart_mce hs p
  · exact State.mce_of_sansBrake (s.brake_sansBrake p)

theorem State.tamperParts_mce {s : State} (hs : s.Canon) (l : List Nat) : (l.foldl State.tamperPart s).mce = s.mce := by
  induction l generalizing s with
  | nil => rfl
  | cons p l ih => exact (ih ((s.tamperPart_keeps p).canon hs)).trans (State.tamperPart_mce hs p)

theorem Mce.tampered_of_flags {x y : Mce} (h : x.flags = y.flags) : x.tampered = y.tampered ∧ x.pin = y.pin :=
  ⟨(congrArg Prod.fst h :), (congrArg Prod.snd h :)⟩

/-- One identifier freed, its generation over. -/
def Mce.freeKeyId (x : Mce) (k : Nat) : Mce := x.setKeyId k { (x.keyId k).freed with gen := (x.keyId k).gen + 1 }

/-- The memory protection without its links' keys. -/
def Mce.linksGone (x : Mce) : Mce := { x with linkKeys := [] }

theorem Mce.keysFreed_eq (x : Mce) : x.keysFreed = ((List.range 64).foldl Mce.freeKeyId x).linksGone := rfl

theorem Mce.linksGone_rest (x : Mce) : x.linksGone.flags = x.flags ∧ x.linksGone.linkKeys = [] ∧ ∀ k, x.linksGone.keyId k = x.keyId k :=
  ⟨rfl, rfl, fun _ => rfl⟩

theorem Mce.keysFreed_flags (x : Mce) : x.keysFreed.flags = x.flags := by
  rw [Mce.keysFreed_eq, (Mce.linksGone_rest _).1, foldl_same (f := Mce.freeKeyId) Mce.flags fun _ _ => rfl]

theorem Mce.keysFreed_linkKeys (x : Mce) : x.keysFreed.linkKeys = [] := by rw [Mce.keysFreed_eq, (Mce.linksGone_rest _).2.1]

theorem Mce.keyId_freeKeyId (x : Mce) (k j : Nat) :
    (x.freeKeyId k).keyId j = if j = k then { (x.keyId k).freed with gen := (x.keyId k).gen + 1 } else x.keyId j :=
  x.keyId_setKeyId j fun h => absurd (congrArg KeyId.gen h) (Nat.succ_ne_zero _)

theorem Mce.keysFreed_free (x : Mce) {k : Nat} (hk : k < 64) : (x.keysFreed.keyId k).state = .free := by
  rw [Mce.keysFreed_eq, (Mce.linksGone_rest _).2.2]
  refine Mce.keyId_foldl (P := fun i => i.state = .free) (fun x k => ?_) (fun x k j h => ?_) (List.range 64) x k (List.mem_range.mpr hk)
  · rw [x.keyId_freeKeyId, if_pos rfl]
    rfl
  · rw [x.keyId_freeKeyId]
    split
    · rfl
    · exact h

theorem State.upperKeysErased_sansSec (s : State) : s.upperKeysErased.sansSec = s.sansSec :=
  foldl_same State.sansSec (fun b _ => b.eraseKey_sansSec _) _ s

theorem State.upperKeysErased_copyJobs (s : State) : s.upperKeysErased.copyJobs = s.copyJobs :=
  foldl_same State.copyJobs (fun b _ => b.eraseKey_copyJobs _) _ s

theorem State.endSessions_copyJobs (s : State) (p : Session → Bool) : (s.endSessions p).copyJobs = s.copyJobs :=
  foldl_same (f := State.endSession) State.copyJobs (fun _ _ => rfl) _ s

theorem State.memKeysDestroyed_sansSec (s : State) : s.memKeysDestroyed.sansSec = { s.sansSec with mce := s.mce.keysFreed } := by
  unfold State.memKeysDestroyed
  generalize Mce.keysFreed = f
  rfl

theorem State.memKeysDestroyed_copyJobs (s : State) : s.memKeysDestroyed.copyJobs = [] := rfl

/-- Destroying the keys touches, of the memories and partitions, the memory protection alone. -/
theorem State.destroyKeys_sansSec (s : State) : s.destroyKeys.sansSec = { s.sansSec with mce := s.mce.keysFreed } := by
  rw [State.destroyKeys_eq]
  have hlast : ∀ t : State, t.setupKeysDestroyed.sansSec = t.sansSec := fun t => rfl
  rw [hlast, State.upperKeysErased_sansSec, State.endSessions_sansSec, State.memKeysDestroyed_sansSec]

theorem State.mce_of_sansSec {s t : State} {x : Mce} (h : t.sansSec = { s.sansSec with mce := x }) : t.mce = x ∧ t.parts = s.parts :=
  ⟨(congrArg State.mce h :), (congrArg State.parts h :)⟩

theorem State.destroyKeys_copyJobs (s : State) : s.destroyKeys.copyJobs = [] := by
  rw [State.destroyKeys_eq]
  have hlast : ∀ t : State, t.setupKeysDestroyed.copyJobs = t.copyJobs := fun t => rfl
  rw [hlast, State.upperKeysErased_copyJobs, State.endSessions_copyJobs, State.memKeysDestroyed_copyJobs]

theorem State.setupKeysDestroyed_empty (s : State) : s.setupKeysDestroyed.sec.charters = [] ∧ s.setupKeysDestroyed.sec.attKey = none ∧
    s.setupKeysDestroyed.sec.bootCert = [] ∧ s.setupKeysDestroyed.sec.setups = [] ∧ s.setupKeysDestroyed.sec.peerSetups = [] ∧
    ∀ k, (s.setupKeysDestroyed.port k).subs = [] :=
  ⟨rfl, rfl, rfl, rfl, rfl, fun k => NatMap.get_mapVals_all (P := fun x : Port => x.subs = []) rfl (fun _ _ => rfl) s.ports k⟩

/-- A tamper event noted. -/
def Mce.noted (pin : Bool) (x : Mce) : Mce := { x with tampered := true, pin := x.pin || pin, glitch := x.glitch || !pin }

/-- The state in which a tamper event is noted. -/
def State.flagged (s : State) (pin : Bool) : State := s.modMce (Mce.noted pin)

theorem State.flagged_eq (s : State) (pin : Bool) :
    s.flagged pin = { s with mce := { s.mce with tampered := true, pin := s.mce.pin || pin, glitch := s.mce.glitch || !pin } } := rfl

theorem State.flagged_canon {s : State} (hs : s.Canon) (pin : Bool) : (s.flagged pin).Canon := (s.modMce_keeps (Mce.noted pin) fun _ h => h).canon hs

/-- The end of a tamper event: the Granary is cleared and the fault raised. -/
def State.struck (s : State) : State := State.raise { s with granary := [] } { code := 0x080B, loc := locSec 0xFF, severity := 1 }

theorem State.struck_memory (s : State) : s.struck.mce = s.mce ∧ s.struck.granary = [] ∧ s.struck.parts = s.parts ∧ s.struck.copyJobs = s.copyJobs :=
  ⟨State.raise_mce .., State.raise_granary .., State.raise_parts .., State.raise_copyJobs ..⟩

theorem State.struck_sec {α : Type} (s : State) (g : Security → α) (hg : ∀ x n c, g (x.setSession n c) = g x) : g s.struck.sec = g s.sec :=
  State.raise_sec { s with granary := [] } _ g hg

theorem State.struck_subs (s : State) (k : Nat) : (s.struck.port k).subs = (s.port k).subs :=
  State.port_of_sansDrops (State.raise_portsSansDrops { s with granary := [] } _) Port.subs (fun _ => rfl) k

/-- The first tamper event: every key and identifier is gone, every partition stopped. -/
theorem State.tamper_first {s : State} (h : s.mce.tampered = false) (pin : Bool) : s.tamper pin =
    ((List.range 16).foldl State.tamperPart (s.flagged pin)).destroyKeys.struck := by
  unfold State.tamper
  dsimp only
  exact if_neg fun hagain => Bool.false_ne_true (h.symm.trans hagain)

theorem State.tamper_again {s : State} (h : s.mce.tampered = true) (pin : Bool) :
    s.tamper pin = { s with mce := { s.mce with pin := s.mce.pin || pin, glitch := s.mce.glitch || !pin } } := by
  exact (if_pos h).trans (congrArg (fun b => { s with mce := { s.mce with tampered := b, pin := s.mce.pin || pin, glitch := s.mce.glitch || !pin } }) h.symm)

/-! ### The places of Pond -/

theorem pondUsable_pondPlace (a : Nat) : pondUsable (pondPlace a).1 (pondPlace a).2 = some a := by
  unfold pondUsable pondPlace
  dsimp only
  rw [if_pos (by omega)]
  exact congrArg some (by omega)

theorem pondPlace_pondUsable {c off a : Nat} (hc : c < 16) (h : pondUsable c off = some a) : pondPlace a = (c, off) := by
  unfold pondUsable at h
  dsimp only at h
  split at h
  · next hdata =>
    cases h
    exact Prod.ext (by unfold pondPlace; dsimp only; omega) (by unfold pondPlace; dsimp only; omega)
  · cases h

/-! ### A line of memory -/

theorem linesOf_line (n : Nat) : linesOf (64 * n) 64 = [n] := by
  have hcount : (64 * n + 64 - 1) / 64 - 64 * n / 64 + 1 = 1 := by omega
  have hfirst : 64 * n / 64 = n := by omega
  rw [linesOf, if_neg (by decide), hcount, hfirst]
  rfl

/-- A whole line written afresh. -/
def Dram.freshLine (d : Dram) (c : Cred) (n : Nat) (bs : List Byte) : Dram :=
  (d.put (64 * n) bs).setLine n { written := true, kid := c.kid, keyGen := c.gen, epoch := c.epoch, la := n }

theorem Dram.write_line (d : Dram) (c : Cred) (n : Nat) {bs : List Byte} (h : bs.length = 64) : d.write c (64 * n) bs = (d.freshLine c n bs, {}) := by
  have hlo : max (64 * n) (64 * n) = 64 * n := Nat.max_self _
  have hhi : min (64 * n + bs.length) (64 * n + 64) = 64 * n + 64 := by rw [h, Nat.min_self]
  have hwhole : slice bs 0 64 = bs := by rw [slice, List.drop_zero, List.take_of_length_le (Nat.le_of_eq h)]
  rw [Dram.write, h, linesOf_line]
  show Dram.writeLine c (64 * n) bs (d, {}) n = _
  unfold Dram.writeLine
  dsimp only
  rw [hlo, hhi, Nat.add_sub_cancel_left, if_pos rfl, Nat.sub_self, hwhole]
  rfl

theorem Dram.read_line (d : Dram) (c : Cred) (n : Nat) :
    d.read c (64 * n) 64 = ((List.range 64).map fun i => d.get (64 * n + i), Dram.readLine c (d, {}) n) := by
  rw [Dram.read, linesOf_line]
  rfl

theorem Dram.line_setLine {d : Dram} (hd : d.Canon) (n : Nat) (l : LineMeta) : (d.setLine n l).line n = l := NatMap.get_set_self hd.lines n l

theorem Dram.freshLine_line {d : Dram} (hd : d.Canon) (c : Cred) (n : Nat) (bs : List Byte) :
    (d.freshLine c n bs).line n = { written := true, kid := c.kid, keyGen := c.gen, epoch := c.epoch, la := n } :=
  Dram.line_setLine (Dram.put_canon _ bs hd) n _

theorem Dram.freshLine_bytes {d : Dram} (hd : d.Canon) (c : Cred) (n : Nat) {bs : List Byte} (h : bs.length = 64) :
    ((List.range 64).map fun i => (d.freshLine c n bs).get (64 * n + i)) = bs := by
  refine List.ext_getElem (by rw [List.length_map, List.length_range, h]) fun i _ hi => ?_
  rw [List.getElem_map, List.getElem_range]
  exact NatMap.get_setList hd.bytes (64 * n) bs hi

/-- A line under other keys or of another place fails its tag. -/
theorem LineMeta.tagOk_iff {l : LineMeta} {c : Cred} {n : Nat} :
    l.tagOk c n = true ↔ l.written = true ∧ ({ kid := l.kid, gen := l.keyGen, epoch := l.epoch } : Cred) = c ∧ l.la = n := by
  obtain ⟨kid, gen, epoch⟩ := c
  simp only [LineMeta.tagOk, Bool.and_eq_true, beq_iff_eq, Cred.mk.injEq, and_assoc]

theorem Dram.readLine_good {d : Dram} {c : Cred} {n : Nat} (herror : (d.line n).error = 0) (hpoison : (d.line n).poisoned = false)
    (htag : (d.line n).tagOk c n = true) : Dram.readLine c (d, {}) n = (d, {}) := by
  have hfind : (d.line n).find c n = .good := by
    rw [LineMeta.find, herror, hpoison, htag]
    rfl
  rw [Dram.readLine, hfind]

theorem codeFind_single {e : Nat} (he : 0 < e) (h : errorSymbols e ≤ 1) : codeFind e = .corrected :=
  (if_neg (Nat.ne_of_gt he)).trans (if_pos h)

/-- The tag check of a line that CODE leaves or corrects, and that is not poisoned. -/
theorem Dram.readLine_tagFails {d : Dram} {c : Cred} {n : Nat} (hcode : codeFind (d.line n).error ≠ .uncorrectable) (hpoison : (d.line n).poisoned = false)
    (htag : (d.line n).tagOk c n = false) : (Dram.readLine c (d, {}) n).2.fault = some (0x0507, 64 * n) := by
  have hfind : (d.line n).find c n = .tagFail := by
    unfold LineMeta.find
    dsimp only
    rw [if_neg hcode, hpoison, if_neg Bool.false_ne_true, if_pos (.inl (by rw [htag]; rfl))]
  rw [Dram.readLine, hfind]
  rfl

theorem Dram.readLine_corrects {d : Dram} {c : Cred} {n : Nat} (hcode : codeFind (d.line n).error = .corrected) (hpoison : (d.line n).poisoned = false)
    (htag : (d.line n).tagOk c n = true) : Dram.readLine c (d, {}) n = (d.correct n, { corr := 1 }) := by
  have hfind : (d.line n).find c n = .corrected := by
    rw [LineMeta.find, hcode, hpoison, htag]
    rfl
  rw [Dram.readLine, hfind]

/-! ### Settling -/

/-- A frame's result as the statement writes it. -/
theorem State.mkaFrame_ends {s u : State} {k : Nat} {m : MkaMsg} {r : Option (List Byte)} {y : SubPort} {w : State}
    (hframe : s.mkaFrame k m = if r.isNone then u else (u.mkaTake k m).macsecFell k (s.macsecUp k)) (hr : r ≠ none)
    (htake : u.mkaTake k m = w.withSub k m.sub y) : s.mkaFrame k m = (w.setPort k ((w.port k).setSub m.sub y)).macsecFell k (s.macsecUp k) := by
  rw [hframe, if_neg (by rwa [Option.isNone_iff_eq_none]), htake]
  rfl

theorem State.tamper_spec {s : State} (hs : s.Canon) (pin : Bool) (h : s.mce.tampered = false) :
    (s.tamper pin).mce.tampered = true ∧ (s.tamper pin).mce.pin = (s.mce.pin || pin) ∧ (s.tamper pin).granary = [] ∧
      (s.tamper pin).parts = ((List.range 16).foldl State.tamperPart (s.flagged pin)).parts ∧ (s.tamper pin).copyJobs = [] ∧
      (s.tamper pin).sec.charters = [] ∧ (s.tamper pin).sec.attKey = none ∧ (s.tamper pin).sec.bootCert = [] ∧ (s.tamper pin).sec.setups = [] ∧
      (s.tamper pin).sec.peerSetups = [] ∧ (s.tamper pin).mce.linkKeys = [] ∧ (∀ k, k < 64 → ((s.tamper pin).mce.keyId k).state = .free) ∧
      ∀ k, ((s.tamper pin).port k).subs = [] := by
  have hmce := State.tamperParts_mce (State.flagged_canon hs pin) (List.range 16)
  rw [State.tamper_first h]
  generalize (List.range 16).foldl State.tamperPart (s.flagged pin) = u at hmce ⊢
  have hrest := u.destroyKeys_sansSec
  obtain ⟨hkeys, hparts⟩ := State.mce_of_sansSec hrest
  have hflags := u.mce.keysFreed_flags
  have hlinks := u.mce.keysFreed_linkKeys
  have hfree := fun {k : Nat} (hk : k < 64) => u.mce.keysFreed_free hk
  generalize u.mce.keysFreed = x at hkeys hflags hlinks hfree
  rw [hmce] at hflags
  obtain ⟨hcharters, hatt, hcert, hsetups, hpeers, hsubs⟩ := State.setupKeysDestroyed_empty ((u.memKeysDestroyed.endSessions fun _ => true).upperKeysErased)
  rw [← State.destroyKeys_eq] at hcharters hatt hcert hsetups hpeers hsubs
  have hjobs := u.destroyKeys_copyJobs
  generalize u.destroyKeys = t at hkeys hparts hcharters hatt hcert hsetups hpeers hsubs hjobs
  obtain ⟨hmemory, hgranary, hpart, hjob⟩ := t.struck_memory
  have hsec := fun {α : Type} (g : Security → α) hg => t.struck_sec g hg
  have hport := t.struck_subs
  generalize t.struck = w at hmemory hgranary hpart hjob hsec hport
  obtain ⟨htampered, hpin⟩ := Mce.tampered_of_flags hflags
  rw [hmemory, hkeys]
  exact ⟨htampered, hpin, hgranary, hpart.trans hparts, hjob.trans hjobs, (hsec Security.charters fun _ _ _ => rfl).trans hcharters,
    (hsec Security.attKey fun _ _ _ => rfl).trans hatt, (hsec Security.bootCert fun _ _ _ => rfl).trans hcert,
    (hsec Security.setups fun _ _ _ => rfl).trans hsetups, (hsec Security.peerSetups fun _ _ _ => rfl).trans hpeers, hlinks,
    fun k hk => hfree hk, fun k => (hport k).trans (hsubs k)⟩

theorem State.debugOpen_mission {s : State} (h : s.lcState = 3) :
    (∀ t, s.debugOpen (.scanTile t) = s.scanOpen t) ∧ s.debugOpen .security = false ∧ s.debugOpen .scanOther = false ∧
      s.debugOpen .testMode = false ∧ s.debugOpen .otpWrite = false := by
  unfold State.debugOpen
  rw [h]
  exact ⟨fun _ => rfl, rfl, rfl, rfl, rfl⟩

theorem State.debugOpen_scrap {s : State} (h : s.lcState = 5) (u : DebugUnit) : s.debugOpen u = false := by
  unfold State.debugOpen
  rw [h]
  cases u <;> rfl

/-- Settles O47. -/
theorem linksAndTamperProtectTheDevice : Obligations.LinksAndTamperProtectTheDevice := by
  unfold Obligations.LinksAndTamperProtectTheDevice
  refine ⟨fun s hs => ⟨fun k h => congrArg Host.Outcome.next (if_pos h), fun k h => congrArg Host.Outcome.next (if_neg (by rw [h]; exact Bool.false_ne_true)),
      fun k => rfl, fun k n pn => ⟨fun h => congrArg Host.Outcome.next (State.sakRekey_off h pn), fun hen hkn hserver => ?_, fun hen hkn hserver r u huse => ?_⟩,
      fun k m h => congrArg Host.Outcome.next (State.mkaFrame_ignored h), fun k m r u hopen hen hicv hsub huse => ?_, fun k n => ?_,
      fun pin h => congrArg Host.Outcome.next (State.tamper_again h pin), fun pin h => ⟨s.tamper pin, rfl, ?_⟩⟩,
    fun a => ⟨rfl, pondUsable_pondPlace a⟩, fun c off a hc h => pondPlace_pondUsable hc h, by decide, fun d c n bs hd hlen => ?_,
    fun d c n hd herror hsymbols hpoison => ?_, fun s => ⟨fun t a w p ht hp ha => ?_, fun h => ?_, fun h u => State.debugOpen_scrap h u⟩⟩
  · exact congrArg Host.Outcome.next ((State.sakRekey_on hen hkn pn).trans (if_neg (by rw [hserver]; exact Bool.false_ne_true)))
  · have hrekey := State.sakRekey_on hen hkn pn
    rw [hserver, if_pos rfl, huse] at hrekey
    refine ⟨fun hr => congrArg Host.Outcome.next (hrekey.trans ?_), fun hr => congrArg Host.Outcome.next (hrekey.trans ?_)⟩
    · rw [hr]
      rfl
    · exact if_pos (Option.isSome_iff_ne_none.mpr hr)
  · have hframe := State.mkaFrame_taken hopen hen hicv hsub huse
    have hu := State.useOnce_canon hs huse
    refine ⟨fun hr => congrArg Host.Outcome.next (hframe.trans (by rw [hr]; rfl)), fun hr => ⟨fun hserves hsak => ?_, fun hserves hsak => ?_,
      fun hserves hsame => ?_, fun kn an key hserves hsak hother => ?_⟩⟩
    · exact congrArg Host.Outcome.next (State.mkaFrame_ends hframe hr (State.mkaTake_holds hu hserves hsak))
    · exact congrArg Host.Outcome.next (State.mkaFrame_ends hframe hr (State.mkaTake_distributes hu hserves hsak))
    · exact congrArg Host.Outcome.next (State.mkaFrame_ends hframe hr (State.mkaTake_same hu hserves hsame))
    · exact congrArg Host.Outcome.next (State.mkaFrame_ends hframe hr (State.mkaTake_other hu hserves hsak hother))
  · exact ⟨fun h => congrArg Host.Outcome.next (State.macsecFell_plain (s := s.withSub k n {}) h _), fun p l h => congrArg Host.Outcome.next (State.macsecFell_charter (s := s.withSub k n {}) h _),
      fun hsubs hn => State.macsecUp_cleared hs hsubs hn⟩
  · have hspec := State.tamper_spec hs pin h
    rw [State.flagged_eq] at hspec
    exact hspec
  · have hline := Dram.freshLine_line hd c n bs
    rw [Dram.write_line d c n hlen]
    dsimp only
    refine ⟨rfl, ?_, ?_, fun c' hc' => ?_⟩
    · rw [Dram.read_line]
      exact Dram.freshLine_bytes hd c n hlen
    · rw [Dram.read_line, Dram.readLine_good (by rw [hline]) (by rw [hline]) (by rw [hline]; exact LineMeta.tagOk_iff.mpr ⟨rfl, rfl, rfl⟩)]
    · rw [Dram.read_line]
      refine Dram.readLine_tagFails (by rw [hline]; exact nofun) (by rw [hline]) ?_
      rw [hline, ← Bool.not_eq_true]
      exact fun h => hc' (LineMeta.tagOk_iff.mp h).2.1.symm
  · have hcode := codeFind_single herror hsymbols
    refine ⟨fun htag => ?_, fun htag => ?_, fun hla => ?_⟩
    · rw [Dram.read_line, Dram.readLine_corrects hcode hpoison htag]
      exact ⟨rfl, Dram.line_setLine hd n _⟩
    · rw [Dram.read_line]
      exact Dram.readLine_tagFails (by rw [hcode]; exact nofun) hpoison htag
    · rw [← Bool.not_eq_true]
      exact fun h => hla (LineMeta.tagOk_iff.mp h).2.2
  · refine if_pos ?_
    rw [ha, ht, Option.any_some, hp]
    rfl
  · obtain ⟨hscan, hclosed⟩ := State.debugOpen_mission h
    refine ⟨fun t ht => ?_, hclosed⟩
    rw [hscan, State.scanOpen, Bool.or_eq_true, Bool.and_eq_true, Option.isNone_iff_eq_none] at ht
    exact ht.imp And.left id

end Sys2Proof.Machine

/-! PROOFS. O39: RDMA requests and queue pairs (R57, R279, R283 to R286, R303, R306). -/
namespace Sys2Proof.Machine
open Sys2Proof

/-! ### What a packet of a queue pair leaves -/

theorem State.sendRoce_rest (s : State) (n : Nat) (m : OutMsg) : { s.sendRoce n m with out := s.out, ports := s.ports } = s := by
  unfold State.sendRoce
  split_ifs <;> rfl

/-- A requester's state once a marked request has its CNP. -/
def State.noticed (s : State) (r : RoceReq) : State := if r.ecn then s.sendRoce r.qp (.cnp r.qp) else s

theorem State.noticed_rest (s : State) (r : RoceReq) : { s.noticed r with out := s.out, ports := s.ports } = s := by
  unfold State.noticed
  split
  · exact s.sendRoce_rest ..
  · rfl

theorem State.noticed_qps (s : State) (r : RoceReq) : (s.noticed r).qps = s.qps := (congrArg State.qps (s.noticed_rest r) :)

theorem State.noticed_qp (s : State) (r : RoceReq) (n : Nat) : (s.noticed r).qp n = s.qp n :=
  congrArg (fun m => NatMap.get ({} : Qp) m n) (s.noticed_qps r)

theorem State.noticed_chartered (s : State) (r : RoceReq) (x : Nat) :
    (s.noticed r).chartered ((s.noticed r).ctx x).desc.part = s.chartered (s.ctx x).desc.part :=
  (congrArg (fun t : State => t.chartered (t.ctx x).desc.part) (s.noticed_rest r) :)

theorem State.noticed_canon {s : State} (hs : s.Canon) (r : RoceReq) : (s.noticed r).Canon := by
  unfold State.noticed
  split
  · exact (s.sendRoce_keeps ..).canon hs
  · exact hs

theorem Qp.ne_of_rts {q : Qp} (h : q.state = .rts) : q ≠ {} := fun heq => nomatch h.symm.trans (congrArg Qp.state heq)

theorem State.qp_setQp_same (s : State) (n : Nat) {q : Qp} (h : q.state = .rts) : (s.setQp n q).qp n = q := NatMap.get_set_same _ _ (Qp.ne_of_rts h)

theorem State.modQp_of_qps {s : State} {n : Nat} {q : Qp} (h : s.qp n = q) (f : Qp → Qp) : s.modQp n f = s.setQp n (f q) := by rw [State.modQp, h]

/-! ### A request is taken -/

section
variable {s : State} {r : RoceReq} (hdrops : s.portDrops r.port = false) (hopen : s.netOpen = true) (hprio : r.prio = 3)
  (hrts : (s.qp r.qp).state = .rts) (hport : (s.qp r.qp).onPort = r.port) (hblocked : s.roceBlocked r.qp = false)
include hdrops hopen hprio hrts hport hblocked

theorem State.onRequest_open (f again : Qp → State → State) : s.onRequest r f again =
    if r.psn = (s.qp r.qp).expPsn then f (s.qp r.qp) (s.noticed r)
    else if ((s.qp r.qp).expPsn + 2 ^ 24 - r.psn) % 2 ^ 24 < 2 ^ 23 then again (s.qp r.qp) (s.noticed r)
    else (s.noticed r).sendRoce r.qp (.roceAck r.qp (s.qp r.qp).expPsn nakSequence) := by
  have htaken : ¬ (!s.netOpen ∨ r.prio ≠ 3 ∨ (s.qp r.qp).state ≠ .rts ∨ (s.qp r.qp).onPort ≠ r.port) := by
    rw [hopen]
    rintro (h | h | h | h)
    · exact Bool.false_ne_true h
    · exact h hprio
    · exact h hrts
    · exact h hport
  unfold State.onRequest
  dsimp only
  rw [if_neg (by rw [hdrops]; exact Bool.false_ne_true), if_neg htaken, if_neg (by rw [hblocked]; exact Bool.false_ne_true)]
  rfl

theorem State.onRequest_expected (hpsn : r.psn = (s.qp r.qp).expPsn) (f again : Qp → State → State) :
    s.onRequest r f again = f (s.qp r.qp) (s.noticed r) := (State.onRequest_open hdrops hopen hprio hrts hport hblocked f again).trans (if_pos hpsn)

theorem State.onRequest_repeated (hpsn : r.psn ≠ (s.qp r.qp).expPsn) (hold : ((s.qp r.qp).expPsn + 2 ^ 24 - r.psn) % 2 ^ 24 < 2 ^ 23)
    (f again : Qp → State → State) : s.onRequest r f again = again (s.qp r.qp) (s.noticed r) :=
  (State.onRequest_open hdrops hopen hprio hrts hport hblocked f again).trans ((if_neg hpsn).trans (if_pos hold))

end

theorem State.onRequest_dropped {s : State} {r : RoceReq} (hdrops : s.portDrops r.port = true) (f again : Qp → State → State) :
    s.onRequest r f again = s.countPortDrop r.port := if_pos hdrops

theorem State.onRequest_ignored {s : State} {r : RoceReq} (hdrops : s.portDrops r.port = false)
    (h : s.netOpen = false ∨ r.prio ≠ 3 ∨ (s.qp r.qp).state ≠ .rts ∨ (s.qp r.qp).onPort ≠ r.port) (f again : Qp → State → State) :
    s.onRequest r f again = s :=
  (if_neg (by rw [hdrops]; exact Bool.false_ne_true)).trans (if_pos (h.imp_left fun h => by rw [h]; rfl))

/-! ### WRITE -/

/-- A WRITE in sequence, in the state with its CNP answered. -/
def State.writeTaken (s : State) (r : RoceReq) (q : Qp) : State :=
  if r.first then
    if 2 ^ 31 < r.len then s.sendRoce r.qp (.roceAck r.qp r.psn nakInvalid)
    else if r.len = 0 then s.placeWrite r.qp r.rkey {} r.va 0 r
    else match s.checkObj q.onCtx r.rkey r.va r.len .hbmWrite with
      | .error _ => s.rdmaFails r.qp r.psn 0x0704
      | .ok o => s.placeWrite r.qp r.rkey o r.va r.len r
  else match q.write with
    | none => s.sendRoce r.qp (.roceAck r.qp r.psn nakInvalid)
    | some (h, o, off, left) => s.placeWrite r.qp h o off left r

theorem State.rdmaWrite_eq (s : State) (r : RoceReq) : s.rdmaWrite r =
    s.onRequest r (fun q s => s.writeTaken r q) fun _ s => s.sendRoce r.qp (.roceAck r.qp r.psn 0) := rfl

section
variable {s : State} {r : RoceReq} {q : Qp} (hfirst : r.first = true) (hlen : 0 < r.len) (hmax : r.len ≤ 2 ^ 31)
include hfirst hlen hmax

theorem State.writeTaken_placed {o : Obj} (ho : s.checkObj q.onCtx r.rkey r.va r.len .hbmWrite = .ok o) :
    s.writeTaken r q = s.placeWrite r.qp r.rkey o r.va r.len r := by
  unfold State.writeTaken
  rw [if_pos hfirst, if_neg (Nat.not_lt.mpr hmax), if_neg (Nat.ne_of_gt hlen), ho]

theorem State.writeTaken_fails {e : Nat} (he : s.checkObj q.onCtx r.rkey r.va r.len .hbmWrite = .error e) :
    s.writeTaken r q = s.rdmaFails r.qp r.psn 0x0704 := by
  unfold State.writeTaken
  rw [if_pos hfirst, if_neg (Nat.not_lt.mpr hmax), if_neg (Nat.ne_of_gt hlen), he]

end

/-- A packet of the length that is due, stored without a fault. -/
theorem State.placeWrite_stored {s u : State} {n h off left : Nat} {o : Obj} {r : RoceReq} (hdata : r.data.length = min 4096 left)
    (hlast : r.last = decide (left ≤ 4096)) (hstore : s.storeWrite n h o off r = (none, u)) : s.placeWrite n h o off left r =
      let t := u.modQp n fun q =>
        { q with expPsn := (q.expPsn + 1) % 2 ^ 24, write := if r.last then none else some (h, o, off + min 4096 left, left - min 4096 left) }
      if r.last then t.sendRoce n (.roceAck n r.psn 0) else t := by
  unfold State.placeWrite
  dsimp only
  rw [if_neg (not_or.mpr ⟨not_not.mpr hdata, not_not.mpr hlast⟩), hstore]

theorem State.storeWrite_memory {s : State} {n h off : Nat} {o : Obj} {r : RoceReq} (hdata : r.data.length ≠ 0) (hqueue : handleIndex h ≠ 1) :
    s.storeWrite n h o off r = s.writeObj (s.qp n).onCtx o off r.data := (if_neg fun h => hdata h.1).trans (if_pos hqueue)

theorem State.storeWrite_queue {s : State} {n h off : Nat} {o : Obj} {r : RoceReq} (hdata : r.data.length ≠ 0) (hqueue : handleIndex h = 1)
    (hfirst : r.first = true) : s.storeWrite n h o off r =
      if r.last then (s.setQp n { s.qp n with held := [] }).writeObj (s.qp n).onCtx o off r.data else (none, s.setQp n { s.qp n with held := r.data }) := by
  unfold State.storeWrite
  dsimp only
  rw [if_neg fun h => hdata h.1, if_neg (not_not.mpr hqueue), if_pos hfirst, Nat.add_sub_cancel]

theorem State.writeObj_qps (s : State) (x : Nat) (o : Obj) (off : Nat) (bs : List Byte) : (s.writeObj x o off bs).2.qps = s.qps := by
  unfold State.writeObj
  split <;> rfl

theorem State.qp_of_qps {s t : State} (h : t.qps = s.qps) (n : Nat) : t.qp n = s.qp n := congrArg (fun m => NatMap.get ({} : Qp) m n) h

/-! ### READ -/

theorem State.serveRead_checked {s : State} {r : RoceReq} {q : Qp} (fresh : Bool) (hmax : r.len ≤ 2 ^ 31)
    (hplain : q.onCtx = 0 ∨ s.chartered (s.ctx q.onCtx).desc.part = false) (hlen : 0 < r.len) {o : Obj}
    (ho : s.checkObj q.onCtx r.rkey r.va r.len .rdmaRead = .ok o) {bs : List Byte} {u : State}
    (hread : s.readObj q.onCtx o r.va r.len = (bs, none, u)) : s.serveRead r fresh q = u.answerRead r fresh bs := by
  have hopen : ¬ (q.onCtx ≠ 0 ∧ s.chartered (s.ctx q.onCtx).desc.part = true) := fun ⟨hctx, hch⟩ =>
    hplain.elim hctx fun h => Bool.false_ne_true (h.symm.trans hch)
  unfold State.serveRead
  rw [if_neg (Nat.not_lt.mpr hmax), if_neg hopen, if_neg (Nat.ne_of_gt hlen), ho]
  dsimp only
  rw [hread]

/-! ### The other packets of a queue pair -/

theorem State.onRoce_open {s : State} {n : Nat} (hrts : (s.qp n).state = .rts) (hblocked : s.roceBlocked n = false)
    (hdrops : s.portDrops (s.qp n).onPort = false) (hopen : s.netOpen = true) (f : State → State) : s.onRoce n f = f s := by
  unfold State.onRoce
  dsimp only
  rw [if_neg (not_not.mpr hrts), hdrops, hopen, hblocked]
  rfl

theorem State.onRoce_dropped {s : State} {n : Nat} (hrts : (s.qp n).state = .rts) (hdrops : s.portDrops (s.qp n).onPort = true)
    (f : State → State) : s.onRoce n f = s.countPortDrop (s.qp n).onPort := (if_neg (not_not.mpr hrts)).trans (if_pos hdrops)

theorem State.connect_ready {s : State} {n : Nat} (hstate : (s.qp n).state = .reset) (hctx : (s.qp n).ctx = 0) (hport : (s.qp n).port < 8) :
    s.connect n = { (s.setQp n (s.qp n).connect).ethStatus 0 with
      ctxs := NatMap.mapVals {} (fun _ c => if c.desc.eventQp = n then { c with qpError := false } else c) s.ctxs } := by
  have hok : s.qpCtxOk (s.qp n) = true := (if_pos hctx).trans (decide_eq_true hport)
  unfold State.connect
  dsimp only
  rw [if_neg (not_not.mpr hstate), hok, if_neg (by exact Bool.false_ne_true), if_neg fun h => h.1 hctx]
  rfl

theorem State.portsStopped_iff {s : State} {p : Nat} :
    s.portsStopped p = true ↔ p < 16 ∧ ((s.part p).gov.braking = true ∨ (s.part p).state = .braked) := by
  rw [State.portsStopped, Bool.and_eq_true, decide_eq_true_iff, Bool.or_eq_true, beq_iff_eq]

/-- Settles O39. -/
theorem remoteRequestsRunOnQueuePairs : Obligations.RemoteRequestsRunOnQueuePairs := by
  unfold Obligations.RemoteRequestsRunOnQueuePairs
  refine ⟨fun s r hs hdrops hopen hprio hrts hport hblocked => ?_, fun s r => ⟨fun hdrops => ?_, fun hdrops h => ?_⟩, fun s n hs hn => ?_⟩
  · intro q v
    have hv : v = s.noticed r := rfl
    have hvq : v.qp r.qp = q := s.noticed_qp r r.qp
    have hfrom : ∀ u : State, u.qps = v.qps → u.qp r.qp = q := fun u hu => (State.qp_of_qps hu _).trans hvq
    refine ⟨fun hpsn => ?_, fun hpsn hold => ?_⟩
    · have hwrites := fun t (ht : v.writeTaken r q = t) => congrArg (Host.Outcome.next (φ := Fault) (ρ := Refusal))
        ((s.rdmaWrite_eq r).trans ((State.onRequest_expected hdrops hopen hprio hrts hport hblocked hpsn _ _).trans ht))
      have hreads := fun t (ht : v.serveRead r true q = t) => congrArg (Host.Outcome.next (φ := Fault) (ρ := Refusal))
        ((State.onRequest_expected hdrops hopen hprio hrts hport hblocked hpsn (fun q s => s.serveRead r true q) fun q s => s.serveRead r false q).trans ht)
      refine ⟨fun hlong hfirst => hwrites _ ((if_pos hfirst).trans (if_pos hlong)), fun hlong => hreads _ (if_pos hlong),
        fun o u hfirst hlast hlen hone hdata hidx ho hstore hqps => hwrites _ ?_, fun o u hfirst hlast hlen hone hdata hidx ho hstore => ?_,
        fun o hfirst hlast hlen hmax hdata hidx ho => ?_, fun e hfirst hlen hmax he => hwrites _ ?_,
        fun o bs u hlen hmax hplain ho hread hqps => hreads _ ?_⟩
      · have hstored : v.storeWrite r.qp r.rkey o r.va r = (none, u) := by
          rw [State.storeWrite_memory (by omega) hidx, hvq, hstore]
        rw [State.writeTaken_placed hfirst hlen (by omega) ho,
          State.placeWrite_stored (by omega) (by rw [hlast, decide_eq_true hone]) hstored, hlast, State.modQp_of_qps (hfrom u hqps)]
        rfl
      · have hstored : v.storeWrite r.qp r.rkey o r.va r = (none, u) := by
          rw [State.storeWrite_queue (by omega) hidx hfirst, hvq, if_pos hlast, hstore]
        have huqps : u.qps = (v.setQp r.qp { q with held := [] }).qps := by
          have h := State.writeObj_qps (v.setQp r.qp { q with held := [] }) q.onCtx o r.va r.data
          rwa [hstore] at h
        have huq : u.qp r.qp = { q with held := [] } := (State.qp_of_qps huqps _).trans (State.qp_setQp_same _ _ hrts)
        refine ⟨u.setQp r.qp { q with expPsn := (q.expPsn + 1) % 2 ^ 24, write := none, held := [] }, hwrites _ ?_, rfl,
          State.qp_setQp_same _ _ hrts⟩
        rw [State.writeTaken_placed hfirst hlen (by omega) ho,
          State.placeWrite_stored (by omega) (by rw [hlast, decide_eq_true hone]) hstored, hlast, State.modQp_of_qps huq]
        rfl
      · have hstored : v.storeWrite r.qp r.rkey o r.va r = (none, v.setQp r.qp { q with held := r.data }) := by
          rw [State.storeWrite_queue (by omega) hidx hfirst, hvq, hlast]
          rfl
        have hlen' : min 4096 r.len = 4096 := Nat.min_eq_left (Nat.le_of_lt hlen)
        have hq : State.modQp (v.setQp r.qp { q with held := r.data }) r.qp (fun q => { q with
            expPsn := (q.expPsn + 1) % 2 ^ 24
            write := if r.last then none else some (r.rkey, o, r.va + min 4096 r.len, r.len - min 4096 r.len) }) =
            (v.setQp r.qp { q with held := r.data }).setQp r.qp { q with
              held := r.data, expPsn := (q.expPsn + 1) % 2 ^ 24, write := some (r.rkey, o, r.va + 4096, r.len - 4096) } := by
          rw [State.modQp_of_qps (State.qp_setQp_same v r.qp (q := { q with held := r.data }) hrts), hlast, hlen']
          rfl
        have hown := State.qp_setQp_same (v.setQp r.qp { q with held := r.data }) r.qp (q := { q with
          held := r.data, expPsn := (q.expPsn + 1) % 2 ^ 24, write := some (r.rkey, o, r.va + 4096, r.len - 4096) }) hrts
        exact ⟨_, hwrites _ ((State.writeTaken_placed hfirst (by omega) hmax ho).trans ((State.placeWrite_stored (by omega)
          (by rw [hlast, decide_eq_false (Nat.not_le.mpr hlen)]) hstored).trans ((if_neg (by rw [hlast]; exact Bool.false_ne_true)).trans hq))),
          (congrArg Qp.held hown :), (congrArg Qp.write hown :), rfl⟩
      · rw [State.writeTaken_fails hfirst hlen hmax he, State.rdmaFails, hvq]
      · rw [State.serveRead_checked true hmax (by rw [hv, s.noticed_chartered]; exact hplain) hlen ho hread, State.answerRead, if_pos rfl,
          State.modQp_of_qps (hfrom u (hqps.trans (s.noticed_qps r).symm)), Nat.max_eq_right (by omega)]
    · have hagain := fun t (ht : v.serveRead r false q = t) => congrArg (Host.Outcome.next (φ := Fault) (ρ := Refusal))
        ((State.onRequest_repeated hdrops hopen hprio hrts hport hblocked hpsn hold (fun q s => s.serveRead r true q)
          fun q s => s.serveRead r false q).trans ht)
      refine ⟨congrArg Host.Outcome.next ((s.rdmaWrite_eq r).trans (State.onRequest_repeated hdrops hopen hprio hrts hport hblocked hpsn hold _ _)),
        fun o bs u hlen hmax hplain ho hread => hagain _ ?_⟩
      rw [State.serveRead_checked false hmax (by rw [hv, s.noticed_chartered]; exact hplain) hlen ho hread]
      rfl
  · exact ⟨congrArg Host.Outcome.next (State.onRequest_dropped hdrops _ _), congrArg Host.Outcome.next (State.onRequest_dropped hdrops _ _)⟩
  · exact ⟨congrArg Host.Outcome.next (State.onRequest_ignored hdrops h _ _), congrArg Host.Outcome.next (State.onRequest_ignored hdrops h _ _)⟩
  · intro q
    refine ⟨fun hrts hblocked hdrops hopen => ?_, fun hrts hdrops psn nak => ?_, fun hrts hrate hlate => congrArg Host.Outcome.next (if_pos ⟨hrts, hrate, hlate⟩),
      fun hrts hunacked hretries => ?_, fun rq hmay hsel => ⟨fun hreset hctx hport => ?_, fun hreset => ?_, ?_⟩, fun m hblocked => ⟨fun hctx hpart hstop => ?_,
      fun hgoes hmac hdrops htamper => ?_⟩⟩
    · have htaken := fun f => congrArg (Host.Outcome.next (φ := Fault) (ρ := Refusal)) (State.onRoce_open hrts hblocked hdrops hopen f)
      have hacked := fun psn => State.qp_setQp_same s n (q := q.ackedBefore psn) hrts
      refine ⟨fun psn => htaken _, fun psn => ⟨s.setQp n (q.ackedBefore ((psn + 1) % 2 ^ 24)), htaken _, fun e => ?_, ?_, rfl⟩, htaken _⟩
      · rw [hacked, Qp.ackedBefore, List.mem_filter, decide_eq_true_iff]
      · rw [hacked]
        rfl
    · exact ⟨congrArg Host.Outcome.next (State.onRoce_dropped hrts hdrops _), congrArg Host.Outcome.next (State.onRoce_dropped hrts hdrops _),
        congrArg Host.Outcome.next (State.onRoce_dropped hrts hdrops _)⟩
    · refine congrArg Host.Outcome.next ((if_neg ?_).trans (if_neg (Nat.not_le.mpr hretries)))
      exact not_or.mpr ⟨not_not.mpr hrts, fun h => hunacked (List.isEmpty_iff.mp h)⟩
    · have hruns : exec (.connect rq) s = .next (s.connect n) := by
        refine congrArg Host.Outcome.next ((if_pos hmay).trans ?_)
        rw [hsel, Nat.mod_eq_of_lt hn]
      have hq : (s.setQp n q.connect).qp n = q.connect := State.qp_setQp_same _ _ rfl
      refine ⟨_, hruns.trans (congrArg Host.Outcome.next (State.connect_ready hreset hctx hport)), ?_⟩
      exact ⟨(congrArg Qp.state hq :), (congrArg Qp.expPsn hq :), (congrArg Qp.nextPsn hq :), (congrArg Qp.onPort hq :), rfl⟩
    · refine congrArg Host.Outcome.next ((if_pos hmay).trans ?_)
      rw [hsel, Nat.mod_eq_of_lt hn]
      exact if_pos hreset
    · have hq := fun j => s.qp_setQp hs.tab.qps n j q.toReset
      have hown : (s.setQp n q.toReset).qp n = q.toReset := (hq n).trans (if_pos rfl)
      refine ⟨(s.setQp n q.toReset).ethStatus 0, ?_, (congrArg Qp.state hown :), (congrArg Qp.unacked hown :), (congrArg Qp.ctx hown :),
        (congrArg Qp.port hown :), fun m hm => (hq m).trans (if_neg hm), rfl⟩
      refine congrArg Host.Outcome.next ((if_pos hmay).trans ?_)
      rw [hsel, Nat.mod_eq_of_lt hn]
      rfl
    · refine if_pos ?_
      rw [State.roceSilent, bne_iff_ne.mpr hctx, State.portsStopped_iff.mpr ⟨hpart, hstop⟩, Bool.and_self, Bool.or_true]
    · have hsilent : s.roceSilent n = false := by
        rw [State.roceSilent, htamper, Bool.false_or, Bool.and_eq_false_iff]
        refine hgoes.imp (fun h => bne_eq_false_iff_eq.mpr h) fun ⟨hbraking, hbraked⟩ => ?_
        rw [← Bool.not_eq_true, State.portsStopped_iff]
        exact fun h => h.2.elim (fun h => Bool.false_ne_true (hbraking.symm.trans h)) hbraked
      unfold State.sendRoce
      rw [hsilent, hblocked, if_neg Bool.false_ne_true, if_neg Bool.false_ne_true, if_neg hmac, hdrops, if_neg Bool.false_ne_true]
      rfl

end Sys2Proof.Machine

/-! PROOFS. O38: the Weir's events at the root, and its messages (R262, R264, R266, R268, R280, R398). -/
namespace Sys2Proof.Machine
open Sys2Proof

/-! ### A Weir message as 64 bytes -/

theorem field_append_skip {a b : List Byte} {o n : Nat} (h : a.length ≤ o) : field (a ++ b) o n = field b (o - a.length) n := by
  rw [field, field, slice_append_skip h]

theorem field_leBytes_head (n v : Nat) (rest : List Byte) (hv : v < 256 ^ n) : field (leBytes n v ++ rest) 0 n = v := by
  rw [field, slice_append_head rest (length_leBytes n v), ofLe_leBytes, Nat.mod_eq_of_lt hv]

theorem flag_eq_one (b : Bool) : (flag b == 1) = b := by cases b <;> rfl

theorem WeirMsg.length_bytes (m : WeirMsg) : m.bytes.length = 64 := length_padTo 64 _

theorem weirMsgOf_bytes {m : WeirMsg} (hkind : m.kind < 256) (hflags : m.flags < 256) (hindex : m.index < 65536) (hepoch : m.epoch < 2 ^ 32)
    (hreplica : m.replica < 256) (hposition : m.position < 256) (hblame : m.blame < 256) (hmembers : m.members < 2 ^ 64) :
    weirMsgOf m.bytes = m := by
  have hbytes : m.bytes = leBytes 1 m.kind ++ (leBytes 1 m.flags ++ (leBytes 2 m.index ++ (leBytes 4 m.epoch ++ (leBytes 1 m.replica ++
      (leBytes 1 m.position ++ (leBytes 1 m.blame ++ (leBytes 1 (flag m.quorum) ++ (leBytes 4 0 ++ (leBytes 8 m.members ++
        List.replicate 40 0))))))))) := by
    rw [WeirMsg.bytes, padTo, List.take_append, List.take_of_length_le (by simp [length_leBytes])]
    simp [length_leBytes, List.append_assoc]
  have hquorum : flag m.quorum < 256 ^ 1 := by cases m.quorum <;> decide
  unfold weirMsgOf
  rw [hbytes]
  simp (disch := simp [length_leBytes]) only [field_append_skip, length_leBytes, Nat.reduceSub]
  rw [field_leBytes_head 1 _ _ (by omega), field_leBytes_head 1 _ _ (by omega), field_leBytes_head 2 _ _ (by omega),
    field_leBytes_head 4 _ _ (by omega), field_leBytes_head 1 _ _ (by omega), field_leBytes_head 1 _ _ (by omega),
    field_leBytes_head 1 _ _ (by omega), field_leBytes_head 1 _ _ hquorum, field_leBytes_head 8 _ _ (by omega), flag_eq_one]

/-! ### Arrivals and errors at a node -/

theorem Weir.counterEntry_index {w : Weir} {i : Nat} {e : CounterEntry} (h : w.counterEntry i = some e) : e.index = i := by
  unfold Weir.counterEntry at h
  split at h
  · have hfound := List.find?_some h
    exact beq_iff_eq.mp hfound
  · cases h

/-- An arrival of another epoch at its root. -/
theorem State.weirReceive_stale {s : State} {p : Nat} {m : WeirMsg} {e : CounterEntry} (he : (s.weir p).counterEntry m.index = some e)
    (hkind : m.kind = 0) (hroot : (s.weir p).isRoot e = true) (hepoch : ((s.weir p).obj e.index).epoch ≠ m.epoch) :
    s.weirReceive p m = s.setWeir p { s.weir p with stale := (s.weir p).stale.add 1 } := by
  unfold State.weirReceive
  dsimp only
  rw [he]
  dsimp only
  rw [hkind, hroot]
  refine (if_pos (.inl hepoch)).trans ?_
  rw [if_pos hepoch]

theorem State.rootWait_due {s : State} {p i at0 : Nat} {e : CounterEntry} (he : (s.weir p).counterEntry i = some e)
    (hfirst : ((s.weir p).obj i).firstArrival = some at0) (hroot : (s.weir p).isRoot e = true) (hgood : ((s.weir p).obj i).failed = false) :
    s.rootWait p i = if at0 + 64 * e.rootWait ≤ s.mill.now then (s.rootDecide p e .abortStep).barriers p else s := by
  unfold State.rootWait
  dsimp only
  rw [he, hfirst, hgood]
  exact if_congr (by rw [hroot]; exact ⟨fun h => h.2.2, fun h => ⟨rfl, rfl, h⟩⟩) rfl rfl

theorem State.nodeEcc_eq {s : State} {p i : Nat} {e : CounterEntry} (he : (s.weir p).counterEntry i = some e) :
    s.nodeEcc p i = if ((s.weir p).obj i).failed then s.countUncorr 2
      else if (s.weir p).isRoot e then ((s.countUncorr 2).eccRelease p e).barriers p
      else (s.countUncorr 2).weirTo p [(s.weir p).rootOf e]
        { kind := 5, index := i, epoch := ((s.weir p).obj i).epoch, replica := (s.weir p).tbl.replica, position := (s.weir p).tbl.position } := by
  unfold State.nodeEcc
  dsimp only
  rw [he]

/-! ### A shard that is decided on its roots -/

theorem voteOn_same {a : Nat} {l : List Nat} (h : ∀ b ∈ l, b = a) : voteOn (a :: l) = .agree := by
  refine if_pos ?_
  rw [List.all_eq_true]
  intro b hb
  rw [List.head?_cons, beq_iff_eq, Option.some_inj]
  rcases List.mem_cons.mp hb with rfl | hb
  · rfl
  · exact (h b hb).symm

/-- A shard whose roots agree is resolved, and nothing else changes. -/
theorem State.leafDone_agrees {s s1 u : State} {p x w root : Nat} {v : LeafVote} {sh : Shard} (hhome : s.home p = some x)
    (hsh : (s.quern p v.die).shards[v.shard]? = some sh) (hbusy : (NatMap.get {} s.resolves p).busy = true)
    (hmem : (v.die, v.shard) ∈ (NatMap.get {} s.resolves p).shards) (hroots : 64 < v.leaves ∨ v.versionDiffers = true)
    (hword : s.commitWord x (s.quern p v.die) v.shard = (w, none, s1))
    (hread : s1.quernReads x sh.obj ((s.quern p v.die).epoch v.shard (bit w 0) false) [((if bit w 0 then sh.offB else sh.offA) + 8, 8)] =
      ([leBytes 8 root], none, u)) (hroot : root < 2 ^ 64) (htwins : ∀ e ∈ v.twins, e.1 = root) :
    s.leafDone p v = { u with resolves := NatMap.modify {} u.resolves p fun r => r.decided v true 0 } := by
  have hvalue : field (leBytes 8 root) 0 8 = root := by
    have h := field_leBytes_head 8 root [] (by omega)
    rwa [List.append_nil] at h
  have hlisted : ¬ (!(NatMap.get {} s.resolves p).busy ∨ !(NatMap.get {} s.resolves p).shards.contains (v.die, v.shard)) := by
    rw [hbusy, List.contains_iff_mem.mpr hmem]
    rintro (h | h) <;> exact Bool.false_ne_true h
  have hvote : voteOn (root :: v.twins.map (·.1)) = .agree := by
    refine voteOn_same fun b hb => ?_
    obtain ⟨e, he, rfl⟩ := List.mem_map.mp hb
    exact htwins e he
  unfold State.leafDone
  dsimp only
  rw [hhome, hsh]
  dsimp only
  rw [if_neg hlisted, if_pos hroots, hword]
  dsimp only
  rw [hread]
  dsimp only [List.headD_cons, Option.orElse_none]
  rw [hvalue, hvote]
  rfl

theorem Resolve.decided_roots (r : Resolve) (v : LeafVote) (outcome : Nat) : (v.die, v.shard) ∉ (r.decided v true outcome).shards := by
  show (v.die, v.shard) ∉ r.shards.filter (· != (v.die, v.shard))
  rw [List.mem_filter, bne_self_eq_false]
  exact fun h => Bool.false_ne_true h.2

/-- Settles O38. -/
theorem weirEventsReachTheRoot : Obligations.WeirEventsReachTheRoot := by
  unfold Obligations.WeirEventsReachTheRoot
  refine ⟨fun s hs => ⟨fun k u e htype htake => ?_, fun p i e at0 he hfirst hroot hgood => congrArg Host.Outcome.next (State.rootWait_due he hfirst hroot hgood),
      fun p i e he => ⟨fun hgood hnode => ?_, fun hgood hroot => ?_, fun hfailed => ?_⟩,
      fun p x sh w s1 root u v hhome hsh hbusy hmem hroots hword hread hroot htwins => ?_⟩,
    fun m hkind hflags hindex hepoch hreplica hposition hblame hmembers =>
      ⟨m.length_bytes, weirMsgOf_bytes hkind hflags hindex hepoch hreplica hposition hblame hmembers⟩⟩
  · intro m w he hkind hroot hepoch
    refine congrArg Host.Outcome.next ((if_pos htype).trans ?_)
    rw [htake]
    exact congrArg (fun t : State => t.barriers k.part) (State.weirReceive_stale he hkind hroot hepoch)
  · exact congrArg Host.Outcome.next ((State.nodeEcc_eq he).trans ((if_neg (by rw [hgood]; exact Bool.false_ne_true)).trans
      (if_neg (by rw [hnode]; exact Bool.false_ne_true))))
  · exact congrArg Host.Outcome.next ((State.nodeEcc_eq he).trans ((if_neg (by rw [hgood]; exact Bool.false_ne_true)).trans (if_pos hroot)))
  · exact congrArg Host.Outcome.next ((State.nodeEcc_eq he).trans (if_pos hfailed))
  · have hu : u.Canon := by
      have hs1 := (s.commitWord_keeps x (s.quern p v.die) v.shard).canon hs
      rw [hword] at hs1
      have hread' := (s1.quernReads_keeps x sh.obj ((s.quern p v.die).epoch v.shard (bit w 0) false)
        [((if bit w 0 then sh.offB else sh.offA) + 8, 8)]).canon hs1
      rwa [hread] at hread'
    refine ⟨_, congrArg Host.Outcome.next (State.leafDone_agrees hhome hsh hbusy hmem hroots hword hread hroot htwins), ?_, rfl⟩
    have hown := NatMap.get_set_self hu.tab.resolves p ((NatMap.get {} u.resolves p).decided v true 0)
    have hnot := Resolve.decided_roots (NatMap.get {} u.resolves p) v 0
    rw [← hown] at hnot
    exact hnot

end Sys2Proof.Machine

/-! PROOFS. O37: collectives, their chunks and their credits (R52, R241, R256, R259, R282). -/
namespace Sys2Proof.Machine
open Sys2Proof

/-! ### A collective starts -/

theorem State.collectiveStart_starts {s : State} {p c : Nat} {d : CollDesc} (hd : s.collDesc p c = some d) (hwindow : s.collWindow p c = .isOpen)
    (hfresh : s.coll p c = s.freshColl p c) (hidle : (s.coll p c).started = false) (hopen : (s.coll p c).complete = false)
    (hgood : (s.coll p c).failed = false) (hsync : d.inSync = 0xFFFF ∨ waitOk (s.syncValue p d.inSync) (s.stepTarget p) = true) :
    s.collectiveStart p c =
      let u := (s.modColl p c fun r => { r with started := true }).startKind p c d
      (((u.flushEarly p c).flushEarly p c).setBlame p c).barriers p := by
  unfold State.collectiveStart
  rw [hd]
  refine if_pos ⟨hwindow, hfresh, ?_, ?_, ?_, hsync⟩
  · rw [hidle]; rfl
  · rw [hopen]; rfl
  · rw [hgood]; rfl

/-! ### Sessions that have taken a packet -/

theorem State.onPkt_taken {s u : State} {k : Pkt} {type : Nat} (htype : k.type = type) (htake : s.takePkt k = (true, u)) (f : State → State) :
    s.onPkt k type f = f u := by
  rw [State.onPkt, if_pos htype, htake]
  rfl

theorem Session.ne_of_seqHigh {e : Session} (h : e.seqHigh.isSome = true) : e ≠ {} := fun heq =>
  Bool.false_ne_true ((congrArg (fun e : Session => e.seqHigh.isSome) heq).symm.trans h)

/-- A session that has taken a packet has an accepted SEQ. -/
theorem State.takePkt_session {s u : State} {k : Pkt} (htake : s.takePkt k = (true, u)) : (u.sec.session k.session).seqHigh.isSome = true := by
  unfold State.takePkt at htake
  split at htake
  · cases htake
  · split at htake
    · cases htake
      refine congrArg (fun e : Session => e.seqHigh.isSome) (NatMap.get_set_same (d := ({} : Session)) s.sec.sessions k.session ?_)
      exact Session.ne_of_seqHigh rfl
    · cases htake
    · cases htake

theorem Security.session_setSession (x : Security) (n : Nat) {e : Session} (he : e ≠ {}) : (x.setSession n e).session n = e := NatMap.get_set_same _ _ he

/-! ### Chunks and credits -/

/-- A credit more is owed on a session. -/
def State.owing (s : State) (n : Nat) : State :=
  let e := s.sec.session n
  s.modSec fun x => x.setSession n { e with owed := e.owed + 1, owedSince := if e.owed = 0 then s.now else e.owedSince }

theorem State.oweCredit_few {s : State} {n : Nat} (h : (s.sec.session n).owed < 7) : s.oweCredit n = s.owing n := if_neg (by omega)

theorem State.owing_owed (s : State) (n : Nat) : ((s.owing n).sec.session n).owed = (s.sec.session n).owed + 1 :=
  congrArg Session.owed (Security.session_setSession s.sec n fun h => absurd (congrArg Session.owed h) (Nat.succ_ne_zero _))

/-- A chunk of another step, of no member's domain or of a closed window. -/
def State.chunkLate (s : State) (p : Nat) (b : List Byte) : Prop :=
  (chunkHead b).step ≠ (s.part p).gov.step.toNat ∨ bit (s.weir p).members (chunkHead b).rep = false ∨ s.collWindow p (chunkHead b).coll = .closed

theorem State.chunkLate_iff {s : State} {p : Nat} {b : List Byte} : s.chunkLate p b ↔ ((chunkHead b).step ≠ (s.part p).gov.step.toNat ∨
    (!bit (s.weir p).members (chunkHead b).rep) = true ∨ s.collWindow p (chunkHead b).coll = .closed) := by
  rw [State.chunkLate, Bool.not_eq_true']

theorem State.collChunk_late {s : State} {p n : Nat} {b : List Byte} (h : s.chunkLate p b) :
    s.collChunk p n b = (s.modWeir p fun w => { w with late := w.late.add 1 }).oweCredit n := if_pos (State.chunkLate_iff.mp h)

theorem State.collChunk_taken {s : State} {p n : Nat} {b : List Byte} (h : ¬ s.chunkLate p b) : s.collChunk p n b =
    (((((s.renewColl p (chunkHead b).coll).takeChunk p (chunkHead b).coll n b).flushEarly p (chunkHead b).coll).flushEarly p
      (chunkHead b).coll)).barriers p := if_neg (mt State.chunkLate_iff.mpr h)

/-- A late chunk is counted, and its credit owed. -/
theorem State.lateChunk_spec {s : State} (hs : s.Canon) (p n : Nat) :
    let t := (s.modWeir p fun w => { w with late := w.late.add 1 }).oweCredit n
    t.weir p = { s.weir p with late := (s.weir p).late.add 1 } ∧
      ((s.sec.session n).owed < 7 → (t.sec.session n).owed = (s.sec.session n).owed + 1 ∧ t.out = s.out) ∧
      { t with weirs := s.weirs, sec := s.sec, ports := s.ports, out := s.out } = s := by
  intro t
  have hrest := State.oweCredit_rest (s.modWeir p fun w => { w with late := w.late.add 1 }) n
  have hweirs : t.weirs = (s.modWeir p fun w => { w with late := w.late.add 1 }).weirs := (congrArg State.weirs hrest :)
  have hweir := (congrArg (fun m => NatMap.get ({} : Weir) m p) hweirs).trans (State.weir_modWeir hs p fun w => { w with late := w.late.add 1 })
  refine ⟨hweir, fun hfew => ?_, (congrArg (fun t : State => ({ t with weirs := s.weirs } : State)) hrest :)⟩
  have hfew : t = (s.modWeir p fun w => { w with late := w.late.add 1 }).owing n := State.oweCredit_few hfew
  rw [hfew]
  exact ⟨State.owing_owed _ n, rfl⟩

/-- A chunk before its collective has started here is kept. -/
theorem State.takeChunk_early {s : State} {p c n : Nat} {b : List Byte} {d : CollDesc} (hd : s.collDesc p c = some d)
    (hsender : d.senderOk (s.weir p) (chunkHead b) = true) (hgood : (s.coll p c).failed = false) (hopen : (s.coll p c).complete = false)
    (hnew : (chunkHead b).key ∉ (s.coll p c).received) (hidle : (s.coll p c).started = false) :
    s.takeChunk p c n b = s.modColl p c fun r => { r with early := r.early ++ [(n, b)] } := by
  unfold State.takeChunk
  rw [hd]
  dsimp only
  rw [if_neg, if_pos (.inl (by rw [hidle]; rfl))]
  rw [hsender, hgood, hopen]
  rintro (h | h | h | h)
  · exact Bool.false_ne_true h
  · exact Bool.false_ne_true h
  · exact Bool.false_ne_true h.1
  · exact hnew (List.contains_iff_mem.mp h)

/-- Credits that come back with nothing waiting for them. -/
theorem State.collCredit_idle {s : State} {n : Nat} (hseq : (s.sec.session n).seqHigh.isSome = true) (hidle : (s.sec.session n).waiting = [])
    (p count : Nat) : ∃ x : Security, s.collCredit n p count = { s with sec := x } ∧ (x.session n).credits = (s.sec.session n).credits + count := by
  have hfirst := Security.session_setSession s.sec n (e := { s.sec.session n with credits := (s.sec.session n).credits + count })
    (Session.ne_of_seqHigh hseq)
  unfold State.collCredit State.releaseWaiting
  dsimp only
  generalize hx : s.sec.setSession n { s.sec.session n with credits := (s.sec.session n).credits + count } = x at hfirst
  have hwaiting : ((s.modSec fun x => x.setSession n { x.session n with credits := (x.session n).credits + count }).sec.session n).waiting = [] := by
    have h := congrArg Session.waiting hfirst
    rw [← hx] at h
    exact h.trans hidle
  rw [hwaiting, List.foldl_nil]
  refine ⟨x.setSession n { x.session n with waiting := [] }, by rw [← hx]; rfl, ?_⟩
  have hsecond := Security.session_setSession x n (e := { x.session n with waiting := [] })
    (Session.ne_of_seqHigh ((congrArg (fun e : Session => e.seqHigh.isSome) hfirst).trans hseq))
  exact (congrArg Session.credits hsecond).trans (congrArg Session.credits hfirst)

/-! ### NACK, ACK and credits due -/

theorem State.collNack_found {s : State} {p n : Nat} {b : List Byte} {e : Nat × List Byte}
    (hfound : ((s.coll p (field b 0 2)).sent.find? fun e => e.1 == n &&
      (chunkHead e.2).key == (field b 2 1, field b 3 1, field b 4 1, field b 8 8) && (chunkHead e.2).step == field b 16 8) = some e)
    (hwindow : s.collWindow p (field b 0 2) ≠ .closed) : s.collNack p n b = s.offer n p e.2 := by
  unfold State.collNack
  dsimp only
  rw [hfound]
  exact if_neg hwindow

theorem State.offer_sends {s : State} {n p : Nat} {b : List Byte} (hcredit : 0 < (s.sec.session n).credits) (hmay : s.maySend p (chunkHead b).coll = true) :
    s.offer n p b = (s.modSec fun x => x.setSession n { s.sec.session n with credits := (s.sec.session n).credits - 1 }).sendOn n (.chunk b) := by
  refine if_neg (not_or.mpr ⟨Nat.ne_of_gt hcredit, ?_⟩)
  rw [hmay]
  exact Bool.false_ne_true

theorem State.offer_waits {s : State} {n p : Nat} {b : List Byte} (h : (s.sec.session n).credits = 0 ∨ s.maySend p (chunkHead b).coll = false) :
    s.offer n p b = s.modSec fun x => x.setSession n { s.sec.session n with waiting := (s.sec.session n).waiting ++ [b] } :=
  if_pos (h.imp_right fun h => by rw [h]; rfl)

theorem State.collAck_last {s : State} {p n : Nat} {a b : List Byte} {d : CollDesc} (hd : s.collDesc p (field a 0 2) = some d)
    (hlast : ((s.coll p (field a 0 2)).sent.filter (·.1 == n)).getLast? = some (n, b)) (hfirst : (chunkHead b).first = field a 8 8)
    (hstep : (chunkHead b).step = field a 16 8) : s.collAck p n a =
      ((((s.modColl p (field a 0 2) fun r => { r with acks := n :: r.acks }).checkData p (field a 0 2) d)).setBlame p (field a 0 2)).barriers p := by
  unfold State.collAck
  dsimp only
  rw [hd, hlast]
  exact if_pos ⟨hfirst, hstep⟩

/-- A message on a session whose port lets it out. -/
theorem State.sendOn_goes {s : State} {n : Nat} {e : Session} (he : s.sec.session n = e) (m : IhlakMsg) (hstopped : s.portsStopped e.part = false)
    (hmac : (s.port e.port).mac ≠ 0) (hdrops : s.portDrops e.port = false) : s.sendOn n m =
      (s.modSec fun x => x.setSession n { e with seqOut := e.seqOut + 1 }).send
        (.ihlak (m.head e.part e.peerSession (1 - e.peerSender) e.seqOut) e.port m) := by
  subst he
  unfold State.sendOn
  dsimp only
  rw [hstopped, Bool.and_false, if_neg Bool.false_ne_true]
  refine (if_neg fun h => hmac h.2).trans (if_neg ?_)
  show ¬ s.portDrops (s.sec.session n).port = true
  rw [hdrops]
  exact Bool.false_ne_true

theorem State.creditDue_returns {s : State} {n : Nat} (hdue : (s.sec.session n).owedSince + 2000 ≤ s.mill.now) (hrole : (s.sec.session n).role = 4)
    (howed : (s.sec.session n).owed ≠ 0) : s.creditDue n =
      (s.modSec fun x => x.setSession n { s.sec.session n with owed := 0 }).sendOn n (.credit (s.sec.session n).owed) :=
  (if_pos hdue).trans (if_neg (not_or.mpr ⟨not_not.mpr hrole, howed⟩))

theorem State.creditDue_idle {s : State} {n : Nat}
    (h : s.mill.now < (s.sec.session n).owedSince + 2000 ∨ (s.sec.session n).role ≠ 4 ∨ (s.sec.session n).owed = 0) : s.creditDue n = s := by
  unfold State.creditDue
  split
  · next hdue => exact if_pos (h.resolve_left (Nat.not_lt.mpr hdue))
  · rfl

/-- The state after a session's credits have gone back in its next packet. -/
def State.creditsBack (s : State) (n : Nat) (e : Session) : State :=
  (s.modSec fun x => (x.setSession n { e with owed := 0 }).setSession n { e with owed := 0, seqOut := e.seqOut + 1 }).send
    (.ihlak ((IhlakMsg.credit e.owed).head e.part e.peerSession (1 - e.peerSender) e.seqOut) e.port (.credit e.owed))

theorem State.send_modSec_rest (s : State) (f : Security → Security) (m : OutMsg) : { (s.modSec f).send m with sec := s.sec, out := s.out } = s := rfl

theorem State.creditsBack_out (s : State) (n : Nat) (e : Session) : (s.creditsBack n e).out =
    .ihlak ((IhlakMsg.credit e.owed).head e.part e.peerSession (1 - e.peerSender) e.seqOut) e.port (.credit e.owed) :: s.out := rfl

theorem State.creditsBack_spec {s : State} {n : Nat} {e : Session} (hrole : e.role = 4)
    (hstopped : s.portsStopped e.part = false) (hmac : (s.port e.port).mac ≠ 0) (hdrops : s.portDrops e.port = false) :
    (s.modSec fun x => x.setSession n { e with owed := 0 }).sendOn n (.credit e.owed) = s.creditsBack n e ∧
      ((s.creditsBack n e).sec.session n).owed = 0 ∧ ((s.creditsBack n e).sec.session n).seqOut = e.seqOut + 1 := by
  have hne : ∀ q, ({ e with owed := 0, seqOut := q } : Session) ≠ {} := fun q heq => by
    have hzero : e.role = 0 := (congrArg Session.role heq :)
    exact absurd (hrole.symm.trans hzero) (by decide)
  have hsession := Security.session_setSession s.sec n (e := { e with owed := 0 }) (hne e.seqOut)
  have hafter := Security.session_setSession (s.sec.setSession n { e with owed := 0 }) n (e := { e with owed := 0, seqOut := e.seqOut + 1 }) (hne _)
  exact ⟨State.sendOn_goes (s := s.modSec fun x => x.setSession n { e with owed := 0 }) hsession (.credit e.owed) hstopped hmac hdrops,
    (congrArg Session.owed hafter :), (congrArg Session.seqOut hafter :)⟩

/-- Settles O37. -/
theorem collectivePacketsAreTakenInTheirStep : Obligations.CollectivePacketsAreTakenInTheirStep := by
  unfold Obligations.CollectivePacketsAreTakenInTheirStep
  refine fun s hs => ⟨fun p c d hd hwindow hfresh hidle hopen hgood hsync =>
      congrArg Host.Outcome.next (State.collectiveStart_starts hd hwindow hfresh hidle hopen hgood hsync), fun k u htake => ?_, fun n => ?_⟩
  · intro n p e h late
    have hu : u.Canon := by
      have hkept := (s.takePkt_keeps k).canon hs
      rwa [htake] at hkept
    have htakes := fun {type : Nat} (htype : k.type = type) f t (ht : f u = t) =>
      congrArg (Host.Outcome.next (φ := Fault) (ρ := Refusal)) ((State.onPkt_taken htype htake f).trans ht)
    refine ⟨fun htype hlate => ⟨_, htakes htype _ _ (State.collChunk_late hlate), State.lateChunk_spec hu p n⟩,
      fun htype hlate => htakes htype _ _ (State.collChunk_taken hlate),
      fun d htype _ hd hsender hgood hopen hnew hidle => State.takeChunk_early hd hsender hgood hopen hnew hidle, fun htype hidle => ?_,
      fun htype b hfound hwindow => ⟨fun hcredit hmay => htakes htype _ _ ((State.collNack_found hfound hwindow).trans (State.offer_sends hcredit hmay)),
        fun hno => htakes htype _ _ ((State.collNack_found hfound hwindow).trans (State.offer_waits hno))⟩,
      fun htype d b hd hlast hfirst hstep => htakes htype _ _ (State.collAck_last hd hlast hfirst hstep)⟩
    obtain ⟨x, hcredit, hcredits⟩ := State.collCredit_idle (State.takePkt_session htake) hidle p (field k.payload 0 4)
    exact ⟨{ u with sec := x }, htakes htype _ _ hcredit, hcredits, rfl⟩
  · intro e
    refine ⟨fun hdue hrole howed => ⟨congrArg Host.Outcome.next (State.creditDue_returns hdue hrole howed), fun hstopped hport hmac hdrops => ?_⟩,
      fun h => congrArg Host.Outcome.next (State.creditDue_idle h)⟩
    have hsent := State.creditsBack_spec (s := s) (n := n) (e := e) hrole hstopped hmac hdrops
    exact ⟨s.creditsBack n e, congrArg Host.Outcome.next ((State.creditDue_returns hdue hrole howed).trans hsent.1), hsent.2.1, hsent.2.2,
      State.creditsBack_out s n e, State.send_modSec_rest s _ _⟩

end Sys2Proof.Machine

/-! PROOFS. O40: the commands of a host queue (R219, R295 to R301, R355). -/
namespace Sys2Proof.Machine
open Sys2Proof

/-! ### A command starts -/

/-- The queue takes up a command that it has fetched. -/
def State.takesUp (s : State) (x q i : Nat) (b : List Byte) (rest : List (Nat × List Byte)) : State :=
  s.modQueue x q fun k => { k with fetched := rest, current := some (i, b), since := s.mill.now }

/-- Nothing bars the queue from starting its first fetched command. -/
def State.startsNext (s : State) (x q i : Nat) (b : List Byte) (rest : List (Nat × List Byte)) : Prop :=
  ((s.ctx x).queue q).fetched = (i, b) :: rest ∧ ctxRuns (s.ctx x) x = true ∧ s.ctxStarts x = true ∧ q < (s.ctx x).desc.queues ∧
    ((s.ctx x).queue q).stopped = false ∧ ((s.ctx x).queue q).current = none ∧ ∀ e ∈ (s.ctx x).recWait, e.queue ≠ q

theorem State.cmdFieldsOk_congr {s t : State} {x : Nat} (hparts : t.parts = s.parts) (hdesc : (t.ctx x).desc = (s.ctx x).desc) (b : List Byte) :
    t.cmdFieldsOk x b = s.cmdFieldsOk x b := by
  unfold State.cmdFieldsOk State.part
  rw [hparts, hdesc]

section
variable {s : State} {x q i : Nat} {b : List Byte} {rest : List (Nat × List Byte)}

theorem State.takesUp_ctx (hs : s.Canon) : (s.takesUp x q i b rest).ctx x = (s.ctx x).setQueue q
    { (s.ctx x).queue q with fetched := rest, current := some (i, b), since := s.mill.now } :=
  (State.ctx_modCtx hs x x _).trans (if_pos rfl)

theorem State.takesUp_desc (hs : s.Canon) : ((s.takesUp x q i b rest).ctx x).desc = (s.ctx x).desc := (congrArg Ctx.desc (State.takesUp_ctx hs) :)

theorem Ctx.queue_setQueue (c : Ctx) (q : Nat) {v : HQueue} (hv : v ≠ {}) : (c.setQueue q v).queue q = v := NatMap.get_set_same _ _ hv

theorem State.takesUp_current (hs : s.Canon) : (((s.takesUp x q i b rest).ctx x).queue q).current = some (i, b) := by
  rw [State.takesUp_ctx hs, Ctx.queue_setQueue]
  exact fun h => nomatch (congrArg HQueue.current h :)

theorem State.startCmd_takesUp (h : s.startsNext x q i b rest) {mine : Nat → Bool} (hmine : mine (cmdOpcode b) = true) (f : List Byte → State → State) :
    s.startCmd x q mine f =
      if 6 < cmdOpcode b then (s.takesUp x q i b rest).failCmd x q 0x0701
      else if (!(s.takesUp x q i b rest).cmdFieldsOk x b) = true then (s.takesUp x q i b rest).failCmd x q 0x0702
      else f b (s.takesUp x q i b rest) := by
  obtain ⟨hfetched, hruns, hstarts, hqueue, hrunning, hidle, hrecorded⟩ := h
  have hnone : (s.ctx x).recWait.any (·.queue == q) = false := List.any_eq_false.mpr fun e he => by
    rw [beq_eq_false_iff_ne.mpr (hrecorded e he)]
    exact Bool.false_ne_true
  unfold State.startCmd
  dsimp only
  rw [hfetched]
  dsimp only
  rw [hruns, hstarts, decide_eq_true hqueue, hrunning, hidle, hmine, hnone]
  exact if_pos rfl

variable (hs : s.Canon) (h : s.startsNext x q i b rest) {mine : Nat → Bool} (hmine : mine (cmdOpcode b) = true) (hop : cmdOpcode b ≤ 6)
include hs h hmine hop

/-- A command whose fields pass runs. -/
theorem State.startCmd_runs (hfields : s.cmdFieldsOk x b = true) (f : List Byte → State → State) :
    s.startCmd x q mine f = f b (s.takesUp x q i b rest) := by
  have hok := (State.cmdFieldsOk_congr (s := s) (t := s.takesUp x q i b rest) rfl (State.takesUp_desc hs) b).trans hfields
  refine (State.startCmd_takesUp h hmine f).trans ((if_neg (Nat.not_lt.mpr hop)).trans (if_neg ?_))
  rw [hok]
  exact Bool.false_ne_true

/-- A command whose fields do not pass fails. -/
theorem State.startCmd_fails (hfields : s.cmdFieldsOk x b = false) (f : List Byte → State → State) :
    s.startCmd x q mine f = (s.takesUp x q i b rest).failCmd x q 0x0702 := by
  have hbad := (State.cmdFieldsOk_congr (s := s) (t := s.takesUp x q i b rest) rfl (State.takesUp_desc hs) b).trans hfields
  refine (State.startCmd_takesUp h hmine f).trans ((if_neg (Nat.not_lt.mpr hop)).trans (if_pos ?_))
  rw [hbad]
  rfl

end

/-! ### Calls of Toll -/

section
variable {u : State} {x q i : Nat} {b : List Byte}

theorem State.hostAlloc_eq {st h : Nat} {v : State} (halloc : u.allocate x (field b 9 1) (field b 8 1) (field b 0x10 8) = (st, h, v)) :
    u.hostAlloc x q b = (v.countToll x st).finishCmd x q st (if st = 0 then h else 0) 0 := by
  unfold State.hostAlloc
  rw [halloc]

theorem State.hostFree_stale (hstale : u.current x (field b 8 4) = none) : u.hostFree x q b = (u.countToll x 6).finishCmd x q 6 0 0 := by
  unfold State.hostFree
  rw [State.freeHandle_none hstale]
  exact if_neg fun h => absurd (show (6 : Nat) = 0 from h.1) (by decide)

theorem State.hostFree_current {o : Obj} (ho : u.current x (field b 8 4) = some o) : u.hostFree x q b =
    if u.objBusy x (handleIndex (field b 8 4)) o.gen = true then
      { u.freeIdx x (handleIndex (field b 8 4)) 2 with tollQueue := .host x q true :: u.tollQueue }
    else (u.freeIdx x (handleIndex (field b 8 4)) 2).finishCmd x q 0 0 0 := by
  obtain ⟨-, hobj, -⟩ := State.current_eq_some ho
  have hlen := u.freeIdx_pendingFrees x (handleIndex (field b 8 4)) 2
  have hqueue : (u.freeIdx x (handleIndex (field b 8 4)) 2).tollQueue = u.tollQueue := (congrArg State.tollQueue (u.freeIdx_rest x _ 2) :)
  rw [← hobj] at hlen
  unfold State.hostFree
  rw [State.freeHandle_some ho]
  dsimp only
  rw [hqueue]
  split at hlen
  · next hbusy => rw [if_pos hbusy, if_pos ⟨rfl, by omega⟩]
  · next hfree => rw [if_neg hfree, if_neg fun h => h.2 hlen, State.countToll, if_pos (.inl rfl)]

theorem State.callHost_waits (hqueue : u.tollQueue ≠ []) : u.callHost x q = { u with tollQueue := u.tollQueue ++ [.host x q false] } :=
  if_neg (mt List.isEmpty_iff.mp hqueue)

theorem State.cmdSignal_eq {p : Nat} (hp : (u.ctx x).desc.part = p) : u.cmdSignal x q b =
    ((u.signal p (field b 8 2) (BitVec.ofNat 64 (field b 0x10 8)) (.host x q)).2.barriers p).finishCmd x q 0 0
      (if (u.signal p (field b 8 2) (BitVec.ofNat 64 (field b 0x10 8)) (.host x q)).1 then 0 else 0x0601) := by
  subst hp
  rfl

/-! ### COPY and UNSEAL -/

theorem State.cmdCopy_fails (hlen : field b 0x20 5 ≠ 0) {e : Nat} (hchecks : u.copyChecks x b false = .error e) :
    u.cmdCopy x q b = u.failCmd x q e := by
  unfold State.cmdCopy
  rw [if_neg hlen, hchecks]

theorem State.cmdUnseal_keyless (hlen : field b 0x20 5 ≠ 0) {so d : Obj} {v : State} (hchecks : u.copyChecks x b true = .ok (so, d))
    (hkey : u.unsealKey x (field b 0x28 1) = (none, v)) : u.cmdUnseal x q b = v.failCmd x q 0x0804 := by
  unfold State.cmdUnseal
  dsimp only
  rw [if_neg hlen, hchecks]
  dsimp only
  rw [hkey]

theorem State.readObj_rest (s : State) (y : Nat) (o : Obj) (off len : Nat) :
    { (s.readObj y o off len).2.2 with hbm := s.hbm, pond := s.pond, mce := s.mce } = s := by
  unfold State.readObj
  dsimp only
  split <;> rfl

theorem State.countUse_ctxs (s : State) (n : Nat) : (s.countUse n).ctxs = s.ctxs := by
  unfold State.countUse
  dsimp only
  split <;> rfl

theorem State.unsealKey_snd (s : State) (y n : Nat) : (s.unsealKey y n).2 = s.verifySlot n false := by
  rw [← s.useKey_snd n 0x20]
  unfold State.unsealKey
  dsimp only
  split <;> rfl

/-- What reading an object's bytes leaves. -/
theorem State.readObj_eq {s w : State} {y off len : Nat} {o : Obj} {h : List Byte} {e : Option (Nat × Nat)}
    (hread : s.readObj y o off len = (h, e, w)) : w.ctxs = s.ctxs ∧ w.sec = s.sec ∧ w.parts = s.parts := by
  have hw : w = (s.readObj y o off len).2.2 := (congrArg (fun r => r.2.2) hread).symm
  have hrest := s.readObj_rest y o off len
  rw [← hw] at hrest
  exact ⟨(congrArg State.ctxs hrest :), (congrArg State.sec hrest :), (congrArg State.parts hrest :)⟩

theorem State.unsealKey_ctxs {v : State} {n : Nat} {key : Option (List Byte)} (hkey : u.unsealKey x n = (key, v)) : v.ctxs = u.ctxs := by
  have hv : v = u.verifySlot n false := (congrArg Prod.snd hkey).symm.trans (u.unsealKey_snd x n)
  rw [hv]
  exact (congrArg State.ctxs (u.verifySlot_rest n false) :)

/-- The digest of the charter that a context's partition is bound to. -/
def State.charterDigest (s : State) (x : Nat) : List Byte :=
  ((s.boundCharter (s.ctx x).desc.part).map fun c => (s.sec.charter c).digest).getD []

theorem State.charterDigest_congr {s t : State} (hctxs : t.ctxs = s.ctxs) (hsec : t.sec = s.sec) (hparts : t.parts = s.parts) (y : Nat) :
    t.charterDigest y = s.charterDigest y := by
  unfold State.charterDigest State.boundCharter State.chartered State.ctx State.part
  rw [hctxs, hsec, hparts]

/-! ### Of the command in progress -/

variable (hcur : ((u.ctx x).queue q).current = some (i, b))
include hcur

theorem State.serveHost_alloc (hop : cmdOpcode b = 1) : u.serveHost x q = u.hostAlloc x q b := by
  unfold State.serveHost
  rw [hcur]
  exact if_pos hop

theorem State.serveHost_free (hop : cmdOpcode b = 2) : u.serveHost x q = u.hostFree x q b := by
  unfold State.serveHost
  rw [hcur]
  exact if_neg (by omega)

theorem State.callHost_alloc (hop : cmdOpcode b = 1) (hqueue : u.tollQueue = []) : u.callHost x q = u.hostAlloc x q b :=
  (if_pos (List.isEmpty_iff.mpr hqueue)).trans (State.serveHost_alloc hcur hop)

theorem State.callHost_free (hop : cmdOpcode b = 2) (hqueue : u.tollQueue = []) : u.callHost x q = u.hostFree x q b :=
  (if_pos (List.isEmpty_iff.mpr hqueue)).trans (State.serveHost_free hcur hop)

theorem State.cmdCopy_starts (hlen : field b 0x20 5 ≠ 0) {so d : Obj} (hchecks : u.copyChecks x b false = .ok (so, d)) :
    u.cmdCopy x q b = { u with copyJobs := u.copyJobs ++ [copyJobOf x q i b 0 so d []] } := by
  unfold State.cmdCopy
  rw [if_neg hlen, hchecks, hcur]
  rfl

theorem State.cmdUnseal_starts (hlen : 96 ≤ field b 0x20 5) {so d : Obj} {v w : State} {key h : List Byte}
    (hchecks : u.copyChecks x b true = .ok (so, d)) (hkey : u.unsealKey x (field b 0x28 1) = (some key, v))
    (hread : (v.countUse (field b 0x28 1)).readObj x so (field b 0x10 5) 96 = (h, none, w))
    (hhead : sealedHeaderOk h (w.keySlot (field b 0x28 1)).handle (w.charterDigest x) (field b 0x20 5) = true) :
    u.cmdUnseal x q b = { w with copyJobs := w.copyJobs ++ [{ copyJobOf x q i b 1 so d key with header := h }] } := by
  obtain ⟨hctxs, hsec, hparts⟩ := State.readObj_eq hread
  have hcur : ((w.ctx x).queue q).current = some (i, b) := by
    rw [← hcur]
    exact congrArg (fun m => ((NatMap.get ({} : Ctx) m x).queue q).current)
      (hctxs.trans ((State.countUse_ctxs ..).trans (State.unsealKey_ctxs hkey)))
  rw [State.charterDigest_congr hctxs hsec hparts] at hhead
  unfold State.cmdUnseal
  dsimp only
  rw [if_neg (by omega), hchecks]
  dsimp only
  rw [hkey]
  dsimp only
  rw [Nat.min_eq_right hlen, hread]
  dsimp only
  rw [hcur]
  refine if_neg (not_or.mpr ⟨Nat.not_lt.mpr hlen, ?_⟩)
  rw [Bool.not_eq_true']
  exact fun hbad => Bool.false_ne_true (hbad.symm.trans hhead)

end

/-! ### Commands at work -/

theorem State.waitTimeout_eq {s : State} {x q i : Nat} {b : List Byte} (hcur : ((s.ctx x).queue q).current = some (i, b)) (hop : cmdOpcode b = 4)
    (hlimit : field b 0xC 4 ≠ 0) : s.waitTimeout x q =
      if ((s.ctx x).queue q).since + 1000 * field b 0xC 4 ≤ s.mill.now then s.finishCmd x q 7 0 0 else s := by
  unfold State.waitTimeout
  dsimp only
  rw [hcur]
  exact if_congr ⟨fun h => h.2.2, fun h => ⟨hop, hlimit, h⟩⟩ rfl rfl

/-- The oldest job of the copy engines ends. -/
theorem State.copyEngineComplete_eq {s : State} {j : CopyJob} {rest : List CopyJob} (hjobs : s.copyJobs = j :: rest) (hkind : j.kind ≠ 2) :
    s.copyEngineComplete = if j.kind = 0 then ({ s with copyJobs := rest } : State).copyDone j else ({ s with copyJobs := rest } : State).unsealDone j := by
  have hfind : (j :: rest).find? (·.kind != 2) = some j := List.find?_cons_of_pos (bne_iff_ne.mpr hkind)
  unfold State.copyEngineComplete
  rw [hjobs, hfind]
  dsimp only
  rw [List.erase_cons_head]

theorem State.tollServe_host {s : State} {x q : Nat} {rest : List TollCall} (hqueue : s.tollQueue = .host x q false :: rest) :
    s.tollServe = ({ s with tollQueue := rest } : State).serveHost x q := by
  unfold State.tollServe
  rw [hqueue]

/-- Toll serves no other call until the free that it serves is complete. -/
theorem State.tollServe_held {s : State} {x q : Nat} {rest : List TollCall} (hqueue : s.tollQueue = .host x q true :: rest) : s.tollServe = s := by
  unfold State.tollServe
  rw [hqueue]

theorem State.hostFreed_eq {s : State} {x q : Nat} {rest : List TollCall} (hqueue : s.tollQueue = .host x q true :: rest) :
    s.hostFreed = ({ s with tollQueue := rest } : State).finishCmd x q 0 0 0 := by
  unfold State.hostFreed
  rw [hqueue]

theorem State.freed_host {s : State} {f : PendingFree} (h : f.origin = 2) : s.freed f = s.hostFreed.endStep f.ctx := by
  cases f
  cases h
  rfl

theorem State.freeComplete_host {s : State} {x q : Nat} {rest : List TollCall} {f : PendingFree} (hqueue : s.tollQueue = .host x q true :: rest)
    (hfrees : s.pendingFrees = [f]) (horigin : f.origin = 2) (hbusy : s.objBusy f.ctx f.index f.gen = false) :
    s.freeComplete f.ctx f.index = (State.finishCmd { s with pendingFrees := [], tollQueue := rest } x q 0 0 0).endStep f.ctx := by
  have hfreed : State.hostFreed { s with pendingFrees := [] } = State.finishCmd { s with pendingFrees := [], tollQueue := rest } x q 0 0 0 :=
    State.hostFreed_eq hqueue
  rw [State.freeComplete_single hfrees hbusy, State.freed_host horigin, hfreed]

theorem State.flushRecord_writes {s : State} {x : Nat} {r : EventRec} {rest : List EventRec} (hwait : (s.ctx x).recWait = r :: rest)
    (hroom : (s.ctx x).ringFull = false) (hopen : s.ringOpen x = true) :
    s.flushRecord x = (s.setCtx x { s.ctx x with recWait := rest }).putRecord x r := by
  unfold State.flushRecord
  dsimp only
  rw [hwait, hroom, hopen]
  exact if_pos rfl

theorem State.finishCmd_ctxKept {s : State} (hs : s.Canon) (x q status result fault : Nat) : CtxKept x s (s.finishCmd x q status result fault) := by
  unfold State.finishCmd
  split
  · exact .refl hs x
  · have hidle := State.modQueue_ctxKept hs x q fun u => { u with current := none }
    dsimp only
    split
    · have hrecord := fun r => hidle.trans (State.record_ctxKept hidle.canon x r)
      exact (hrecord _).trans (State.endStep_ctxKept (hrecord _).canon x)
    · exact hidle.trans (State.endStep_ctxKept hidle.canon x)

/-- R298: CTX_FAULT shows the command that failed. -/
theorem State.failCmd_shows {s : State} (hs : s.Canon) {x q i : Nat} {b : List Byte} (hcur : ((s.ctx x).queue q).current = some (i, b)) (code : Nat) :
    ((s.failCmd x q code).ctx x).shownFault = (i, q, code) := by
  unfold State.failCmd
  rw [hcur]
  dsimp only
  generalize hf : (fun c : Ctx =>
    ({ c.setQueue q ((c.queue q).stop ((i + 1) % 2 ^ 32)) with faultIndex := i, faultQueue := q, faultCode := code } : Ctx)) = f
  have hshown : (f (s.ctx x)).shownFault = (i, q, code) := by rw [← hf]; rfl
  have hcanon := (s.modCtx_keeps x f).canon hs
  have hx : (s.modCtx x f).ctx x = f (s.ctx x) := (State.ctx_modCtx hs x x f).trans (if_pos rfl)
  have hraise := (s.modCtx x f).raise_keeps ((s.modCtx x f).ctxFault x code 0 none)
  have hkept := (State.CtxKept.of_ctxs (x := x) (hraise.canon hcanon) (State.raise_ctxs _ _)).trans
    (State.finishCmd_ctxKept (hraise.canon hcanon) x q 0 0 code)
  rw [hkept.fault, hx, hshown]

/-- Settles O40. -/
theorem queueCommandsRun : Obligations.QueueCommandsRun := by
  unfold Obligations.QueueCommandsRun
  refine ⟨fun s x q i b rest hs hfetched hruns hstarts hqueue hrunning hidle hrecorded hfields => ?_, fun s x q i b hs => ?_⟩
  · have hstart : s.startsNext x q i b rest := ⟨hfetched, hruns, hstarts, hqueue, hrunning, hidle, hrecorded⟩
    have hcur := State.takesUp_current (x := x) (q := q) (i := i) (b := b) (rest := rest) hs
    have hdesc := State.takesUp_desc (x := x) (q := q) (i := i) (b := b) (rest := rest) hs
    have hrun := fun {mine : Nat → Bool} {f : List Byte → State → State} {t : State} (hmine : mine (cmdOpcode b) = true) (hop : cmdOpcode b ≤ 6)
      (ht : f b (s.takesUp x q i b rest) = t) => congrArg (Host.Outcome.next (φ := Fault) (ρ := Refusal))
        ((State.startCmd_runs hs hstart hmine hop hfields f).trans ht)
    have hfree : cmdOpcode b = 2 → s.tollQueue = [] → (s.takesUp x q i b rest).callHost x q = (s.takesUp x q i b rest).hostFree x q b :=
      State.callHost_free hcur
    have his := fun {op : Nat} (hop : cmdOpcode b = op) => (beq_iff_eq.mpr hop : (cmdOpcode b == op) = true)
    intro u
    refine ⟨fun hop => hrun (by rw [hop]; rfl) (by omega) rfl, fun hop hsize => hrun (his hop) (by omega) (if_pos hsize),
      fun st h v hop hsize halloc htoll => hrun (his hop) (by omega)
        ((if_neg hsize).trans ((State.callHost_alloc hcur hop htoll).trans (State.hostAlloc_eq halloc))),
      fun htoll => ⟨fun hop hsize => hrun (his hop) (by omega) ((if_neg hsize).trans (State.callHost_waits htoll)),
        fun hop => hrun (his hop) (by omega) (State.callHost_waits htoll)⟩,
      fun hop htoll => ⟨fun hstale => hrun (his hop) (by omega) ((hfree hop htoll).trans (State.hostFree_stale hstale)),
        fun o ho => ⟨fun hbusy => hrun (his hop) (by omega) ((hfree hop htoll).trans ((State.hostFree_current ho).trans (if_neg ?_))),
          fun hbusy => hrun (his hop) (by omega) ((hfree hop htoll).trans ((State.hostFree_current ho).trans ((if_pos hbusy).trans ?_)))⟩⟩,
      fun hop hlen => hrun (his hop) (by omega) (if_pos hlen),
      fun e hop hlen hchecks => hrun (his hop) (by omega) (State.cmdCopy_fails hlen hchecks),
      fun so d hop hlen hchecks => hrun (his hop) (by omega) (State.cmdCopy_starts hcur hlen hchecks),
      fun hop => hrun (his hop) (by omega) rfl,
      fun hop => hrun (his hop) (by omega) (State.cmdSignal_eq (congrArg CtxDesc.part hdesc)),
      fun hop hlen => hrun (his hop) (by omega) (if_pos hlen),
      fun so d v hop hlen hchecks hkey => hrun (his hop) (by omega) (State.cmdUnseal_keyless hlen hchecks hkey),
      fun so d v w key h hop hlen hchecks hkey hread hhead => hrun (his hop) (by omega)
        (State.cmdUnseal_starts hcur hlen hchecks hkey hread hhead)⟩
    · rw [hbusy]
      exact Bool.false_ne_true
    · exact congrArg (fun l => ({ u.freeIdx x (handleIndex (field b 8 4)) 2 with tollQueue := .host x q true :: l } : State)) htoll
  · refine ⟨fun hcur hop hlimit => congrArg Host.Outcome.next (State.waitTimeout_eq hcur hop hlimit),
      fun j rest hjobs => ⟨fun hkind => congrArg Host.Outcome.next ((State.copyEngineComplete_eq hjobs (by omega)).trans (if_pos hkind)),
        fun hkind => congrArg Host.Outcome.next ((State.copyEngineComplete_eq hjobs (by omega)).trans (if_neg (by omega)))⟩,
      fun rest hqueue hcur => ?_,
      fun rest hqueue => ⟨congrArg Host.Outcome.next (State.tollServe_held hqueue), fun f hfrees horigin hbusy =>
        congrArg Host.Outcome.next (State.freeComplete_host hqueue hfrees horigin hbusy)⟩,
      fun r rest hwait hroom hopen => congrArg Host.Outcome.next (State.flushRecord_writes hwait hroom hopen),
      fun rest hfetched hruns hstarts hqueue hrunning hidle hrecorded hop hfields => ?_⟩
    · intro v
      have hserve : s.tollServe = v.serveHost x q := State.tollServe_host hqueue
      exact ⟨fun st h w hop halloc => congrArg Host.Outcome.next (hserve.trans ((State.serveHost_alloc (u := v) hcur hop).trans (State.hostAlloc_eq halloc))),
        fun hop hstale => congrArg Host.Outcome.next (hserve.trans ((State.serveHost_free (u := v) hcur hop).trans (State.hostFree_stale hstale)))⟩
    · have hstart : s.startsNext x q i b rest := ⟨hfetched, hruns, hstarts, hqueue, hrunning, hidle, hrecorded⟩
      have hfails := State.startCmd_fails hs hstart (mine := (· == 4)) (beq_iff_eq.mpr hop) (by omega) hfields fun _ s => s
      have hcur := State.takesUp_current (x := x) (q := q) (i := i) (b := b) (rest := rest) hs
      have hshown := State.failCmd_shows ((s.modQueue_keeps x q _).canon hs) hcur 0x0702
      have hexec : exec (.cmdWait x q) s = .next ((s.takesUp x q i b rest).failCmd x q 0x0702) := congrArg Host.Outcome.next hfails
      exact ⟨hexec, _, hexec, congrArg (fun r => r.2.2) hshown, congrArg (fun r => r.2.1) hshown, congrArg Prod.fst hshown⟩

end Sys2Proof.Machine

/-! PROOFS. What the accesses, the packets and the failures of a collective leave of the partitions. -/
namespace Sys2Proof.Machine
open Sys2Proof

theorem State.parts_of_sansWork {s t : State} (h : t.sansWork = s.sansWork) : t.parts = s.parts := (congrArg State.parts h :)

theorem State.parts_ite {s : State} {P : Prop} [Decidable P] {x y : State} (hx : x.parts = s.parts) (hy : y.parts = s.parts) :
    (if P then x else y).parts = s.parts := by
  split
  · exact hx
  · exact hy

/-! ### Memory -/

theorem State.readObj_parts (s : State) (x : Nat) (o : Obj) (off len : Nat) : (s.readObj x o off len).2.2.parts = s.parts := by
  unfold State.readObj
  dsimp only
  split <;> rfl

theorem State.writeObj_parts (s : State) (x : Nat) (o : Obj) (off : Nat) (bs : List Byte) : (s.writeObj x o off bs).2.parts = s.parts := by
  unfold State.writeObj
  dsimp only
  split <;> rfl

theorem State.quernReads_parts (s : State) (x h epoch : Nat) (l : List (Nat × Nat)) : (s.quernReads x h epoch l).2.2.parts = s.parts := by
  induction l generalizing s with
  | nil => rfl
  | cons a l ih =>
    unfold State.quernReads
    dsimp only
    split
    · rfl
    · exact (ih _).trans (State.readObj_parts ..)

theorem State.commitWord_parts (s : State) (x : Nat) (q : Quern) (k : Nat) : (s.commitWord x q k).2.2.parts = s.parts := s.quernReads_parts ..

theorem State.digestRecords_parts (s : State) (p : Nat) : (s.digestRecords p).2.2.parts = s.parts := by
  unfold State.digestRecords
  dsimp only
  split
  · rfl
  · refine foldl_same (fun acc : List Byte × Option SegFault × State => acc.2.2.parts) (fun acc d => ?_) _ _
    split
    · rfl
    · refine foldl_same (fun acc : List Byte × Option SegFault × State => acc.2.2.parts) (fun acc e => ?_) _ _
      exact (State.quernReads_parts ..).trans (State.commitWord_parts ..)

theorem State.collRead_parts (s : State) (p die h off len : Nat) : (s.collRead p die h off len).2.parts = s.parts := by
  unfold State.collRead
  split
  · rfl
  · split
    · rfl
    · split
      · rfl
      · exact State.readObj_parts ..

theorem State.collWrite_parts (s : State) (p die h off : Nat) (bs : List Byte) : (s.collWrite p die h off bs).2.parts = s.parts := by
  unfold State.collWrite
  split
  · rfl
  · split
    · rfl
    · split
      · rfl
      · next x _ _ o _ =>
        have hwrite := s.writeObj_parts x o off bs
        generalize s.writeObj x o off bs = r at hwrite
        obtain ⟨_ | ⟨_, _⟩, t⟩ := r <;> exact hwrite

theorem State.readPiece_parts (s : State) (p : Nat) (d : CollDesc) (i : Nat) : (s.readPiece p d i).2.parts = s.parts := s.collRead_parts ..

theorem State.writeOwn_parts (s : State) (p : Nat) (d : CollDesc) (f : Nat) (l : List TinBlock) : (s.writeOwn p d f l).2.parts = s.parts :=
  s.collWrite_parts ..

/-! ### Packets -/

theorem State.offer_parts (s : State) (n p : Nat) (payload : List Byte) : (s.offer n p payload).parts = s.parts := by
  unfold State.offer
  dsimp only
  split
  · rfl
  · exact State.parts_of_sansWork (State.sendOn_sansWork ..)

theorem State.sendChunk_parts (s : State) (p c : Nat) (dest : Nat × Nat) (payload : List Byte) : (s.sendChunk p c dest payload).parts = s.parts := by
  unfold State.sendChunk
  split
  · rfl
  · exact State.offer_parts ..

theorem State.sendBlocks_parts (s : State) (p c : Nat) (d : CollDesc) (level : Nat) (dest : Nat × Nat) (bs : List TinBlock) (aexp : Nat → Nat) :
    (s.sendBlocks p c d level dest bs aexp).parts = s.parts :=
  foldl_same State.parts (fun _ _ => State.sendChunk_parts ..) _ s

theorem State.sendBlocksAll_parts (s : State) (p c : Nat) (d : CollDesc) (level : Nat) (l : List (Nat × Nat)) (bs : List TinBlock) (aexp : Nat → Nat) :
    (l.foldl (fun s m => s.sendBlocks p c d level m bs aexp) s).parts = s.parts :=
  foldl_same State.parts (fun _ _ => State.sendBlocks_parts ..) l s

theorem State.releaseWaiting_parts (s : State) (n p : Nat) : (s.releaseWaiting n p).parts = s.parts := by
  unfold State.releaseWaiting
  refine (foldl_same State.parts (fun t b => ?_) _ _).trans rfl
  dsimp only
  split
  · rfl
  · exact State.offer_parts ..

theorem State.releaseSessions_parts (s : State) (p : Nat) : (s.releaseSessions p).parts = s.parts :=
  foldl_same State.parts (fun _ _ => State.releaseWaiting_parts ..) _ s

/-! ### Failures -/

theorem State.collFail_parts (s : State) (p c code blame : Nat) (addr : Option Nat) (hop : Bool) :
    (s.collFail p c code blame addr hop).parts = s.parts := State.raise_parts _ _

theorem State.accessFail_parts (s : State) (p c : Nat) (f : SegFault) : (s.accessFail p c f).parts = s.parts := State.collFail_parts ..

theorem State.chunkBad_parts (s : State) (p c n : Nat) (h : ChunkHead) : (s.chunkBad p c n h).parts = s.parts := by
  unfold State.chunkBad
  split
  · exact State.collFail_parts ..
  · exact State.parts_of_sansWork (State.sendOn_sansWork ..)

theorem State.settled_parts (s : State) (t : Nat) : (s.settled t).parts = s.parts := by
  have hstats : ((s.modTile t Tile.settle).settleStats t).parts = s.parts := State.parts_of_sansWork (State.settleStats_sansWork ..)
  unfold State.settled
  dsimp only
  split
  · exact hstats
  · exact (State.parts_of_sansWork (State.settleRefs_sansWork ..)).trans hstats

theorem State.topFails_parts (s : State) (t i code : Nat) : (s.topFails t i code).parts = s.parts := by
  unfold State.topFails
  dsimp only
  split
  · rfl
  · exact (State.raise_parts _ _).trans (State.settled_parts ..)

theorem State.regression_parts (s : State) (p : Nat) (src : SignalSrc) (i : Nat) : (s.regression p src i).parts = s.parts := by
  unfold State.regression
  cases src with
  | tile t => exact State.topFails_parts ..
  | leat c k => exact State.raise_parts _ _
  | quern q d => exact State.raise_parts _ _
  | collective q => exact State.raise_parts _ _
  | core c => exact State.raise_parts _ _
  | host x q => exact State.raise_parts _ _

/-! ### A collective's own registers -/

theorem State.renewColl_parts (s : State) (p c : Nat) : (s.renewColl p c).parts = s.parts := by
  unfold State.renewColl
  dsimp only
  split
  · rfl
  · exact (congrArg State.parts (State.dropEarly_rest (s.modColl p c fun _ => s.freshColl p c) _) :)

theorem State.setBlame_parts (s : State) (p c : Nat) : (s.setBlame p c).parts = s.parts := by
  unfold State.setBlame
  split <;> rfl

theorem State.compareTwin_parts (s : State) (p c twin : Nat) (mine theirs : List Byte) : (s.compareTwin p c twin mine theirs).parts = s.parts := by
  unfold State.compareTwin
  dsimp only
  generalize hraised : (recordDiffs mine theirs).foldl _ s = u
  have hu : u.parts = s.parts := hraised ▸ foldl_same State.parts (fun _ _ => State.raise_parts _ _) _ s
  refine Eq.trans ?_ hu
  split
  · rfl
  · split <;> rfl

/-! ### Data chunks -/

theorem State.deliverPiece_parts (s : State) (p c n : Nat) (d : CollDesc) (m : Nat × Nat) (bytes rest : List Byte) (lastFirst : Nat) :
    (s.deliverPiece p c n d m bytes rest lastFirst).parts = s.parts := by
  have hwrote : ∀ {off r u}, s.collWrite p d.die d.dst off bytes = (r, u) → u.parts = s.parts := fun {off r u} h =>
    (congrArg (fun r => r.2.parts) h).symm.trans (s.collWrite_parts p d.die d.dst off bytes)
  have hsend : ∀ (t : State) m, (t.sendOn n m).parts = t.parts := fun t m => State.parts_of_sansWork (t.sendOn_sansWork n m)
  unfold State.deliverPiece
  dsimp only
  split
  · split
    · next h => exact (State.accessFail_parts ..).trans (hwrote h)
    · next h =>
      have hu := hwrote h
      exact State.parts_ite ((hsend ..).trans hu) hu
  · split
    · next h => exact (State.accessFail_parts ..).trans (hwrote h)
    · next h =>
      have hu := hwrote h
      exact State.parts_ite ((hsend ..).trans hu) hu
  · split
    · rfl
    · split
      · next h => exact (State.accessFail_parts ..).trans (hwrote h)
      · next h =>
        have hu := hwrote h
        exact hu
  · rfl

/-- A mirror's bytes are put in place, or the collective fails. -/
theorem State.putMirror_parts (s : State) (p c x : Nat) (o : Obj) (off : Nat) (bs : List Byte) :
    (match s.writeObj x o off bs with
      | (some (cd, a), s) => s.collFail p c cd 0xFF (some a)
      | (none, s) => s : State).parts = s.parts := by
  have hwrite := s.writeObj_parts x o off bs
  generalize s.writeObj x o off bs = r at hwrite ⊢
  obtain ⟨_ | ⟨cd, a⟩, u⟩ := r
  · exact hwrite
  · exact (State.collFail_parts ..).trans hwrite

theorem State.takeMirror_parts (s : State) (p c n : Nat) (d : CollDesc) (h : ChunkHead) (b : List Byte) :
    (s.takeMirror p c n d h b).parts = s.parts := by
  unfold State.takeMirror
  dsimp only
  split
  · exact State.collFail_parts ..
  · next x _ =>
    split
    · exact State.collFail_parts ..
    · next o _ =>
      split
      · exact State.collFail_parts ..
      · generalize hput : (if b.length = 64 ∧ field b 0 4 = mirrorMagic then _ else _ : State) = u
        have hu : u.parts = s.parts := by
          rw [← hput]
          split
          · rfl
          · exact State.putMirror_parts ..
        split
        · exact hu
        · split
          · exact (State.parts_of_sansWork (State.sendOn_sansWork ..)).trans ((State.putMirror_parts ..).trans hu)
          · exact hu

end Sys2Proof.Machine

/-! PROOFS. O20: the entries of a timetable start (R50, R54, R58). -/
namespace Sys2Proof.Machine
open Sys2Proof

/-! ### What the work of an entry leaves of its revolution -/

/-- The partition runs, in its `n`th revolution. -/
def RunsRev (p n : Nat) (s : State) : Prop := (s.part p).state = .running ∧ (s.part p).gov.nextRev = n

/-- A running partition runs on, in its revolution. -/
structure KeepsRev (p : Nat) (s t : State) : Prop where
  runs : ∀ n, RunsRev p n s → RunsRev p n t

theorem RunsRev.reads {p n : Nat} {s : State} (h : RunsRev p n s) : Reads p s := .inr (by rw [h.1]; nofun)

theorem KeepsRev.refl (p : Nat) (s : State) : KeepsRev p s s := ⟨fun _ => id⟩

theorem KeepsRev.trans {p : Nat} {s t u : State} (h : KeepsRev p s t) (k : KeepsRev p t u) : KeepsRev p s u := ⟨fun n hs => k.runs n (h.runs n hs)⟩

theorem KeepsRev.foldl {α : Type} {p : Nat} {f : State → α → State} (h : ∀ s a, KeepsRev p s (f s a)) (l : List α) (s : State) :
    KeepsRev p s (l.foldl f s) := by
  induction l generalizing s with
  | nil => exact .refl p s
  | cons a l ih => exact (h s a).trans (ih _)

theorem KeepsRev.of_parts {p : Nat} {s t : State} (h : t.parts = s.parts) : KeepsRev p s t := ⟨fun _ hs => by
  unfold RunsRev State.part
  rw [h]
  exact hs⟩

/-- Work that comes after something that leaves the partitions. -/
theorem KeepsRev.after {p : Nat} {s t u : State} (k : KeepsRev p t u) (h : t.parts = s.parts) : KeepsRev p s u := (KeepsRev.of_parts h).trans k

theorem KeepsRev.ite {p : Nat} {s : State} {c : Prop} [Decidable c] {a b : State} (ha : c → KeepsRev p s a) (hb : ¬c → KeepsRev p s b) :
    KeepsRev p s (if c then a else b) := by
  split
  next h => exact ha h
  next h => exact hb h

theorem KeepsRev.of_worksOn {p : Nat} {s t : State} (h : WorksOn p s t) : KeepsRev p s t := ⟨fun n hs => by
  obtain ⟨g, hpart, hwork⟩ := h.own hs.reads (by rw [hs.1]; nofun)
  obtain ⟨_, _, _, _, _, _, _, rfl⟩ := hwork.kept
  rw [RunsRev, hpart]
  exact hs⟩

theorem KeepsRev.modGov (p : Nat) (s : State) {f : Gov → Gov} (hf : ∀ g, (f g).nextRev = g.nextRev) : KeepsRev p s (s.modGov p f) := ⟨fun n hs => by
  rw [RunsRev, hs.reads.part_modGov, if_pos rfl]
  exact ⟨hs.1, (hf _).trans hs.2⟩⟩

theorem Gov.completeRun_nextRev (g : Gov) (k now : Nat) : (g.completeRun k now).nextRev = g.nextRev := by
  unfold Gov.completeRun
  dsimp only
  split
  · split <;> rfl
  · rfl

theorem State.completeRun_keepsRev (s : State) (p k : Nat) : KeepsRev p s (s.completeRun p k) := .modGov p s fun g => g.completeRun_nextRev k s.now

theorem State.completeEntries_keepsRev (s : State) (p c : Nat) : KeepsRev p s (s.completeEntries p c) :=
  .foldl (fun t k => t.completeRun_keepsRev p k) _ s

theorem State.raise_keepsRev (s : State) (p : Nat) (f : FaultRec) : KeepsRev p s (s.raise f) := .of_parts (State.raise_parts _ _)

theorem State.modColl_keepsRev (s : State) (p c : Nat) (f : CollRun → CollRun) : KeepsRev p s (s.modColl p c f) := .of_parts rfl

/-! ### Signals -/

theorem State.commitHere_keepsRev (s : State) (p i : Nat) (v : Word64) :
    KeepsRev p s (if v = s.stepTarget p && s.commitFence p i then s.commitPoint p else s) := by
  split
  · exact .of_worksOn (s.commitPoint_worksOn p)
  · exact .refl p s

theorem State.signalTop_keepsRev (s : State) (p i : Nat) (v : Word64) (src : SignalSrc) (fl : Nat) : KeepsRev p s (s.signalTop p i v src fl).2 := by
  have hweir : ∀ w, KeepsRev p s (s.setWeir p w) := fun w => .of_parts rfl
  have hnote : ∀ t : State, KeepsRev p t (t.noteSignal p i v) := fun t => .of_worksOn (t.noteSignal_worksOn p p i v)
  have hfence : ∀ t : State, KeepsRev p t (t.fenceAdvanced p i) := fun t => .of_worksOn (t.fenceAdvanced_worksOn p i)
  have harrive : ∀ (t : State) e, KeepsRev p t (t.checkArrival p e) := fun t e => .of_worksOn (t.checkArrival_worksOn p e)
  unfold State.signalTop
  dsimp only
  split
  · exact (((hweir _).trans (hnote _)).trans (hfence _)).trans (State.commitHere_keepsRev ..)
  · split
    · split
      · split
        · exact .refl p s
        · split
          · exact harrive s _
          · exact (hweir _).trans (harrive _ _)
      · exact .of_parts (State.regression_parts ..)
    · split
      · exact (((hweir _).trans (hnote _)).trans (hfence _)).trans (State.commitHere_keepsRev ..)
      · split
        · exact ((hweir _).trans (hnote _)).trans (State.commitHere_keepsRev ..)
        · exact .of_parts (State.regression_parts ..)

theorem State.collComplete_keepsRev (s : State) (p c : Nat) (d : CollDesc) : KeepsRev p s (s.collComplete p c d) := by
  unfold State.collComplete
  dsimp only
  split
  · exact .refl p s
  · generalize hstaged : (s.modColl p c fun r => { r with complete := true, blame := 0xFF }).stageExps p c d = u
    have hu : KeepsRev p s u := .of_parts (hstaged ▸ rfl)
    have hr : KeepsRev p u (if d.doneSync = 0xFFFF then (true, u) else u.signal p d.doneSync (u.stepTarget p) (.collective p)).2 := by
      split
      · exact .refl p u
      · exact u.signalTop_keepsRev ..
    generalize (if d.doneSync = 0xFFFF then (true, u) else u.signal p d.doneSync (u.stepTarget p) (.collective p)) = r at hr ⊢
    refine (hu.trans hr).trans ?_
    split
    · exact State.completeEntries_keepsRev ..
    · exact State.modColl_keepsRev ..

theorem State.endBarriers_keepsRev (s : State) (p : Nat) : KeepsRev p s (s.endBarriers p) := by
  refine .foldl (fun t e => ?_) _ s
  dsimp only
  split
  · exact State.collComplete_keepsRev ..
  · exact .refl p t

theorem State.barriers_keepsRev (s : State) (p : Nat) : KeepsRev p s (s.barriers p) := by
  have hsettle : ∀ t : State, KeepsRev p t (t.settleWeir p weirFuel) := fun t => .of_worksOn (State.settleWeir_worksOn weirFuel t p)
  exact (((hsettle s).trans (State.endBarriers_keepsRev ..)).trans (hsettle _)).trans (State.endBarriers_keepsRev ..)

/-! ### Chunks that were kept -/

theorem State.checkData_keepsRev (s : State) (p c : Nat) (d : CollDesc) : KeepsRev p s (s.checkData p c d) := by
  have hdone : KeepsRev p s (s.collComplete p c d) := s.collComplete_keepsRev p c d
  unfold State.checkData
  dsimp only
  split
  · exact .refl p s
  · split
    · split
      · exact hdone
      · exact .refl p s
    · split
      · exact hdone
      · exact .refl p s
    · split
      · split
        · exact hdone
        · exact .refl p s
      · split
        · exact hdone
        · exact .refl p s
    · split
      · split
        · exact hdone
        · exact (State.collComplete_keepsRev ..).after rfl
      · exact .refl p s
    · split
      · exact hdone
      · exact .refl p s
    · exact .refl p s

theorem State.takeData_keepsRev (s : State) (p c n : Nat) (d : CollDesc) (h : ChunkHead) (b : List Byte) :
    KeepsRev p s (s.takeData p c n d h b) := by
  unfold State.takeData
  dsimp only
  split
  · exact .of_parts (State.takeMirror_parts ..)
  · refine KeepsRev.trans (.of_parts ?_) (State.checkData_keepsRev ..)
    generalize hv : State.modColl _ p c _ = v
    have hv : v.parts = s.parts := hv ▸ rfl
    refine Eq.trans ?_ hv
    split
    · rfl
    · split
      · have hdigest := v.digestRecords_parts p
        split
        · exact (State.accessFail_parts ..).trans hdigest
        · split
          · exact hdigest
          · exact (State.compareTwin_parts ..).trans hdigest
      · split
        · rfl
        · exact State.collFail_parts ..
        · exact State.deliverPiece_parts ..

theorem State.checkReturned_keepsRev (s : State) (p c : Nat) (d : CollDesc) : KeepsRev p s (s.checkReturned p c d) := by
  unfold State.checkReturned
  dsimp only
  split
  · exact State.collComplete_keepsRev ..
  · exact .refl p s

theorem State.finalSum_keepsRev (s : State) (p c : Nat) (d : CollDesc) (sum : List TinBlock) (a : Nat → Nat) :
    KeepsRev p s (s.finalSum p c d sum a) := by
  unfold State.finalSum
  dsimp only
  generalize hu : State.formExps _ p c d _ _ _ _ = u
  have hu : u.parts = s.parts := hu ▸ rfl
  refine KeepsRev.trans (.of_parts hu) ?_
  split
  · exact State.collComplete_keepsRev ..
  · generalize hr : u.collWrite p d.die d.dst _ _ = r
    have hr : r.2.parts = u.parts := hr ▸ State.collWrite_parts ..
    obtain ⟨_ | f, v⟩ := r
    · exact KeepsRev.trans (.of_parts ((State.sendBlocksAll_parts ..).trans hr)) (State.checkReturned_keepsRev ..)
    · exact .of_parts ((State.accessFail_parts ..).trans hr)

theorem State.endLevel1_keepsRev (s : State) (p c : Nat) (d : CollDesc) (sum : List TinBlock) (a : Nat → Nat) :
    KeepsRev p s (s.endLevel1 p c d sum a) := by
  unfold State.endLevel1
  dsimp only
  generalize hu : State.modColl s p c _ = u
  have hu : u.parts = s.parts := hu ▸ rfl
  refine KeepsRev.trans (.of_parts hu) ?_
  split
  · exact State.finalSum_keepsRev ..
  · generalize hr : u.writeOwn p d 0 _ = r
    have hr : r.2.parts = u.parts := hr ▸ State.writeOwn_parts ..
    obtain ⟨_ | f, v⟩ := r
    · exact .of_parts ((State.sendBlocksAll_parts ..).trans hr)
    · exact .of_parts ((State.accessFail_parts ..).trans hr)

theorem State.endLevel_keepsRev (s : State) (p c : Nat) (d : CollDesc) (level : Nat) : KeepsRev p s (s.endLevel p c d level) := by
  unfold State.endLevel
  generalize hr : s.readPiece p d _ = r
  have hr : r.2.parts = s.parts := hr ▸ State.readPiece_parts ..
  obtain ⟨f | sum, v⟩ := r
  · exact .of_parts ((State.accessFail_parts ..).trans hr)
  · refine KeepsRev.trans (.of_parts hr) ?_
    dsimp only
    split
    · exact State.endLevel1_keepsRev ..
    · exact State.finalSum_keepsRev ..

theorem State.addChunk_keepsRev (s : State) (p c : Nat) (d : CollDesc) (h : ChunkHead) (bs : List TinBlock) (aexp : List Nat) :
    KeepsRev p s (s.addChunk p c d h bs aexp) := by
  unfold State.addChunk
  dsimp only
  generalize hr : s.collRead p d.die d.src _ _ = r
  have hr : r.2.parts = s.parts := hr ▸ State.collRead_parts ..
  obtain ⟨f | cur, u⟩ := r
  · exact .of_parts ((State.accessFail_parts ..).trans hr)
  · refine KeepsRev.trans (.of_parts hr) ?_
    dsimp only
    split
    · exact .of_parts (State.collFail_parts ..)
    · generalize hw : u.writeOwn p d h.first _ = w
      have hw : w.2.parts = u.parts := hw ▸ State.writeOwn_parts ..
      obtain ⟨_ | f, v⟩ := w
      · refine KeepsRev.trans (.of_parts hw) (.ite (fun _ => .of_parts (State.collFail_parts ..)) fun _ => .ite (fun _ => ?_) fun _ => .of_parts rfl)
        exact (State.endLevel_keepsRev ..).after rfl
      · exact .of_parts ((State.accessFail_parts ..).trans hw)

theorem State.storeReturned_keepsRev (s : State) (p c : Nat) (d : CollDesc) (h : ChunkHead) (bs : List TinBlock) (aexp : List Nat) :
    KeepsRev p s (s.storeReturned p c d h bs aexp) := by
  unfold State.storeReturned
  generalize hr : s.collWrite p d.die d.dst _ _ = r
  have hr : r.2.parts = s.parts := hr ▸ State.collWrite_parts ..
  obtain ⟨_ | f, v⟩ := r
  · exact KeepsRev.trans (.of_parts hr) ((State.checkReturned_keepsRev ..).after rfl)
  · exact .of_parts ((State.accessFail_parts ..).trans hr)

theorem State.takeReduction_keepsRev (s : State) (p c n : Nat) (d : CollDesc) (h : ChunkHead) (b : List Byte) :
    KeepsRev p s (s.takeReduction p c n d h b) := by
  unfold State.takeReduction
  dsimp only
  split
  · exact .of_parts (State.chunkBad_parts ..)
  · split
    · exact State.storeReturned_keepsRev ..
    · split
      · exact State.addChunk_keepsRev ..
      · exact .of_parts (State.collFail_parts ..)

theorem State.takeChunk_keepsRev (s : State) (p c n : Nat) (b : List Byte) : KeepsRev p s (s.takeChunk p c n b) := by
  have howe : ∀ t : State, (t.oweCredit n).parts = t.parts := fun t => State.parts_of_sansWork (t.oweCredit_sansWork n)
  unfold State.takeChunk
  split
  · exact .of_parts (howe s)
  · dsimp only
    split
    · exact .of_parts (howe s)
    · split
      · exact .of_parts rfl
      · refine KeepsRev.trans ?_ (.of_parts ((howe _).trans (State.setBlame_parts ..)))
        split
        · exact State.takeData_keepsRev ..
        · exact State.takeReduction_keepsRev ..

theorem State.flushEarly_keepsRev (s : State) (p c : Nat) : KeepsRev p s (s.flushEarly p c) :=
  (s.modColl_keepsRev p c _).trans (.foldl (fun (t : State) (e : Nat × List Byte) => t.takeChunk_keepsRev p c e.1 e.2) _ _)

/-! ### The work of each kind of entry -/

theorem State.openColl_keepsRev (s : State) (p i c : Nat) (d : CollDesc) (grants : NatMap Nat) : KeepsRev p s (s.openColl p i c d grants) := by
  unfold State.openColl
  dsimp only
  generalize hgov : s.modGov p _ = u
  have hu : KeepsRev p s u := hgov ▸ .modGov p s fun _ => rfl
  have hrenew := u.renewColl_parts p c
  generalize hsessions : State.releaseSessions _ p = v
  have hv : v.parts = u.parts := by
    rw [← hsessions, State.releaseSessions_parts]
    exact State.parts_ite hrenew hrenew
  refine (hu.trans (.of_parts hv)).trans ?_
  split
  · exact State.completeEntries_keepsRev ..
  · split
    · exact ((State.flushEarly_keepsRev ..).trans (State.flushEarly_keepsRev ..)).trans (.of_parts (State.setBlame_parts ..))
    · exact .refl p _

theorem State.windowEntry_keepsRev (s : State) (p i : Nat) (e : TtEntry) : KeepsRev p s (s.windowEntry p i e) := by
  unfold State.windowEntry
  dsimp only
  split
  · exact s.raise_keepsRev p _
  · refine KeepsRev.trans ?_ (State.openColl_keepsRev ..)
    split
    · exact s.raise_keepsRev p _
    · exact .refl p s

theorem State.compareEntry_keepsRev (s : State) (p i : Nat) (e : TtEntry) : KeepsRev p s (s.compareEntry p i e) := by
  unfold State.compareEntry
  dsimp only
  split
  · exact s.raise_keepsRev p _
  · exact State.openColl_keepsRev ..

theorem State.takeMisses_keepsRev (s : State) (p at_ : Nat) (m : Miss) : KeepsRev p s (s.takeMisses p at_ [m]) := ⟨fun n hs => by
  obtain ⟨g, b, hpart, hwork⟩ := State.takeMisses_single_own hs.reads hs.1 at_ m
  obtain ⟨_, _, _, _, _, _, _, rfl⟩ := hwork.kept
  rw [RunsRev, hpart]
  exact hs⟩

theorem State.tilePhase_parts (s : State) (k : Word64 × Word64) (t : Nat) : (s.tilePhase k t).parts = s.parts := by
  unfold State.tilePhase
  dsimp only
  split
  · exact State.raise_parts _ _
  · rfl

theorem State.corePhase_parts (s : State) (entry phase mb step c : Nat) : (s.corePhase entry phase mb step c).parts = s.parts := by
  unfold State.corePhase
  dsimp only
  split
  · rfl
  · split
    · rfl
    · exact State.raise_parts _ _

theorem State.runPhase_keepsRev (s : State) (p k : Nat) (e : TtEntry) : KeepsRev p s (s.runPhase p k e) := by
  unfold State.runPhase
  dsimp only
  generalize hgov : s.modGov p _ = u
  have hu : KeepsRev p s u := hgov ▸ .modGov p s fun _ => rfl
  refine hu.trans (.of_parts ?_)
  have htiles := fun key (l : List Nat) (t : State) => foldl_same State.parts (f := (State.tilePhase · key ·)) (fun t n => t.tilePhase_parts key n) l t
  have hcores := fun entry phase mb step (l : List Nat) (t : State) =>
    foldl_same State.parts (f := (State.corePhase · entry phase mb step ·)) (fun t n => t.corePhase_parts entry phase mb step n) l t
  split
  · exact (State.parts_of_sansWork (State.foldQuerns_sansWork ..)).trans ((hcores ..).trans (htiles ..))
  · exact (hcores ..).trans (htiles ..)

theorem State.phaseEntry_keepsRev (s : State) (p i : Nat) (e : TtEntry) : KeepsRev p s (s.phaseEntry p i e) := by
  unfold State.phaseEntry
  dsimp only
  split
  · exact (KeepsRev.modGov p s (f := fun g => g.setRun _ _) fun _ => rfl).trans (State.takeMisses_keepsRev ..)
  · split
    · exact .modGov p s fun _ => rfl
    · exact State.runPhase_keepsRev ..

theorem State.leaseCheck_keepsRev (s : State) (p i : Nat) (e : TtEntry) : KeepsRev p s (s.leaseCheck p i e) := by
  have hwarn : ∀ (t : State) left, (t.leaseWarning p left).parts = t.parts := fun t left => by
    unfold State.leaseWarning
    split
    · rfl
    · dsimp only
      split
      · rfl
      · exact (congrArg State.parts (State.record_sansCtx t _ _) :)
  unfold State.leaseCheck
  dsimp only
  split
  · exact (State.completeRun_keepsRev ..).trans (.of_parts (hwarn ..))
  · exact State.completeRun_keepsRev ..

theorem State.testSlot_keepsRev (s : State) (p i : Nat) (e : TtEntry) : KeepsRev p s (s.testSlot p i e) := by
  unfold State.testSlot
  dsimp only
  split
  · exact (State.completeRun_keepsRev ..).trans (State.raise_keepsRev ..)
  · exact .of_parts rfl

theorem State.versionRelease_keepsRev (s : State) (p i : Nat) (e : TtEntry) : KeepsRev p s (s.versionRelease p i e) :=
  KeepsRev.trans (.of_parts (State.parts_of_sansWork (State.foldQuerns_sansWork ..))) (State.completeRun_keepsRev ..)

theorem State.powerHint_keepsRev (s : State) (p i : Nat) (e : TtEntry) : KeepsRev p s (s.powerHint p i e) := by
  refine KeepsRev.trans (.of_parts ?_) (State.completeRun_keepsRev ..)
  exact foldl_same State.parts (f := State.retarget) (fun t d => (congrArg State.parts (t.retarget_sansPwr d) :)) _ _

/-! ### An entry starts -/

/-- Mill time's registers once the beat has counted a start. -/
def Mill.countedStart (m : Mill) : Mill :=
  { m with beat := m.now / 64, beatStarts := (if m.beat = m.now / 64 then m.beatStarts else 0) + 1 }

/-- The beat counts the start of an entry that is one of its starts. -/
def State.counted (s : State) (p : Nat) (e : TtEntry) : State :=
  { s with mill := if (s.part p).gov.starts e then s.mill.countedStart else s.mill }

theorem State.counted_eq (s : State) (p : Nat) (e : TtEntry) : (if (s.part p).gov.starts e then s.countStart else s) = s.counted p e := by
  unfold State.counted
  split <;> rfl

theorem State.counted_now (s : State) (p : Nat) (e : TtEntry) : (s.counted p e).mill.now = s.mill.now := by
  unfold State.counted
  dsimp only
  split <;> rfl

/-- The instant at which an entry is due. -/
def Gov.entryStart (g : Gov) (e : TtEntry) : Nat := g.revStart g.rev + 64 * e.offset

/-- The run of an entry takes its status at its start. -/
def State.entryTakes (s : State) (p i : Nat) (e : TtEntry) (status : EntryStatus) : State :=
  (s.counted p e).modGov p fun g => g.setRun (g.key i) { status := status, start := (s.part p).gov.entryStart e }

/-- A start more than a beat late is reported, unless the entry is held or has ended. -/
def State.lateReported (x : State) (p i : Nat) (e : TtEntry) (start now : Nat) : State :=
  let r := ((x.part p).gov.run ((x.part p).gov.key i)).status
  if start + 64 < now ∧ r ≠ .held ∧ r ≠ .ended then x.raise (govFault p 0x0103 3 i e.kind 0 0) else x

section
variable {s : State} {p i kind : Nat} {e : TtEntry}

theorem State.due_running (h : s.due p i = true) : (s.part p).state = .running := by
  unfold State.due at h
  simp only [Bool.and_eq_true] at h
  obtain ⟨⟨⟨⟨⟨⟨hstate, -⟩, -⟩, -⟩, -⟩, -⟩, -⟩ := h
  exact eq_of_beq hstate

theorem State.entryTakes_runs (hdue : s.due p i = true) (status : EntryStatus) :
    RunsRev p (s.part p).gov.nextRev (s.entryTakes p i e status) := by
  have hkeeps : KeepsRev p (s.counted p e) (s.entryTakes p i e status) := .modGov p (s.counted p e) fun _ => rfl
  exact hkeeps.runs _ ⟨State.due_running (s := s) hdue, rfl⟩

/-- The start of an entry of its kind, which is due and for which the beat has room. -/
theorem State.startEntry_eq (he : (s.part p).gov.tt.entries[i]? = some e) (hdue : s.due p i = true)
    (hroom : (s.part p).gov.starts e = true → s.startAllowed p = true) (hkind : e.kind = kind) (f : TtEntry → State → State) :
    s.startEntry p i kind f =
      if s.leaseLapsed p then s.brakeBy p .lease
      else if (s.part p).gov.aborted && endsEntry false e.kind then s.entryTakes p i e .ended
      else
        let x := f e (s.entryTakes p i e .running)
        let r := ((x.part p).gov.run ((s.part p).gov.key i)).status
        if decide ((s.part p).gov.entryStart e + 64 < (s.counted p e).now) && r != .held && r != .ended
        then x.raise (govFault p 0x0103 3 i e.kind 0 0) else x := by
  have hallowed : (!(s.part p).gov.starts e || s.startAllowed p) = true := by
    cases hstarts : (s.part p).gov.starts e
    · rfl
    · rw [hroom hstarts]; rfl
  unfold State.startEntry
  dsimp only
  rw [he]
  dsimp only
  rw [hdue, hallowed, beq_iff_eq.mpr hkind, State.counted_eq]
  exact if_pos rfl

theorem State.startEntry_lapsed (he : (s.part p).gov.tt.entries[i]? = some e) (hdue : s.due p i = true)
    (hroom : (s.part p).gov.starts e = true → s.startAllowed p = true) (hlapsed : s.leaseLapsed p = true) (hkind : e.kind = kind)
    (f : TtEntry → State → State) : s.startEntry p i kind f = s.brakeBy p .lease :=
  (State.startEntry_eq he hdue hroom hkind f).trans (if_pos hlapsed)

theorem State.startEntry_skipped (he : (s.part p).gov.tt.entries[i]? = some e) (hdue : s.due p i = true)
    (hroom : (s.part p).gov.starts e = true → s.startAllowed p = true) (hlease : s.leaseLapsed p = false)
    (haborted : (s.part p).gov.aborted = true) (hends : endsEntry false e.kind = true) (hkind : e.kind = kind) (f : TtEntry → State → State) :
    s.startEntry p i kind f = s.entryTakes p i e .ended := by
  rw [State.startEntry_eq he hdue hroom hkind f, hlease, if_neg Bool.false_ne_true, haborted, hends]
  exact if_pos rfl

/-- An entry's work leaves its revolution, so that the report of a late start reads the run that started. -/
theorem State.startEntry_starts (he : (s.part p).gov.tt.entries[i]? = some e) (hdue : s.due p i = true)
    (hroom : (s.part p).gov.starts e = true → s.startAllowed p = true) (hlease : s.leaseLapsed p = false)
    (hgoes : (s.part p).gov.aborted = true → endsEntry false e.kind = false) (hkind : e.kind = kind) {f : TtEntry → State → State}
    (hf : KeepsRev p (s.entryTakes p i e .running) (f e (s.entryTakes p i e .running))) :
    s.startEntry p i kind f = (f e (s.entryTakes p i e .running)).lateReported p i e ((s.part p).gov.entryStart e) s.mill.now := by
  have hskip : ((s.part p).gov.aborted && endsEntry false e.kind) = false := by
    cases haborted : (s.part p).gov.aborted
    · rfl
    · rw [hgoes haborted]; rfl
  obtain ⟨-, hrev⟩ := hf.runs _ (State.entryTakes_runs hdue .running)
  have hkey : ((f e (s.entryTakes p i e .running)).part p).gov.key i = (s.part p).gov.key i := by
    rw [Gov.key, Gov.rev, hrev]
    rfl
  have hnow : (s.counted p e).now = s.mill.now := s.counted_now p e
  rw [State.startEntry_eq he hdue hroom hkind f, hlease, if_neg Bool.false_ne_true, hskip, if_neg Bool.false_ne_true]
  dsimp only
  rw [State.lateReported, hkey, hnow]
  refine if_congr ?_ rfl rfl
  simp only [Bool.and_eq_true, decide_eq_true_eq, bne_iff_ne, and_assoc, ne_eq]

end

/-! ### A scan leaves the partitions -/

theorem State.scanStop_parts (s : State) (x q i code : Nat) (addr : Option Nat) : (s.scanStop x q i code addr).parts = s.parts := by
  have hrecord : ∀ (u : State) r, (u.record x r).parts = u.parts := fun u r => (congrArg State.parts (u.record_sansCtx x r) :)
  unfold State.scanStop
  exact (hrecord _ _).trans (State.raise_parts _ _)

theorem State.fetchCmds_parts (s : State) (x q : Nat) (o : Obj) (n : Nat) : (s.fetchCmds x q o n).parts = s.parts := by
  induction n generalizing s with
  | zero => rfl
  | succ n ih =>
    unfold State.fetchCmds
    dsimp only
    split
    · exact (State.scanStop_parts ..).trans (State.readObj_parts ..)
    · exact (ih _).trans (State.readObj_parts ..)

theorem State.scanQueue_parts (s : State) (x : Nat) (o : Obj) (hdr : List Byte) (q : Nat) : (s.scanQueue x o hdr q).parts = s.parts := by
  unfold State.scanQueue
  dsimp only
  exact State.parts_ite (State.parts_ite rfl rfl) (State.parts_ite ((State.scanStop_parts ..).trans (State.parts_ite rfl rfl))
    ((State.fetchCmds_parts ..).trans (State.parts_ite rfl rfl)))

theorem State.scanCtx_parts (s : State) (x : Nat) : (s.scanCtx x).parts = s.parts := by
  unfold State.scanCtx
  dsimp only
  split
  · rfl
  · split
    · rfl
    · split
      · exact (State.raise_parts _ _).trans (State.readObj_parts ..)
      · exact (foldl_same State.parts (fun t q => t.scanQueue_parts x _ _ q) _ _).trans (State.readObj_parts s ..)

theorem State.scans_keepsRev (s : State) (p : Nat) (l : List Nat) : KeepsRev p s (l.foldl State.scanCtx s) :=
  .of_parts (foldl_same State.parts (f := State.scanCtx) State.scanCtx_parts l s)

/-- Settles O20. -/
theorem timetableEntriesStart : Obligations.TimetableEntriesStart := by
  unfold Obligations.TimetableEntriesStart
  intro s p i e he hdue hroom
  have hstarts := fun hlease hgoes {kind : Nat} {f : TtEntry → State → State} (hkind : e.kind = kind) hf =>
    congrArg (Host.Outcome.next (φ := Fault) (ρ := Refusal)) (State.startEntry_starts (kind := kind) (f := f) he hdue hroom hlease hgoes hkind hf)
  refine ⟨fun hlapsed k hk hkind => ?_, fun hlease haborted hends k hk hkind => ?_, fun hlease hgoes =>
    ⟨fun hkind => hstarts hlease hgoes hkind (State.phaseEntry_keepsRev ..), fun hkind => hstarts hlease hgoes hkind (State.windowEntry_keepsRev ..),
      fun hkind => hstarts hlease hgoes hkind ((State.scans_keepsRev ..).trans (State.completeRun_keepsRev ..)),
      fun hkind => hstarts hlease hgoes hkind (State.leaseCheck_keepsRev ..), fun hkind => hstarts hlease hgoes hkind (State.compareEntry_keepsRev ..),
      fun hkind => hstarts hlease hgoes hkind (State.testSlot_keepsRev ..), fun hkind => hstarts hlease hgoes hkind (State.versionRelease_keepsRev ..),
      fun hkind => hstarts hlease hgoes hkind (State.powerHint_keepsRev ..)⟩⟩
  · have hbrakes := fun {kind : Nat} (hkind : e.kind = kind) f => congrArg (Host.Outcome.next (φ := Fault) (ρ := Refusal))
      (State.startEntry_lapsed (kind := kind) he hdue hroom hlapsed hkind f)
    simp only [List.mem_cons, List.not_mem_nil, or_false] at hk
    rcases hk with rfl | rfl | rfl | rfl | rfl | rfl | rfl | rfl <;> exact hbrakes hkind _
  · have hskips := fun {kind : Nat} (hkind : e.kind = kind) f => congrArg (Host.Outcome.next (φ := Fault) (ρ := Refusal))
      (State.startEntry_skipped (kind := kind) he hdue hroom hlease haborted hends hkind f)
    simp only [List.mem_cons, List.not_mem_nil, or_false] at hk
    rcases hk with rfl | rfl | rfl <;> exact hskips hkind _

end Sys2Proof.Machine
